-- ==== Sys2Proof/Word.lean ====
section
/-! DEFINITION. The byte and word types of the device and the small named sets its commands carry. -/
namespace Sys2Proof

/-- One byte; every multi-byte value of the device is little-endian (R3). -/
abbrev Byte := BitVec 8

/-- A 64-byte submission descriptor as one number, bit 0 of byte 0 first (R122). -/
abbrev Desc := BitVec 512

/-- A 32-byte bypass message: step marks and step beacons (R31, R34). -/
abbrev Beacon := BitVec 256

/-- The principals of the object dictionary (R613): S the steward, M the rack manager, K the keystone, N the Mint
and T a tenant. -/
inductive Prin where
  | s | m | k | n | t (tenant : Fin 64)
  deriving DecidableEq, Repr

/-- An instance of the tenant queue window: the steward's, or a tenant's (R384). -/
inductive Win where
  | steward | tenant (t : Fin 64)
  deriving DecidableEq, Repr

/-- Who reaches a window by an address (R635, R636, R648): the steward, a tenant's view, a training sequencer's instance of
the HBM window, and the rack manager at its teller channel's offsets. -/
inductive Door where
  | steward | tenant (t : Fin 64) | sequencer (i : Fin 4) | rack
  deriving DecidableEq, Repr

/-- What a decoder or a MAC check finds of a stored line (R293, R298): the physical condition that a read meets. -/
inductive Finding where
  /-- No symbol in error. -/
  | clean
  /-- One or two stored symbols in error; `n` of them. -/
  | corrected (n : Nat)
  /-- A located error in an address symbol. -/
  | address
  /-- Three or more symbols in error; `n` of them. -/
  | uncorrectable (n : Nat)
  /-- The decoded tag is not the owner's. -/
  | tag
  /-- The sector's MAC does not match. -/
  | mac
  deriving DecidableEq, Repr

/-- A KAF message: the header's fields of R468 and the data that follows it. -/
structure KafMsg where
  op : Nat
  mask : Nat
  addr : Nat
  pasid : Nat
  tag : Nat
  fwdTag : Nat
  fwdAgent : Nat
  srcDev : Nat
  code : Nat
  delay : Nat
  data : List Byte
  deriving DecidableEq, Repr

/-- A dyadic number, `m * 2^e`: every finite value of every number format of R92 is one. -/
structure Dy where
  m : Int := 0
  e : Int := 0
  deriving DecidableEq, Repr

end Sys2Proof
end

