-- ==== Sys2Proof/Syntax.lean ====
section
/-! DEFINITION. The commands of the block: one constructor for each row of the command table, with the operands its
rule gives it. Commands that stand for an event inside the device name the unit the event happens in; a value the
specification leaves to the world outside (a message, a temperature, what a decoder finds) is an operand. -/

namespace Sys2Proof

/-- The commands. A port is a KAF link: 0 to 7 the piers, 8 to 11 the span ports, 12 the viaduct (R458). -/
inductive Instr where
  -- The step clock
  /-- R31, R33: a step mark arrives on a port; `delay` truss cycles of crossing from IO1 (R40). -/
  | stepMark (port : Fin 13) (delay : Nat) (m : Beacon)
  /-- R640: a steward write of STEPMARK. -/
  | stepmark (v : BitVec 32)
  /-- R715: the step in progress has lasted 2100:03. -/
  | selfTimedStep
  /-- R37, R43: a beacon arrives. -/
  | stepBeacon (port : Fin 13) (delay : Nat) (m : Beacon)
  /-- R46: the beacon timeout. -/
  | beaconTimeout
  /-- R46, R716: an internal step ends. -/
  | internalStepBoundary
  /-- R48: a coasted beacon arrives. -/
  | coastedBeacon (port : Fin 13) (delay : Nat) (m : Beacon)
  /-- R39, R45: the accumulator would pass phase 65,535. -/
  | stepOverrun
  /-- R54: a write of 2100:01, :06 or :09 by a principal. -/
  | stepClockReconfigure (p : Prin) (sub : BitVec 8) (v : Nat)
  /-- R50 orders 5, 8, 7 and 9. -/
  | backgroundWindowOpen
  /-- The controllers whose decoder vectors failed in the window (R300). -/
  | backgroundWindowClose (bad : List (Fin 24))
  | layerPrefetchEvent
  | checkpointCopyDeadline
  -- Queue pairs and descriptors
  /-- R121: the head descriptor of a queue pair has an unknown opcode. -/
  | unsupported (qp : Fin 1024)
  /-- R646: doorbell writes in a window instance, on the pair its TQSEL selects. -/
  | sqtail (w : Win) (v : BitVec 32)
  | cqhead (w : Win) (v : BitVec 32)
  /-- R403: the scheduler of an I/O die reads a head descriptor. -/
  | descriptorRead (die : Fin 2)
  /-- R406: the hold limit of a descriptor that was read, or (none) of the starved head of a queue pair. -/
  | admissionHoldLimit (qp : Fin 1024) (d : Option Nat)
  /-- R125 to R161: the dispatch of descriptor `d`. -/
  | attend (d : Nat)
  | append (d : Nat)
  | fork (d : Nat)
  | trim (d : Nat)
  | summarize (d : Nat)
  | prefetch (d : Nat)
  | pin (d : Nat)
  | evict (d : Nat)
  | compact (d : Nat)
  /-- R139: the deadline of an ATTEND. -/
  | attendDeadline (d : Nat)
  -- Attention cores
  /-- R71. -/
  | workItemStart (c : Fin 20)
  /-- R67: read number `n` of those outstanding returns, with what its lines' decoder finds. -/
  | t1GranuleReady (c : Fin 20) (n : Nat) (f : Finding)
  /-- R78: the summary pass, and a round's stream, end. -/
  | summaryPassEnd (c : Fin 20)
  | certifiedCheck (c : Fin 20)
  /-- R83: the oldest partial of descriptor `d` waiting in a die's counting house is merged. -/
  | partialArrival (die : Fin 2) (d : Nat)
  /-- R84: the home die forms the output. -/
  | outputFormed (d : Nat)
  /-- R132: a partner acknowledges a push write. -/
  | pushAck (pier : Fin 8) (m : KafMsg)
  /-- R244: a core's check tile ends; `ok` when its digest is the expected one. -/
  | checkTile (c : Fin 20) (ok : Bool)
  /-- R243 reasons 4, 3 and 5. -/
  | coreWatchdog (c : Fin 20)
  | coreSramUncorrectable (c : Fin 20)
  | quadrantAttachmentFail (q : Fin 4)
  /-- R256: a write of 9001:01. -/
  | fenceCore (p : Prin) (v : BitVec 8)
  /-- R247. -/
  | fenceReadsDrained (c : Fin 20)
  /-- R254: a write of 9001:02, and the end of the tests. -/
  | returnCore (p : Prin) (v : BitVec 8)
  | coreTestEnd (c : Fin 20) (ok : Bool)
  -- Contexts, pages and tiers
  /-- R171, R172: CTXCMD writes, on the context that CTXSEL names. -/
  | ctxOpen
  | openEnd
  | ctxClose
  | releaseWalkEnd (c : Fin 4096)
  /-- R128: the drain number `n` has no holder left. -/
  | frameDrainEnd (n : Nat)
  /-- R218, R219. -/
  | tierhint (w : Win) (v : BitVec 64)
  /-- R216: the fetch engine of a core stands at a tile that is not resident. -/
  | residencyFault (c : Fin 20)
  /-- R210, R211: a move ends; `f` is what the read of the source copy found. -/
  | moveComplete (id : Nat) (f : Finding)
  /-- R222. -/
  | automaticDemotion (t : Fin 64)
  /-- R231. -/
  | t3BudgetRefill (ns : Fin 64)
  /-- R234: the block of a waiting direct access has been read from T3. -/
  | tierCacheMiss (block : Nat)
  /-- R236, R237: a tray (or namespace) record is set active; `ok` when the tray is present, trains and, for a
  namespace, has 4,096-byte blocks without metadata. -/
  | trayRecordActivate (p : Prin) (t3 : Bool) (n : Fin 64) (rec : List Byte) (ok : Bool)
  /-- R239. -/
  | trayFail (t3 : Bool) (n : Fin 64)
  -- HBM
  /-- R265: a write of PATCTL in an HBM window instance: 0 the steward's, 1 to 4 the training sequencers'. -/
  | patctl (inst : Fin 5) (v : BitVec 64)
  /-- R266: the operation ends with a compare result. -/
  | patternOpDone (c : Fin 24) (res : BitVec 64) (lanes : BitVec 36)
  /-- R273: `issue` the refresh now, or postpone it. -/
  | refreshDue (c : Fin 24) (pc : Fin 64) (bank : Fin 64) (issue : Bool)
  /-- R272, in °C. -/
  | stackTemperatureChange (c : Fin 24) (t : Nat)
  /-- R275: a row's count reaches the threshold; of several requesters with the most activations of it, the one credited (R276). -/
  | targetedRefresh (c : Fin 24) (pc : Fin 64) (bank : Fin 64) (row : Fin 16384) (tag source : BitVec 8)
  /-- R277. -/
  | throttleIntervalEnd
  /-- R279, R280. -/
  | selfRefreshEntry (c : Fin 24)
  | selfRefreshExit (c : Fin 24)
  /-- R285, R287: the group in progress ends; the controllers whose retraining fails, each with the lanes. -/
  | retrainGroup (bad : List (Fin 24 × Nat))
  | retrainController (p : Prin) (v : BitVec 8)
  /-- R301, R302: what the scrubber's read finds. -/
  | patrolScrubRead (c : Fin 24) (f : Finding)
  | immediateScrub (c : Fin 24) (f : Finding)
  /-- R309. -/
  | stewardReadIndex (v : BitVec 32)
  /-- R311. -/
  | retireGranule (v : BitVec 64)
  | retireBank (v : BitVec 32)
  /-- R296: a write of 4041:sub. -/
  | macRegionPlace (sub : BitVec 8) (v : Nat)
  -- Coherence
  | rdShared (port : Fin 13) (m : KafMsg)
  | rdOwn (port : Fin 13) (m : KafMsg)
  | upgrade (port : Fin 13) (m : KafMsg)
  | rdUncached (port : Fin 13) (m : KafMsg)
  | wrUncached (port : Fin 13) (m : KafMsg)
  | evictClean (port : Fin 13) (m : KafMsg)
  | wbDirty (port : Fin 13) (m : KafMsg)
  | snoopResponse (port : Fin 13) (m : KafMsg)
  | rspCopy (port : Fin 13) (m : KafMsg)
  | rspWbPend (port : Fin 13) (m : KafMsg)
  | fwdAck (port : Fin 13) (m : KafMsg)
  /-- R329: requests of a CXL processor; `meta` is the MetaValue: 0 Invalid, 2 Any, 3 Shared. -/
  | cxlMemRd (port : Fin 4) (tag : Nat) (addr : BitVec 57) (mv : BitVec 2)
  | cxlMemRdData (port : Fin 4) (tag : Nat) (addr : BitVec 57)
  | cxlMemInv (port : Fin 4) (tag : Nat) (addr : BitVec 57) (mv : BitVec 2)
  | cxlMemClnEvct (port : Fin 4) (tag : Nat) (addr : BitVec 57)
  | cxlMemWr (port : Fin 4) (tag : Nat) (addr : BitVec 57) (mask : BitVec 64) (data : List Byte) (poison : Bool)
  /-- R342: a back-invalidate response (0 BIRspI, 1 BIRspS, 2 BIRspE) or the processor's BIConflict (3). -/
  | biSnoopResponse (port : Fin 4) (kind : BitVec 2) (addr : BitVec 52)
  /-- R330: the oldest request waiting for a line takes its lock. -/
  | lineLockAcquire (line : Nat)
  /-- R343, R345, R346. -/
  | snoopTimeout (a : Fin 12) (line : Nat)
  | agentFailed (a : Fin 12)
  | declareAgentFailed (v : BitVec 8)
  /-- R344. -/
  | escrowRecallWalk (ext : Nat)
  -- Translation
  /-- R363: the walk for descriptor `d`'s block reaches a pending entry. -/
  | pendingFault (d : Nat)
  | faultQueueSlotFree
  | pendingRewalk (n : Nat)
  | pendingFaultTimeout (n : Nat)
  | xlinvcmd (w : Win) (v : BitVec 64)
  | invalidationStart
  | invalidationComplete
  | xlinvstatRead (w : Win)
  | bindPasid (v : BitVec 128)
  | unbindPasid (v : BitVec 32)
  | portPasidWrite (port : Fin 4) (v : BitVec 32)
  /-- R372: a request of a pier or an upstream CXL port whose address names another member of the span. -/
  | spanRemoteForward (port : Fin 13) (m : KafMsg)
  -- Tenants, extents and queue pairs
  | tenantCreate (v : BitVec 16)
  | tenantRemove (v : BitVec 16)
  | removalStepEnd (t : Fin 64)
  | grantExtent (v : BitVec 128)
  | zeroizeDone (ext : Nat)
  | revokeExtent (v : BitVec 32)
  | escrowStepEnd (ext : Nat)
  | qpcfgEnable (w : Win) (v : BitVec 64)
  | qpcfgReinit (w : Win) (v : BitVec 64)
  | reinitDone (qp : Fin 1024)
  | interruptCoalesceTimer (qp : Fin 1024)
  | readerSetWrite (set : Fin 16) (v : BitVec 64)
  -- Keys and the Mint
  | keyRotate (p : Prin) (t : Fin 64)
  | rewrapUnit (t : Fin 64) (ext : Nat)
  | sweepComplete (t : Fin 64)
  | retireOldEpoch (p : Prin) (t : Fin 64)
  | sealKeysWrite (t : Fin 64) (v : Bool)
  | randomSourceHealthFail
  /-- R454: the Mint takes the message of a teller channel (`none`: an MCTP message with these bytes). -/
  | spdm (ch : Option (Fin 72)) (bytes : List Byte)
  | getVersion (ch : Option (Fin 72)) (bytes : List Byte)
  | getCapabilities (ch : Option (Fin 72)) (bytes : List Byte)
  | negotiateAlgorithms (ch : Option (Fin 72)) (bytes : List Byte)
  | getDigests (ch : Option (Fin 72)) (bytes : List Byte)
  | getCertificate (ch : Option (Fin 72)) (bytes : List Byte)
  | challenge (ch : Option (Fin 72)) (bytes : List Byte)
  | getMeasurements (ch : Option (Fin 72)) (bytes : List Byte)
  | keyExchange (ch : Option (Fin 72)) (bytes : List Byte)
  | finish (ch : Option (Fin 72)) (bytes : List Byte)
  | heartbeat (ch : Option (Fin 72)) (bytes : List Byte)
  | keyUpdate (ch : Option (Fin 72)) (bytes : List Byte)
  | endSession (ch : Option (Fin 72)) (bytes : List Byte)
  | chunkGet (ch : Option (Fin 72)) (bytes : List Byte)
  | pqCerts (ch : Option (Fin 72)) (bytes : List Byte)
  | pqSig (ch : Option (Fin 72)) (bytes : List Byte)
  | tenantReport (ch : Option (Fin 72)) (bytes : List Byte)
  | bundleKeys (ch : Option (Fin 72)) (bytes : List Byte)
  /-- R454: the Mint takes the verb that a channel's message carries. -/
  | extend (ch : Fin 72)
  | bundleImport (ch : Fin 72)
  | bundleImportEnd (ok : Bool)
  | debugUnlock (ch : Fin 72)
  | unknownVerb (ch : Fin 72)
  -- KAF links
  | linkctlRestart (l : Fin 13)
  | linkctlRetrain (l : Fin 13)
  | linkctlDown (l : Fin 13)
  | linkctlRekey (l : Fin 13)
  | linkRestartDelay (l : Fin 13)
  | linkPartnerDetect (l : Fin 13) (lanes : BitVec 8)
  /-- R460, R461: a stage ends: the lanes that pass, the round trip R (R463), and that the partner supports KAF3 (or, outside
  SPEED and a commanded retrain, that the stage succeeds). -/
  | linkTrainingStageEnd (l : Fin 13) (lanes : BitVec 8) (rtt : Nat) (ok : Bool)
  | linkStateTimeout (l : Fin 13)
  /-- R477: a flit position arrives: whether FEC and CRC, and the tag, hold; its sequence number (none: an IDLE flit), ack,
  off bits, request and key phase. The messages its slots complete are commands of their own. -/
  | flitPosition (l : Fin 13) (good : Bool) (tagOk : Bool) (seq : Option (BitVec 12)) (ack : BitVec 12)
      (xoff : BitVec 4) (req : BitVec 2) (reqSeq : BitVec 12) (phase : Bool)
  | holdingTimeout (l : Fin 13)
  | goBackResendTimeout (l : Fin 13)
  | replayTimeout (l : Fin 13)
  | linkRetrainTrigger (l : Fin 13)
  | linkDown (l : Fin 13) (reason : BitVec 4)
  | rekeyInterval (l : Fin 13)
  /-- R484: link-channel messages, fragment by fragment. -/
  | keyHello (l : Fin 13) (m : KafMsg)
  | keyReply (l : Fin 13) (m : KafMsg)
  | keyProof (l : Fin 13) (m : KafMsg)
  | tlmsg (port : Fin 13) (m : KafMsg)
  | tlans (port : Fin 13) (m : KafMsg)
  | malformedMessage (l : Fin 13) (header : BitVec 256) (vc : Fin 8) (len : Nat)
  | blkRd (port : Fin 13) (m : KafMsg)
  | blkWr (port : Fin 13) (m : KafMsg)
  | winRd (port : Fin 13) (m : KafMsg)
  | winWr (port : Fin 13) (m : KafMsg)
  -- The truss and traffic shaping
  | tableCommit (v : Bool)
  | epochRetire
  | trussFlitCrcFail (link : Fin 22) (dir : Bool)
  | multicastDeliveryNotice (id : Nat) (dest : Nat)
  | resetDrainLimit
  | gateEntryBoundary
  | gateChangeCommit (p : Prin) (v : Bool)
  | gateListChange
  | tollRelease (toll : Nat)
  | queueSample
  | resetSampleRecord (v : BitVec 16)
  -- Foreign ports
  | ucieLinkLoss
  | uperrstatRead (port : Fin 4)
  | cxlLinkDown (port : Fin 4)
  | trayRequestTimeout (tray : Fin 32)
  | nvmeCommandTimeout (port : Fin 4) (cid : Nat)
  | nvmeCompletion (port : Fin 4) (cid : Nat) (status : BitVec 16)
  | rdmaWrite (port : Fin 2) (qp : Fin 256) (psn : BitVec 24) (rkey : BitVec 32) (addr : BitVec 64) (data : List Byte)
      (dscp : BitVec 6)
  | rdmaReadRequest (port : Fin 2) (qp : Fin 256) (psn : BitVec 24) (rkey : BitVec 32) (addr : BitVec 64) (len : Nat)
      (dscp : BitVec 6)
  | roceAcknowledge (port : Fin 2) (qp : Fin 256) (psn : BitVec 24) (nak : Bool)
  | roceInvalidRequest (port : Fin 2) (qp : Fin 256) (psn : BitVec 24) (opcode : BitVec 8)
  | ethernetFrameDiscard (port : Fin 2) (frame : List Byte)
  | neighborResolution (port : Fin 2) (frame : List Byte)
  | ptpSync (port : Fin 2) (domain : BitVec 8) (origin : Nat) (offset : Int)
  | ptpLockLoss (port : Fin 2)
  | mkaFrame (port : Fin 2) (frame : List Byte)
  /-- R565: a write of record `qp` of 5510 (port 0) or 5511 (port 1). -/
  | roceRecordWrite (port : Fin 2) (qp : Fin 256) (rec : List Byte)
  -- Spans and twin pairs
  | spanMapWrite (p : Prin) (rec : List Byte)
  | spanMapDigest (index : Fin 16) (digest : BitVec 384)
  | stripedPart (port : Fin 13) (desc : Desc) (home : Fin 16) (d : Nat) (len : Nat) (input : List Byte)
  | memberReport (d : Nat) (index : Fin 16) (code : BitVec 8) (detail : BitVec 8) (r1 r2 rounds : Nat)
  | stripeCommit (port : Fin 13) (d : Nat)
  | stripeAbort (port : Fin 13) (d : Nat)
  | spanPartial (port : Fin 13) (d : Nat) (rows : List (Option Dy × Dy × Option Dy × List Dy))
  | successorTakeover
  | twinLogRecord (src : Nat) (tag : Nat) (line : Nat) (entry : BitVec 64) (data : List Byte)
  | relayedWriteAck (id : Nat)
  | twinKeepalive
  | pathSilence (viaduct : Bool)
  /-- R596: the partner's step record: the step, the digests of the extent table and of the log, the records of the
  buckets closed (key, the fields of R598), a self-check's result, the sequence numbers, and the lead's commands. -/
  | stepRecord (step : Nat) (ledger dir : BitVec 384) (buckets : List (Nat × List Nat)) (check : Option Bool)
      (seqs : List (Nat × Nat)) (cmds : List (Nat × Nat × List Byte))
  | twinSelfCheck (ok : Bool)
  | disagreementAction
  | resyncPhaseEnd
  | holdBufferOverflow
  | handoverFail
  -- The object dictionary, CANopen FD and MCTP
  | objectRead (p : Prin) (path : Fin 80) (index : BitVec 16) (sub : BitVec 8) (offset : Nat) (len : Nat)
  | objectWrite (p : Prin) (path : Fin 80) (index : BitVec 16) (sub : BitVec 8) (offset : Nat) (total : Nat)
      (data : List Byte)
  | stagedWriteAbort (p : Prin) (path : Fin 80)
  | stagedWriteTimeout (p : Prin) (path : Fin 80)
  | nmtStart
  | nmtStop
  | nmtEnterPreOperational
  | nmtResetCommunication
  | nmtResetNode
  | usdoTransfer (upload : Bool) (index : BitVec 16) (sub : BitVec 8) (total : Nat) (data : List Byte) (last : Bool)
  | heartbeatPeriod
  | emcyInhibitExpiry
  | entdaa (addr : BitVec 7)
  | setEndpointId (eid : BitVec 8)
  | getEndpointId
  | getMctpVersionSupport (type : BitVec 8)
  | getMessageTypeSupport
  -- Registers and tellers
  /-- R637: a write of bytes at an offset: from the window base W for the steward, within the view for a tenant, within the
  HBM window for a sequencer, within the channel block for the rack manager. -/
  | registerWrite (w : Door) (off : Nat) (data : List Byte)
  | tlsend (ch : Fin 72) (v : BitVec 64)
  | dictionaryService
  | tlrdone (ch : Fin 72) (v : BitVec 32)
  | inback (v : BitVec 64)
  -- Tallies and traces
  | resetTallyGroup (p : Prin) (v : BitVec 8)
  | resetTenantTallies (p : Prin) (t : Fin 64)
  | freeze (p : Prin) (v : Bool)
  | freezeTrigger
  | traceRecord (die : Fin 2)
  | arm (p : Prin) (v : Bool)
  | triggerNow (p : Prin) (v : Bool)
  | traceTrigger (die : Fin 2)
  -- Power, reset and recovery
  | powerUp (mv : Nat)
  /-- R685: the step ends, `ok` or not. `images` holds at step 4 the UCIe mode and rate; at step 5 the copy of the record in use,
  the owner record's digest, the SVNs of the record and of the firmware, three firmware digests and the record's body (1, 48, 4,
  4, 144 bytes and the rest); at step 6 the byte 6, the mask of cores that fail (4), and for each controller its failed
  pseudo-channels (8), repaired lanes, temperature and 1 where it fails; at step 7 the byte 7, the copies used at boot steps 3 to 6
  (4) and the steward image's digest (48). -/
  | powerUpStepEnd (ok : Bool) (images : List Byte)
  | orderlyPowerDown (byPin : Bool) (v : BitVec 8)
  | emergencyPowerDown (cause : BitVec 8)
  | rstN
  | requestDeviceReset (p : Prin) (v : BitVec 8)
  | dieFailure (die : Fin 9)
  | deviceReset
  | resetRelease
  | watchdogKick (v : Bool)
  | watchdogExpiry
  | issueAllowanceUpdate (watts : Nat) (hottest : Nat)
  -- Rows the reader added
  | forwardedData (port : Fin 13) (m : KafMsg)
  | blkData (port : Fin 13) (m : KafMsg)
  | agentPurgeEnd (a : Fin 12)
  /-- R546, R558: ports 0 to 3 upstream CXL, 4 to 7 downstream CXL, 8 to 11 PCIe, 12 and 13 Ethernet; the mode, rate, width and
  secure fields of R546 in 4 bytes, and for each tray or namespace found good behind it its number in 1 byte, a length in 2 and,
  for a tray, its DVSEC and CDAT. -/
  | portLinkUp (port : Fin 14) (data : List Byte)
  | ethernetLinkDown (port : Fin 2)
  | nvmeControllerResetEnd (port : Fin 4) (ok : Bool)
  | randomSourceHealthy
  | priorityFlowControlFrame (port : Fin 2) (mask : BitVec 8) (pause : List Nat)
  deriving DecidableEq, Repr

end Sys2Proof
end

