-- ==== Sys2Proof/Decode.lean ====
section
/-! DEFINITION. The command that a word spells by the bits of the command table. No row of the table gives bits, so
no word spells a command. -/

namespace Sys2Proof

/-- The command of a word of `nbits` bits: none, for every word, since the table gives none of its rows any bits. -/
def decodeTableWord (_nbits _w : Nat) : Option Instr := none

end Sys2Proof
end

