-- ==== Sys2Proof/Config.lean ====
section
/-! DEFINITION. What the specification leaves open: the free values and the uninterpreted functions of the model.
Each is opaque, so that nothing in Lean can evaluate it and no claim can rest on its value. -/

namespace Sys2Proof.Config

/-- A free value (log entry 7): the model applies it to the counter of `State` and steps the counter, wherever the
specification says that some value results and does not say which. -/
opaque freeBits : Nat → Nat

/-- Which value within its error an exponential (0), logarithm (1) or softcap (2) of the attention cores takes, by its exact
operands: free, yet one function of them (R119; log entry 9). -/
opaque evalPick : Nat → List Int → Nat

/-- SHA-384 of bytes, uninterpreted (log entry 10). -/
opaque sha384 : List Byte → BitVec 384

/-- The six check symbols of the line code over a codeword's other 71 symbols: the generator is not given (R292; log entry 109). -/
opaque checkSymbols : List Byte → BitVec 48

/-- The SECDED code of a directory entry's bits [55:0] (R323; log entry 109). -/
opaque secded : Nat → BitVec 8

/-! ### Cryptography, uninterpreted (log entry 10) -/

/-- A line's ciphertext, by tag, key generation, tweak and plaintext (R432), and the first 56 bits of AES-256-CMAC, by tag, key
generation and input (R297). -/
opaque xtsLine : Nat → Nat → Nat → List Byte → List Byte
opaque cmac : Nat → Nat → List Byte → BitVec 56

/-- HKDF-SHA-384: Extract by salt and secret, and Expand by key, label and context (R418, R485). -/
opaque hkdfExtract : List Byte → List Byte → BitVec 384
opaque hkdfExpand : BitVec 384 → List Byte → List Byte → BitVec 384

/-- The X25519 secret followed by the ML-KEM secret of a link's key exchange, by the messages exchanged (R485). -/
opaque linkSecret : List Byte → List Byte

/-- This device's DevID digest, 6002:01 (R418, R449). -/
opaque devId : BitVec 384

/-- The fixed digest of the ROM version, which M1 takes (R422). -/
opaque romDigest : BitVec 384

/-- The version strings of the Mint's ROM (0) and of the training firmware (1), 6000:02 and 4010:03, for which no value is given. -/
opaque version : Nat → List Byte

/-- The certificate chain of an algorithm (0 Ed25519, 1 ML-DSA-65) and slot, slot 1's alias certificate depending on M1 to
M5 (R418, R419, R426, R427). -/
opaque certChain : Nat → Nat → List Byte → List Byte

/-- A signature of an algorithm by the key of a certificate slot, which depends on M1 to M5, over a message (R418, R427). -/
opaque sign : Nat → Nat → List Byte → List Byte → List Byte

/-- The bundle public keys (R418). -/
opaque bundleKeys : List Byte

/-- A session's responder exchange data, its MAC, and its record protection, as functions of the transcript (R426). -/
opaque kexShare : List Byte → List Byte
opaque sessionMac : List Byte → List Byte → List Byte
opaque sessionOpen : List Byte → Nat → List Byte → Option (List Byte)
opaque sessionWrap : List Byte → Nat → List Byte → List Byte

/-- Both signatures of a manifest verify under the publisher keys that its digest names (R452). -/
opaque manifestOk : List Byte → Bool

/-- The content key that a device entry of a manifest yields, where it unwraps (R450, R452). -/
opaque contentKey : List Byte → Option (BitVec 256)

/-- The plaintext of a bundle's ciphertext under its content key and identifier (R451). -/
opaque bundlePlain : BitVec 256 → Nat → List Byte → List Byte

/-- What a debug token names, and whether its two signatures verify (R442). -/
opaque tokenDevId : List Byte → BitVec 384
opaque tokenNonce : List Byte → Nat
opaque tokenSigned : List Byte → Bool

/-- The wrapped form of a sealed record (tenant, generation, slot states, sweep), and what unwraps from bytes that the Mint
has not written last (R438, R439). -/
opaque sealWrap : Nat → Nat → Nat → Nat → Bool → List Byte
opaque sealUnwrap : List Byte → Option (Nat × Nat × Nat × Bool)

/-- What a link partner's KEY_PROOF shows (R483): its signatures over T verify, the digests of the roots its two chains end in,
that both are Kazinmar's, and its DevID digest. -/
opaque proofSigned : BitVec 384 → List Byte → Bool
opaque proofRoots : List Byte → BitVec 384 × BitVec 384
opaque proofKazinmar : List Byte → Bool
opaque proofDevId : List Byte → BitVec 384

/-- An MKA frame is genuine under the pre-shared CAK and carries a SAK for a live peer (R571). -/
opaque mkaFrame : List Byte → List Byte → Bool

end Sys2Proof.Config
end

