-- ==== Sys2Proof/Machine/Numerics.lean ====
section
/-! DEFINITION. The number formats of the attention cores and the exact arithmetic behind them: dyadic numbers,
rounding to a format, the KV formats of R91 and R92, and bounds of exp, tanh, cos and sin (R97 to R115). -/

namespace Sys2Proof.Machine

/-! ## Dyadic numbers -/

/-- Zero. -/
def dyZero : Dy := { m := 0, e := 0 }

/-- The integer `n`. -/
def dyOf (n : Int) : Dy := { m := n, e := 0 }

/-- `x` written with the smaller exponent `e`. -/
def dyAlign (x : Dy) (e : Int) : Int := x.m * (2 : Int) ^ (x.e - e).toNat

/-- Exact sum. -/
def dyAdd (x y : Dy) : Dy :=
  if x.m = 0 then y else if y.m = 0 then x else
  let e := min x.e y.e
  { m := dyAlign x e + dyAlign y e, e := e }

/-- Exact negation. -/
def dyNeg (x : Dy) : Dy := { x with m := -x.m }

/-- Exact difference. -/
def dySub (x y : Dy) : Dy := dyAdd x (dyNeg y)

/-- Exact product. -/
def dyMul (x y : Dy) : Dy := { m := x.m * y.m, e := x.e + y.e }

/-- Magnitude. -/
def dyAbs (x : Dy) : Dy := { x with m := x.m.natAbs }

/-- `x < y`. -/
def dyLt (x y : Dy) : Bool :=
  let e := min x.e y.e
  decide (dyAlign x e < dyAlign y e)

/-- `x ≤ y`. -/
def dyLe (x y : Dy) : Bool := !dyLt y x

/-- The larger of two. -/
def dyMax (x y : Dy) : Dy := if dyLt x y then y else x

/-- The smaller of two. -/
def dyMin (x y : Dy) : Dy := if dyLt y x then y else x

/-- `2^k`. -/
def dyPow2 (k : Int) : Dy := { m := 1, e := k }

/-! ## Rounding -/

/-- The roundings the numerics name: to nearest with ties to even, toward +∞, toward −∞, toward zero. -/
inductive Rnd where
  | near | up | down | zero
  deriving DecidableEq, Repr

/-- Quotient of magnitudes `a / b` rounded as `r` says, for a value of sign `neg`. -/
def divRnd (r : Rnd) (neg : Bool) (a b : Nat) : Nat :=
  let q := a / b
  let t := a % b
  match r with
  | .near => if 2 * t > b || (2 * t == b && q % 2 == 1) then q + 1 else q
  | .up => if t ≠ 0 && !neg then q + 1 else q
  | .down => if t ≠ 0 && neg then q + 1 else q
  | .zero => q

/-- `m * 2^e` rounded to a multiple of `2^q`. -/
def dyQuant (r : Rnd) (x : Dy) (q : Int) : Dy :=
  if q ≤ x.e then x
  else
    let n := divRnd r (decide (x.m < 0)) x.m.natAbs (2 ^ (q - x.e).toNat)
    { m := if x.m < 0 then -(n : Int) else n, e := q }

/-- `x` rounded to a significand of `p` bits with no unit below `2^qmin`. -/
def dyRound (r : Rnd) (p : Nat) (qmin : Int) (x : Dy) : Dy :=
  if x.m = 0 then dyZero
  else dyQuant r x (max (x.e + (Nat.log2 x.m.natAbs + 1 : Nat) - p) qmin)

/-- `x / y` rounded as `dyRound` says; the quotient is formed with enough bits that the rounding is that of the
exact quotient (a sticky bit stands for what the division leaves). `y` is not 0. -/
def dyDivRound (r : Rnd) (p : Nat) (qmin : Int) (x y : Dy) : Dy :=
  if x.m = 0 then dyZero
  else
    let k := p + 3 + Nat.log2 y.m.natAbs + 1
    let a := x.m.natAbs * 2 ^ k
    let q := a / y.m.natAbs
    let sticky := if a % y.m.natAbs = 0 then 0 else 1
    let n : Int := (2 * q + sticky : Nat)
    let neg := decide (x.m < 0) != decide (y.m < 0)
    dyRound r p qmin { m := if neg then -n else n, e := x.e - y.e - k - 1 }

/-! ## Formats (R91, R92) -/

/-- A floating-point layout: exponent bits, fraction bits, bias, and whether the all-ones exponent is kept for
non-finite values (E4M3 keeps only all-ones fraction with it, E2M1 keeps none). -/
structure Fmt where
  eb : Nat
  fb : Nat
  bias : Nat
  /-- Largest finite magnitude, as the encoding without its sign. -/
  top : Nat
  deriving DecidableEq, Repr

def fmtF32 : Fmt := { eb := 8, fb := 23, bias := 127, top := 0x7F7FFFFF }
def fmtF64 : Fmt := { eb := 11, fb := 52, bias := 1023, top := 0x7FEFFFFFFFFFFFFF }
def fmtBf16 : Fmt := { eb := 8, fb := 7, bias := 127, top := 0x7F7F }
def fmtF16 : Fmt := { eb := 5, fb := 10, bias := 15, top := 0x7BFF }
def fmtE4m3 : Fmt := { eb := 4, fb := 3, bias := 7, top := 0x7E }
def fmtE5m2 : Fmt := { eb := 5, fb := 2, bias := 15, top := 0x7B }
def fmtE2m1 : Fmt := { eb := 2, fb := 1, bias := 1, top := 0x7 }
/-- QR, the core's internal 19-bit format; it has no non-finite encodings (R92). -/
def fmtQr : Fmt := { eb := 8, fb := 10, bias := 127, top := 0x3FBFF }

/-- Width in bits, sign included. -/
def fmtBits (f : Fmt) : Nat := f.eb + f.fb + 1

/-- The smallest unit: the last place of the subnormals. -/
def fmtUnit (f : Fmt) : Int := 1 - (f.bias : Int) - f.fb

/-- The magnitude bits of an encoding. -/
def fmtMag (f : Fmt) (bits : Nat) : Nat := bits % 2 ^ (f.eb + f.fb)

/-- The sign bit of an encoding. -/
def fmtNeg (f : Fmt) (bits : Nat) : Bool := bits / 2 ^ (f.eb + f.fb) % 2 == 1

/-- The encoding is finite (R93). -/
def fmtFinite (f : Fmt) (bits : Nat) : Bool := decide (fmtMag f bits ≤ f.top)

/-- The value of a finite encoding; subnormals at their value, negative zero as zero (R93). -/
def fmtVal (f : Fmt) (bits : Nat) : Dy :=
  let mag := fmtMag f bits
  let ex := mag / 2 ^ f.fb
  let fr := mag % 2 ^ f.fb
  let s : Int := if fmtNeg f bits then -1 else 1
  if ex = 0 then { m := s * fr, e := fmtUnit f }
  else { m := s * ((2 ^ f.fb + fr : Nat) : Int), e := (ex : Int) - f.bias - f.fb }

/-- The largest finite value of a format. -/
def fmtMax (f : Fmt) : Dy := fmtVal f f.top

/-- `x` rounded to the format's precision, unbounded above. -/
def fmtRound (f : Fmt) (r : Rnd) (x : Dy) : Dy := dyRound r (f.fb + 1) (fmtUnit f) x

/-- The encoding of a magnitude that the format holds exactly. -/
def fmtEncMag (f : Fmt) (x : Dy) : Nat :=
  let n := x.m.natAbs
  if n = 0 then 0
  else
    -- bring the number to units of 2^q, q the unit of its binade
    let q := max (x.e + (Nat.log2 n + 1 : Nat) - (f.fb + 1 : Nat)) (fmtUnit f)
    let k := if q ≤ x.e then n * 2 ^ (x.e - q).toNat else n / 2 ^ (q - x.e).toNat
    -- q = unit + (exponent field - 1) for normal numbers
    (q - fmtUnit f).toNat * 2 ^ f.fb + k

/-- Conversion to a format with saturation to the largest finite value (R108, R111): sign and magnitude. -/
def fmtEncSat (f : Fmt) (r : Rnd) (neg : Bool) (x : Dy) : Nat :=
  let y := fmtRound f r x
  let mag := if dyLt (fmtMax f) (dyAbs y) then f.top else fmtEncMag f y
  mag + (if neg then 2 ^ (f.eb + f.fb) else 0)

/-- FP32 rounding. -/
def r32 (r : Rnd) (x : Dy) : Dy := fmtRound fmtF32 r x

/-- The value exceeds the largest finite FP32 magnitude (R102, R115). -/
def over32 (x : Dy) : Bool := dyLt (fmtMax fmtF32) (dyAbs x)

/-- FP32 sum, product and difference with round to nearest even. -/
def add32 (x y : Dy) : Dy := r32 .near (dyAdd x y)
def mul32 (x y : Dy) : Dy := r32 .near (dyMul x y)
def sub32 (x y : Dy) : Dy := r32 .near (dySub x y)

/-- An FP32 word names a finite value. -/
def f32Finite (w : Nat) : Bool := fmtFinite fmtF32 w

/-- An FP32 word is positive and finite (R101, R131). -/
def f32Positive (w : Nat) : Bool := f32Finite w && !fmtNeg fmtF32 w && decide (0 < fmtMag fmtF32 w)

/-- The FP32 word of a value FP32 holds. -/
def f32Enc (x : Dy) : Nat := fmtEncMag fmtF32 x + (if x.m < 0 then 2 ^ 31 else 0)

/-- The FP64 encoding of a value, and the value of one; round to nearest even in FP64. -/
def f64Enc (x : Dy) : Nat := fmtEncMag fmtF64 x + (if x.m < 0 then 2 ^ 63 else 0)
def f64Val (w : Nat) : Dy := fmtVal fmtF64 w
def f64Add (a b : Nat) : Nat := f64Enc (fmtRound fmtF64 .near (dyAdd (f64Val a) (f64Val b)))

/-! ### The KV formats by their descriptor codes (R91, R95) -/

/-- Element layout of a format code: BF16, FP16, the FP8 and MX element layouts, FP32. -/
def fmtOf (code : Nat) : Fmt :=
  if code = 0 then fmtBf16 else if code = 1 then fmtF16
  else if code = 2 || code = 4 then fmtE4m3 else if code = 3 || code = 5 then fmtE5m2
  else if code = 6 then fmtE2m1 else fmtF32

/-- Element bits of a format code. -/
def fmtWidth (code : Nat) : Nat := if code ≤ 1 then 16 else if code = 6 then 4 else if code = 8 then 32 else 8

/-- An MX format: one scale byte for each block of 32 elements. -/
def fmtMx (code : Nat) : Bool := decide (4 ≤ code ∧ code ≤ 6)

/-- Codes allowed for stored KV, for queries and for outputs (R91). -/
def fmtKv (code : Nat) : Bool := decide (code ≤ 6)
def fmtQuery (code : Nat) : Bool := decide (code ≤ 3)
def fmtOut (code : Nat) : Bool := code == 0 || code == 1 || code == 8

/-- Bytes of the elements of an `n`-element vector, and of the whole vector with its scale bytes. -/
def vecElemBytes (code n : Nat) : Nat := n * fmtWidth code / 8
def vecBytes (code n : Nat) : Nat := vecElemBytes code n + (if fmtMx code then n / 32 else 0)

/-- The `i`-th element's bits of a vector's bytes (R94). -/
def elemBits (code : Nat) (bs : List Byte) (i : Nat) : Nat :=
  match fmtWidth code with
  | 16 => (bs.getD (2 * i) 0).toNat + 256 * (bs.getD (2 * i + 1) 0).toNat
  | 4 => (bs.getD (i / 2) 0).toNat / (if i % 2 = 0 then 1 else 16) % 16
  | 32 => (bs.getD (4 * i) 0).toNat + 256 * (bs.getD (4 * i + 1) 0).toNat + 65536 * (bs.getD (4 * i + 2) 0).toNat
      + 16777216 * (bs.getD (4 * i + 3) 0).toNat
  | _ => (bs.getD i 0).toNat

/-- The values of an `n`-element vector from its elements and its scale bytes (R95). -/
def vecVals (code n : Nat) (elems scales : List Byte) : List Dy :=
  (List.range n).map fun i =>
    let v := fmtVal (fmtOf code) (elemBits code elems i)
    if fmtMx code then { v with e := v.e + (scales.getD (i / 32) 0).toNat - 127 } else v

/-- Every element is finite and no scale byte is 0xFF (R93). -/
def vecFinite (code n : Nat) (elems scales : List Byte) : Bool :=
  (List.range n).all (fun i => fmtFinite (fmtOf code) (elemBits code elems i))
    && (!fmtMx code || scales.all (fun b => b != 0xFF#8))

/-- Pack element encodings of a format into bytes (R94). -/
def packElems (code : Nat) : List Nat → List Byte
  | [] => []
  | x :: t =>
    match fmtWidth code with
    | 16 => BitVec.ofNat 8 x :: BitVec.ofNat 8 (x / 256) :: packElems code t
    | 4 =>
      match t with
      | [] => [BitVec.ofNat 8 x]
      | y :: u => BitVec.ofNat 8 (x + 16 * y) :: packElems code u
    | 32 => BitVec.ofNat 8 x :: BitVec.ofNat 8 (x / 256) :: BitVec.ofNat 8 (x / 65536)
        :: BitVec.ofNat 8 (x / 16777216) :: packElems code t
    | _ => BitVec.ofNat 8 x :: packElems code t

/-- emax of R111. -/
def fmtEmax (code : Nat) : Int := if code = 4 then 8 else if code = 5 then 15 else 2

/-- The scale byte that R111 chooses for a block. -/
def mxScale (code : Nat) (block : List Dy) : Nat :=
  let amax := block.foldl (fun a x => dyMax a (dyAbs x)) dyZero
  if amax.m = 0 then 0
  else min 254 (max 0 (amax.e + (Nat.log2 amax.m.natAbs : Nat) - fmtEmax code + 127)).toNat

/-- Split a list into runs of `k` elements. -/
def chunksOf {α : Type} (k : Nat) : Nat → List α → List (List α)
  | 0, _ => []
  | n + 1, l => if l.isEmpty then [] else l.take k :: chunksOf k n (l.drop k)

/-- Convert a vector of values to a stored format: element bytes and scale bytes (R111). -/
def vecConvert (code : Nat) (vals : List Dy) : List Byte × List Byte :=
  if fmtMx code then
    let blocks := chunksOf 32 vals.length vals
    let enc := blocks.map fun b =>
      let x := mxScale code b
      (BitVec.ofNat 8 x, b.map fun v => fmtEncSat (fmtOf code) .near (decide (v.m < 0)) { v with e := v.e - x + 127 })
    (packElems code (enc.flatMap (·.2)), enc.map (·.1))
  else
    (packElems code (vals.map fun v => fmtEncSat (fmtOf code) .near (decide (v.m < 0)) v), [])

/-- One summary block in MXFP8 E4M3: scale byte and elements, the maximum rounded toward +∞ and the minimum toward
−∞, the scale the smallest power of two for which every rounded element is at most 448 (R96); beyond 2^127 there is none, and the
elements saturate under scale byte 254 (log entry 98). -/
def summaryBlock (r : Rnd) (block : List Dy) : Byte × List Nat :=
  if block.all (fun v => v.m == 0) then (0#8, block.map fun _ => 0)
  else
    let fits := fun (x : Nat) =>
      block.all fun v => dyLe (dyAbs (fmtRound fmtE4m3 r { v with e := v.e - x + 127 })) (fmtMax fmtE4m3)
    let x := ((List.range 255).find? fits).getD 254
    (BitVec.ofNat 8 x,
      block.map fun v => fmtEncSat fmtE4m3 r (decide (v.m < 0)) { v with e := v.e - x + 127 })

/-- A whole summary vector: element bytes and scale bytes (R96). -/
def summaryVec (r : Rnd) (vals : List Dy) : List Byte × List Byte :=
  let bs := (chunksOf 32 vals.length vals).map (summaryBlock r)
  (packElems 4 (bs.flatMap (·.2)), bs.map (·.1))

/-! ## Bounds of the transcendental functions -/

/-- Fractional bits of the fixed-point numbers below. -/
def fxBits : Nat := 128

/-- ln 2 in fixed point: the sum of 1 / (k 2^k), rounded down. -/
def fxLn2 : Nat := (List.range 140).foldl (fun a k => a + 2 ^ fxBits / ((k + 1) * 2 ^ (k + 1))) 0

/-- `2^128 * exp(-r)` for a fixed-point `r` in [0, 1): the alternating series, 40 terms. -/
def fxExpNeg (r : Nat) : Nat :=
  let step := fun (a : Int × Nat) (k : Nat) =>
    let t := a.2 * r / 2 ^ fxBits / (k + 1)
    (if k % 2 = 0 then a.1 - t else a.1 + t, t)
  ((List.range 40).foldl step ((2 ^ fxBits : Nat), 2 ^ fxBits)).1.toNat

/-- The fixed-point number nearest below a dyadic magnitude. -/
def fxOf (x : Dy) : Nat :=
  let s := x.e + fxBits
  if 0 ≤ s then x.m.natAbs * 2 ^ s.toNat else x.m.natAbs / 2 ^ (-s).toNat

/-- `exp(-z)` for a fixed-point `z ≥ 0`, as a dyadic number within 2^-100 of it relatively, or 0 below 2^-300. -/
def expNegFx (z : Nat) : Dy :=
  let k := z / fxLn2
  if k > 300 then dyZero
  else { m := fxExpNeg (z % fxLn2), e := -(fxBits : Int) - k }

/-- exp of a dyadic number: 0 below about exp(-208), and above 200 a number whose product with any FP32 value but 0 is beyond
FP32. -/
def expDy (x : Dy) : Dy :=
  if x.m = 0 then dyOf 1
  else if x.m < 0 then (if dyLt x (dyOf (-400)) then dyZero else expNegFx (fxOf x))
  else if dyLt (dyOf 200) x then dyPow2 300
  else dyDivRound .near 100 (-1000) (dyOf 1) (expNegFx (fxOf x))

/-- A dyadic number as significand and exponent, the significand odd or 0: one pair for each value. -/
def dyKey (x : Dy) : List Int :=
  let n := x.m.natAbs
  if n = 0 then [0, 0]
  else
    let z := Nat.log2 (n ^^^ (n - 1))
    [x.m / 2 ^ z, x.e + z]

/-- One unit in the last place of FP32 at a positive value. -/
def ulp32 (x : Dy) : Int := max (x.e + (Nat.log2 x.m.natAbs + 1 : Nat) - 24) (-149)

/-- An FP32 value that lies within the relative error 2^-21 of `y` (R103, R107); `n` picks it. 2^-100 of the
width stands for the error of `y` itself. -/
def pickRel (n : Nat) (y : Dy) : Dy :=
  if y.m = 0 then dyZero
  else
    let w := dyMul y { m := 2 ^ 79 - 1, e := -100 }
    let lo := r32 .up (dySub y w)
    let hi := r32 .down (dyAdd y w)
    let q := ulp32 lo
    let a := dyAlign { lo with m := lo.m } (min lo.e q)
    let room := (dyQuant .down (dySub hi lo) q)
    let cnt := if dyLt hi lo then 0 else (dyAlign room (min room.e q) / 2 ^ (q - min room.e q).toNat).toNat
    if dyLt hi lo then r32 .near y
    else r32 .down (dyAdd { m := a, e := min lo.e q } { m := (n % (cnt + 1) : Nat), e := q })

/-- The evaluated exponential of the exponent unit (R103): exactly 1 at 0, within 2^-21 elsewhere, and one function of its
operand (R119). -/
def exp32 (x : Dy) : Dy := if x.m = 0 then dyOf 1 else pickRel (Config.evalPick 0 (dyKey x)) (expDy x)

/-- The exponential where an upper bound is formed (R107, R114, R115): never below the true one by more than 2^-21 of it, so not 0. -/
def expUp (x : Dy) : Dy := dyMax (exp32 x) (dyPow2 (-149))

/-- p of R103: flushed to 0 below 2^-126. -/
def prob32 (x : Dy) : Dy :=
  let p := exp32 x
  if dyLt p (dyPow2 (-126)) then dyZero else p

/-- `c * tanh(x / c)` for a positive `c`, before the choice of R101. -/
def capTanh (c x : Dy) : Dy :=
  let t := dyDivRound .near 120 (-400) (dyAbs x) c
  let y := if dyLt (dyOf 100) t then dyZero else expNegFx (2 * fxOf t)
  let v := dyMul c (dyDivRound .near 100 (-400) (dySub (dyOf 1) y) (dyAdd (dyOf 1) y))
  if x.m < 0 then dyNeg v else v

/-- Softcap in FP32 with an absolute error of at most 2^-20 × c (R101), free within it. -/
def softcap32 (c x : Dy) : Dy :=
  let y := capTanh c x
  let w := dyMul c { m := 2 ^ 79 - 1, e := -99 }
  -- one of 2^17 evenly spaced points of [-w, w]
  let off := dyMul w { m := ((Config.evalPick 2 (dyKey c ++ dyKey x) % 131072 : Nat) : Int) - 65536, e := -16 }
  let v := r32 .near (dyAdd y off)
  if dyLe (dyAbs (dySub v y)) w then v else r32 .near y

/-- c × tanh(x / c) in the bound of R112: the exact value rounded toward +∞ once (log entry 99). -/
def capTanhUp (c x : Dy) : Dy := r32 .up (dyAdd (capTanh c x) (dyMul c (dyPow2 (-90))))

/-! ### Rotation angles (R110, R143) -/

/-- Fractional bits of the angle arithmetic. -/
def rotBits : Nat := 320

/-- `2^320 * exp(-r)` for fixed-point `r` in [0, 1). -/
def rotExpNeg (r : Nat) : Nat :=
  let step := fun (a : Int × Nat) (k : Nat) =>
    let t := a.2 * r / 2 ^ rotBits / (k + 1)
    (if k % 2 = 0 then a.1 - t else a.1 + t, t)
  ((List.range 80).foldl step ((2 ^ rotBits : Nat), 2 ^ rotBits)).1.toNat

/-- ln 2 with 320 fractional bits. -/
def rotLn2 : Nat := (List.range 330).foldl (fun a k => a + 2 ^ rotBits / ((k + 1) * 2 ^ (k + 1))) 0

/-- atanh(1 / d) with 320 fractional bits, as the sum of 1 / ((2k + 1) d^(2k + 1)). -/
def rotAtanhOf (num den : Nat) : Nat :=
  let step := fun (a : Nat × Nat) (k : Nat) =>
    (a.1 + a.2 / (2 * k + 1), a.2 * (num * num) / (den * den))
  ((List.range 240).foldl step (0, 2 ^ rotBits * num / den)).1

/-- ln of a dyadic number above 1, in fixed point: exponent times ln 2 plus 2 atanh((y - 1) / (y + 1)). -/
def rotLn (x : Dy) : Nat :=
  let n := x.m.natAbs
  let l := Nat.log2 n
  let k := x.e + (l : Nat)
  k.toNat * rotLn2 + 2 * rotAtanhOf (n - 2 ^ l) (n + 2 ^ l)

/-- 1 / (2 π) with 320 fractional bits, from Machin's formula for π. -/
def rotInv2Pi : Nat :=
  let atan := fun (d : Nat) =>
    ((List.range 240).foldl (fun (a : Int × Nat) k =>
      (if k % 2 = 0 then a.1 + (a.2 / (2 * k + 1) : Nat) else a.1 - (a.2 / (2 * k + 1) : Nat), a.2 / (d * d)))
      ((0 : Int), 2 ^ rotBits / d)).1
  let pi := (4 * (4 * atan 5 - atan 239)).toNat
  2 ^ (2 * rotBits) / (2 * pi)

/-- The angle of pair `k` at position `t` as a fraction of one turn, 64 fractional bits, rounded to nearest with
ties to even (R110): `(t / pos_scale) * theta^(-2k / rot_dims) / (2 π)` modulo 1. -/
def rotAngle (theta posScale : Dy) (rotDims k t : Nat) : Nat :=
  let z := rotLn theta * (2 * k) / rotDims
  let j := z / rotLn2
  let f := rotExpNeg (z % rotLn2)
  -- turns with 2 * rotBits + 64 fractional bits
  let turn := dyMul (dyOf t) { m := (f * rotInv2Pi : Nat), e := -(2 * rotBits : Nat) - (j : Int) }
  let r := dyDivRound .near 400 (-1000) turn posScale
  (dyQuant .near r (-64) |> fun y => dyAlign y (min y.e (-64)) / 2 ^ ((-64) - min y.e (-64)).toNat).toNat % 2 ^ 64

/-- cos (or sin) of a 64-bit fraction of a turn, with 64 fractional bits. -/
def rotCosSin (sin : Bool) (a : Nat) : Int :=
  -- fold to the first octant's argument: angle in radians, 128 fractional bits, in [0, 2π)
  let rad := a * (2 ^ (2 * rotBits) / rotInv2Pi) / 2 ^ (rotBits - 64)
  let step := fun (acc : Int × Nat) (k : Nat) =>
    let d : Nat := if sin then (2 * k + 2) * (2 * k + 3) else (2 * k + 1) * (2 * k + 2)
    let t : Nat := acc.2 * rad / 2 ^ 128 * rad / 2 ^ 128 / d
    ((if k % 2 = 0 then acc.1 - (t : Int) else acc.1 + (t : Int)), t)
  let first : Nat := if sin then rad else 2 ^ 128
  ((List.range 30).foldl step ((first : Int), first)).1 / 2 ^ 64

/-- The evaluated cosine or sine: within 2^-22 of the true one; `n` picks it (R110). -/
def rotEval (n : Nat) (sin : Bool) (a : Nat) : Dy :=
  { m := rotCosSin sin a + ((n % (2 ^ 43 - 1) : Nat) : Int) - (2 ^ 42 - 1), e := -64 }

/-- A rotated pair, each element formed exactly and rounded once to FP32 (R110, R143). -/
def rotPair (c s x y : Dy) : Dy × Dy :=
  (r32 .near (dySub (dyMul x c) (dyMul y s)), r32 .near (dyAdd (dyMul x s) (dyMul y c)))

/-! ## The score path (R98 to R101) -/

/-- Exponent of a product's leading bit. -/
def dyTop (x : Dy) : Int := x.e + (Nat.log2 x.m.natAbs : Nat)

/-- One column unit's group sum: aligned to the largest product, 44 bits kept below its leading bit and lower bits
cut toward zero, then converted to FP32 (R99). -/
def groupSum (ps : List Dy) : Dy :=
  let nz := ps.filter fun p => p.m != 0
  match nz with
  | [] => dyZero
  | p :: t =>
    let big := t.foldl (fun a x => max a (dyTop x)) (dyTop p)
    r32 .near (nz.foldl (fun a x => dyAdd a (dyQuant .zero x (big - 44))) dyZero)

/-- Elements a column unit takes in a cycle: 32 at 16 bits, 64 at 8 bits, 128 at 4 bits (R57, R61). -/
def unitElems (code : Nat) : Nat := 512 / fmtWidth code

/-- An FP32 value with the mark that it, or one before it, is beyond the largest finite FP32 value (R102). -/
abbrev Marked := Dy × Bool

/-- One FP32 sum more. -/
def addMark (a : Marked) (x : Dy) : Marked :=
  let v := add32 a.1 x
  (v, a.2 || over32 x || over32 v)

/-- The products of a key by column unit: keys are packed with no gaps, so one that begins `start` elements into the tile may
begin inside a unit (R57). -/
def unitGroups (code start : Nat) (ps : List Dy) : List (List Dy) :=
  let u := unitElems code
  let n := u - start % u
  ps.take n :: chunksOf u ps.length (ps.drop n)

/-- A raw score: the group sums of the key, added in the order of its elements, which is ascending column-unit order within a
cycle (R100; log entry 97). -/
def rawScore (code start : Nat) (q k : List Dy) : Marked :=
  (unitGroups code start (List.zipWith dyMul q k)).foldl (fun a g => addMark a (groupSum g)) (dyZero, false)

end Sys2Proof.Machine
end

