-- ==== Sys2Proof/Machine/Objects.lean ====
section
/-! DEFINITION. The object table of the dictionary: every object of the specification with its type code, access,
principals, default and whether it is Kept, row by row from the object tables of the chapters (R610 to R613, R632),
with the subindex 00 that R610 gives every index of more than one subindex. Tenant blocks stand once, at the block of tenant 0
(R410); the toll record x stands at b+2, b+3 and 5100 (R537). -/

namespace Sys2Proof.Machine

/-- One row: index, first and last subindex, type code (R611), access (0 const, 1 ro, 2 rw, 3 wo; R612), principals as a
mask (1 S, 2 M, 4 K, 8 N, 16 T; R613), numeric default, Kept. -/
structure ObjRow where
  index : Nat
  lo : Nat
  hi : Nat
  type : Nat
  access : Nat
  prin : Nat
  dflt : Nat
  kept : Bool
  deriving DecidableEq, Repr

/-- Rows 0x1000 to 0x2010. -/
def objTable0 : List ObjRow :=
  [ ⟨0x1000, 0x00, 0x00, 0x07, 0, 19, 0, false⟩
    , ⟨0x1001, 0x00, 0x00, 0x05, 1, 3, 0, false⟩
    , ⟨0x1008, 0x00, 0x00, 0x09, 0, 19, 0, false⟩
    , ⟨0x1009, 0x00, 0x00, 0x09, 0, 19, 0, false⟩
    , ⟨0x1010, 0x00, 0x00, 0x05, 0, 19, 5, false⟩
    , ⟨0x1010, 0x01, 0x01, 0x0F, 1, 3, 0, false⟩
    , ⟨0x1010, 0x02, 0x02, 0x0A, 1, 19, 0, false⟩
    , ⟨0x1010, 0x03, 0x03, 0x05, 1, 3, 0, false⟩
    , ⟨0x1010, 0x04, 0x04, 0x07, 1, 19, 0, false⟩
    , ⟨0x1010, 0x05, 0x05, 0x07, 1, 3, 0, false⟩
    , ⟨0x1015, 0x00, 0x00, 0x06, 2, 3, 10, true⟩
    , ⟨0x1017, 0x00, 0x00, 0x06, 2, 3, 1000, true⟩
    , ⟨0x1018, 0x00, 0x00, 0x05, 0, 19, 4, false⟩
    , ⟨0x1018, 0x01, 0x01, 0x07, 0, 19, 1449, false⟩
    , ⟨0x1018, 0x02, 0x02, 0x07, 0, 19, 20516, false⟩
    , ⟨0x1018, 0x03, 0x03, 0x07, 0, 19, 176, false⟩
    , ⟨0x1018, 0x04, 0x04, 0x07, 1, 19, 0, false⟩
    , ⟨0x1020, 0x00, 0x00, 0x05, 0, 3, 4, false⟩
    , ⟨0x1020, 0x01, 0x01, 0x05, 2, 1, 127, true⟩
    , ⟨0x1020, 0x02, 0x02, 0x06, 2, 1, 1000, true⟩
    , ⟨0x1020, 0x03, 0x03, 0x06, 2, 1, 5000, true⟩
    , ⟨0x1020, 0x04, 0x04, 0x05, 1, 3, 127, false⟩
    , ⟨0x1021, 0x00, 0x00, 0x05, 0, 3, 2, false⟩
    , ⟨0x1021, 0x01, 0x01, 0x05, 1, 3, 0, false⟩
    , ⟨0x1021, 0x02, 0x02, 0x01, 2, 1, 0, true⟩
    , ⟨0x1022, 0x00, 0x00, 0x05, 0, 3, 4, false⟩
    , ⟨0x1022, 0x01, 0x04, 0x07, 1, 3, 0, false⟩
    , ⟨0x1030, 0x00, 0x00, 0x05, 0, 19, 4, false⟩
    , ⟨0x1030, 0x01, 0x04, 0x07, 1, 19, 0, true⟩
    , ⟨0x2000, 0x00, 0x00, 0x05, 0, 3, 4, false⟩
    , ⟨0x2000, 0x01, 0x01, 0x05, 1, 3, 1, false⟩
    , ⟨0x2000, 0x02, 0x02, 0x07, 1, 3, 0, false⟩
    , ⟨0x2000, 0x03, 0x03, 0x07, 1, 3, 0, false⟩
    , ⟨0x2000, 0x04, 0x04, 0x06, 1, 3, 0, false⟩
    , ⟨0x2010, 0x00, 0x00, 0x05, 0, 3, 6, false⟩
    , ⟨0x2010, 0x01, 0x01, 0x06, 2, 3, 2400, true⟩
    , ⟨0x2010, 0x02, 0x02, 0x05, 1, 3, 16, false⟩
    , ⟨0x2010, 0x03, 0x03, 0x05, 2, 3, 100, true⟩
    , ⟨0x2010, 0x04, 0x04, 0x05, 2, 3, 95, true⟩
    , ⟨0x2010, 0x05, 0x05, 0x05, 1, 3, 0, false⟩ ]

/-- Rows 0x2010 to 0x2200. -/
def objTable1 : List ObjRow :=
  [ ⟨0x2010, 0x06, 0x06, 0x1B, 1, 3, 0, false⟩
    , ⟨0x2020, 0x00, 0x00, 0x05, 0, 3, 8, false⟩
    , ⟨0x2020, 0x01, 0x01, 0x05, 3, 3, 0, false⟩
    , ⟨0x2020, 0x02, 0x02, 0x05, 3, 2, 0, false⟩
    , ⟨0x2020, 0x03, 0x03, 0x06, 2, 1, 0, true⟩
    , ⟨0x2020, 0x04, 0x04, 0x01, 3, 1, 0, false⟩
    , ⟨0x2020, 0x05, 0x05, 0x07, 1, 3, 0, false⟩
    , ⟨0x2020, 0x06, 0x06, 0x05, 1, 3, 0, false⟩
    , ⟨0x2020, 0x07, 0x07, 0x01, 2, 3, 0, true⟩
    , ⟨0x2020, 0x08, 0x08, 0x05, 2, 3, 3, true⟩
    , ⟨0x2100, 0x00, 0x00, 0x05, 0, 7, 10, false⟩
    , ⟨0x2100, 0x01, 0x01, 0x05, 2, 3, 0, true⟩
    , ⟨0x2100, 0x02, 0x02, 0x05, 2, 3, 0, true⟩
    , ⟨0x2100, 0x03, 0x03, 0x07, 2, 3, 1000000, true⟩
    , ⟨0x2100, 0x04, 0x04, 0x05, 2, 3, 3, true⟩
    , ⟨0x2100, 0x05, 0x05, 0x05, 2, 3, 4, true⟩
    , ⟨0x2100, 0x06, 0x06, 0x05, 2, 3, 0, true⟩
    , ⟨0x2100, 0x07, 0x07, 0x06, 2, 3, 600, true⟩
    , ⟨0x2100, 0x08, 0x08, 0x05, 2, 3, 0, true⟩
    , ⟨0x2100, 0x09, 0x09, 0x05, 2, 7, 0, true⟩
    , ⟨0x2100, 0x0A, 0x0A, 0x06, 2, 3, 1, true⟩
    , ⟨0x2101, 0x00, 0x00, 0x05, 0, 3, 7, false⟩
    , ⟨0x2101, 0x01, 0x01, 0x05, 1, 3, 0, false⟩
    , ⟨0x2101, 0x02, 0x02, 0x1B, 1, 3, 0, false⟩
    , ⟨0x2101, 0x03, 0x03, 0x06, 1, 3, 0, false⟩
    , ⟨0x2101, 0x04, 0x04, 0x06, 1, 3, 0, false⟩
    , ⟨0x2101, 0x05, 0x05, 0x07, 1, 3, 1000000, false⟩
    , ⟨0x2101, 0x06, 0x06, 0x0F, 1, 3, 0, false⟩
    , ⟨0x2101, 0x07, 0x07, 0x07, 1, 3, 0, false⟩
    , ⟨0x2102, 0x00, 0x00, 0x05, 0, 3, 7, false⟩
    , ⟨0x2102, 0x01, 0x01, 0x06, 2, 3, 0, true⟩
    , ⟨0x2102, 0x02, 0x02, 0x05, 2, 3, 2, true⟩
    , ⟨0x2102, 0x03, 0x03, 0x06, 2, 3, 0, true⟩
    , ⟨0x2102, 0x04, 0x04, 0x06, 2, 3, 6144, true⟩
    , ⟨0x2102, 0x05, 0x05, 0x06, 2, 3, 16384, true⟩
    , ⟨0x2102, 0x06, 0x06, 0x07, 2, 3, 65536, true⟩
    , ⟨0x2102, 0x07, 0x07, 0x07, 2, 3, 1048576, true⟩
    , ⟨0x2200, 0x00, 0x00, 0x05, 0, 3, 9, false⟩
    , ⟨0x2200, 0x01, 0x01, 0x06, 2, 3, 50, true⟩
    , ⟨0x2200, 0x02, 0x02, 0x06, 2, 3, 1000, true⟩ ]

/-- Rows 0x2200 to 0x2402. -/
def objTable2 : List ObjRow :=
  [ ⟨0x2200, 0x03, 0x03, 0x05, 3, 1, 0, false⟩
    , ⟨0x2200, 0x04, 0x04, 0x07, 1, 3, 0, false⟩
    , ⟨0x2200, 0x05, 0x05, 0x07, 1, 3, 0, false⟩
    , ⟨0x2200, 0x06, 0x06, 0x1B, 1, 3, 0, false⟩
    , ⟨0x2200, 0x07, 0x07, 0x1B, 1, 3, 0, false⟩
    , ⟨0x2200, 0x08, 0x08, 0x07, 1, 3, 0, false⟩
    , ⟨0x2200, 0x09, 0x09, 0x07, 1, 3, 0, false⟩
    , ⟨0x2201, 0x00, 0x00, 0x05, 0, 3, 12, false⟩
    , ⟨0x2201, 0x01, 0x0C, 0x05, 1, 3, 0, false⟩
    , ⟨0x2300, 0x00, 0x00, 0x05, 0, 3, 8, false⟩
    , ⟨0x2300, 0x01, 0x01, 0x07, 2, 3, 1000, true⟩
    , ⟨0x2300, 0x02, 0x02, 0x06, 1, 3, 0, false⟩
    , ⟨0x2300, 0x03, 0x03, 0x06, 1, 3, 0, false⟩
    , ⟨0x2300, 0x04, 0x04, 0x1B, 1, 3, 0, false⟩
    , ⟨0x2300, 0x05, 0x05, 0x1B, 1, 3, 0, false⟩
    , ⟨0x2300, 0x06, 0x06, 0x1B, 1, 3, 0, false⟩
    , ⟨0x2300, 0x07, 0x07, 0x1B, 1, 3, 0, false⟩
    , ⟨0x2300, 0x08, 0x08, 0x1B, 1, 3, 0, false⟩
    , ⟨0x2301, 0x00, 0x00, 0x05, 0, 1, 4, false⟩
    , ⟨0x2301, 0x01, 0x04, 0x07, 2, 1, 0, true⟩
    , ⟨0x2310, 0x00, 0x00, 0x05, 0, 3, 4, false⟩
    , ⟨0x2310, 0x01, 0x01, 0x0F, 3, 1, 0, false⟩
    , ⟨0x2310, 0x02, 0x02, 0x07, 3, 1, 0, false⟩
    , ⟨0x2310, 0x03, 0x03, 0x06, 1, 3, 1, false⟩
    , ⟨0x2310, 0x04, 0x04, 0x0F, 1, 1, 0, true⟩
    , ⟨0x2400, 0x00, 0x00, 0x05, 0, 3, 11, false⟩
    , ⟨0x2400, 0x01, 0x01, 0x06, 3, 1, 0, false⟩
    , ⟨0x2400, 0x02, 0x02, 0x0F, 3, 1, 0, false⟩
    , ⟨0x2400, 0x03, 0x03, 0x07, 3, 1, 0, false⟩
    , ⟨0x2400, 0x05, 0x05, 0x06, 2, 3, 100, true⟩
    , ⟨0x2400, 0x06, 0x06, 0x07, 1, 3, 0, false⟩
    , ⟨0x2400, 0x07, 0x07, 0x1B, 1, 3, 0, false⟩
    , ⟨0x2400, 0x08, 0x08, 0x06, 1, 3, 4096, false⟩
    , ⟨0x2400, 0x09, 0x09, 0x06, 1, 3, 4096, false⟩
    , ⟨0x2400, 0x0B, 0x0B, 0x05, 1, 1, 0, false⟩
    , ⟨0x2401, 0x00, 0x00, 0x05, 0, 1, 3, false⟩
    , ⟨0x2401, 0x01, 0x01, 0x0F, 1, 1, 0, false⟩
    , ⟨0x2401, 0x02, 0x02, 0x0F, 1, 1, 0, true⟩
    , ⟨0x2401, 0x03, 0x03, 0x0F, 1, 1, 0, false⟩
    , ⟨0x2402, 0x00, 0x00, 0x05, 0, 1, 16, false⟩ ]

/-- Rows 0x2402 to 0x3002. -/
def objTable3 : List ObjRow :=
  [ ⟨0x2402, 0x01, 0x10, 0x1B, 2, 1, 0, true⟩
    , ⟨0x2500, 0x00, 0x00, 0x05, 0, 3, 8, false⟩
    , ⟨0x2500, 0x01, 0x01, 0x05, 1, 3, 0, false⟩
    , ⟨0x2500, 0x02, 0x02, 0x01, 3, 1, 0, false⟩
    , ⟨0x2500, 0x03, 0x03, 0x05, 1, 3, 0, false⟩
    , ⟨0x2500, 0x04, 0x04, 0x07, 1, 3, 0, false⟩
    , ⟨0x2500, 0x05, 0x05, 0x0F, 2, 1, 0, false⟩
    , ⟨0x2500, 0x06, 0x06, 0x0F, 1, 3, 0, true⟩
    , ⟨0x2500, 0x07, 0x07, 0x0F, 1, 3, 0, false⟩
    , ⟨0x2500, 0x08, 0x08, 0x06, 2, 3, 4096, true⟩
    , ⟨0x2600, 0x00, 0x00, 0x05, 0, 3, 8, false⟩
    , ⟨0x2600, 0x01, 0x01, 0x0F, 1, 3, 0, false⟩
    , ⟨0x2600, 0x02, 0x02, 0x0F, 2, 3, 0, false⟩
    , ⟨0x2600, 0x03, 0x03, 0x05, 2, 3, 0, false⟩
    , ⟨0x2600, 0x04, 0x04, 0x1B, 2, 3, 0, false⟩
    , ⟨0x2600, 0x05, 0x05, 0x01, 3, 3, 0, false⟩
    , ⟨0x2600, 0x06, 0x06, 0x05, 1, 3, 0, false⟩
    , ⟨0x2600, 0x07, 0x07, 0x05, 1, 3, 255, false⟩
    , ⟨0x2600, 0x08, 0x08, 0x0F, 2, 1, 0, true⟩
    , ⟨0x3000, 0x00, 0x00, 0x05, 0, 19, 4, false⟩
    , ⟨0x3000, 0x01, 0x01, 0x05, 1, 19, 0, false⟩
    , ⟨0x3000, 0x02, 0x02, 0x01, 1, 19, 0, false⟩
    , ⟨0x3000, 0x03, 0x03, 0x0F, 1, 3, 0, false⟩
    , ⟨0x3000, 0x04, 0x04, 0x06, 1, 19, 0, false⟩
    , ⟨0x3001, 0x00, 0x00, 0x05, 0, 1, 6, false⟩
    , ⟨0x3001, 0x01, 0x01, 0x06, 2, 1, 32, true⟩
    , ⟨0x3001, 0x02, 0x02, 0x06, 2, 1, 512, true⟩
    , ⟨0x3001, 0x03, 0x03, 0x06, 2, 1, 32, true⟩
    , ⟨0x3001, 0x04, 0x04, 0x06, 2, 1, 512, true⟩
    , ⟨0x3001, 0x05, 0x05, 0x07, 2, 1, 1000, true⟩
    , ⟨0x3001, 0x06, 0x06, 0x07, 2, 1, 65536, true⟩
    , ⟨0x3002, 0x00, 0x00, 0x05, 0, 19, 12, false⟩
    , ⟨0x3002, 0x01, 0x01, 0x01, 2, 3, 0, true⟩
    , ⟨0x3002, 0x02, 0x02, 0x07, 2, 3, 0, true⟩
    , ⟨0x3002, 0x03, 0x03, 0x07, 2, 3, 0, true⟩
    , ⟨0x3002, 0x04, 0x04, 0x07, 2, 3, 0, true⟩
    , ⟨0x3002, 0x05, 0x05, 0x07, 2, 3, 0, true⟩
    , ⟨0x3002, 0x06, 0x06, 0x05, 2, 3, 0, true⟩
    , ⟨0x3002, 0x07, 0x07, 0x05, 2, 3, 0, true⟩
    , ⟨0x3002, 0x08, 0x08, 0x05, 2, 3, 0, true⟩ ]

/-- Rows 0x3002 to 0x3008. -/
def objTable4 : List ObjRow :=
  [ ⟨0x3002, 0x09, 0x09, 0x05, 2, 3, 0, true⟩
    , ⟨0x3002, 0x0A, 0x0C, 0x1B, 1, 19, 0, false⟩
    , ⟨0x3003, 0x00, 0x00, 0x05, 0, 19, 12, false⟩
    , ⟨0x3003, 0x01, 0x01, 0x01, 2, 3, 0, true⟩
    , ⟨0x3003, 0x02, 0x02, 0x07, 2, 3, 0, true⟩
    , ⟨0x3003, 0x03, 0x03, 0x07, 2, 3, 0, true⟩
    , ⟨0x3003, 0x04, 0x04, 0x07, 2, 3, 0, true⟩
    , ⟨0x3003, 0x05, 0x05, 0x07, 2, 3, 0, true⟩
    , ⟨0x3003, 0x06, 0x06, 0x05, 2, 3, 0, true⟩
    , ⟨0x3003, 0x07, 0x07, 0x05, 2, 3, 0, true⟩
    , ⟨0x3003, 0x08, 0x08, 0x05, 2, 3, 0, true⟩
    , ⟨0x3003, 0x09, 0x09, 0x05, 2, 3, 0, true⟩
    , ⟨0x3003, 0x0A, 0x0C, 0x1B, 1, 19, 0, false⟩
    , ⟨0x3004, 0x00, 0x00, 0x05, 0, 17, 4, false⟩
    , ⟨0x3004, 0x01, 0x04, 0x07, 1, 17, 0, false⟩
    , ⟨0x3005, 0x00, 0x00, 0x05, 0, 19, 4, false⟩
    , ⟨0x3005, 0x01, 0x04, 0x1B, 1, 19, 0, false⟩
    , ⟨0x3006, 0x00, 0x00, 0x05, 0, 25, 5, false⟩
    , ⟨0x3006, 0x01, 0x01, 0x07, 1, 25, 0, false⟩
    , ⟨0x3006, 0x02, 0x02, 0x05, 1, 25, 1, false⟩
    , ⟨0x3006, 0x03, 0x03, 0x01, 3, 17, 0, false⟩
    , ⟨0x3006, 0x04, 0x04, 0x01, 3, 17, 0, false⟩
    , ⟨0x3006, 0x05, 0x05, 0x01, 2, 1, 0, true⟩
    , ⟨0x3007, 0x00, 0x00, 0x05, 0, 25, 4, false⟩
    , ⟨0x3007, 0x01, 0x01, 0x1B, 1, 25, 0, false⟩
    , ⟨0x3007, 0x02, 0x02, 0x07, 1, 25, 0, false⟩
    , ⟨0x3007, 0x03, 0x03, 0x05, 1, 25, 0, false⟩
    , ⟨0x3007, 0x04, 0x04, 0x07, 1, 1, 0, false⟩
    , ⟨0x3008, 0x00, 0x00, 0x05, 0, 17, 16, false⟩
    , ⟨0x3008, 0x01, 0x01, 0x1B, 1, 17, 0, false⟩
    , ⟨0x3008, 0x02, 0x02, 0x1B, 1, 17, 0, false⟩
    , ⟨0x3008, 0x03, 0x03, 0x1B, 1, 17, 0, false⟩
    , ⟨0x3008, 0x04, 0x04, 0x1B, 1, 17, 0, false⟩
    , ⟨0x3008, 0x05, 0x05, 0x1B, 1, 17, 0, false⟩
    , ⟨0x3008, 0x06, 0x06, 0x1B, 1, 17, 0, false⟩
    , ⟨0x3008, 0x07, 0x07, 0x1B, 1, 17, 0, false⟩
    , ⟨0x3008, 0x08, 0x08, 0x1B, 1, 17, 0, false⟩
    , ⟨0x3008, 0x09, 0x09, 0x1B, 1, 17, 0, false⟩
    , ⟨0x3008, 0x0A, 0x0A, 0x1B, 1, 17, 0, false⟩
    , ⟨0x3008, 0x0B, 0x0B, 0x1B, 1, 17, 0, false⟩ ]

/-- Rows 0x3008 to 0x4041. -/
def objTable5 : List ObjRow :=
  [ ⟨0x3008, 0x0C, 0x0C, 0x1B, 1, 17, 0, false⟩
    , ⟨0x3008, 0x0D, 0x0D, 0x1B, 1, 17, 0, false⟩
    , ⟨0x3008, 0x0E, 0x0E, 0x1B, 1, 17, 0, false⟩
    , ⟨0x3008, 0x0F, 0x0F, 0x1B, 1, 17, 0, false⟩
    , ⟨0x3008, 0x10, 0x10, 0x01, 3, 17, 0, false⟩
    , ⟨0x3009, 0x00, 0x00, 0x05, 0, 17, 4, false⟩
    , ⟨0x3009, 0x01, 0x01, 0x0F, 1, 17, 0, false⟩
    , ⟨0x3009, 0x02, 0x02, 0x0F, 1, 17, 0, false⟩
    , ⟨0x3009, 0x03, 0x03, 0x0F, 1, 17, 0, false⟩
    , ⟨0x3009, 0x04, 0x04, 0x06, 3, 17, 0, false⟩
    , ⟨0x4000, 0x00, 0x00, 0x05, 0, 3, 24, false⟩
    , ⟨0x4000, 0x01, 0x18, 0x07, 1, 3, 0, false⟩
    , ⟨0x4001, 0x00, 0x00, 0x05, 0, 3, 24, false⟩
    , ⟨0x4001, 0x01, 0x18, 0x1B, 1, 3, 0, false⟩
    , ⟨0x4010, 0x00, 0x00, 0x05, 0, 11, 3, false⟩
    , ⟨0x4010, 0x01, 0x01, 0x05, 3, 3, 0, false⟩
    , ⟨0x4010, 0x02, 0x02, 0x05, 2, 3, 10, true⟩
    , ⟨0x4010, 0x03, 0x03, 0x09, 1, 11, 0, false⟩
    , ⟨0x4020, 0x00, 0x00, 0x05, 0, 3, 6, false⟩
    , ⟨0x4020, 0x01, 0x01, 0x06, 2, 3, 1024, true⟩
    , ⟨0x4020, 0x02, 0x02, 0x06, 2, 3, 32, true⟩
    , ⟨0x4020, 0x03, 0x03, 0x05, 2, 3, 4, true⟩
    , ⟨0x4020, 0x04, 0x04, 0x06, 2, 3, 200, true⟩
    , ⟨0x4020, 0x05, 0x05, 0x1B, 1, 3, 0, false⟩
    , ⟨0x4020, 0x06, 0x06, 0x07, 1, 3, 0, false⟩
    , ⟨0x4030, 0x00, 0x00, 0x05, 0, 3, 3, false⟩
    , ⟨0x4030, 0x01, 0x01, 0x07, 2, 3, 0, true⟩
    , ⟨0x4030, 0x02, 0x02, 0x05, 2, 3, 0, true⟩
    , ⟨0x4030, 0x03, 0x03, 0x07, 1, 3, 0, false⟩
    , ⟨0x4040, 0x00, 0x00, 0x05, 0, 3, 8, false⟩
    , ⟨0x4040, 0x01, 0x01, 0x06, 2, 3, 24, true⟩
    , ⟨0x4040, 0x02, 0x02, 0x06, 2, 3, 64, true⟩
    , ⟨0x4040, 0x03, 0x03, 0x06, 2, 3, 16, true⟩
    , ⟨0x4040, 0x04, 0x04, 0x07, 1, 3, 0, false⟩
    , ⟨0x4040, 0x05, 0x05, 0x1B, 1, 3, 0, false⟩
    , ⟨0x4040, 0x06, 0x06, 0x1B, 1, 3, 0, false⟩
    , ⟨0x4040, 0x07, 0x07, 0x1B, 1, 3, 0, false⟩
    , ⟨0x4040, 0x08, 0x08, 0x07, 1, 3, 0, false⟩
    , ⟨0x4041, 0x00, 0x00, 0x05, 0, 1, 6, false⟩
    , ⟨0x4041, 0x01, 0x01, 0x06, 2, 1, 0, true⟩ ]

/-- Rows 0x4041 to 0x5004. -/
def objTable6 : List ObjRow :=
  [ ⟨0x4041, 0x02, 0x02, 0x06, 2, 1, 0, true⟩
    , ⟨0x4041, 0x03, 0x03, 0x06, 2, 1, 0, true⟩
    , ⟨0x4041, 0x04, 0x04, 0x06, 2, 1, 0, true⟩
    , ⟨0x4041, 0x05, 0x05, 0x07, 2, 1, 0, true⟩
    , ⟨0x4041, 0x06, 0x06, 0x07, 2, 1, 0, true⟩
    , ⟨0x4042, 0x00, 0x00, 0x05, 0, 3, 3, false⟩
    , ⟨0x4042, 0x01, 0x01, 0x1B, 3, 1, 0, false⟩
    , ⟨0x4042, 0x02, 0x02, 0x07, 3, 1, 0, false⟩
    , ⟨0x4042, 0x03, 0x03, 0x0F, 1, 3, 0, true⟩
    , ⟨0x4200, 0x00, 0x00, 0x05, 0, 3, 32, false⟩
    , ⟨0x4200, 0x01, 0x20, 0x0A, 2, 3, 0, true⟩
    , ⟨0x4210, 0x00, 0x00, 0x05, 0, 3, 64, false⟩
    , ⟨0x4210, 0x01, 0x40, 0x0A, 2, 3, 0, true⟩
    , ⟨0x4211, 0x00, 0x00, 0x05, 0, 3, 64, false⟩
    , ⟨0x4211, 0x01, 0x40, 0x07, 2, 3, 0, true⟩
    , ⟨0x4212, 0x00, 0x00, 0x05, 0, 3, 64, false⟩
    , ⟨0x4212, 0x01, 0x40, 0x1B, 1, 3, 0, false⟩
    , ⟨0x4300, 0x00, 0x00, 0x05, 0, 3, 12, false⟩
    , ⟨0x4300, 0x01, 0x01, 0x05, 2, 3, 5, true⟩
    , ⟨0x4300, 0x02, 0x02, 0x05, 2, 3, 10, true⟩
    , ⟨0x4300, 0x03, 0x03, 0x05, 2, 3, 1, true⟩
    , ⟨0x4300, 0x04, 0x04, 0x06, 2, 3, 600, true⟩
    , ⟨0x4300, 0x05, 0x05, 0x05, 2, 3, 50, true⟩
    , ⟨0x4300, 0x07, 0x07, 0x05, 2, 3, 24, true⟩
    , ⟨0x4300, 0x08, 0x08, 0x06, 2, 1, 0, true⟩
    , ⟨0x4300, 0x09, 0x09, 0x06, 2, 1, 0, true⟩
    , ⟨0x4300, 0x0A, 0x0A, 0x07, 1, 3, 0, false⟩
    , ⟨0x4300, 0x0B, 0x0B, 0x07, 1, 3, 0, false⟩
    , ⟨0x4300, 0x0C, 0x0C, 0x07, 1, 3, 0, false⟩
    , ⟨0x5000, 0x00, 0x00, 0x05, 0, 3, 13, false⟩
    , ⟨0x5000, 0x01, 0x0D, 0x07, 1, 3, 0, false⟩
    , ⟨0x5001, 0x00, 0x00, 0x05, 0, 3, 13, false⟩
    , ⟨0x5001, 0x01, 0x0D, 0x05, 2, 3, 2, true⟩
    , ⟨0x5002, 0x00, 0x00, 0x05, 0, 3, 13, false⟩
    , ⟨0x5002, 0x01, 0x0D, 0x05, 2, 3, 2, true⟩
    , ⟨0x5003, 0x00, 0x00, 0x05, 0, 1, 8, false⟩
    , ⟨0x5003, 0x01, 0x08, 0x01, 2, 1, 1, true⟩
    , ⟨0x5004, 0x00, 0x00, 0x05, 0, 3, 6, false⟩
    , ⟨0x5004, 0x01, 0x01, 0x05, 2, 3, 36, true⟩
    , ⟨0x5004, 0x02, 0x02, 0x06, 2, 3, 2000, true⟩ ]

/-- Rows 0x5004 to 0x5100. -/
def objTable7 : List ObjRow :=
  [ ⟨0x5004, 0x03, 0x03, 0x05, 2, 3, 3, true⟩
    , ⟨0x5004, 0x04, 0x04, 0x01, 2, 3, 1, true⟩
    , ⟨0x5004, 0x05, 0x05, 0x0F, 2, 1, 0, true⟩
    , ⟨0x5004, 0x06, 0x06, 0x06, 2, 3, 100, true⟩
    , ⟨0x5010, 0x00, 0x00, 0x05, 0, 3, 13, false⟩
    , ⟨0x5010, 0x01, 0x0D, 0x0F, 1, 3, 0, false⟩
    , ⟨0x5100, 0x00, 0x00, 0x05, 0, 3, 220, false⟩
    , ⟨0x5100, 0x01, 0x01, 0x01, 2, 3, 0, true⟩
    , ⟨0x5100, 0x02, 0x02, 0x07, 2, 3, 0, true⟩
    , ⟨0x5100, 0x03, 0x03, 0x07, 2, 3, 0, true⟩
    , ⟨0x5100, 0x04, 0x04, 0x07, 2, 3, 0, true⟩
    , ⟨0x5100, 0x05, 0x05, 0x07, 2, 3, 0, true⟩
    , ⟨0x5100, 0x06, 0x06, 0x05, 2, 3, 0, true⟩
    , ⟨0x5100, 0x07, 0x07, 0x05, 2, 3, 0, true⟩
    , ⟨0x5100, 0x08, 0x08, 0x05, 2, 3, 0, true⟩
    , ⟨0x5100, 0x09, 0x09, 0x05, 2, 3, 0, true⟩
    , ⟨0x5100, 0x0A, 0x0C, 0x1B, 1, 3, 0, false⟩
    , ⟨0x5100, 0x11, 0x11, 0x01, 2, 3, 0, true⟩
    , ⟨0x5100, 0x12, 0x12, 0x07, 2, 3, 0, true⟩
    , ⟨0x5100, 0x13, 0x13, 0x07, 2, 3, 0, true⟩
    , ⟨0x5100, 0x14, 0x14, 0x07, 2, 3, 0, true⟩
    , ⟨0x5100, 0x15, 0x15, 0x07, 2, 3, 0, true⟩
    , ⟨0x5100, 0x16, 0x16, 0x05, 2, 3, 0, true⟩
    , ⟨0x5100, 0x17, 0x17, 0x05, 2, 3, 0, true⟩
    , ⟨0x5100, 0x18, 0x18, 0x05, 2, 3, 0, true⟩
    , ⟨0x5100, 0x19, 0x19, 0x05, 2, 3, 0, true⟩
    , ⟨0x5100, 0x1A, 0x1C, 0x1B, 1, 3, 0, false⟩
    , ⟨0x5100, 0x21, 0x21, 0x01, 2, 3, 0, true⟩
    , ⟨0x5100, 0x22, 0x22, 0x07, 2, 3, 0, true⟩
    , ⟨0x5100, 0x23, 0x23, 0x07, 2, 3, 0, true⟩
    , ⟨0x5100, 0x24, 0x24, 0x07, 2, 3, 0, true⟩
    , ⟨0x5100, 0x25, 0x25, 0x07, 2, 3, 0, true⟩
    , ⟨0x5100, 0x26, 0x26, 0x05, 2, 3, 0, true⟩
    , ⟨0x5100, 0x27, 0x27, 0x05, 2, 3, 0, true⟩
    , ⟨0x5100, 0x28, 0x28, 0x05, 2, 3, 0, true⟩
    , ⟨0x5100, 0x29, 0x29, 0x05, 2, 3, 0, true⟩
    , ⟨0x5100, 0x2A, 0x2C, 0x1B, 1, 3, 0, false⟩
    , ⟨0x5100, 0x31, 0x31, 0x01, 2, 3, 0, true⟩
    , ⟨0x5100, 0x32, 0x32, 0x07, 2, 3, 0, true⟩
    , ⟨0x5100, 0x33, 0x33, 0x07, 2, 3, 0, true⟩ ]

/-- Rows 0x5100 to 0x5100. -/
def objTable8 : List ObjRow :=
  [ ⟨0x5100, 0x34, 0x34, 0x07, 2, 3, 0, true⟩
    , ⟨0x5100, 0x35, 0x35, 0x07, 2, 3, 0, true⟩
    , ⟨0x5100, 0x36, 0x36, 0x05, 2, 3, 0, true⟩
    , ⟨0x5100, 0x37, 0x37, 0x05, 2, 3, 0, true⟩
    , ⟨0x5100, 0x38, 0x38, 0x05, 2, 3, 0, true⟩
    , ⟨0x5100, 0x39, 0x39, 0x05, 2, 3, 0, true⟩
    , ⟨0x5100, 0x3A, 0x3C, 0x1B, 1, 3, 0, false⟩
    , ⟨0x5100, 0x41, 0x41, 0x01, 2, 3, 0, true⟩
    , ⟨0x5100, 0x42, 0x42, 0x07, 2, 3, 0, true⟩
    , ⟨0x5100, 0x43, 0x43, 0x07, 2, 3, 0, true⟩
    , ⟨0x5100, 0x44, 0x44, 0x07, 2, 3, 0, true⟩
    , ⟨0x5100, 0x45, 0x45, 0x07, 2, 3, 0, true⟩
    , ⟨0x5100, 0x46, 0x46, 0x05, 2, 3, 0, true⟩
    , ⟨0x5100, 0x47, 0x47, 0x05, 2, 3, 0, true⟩
    , ⟨0x5100, 0x48, 0x48, 0x05, 2, 3, 0, true⟩
    , ⟨0x5100, 0x49, 0x49, 0x05, 2, 3, 0, true⟩
    , ⟨0x5100, 0x4A, 0x4C, 0x1B, 1, 3, 0, false⟩
    , ⟨0x5100, 0x51, 0x51, 0x01, 2, 3, 0, true⟩
    , ⟨0x5100, 0x52, 0x52, 0x07, 2, 3, 0, true⟩
    , ⟨0x5100, 0x53, 0x53, 0x07, 2, 3, 0, true⟩
    , ⟨0x5100, 0x54, 0x54, 0x07, 2, 3, 0, true⟩
    , ⟨0x5100, 0x55, 0x55, 0x07, 2, 3, 0, true⟩
    , ⟨0x5100, 0x56, 0x56, 0x05, 2, 3, 0, true⟩
    , ⟨0x5100, 0x57, 0x57, 0x05, 2, 3, 0, true⟩
    , ⟨0x5100, 0x58, 0x58, 0x05, 2, 3, 0, true⟩
    , ⟨0x5100, 0x59, 0x59, 0x05, 2, 3, 0, true⟩
    , ⟨0x5100, 0x5A, 0x5C, 0x1B, 1, 3, 0, false⟩
    , ⟨0x5100, 0x61, 0x61, 0x01, 2, 3, 0, true⟩
    , ⟨0x5100, 0x62, 0x62, 0x07, 2, 3, 0, true⟩
    , ⟨0x5100, 0x63, 0x63, 0x07, 2, 3, 0, true⟩
    , ⟨0x5100, 0x64, 0x64, 0x07, 2, 3, 0, true⟩
    , ⟨0x5100, 0x65, 0x65, 0x07, 2, 3, 0, true⟩
    , ⟨0x5100, 0x66, 0x66, 0x05, 2, 3, 0, true⟩
    , ⟨0x5100, 0x67, 0x67, 0x05, 2, 3, 0, true⟩
    , ⟨0x5100, 0x68, 0x68, 0x05, 2, 3, 0, true⟩
    , ⟨0x5100, 0x69, 0x69, 0x05, 2, 3, 0, true⟩
    , ⟨0x5100, 0x6A, 0x6C, 0x1B, 1, 3, 0, false⟩
    , ⟨0x5100, 0x71, 0x71, 0x01, 2, 3, 0, true⟩
    , ⟨0x5100, 0x72, 0x72, 0x07, 2, 3, 0, true⟩
    , ⟨0x5100, 0x73, 0x73, 0x07, 2, 3, 0, true⟩ ]

/-- Rows 0x5100 to 0x5100. -/
def objTable9 : List ObjRow :=
  [ ⟨0x5100, 0x74, 0x74, 0x07, 2, 3, 0, true⟩
    , ⟨0x5100, 0x75, 0x75, 0x07, 2, 3, 0, true⟩
    , ⟨0x5100, 0x76, 0x76, 0x05, 2, 3, 0, true⟩
    , ⟨0x5100, 0x77, 0x77, 0x05, 2, 3, 0, true⟩
    , ⟨0x5100, 0x78, 0x78, 0x05, 2, 3, 0, true⟩
    , ⟨0x5100, 0x79, 0x79, 0x05, 2, 3, 0, true⟩
    , ⟨0x5100, 0x7A, 0x7C, 0x1B, 1, 3, 0, false⟩
    , ⟨0x5100, 0x81, 0x81, 0x01, 2, 3, 0, true⟩
    , ⟨0x5100, 0x82, 0x82, 0x07, 2, 3, 0, true⟩
    , ⟨0x5100, 0x83, 0x83, 0x07, 2, 3, 0, true⟩
    , ⟨0x5100, 0x84, 0x84, 0x07, 2, 3, 0, true⟩
    , ⟨0x5100, 0x85, 0x85, 0x07, 2, 3, 0, true⟩
    , ⟨0x5100, 0x86, 0x86, 0x05, 2, 3, 0, true⟩
    , ⟨0x5100, 0x87, 0x87, 0x05, 2, 3, 0, true⟩
    , ⟨0x5100, 0x88, 0x88, 0x05, 2, 3, 0, true⟩
    , ⟨0x5100, 0x89, 0x89, 0x05, 2, 3, 0, true⟩
    , ⟨0x5100, 0x8A, 0x8C, 0x1B, 1, 3, 0, false⟩
    , ⟨0x5100, 0x91, 0x91, 0x01, 2, 3, 0, true⟩
    , ⟨0x5100, 0x92, 0x92, 0x07, 2, 3, 0, true⟩
    , ⟨0x5100, 0x93, 0x93, 0x07, 2, 3, 0, true⟩
    , ⟨0x5100, 0x94, 0x94, 0x07, 2, 3, 0, true⟩
    , ⟨0x5100, 0x95, 0x95, 0x07, 2, 3, 0, true⟩
    , ⟨0x5100, 0x96, 0x96, 0x05, 2, 3, 0, true⟩
    , ⟨0x5100, 0x97, 0x97, 0x05, 2, 3, 0, true⟩
    , ⟨0x5100, 0x98, 0x98, 0x05, 2, 3, 0, true⟩
    , ⟨0x5100, 0x99, 0x99, 0x05, 2, 3, 0, true⟩
    , ⟨0x5100, 0x9A, 0x9C, 0x1B, 1, 3, 0, false⟩
    , ⟨0x5100, 0xA1, 0xA1, 0x01, 2, 3, 0, true⟩
    , ⟨0x5100, 0xA2, 0xA2, 0x07, 2, 3, 0, true⟩
    , ⟨0x5100, 0xA3, 0xA3, 0x07, 2, 3, 0, true⟩
    , ⟨0x5100, 0xA4, 0xA4, 0x07, 2, 3, 0, true⟩
    , ⟨0x5100, 0xA5, 0xA5, 0x07, 2, 3, 0, true⟩
    , ⟨0x5100, 0xA6, 0xA6, 0x05, 2, 3, 0, true⟩
    , ⟨0x5100, 0xA7, 0xA7, 0x05, 2, 3, 0, true⟩
    , ⟨0x5100, 0xA8, 0xA8, 0x05, 2, 3, 0, true⟩
    , ⟨0x5100, 0xA9, 0xA9, 0x05, 2, 3, 0, true⟩
    , ⟨0x5100, 0xAA, 0xAC, 0x1B, 1, 3, 0, false⟩
    , ⟨0x5100, 0xB1, 0xB1, 0x01, 2, 3, 0, true⟩
    , ⟨0x5100, 0xB2, 0xB2, 0x07, 2, 3, 0, true⟩
    , ⟨0x5100, 0xB3, 0xB3, 0x07, 2, 3, 0, true⟩ ]

/-- Rows 0x5100 to 0x5301. -/
def objTable10 : List ObjRow :=
  [ ⟨0x5100, 0xB4, 0xB4, 0x07, 2, 3, 0, true⟩
    , ⟨0x5100, 0xB5, 0xB5, 0x07, 2, 3, 0, true⟩
    , ⟨0x5100, 0xB6, 0xB6, 0x05, 2, 3, 0, true⟩
    , ⟨0x5100, 0xB7, 0xB7, 0x05, 2, 3, 0, true⟩
    , ⟨0x5100, 0xB8, 0xB8, 0x05, 2, 3, 0, true⟩
    , ⟨0x5100, 0xB9, 0xB9, 0x05, 2, 3, 0, true⟩
    , ⟨0x5100, 0xBA, 0xBC, 0x1B, 1, 3, 0, false⟩
    , ⟨0x5100, 0xC1, 0xC1, 0x01, 2, 3, 0, true⟩
    , ⟨0x5100, 0xC2, 0xC2, 0x07, 2, 3, 0, true⟩
    , ⟨0x5100, 0xC3, 0xC3, 0x07, 2, 3, 0, true⟩
    , ⟨0x5100, 0xC4, 0xC4, 0x07, 2, 3, 0, true⟩
    , ⟨0x5100, 0xC5, 0xC5, 0x07, 2, 3, 0, true⟩
    , ⟨0x5100, 0xC6, 0xC6, 0x05, 2, 3, 0, true⟩
    , ⟨0x5100, 0xC7, 0xC7, 0x05, 2, 3, 0, true⟩
    , ⟨0x5100, 0xC8, 0xC8, 0x05, 2, 3, 0, true⟩
    , ⟨0x5100, 0xC9, 0xC9, 0x05, 2, 3, 0, true⟩
    , ⟨0x5100, 0xCA, 0xCC, 0x1B, 1, 3, 0, false⟩
    , ⟨0x5100, 0xD1, 0xD1, 0x01, 2, 3, 0, true⟩
    , ⟨0x5100, 0xD2, 0xD2, 0x07, 2, 3, 0, true⟩
    , ⟨0x5100, 0xD3, 0xD3, 0x07, 2, 3, 0, true⟩
    , ⟨0x5100, 0xD4, 0xD4, 0x07, 2, 3, 0, true⟩
    , ⟨0x5100, 0xD5, 0xD5, 0x07, 2, 3, 0, true⟩
    , ⟨0x5100, 0xD6, 0xD6, 0x05, 2, 3, 0, true⟩
    , ⟨0x5100, 0xD7, 0xD7, 0x05, 2, 3, 0, true⟩
    , ⟨0x5100, 0xD8, 0xD8, 0x05, 2, 3, 0, true⟩
    , ⟨0x5100, 0xD9, 0xD9, 0x05, 2, 3, 0, true⟩
    , ⟨0x5100, 0xDA, 0xDC, 0x1B, 1, 3, 0, false⟩
    , ⟨0x5200, 0x00, 0x00, 0x05, 0, 3, 4, false⟩
    , ⟨0x5200, 0x01, 0x04, 0x07, 1, 3, 0, false⟩
    , ⟨0x5201, 0x00, 0x00, 0x05, 0, 1, 4, false⟩
    , ⟨0x5201, 0x01, 0x04, 0x01, 2, 1, 1, true⟩
    , ⟨0x5202, 0x00, 0x00, 0x05, 0, 1, 4, false⟩
    , ⟨0x5202, 0x01, 0x04, 0x07, 2, 1, 0, true⟩
    , ⟨0x5203, 0x00, 0x00, 0x05, 0, 1, 4, false⟩
    , ⟨0x5203, 0x01, 0x04, 0x06, 2, 1, 0, true⟩
    , ⟨0x5300, 0x00, 0x00, 0x05, 0, 3, 4, false⟩
    , ⟨0x5300, 0x01, 0x04, 0x07, 1, 3, 0, false⟩
    , ⟨0x5301, 0x00, 0x00, 0x05, 0, 3, 36, false⟩
    , ⟨0x5301, 0x01, 0x04, 0x01, 2, 1, 1, true⟩
    , ⟨0x5301, 0x05, 0x24, 0x0F, 1, 3, 0, false⟩ ]

/-- Rows 0x5302 to 0x6001. -/
def objTable11 : List ObjRow :=
  [ ⟨0x5302, 0x00, 0x00, 0x05, 0, 3, 1, false⟩
    , ⟨0x5302, 0x01, 0x01, 0x06, 2, 3, 100, true⟩
    , ⟨0x5400, 0x00, 0x00, 0x05, 0, 3, 4, false⟩
    , ⟨0x5400, 0x01, 0x04, 0x07, 1, 3, 0, false⟩
    , ⟨0x5401, 0x00, 0x00, 0x05, 0, 3, 2, false⟩
    , ⟨0x5401, 0x01, 0x01, 0x06, 2, 3, 1000, true⟩
    , ⟨0x5401, 0x02, 0x02, 0x05, 2, 3, 3, true⟩
    , ⟨0x5500, 0x00, 0x00, 0x05, 0, 3, 2, false⟩
    , ⟨0x5500, 0x01, 0x01, 0x07, 1, 3, 0, false⟩
    , ⟨0x5500, 0x02, 0x02, 0x07, 1, 3, 0, false⟩
    , ⟨0x5501, 0x00, 0x00, 0x05, 0, 3, 4, false⟩
    , ⟨0x5501, 0x01, 0x01, 0x05, 2, 3, 0, true⟩
    , ⟨0x5501, 0x02, 0x02, 0x06, 2, 3, 2000, true⟩
    , ⟨0x5501, 0x03, 0x03, 0x01, 1, 3, 0, false⟩
    , ⟨0x5501, 0x04, 0x04, 0x04, 1, 3, 0, false⟩
    , ⟨0x5502, 0x00, 0x00, 0x05, 0, 1, 5, false⟩
    , ⟨0x5502, 0x01, 0x01, 0x01, 2, 1, 1, true⟩
    , ⟨0x5502, 0x02, 0x02, 0x01, 2, 1, 1, true⟩
    , ⟨0x5502, 0x03, 0x03, 0x0F, 3, 1, 0, true⟩
    , ⟨0x5502, 0x04, 0x04, 0x05, 2, 1, 1, true⟩
    , ⟨0x5502, 0x05, 0x05, 0x07, 2, 1, 0, true⟩
    , ⟨0x5503, 0x00, 0x00, 0x05, 0, 1, 2, false⟩
    , ⟨0x5503, 0x01, 0x01, 0x0A, 2, 1, 0, true⟩
    , ⟨0x5503, 0x02, 0x02, 0x0A, 2, 1, 0, true⟩
    , ⟨0x5504, 0x00, 0x00, 0x05, 0, 3, 2, false⟩
    , ⟨0x5504, 0x01, 0x01, 0x05, 2, 3, 0, true⟩
    , ⟨0x5504, 0x02, 0x02, 0x05, 2, 3, 0, true⟩
    , ⟨0x5510, 0x00, 0x00, 0x05, 0, 1, 255, false⟩
    , ⟨0x5510, 0x01, 0xFF, 0x0F, 2, 1, 0, true⟩
    , ⟨0x5511, 0x00, 0x00, 0x05, 0, 1, 255, false⟩
    , ⟨0x5511, 0x01, 0xFF, 0x0F, 2, 1, 0, true⟩
    , ⟨0x5600, 0x00, 0x00, 0x05, 0, 3, 1, false⟩
    , ⟨0x5600, 0x01, 0x01, 0x07, 1, 3, 0, false⟩
    , ⟨0x6000, 0x00, 0x00, 0x05, 0, 27, 4, false⟩
    , ⟨0x6000, 0x01, 0x01, 0x05, 1, 11, 0, false⟩
    , ⟨0x6000, 0x02, 0x02, 0x09, 0, 19, 0, false⟩
    , ⟨0x6000, 0x03, 0x03, 0x01, 1, 11, 1, false⟩
    , ⟨0x6000, 0x04, 0x04, 0x07, 1, 19, 0, false⟩
    , ⟨0x6001, 0x00, 0x00, 0x05, 0, 19, 9, false⟩
    , ⟨0x6001, 0x01, 0x08, 0x0A, 1, 19, 0, false⟩ ]

/-- Rows 0x6001 to 0x7030. -/
def objTable12 : List ObjRow :=
  [ ⟨0x6001, 0x09, 0x09, 0x0F, 1, 3, 0, false⟩
    , ⟨0x6002, 0x00, 0x00, 0x05, 0, 19, 2, false⟩
    , ⟨0x6002, 0x01, 0x01, 0x0A, 1, 19, 0, false⟩
    , ⟨0x6002, 0x02, 0x02, 0x0F, 1, 19, 0, false⟩
    , ⟨0x6010, 0x00, 0x00, 0x05, 0, 1, 3, false⟩
    , ⟨0x6010, 0x01, 0x01, 0x07, 2, 1, 0, true⟩
    , ⟨0x6010, 0x02, 0x02, 0x1B, 1, 1, 0, false⟩
    , ⟨0x6010, 0x03, 0x03, 0x07, 1, 1, 0, false⟩
    , ⟨0x6020, 0x00, 0x00, 0x05, 0, 19, 4, false⟩
    , ⟨0x6020, 0x01, 0x01, 0x01, 1, 19, 0, false⟩
    , ⟨0x6020, 0x02, 0x02, 0x0A, 1, 3, 0, false⟩
    , ⟨0x6020, 0x03, 0x03, 0x0F, 3, 3, 0, false⟩
    , ⟨0x6020, 0x04, 0x04, 0x01, 1, 3, 0, true⟩
    , ⟨0x6030, 0x00, 0x00, 0x05, 0, 3, 3, false⟩
    , ⟨0x6030, 0x01, 0x01, 0x0F, 1, 3, 0, true⟩
    , ⟨0x6030, 0x02, 0x02, 0x05, 1, 1, 0, false⟩
    , ⟨0x6030, 0x03, 0x03, 0x0F, 1, 3, 0, false⟩
    , ⟨0x7000, 0x00, 0x00, 0x05, 0, 3, 7, false⟩
    , ⟨0x7000, 0x01, 0x01, 0x01, 1, 3, 0, false⟩
    , ⟨0x7000, 0x02, 0x02, 0x01, 3, 3, 0, false⟩
    , ⟨0x7000, 0x03, 0x03, 0x06, 2, 3, 0, true⟩
    , ⟨0x7000, 0x04, 0x04, 0x1B, 2, 3, 0, false⟩
    , ⟨0x7000, 0x05, 0x05, 0x1B, 1, 3, 0, false⟩
    , ⟨0x7000, 0x06, 0x06, 0x1B, 1, 3, 0, false⟩
    , ⟨0x7000, 0x07, 0x07, 0x05, 2, 3, 0, true⟩
    , ⟨0x7001, 0x00, 0x00, 0x05, 0, 3, 1, false⟩
    , ⟨0x7001, 0x01, 0x01, 0x0F, 1, 3, 0, false⟩
    , ⟨0x7002, 0x00, 0x00, 0x05, 0, 3, 1, false⟩
    , ⟨0x7002, 0x01, 0x01, 0x0F, 1, 3, 0, false⟩
    , ⟨0x7003, 0x00, 0x00, 0x05, 0, 3, 2, false⟩
    , ⟨0x7003, 0x01, 0x01, 0x0F, 1, 3, 0, false⟩
    , ⟨0x7003, 0x02, 0x02, 0x0F, 1, 3, 0, false⟩
    , ⟨0x7004, 0x00, 0x00, 0x05, 0, 3, 1, false⟩
    , ⟨0x7004, 0x01, 0x01, 0x05, 3, 3, 0, false⟩
    , ⟨0x7010, 0x00, 0x00, 0x05, 0, 3, 2, false⟩
    , ⟨0x7010, 0x01, 0x01, 0x0F, 1, 3, 0, false⟩
    , ⟨0x7010, 0x02, 0x02, 0x1B, 1, 3, 0, false⟩
    , ⟨0x7020, 0x00, 0x00, 0x05, 0, 3, 4, false⟩
    , ⟨0x7020, 0x01, 0x04, 0x0F, 1, 3, 0, false⟩
    , ⟨0x7030, 0x00, 0x00, 0x05, 0, 3, 2, false⟩ ]

/-- Rows 0x7030 to 0x8100. -/
def objTable13 : List ObjRow :=
  [ ⟨0x7030, 0x01, 0x01, 0x0F, 1, 3, 0, false⟩
    , ⟨0x7030, 0x02, 0x02, 0x1B, 1, 3, 0, false⟩
    , ⟨0x7100, 0x00, 0x00, 0x05, 0, 3, 44, false⟩
    , ⟨0x7100, 0x01, 0x2C, 0x0F, 1, 3, 0, false⟩
    , ⟨0x7200, 0x00, 0x00, 0x05, 0, 3, 3, false⟩
    , ⟨0x7200, 0x01, 0x01, 0x07, 2, 3, 10000, true⟩
    , ⟨0x7200, 0x02, 0x02, 0x06, 3, 1, 0, false⟩
    , ⟨0x7200, 0x03, 0x03, 0x0F, 1, 1, 0, false⟩
    , ⟨0x7300, 0x00, 0x00, 0x05, 0, 3, 15, false⟩
    , ⟨0x7300, 0x01, 0x01, 0x05, 2, 3, 0, true⟩
    , ⟨0x7300, 0x02, 0x02, 0x06, 2, 3, 16384, true⟩
    , ⟨0x7300, 0x03, 0x03, 0x06, 2, 3, 0, true⟩
    , ⟨0x7300, 0x04, 0x04, 0x1B, 2, 3, 0xffffffffffffffff, true⟩
    , ⟨0x7300, 0x05, 0x05, 0x06, 2, 3, 0, true⟩
    , ⟨0x7300, 0x06, 0x06, 0x01, 3, 3, 0, false⟩
    , ⟨0x7300, 0x07, 0x07, 0x05, 1, 3, 0, false⟩
    , ⟨0x7300, 0x08, 0x08, 0x05, 2, 3, 255, true⟩
    , ⟨0x7300, 0x09, 0x09, 0x01, 3, 3, 0, false⟩
    , ⟨0x7300, 0x0A, 0x0A, 0x0F, 1, 3, 0, false⟩
    , ⟨0x7300, 0x0B, 0x0B, 0x0F, 1, 3, 0, false⟩
    , ⟨0x7300, 0x0C, 0x0C, 0x06, 1, 3, 0, false⟩
    , ⟨0x7300, 0x0D, 0x0D, 0x06, 1, 3, 0, false⟩
    , ⟨0x7300, 0x0E, 0x0E, 0x1B, 1, 3, 0, false⟩
    , ⟨0x7300, 0x0F, 0x0F, 0x07, 1, 3, 0, false⟩
    , ⟨0x7400, 0x00, 0x00, 0x05, 0, 3, 5, false⟩
    , ⟨0x7400, 0x01, 0x01, 0x0F, 1, 3, 0, false⟩
    , ⟨0x7400, 0x02, 0x02, 0x07, 1, 3, 0, false⟩
    , ⟨0x7400, 0x03, 0x03, 0x07, 2, 1, 0, false⟩
    , ⟨0x7400, 0x04, 0x04, 0x07, 2, 2, 0, false⟩
    , ⟨0x7400, 0x05, 0x05, 0x07, 1, 3, 0, false⟩
    , ⟨0x8000, 0x00, 0x00, 0x05, 0, 7, 6, false⟩
    , ⟨0x8000, 0x01, 0x01, 0x0F, 2, 7, 0, true⟩
    , ⟨0x8000, 0x02, 0x02, 0x05, 2, 3, 0, true⟩
    , ⟨0x8000, 0x03, 0x03, 0x0A, 2, 3, 0, true⟩
    , ⟨0x8000, 0x04, 0x04, 0x06, 2, 3, 16, true⟩
    , ⟨0x8000, 0x05, 0x05, 0x06, 1, 3, 0, false⟩
    , ⟨0x8000, 0x06, 0x06, 0x06, 1, 7, 0, false⟩
    , ⟨0x8010, 0x00, 0x00, 0x05, 0, 1, 1, false⟩
    , ⟨0x8010, 0x01, 0x01, 0x0F, 2, 1, 0, true⟩
    , ⟨0x8100, 0x00, 0x00, 0x05, 0, 3, 7, false⟩ ]

/-- Rows 0x8100 to 0x9100. -/
def objTable14 : List ObjRow :=
  [ ⟨0x8100, 0x01, 0x01, 0x05, 2, 3, 0, true⟩
    , ⟨0x8100, 0x02, 0x02, 0x1B, 2, 1, 0, true⟩
    , ⟨0x8100, 0x03, 0x03, 0x06, 2, 3, 10, true⟩
    , ⟨0x8100, 0x04, 0x04, 0x06, 2, 3, 50, true⟩
    , ⟨0x8100, 0x05, 0x05, 0x05, 2, 3, 255, true⟩
    , ⟨0x8100, 0x07, 0x07, 0x05, 1, 3, 0, false⟩
    , ⟨0x8200, 0x00, 0x00, 0x05, 0, 3, 10, false⟩
    , ⟨0x8200, 0x01, 0x01, 0x06, 2, 3, 4096, true⟩
    , ⟨0x8200, 0x02, 0x02, 0x07, 2, 3, 1034147594, true⟩
    , ⟨0x8200, 0x03, 0x03, 0x1B, 1, 3, 0, false⟩
    , ⟨0x8200, 0x04, 0x04, 0x1B, 1, 3, 0, false⟩
    , ⟨0x8200, 0x05, 0x05, 0x07, 1, 3, 0, false⟩
    , ⟨0x8200, 0x06, 0x06, 0x07, 1, 3, 0, false⟩
    , ⟨0x8200, 0x07, 0x07, 0x07, 1, 3, 0, false⟩
    , ⟨0x8200, 0x08, 0x08, 0x07, 1, 3, 0, false⟩
    , ⟨0x8200, 0x09, 0x09, 0x07, 1, 3, 0, false⟩
    , ⟨0x8200, 0x0A, 0x0A, 0x05, 1, 3, 0, false⟩
    , ⟨0x8300, 0x00, 0x00, 0x05, 0, 3, 3, false⟩
    , ⟨0x8300, 0x01, 0x01, 0x05, 1, 3, 0, false⟩
    , ⟨0x8300, 0x02, 0x02, 0x1B, 1, 3, 0, false⟩
    , ⟨0x8300, 0x03, 0x03, 0x07, 1, 3, 0, false⟩
    , ⟨0x9000, 0x00, 0x00, 0x05, 0, 3, 20, false⟩
    , ⟨0x9000, 0x01, 0x14, 0x07, 1, 3, 0, false⟩
    , ⟨0x9001, 0x00, 0x00, 0x05, 0, 3, 7, false⟩
    , ⟨0x9001, 0x01, 0x01, 0x05, 3, 3, 0, false⟩
    , ⟨0x9001, 0x02, 0x02, 0x05, 3, 3, 0, false⟩
    , ⟨0x9001, 0x03, 0x03, 0x07, 1, 3, 1048575, false⟩
    , ⟨0x9001, 0x04, 0x04, 0x07, 2, 3, 4096, true⟩
    , ⟨0x9001, 0x05, 0x05, 0x05, 2, 3, 3, true⟩
    , ⟨0x9001, 0x06, 0x06, 0x06, 2, 3, 1000, true⟩
    , ⟨0x9001, 0x07, 0x07, 0x07, 1, 3, 0, false⟩
    , ⟨0x9100, 0x00, 0x00, 0x05, 0, 3, 2, false⟩
    , ⟨0x9100, 0x01, 0x01, 0x05, 2, 3, 3, true⟩
    , ⟨0x9100, 0x02, 0x02, 0x05, 2, 3, 4, true⟩ ]

/-- Every object of the device. -/
def objTable : List ObjRow :=
  objTable0 ++ objTable1 ++ objTable2 ++ objTable3 ++ objTable4 ++ objTable5 ++ objTable6 ++ objTable7 ++ objTable8 ++ objTable9 ++ objTable10 ++ objTable11 ++ objTable12 ++ objTable13 ++ objTable14

/-- The index under which the table lists an index: a tenant block stands at the block of tenant 0 (R410). -/
def objNorm (index : Nat) : Nat := if 0x3000 ≤ index ∧ index < 0x3400 then 0x3000 + index % 16 else index

/-- The row of an object, if it exists (R610). -/
def objRow? (index sub : Nat) : Option ObjRow :=
  objTable.find? fun r => r.index == objNorm index && decide (r.lo ≤ sub) && decide (sub ≤ r.hi)

/-- The index exists (R632). -/
def objIndexExists (index : Nat) : Bool := objTable.any fun r => r.index == objNorm index

/-- The numeric default of an object in the tables (R630). -/
def objTableDefault (index sub : Nat) : Nat := ((objRow? index sub).map (·.dflt)).getD 0

end Sys2Proof.Machine
end

