-- ==== Sys2Proof/Machine/State.lean ====
section
/-! DEFINITION. The state of the device as plain data, chapter by chapter of the specification, the two
reasons a step can stop, and the state right after reset. A field's docstring names the rule that gives it
and its value at reset; `n/a` marks a value the specification gives none for (log entry 5). -/

namespace Sys2Proof.Machine

/-- A sparse table: numbered entries in strictly rising order of their number; a number that is not listed
holds the table's default (each use names it). -/
abbrev Tbl (α : Type) := List (Nat × α)

/-! ## Time, the object store and power (R42, R610 to R634, R680 to R700) -/

/-- The two time bases: truss cycles since reset (R23), and device time (R42) in half nanoseconds, since one
truss cycle at 2.0 GHz lasts half a nanosecond. -/
structure Time where
  /-- Truss cycles registered since reset. -/
  cycle : Nat := 0
  /-- Device time in half nanoseconds, modulo 2^65 (R42). -/
  devHalf : Nat := 0
  deriving DecidableEq, Repr

/-- One staged write in progress: the path and principal it belongs to, the object, the declared total and the
bytes so far (R618). -/
structure Staged where
  path : Nat
  prin : Prin
  key : Nat
  total : Nat
  bytes : List Byte
  /-- Truss cycle of the last part; 100 ms later the write is discarded. -/
  last : Nat
  deriving DecidableEq, Repr

/-- A read of the cycle of a write: principal, object, offset and length, and the code, the present length and the bytes that it
returns (R616). -/
structure EarlyRead where
  prin : Prin
  key : Nat
  off : Nat
  len : Nat
  code : Nat
  size : Nat
  bytes : List Byte
  deriving DecidableEq, Repr

/-- The object store. A key is `index * 256 + subindex`. -/
structure Dict where
  /-- Values in force of the numeric objects, where they differ from the default (R612, R617). -/
  force : Tbl Nat := []
  /-- Values last written that are not in force yet (R617): they take effect at the boundary, training, restart,
  reset or arm that the object's chapter names. -/
  waiting : Tbl Nat := []
  /-- Values of the DOMAIN, string and record objects, where they differ from the default. -/
  doms : Tbl (List Byte) := []
  /-- The accepted configuration record's entries: the defaults of Kept objects until the next start (R630). -/
  record : Tbl (List Byte) := []
  /-- Staged writes in progress, one for each path and principal (R618). -/
  staged : List Staged := []
  /-- The accesses of the truss cycle `accAt` (R615, R616): the paths that have carried one, what the cycle's reads that wait
  return, fixed before its first write, and the highest principal that has written each object. -/
  accAt : Nat := 0
  accOn : List Nat := []
  early : List EarlyRead := []
  wrote : Tbl Nat := []
  deriving DecidableEq, Repr

/-- One EMCY message's event: class, object named and its value, with 1001:00 at the time (R623, R624). -/
structure Emcy where
  cls : Nat
  index : Nat
  sub : Nat
  value : Nat
  errreg : Nat
  deriving DecidableEq, Repr

/-- The CANopen FD and MCTP over I3C interfaces (R620 to R625). -/
structure Can where
  /-- 1020:04, NMT state: 0 initialising, 4 stopped, 5 operational, 127 pre-operational. Reset: 127. -/
  nmt : Nat := 127
  /-- Node-ID and the two bit rates in use, taken from 1020:01 to 1020:03 at each restart (R634). -/
  node : Nat := 127
  nominal : Nat := 1000
  dataRate : Nat := 5000
  /-- Waiting EMCY events, oldest first, at most 16 (R623). -/
  emcy : List Emcy := []
  /-- Truss cycle at which the previous EMCY was sent. -/
  lastEmcy : Option Nat := none
  /-- Truss cycle of the last heartbeat (R620). -/
  lastBeat : Nat := 0
  /-- The USDO transfer in progress: object key, upload, and bytes moved (R622). -/
  usdo : Option (Nat × Bool × List Byte) := none
  /-- The I3C dynamic address, 0 while none is assigned (R625). -/
  i3c : Nat := 0
  /-- 1021:01, the MCTP endpoint ID. Reset: 0. -/
  eid : Nat := 0
  deriving DecidableEq, Repr

/-- 2000:01, the device state (R699). -/
inductive DevState where
  | starting | ready | quiescing | reset | failed | shutdown
  deriving DecidableEq, Repr

/-- Power, reset and recovery (R680 to R700). -/
structure Power where
  /-- 2000:01. Reset: STARTING. -/
  dev : DevState := .starting
  /-- The power-up step in progress, 1 to 8, and 0 once power-up has ended (R685). At reset the device is past
  steps 1 to 3, which a device reset does not repeat: step 4. -/
  step : Nat := 4
  /-- Of the parallel steps 6 and 7, those that have ended (R685). -/
  ended6 : Bool := false
  ended7 : Bool := false
  /-- 2000:04, rail status, one bit for each rail of R681 in table order. Reset: n/a; all ten rails stand through a device
  reset (R694). -/
  rails : Nat := 0x3FF
  /-- pwr_en, pwr_good, fault_n asserted, therm_n asserted (R685 to R688, R683). -/
  pwrEn : Bool := true
  pwrGood : Bool := true
  faultN : Bool := false
  thermN : Bool := false
  /-- 2000:02, 2000:03 and 2010:05 as last measured. Reset: n/a. -/
  millivolt : Nat := 0
  watts : Nat := 0
  hottest : Nat := 0
  /-- Issue allowance of each core, 1 to 16 (R682). -/
  allowance : List Nat := List.replicate 20 16
  /-- 2010:06, gated core cycles. -/
  gated : Nat := 0
  /-- 2020:05: device resets since power-up, and requests ignored. -/
  resets : Nat := 0
  ignored : Nat := 0
  /-- 2020:06, the cause of the last reset or failure. -/
  cause : Nat := 0
  /-- A device reset is running: the cycle at which its request, and then the reset itself, was registered (R694). -/
  resetAt : Option Nat := none
  /-- The powered-down device left by an emergency: only a power cycle leaves it (R688); and the truss cycle at which the device
  powered down. -/
  emergency : Bool := false
  downAt : Nat := 0
  /-- Truss cycle at which the watchdog period began; none while it is stopped (R696). -/
  dogStart : Option Nat := none
  /-- The steward cores have been released (R422 step 7). -/
  stewardUp : Bool := false
  deriving DecidableEq, Repr

/-! ## The step clock (R29 to R55) -/

/-- The four states of the step clock (R45). -/
inductive ClkState where
  | unlocked | locked | overrun | coast
  deriving DecidableEq, Repr

/-- The step clock unit on IO0. -/
structure StepClk where
  /-- 2101:01. Reset: UNLOCKED. -/
  st : ClkState := .unlocked
  /-- 2101:02, the last accepted step number. Reset: 0. -/
  last : Nat := 0
  /-- A step has been accepted or started since the last entry to UNLOCKED (R33, R715), and since reset (R37, R55). -/
  seen : Bool := false
  heard : Bool := false
  /-- The 48-bit phase accumulator: phase in bits 47..32 (R38). -/
  acc : Nat := 0
  /-- 2101:05, the predicted step length in use, ns. Reset: 1,000,000. -/
  predicted : Nat := 1000000
  /-- The layer count of the step in progress. -/
  layers : Nat := 1
  /-- origin_ts of the last accepted beacon or started step (R34, R44). -/
  originTs : Nat := 0
  /-- A keystone's prediction is running: the first after it locks is 2100:03 (R44). -/
  predicting : Bool := false
  /-- Half nanoseconds of the truss clock at the last accepted beacon's origin (R46); a truss cycle is one. -/
  originAt : Int := 0
  /-- Truss cycle at which the step in progress, internal or accepted, began. -/
  stepAt : Nat := 0
  /-- Half nanoseconds of device time at the last step boundary (R524). -/
  stepDev : Nat := 0
  /-- 2101:07, the internal step count: 1 for the first internal step of UNLOCKED (R716), which begins at release
  from reset (R715). The object's table default is 0, which R716 gives the states without internal steps. -/
  internal : Nat := 1
  /-- c of R48: the step number of the last coasted beacon taken since a beacon was accepted. -/
  coasted : Option Nat := none
  /-- The successor has become the keystone, and its first beacon is still to come (R581). -/
  takeover : Bool := false
  /-- The background window is open, and it has opened in this step (R50 order 5). -/
  winOpen : Bool := false
  winDone : Bool := false
  /-- Layer slots of this step whose prefetch has fired, and whether the checkpoint deadline has (R50 orders 7, 9). -/
  slots : Nat := 0
  deadlineDone : Bool := false
  /-- 2101:06, the six counts of R55. -/
  discarded : Nat := 0
  stale : Nat := 0
  missed : Nat := 0
  early : Nat := 0
  overruns : Nat := 0
  coasts : Nat := 0
  deriving DecidableEq, Repr

/-! ## Registers of the device windows and the tellers (R635 to R656) -/

/-- The steward's selector and command registers (R639 to R643). -/
structure Windows where
  /-- INBIRQ enable and vec. -/
  inbIrq : Bool := false
  inbVec : Nat := 0
  /-- CTXSEL, and CTXCMDST's busy, ctx and status. -/
  ctxSel : Nat := 0
  ctxBusy : Bool := false
  ctxLast : Nat := 0
  ctxStatus : Nat := 0
  /-- CORESEL. -/
  coreSel : Nat := 0
  /-- HBMSEL of each HBM window instance: 0 the steward’s, 1 to 4 the training sequencers’ (R262). -/
  hbmSel : Tbl Nat := []
  /-- PIERSEL (R488). -/
  pierSel : Nat := 0
  /-- QPSEL of each tenant queue window instance; 64 is the steward's (R384). -/
  qpSel : Tbl Nat := []
  deriving DecidableEq, Repr

/-- A message delivered by a teller and not yet acknowledged (R648 to R653). -/
structure TlMsg where
  seq : Nat
  verb : Nat
  dest : Nat
  bytes : List Byte
  /-- Truss cycle of delivery: the dictionary service takes the oldest first. -/
  at_ : Nat
  deriving DecidableEq, Repr

/-- A reply: the receiver's number, seq, verb and bytes (R650). -/
structure TlReply where
  dest : Nat
  seq : Nat
  verb : Nat
  bytes : List Byte
  deriving DecidableEq, Repr

/-- One teller channel (R649, R650). -/
structure Teller where
  send : Tbl Byte := []
  msg : Option TlMsg := none
  ackValid : Bool := false
  ackCode : Nat := 0
  ackSeq : Nat := 0
  /-- The last reply's TLRPLY fields, and the reply buffer while it holds a reply. -/
  rply : Option TlReply := none
  replyFull : Bool := false
  /-- Replies that wait at their receiver for the buffer, oldest first (R653). -/
  wait : List TlReply := []
  /-- The last send that found the channel full, with its truss cycle: an acknowledgement of that cycle comes first (R651). -/
  turned : Option (Nat × BitVec 64) := none
  deriving DecidableEq, Repr

/-- The tellers and the pool-manager inbox (R648, R654). -/
structure Tellers where
  chan : Tbl Teller := []
  /-- INBSEL, INBSTAT's stale and refused, and the inbox's reply buffer. -/
  inbSel : Nat := 0
  stale : Bool := false
  refused : Bool := false
  inbReply : Tbl Byte := []
  deriving DecidableEq, Repr

/-! ## Tallies and traces (R657 to R679) -/

/-- One trace buffer, of IO0 or IO1 (R666 to R670). -/
structure Trace where
  fifo : List (BitVec 256) := []
  recs : Tbl (BitVec 256) := []
  /-- Slots written since the arm. -/
  wr : Nat := 0
  /-- Records lost and not yet told by a gap record (reason 1), and confidential ones (reason 2). -/
  lost : Nat := 0
  hidden : Nat := 0
  /-- 7300:07: 0 idle, 1 recording, 2 after the trigger, 3 stopped. -/
  st : Nat := 0
  /-- A trigger has been registered and its record is still to be written (R670). -/
  wait : Bool := false
  /-- 7300:0C or 0D, and post-trigger records still to write. -/
  trigSlot : Nat := 0
  left : Nat := 0
  deriving DecidableEq, Repr

/-- The tallies, their freeze, the rings and the traces. -/
structure Tally where
  /-- 7001, 7002, 7003 and 7100 as one table: key `group * 65536 + unit * 16 + column` (R658). -/
  counts : Tbl Nat := []
  /-- Running counts of the work item on each core and of its last finished one, as lists of five (R660). -/
  coreRun : Tbl (List Nat) := []
  coreLast : Tbl (List Nat) := []
  /-- Last-descriptor record and last digest of each global queue pair (R660, R672). -/
  qpLast : Tbl (List Nat) := []
  qpDigest : Tbl (BitVec 256) := []
  /-- 7000:01, 7000:05, 7000:06. -/
  frozen : Bool := false
  frozenAt : Nat := 0
  /-- A freeze trigger of R663 has been registered. -/
  freezeWait : Bool := false
  /-- The cycle of the last trigger that found the tallies frozen: lifted in that cycle, they stay frozen (R663). -/
  trigAt : Option Nat := none
  frozenCycles : Nat := 0
  /-- 7010: the ring, and the count written (R664). -/
  snaps : Tbl (List Nat) := []
  snapCount : Nat := 0
  /-- 7030: the event ring and the count written (R665). -/
  events : Tbl (BitVec 128) := []
  eventCount : Nat := 0
  /-- Descriptors completed, and those with a code other than 0x00 and 0x10 (R664). -/
  completed : Nat := 0
  failed : Nat := 0
  /-- The traces of IO0 and IO1, and the settings in force since the arm: mode, kinds, tenants, trigger kinds,
  trigger code, P (R669, R678). -/
  io0 : Trace := {}
  io1 : Trace := {}
  mode : Nat := 0
  kinds : Nat := 0
  tenants : Nat := 0
  trigKinds : Nat := 0
  trigCode : Nat := 255
  post : Nat := 16384
  /-- The trace records from this truss cycle on (R669). -/
  armedFrom : Nat := 0
  /-- 7300:0E, 7300:0F. -/
  recLost : Nat := 0
  trigIgnored : Nat := 0
  deriving DecidableEq, Repr

/-! ## Memory, line metadata and stored-data protection (R16 to R20, R290 to R315) -/

/-- The metadata of a T1 line where it differs from its extent's base (R290), with the physical condition of its
stored symbols (log entry 11). -/
structure Line where
  /-- Tenant tag (R291). -/
  tag : Nat
  /-- Key epoch of the line's ciphertext. -/
  epoch : Nat
  poison : Bool
  /-- Tier hint (R221). -/
  hint : Nat
  /-- What the line's decoder finds (R293); `clean` unless damage has been found in it. -/
  cond : Finding
  deriving DecidableEq, Repr

/-- One error-log entry's fields (R305). -/
structure LogEntry where
  time : Nat
  step : Nat
  addr : Nat
  loc : Nat
  tag : Nat
  source : Nat
  symbols : Nat
  count : Nat
  kind : Nat
  severity : Nat
  deriving DecidableEq, Repr

/-- Memory and what guards it. -/
structure Mem where
  /-- The bytes of the local address space, as plain data: address and byte, rising, none equal to 0, which is
  what an unlisted address reads as (R268, R398; log entry 6). -/
  bytes : List Host.Cell := []
  /-- Lines whose metadata differ from their extent's base, by line number (address / 64). -/
  lines : Tbl Line := []
  /-- T3 blocks of 64 KiB written since their grant, by block number (R396, R398). -/
  written : List Nat := []
  /-- 7400:01, the log, by entry index; 7400:02, :03, :04, :05 (R309). -/
  log : Tbl LogEntry := []
  logWr : Nat := 0
  logRd : Nat := 0
  logRdM : Nat := 0
  logLost : Nat := 0
  /-- Events lost since the previous gap entry (R309). -/
  logGap : Nat := 0
  /-- A severity 3 entry has been written since start: 1001:00 bit 0. -/
  sev3 : Bool := false
  /-- Corrected entries of this second by controller: the second, and the count (R308). -/
  corrSec : Tbl (Nat × Nat) := []
  /-- Corrections of each bank in the scrub period, by the bank's code, and those already logged (R308). -/
  bankCorr : Tbl Nat := []
  /-- The immediate-scrub queue of each controller: line numbers, at most 16 (R302). -/
  scrubQ : Tbl (List Nat) := []
  /-- Patrol position of each controller, in lines read in this pass (R301). -/
  patrol : Tbl Nat := []
  /-- Truss cycle at which each controller's pass began; the first one begins with the device, at cycle 0 (R301). -/
  passAt : Tbl Nat := []
  /-- 4042:03: retired granules by PA[51:12], and retired banks and pseudo-channels by location code (R313). -/
  retired : List Nat := []
  retiredBanks : List Nat := []
  deriving DecidableEq, Repr

/-! ## HBM controllers (R260 to R289) -/

/-- The states of a controller that R264 and R268 name, SELF_REFRESH and RETRAINING apart. -/
inductive HbmState where
  | off | training | initialising | inService | retained | failed
  deriving DecidableEq, Repr

/-- An entry of a bank's row-disturbance tracker: the row, its count, and its activations by requester since it entered, by
`tag * 256 + source` (R274, R276). -/
structure RowCount where
  row : Nat
  count : Nat
  by_ : Tbl Nat
  deriving DecidableEq, Repr

/-- One HBM controller. -/
structure Hbm where
  st : HbmState := .off
  /-- Failed pseudo-channels, 64 bits (4001), and lanes mapped to repair lanes. -/
  failedPc : Nat := 0
  repaired : Nat := 0
  /-- The repair map: the lanes mapped to repair lanes, 36 bits by pseudo-channel (R269); the PHY delays that the firmware has set,
  one number by group of pseudo-channels, as no rule gives their form (R267, R287; log entry 107). -/
  repairMap : Tbl Nat := []
  delays : Tbl Nat := []
  /-- Stack temperature as last reported, °C; n/a at reset. -/
  temp : Nat := 0
  /-- Refresh runs at double rate (R272). -/
  hot : Bool := false
  /-- Postponed refreshes, and refreshes issued in the sweep, by `pc * 64 + bank` (R273, R274). -/
  postponed : Tbl Nat := []
  swept : Tbl Nat := []
  /-- Cycle of the last refresh that fell due, by `pc * 64 + bank` (R272). -/
  dueAt : Tbl Nat := []
  /-- The row-disturbance trackers, at most 64 entries each, by `pc * 64 + bank` (R274), and the bank and rows of the last targeted
  refresh (R275). -/
  rows : Tbl (List RowCount) := []
  targeted : Nat × List Nat := (0, [])
  /-- Row-disturbance credits of this interval, at most 8 requesters, and the intervals of throttling left, by
  `tag * 256 + source` (R276, R277). -/
  credits : Tbl Nat := []
  throttled : Tbl Nat := []
  /-- In self-refresh, with its clocks stopped (R279). -/
  selfRefresh : Bool := false
  /-- Truss cycle of the last request, for the idle timer. -/
  lastUse : Nat := 0
  /-- Temperature at the last training (R287). -/
  trainTemp : Nat := 0
  /-- Asked to retrain at the next window (R287), and retraining. -/
  askRetrain : Bool := false
  retraining : Bool := false
  /-- PATCTL's fields without start and busy, those of the operation that runs, busy, and the compare results (R265, R266). -/
  patctl : Nat := 0
  patRun : Nat := 0
  patBusy : Bool := false
  cmpRes : Nat := 0
  cmpLane : Nat := 0
  deriving DecidableEq, Repr

/-- The controllers and the retraining sequence. -/
structure HbmSys where
  ctl : Tbl Hbm := []
  /-- Pseudo-channel groups still to retrain, 16 down to 0 (R285). -/
  groups : Nat := 0
  /-- Segments kept through the last device reset (R282, R284), and of each extent that lies in them the owner and key epoch of
  the lines that carry no metadata of their own, and that it held a bundle (R440). -/
  retained : Nat := 0
  kept : Tbl (Nat × Nat × Bool) := []
  deriving DecidableEq, Repr

/-! ## Tenants, extents and queue pairs (R380 to R412) -/

/-- A tenant's state (R380). -/
inductive TenState where
  | free | active | removing
  deriving DecidableEq, Repr

/-- One tenant. -/
structure Tenant where
  st : TenState := .free
  confidential : Bool := false
  /-- Step of the removal in progress, 1 to 9 (R446). -/
  removeStep : Nat := 0
  /-- Last queue pair taken, for the round-robin of R403. -/
  rr : Nat := 0
  /-- Pages pinned (R160). -/
  pinned : Nat := 0
  deriving DecidableEq, Repr

/-- An extent's state (R393). -/
inductive ExtState where
  | free | granting | granted | escrow
  deriving DecidableEq, Repr

/-- An extent record (R393), with its escrow step and the epoch its untouched lines carry. -/
structure Extent where
  st : ExtState := .free
  kind : Nat := 0
  /-- Owner tag; reset 0xFF. -/
  owner : Nat := 255
  mode : Nat := 0
  loss : Bool := false
  mac : Bool := false
  cache : Bool := false
  epoch : Nat := 0
  rewrap : Bool := false
  readers : Nat := 0
  macBlock : Nat := 0
  /-- The step of R401 an ESCROW extent is at. -/
  step : Nat := 0
  /-- Key epoch of the lines that carry no metadata of their own; and that those lines carry another owner's tag, having been
  kept through a device reset and granted anew (R440). -/
  base : Nat := 0
  alien : Bool := false
  /-- A bundle is sealed into it, and only confidential tenants may read it (R452, R453). -/
  sealed : Bool := false
  sealConf : Bool := false
  deriving DecidableEq, Repr

/-- A queue pair's state (R388). -/
inductive QpState where
  | disabled | active | reinit | refused
  deriving DecidableEq, Repr

/-- One queue pair: QPCFG's fields, its queues and its doorbells (R383 to R391, R644 to R647). -/
structure Qp where
  enable : Bool := false
  cqPush : Bool := false
  tenant : Nat := 0
  bindKind : Nat := 0
  bindPort : Nat := 0
  sqLog : Nat := 4
  cqLog : Nat := 4
  irqVec : Nat := 0
  coalCount : Nat := 0
  coalTime : Nat := 0
  st : QpState := .disabled
  reason : Nat := 0
  starved : Bool := false
  /-- Truss cycle since which the head is starved, and cycles starved before (R405). -/
  starvedAt : Option Nat := none
  /-- CQPUSH. -/
  pushAddr : Nat := 0
  /-- Submission slots written, by slot; each slot's registration cycle of the SQTAIL write that showed it (R540). -/
  sq : Tbl Desc := []
  sqAt : Tbl Nat := []
  /-- The scheduler's read index, and SQTAIL's tail and bad. -/
  rd : Nat := 0
  tail : Nat := 0
  sqBad : Bool := false
  /-- Completion entries in their slots. -/
  cq : Tbl (BitVec 128) := []
  /-- Completion entries reserved and consumed since the queues were set up, as running counts; the slot is the
  count modulo the size and the phase comes from the pass (R162, R403, R647). -/
  reserved : Nat := 0
  consumed : Nat := 0
  /-- Reserved entries written and not yet consumed. -/
  done : List Nat := []
  cqBad : Bool := false
  /-- Entries counted toward the interrupt, and the cycle of the first (R390). -/
  irqCount : Nat := 0
  irqAt : Option Nat := none
  /-- In REINIT because of enable = 0: the pair ends DISABLED (R389). -/
  toDisabled : Bool := false
  /-- Descriptors read since the queues were set up: their order (R126). -/
  seq : Nat := 0
  /-- Writes to submission slots that were ignored because the slot holds a submitted descriptor (R644). -/
  slotIgnored : Nat := 0
  /-- XLINVADDR, XLINVSTAT (R374). -/
  invAddr : Nat := 0
  invDone : Nat := 0
  invRefused : Bool := false
  invOverrun : Bool := false
  invBusy : Bool := false
  deriving DecidableEq, Repr

/-- A queue pair's sample record (R541). -/
structure Sample where
  hist : List Nat := List.replicate 16 0
  delayMax : Nat := 0
  placesMax : Nat := 0
  depthMax : Nat := 0
  depthSum : Nat := 0
  samples : Nat := 0
  deriving DecidableEq, Repr

/-- The ledger. -/
structure Ledger where
  tens : Tbl Tenant := []
  exts : Tbl Extent := []
  qps : Tbl Qp := []
  samples : Tbl Sample := []
  /-- Truss cycle of the last sampling (R539). -/
  sampledAt : Nat := 0
  /-- Round-robin pointer over tenants, by I/O die (R403). -/
  rr0 : Nat := 0
  rr1 : Nat := 0
  /-- 2400:0B. -/
  status : Nat := 0
  /-- PASID bindings: tenant, root and stall, by PASID; PASID 0 is the pool manager's (R354). -/
  binds : Tbl (Nat × Nat × Bool) := []
  deriving DecidableEq, Repr

/-! ## Contexts, page frames and tiers (R168 to R242) -/

/-- A context entry's state (R169). -/
inductive CtxState where
  | free | open | closing
  deriving DecidableEq, Repr

/-- A context entry (R169). -/
structure Ctx where
  st : CtxState := .free
  tenant : Nat := 0
  layersM1 : Nat := 0
  headsM1 : Nat := 0
  dkc : Nat := 0
  fmt : Nat := 0
  home : Nat := 0
  stripe : Nat := 0
  /-- pf_en as last written, and in force since the last step boundary (R169). -/
  pfEn : Bool := false
  pfForce : Bool := false
  lanes : Nat := 0
  length : Nat := 0
  rotSet : Bool := false
  halves : Bool := false
  rotDims : Nat := 0
  theta : Nat := 0
  posScale : Nat := 0
  /-- family_next: a context alone in its family names itself. -/
  family : Nat := 0
  /-- PA[51:12] of the layer directory and of the live directory. -/
  dirAddr : Nat := 0
  liveAddr : Nat := 0
  /-- Hint ranges, oldest first: first page, last page, hot (R220). -/
  hints : List (Nat × Nat × Bool) := []
  /-- Striped over the span, with its span set's mask (R582). -/
  span : Nat := 0
  deriving DecidableEq, Repr

/-- A page entry of one context: summary state, format, pinned, and the frame it names (R181). -/
structure Page where
  sstate : Nat
  fmt : Nat
  pinned : Bool
  frame : Nat
  deriving DecidableEq, Repr

/-- A frame's ledger record: its count, referenced bit, its copies by tier (PA[51:12]), and the copies a failed tray
took (R185, R205, R223, R239). -/
structure Frame where
  tenant : Nat
  /-- Bytes, a multiple of 4 KiB (R176). -/
  size : Nat
  count : Nat
  refd : Bool
  t1 : Option Nat
  t2 : Option Nat
  t3 : Option Nat
  lost2 : Bool
  lost3 : Bool
  /-- Dropped by the revocation of the tier extent that held the highest copy (R401). -/
  revoked : Bool
  /-- Key epoch of the lower copies (the page record's bit, R396). -/
  epoch : Nat
  deriving DecidableEq, Repr

/-- Something in drain: a frame whose count is 0, or (frame 0) one T1 copy of `size` bytes at `addr`; the running
descriptors that hold it (R128, R184). -/
structure Drain where
  frame : Nat
  addr : Nat
  size : Nat
  holders : List Nat
  deriving DecidableEq, Repr

/-- A slab of 32 MiB: its owner, its frame size (0 while it serves none) and its frames in use (R177). -/
structure Slab where
  tenant : Nat
  size : Nat
  used : List Nat
  deriving DecidableEq, Repr

/-- A move of a page copy (R210 to R215): target tier, priority, and whether it has begun. -/
structure Move where
  id : Nat
  frame : Nat
  /-- 1 to 3: the tier moved to. -/
  target : Nat
  /-- True for a promotion. -/
  up : Bool
  prio : Nat
  started : Bool
  /-- The new copy's PA[51:12], drawn when the move starts. -/
  dest : Nat
  /-- Drop the T2 copy too (EVICT with opt, R157). -/
  drop2 : Bool
  /-- Descriptors that wait for it, and cores whose tile waits for it. -/
  descs : List Nat
  cores : List Nat
  /-- Step-locked: the layer slot by which it must have begun, else it is late (R226). -/
  slot : Option Nat
  tenant : Nat
  /-- Frames demoted to make room for it that got no copy (R217, R224). -/
  tried : List Nat := []
  deriving DecidableEq, Repr

/-- A tray or namespace record (R236). -/
structure Tray where
  active : Bool := false
  /-- Failed at activation, or failed since (R237, R239). -/
  failed : Bool := false
  port : Nat := 0
  nsid : Nat := 0
  /-- In GiB. -/
  size : Nat := 0
  base : Nat := 0
  set : Nat := 0
  present : Bool := false
  /-- T3: tokens of the endurance bucket in bytes × 7.2e12, and the cycle they were brought up to (R231). -/
  tokens : Nat := 0
  tokensAt : Nat := 0
  deriving DecidableEq, Repr

/-- A tier-cache block: the T3 block it holds, dirty, cold, and its last use (R234). -/
structure CacheBlock where
  block : Nat
  dirty : Bool
  cold : Bool
  used : Nat
  deriving DecidableEq, Repr

/-- Contexts, pages, frames and tiers. -/
structure Kv where
  ctxs : Tbl Ctx := []
  /-- By `(ctx * 1024 + layer) * 262144 + page`. -/
  pages : Tbl Page := []
  /-- Live masks by `ctx * 262144 + page` (R182). -/
  live : Tbl (BitVec 64) := []
  /-- Context structures of R179: PA[51:12] by `((ctx * 4 + kind) * 1024 + layer) * 512 + block`; kind 0 level-1 block,
  1 map block, 2 summary block, 3 live block (log entry 15). -/
  structs : Tbl Nat := []
  frames : Tbl Frame := []
  nextFrame : Nat := 1
  slabs : Tbl Slab := []
  drains : List Drain := []
  moves : List Move := []
  nextMove : Nat := 1
  /-- The clock hand of each tenant's sweep, a frame number (R223). -/
  hands : Tbl Nat := []
  /-- An OPEN that is running: its context, the cycle it was registered (R171). -/
  opening : Option (Nat × Nat) := none
  trays : Tbl Tray := []
  nss : Tbl Tray := []
  /-- The two tier caches (0 T1, 1 T2): blocks by `set * 16 + way` (R233, R234). -/
  cache1 : Tbl CacheBlock := []
  cache2 : Tbl CacheBlock := []
  deriving DecidableEq, Repr

/-! ## Descriptors and attention cores (R56 to R167, R243 to R259) -/

/-- Where a descriptor that has been read stands. -/
inductive DStage where
  | /-- held by its toll (R405, R534) -/ tolled
  | /-- past its tolls, not dispatched (R126, R520) -/ waiting
  | /-- waits for a pending translation of its input block (R363) -/ stalled
  | /-- dispatched -/ running
  | /-- forming or writing the output -/ output
  | /-- waits for a pending translation of its output block -/ outStalled
  | /-- its push writes await their acknowledgements (R132) -/ pushing
  deriving DecidableEq, Repr

/-- A partial of one query row: m (none: −∞), l, B (none: +∞) and the output sums (R82). -/
structure Row where
  m : Option Dy
  l : Dy
  bound : Option Dy
  o : List Dy
  deriving DecidableEq, Repr

/-- A descriptor that has been read and not completed. -/
structure Flight where
  id : Nat
  qp : Nat
  tenant : Nat
  desc : Desc
  /-- Its order among the queue pair's descriptors, and its reserved completion entry (R403). -/
  seq : Nat
  slot : Nat
  /-- Holds an admission place. -/
  place : Bool
  stage : DStage
  /-- Held under R405; cycles held so far; the cycle the present hold began; the hold is for the toll (R404). -/
  held : Bool
  heldFor : Nat
  heldAt : Option Nat
  forToll : Bool
  /-- Cycle of its read and of the SQTAIL write that showed it (R139, R540). -/
  readAt : Nat
  shownAt : Nat
  /-- The input block's bytes, kept from its read (R136). -/
  input : List Byte
  /-- At dispatch: the context's length, the cores that take part, the cores whose work items have not ended. -/
  len : Nat
  cores : List Nat
  left : List Nat
  /-- Partials waiting in the counting houses: die, rows; device 2 stands for a span partial (R83). -/
  parts : List (Nat × List Row)
  /-- The merged rows of each die so far. -/
  merged : Tbl (List Row)
  /-- Partials still to be merged, per die. -/
  due : Tbl Nat
  /-- Failure codes seen, with detail (R81). -/
  codes : List (Nat × Nat)
  /-- Unforced tiles read and not wholly masked, rounds, for result2 (R165); pages done and skipped. -/
  tilesRead : Nat
  tilesAll : Nat
  rounds : Nat
  r1 : Nat
  r2 : Nat
  /-- Push writes not yet acknowledged. -/
  acks : Nat
  /-- Bytes read from and written to T1, and tiles, for R660. -/
  t1r : Nat
  t1w : Nat
  tiles : Nat
  /-- Striped over the span: members not yet heard, and this device's prepared part (R584). -/
  members : List Nat
  /-- Pieces of a block that lie on other members: the physical address, and once answered the code and the bytes (R373). -/
  remote : List (Nat × Option (Nat × List Byte)) := []
  /-- T3 blocks of its input or output block that its tier cache is still to read; none before they are asked for (R234). -/
  blocks : Option (List Nat) := none
  /-- Its place among the descriptors that a closed gate held, and whether it has passed its gates (R520). -/
  gated : Option Nat := none
  passed : Bool := false
  /-- Frames that a striped part has prepared, with their sizes, until commit or abort (R585). -/
  prep : List (Nat × Nat) := []
  deriving DecidableEq, Repr

/-- A tile of a work item: page, KV head (the draft tile has page 2^20), live mask, format and frame; forced, key and
bin once bounded; the address its reads were issued to. -/
structure Tile where
  page : Nat
  head : Nat
  mask : BitVec 64
  fmt : Nat
  frame : Nat
  forced : Bool
  /-- Bound of each query row of the head, once the summary pass has run (R73). -/
  u : List Dy
  addr : Option Nat
  deriving DecidableEq, Repr

/-- A granule of a core's staging, in the order in which the array consumes it: the half it stands in, the page and head of the
tile it belongs to, its address and its bytes, and its ready bit (R65, R66). -/
structure Granule where
  half : Bool
  page : Nat
  head : Nat
  addr : Nat
  len : Nat
  ready : Bool
  deriving DecidableEq, Repr

/-- The phases of a work item. -/
inductive WPhase where
  | summary | stream | compact | ended
  deriving DecidableEq, Repr

/-- A work item (R69 to R72). -/
structure Work where
  desc : Nat
  ctx : Nat
  layer : Nat
  /-- COMPACT's share rather than an ATTEND's (R198). -/
  compact : Bool
  phase : WPhase
  /-- Tiles of the share, in page order; for a COMPACT its pages. -/
  tiles : List Tile
  /-- Tiles of the round whose reads are not all issued, with the pieces of the first that have been, and those issued whole that
  the array has not taken. -/
  toIssue : List Tile
  part : Nat := 0
  issued : List Tile
  /-- The staging: its granules, the half the array reads, and granules loaded into the other since its release (R65). -/
  stage : List Granule := []
  reading : Bool := true
  loaded : Nat := 0
  /-- 9100:01 and 9100:02 as they stood at dispatch (R89). -/
  extra : Nat := 3
  lower : Nat := 4
  /-- Thresholds by head, 64 before a pick, and those of the round before; the reference keys; the histograms by head and row
  (R77, R78). -/
  thr : List Nat
  thrWas : List Nat := []
  kref : List (Option Dy)
  hist : List (List (List Dy))
  rows : List Row
  round : Nat
  /-- Summary records that could not be read: page and head forced (R75). -/
  unread : List Nat
  codes : List (Nat × Nat)
  /-- Bytes read, tiles read, for R660. -/
  bytes : Nat
  read : Nat
  /-- Truss cycle of the last finished tile, later by the cycles waited since, for the watchdog; and the cycle at which the array
  began to wait for a ready bit or for a page (R67, R245). -/
  tick : Nat
  waitAt : Option Nat
  /-- New frame of the page a COMPACT is converting. -/
  fresh : Option Nat
  deriving DecidableEq, Repr

/-- A core record's state (R257). -/
inductive CoreState where
  | inService | fencing | fenced | testing | held
  deriving DecidableEq, Repr

/-- One attention core with its dispatcher's places (R71, R257). -/
structure Core where
  st : CoreState := .inService
  reason : Nat := 0
  count : Nat := 0
  work : Option Work := none
  queue : List Work := []
  /-- Reads still outstanding of a fenced core (R247). -/
  draining : List (Nat × Nat) := []
  /-- A passed test waits for the step boundary to enter service (R254). -/
  entering : Bool := false
  /-- The check tile is due (R244). -/
  checkDue : Bool := false
  /-- A reason 5 waits for the fence in progress to end (R243). -/
  quad : Bool := false
  deriving DecidableEq, Repr

/-- A toll: its tokens in 1/2000 units, when they were brought up to date, and its waiting items in marking order:
item number, length, colour (0 green, 1 yellow, 2 red) and input colour (R529 to R534). -/
structure Toll where
  tc : Nat := 0
  tp : Nat := 0
  at_ : Nat := 0
  on : Bool := false
  queue : List (Nat × Nat × Nat × Nat) := []
  deriving DecidableEq, Repr

/-- A gate control list (R522): cyclic or by phase, its cycle in ns, and its entries (start, open). -/
structure GateList where
  cyclic : Bool := false
  cycleNs : Nat := 0
  entries : List (Nat × Nat) := [(0, 255)]
  deriving DecidableEq, Repr

/-- Gates, tolls and the waiting change (R519 to R538). -/
structure Shaping where
  active : GateList := {}
  /-- The change that waits: list, kind of time and stated time (R526, R527). -/
  change : Option (GateList × Nat × Nat) := none
  /-- 2600:06. -/
  status : Nat := 0
  /-- The list of 2600:08 waits for the first step boundary (R629). -/
  bootList : Option GateList := none
  tolls : Tbl Toll := []
  deriving DecidableEq, Repr

/-- The attention side: cores, and the descriptors in flight. -/
structure Attn where
  cores : Tbl Core := []
  flights : List Flight := []
  nextId : Nat := 1
  /-- 9001:07. -/
  fencedRetry : Nat := 0
  deriving DecidableEq, Repr

/-! ## Address translation (R351 to R379) -/

/-- A record of the fault queue or of a holding slot (R364, R367). -/
structure FaultRec where
  /-- 0: residency (ctx, layer, page); 1: pending (PASID, page address). -/
  kind : Nat
  /-- 0 to 19: core; 20, 21: IO0, IO1. -/
  source : Nat
  pasid : Nat
  /-- Page address, or the page's key of R181. -/
  addr : Nat
  /-- Descriptor it belongs to, and whether its output block waits. -/
  desc : Nat
  output : Bool
  made : Nat
  /-- An invalidation that covers it has completed: it is to re-walk (R366). -/
  due : Bool
  deriving DecidableEq, Repr

/-- An invalidation (R376): its queue pair (or none for an unbind), PASID, first page, pages, whole PASID, token. -/
structure Inval where
  qp : Option Nat
  pasid : Nat
  page : Nat
  pages : Nat
  whole : Bool
  token : Nat
  unbind : Bool
  deriving DecidableEq, Repr

/-- A cached leaf (R361): PASID, first 4 KiB page, pages it covers, first PA page with the device index, read, write. -/
structure Leaf where
  pasid : Nat
  page : Nat
  span : Nat
  pa : Nat
  rd : Bool
  wr : Bool
  deriving DecidableEq, Repr

/-- A non-leaf entry of a walk cache (R361): the table of `level` that a prefix of the address (its bits above the table's
index) leads to, PA[51:12]. -/
structure WalkNode where
  pasid : Nat
  level : Nat
  above : Nat
  table : Nat
  deriving DecidableEq, Repr

/-- Translation. -/
structure Xlate where
  tlb0 : List Leaf := []
  tlb1 : List Leaf := []
  /-- The walk caches of IO0 and IO1, of 512 entries each (R361). -/
  walk0 : List WalkNode := []
  walk1 : List WalkNode := []
  queue : List FaultRec := []
  holding : List FaultRec := []
  /-- 2300:03. -/
  high : Nat := 0
  invs : List Inval := []
  /-- The invalidation in progress, and the translation generation of both dies (R376). -/
  running : Option Inval := none
  gen : Nat := 0
  deriving DecidableEq, Repr

/-! ## Coherence and direct requests (R316 to R350, R372, R533) -/

/-- The request classes of R329. -/
inductive RClass where
  | rs | ro | up | ur | uw | ec | wb
  deriving DecidableEq, Repr

/-- Where a direct request stands. -/
inductive RStage where
  | /-- held by a toll (R534) -/ tolled
  | /-- at the gate of its class (R520) -/ gated
  | /-- waits for a block of a tier cache (R234) -/ cache
  | /-- waits for the lock of a line, or for a way (R330, R337) -/ locked
  | /-- its transaction is open -/ opened
  | /-- sent to another member of the span (R372) -/ remote
  | /-- a tracked-line message that the passive twin holds (R593), or a held request of a syncing twin (R604) -/ held
  deriving DecidableEq, Repr

/-- A direct request, or a register access of a port, that has not been answered. -/
structure Req where
  id : Nat
  /-- The requester as R305 numbers it: 0 to 12 the KAF links, 0x10 to 0x13 upstream CXL, 0x14 and 0x15 Ethernet. -/
  src : Nat
  /-- The KAF opcode (R469); 0x100 to 0x104 the CXL messages of R329 in their order, 0x200 an RDMA write, 0x201 an RDMA
  read. -/
  op : Nat
  cls : RClass
  /-- The caching agent, where the requester is one (R316). -/
  agent : Option Nat
  pasid : Nat
  /-- The PASID's tenant, 0xFE for PASID 0, 0xFF for an unbound one. -/
  tenant : Nat
  addr : Nat
  len : Nat
  tag : Nat
  /-- A byte mask, or the MetaValue of a CXL request, or the RoCE queue pair. -/
  arg : Nat
  srcDev : Nat
  data : List Byte
  poison : Bool
  /-- Held by a toll, the tolls that hold it, and when it arrived (R534, R535). -/
  waited : Bool
  tolls : List Nat
  since : Nat
  stage : RStage
  /-- Translated pieces, the translation generation, and its lines (R376). -/
  pieces : List (Nat × Nat)
  gen : Nat
  lines : List Nat
  /-- Its agent has been declared failed (R346). -/
  dead : Bool
  /-- Pieces on other members, as a descriptor's (R372). -/
  remote : List (Nat × Option (Nat × List Byte))
  deriving DecidableEq, Repr

/-- A snoop of an open transaction: line, agent, the KAF opcode of the snoop, and when it was sent; one held under R554
has not been. -/
structure Snoop where
  line : Nat
  agent : Nat
  op : Nat
  sent : Option Nat
  deriving DecidableEq, Repr

/-- What a transaction is for. -/
inductive TxnFor where
  | /-- a request -/ req (id : Nat)
  | /-- a descriptor block or a table of a walk (R358) -/ block (write : Bool)
  | /-- a victim's recall (R337) -/ victim
  | /-- the recall walk of an extent in escrow (R344), or a takeover's (R603) -/ recall (discard : Bool)
  | /-- the purge of a line whose owner failed (R346) -/ purge
  deriving DecidableEq, Repr

/-- An open transaction (R330). -/
structure Txn where
  id : Nat
  why : TxnFor
  lines : List Nat
  snoops : List Snoop
  /-- Lines and agents whose RspWbPend waits for the WbDirty (R340). -/
  wb : List (Nat × Nat)
  /-- The keeper was snooped to forward; its data message was received whole; the requester's FwdAck is due (R330,
  R334). -/
  fwd : Bool
  got : Bool
  fwdOp : Nat
  ack : Bool
  /-- The response with which the keeper forwarded: 0 none yet, 0x2B RspFwdI, 0x2C RspFwdF, 0x2D RspFwdO. -/
  rsp : Nat
  /-- The line was X with a CXL keeper when the transaction began; the requester held the line then. -/
  cxlX : Bool
  holder : Bool
  deriving DecidableEq, Repr

/-- A directory entry (R323): 1 S, 2 F, 3 X, 4 O; the keeper or 0xF; the holders' mask; its last use. -/
structure Dir where
  st : Nat
  keeper : Nat
  holders : Nat
  used : Nat
  deriving DecidableEq, Repr

/-- A request sent to another member of the span: its tag toward that index, the index, the request or the descriptor it
serves, and the piece's physical address (R372). -/
structure RemoteAsk where
  tag : Nat
  index : Nat
  who : Nat
  flight : Bool
  pa : Nat
  len : Nat
  write : Bool
  /-- The generation under which its address was translated (R376). -/
  gen : Nat
  deriving DecidableEq, Repr

/-- The home. -/
structure Coh where
  /-- Entries by line number (PA[51:6]); state I where a line is not listed. -/
  dir : Tbl Dir := []
  /-- 2201: each agent's state: 0 absent, 1 active, 2 purging, 3 purged; 4 purging with its link trained afresh. -/
  agents : Tbl Nat := []
  reqs : List Req := []
  txns : List Txn := []
  nextTxn : Nat := 1
  /-- Lines whose snoop for a table walk or a block read has ended and which that walk or read may now take from memory. -/
  fresh : List Nat := []
  /-- Lines whose lock was released, by the cycle of the release (R330). -/
  freed : Tbl Nat := []
  asks : List RemoteAsk := []
  deriving DecidableEq, Repr

/-! ## Foreign ports (R545 to R573) -/

/-- UPERRSTAT and UPERRADDR (R553). -/
structure UpErr where
  valid : Bool := false
  code : Nat := 0
  count : Nat := 0
  addr : Nat := 0
  deriving DecidableEq, Repr

/-- One RoCE queue pair: the next PSNs, and its status block (R565, R567, R568). -/
structure Roce where
  recv : Nat := 0
  send : Nat := 0
  /-- The PSN that the peer has acknowledged last. -/
  acked : Nat := 0
  naks : Nat := 0
  nakPsn : Nat := 0
  code : Nat := 0
  deriving DecidableEq, Repr

/-- An NVMe command with no completion yet: its port, identifier, namespace, opcode, move or block it serves, when it was
sent, and whether its Abort has been sent (R562). -/
structure NvmeCmd where
  port : Nat
  cid : Nat
  ns : Nat
  opc : Nat
  move : Option Nat
  block : Option Nat
  at_ : Nat
  aborting : Bool
  deriving DecidableEq, Repr

/-- The foreign ports. -/
structure Ports where
  up : Tbl UpErr := []
  roce : Tbl Roce := []
  nvme : List NvmeCmd := []
  nextCid : Nat := 0
  /-- Consecutive controller resets that failed, by PCIe port, and the controllers in reset (R562). -/
  resets : Tbl Nat := []
  resetting : List Nat := []
  /-- Ethernet frames discarded, by port (R563). -/
  discards : Tbl Nat := []
  /-- Neighbours learned: port, IP address and MAC address (R563). -/
  neigh : List (Nat × List Byte × List Byte) := []
  /-- Truss cycle until which a priority of a port is paused, by `port * 8 + priority` (R563). -/
  pause : Tbl Nat := []
  /-- Trays (by number) and namespaces (64 + their number) that stood good behind their port when it last trained (R236). -/
  found : List Nat := []
  /-- Sync messages within 100 ns in a row, and the cycle of the last Sync, of each port (R570). -/
  syncs : Tbl Nat := []
  syncAt : Tbl Nat := []
  /-- MKA has a live peer on the Ethernet port (R571). -/
  mka : Tbl Bool := []
  deriving DecidableEq, Repr

/-! ## Spans and twin pairs (R574 to R609) -/

/-- The states of a twin, 8100:07 (R590). -/
inductive TwinState where
  | single | lead | follow | sole | syncing | detached | fenced
  deriving DecidableEq, Repr

/-- A bucket of answers (R597, R598): answers given, those of a code other than DONE and DEFERRED, the CRC sum, and the
statistics n, sum, sum of squares and largest magnitude of its ATTEND outputs; the error-log index at its opening (R600). -/
structure Bucket where
  count : Nat := 0
  bad : Nat := 0
  crc : Nat := 0
  n : Nat := 0
  sum : Nat := 0
  sumsq : Nat := 0
  maxabs : Nat := 0
  since : Nat := 0
  deriving DecidableEq, Repr

/-- A command that the lead mirrors (R595): an object write with its bytes, or an OPEN or CLOSE of a context. -/
inductive Mirror where
  | write (index sub : Nat) (bytes : List Byte)
  | ctx (close : Bool) (ctx : Nat)
  deriving DecidableEq, Repr

/-- The span and the twin pair. -/
structure Span where
  twin : TwinState := .single
  /-- The tracked home is, for a forced swap or a handover, with the designated follow (R606). -/
  swapped : Bool := false
  /-- A handover runs: the step it began in (R606). -/
  handover : Option Nat := none
  /-- Truss cycle of the last record on the viaduct and on the guard link, and of the last keepalive sent (R602). -/
  heardVia : Nat := 0
  heardGuard : Nat := 0
  sentAt : Nat := 0
  viaSilent : Bool := false
  guardSilent : Bool := false
  /-- Map digests of the members as last received (keystone, R577). -/
  digests : Tbl (BitVec 384) := []
  /-- The successor's beacon with restart has been accepted: beacons of that index only (R581). -/
  keystone : Option Nat := none
  /-- Next sequence number toward each index (R579), and the last number registered from each requester (R596). -/
  seqOut : Tbl Nat := []
  seqIn : Tbl Nat := []
  /-- Open buckets, own closed ones and the partner's closed ones that wait for comparison, by `key * 2^32 + j`; a queue
  pair's key is 64 + its number. -/
  buckets : Tbl Bucket := []
  closed : Tbl Bucket := []
  partner : Tbl Bucket := []
  /-- Buckets closed since the last step record was sent. -/
  fresh : List Nat := []
  /-- A disagreement waits for the self-checks: own result and the partner's (R600, R601). -/
  disagree : Bool := false
  own : Option Bool := none
  other : Option Bool := none
  /-- The error-log index from which the log is judged: where the bucket that disagrees opened, or for digests where this step's
  record was closed (R600; log entry 115). -/
  logAt : Nat := 0
  /-- Error-log index at the last closing of a step record. -/
  cutLog : Nat := 0
  /-- A handover has ended in time, and waits for the comparison of the buckets that closed in its step: a forced swap, or a
  planned one (R606). -/
  proving : Option Bool := none
  /-- Mirrored commands and the step boundaries still to pass (R595). -/
  mirror : List (Nat × Mirror) := []
  /-- Commands the lead accepted since its last step record. -/
  accepted : List Mirror := []
  /-- Log records of the active home in this step and their running digest (R593, R596), and the bytes they take in the
  1 MiB buffer. -/
  logged : Nat := 0
  logDigest : BitVec 384 := 0
  logBytes : Nat := 0
  /-- Digests of the extent table and of the log as this twin's last step record gave them, and that the partner's record
  of the same cut has landed (R596). -/
  cutLedger : BitVec 384 := 0
  cutDir : BitVec 384 := 0
  recordIn : Bool := true
  /-- The cut of R604, phase 3: the sequence numbers as they stood. -/
  cut : Tbl Nat := []
  deriving DecidableEq, Repr

/-! ## KAF links (R458 to R490) -/

/-- One KAF link. -/
structure Link where
  /-- R460: 0 DOWN, 1 DETECT, 2 SPEED, 3 EQUALIZE, 4 LANE, 5 SECURE, 6 ACTIVE, 7 RETRAIN. -/
  st : Nat := 0
  gen : Nat := 0
  width : Nat := 0
  firstLane : Nat := 0
  encrypted : Bool := false
  rtt : Nat := 0
  reason : Nat := 0
  /-- Truss cycle of entry to the present state. -/
  since : Nat := 0
  /-- Passing lanes of the KAF3 equalisation while KAF2 is tried too, and that it is (R461); the retrain may raise the
  generation and the width (R480). -/
  lanes : Nat := 0
  second : Bool := false
  raise : Bool := false
  /-- Receiver (R477, R478): e, the state 0 IN_ORDER 1 HOLDING 2 GO_BACK, the missing set, the held numbers, and
  flit positions since the latest request. -/
  e : Nat := 0
  rx : Nat := 0
  missing : List Nat := []
  held : List Nat := []
  waited : Nat := 0
  /-- Sender (R476, R479): next number, oldest number held, flits built that wait for room in the window, truss cycle when an ack last advanced or the last go-back
  began, when each number was last sent again, go-backs from the same oldest flit, and the partner's off bits. -/
  next : Nat := 0
  oldest : Nat := 0
  queued : Nat := 0
  ackAt : Nat := 0
  resent : Tbl Nat := []
  backs : Nat := 0
  xoff : Nat := 0
  /-- The number of a flit whose tag has failed and which is to be sent again (R481). -/
  tagBad : Option Nat := none
  /-- Messages of a data VC that the partner has off, oldest first, with the tenant each belongs to (0xFF none); the truss cycle at
  which the off bits were last taken (R475). -/
  parked : List (Nat × KafMsg) := []
  offAt : Nat := 0
  /-- Flits built and flits acknowledged since the link came up, and where each tenant's message ends among them, while the replay
  buffer holds it (R445). -/
  built : Nat := 0
  acked : Nat := 0
  owed : List (Nat × Nat) := []
  /-- The pseudorandom key of the key exchange, and what the Mint gave the link engine: the sender's key and IV base, and the
  receiver's for its generation and the next (R485, R487). -/
  prk : BitVec 384 := 0
  txKey : List Byte := []
  rxKey : List Byte := []
  rxNext : List Byte := []
  /-- Flit positions delivered since the receiver's generation began (R486). -/
  rxCtr : Nat := 0
  /-- Generations of each direction, and the truss cycle at which the sender's began: one flit leaves in each flit time
  (R466, R486, R487). -/
  txGen : Nat := 0
  rxGen : Nat := 0
  txSince : Nat := 0
  /-- Truss cycles at which retrains of the last second began (R481). -/
  retrains : List Nat := []
  /-- Key exchange (R483): KEY_HELLO, KEY_REPLY and KEY_PROOF as sent or received, proofs sent and accepted. -/
  hello : List Byte := []
  reply : List Byte := []
  proofSent : Bool := false
  proofOk : Bool := false
  /-- Fragments of a link-channel message so far: opcode, count and bytes (R484). -/
  frag : Option (Nat × Nat × List Byte) := none
  /-- 5010: bad positions, tag failures, selective replays, go-backs, duplicates, retrains, rekeys, malformed messages,
  off time of each VC. -/
  counts : Tbl Nat := []
  deriving DecidableEq, Repr

/-- The links. -/
structure Links where
  link : Tbl Link := []
  deriving DecidableEq, Repr

/-! ## The Mint (R413 to R457) -/

/-- The Mint's state, 6000:01 (R419). -/
inductive MintState where
  | booting | running | identityFail | bootFail
  deriving DecidableEq, Repr

/-- A tenant's keys: generation, the two slots' states (0 EMPTY, 1 CURRENT, 2 OLD), sweep running (R431, R456). -/
structure Keys where
  gen : Nat := 0
  slot0 : Nat := 0
  slot1 : Nat := 0
  sweep : Bool := false
  deriving DecidableEq, Repr

/-- A tenant's sealed record as last written: generation, slots, sweep (R438). -/
structure SealRec where
  gen : Nat
  slot0 : Nat
  slot1 : Nat
  sweep : Bool
  deriving DecidableEq, Repr

/-- An SPDM session: its identifier, established by FINISH, its transcript so far, and the key-update count (R425). -/
structure SpdmSession where
  sid : Nat
  up : Bool
  th : List Byte
  updates : Nat
  /-- A heartbeat was asked for in the session: its period in seconds, and the truss cycle of the last message. -/
  beat : Nat
  last : Nat
  deriving DecidableEq, Repr

/-- The responder state of one requester (R425, R426). -/
structure Spdm where
  /-- The version negotiated, 0x12 or 0x13, and 0 before GET_VERSION. -/
  ver : Nat := 0
  /-- 0 nothing, 1 GET_VERSION, 2 GET_CAPABILITIES, 3 NEGOTIATE_ALGORITHMS answered. -/
  phase : Nat := 0
  /-- Message transcripts: A (version, capabilities, algorithms), B (digests and certificates), L (measurements). -/
  trA : List Byte := []
  trB : List Byte := []
  trL : List Byte := []
  /-- The message that the last signed response covered, with the slot whose key signed it (R427). -/
  signed : Option (Nat × List Byte) := none
  session : Option SpdmSession := none
  /-- A large response being fetched in chunks: its bytes, and the next chunk's number. -/
  chunk : Option (List Byte × Nat) := none
  deriving DecidableEq, Repr

/-- A bundle import that runs (R452): destination, count, identifier, plaintext length, flags, manifest digest, and where the
ciphertext lies. -/
structure Import where
  first : Nat
  count : Nat
  ident : Nat
  len : Nat
  flags : Nat
  digest : BitVec 384
  cipher : Nat
  key : BitVec 256
  /-- The message's sequence number, for the reply (R653). -/
  seq : Nat
  deriving DecidableEq, Repr

/-- The Mint. -/
structure Mint where
  st : MintState := .booting
  keys : Tbl Keys := []
  /-- The tenant whose line was rewrapped last (R676). -/
  turn : Nat := 63
  /-- Sealed records in the seal area, by tenant (R438). -/
  sealed : Tbl SealRec := []
  /-- 6000:03. -/
  healthy : Bool := true
  /-- M1 to M8 by number less 1, and the log of extends (R423). -/
  regs : Tbl (BitVec 384) := []
  log : List (Nat × List Byte) := []
  /-- Responder states, by path: a teller channel's number, or 100 for MCTP over I3C (R425). -/
  spdm : Tbl Spdm := []
  /-- 6020:01, and 6020:02, the debug nonce (R442). -/
  debug : Bool := false
  nonce : Nat := 0
  /-- The import that runs, and 6030:03: the bundle identifier of each sealed extent. -/
  import_ : Option Import := none
  bundles : Tbl Nat := []
  deriving DecidableEq, Repr

/-! ## The truss (R491 to R518) -/

/-- A packet under way (R493, R494, R499, R502): the descriptor whose input it carries, its source endpoint and class, the epoch
under which it was injected, its sequence number (0 for multicast), its bytes, the endpoints that have not received it whole, and
whether it has been injected. -/
structure Packet where
  desc : Nat
  src : Nat
  cls : Nat
  epoch : Nat
  seq : Nat
  mc : Bool
  bytes : Nat
  wait : List Nat
  sent : Bool
  deriving DecidableEq, Repr

/-- The truss network. -/
structure Truss where
  /-- 2500:01, and the tables of epochs 0 and 1 (R503, R505); empty stands for the default table. -/
  epoch : Nat := 0
  table0 : List Byte := []
  table1 : List Byte := []
  /-- 2500:05 has been written since the last retirement, with these bytes (R506, R518). -/
  next : Option (List Byte) := none
  /-- The old epoch drains, and its deliveries outstanding, 2500:04. -/
  draining : Bool := false
  left : Nat := 0
  /-- Packets under way, in the order of their injection, and the next sequence number by `(source * 8 + class) * 64 +
  destination` (R499). -/
  packets : List Packet := []
  seqs : Tbl Nat := []
  /-- Lane groups out of service, and CRC failures in a row of the flit being sent, by `link * 2 + direction` (R508). -/
  lost : Tbl Nat := []
  crc : Tbl Nat := []
  deriving DecidableEq, Repr

/-! ## What leaves the device, and the whole state -/

/-- One thing that the device sends or raises (log entry 12). -/
inductive Out where
  /-- A bypass message on a link: a beacon, a keepalive or an interrupt (R36, R473). -/
  | bypass (link : Nat) (m : Beacon)
  /-- A KAF message on a link. -/
  | kaf (link : Nat) (m : KafMsg)
  /-- A replay request of the receiver on a link (1 selective, 2 go-back) and its number, and flits sent again: the first
  number and how many (R478, R479). -/
  | replayAsk (link : Nat) (kind : Nat) (seq : Nat)
  | resend (link : Nat) (first : Nat) (count : Nat)
  /-- An MSI-X message of an upstream CXL port, and a steward interrupt line (R390). -/
  | msix (port : Nat) (vec : Nat)
  | stewardIrq (line : Nat)
  /-- A CXL response: port, tag, kind (0 no data, 1 data, 2 nxm or error, 3 BI snoop), state granted, data. -/
  | cxl (port : Nat) (kind : Nat) (tag : Nat) (arg : Nat) (data : List Byte)
  /-- An NVMe or CXL.mem command to a tray: port, kind, identifier, address, length. -/
  | tray (port : Nat) (kind : Nat) (id : Nat) (addr : Nat) (len : Nat)
  /-- A RoCE answer: port, queue pair, sequence number, kind (0 ACK, 1 read response, 2 NAK), code, data. -/
  | roce (port : Nat) (qp : Nat) (psn : Nat) (kind : Nat) (code : Nat) (data : List Byte)
  /-- Another Ethernet frame. -/
  | frame (port : Nat) (bytes : List Byte)
  /-- A span or twin message: link, kind, argument, bytes. -/
  | span (link : Nat) (kind : Nat) (arg : Nat) (bytes : List Byte)
  /-- EMCY, heartbeat, a USDO answer, and an MCTP message (R620 to R625). -/
  | emcy (m : BitVec 128)
  | beat (nmt : Nat)
  | usdo (abort : Nat) (bytes : List Byte)
  | mctp (bytes : List Byte)
  /-- The answer to an in-band dictionary request (R619): path, abort code, size, bytes. -/
  | dict (path : Nat) (abort : Nat) (size : Nat) (bytes : List Byte)
  /-- A register's value read, and the completion code of an access of the steward's that fails (R635). -/
  | value (v : Nat)
  | steward (code : Nat)
  deriving DecidableEq, Repr

/-- The state of the device. -/
structure State where
  time : Time := {}
  dict : Dict := {}
  can : Can := {}
  pwr : Power := {}
  clk : StepClk := {}
  win : Windows := {}
  tel : Tellers := {}
  tal : Tally := {}
  mem : Mem := {}
  hbm : HbmSys := {}
  led : Ledger := {}
  kv : Kv := {}
  attn : Attn := {}
  shape : Shaping := {}
  xl : Xlate := {}
  coh : Coh := {}
  mint : Mint := {}
  links : Links := {}
  truss : Truss := {}
  ports : Ports := {}
  span : Span := {}
  /-- What the device has sent and raised, oldest first (the model's own field, log entry 12). -/
  out : List Out := []
  /-- Free values drawn so far (the model's own field, log entry 7). -/
  freeCtr : Nat := 0
  /-- The commands that wait, first in first out. -/
  pending : List Instr := []
  deriving DecidableEq, Repr

/-- Why the machine stops: no command does, since the specification gives each an effect. -/
inductive Fault where
  deriving DecidableEq, Repr

/-- Why a command has no meaning here. -/
inductive Refusal where
  /-- Not modelled yet: the arm of `exec` rejects the command by its mnemonic. Safe. -/
  | notModelled (mnemonic : String)
  deriving DecidableEq, Repr

/-- What a command answers. -/
abbrev Res := Host.Outcome State Fault Refusal

/-- The device right after reset: every field at its reset value (see each field), power-up at step 4 (R694), no
memory listed, every link and port down, and no command waiting. -/
def State.reset : State := {}

end Sys2Proof.Machine
end

