-- ==== Sys2Proof/Machine/Ops.lean ====
section
/-! DEFINITION. The named operations over the state: sparse tables, memory and line metadata, the two time bases,
the object store, tallies, traces, telemetry, the error log, EMCY, and the ledger's look-ups. -/

namespace Sys2Proof.Machine

/-! ## Sparse tables -/

/-- The entry numbered `k`, or the table's default `d`. -/
def tget {α : Type} (d : α) : Tbl α → Nat → α
  | [], _ => d
  | (j, v) :: t, k => if k = j then v else if k < j then d else tget d t k

/-- Write entry `k`, keeping the numbers in rising order; writing the default removes the entry. -/
def tput {α : Type} [DecidableEq α] (d : α) : Tbl α → Nat → α → Tbl α
  | [], k, v => if v = d then [] else [(k, v)]
  | (j, w) :: t, k, v =>
    if k = j then (if v = d then t else (k, v) :: t)
    else if k < j then (if v = d then (j, w) :: t else (k, v) :: (j, w) :: t)
    else (j, w) :: tput d t k v

/-- Return the entries numbered `lo` to `hi - 1` to the default. -/
def terase {α : Type} (t : Tbl α) (lo hi : Nat) : Tbl α := t.filter fun p => decide (p.1 < lo) || decide (hi ≤ p.1)

/-- Change one entry. -/
def tmod {α : Type} [DecidableEq α] (d : α) (t : Tbl α) (k : Nat) (f : α → α) : Tbl α := tput d t k (f (tget d t k))

/-! ## Bits and bytes -/

/-- Bits `hi` down to `lo` of a number. -/
def bitsOf (v hi lo : Nat) : Nat := v / 2 ^ lo % 2 ^ (hi + 1 - lo)

/-- Bits `hi` down to `lo` of a word. -/
def fld {n : Nat} (v : BitVec n) (hi lo : Nat) : Nat := bitsOf v.toNat hi lo

/-- Bit `i` of a number. -/
def bitAt (v i : Nat) : Bool := v / 2 ^ i % 2 == 1

/-- Set or clear bit `i` of a number. -/
def bitSet (v i : Nat) (b : Bool) : Nat :=
  if bitAt v i == b then v else if b then v + 2 ^ i else v - 2 ^ i

/-- The number of bits set below position `n`. -/
def popCount (v : Nat) : Nat → Nat
  | 0 => 0
  | n + 1 => popCount v n + (if bitAt v n then 1 else 0)

/-- Little-endian bytes of a number (R3). -/
def leBytes (v : Nat) : Nat → List Byte
  | 0 => []
  | n + 1 => BitVec.ofNat 8 v :: leBytes (v / 256) n

/-- The number that little-endian bytes spell. -/
def leNat : List Byte → Nat
  | [] => 0
  | b :: t => b.toNat + 256 * leNat t

/-- `n` bytes from `i` on, short lists read as 0 beyond their end. -/
def slice (bs : List Byte) (i n : Nat) : List Byte := (List.range n).map fun j => bs.getD (i + j) 0

/-- `a` divided by `b`, rounded up. -/
def ceilDiv (a b : Nat) : Nat := (a + b - 1) / b

/-- `a` rounded up to a multiple of `b`. -/
def roundUp (a b : Nat) : Nat := ceilDiv a b * b

/-! ## Memory: a list of bytes in canonical form -/

/-- What an address holds; 0 where nothing is listed (R268, R398; log entry 6). -/
def mget : List Host.Cell → Nat → Byte
  | [], _ => 0
  | (j, v) :: t, a => if a = j then v else if a < j then 0 else mget t a

/-- Write one byte, in canonical form. -/
def mput : List Host.Cell → Nat → Byte → List Host.Cell
  | [], a, b => if b = 0 then [] else [(a, b)]
  | (j, w) :: t, a, b =>
    if a = j then (if b = 0 then t else (a, b) :: t)
    else if a < j then (if b = 0 then (j, w) :: t else (a, b) :: (j, w) :: t)
    else (j, w) :: mput t a b

/-- Read `n` bytes. -/
def mread (m : List Host.Cell) (a : Nat) : Nat → List Byte
  | 0 => []
  | n + 1 => mget m a :: mread m (a + 1) n

/-- Write bytes. -/
def mwrite (m : List Host.Cell) (a : Nat) : List Byte → List Host.Cell
  | [] => m
  | b :: t => mwrite (mput m a b) (a + 1) t

/-- Write the bytes whose mask bit is set (byte `i` under bit `i`). -/
def mwriteMask (m : List Host.Cell) (a mask : Nat) : List Byte → List Host.Cell
  | [] => m
  | b :: t => mwriteMask (if mask % 2 = 1 then mput m a b else m) (a + 1) (mask / 2) t

/-- Zero the bytes from `lo` up to, but not including, `hi`. -/
def mzero (m : List Host.Cell) (lo hi : Nat) : List Host.Cell :=
  m.filter fun p => decide (p.1 < lo) || decide (hi ≤ p.1)

/-- The canonical form: addresses strictly rising and no entry holding what an unlisted address reads as. -/
def Memory.wf : List Host.Cell → Bool
  | [] => true
  | [(_, v)] => v != 0
  | (j, v) :: (k, w) :: t => v != 0 && decide (j < k) && Memory.wf ((k, w) :: t)

/-! ## Field updates of the state, part by part -/

def State.setMem (s : State) (f : Mem → Mem) : State := { s with mem := f s.mem }
def State.setLed (s : State) (f : Ledger → Ledger) : State := { s with led := f s.led }
def State.setKv (s : State) (f : Kv → Kv) : State := { s with kv := f s.kv }
def State.setAttn (s : State) (f : Attn → Attn) : State := { s with attn := f s.attn }
def State.setTal (s : State) (f : Tally → Tally) : State := { s with tal := f s.tal }
def State.setClk (s : State) (f : StepClk → StepClk) : State := { s with clk := f s.clk }
def State.setDict (s : State) (f : Dict → Dict) : State := { s with dict := f s.dict }
def State.setHbm (s : State) (f : HbmSys → HbmSys) : State := { s with hbm := f s.hbm }
def State.setXl (s : State) (f : Xlate → Xlate) : State := { s with xl := f s.xl }
def State.setShape (s : State) (f : Shaping → Shaping) : State := { s with shape := f s.shape }
def State.setPwr (s : State) (f : Power → Power) : State := { s with pwr := f s.pwr }
def State.setCan (s : State) (f : Can → Can) : State := { s with can := f s.can }
def State.setTel (s : State) (f : Tellers → Tellers) : State := { s with tel := f s.tel }
def State.setWin (s : State) (f : Windows → Windows) : State := { s with win := f s.win }

/-- Send or raise something (log entry 12). -/
def emit (o : Out) (s : State) : State := { s with out := s.out ++ [o] }

/-! ## Free values (log entry 7) -/

/-- The `i`-th free value from here on. -/
def freeAt (s : State) (i : Nat) : Nat := Config.freeBits (s.freeCtr + i)

/-- `n` free values have been drawn. -/
def freeStep (n : Nat) (s : State) : State := { s with freeCtr := s.freeCtr + n }

/-! ## Time (R23, R42) -/

/-- Device time in ns, modulo 2^64. -/
def devNs (s : State) : Nat := s.time.devHalf / 2 % 2 ^ 64

/-- Truss cycles that a time in ns, µs and ms lasts. -/
def nsCycles (n : Nat) : Nat := 2 * n
def usCycles (n : Nat) : Nat := 2000 * n
def msCycles (n : Nat) : Nat := 2000000 * n

/-- The accumulator's advance in one truss cycle (R38). -/
def clkIncrement (c : StepClk) : Nat := divRnd .near false (2 ^ 47) c.predicted

/-- `n` truss cycles pass: both time bases, the phase accumulator, which does not pass its largest value (R38,
R39), and the frozen cycles of 7000:06 (R662). -/
def elapse (n : Nat) (s : State) : State :=
  { s with
    time := { cycle := s.time.cycle + n, devHalf := (s.time.devHalf + n) % 2 ^ 65 }
    clk := { s.clk with acc := min (2 ^ 48 - 1) (s.clk.acc + n * clkIncrement s.clk) }
    tal := if s.tal.frozen then { s.tal with frozenCycles := (s.tal.frozenCycles + n) % 2 ^ 64 } else s.tal }

/-- Carry the clock forward to a due cycle; a time already past is no time (log entry 3). -/
def carryTo (c : Nat) (s : State) : State := elapse (c - s.time.cycle) s

/-- A timer due in cycle `due` expires in the very cycle of an arrival that it awaits, the next command in the queue: the arrival
wins, and the timer does not fire (R26). -/
def arrivalWins (due : Nat) (awaited : Instr → Bool) (s : State) : Bool :=
  decide (s.time.cycle ≤ due) && (s.pending.head?.map awaited).getD false

/-- The phase, 2101:03 (R38); the replicas of the other dies are taken as equal to it (log entry 94). -/
def phaseOf (s : State) : Nat := s.clk.acc / 2 ^ 32

/-- Carry the clock to the first cycle whose phase is at least `ph`. -/
def carryToPhase (ph : Nat) (s : State) : State :=
  elapse (ceilDiv (ph * 2 ^ 32 - s.clk.acc) (max 1 (clkIncrement s.clk))) s

/-! ## The object store (R610 to R617, R630) -/

/-- An object's key. -/
def okey (index sub : Nat) : Nat := index * 256 + sub

/-- The default of an object: its value in the accepted record where it is Kept, else the table's (R630). -/
def objDefault (s : State) (index sub : Nat) : Nat :=
  match s.dict.record.find? (fun p => p.1 == okey index sub) with
  | some (_, bs) => leNat bs
  | none => objTableDefault index sub

/-- The value in force. -/
def obj (s : State) (index sub : Nat) : Nat :=
  match s.dict.force.find? (fun p => p.1 == okey index sub) with
  | some (_, v) => v
  | none => objDefault s index sub

/-- The value last written (R617). -/
def objLast (s : State) (index sub : Nat) : Nat :=
  match s.dict.waiting.find? (fun p => p.1 == okey index sub) with
  | some (_, v) => v
  | none => obj s index sub

/-- Insert a numbered entry in rising order. -/
def tins {α : Type} : Tbl α → Nat → α → Tbl α
  | [], k, v => [(k, v)]
  | (j, w) :: t, k, v =>
    if k = j then (k, v) :: t else if k < j then (k, v) :: (j, w) :: t else (j, w) :: tins t k v

/-- Put a value in force. -/
def setObj (index sub v : Nat) (s : State) : State :=
  s.setDict fun d => { d with force := tins d.force (okey index sub) v
                              waiting := d.waiting.filter fun p => p.1 != okey index sub }

/-- Register a value that takes effect later. -/
def putWaiting (index sub v : Nat) (s : State) : State :=
  s.setDict fun d => { d with waiting := tins d.waiting (okey index sub) v }

/-- A write changes a Kept object's value: 1010:05 (R631). -/
def keptCount (index sub : Nat) (changed : Bool) (s : State) : State :=
  if changed && ((objRow? index sub).map (·.kept)).getD false then
    setObj 0x1010 5 ((obj s 0x1010 5 + 1) % 2 ^ 32) s
  else s

/-- A write whose value takes effect later, and one that takes effect at once. -/
def waitObj (index sub v : Nat) (s : State) : State :=
  putWaiting index sub v (keptCount index sub (objLast s index sub != v) s)
def writeObj (index sub v : Nat) (s : State) : State :=
  setObj index sub v (keptCount index sub (objLast s index sub != v) s)

/-- Raise a count object by `n`, modulo 2^`w`. -/
def bumpObj (index sub n w : Nat) (s : State) : State := setObj index sub ((obj s index sub + n) % 2 ^ w) s

/-- The bytes of a DOMAIN, string or record object, from the record or empty when never written. -/
def objDom (s : State) (index sub : Nat) : List Byte :=
  match s.dict.doms.find? (fun p => p.1 == okey index sub) with
  | some (_, v) => v
  | none => ((s.dict.record.find? (fun p => p.1 == okey index sub)).map (·.2)).getD []

/-- Write such an object. -/
def setDom (index sub : Nat) (bs : List Byte) (s : State) : State :=
  s.setDict fun d => { d with doms := tins d.doms (okey index sub) bs
                              waiting := d.waiting.filter fun p => p.1 != okey index sub }

/-- The number that stands for bytes that take effect later, a byte 1 above them. -/
def waitBytes (v : Nat) : List Byte := leBytes v (Nat.log2 v / 8)

/-- An object of bytes: a string or a DOMAIN (R611). -/
def objIsBytes (index sub : Nat) : Bool :=
  match objRow? index sub with
  | none => false
  | some r => r.type == 0x09 || r.type == 0x0A || r.type == 0x0F

/-- The bytes last written (R617). -/
def objDomLast (s : State) (index sub : Nat) : List Byte :=
  match s.dict.waiting.find? (fun p => p.1 == okey index sub) with
  | some (_, v) => waitBytes v
  | none => objDom s index sub

/-- A write of bytes that take effect later, and one that takes effect at once. -/
def waitDom (index sub : Nat) (bs : List Byte) (s : State) : State :=
  putWaiting index sub (leNat (bs ++ [1])) (keptCount index sub (objDomLast s index sub != bs) s)
def writeDom (index sub : Nat) (bs : List Byte) (s : State) : State :=
  setDom index sub bs (keptCount index sub (objDomLast s index sub != bs) s)

/-- When a write of an rw object takes effect. -/
inductive Effect where
  | now | boundary | training | restart | reset | arm
  deriving DecidableEq, Repr

/-- The rule of each object (R54, R89, R169, R241, R258, R284, R289, R314, R350, R378, R410, R489, R537, R574, R634,
R678, R699, and R617 for the others). -/
def objEffect (index sub : Nat) : Effect :=
  let i := objNorm index
  if i = 0x2100 then (if sub = 1 || sub = 6 || sub = 9 then .now else .boundary)
  else if i = 0x2102 || i = 0x9100 || i = 0x4300 || i = 0x4020 || i = 0x4040 || i = 0x2301 || i = 0x3001 || i = 0x3002
    || i = 0x3003 || i = 0x5100 || i = 0x2010 || i = 0x5004 || i = 0x5501 || i = 0x5510 || i = 0x5511 || i = 0x8000
    || i = 0x8010 || i = 0x8200 then .boundary
  else if i = 0x9001 && decide (4 ≤ sub) then .boundary
  else if i = 0x2200 && decide (sub ≤ 2) then .boundary
  else if i = 0x2300 && sub = 1 then .boundary
  else if i = 0x1021 && sub = 2 then .boundary
  else if i = 0x8100 then (if sub = 1 || sub = 5 then .reset else .boundary)
  else if i = 0x4030 && sub = 2 then .reset
  else if i = 0x1020 then .restart
  else if i = 0x5001 || i = 0x5002 || i = 0x5003 then .training
  else if decide (0x5200 ≤ i) && decide (i < 0x5510) then .training
  else if i = 0x7300 && (decide (sub ≤ 5) || sub = 8) then .arm
  else .now

/-- The values waiting for `e` take effect, those whose key `p` selects. -/
def applyWaiting (e : Effect) (p : Nat → Bool) (s : State) : State :=
  let due := s.dict.waiting.filter fun q => objEffect (q.1 / 256) (q.1 % 256) == e && p q.1
  due.foldl (fun s q => if objIsBytes (q.1 / 256) (q.1 % 256) then setDom (q.1 / 256) (q.1 % 256) (waitBytes q.2) s
    else setObj (q.1 / 256) (q.1 % 256) q.2 s) s

/-! ## Tallies (R657 to R662) -/

/-- A tally's key. -/
def tkey (group unit col : Nat) : Nat := group * 65536 + unit * 16 + col

/-- Count `n` in a tally of 7001, 7002, 7003 or 7100, unless the tallies are frozen (R661). -/
def tallyAdd (group unit col n : Nat) (s : State) : State :=
  if s.tal.frozen then s
  else s.setTal fun t => { t with counts := tmod 0 t.counts (tkey group unit col) fun v => (v + n) % 2 ^ 64 }

/-- A KAF link (R460). -/
def linkOf (s : State) (l : Nat) : Link := tget ({} : Link) s.links.link l
def setLink (l : Nat) (v : Link) (s : State) : State :=
  { s with links := { s.links with link := tput ({} : Link) s.links.link l v } }

/-- The link is ACTIVE, or in RETRAIN, where what is queued to it is kept (R480). -/
def linkUp (s : State) (l : Nat) : Bool := (linkOf s l).st == 6 || (linkOf s l).st == 7

/-- A message of `n` bytes sent on, or received from, unit `u` of 7002: units 0 to 12 the KAF links, 13 to 24 the upstream
CXL, downstream CXL and PCIe ports, 25 and 26 Ethernet, 27 UCIe (R657, R658). -/
def linkTally (sent : Bool) (u n : Nat) (s : State) : State :=
  tallyAdd 0x7002 u (if sent then 2 else 3) 1 (tallyAdd 0x7002 u (if sent then 0 else 1) n s)

/-- Bytes of the slots of a KAF message (R467). -/
def kafSlots (len : Nat) : Nat := 32 + roundUp len 32

/-- Flits held by a link's sender and not acknowledged (R476). -/
def linkHeld (k : Link) : Nat := (k.next + 4096 - k.oldest) % 4096

/-- The virtual channel and the lengths of an opcode (R469). -/
def kafRow (op : Nat) : Option (Nat × (Nat → Bool)) :=
  let z := fun (n : Nat) => n == 0
  if op = 0x14 then some (0, fun n => decide (1 ≤ n ∧ n ≤ 64))
  else if op = 0x16 then some (3, fun n => n == 64)
  else if 0x10 ≤ op ∧ op ≤ 0x15 then some (0, z)
  else if 0x18 ≤ op ∧ op ≤ 0x1C then some (3, fun n => n == 64)
  else if 0x1D ≤ op ∧ op ≤ 0x20 then some (2, z)
  else if 0x21 ≤ op ∧ op ≤ 0x26 then some (1, z)
  else if 0x27 ≤ op ∧ op ≤ 0x2D then some (2, z)
  else if 0x2E ≤ op ∧ op ≤ 0x31 then some (3, fun n => n == 64)
  else if op = 0x32 ∨ op = 0x33 then some (2, z)
  else if op = 0x40 ∨ op = 0x48 then some (0, z)
  else if op = 0x41 then some (0, fun n => decide (64 ≤ n ∧ n ≤ 4096) && n % 64 == 0)
  else if op = 0x42 then some (3, fun n => decide (64 ≤ n ∧ n ≤ 4096) && n % 64 == 0)
  else if op = 0x49 then some (0, fun n => decide (4 ≤ n ∧ n ≤ 64))
  else if op = 0x4A then some (3, fun n => n == 4 || n == 8)
  else if op = 0x50 then some (0, fun n => decide (1 ≤ n ∧ n ≤ 4096))
  else if op = 0x51 then some (2, z) else none

/-- Flits that wait take their numbers while fewer than 2,047 are unacknowledged (R476). -/
def linkFill (now : Nat) (k : Link) : Link :=
  let n := min k.queued (2047 - linkHeld k)
  { k with next := (k.next + n) % 4096, queued := k.queued - n, ackAt := if linkHeld k = 0 ∧ n ≠ 0 then now else k.ackAt }

/-- A message of `n` bytes of slots is built into flits of its own (R464; log entry 33). -/
def linkBuild (l n : Nat) (s : State) : State :=
  let k := linkOf s l
  setLink l (linkFill s.time.cycle { k with queued := k.queued + ceilDiv n 224, built := k.built + ceilDiv n 224 }) s

/-- A message leaves on a link; a tenant's is noted until the partner acknowledges its last flit (R445). -/
def sendNow (l tenant : Nat) (m : KafMsg) (s : State) : State :=
  let s := linkBuild l (kafSlots m.data.length) (linkTally true l (kafSlots m.data.length) (emit (.kaf l m) s))
  if tenant < 64 then setLink l { linkOf s l with owed := (linkOf s l).owed ++ [((linkOf s l).built, tenant)] } s else s

/-- A message's data VC is off at the partner (R475). -/
def vcOff (k : Link) (m : KafMsg) : Bool := match kafRow m.op with | some (v, _) => bitAt k.xoff v | none => false

/-- Send a KAF message of a tenant, or of none (0xFF): one to a link that is DOWN is discarded (R481); one whose VC is off waits
(R475). -/
def sendFor (l tenant : Nat) (m : KafMsg) (s : State) : State :=
  if !linkUp s l then s
  else if vcOff (linkOf s l) m then setLink l { linkOf s l with parked := (linkOf s l).parked ++ [(tenant, m)] } s
  else sendNow l tenant m s
def sendKaf (l : Nat) (m : KafMsg) (s : State) : State := sendFor l 0xFF m s

/-- The messages whose VC is on again leave, oldest first. -/
def sendParked (l : Nat) (s : State) : State :=
  let k := linkOf s l
  let s := setLink l { k with parked := k.parked.filter fun p => vcOff k p.2 } s
  (k.parked.filter fun p => !vcOff k p.2).foldl (fun s p => sendNow l p.1 p.2 s) s

/-- Send a bypass message (R473). -/
def sendBypass (l : Nat) (m : Beacon) (s : State) : State :=
  if linkUp s l then linkBuild l 32 (linkTally true l 32 (emit (.bypass l m) s)) else s

/-- The status word of a link (R488, 5000). -/
def linkStat (k : Link) : Nat :=
  k.st * 2 ^ 28 + k.gen * 2 ^ 26 + k.width * 2 ^ 24 + k.firstLane * 2 ^ 20 + (if k.encrypted then 2 ^ 19 else 0)
    + k.txGen % 2 * 2 ^ 18 + k.rtt % 512 * 2 ^ 9 + k.reason * 2 ^ 5

/-- What a follow twin adds to the address of every PushWr; it keeps the offset as SOLE (R592, R603). -/
def pushOffset (s : State) : Nat :=
  if obj s 0x8100 1 = 2 ∧ (s.span.twin = .follow ∨ s.span.twin = .sole) then obj s 0x8100 2 else 0

/-- The sum of one column over units `lo` to `hi - 1` of a group (R664). -/
def tallySum (s : State) (group col lo hi : Nat) : Nat :=
  ((List.range (hi - lo)).foldl (fun a i => a + tget 0 s.tal.counts (tkey group (lo + i) col)) 0) % 2 ^ 64

/-- A freeze takes effect: 7000:01 and 7000:05 (R661, R662). -/
def freezeNow (s : State) : State :=
  s.setTal fun t => { t with frozen := true, frozenAt := devNs s, freezeWait := false }

/-- A trigger of R663 is registered: it asks for a freeze, and does nothing while the tallies are frozen, unless they are lifted in
its cycle. -/
def askFreeze (s : State) : State :=
  s.setTal fun t => if t.frozen then { t with trigAt := some s.time.cycle } else { t with freezeWait := true }

/-! ## Traces (R666 to R670) -/

/-- A trace record's fields in the layout of R666. -/
def traceWord (s : State) (addr unit tag source code count kind trig : Nat) : BitVec 256 :=
  BitVec.ofNat 256 (devNs s * 2 ^ 192 + phaseOf s * 2 ^ 176 + s.clk.last % 2 ^ 48 * 2 ^ 128 + addr % 2 ^ 56 * 2 ^ 72
    + unit % 65536 * 2 ^ 56 + tag % 256 * 2 ^ 48 + source % 256 * 2 ^ 40 + code % 256 * 2 ^ 32
    + min count 65535 * 2 ^ 16 + kind % 256 * 2 ^ 8 + trig * 2 ^ 7)

/-- Gap records of one reason for `n` records: one for each 65,535 and one for the rest (R668). -/
def gapWords (s : State) (reason n : Nat) : Nat → List (BitVec 256)
  | 0 => []
  | k + 1 =>
    if n = 0 then []
    else traceWord s 0 reason 0 0xFF 0 (min n 65535) 0x10 0 :: gapWords s reason (n - min n 65535) k

/-- A record reaches a die's FIFO of 256: gap records that are due precede it; without room it is lost (R668). -/
def traceEnter (s : State) (t : Trace) (w : BitVec 256) : Trace :=
  let gaps := gapWords s 1 t.lost (t.lost / 65535 + 1) ++ gapWords s 2 t.hidden (t.hidden / 65535 + 1)
  if t.fifo.length + gaps.length + 1 ≤ 256 then { t with fifo := t.fifo ++ gaps ++ [w], lost := 0, hidden := 0 }
  else { t with lost := t.lost + 1 }

/-- The trace of one die. -/
def traceOf (s : State) (die : Nat) : Trace := if die = 0 then s.tal.io0 else s.tal.io1

def setTrace (die : Nat) (t : Trace) (s : State) : State :=
  s.setTal fun v => if die = 0 then { v with io0 := t } else { v with io1 := t }

/-- An event of the device reaches the trace of a die (R666, R668, R669): selected by kind and tenant, a
confidential tenant's counted and not written. `tenant` is none for a device-sourced event. -/
def traceEvent (die : Nat) (tenant : Option Nat) (addr unit tag source code count kind : Nat) (s : State) : State :=
  let t := traceOf s die
  let on := (t.st == 1 || t.st == 2) && decide (s.tal.armedFrom ≤ s.time.cycle) && bitAt s.tal.kinds (kind - 1)
  let wanted := match tenant with
    | none => true
    | some n => bitAt s.tal.tenants n
  if on && wanted then
    let conf := match tenant with
      | none => false
      | some n => (tget ({} : Tenant) s.led.tens n).confidential
    if conf then setTrace die { t with hidden := t.hidden + 1 } s
    else
      let t := traceEnter s t (traceWord s addr unit tag source code count kind 0)
      setTrace die t (if t.lost = 0 then s else s.setTal fun v => { v with recLost := (v.recLost + 1) % 2 ^ 64 })
  else s

/-- The trace records, and a trigger can still be taken (R670). -/
def traceArmed (s : State) : Bool :=
  decide (s.tal.armedFrom ≤ s.time.cycle)
    && ((s.tal.io0.st == 1 && !s.tal.io0.wait) || (s.tal.io1.st == 1 && !s.tal.io1.wait))

/-- A trigger is registered: both dies are to write their record, and a trigger after the first is counted in
7300:0F (R670). With bit 0 of 7000:07 it also asks for a freeze (R663). -/
def traceTriggerSeen (s : State) : State :=
  if s.tal.mode = 3 ∧ traceArmed s then
    let s := s.setTal fun t => { t with io0 := { t.io0 with wait := true }, io1 := { t.io1 with wait := true } }
    if bitAt (obj s 0x7000 7) 0 then askFreeze s else s
  else if s.tal.mode ≠ 0 ∧ s.tal.armedFrom ≤ s.time.cycle ∧ (s.tal.io0.st ≠ 0 ∨ s.tal.io1.st ≠ 0) then
    s.setTal fun t => { t with trigIgnored := (t.trigIgnored + 1) % 2 ^ 32 }
  else s

/-! ## EMCY (R623, R624, R633) -/

/-- Cores in service (9001:03). -/
def coresInService (s : State) : List Nat := (List.range 20).filter fun c => (tget ({} : Core) s.attn.cores c).st == .inService

/-- 1001:00, the error register (R633). -/
def errReg (s : State) : Nat :=
  (if s.mem.sev3 then 1 else 0) + (if s.mint.st != .running then 2 else 0)
    + (if (coresInService s).length < 16 then 4 else 0)
    + (if s.span.twin == .lead || s.span.twin == .follow || s.span.twin == .single then 0 else 8)

/-- The message of R624. -/
def emcyWord (e : Emcy) : BitVec 128 :=
  BitVec.ofNat 128 (e.value % 2 ^ 64 * 2 ^ 64 + e.sub * 2 ^ 48 + e.index * 2 ^ 32 + e.cls * 2 ^ 24
    + e.errreg % 256 * 2 ^ 16 + 0xFF00)

/-- Send an EMCY now, to the bus and, with 1021:02 = 1, to the MCTP endpoint that last set the ID (R625). -/
def emcySend (e : Emcy) (s : State) : State :=
  let s := emit (.emcy (emcyWord e)) (s.setCan fun c => { c with lastEmcy := some s.time.cycle })
  if obj s 0x1021 2 = 1 ∧ s.can.eid ≠ 0 then emit (.mctp (leBytes (emcyWord e).toNat 16)) s else s

/-- The inhibit time has passed since the last EMCY (R623). -/
def emcyFree (s : State) : Bool :=
  match s.can.lastEmcy with
  | none => true
  | some c => decide (c + 200000 * obj s 0x1015 0 ≤ s.time.cycle)

/-- An EMCY event: sent at once, or waiting among at most 16, the oldest dropped and counted in 1022:03 (R623). -/
def emcyRaise (cls index sub value : Nat) (s : State) : State :=
  let e : Emcy := { cls := cls, index := index, sub := sub, value := value, errreg := errReg s }
  if s.can.nmt ≠ 4 ∧ s.can.emcy.isEmpty ∧ emcyFree s then emcySend e s
  else if s.can.emcy.length < 16 then s.setCan fun c => { c with emcy := c.emcy ++ [e] }
  else bumpObj 0x1022 3 1 32 (s.setCan fun c => { c with emcy := c.emcy.drop 1 ++ [e] })

/-! ## Telemetry events (R663, R665, R670) -/

/-- A telemetry event: an entry of the ring, a trace record of kind 9, and the triggers that select its kind. -/
def telemetry (kind detail : Nat) (s : State) : State :=
  let w : BitVec 128 := BitVec.ofNat 128 (devNs s * 2 ^ 64 + s.clk.last % 2 ^ 48 * 2 ^ 16 + kind * 256 + detail % 256)
  let s := s.setTal fun t =>
    { t with events := tins t.events (t.eventCount % 256) w, eventCount := (t.eventCount + 1) % 2 ^ 64 }
  let s := traceEvent 0 none 0 0 0xFF 0xFF 0 0 9 s
  let s := if bitAt (obj s 0x7000 3) (kind - 1) then askFreeze s else s
  if bitAt s.tal.trigKinds (kind - 1) then traceTriggerSeen s else s

/-! ## The error log (R305 to R310) -/

/-- Write an entry where there is room. -/
def logPut (e : LogEntry) (s : State) : State :=
  s.setMem fun m => { m with log := tins m.log (m.logWr % 4096) e, logWr := (m.logWr + 1) % 2 ^ 32 }

/-- Entries between the steward's read index and the write index (R309). -/
def logUsed (s : State) : Nat := (s.mem.logWr + 2 ^ 32 - s.mem.logRd) % 2 ^ 32

/-- The severity of each kind (R306). -/
def logSeverity (kind : Nat) : Nat :=
  if kind = 1 || kind = 7 || kind = 0x0F then 1
  else if kind = 9 || kind = 0x0A || kind = 0x0D || kind = 0x10 then 0
  else if kind = 0x0E then 3 else 2

/-- An event for the error log: written, or counted as lost while the log is full (R309); an entry of severity 3 is
also a telemetry event of kind 9 and an EMCY of class 4. A confidential tenant's entry keeps only PA[51:12] (R310). -/
def logEvent (kind addr loc tag source symbols count : Nat) (s : State) : State :=
  let conf := decide (tag < 64) && (tget ({} : Tenant) s.led.tens tag).confidential
  let e : LogEntry :=
    { time := devNs s, step := s.clk.last, addr := if conf then addr / 4096 * 4096 else addr, loc := loc, tag := tag
      source := if conf then 0 else source, symbols := if conf then 0 else min symbols 7, count := min count 65535
      kind := kind, severity := logSeverity kind }
  let s := if logUsed s < 4096 then logPut e s
    else s.setMem fun m => { m with logLost := (m.logLost + 1) % 2 ^ 32, logGap := m.logGap + 1 }
  if logSeverity kind = 3 then
    let s := s.setMem fun m => { m with sev3 := true }
    telemetry 9 kind (emcyRaise 4 0x7400 2 s.mem.logWr s)
  else s

/-! ## Look-ups of the ledger and of the address map (R12, R18, R20, R392) -/

def tenantOf (s : State) (t : Nat) : Tenant := tget ({} : Tenant) s.led.tens t
def extOf (s : State) (e : Nat) : Extent := tget ({} : Extent) s.led.exts e
def qpOf (s : State) (q : Nat) : Qp := tget ({} : Qp) s.led.qps q
def ctxOf (s : State) (c : Nat) : Ctx := tget ({} : Ctx) s.kv.ctxs c
def coreOf (s : State) (c : Nat) : Core := tget ({} : Core) s.attn.cores c
def ctlOf (s : State) (h : Nat) : Hbm := tget ({} : Hbm) s.hbm.ctl h
def keysOf (s : State) (t : Nat) : Keys := tget ({} : Keys) s.mint.keys t

def setTenant (t : Nat) (v : Tenant) (s : State) : State := s.setLed fun l => { l with tens := tput ({} : Tenant) l.tens t v }
def setExt (e : Nat) (v : Extent) (s : State) : State := s.setLed fun l => { l with exts := tput ({} : Extent) l.exts e v }
def setQp (q : Nat) (v : Qp) (s : State) : State := s.setLed fun l => { l with qps := tput ({} : Qp) l.qps q v }
def setCtx (c : Nat) (v : Ctx) (s : State) : State := s.setKv fun k => { k with ctxs := tput ({} : Ctx) k.ctxs c v }
def setCore (c : Nat) (v : Core) (s : State) : State := s.setAttn fun a => { a with cores := tput ({} : Core) a.cores c v }
def setCtl (h : Nat) (v : Hbm) (s : State) : State := s.setHbm fun b => { b with ctl := tput ({} : Hbm) b.ctl h v }

/-- Bytes of a slab (R177). -/
def slabBytes : Nat := 33554432

/-- Give a frame back; the last one returns its slab (R177). -/
def giveBack (a size : Nat) (s : State) : State :=
  let b := a / slabBytes
  s.setKv fun k =>
    let v := tget ({ tenant := 0, size := 0, used := [] } : Slab) k.slabs b
    let used := v.used.filter fun i => i != a % slabBytes / max 1 size
    { k with slabs := if used.isEmpty then k.slabs.filter (fun p => p.1 != b) else tins k.slabs b { v with used := used } }

/-- What a striped part has prepared is released, or is about to be applied (R585). -/
def givePrep (f : Flight) (s : State) : State := f.prep.foldl (fun s q => giveBack q.1 q.2 s) s

/-- The twin has stepped down: it sinks what arrives and sends no answer (R590). -/
def steppedDown (s : State) : Bool := s.span.twin == .detached || s.span.twin == .fenced

/-- The tier of a local address: 1, 2, 3, or 0 where it is not decoded or a device window (R18). -/
def tierOf (a : Nat) : Nat :=
  if a < 0x18000000000 then 1
  else if 0x100000000000 ≤ a ∧ a < 0x400000000000 then 2
  else if 0x8000000000000 ≤ a ∧ a < 0x10000000000000 then 3 else 0

/-- The controller of a T1 address (R20), and its location code at level 4 (R12, R13). -/
def ctlOfAddr (a : Nat) : Nat := a / 4096 % 24
def ctlLoc (h : Nat) : Nat := 4 * 2 ^ 28 + (2 + h / 6) * 2 ^ 24 + h % 6 * 2 ^ 19

/-- The location code of a core at level 4 (R11, R13). -/
def coreLoc (c : Nat) : Nat := 4 * 2 ^ 28 + c / 10 * 2 ^ 24 + c % 10 / 5 * 2 ^ 22 + c % 5 * 2 ^ 19

/-- The state of a key slot of an owner tag: 1 CURRENT for the device's and the pool manager's storage keys (R430). -/
def slotState (s : State) (tag epoch : Nat) : Nat :=
  if tag < 64 then (if epoch = 0 then (keysOf s tag).slot0 else (keysOf s tag).slot1) else 1

/-- A tenant's current epoch (R431); 0 for the others (R430). -/
def curEpoch (s : State) (tag : Nat) : Nat := if tag < 64 then (keysOf s tag).gen % 2 else 0

/-- The metadata of a line that carries none of its own: its extent's owner and base epoch. -/
def lineBase (s : State) (line : Nat) : Line :=
  let e := extOf s (line / 2 ^ 24)
  { tag := if e.alien then 0x100 else e.owner, epoch := e.base, poison := false, hint := 0, cond := .clean }

/-- A line's metadata. -/
def lineOf (s : State) (line : Nat) : Line := tget (lineBase s line) s.mem.lines line

def setLine (line : Nat) (v : Line) (s : State) : State :=
  s.setMem fun m => { m with lines := tput (lineBase s line) m.lines line v }

/-- The lines of a range that carry metadata of their own. -/
def linesIn (s : State) (lo hi : Nat) : Tbl Line :=
  s.mem.lines.filter fun p => decide (lo / 64 ≤ p.1) && decide (p.1 * 64 < hi)

/-- The code that one line's own condition gives a read (R293, R433), the tag check included. -/
def lineCode (s : State) (line : Nat) (v : Line) : Nat :=
  match v.cond with
  | .address | .uncorrectable _ | .tag => 0x31
  | _ =>
    if v.tag ≠ (extOf s (line / 2 ^ 24)).owner then 0x31
    else if slotState s v.tag v.epoch = 0 then 0x23 else 0x00

/-- The bank and pseudo-channel of a T1 address (R261). -/
def ctlOffset (a : Nat) : Nat := a / 4096 / 24 * 4096 + a % 4096
def pcOf (a : Nat) : Nat := (bitsOf (ctlOffset a) 15 10) ^^^ (bitsOf (ctlOffset a) 27 22)
def bankOf (a : Nat) : Nat := (bitsOf (ctlOffset a) 21 16) ^^^ (bitsOf (ctlOffset a) 33 28)
def rowOf (a : Nat) : Nat := bitsOf (ctlOffset a) 35 22

/-- The location code of the bank that holds a line, at level 2 (R13). -/
def bankLoc (a : Nat) : Nat :=
  let h := ctlOfAddr a
  2 * 2 ^ 28 + (2 + h / 6) * 2 ^ 24 + h % 6 * 2 ^ 19 + pcOf a * 2 ^ 13 + bankOf a

/-- A range of T1 touches a failed pseudo-channel or a failed controller (R269, R270). -/
def pcBad (s : State) (a n : Nat) : Bool :=
  (s.hbm.ctl.any fun c => c.2.failedPc != 0 || c.2.st == .failed)
    && (List.range ((a + n + 1023) / 1024 - a / 1024)).any fun i =>
      let x := (a / 1024 + i) * 1024
      let h := tget ({} : Hbm) s.hbm.ctl (ctlOfAddr x)
      h.st == .failed || bitAt h.failedPc (pcOf x)

/-- The worse of two read codes: 0x32, then 0x30, then 0x31, then the others (R81). -/
def worseCode (a b : Nat) : Nat :=
  let rank := fun (c : Nat) => if c = 0x32 then 5 else if c = 0x30 then 4 else if c = 0x31 then 3
    else if c = 0x23 then 2 else if c = 0 then 0 else 1
  if rank a < rank b then b else a

/-- The sectors of an extent carry MACs (R295). -/
def macOn (s : State) (a : Nat) : Bool :=
  let e := extOf s (a / 2 ^ 30)
  e.mac || e.kind == 1 || e.kind == 2

/-- The code of a protected sector's lines for a request that reads the lines `asks` (R298): a finding on any line first,
then poison on a line that is read, then a MAC that does not match. -/
def sectorCode (s : State) (sector : Nat) (asks : Nat → Bool) : Nat :=
  let ls := linesIn s (sector * 256) (sector * 256 + 256)
  let c := ls.foldl (fun c p => worseCode c (lineCode s p.1 p.2)) 0
  if c ≠ 0 then c
  else if ls.any fun p => p.2.poison && asks p.1 then 0x30
  else if ls.any fun p => p.2.cond == .mac then 0x32 else 0

/-- The code of the lines of a T1 range that carry metadata of their own: line by line, or, in a protected extent, sector
by sector, the order of R81 choosing across them (R293, R298, R433). -/
def mediaCode (s : State) (a n : Nat) (asks : Nat → Bool) : Nat :=
  if macOn s a then
    (linesIn s (a / 256 * 256) (roundUp (a + n) 256)).foldl (fun c p => worseCode c (sectorCode s (p.1 / 4) asks)) 0
  else (linesIn s a (a + n)).foldl (fun c p =>
    let m := lineCode s p.1 p.2
    worseCode c (if m ≠ 0 then m else if p.2.poison && asks p.1 then 0x30 else 0)) 0

/-- The code of the lines of a T1 range that carry none: a failed pseudo-channel or controller, an extent whose owner is
not the ledger's, a key slot that is empty (R269, R270, R284, R433). -/
def plainCode (s : State) (a n : Nat) : Nat :=
  if pcBad s a n then 0x31
  else if decide ((a + n + 63) / 64 - a / 64 ≤ (linesIn s a (a + n)).length) then 0
  else if (extOf s (a / 2 ^ 30)).alien then 0x31
  else if slotState s (extOf s (a / 2 ^ 30)).owner (extOf s (a / 2 ^ 30)).base = 0 then 0x23 else 0

/-- A read of a T1 range: its code. -/
def readCode (s : State) (a n : Nat) : Nat :=
  worseCode (plainCode s a n) (mediaCode s a n fun l => decide (a / 64 ≤ l) && decide (l * 64 < a + n))

/-- The code of a finding at a copy or a line outside T1, 0 where it can be read. -/
def findCode : Finding → Nat
  | .clean => 0
  | .corrected _ => 0
  | .mac => 0x32
  | _ => 0x31

/-- The code of a range of T2 or T3: its trays' poison on a line that the request asks for, what their own codes and a sector's MAC
find, and a key slot that is empty (R298, R303, R304, R433). -/
def outerCode (s : State) (a n : Nat) (asks : Nat → Bool) : Nat :=
  let g := if macOn s a then 256 else 64
  let lo := a / g * g
  let hi := (a + n + g - 1) / g * g
  let e := extOf s (a / 2 ^ 30)
  let ls := linesIn s lo hi
  let c := ls.foldl (fun c p => worseCode c (if slotState s e.owner p.2.epoch = 0 then 0x23
    else if p.2.poison && asks p.1 then 0x30 else findCode p.2.cond)) 0
  if slotState s e.owner e.base = 0 ∧ ls.length < (hi - lo) / 64 then worseCode c 0x23 else c

/-- A read of a range in any tier (R303, R304). -/
def memCode (s : State) (a n : Nat) : Nat :=
  if tierOf a = 1 then readCode s a n else outerCode s a n fun l => decide (a / 64 ≤ l) && decide (l * 64 < a + n)

/-- Log what a read of a range finds, as R306 names it: corrected lines go to the immediate-scrub queue (R302). -/
def noteLine (source : Nat) (s : State) (line : Nat) (v : Line) : State :=
  let a := line * 64
  let h := ctlOfAddr a
  let loc := bankLoc a
  match v.cond with
  | .corrected n =>
    let sec := s.time.cycle / 2000000000
    let (was, cnt) := tget (0, 0) s.mem.corrSec h
    let cnt := if was = sec then cnt else 0
    let q := tget [] s.mem.scrubQ h
    let s := bumpObj 0x4040 5 1 64 s
    let nth := tget 0 s.mem.bankCorr loc + 1
    let s := s.setMem fun m => { m with bankCorr := tput 0 m.bankCorr loc nth }
    let s := if nth = obj s 0x4040 2 then logEvent 7 a loc v.tag source n 1 s else s
    let s := if cnt < obj s 0x4040 3 then logEvent 1 a loc v.tag source n 1 s else s
    let s := s.setMem fun m => { m with corrSec := tput (0, 0) m.corrSec h (sec, cnt + 1) }
    if q.contains line then s
    else if q.length < 16 then s.setMem fun m => { m with scrubQ := tput [] m.scrubQ h (q ++ [line]) }
    else bumpObj 0x4040 8 1 32 s
  | .uncorrectable n => logEvent 2 a loc v.tag source n 1 (bumpObj 0x4040 6 1 64 s)
  | .address => logEvent 5 a loc v.tag source 0 1 s
  | .tag => logEvent 6 a loc v.tag source 0 1 s
  | .mac | .clean => if v.tag ≠ (extOf s (line / 2 ^ 24)).owner then logEvent 6 a loc v.tag source 0 1 s else s

/-- The log's entry for poison on a line that is read. -/
def notePoison (source : Nat) (s : State) (line : Nat) (v : Line) : State :=
  if v.poison then logEvent 3 (line * 64) (bankLoc (line * 64)) v.tag source 0 1 s else s

/-- The log's entries for the lines of a protected sector: R298 goes on to poison and to the MAC only where the lines pass
what comes before. -/
def noteSector (source : Nat) (asks : Nat → Bool) (s : State) (sector : Nat) : State :=
  let ls := linesIn s (sector * 256) (sector * 256 + 256)
  let t := ls.foldl (fun t p => noteLine source t p.1 p.2) s
  match sectorCode s sector asks with
  | 0x30 => (ls.filter fun p => asks p.1).foldl (fun t p => notePoison source t p.1 p.2) t
  | 0x32 =>
    let a := sector * 256
    logEvent 4 a (bankLoc a) (extOf s (a / 2 ^ 30)).owner source 0 1 (bumpObj 0x4040 7 1 64 t)
  | _ => t

/-- The log's entries for a read of a range. -/
def noteMedia (source a n : Nat) (asks : Nat → Bool) (s : State) : State :=
  if macOn s a then
    (((linesIn s (a / 256 * 256) (roundUp (a + n) 256)).map (·.1 / 4)).eraseDups).foldl (noteSector source asks) s
  else (linesIn s a (a + n)).foldl (fun s p =>
    let t := noteLine source s p.1 p.2
    if lineCode s p.1 p.2 = 0 ∧ asks p.1 then notePoison source t p.1 p.2 else t) s

/-- A request reaches a controller: its idle timer starts afresh, and self-refresh ends, its trackers cleared (R279 to
R281). -/
def wakeCtl (h : Nat) (s : State) : State :=
  let v := tget ({} : Hbm) s.hbm.ctl h
  let v := { v with lastUse := s.time.cycle, selfRefresh := false, rows := if v.selfRefresh then [] else v.rows }
  s.setHbm fun b => { b with ctl := tput ({} : Hbm) b.ctl h v }

/-- The log's entry for what a range finds beside its lines: a failed pseudo-channel or controller, or lines of another owner. -/
def notePlain (source a n : Nat) (s : State) : State :=
  let e := extOf s (a / 2 ^ 30)
  if pcBad s a n then logEvent 2 a (bankLoc a) e.owner source 7 1 (bumpObj 0x4040 6 1 64 s)
  else if plainCode s a n = 0x31 then logEvent 6 a (bankLoc a) e.owner source 0 1 s else s

/-! ### Refresh and row disturbance at an access (R273, R274) -/

/-- Refreshes of a bank are issued; a sweep of 2,048 covers it and clears its tracker. -/
def refreshBank (k n : Nat) (h : Hbm) : Hbm :=
  let m := tget 0 h.swept k + n
  let h := { h with postponed := tput 0 h.postponed k 0, swept := tput 0 h.swept k (m % 2048) }
  if 2048 ≤ m then { h with rows := tput [] h.rows k [] } else h

/-- A tracker's entry with the lowest count, the first of them. -/
def rowLowest (l : List RowCount) : Nat := l.foldl (fun m e => min m e.count) ((l.head?.map (·.count)).getD 0)

/-- An activation of a row by a requester, in its bank's tracker. -/
def rowActivate (row req : Nat) (l : List RowCount) : List RowCount :=
  if l.any fun e => e.row == row then
    l.map fun e => if e.row = row then { e with count := e.count + 1, by_ := tmod 0 e.by_ req (· + 1) } else e
  else if l.length < 64 then l ++ [{ row := row, count := 1, by_ := [(req, 1)] }]
  else
    let m := rowLowest l
    match l.find? fun e => e.count == m with
    | some old => l.map fun e => if e.row = old.row then { row := row, count := m + 1, by_ := [(req, 1)] } else e
    | none => l

/-- One row of a T1 access: a read first lets every postponed refresh of the bank be issued. -/
def rowTouch (write : Bool) (req a : Nat) (s : State) : State :=
  let c := ctlOfAddr a
  let s := wakeCtl c s
  let h := tget ({} : Hbm) s.hbm.ctl c
  let k := pcOf a * 64 + bankOf a
  let p := tget 0 h.postponed k
  let h := if write ∨ p = 0 then h else refreshBank k p h
  s.setHbm fun b => { b with ctl := tput ({} : Hbm) b.ctl c { h with rows := tmod [] h.rows k (rowActivate (rowOf a) req) } }

/-- An access to a range of T1 activates each of its rows once (log entry 108). -/
def activate (write : Bool) (tag source a n : Nat) (s : State) : State :=
  if tierOf a = 1 then
    (List.range ((a + n + 1023) / 1024 - a / 1024)).foldl (fun s i => rowTouch write (tag * 256 + source) ((a / 1024 + i) * 1024) s) s
  else s

/-- The owner of the extent that an address lies in. -/
def ownerAt (s : State) (a : Nat) : Nat := (extOf s (a / 2 ^ 30)).owner

/-- A read of a range by a requester: what it finds is logged. -/
def noteReadBy (tag source a n : Nat) (s : State) : State :=
  notePlain source a n (noteMedia source a n (fun l => decide (a / 64 ≤ l) && decide (l * 64 < a + n)) (activate false tag source a n s))
def noteRead (source a n : Nat) (s : State) : State := noteReadBy (ownerAt s a) source a n s

/-! ### Trays behind the T2 and T3 windows (R18, R19, R236) -/

/-- Active trays (or namespaces) whose region covers an address; the trays of an interleave set share one region, which stands
while the set has 2 or 4 of them. -/
def trayRegion (s : State) (a : Nat) : List Nat :=
  let tbl := if tierOf a = 2 then s.kv.trays else s.kv.nss
  let off := if tierOf a = 2 then a - 0x100000000000 else a - 0x8000000000000
  let near := tbl.filter fun t => t.2.active && decide (t.2.base * 2 ^ 30 ≤ off)
  match near.find? fun t => (if t.2.set = 0 then decide (off < (t.2.base + t.2.size) * 2 ^ 30)
      else decide (off < (t.2.base + (near.filter fun u => u.2.set == t.2.set).foldl (fun n u => n + u.2.size) 0) * 2 ^ 30)) with
  | none => []
  | some t =>
    let set := (near.filter fun u => u.2.set == t.2.set).map (·.1)
    if t.2.set = 0 then [t.1] else if set.length = 2 ∨ set.length = 4 then set else []

/-- The tray behind a T2 or T3 address: an interleave set spreads 4 KiB granules over its trays. -/
def trayAt (s : State) (a : Nat) : Option Nat :=
  let r := trayRegion s a
  r[a / 4096 % max 1 r.length]?

/-- A tray of the region behind a T2 or T3 address has failed (R239). -/
def trayLost (s : State) (a : Nat) : Bool :=
  (tierOf a == 2 || tierOf a == 3)
    && (trayRegion s a).any fun n => (tget ({} : Tray) (if tierOf a = 2 then s.kv.trays else s.kv.nss) n).failed

/-- Bytes of T1 are tallied granule by granule (R20, R658). -/
def tallyT1 (col : Nat) : Nat → Nat → Nat → State → State
  | 0, _, _, s => s
  | k + 1, a, n, s =>
    if n = 0 then s
    else
      let m := min n (4096 - a % 4096)
      tallyT1 col k (a + m) (n - m) (wakeCtl (ctlOfAddr a) (tallyAdd 0x7001 (ctlOfAddr a) col m s))

/-- An access to a tray or namespace goes over its downstream CXL or PCIe port as one message each way (log entry 118). -/
def tallyPort (write : Bool) (u n : Nat) (s : State) : State :=
  linkTally false u (if write then 0 else n) (linkTally true u (if write then n else 0) s)

/-- Bytes read from, and written to, a controller, tray or namespace are tallied in 7001, and those of its port in 7002 (R658). -/
def tallyMem (write : Bool) (a n : Nat) (s : State) : State :=
  let col := if write then 1 else 0
  let tray := (trayAt s a).getD 0
  match tierOf a with
  | 1 => tallyT1 col (n / 4096 + 2) a n s
  | 2 => tallyPort write (17 + (tget ({} : Tray) s.kv.trays tray).port) n (tallyAdd 0x7001 (24 + tray) col n s)
  | 3 => tallyPort write (21 + (tget ({} : Tray) s.kv.nss tray).port) n (tallyAdd 0x7001 (56 + tray) col n s)
  | _ => s

/-- A whole-line write: data, owner's tag, current epoch, poison and hint together (R294, R432). -/
def writeLines (a n : Nat) (poison : Bool) (hint : Nat) (s : State) : State :=
  (List.range ((a + n + 63) / 64 - a / 64)).foldl (fun s i =>
    let line := a / 64 + i
    let owner := (extOf s (line / 2 ^ 24)).owner
    setLine line { tag := owner, epoch := curEpoch s owner, poison := poison, hint := hint, cond := .clean } s) s

/-- Write bytes of T1 that cover whole lines. -/
def writeWhole (a : Nat) (bs : List Byte) (s : State) : State :=
  let s := writeLines a bs.length false 0 s
  tallyMem true a bs.length (activate true (ownerAt s a) 0xFF a bs.length (s.setMem fun m => { m with bytes := mwrite m.bytes a bs }))

/-- The metadata that a write of some bytes of a line leaves (R294, R304, R432): a whole line takes its owner's tag, the
current epoch, the write's poison and hint 0; part of a line keeps its hint. The other lines of a protected sector, which is written
with its MAC slot, take the current epoch (R298). -/
def writeMeta (a : Nat) (whole poison : Bool) (s : State) : State :=
  let v := lineOf s (a / 64)
  let owner := (extOf s (a / 2 ^ 30)).owner
  let s := setLine (a / 64) { tag := owner, epoch := curEpoch s owner, poison := poison, hint := if whole then 0 else v.hint
                              cond := .clean } s
  if macOn s a then (List.range 4).foldl (fun s i =>
    let l := a / 256 * 4 + i
    setLine l { lineOf s l with epoch := curEpoch s owner } s) s
  else s

/-- Write the bytes of a request to memory, byte `i` where bit `i` of the mask is set. -/
def memStore (a mask : Nat) (bs : List Byte) (poison : Bool) (s : State) : State :=
  let n := bs.length
  let s := (List.range ((a + n + 63) / 64 - a / 64)).foldl (fun s i =>
    let l := (a / 64 + i) * 64
    let lo := max l a
    let hi := min (l + 64) (a + n)
    let m := mask / 2 ^ (lo - a) % 2 ^ (hi - lo)
    if m = 0 then s else writeMeta l (m == 2 ^ 64 - 1) poison s) s
  tallyMem true a n (s.setMem fun k => { k with bytes := mwriteMask k.bytes a mask bs })

/-- The lines of a write's range that it reads: those it does not write whole (R294, R298, R304). -/
def writeAsks (a n mask line : Nat) : Bool :=
  let lo := line * 64
  decide (lo < a) || decide (a + n < lo + 64) || !(mask / 2 ^ (lo - a) % 2 ^ 64 == 2 ^ 64 - 1)

/-- The range is written in whole lines, or in whole sectors where the extent is protected: nothing is read first. -/
def writesBlind (s : State) (a n mask : Nat) : Bool :=
  let g := if macOn s a then 256 else 64
  a % g == 0 && n % g == 0 && mask % 2 ^ n == 2 ^ n - 1

/-- The code of a write: that of the read it needs, poison included (R294, R298, R304, R433). Outside protected extents a
line that is written whole is not read. -/
def partCode (s : State) (a n mask : Nat) : Nat :=
  let asked := ((List.range ((a + n + 63) / 64 - a / 64)).map (a / 64 + ·)).filter (writeAsks a n mask)
  if tierOf a = 1 ∧ pcBad s a n then 0x31
  else if writesBlind s a n mask then 0
  else if tierOf a ≠ 1 then
    if macOn s a then outerCode s a n fun l => asked.contains l
    else asked.foldl (fun c l => worseCode c (outerCode s (l * 64) 64 fun _ => true)) 0
  else
    let plain := asked.foldl (fun c l => worseCode c (plainCode s (l * 64) 64)) 0
    let media := if macOn s a then mediaCode s a n fun l => asked.contains l
      else asked.foldl (fun c l => worseCode c (mediaCode s (l * 64) 64 fun _ => true)) 0
    worseCode plain media

/-- A write of a range by a requester: the log's entries for the read that it needs. -/
def noteWriteBy (tag source a n mask : Nat) (s : State) : State :=
  let s := activate true tag source a n s
  if writesBlind s a n mask then s
  else if macOn s a then noteMedia source a n (writeAsks a n mask) s
  else ((List.range ((a + n + 63) / 64 - a / 64)).map (a / 64 + ·)).foldl (fun s l =>
    if writeAsks a n mask l then noteMedia source (l * 64) 64 (fun _ => true) s else s) s
def noteWrite (source a n mask : Nat) (s : State) : State := noteWriteBy (ownerAt s a) source a n mask s

/-- Zeroize a range: zero data, the extent's own metadata (R268, R398, R401). -/
def zeroRange (lo hi : Nat) (s : State) : State :=
  s.setMem fun m => { m with bytes := mzero m.bytes lo hi, lines := terase m.lines (lo / 64) (hi / 64) }

end Sys2Proof.Machine
end

