-- ==== Sys2Proof/Machine/Flags.lean ====
section
/-! DEFINITION. The codes and status words that the device computes: completion codes, abort codes, phase bits,
register images of link, core and queue-pair status (R81, R162, R257, R388, R614). -/

namespace Sys2Proof.Machine

/-! ## Completion codes (R166, R167) -/

def ccDone : Nat := 0x00
def ccDeferred : Nat := 0x10
def ccRate : Nat := 0x11
def ccFull : Nat := 0x12
def ccXlate : Nat := 0x20
def ccRevoked : Nat := 0x21
def ccClosed : Nat := 0x22
def ccStale : Nat := 0x23
def ccPoison : Nat := 0x30
def ccUncorr : Nat := 0x31
def ccIntegrity : Nat := 0x32
def ccFenced : Nat := 0x40
def ccAborted : Nat := 0x41
def ccBadDesc : Nat := 0x50
def ccUnsupported : Nat := 0x51

/-- The first of several failures in the order of R81, others after them in the order they were seen. -/
def pickCode (cs : List (Nat × Nat)) : Option (Nat × Nat) :=
  match cs.find? (fun c => c.1 == ccIntegrity), cs.find? (fun c => c.1 == ccPoison), cs.find? (fun c => c.1 == ccUncorr) with
  | some c, _, _ => some c
  | none, some c, _ => some c
  | none, none, some c => some c
  | none, none, none => cs.head?

/-! ## Abort codes of the dictionary (R614) -/

def abTimeout : Nat := 0x05040000
def abOp : Nat := 0x05040001
def abPrin : Nat := 0x06010000
def abReadWo : Nat := 0x06010001
def abWriteRo : Nat := 0x06010002
def abNoObj : Nat := 0x06020000
def abLength : Nat := 0x06070010
def abNoSub : Nat := 0x06090011
def abValue : Nat := 0x06090030
def abState : Nat := 0x08000022

/-! ## Commands by way of the dictionary (R612 to R614) -/

/-- A principal's bit in an object's mask (R613). -/
def prinBit (p : Prin) : Nat := match p with | .s => 0 | .m => 1 | .k => 2 | .n => 3 | .t _ => 4

/-- The tenant whose block an index lies in (R410). -/
def blockOf (index : Nat) : Option Nat := if 0x3000 ≤ index ∧ index < 0x3400 then some ((index - 0x3000) / 16) else none

/-- The principal may access the object: its letter is in the column, and T reaches the block of its own tenant only (R613). -/
def mayTouch (p : Prin) (index sub : Nat) : Bool :=
  match objRow? index sub with
  | none => false
  | some r => bitAt r.prin (prinBit p) && (match p, blockOf index with
    | .t t, some u => t.val == u
    | _, _ => true)

/-- The outcome of a write: one that is refused is counted in 1022:01 (R633). -/
def written (r : Nat × State) : State := if r.1 = 0 then r.2 else bumpObj 0x1022 1 1 32 r.2

/-- The dictionary answers: the device has power and is not held in reset. -/
def answering (s : State) : Bool := s.pwr.dev != .shutdown && s.pwr.dev != .reset

/-- A command by way of an object, by the principal that its row names. -/
def commanded (f : State → Nat × State) (s : State) : State := if answering s then written (f s) else s

/-- A command by way of an object, by a principal: one that may not access it is refused. -/
def objCmd (p : Prin) (index sub : Nat) (f : State → Nat × State) (s : State) : State :=
  commanded (fun s => if mayTouch p index sub then f s else (abPrin, s)) s

/-! ## Mirrored commands (R595) -/

/-- A command of the kind that a twin pair mirrors: refused on a FOLLOW; on a LEAD judged now and applied on both twins at
the second step boundary from here; carried out at once on any other device. -/
def mirrorGate (m : Mirror) (f : State → Nat × State) (s : State) : Nat × State :=
  match s.span.twin with
  | .follow => (abState, s)
  | .lead =>
    let r := f s
    if r.1 ≠ 0 then r
    else (0, { s with span := { s.span with mirror := s.span.mirror ++ [(2, m)], accepted := s.span.accepted ++ [m] } })
  | _ => f s

/-! ## Completion entries (R162) -/

/-- The phase bit of running entry number `n` in a queue of `size`: 1 on the first pass, then alternating. -/
def cqPhase (n size : Nat) : Nat := if n / size % 2 = 0 then 1 else 0

/-- A completion entry's 16 bytes. -/
def cqWord (result result2 sqHead tag detail code opcode phase : Nat) : BitVec 128 :=
  BitVec.ofNat 128 (result % 2 ^ 32 * 2 ^ 96 + result2 % 2 ^ 32 * 2 ^ 64 + sqHead % 65536 * 2 ^ 48 + tag % 65536 * 2 ^ 32
    + detail % 256 * 2 ^ 24 + code % 256 * 2 ^ 16 + opcode % 256 * 2 ^ 8 + phase % 2)

/-! ## Status images -/

/-- QPSTAT (R388). -/
def qpStat (p : Qp) (places : Nat) : Nat :=
  (match p.st with | .disabled => 0 | .active => 1 | .reinit => 2 | .refused => 3) * 2 ^ 30
    + (if p.st == .refused then p.reason else 0) * 2 ^ 26 + (if p.starved then 2 ^ 25 else 0) + places % 8192 * 2 ^ 12

/-- A core's record (R257). -/
def coreRecord (c : Core) : Nat :=
  (match c.st with | .inService => 0 | .fencing => 1 | .fenced => 2 | .testing => 3 | .held => 4) * 2 ^ 28
    + c.reason * 2 ^ 24 + c.count % 256 * 2 ^ 16

/-- COREWI (R643): the running work item and those held. -/
def coreWi (c : Core) : Nat :=
  (if c.work.isSome then 32 else 0) + (c.queue.length + (if c.work.isSome then 1 else 0)) % 32

/-- XLINVSTAT (R374). -/
def invStat (p : Qp) : Nat :=
  p.invDone % 256 * 256 + (if p.invRefused then 4 else 0) + (if p.invOverrun then 2 else 0) + (if p.invBusy then 1 else 0)

/-- 2000:01 as a number (R699). -/
def devStateNum (d : DevState) : Nat :=
  match d with | .starting => 1 | .ready => 2 | .quiescing => 3 | .reset => 4 | .failed => 5 | .shutdown => 6

/-- 2101:01 as a number (R45). -/
def clkStateNum (c : ClkState) : Nat := match c with | .unlocked => 0 | .locked => 1 | .overrun => 2 | .coast => 3

/-- The device acts on commands: neither in reset, nor powered down, nor past the quiesce of a reset. -/
def live (s : State) : Bool := s.pwr.dev == .starting || s.pwr.dev == .ready || s.pwr.dev == .failed

end Sys2Proof.Machine
end

