-- ==== Sys2Proof/Machine/Operands.lean ====
section
/-! DEFINITION. The operand forms: the fields of the nine descriptors and of the common header with their checks 3 and
5 (R121 to R161), the layouts of blocks, pages and summary records (R134, R141, R175, R186), and the fields of the
registers that carry a command. -/

namespace Sys2Proof.Machine

/-! ## The common header (R122) -/

def dOpcode (d : Desc) : Nat := fld d 7 0
def dIrq (d : Desc) : Bool := fld d 8 8 == 1
def dFence (d : Desc) : Bool := fld d 9 9 == 1
def dTag (d : Desc) : Nat := fld d 31 16
def dCtx (d : Desc) : Nat := fld d 43 32
def dLayer (d : Desc) : Nat := fld d 57 48
def dPasid (d : Desc) : Nat := fld d 83 64

/-- Known opcodes (R121). -/
def opKnown (op : Nat) : Bool := decide (1 ≤ op ∧ op ≤ 9)

/-- The descriptor changes a context (R126). -/
def opChanges (op : Nat) : Bool := op == 2 || op == 3 || op == 4 || op == 5 || op == 8 || op == 9

/-! ### ATTEND (R130) -/

def aSinks (d : Desc) : Nat := fld d 459 448
def aWindow (d : Desc) : Nat := fld d 439 416
def aDeadline (d : Desc) : Nat := fld d 415 400
def aMode (d : Desc) : Nat := fld d 393 392
def aOfmt (d : Desc) : Nat := fld d 391 388
def aQfmt (d : Desc) : Nat := fld d 387 384
def aRowres (d : Desc) : Bool := fld d 383 383 == 1
def aAlibi (d : Desc) : Bool := fld d 382 382 == 1
def aSoftcap (d : Desc) : Bool := fld d 381 381 == 1
def aDrafts (d : Desc) : Nat := fld d 380 376
def aGroup (d : Desc) : Nat := fld d 375 368
def aF0 (d : Desc) : Nat := fld d 367 352
def aTau (d : Desc) : Nat := fld d 351 320
def aCap (d : Desc) : Nat := fld d 319 288
def aScale (d : Desc) : Nat := fld d 287 256
def aPush (d : Desc) : Bool := fld d 255 255 == 1
def aOut (d : Desc) : Nat := fld d 248 192
def aIn (d : Desc) : Nat := fld d 184 128

/-! ### APPEND (R140) -/

def pRotDims (d : Desc) : Nat := fld d 329 320
def pPosScale (d : Desc) : Nat := fld d 319 288
def pTheta (d : Desc) : Nat := fld d 287 256
def pPos (d : Desc) : Nat := fld d 255 224
def pHalves (d : Desc) : Bool := fld d 213 213 == 1
def pRotate (d : Desc) : Bool := fld d 212 212 == 1
def pSrcFmt (d : Desc) : Nat := fld d 211 208
def pTokens (d : Desc) : Nat := fld d 207 192 + 1
def pSrc (d : Desc) : Nat := fld d 184 128

/-! ### FORK, TRIM and the range descriptors (R148, R152, R156) -/

def fPrefix (d : Desc) : Nat := fld d 191 160
def fDst (d : Desc) : Nat := fld d 139 128
def tSinks (d : Desc) : Nat := fld d 203 192
def tKeep (d : Desc) : Nat := fld d 191 160
def tLen (d : Desc) : Nat := fld d 159 128
def rFmt (d : Desc) : Nat := fld d 219 216
def rOpt (d : Desc) : Bool := fld d 212 212 == 1
def rTier (d : Desc) : Nat := fld d 211 208
def rLayers (d : Desc) : Nat := fld d 202 192
def rLast (d : Desc) : Nat := fld d 183 160
def rFirst (d : Desc) : Nat := fld d 151 128

/-! ## Check 3: reserved fields, as (high bit, low bit), in ascending order (R5, R125) -/

def reservedHeader : List (Nat × Nat) := [(15, 10), (47, 44), (63, 58), (127, 84)]

def reservedOf (op : Nat) : List (Nat × Nat) :=
  reservedHeader ++
    (if op = 1 then [(191, 185), (254, 249), (399, 394), (447, 440), (463, 460), (511, 464)]
     else if op = 2 then [(191, 185), (223, 214), (335, 330), (511, 336)]
     else if op = 3 then [(159, 140), (511, 192)]
     else if op = 4 then [(511, 204)]
     else [(159, 152), (191, 184), (207, 203), (215, 213), (223, 220), (511, 224)])

/-- The byte of the first reserved field that is not 0. -/
def reservedBad (d : Desc) : Option Nat :=
  ((reservedOf (dOpcode d)).find? fun r => fld d r.1 r.2 != 0).map fun r => r.2 / 8

/-! ## Check 5: field values (R124, R125, R131, R140, R157) -/

/-- A context's geometry: Dk and Dv of its dkc, its KV heads and layers (R63, R169). -/
def ctxDk (c : Ctx) : Nat := if c.dkc = 0 then 64 else if c.dkc = 1 then 128 else if c.dkc = 2 then 256 else 576
def ctxDv (c : Ctx) : Nat := if c.dkc = 3 then 512 else ctxDk c
def ctxHeads (c : Ctx) : Nat := c.headsM1 + 1
def ctxLayers (c : Ctx) : Nat := c.layersM1 + 1
def ctxLatent (c : Ctx) : Bool := c.dkc == 3

/-- Layers of a range: 0 means through the last layer (R156). -/
def rangeLayers (d : Desc) (c : Ctx) : Nat := if rLayers d = 0 then ctxLayers c - dLayer d else rLayers d

/-- The rules of a descriptor as (byte offset, holds), in ascending order of the offset (R125). -/
def fieldRules (d : Desc) (c : Ctx) (pier : Bool) : List (Nat × Bool) :=
  let op := dOpcode d
  if op = 1 then
    let modeOk := decide (aMode d ≤ 2)
    let groupOk := decide (1 ≤ aGroup d ∧ aGroup d ≤ 128)
    let draftOk := decide (aDrafts d ≤ 16)
    let tau := fmtVal fmtF32 (aTau d)
    [ (6, decide (dLayer d < ctxLayers c)),
      (16, decide (aIn d % 64 = 0)),
      (24, decide (aOut d % 64 = 0)),
      (31, !aPush d || pier),
      (32, f32Positive (aScale d)),
      (36, if aSoftcap d then f32Positive (aCap d) else decide (aCap d = 0)),
      (40, !modeOk || (if aMode d = 2 then f32Positive (aTau d) && dyLt tau (dyOf 1) else decide (aTau d = 0))),
      (44, !modeOk || aMode d != 0 || decide (aF0 d = 0)),
      (46, groupOk && (!draftOk || decide (aGroup d * max (aDrafts d) 1 ≤ 128))),
      (47, draftOk),
      (48, fmtQuery (aQfmt d) && fmtOut (aOfmt d)),
      (49, modeOk) ]
  else if op = 2 then
    let theta := decide (pTheta d = 0) || (f32Finite (pTheta d) && dyLt (dyOf 1) (fmtVal fmtF32 (pTheta d)))
    let scale := decide (pPosScale d = 0) || f32Positive (pPosScale d)
    let dims := decide (pRotDims d = 0) || (if ctxLatent c then decide (pRotDims d = 64)
      else decide (pRotDims d % 2 = 0) && decide (2 ≤ pRotDims d) && decide (pRotDims d ≤ ctxDk c))
    let tied := fun (own : Bool) (v : Nat) => !own || (pRotate d != decide (v = 0))
    [ (6, decide (dLayer d = 0)),
      (16, decide (pSrc d % 64 = 0)),
      (26, fmtKv (pSrcFmt d) && (if pRotate d then decide (pSrcFmt d ≤ 1) else !pHalves d)
        && tied theta (pTheta d) && tied scale (pPosScale d) && tied dims (pRotDims d)),
      (32, theta),
      (36, scale),
      (40, dims) ]
  else if op = 3 || op = 4 then [ (6, decide (dLayer d = 0)) ]
  else
    [ (6, decide (dLayer d < ctxLayers c) && (decide (1024 < rLayers d) || decide (dLayer d + rLayers d ≤ ctxLayers c))),
      (16, decide (rFirst d ≤ rLast d)),
      (24, decide (rLayers d ≤ 1024)),
      (26, (if op = 5 || op = 9 then decide (rTier d = 0) else if op = 8 then decide (rTier d = 1 ∨ rTier d = 2)
            else decide (rTier d ≤ 1)) && (op != 5 || !rOpt d)),
      (27, if op = 9 then fmtKv (rFmt d) else decide (rFmt d = 0)) ]

/-- The offset of the first rule that fails. -/
def fieldBad (d : Desc) (c : Ctx) (pier : Bool) : Option Nat := ((fieldRules d c pier).find? fun r => !r.2).map (·.1)

/-! ## Blocks (R134, R137, R141, R530) -/

/-- Query rows per KV head: G × max(P, 1), and all of them (R133). -/
def rowsPerHead (d : Desc) : Nat := aGroup d * max (aDrafts d) 1
def rowsAll (d : Desc) (c : Ctx) : Nat := ctxHeads c * rowsPerHead d

/-- Offsets of the sections of an ATTEND's input block: queries, slopes, draft K, draft V, tree, and its end; each
begins at the next 64-byte boundary (R134). -/
def inSections (d : Desc) (c : Ctx) : Nat × Nat × Nat × Nat × Nat × Nat :=
  let h := ctxHeads c
  let q := rowsAll d c * vecBytes (aQfmt d) (ctxDk c)
  let sl := roundUp q 64
  let dk := roundUp (sl + if aAlibi d then h * aGroup d * 4 else 0) 64
  let dv := roundUp (dk + h * aDrafts d * vecBytes c.fmt (ctxDk c)) 64
  let tr := roundUp (dv + if ctxLatent c then 0 else h * aDrafts d * vecBytes c.fmt (ctxDv c)) 64
  (0, sl, dk, dv, tr, tr + if aDrafts d = 0 then 0 else 64)

/-- Bytes of the input block. -/
def inBytes (d : Desc) (c : Ctx) : Nat := (inSections d c).2.2.2.2.2

/-- Bytes of the output rows, and of the whole output block with its residuals (R137). -/
def outRows (d : Desc) (c : Ctx) : Nat := rowsAll d c * vecBytes (aOfmt d) (ctxDv c)
def outBytes (d : Desc) (c : Ctx) : Nat :=
  if aRowres d then roundUp (outRows d c) 64 + 4 * rowsAll d c else outRows d c

/-- Bytes of one layer section of an APPEND's source block, and the section's pitch (R141). -/
def srcSection (d : Desc) (c : Ctx) : Nat :=
  ctxHeads c * pTokens d * (vecBytes (pSrcFmt d) (ctxDk c) + if ctxLatent c then 0 else vecBytes (pSrcFmt d) (ctxDv c))
def srcPitch (d : Desc) (c : Ctx) : Nat := roundUp (srcSection d c) 64
def srcBytes (d : Desc) (c : Ctx) : Nat := (ctxLayers c - 1) * srcPitch d c + srcSection d c

/-- The length L of a descriptor at its toll (R530): mode 2 counts items, the others the blocks. -/
def descLength (d : Desc) (c : Ctx) (mode : Nat) : Nat :=
  if mode = 2 then 1
  else 64 + (if dOpcode d = 1 then inBytes d c + outBytes d c else if dOpcode d = 2 then srcBytes d c else 0)

/-! ## Pages (R174 to R176) -/

/-- Bytes of the K section with its scales, and of the V section with its scales, of one tile (R175). -/
def tileK (fmt dk : Nat) : Nat := 64 * vecBytes fmt dk
def tileV (fmt dv : Nat) (latent : Bool) : Nat := if latent then 0 else 64 * vecBytes fmt dv
def tileBytes (c : Ctx) (fmt : Nat) : Nat := tileK fmt (ctxDk c) + tileV fmt (ctxDv c) (ctxLatent c)

/-- Bytes of a page, and of its frame (R176). -/
def pageBytes (c : Ctx) (fmt : Nat) : Nat := ctxHeads c * tileBytes c fmt
def frameBytes (c : Ctx) (fmt : Nat) : Nat := roundUp (pageBytes c fmt) 4096

/-- The offset of a key (or value) vector's elements and of its scale bytes in the page: head, position in the page. -/
def keyOffset (c : Ctx) (fmt h k : Nat) : Nat := h * tileBytes c fmt + k * vecElemBytes fmt (ctxDk c)
def keyScaleOffset (c : Ctx) (fmt h k : Nat) : Nat :=
  h * tileBytes c fmt + 64 * vecElemBytes fmt (ctxDk c) + k * (ctxDk c / 32)
def valOffset (c : Ctx) (fmt h k : Nat) : Nat :=
  h * tileBytes c fmt + tileK fmt (ctxDk c) + k * vecElemBytes fmt (ctxDv c)
def valScaleOffset (c : Ctx) (fmt h k : Nat) : Nat :=
  h * tileBytes c fmt + tileK fmt (ctxDk c) + 64 * vecElemBytes fmt (ctxDv c) + k * (ctxDv c / 32)

/-- Bytes of one head's summary vectors, and of a summary record (R186). -/
def sumHead (c : Ctx) : Nat := 2 * (ctxDk c + ctxDk c / 32)
def sumRecord (c : Ctx) : Nat := roundUp (ctxHeads c * sumHead c) 64

/-- Bytes of a summary block (R179). -/
def sumBlock (c : Ctx) : Nat := roundUp (512 * sumRecord c) 4096

/-- The place of page `p`'s record in its summary block: lane order (p mod L, p) (R187). -/
def sumIndex (lanes p : Nat) : Nat :=
  let b := p / 512 * 512
  let l := max lanes 1
  ((List.range 512).filter fun i =>
    decide ((b + i) % l < p % l) || (decide ((b + i) % l = p % l) && decide (b + i < p))).length

/-- A KAF message of an opcode with every other field 0 (R468). -/
def kafOf (op : Nat) : KafMsg :=
  { op := op, mask := 0, addr := 0, pasid := 0, tag := 0, fwdTag := 0, fwdAgent := 0, srcDev := 0, code := 0, delay := 0
    data := [] }

/-! ## Register fields that carry a command -/

/-- TIERHINT (R218): pages, first page, context, kind, and the reserved bits. -/
def hintPages (v : BitVec 64) : Nat := fld v 63 46
def hintFirst (v : BitVec 64) : Nat := fld v 45 28
def hintCtx (v : BitVec 64) : Nat := fld v 27 16
def hintKind (v : BitVec 64) : Nat := fld v 13 12
def hintReserved (v : BitVec 64) : Bool := fld v 15 14 != 0 || fld v 11 0 != 0

end Sys2Proof.Machine
end

