-- ==== Sys2Proof/Machine/Queues.lean ====
section
/-! DEFINITION. Queue pairs, doorbells, admission, tolls on descriptors, completion entries, interrupts and sampling
(R383 to R391, R402 to R409, R529 to R536, R539 to R542, R644 to R647). -/

namespace Sys2Proof.Machine

/-! ## The queue window (R384, R644) -/

/-- The queue pairs a tenant holds, in ascending global number (R384). -/
def tenantQps (s : State) (t : Nat) : List Nat :=
  (s.led.qps.filter fun p => p.2.tenant == t && p.2.st != .disabled).map (·.1)

/-- The global number that an instance's TQSEL selects (R384). -/
def winQp (s : State) : Win → Option Nat
  | .steward => some (tget 0 s.win.qpSel 64)
  | .tenant t => (tenantQps s t.val)[tget 0 s.win.qpSel t.val]?

def sqSize (p : Qp) : Nat := 2 ^ p.sqLog
def cqSize (p : Qp) : Nat := 2 ^ p.cqLog

/-- Submitted descriptors not yet read (R644). -/
def sqCount (p : Qp) : Nat := (p.tail + sqSize p - p.rd) % sqSize p

/-- The I/O die that holds a queue pair (R21). -/
def qpDie (q : Nat) : Nat := if q < 512 then 0 else 1

/-- Flights of a tenant on a die, and of a queue pair, that hold an admission place (R402). -/
def placesHeld (s : State) (t die : Nat) : Nat :=
  (s.attn.flights.filter fun f => f.place && f.tenant == t && qpDie f.qp == die).length
def qpPlaces (s : State) (q : Nat) : Nat := (s.attn.flights.filter fun f => f.place && f.qp == q).length

/-- Guaranteed count and ceiling of a tenant on a die (R410). -/
def guarOf (s : State) (t die : Nat) : Nat := obj s (0x3001 + 16 * t) (if die = 0 then 1 else 3)
def ceilOf (s : State) (t die : Nat) : Nat := obj s (0x3001 + 16 * t) (if die = 0 then 2 else 4)

/-- The tenants that are not FREE. -/
def liveTenants (s : State) : List Nat := (s.led.tens.filter fun p => p.2.st != .free).map (·.1)

/-- A shared place is free on the die (R402; a FREE tenant's guarantee is held by nobody). -/
def sharedFree (s : State) (die : Nat) : Bool :=
  let ts := liveTenants s
  decide ((ts.foldl (fun a t => a + (placesHeld s t die - guarOf s t die)) 0)
    < 4096 - ts.foldl (fun a t => a + guarOf s t die) 0)

/-- A place can be taken for the tenant (R403). -/
def placeFree (s : State) (t die : Nat) : Bool :=
  let held := placesHeld s t die
  decide (held < guarOf s t die) || (decide (held < ceilOf s t die) && sharedFree s die)

/-- The queue pair has a head descriptor and a completion entry to reserve for it (R403). -/
def headReady (p : Qp) : Bool :=
  p.st == .active && decide (0 < sqCount p) && decide (p.reserved - p.consumed < cqSize p)

/-- A queue pair starts or stops being starved (R403): its hold time runs while it is. -/
def markStarved1 (s : State) (q : Nat) : State :=
  let p := qpOf s q
  if headReady p && !placeFree s p.tenant (qpDie q) then
    if p.starved then s else setQp q { p with starved := true, starvedAt := some s.time.cycle } s
  else if p.starved && !headReady p then setQp q { p with starved := false, starvedAt := none } s
  else s

/-- The scheduler looks at every queue pair. -/
def markStarved (s : State) : State := (s.led.qps.map (·.1)).foldl markStarved1 s

/-! ## Doorbells (R645, R646) -/

/-- SQTAIL: an accepted tail shows the new descriptors from now on; the other writes set bad. -/
def sqTail (w : Win) (v : BitVec 32) (s : State) : State :=
  match winQp s w with
  | none => s
  | some q =>
    let p := qpOf s q
    let tail := fld v 9 0
    let add := (tail + sqSize p - p.tail) % sqSize p
    if p.st ≠ .active ∨ sqSize p ≤ tail ∨ sqSize p - 1 < sqCount p + add then setQp q { p with sqBad := true } s
    else
      let at_ := (List.range add).foldl (fun t i => tins t ((p.tail + i) % sqSize p) s.time.cycle) p.sqAt
      markStarved (setQp q { p with tail := tail, sqBad := false, sqAt := at_ } s)

/-- CQHEAD: consumed entries are those up to the head; it never passes an entry that has not been written. -/
def cqHead (w : Win) (v : BitVec 32) (s : State) : State :=
  match winQp s w with
  | none => s
  | some q =>
    let p := qpOf s q
    let head := fld v 11 0
    let n := (head + cqSize p - p.consumed % cqSize p) % cqSize p
    let ok := (List.range n).all fun i => p.done.contains (p.consumed + i)
    if (p.st ≠ .active ∧ p.st ≠ .reinit) ∨ cqSize p ≤ head ∨ !ok then setQp q { p with cqBad := true } s
    else markStarved (setQp q { p with
      consumed := p.consumed + n, cqBad := false, done := p.done.filter fun i => decide (p.consumed + n ≤ i) } s)

/-! ## Tolls (R529 to R536) -/

/-- A toll's object index and the subindex before its record: 0 to 63 the descriptor tolls, 64 to 127 the direct
tolls, 128 to 141 the port tolls (R529, R537). -/
def tollObj (k : Nat) : Nat × Nat :=
  if k < 64 then (0x3002 + 16 * k, 0) else if k < 128 then (0x3003 + 16 * (k - 64), 0) else (0x5100, (k - 128) * 16)

/-- Field `i` of a toll record in force. -/
def tollField (s : State) (k i : Nat) : Nat := obj s (tollObj k).1 ((tollObj k).2 + i)

/-- The rate and depth of a toll's buckets: committed, peak. The migration tolls (200: the device's, 300 + t: tenant
t's) are single-rate in bytes, 10^9 bytes per second per GB/s, with a depth of 8 MiB (R227, R529). -/
def tollRates (s : State) (k : Nat) : Nat × Nat × Nat × Nat :=
  if k = 200 then let r := obj s 0x4300 4 * 1000; (r, 8388608, r, 8388608)
  else if 300 ≤ k then let r := obj s 0x4300 4 * obj s 0x4300 5 * 10; (r, 8388608, r, 8388608)
  else (tollField s k 2, tollField s k 3, tollField s k 4, tollField s k 5)

/-- The toll with its tokens brought up to this cycle: 10^6 units a second are 1/2000 unit a truss cycle (R531). A toll
that has not been used since it was enabled is full. -/
def tollNow (s : State) (k : Nat) : Toll :=
  let t := tget ({} : Toll) s.shape.tolls k
  let (cir, cbs, pir, pbs) := tollRates s k
  if !t.on then { t with on := true, tc := cbs * 2000, tp := pbs * 2000, at_ := s.time.cycle }
  else
    let n := s.time.cycle - t.at_
    { t with tc := min (cbs * 2000) (t.tc + n * cir), tp := min (pbs * 2000) (t.tp + n * pir), at_ := s.time.cycle }

def setToll (k : Nat) (t : Toll) (s : State) : State :=
  s.setShape fun h => { h with tolls := tput ({} : Toll) h.tolls k t }

/-- The colour of an item of length `len` (R532): 0 green, 1 yellow, 2 red. -/
def tollColour (t : Toll) (aware : Bool) (cin len : Nat) : Nat :=
  let c := if aware then cin else 0
  if c = 2 ∨ t.tp < len * 2000 then 2 else if c = 1 ∨ t.tc < len * 2000 then 1 else 0

/-- The tokens a settled colour takes at marking. -/
def tollTake (t : Toll) (colour len : Nat) : Toll :=
  if colour = 0 then { t with tc := t.tc - len * 2000, tp := t.tp - len * 2000 }
  else if colour = 1 then { t with tp := t.tp - len * 2000 } else t

/-- An item of a settled colour takes its tokens at toll `k`, and passes or is held there: behind an earlier item; red; or yellow
while the committed bucket is below its length, or below its depth for a longer item (R532 to R536). `true`: it is held. -/
def tollSettle (k item len col cin : Nat) (s : State) : Bool × State :=
  let t := tollNow s k
  let t' := tollTake t col len
  let need := min len (tollRates s k).2.1 * 2000
  if !t.queue.isEmpty ∨ col = 2 ∨ (col = 1 ∧ tollField s k 9 = 0 ∧ t.tc < need) then
    (true, setToll k { t' with queue := t'.queue ++ [(item, len, col, cin)] } s)
  else (false, setToll k (if col = 1 ∧ tollField s k 9 = 0 then { t' with tc := t'.tc - need } else t') s)

/-- What a toll does with an item: it passes, waits, or is refused. -/
inductive TollRes where
  | pass | wait | refuse
  deriving DecidableEq, Repr

/-- Mark one item at its one toll (R532 to R536): counts the colour and settles it, or refuses it. -/
def tollMark (k item len cin : Nat) (s : State) : TollRes × State :=
  if tollField s k 1 = 0 then (.pass, s)
  else
    let t := tollNow s k
    let col := tollColour t (tollField s k 6 == 1) cin len
    let (ix, sb) := tollObj k
    let s := bumpObj ix (sb + 0x0A + col) 1 64 s
    if col = 2 ∧ tollField s k 8 = 0 then (.refuse, setToll k t s)
    else
      let (held, s) := tollSettle k item len col cin s
      (if held then .wait else .pass, s)

/-- Cycles until a bucket of `have_` reaches `need`, at `rate` a cycle. -/
def tollWait (have_ need rate : Nat) : Option Nat :=
  if need ≤ have_ then some 0 else if rate = 0 then none else some (ceilDiv (need - have_) rate)

/-- When the head item of a toll can be released: cycles from now (R534, R536). -/
def tollDue (s : State) (k : Nat) : Option Nat :=
  let t := tollNow s k
  let (cir, cbs, pir, pbs) := tollRates s k
  match t.queue with
  | [] => none
  | (_, len, col, cin) :: _ =>
    if 200 ≤ k then tollWait t.tc (min len cbs * 2000) cir
    else if tollField s k 1 = 0 then some 0
    else if col = 0 ∨ (col = 1 ∧ tollField s k 9 = 1) then some 0
    else if col = 1 then tollWait t.tc (min len cbs * 2000) cir
    else if pbs < len ∨ (cin = 2 ∧ tollField s k 6 = 1) then none else tollWait t.tp (len * 2000) pir

/-- Release the head item; a red item is coloured again and, when yellow, waits on as yellow (R534, R536). -/
def tollPop (k : Nat) (s : State) : Option Nat × State :=
  let t := tollNow s k
  let (_, cbs, _, _) := tollRates s k
  match t.queue with
  | [] => (none, s)
  | (item, len, col, cin) :: rest =>
    if 200 ≤ k then (some item, setToll k { t with tc := t.tc - min len cbs * 2000, queue := rest } s)
    else if tollField s k 1 = 0 then (some item, setToll k { t with queue := rest } s)
    else if col = 0 ∨ (col = 1 ∧ tollField s k 9 = 1) then (some item, setToll k { t with queue := rest } s)
    else if col = 1 then
      if min len cbs * 2000 ≤ t.tc then
        (some item, setToll k { t with tc := t.tc - min len cbs * 2000, queue := rest } s)
      else (none, setToll k t s)
    else
      let c := tollColour t (tollField s k 6 == 1) cin len
      if c = 0 then (some item, setToll k { tollTake t 0 len with queue := rest } s)
      else if c = 1 then (none, setToll k { tollTake t 1 len with queue := (item, len, 1, cin) :: rest } s)
      else (none, setToll k t s)

/-- An item leaves every toll that holds it. -/
def tollLeave (id : Nat) (s : State) : State :=
  s.setShape fun h => { h with tolls := h.tolls.map fun t => (t.1, { t.2 with queue := t.2.queue.filter fun i => i.1 != id }) }

/-! ## Flights -/

def flightOf (s : State) (id : Nat) : Option Flight := s.attn.flights.find? fun f => f.id == id

/-- Replace a flight. -/
def setFlight (f : Flight) (s : State) : State :=
  s.setAttn fun a => { a with flights := a.flights.map fun g => if g.id = f.id then f else g }

/-- A hold of R405 begins, or ends: the cycles add up (R406). -/
def holdBegin (toll : Bool) (now : Nat) (f : Flight) : Flight :=
  if f.heldAt.isSome then f else { f with held := true, heldAt := some now, forToll := toll }
def holdEnd (now : Nat) (f : Flight) : Flight :=
  match f.heldAt with
  | none => f
  | some c => { f with heldAt := none, heldFor := f.heldFor + (now - c) }

/-- The hold limit of a tenant, in truss cycles (R406). -/
def holdLimit (s : State) (t : Nat) : Nat := usCycles (obj s (0x3001 + 16 * t) 5)

/-! ## Interrupts (R390, R391) -/

/-- The queue pair's interrupt reaches its partner as the binding says (R473, R556); the count restarts. -/
def raiseIrq (q : Nat) (s : State) : State :=
  let p := qpOf s q
  let s := setQp q { p with irqCount := 0, irqAt := none } s
  match p.bindKind with
  | 1 => sendBypass p.bindPort (BitVec.ofNat 256 (0x60 + p.irqVec * 2 ^ 8)) s
  | 2 => if bitsOf (obj s 0x5200 (p.bindPort + 1)) 31 28 = 2 then emit (.msix p.bindPort p.irqVec) s else s
  | 4 => emit (.stewardIrq p.irqVec) s
  | _ => s

/-- A written entry counts toward the interrupt (R390); an Ethernet binding has none. -/
def countIrq (q : Nat) (s : State) : State :=
  let p := qpOf s q
  if p.bindKind = 3 ∨ p.bindKind = 0 then s
  else
    let n := p.irqCount + 1
    if p.coalCount ≤ n then raiseIrq q s
    else setQp q { p with irqCount := n, irqAt := if p.irqAt.isSome then p.irqAt else some s.time.cycle } s

/-! ## Samples (R539 to R541) -/

/-- The histogram bin of a delay in ns (R540). -/
def delayBin (ns : Nat) : Nat := if ns < 1000 then 0 else min 15 (Nat.log2 (ns / 1000) + 1)

/-- A delay is measured when the entry is written. -/
def sampleDelay (q ns : Nat) (s : State) : State :=
  s.setLed fun l => { l with samples := tmod ({} : Sample) l.samples q fun r =>
    { r with hist := r.hist.modify (delayBin ns) (fun n => min 65535 (n + 1))
             delayMax := max r.delayMax (min ns (2 ^ 32 - 1)) } }

/-- All ACTIVE queue pairs are sampled (R539). -/
def sampleAll (s : State) : State :=
  let take := fun (s : State) (q : Nat) =>
    let p := qpOf s q
    if p.st == .active then
      let depth := sqCount p + (s.attn.flights.filter fun f => f.qp == q).length
      s.setLed fun l => { l with samples := tmod ({} : Sample) l.samples q fun r =>
        { r with samples := (r.samples + 1) % 2 ^ 64, depthSum := (r.depthSum + depth) % 2 ^ 64
                 depthMax := max r.depthMax depth, placesMax := max r.placesMax (qpPlaces s q) } }
    else s
  let s := (s.led.qps.map (·.1)).foldl take s
  s.setLed fun l => { l with sampledAt := s.time.cycle }

/-! ## Completion (R162 to R166, R391, R404, R409) -/

/-- The code an entry carries: DEFERRED for a held descriptor that was carried out (R164, R404). -/
def finalCode (f : Flight) (code : Nat) : Nat := if code = 0 ∧ f.held then ccDeferred else code

/-- The subindex of b+5 that counts a descriptor's treatment (R404, R409). -/
def treatment (f : Flight) (code detail : Nat) : Nat :=
  if code = ccRate then 3 else if code = ccFull ∧ detail = 0 then 4 else if f.held then 2 else 1

/-- Result fields are defined for DONE and DEFERRED, for the codes of the range descriptors, and for an APPEND's
unchanged length (R163). -/
def keepResults (op code : Nat) : Bool := code == 0 || code == ccDeferred || decide (5 ≤ op) && op != 1

/-- The unchanged length that a failing APPEND reports: 0 for a context that its tenant does not hold (R163). -/
def lengthSeen (s : State) (f : Flight) : Nat :=
  let x := ctxOf s (dCtx f.desc)
  if x.st ≠ .free ∧ x.tenant = f.tenant then x.length else 0

/-! ### Buckets of answers (R597, R598) -/

/-- CRC-64 (ECMA-182): polynomial 0x42F0E1EBA9EA3693, most significant bit first. -/
def crcBit (c : Nat) : Nat := if 2 ^ 63 ≤ c then (c * 2 % 2 ^ 64) ^^^ 0x42F0E1EBA9EA3693 else c * 2
def crcByte (c : Nat) (b : Byte) : Nat := (List.range 8).foldl (fun c _ => crcBit c) (c ^^^ (b.toNat * 2 ^ 56))
def crc64 (bs : List Byte) : Nat := bs.foldl crcByte 0

/-- The device is one of a pair that answers and compares. -/
def paired (s : State) : Bool := s.span.twin == .lead || s.span.twin == .follow

/-- An answer enters its bucket: the bytes of its key, its code with DEFERRED taken as DONE, and its data or result fields
(log entry 27); an ATTEND's output adds its statistics. A bucket of 1,024 answers closes. -/
def bucketAdd (key seq code : Nat) (bs : List Byte) (dig : Option (BitVec 256)) (s : State) : State :=
  if !paired s then s
  else
    let cc := if code = ccDeferred then 0 else code
    let k := key * 2 ^ 32 + seq / 1024
    let b := tget ({} : Bucket) s.span.buckets k
    let b := if b.count = 0 then { b with since := s.mem.logWr } else b
    let b := { b with count := b.count + 1, bad := if cc = 0 then b.bad else b.bad + 1
                      crc := (b.crc + crc64 (leBytes key 2 ++ leBytes seq 4 ++ leBytes cc 1 ++ bs)) % 2 ^ 64 }
    let b := match dig with
      | none => b
      | some d => { b with n := b.n + fld d 255 192, sum := f64Add b.sum (fld d 191 128), sumsq := f64Add b.sumsq (fld d 127 64)
                           maxabs := f32Enc (dyMax (fmtVal fmtF32 b.maxabs) (fmtVal fmtF32 (fld d 63 32))) }
    if b.count < 1024 then { s with span := { s.span with buckets := tput ({} : Bucket) s.span.buckets k b } }
    else { s with span := { s.span with
      buckets := tput ({} : Bucket) s.span.buckets k {}, closed := tput ({} : Bucket) s.span.closed k b
      fresh := s.span.fresh ++ [k] } }

/-- The KAF links toward an index: to its device or lead twin, and to its follow twin (R578, R579). -/
def routesTo (s : State) (i : Nat) : List Nat :=
  let r := objDom s 0x8000 3
  ([0, 1].map fun j => (r.getD (2 * i + j) 0xFF).toNat).filterMap fun b => if b < 4 && linkUp s (8 + b) then some (8 + b) else none

/-- A member's flight carries the entry device's index above the queue pair numbers, and its number there as `seq`; it ends
with a report of its code and results (R584; kind 4 on a span). -/
def memberReport (f : Flight) (code detail r1 r2 : Nat) (s : State) : State :=
  (routesTo s (f.qp - 1024)).foldl (fun s l => emit (.span l 4 f.seq
    (leBytes code 1 ++ leBytes detail 1 ++ leBytes r1 4 ++ leBytes r2 4 ++ leBytes f.rounds 1)) s) s

/-- Write a flight's completion entry into the slot reserved for it and let everything follow that the entry causes:
the CQPUSH copy before the interrupt's count, the counts, the sample, the record of R660, the trace. -/
def complete (id code detail r1 r2 : Nat) (s : State) : State :=
  match flightOf s id with
  | none => s
  | some f0 =>
    let s := givePrep f0 s
    if steppedDown s then s.setAttn fun a => { a with flights := a.flights.filter fun g => g.id != id }
    else if 1024 ≤ f0.qp then
      memberReport f0 code detail r1 r2 (s.setAttn fun a => { a with flights := a.flights.filter fun g => g.id != id })
    else
    let s := if f0.stage = .tolled then tollLeave id s else s
    let f := holdEnd s.time.cycle f0
    let p := qpOf s f.qp
    let op := dOpcode f.desc
    let cc := finalCode f code
    let keep := keepResults op cc || (op == 2)
    let r1 := if op == 2 && !keepResults op cc then lengthSeen s f else r1
    let w := cqWord (if keep then r1 else 0) (if keep && (op != 2 || cc == 0 || cc == ccDeferred) then r2 else 0)
      p.rd (dTag f.desc) detail cc op (cqPhase f.slot (cqSize p))
    let s := setQp f.qp { p with cq := tins p.cq (f.slot % cqSize p) w, done := p.done ++ [f.slot] } s
    let s := s.setAttn fun a => { a with
      flights := a.flights.filter fun g => g.id != id
      fencedRetry := if cc = ccFenced then (a.fencedRetry + 1) % 2 ^ 32 else a.fencedRetry }
    let s := bumpObj (0x3005 + 16 * f.tenant) (treatment f cc detail) 1 64 s
    let s := if cc = ccStale then bumpObj (0x3007 + 16 * f.tenant) 2 1 32 s else s
    let s := s.setTal fun t => { t with
      completed := (t.completed + 1) % 2 ^ 64
      failed := if cc = 0 ∨ cc = ccDeferred then t.failed else (t.failed + 1) % 2 ^ 64
      qpLast := tput [] t.qpLast f.qp
        [dTag f.desc + op * 65536 + cc * 2 ^ 24, f.t1r, f.t1w, f.tiles, s.time.cycle - f.readAt] }
    let s := bucketAdd (64 + f.qp) f.seq cc (if op = 1 then [] else leBytes (fld w 127 64) 8)
      (if op = 1 ∧ (cc = 0 ∨ cc = ccDeferred) then some (tget 0 s.tal.qpDigest f.qp) else none) s
    let s := sampleDelay f.qp ((s.time.cycle - f.shownAt) / 2) s
    let s := traceEvent (qpDie f.qp) (some f.tenant) 0 f.qp f.tenant 0xFF cc 16 3 s
    let s := if s.tal.trigCode ≠ 255 ∧ s.tal.trigCode = cc then traceTriggerSeen s else s
    let s := if p.cqPush then
        sendFor p.bindPort f.tenant { kafOf 0x50 with
          addr := p.pushAddr + pushOffset s + 16 * (f.slot % cqSize p), pasid := dPasid f.desc, tag := 2 ^ 15 + f.slot % 2 ^ 15
          data := leBytes w.toNat 16 } s
      else s
    markStarved (if dIrq f.desc then countIrq f.qp s else s)

/-! ## Reading a descriptor (R125, R403 to R405) -/

/-- The PASID is bound to the tenant (R123, R354). -/
def pasidOf (s : State) (pasid : Nat) : Option (Nat × Nat × Bool) :=
  (s.led.binds.find? fun p => p.1 == pasid).map (·.2)
def pasidHeld (s : State) (pasid t : Nat) : Bool :=
  match pasidOf s pasid with
  | none => false
  | some b => pasid != 0 && b.1 == t

/-- Checks 1 to 5 of R125 in their order: the code and the detail of the first that fails. -/
def readChecks (s : State) (q : Nat) (d : Desc) : Option (Nat × Nat) :=
  let p := qpOf s q
  let c := ctxOf s (dCtx d)
  if (tenantOf s p.tenant).st == .removing then some (ccClosed, 0)
  else if !opKnown (dOpcode d) then some (ccUnsupported, 0)
  else match reservedBad d with
    | some off => some (ccBadDesc, off)
    | none =>
      if c.st ≠ .open ∨ c.tenant ≠ p.tenant then some (ccBadDesc, 0x41)
      else if !pasidHeld s (dPasid d) p.tenant then some (ccBadDesc, 8)
      else (fieldBad d c (p.bindKind == 1)).map fun off => (ccBadDesc, off)

/-- A new flight for the head descriptor of queue pair `q`. -/
def newFlight (s : State) (q : Nat) (place : Bool) : Flight :=
  let p := qpOf s q
  let was := match p.starvedAt with | none => 0 | some c => s.time.cycle - c
  { id := s.attn.nextId, qp := q, tenant := p.tenant, desc := tget 0 p.sq p.rd, seq := p.seq, slot := p.reserved,
    place := place, stage := .waiting, held := p.starved, heldFor := was, heldAt := none, forToll := false,
    readAt := s.time.cycle, shownAt := tget 0 p.sqAt p.rd, input := [], len := 0, cores := [], left := [], parts := [],
    merged := [], due := [], codes := [], tilesRead := 0, tilesAll := 0, rounds := 0, r1 := 0, r2 := 0, acks := 0,
    t1r := 0, t1w := 0, tiles := 0, members := [] }

/-- The scheduler reads the head descriptor, in the cycle after its tail was written at the earliest (R646): it reserves an entry and takes a place (or none), runs checks 1 to 5,
and lets the tenant's descriptor toll mark it (R403, R404). -/
def readHead (q : Nat) (place : Bool) (s : State) : State :=
  let p := qpOf s q
  let s := carryTo (tget 0 p.sqAt p.rd + 1) s
  let f := newFlight s q place
  let s := setQp q { p with rd := (p.rd + 1) % sqSize p, reserved := p.reserved + 1, seq := p.seq + 1
                            starved := false, starvedAt := none } s
  let s := s.setAttn fun a => { a with flights := a.flights ++ [f], nextId := a.nextId + 1 }
  let s := traceEvent (qpDie q) (some p.tenant) 0 q p.tenant 0xFF 0 64 1 s
  match readChecks s q f.desc with
  | some (code, detail) => complete f.id code detail 0 0 s
  | none =>
    if !place then complete f.id ccFull 0 0 0 s
    else
      let len := descLength f.desc (ctxOf s (dCtx f.desc)) (tollField s p.tenant 7)
      match tollMark p.tenant f.id len 0 s with
      | (.pass, s) => markStarved s
      | (.refuse, s) => complete f.id ccRate 0 0 0 s
      | (.wait, s) =>
        markStarved (setFlight { holdBegin true s.time.cycle f with stage := .tolled } s)

/-- The device executes descriptors: a twin that is syncing leaves them in their queues (R604), and one that has stepped down
answers nothing (R590). -/
def readsQueues (s : State) : Bool := live s && !steppedDown s && s.span.twin != .syncing

/-- The queue pairs of a die that can be read now (R403). -/
def readable (s : State) (die : Nat) : List Nat :=
  if !readsQueues s then [] else (s.led.qps.filter fun p => qpDie p.1 == die && headReady p.2 && placeFree s p.2.tenant die).map (·.1)

/-- The first entry after `last` in a rising list, else the first: round-robin. -/
def nextAfter (last : Nat) (l : List Nat) : Option Nat :=
  match l.find? (fun x => decide (last < x)) with
  | some x => some x
  | none => l.head?

/-- The queue pair that round-robin takes on a die: tenants in turn, then a tenant's pairs in turn (R403). -/
def pickQp (s : State) (die : Nat) : Option Nat :=
  let qs := readable s die
  let ts := (liveTenants s).filter fun t => qs.any fun q => (qpOf s q).tenant == t
  match nextAfter (if die = 0 then s.led.rr0 else s.led.rr1) ts with
  | none => none
  | some t => nextAfter (tenantOf s t).rr (qs.filter fun q => (qpOf s q).tenant == t)

/-- Note the turn that was taken. -/
def tookTurn (die q : Nat) (s : State) : State :=
  let t := (qpOf s q).tenant
  let s := setTenant t { tenantOf s t with rr := q } s
  s.setLed fun l => if die = 0 then { l with rr0 := t } else { l with rr1 := t }

/-- DESCRIPTOR_READ (R403): on a die with nothing to read, nothing happens. -/
def execDescriptorRead (die : Fin 2) (s : State) : Res :=
  let s := markStarved s
  match pickQp s die.val with
  | none => .next s
  | some q => .next (readHead q true (tookTurn die.val q s))

/-- UNSUPPORTED (R121): the head descriptor of the queue pair has an unknown opcode. -/
def execUnsupported (qp : Fin 1024) (s : State) : Res :=
  let p := qpOf s qp.val
  if readsQueues s && headReady p && placeFree s p.tenant (qpDie qp.val) && !opKnown (dOpcode (tget 0 p.sq p.rd)) then
    .next (readHead qp.val true s)
  else .next s

/-- SQTAIL and CQHEAD (R646). -/
def execSqtail (w : Win) (v : BitVec 32) (s : State) : Res := .next (sqTail w v s)
def execCqhead (w : Win) (v : BitVec 32) (s : State) : Res := .next (cqHead w v s)

/-- INTERRUPT_COALESCE_TIMER (R390). -/
def execInterruptCoalesceTimer (qp : Fin 1024) (s : State) : Res :=
  let p := qpOf s qp.val
  match p.irqAt with
  | some c => if p.coalTime = 0 then .next s else .next (raiseIrq qp.val (carryTo (c + usCycles p.coalTime) s))
  | none => .next s

/-! ## QPCFG (R387 to R389) -/

/-- Queue SRAM of a die taken by pairs that hold queues, in bytes (R383). -/
def queueSram (s : State) (die : Nat) : Nat :=
  s.led.qps.foldl (fun a p => if qpDie p.1 = die ∧ (p.2.st = .active ∨ p.2.st = .reinit)
    then a + 64 * sqSize p.2 + 16 * cqSize p.2 else a) 0

/-- Why a queue pair's configuration is refused (R388), judged tenant, binding, sizes, SRAM; a confidential tenant's binding
needs a protected port and is never Ethernet (R441, R482, R555, R571). -/
def qpReason (s : State) (q : Nat) (p : Qp) : Nat :=
  let portOk := match p.bindKind with
    | 1 => decide (p.bindPort < 8)
    | 2 => decide (p.bindPort < 4)
    | 3 => decide (p.bindPort < 2)
    | 4 => decide (p.bindPort = 0)
    | _ => false
  let conf := (tenantOf s p.tenant).confidential
  let open_ := conf && (p.bindKind == 3
    || (p.bindKind == 1 && (obj s 0x5003 (p.bindPort + 1) == 0 || objLast s 0x5003 (p.bindPort + 1) == 0))
    || (p.bindKind == 2 && obj s 0x5201 (p.bindPort + 1) == 0))
  if (tenantOf s p.tenant).st ≠ .active then 2
  else if !portOk || (p.cqPush && p.bindKind != 1) || open_ then 3
  else if p.sqLog < 4 ∨ 10 < p.sqLog ∨ p.cqLog < 4 ∨ 12 < p.cqLog then 4
  else if 12582912 < queueSram s (qpDie q) + 64 * sqSize p + 16 * cqSize p then 1 else 0

/-- QPCFG's fields from a written value. -/
def qpFields (v : BitVec 64) (p : Qp) : Qp :=
  { p with cqPush := fld v 62 62 == 1, tenant := fld v 61 56, bindKind := fld v 55 52, bindPort := fld v 51 48
           sqLog := fld v 47 44, cqLog := fld v 43 40, irqVec := fld v 39 29, coalCount := fld v 28 21
           coalTime := fld v 20 10 }

/-- QPCFG as a number. -/
def qpCfg (p : Qp) : Nat :=
  (if p.enable then 2 ^ 63 else 0) + (if p.cqPush then 2 ^ 62 else 0) + p.tenant * 2 ^ 56 + p.bindKind * 2 ^ 52
    + p.bindPort * 2 ^ 48 + p.sqLog * 2 ^ 44 + p.cqLog * 2 ^ 40 + p.irqVec * 2 ^ 29 + p.coalCount * 2 ^ 21 + p.coalTime * 2 ^ 10

/-- REINIT begins (R389 steps 1 and 2): unread entries are dropped, read descriptors that are not dispatched end. -/
def reinitBegin (q : Nat) (toDisabled : Bool) (s : State) : State :=
  let p := qpOf s q
  let s := setQp q { p with st := .reinit, tail := p.rd, starved := false, starvedAt := none, toDisabled := toDisabled } s
  (s.attn.flights.filter fun f => f.qp == q && (f.stage == .tolled || f.stage == .waiting || f.stage == .stalled)).foldl
    (fun s f => complete f.id ccAborted 3 0 0 s) s

/-- A write of QPCFG in an instance (R387, R389). A tenant's instance writes only reinit, and a write of another field
there is a write of 0 to reinit. -/
def qpcfgWrite (w : Win) (v : BitVec 64) (s : State) : State :=
  match winQp s w with
  | none => s
  | some q =>
    let p := qpOf s q
    match w with
    | .tenant _ =>
      if fld v 0 0 = 1 ∧ fld v 63 10 = qpCfg p / 1024 ∧ p.st = .active then reinitBegin q false s else s
    | .steward =>
      match p.st with
      | .reinit => s
      | .active =>
        if fld v 63 63 = 0 then reinitBegin q true (setQp q { p with enable := false } s)
        else if fld v 0 0 = 1 then reinitBegin q false s else s
      | _ =>
        let n := qpFields v p
        if fld v 63 63 = 1 ∧ s.pwr.dev = .ready then
          let r := qpReason s q n
          if r = 0 then setQp q { n with enable := true, st := .active, reason := 0, rd := 0, tail := 0, reserved := 0
                                         consumed := 0, done := [], sq := [], sqAt := [], cq := [], seq := 0 } s
          else setQp q { n with enable := false, st := .refused, reason := r } s
        else setQp q n s

/-- QPCFG_ENABLE and QPCFG_REINIT (R389). -/
def execQpcfgEnable (w : Win) (v : BitVec 64) (s : State) : Res := .next (qpcfgWrite w v s)
def execQpcfgReinit (w : Win) (v : BitVec 64) (s : State) : Res := .next (qpcfgWrite w v s)

/-- REINIT_DONE (R389 steps 3 and 4). -/
def execReinitDone (qp : Fin 1024) (s : State) : Res :=
  let p := qpOf s qp.val
  if p.st = .reinit ∧ !(s.attn.flights.any fun f => f.qp == qp.val) ∧ p.reserved = p.consumed then
    .next (setQp qp.val { p with
      st := if p.toDisabled then .disabled else .active, rd := 0, tail := 0, reserved := 0, consumed := 0, done := []
      cq := [], seq := 0, toDisabled := false } s)
  else .next s

/-! ## Sampling (R539, R542) -/

/-- QUEUE_SAMPLE: the clock is carried to the end of the interval in 7200:01. -/
def execQueueSample (s : State) : Res :=
  .next (sampleAll (carryTo (s.led.sampledAt + nsCycles (obj s 0x7200 1)) s))

/-- A write of 7200:02: one record, or every one; other values are refused (R544). -/
def writeSampleReset (v : Nat) (s : State) : Nat × State :=
  if v = 0xFFFF then (0, s.setLed fun l => { l with samples := [] })
  else if v < 1024 then (0, s.setLed fun l => { l with samples := tput ({} : Sample) l.samples v {} })
  else (abValue, s)

/-- RESET_SAMPLE_RECORD: one record, or all with 0xFFFF; 1,024 to 0xFFFE is refused (R542, R544). -/
def execResetSampleRecord (v : BitVec 16) (s : State) : Res := .next (commanded (writeSampleReset v.toNat) s)

end Sys2Proof.Machine
end

