-- ==== Sys2Proof/Machine/Gates.lean ====
section
/-! DEFINITION. Gates and the rules that let a descriptor be dispatched (R126, R127, R519 to R528). -/

namespace Sys2Proof.Machine

/-! ## Gate control lists (R522 to R525) -/

/-- Entries of a list from its words, in strictly ascending order with the starts below `top`. -/
def gateEntries (cyclic : Bool) (top : Nat) : Nat → List Byte → Option Nat → Option (List (Nat × Nat))
  | 0, _, _ => some []
  | k + 1, bs, prev =>
    let v := leNat (bs.take 4)
    let start := v / 256
    let ok := match prev with
      | none => start == 0
      | some p => decide (p < start)
    if !ok || decide (top ≤ start) || (!cyclic && decide (65536 ≤ start)) then none
    else (gateEntries cyclic top k (bs.drop 4) (some start)).map fun t => (start, v % 256) :: t

/-- The list that the bytes spell, where R525 does not refuse it. -/
def gateParse (bs : List Byte) : Option GateList :=
  let h := leNat (bs.take 8)
  let type := bitsOf h 7 0
  let n := bitsOf h 15 8
  let cyc := bitsOf h 63 32
  if bs.length < 8 ∨ bs.length ≠ 8 + 4 * n ∨ 1 < type ∨ bitsOf h 31 16 ≠ 0 ∨ n = 0 ∨ 32 < n then none
  else if type = 0 ∧ cyc ≠ 0 then none
  else if type = 1 ∧ (cyc < 1000 ∨ 16777215 < cyc) then none
  else match gateEntries (type == 1) (if type = 1 then cyc else 65536) n (bs.drop 8) none with
    | none => none
    | some es =>
      if (List.range 6).all fun g => es.any fun e => bitAt e.2 g then
        some { cyclic := type == 1, cycleNs := cyc, entries := es }
      else none

/-- The bytes of a list (2600:01). -/
def gateBytes (l : GateList) : List Byte :=
  leBytes (l.cycleNs * 2 ^ 32 + l.entries.length * 256 + (if l.cyclic then 1 else 0)) 8
    ++ l.entries.flatMap fun e => leBytes (e.1 * 256 + e.2) 4

/-- Half nanoseconds of device time since the last step boundary (R524). -/
def stepAge (s : State) : Nat := (s.time.devHalf + 2 ^ 65 - s.clk.stepDev) % 2 ^ 65

/-- Where the list stands: the phase, or the offset in ns since the last step boundary (R523, R524). -/
def gatePos (s : State) (l : GateList) : Nat := if l.cyclic then stepAge s / 2 % max 1 l.cycleNs else phaseOf s

/-- Bits of the open gates now, 2600:07 (R521). -/
def gatesOpen (s : State) : Nat :=
  let l := s.shape.active
  let p := gatePos s l
  l.entries.foldl (fun a e => if e.1 ≤ p then e.2 else a) 255

/-- A gate is open. -/
def gateOpen (s : State) (g : Nat) : Bool := bitAt (gatesOpen s) g

/-! ## Dispatch (R126, R127, R519, R520) -/

/-- The gate of a descriptor's class. -/
def opGate (op : Nat) : Nat := if op = 1 then 0 else if 2 ≤ op ∧ op ≤ 4 then 1 else 2

/-- The contexts that a descriptor names. -/
def namesCtx (d : Desc) : List Nat := if dOpcode d = 3 then [dCtx d, fDst d] else [dCtx d]

/-- The order that R126 keeps between an earlier descriptor `g` and `f` of one queue pair, and the fence flag. -/
def mustFollow (g f : Flight) : Bool :=
  decide (g.qp = f.qp ∧ g.seq < f.seq)
    && (dFence f.desc || ((opChanges (dOpcode f.desc) || opChanges (dOpcode g.desc))
      && (namesCtx f.desc).any fun c => (namesCtx g.desc).contains c))

/-- The cores of a context's stripe that are in service (R69). -/
def stripeCores (s : State) (x : Ctx) : List Nat := (coresInService s).filter fun c => bitAt x.stripe c

/-- Work items of one queue pair reach each core in submission order: `g`, an earlier descriptor that is not dispatched, is to have
one on a core of `f`'s (R71). -/
def itemsFollow (s : State) (g f : Flight) : Bool :=
  let works := fun (d : Desc) => dOpcode d == 1 || dOpcode d == 9
  decide (g.qp = f.qp ∧ g.seq < f.seq) && works g.desc && works f.desc
    && (g.stage == .tolled || g.stage == .waiting || g.stage == .stalled)
    && (stripeCores s (ctxOf s (dCtx f.desc))).any fun c => bitAt (ctxOf s (dCtx g.desc)).stripe c

/-- The descriptor has reached its gates: past its tolls and in order, the device acting on descriptors. -/
def reachesGate (s : State) (f : Flight) : Bool :=
  f.stage == .waiting && live s && !(s.attn.flights.any fun g => mustFollow g f || itemsFollow s g f)

/-- The gates of a descriptor are open (R519). -/
def gatesFree (s : State) (f : Flight) : Bool :=
  gateOpen s (opGate (dOpcode f.desc)) && ((qpOf s f.qp).bindKind != 4 || gateOpen s 7)

/-- A descriptor `g` that the same gate held before `f` reached it, and that the gates let pass now (R520). -/
def passesFirst (s : State) (f g : Flight) : Bool :=
  g.stage == .waiting && !g.passed && opGate (dOpcode g.desc) == opGate (dOpcode f.desc) && gatesFree s g
    && match g.gated, f.gated with
      | some n, some m => decide (n < m)
      | some _, none => true
      | none, _ => false

/-- The descriptor may be dispatched: it has reached its gates, and has passed them or passes them now. -/
def canDispatch (s : State) (f : Flight) : Bool :=
  reachesGate s f && (f.passed || (gatesFree s f && !(s.attn.flights.any (passesFirst s f))))

/-- A descriptor of the opcode that may be dispatched now, past its gates. -/
def dispatchable (s : State) (d op : Nat) : Option Flight :=
  match flightOf s d with
  | none => none
  | some f => if f.qp < 1024 ∧ dOpcode f.desc = op ∧ canDispatch s f then some { f with passed := true } else none

/-- A closed gate holds a descriptor that reaches it: its place in the order is noted (R520). -/
def atGate (d op : Nat) (s : State) : State :=
  match flightOf s d with
  | none => s
  | some f =>
    if f.qp < 1024 ∧ dOpcode f.desc = op ∧ reachesGate s f ∧ !gatesFree s f ∧ !f.passed ∧ f.gated = none then
      setFlight { f with gated := some ((s.attn.flights.filterMap (·.gated)).foldl (fun m n => max m (n + 1)) 0) } s
    else s

/-- The trace's record of a dispatch (kind 2, R667). -/
def noteDispatch (f : Flight) (s : State) : State :=
  traceEvent (qpDie f.qp) (some f.tenant) 0 f.qp f.tenant 0xFF 0 64 2 s

/-! ## Span sets (R582, R583, R586) -/

/-- The device's own index within its span, 8000:02 (R372). -/
def ownIndex (s : State) : Nat := obj s 0x8000 2

/-- The span set of a context: its mask in 8010:01 while two bits or more are set (R582). -/
def spanMask (s : State) (c : Nat) : Nat :=
  let m := leNat (slice (objDom s 0x8010 1) (2 * c) 2)
  if 2 ≤ popCount m 16 then m else 0

/-- The number of indices of a mask, and the position of an index among them. -/
def maskCount (m : Nat) : Nat := max 1 (popCount m 16)
def maskPlace (m i : Nat) : Nat := popCount (m % 2 ^ i) 16

/-- Page `p` of a context belongs to this device (R583), and the page number it takes in R69. -/
def ownPage (s : State) (c p : Nat) : Bool :=
  let m := spanMask s c
  m == 0 || p % maskCount m == maskPlace m (ownIndex s)
def localPage (s : State) (c p : Nat) : Nat := p / maskCount (spanMask s c)

/-- The other members of a striped context (R584). -/
def otherMembers (s : State) (c : Nat) : List Nat :=
  (List.range 16).filter fun i => bitAt (spanMask s c) i && i != ownIndex s

/-- The merge parent of an index in the tree rooted at another, and the nearest ancestor within a mask (R576, R588). -/
def mapParent (s : State) (root i : Nat) : Nat := ((objDom s 0x8000 1).getD (1552 + 16 * root + i) 0xFF).toNat
def mergeParent (s : State) (m root : Nat) : Nat → Nat → Option Nat
  | 0, _ => none
  | k + 1, i =>
    let p := mapParent s root i
    if 16 ≤ p then none else if bitAt m p then some p else mergeParent s m root k p

/-- The members of a striped context whose partials this device merges, in the tree rooted at `root`. -/
def mergeChildren (s : State) (c root : Nat) : List Nat :=
  let m := spanMask s c
  if m = 0 then [] else (List.range 16).filter fun i =>
    bitAt m i && i != root && mergeParent s m root 16 i == some (ownIndex s)

/-- The order in which R586 takes the codes that members report. -/
def spanOrder : List Nat := [0x50, 0x22, 0x21, 0x23, 0x32, 0x30, 0x31, 0x20, 0x41, 0x40, 0x12]

/-- The first code of R586 among those reported, with its detail. -/
def spanCode (cs : List (Nat × Nat)) : Nat × Nat :=
  match spanOrder.findSome? fun c => cs.find? fun r => r.1 == c with
  | some r => r
  | none => (0, 0)

/-! ## Gate commands (R526 to R528) -/

/-- The stated time is later than the present (R527). -/
def gateTimeOk (s : State) (kind t : Nat) : Bool :=
  if kind = 0 then
    decide (s.clk.last < bitsOf t 47 0) || (bitsOf t 47 0 == s.clk.last && decide (phaseOf s < bitsOf t 63 48))
  else decide (devNs s < t)

/-- A write of 1 to 2600:05: judged, with its outcome in 2600:06. -/
def commitGates (s : State) : Nat × State :=
  let kind := obj s 0x2600 3
  let t := obj s 0x2600 4
  match gateParse (objDom s 0x2600 2) with
  | none => (abValue, s.setShape fun h => { h with status := 2 })
  | some l =>
    if gateTimeOk s kind t then (0, s.setShape fun h => { h with change := some (l, kind, t), status := 1 })
    else (abValue, s.setShape fun h => { h with status := 3 })

/-- GATE_CHANGE_COMMIT: a write of 2600:05 by the pool manager or the rack manager (R526, R527). -/
def execGateChangeCommit (p : Prin) (v : Bool) (s : State) : Res :=
  .next (objCmd p 0x2600 5 (fun s => if v then commitGates s else (0, s)) s)

/-- The waiting change takes effect (R528). -/
def gateApply (s : State) : State :=
  s.setShape fun h => match h.change with
    | none => h
    | some (l, _, _) => { h with active := l, change := none, status := 4 }

end Sys2Proof.Machine
end

