-- ==== Sys2Proof/Machine/Xlate.lean ====
section
/-! DEFINITION. Address translation: the walk of the mirror, the caches, the check at the memory, block reads, the
fault queue and invalidation (R351 to R379). -/

namespace Sys2Proof.Machine

/-! ## The check at the memory (R369 to R371, R312, R400) -/

/-- A retired bank or pseudo-channel holds a row of granule `g` (R261, R311): the four rows of a granule share
pc[5:2] and the bank. -/
def bankRetires (code g : Nat) : Bool :=
  let a := g * 4096
  let h := ctlOfAddr a
  decide (bitsOf code 27 24 = 2 + h / 6 ∧ bitsOf code 21 19 = h % 6 ∧ bitsOf code 18 13 / 4 = pcOf a / 4)
    && (bitsOf code 31 28 == 3 || bitsOf code 12 0 == bankOf a)

/-- The granule is retired (R311). -/
def granuleRetired (s : State) (g : Nat) : Bool := s.mem.retired.contains g || s.mem.retiredBanks.any fun c => bankRetires c g

/-- The address is decoded (R18, R19). -/
def decoded (s : State) (a : Nat) : Bool :=
  match tierOf a with
  | 1 => true
  | 0 => false
  | _ => (trayAt s a).isSome

/-- A tenant may read an extent: its owner, or a member of a read-mostly extent's reader set (R395). -/
def extHeld (s : State) (e : Extent) (t : Nat) : Bool :=
  (e.kind == 3 && e.owner == t) || (e.kind == 4 && bitAt (obj s 0x2402 (e.readers + 1)) t)

/-- The verdict on a request under a PASID: 0 passes; 0x20, 0x21, 0x31 as R312, R370 and R400 say, 0x22 for a tenant that
is being removed (R447). A request of the steward goes under PASID 0. -/
def memCheck (s : State) (pasid a : Nat) (write : Bool) : Nat :=
  let e := extOf s (a / 2 ^ 30)
  let who := if pasid = 0 then some 0xFE else (pasidOf s pasid).map (·.1)
  if !decoded s a then ccXlate
  else match who with
    | none => ccXlate
    | some t =>
      let mine := if t = 0xFE then e.owner == 0xFE && (e.kind == 4 || e.kind == 5)
        else extHeld s e t && !(write && e.kind == 4)
      if t < 64 ∧ (tenantOf s t).st = .removing then ccClosed
      else match e.st with
      | .granted =>
        if !mine || (e.sealed && t == 0xFE) || (e.sealConf && !(tenantOf s t).confidential) then ccXlate
        else if trayLost s a then ccUncorr
        else if tierOf a = 1 ∧ granuleRetired s (a / 4096) then ccUncorr else 0
      | .escrow => if (if t = 0xFE then e.owner == 0xFE else extHeld s e t) then ccRevoked else ccXlate
      | _ => ccXlate

/-- A failed decode is logged as kind 9 (R19). -/
def noteDecode (source tag a : Nat) (s : State) : State :=
  if decoded s a then s else logEvent 9 a 0 tag source 0 1 s

/-! ## The walk (R356 to R359) -/

/-- What a translation finds. -/
inductive XRes where
  /-- The physical address, PA[55:0]. -/
  | ok (pa : Nat)
  | pending
  | fault
  deriving DecidableEq, Repr

/-- Table entry fields (R357). -/
def pteRules (level : Nat) (v : Nat) : Bool :=
  let leaf := bitAt v 2
  decide (bitsOf v 59 52 = 0 ∧ bitsOf v 11 5 = 0) && !bitAt v 1 && (leaf || level != 1)
    && (if leaf then decide (level ≤ 3) && (level != 2 || decide (bitsOf v 20 12 = 0)) && (level != 3 || decide (bitsOf v 29 12 = 0))
        else !bitAt v 4 && !bitAt v 3 && decide (bitsOf v 63 60 = 0))

/-- A table read is allowed and clean: in T1, in a granted direct extent of the tenant, uncached or tracked (R358). -/
def tableOk (s : State) (tenant pasid a : Nat) : Bool :=
  let e := extOf s (a / 2 ^ 30)
  decide (tierOf a = 1) && memCheck s pasid a false == 0 && e.kind == 3 && e.owner == tenant && decide (e.mode ≤ 1)
    && readCode s a 8 == 0

/-- How a walk ends: the leaf it reached, what it found, the addresses of the table entries it read, and the non-leaf entries it
passed. -/
structure WalkEnd where
  leaf : Option Leaf
  res : XRes
  reads : List Nat := []
  nodes : List WalkNode := []
  deriving DecidableEq, Repr

/-- The walk from a table of `level` (R356): the leaf, a pending entry, or a translation fault. -/
def walkFrom (s : State) (tenant pasid va : Nat) (write : Bool) : Nat → Nat → WalkEnd
  | 0, _ => { leaf := none, res := .fault }
  | level + 1, table =>
    let a := table * 4096 + bitsOf va (20 + 9 * level) (12 + 9 * level) * 8
    let bad : WalkEnd := { leaf := none, res := .fault, reads := [a] }
    if !tableOk s tenant pasid a then bad
    else
      let v := leNat (mread s.mem.bytes a 8)
      if !bitAt v 0 then { bad with res := if bitAt v 1 then .pending else .fault }
      else if !pteRules (level + 1) v then bad
      else if bitAt v 2 then
        if (write && !bitAt v 4) || (!write && !bitAt v 3) then bad
        else
          let span := 512 ^ level
          { bad with
            leaf := some { pasid := pasid, page := va / 4096 / span * span, span := span
                           pa := bitsOf v 63 60 * 2 ^ 40 + bitsOf v 51 12, rd := bitAt v 3, wr := bitAt v 4 }
            res := .ok 0 }
      else
        let e := walkFrom s tenant pasid va write level (bitsOf v 51 12)
        { e with reads := a :: e.reads
                 nodes := { pasid := pasid, level := level, above := va / 2 ^ (12 + 9 * level), table := bitsOf v 51 12 } :: e.nodes }

/-- The leaf's physical address for a device virtual address. -/
def leafAddr (l : Leaf) (va : Nat) : Nat :=
  let p := l.pa % 2 ^ 40 + (va / 4096 - l.page)
  l.pa / 2 ^ 40 * 2 ^ 52 + p * 4096 + va % 4096

def tlbOf (s : State) (die : Nat) : List Leaf := if die = 0 then s.xl.tlb0 else s.xl.tlb1
def setTlb (die : Nat) (t : List Leaf) (s : State) : State :=
  s.setXl fun x => if die = 0 then { x with tlb0 := t } else { x with tlb1 := t }

/-- A leaf enters a die's cache; a full cache drops one entry, and which is free (R361, R362; log entry 16). -/
def tlbFill (die : Nat) (l : Leaf) (s : State) : State :=
  let t := tlbOf s die
  if t.length < 4096 then setTlb die (l :: t) s
  else freeStep 1 (setTlb die (l :: t.eraseIdx (freeAt s 0 % 4096)) s)

def walksOf (s : State) (die : Nat) : List WalkNode := if die = 0 then s.xl.walk0 else s.xl.walk1
def setWalks (die : Nat) (t : List WalkNode) (s : State) : State :=
  s.setXl fun x => if die = 0 then { x with walk0 := t } else { x with walk1 := t }

/-- Where a walk starts: at the lowest table that the die's walk cache leads to, else at the root (R361). -/
def walkStart (s : State) (die pasid va root : Nat) : Nat × Nat :=
  ((walksOf s die).filter fun n => n.pasid == pasid && n.above == va / 2 ^ (12 + 9 * n.level)).foldl
    (fun b n => if n.level < b.1 then (n.level, n.table) else b) (5, root)

/-- A non-leaf entry enters a die's walk cache; of a full one, one entry leaves, and which is free (log entry 16). -/
def walkFill (die : Nat) (s : State) (n : WalkNode) : State :=
  let t := walksOf s die
  if t.contains n then s
  else if t.length < 512 then setWalks die (n :: t) s
  else freeStep 1 (setWalks die (n :: t.eraseIdx (freeAt s 0 % 512)) s)

/-- A table read counts, and one that fails is logged: by its finding, or as undecoded (R359). -/
def noteTable (tenant : Nat) (s : State) (a : Nat) : State :=
  tallyMem false a 8
    (if tierOf a = 1 then noteRead 0xFF a 8 s else if decoded s a then s else logEvent 9 a 0 tenant 0xFF 0 1 s)

/-- A translation fault counts in 2300:06 and in the tally of the PASID's tenant (R675). -/
def countFault (pasid : Nat) (s : State) : State :=
  let s := bumpObj 0x2300 6 1 64 s
  match pasidOf s pasid with
  | some (tenant, _, _) => if tenant < 64 then bumpObj (0x3008 + 16 * tenant) 0x0D 1 64 s else s
  | none => s

/-- Translate one address on a die: the die's cache, else a walk that fills it (R361). Faults count in 2300:06 and in
the tenant's tally. -/
def translate (die pasid va : Nat) (write : Bool) (s : State) : XRes × State :=
  match pasidOf s pasid with
  | none => (.fault, s)
  | some (tenant, root, _) =>
    if pasid = 0 ∨ 2 ^ 57 ≤ va then (.fault, s)
    else match (tlbOf s die).find? fun l => l.pasid == pasid && decide (l.page ≤ va / 4096 ∧ va / 4096 < l.page + l.span)
        && (if write then l.wr else l.rd) with
      | some l => (.ok (leafAddr l va), s)
      | none =>
        let s := bumpObj 0x2300 8 1 64 s
        let start := walkStart s die pasid va root
        let e := walkFrom s tenant pasid va write start.1 start.2
        let s := e.reads.foldl (noteTable tenant) s
        match e.leaf with
        | some l => (.ok (leafAddr l va), tlbFill die l (e.nodes.foldl (walkFill die) s))
        | none => if e.res = .pending then (.pending, s) else (.fault, countFault pasid s)

/-- A block's translation: pieces of PA and length, or the pages that are pending, or a fault (R365). -/
inductive BRes where
  | ok (pieces : List (Nat × Nat))
  | pending (pages : List Nat)
  | fault
  deriving DecidableEq, Repr

/-- Translate `n` pages from the page of `va`; a fault anywhere decides (R365). -/
def translatePages (die pasid va len : Nat) (write : Bool) : Nat → Nat → BRes → State → BRes × State
  | 0, _, r, s => (r, s)
  | k + 1, i, r, s =>
    let page := va / 4096 + i
    let lo := max va (page * 4096)
    let hi := min (va + len) ((page + 1) * 4096)
    match translate die pasid lo write s, r with
    | (.fault, s), _ => (.fault, s)
    | (.pending, s), .pending ps => translatePages die pasid va len write k (i + 1) (.pending (ps ++ [page])) s
    | (.pending, s), _ => translatePages die pasid va len write k (i + 1) (.pending [page]) s
    | (.ok pa, s), .ok ps => translatePages die pasid va len write k (i + 1) (.ok (ps ++ [(pa, hi - lo)])) s
    | (.ok _, s), r => translatePages die pasid va len write k (i + 1) r s

/-- Translate a block whole (R365). With stall = 0 a pending entry is a fault (R363). -/
def translateBlock (die pasid va len : Nat) (write : Bool) (s : State) : BRes × State :=
  if len = 0 then (.ok [], s)
  else match translatePages die pasid va len write ((va + len - 1) / 4096 - va / 4096 + 1) 0 (.ok []) s with
    | (.pending ps, s) => if ((pasidOf s pasid).map (·.2.2)) == some true then (.pending ps, s) else (.fault, countFault pasid s)
    | r => r

/-- The check at the memory over translated pieces: the first code that fails. A piece of another device gives 0x20 here;
it is sent over a span port before (R372). -/
def checkPieces (s : State) (pasid : Nat) (write : Bool) (ps : List (Nat × Nat)) : Nat :=
  ps.foldl (fun c p => if c ≠ 0 then c else memCheck s pasid (p.1 % 2 ^ 52) write) 0

/-- Read translated pieces: the code of the check, else the code of what the read finds, and the bytes. -/
def readPieces (s : State) (pasid : Nat) (ps : List (Nat × Nat)) : Nat × List Byte :=
  let c := checkPieces s pasid false ps
  (if c ≠ 0 then c else ps.foldl (fun c p => worseCode c (memCode s (p.1 % 2 ^ 52) p.2)) 0,
   ps.flatMap fun p => mread s.mem.bytes (p.1 % 2 ^ 52) p.2)

/-- The log, tallies and queues that reading those pieces leaves behind. -/
def notePieces (source tag : Nat) (ps : List (Nat × Nat)) (s : State) : State :=
  ps.foldl (fun s p =>
    let a := p.1 % 2 ^ 52
    tallyMem false a p.2 (if tierOf a = 1 then noteRead source a p.2 s else noteDecode source tag a s)) s

/-- Write bytes to translated pieces under the check at the memory; a failing piece writes nothing anywhere. -/
def writePieces (pasid : Nat) (ps : List (Nat × Nat)) (bs : List Byte) (s : State) : Nat × State :=
  let c := checkPieces s pasid true ps
  if c ≠ 0 then (c, s)
  else
    let own := ps.map fun p => (p.1 % 2 ^ 52, p.2)
    let c := own.foldl (fun c p => worseCode c (partCode s p.1 p.2 (2 ^ p.2 - 1))) 0
    let s := own.foldl (fun s p => if tierOf p.1 = 1 then noteWrite 0xFF p.1 p.2 (2 ^ p.2 - 1) s else s) s
    if c ≠ 0 then (c, s)
    else (0, (ps.foldl (fun (r : State × List Byte) p =>
      (memStore (p.1 % 2 ^ 52) (2 ^ p.2 - 1) (r.2.take p.2) false r.1, r.2.drop p.2)) (s, bs)).1)

/-! ## The fault queue (R363 to R368) -/

/-- A record enters the queue of 512, or its source's holding slot (R364, R367). -/
def faultPost (r : FaultRec) (s : State) : State :=
  if s.xl.queue.length < 512 ∧ s.xl.holding.isEmpty then
    let n := s.xl.queue.length + 1
    s.setXl fun x => { x with queue := x.queue ++ [r], high := max x.high n }
  else s.setXl fun x => { x with holding := x.holding ++ [r] }

/-- The records of a descriptor leave. -/
def faultDrop (desc : Nat) (s : State) : State :=
  s.setXl fun x => { x with queue := x.queue.filter fun r => r.desc != desc
                            holding := x.holding.filter fun r => r.desc != desc }

/-- The block a flight still needs: its input or source block, or its output block (R364). -/
def flightBlock (s : State) (f : Flight) : Nat × Nat × Bool :=
  let c := ctxOf s (dCtx f.desc)
  if f.stage == .output || f.stage == .outStalled then (aOut f.desc, outBytes f.desc c, true)
  else if dOpcode f.desc = 1 then (aIn f.desc, inBytes f.desc c, false)
  else if dOpcode f.desc = 2 then (pSrc f.desc, srcBytes f.desc c, false) else (0, 0, false)

/-- The replay units of a flight's block that cover a page: the block, but of a source block its layer sections (R364). -/
def unitsAt (s : State) (f : Flight) (page : Nat) : List (Nat × Nat) :=
  let (va, len, _) := flightBlock s f
  let x := ctxOf s (dCtx f.desc)
  if f.stage == .output || f.stage == .outStalled || dOpcode f.desc != 2 then [(va, len)]
  else ((List.range (ctxLayers x)).map fun l => (va + l * srcPitch f.desc x, srcSection f.desc x)).filter fun u =>
    decide (u.1 / 4096 ≤ page ∧ page * 4096 < u.1 + u.2)

/-- The die that translates a flight's block: the queue pair's for its input; for the output the queue pair's too,
where the output path ends (R351; log entry 17). -/
def flightDie (f : Flight) : Nat := qpDie f.qp

/-- A descriptor's pending records. -/
def pendingOf (s : State) (desc : Nat) : List FaultRec := (s.xl.queue ++ s.xl.holding).filter fun r => r.kind == 1 && r.desc == desc

/-- Records for the pending pages of a block that have none yet; a die whose holding slot is taken makes no further record
(R364, R367). -/
def pendingRecords (f : Flight) (pages : List Nat) (s : State) : State :=
  let out := f.stage == .output || f.stage == .outStalled
  let die := 20 + flightDie f
  pages.foldl (fun s p =>
    if (pendingOf s f.id).any fun r => r.addr == p * 4096 then s
    else if s.xl.holding.any fun r => r.source == die then s
    else faultPost { kind := 1, source := die, pasid := dPasid f.desc, addr := p * 4096
                     desc := f.id, output := out, made := s.time.cycle, due := false } s) s

/-- A descriptor waits on its pending pages; one that gets no record waits for the holding slot (R366, R367). -/
def pendingPost (f : Flight) (pages : List Nat) (s : State) : State :=
  let out := f.stage == .output || f.stage == .outStalled
  let s := pendingRecords f pages s
  if (pendingOf s f.id).isEmpty then setFlight { f with stage := if out then .output else .waiting } s
  else setFlight { f with stage := if out then .outStalled else .stalled } s

/-- PENDING_FAULT (R363). -/
def execPendingFault (d : Nat) (s : State) : Res :=
  match flightOf s d with
  | none => .next s
  | some f =>
    if f.stage ≠ .waiting ∧ f.stage ≠ .output then .next s
    else
      let (va, len, wr) := flightBlock s f
      if f.stage = .output ∧ aPush f.desc then .next s
      else match translateBlock (flightDie f) (dPasid f.desc) va len wr s with
        | (.pending ps, s) => .next (pendingPost f ps s)
        | (_, _) => .next s

/-- Result 1 of a descriptor that a pending page ends: an APPEND's length, else 0 (R163). -/
def rewalkLength (s : State) (f : Flight) : Nat := if dOpcode f.desc = 2 then (ctxOf s (dCtx f.desc)).length else 0

/-- The first holding slot in ascending order of source (R367). -/
def firstHolding (h : List FaultRec) : Option FaultRec :=
  h.foldl (fun b r => match b with | none => some r | some q => if r.source < q.source then some r else some q) none

/-- FAULT_QUEUE_SLOT_FREE (R367): a holding-slot record enters the queue and is counted. -/
def execFaultQueueSlotFree (s : State) : Res :=
  match firstHolding s.xl.holding with
  | none => .next s
  | some r =>
    if s.xl.queue.length < 512 then
      .next (bumpObj 0x2300 4 1 64 (s.setXl fun x => { x with
        queue := x.queue ++ [r], holding := x.holding.erase r, high := max x.high (x.queue.length + 1) }))
    else .next s

/-- Translate units one after the other: a fault in any decides, then a pending page in any. -/
def translateUnits (die pasid : Nat) (write : Bool) : List (Nat × Nat) → State → BRes × State
  | [], s => (.ok [], s)
  | u :: t, s =>
    match translateBlock die pasid u.1 u.2 write s with
    | (.fault, s) => (.fault, s)
    | (.ok _, s) => translateUnits die pasid write t s
    | (.pending ps, s) =>
      match translateUnits die pasid write t s with
      | (.ok _, s) => (.pending ps, s)
      | (.pending qs, s) => (.pending (ps ++ qs), s)
      | r => r

/-- The pending records of a descriptor on the pages of some units leave. -/
def unitsDrop (desc : Nat) (us : List (Nat × Nat)) (s : State) : State :=
  let on := fun (r : FaultRec) => r.kind == 1 && r.desc == desc && us.any fun u =>
    decide (u.1 / 4096 ≤ r.addr / 4096 ∧ r.addr / 4096 * 4096 < u.1 + u.2)
  s.setXl fun x => { x with queue := x.queue.filter fun r => !on r, holding := x.holding.filter fun r => !on r }

/-- PENDING_REWALK (R366): record `i` re-walks its replay unit: the unit replays, waits again with its timeout (the record
of a page that is mapped by now goes, and other pending pages get theirs), or the descriptor completes with the fault. Records
that are due re-walk in the order of the queue (R368). -/
def execPendingRewalk (i : Nat) (s : State) : Res :=
  match s.xl.queue[i]? with
  | none => .next s
  | some r =>
    if r.kind ≠ 1 ∨ !r.due ∨ (s.xl.queue.take i).any (fun q => q.due) then .next s
    else match flightOf s r.desc with
      | none => .next (faultDrop r.desc s)
      | some f =>
        let us := unitsAt s f (r.addr / 4096)
        match translateUnits (flightDie f) (dPasid f.desc) r.output us s with
        | (.ok _, s) =>
          let s := unitsDrop r.desc us s
          .next (if (pendingOf s r.desc).isEmpty then setFlight { f with stage := if r.output then .output else .waiting } s else s)
        | (.pending ps, s) =>
          let kept := if ps.contains (r.addr / 4096) then s.xl.queue.map fun q => if q = r then { q with due := false } else q
            else s.xl.queue.erase r
          let s := s.setXl fun x => { x with queue := kept }
          .next (pendingPost f ps s)
        | (.fault, s) => .next (complete r.desc ccXlate (if r.output then 1 else 0) (rewalkLength s f) 0 (faultDrop r.desc s))

/-- PENDING_FAULT_TIMEOUT (R366): record `i` of the queue and then of the holding slots has waited its time, to which the clock
is carried; an invalidation that completes in the cycle of expiry wins, and the record re-walks (R26). -/
def execPendingFaultTimeout (i : Nat) (s : State) : Res :=
  match (s.xl.queue ++ s.xl.holding)[i]? with
  | none => .next s
  | some r =>
    let due := r.made + usCycles (obj s 0x2300 1)
    if r.kind ≠ 1 ∨ r.due then .next s
    else if arrivalWins due (· == .invalidationComplete) s then .next (carryTo due s)
    else
      let s := countFault r.pasid (carryTo due s)
      .next (complete r.desc ccXlate (if r.output then 1 else 0)
        (match flightOf s r.desc with | some f => rewalkLength s f | none => 0) 0 (faultDrop r.desc s))

/-! ## Invalidation (R374 to R377, R379) -/

/-- A write of XLINVCMD (R375). -/
def xlinvCommand (w : Win) (v : BitVec 64) (s : State) : State :=
  match winQp s w with
  | none => s
  | some q =>
    let p := qpOf s q
    if p.invBusy then setQp q { p with invOverrun := true } s
    else
      let pasid := fld v 51 32
      let scope := fld v 13 12
      let bad := !pasidHeld s pasid p.tenant || decide (fld v 63 52 ≠ 0 ∨ fld v 11 8 ≠ 0) || decide (2 ≤ scope)
        || decide (bitsOf p.invAddr 63 57 ≠ 0 ∨ bitsOf p.invAddr 11 0 ≠ 0)
      if bad then setQp q { p with invRefused := true } s
      else
        (setQp q { p with invBusy := true, invRefused := false } s).setXl fun x => { x with
          invs := x.invs ++ [{ qp := some q, pasid := pasid, page := bitsOf p.invAddr 56 12, pages := fld v 31 14 + 1
                               whole := scope == 1, token := fld v 7 0, unbind := false }] }

/-- XLINVCMD. -/
def execXlinvcmd (w : Win) (v : BitVec 64) (s : State) : Res := .next (xlinvCommand w v s)

/-- A leaf overlaps an invalidation's range. -/
def leafHit (i : Inval) (l : Leaf) : Bool :=
  l.pasid == i.pasid && (i.whole || decide (l.page < i.page + i.pages ∧ i.page < l.page + l.span))

/-- INVALIDATION_START (R376 steps 1 and 2): one at a time, in order. -/
def execInvalidationStart (s : State) : Res :=
  match s.xl.running, s.xl.invs with
  | none, i :: rest =>
    .next (s.setXl fun x => { x with
      running := some i, invs := rest, gen := x.gen + 1
      tlb0 := x.tlb0.filter fun l => !leafHit i l, tlb1 := x.tlb1.filter fun l => !leafHit i l
      walk0 := x.walk0.filter fun n => n.pasid != i.pasid, walk1 := x.walk1.filter fun n => n.pasid != i.pasid })
  | _, _ => .next s

/-- INVALIDATION_COMPLETE (R376 step 3): no request of an earlier generation remains; done_token, busy and the
re-walks; an unbind drops its binding from now on (R379). -/
def execInvalidationComplete (s : State) : Res :=
  match s.xl.running with
  | none => .next s
  | some i =>
    if (s.coh.reqs.any fun r => !r.pieces.isEmpty && decide (r.gen < s.xl.gen)) ∨
        (s.coh.asks.any fun q => decide (q.gen < s.xl.gen)) then .next s
    else
      let mark := fun (r : FaultRec) => if r.kind = 1 ∧ r.pasid = i.pasid ∧
        (i.whole ∨ (i.page ≤ r.addr / 4096 ∧ r.addr / 4096 < i.page + i.pages)) then { r with due := true } else r
      let s := bumpObj 0x2300 7 1 64 (s.setXl fun x => { x with
        running := none, queue := x.queue.map mark, holding := x.holding.map mark })
      let s := match i.qp with
        | some q => setQp q { qpOf s q with invDone := i.token, invBusy := false } s
        | none => s
      .next (if i.unbind then s.setLed fun l => { l with binds := l.binds.filter fun b => b.1 != i.pasid } else s)

/-- A read of XLINVSTAT: the value, then refused and overrun are cleared (R375). -/
def readInvStat (w : Win) (s : State) : Nat × State :=
  match winQp s w with
  | none => (0, s)
  | some q =>
    let p := qpOf s q
    (invStat p, setQp q { p with invRefused := false, invOverrun := false } s)

/-- XLINVSTAT_READ. -/
def execXlinvstatRead (w : Win) (s : State) : Res :=
  let (v, s) := readInvStat w s
  .next (emit (.value v) s)

/-! ## Bindings (R354, R355, R379) -/

/-- BIND_PASID: refused for PASID 0 or a bound PASID, a tenant that is not ACTIVE, or 4,096 bindings beside PASID 0's; reserved
bits are ignored (R4, R354). -/
def bindPasid (v : BitVec 128) (s : State) : Nat × State :=
  let pasid := fld v 19 0
  let t := fld v 107 102
  if pasid = 0 ∨ (pasidOf s pasid).isSome ∨ (tenantOf s t).st ≠ .active ∨ 4096 ≤ s.led.binds.length then (abValue, s)
  else (0, s.setLed fun l => { l with binds := tins l.binds pasid (t, fld v 91 52, fld v 108 108 == 1) })

def execBindPasid (v : BitVec 128) (s : State) : Res :=
  .next (commanded (mirrorGate (.write 0x2310 1 (leBytes v.toNat 16)) (bindPasid v)) s)

/-- UNBIND_PASID: a value that names PASID 0, an unbound PASID or no PASID is refused; so is one whose unbind is in
progress or whose tenant is being removed (R379, R447); else an invalidation of the whole PASID whose completion removes
the binding (R376). -/
def unbindPasid (v : BitVec 32) (s : State) : Nat × State :=
  let pasid := v.toNat
  let busy := (s.xl.invs ++ s.xl.running.toList).any fun i => i.unbind && i.pasid == pasid
  if pasid = 0 then (abValue, s)
  else match pasidOf s pasid with
  | none => (abValue, s)
  | some b =>
    if busy ∨ (tenantOf s b.1).st = .removing then (abState, s)
    else (0, s.setXl fun x => { x with
      invs := x.invs ++ [{ qp := none, pasid := pasid, page := 0, pages := 0, whole := true, token := 0, unbind := true }] })

def execUnbindPasid (v : BitVec 32) (s : State) : Res :=
  .next (commanded (mirrorGate (.write 0x2310 2 (leBytes v.toNat 4)) (unbindPasid v)) s)

end Sys2Proof.Machine
end

