-- ==== Sys2Proof/Machine/Directory.lean ====
section
/-! DEFINITION. The coherence directory, the snoops and the opening of a transaction, and what a descriptor block waits for
before it is read or written (R316 to R344, R358, R372). -/

namespace Sys2Proof.Machine

def State.setCoh (s : State) (f : Coh → Coh) : State := { s with coh := f s.coh }

/-! ## Agents and routes -/

/-- An agent takes part: active (R348). -/
def agentUp (s : State) (a : Nat) : Bool := tget 0 s.coh.agents a == 1

/-- The index names a member of the span: the present mask of the span map (R576). -/
def memberOf (s : State) (i : Nat) : Bool := bitAt (leNat (slice (objDom s 0x8000 1) 4 2)) i

/-- A device is reachable: this one, or one with an active link toward it (8000:05). -/
def reachable (s : State) (i : Nat) : Bool := i == ownIndex s || !(routesTo s i).isEmpty

/-! ## Entries (R322, R323, R325) -/

/-- An entry in state I. -/
def dirI : Dir := { st := 0, keeper := 15, holders := 0, used := 0 }

def dirOf (s : State) (line : Nat) : Dir := tget dirI s.coh.dir line

def setDir (line : Nat) (v : Dir) (s : State) : State :=
  s.setCoh fun c => { c with dir := tput dirI c.dir line (if v.st = 0 then dirI else v) }

/-- An entry without one agent: a removed keeper of X leaves I; of F or O, S; no holder leaves I (R331, R336, R346). -/
def dropAgent (a : Nat) (d : Dir) : Dir :=
  let h := bitSet d.holders a false
  if h = 0 ∨ (d.keeper = a ∧ d.st = 3) then dirI
  else if d.keeper = a then { d with st := 1, keeper := 15, holders := h } else { d with holders := h }

/-- The 64 bits of a line's entry (R323); its SECDED code is not given (log entry 109). -/
def dirWord (s : State) (line : Nat) : Nat :=
  let d := dirOf s line
  let w := bitsOf (line * 64) 51 25 * 2 ^ 29 + d.st * 2 ^ 26 + (if s.coh.txns.any fun t => t.lines.contains line then 2 ^ 25 else 0)
    + d.keeper * 2 ^ 21 + d.holders * 2 ^ 9
  (Config.secded w).toNat * 2 ^ 56 + w

/-- The half and set of a line (R322). -/
def dirSet (line : Nat) : Nat :=
  let pa := line * 64
  bitsOf pa 12 12 * 2 ^ 18 + ((bitsOf pa 24 13 * 64 + bitsOf pa 11 6) ^^^ bitsOf pa 42 25)

/-- A line is locked: a transaction on it is open (R330). -/
def locked (s : State) (line : Nat) : Bool := s.coh.txns.any fun t => t.lines.contains line

/-- The coherence mode of an address (R318, R320). -/
def cohMode (s : State) (a : Nat) : Nat :=
  let e := extOf s (a / 2 ^ 30)
  if e.kind = 4 then 2 else if e.kind = 3 then e.mode else 0

/-- The lines of a range. -/
def linesOf (a n : Nat) : List Nat := (List.range ((a + n + 63) / 64 - a / 64)).map (a / 64 + ·)

/-- The tracked lines of translated pieces on this device. -/
def trackedLines (s : State) (ps : List (Nat × Nat)) : List Nat :=
  ps.flatMap fun p => if p.1 / 2 ^ 52 = ownIndex s ∧ cohMode s (p.1 % 2 ^ 52) = 1 then linesOf (p.1 % 2 ^ 52) p.2 else []

/-! ## Snoops (R327, R329, R554) -/

def snpShrFwd : Nat := 0x21
def snpOwnFwd : Nat := 0x22
def snpData : Nat := 0x23
def snpCur : Nat := 0x24
def snpInv : Nat := 0x25
def snpCopy : Nat := 0x26

/-- Back-invalidate snoops outstanding at a CXL agent. -/
def biOpen (s : State) (a : Nat) : Nat :=
  s.coh.txns.foldl (fun n t => n + (t.snoops.filter fun q => q.agent == a && q.sent.isSome).length) 0

/-- The message of a snoop: its address is the line's physical address (log entry 26). -/
def snoopOut (s : State) (q : Snoop) (fwdAgent fwdTag : Nat) : Out :=
  let pa := ownIndex s * 2 ^ 52 + q.line * 64
  if q.agent < 8 then .kaf q.agent { kafOf q.op with addr := pa, fwdAgent := fwdAgent, fwdTag := fwdTag }
  else .cxl (q.agent - 8) 3 pa (if q.op = snpData then 0 else if q.op = snpCur then 1 else 2) []

/-- Send one snoop of a transaction that began in cycle `at_`, or hold it while 256 back-invalidate snoops are out. -/
def sendSnoop (at_ fwdAgent fwdTag : Nat) (r : List Snoop × State) (q : Snoop) : List Snoop × State :=
  let out := (r.1.filter fun p => p.agent == q.agent && p.sent.isSome).length
  if 8 ≤ q.agent ∧ 256 ≤ biOpen r.2 q.agent + out then (r.1 ++ [{ q with sent := none }], r.2)
  else (r.1 ++ [{ q with sent := some at_ }], emit (snoopOut r.2 q fwdAgent fwdTag) r.2)

/-- The cycle in which the locks of some lines are taken: a lock that was released in this cycle is taken in the next. -/
def lockCycle (lines : List Nat) (s : State) : Nat :=
  if s.coh.freed.any fun p => lines.contains p.1 && p.2 == s.time.cycle then s.time.cycle + 1 else s.time.cycle

/-- Open a transaction: it takes the locks of its lines and sends its snoops, to active agents only (R321, R330). -/
def openTxn (t : Txn) (snoops : List (Nat × Nat × Nat)) (fwdAgent fwdTag : Nat) (s : State) : State :=
  let qs := (snoops.filter fun q => agentUp s q.2.1).map fun q => ({ line := q.1, agent := q.2.1, op := q.2.2, sent := none } : Snoop)
  let (qs, s) := qs.foldl (sendSnoop (lockCycle t.lines s) fwdAgent fwdTag) ([], s)
  s.setCoh fun c => { c with txns := c.txns ++ [{ t with id := c.nextTxn, snoops := qs }], nextTxn := c.nextTxn + 1 }

/-- A transaction with nothing set. -/
def newTxn (why : TxnFor) (lines : List Nat) : Txn :=
  { id := 0, why := why, lines := lines, snoops := [], wb := [], fwd := false, got := false, fwdOp := 0, ack := false, rsp := 0
    cxlX := false, holder := false }

/-- The holders of a line. -/
def holdersAt (s : State) (line : Nat) : List Nat := (List.range 12).filter fun a => bitAt (dirOf s line).holders a

/-- Snoops that an uncached read needs: of the keeper of X or O (R331, class UR); and an uncached write: every holder
(class UW). -/
def readSnoops (s : State) (line : Nat) : List (Nat × Nat × Nat) :=
  let d := dirOf s line
  if d.st = 3 ∨ d.st = 4 then [(line, d.keeper, snpCur)] else []
def writeSnoops (s : State) (line : Nat) : List (Nat × Nat × Nat) := (holdersAt s line).map fun a => (line, a, snpInv)

/-! ## What a descriptor block waits for -/

/-- The first table line on a walk's path that an agent may hold dirty (R358). -/
def walkLine (s : State) (tenant pasid va : Nat) : Nat → Nat → Option Nat
  | 0, _ => none
  | level + 1, table =>
    let a := table * 4096 + bitsOf va (20 + 9 * level) (12 + 9 * level) * 8
    if !tableOk s tenant pasid a then none
    else if cohMode s a = 1 ∧ ((locked s (a / 64) : Bool) ∨ (!(readSnoops s (a / 64)).isEmpty ∧ !s.coh.fresh.contains (a / 64))) then some (a / 64)
    else
      let v := leNat (mread s.mem.bytes a 8)
      if !bitAt v 0 ∨ bitAt v 2 then none else walkLine s tenant pasid va level (bitsOf v 51 12)

/-- The first such line for a block: pages whose translation is cached walk no table. -/
def blockWalk (s : State) (die pasid va len : Nat) : Option Nat :=
  match pasidOf s pasid with
  | none => none
  | some (tenant, root, _) =>
    ((List.range ((va + len - 1) / 4096 - va / 4096 + 1)).filterMap fun i =>
      let p := va / 4096 + i
      if (tlbOf s die).any fun l => l.pasid == pasid && decide (l.page ≤ p ∧ p < l.page + l.span) then none
      else
        let from_ := walkStart s die pasid (p * 4096) root
        walkLine s tenant pasid (p * 4096) from_.1 from_.2).head?

/-- A transaction for a block or a table: where the lines are locked it waits for them; where no snoop is needed it holds
nothing up. -/
def blockTxn (lines : List Nat) (write : Bool) (s : State) : Bool × State :=
  if lines.any (locked s) then (true, s)
  else
    let qs := lines.flatMap fun l => if write then writeSnoops s l else if s.coh.fresh.contains l then [] else readSnoops s l
    let qs := qs.filter fun q => agentUp s q.2.1
    if qs.isEmpty then
      (false, if write then lines.foldl (fun s l => setDir l dirI s) s else s)
    else
      let ls := (qs.map (·.1)).eraseDups
      (true, openTxn (newTxn (.block write) ls) qs 15 0 s)

/-- A block is about to be read or written: table lines and the block's own tracked lines are made current first; `true`
says that it waits. -/
def blockWait (die pasid va len : Nat) (write : Bool) (s : State) : Bool × State :=
  if len = 0 then (false, s)
  else match blockWalk s die pasid va len with
    | some l => blockTxn [l] false s
    | none =>
      match (translateBlock die pasid va len write s).1 with
      | .ok ps =>
        let lines := trackedLines s ps
        let (w, s) := blockTxn lines write s
        (w, if w then s else s.setCoh fun c => { c with fresh := [] })
      | _ => (false, s)

/-! ## Pieces on other members of the span (R372, R373) -/

/-- The next sequence number toward an index (R579). -/
def nextSeq (i : Nat) (s : State) : Nat × State :=
  let n := tget 0 s.span.seqOut i
  (n, { s with span := { s.span with seqOut := tput 0 s.span.seqOut i ((n + 1) % 65536) } })

/-- Send a read or a write of a piece to the member that holds it, toward both twins of a pair that can be reached; none
where no device can be. -/
def askRemote (who : Nat) (flight : Bool) (pasid pa len mask : Nat) (op : Nat) (data : List Byte) (s : State) : Option State :=
  let i := pa / 2 ^ 52
  let ls := routesTo s i
  if !memberOf s i || ls.isEmpty then none
  else
    let (n, s) := nextSeq i s
    let m := { kafOf op with addr := pa, pasid := pasid, tag := n, mask := mask, srcDev := ownIndex s, data := data }
    let s := ls.foldl (fun s l => sendKaf l m s) s
    some (s.setCoh fun c => { c with asks := c.asks ++ [{ tag := n, index := i, who := who, flight := flight, pa := pa, len := len,
                                                           write := op == 0x41 || op == 0x14, gen := s.xl.gen }] })

/-- The pieces of a flight's block that lie elsewhere are asked for; `true` says that answers are still due. -/
def remoteWait (f : Flight) (ps : List (Nat × Nat)) (s : State) : Bool × State :=
  let out := ps.filter fun p => p.1 / 2 ^ 52 ≠ ownIndex s
  let new := out.filter fun p => !(f.remote.any fun r => r.1 == p.1)
  let (rs, s) := new.foldl (fun (r : List (Nat × Option (Nat × List Byte)) × State) p =>
    match askRemote f.id true (dPasid f.desc) p.1 p.2 (roundUp p.2 64) 0x40 [] r.2 with
    | some s => (r.1 ++ [(p.1, none)], s)
    | none => (r.1 ++ [(p.1, some (ccXlate, []))], r.2)) (f.remote, s)
  (rs.any fun r => r.2.isNone, if new.isEmpty then s else setFlight { f with remote := rs } s)

/-- Read a flight's block: its own pieces under the check at the memory, and the others as answered. -/
def readBlock (s : State) (f : Flight) : List (Nat × Nat) → Nat × List Byte
  | [] => (0, [])
  | p :: t =>
    let (c, bs) := if p.1 / 2 ^ 52 = ownIndex s then readPieces s (dPasid f.desc) [p]
      else match f.remote.find? fun r => r.1 == p.1 with
        | some (_, some (c, bs)) => (c, bs.take p.2)
        | _ => (ccXlate, [])
    let r := readBlock s f t
    (if c = 0 then r.1 else if r.1 = 0 then c else worseCode c r.1, bs ++ r.2)

end Sys2Proof.Machine
end

