-- ==== Sys2Proof/Machine/Frames.lean ====
section
/-! DEFINITION. Page frames, slabs, page entries, live masks, context structures and summaries (R174 to R196, R205 to
R207, R312, R396). -/

namespace Sys2Proof.Machine

/-! ## Frames and slabs (R177, R206, R312) -/

/-- A frame that an effect has taken is taken in `s`, of its size. -/
def takeFrame (t : Nat) (s : State) (q : Nat × Nat) : State :=
  let b := q.1 / slabBytes
  let v := tget ({ tenant := t, size := q.2, used := [] } : Slab) s.kv.slabs b
  if v.size ≠ q.2 then s
  else s.setKv fun k => { k with slabs := tins k.slabs b { v with used := q.1 % slabBytes / max 1 q.2 :: v.used } }

/-- The frames and structures in use in `t` and not in `s`, with their sizes. -/
def slabGrown (s t : State) : List (Nat × Nat) :=
  t.kv.slabs.flatMap fun p =>
    let was := ((s.kv.slabs.find? fun q => q.1 == p.1).map (·.2.used)).getD []
    (p.2.used.filter fun i => !was.contains i).map fun i => (p.1 * slabBytes + i * p.2.size, p.2.size)

/-- The granted extents from which a tenant's frames of a tier come: KV extents in T1, tier extents on trays that stand below
(R239, R394). -/
def tierExts (s : State) (t tier : Nat) : List Nat :=
  (s.led.exts.filter fun e => e.2.st == .granted && e.2.owner == t && tierOf (e.1 * 2 ^ 30) == tier
    && (if tier = 1 then e.2.kind == 1 else e.2.kind == 2 && !trayLost s (e.1 * 2 ^ 30))).map (·.1)

/-- No granule of a T1 frame is retired (R312). -/
def frameSound (s : State) (a size : Nat) : Bool :=
  tierOf a != 1 || (s.mem.retired.isEmpty && s.mem.retiredBanks.isEmpty)
    || (List.range (size / 4096)).all fun g => !granuleRetired s (a / 4096 + g)

/-- Frames of one size that a slab can still give, as addresses. -/
def slabFree (s : State) (slab size : Nat) (used : List Nat) : List Nat :=
  ((List.range (slabBytes / max 1 size)).filter fun i =>
    !used.contains i && frameSound s (slab * slabBytes + i * size) size).map fun i => slab * slabBytes + i * size

/-- The slabs of some extents that serve frames of this size and have one free. -/
def slabsWith (s : State) (exts : List Nat) (size : Nat) : Tbl Slab :=
  s.kv.slabs.filter fun p => p.2.size == size && exts.contains (p.1 / 32) && !(slabFree s p.1 size p.2.used).isEmpty

/-- Free slabs of some extents. -/
def freeSlabs (s : State) (exts : List Nat) : List Nat :=
  exts.flatMap fun e => ((List.range 32).map (e * 32 + ·)).filter fun b => !(s.kv.slabs.any fun p => p.1 == b)

/-- Draw a frame of `size` bytes from some extents of a tenant: from a slab that serves the size, else from a free
slab; which slab and which frame is free (R177; log entry 8). -/
def drawFrom (t : Nat) (exts : List Nat) (size : Nat) (s : State) : Option (Nat × State) :=
  let give := fun (b : Nat) (used : List Nat) =>
    let fs := slabFree s b size used
    match fs[freeAt s 1 % max 1 fs.length]? with
    | none => none
    | some a =>
      some (a, freeStep 2 (s.setKv fun k =>
        { k with slabs := tins k.slabs b { tenant := t, size := size, used := a % slabBytes / max 1 size :: used } }))
  match slabsWith s exts size with
  | p :: ps =>
    let q := (p :: ps).getD (freeAt s 0 % (ps.length + 1)) p
    give q.1 q.2.used
  | [] =>
    let bs := (freeSlabs s exts).filter fun b => !(slabFree s b size []).isEmpty
    match bs[freeAt s 0 % max 1 bs.length]? with
    | none => none
    | some b => give b []

/-- Draw a T1 frame or structure for a tenant. -/
def drawT1 (t size : Nat) (s : State) : Option (Nat × State) := drawFrom t (tierExts s t 1) size s



/-! ## Page entries, live masks and frame records -/

/-- The key of a page entry: context, layer, page number. -/
def pkey (c l p : Nat) : Nat := (c * 1024 + l) * 262144 + p
def pkeyCtx (k : Nat) : Nat := k / 262144 / 1024
def pkeyLayer (k : Nat) : Nat := k / 262144 % 1024
def pkeyPage (k : Nat) : Nat := k % 262144

/-- The entry of a page that exists (valid, R181). -/
def pageOf (s : State) (c l p : Nat) : Option Page := (s.kv.pages.find? fun q => q.1 == pkey c l p).map (·.2)

def setPage (c l p : Nat) (v : Page) (s : State) : State :=
  s.setKv fun k => { k with pages := tins k.pages (pkey c l p) v }

/-- The pages of one context, with their keys. -/
def ctxPages (s : State) (c : Nat) : Tbl Page := s.kv.pages.filter fun q => pkeyCtx q.1 == c

/-- Pages of a context's layer in rising page number. -/
def layerPages (s : State) (c l : Nat) : List (Nat × Page) :=
  (s.kv.pages.filter fun q => q.1 / 262144 == c * 1024 + l).map fun q => (pkeyPage q.1, q.2)

/-- The live mask of a page number (R182). -/
def liveOf (s : State) (c p : Nat) : BitVec 64 := tget 0 s.kv.live (c * 262144 + p)
def setLive (c p : Nat) (m : BitVec 64) (s : State) : State :=
  s.setKv fun k => { k with live := tput 0 k.live (c * 262144 + p) m }

def frameOf (s : State) (f : Nat) : Option Frame := (s.kv.frames.find? fun q => q.1 == f).map (·.2)
def setFrame (f : Nat) (v : Frame) (s : State) : State := s.setKv fun k => { k with frames := tins k.frames f v }

/-- The page entries that name a frame. -/
def namers (s : State) (f : Nat) : Tbl Page := s.kv.pages.filter fun q => q.2.frame == f

/-- The address of a frame's highest copy and its tier; tier 0: revoked or lost (R205, R239, R401). -/
def topCopy (v : Frame) : Nat × Nat :=
  match v.t1 with
  | some a => (1, a * 4096)
  | none =>
    if v.lost2 || v.lost3 || v.revoked then (0, 0)
    else match v.t2, v.t3 with
      | some a, _ => (2, a * 4096)
      | none, some a => (3, a * 4096)
      | none, none => (0, 0)



/-- The code of a read of a range of a T2 or T3 copy: the worst of its trays' poison and of what an earlier check of a line has
found, which stays with the line (R209, R303; log entry 11). -/
def lowCode (s : State) (a n : Nat) : Nat :=
  (linesIn s a (a + n)).foldl (fun c p => worseCode c (if p.2.poison then ccPoison else findCode p.2.cond)) 0

/-- A page that a revoked extent holds (R401). -/
def frameRevoked (s : State) (v : Frame) : Bool :=
  match v.t1 with
  | some a => (extOf s (a * 4096 / 2 ^ 30)).st == .escrow
  | none => v.revoked

/-- The code of a read of ranges (offset and bytes) of a page at its highest copy, with the detail: a lower copy's failures have
detail 4. -/
def frameCode (s : State) (v : Frame) (rs : List (Nat × Nat)) : Nat × Nat :=
  match topCopy v with
  | (1, a) =>
    if frameRevoked s v then (ccRevoked, 3) else (rs.foldl (fun c r => worseCode c (readCode s (a + r.1) r.2)) 0, 3)
  | (0, _) => (if v.revoked then ccRevoked else ccUncorr, 4)
  | (_, a) =>
    (if slotState s v.tenant v.epoch = 0 then ccStale else rs.foldl (fun c r => worseCode c (lowCode s (a + r.1) r.2)) 0, 4)

/-- The code of a read of a page's first `n` bytes. -/
def copyCode (s : State) (v : Frame) (n : Nat) : Nat × Nat := frameCode s v [(0, n)]

/-! ## Releasing frames (R128, R184, R185) -/

/-- Complete a range descriptor once no move that it waits for is left and every member of a striped context has
reported (R158, R229, R584). -/
def finishRange (id : Nat) (s : State) : State :=
  match flightOf s id with
  | none => s
  | some f =>
    let issued := dOpcode f.desc == 6 && rOpt f.desc
    if f.stage = .running ∧ 5 ≤ dOpcode f.desc ∧ f.members.isEmpty
        ∧ !(s.kv.moves.any fun m => m.descs.contains id && !(issued && m.started)) then
      let cs := f.codes.filter fun c => c.1 != 0
      let c := if spanMask s (dCtx f.desc) = 0 then (pickCode cs).getD (0, 0) else spanCode cs
      complete id c.1 c.2 f.r1 f.r2 s
    else s

/-- A move ends without effect: its new copy goes back, and those that waited for it go on. -/
def dropMove (m : Move) (s : State) : State :=
  let s := s.setKv fun k => { k with moves := k.moves.filter fun x => x.id != m.id }
  let size := ((frameOf s m.frame).map (·.size)).getD 4096
  let s := if m.started && m.dest != 0 then giveBack (m.dest * 4096) size s else s
  m.descs.foldl (fun s d => finishRange d s) s

/-- All copies of a frame are released with it (R207). -/
def freeFrame (f : Nat) (s : State) : State :=
  match frameOf s f with
  | none => s
  | some v =>
    let s := (s.kv.moves.filter fun m => m.frame == f).foldl (fun s m => dropMove m s) s
    let s := [v.t1, v.t2, v.t3].foldl (fun s c => match c with
      | some a => giveBack (a * 4096) v.size s
      | none => s) s
    s.setKv fun k => { k with frames := k.frames.filter fun q => q.1 != f }

/-- The running descriptors whose work items hold a frame (R128). -/
def holdersOf (s : State) (f : Nat) : List Nat :=
  (s.attn.cores.flatMap fun c => ((c.2.work.toList ++ c.2.queue).filter fun w =>
    w.tiles.any fun t => t.frame == f).map (·.desc)).eraseDups

/-- Those, and the running descriptors that a move of the frame serves. -/
def frameHolders (s : State) (f : Nat) : List Nat :=
  (holdersOf s f ++ (s.kv.moves.filter fun m => m.frame == f).flatMap (·.descs)).eraseDups

/-- One page entry that named a frame is gone: the frame's count falls by 1; at 0 it is freed, or drains. -/
def relFrame (f : Nat) (s : State) : State :=
  match frameOf s f with
  | none => s
  | some v =>
    let s := setFrame f { v with count := v.count - 1 } s
    if v.count ≤ 1 then
      match frameHolders s f with
      | [] => freeFrame f s
      | hs => s.setKv fun k => { k with drains := k.drains ++ [{ frame := f, addr := 0, size := 0, holders := hs }] }
    else s

/-- A T1 copy is released on its own, by a demotion or a new copy: it drains while a work item holds it (R211). -/
def relT1 (f a size : Nat) (s : State) : State :=
  match holdersOf s f with
  | [] => giveBack a size s
  | hs => s.setKv fun k => { k with drains := k.drains ++ [{ frame := 0, addr := a, size := size, holders := hs }] }

/-- FRAME_DRAIN_END (R128): drain `i` has no holder left. -/
def execFrameDrainEnd (i : Nat) (s : State) : Res :=
  match s.kv.drains[i]? with
  | none => .next s
  | some d =>
    if d.holders.any fun h => (flightOf s h).isSome then .next s
    else
      let s := s.setKv fun k => { k with drains := k.drains.eraseIdx i }
      .next (if d.frame = 0 then giveBack d.addr d.size s else freeFrame d.frame s)

/-! ## Context structures (R179, R180; log entry 15) -/

def skey (c kind l b : Nat) : Nat := ((c * 4 + kind) * 1024 + l) * 512 + b

/-- PA[51:12] of a structure, where it exists. -/
def structAt (s : State) (c kind l b : Nat) : Option Nat :=
  (s.kv.structs.find? fun q => q.1 == skey c kind l b).map (·.2)

/-- Bytes of a structure: level-1 block, map block, summary block, live block. -/
def structSize (c : Ctx) (kind : Nat) : Nat := if kind = 0 then 8192 else if kind = 2 then sumBlock c else 4096

/-- Make sure that a structure exists. -/
def needStruct (c kind l b : Nat) (s : State) : Option State :=
  match structAt s c kind l b with
  | some _ => some s
  | none =>
    let x := ctxOf s c
    match drawT1 x.tenant (structSize x kind) s with
    | none => none
    | some (a, s) => some (s.setKv fun k => { k with structs := tins k.structs (skey c kind l b) (a / 4096) })

/-- A structure is still needed: it has a valid entry. -/
def structUsed (s : State) (q : Nat × Nat) : Bool :=
  let b := q.1 % 512
  let l := q.1 / 512 % 1024
  let kind := q.1 / 512 / 1024 % 4
  let c := q.1 / 512 / 1024 / 4
  s.kv.pages.any fun p =>
    if kind = 3 then pkeyCtx p.1 == c && pkeyPage p.1 / 512 == b
    else p.1 / 262144 == c * 1024 + l && (kind == 0 || pkeyPage p.1 / 512 == b)

/-- Free the structures of a context whose last valid entry is gone. -/
def sweepStructs (c : Nat) (s : State) : State :=
  let x := ctxOf s c
  let gone := s.kv.structs.filter fun q => q.1 / 512 / 1024 / 4 == c && !structUsed s q
  let s := gone.foldl (fun s q => giveBack (q.2 * 4096) (structSize x (q.1 / 512 / 1024 % 4)) s) s
  s.setKv fun k => { k with structs := k.structs.filter fun q => !(gone.any fun g => g.1 == q.1) }

/-- Page records that the granted ledger extents hold, beside the written maps of the T3 extents, 2 KiB or 128 records
each (R396). -/
def recordRoom (s : State) : Bool :=
  decide (s.kv.pages.length + 128 * (s.led.exts.filter fun e => e.2.st != .free && tierOf (e.1 * 2 ^ 30) == 3).length < 67108864 * (s.led.exts.filter fun e => e.2.st == .granted && e.2.kind == 7).length)

/-- Add a page entry, with the structures and the page record it needs. -/
def addPage (c l p : Nat) (v : Page) (s : State) : Option State :=
  if !recordRoom s then none
  else do
    let s ← needStruct c 0 l 0 s
    let s ← needStruct c 1 l (p / 512) s
    let s ← needStruct c 2 l (p / 512) s
    let s ← needStruct c 3 0 (p / 512) s
    return setPage c l p v s

/-- Remove a page entry. -/
def remPage (c l p : Nat) (s : State) : State :=
  match pageOf s c l p with
  | none => s
  | some v =>
    let s := s.setKv fun k => { k with pages := k.pages.filter fun q => q.1 != pkey c l p }
    let t := (ctxOf s c).tenant
    let s := if v.pinned then setTenant t { tenantOf s t with pinned := (tenantOf s t).pinned - 1 } s else s
    relFrame v.frame s

/-- A new frame of a tenant with its T1 copy and a count of 1. -/
def newFrame (t size : Nat) (s : State) : Option (Nat × State) :=
  match drawT1 t size s with
  | none => none
  | some (a, s) =>
    let f := s.kv.nextFrame
    let v : Frame := { tenant := t, size := size, count := 1, refd := false, t1 := some (a / 4096), t2 := none
                       t3 := none, lost2 := false, lost3 := false, revoked := false, epoch := curEpoch s t }
    some (f, (setFrame f v s).setKv fun k => { k with nextFrame := f + 1 })

/-! ## Bytes of pages -/

/-- The hint kind of a page number: 0 neutral, 1 hot, 2 cold (R220). -/
def hintOf (s : State) (c p : Nat) : Nat :=
  match (ctxOf s c).hints.find? fun h => decide (h.1 ≤ p ∧ p ≤ h.2.1) with
  | some h => if h.2.2 then 1 else 2
  | none => 0

/-- The device writes bytes of a page, a structure or a record: the lines touched take the owner's tag, the current
epoch, poison 0 and `hint` (R221, R294, R432). -/
def devWrite (a hint : Nat) (bs : List Byte) (s : State) : State :=
  if bs.isEmpty then s
  else
    let s := if tierOf a = 1 then writeLines a bs.length false hint s else s
    tallyMem true a bs.length (activate true (ownerAt s a) 0xFF a bs.length (s.setMem fun m => { m with bytes := mwrite m.bytes a bs }))

/-- Copy bytes. -/
def copyBytes (src dst n hint : Nat) (s : State) : State :=
  devWrite dst hint (mread s.mem.bytes src n) (tallyMem false src n (activate false (ownerAt s src) 0xFF src n s))

/-- The stored bytes of a key (or latent row) of a page at address `a`: elements, scales. -/
def keyBytes (s : State) (c : Ctx) (fmt a h k : Nat) : List Byte × List Byte :=
  (mread s.mem.bytes (a + keyOffset c fmt h k) (vecElemBytes fmt (ctxDk c)),
   if fmtMx fmt then mread s.mem.bytes (a + keyScaleOffset c fmt h k) (ctxDk c / 32) else [])

/-- The stored bytes of a value: those of the row's first Dv elements in a latent page (R63). -/
def valBytes (s : State) (c : Ctx) (fmt a h k : Nat) : List Byte × List Byte :=
  if ctxLatent c then
    (mread s.mem.bytes (a + keyOffset c fmt h k) (vecElemBytes fmt (ctxDv c)),
     if fmtMx fmt then mread s.mem.bytes (a + keyScaleOffset c fmt h k) (ctxDv c / 32) else [])
  else
    (mread s.mem.bytes (a + valOffset c fmt h k) (vecElemBytes fmt (ctxDv c)),
     if fmtMx fmt then mread s.mem.bytes (a + valScaleOffset c fmt h k) (ctxDv c / 32) else [])

/-- A key and a value at their dequantised values (R95). -/
def keyVals (s : State) (c : Ctx) (fmt a h k : Nat) : List Dy :=
  let b := keyBytes s c fmt a h k
  vecVals fmt (ctxDk c) b.1 b.2
def valVals (s : State) (c : Ctx) (fmt a h k : Nat) : List Dy :=
  let b := valBytes s c fmt a h k
  vecVals fmt (ctxDv c) b.1 b.2

/-- Positions of a page that are live and present. -/
def tokensOf (s : State) (c p : Nat) : List Nat :=
  let n := (ctxOf s c).length
  let m := liveOf s c p
  (List.range 64).filter fun k => m.getLsbD k && decide (64 * p + k < n)

/-! ## Summaries (R96, R186 to R191) -/

/-- A summary vector's bytes: elements, then scales. -/
def sumVec (r : Rnd) (vals : List Dy) : List Byte := (summaryVec r vals).1 ++ (summaryVec r vals).2

/-- The element-wise largest, and smallest, of some vectors. -/
def vecMax (vs : List (List Dy)) : List Dy := match vs with | [] => [] | v :: t => t.foldl (List.zipWith dyMax) v
def vecMin (vs : List (List Dy)) : List Dy := match vs with | [] => [] | v :: t => t.foldl (List.zipWith dyMin) v

/-- The address of a page's summary record (R187). -/
def sumAddr (s : State) (c l p : Nat) : Nat :=
  let x := ctxOf s c
  ((structAt s c 2 l (p / 512)).getD 0) * 4096 + sumIndex x.lanes p * sumRecord x

/-- One head's maximum and minimum vectors in a record's bytes. -/
def sumRead (c : Ctx) (rec : List Byte) (h : Nat) : List Dy × List Dy :=
  let dk := ctxDk c
  let o := h * sumHead c
  let get := fun (o : Nat) => vecVals 4 dk (slice rec o dk) (slice rec (o + dk) (dk / 32))
  (get o, get (o + dk + dk / 32))

/-- The record of some keys, one list of vectors for each head (R96, R186). -/
def sumBuild (c : Ctx) (keys : List (List (List Dy))) : List Byte :=
  let body := keys.flatMap fun ks => sumVec .up (vecMax ks) ++ sumVec .down (vecMin ks)
  body ++ List.replicate (sumRecord c - body.length) 0

/-- A loose or unreadable record widened by new keys (R189). -/
def sumWiden (c : Ctx) (rec : List Byte) (keys : List (List (List Dy))) : List Byte :=
  sumBuild c (keys.zipIdx.map fun ks => ks.1 ++ [(sumRead c rec ks.2).1, (sumRead c rec ks.2).2])

/-- The values of the keys of some positions of a page at address `a`, one list for each head. -/
def pageKeys (s : State) (x : Ctx) (fmt a : Nat) (ks : List Nat) : List (List (List Dy)) :=
  (List.range (ctxHeads x)).map fun h => ks.map fun k => keyVals s x fmt a h k

/-- The K sections of a page, with their scales: what a rebuild reads (log entry 100). -/
def keyRanges (x : Ctx) (fmt : Nat) : List (Nat × Nat) :=
  (List.range (ctxHeads x)).map fun h => (h * tileBytes x fmt, tileK fmt (ctxDk x))

/-- The log's source code of the summary unit that maintains a record: of the die that holds its first granule (R190, R305). -/
def sumUnit (s : State) (c l p : Nat) : Nat := 0x44 + ctlOfAddr (sumAddr s c l p) / 6

/-- Rebuild a page's record from its live keys at its highest copy (R159, R188): exact, or unreadable where a key's read
fails; the code and detail of that failure. A page without a live key keeps a record of zeros. -/
def sumRebuild (c l p : Nat) (s : State) : (Nat × Nat) × State :=
  match pageOf s c l p with
  | none => ((0, 0), s)
  | some v =>
    match frameOf s v.frame with
    | none => ((0, 0), s)
    | some fr =>
      let x := ctxOf s c
      let a := (topCopy fr).2
      let code := frameCode s fr (keyRanges x v.fmt)
      let s := if (topCopy fr).1 = 0 then s else (keyRanges x v.fmt).foldl (fun s r => tallyMem false (a + r.1) r.2
        (if tierOf a = 1 then noteRead (sumUnit s c l p) (a + r.1) r.2 s else s)) s
      if code.1 ≠ 0 then (code, setPage c l p { v with sstate := 3 } s)
      else ((0, 0), setPage c l p { v with sstate := 1 }
        (devWrite (sumAddr s c l p) 0 (sumBuild x (pageKeys s x v.fmt a (tokensOf s c p))) s))

/-! ## The words of the map (R179, R181)

The structures hold these words; no load can reach them (R178), so they are formed from the state rather than stored beside it
(log entry 15). -/

/-- The entry that points to a structure: valid, and PA[51:12]. -/
def pointerWord (a : Nat) : BitVec 64 := BitVec.ofNat 64 (2 ^ 63 + a * 4096)

/-- The layer directory's entry, the level-1 block's first and second word of entry b, and the live directory's entry b; an entry
that points nowhere is 0. -/
def structWord (s : State) (c kind l b : Nat) : BitVec 64 := ((structAt s c kind l b).map pointerWord).getD 0

/-- The page entry of a page; 0, not valid, where the page does not exist. -/
def pageWord (s : State) (c l p : Nat) : BitVec 64 :=
  match pageOf s c l p with
  | none => 0
  | some v =>
    let fr := frameOf s v.frame
    let has := fun (t : Frame → Option Nat) => if (fr.bind t).isSome then 1 else 0
    BitVec.ofNat 64 (2 ^ 63 + v.sstate % 4 * 2 ^ 61 + v.fmt % 16 * 2 ^ 57 + has (·.t1) * 2 ^ 56 + has (·.t2) * 2 ^ 55
      + has (·.t3) * 2 ^ 54 + (if v.pinned then 2 ^ 53 else 0) + ((fr.map fun v => (topCopy v).2).getD 0) % 2 ^ 52)

end Sys2Proof.Machine
end

