-- ==== Sys2Proof/Machine/Kv.lean ====
section
/-! DEFINITION. Contexts and the descriptors that change them on the memory-side dies: OPEN, CLOSE, APPEND, FORK, TRIM
and SUMMARIZE (R140 to R159, R168 to R202, R582 to R585 for striped contexts). -/

namespace Sys2Proof.Machine

/-! ## Shared pieces -/

/-- What carrying out a descriptor gives: its code, detail and results, and the state with its effects. -/
structure Eff where
  code : Nat
  detail : Nat
  r1 : Nat
  r2 : Nat
  t1r : Nat := 0
  t1w : Nat := 0
  s : State

/-- A failure that changes nothing. -/
def effFail (code detail : Nat) (s : State) : Eff := { code := code, detail := detail, r1 := 0, r2 := 0, s := s }

/-- Count in a tenant tally b+8 (R675). -/
def tenantCount (t sub n : Nat) (s : State) : State := if t < 64 then bumpObj (0x3008 + 16 * t) sub n 64 s else s

/-- The context a descriptor names is still OPEN and its tenant's (R123, R172), the tenant not being removed. -/
def ctxGone (s : State) (f : Flight) : Option (Nat × Nat) :=
  let c := ctxOf s (dCtx f.desc)
  if (tenantOf s f.tenant).st ≠ .active then some (ccClosed, 0)
  else if c.st ≠ .open ∨ c.tenant ≠ f.tenant then some (ccBadDesc, 0x41) else none

/-- Complete with what an effect answers. -/
def completeEff (id : Nat) (e : Eff) : State :=
  let s := match flightOf e.s id with
    | some f => setFlight { f with t1r := f.t1r + e.t1r, t1w := f.t1w + e.t1w } e.s
    | none => e.s
  complete id e.code e.detail e.r1 e.r2 s

/-- What a descriptor that failed leaves: the contexts, the ledger and the bytes of `s`, and of `t` what reads have counted and
logged. -/
def undone (s t : State) : State :=
  { t with kv := s.kv, led := s.led, mem := { t.mem with bytes := s.mem.bytes, lines := s.mem.lines, written := s.mem.written } }

/-- The log's entries for a read of the copy of a page in T1. -/
def noteCopy (source : Nat) (v : Frame) (n : Nat) (s : State) : State :=
  match topCopy v with
  | (1, a) => noteRead source a n s
  | _ => s

/-- A filling page has one copy, in T1 (R207): the highest copy is brought there, and the others go. The code and detail of a
failure, or 0. -/
def onlyT1 (f : Nat) (s : State) : (Nat × Nat) × State :=
  match frameOf s f with
  | none => ((ccUncorr, 4), s)
  | some v =>
    let drop := fun (v : Frame) (s : State) => [v.t2, v.t3].foldl (fun s c => match c with
      | some a => giveBack (a * 4096) v.size s
      | none => s) (setFrame f { v with t2 := none, t3 := none } s)
    match v.t1 with
    | some _ => ((0, 0), drop v s)
    | none =>
      let c := copyCode s v v.size
      if c.1 ≠ 0 then (c, s)
      else match drawT1 v.tenant v.size s with
        | none => ((ccFull, 3), s)
        | some (a, s) => ((0, 0), drop { v with t1 := some (a / 4096) } (copyBytes (topCopy v).2 a v.size 0 s))

/-- T1 bytes of a block's pieces. -/
def t1Bytes (ps : List (Nat × Nat)) : Nat :=
  ps.foldl (fun a p => if tierOf (p.1 % 2 ^ 52) = 1 then a + p.2 else a) 0

/-! ## OPEN and CLOSE (R170 to R173, R641, R642) -/

/-- Judgement of an OPEN when it is registered: the status of the first condition that holds, 0 none (R171). -/
def openStatus (s : State) (x : Ctx) : Nat :=
  if x.st ≠ .free then 6
  else if x.stripe = 0 then 1
  else if x.dkc = 3 ∧ x.headsM1 ≠ 0 then 2
  else if !fmtKv x.fmt then 3
  else if (tenantOf s x.tenant).st ≠ .active then 4 else 0

/-- An OPEN of a context: a command that is not refused runs until OPEN_END. -/
def openCtx (c : Nat) (s : State) : Nat × State :=
  let st := openStatus s (ctxOf s c)
  let s := s.setWin fun w => { w with ctxLast := c, ctxStatus := st, ctxBusy := st == 0 }
  if st = 0 then (0, s.setKv fun k => { k with opening := some (c, s.time.cycle) }) else (abState, s)

/-- OPEN as the context window's command: judged at once; without effect while a command runs (R641, R642). -/
def ctxOpenCmd (s : State) : State :=
  if s.win.ctxBusy then s else (mirrorGate (.ctx false s.win.ctxSel) (openCtx s.win.ctxSel) s).2

/-- OPEN. -/
def execCtxOpen (s : State) : Res := .next (ctxOpenCmd s)

/-- The two directories of an OPEN (R179, R180). -/
def openDirs (x : Ctx) (s : State) : Option (Nat × Nat × State) := do
  let (a, s) ← drawT1 x.tenant (roundUp (8 * ctxLayers x) 4096) s
  let (b, s) ← drawT1 x.tenant 4096 s
  return (a / 4096, b / 4096, s)

/-- OPEN_END: the tenant is judged again and the directories are allocated; a failed OPEN leaves the entry FREE. -/
def execOpenEnd (s : State) : Res :=
  match s.kv.opening with
  | none => .next s
  | some (c, _) =>
    let x := ctxOf s c
    let s := s.setKv fun k => { k with opening := none }
    let fin := fun (st : Nat) (s : State) => s.setWin fun w => { w with ctxBusy := false, ctxStatus := st }
    if (tenantOf s x.tenant).st ≠ .active then .next (fin 4 s)
    else match openDirs x s with
      | none => .next (fin 5 s)
      | some (a, b, s) =>
        .next (fin 0 (setCtx c { x with
          st := .open, length := 0, family := c, dirAddr := a, liveAddr := b, lanes := popCount x.stripe 20
          rotSet := false, halves := false, rotDims := 0, theta := 0, posScale := 0, hints := []
          span := spanMask s c } s))

/-- CLOSE of an OPEN entry: CLOSING, its hint ranges gone (R172, R220); what waits to be dispatched is answered then. -/
def closeCtx (c : Nat) (s : State) : Nat × State :=
  let x := ctxOf s c
  let s := s.setWin fun w => { w with ctxLast := c, ctxStatus := 0 }
  (0, if x.st = .open then setCtx c { x with st := .closing, hints := [] } s else s)

/-- CLOSE as the context window's command. -/
def ctxCloseCmd (s : State) : State :=
  if s.win.ctxBusy then s else (mirrorGate (.ctx true s.win.ctxSel) (closeCtx s.win.ctxSel) s).2

/-- CLOSE. -/
def execCtxClose (s : State) : Res := .next (ctxCloseCmd s)

/-- Leave the family ring (R193). -/
def leaveFamily (c : Nat) (s : State) : State :=
  let next := (ctxOf s c).family
  let s := s.setKv fun k => { k with ctxs := k.ctxs.map fun q =>
    if q.1 ≠ c ∧ q.2.st ≠ .free ∧ q.2.family = c then (q.1, { q.2 with family := next }) else q }
  setCtx c { ctxOf s c with family := c } s

/-- The descriptors dispatched on a context and not ended. -/
def ctxBusy (s : State) (c : Nat) : Bool :=
  s.attn.flights.any fun f => (namesCtx f.desc).contains c && f.stage != .tolled && f.stage != .waiting && f.stage != .stalled

/-- A context's release walk: every page entry and every structure goes, and the entry is FREE with its ro fields at
their reset values (R172). -/
def releaseWalk (c : Nat) (s : State) : State :=
  let x := ctxOf s c
  let s := leaveFamily c s
  let s := (ctxPages s c).foldl (fun s q => remPage c (pkeyLayer q.1) (pkeyPage q.1) s) s
  let s := sweepStructs c s
  let s := s.setKv fun k => { k with live := terase k.live (c * 262144) ((c + 1) * 262144) }
  let s := giveBack (x.dirAddr * 4096) (roundUp (8 * ctxLayers x) 4096) s
  let s := giveBack (x.liveAddr * 4096) 4096 s
  setCtx c { ({} : Ctx) with tenant := x.tenant, layersM1 := x.layersM1, headsM1 := x.headsM1, dkc := x.dkc, fmt := x.fmt
                             home := x.home, stripe := x.stripe, pfEn := x.pfEn, pfForce := x.pfForce } s

/-- RELEASE_WALK_END: not before the descriptors already dispatched have ended. -/
def execReleaseWalkEnd (c : Fin 4096) (s : State) : Res :=
  if (ctxOf s c.val).st = .closing ∧ !ctxBusy s c.val then .next (releaseWalk c.val s) else .next s

/-! ## APPEND (R140 to R147) -/

/-- Check 7 of an APPEND. -/
def appendCheck (s : State) (d : Desc) : Option (Nat × Nat) :=
  let x := ctxOf s (dCtx d)
  if pPos d ≠ x.length then some (ccBadDesc, 0x44)
  else if 16777216 < pPos d + pTokens d then some (ccBadDesc, 0x43)
  else if pRotate d && x.rotSet && (x.theta != pTheta d || x.posScale != pPosScale d || x.rotDims != pRotDims d
      || x.halves != pHalves d) then some (ccBadDesc, 0x45)
  else none

/-- Offsets of the vectors of one layer, head and token in the source block: key, value (R141). -/
def srcKey (d : Desc) (c : Ctx) (l h i : Nat) : Nat :=
  let v := vecBytes (pSrcFmt d) (ctxDk c) + if ctxLatent c then 0 else vecBytes (pSrcFmt d) (ctxDv c)
  l * srcPitch d c + (h * pTokens d + i) * v
def srcVal (d : Desc) (c : Ctx) (l h i : Nat) : Nat := srcKey d c l h i + vecBytes (pSrcFmt d) (ctxDk c)

/-- A source vector: elements, scales. -/
def srcVec (d : Desc) (src : List Byte) (o n : Nat) : List Byte × List Byte :=
  (slice src o (vecElemBytes (pSrcFmt d) n), if fmtMx (pSrcFmt d) then slice src (o + vecElemBytes (pSrcFmt d) n) (n / 32) else [])

/-- Every source value is finite (R93, R142). -/
def srcFinite (d : Desc) (c : Ctx) (src : List Byte) : Bool :=
  (List.range (ctxLayers c)).all fun l => (List.range (ctxHeads c)).all fun h => (List.range (pTokens d)).all fun i =>
    let k := srcVec d src (srcKey d c l h i) (ctxDk c)
    let v := srcVec d src (srcVal d c l h i) (ctxDv c)
    vecFinite (pSrcFmt d) (ctxDk c) k.1 k.2 && (ctxLatent c || vecFinite (pSrcFmt d) (ctxDv c) v.1 v.2)

/-- The pair `k` of rotated elements: indices of its two elements (R140, R143). -/
def rotIndex (c : Ctx) (halves : Bool) (dims k : Nat) : Nat × Nat :=
  let o := if ctxLatent c then 512 else 0
  if halves then (o + k, o + k + dims / 2) else (o + 2 * k, o + 2 * k + 1)

/-- A key rotated at a position (R110, R143); each cosine and sine is an evaluated one, free within its bound. -/
def rotKey (s : State) (c : Ctx) (d : Desc) (pos : Nat) (v : List Dy) : List Dy :=
  let theta := fmtVal fmtF32 (pTheta d)
  let ps := fmtVal fmtF32 (pPosScale d)
  (List.range (pRotDims d / 2)).foldl (fun v k =>
    let a := rotAngle theta ps (pRotDims d) k pos
    let cs := rotEval (freeAt s (2 * k)) false a
    let sn := rotEval (freeAt s (2 * k + 1)) true a
    let (i, j) := rotIndex c (pHalves d) (pRotDims d) k
    let r := rotPair cs sn (v.getD i dyZero) (v.getD j dyZero)
    (v.set i r.1).set j r.2) v

/-- A source vector in the stored format: as sent where nothing changes, else converted (R111, R141, R143). -/
def storedVec (fmt : Nat) (d : Desc) (n : Nat) (b : List Byte × List Byte) (rot : Option (List Dy)) : List Byte × List Byte :=
  match rot with
  | some v => vecConvert fmt v
  | none => if fmt = pSrcFmt d then b else vecConvert fmt (vecVals (pSrcFmt d) n b.1 b.2)

/-- Write one token's key and value into a page at address `a`, position `k`. -/
def putToken (x : Ctx) (fmt a h k hint : Nat) (key val : List Byte × List Byte) (s : State) : State :=
  let s := devWrite (a + keyOffset x fmt h k) hint key.1 s
  let s := devWrite (a + keyScaleOffset x fmt h k) hint key.2 s
  if ctxLatent x then s
  else devWrite (a + valScaleOffset x fmt h k) hint val.2 (devWrite (a + valOffset x fmt h k) hint val.1 s)

/-- The pages that an APPEND touches, with its tokens in each: page, first and last index of its tokens. -/
def appendPages (d : Desc) : List (Nat × Nat × Nat) :=
  let lo := pPos d
  let hi := pPos d + pTokens d
  (List.range ((hi + 63) / 64 - lo / 64)).map fun i =>
    let p := lo / 64 + i
    (p, max lo (64 * p) - lo, min hi (64 * p + 64) - lo)

/-- One page of one layer: opened if it does not exist, its tokens written and its record widened (R145, R146, R188,
R189). A failure gives the code and detail. -/
def appendPage (d : Desc) (src : List Byte) (l : Nat) (pg : Nat × Nat × Nat) (s : State) : Nat × Nat × Nat × State :=
  let c := dCtx d
  let x := ctxOf s c
  let p := pg.1
  let fresh := (pageOf s c l p).isNone
  let made := if fresh then do
      let (f, s) ← newFrame x.tenant (frameBytes x x.fmt) s
      addPage c l p { sstate := 0, fmt := x.fmt, pinned := false, frame := f } s
    else some s
  match made with
  | none => (ccFull, 3, 0, s)
  | some s =>
    match pageOf s c l p with
    | none => (ccFull, 3, 0, s)
    | some v =>
      match onlyT1 v.frame s with
      | ((0, _), s) =>
        let fr := (frameOf s v.frame).bind (·.t1)
        let a := fr.getD 0 * 4096
        let code := if fresh then 0 else readCode s a (pageBytes x v.fmt)
        let sc := if v.sstate = 0 then 0 else readCode s (sumAddr s c l p) (sumRecord x)
        if code ≠ 0 then (code, 3, 0, noteRead 0xFF a (pageBytes x v.fmt) s)
        else if sc ≠ 0 then (sc, 2, 0, noteRead (sumUnit s c l p) (sumAddr s c l p) (sumRecord x) s)
        else
          let old := pageKeys s x v.fmt a (tokensOf s c p)
          let toks := (List.range (pg.2.2 - pg.2.1)).map (· + pg.2.1)
          let vecs := (List.range (ctxHeads x)).flatMap fun h => toks.map fun i =>
            let kb := srcVec d src (srcKey d x l h i) (ctxDk x)
            let vb := srcVec d src (srcVal d x l h i) (ctxDv x)
            let kv := if pRotate d
              then some (rotKey s x d (pPos d + i) (vecVals (pSrcFmt d) (ctxDk x) kb.1 kb.2)) else none
            (h, (pPos d + i) % 64, storedVec v.fmt d (ctxDk x) kb kv, storedVec v.fmt d (ctxDv x) vb none)
          let s := if pRotate d then freeStep (pRotDims d) s else s
          let s := vecs.foldl (fun s t => putToken x v.fmt a t.1 t.2.1 (hintOf s c p * 16) t.2.2.1 t.2.2.2 s) s
          let keys := (List.range (ctxHeads x)).map fun h =>
            (vecs.filter fun t => t.1 == h).map fun t => vecVals v.fmt (ctxDk x) t.2.2.1.1 t.2.2.1.2
          let sa := sumAddr s c l p
          let rb := if v.sstate ≤ 1 then sumBuild x (List.zipWith (· ++ ·) old keys)
            else sumWiden x (mread s.mem.bytes sa (sumRecord x)) keys
          let s := devWrite sa 0 rb s
          (0, 0, if fresh then 1 else 0, setPage c l p { v with sstate := if v.sstate = 0 then 1 else v.sstate } s)
      | ((code, dt), s) => (code, dt, 0, s)

/-- All pages of an APPEND on this device; the first failure ends it. -/
def appendAll (d : Desc) (src : List Byte) : List (Nat × Nat × Nat × Nat) → Nat → State → Nat × Nat × Nat × State
  | [], n, s => (0, 0, n, s)
  | (l, pg) :: t, n, s =>
    match appendPage d src l pg s with
    | (0, _, k, s) => appendAll d src t (n + k) s
    | (c, dt, _, s) => (c, dt, n, s)

/-- Checks 7 and 8 of an APPEND and its effect. A failing APPEND leaves the length and releases what it opened (R145;
log entry 19). -/
def appendEff (d : Desc) (src : List Byte) (s : State) : Eff :=
  let c := dCtx d
  let x := ctxOf s c
  match appendCheck s d with
  | some (code, dt) => { effFail code dt s with r1 := x.length }
  | none =>
    if !srcFinite d x src then { effFail ccBadDesc 0x40 s with r1 := x.length }
    else
      let work := (List.range (ctxLayers x)).flatMap fun l =>
        ((appendPages d).filter fun pg => ownPage s c pg.1).map fun pg => (l, pg)
      match appendAll d src work 0 s with
      | (0, _, n, s) =>
        let s := (appendPages d).foldl (fun s pg =>
          let bits := BitVec.ofNat 64 ((2 ^ (pg.2.2 - pg.2.1) - 1) * 2 ^ ((pPos d + pg.2.1) % 64))
          setLive c pg.1 (liveOf s c pg.1 ||| bits) s) s
        let x := { ctxOf s c with length := x.length + pTokens d }
        let x := if pRotate d then { x with rotSet := true, halves := pHalves d, rotDims := pRotDims d, theta := pTheta d
                                            posScale := pPosScale d } else x
        { code := 0, detail := 0, r1 := x.length, r2 := n, s := setCtx c x s
          t1w := ctxLayers x * ctxHeads x * pTokens d * (vecBytes x.fmt (ctxDk x) + if ctxLatent x then 0 else vecBytes x.fmt (ctxDv x)) }
      | (code, dt, _, t) => { effFail code dt (undone s t) with r1 := x.length }

/-! ## FORK (R148 to R151, R192 to R194) -/

/-- Check 7 of a FORK: the destination, then the prefix. -/
def forkCheck (s : State) (d : Desc) : Option (Nat × Nat) :=
  let x := ctxOf s (dCtx d)
  let y := ctxOf s (fDst d)
  if y.st ≠ .open ∨ y.tenant ≠ x.tenant ∨ y.length ≠ 0 ∨ y.layersM1 ≠ x.layersM1 ∨ y.headsM1 ≠ x.headsM1 ∨ y.dkc ≠ x.dkc
    ∨ y.fmt ≠ x.fmt then some (ccBadDesc, 0x42)
  else if x.length < fPrefix d then some (ccBadDesc, 0x43) else none

/-- Share one page: the entry, the count and the summary record in the destination's lane order (R150, R185, R194). -/
def forkShare (c e l p : Nat) (v : Page) (s : State) : Nat × State :=
  match frameOf s v.frame with
  | none => (ccFull, s)
  | some fr =>
    if frameRevoked s fr then (ccRevoked, s)
    else if 4096 ≤ fr.count then (ccFull, s)
    else
      let x := ctxOf s c
      let a := sumAddr s c l p
      let bad := readCode s a (sumRecord x)
      match addPage e l p { v with pinned := false, sstate := if bad = 0 then v.sstate else 3 } s with
      | none => (ccFull, s)
      | some s =>
        let s := setFrame v.frame { fr with count := fr.count + 1 } s
        (0, if bad = 0 then copyBytes a (sumAddr s e l p) (sumRecord x) 0 s else noteRead (sumUnit s c l p) a (sumRecord x) s)

/-- A private copy of a page for context `e` from the highest copy of its frame: the code and detail of a failure, or
the state with the new entry in place (R150, R154). The record is rebuilt once the live mask is set. -/
def privateCopy (e l p : Nat) (v : Page) (pinned : Bool) (s : State) : Nat × Nat × State :=
  let x := ctxOf s e
  match frameOf s v.frame with
  | none => (ccUncorr, 4, s)
  | some fr =>
    let n := pageBytes x v.fmt
    let c := copyCode s fr n
    if c.1 ≠ 0 then (c.1, c.2, noteCopy 0xFF fr n s)
    else
      let made := do
        let (f, s) ← newFrame x.tenant (frameBytes x v.fmt) s
        let s ← addPage e l p { sstate := 0, fmt := v.fmt, pinned := pinned, frame := f } s
        return (f, s)
      match made with
      | none => (ccFull, 3, s)
      | some (f, s) =>
        let a := ((frameOf s f).bind (·.t1)).getD 0 * 4096
        (0, 0, copyBytes (topCopy fr).2 a n (hintOf s e p * 16) s)

/-- The pages of a FORK, layer by layer; the first failure ends it. -/
def forkAll (c e n : Nat) : List (Nat × Nat × Page) → Nat → State → Nat × Nat × Nat × State
  | [], k, s => (0, 0, k, s)
  | (l, p, v) :: t, k, s =>
    if 64 * (p + 1) ≤ n then
      match forkShare c e l p v s with
      | (0, s) => forkAll c e n t (k + 1) s
      | (code, s) => (code, 3, k, s)
    else
      match privateCopy e l p v false s with
      | (0, _, s) =>
        match sumRebuild e l p s with
        | ((0, _), s) => forkAll c e n t k s
        | ((code, dt), s) => (code, dt, k, s)
      | (code, dt, s) => (code, dt, k, s)

/-- Checks and effect of a FORK. -/
def forkEff (d : Desc) (s : State) : Eff :=
  let c := dCtx d
  let e := fDst d
  let n := fPrefix d
  match forkCheck s d with
  | some (code, dt) => effFail code dt s
  | none =>
    if n = 0 then { code := 0, detail := 0, r1 := 0, r2 := 0, s := s }
    else
      let x := ctxOf s c
      let s0 := leaveFamily e s
      let s1 := setCtx e { ctxOf s0 e with length := n, family := (ctxOf s0 c).family, rotSet := x.rotSet, halves := x.halves
                                           rotDims := x.rotDims, theta := x.theta, posScale := x.posScale } s0
      let s1 := setCtx c { ctxOf s1 c with family := e } s1
      let s1 := (List.range ((n + 63) / 64)).foldl (fun s p =>
        setLive e p (if 64 * (p + 1) ≤ n then liveOf s c p else liveOf s c p &&& BitVec.ofNat 64 (2 ^ (n % 64) - 1)) s) s1
      let work := (List.range (ctxLayers x)).flatMap fun l =>
        ((layerPages s c l).filter fun q => decide (64 * q.1 < n)).map fun q => (l, q.1, q.2)
      match forkAll c e n work 0 s1 with
      | (0, _, k, s) => { code := 0, detail := 0, r1 := n, r2 := k, s := s }
      | (code, dt, _, t) => effFail code dt (undone s t)

/-! ## TRIM (R152 to R155, R182, R183, R195) -/

/-- The mask of a page's positions that a TRIM keeps. -/
def trimMask (d : Desc) (p : Nat) : BitVec 64 :=
  BitVec.ofNat 64 ((List.range 64).foldl (fun a k =>
    let j := 64 * p + k
    if j < tSinks d ∨ (tKeep d ≤ j ∧ j < tLen d) then a + 2 ^ k else a) 0)

/-- What a TRIM owes the page of the new last position, which is filling from now on: a private copy where it is shared, and else
its one copy in T1 (R154, R207). -/
def trimCopies (c p : Nat) : List Nat → State → Nat × Nat × State
  | [], s => (0, 0, s)
  | l :: t, s =>
    match pageOf s c l p with
    | none => trimCopies c p t s
    | some v =>
      if ((frameOf s v.frame).map (·.count)).getD 1 ≤ 1 then
        match onlyT1 v.frame s with
        | ((0, _), s) => trimCopies c p t s
        | ((code, dt), s) => (code, dt, s)
      else
        match privateCopy c l p v v.pinned s with
        | (0, _, s) =>
          match sumRebuild c l p (relFrame v.frame s) with
          | ((0, _), s) => trimCopies c p t s
          | ((code, dt), s) => (code, dt, s)
        | (code, dt, s) => (code, dt, s)

/-- An exact page entry of the context, a live bit of whose page number the TRIM clears (R188). -/
def trimLoose (c : Nat) (masks : List (Nat × BitVec 64 × BitVec 64)) (q : Nat × Page) : Bool :=
  pkeyCtx q.1 == c && q.2.sstate == 1 && masks.any fun m => m.1 == pkeyPage q.1 && m.2.1 != m.2.2

/-- Check and effect of a TRIM. -/
def trimEff (d : Desc) (s : State) : Eff :=
  let c := dCtx d
  let x := ctxOf s c
  if tKeep d < tSinks d ∨ tLen d < tKeep d ∨ x.length < tLen d then effFail ccBadDesc 0x43 s
  else
    let masks := (s.kv.live.filter fun q => q.1 / 262144 == c).map fun q => (q.1 % 262144, q.2, q.2 &&& trimMask d (q.1 % 262144))
    let s1 := setCtx c { x with length := tLen d } s
    let s1 := masks.foldl (fun s m => setLive c m.1 m.2.2 s) s1
    let gone := (ctxPages s c).filter fun q => masks.any fun m => m.1 == pkeyPage q.1 && m.2.2 == 0 && m.2.1 != 0
    let s1 := gone.foldl (fun s q => remPage c (pkeyLayer q.1) (pkeyPage q.1) s) s1
    let s1 := s1.setKv fun k => { k with pages := k.pages.map fun q =>
      (if trimLoose c masks q then (q.1, { q.2 with sstate := 2 }) else q) }
    let r := if tLen d % 64 = 0 then (0, 0, s1) else trimCopies c (tLen d / 64) (List.range (ctxLayers x)) s1
    match r with
    | (0, _, s) => { code := 0, detail := 0, r1 := tLen d, r2 := gone.length, s := sweepStructs c s }
    | (code, dt, t) => effFail code dt (undone s t)

/-! ## Range descriptors: their pages (R156, R157) -/

/-- Positions of a page inside the range, as a mask. -/
def rangeMask (d : Desc) (p : Nat) : BitVec 64 :=
  BitVec.ofNat 64 ((List.range 64).foldl (fun a k =>
    if rFirst d ≤ 64 * p + k ∧ 64 * p + k ≤ rLast d then a + 2 ^ k else a) 0)

/-- The pages of a range on this device, layer by layer: those with a live token in it; for COMPACT the full pages
wholly in it. -/
def rangePages (s : State) (d : Desc) : List (Nat × Nat) :=
  let c := dCtx d
  let x := ctxOf s c
  (List.range (rangeLayers d x)).flatMap fun i =>
    let l := dLayer d + i
    ((layerPages s c l).filter fun q =>
      if dOpcode d = 9 then decide (rFirst d ≤ 64 * q.1 ∧ 64 * q.1 + 63 ≤ rLast d ∧ 64 * q.1 + 64 ≤ x.length)
      else (liveOf s c q.1 &&& rangeMask d q.1) != 0#64).map fun q => (l, q.1)

/-- SUMMARIZE page by page (R158, R159): pages rebuilt, pages failed, the failures seen. -/
def summarizeAll (c : Nat) : List (Nat × Nat) → Nat → Nat → List (Nat × Nat) → State → Eff
  | [], a, b, cs, s =>
    match pickCode cs with
    | some (code, dt) => { code := code, detail := dt, r1 := a, r2 := b, s := s }
    | none => { code := 0, detail := 0, r1 := a, r2 := b, s := s }
  | (l, p) :: t, a, b, cs, s =>
    match sumRebuild c l p s with
    | ((0, _), s) => summarizeAll c t (a + 1) b cs s
    | (code, s) => summarizeAll c t a (b + 1) (cs ++ [code]) s

def summarizeEff (d : Desc) (s : State) : Eff := summarizeAll (dCtx d) (rangePages s d) 0 0 [] s

/-! ## Dispatch on one device or over a span (R584 to R586) -/

/-- A span message to a member: to both twins of a pair that can be reached (R579). -/
def spanSend (kind arg : Nat) (bs : List Byte) (s : State) (i : Nat) : State :=
  (routesTo s i).foldl (fun s l => emit (.span l kind arg bs) s) s

/-- The digest of this device's span map goes to the keystone (R577; kind 8 on a span). -/
def sendDigest (s : State) : State :=
  let b := objDom s 0x8000 1
  let k := (b.getD 1 0xFF).toNat
  if b.isEmpty ∨ k = ownIndex s then s else spanSend 8 (ownIndex s) (leBytes (Config.sha384 b).toNat 48) s k

/-- The part of a striped descriptor that goes to a member: descriptor and input bytes (kind 1 on a span). -/
def sendPart (f : Flight) (s : State) (i : Nat) : State := spanSend 1 f.id (leBytes f.desc.toNat 64 ++ f.input) s i

/-- Start a descriptor on a striped context at its entry device: its parts go to the other members; an unreachable
one counts as reporting 0x40 (R579). `own` is what this device's part reports. -/
def startStriped (f : Flight) (own : Nat × Nat) (s : State) : State :=
  let ms := otherMembers s (dCtx f.desc)
  let lost := ms.filter fun i => !reachable s i
  let f := { f with stage := .running, members := ms.filter (reachable s)
                    codes := own :: lost.map fun _ => (ccFenced, 0) }
  f.members.foldl (sendPart f) (setFlight f s)

/-- The descriptor of a flight is one of the two-phase kind (R585). -/
def twoPhase (d : Desc) : Bool := dOpcode d == 2 || dOpcode d == 3 || dOpcode d == 4

/-- Effect of a descriptor of the memory-side dies. -/
def memEff (d : Desc) (input : List Byte) (s : State) : Eff :=
  if dOpcode d = 2 then appendEff d input s
  else if dOpcode d = 3 then forkEff d s
  else if dOpcode d = 4 then trimEff d s
  else summarizeEff d s

/-- A part of the two-phase kind is prepared: the frames that its effect takes are held for it, and nothing else changes
(R585). -/
def preparePart (f : Flight) (e : Eff) (s : State) : Flight × State :=
  if e.code ≠ 0 then (f, s)
  else
    let q := slabGrown s e.s
    ({ f with prep := q }, q.foldl (takeFrame f.tenant) s)

/-- The effect of a prepared part, on the state in which what was held for it is free again. -/
def applyPart (f : Flight) (s : State) : Eff := memEff f.desc f.input (givePrep f (setFlight { f with prep := [] } s))

/-- A striped descriptor whose members have all reported: commit or abort for the two-phase kind (kinds 2 and 3 on a
span), then the entry with the code of R586. -/
def finishStriped (id : Nat) (s : State) : State :=
  match flightOf s id with
  | none => s
  | some f =>
    if !f.members.isEmpty then s
    else
      let code := spanCode f.codes
      let ms := (otherMembers s (dCtx f.desc)).filter (reachable s)
      let len := (ctxOf s (dCtx f.desc)).length
      if twoPhase f.desc then
        if code.1 = 0 then
          let e := applyPart f (ms.foldl (spanSend 2 id []) s)
          completeEff id { e with r2 := e.r2 + f.r2 }
        else complete id code.1 code.2 len 0 (ms.foldl (spanSend 3 id []) s)
      else finishRange id s

/-- Carry out a dispatched descriptor of the memory-side dies. -/
def runMem (f : Flight) (s : State) : State :=
  let s := noteDispatch f s
  match ctxGone s f with
  | some (code, dt) => complete f.id code dt (if dOpcode f.desc = 2 then (ctxOf s (dCtx f.desc)).length else 0) 0 s
  | none =>
    if spanMask s (dCtx f.desc) = 0 then completeEff f.id (memEff f.desc f.input s)
    else
      let e := memEff f.desc f.input s
      if twoPhase f.desc then
        let (f, s) := preparePart f e s
        finishStriped f.id (startStriped f (e.code, e.detail) s)
      else finishStriped f.id (startStriped { f with r1 := e.r1, r2 := e.r2 } (e.code, e.detail) e.s)

/-- FORK (R148 to R151). -/
def execFork (d : Nat) (s : State) : Res :=
  match dispatchable s d 3 with
  | none => .next (atGate d 3 s)
  | some f => .next (runMem f s)

/-- TRIM (R152 to R155). -/
def execTrim (d : Nat) (s : State) : Res :=
  match dispatchable s d 4 with
  | none => .next (atGate d 4 s)
  | some f => .next (runMem f s)

/-- SUMMARIZE (R159). -/
def execSummarize (d : Nat) (s : State) : Res :=
  match dispatchable s d 5 with
  | none => .next (atGate d 5 s)
  | some f => .next (runMem f s)

end Sys2Proof.Machine
end

