-- ==== Sys2Proof/Machine/Reads.lean ====
section
/-! DEFINITION. A core's staging and its fetch engine: the granules read and consumed, the array's waits, and what a failed wait
leaves behind (R65 to R68, R366). -/

namespace Sys2Proof.Machine

/-- A read meets what its decoder finds: the finding stays with the stored line (log entry 11). -/
def meet (a : Nat) (f : Finding) (s : State) : State :=
  if f = .clean then s else setLine (a / 64) { lineOf s (a / 64) with cond := f } s

/-- Pieces of at most 4 KiB, not crossing a 4 KiB boundary (R66). -/
def granules : Nat → Nat → Nat → List (Nat × Nat)
  | 0, _, _ => []
  | k + 1, a, n =>
    if n = 0 then []
    else
      let m := min n (4096 - a % 4096)
      (a, m) :: granules k (a + m) (n - m)

/-- Pieces of a range. -/
def piecesOf (a n : Nat) : List (Nat × Nat) := granules (n / 4096 + 2) a n

/-- The address of a tile whose page is resident in T1: the draft tile reads nothing. -/
def tileAddr (s : State) (x : Ctx) (t : Tile) : Option Nat :=
  match (frameOf s t.frame).bind (·.t1) with
  | some a => some (a * 4096 + t.head * tileBytes x t.fmt)
  | none => none

/-- The draft tile of R87. -/
def isDraft (t : Tile) : Bool := t.page == 2 ^ 40

/-- Layer and page of an entry: a COMPACT's share runs over several layers, and its entries number page by layer. -/
def tileLayer (w : Work) (t : Tile) : Nat := if w.compact then t.page / 262144 else w.layer
def tilePage (w : Work) (t : Tile) : Nat := if w.compact then t.page % 262144 else t.page

/-- Bytes that the fetch engine reads for one entry of its list: in the summary pass a page's record, in the stream a tile, the
draft tile's none, and for a COMPACT a page. -/
def entryLen (s : State) (w : Work) (t : Tile) : Nat :=
  let x := ctxOf s w.ctx
  match w.phase with
  | .summary => sumRecord x
  | .compact => pageBytes x t.fmt
  | _ => if isDraft t then 0 else tileBytes x t.fmt

/-- Their address, where they are resident in T1. -/
def entryAt (s : State) (w : Work) (t : Tile) : Option Nat :=
  match w.phase with
  | .summary => some (sumAddr s w.ctx w.layer t.page)
  | .compact => ((frameOf s t.frame).bind (·.t1)).map (· * 4096)
  | _ => if isDraft t then some 0 else tileAddr s (ctxOf s w.ctx) t

/-- Reads outstanding: the granules whose ready bit is clear. -/
def outstanding (w : Work) : List Granule := w.stage.filter fun g => !g.ready

/-- Issue one read, or note that an entry's reads are all issued. A read needs fewer than 256 outstanding, a free granule of the
half that the array is not reading, and a resident entry (R65, R66, R68, R366); a COMPACT reads one page at a time. -/
def issueOne (s : State) (w : Work) : Option Work :=
  match w.toIssue with
  | [] => none
  | t :: rest =>
    if w.phase = .compact ∧ !w.issued.isEmpty then none
    else match (if w.part = 0 then entryAt s w t else t.addr) with
      | none => none
      | some a =>
        match (piecesOf a (entryLen s w t))[w.part]? with
        | none => some { w with toIssue := rest, part := 0, issued := w.issued ++ [{ t with addr := some a }] }
        | some p =>
          if 256 ≤ (outstanding w).length ∨ 1536 ≤ w.loaded then none
          else some { w with
            toIssue := { t with addr := some a } :: rest, part := w.part + 1, loaded := w.loaded + 1
            stage := w.stage ++ [{ half := !w.reading, page := t.page, head := t.head, addr := p.1, len := p.2, ready := false }] }

/-- Issue reads in order while one can be. -/
def issueLoop (s : State) : Nat → Work → Work
  | 0, w => w
  | k + 1, w => match issueOne s w with
    | none => w
    | some w => issueLoop s k w

/-- The array moves to the other half once nothing of its own is left and the next granule is ready: its own is released whole
(R65). -/
def moveHalf (w : Work) : Work :=
  match w.stage with
  | g :: _ => if g.ready && g.half != w.reading && !(w.stage.any fun h => h.half == w.reading)
      then { w with reading := !w.reading, loaded := 0 } else w
  | [] => w

/-- The next entry that the array can take: the oldest issued one, when all its granules are ready. -/
def nextIn (w : Work) : Option Tile :=
  match w.issued with
  | t :: _ => if w.stage.any fun g => g.page == t.page && g.head == t.head && !g.ready then none else some t
  | [] => none

/-- Its granules are consumed. -/
def takeEntry (t : Tile) (w : Work) : Work :=
  moveHalf { w with issued := w.issued.drop 1, stage := w.stage.filter fun g => !(g.page == t.page && g.head == t.head) }

/-- The array waits: there is something to read, and what comes next is not ready. -/
def waiting (w : Work) : Bool := (!w.issued.isEmpty || !w.toIssue.isEmpty) && (nextIn w).isNone

/-- Add to a field of the running counts of R660: bytes, tiles, busy cycles, stall cycles, rounds. -/
def runCount (c i n : Nat) (s : State) : State :=
  s.setTal fun t => { t with coreRun := tmod [] t.coreRun c (fun l =>
    (List.range 5).map fun j => l.getD j 0 + if j = i then n else 0) }

/-- A wait of the array begins, or ends: the stall is counted in core cycles, 5 to every 4 of the truss, and the watchdog's time
has stood (R67, R245). -/
def noteWait (c : Nat) (s : State) : State :=
  let k := coreOf s c
  match k.work with
  | none => s
  | some w =>
    match waiting w, w.waitAt with
    | true, none => setCore c { k with work := some { w with waitAt := some s.time.cycle } } s
    | false, some a =>
      let n := s.time.cycle - a
      runCount c 3 (n * 5 / 4) (tallyAdd 0x7003 c 1 (n * 5 / 4)
        (setCore c { k with work := some { w with waitAt := none, tick := w.tick + n } } s))
    | _, _ => s

/-- Let a core's fetch engine issue what it can. -/
def issueReads (c : Nat) (s : State) : State :=
  let k := coreOf s c
  match k.work with
  | none => s
  | some w => noteWait c (setCore c { k with work := some (issueLoop s (w.toIssue.length + 257) w) } s)

/-- Every core's fetch engine goes on: a page has become resident. -/
def issueAll (s : State) : State := (List.range 20).foldl (fun s c => issueReads c s) s

/-- The tile a core waits for can never be read: its descriptor fails with this code, and the tile is passed over. -/
def failTile (frame code detail : Nat) (s : State) (c : Nat) : State :=
  let k := coreOf s c
  match k.work with
  | none => s
  | some w =>
    if w.toIssue.any fun t => t.frame == frame then
      setCore c { k with work := some { w with
        toIssue := w.toIssue.filter fun t => t.frame != frame, part := 0
        stage := w.stage.filter fun g => w.issued.any fun t => t.page == g.page && t.head == g.head
        codes := w.codes ++ [(code, detail)] } } s
    else s

end Sys2Proof.Machine
end

