-- ==== Sys2Proof/Machine/Tiers.lean ====
section
/-! DEFINITION. The tiers: hints, moves and their budgets, demotion, flash endurance, the tier caches and the trays
(R203 to R242), and the descriptors PREFETCH, PIN and EVICT (R160). -/

namespace Sys2Proof.Machine

/-! ## Hints (R218 to R221) -/

/-- A hint is dropped and counted, or it replaces the ranges it overlaps (R219, R220). -/
def tierHint (w : Win) (v : BitVec 64) (s : State) : State :=
  match winQp s w with
  | none => s
  | some q =>
    let c := hintCtx v
    let x := ctxOf s c
    let lo := hintFirst v
    let hi := hintFirst v + hintPages v
    if x.st ≠ .open ∨ x.tenant ≠ (qpOf s q).tenant ∨ hintReserved v ∨ hintKind v = 3 ∨ 262143 < hi then
      bumpObj 0x4300 0x0A 1 32 s
    else
      let left := x.hints.filter fun h => decide (h.2.1 < lo ∨ hi < h.1)
      let hs := if hintKind v = 0 then left
        else (if 8 ≤ left.length then left.drop 1 else left) ++ [(lo, hi, hintKind v == 1)]
      setCtx c { x with hints := hs } s

/-- TIERHINT. -/
def execTierhint (w : Win) (v : BitVec 64) (s : State) : Res := .next (tierHint w v s)

/-- The hint of a frame: hot where a naming entry is hot, cold where all are cold (R221). -/
def frameHint (s : State) (f : Nat) : Nat :=
  let hs := (namers s f).map fun q => hintOf s (pkeyCtx q.1) (pkeyPage q.1)
  if hs.contains 1 then 1 else if !hs.isEmpty && hs.all (· == 2) then 2 else 0

/-! ## Endurance (R231, R232) -/

/-- A namespace's bucket depth and fill in a cycle, in bytes × 7.2e12, the truss cycles of an hour. -/
def nsBudget (s : State) (n : Nat) : Nat := obj s 0x4211 (n + 1)
def nsDepth (s : State) (n : Nat) : Nat := obj s 0x4300 7 * nsBudget s n * 1000000000 * 7200000000000

/-- The namespace with its bucket brought up to this cycle. -/
def nsNow (s : State) (n : Nat) : Tray :=
  let t := tget ({} : Tray) s.kv.nss n
  { t with tokens := min (nsDepth s n) (t.tokens + (s.time.cycle - t.tokensAt) * nsBudget s n * 1000000000)
           tokensAt := s.time.cycle }

/-- A write of `n` bytes is covered; a budget of 0 is no limit. -/
def nsCovers (s : State) (ns n : Nat) : Bool :=
  nsBudget s ns == 0 || decide (n * 7200000000000 ≤ (nsNow s ns).tokens)

/-- The migration tolls and the endurance buckets are brought up to this cycle before one of their rates changes. -/
def ratesSettle (s : State) : State :=
  let s := (s.shape.tolls.filter fun t => t.1 == 200 || decide (300 ≤ t.1)).foldl (fun s t => setToll t.1 (tollNow s t.1) s) s
  s.setKv fun k => { k with nss := k.nss.map fun q => (q.1, nsNow s q.1) }

/-- A T3 write of `n` bytes: its tokens go, and 4212 counts it. -/
def nsTake (ns n : Nat) (s : State) : State :=
  let t := nsNow s ns
  let t := if nsBudget s ns = 0 then t else { t with tokens := t.tokens - n * 7200000000000 }
  bumpObj 0x4212 (ns + 1) n 64 (s.setKv fun k => { k with nss := tput ({} : Tray) k.nss ns t })

/-! ## What may move (R212, R213) -/

/-- A frame whose T1 copy stays: a naming page is filling, holds its context's last position, or its context is CLOSING. -/
def fixedUp (s : State) (f : Nat) : Bool :=
  (namers s f).any fun q =>
    let x := ctxOf s (pkeyCtx q.1)
    x.st == .closing || decide (x.length < 64 * pkeyPage q.1 + 64) || pkeyPage q.1 == (x.length - 1) / 64

/-- A frame that is never demoted: those, and a pinned one. -/
def staysUp (s : State) (f : Nat) : Bool := fixedUp s f || (namers s f).any fun q => q.2.pinned

/-- The present step and layer slot as one number, for the lateness of R226: a step has at most 1,024 slots. -/
def slotNow (s : State) : Nat := (s.clk.last + s.clk.internal) * 2048 + phaseOf s * s.clk.layers / 65536

/-- Commands that served a move, a block or neither are done with. -/
def nvmeDrop (p : NvmeCmd → Bool) (s : State) : State :=
  { s with ports := { s.ports with nvme := s.ports.nvme.filter fun c => !p c } }

/-- A move leaves the list, and those that waited for it go on. -/
def endMove (m : Move) (s : State) : State :=
  let s := nvmeDrop (fun c => c.move == some m.id) (s.setKv fun k => { k with moves := k.moves.filter fun x => x.id != m.id })
  m.descs.foldl (fun s d => finishRange d s) s

/-- A step-locked promotion whose slot has begun before it did is late. -/
def moveLate (s : State) (m : Move) : Bool := !m.started && (match m.slot with | some a => decide (a ≤ slotNow s) | none => false)

/-- It is dropped and counted (R226). -/
def lateDrop (s : State) (m : Move) : State := endMove m (tenantCount m.tenant 0x0E 1 (bumpObj 0x4300 0x0C 1 32 s))

/-- Raise a move, or let the request join, wait behind or be dropped as R213 says. -/
def raiseMove (frame target : Nat) (up : Bool) (prio : Nat) (drop2 : Bool) (desc core slot : Option Nat) (s : State) :
    State :=
  let s := (s.kv.moves.filter fun m => m.frame == frame && moveLate s m).foldl lateDrop s
  let ms := s.kv.moves.filter fun m => m.frame == frame
  let joins := fun (m : Move) => m.up == up && (if up then decide (m.target ≤ target) || core.isSome else m.target == target)
  match ms.find? joins with
  | some m =>
    s.setKv fun k => { k with moves := k.moves.map fun n =>
      (if n.id = m.id then { n with prio := min n.prio prio, descs := n.descs ++ desc.toList, cores := n.cores ++ core.toList
                                    drop2 := n.drop2 || drop2
                                    slot := if core.isSome || desc.isSome then none else n.slot } else n) }
  | none =>
    if !up && desc.isNone && ms.any (·.up) then s
    else
      let t := ((frameOf s frame).map (·.tenant)).getD 0
      s.setKv fun k => { k with
        nextMove := k.nextMove + 1
        moves := k.moves ++ [{ id := k.nextMove, frame := frame, target := target, up := up, prio := prio, started := false
                               dest := 0, drop2 := drop2, descs := desc.toList, cores := core.toList, slot := slot, tenant := t }] }

/-! ## The clock sweep (R222, R223) -/

/-- The T1 frames of a tenant that may be demoted, in sweep order from the hand. -/
def sweepOrder (s : State) (t : Nat) : List Nat :=
  let fs := (s.kv.frames.filter fun q => q.2.tenant == t && q.2.t1.isSome && q.2.count != 0 && !staysUp s q.1
    && !(s.kv.moves.any fun m => m.frame == q.1)).map (·.1)
  let h := tget 0 s.kv.hands t
  (fs.filter fun f => decide (h < f)) ++ fs.filter fun f => decide (f ≤ h)

/-- One pass over candidates: set bits are cleared and passed over; the first clear one is the victim, else, after a
whole turn, the first. -/
def sweepPass (fs : List Nat) (s : State) : Option Nat × State :=
  let set := fun (f : Nat) => ((frameOf s f).map (·.refd)).getD false
  ((fs.find? fun f => !set f).orElse fun _ => fs.head?,
   (fs.takeWhile set).foldl (fun s f => match frameOf s f with
     | some v => setFrame f { v with refd := false } s
     | none => s) s)

/-- The victim, none of `not`: cold frames first, then neutral, then hot; the hand moves to it. -/
def pickVictim (t : Nat) (not : List Nat) (s : State) : Option Nat × State :=
  let fs := (sweepOrder s t).filter fun f => !not.contains f
  let cls := fun (k : Nat) => fs.filter fun f => frameHint s f == k
  let go := if !(cls 2).isEmpty then cls 2 else if !(cls 0).isEmpty then cls 0 else cls 1
  match sweepPass go s with
  | (some f, s) => (some f, s.setKv fun k => { k with hands := tput 0 k.hands t f })
  | r => r

/-- A tenant's T1 KV bytes, and those free for page frames (R222; log entry 20). -/
def kvBytes (s : State) (t : Nat) : Nat := (tierExts s t 1).length * 2 ^ 30
def kvFree (s : State) (t : Nat) : Nat :=
  let es := tierExts s t 1
  kvBytes s t - (s.kv.slabs.filter fun p => es.contains (p.1 / 32)).foldl (fun n p => n + p.2.size * p.2.used.length) 0

/-! ## Starting and ending moves (R210 to R217, R227, R228) -/

/-- A command goes to the controller behind a namespace (R560): opcode 1 Write, 2 Read, 9 Dataset Management. -/
def nvmeSend (ns opc : Nat) (move block : Option Nat) (addr len : Nat) (s : State) : State :=
  let port := (tget ({} : Tray) s.kv.nss ns).port
  let cid := s.ports.nextCid
  emit (.tray port opc cid addr len) { s with ports := { s.ports with
    nextCid := (cid + 1) % 65536
    nvme := s.ports.nvme ++ [{ port := port, cid := cid, ns := ns, opc := opc, move := move, block := block
                               at_ := s.time.cycle, aborting := false }] } }

/-- The residency records of a frame leave the fault queue: their tiles replay (R366, R368). -/
def residencyDone (s : State) : State :=
  let key := fun (r : FaultRec) => r.kind == 0 && (match (s.kv.pages.find? fun q => q.1 == r.addr).bind fun q => frameOf s q.2.frame with
    | some v => v.t1.isSome
    | none => true)
  issueAll (s.setXl fun x => { x with queue := x.queue.filter fun r => !key r, holding := x.holding.filter fun r => !key r })

/-- A move fails: its descriptors note the code, its cores pass the tile over. -/
def failMove (m : Move) (code detail : Nat) (s : State) : State :=
  let s := if m.started && m.dest != 0 then giveBack (m.dest * 4096) (((frameOf s m.frame).map (·.size)).getD 4096) s else s
  let s := m.descs.foldl (fun s d => match flightOf s d with
    | some f => setFlight { f with codes := f.codes ++ [(code, detail)] } s
    | none => s) s
  let s := m.cores.foldl (failTile m.frame code detail) s
  let gone := fun (r : FaultRec) => r.kind == 0 && (match s.kv.pages.find? fun q => q.1 == r.addr with
    | some q => q.2.frame == m.frame
    | none => true)
  let s := s.setXl fun x => { x with queue := x.queue.filter fun r => !gone r, holding := x.holding.filter fun r => !gone r }
  issueAll (endMove m s)

/-- The cores that wait for a page that has come to T2 wait for T1 (R216). -/
def climb (m : Move) (s : State) : State :=
  m.cores.foldl (fun s c => raiseMove m.frame 1 true 1 false none (some c) none s) s

/-- A move that finds no place: its core's descriptor is unresolvable, a PIN is refused, the others leave the page where
it lies (R217, R224, R229); a promotion for which a frame was to be freed looks further. -/
def unplaced (m : Move) (s : State) : State :=
  let pins := m.descs.filter fun d => ((flightOf s d).map fun f => dOpcode f.desc == 7).getD false
  let s := pins.foldl (fun s d => match flightOf s d with
    | some f => setFlight { f with codes := f.codes ++ [(ccFull, 3)] } s
    | none => s) s
  let s := if !m.up && m.descs.isEmpty then tenantCount m.tenant 0x0F 1 (bumpObj 0x4300 0x0B 1 32 s) else s
  let s := if m.up then s else s.setKv fun k => { k with moves := k.moves.map fun x =>
    if x.up && x.tenant == m.tenant then { x with tried := m.frame :: x.tried } else x }
  failMove { m with descs := [] } ccXlate 3 (s.setKv fun k => k) |> fun s => m.descs.foldl (fun s d => finishRange d s) s

/-- The copy of a frame in a tier. -/
def copyIn (v : Frame) (tier : Nat) : Option Nat := if tier = 1 then v.t1 else if tier = 2 then v.t2 else v.t3

/-- The page entries switch to the highest copy that remains: the T1 copy, and for EVICT with opt the T2 copy, go. -/
def demoteSwitch (m : Move) (v : Frame) (s : State) : State :=
  let w := { v with t1 := none, t2 := if m.target = 3 && m.drop2 then none else v.t2 }
  let s := setFrame m.frame w s
  let s := match v.t1 with
    | some a => relT1 m.frame (a * 4096) v.size s
    | none => s
  match v.t2, w.t2 with
  | some a, none => giveBack (a * 4096) v.size s
  | _, _ => s

/-- Count a page moved for each descriptor that waits. -/
def countMoved (m : Move) (s : State) : State :=
  m.descs.foldl (fun s d => match flightOf s d with
    | some f => if dOpcode f.desc = 7 then s else setFlight { f with r1 := f.r1 + 1 } s
    | none => s) s

/-- The namespaces of a tenant's T3 extents with a free frame, the one with most bytes left first, one without a limit before all
others (R232). -/
def bestNs (s : State) (t size : Nat) : List Nat :=
  let exts := tierExts s t 3
  let ok := fun (es : List Nat) => !(slabsWith s es size).isEmpty || !(freeSlabs s es).isEmpty
  let ns := (exts.filterMap fun e => trayAt s (e * 2 ^ 30)).eraseDups.filter fun n =>
    ok (exts.filter fun e => trayAt s (e * 2 ^ 30) == some n)
  let less := fun (m n : Nat) => nsBudget s m != 0 && (nsBudget s n == 0 || decide ((nsNow s m).tokens < (nsNow s n).tokens))
  let best := ns.foldl (fun b n => match b with
    | none => some n
    | some m => if less m n then some n else some m) (none : Option Nat)
  match best with
  | none => []
  | some n => exts.filter fun e => trayAt s (e * 2 ^ 30) == some n

/-- Draw the place of a new copy in a tier. -/
def drawIn (t tier size : Nat) (s : State) : Option (Nat × State) :=
  if tier = 1 then drawT1 t size s
  else if tier = 2 then drawFrom t (tierExts s t 2) size s
  else drawFrom t (bestNs s t size) size s

/-- What trying to start a move gives: it went on, it waits, or a toll holds it (the tenant's or the device's). -/
inductive Start where
  | went (s : State)
  | waits
  | tenantToll
  | deviceToll

/-- The migration tolls cover a transfer of `n` bytes, and taking them (R227, R228). -/
def migrCovers (s : State) (k n : Nat) : Bool := decide (min n 8388608 * 2000 ≤ (tollNow s k).tc)
def migrTake (k n : Nat) (s : State) : State :=
  let t := tollNow s k
  setToll k { t with tc := t.tc - min n 8388608 * 2000 } s

/-- Start a transfer into a place already drawn. -/
def beginMove (m : Move) (a n : Nat) (s : State) : State :=
  let s := migrTake (300 + m.tenant) n s
  let s := migrTake 200 n s
  let s := s.setKv fun k => { k with moves := k.moves.map fun x =>
    (if x.id = m.id then { x with started := true, dest := a / 4096 } else x) }
  let src := ((frameOf s m.frame).map fun v => (topCopy v).2).getD 0
  let s := if tierOf a = 3 then nvmeSend ((trayAt s a).getD 0) 1 (some m.id) none a (n / 2) s
    else if tierOf src = 3 then nvmeSend ((trayAt s src).getD 0) 2 (some m.id) none src (n / 2) s else s
  m.descs.foldl (fun s d => finishRange d s) s

/-- Try to start a move (R210, R211, R215, R216, R224, R226, R229, R231). -/
def startMove (m : Move) (s : State) : Start :=
  match frameOf s m.frame with
  | none => .went (endMove m s)
  | some v =>
    let n := 2 * v.size
    if moveLate s m then .went (lateDrop s m)
    else if 3 ≤ m.prio ∧ !gateOpen s 6 then .waits
    else if m.up then
      if v.t1.isSome then .went (residencyDone (endMove m s))
      else if m.target = 2 ∧ v.t2.isSome then .went (climb m (endMove m s))
      else
        let c := copyCode s v v.size
        if c.1 ≠ 0 then .went (failMove m c.1 c.2 s)
        else if !migrCovers s (300 + m.tenant) n then .tenantToll
        else if m.prio ≠ 1 ∧ !migrCovers s 200 n then .deviceToll
        else match drawIn m.tenant m.target v.size s with
          | some (a, s) => .went (beginMove m a n s)
          | none =>
            if m.target = 1 then
              let downs := s.kv.moves.filter fun x => !x.up && x.tenant == m.tenant && x.frame != m.frame
              if downs.any fun x => x.started || decide (x.prio ≤ m.prio) then .waits
              else match pickVictim m.tenant m.tried s, downs with
                | (some f, s), _ => .went (raiseMove f (obj s 0x4300 3 + 1) false m.prio false none none none s)
                | (none, s), x :: _ => .went (s.setKv fun k => { k with moves := k.moves.map fun y =>
                    if y.id = x.id then { y with prio := m.prio } else y })
                | (none, s), [] => .went (unplaced m s)
            else .went (unplaced m s)
    else if staysUp s m.frame ∨ v.t1.isNone ∧ (m.target = 2 ∨ (v.t3.isSome ∧ (!m.drop2 ∨ v.t2.isNone))) then .went (endMove m s)
    else match copyIn v m.target with
      | some _ => .went (endMove m (countMoved m (demoteSwitch m v s)))
      | none =>
        if !migrCovers s (300 + m.tenant) n then .tenantToll
        else if m.prio ≠ 1 ∧ !migrCovers s 200 n then .deviceToll
        else match drawIn m.tenant m.target v.size s with
          | none => .went (unplaced m s)
          | some (a, s') =>
            if m.target = 3 ∧ !nsCovers s ((trayAt s a).getD 0) v.size then
              (if m.descs.isEmpty then .went (unplaced m s) else .waits)
            else
              let s' := if m.target = 3 then nsTake ((trayAt s' a).getD 0) v.size s' else s'
              .went (beginMove m a n s')

/-- Moves not begun, in the order of R215: by priority, then as raised; of one frame only the first (R213). -/
def readyMoves (s : State) : List Move :=
  let first := s.kv.moves.filter fun m => !m.started && !(s.kv.moves.any fun x => x.frame == m.frame && decide (x.id < m.id))
  (List.range 5).flatMap fun p => first.filter fun m => m.prio == p + 1

/-- The first move of a list that goes on; a move that a toll holds holds those behind it at that toll. -/
def startFirst : List Move → List Nat → Bool → State → Option State
  | [], _, _, _ => none
  | m :: t, tens, dev, s =>
    if tens.contains m.tenant ∨ (dev ∧ m.prio ≠ 1) then startFirst t tens dev s
    else match startMove m s with
      | .went s => some s
      | .waits => startFirst t tens dev s
      | .tenantToll => startFirst t (m.tenant :: tens) dev s
      | .deviceToll => startFirst t tens true s

/-- Let every move go on that can. -/
def startMoves : Nat → State → State
  | 0, s => s
  | k + 1, s =>
    match startFirst (readyMoves s) [] false s with
    | some s => startMoves k s
    | none => s

/-- Let every move go on that can, each new one too. -/
def runMoves (s : State) : State := startMoves (4 * (s.kv.moves.length + s.kv.frames.length) + 16) s

/-- Metadata of a filled T1 copy: the page's epoch and its hint with the tier it came from (R209, R221). -/
def fillLines (a n epoch hint : Nat) (s : State) : State :=
  (List.range ((n + 63) / 64)).foldl (fun s i =>
    let line := a / 64 + i
    setLine line { tag := (extOf s (line / 2 ^ 24)).owner, epoch := epoch, poison := false, hint := hint, cond := .clean } s) s

/-- A copy written below T1 carries no line metadata: what its place held before is gone (R303). -/
def lowLines (a n : Nat) (s : State) : State :=
  s.setMem fun m => { m with lines := m.lines.filter fun p => !(decide (a ≤ p.1 * 64) && decide (p.1 * 64 < a + n)) }

/-- A move whose copy is not wanted any more: a demotion of a page that stays in T1 by now (R212), or a promotion of one that has
come there. -/
def moveIdle (m : Move) (v : Frame) (s : State) : Bool := if m.up then v.t1.isSome else fixedUp s m.frame

/-- A move has written its copy: the copy counts, and the page entries switch (R208 to R211, R675). -/
def finishMove (m : Move) (v : Frame) (s : State) : State :=
  if moveIdle m v s then endMove m (giveBack (m.dest * 4096) v.size s) else
  let (tier, src) := topCopy v
  let dst := m.dest * 4096
  let s := activate true m.tenant 0x40 dst v.size (activate false m.tenant 0x40 src v.size s)
  let s := tallyMem true dst v.size (tallyMem false src v.size s)
  let s := s.setMem fun x => { x with bytes := mwrite x.bytes dst (mread x.bytes src v.size) }
  let s := if m.target = 1 then fillLines dst v.size v.epoch (frameHint s m.frame * 16 + (tier - 1) * 4) s
    else lowLines dst v.size s
  let s := traceEvent 0 (some m.tenant) dst 0 m.tenant 0x40 0 v.size 7 s
  let v := if m.target = 1 then { v with t1 := some m.dest } else if m.target = 2 then { v with t2 := some m.dest }
    else { v with t3 := some m.dest }
  let s := setFrame m.frame v s
  let s := countMoved m s
  if m.up then
    let s := endMove m (tenantCount m.tenant 4 v.size s)
    if m.target = 2 then climb m s else s
  else
    let s := tenantCount m.tenant 5 v.size s
    let s := if m.target = 3 then tenantCount m.tenant 6 v.size s else s
    endMove m (demoteSwitch m v s)



/-- A started move ends: `f` is what the read of the source copy found (R210, R211). -/
def moveDone (m : Move) (f : Finding) (s : State) : State :=
  match frameOf s m.frame with
  | none => runMoves (endMove m s)
  | some v =>
    let (tier, src) := topCopy v
    let s := noteCopy 0x40 v v.size (meet src f s)
    let c := if tier = 1 then (readCode s src v.size, 3) else copyCode s v v.size
    if c.1 ≠ 0 then runMoves (failMove m c.1 c.2 s) else runMoves (residencyDone (finishMove m v s))

/-- MOVE_COMPLETE. -/
def execMoveComplete (id : Nat) (f : Finding) (s : State) : Res :=
  match s.kv.moves.find? fun m => m.id == id && m.started with
  | none => .next s
  | some m => .next (moveDone m f s)

/-- T1 bytes that the demotions of a tenant in flight will free. -/
def downBytes (s : State) (t : Nat) : Nat :=
  (s.kv.moves.filter fun m => !m.up && m.tenant == t).foldl (fun n m =>
    n + match frameOf s m.frame with
      | some v => if v.t1.isSome then v.size else 0
      | none => 0) 0

/-- Raise victims, each once, until the free frames and those on their way reach the high watermark; one that gets no copy is
passed over (R222 to R224). -/
def demoteUntil (t : Nat) : Nat → List Nat → State → State
  | 0, _, s => s
  | k + 1, not, s =>
    if obj s 0x4300 2 * kvBytes s t ≤ (kvFree s t + downBytes s t) * 100 then s
    else match pickVictim t not s with
      | (none, s) => s
      | (some f, s) => demoteUntil t k (f :: not) (runMoves (raiseMove f (obj s 0x4300 3 + 1) false 4 false none none none s))

/-- AUTOMATIC_DEMOTION (R222): it begins below the low watermark. -/
def execAutomaticDemotion (t : Fin 64) (s : State) : Res :=
  if kvFree s t.val * 100 < obj s 0x4300 1 * kvBytes s t.val then .next (demoteUntil t.val s.kv.frames.length [] s)
  else .next s

/-- RESIDENCY_FAULT (R216, R366): the core's fetch engine stands at a tile that is not resident; records are posted for
the non-resident tiles up to 32 ahead, each with a promotion of priority 1. -/
def faultTile (c : Nat) (w : Work) (s : State) (t : Tile) : State :=
  let key := pkey w.ctx (tileLayer w t) (tilePage w t)
  let there := (s.xl.queue ++ s.xl.holding).any fun r => r.kind == 0 && r.source == c && r.addr == key
  let held := s.xl.holding.any fun r => r.source == c
  if there || held || isDraft t || ((frameOf s t.frame).bind (·.t1)).isSome then s
  else
    let pasid := ((flightOf s w.desc).map fun f => dPasid f.desc).getD 0
    let s := tenantCount (ctxOf s w.ctx).tenant 0x0C 1 s
    let s := faultPost { kind := 0, source := c, pasid := pasid, addr := key, desc := w.desc, output := false
                         made := s.time.cycle, due := false } s
    raiseMove t.frame 1 true 1 false none (some c) none s

def execResidencyFault (c : Fin 20) (s : State) : Res :=
  match (coreOf s c.val).work with
  | none => .next s
  | some w =>
    match w.toIssue.find? fun t => !isDraft t with
    | none => .next s
    | some t =>
      if w.phase = .summary ∨ (entryAt s w t).isSome then .next s
      else .next (runMoves ((w.toIssue.take 32).foldl (faultTile c.val w) s))

/-- T3_BUDGET_REFILL (R231): the clock is carried to the cycle in which the namespace's bucket covers the first write
that waits for it. -/
def execT3BudgetRefill (ns : Fin 64) (s : State) : Res :=
  let waits := (readyMoves s).filter fun m => !m.up && m.target == 3
  match waits with
  | [] => .next s
  | m :: _ =>
    let size := ((frameOf s m.frame).map (·.size)).getD 4096
    let t := nsNow s ns.val
    if nsBudget s ns.val = 0 ∨ nsDepth s ns.val < size * 7200000000000 then .next (runMoves s)
    else .next (runMoves (elapse (ceilDiv (size * 7200000000000 - t.tokens) (nsBudget s ns.val * 1000000000)) s))

/-! ## PREFETCH, PIN and EVICT (R156 to R160, R165, R229) -/

/-- A page counts as in the tier that a PREFETCH or PIN names when a copy lies there or above. -/
def inTier (v : Frame) (tier : Nat) : Bool := v.t1.isSome || (tier == 1 && v.t2.isSome && !v.lost2)

/-- One page of a PREFETCH. -/
def prefetchPage (f : Flight) (s : State) (lp : Nat × Nat) : State :=
  match (pageOf s (dCtx f.desc) lp.1 lp.2).bind fun v => (frameOf s v.frame).map fun fr => (v.frame, fr) with
  | none => s
  | some (fid, fr) =>
    if inTier fr (rTier f.desc) then
      match flightOf s f.id with
      | some g => setFlight { g with r2 := g.r2 + 1 } s
      | none => s
    else raiseMove fid (rTier f.desc + 1) true 3 false (some f.id) none none s

/-- One page of a PIN: its pin state, and with opt = 1 the page itself brought to the tier. Past the limit the PIN
notes 0x12 and goes no further. -/
def pinPage (f : Flight) (s : State) (lp : Nat × Nat) : State :=
  let c := dCtx f.desc
  match pageOf s c lp.1 lp.2, flightOf s f.id with
  | some v, some g =>
    let bring := fun (s : State) => match frameOf s v.frame with
      | some fr => if rOpt f.desc && (!inTier fr (rTier f.desc) || s.kv.moves.any fun m => m.frame == v.frame && !m.up)
          then raiseMove v.frame (rTier f.desc + 1) true 3 false (some f.id) none none s else s
      | none => s
    if g.codes.contains (ccFull, 4) then s
    else if v.pinned = rOpt f.desc then bring (setFlight { g with r2 := g.r2 + 1 } s)
    else
      let t := tenantOf s f.tenant
      if rOpt f.desc ∧ obj s (0x3001 + 16 * f.tenant) 6 ≤ t.pinned then
        setFlight { g with codes := g.codes ++ [(ccFull, 4)] } s
      else
        let s := setPage c lp.1 lp.2 { v with pinned := rOpt f.desc } s
        let s := setTenant f.tenant { t with pinned := if rOpt f.desc then t.pinned + 1 else t.pinned - 1 } s
        bring (setFlight { g with r1 := g.r1 + 1 } s)
  | _, _ => s

/-- One page of an EVICT: pinned pages are skipped and counted. -/
def evictPage (f : Flight) (s : State) (lp : Nat × Nat) : State :=
  match pageOf s (dCtx f.desc) lp.1 lp.2 with
  | none => s
  | some v =>
    if (namers s v.frame).any fun q => q.2.pinned then
      match flightOf s f.id with
      | some g => setFlight { g with r2 := g.r2 + 1 } s
      | none => s
    else if staysUp s v.frame then s
    else raiseMove v.frame (rTier f.desc + 1) false 5 (rTier f.desc == 2 && rOpt f.desc) (some f.id) none none s

/-- Carry out a range descriptor of the tier engines: its pages one after another, then the moves, then, when nothing
is left to wait for, its entry. -/
def runRange (f : Flight) (page : Flight → State → Nat × Nat → State) (s : State) : State :=
  let s := noteDispatch f s
  match ctxGone s f with
  | some (code, dt) => complete f.id code dt 0 0 s
  | none =>
    if spanMask s (dCtx f.desc) = 0 then
      let s := setFlight { f with stage := .running } s
      finishRange f.id (runMoves ((rangePages s f.desc).foldl (page f) s))
    else
      let s := startStriped f (0, 0) s
      finishRange f.id (runMoves ((rangePages s f.desc).foldl (page f) s))

/-- PREFETCH. -/
def execPrefetch (d : Nat) (s : State) : Res :=
  match dispatchable s d 6 with
  | none => .next (atGate d 6 s)
  | some f => .next (runRange f prefetchPage s)

/-- PIN. -/
def execPin (d : Nat) (s : State) : Res :=
  match dispatchable s d 7 with
  | none => .next (atGate d 7 s)
  | some f => .next (runRange f pinPage s)

/-- EVICT. -/
def execEvict (d : Nat) (s : State) : Res :=
  match dispatchable s d 8 with
  | none => .next (atGate d 8 s)
  | some f => .next (runRange f evictPage s)

/-! ## The tier caches (R233 to R235) -/

/-- The device-owned extents that hold a tier cache, up to its size (log entry 106), its sets, and its table: 0 in T1, 1 in T2. -/
def cacheExts (s : State) (k : Nat) : List Nat :=
  ((s.led.exts.filter fun e => e.2.st == .granted && e.2.kind == 8 && tierOf (e.1 * 2 ^ 30) == k + 1).map (·.1)).take (obj s 0x4300 (8 + k))
def cacheSets (s : State) (k : Nat) : Nat := (cacheExts s k).length * 1024
def cacheTbl (s : State) (k : Nat) : Tbl CacheBlock := if k = 0 then s.kv.cache1 else s.kv.cache2
def setCache (k : Nat) (t : Tbl CacheBlock) (s : State) : State :=
  s.setKv fun v => if k = 0 then { v with cache1 := t } else { v with cache2 := t }

/-- The place of a T3 block in its extent's cache, where it is held. -/
def cachePlace (s : State) (k b : Nat) : Option Nat := ((cacheTbl s k).find? fun q => q.2.block == b).map (·.1)

/-- The cache that serves a T3 address. -/
def cacheOf (s : State) (a : Nat) : Nat := if (extOf s (a / 2 ^ 30)).cache then 1 else 0

/-- Note a use of a held block, and a write as dirty. -/
def cacheUse (k p : Nat) (write : Bool) (s : State) : State :=
  setCache k ((cacheTbl s k).map fun q =>
    if q.1 = p then (p, { q.2 with used := s.time.cycle, dirty := q.2.dirty || write }) else q) s

/-- Write a dirty block back to its namespace under R231: none while the budget does not cover it. -/
def cacheBack (k : Nat) (q : Nat × CacheBlock) (s : State) : Option State :=
  let a := q.2.block * 65536
  let ns := (trayAt s a).getD 0
  if nsCovers s ns 65536 then
    let s := nsTake ns 65536 s
    let t := (extOf s (a / 2 ^ 30)).owner
    let s := nvmeSend ns 1 none none a 65536 (tenantCount t 6 65536 s)
    let s := s.setMem fun m => { m with written := if m.written.contains q.2.block then m.written else q.2.block :: m.written }
    some (setCache k ((cacheTbl s k).map fun p => if p.1 = q.1 then (p.1, { p.2 with dirty := false }) else p) s)
  else none

/-- Make room in the set of a block: an empty way, else the victim, cold blocks first, then by least recent use; a dirty
victim is written back first; none where the set holds only dirty blocks that cannot be (R234). -/
def cacheRoom (k b : Nat) (s : State) : Option (Nat × State) :=
  let sets := cacheSets s k
  if sets = 0 then none else
  let base := b % sets * 16
  let ways := (List.range 16).map (base + ·)
  let held := (cacheTbl s k).filter fun q => ways.contains q.1
  match ways.find? fun w => !(held.any fun q => q.1 == w) with
  | some w => some (w, s)
  | none =>
    let older := fun (l : List (Nat × CacheBlock)) => l.foldl (fun (m : Option (Nat × CacheBlock)) q => match m with
      | none => some q
      | some p => if q.2.used < p.2.used then some q else some p) none
    let clean := held.filter fun q => !q.2.dirty
    match (older (held.filter fun q => q.2.cold)).orElse fun _ => older held with
    | none => none
    | some q =>
      if q.2.dirty then
        match cacheBack k q s with
        | some s => some (q.1, s)
        | none => ((older (clean.filter fun p => p.2.cold)).orElse fun _ => older clean).map fun p => (p.1, s)
      else some (q.1, s)

/-- Fill a block that a direct access missed; its bytes come from T3 (zero where never written back, R398). The miss
counts against the tenant's migration toll. -/
def cacheFill (k b : Nat) (s : State) : Option State :=
  match cacheRoom k b s with
  | none => none
  | some (w, s) =>
    let t := (extOf s (b * 65536 / 2 ^ 30)).owner
    let s := if t < 64 then migrTake (300 + t) 65536 s else s
    let s := tallyMem false (b * 65536) 65536 s
    some (setCache k (tins (cacheTbl s k) w { block := b, dirty := false, cold := false, used := s.time.cycle }) s)

/-- The T3 blocks of pieces on this device are brought into their caches, and a write marks them dirty; none where a set
has no room (R234). -/
def cacheReady (ps : List (Nat × Nat)) (write : Bool) (s : State) : Option State :=
  (ps.flatMap fun p =>
    let a := p.1 % 2 ^ 52
    if tierOf a = 3 then (List.range ((a + p.2 + 65535) / 65536 - a / 65536)).map (a / 65536 + ·) else []).foldl
    (fun r b => r.bind fun s =>
      let k := cacheOf s (b * 65536)
      match cachePlace s k b with
      | some p => some (cacheUse k p write s)
      | none => (cacheFill k b s).map fun s => match cachePlace s k b with
        | some p => cacheUse k p write s
        | none => s) (some s)

/-- An extent's blocks leave the caches, a dirty one once it is written back; one that the budget does not cover stays (R231, R235). -/
def cacheFlush (e : Nat) (s : State) : State :=
  [0, 1].foldl (fun s k =>
    let mine := fun (q : Nat × CacheBlock) => q.2.block / 16384 == e
    let s := ((cacheTbl s k).filter mine).foldl (fun s q => if q.2.dirty then (cacheBack k q s).getD s else s) s
    setCache k ((cacheTbl s k).filter fun q => !mine q || q.2.dirty) s) s

/-- A cache holds a block of the extent. -/
def cacheHolds (s : State) (e : Nat) : Bool := (s.kv.cache1 ++ s.kv.cache2).any fun q => q.2.block / 16384 == e

/-- The T3 blocks of pieces on this device that no tier cache holds. -/
def cacheMissing (s : State) (ps : List (Nat × Nat)) : List Nat :=
  ps.flatMap fun p =>
    let a := p.1 % 2 ^ 52
    if tierOf a = 3 then ((List.range ((a + p.2 + 65535) / 65536 - a / 65536)).map (a / 65536 + ·)).filter fun b =>
      (cachePlace s (cacheOf s (b * 65536)) b).isNone else []

/-- They are read from T3, each once. -/
def cacheAsk (bs : List Nat) (s : State) : State :=
  bs.foldl (fun s b => if s.ports.nvme.any fun c => c.block == some b then s
    else nvmeSend ((trayAt s (b * 65536)).getD 0) 2 none (some b) (b * 65536) 65536 s) s

/-- A descriptor's block waits until each T3 block of it has been read (R234). -/
def cacheWait (f : Flight) (ps : List (Nat × Nat)) (s : State) : Bool × State :=
  match f.blocks with
  | some l => (!l.isEmpty, s)
  | none =>
    let l := cacheMissing s ps
    if l.isEmpty then (false, s) else (true, setFlight { f with blocks := some l } (cacheAsk l s))

/-! ## Trays and namespaces (R236 to R239) -/

/-- The record's fields in the layout of log entry 21: state, port, interleave set (of a T2 tray), size and base in GiB, NVMe
namespace. -/
def trayRec (t3 : Bool) (bs : List Byte) : Tray × Nat :=
  ({ active := false, failed := false, port := (bs.getD 1 0).toNat, set := if t3 then 0 else leNat (slice bs 2 2), size := leNat (slice bs 4 4)
     base := leNat (slice bs 8 4), nsid := leNat (slice bs 12 4), present := false, tokens := 0, tokensAt := 0 },
   (bs.getD 0 0).toNat)

/-- Something lies on a tray: a copy, an extent or a tier-cache block (R238). -/
def trayUsed (s : State) (t3 : Bool) (n : Nat) : Bool :=
  let on := fun (a : Nat) => (tierOf a == if t3 then 3 else 2) && (trayRegion s a).contains n
  (s.led.exts.any fun e => e.2.st != .free && on (e.1 * 2 ^ 30))
    || (s.kv.frames.any fun f => (match f.2.t2, t3 with | some a, false => on (a * 4096) | _, _ => false)
      || (match f.2.t3, t3 with | some a, true => on (a * 4096) | _, _ => false))
    || (t3 && ((s.kv.cache1 ++ s.kv.cache2).any fun q => on (q.2.block * 65536)))

/-- The region of a record fits its window and meets no other region; the trays of one set share theirs and stand on
different ports, and none joins a set that is in use (R236). -/
def trayFits (s : State) (t3 : Bool) (n : Nat) (r : Tray) : Bool :=
  let tbl := (if t3 then s.kv.nss else s.kv.trays).filter fun q => q.2.active && q.1 != n
  let top := if t3 then 2097152 else 49152
  let mates := tbl.filter fun q => r.set != 0 && q.2.set == r.set
  let stop := fun (v : Tray) => v.base + (if v.set = 0 then v.size
    else (tbl.filter fun q => q.2.set == v.set).foldl (fun n q => n + q.2.size) 0)
  let mine := r.base + r.size * (mates.length + 1)
  decide (r.port < 4 ∧ 0 < r.size ∧ mine ≤ top ∧ mates.length < 4)
    && (t3 || decide ((tbl.filter fun q => q.2.port == r.port).length < 8))
    && mates.all (fun q => q.2.base == r.base && q.2.size == r.size && q.2.port != r.port && !trayUsed s t3 q.1)
    && tbl.all fun q => (r.set != 0 && q.2.set == r.set) || decide (mine ≤ q.2.base ∨ stop q.2 ≤ r.base)

/-- A write of a tray or namespace record by the steward or the rack manager. -/
def trayWrite (t3 : Bool) (n : Nat) (bs : List Byte) (ok : Bool) (s : State) : Nat × State :=
  let (r, st) := trayRec t3 bs
  let old := tget ({} : Tray) (if t3 then s.kv.nss else s.kv.trays) n
  let put := fun (v : Tray) (s : State) =>
    s.setKv fun k => if t3 then { k with nss := tput ({} : Tray) k.nss n v } else { k with trays := tput ({} : Tray) k.trays n v }
  let keep := writeDom (if t3 then 0x4210 else 0x4200) (n + 1) bs
  if bs.length ≠ 16 then (abLength, s)
  else if st = 1 then
    if old.active then (abState, s)
    else if !trayFits s t3 n r then (abValue, s)
    else if !ok then (0, keep (put { r with failed := true } s))
    else
      let s := keep (put { r with active := true, present := true } s)
      (0, if t3 then put { r with active := true, present := true, tokens := nsDepth s n, tokensAt := s.time.cycle } s else s)
  else if st = 0 then
    if old.active && trayUsed s t3 n then (abState, s) else (0, keep (put { r with active := false } s))
  else (abValue, s)

/-- TRAY_RECORD_ACTIVATE (R236, R237). -/
def execTrayRecordActivate (p : Prin) (t3 : Bool) (n : Fin 64) (rec : List Byte) (ok : Bool) (s : State) : Res :=
  .next (objCmd p (if t3 then 0x4210 else 0x4200) (n.val + 1) (trayWrite t3 n.val rec ok) s)

/-- A copy of `size` bytes with a granule on the failed tray is lost. -/
def copyLost (s : State) (t3 : Bool) (n size : Nat) (c : Option Nat) : Bool :=
  match c with
  | some a => (tierOf (a * 4096) == if t3 then 3 else 2)
      && (List.range (size / 4096)).any fun i => trayAt s ((a + i) * 4096) == some n
  | none => false

/-- One frame when a tray fails (R239): a lost lower copy leaves the record; a lost highest copy marks the page. -/
def loseCopy (t3 : Bool) (n : Nat) (s : State) (q : Nat × Frame) : State :=
  let v := q.2
  let l2 := !t3 && copyLost s t3 n v.size v.t2
  let l3 := t3 && copyLost s t3 n v.size v.t3
  if l2 || l3 then
    let a := (if l2 then v.t2 else v.t3).getD 0 * 4096
    let top := v.t1.isNone && (l2 || v.t2.isNone)
    let w := { v with t2 := if l2 then none else v.t2, t3 := if l3 then none else v.t3
                      lost2 := v.lost2 || (l2 && top), lost3 := v.lost3 || (l3 && top) }
    logEvent 0x0C a 0 v.tenant 0x40 0 1 (setFrame q.1 w s)
  else s

/-- A tray fails: every copy on it is lost, its moves fail, its state reads failed. -/
def trayFails (t3 : Bool) (n : Nat) (s : State) : State :=
  let s := { s with ports := { s.ports with found := s.ports.found.filter fun k => k != (if t3 then 64 + n else n) } }
  let s := s.kv.frames.foldl (loseCopy t3 n) s
  let s := s.setKv fun k =>
    if t3 then { k with nss := tput ({} : Tray) k.nss n { tget ({} : Tray) k.nss n with failed := true, present := false } }
    else { k with trays := tput ({} : Tray) k.trays n { tget ({} : Tray) k.trays n with failed := true, present := false } }
  let hit := s.kv.moves.filter fun m => m.started && copyLost s t3 n (((frameOf s m.frame).map (·.size)).getD 4096) (some m.dest)
  runMoves (hit.foldl (fun s m => failMove m ccUncorr 4 s) s)

/-- TRAY_FAIL (R239). -/
def execTrayFail (t3 : Bool) (n : Fin 64) (s : State) : Res :=
  if (tget ({} : Tray) (if t3 then s.kv.nss else s.kv.trays) n.val).active then .next (trayFails t3 n.val s) else .next s

end Sys2Proof.Machine
end

