-- ==== Sys2Proof/Machine/Truss.lean ====
section
/-! DEFINITION. The truss: routing tables and their epochs, multicast delivery, and lane groups (R491 to R509, R517,
R518). Dies are numbered by their codes of R13: 0 and 1 the CDs, 2 to 5 the MDs, 6 and 7 the IOs. -/

namespace Sys2Proof.Machine

/-! ## Links (R492) -/

/-- The link that joins two dies. -/
def trussLink (a b : Nat) : Option Nat :=
  let lo := min a b
  let hi := max a b
  if hi ≤ lo ∨ 7 < hi then none
  else if lo ≤ 1 ∧ hi = 1 then some 20
  else if lo ≤ 1 ∧ hi ≤ 5 then some (2 * (hi - 2) + lo)
  else if lo ≤ 1 then some (16 + 2 * lo + (hi - 6))
  else if lo ≤ 5 ∧ hi ≤ 5 then none
  else if lo ≤ 5 then some (8 + 2 * (lo - 2) + (hi - 6))
  else some 21

/-- Lane groups of a link direction. -/
def trussGroups (link : Nat) : Nat := if link < 8 then 8 else if link = 20 then 4 else 2

/-! ## Routing tables (R503, R504) -/

/-- The default table: every route direct, but MD(a) to MD(b) transits IO(b mod 2). -/
def trussDefault : List Byte :=
  (List.range 64).map fun i =>
    let s := i / 8
    let d := i % 8
    if 2 ≤ s ∧ s ≤ 5 ∧ 2 ≤ d ∧ d ≤ 5 ∧ s ≠ d then BitVec.ofNat 8 (6 + (d - 2) % 2) else 0xFF

/-- Byte 8s + d of a table. -/
def trussByte (t : List Byte) (s d : Nat) : Nat := (t.getD (8 * s + d) 0xFF).toNat

/-- One route meets the first three rules of R504. -/
def trussRouteOk (t : List Byte) (s d : Nat) : Bool :=
  let r := trussByte t s d
  if r = 0xFF then s == d || (trussLink s d).isSome
  else r != s && r != d && (r == 0 || r == 1 || r == 6 || r == 7) && (trussLink s r).isSome && (trussLink r d).isSome
    && trussByte t r d == 0xFF

/-- The dependencies of two-link routes: first directed link and second, each as `8 * from + to`. -/
def trussDeps (t : List Byte) : List (Nat × Nat) :=
  (List.range 64).filterMap fun i =>
    let r := trussByte t (i / 8) (i % 8)
    if r = 0xFF then none else some (8 * (i / 8) + r, 8 * r + i % 8)

/-- Dependencies on a link that depends on none are dropped until nothing changes. -/
def trussPrune : Nat → List (Nat × Nat) → List (Nat × Nat)
  | 0, e => e
  | n + 1, e => trussPrune n (e.filter fun p => e.any fun q => q.1 == p.2)

/-- R504. -/
def trussTableOk (t : List Byte) : Bool :=
  t.length == 64 && ((List.range 64).all fun i => trussRouteOk t (i / 8) (i % 8)) && (trussPrune 64 (trussDeps t)).isEmpty

/-- 2500:06, the table of the epoch in use. -/
def trussTable (s : State) : List Byte :=
  let b := objDom s 0x2500 6
  if b.isEmpty then trussDefault else b

def State.setTruss (s : State) (f : Truss → Truss) : State := { s with truss := f s.truss }

/-! ## Epochs (R505 to R507, R516, R518) -/

/-- A write of 2500:05: refused while the other epoch still has packets in flight. -/
def writeTable (bs : List Byte) (s : State) : Nat × State :=
  if bs.length ≠ 64 then (abLength, s)
  else if s.truss.draining then (abState, s)
  else (0, s.setTruss fun t => { t with next := some bs })

/-- Deliveries outstanding of packets under an epoch. -/
def trussLeft (s : State) (epoch : Nat) : Nat :=
  s.truss.packets.foldl (fun n p => if p.sent ∧ p.epoch = epoch then n + p.wait.length else n) 0

/-- 2500:03 reads `v`. -/
def tableStatus (v : Nat) (s : State) : State := setObj 0x2500 3 v s

/-- A write of 1 to 2500:02. -/
def commitTable (s : State) : Nat × State :=
  if s.pwr.dev = .quiescing ∨ s.pwr.dev = .reset then (abState, tableStatus 4 s)
  else if s.truss.draining then (abState, tableStatus 3 s)
  else match s.truss.next with
    | none => (abState, tableStatus 2 s)
    | some bs =>
      if !trussTableOk bs then (abValue, tableStatus 2 s)
      else
        let old := s.truss.epoch
        let left := trussLeft s old
        (0, tableStatus 1 (s.setTruss fun t => { t with
          epoch := 1 - old, draining := true, left := left
          table0 := if old = 1 then bs else t.table0, table1 := if old = 0 then bs else t.table1 }))

/-- TABLE_COMMIT (R506). -/
def execTableCommit (v : Bool) (s : State) : Res := if v then .next (commanded (commitTable) s) else .next s

/-- EPOCH_RETIRE (R507): once no delivery of the old epoch is outstanding, 2500:06 takes the committed table. -/
def execEpochRetire (s : State) : Res :=
  if s.truss.draining ∧ s.truss.left = 0 then
    let bs := s.truss.next.getD trussDefault
    .next (tableStatus 0 (setDom 0x2500 6 bs (s.setTruss fun t => { t with
      draining := false, next := none, table0 := if t.epoch = 1 then [] else t.table0
      table1 := if t.epoch = 0 then [] else t.table1 })))
  else .next s

/-! ## Packets (R491, R493, R494, R499 to R502, R511, R514) -/

/-- The die of an endpoint. -/
def endpointDie (e : Nat) : Nat :=
  if e < 20 then e / 10
  else if e < 22 then e - 20
  else if e < 46 then 2 + (e - 22) / 6
  else if e < 50 then 2 + (e - 46)
  else if e = 51 ∨ e = 53 ∨ e = 55 ∨ e = 58 then 7 else 6

/-- Flits of a packet: the header and one for every 64 bytes; bursts of 8. -/
def packetFlits (p : Packet) : Nat := 1 + ceilDiv p.bytes 64
def packetBursts (p : Packet) : Nat := ceilDiv (packetFlits p) 8

/-- A set of endpoints as the dest field holds it. -/
def destMask (ds : List Nat) : Nat := ds.foldl (fun a d => a ||| 2 ^ d) 0

/-- The route word beside the first flit of burst `b` on a branch toward the endpoints `ds` (R493, R500). -/
def routeWord (p : Packet) (ds : List Nat) (b : Nat) : BitVec 128 :=
  BitVec.ofNat 128 (destMask ds % 2 ^ 64 * 2 ^ 64 + p.src % 64 * 2 ^ 58 + p.cls % 8 * 2 ^ 55 + p.epoch % 2 * 2 ^ 54
    + (if b + 1 = packetBursts p then 2 ^ 53 else 0) + b % 16 * 2 ^ 49 + (if p.mc then 0 else p.seq % 256) * 2 ^ 41
    + (min 8 (packetFlits p - 8 * b) - 1) * 2 ^ 38 + if p.mc then 2 ^ 37 else 0)

/-- The table of an epoch. -/
def epochTable (s : State) (e : Nat) : List Byte :=
  if e = s.truss.epoch ∧ !s.truss.draining then trussTable s
  else
    let b := if e = 0 then s.truss.table0 else s.truss.table1
    if b.isEmpty then trussTable s else b

/-- The die that a router's output toward a die leads to. -/
def nextDie (t : List Byte) (here d : Nat) : Nat := let r := trussByte t here d; if r = 0xFF then d else r

/-- The counters of an output port for one requester: 0x00 to 0x07 input links, 0x10 + e endpoints (R511). -/
def arbiterKey (link dir req : Nat) : Nat := (2 * link + dir) * 80 + req

/-- One branch: each output link takes one copy, whatever the number of endpoints beyond it (R500); grants and flits are counted at
its port. At most two links lie on a route (R504). -/
def branchCount (p : Packet) (t : List Byte) : Nat → Nat → Nat → List Nat → State → State
  | 0, _, _, _, s => s
  | k + 1, here, req, ds, s =>
    (((ds.filter fun d => endpointDie d != here).map fun d => nextDie t here (endpointDie d)).eraseDups).foldl (fun s n =>
      match trussLink here n with
      | none => s
      | some l =>
        let key := arbiterKey l (if here < n then 0 else 1) req
        branchCount p t k n here (ds.filter fun d => endpointDie d != here && nextDie t here (endpointDie d) == n)
          (tallyAdd 0x7100 key 1 (packetFlits p) (tallyAdd 0x7100 key 0 (packetBursts p) s))) s

/-- A packet enters the truss under the epoch in use. -/
def launch (p : Packet) (s : State) : Packet × State :=
  let p := { p with epoch := s.truss.epoch, sent := true }
  (p, branchCount p (epochTable s p.epoch) 2 (endpointDie p.src) (0x10 + p.src) p.wait s)

/-- Unicast packets of a source and class in flight to a destination. -/
def inFlight (s : State) (src cls dest : Nat) : Nat :=
  (s.truss.packets.filter fun p => p.sent && !p.mc && p.src == src && p.cls == cls && p.wait.contains dest).length

/-- Inject a packet: several destinations make it a multicast, which only control and request traffic may be, else it is discarded
and counted (R501); a unicast packet takes the next sequence number, and waits while 128 are in flight (R499). -/
def inject (desc src cls bytes : Nat) (ds : List Nat) (s : State) : State :=
  match ds with
  | [] => s
  | d :: more =>
    let p : Packet := { desc := desc, src := src, cls := cls, epoch := s.truss.epoch, seq := 0, mc := !more.isEmpty, bytes := bytes
                        wait := ds, sent := false }
    let put := fun (p : Packet) (s : State) => s.setTruss fun t => { t with packets := t.packets ++ [p] }
    if p.mc then
      if 2 ≤ cls then
        let here := endpointDie src
        let n := nextDie (epochTable s s.truss.epoch) here (endpointDie d)
        tallyAdd 0x7100 (arbiterKey ((trussLink here n).getD 0) (if here < n then 0 else 1) (0x10 + src)) 5 1 s
      else let r := launch p s; put r.1 r.2
    else
      let key := (src * 8 + cls) * 64 + d
      let p := { p with seq := tget 0 s.truss.seqs key }
      let s := s.setTruss fun t => { t with seqs := tput 0 t.seqs key ((p.seq + 1) % 256) }
      if inFlight s src cls d < 128 then let r := launch p s; put r.1 r.2 else put p s

/-- The oldest packet of a descriptor that an endpoint still waits for has come: the endpoint takes a source's unicast packets in
the order of their numbers (R499). -/
def trussDeliver (desc dest : Nat) : List Packet → Option (Packet × List Packet)
  | [] => none
  | p :: t =>
    if p.desc = desc ∧ p.sent ∧ p.wait.contains dest then
      let ds := p.wait.erase dest
      some (p, if ds.isEmpty then t else { p with wait := ds } :: t)
    else (trussDeliver desc dest t).map fun r => (r.1, p :: r.2)

/-- A delivery under the old epoch counts down 2500:04. -/
def countLeft (e n : Nat) (s : State) : State :=
  s.setTruss fun t => { t with left := if t.draining ∧ e ≠ t.epoch then t.left - n else t.left }

/-- The oldest packet that waits for its turn is injected. -/
def injectNext (src cls dest : Nat) (s : State) : State :=
  match s.truss.packets.find? fun p => !p.sent && p.src == src && p.cls == cls && p.wait.contains dest with
  | none => s
  | some p =>
    if inFlight s src cls dest < 128 then
      let r := launch p s
      r.2.setTruss fun t => { t with packets := t.packets.map fun q => if q = p then r.1 else q }
    else s

/-- MULTICAST_DELIVERY_NOTICE: an endpoint has received a packet whole. -/
def execMulticastDeliveryNotice (id dest : Nat) (s : State) : Res :=
  match trussDeliver id dest s.truss.packets with
  | none => .next s
  | some (p, ps) =>
    let s := countLeft p.epoch 1 (s.setTruss fun t => { t with packets := ps })
    .next (if p.mc then s else injectNext p.src p.cls dest s)

/-- The interface of a stopped core sinks what is addressed to it, and the truss waits for it no longer (R514). -/
def sinkCore (c : Nat) (s : State) : State :=
  let old := fun (p : Packet) => p.sent && p.epoch != s.truss.epoch && p.wait.contains c
  let n := (s.truss.packets.filter old).length
  countLeft (1 - s.truss.epoch) n (s.setTruss fun t => { t with
    packets := (t.packets.map fun p => { p with wait := p.wait.filter (· != c) }).filter fun p => !p.wait.isEmpty })

/-! ## Lane groups (R508) -/

/-- A flit of a link direction fails its CRC: at the fourth failure its lane group leaves service, which is a telemetry
event of kind 4. The answer is true where the direction has lost its last group (R509). -/
def trussCrc (link dir : Nat) (s : State) : Bool × State :=
  let k := 2 * link + dir
  let n := tget 0 s.truss.crc k + 1
  if n < 4 then (false, s.setTruss fun t => { t with crc := tput 0 t.crc k n })
  else
    let lost := min (trussGroups link) (tget 0 s.truss.lost k + 1)
    let s := s.setTruss fun t => { t with crc := tput 0 t.crc k 0, lost := tput 0 t.lost k lost }
    (decide (lost = trussGroups link), telemetry 4 link s)

/-- 2500:07: lanes in service of each link direction. -/
def trussLanes (s : State) : List Byte :=
  (List.range 44).map fun k => BitVec.ofNat 8 (4 * (trussGroups (k / 2) - tget 0 s.truss.lost k))

end Sys2Proof.Machine
end

