-- ==== Sys2Proof/Machine/Attend.lean ====
section
/-! DEFINITION. ATTEND and COMPACT on the attention cores: work items, the summary pass, page selection, the online
softmax, certification, the merge of partials and the output (R56 to R120, R130 to R139, R161, R198 to R201). -/

namespace Sys2Proof.Machine

/-! ## The query side of an ATTEND (R133 to R138) -/

/-- The shape of an ATTEND at its dispatch: descriptor, context, length, input block. -/
structure Ask where
  d : Desc
  x : Ctx
  n : Nat
  input : List Byte

def askOf (s : State) (f : Flight) : Ask := { d := f.desc, x := ctxOf s (dCtx f.desc), n := f.len, input := f.input }

/-- Query row `r` of head `h` at its values, which QR holds exactly (R97). -/
def askQuery (k : Ask) (h r : Nat) : List Dy :=
  let sz := vecBytes (aQfmt k.d) (ctxDk k.x)
  vecVals (aQfmt k.d) (ctxDk k.x) (slice k.input ((h * rowsPerHead k.d + r) * sz) sz) []

/-- Slope of query head `h × G + g`; 0 without ALiBi. -/
def askSlopeWord (k : Ask) (h g : Nat) : Nat :=
  leNat (slice k.input ((inSections k.d k.x).2.1 + (h * aGroup k.d + g) * 4) 4)
def askSlope (k : Ask) (h r : Nat) : Dy :=
  if aAlibi k.d then fmtVal fmtF32 (askSlopeWord k h (r % max 1 (aGroup k.d))) else dyZero

/-- A draft key or value vector: elements and scales (R134). -/
def askDraft (k : Ask) (v : Bool) (h p : Nat) : List Byte × List Byte :=
  let fmt := k.x.fmt
  let sec := inSections k.d k.x
  let dim := if v && !ctxLatent k.x then ctxDv k.x else ctxDk k.x
  let sz := vecBytes fmt dim
  let o := (if v && !ctxLatent k.x then sec.2.2.2.1 else sec.2.2.1) + (h * aDrafts k.d + p) * sz
  (slice k.input o (vecElemBytes fmt dim), if fmtMx fmt then slice k.input (o + vecElemBytes fmt dim) (dim / 32) else [])

/-- Tree mask row and depth of a draft position. -/
def askTree (k : Ask) (p : Nat) : Nat := leNat (slice k.input ((inSections k.d k.x).2.2.2.2.1 + 2 * p) 2)
def askDepth (k : Ask) (p : Nat) : Nat := (k.input.getD ((inSections k.d k.x).2.2.2.2.1 + 32 + p) 0).toNat

/-- Draft position of a row, and its query position (R86, R138). -/
def rowDraft (k : Ask) (r : Nat) : Nat := r / max 1 (aGroup k.d)
def rowPos (k : Ask) (r : Nat) : Nat := if aDrafts k.d = 0 then k.n - 1 else k.n + askDepth k (rowDraft k r)

/-- A committed position is admitted for a query position, liveness apart (R138). -/
def admits (k : Ask) (i j : Nat) : Bool :=
  aWindow k.d == 0 || decide (i < j + aWindow k.d) || decide (j < aSinks k.d)

/-- The tree section meets R88 and R135. -/
def treeOk (k : Ask) : Bool :=
  let p := aDrafts k.d
  p == 0 ||
    ((List.range 16).all (fun i =>
      let m := askTree k i
      if i < p then bitAt m i && decide (m < 2 ^ (i + 1)) else m == 0)
    && (List.range 16).all (fun i => if i < p then decide (askDepth k i ≤ i) else askDepth k i == 0)
    && (slice k.input ((inSections k.d k.x).2.2.2.2.1 + 48) 16).all (· == 0#8))

/-- Check 8 of an ATTEND's input block: values, then the tree (R93, R101, R134, R135). -/
def inputCheck (k : Ask) : Option (Nat × Nat) :=
  let hs := List.range (ctxHeads k.x)
  let sz := vecBytes (aQfmt k.d) (ctxDk k.x)
  let qOk := (List.range (rowsAll k.d k.x)).all fun i => vecFinite (aQfmt k.d) (ctxDk k.x) (slice k.input (i * sz) sz) []
  let slOk := !aAlibi k.d || hs.all fun h => (List.range (aGroup k.d)).all fun g =>
    let w := askSlopeWord k h g
    f32Finite w && (!fmtNeg fmtF32 w || fmtMag fmtF32 w == 0)
  let drOk := hs.all fun h => (List.range (aDrafts k.d)).all fun p =>
    let a := askDraft k false h p
    let b := askDraft k true h p
    vecFinite k.x.fmt (ctxDk k.x) a.1 a.2 && (ctxLatent k.x || vecFinite k.x.fmt (ctxDv k.x) b.1 b.2)
  if !qOk || !slOk || !drOk then some (ccBadDesc, 0x40)
  else if !treeOk k then some (ccBadDesc, 0x46) else none

/-- The limits of R72 that check 5 has not judged. -/
def attendLimits (d : Desc) (x : Ctx) : Bool :=
  decide (rowsAll d x ≤ 2048 ∧ rowsAll d x * (4 * ctxDv x + 272) ≤ 2097152)

/-! ## Work items (R69, R71, R74) -/



/-- A descriptor whose work items wait for a dispatcher place is held (R405). -/
def awaitPlace (f : Flight) (s : State) : State := setFlight (holdBegin false s.time.cycle f) s

/-- Every dispatcher place that a descriptor needs is free (R71). -/
def placesFree (s : State) (cs : List Nat) : Bool :=
  cs.all fun c =>
    let k := coreOf s c
    decide (k.queue.length + (if k.work.isSome then 1 else 0) < 16)

/-- A member's part of an ATTEND or a COMPACT waits: its dispatcher places are full, or an earlier part of that entry device waits
(R71). -/
def partWaits (f : Flight) (s : State) : Bool :=
  !placesFree s (stripeCores s (ctxOf s (dCtx f.desc))) || s.attn.flights.any fun g => itemsFollow s g f

/-- A waiting part that can start. -/
def partReady (s : State) (d op : Nat) : Option Flight :=
  match flightOf s d with
  | none => none
  | some f =>
    if 1024 ≤ f.qp ∧ dOpcode f.desc = op ∧ f.stage = .waiting ∧ live s ∧ !partWaits f s then some { f with stage := .running } else none

/-- The page that holds the context's last token. -/
def lastPage (n : Nat) : Nat := (n - 1) / 64

/-- Tokens of a page that an ATTEND dispatched at length `n` reads, as a mask (R70). -/
def tokenMask (s : State) (c n p : Nat) : Nat :=
  ((tokensOf s c p).filter fun i => decide (64 * p + i < n)).foldl (fun a i => a + 2 ^ i) 0

/-- The tiles of a page for an ATTEND: one for each head, unless the mask excludes every token (R74). -/
def pageTiles (s : State) (k : Ask) (c : Nat) (q : Nat × Page) : List Tile :=
  let m := tokenMask s c k.n q.1
  let rows := if aDrafts k.d = 0 then [k.n - 1] else (List.range (aDrafts k.d)).map fun p => k.n + askDepth k p
  let seen := (List.range 64).any fun i => bitAt m i && rows.any fun r => admits k r (64 * q.1 + i)
  if seen then
    let forced := decide (64 * q.1 < aSinks k.d) || q.1 == lastPage k.n
    (List.range (ctxHeads k.x)).map fun h =>
      { page := q.1, head := h, mask := BitVec.ofNat 64 m, fmt := q.2.fmt, frame := q.2.frame, forced := forced, u := [], addr := none }
  else []

/-- The draft tile. -/
def draftTile : Tile :=
  { page := 2 ^ 40, head := 0, mask := 0, fmt := 0, frame := 0, forced := true, u := [], addr := none }

def emptyRow (dv : Nat) : Row := { m := none, l := dyZero, bound := some dyZero, o := List.replicate dv dyZero }

/-- The work item of the core at position `i` of `n` (R69, R87; log entry 101 for a context without a token). -/
def attendWork (s : State) (f : Flight) (i n : Nat) : Work :=
  let k := askOf s f
  let c := dCtx f.desc
  let pages := (layerPages s c (dLayer f.desc)).filter fun q => localPage s c q.1 % n == i
  let draft := aDrafts f.desc != 0 && ownPage s c (lastPage k.n) && localPage s c (lastPage k.n) % n == i
  let tiles := pages.flatMap (pageTiles s k c) ++ (if draft then [draftTile] else [])
  { desc := f.id, ctx := c, layer := dLayer f.desc, compact := false, phase := .stream, tiles := tiles, toIssue := []
    issued := [], extra := obj s 0x9100 1, lower := obj s 0x9100 2
    thr := List.replicate (ctxHeads k.x) 64, kref := List.replicate (ctxHeads k.x) none
    hist := [], rows := List.replicate (rowsAll f.desc k.x) (emptyRow (ctxDv k.x)), round := 0, unread := [], codes := []
    bytes := 0, read := 0, tick := s.time.cycle, waitAt := none, fresh := none }

/-- A page of the layer lies in an extent that has been revoked (R401 step 2). -/
def revokedPage (s : State) (c l : Nat) : Bool :=
  (layerPages s c l).any fun q => ((frameOf s q.2.frame).map (frameRevoked s)).getD false

/-- Put work items behind the cores' other work. -/
def queueWork (w : Nat → Work) (s : State) (ic : Nat × Nat) : State :=
  let k := coreOf s ic.2
  setCore ic.2 { k with queue := k.queue ++ [w ic.1] } s

/-- The packets that carry an input block (Worked case Truss 1): 4,096 bytes each, the last what is left. -/
def inputPackets (n : Nat) : List Nat := (List.range (ceilDiv n 4096)).map fun i => min 4096 (n - 4096 * i)

/-- The ATTEND goes to its cores: the tokens are those of its dispatch at the entry device (R70). -/
def startAttend (f : Flight) (s : State) : State :=
  let x := ctxOf s (dCtx f.desc)
  let cs := stripeCores s x
  let f := { f with stage := .running, blocks := none, len := if f.qp < 1024 then x.length else f.len, cores := cs, left := cs
                    due := ([(0, (cs.filter (· < 10)).length), (1, (cs.filter (10 ≤ ·)).length)].filter fun p => p.2 != 0)
                      ++ (mergeChildren s (dCtx f.desc) (if f.qp < 1024 then ownIndex s else f.qp - 1024)).map fun i => (16 + i, 1) }
  let s := (inputPackets (inBytes f.desc x)).foldl (fun s n => inject f.id (50 + flightDie f) 1 n cs s) (setFlight f s)
  ((List.range cs.length).zip cs).foldl (queueWork fun i => attendWork s f i cs.length) s

/-! ## Reading a descriptor's block (R128, R365, R372) -/

/-- What reading a block comes to: it waits, it cannot be read, or its code, its bytes and its pieces on this device. -/
inductive Fetch where
  | wait
  | fail (code : Nat)
  | got (code : Nat) (bytes : List Byte) (pieces : List (Nat × Nat))
  deriving DecidableEq, Repr

/-- Read a flight's block: it waits for a pending page, for a tracked line that an agent may hold dirty, and for pieces on
other members; a block in T3 comes through its tier cache. -/
def fetchBlock (f : Flight) (va len : Nat) (s : State) : Fetch × State :=
  match blockWait (flightDie f) (dPasid f.desc) va len false s with
  | (true, s) => (.wait, s)
  | (false, s) =>
    match translateBlock (flightDie f) (dPasid f.desc) va len false s with
    | (.pending ps, s) => (.wait, pendingPost f ps s)
    | (.ok ps, s) =>
      match remoteWait f ps s with
      | (true, s) => (.wait, s)
      | (false, s) =>
        let own := ps.filter fun p => p.1 / 2 ^ 52 == ownIndex s
        match cacheWait ((flightOf s f.id).getD f) own s with
        | (true, s) => (.wait, s)
        | (false, s) =>
          match cacheReady own false s with
          | none => (.fail ccFull, s)
          | some s =>
            let (code, bs) := readBlock s ((flightOf s f.id).getD f) ps
            (.got code bs own, s)
    | (_, s) => (.fail ccXlate, s)

/-- APPEND (R140 to R147). -/
def execAppend (d : Nat) (s : State) : Res :=
  match dispatchable s d 2 with
  | none => .next (atGate d 2 s)
  | some f =>
    let x := ctxOf s (dCtx f.desc)
    match fetchBlock f (pSrc f.desc) (srcBytes f.desc x) (setFlight f s) with
    | (.wait, s) => .next s
    | (r, s) =>
      match (ctxGone s f).orElse fun _ => appendCheck s f.desc with
      | some (code, dt) => .next (complete f.id code dt x.length 0 s)
      | none =>
        match r with
        | .got code bs ps =>
          let s := tenantCount f.tenant 1 (t1Bytes ps) (notePieces 0xFF f.tenant ps s)
          if code ≠ 0 then .next (complete f.id code 0 x.length 0 s)
          else
            let f := { f with input := bs, t1r := f.t1r + t1Bytes ps }
            .next (runMem f (setFlight f s))
        | .fail code => .next (complete f.id code 0 x.length 0 s)
        | .wait => .next s

/-- A member's part of an ATTEND or a COMPACT goes to the stripe's cores (R252). -/
def startPart (start : Flight → State → State) (f : Flight) (s : State) : State :=
  if (stripeCores s (ctxOf s (dCtx f.desc))).isEmpty then complete f.id ccFenced 0 0 0 s else start f s

/-- ATTEND: the input block is translated whole, read and checked, and the work items go to the stripe's cores (R72,
R125, R136, R252, R365). -/
def execAttend (d : Nat) (s : State) : Res :=
  match partReady s d 1, dispatchable s d 1 with
  | some f, _ => .next (startPart startAttend f s)
  | none, none => .next (atGate d 1 s)
  | none, some f =>
    let x := ctxOf s (dCtx f.desc)
    if !placesFree s (stripeCores s x) then .next (awaitPlace f s)
    else
      let f := holdEnd s.time.cycle f
      match fetchBlock f (aIn f.desc) (inBytes f.desc x) (setFlight f s) with
      | (.wait, s) => .next s
      | (r, s) =>
        match ctxGone s f with
        | some (code, dt) => .next (complete f.id code dt 0 0 s)
        | none =>
          if !attendLimits f.desc x then .next (complete f.id ccBadDesc 0x43 0 0 s)
          else match r with
            | .got code bs ps =>
              let s := tenantCount f.tenant 1 (t1Bytes ps) (notePieces 0xFF f.tenant ps s)
              if code ≠ 0 then .next (complete f.id code 0 0 0 s)
              else
                let f := { f with input := bs, t1r := f.t1r + t1Bytes ps, len := x.length }
                match inputCheck (askOf s f) with
                | some (code, dt) => .next (complete f.id code dt 0 0 s)
                | none =>
                  let s := noteDispatch f s
                  if revokedPage s (dCtx f.desc) (dLayer f.desc) then .next (complete f.id ccRevoked 3 0 0 s)
                  else if (stripeCores s x).isEmpty then .next (complete f.id ccFenced 0 0 0 s)
                  else if spanMask s (dCtx f.desc) = 0 then .next (startAttend f s)
                  else
                    let s := startStriped f (0, 0) s
                    match flightOf s f.id with
                    | some f => .next (startAttend f s)
                    | none => .next s
            | .fail code => .next (complete f.id code 0 0 0 s)
            | .wait => .next s

/-! ## Running a work item -/

/-- Core tallies of 7003 and the staging fill of 7001 (R658). -/
def coreTally (c col n : Nat) (s : State) : State := tallyAdd 0x7003 c col n s

/-- A queued item's tiles as the context's entries name them now: a COMPACT that has swapped a page since the dispatch gives the
new copy with its record (R128, R200). -/
def freshTile (s : State) (w : Work) (t : Tile) : Tile :=
  match pageOf s w.ctx w.layer t.page with
  | some v => { t with fmt := v.fmt, frame := v.frame }
  | none => t

/-- The work item's record of R660 moves over when the next begins. -/
def coreRecordMove (c : Nat) (s : State) : State :=
  s.setTal fun t => { t with coreLast := tput [] t.coreLast c (tget [] t.coreRun c), coreRun := tput [] t.coreRun c [] }

/-- The contexts whose entries a COMPACT's page is swapped in: the named one, and with opt every sharer that is not CLOSING
(R201). -/
def swapEntries (s : State) (w : Work) (t : Tile) : Tbl Page :=
  let opt := ((flightOf s w.desc).map fun f => rOpt f.desc).getD false
  (namers s t.frame).filter fun q => pkeyPage q.1 == tilePage w t && pkeyLayer q.1 == tileLayer w t
    && (pkeyCtx q.1 == w.ctx || (opt && (ctxOf s (pkeyCtx q.1)).st == .open))

/-- A work item waits to swap a page of the context (R200). -/
def swapWaits (s : State) (ctx : Nat) : Bool :=
  s.attn.cores.any fun c => match c.2.work with
    | some w => w.compact && w.fresh.isSome && (match w.issued with
        | t :: _ => (swapEntries s w t).any fun q => pkeyCtx q.1 == ctx
        | [] => false)
    | none => false

/-- A tile whose page's record does not bound it: it is unreadable, or live tokens that the record was built from no longer are
those that the ATTEND reads (R188, R191). -/
def unbounded (s : State) (w : Work) (t : Tile) : Bool :=
  match pageOf s w.ctx w.layer t.page with
  | some v => v.sstate == 3 || t.mask.toNat &&& tokenMask s w.ctx (64 * t.page + 64) t.page != t.mask.toNat
  | none => true

/-- One tile for each page that the summary pass reads. -/
def summaryPages (s : State) (w : Work) : List Tile := w.tiles.filter fun t => !t.forced && t.head == 0 && !unbounded s w t

/-- WORK_ITEM_START (R71): a core that is idle takes the next work item. -/
def execWorkItemStart (c : Fin 20) (s : State) : Res :=
  let k := coreOf s c.val
  match k.work, k.queue with
  | none, w :: rest =>
    if k.st ≠ .inService ∨ (!w.compact && swapWaits s w.ctx) then .next s
    else
      let mode := ((flightOf s w.desc).map fun f => aMode f.desc).getD 0
      let w := { w with tick := s.time.cycle, tiles := if w.compact then w.tiles else w.tiles.map (freshTile s w) }
      let w := if w.compact then { w with phase := .compact, toIssue := w.tiles }
        else if mode = 0 then { w with phase := .stream, toIssue := w.tiles, round := 1 }
        else { w with phase := .summary, toIssue := summaryPages s w }
      let s := setCore c.val { k with work := some w, queue := rest } (coreRecordMove c.val s)
      .next (issueReads c.val (if w.round = 1 then runCount c.val 4 1 s else s))
  | _, _ => .next s

/-- What a failed granule leaves on the work item: in the summary pass poison, an uncorrectable line or a failed MAC forces the
page (R75), another code is the summary's (R166); a failed page is kept for the end (R81). -/
def granuleFault (w : Work) (g : Granule) (code : Nat) : Work :=
  if code = 0 then w
  else if w.phase ≠ .summary then { w with codes := w.codes ++ [(code, 3)] }
  else if code = ccPoison ∨ code = ccUncorr ∨ code = ccIntegrity then { w with unread := w.unread ++ [g.page] }
  else { w with codes := w.codes ++ [(code, 2)] }

/-- Read `i` of those outstanding returns: its granule's ready bit is set (R65, R67). -/
def granuleBack (c : Nat) (k : Core) (w : Work) (i : Nat) (f : Finding) (s : State) : State :=
  match (outstanding w)[i]? with
  | none => s
  | some g =>
    let s := noteRead (0x20 + c) g.addr g.len (meet g.addr f s)
    let s := tallyAdd 0x7001 (122 + c) 1 g.len (tallyMem false g.addr g.len s)
    let s := runCount c 0 g.len (tenantCount (ctxOf s w.ctx).tenant 3 g.len s)
    let w := { w with bytes := w.bytes + g.len, stage := w.stage.map fun h => if h = g then { g with ready := true } else h }
    setCore c { k with work := some (moveHalf (granuleFault w g (readCode s g.addr g.len))) } s

/-! ## The summary pass (R73 to R78, R112 to R114) -/

/-- dmin of R112: the least i − j over the tile's admitted tokens; none where the row admits none. -/
def tileDmin (k : Ask) (t : Tile) (i : Nat) : Option Nat :=
  (List.range 64).foldl (fun b x =>
    if t.mask.getLsbD x && admits k i (64 * t.page + x) then
      match b with
      | none => some (i - (64 * t.page + x))
      | some v => some (min v (i - (64 * t.page + x)))
    else b) none

/-- u[r, p] (R112), every operation rounded toward +∞; none where the row admits no token of the tile. -/
def boundOf (k : Ask) (mx mn : List Dy) (t : Tile) (r : Nat) : Option Dy :=
  match tileDmin k t (rowPos k r) with
  | none => none
  | some dmin =>
    let q := askQuery k t.head r
    let up := r32 .up
    let dot := (List.zip q (List.zip mx mn)).foldl (fun a p =>
      up (dyAdd a (up (dyMul p.1 (if p.1.m < 0 then p.2.2 else p.2.1))))) dyZero
    let abs := (List.zip q (List.zip mx mn)).foldl (fun a p =>
      up (dyAdd a (up (dyMul (dyAbs p.1) (dyMax (dyAbs p.2.1) (dyAbs p.2.2)))))) dyZero
    let u := up (dyAdd dot (up (dyMul { m := 1, e := -19 } abs)))
    let u := up (dyMul (fmtVal fmtF32 (aScale k.d)) u)
    let c := fmtVal fmtF32 (aCap k.d)
    let u := if aSoftcap k.d then up (dyAdd (capTanhUp c u) (up (dyMul { m := 1, e := -19 } c))) else u
    some (if aAlibi k.d then up (dySub u (dyNeg (up (dyNeg (dyMul (askSlope k t.head r) (dyOf dmin)))))) else u)

/-- The bounds of one tile for its head's rows. -/
def tileBounds (s : State) (k : Ask) (w : Work) (t : Tile) : List (Option Dy) :=
  let rec_ := mread s.mem.bytes (sumAddr s w.ctx w.layer t.page) (sumRecord k.x)
  let (mx, mn) := sumRead k.x rec_ t.head
  (List.range (rowsPerHead k.d)).map fun r => boundOf k mx mn t r

/-- A key: the largest bound over the head's rows. -/
def keyOf (us : List (Option Dy)) : Option Dy :=
  us.foldl (fun b u => match b, u with
    | none, u => u
    | some a, some v => some (dyMax a v)
    | b, none => b) none

/-- `x` rounded up to a multiple of 0.5. -/
def halfUp (x : Dy) : Dy := dyQuant .up x (-1)

/-- The bin of a key (R77). -/
def binOf (kref key : Dy) : Nat :=
  let d := dySub kref key
  let n := dyAlign { d with e := d.e + 1 } (min (d.e + 1) 0)
  let f := if d.e + 1 ≥ 0 then n.toNat else n.toNat / 2 ^ (-(d.e + 1)).toNat
  63 - min 63 f

/-- A tile with its bounds, key and bin within its head. -/
structure Bound where
  t : Tile
  us : List (Option Dy)
  key : Dy
  bin : Nat

/-- 1 + 2^-20. -/
def oneUp : Dy := { m := 1048577, e := -20 }

/-- An exponential that stands in an upper bound, with its factor: rounded toward +∞ (R107, R114, R115). -/
def expBound (x : Dy) : Dy := r32 .up (dyMul (expUp x) oneUp)

/-- A row's histogram when kref rises by `d`, a multiple of 0.5: every bin moves down by 2 d, those below bin 0 fall into it, and
every entry is scaled (R114). -/
def rebin (d : Dy) (h : List Dy) : List Dy :=
  let n := (dyAlign { d with e := d.e + 1 } (min (d.e + 1) 0)).toNat / 2 ^ (-(min (d.e + 1) 0)).toNat
  let low := (h.take (n + 1)).foldl (fun a x => r32 .up (dyAdd a x)) dyZero
  let moved := low :: (h.drop (n + 1) ++ List.replicate (min n 64) dyZero)
  (moved.take 64).map fun x => r32 .up (dyMul x (expBound (dyNeg d)))

/-- The histogram of one row of a head as the summary pass streams: kref is the largest key so far, rounded up to a multiple of
0.5, and a rise of it rebins (R77, R114). -/
def histRow (bs : List Bound) (r : Nat) : List Dy :=
  (bs.foldl (fun (a : Option Dy × List Dy) b =>
    let kref := halfUp (match a.1 with | none => b.key | some k => dyMax k b.key)
    let h := match a.1 with
      | none => a.2
      | some k => if dyLt k kref then rebin (dySub kref k) a.2 else a.2
    (some kref, match b.us.getD r none with
      | none => h
      | some u =>
        let v := r32 .up (dyMul (dyOf (popCount b.t.mask.toNat 64)) (expBound (dySub u kref)))
        h.modify (binOf kref b.key) fun x => r32 .up (dyAdd x v))) (none, List.replicate 64 dyZero)).2

/-- The highest bin whose tiles from it up are at least f0 of the total (R78). -/
def pickBin (bs : List Bound) (f0 : Nat) : Nat :=
  let total := bs.length
  ((List.range 64).reverse.find? fun t =>
    decide (f0 * total ≤ 65536 * (bs.filter fun b => decide (t ≤ b.bin)).length)).getD 0

/-- One head's selection after the summary pass. -/
def selectHead (s : State) (k : Ask) (w : Work) (h : Nat) : List Bound × Option Dy × List (List Dy) × Nat :=
  let ts := w.tiles.filter fun t => t.head == h && !t.forced
  let raw := ts.filterMap fun t =>
    let us := tileBounds s k w t
    (keyOf us).map fun key => ({ t := t, us := us, key := key, bin := 0 } : Bound)
  match raw with
  | [] => ([], none, [], 64)
  | b :: bs =>
    let kref := halfUp (bs.foldl (fun m x => dyMax m x.key) b.key)
    let all := (b :: bs).map fun x => { x with bin := binOf kref x.key }
    (all, some kref, (List.range (rowsPerHead k.d)).map fun r => histRow all r, pickBin all (aF0 k.d))

/-- The tiles that a later round reads: those between the new threshold of their head and the last one (R78), and where the summary
pass is repeated, those not read before whose record could not be read (R75). -/
def roundTiles (w : Work) : List Tile := w.tiles.filter fun t => !t.forced && (match t.u with
  | [b] => decide (b.m.toNat < w.thrWas.getD t.head 64)
      && (decide (w.thr.getD t.head 64 ≤ b.m.toNat) || w.unread.contains t.page)
  | _ => false)

/-- More tiles than a core's share of the key list holds: each later round repeats the summary pass (R78). -/
def noKeyList (w : Work) : Bool := decide (1572864 < w.tiles.length)

/-- Cycles of the array in a summary pass: one pass for each head over its tiles (R62, R73; log entry 102). -/
def summaryCycles (k : Ask) (w : Work) : Nat :=
  let n := (w.tiles.filter fun t => !t.forced && t.head == 0).length
  if n = 0 then 0
  else ctxHeads k.x * max (ceilDiv (2 * ctxDk k.x * n) 512) (ceilDiv (rowsPerHead k.d * 64) 1024)

/-- The array is busy. -/
def busy (c n : Nat) (f : Flight) (s : State) : State :=
  tenantCount f.tenant 9 n (runCount c 2 n (coreTally c 0 n s))

/-- The summary pass of a core ends: bounds, keys, histograms, the threshold of each head, and the first stream; a repeated pass
finds its round's tiles. A page whose record could not be read, or does not bound its live tokens any more, is forced (R75, R188).
A bound beyond FP32 is an overflow (R102). -/
def summaryEnd (c : Nat) (kk : Core) (w : Work) (f : Flight) (s : State) : State :=
  let k := askOf s f
  let s := busy c (summaryCycles k w) f s
  if !w.thrWas.isEmpty then
    issueReads c (runCount c 4 1 (setCore c { kk with work := some { w with
      phase := .stream, toIssue := roundTiles w, issued := []
      tiles := w.tiles.map fun t => if w.unread.contains t.page then { t with forced := true } else t } } s))
  else
  let w := { w with tiles := w.tiles.map fun t =>
    if w.unread.contains t.page || unbounded s w t then { t with forced := true } else t }
  let sel := (List.range (ctxHeads k.x)).map (selectHead s k w)
  let above := (sel.flatMap (·.1)).find? fun b => b.us.any fun u => match u with | some v => over32 v | none => false
  let tiles := w.tiles.map fun t =>
    match (sel.flatMap (·.1)).find? fun b => b.t.page == t.page && b.t.head == t.head with
    | some b => { t with u := [dyOf b.bin] }
    | none => t
  let first := tiles.filter fun t => t.forced || (match t.u with
    | [b] => decide ((sel.getD t.head ([], none, [], 64)).2.2.2 ≤ b.m.toNat)
    | _ => true)
  let w := { w with
    phase := .stream, tiles := tiles, kref := sel.map (·.2.1), hist := sel.map (·.2.2.1), thr := sel.map (·.2.2.2)
    toIssue := if above.isSome then [] else first, issued := [], round := 1
    codes := if above.isSome then w.codes ++ [(ccAborted, 2)] else w.codes }
  let s := runCount c 4 1 (setCore c { kk with work := some w } s)
  match above with
  | none => issueReads c s
  | some b =>
    let r := (b.us.findIdx? fun u => match u with | some v => over32 v | none => false).getD 0
    let a := (((frameOf s b.t.frame).map fun v => (topCopy v).2).getD 0) + b.t.head * tileBytes k.x b.t.fmt
    logEvent 0x0A a (coreLoc c) f.tenant (0x20 + c) 0 (b.t.head * rowsPerHead k.d + r) s

/-! ## Tiles through the array (R59, R60, R98 to R106) -/

/-- A score after the modifier and mask unit (R59, R101), marked where a step overflows. `i` is the token's place in its tile,
whose keys are packed with no gaps (R57). -/
def scoreOf (k : Ask) (h r fmt i : Nat) (key : List Dy) (dist : Int) : Marked :=
  let raw := rawScore fmt (i * ctxDk k.x) (askQuery k h r) key
  let x := mul32 (fmtVal fmtF32 (aScale k.d)) raw.1
  let y := if aSoftcap k.d then softcap32 (fmtVal fmtF32 (aCap k.d)) x else x
  let b := if aAlibi k.d then mul32 (askSlope k h r) (dyOf dist) else dyZero
  let z := if aAlibi k.d then sub32 y b else y
  (z, raw.2 || over32 x || over32 y || over32 b || over32 z)

/-- Value elements per token and per PV cycle: tokens whose elements enter the array in one cycle (R60, R61). -/
def tokensPerCycle (fmt dv : Nat) : Nat := max 1 (unitElems fmt * 8 / dv)

/-- What one tile gives a row: its admitted tokens with key, value and distance. -/
structure Tok where
  key : List Dy
  val : List Dy
  dist : Int
  ok : Bool

/-- One row takes one tile (R103, R105): scores, running maximum and sum, rescale and accumulation. The flag tells an overflow of
any FP32 value on the way (R102). -/
def rowTile (k : Ask) (h r fmt : Nat) (toks : List Tok) (row : Row) : Row × Bool :=
  let sc := toks.zipIdx.map fun t =>
    if t.1.ok then some (scoreOf k h r fmt t.2 t.1.key t.1.dist) else none
  let tmax := sc.foldl (fun b x => match x, b with
    | some v, some a => some (dyMax a v.1)
    | some v, none => some v.1
    | none, b => b) none
  let mNew := match row.m, tmax with
    | some a, some b => some (dyMax a b)
    | none, b => b
    | a, none => a
  let over1 := sc.any fun x => match x with | some v => v.2 | none => false
  match tmax, mNew with
  | some _, some m =>
    let ps := sc.map fun x => match x with
      | some v => fmtRound fmtQr .near (prob32 (dySub v.1 m))
      | none => dyZero
    let tsum := ps.foldl addMark (dyZero, false)
    let a := match row.m with
      | none => dyZero
      | some m0 => exp32 (dySub m0 m)
    let l := addMark (mul32 a row.l, tsum.2) tsum.1
    let tpc := tokensPerCycle fmt (ctxDv k.x)
    let groups := chunksOf tpc (toks.length + 1) (List.zip ps (toks.map (·.val)))
    let o := (List.range (ctxDv k.x)).map fun e =>
      groups.foldl (fun acc g => addMark acc (groupSum (g.map fun p => dyMul p.1 (p.2.getD e dyZero))))
        (mul32 a (row.o.getD e dyZero), false)
    ({ row with m := some m, l := l.1, o := o.map (·.1) }, over1 || l.2 || o.any (·.2))
  | _, _ => (row, over1)

/-- The tokens of a tile for a row: those of a page from memory, those of the draft tile from the input block. -/
def tileToks (s : State) (k : Ask) (t : Tile) (h r : Nat) : List Tok :=
  if isDraft t then
    (List.range (aDrafts k.d)).map fun j =>
      let kb := askDraft k false h j
      let vb := askDraft k true h j
      let dv := if ctxLatent k.x then (kb.1.take (vecElemBytes k.x.fmt (ctxDv k.x)), kb.2) else vb
      { key := vecVals k.x.fmt (ctxDk k.x) kb.1 kb.2, val := vecVals k.x.fmt (ctxDv k.x) dv.1 dv.2
        dist := (askDepth k (rowDraft k r) : Int) - askDepth k j, ok := bitAt (askTree k (rowDraft k r)) j }
  else
    let a := t.addr.getD 0 - h * tileBytes k.x t.fmt
    (List.range 64).map fun j =>
      let i := rowPos k r
      if t.mask.getLsbD j && admits k i (64 * t.page + j) then
        { key := keyVals s k.x t.fmt a h j, val := valVals s k.x t.fmt a h j, dist := (i : Int) - (64 * t.page + j : Nat), ok := true }
      else { key := [], val := [], dist := 0, ok := false }

/-- Rows of a work item after one tile, with the first row that overflowed. -/
def tileRows (s : State) (k : Ask) (t : Tile) (h : Nat) (rows : List Row) : List Row × Option Nat :=
  let g := rowsPerHead k.d
  (List.range g).foldl (fun acc r =>
    let i := h * g + r
    let toks := tileToks s k t h r
    let x := rowTile k h r (if isDraft t then k.x.fmt else t.fmt) toks (acc.1.getD i (emptyRow (ctxDv k.x)))
    (acc.1.set i x.1, if x.2 && acc.2.isNone then some i else acc.2)) (rows, none)

/-- Array cycles of a tile's two passes, the draft tile's for every head (R62). -/
def tileCycles (k : Ask) (t : Tile) : Nat :=
  let least := ceilDiv (rowsPerHead k.d * 64) 1024
  let fmt := if isDraft t then k.x.fmt else t.fmt
  let n := if isDraft t then aDrafts k.d else 64
  (if isDraft t then ctxHeads k.x else 1)
    * (max (ceilDiv (n * vecElemBytes fmt (ctxDk k.x)) 512) least + max (ceilDiv (n * vecElemBytes fmt (ctxDv k.x)) 512) least)

/-- A tile of a frame has been read (R223). -/
def noteUse (t : Tile) (s : State) : State :=
  match frameOf s t.frame with
  | some v => setFrame t.frame { v with refd := true } s
  | none => s

/-- Stream one tile: its rows, its tallies, and an overflow's entry (R102). -/
def streamTile (c : Nat) (f : Flight) (s : State) (w : Work) (t : Tile) : State × Work :=
  let k := askOf s f
  let heads := if isDraft t then List.range (ctxHeads k.x) else [t.head]
  let rec_ := heads.foldl (fun (a : List Row × Option Nat) h =>
    let x := tileRows s k t h a.1
    (x.1, a.2.orElse fun _ => x.2)) (w.rows, none)
  let s := busy c (tileCycles k t) f (runCount c 1 1 (coreTally c 2 1 s))
  match rec_.2 with
  | some i =>
    (logEvent 0x0A (t.addr.getD 0) (coreLoc c) f.tenant (0x20 + c) 0 i s,
     { w with rows := rec_.1, codes := w.codes ++ [(ccAborted, 2)], read := w.read + 1 })
  | none => (s, { w with rows := rec_.1, read := w.read + 1 })

/-! ## Certification and the end of a work item (R78, R81, R82, R115) -/

/-- B[r] for a row under a threshold (R115): none is +∞. -/
def skipBound (hist : List Dy) (kref : Option Dy) (t : Nat) (row : Row) : Option Dy :=
  let sum := (hist.take t).foldl (fun a x => r32 .up (dyAdd a x)) dyZero
  if sum.m = 0 then some dyZero
  else match kref, row.m with
    | some kr, some m =>
      let b := r32 .up (dyMul (r32 .up (dyMul sum (expUp (dySub kr m)))) oneUp)
      if over32 b then none else some b
    | _, _ => none

/-- A row meets the tolerance. -/
def rowPasses (tau : Dy) (b : Option Dy) (l : Dy) : Bool :=
  match b with
  | none => false
  | some v => dyLe v (dyMul tau (dyAdd l v))

/-- The rows with their skipped bounds, each head at its threshold. -/
def withBounds (k : Ask) (w : Work) : List Row :=
  let g := rowsPerHead k.d
  w.rows.zipIdx.map fun p =>
    let h := p.2 / max 1 g
    { p.1 with bound := skipBound ((w.hist.getD h []).getD (p.2 % max 1 g) []) (w.kref.getD h none) (w.thr.getD h 64) p.1 }

/-- Remove a descriptor's work from every core; their outstanding reads are discarded. -/
def cancelWork (id : Nat) (s : State) : State :=
  s.setAttn fun a => { a with cores := a.cores.map fun c =>
    (c.1, { c.2 with work := c.2.work.filter fun w => w.desc != id, queue := c.2.queue.filter fun w => w.desc != id }) }

/-- A descriptor all of whose work items have ended: a failure gives its entry (R81, a fenced core first by R249) and stops the
members' parts of a striped ATTEND, a COMPACT its own. -/
def workEnded (id : Nat) (s : State) : State :=
  match flightOf s id with
  | none => s
  | some f =>
    if !f.left.isEmpty ∨ !f.members.isEmpty then s
    else
      let cs := f.codes.filter fun c => c.1 != 0
      let c := if spanMask s (dCtx f.desc) ≠ 0 then spanCode cs
        else if cs.contains (ccFenced, 0) then (ccFenced, 0) else (pickCode cs).getD (0, 0)
      if dOpcode f.desc = 9 then complete id c.1 c.2 f.r1 f.r2 s
      else if c.1 ≠ 0 then
        let ms := if f.qp < 1024 then (otherMembers s (dCtx f.desc)).filter (reachable s) else []
        complete id c.1 c.2 0 0 (ms.foldl (spanSend 3 id []) s)
      else s

/-- A core's work item ends: the core is free, and the descriptor takes what it gave. -/
def workEnd (c : Nat) (w : Work) (g : Flight → Flight) (s : State) : State :=
  let s := setCore c { coreOf s c with work := none } s
  let s := coreTally c 3 1 s
  let s := match flightOf s w.desc with
    | some f => setFlight (g { f with left := f.left.erase c, codes := f.codes ++ w.codes, tiles := f.tiles + w.read
                                      t1r := f.t1r + w.bytes }) s
    | none => s
  workEnded w.desc s

/-- A core's ATTEND work item ends with its partial, or with its failures. -/
def attendEnd (c : Nat) (w : Work) (rows : List Row) (s : State) : State :=
  let die := c / 10
  let unf := (w.tiles.filter fun t => !t.forced).length
  let rd := (w.tiles.filter fun t => !t.forced && (match t.u with
    | [b] => decide (w.thr.getD t.head 64 ≤ b.m.toNat)
    | _ => true)).length
  workEnd c w (fun f => { f with
    parts := if w.codes.isEmpty then f.parts ++ [(die, rows)] else f.parts
    tilesRead := f.tilesRead + rd, tilesAll := f.tilesAll + unf, rounds := max f.rounds w.round }) s

/-- No ATTEND of a context is running: a COMPACT's page may be swapped in (R200). -/
def noAttendOn (s : State) (ctx : Nat) : Bool :=
  !(s.attn.cores.any fun c => match c.2.work with
    | some w => w.ctx == ctx && !w.compact
    | none => false)

/-- No ATTEND runs of any context whose entry a page's swap changes (R200, R201). -/
def swapFree (s : State) (w : Work) (t : Tile) : Bool := (swapEntries s w t).all fun q => noAttendOn s (pkeyCtx q.1)

/-- A round's stream has ended on a core: the check (R78, R80). -/
def roundEnd (c : Nat) (kk : Core) (w : Work) (f : Flight) (s : State) : State :=
  let k := askOf s f
  let w := { w with tick := s.time.cycle }
  if !w.codes.isEmpty then attendEnd c w [] s
  else if aMode f.desc = 0 then attendEnd c w w.rows s
  else
    let rows := withBounds k w
    if aMode f.desc = 1 then attendEnd c w rows s
    else
      let g := max 1 (rowsPerHead k.d)
      let tau := fmtVal fmtF32 (aTau f.desc)
      let fails := fun (h : Nat) => decide (w.thr.getD h 64 ≠ 0)
        && (List.range g).any fun r =>
          let row := rows.getD (h * g + r) (emptyRow 0)
          !rowPasses tau row.bound row.l
      let hs := List.range (ctxHeads k.x)
      if !(hs.any fails) then attendEnd c w rows s
      else
        let full := decide (w.extra < w.round)
        let lower := fun (h t : Nat) => if fails h then (if full then 0 else t - w.lower) else t
        let w := { w with thr := w.thr.zipIdx.map fun p => lower p.2 p.1, thrWas := w.thr, round := w.round + 1 }
        if noKeyList w then issueReads c (setCore c { kk with work := some { w with phase := .summary, toIssue := summaryPages s w } } s)
        else issueReads c (runCount c 4 1 (setCore c { kk with work := some { w with toIssue := roundTiles w } } s))

/-- The array takes what is ready, in order: a tile passes through it unless a read of the item has failed, a record is kept for
the end of the summary pass (R64, R65, R80). -/
def takeReady (c : Nat) (f : Flight) : Nat → Work → State → State × Work
  | 0, w, s => (s, w)
  | n + 1, w, s =>
    match nextIn w with
    | none => (s, w)
    | some t =>
      let s := if w.phase = .stream then noteUse t s else s
      let r := if w.phase = .stream ∧ w.codes.isEmpty then streamTile c f s w t else (s, w)
      takeReady c f n (takeEntry t { r.2 with tick := s.time.cycle }) r.1

/-- The core goes on with an ATTEND: the array takes what is ready, and the fetch engine issues what it can. -/
def advance (c : Nat) (s : State) : State :=
  match (coreOf s c).work with
  | none => s
  | some w =>
    match flightOf s w.desc with
    | none => s
    | some f =>
      let r := takeReady c f (w.issued.length + 1) w s
      let w := issueLoop r.1 (r.2.toIssue.length + 257) r.2
      let r := takeReady c f (w.issued.length + 1) w r.1
      issueReads c (setCore c { coreOf r.1 c with work := some r.2 } r.1)

/-- Everything of the present pass has been read and taken. -/
def drained (w : Work) : Bool := w.toIssue.isEmpty && w.issued.isEmpty

/-- SUMMARY_PASS_END. -/
def execSummaryPassEnd (c : Fin 20) (s : State) : Res :=
  let s := advance c.val s
  let k := coreOf s c.val
  match k.work with
  | some w =>
    if w.phase = .summary ∧ drained w then
      match flightOf s w.desc with
      | some f => .next (summaryEnd c.val k w f s)
      | none => .next s
    else .next s
  | none => .next s

/-! ## COMPACT (R161, R198 to R201) -/

/-- Tokens of a page that are live and present in any context that names its frame. -/
def sharedTokens (s : State) (c p f : Nat) (all : Bool) : List Nat :=
  let cs := if all then ((namers s f).map fun q => pkeyCtx q.1).eraseDups else [c]
  (List.range 64).filter fun i => cs.any fun e => (tokensOf s e p).contains i

/-- Convert a page's tokens into a new frame of format `fmt` (R111, R198). -/
def convertPage (c : Nat) (fmt : Nat) (t : Tile) (toks : List Nat) (src dst : Nat) (s : State) : State :=
  let x := ctxOf s c
  (List.range (ctxHeads x)).foldl (fun s h => toks.foldl (fun s i =>
    let key := vecConvert fmt (keyVals s x t.fmt src h i)
    let val := vecConvert fmt (valVals s x t.fmt src h i)
    putToken x fmt dst h i (hintOf s c t.page * 16) key val s) s) s

/-- Swap the new frame in for one page entry, with its rebuilt record (R200, R201). -/
def swapEntry (fmt fresh : Nat) (s : State) (q : Nat × Page) : State :=
  let e := pkeyCtx q.1
  let l := pkeyLayer q.1
  let p := pkeyPage q.1
  let s := setPage e l p { q.2 with fmt := fmt, frame := fresh } s
  (sumRebuild e l p (relFrame q.2.frame s)).2

/-- The page a COMPACT has converted goes in: for the named context, and with opt for every sharer that is not CLOSING. -/
def swapPage (c : Nat) (w : Work) (t : Tile) (fresh : Nat) (s : State) : State :=
  match flightOf s w.desc with
  | none => s
  | some f =>
    let es := swapEntries s w t
    let next := issueReads c (setCore c { coreOf s c with work := some (takeEntry t
      { w with fresh := none, read := w.read + 1, tick := s.time.cycle }) } s)
    if es.isEmpty then freeFrame fresh next
    else
      let s := match frameOf s fresh with
        | some v => setFrame fresh { v with count := es.length } next
        | none => next
      setFlight { f with r1 := f.r1 + 1 } (es.foldl (swapEntry (rFmt f.desc) fresh) s)

/-- A COMPACT that finds no frame stops: no share of it reads a further page (R161). -/
def stopCompact (id : Nat) (s : State) : State :=
  let stop := fun (w : Work) => if w.desc = id then
      { w with tiles := w.issued, toIssue := [], part := 0, stage := w.stage.filter fun g => w.issued.any fun t => t.page == g.page }
    else w
  s.setAttn fun a => { a with cores := a.cores.map fun c => (c.1, { c.2 with work := c.2.work.map stop, queue := c.2.queue.map stop }) }

/-- A COMPACT's core has read a page whole: it converts it, and swaps it in once no ATTEND of the contexts concerned runs. -/
def compactPage (c : Nat) (w : Work) (t : Tile) (s : State) : State :=
  match flightOf s w.desc, t.addr with
  | some f, some src =>
    let s := noteUse t s
    let next := fun (w : Work) (s : State) =>
      issueReads c (setCore c { coreOf s c with work := some (takeEntry t { w with tick := s.time.cycle }) } s)
    if f.codes.contains (ccFull, 3) then next w s
    else
      let bad := ((frameOf s t.frame).map fun v => copyCode s v (pageBytes (ctxOf s w.ctx) t.fmt)).getD (ccUncorr, 3)
      if bad.1 = ccRevoked then next { w with codes := w.codes ++ [bad] } s
      else if bad.1 ≠ 0 then next w s
      else match newFrame f.tenant (frameBytes (ctxOf s w.ctx) (rFmt f.desc)) s with
        | none => stopCompact w.desc (setFlight { f with codes := f.codes ++ [(ccFull, 3)] } (next { w with toIssue := [] } s))
        | some (fr, s) =>
          let dst := ((frameOf s fr).bind (·.t1)).getD 0 * 4096
          let toks := sharedTokens s w.ctx (tilePage w t) t.frame (rOpt f.desc)
          let s := convertPage w.ctx (rFmt f.desc) { t with page := tilePage w t } toks src dst s
          if swapFree s w t then swapPage c w t fr s
          else setCore c { coreOf s c with work := some { w with fresh := some fr } } s
  | _, _ => s

/-- Let every COMPACT page that waits for its swap go in where it may. -/
def swapAll (s : State) : State :=
  (List.range 20).foldl (fun s c => match (coreOf s c).work with
    | some w =>
      match w.fresh, w.issued with
      | some fr, t :: _ => if swapFree s w t then swapPage c w t fr s else s
      | _, _ => s
    | none => s) s

/-- A COMPACT's share that has nothing left to read and nothing to swap ends. -/
def compactIdle (c : Nat) (s : State) : State :=
  match (coreOf s c).work with
  | some w =>
    if w.compact ∧ drained w ∧ w.fresh.isNone then workEnd c w id s else s
  | none => s

/-- A COMPACT's core goes on: the page that has come whole, then the end of its share. -/
def compactOn (c : Nat) (w : Work) (s : State) : State :=
  match w.fresh, nextIn w with
  | none, some t => compactIdle c (compactPage c w t s)
  | _, _ => compactIdle c (issueReads c s)

/-- T1_GRANULE_READY. -/
def execT1GranuleReady (c : Fin 20) (i : Nat) (f : Finding) (s : State) : Res :=
  let k := coreOf s c.val
  match k.work with
  | none => .next s
  | some w =>
    let s := granuleBack c.val k w i f s
    match (coreOf s c.val).work with
    | some w => .next (if w.compact then compactOn c.val w s else advance c.val s)
    | none => .next s

/-- CERTIFIED_CHECK. -/
def execCertifiedCheck (c : Fin 20) (s : State) : Res :=
  match (coreOf s c.val).work with
  | some w =>
    if w.compact then .next (compactOn c.val w s)
    else
      let s := advance c.val s
      match (coreOf s c.val).work with
      | some w =>
        if w.phase = .stream ∧ drained w then
          match flightOf s w.desc with
          | some f => .next (swapAll (roundEnd c.val (coreOf s c.val) w f s))
          | none => .next s
        else .next s
      | none => .next s
  | none => .next s

/-- A page that a COMPACT converts: wider than the target, and private unless opt (R157, R161). -/
def compactTakes (s : State) (d : Desc) (v : Page) : Bool :=
  decide (fmtWidth (rFmt d) < fmtWidth v.fmt) && (rOpt d || decide (((frameOf s v.frame).map (·.count)).getD 1 ≤ 1))

/-- The share of one core of a COMPACT: its pages of every layer by R69, as one work item. -/
def compactWork (s : State) (f : Flight) (ps : List (Nat × Nat × Page)) (i n : Nat) : Work :=
  let c := dCtx f.desc
  let tiles := (ps.filter fun q => localPage s c q.2.1 % n == i).map fun q =>
    ({ page := q.1 * 262144 + q.2.1, head := 0, mask := 0, fmt := q.2.2.fmt, frame := q.2.2.frame, forced := true, u := []
       addr := none } : Tile)
  { desc := f.id, ctx := c, layer := dLayer f.desc, compact := true, phase := .compact, tiles := tiles, toIssue := []
    issued := [], thr := [], kref := [], hist := [], rows := [], round := 0, unread := [], codes := []
    bytes := 0, read := 0, tick := s.time.cycle, waitAt := none, fresh := none }

/-- COMPACT's pages are divided among the stripe's cores in service, one work item each (R198). -/
def startCompact (f : Flight) (s : State) : State :=
  let x := ctxOf s (dCtx f.desc)
  let cs := stripeCores s x
  let lps := rangePages s f.desc
  let take := lps.filterMap fun lp => match pageOf s (dCtx f.desc) lp.1 lp.2 with
    | some v => if compactTakes s f.desc v then some (lp.1, lp.2, v) else none
    | none => none
  let f := { f with stage := .running, cores := cs, r1 := 0, r2 := lps.length - take.length
                    left := if take.isEmpty then [] else cs }
  if take.isEmpty then workEnded f.id (setFlight f s)
  else ((List.range cs.length).zip cs).foldl (queueWork fun i => compactWork s f take i cs.length) (setFlight f s)

/-- COMPACT (R161). -/
def execCompact (d : Nat) (s : State) : Res :=
  match partReady s d 9, dispatchable s d 9 with
  | some f, _ => .next (startPart startCompact f s)
  | none, none => .next (atGate d 9 s)
  | none, some f =>
    match ctxGone s f with
    | some (code, dt) => .next (complete f.id code dt 0 0 (noteDispatch f s))
    | none =>
      let cs := stripeCores s (ctxOf s (dCtx f.desc))
      if cs.isEmpty then .next (complete f.id ccFenced 0 0 0 (noteDispatch f s))
      else if !placesFree s cs then .next (awaitPlace f s)
      else
      let f := holdEnd s.time.cycle f
      let s := noteDispatch f (setFlight f s)
      if spanMask s (dCtx f.desc) = 0 then .next (startCompact f s)
      else
        let s := startStriped f (0, 0) s
        match flightOf s f.id with
        | some f => .next (startCompact f s)
        | none => .next s

/-! ## The merge and the output (R82 to R85, R107 to R109, R137, R139, R671) -/

/-- Two partials of one row (R83, R107), and whether an FP32 value of the merge overflows (R102). A partial whose m is −∞ takes 0
for its factor; a bound of +∞ remains one (log entry 103). -/
def mergeRow (a b : Row) : Row × Bool :=
  let m := match a.m, b.m with
    | none, m => m
    | m, none => m
    | some x, some y => some (dyMax x y)
  let part := fun (e : Dy → Dy) (x : Option Dy) => match x, m with
    | some v, some m => e (dySub v m)
    | _, _ => dyZero
  let two := fun (x y : Dy) =>
    let p := mul32 (part exp32 a.m) x
    let q := mul32 (part exp32 b.m) y
    let v := add32 p q
    (v, over32 p || over32 q || over32 v)
  let up := fun (x : Option Dy) (v : Dy) => r32 .up (dyMul (part expBound x) v)
  let l := two a.l b.l
  let o := List.zipWith two a.o b.o
  let bound := match a.bound, b.bound with
    | some x, some y => some (r32 .up (dyAdd (up a.m x) (up b.m y)))
    | _, _ => none
  ({ m := m, l := l.1, bound := bound, o := o.map (·.1) },
   l.2 || o.any (·.2) || (match bound with | some v => over32 v | none => false))

/-- The merge of two lists of rows, and the first row that overflows. -/
def mergeRows (a b : List Row) : List Row × Option Nat :=
  if a.isEmpty then (b, none)
  else
    let rs := List.zipWith mergeRow a b
    (rs.map (·.1), rs.findIdx? (·.2))

/-- PARTIAL_ARRIVAL: the oldest partial of the descriptor in a die's counting house is merged; a die that is not home
and has merged all its cores' partials sends its result to the home die (R83). -/
def execPartialArrival (die : Fin 2) (d : Nat) (s : State) : Res :=
  match flightOf s d with
  | none => .next s
  | some f =>
    match f.parts.find? fun p => p.1 == die.val with
    | none => .next s
    | some p =>
      let home := (ctxOf s (dCtx f.desc)).home
      let (rows, bad) := mergeRows (tget [] f.merged die.val) p.2
      let left := tget 0 f.due die.val - 1
      let parts := f.parts.erase p
      let bytes := rows.length * (4 * ctxDv (ctxOf s (dCtx f.desc)) + 16)
      let s := tallyAdd 0x7001 (120 + die.val) 0 bytes (tallyAdd 0x7001 (120 + die.val) 1 bytes s)
      let f := if left = 0 ∧ die.val ≠ home then
          { f with parts := parts ++ [(home, rows)], merged := tput [] f.merged die.val [], due := tput 0 (tput 0 f.due die.val 0) home (tget 0 f.due home + 1) }
        else { f with parts := parts, merged := tput [] f.merged die.val rows, due := tput 0 f.due die.val left }
      match bad with
      | none => .next (setFlight f s)
      | some r => .next (workEnded d (setFlight { f with codes := f.codes ++ [(ccAborted, 2)] }
          (logEvent 0x0A 0 (4 * 2 ^ 28 + die.val * 2 ^ 24) f.tenant 0xFF 0 r s)))

/-- All partials of the descriptor have been merged at the home die. -/
def allMerged (f : Flight) : Bool := f.parts.isEmpty && f.due.isEmpty && f.left.isEmpty

/-- The residual of a row (R109): FP32, rounded toward +∞; 1 where B is +∞. -/
def residual (r : Row) : Dy :=
  match r.bound with
  | none => dyOf 1
  | some b => if b.m = 0 then dyZero else dyDivRound .up 24 (-149) b (dyAdd r.l b)

/-- An output row in the output format (R108). -/
def outRow (fmt : Nat) (r : Row) : List Nat :=
  r.o.map fun x => if r.l.m = 0 then 0
    else
      let y := dyDivRound .near 24 (-149) x r.l
      fmtEncSat (fmtOf fmt) .near (decide (x.m < 0)) y

/-- The output block's bytes (R137). -/
def outBlock (d : Desc) (rows : List Row) : List Byte :=
  let body := rows.flatMap fun r => packElems (aOfmt d) (outRow (aOfmt d) r)
  if aRowres d then
    body ++ List.replicate (roundUp body.length 64 - body.length) 0 ++ rows.flatMap fun r => leBytes (f32Enc (residual r)) 4
  else body

/-- The digest of an output (R671, R672). -/
def digestOf (d : Desc) (rows : List Row) : BitVec 256 :=
  let vals := rows.flatMap fun r => (outRow (aOfmt d) r).map fun b => fmtVal (fmtOf (aOfmt d)) b
  let f64 := dyRound .near 53 (-1074)
  let sum := vals.foldl (fun a v => f64 (dyAdd a v)) dyZero
  let sq := vals.foldl (fun a v => f64 (dyAdd a (f64 (dyMul v v)))) dyZero
  let mx := vals.foldl (fun a v => dyMax a (dyAbs v)) dyZero
  BitVec.ofNat 256 (vals.length * 2 ^ 192 + f64Enc sum * 2 ^ 128 + f64Enc sq * 2 ^ 64 + f32Enc mx * 2 ^ 32)

/-- result2 of an ATTEND (R165). -/
def attendResult2 (f : Flight) : Nat :=
  let fr := if f.tilesAll = 0 then 0 else min 65535 (ceilDiv (f.tilesRead * 65536) f.tilesAll)
  fr * 65536 + min 255 f.rounds * 256 + f.cores.length

/-- Push writes of an output block: one message for each 4 KiB (R132); a FOLLOW twin adds its offset (R592). -/
def pushBlock (f : Flight) (bs : List Byte) (s : State) : State × Nat :=
  let base := aOut f.desc + pushOffset s
  let port := (qpOf s f.qp).bindPort
  let chunks := chunksOf 4096 (bs.length + 1) bs
  (chunks.zipIdx.foldl (fun s c => sendFor port f.tenant { kafOf 0x50 with
    addr := base + 4096 * c.2, pasid := dPasid f.desc, tag := f.id % 2 ^ 15, data := c.1 } s) s,
   if linkUp s port then chunks.length else 0)

/-- The bytes of a block that belong to this device's pieces. -/
def ownBytes (s : State) : List (Nat × Nat) → List Byte → List Byte
  | [], _ => []
  | p :: t, bs => (if p.1 / 2 ^ 52 = ownIndex s then bs.take p.2 else []) ++ ownBytes s t (bs.drop p.2)

/-- Send the pieces of an output block that lie on other members (R372): how many answers are due, or none where no device
can be reached. -/
def sendRemote (f : Flight) : List (Nat × Nat) → List Byte → State → Option (Nat × State)
  | [], _, s => some (0, s)
  | p :: t, bs, s =>
    if p.1 / 2 ^ 52 = ownIndex s then sendRemote f t (bs.drop p.2) s
    else
      match askRemote f.id true (dPasid f.desc) p.1 p.2 0 0x41 (bs.take p.2) s with
      | none => none
      | some s => (sendRemote f t (bs.drop p.2) s).map fun r => (r.1 + 1, r.2)

/-- Write a formed output block: pushed, or to pool memory. -/
def writeOutput (f : Flight) (rows : List Row) (s : State) : State :=
  let bs := outBlock f.desc rows
  let r1 := if aMode f.desc = 0 then 0 else f32Enc (rows.foldl (fun a r => dyMax a (residual r)) dyZero)
  let r2 := attendResult2 f
  let dig := fun (s : State) => s.setTal fun t => { t with qpDigest := tput 0 t.qpDigest f.qp (digestOf f.desc rows) }
  if aPush f.desc then
    let (s, n) := pushBlock f bs s
    if n = 0 then complete f.id 0 0 r1 r2 (setFlight f (dig s)) else
    dig (setFlight { f with stage := .pushing, r1 := r1, r2 := r2, acks := n } s)
  else
    let len := outBytes f.desc (ctxOf s (dCtx f.desc))
    match blockWait (flightDie f) (dPasid f.desc) (aOut f.desc) len true s with
    | (true, s) => s
    | (false, s) =>
      match translateBlock (flightDie f) (dPasid f.desc) (aOut f.desc) len true s with
      | (.pending ps, s) => pendingPost { f with stage := .output } ps s
      | (.ok ps, s) =>
        let own := ps.filter fun p => p.1 / 2 ^ 52 == ownIndex s
        match cacheWait ((flightOf s f.id).getD f) own s with
        | (true, s) => s
        | (false, s) =>
        match cacheReady own true s with
        | none => complete f.id ccFull 0 0 0 s
        | some s =>
          match writePieces (dPasid f.desc) own (ownBytes s ps bs) s with
          | (0, s) =>
            let s := tenantCount f.tenant 2 (t1Bytes own) s
            let f := { f with t1w := f.t1w + t1Bytes own, r1 := r1, r2 := r2 }
            match sendRemote f ps bs s with
            | none => complete f.id ccXlate 1 0 0 s
            | some (0, s) => complete f.id 0 0 r1 r2 (setFlight f (dig s))
            | some (n, s) => dig (setFlight { f with stage := .pushing, acks := n } s)
          | (code, s) => complete f.id code 1 0 0 (own.foldl (fun s p => noteDecode 0xFF f.tenant (p.1 % 2 ^ 52) s) s)
      | (_, s) => complete f.id ccXlate 1 0 0 s

/-- ln of a positive value: 2^-320 times an integer. -/
def lnDy (x : Dy) : Dy :=
  if dyLt x (dyOf 1) then { m := -(rotLn (dyDivRound .near 200 (-2000) (dyOf 1) x) : Nat), e := -320 }
  else { m := rotLn x, e := -320 }

/-- The evaluated logarithm: within the relative error 2^-21, and one function of its operand. -/
def ln32 (x : Dy) : Dy :=
  let l := lnDy x
  let n := Config.evalPick 1 (dyKey x)
  if l.m < 0 then dyNeg (pickRel n (dyNeg l)) else pickRel n l

/-- A device partial's row as it travels (R587): o / l, m + ln l with a logarithm free within the relative error 2^-21 (log entry
9), and B / l toward +∞ with the factor 1 + 2^-20. -/
def partialRow (r : Row) : List Nat × Option Nat × Option Nat :=
  match r.m with
  | none => (r.o.map fun _ => 0, none, some 0)
  | some m =>
    if r.l.m = 0 then (r.o.map fun _ => 0, none, some 0)
    else (r.o.map fun x => f32Enc (dyDivRound .near 24 (-149) x r.l),
          some (f32Enc (add32 m (ln32 r.l))),
          r.bound.map fun b => f32Enc (r32 .up (dyMul (dyDivRound .up 24 (-149) b r.l) oneUp)))

/-- The bytes of a device partial: the outputs, s with −∞ as FP32, ρ' with +∞. -/
def partialBytes (rows : List Row) : List Byte :=
  rows.flatMap fun r =>
    let (o, m, b) := partialRow r
    o.flatMap (leBytes · 4) ++ leBytes (m.getD 0xFF800000) 4 ++ leBytes (b.getD 0x7F800000) 4

/-- A member's part of an ATTEND is merged: its partial goes to its merge parent (kind 5 on a span), and its report to the
entry device. -/
def sendPartial (f : Flight) (rows : List Row) (s : State) : State :=
  let m := spanMask s (dCtx f.desc)
  let s' := match mergeParent s m (f.qp - 1024) 16 (ownIndex s) with
    | some p => spanSend 5 f.seq (partialBytes rows) s p
    | none => s
  complete f.id 0 0 f.tilesRead f.tilesAll s'

/-- OUTPUT_FORMED (R84, R139): from here on the deadline no longer applies, unless the output block waits for a page. A
device that is not the entry device of a striped ATTEND sends its partial up the tree instead (kind 5 on a span). -/
def execOutputFormed (d : Nat) (s : State) : Res :=
  match flightOf s d with
  | none => .next s
  | some f =>
    let rows := tget [] f.merged (ctxOf s (dCtx f.desc)).home
    if 1024 ≤ f.qp ∧ f.stage = .running ∧ dOpcode f.desc = 1 ∧ allMerged f ∧ rows ≠ [] then .next (sendPartial f rows s)
    else if (f.stage = .running ∨ f.stage = .output) ∧ dOpcode f.desc = 1 ∧ allMerged f ∧ f.members.isEmpty ∧ rows ≠ [] ∧ f.qp < 1024 then
      .next (writeOutput { f with stage := .output } (tget [] f.merged (ctxOf s (dCtx f.desc)).home) (setFlight { f with stage := .output } s))
    else .next s

/-- The codes that an output block may fail with (R166, R167). -/
def blockCodes : List Nat := [ccXlate, ccRevoked, ccStale, ccPoison, ccUncorr, ccIntegrity]

/-- PUSH_ACK: after the last acknowledgement the entry is written (R132). A refused push write fails the output; a code that no
ATTEND returns counts as 0x20 (log entry 104). -/
def execPushAck (pier : Fin 8) (m : KafMsg) (s : State) : Res :=
  match s.attn.flights.find? fun f => f.stage == .pushing && f.id % 2 ^ 15 == m.tag && (qpOf s f.qp).bindPort == pier.val with
  | none => .next s
  | some f =>
    if m.code ≠ 0 ∧ m.code ≠ ccDeferred then
      .next (complete f.id (if blockCodes.contains m.code then m.code else ccXlate) 1 0 0 s)
    else if f.acks ≤ 1 then .next (complete f.id 0 0 f.r1 f.r2 s)
    else .next (setFlight { f with acks := f.acks - 1 } s)

/-- ATTEND_DEADLINE (R139, R406): the clock is carried to the deadline; the ATTEND stops on every core, on the members of a striped
context too. A write that begins in the cycle of expiry wins. -/
def execAttendDeadline (d : Nat) (s : State) : Res :=
  match flightOf s d with
  | none => .next s
  | some f =>
    let due := f.readAt + usCycles (aDeadline f.desc)
    if dOpcode f.desc ≠ 1 ∨ aDeadline f.desc = 0 ∨ f.stage = .pushing ∨ 1024 ≤ f.qp then .next s
    else if arrivalWins due (· == .outputFormed d) s then .next (carryTo due s)
    else
      let s := carryTo due s
      let s := faultDrop d (f.members.foldl (spanSend 3 d []) (cancelWork d s))
      let s := s.setShape fun h => { h with tolls := h.tolls.map fun t =>
        (if t.1 = f.tenant then (t.1, { t.2 with queue := t.2.queue.filter fun i => i.1 != d }) else t) }
      .next (swapAll (complete d ccAborted 1 0 0 s))

end Sys2Proof.Machine
end

