-- ==== Sys2Proof/Machine/Requests.lean ====
section
/-! DEFINITION. Direct requests: their tolls and gates, translation, the check at the memory, and their answers (R327 to
R329, R351, R369 to R373, R519 to R536, R550 to R553, R567). -/

namespace Sys2Proof.Machine

/-! ## Requests and their requesters -/

/-- The I/O die of a requester (R9). -/
def srcDie (src : Nat) : Nat :=
  if src < 8 then src / 4 else if src < 12 then (src - 8) / 2 else if src = 12 then 0
  else if src < 0x14 then (src - 0x10) / 2 else src - 0x14

/-- The unit of 7002 of a requester's port. -/
def srcUnit (src : Nat) : Nat := if src < 13 then src else if src < 0x14 then src - 3 else src + 5

/-- The port toll of a requester (R537): none on span ports and the viaduct. -/
def portToll (src : Nat) : Option Nat :=
  if src < 8 then some (128 + src) else if src < 0x10 then none else if src < 0x14 then some (136 + (src - 0x10))
  else some (140 + (src - 0x14))

/-- The gate of a requester's direct requests (R519). -/
def srcGate (src : Nat) : Option Nat :=
  if src < 8 then some 3 else if src < 0x10 then none else if src < 0x14 then some 4 else some 5

/-- A device-window access of a KAF link or of Ethernet. -/
def isWin (r : Req) : Bool := r.op == 0x48 || r.op == 0x49 || r.op == 0x210 || r.op == 0x211

/-- A request that writes. -/
def isWrite (r : Req) : Bool := r.cls == .uw || r.cls == .wb

/-- The tenant of a PASID: 0xFE the pool manager's, 0xFF where it is unbound. -/
def pasidTenant (s : State) (pasid : Nat) : Nat := if pasid = 0 then 0xFE else ((pasidOf s pasid).map (·.1)).getD 0xFF

def reqOf (s : State) (id : Nat) : Option Req := s.coh.reqs.find? fun r => r.id == id

/-- Keep a request, new or changed. -/
def setReq (r : Req) (s : State) : State :=
  s.setCoh fun c =>
    if c.reqs.any fun q => q.id == r.id then { c with reqs := c.reqs.map fun q => if q.id = r.id then r else q }
    else { c with reqs := c.reqs ++ [r] }

def dropReq (id : Nat) (s : State) : State :=
  tollLeave id (s.setCoh fun c => { c with reqs := c.reqs.filter fun q => q.id != id })

/-- A new request, numbered with the descriptors. -/
def newReq (src op : Nat) (cls : RClass) (agent : Option Nat) (s : State) : Req :=
  { id := s.attn.nextId, src := src, op := op, cls := cls, agent := agent, pasid := 0, tenant := 0xFF, addr := 0, len := 64
    tag := 0, arg := 0, srcDev := 0, data := [], poison := false, waited := false, tolls := [], since := s.time.cycle
    stage := .gated, pieces := [], gen := 0, lines := [], dead := false, remote := [] }

/-- The number is taken. -/
def tookId (s : State) : State := s.setAttn fun a => { a with nextId := a.nextId + 1 }

/-! ## Answers -/

/-- The NAK of a code: 2 Remote Access Error, 4 Remote Operational Error, 1 Invalid Request (R567). -/
def nakOf (code : Nat) : Nat :=
  if 0x20 ≤ code ∧ code ≤ 0x23 then 2 else if code = 0x50 then 1 else 4

def roceOf (s : State) (k : Nat) : Roce := tget ({} : Roce) s.ports.roce k
def setRoce (k : Nat) (v : Roce) (s : State) : State := { s with ports := { s.ports with roce := tput ({} : Roce) s.ports.roce k v } }

/-- Answer a RoCE request with a NAK, and record it in the status block. -/
def roceNak (port qp psn code kind : Nat) (s : State) : State :=
  let k := port * 256 + qp
  let v := roceOf s k
  let s := setRoce k { v with naks := min (2 ^ 32 - 1) (v.naks + 1), nakPsn := psn, code := code } s
  linkTally true (25 + port) 0 (emit (.roce port qp psn 2 kind []) s)

/-- A failure on an upstream CXL port is recorded, and reported by MSI-X when none waits (R552, R553). -/
def upError (port code addr : Nat) (s : State) : State :=
  let v := tget ({} : UpErr) s.ports.up port
  let w := if v.valid then { v with count := min 32767 (v.count + 1) }
    else { valid := true, code := code, count := min 32767 (v.count + 1), addr := addr / 64 * 64 }
  let s := { s with ports := { s.ports with up := tput ({} : UpErr) s.ports.up port w } }
  if v.valid then s else emit (.msix port (obj s 0x5203 (port + 1))) s

/-- The trace and the tenant's tallies of an answered request (R667, R675). -/
def noteAnswer (r : Req) (code n : Nat) (s : State) : State :=
  let s := tenantCount r.tenant 8 n s
  traceEvent (srcDie r.src) (if r.tenant < 64 then some r.tenant else none) 0 r.src r.tenant r.src code n 5 s

/-- Send a KAF answer: its bytes enter the bucket of a pier's requester. -/
def kafAnswer (r : Req) (op code delay : Nat) (data : List Byte) (s : State) : State :=
  let s := sendFor r.src r.tenant { kafOf op with tag := r.tag, code := code, delay := delay, srcDev := r.srcDev, data := data } s
  if r.src < 8 ∧ r.lines.isEmpty then bucketAdd r.src r.tag code data none s else s

/-- The request ends with a failure code; each 0x23 counts in b+7:02 (R437). -/
def answerFail (r : Req) (code : Nat) (s : State) : State :=
  let s := noteAnswer r code 0 (dropReq r.id s)
  let s := if code = ccStale ∧ r.tenant < 64 then bumpObj (0x3007 + 16 * r.tenant) 2 1 32 s else s
  if r.dead || steppedDown s then s
  else if r.src < 13 then kafAnswer r 0x20 code 0 [] s
  else if r.src < 0x14 then
    let s := upError (r.src - 0x10) code r.addr s
    if isWrite r then emit (.cxl (r.src - 0x10) 0 r.tag 0 []) s else emit (.cxl (r.src - 0x10) 2 r.tag 0 (List.replicate 64 0)) s
  else roceNak (r.src - 0x14) r.arg r.tag code (nakOf code) s

/-- The request ends well: the data, if any, with the state granted (1 S, 2 F, 3 E, 4 M, 5 a Grant, 0 none). -/
def answerDone (r : Req) (grant : Nat) (data : List Byte) (s : State) : State :=
  let s := noteAnswer r 0 data.length (dropReq r.id s)
  if r.dead || steppedDown s then s
  else if r.src < 13 then
    let cc := if r.waited then ccDeferred else 0
    if r.op = 0x40 then kafAnswer r 0x42 cc 0 data s
    else if r.op = 0x48 then kafAnswer r 0x4A cc 0 data s
    else if r.op = 0x49 ∨ r.op = 0x41 ∨ r.op = 0x14 ∨ r.op = 0x15 ∨ r.op = 0x16 then kafAnswer r 0x1E 0 0 [] s
    else if grant = 5 then kafAnswer r 0x1D 0 0 [] s
    else kafAnswer r (if grant = 0 then 0x1C else 0x17 + grant) 0 0 data s
  else if r.src < 0x14 then
    let p := r.src - 0x10
    let st := if grant = 0 then 0 else if grant ≤ 2 then 1 else 2
    linkTally true (srcUnit r.src) data.length
      (if data.isEmpty then emit (.cxl p 0 r.tag st []) s else emit (.cxl p 1 r.tag st data) s)
  else
    let p := r.src - 0x14
    linkTally true (25 + p) data.length
      (emit (.roce p r.arg r.tag (if r.op % 2 = 1 then 1 else 0) 0 data) s)

/-- RTRY with the delay of 2200:02 (R338). -/
def answerRetry (r : Req) (s : State) : State :=
  if steppedDown s then dropReq r.id s else bumpObj 0x2200 7 1 64 (kafAnswer r 0x1F 0 (obj s 0x2200 2) [] (dropReq r.id s))

/-! ## Tolls (R529 to R536) -/

/-- The bytes of an Ethernet request's frame with preamble and gap: headers of RoCEv2 over IPv4 or IPv6, with SecTAG and
ICV where MACsec is in force (log entry 28). -/
def etherWire (s : State) (port qp n : Nat) : Nat :=
  let ip := slice (objDom s (0x5510 + port) qp) 8 12
  let v4 := ip == [0, 0, 0, 0, 0, 0, 0, 0, 0, 0, 0xFF, 0xFF]
  14 + (if v4 then 20 else 40) + 8 + 12 + 16 + roundUp n 4 + 4 + 4 + (if bitAt (obj s 0x5500 (port + 1)) 7 then 24 else 0) + 20

/-- The length of a request at a toll, by its length mode (R530). -/
def reqLength (s : State) (r : Req) (mode : Nat) : Nat :=
  if mode = 2 then 1
  else if r.src < 13 then
    let back := if r.cls == .rs || r.cls == .ro || r.cls == .ur then kafSlots r.len else 0
    kafSlots r.data.length + back + (if mode = 1 then 40 else 0)
  else if r.src < 0x14 then (if r.cls == .ec || r.cls == .up then 0 else 64) + 16
  else
    let n := if isWrite r then r.data.length else 0
    if mode = 1 then etherWire s (r.src - 0x14) r.arg n else n

/-- The tolls a request passes, in order: its tenant's, its port's. -/
def reqTolls (r : Req) : List Nat :=
  (if r.tenant < 64 ∧ !isWin r ∧ (portToll r.src).isSome then [64 + r.tenant] else []) ++ (portToll r.src).toList

/-- The marks of the enabled tolls: the toll, its colour and its input colour, which is the previous toll's colour; green is a
disabled toll's (R533, R537). -/
def reqColours (s : State) (r : Req) : List Nat → Nat → List (Nat × Nat × Nat)
  | [], _ => []
  | k :: t, cin =>
    if tollField s k 1 = 0 then reqColours s r t 0
    else
      let c := tollColour (tollNow s k) (tollField s k 6 == 1) cin (reqLength s r (tollField s k 7))
      (k, c, cin) :: reqColours s r t c

/-- A toll's part once the final colour is settled (R533, R534): the mark is counted; an item whose final colour is green or yellow
takes its tokens as such; a red one is held by the tolls that marked it red, and by the others only behind an earlier item. -/
def reqMark (r : Req) (final : Nat) (x : List Nat × State) (m : Nat × Nat × Nat) : List Nat × State :=
  let s := bumpObj (tollObj m.1).1 ((tollObj m.1).2 + 0x0A + m.2.1) 1 64 x.2
  let len := reqLength s r (tollField s m.1 7)
  if final = 2 ∧ m.2.1 ≠ 2 ∧ (tollNow s m.1).queue.isEmpty then (x.1, setToll m.1 (tollNow s m.1) s)
  else if final = 2 ∧ m.2.1 ≠ 2 then
    let t := tollNow s m.1
    (x.1 ++ [m.1], setToll m.1 { t with queue := t.queue ++ [(r.id, len, 0, m.2.2)] } s)
  else
    let (held, s) := tollSettle m.1 r.id len final m.2.2 s
    (if held then x.1 ++ [m.1] else x.1, s)

/-- The tolls mark a request: refused, or the tolls that hold it. -/
def markReq (r : Req) (cin : Nat) (s : State) : Bool × List Nat × State :=
  let cs := reqColours s r (reqTolls r) cin
  let final := cs.foldl (fun a c => max a c.2.1) 0
  let cxl := decide (0x10 ≤ r.src ∧ r.src < 0x14)
  if final = 2 ∧ !cxl ∧ cs.any fun c => c.2.1 == 2 && tollField s c.1 8 == 0 then
    (true, [], cs.foldl (fun s c => bumpObj (tollObj c.1).1 ((tollObj c.1).2 + 0x0A + c.2.1) 1 64 s) s)
  else
    let (ks, s) := cs.foldl (reqMark r final) ([], s)
    (false, ks, s)

/-! ## Translation and the check (R351 to R353, R365, R369 to R373) -/

/-- The pieces of a request's range, or the line of a page table that must be made current first, or a failure. -/
inductive Place where
  | at_ (pieces : List (Nat × Nat))
  | table (line : Nat)
  | fail
  deriving DecidableEq, Repr

/-- Translate a request: one from a span port carries a physical address; direct accesses never stall (R363). -/
def placeReq (r : Req) (s : State) : Place × State :=
  if 8 ≤ r.src ∧ r.src < 13 then (.at_ [(r.addr % 2 ^ 56, r.len)], s)
  else if r.pasid = 0 ∨ 2 ^ 57 ≤ r.addr then (.fail, s)
  else match blockWalk s (srcDie r.src) r.pasid r.addr r.len with
    | some l => (.table l, s)
    | none =>
      match translateBlock (srcDie r.src) r.pasid r.addr r.len (isWrite r) s with
      | (.ok ps, s) => (.at_ ps, s)
      | (.pending _, s) => (.fail, countFault r.pasid s)
      | (.fault, s) => (.fail, s)

/-- An upstream CXL request that the port itself fails: beyond the HDM size, or while IDE is required and not in force
(R550, R555). -/
def portFails (s : State) (r : Req) : Bool :=
  if 0x10 ≤ r.src ∧ r.src < 0x14 then
    let p := r.src - 0x10 + 1
    decide (obj s 0x5202 p * 2 ^ 30 ≤ r.addr) || (obj s 0x5201 p == 1 && !bitAt (obj s 0x5200 p) 7)
  else false

/-- The pieces on this device. -/
def ownPieces (s : State) (ps : List (Nat × Nat)) : List (Nat × Nat) :=
  (ps.filter fun p => p.1 / 2 ^ 52 == ownIndex s).map fun p => (p.1 % 2 ^ 52, p.2)

/-- The verdict of the check at the memory; in a read-mostly extent only the steward writes, and nobody gets a writable copy
(R320). -/
def checkReq (s : State) (r : Req) (ps : List (Nat × Nat)) : Nat :=
  let writes := r.cls == .ro || r.cls == .up || isWrite r
  ps.foldl (fun c p =>
    let m := memCheck s r.pasid p.1 (writes && r.pasid != 0)
    let m := if m = 0 ∧ writes ∧ r.pasid ≠ 0 ∧ cohMode s p.1 = 2 then ccXlate
      else if m = 0 ∧ r.pasid = 0 ∧ cohMode s p.1 = 2 ∧ (r.cls == .ro || r.cls == .up) then ccXlate else m
    if c ≠ 0 then c else m) 0

/-! ## The access -/

/-- Read a request's range: the code, and the bytes of all its pieces. -/
def readReq (s : State) (r : Req) : List (Nat × Nat) → Nat × List Byte
  | [] => (0, [])
  | p :: t =>
    let a := p.1 % 2 ^ 52
    let (c, bs) := if p.1 / 2 ^ 52 = ownIndex s then (memCode s a p.2, mread s.mem.bytes a p.2)
      else match r.remote.find? fun q => q.1 == p.1 with
        | some (_, some (c, bs)) => (c, bs.take p.2)
        | _ => (ccXlate, [])
    let n := readReq s r t
    (if c = 0 then n.1 else if n.1 = 0 then c else worseCode c n.1, bs ++ n.2)

/-- What a read of this device's pieces leaves behind: the log, the tallies, and the use of tier-cache blocks. -/
def noteReq (r : Req) (ps : List (Nat × Nat)) (s : State) : State :=
  let s := ps.foldl (fun s p => tallyMem false p.1 p.2 (if tierOf p.1 = 1 then noteReadBy r.tenant r.src p.1 p.2 s else s)) s
  tenantCount r.tenant 1 (t1Bytes ps) s

/-- The byte mask of a write. -/
def writeMask (r : Req) (n : Nat) : Nat := if r.op = 0x14 ∨ r.op = 0x104 then r.arg else 2 ^ n - 1

/-- The pieces of a write with the byte mask of each. -/
def maskPieces (mask : Nat) : List (Nat × Nat) → List (Nat × Nat × Nat)
  | [] => []
  | p :: t => (p.1, p.2, mask % 2 ^ p.2) :: maskPieces (mask / 2 ^ p.2) t

/-- The code of a write: of the lines it reads first (R294, R298, R304; the order of R81 across them). -/
def writeCode (s : State) (r : Req) (ps : List (Nat × Nat)) : Nat :=
  (maskPieces (writeMask r r.data.length) ps).foldl (fun c p =>
    worseCode c (partCode s p.1 p.2.1 p.2.2)) 0

/-- What a write's reads leave in the log. -/
def noteWrites (r : Req) (ps : List (Nat × Nat)) (s : State) : State :=
  (maskPieces (writeMask r r.data.length) ps).foldl (fun s p =>
    if tierOf p.1 = 1 then noteWriteBy r.tenant r.src p.1 p.2.1 p.2.2 s else s) s

/-- Store a write's bytes to this device's pieces. -/
def storeReq (r : Req) (s : State) : State :=
  let s := (r.pieces.foldl (fun (x : State × List Byte × Nat) p =>
    let s := if p.1 / 2 ^ 52 = ownIndex s then memStore (p.1 % 2 ^ 52) (x.2.2 % 2 ^ p.2) (x.2.1.take p.2) r.poison x.1 else x.1
    (s, x.2.1.drop p.2, x.2.2 / 2 ^ p.2)) (s, r.data, writeMask r r.data.length)).1
  tenantCount r.tenant 2 (t1Bytes (ownPieces s r.pieces)) s

/-- A write on a CXL or Ethernet port of a twin is relayed and completes when the partner acknowledges it (R594; kind 7 on
the viaduct). -/
def relays (s : State) (r : Req) : Bool := paired s && decide (0x10 ≤ r.src)

/-- Carry out the access of a request whose lines are its own: the answer, and for a coherent class the state granted. -/
def performReq (r : Req) (grant : Nat) (s : State) : Nat × State :=
  let own := ownPieces s r.pieces
  if isWrite r then
    let c := writeCode s r own
    let s := noteWrites r own s
    if c ≠ 0 then (c, answerFail r c s)
    else
      let s := storeReq r s
      if relays s r then
        (0, setReq { r with stage := .remote } (emit (.span 12 7 r.id (leBytes r.addr 8 ++ r.data)) s))
      else (0, answerDone r 0 [] s)
  else
    let (c, bs) := readReq s r r.pieces
    let s := noteReq r own s
    if c ≠ 0 then (c, answerFail r c s) else (0, answerDone r grant bs s)

end Sys2Proof.Machine
end

