-- ==== Sys2Proof/Machine/Coherence.lean ====
section
/-! DEFINITION. The coherence home: transactions, races, failed agents, and the commands of KAF and CXL requesters (R316 to
R350, R372, R469, R591 to R594). -/

namespace Sys2Proof.Machine

/-- This twin's tracked home is active (R590, R593, R606). -/
def homeActive (s : State) : Bool :=
  match s.span.twin with
  | .single | .sole => true
  | .lead => !s.span.swapped
  | .follow => s.span.swapped
  | _ => false

/-! ## Planning a transaction (R331, R336) -/

def isKaf (a : Nat) : Bool := decide (a < 8)

/-- The requester of a line that the directory still names as its keeper dropped the line without notice: it is removed
first (R336; log entry 29). -/
def freshKeeper (r : Req) (line : Nat) (s : State) : State :=
  match r.agent with
  | some a =>
    let d := dirOf s line
    if d.keeper = a ∧ (r.cls = .rs ∨ r.cls = .ro) ∧ d.st ≠ 4 then setDir line (dropAgent a d) s else s
  | none => s

/-- The snoops of a request on one line, and whether the keeper is to forward. -/
def planLine (s : State) (r : Req) (line : Nat) : List (Nat × Nat × Nat) × Bool :=
  let d := dirOf s line
  let a := r.agent.getD 15
  let others := (holdersAt s line).filter (· ≠ a)
  let invs := others.map fun b => (line, b, snpInv)
  let ro := fun (_ : Unit) =>
    if d.st = 1 ∨ d.st = 2 then (invs, false)
    else if d.st = 3 then
      if isKaf d.keeper && isKaf a then ([(line, d.keeper, snpOwnFwd)], true) else ([(line, d.keeper, snpInv)], false)
    else if d.st = 4 then
      if isKaf a && d.keeper != a then
        ((line, d.keeper, snpOwnFwd) :: (others.filter (· ≠ d.keeper)).map fun b => (line, b, snpInv), true)
      else (invs, false)
    else ([], false)
  match r.cls with
  | .rs =>
    if d.st = 2 then (if isKaf a then ([(line, d.keeper, snpShrFwd)], true) else ([], false))
    else if d.st = 3 then
      if isKaf d.keeper && isKaf a then ([(line, d.keeper, snpShrFwd)], true) else ([(line, d.keeper, snpData)], false)
    else if d.st = 4 then
      if d.keeper = a then ([], false) else if isKaf a then ([(line, d.keeper, snpShrFwd)], true)
      else ([(line, d.keeper, snpData)], false)
    else ([], false)
  | .ro => ro ()
  | .up => if bitAt d.holders a then (invs, false) else ro ()
  | .ur => (readSnoops s line, false)
  | .uw => (invs, false)
  | .ec | .wb => ([], false)

/-! ## Closing a transaction -/

/-- An exclusive entry, and an entry with one more holder. -/
def dirX (s : State) (a : Nat) : Dir := { st := 3, keeper := a, holders := 2 ^ a, used := s.time.cycle }
def dirAdd (s : State) (a st keeper : Nat) (d : Dir) : Dir :=
  { st := st, keeper := keeper, holders := bitSet d.holders a true, used := s.time.cycle }

/-- The state granted and the entry left, for a coherent request whose snoops have ended (R331): the grant's number as
`answerDone` takes it. `d` is the entry as the responses left it. -/
def grantOf (s : State) (t : Txn) (r : Req) (a : Nat) (d : Dir) : Nat × Dir :=
  match r.cls with
  | .rs =>
    if t.rsp = 0x2C ∨ t.rsp = 0x2D then (1, dirAdd s a d.st d.keeper d)
    else if isKaf a then
      if t.cxlX then (2, dirAdd s a 2 a d)
      else if d.st = 0 then (3, dirX s a)
      else if d.st = 1 then (2, dirAdd s a 2 a d)
      else (1, dirAdd s a d.st d.keeper d)
    else if d.st = 0 then
      if r.op = 0x101 ∧ !t.cxlX then (3, dirX s a) else (1, dirAdd s a 1 15 d)
    else (1, dirAdd s a d.st d.keeper d)
  | .up => (if t.holder then 5 else 3, dirX s a)
  | _ => (3, dirX s a)

/-- The record of a closed transaction goes to the other twin (R593; kind 6 on the viaduct): the buffer holds it while the
viaduct is down. -/
def twinLog (src tag line : Nat) (changed : Bool) (s : State) : State :=
  if !paired s then s
  else
    let rec_ := leBytes src 1 ++ leBytes tag 2 ++ leBytes line 8 ++ leBytes (dirWord s line) 8 ++ (if changed then mread s.mem.bytes (line * 64) 64 else [])
    let up := linkUp s 12
    let s := { s with span := { s.span with
      logged := s.span.logged + 1, logDigest := Config.sha384 (leBytes s.span.logDigest.toNat 48 ++ rec_)
      logBytes := if up then 0 else s.span.logBytes + rec_.length } }
    if up then emit (.span 12 6 line rec_) s else s

/-- The trace of a closed transaction (R667). -/
def noteTxn (r : Req) (line : Nat) (s : State) : State :=
  traceEvent (bitsOf (line * 64) 12 12) (if r.tenant < 64 then some r.tenant else none) (line * 64) r.src r.tenant r.src 0 64 6 s

/-- A request's transaction ends: the answer, the entry, the log. -/
def finishReq (t : Txn) (id : Nat) (s : State) : State :=
  match reqOf s id with
  | none => s
  | some r =>
    let line := t.lines.headD 0
    let log := fun (w : Bool) (s : State) => t.lines.foldl (fun s l => noteTxn r l (twinLog r.src r.tag l w s)) s
    if r.dead then log false (dropReq id s)
    else match r.cls with
      | .uw =>
        let s := if cohMode s (line * 64) = 2 then s else t.lines.foldl (fun s l => setDir l dirI s) s
        log true (performReq r 0 s).2
      | .ur | .ec | .wb => log false (performReq r 0 s).2
      | _ =>
        let a := r.agent.getD 15
        let d := dirOf s line
        let (g, e) := grantOf s t r a d
        if t.rsp = 0x2B ∨ t.rsp = 0x2C ∨ t.rsp = 0x2D then
          log false (setDir line e (noteAnswer r 0 64 (dropReq id s)))
        else if g = 5 then log false (answerDone r 5 [] (setDir line e s))
        else if r.op = 0x102 then log false (answerDone r g [] (setDir line e s))
        else
          let (c, s) := performReq r g s
          log false (if c = 0 then setDir line e s else s)

/-- The loss policy for a line whose only current copy went with a failed agent (R318, R346). -/
def lineLost (line : Nat) (s : State) : State :=
  let s := setDir line dirI s
  if (extOf s (line / 2 ^ 24)).loss then s
  else bumpObj 0x2200 8 1 32 (memStore (line * 64) (2 ^ 64 - 1) (List.replicate 64 0) true s)

/-- What an ended transaction leaves, by its reason. -/
def finishTxn (t : Txn) (s : State) : State :=
  let s := s.setCoh fun c => { c with
    txns := c.txns.filter fun q => q.id != t.id
    freed := t.lines.foldl (fun m l => tins m l s.time.cycle) (c.freed.filter fun p => p.2 == s.time.cycle) }
  match t.why with
  | .req id => finishReq t id s
  | .block true => t.lines.foldl (fun s l => setDir l dirI s) s
  | .block false => s.setCoh fun c => { c with fresh := c.fresh ++ t.lines }
  | .victim | .recall _ => t.lines.foldl (fun s l => setDir l dirI s) s
  | .purge => s

/-- Held snoops of an agent go out as earlier ones end (R554). -/
def sendHeld (a : Nat) (s : State) : State :=
  if a < 8 ∨ 256 ≤ biOpen s a then s
  else match s.coh.txns.find? fun t => t.snoops.any fun q => q.agent == a && q.sent.isNone with
    | none => s
    | some t =>
      match t.snoops.find? fun q => q.agent == a && q.sent.isNone with
      | none => s
      | some q =>
        let s := emit (snoopOut s q 15 0) s
        s.setCoh fun c => { c with txns := c.txns.map fun u => if u.id = t.id then
          { u with snoops := u.snoops.map fun p => if p = q then { q with sent := some s.time.cycle } else p } else u }

/-- A transaction has nothing outstanding (R330). -/
def txnDone (t : Txn) : Bool := t.snoops.isEmpty && t.wb.isEmpty && (t.rsp == 0 || t.ack)

/-- Every transaction that has nothing outstanding closes. -/
def settle (s : State) : State :=
  (s.coh.txns.filter txnDone).foldl (fun s t => finishTxn t s) s

def setTxn (t : Txn) (s : State) : State := s.setCoh fun c => { c with txns := c.txns.map fun q => if q.id = t.id then t else q }

/-! ## Taking the lock (R330, R337, R338) -/

/-- The class needs an entry where the line has none. -/
def needsWay (r : Req) : Bool := r.cls == .rs || r.cls == .ro || r.cls == .up

/-- Ways of a set taken by entries, and by open transactions on lines without one. -/
def waysTaken (s : State) (set : Nat) : Nat :=
  (s.coh.dir.filter fun p => dirSet p.1 == set).length
    + (s.coh.txns.filter fun t => t.lines.any fun l => dirSet l == set && (dirOf s l).st == 0 && (match t.why with
      | .req id => match reqOf s id with | some r => needsWay r | none => false
      | _ => false)).length

/-- The victim of a set: unlocked, least recently used. -/
def victimOf (s : State) (set : Nat) : Option Nat :=
  ((s.coh.dir.filter fun p => dirSet p.1 == set && !locked s p.1).foldl (fun (b : Option (Nat × Dir)) p => match b with
    | none => some p
    | some q => if p.2.used < q.2.used then some p else some q) none).map (·.1)

/-- Transactions of a half. -/
def slotsUsed (s : State) (half : Nat) : Nat := (s.coh.txns.filter fun t => bitsOf (t.lines.headD 0 * 64) 12 12 == half).length

/-- No slot, way or log space: a KAF agent is told to retry, a CXL request waits (R338, R593). -/
def noRoom (r : Req) (s : State) : State :=
  if r.src < 13 then answerRetry r s else setReq { r with stage := .locked } s

/-- Start a request's transaction on its unlocked lines. -/
def startTxn (r : Req) (s : State) : State :=
  let s := r.lines.foldl (fun s l => freshKeeper r l s) s
  let line := r.lines.headD 0
  let steward := cohMode s (line * 64) == 2
  let plans := if steward then [(r.lines.flatMap fun l => (List.range 12).map fun a => (l, a, snpInv), false)]
    else r.lines.map fun l => planLine s r l
  let d := dirOf s line
  let fwd := plans.any (·.2)
  let t := { newTxn (.req r.id) r.lines with fwd := fwd, holder := bitAt d.holders (r.agent.getD 15)
                                             cxlX := d.st == 3 && decide (8 ≤ d.keeper) }
  settle (openTxn t (plans.flatMap (·.1)) (r.agent.getD 15) r.tag (setReq { r with stage := .opened } s))

/-- A request takes the locks of its lines, or waits, or is told to retry; without room in the directory a victim is
recalled first. -/
def tryLock (r : Req) (s : State) : State :=
  let line := r.lines.headD 0
  if !homeActive s then setReq { r with stage := .held } s
  else if r.lines.any (locked s) || (s.coh.reqs.any fun q => q.id < r.id && q.stage == .locked && q.lines.any r.lines.contains) then
    setReq { r with stage := .locked } s
  else if r.cls = .ec then
    match r.agent with
    | some a => twinLog r.src r.tag line false (answerDone r 0 [] (setDir line (dropAgent a (dirOf s line)) s))
    | none => answerDone r 0 [] s
  else if 2048 ≤ slotsUsed s (bitsOf (line * 64) 12 12) ∨ (paired s ∧ 1048576 < s.span.logBytes + 83) then noRoom r s
  else if needsWay r ∧ (dirOf s line).st = 0 ∧ 16 ≤ waysTaken s (dirSet line) then
    match victimOf s (dirSet line) with
    | none => noRoom r s
    | some v =>
      let s := setReq { r with stage := .locked } s
      settle (openTxn (newTxn .victim [v]) (writeSnoops s v) 15 0 (bumpObj 0x2200 6 1 64 s))
  else startTxn r s

/-! ## Serving a request -/

/-- Past the check: tier-cache blocks, then the lines, then the access. -/
def serveLocal (r : Req) (s : State) : State :=
  let own := ownPieces s r.pieces
  let missing := cacheMissing s own
  if !missing.isEmpty then setReq { r with stage := .cache } (cacheAsk missing s)
  else
    let s := (cacheReady (r.pieces.filter fun p => p.1 / 2 ^ 52 == ownIndex s) (isWrite r) s).getD s
    let first := own.headD (0, 0)
    let mode := cohMode s first.1
    if mode = 1 then tryLock { r with lines := trackedLines s r.pieces } s
    else if r.cls = .ec then answerDone r 0 [] s
    else if mode = 2 ∧ isWrite r then tryLock { r with lines := own.flatMap fun p => linesOf p.1 p.2 } s
    else (performReq r (if mode = 2 ∧ r.cls = .rs then 1 else 0) s).2

/-- The trace of a request checked at the memory (R667). -/
def noteCheck (r : Req) (code : Nat) (s : State) : State :=
  traceEvent (srcDie r.src) (if r.tenant < 64 then some r.tenant else none) ((r.pieces.headD (0, 0)).1 % 2 ^ 52) r.src r.tenant
    r.src code r.len 4 s

/-- The access type that a request takes on another member (R317, R372). -/
def remoteOp (r : Req) : Nat :=
  if r.op = 0x40 ∨ r.op = 0x41 then r.op else if isWrite r then (if r.src < 0x14 then 0x14 else 0x41) else if r.src < 0x14 then 0x13 else 0x40

/-- Ask the members that hold a request's other pieces. -/
def askPieces (r : Req) : List (Nat × Nat) → List Byte → State → Option (List (Nat × Option (Nat × List Byte)) × State)
  | [], _, s => some ([], s)
  | p :: t, bs, s =>
    if p.1 / 2 ^ 52 = ownIndex s then askPieces r t (bs.drop p.2) s
    else
      let mask := if remoteOp r = 0x40 then p.2 else if remoteOp r = 0x14 then (if r.arg = 0 ∨ r.op ≠ 0x14 then 2 ^ p.2 - 1 else r.arg) else 0
      match askRemote r.id false r.pasid p.1 p.2 mask (remoteOp r) (if isWrite r then bs.take p.2 else []) s with
      | none => none
      | some s => (askPieces r t (bs.drop p.2) s).map fun x => ((p.1, none) :: x.1, x.2)

/-- Serve a request that has passed its tolls and its gate. -/
def serveReq (r : Req) (s : State) : State :=
  if portFails s r then answerFail r ccXlate s
  else match placeReq r s with
    | (.fail, s) => answerFail r (if r.tenant < 64 ∧ (tenantOf s r.tenant).st = .removing then ccClosed else ccXlate) s
    | (.table l, s) =>
      let (w, s) := blockTxn [l] false s
      setReq { r with stage := .locked, pieces := [], lines := [l] } (if w then s else s)
    | (.at_ ps, s) =>
      let r := { r with pieces := ps, gen := s.xl.gen, lines := [] }
      let s := s.setCoh fun c => { c with fresh := [] }
      let code := checkReq s r (ownPieces s ps)
      let s := noteCheck r code s
      if code ≠ 0 then
        answerFail r code (ps.foldl (fun s p => noteDecode r.src r.tenant (p.1 % 2 ^ 52) s) s)
      else if ps.all fun p => p.1 / 2 ^ 52 == ownIndex s then serveLocal r s
      else if r.cls = .ec ∨ r.cls = .wb then answerDone r 0 [] s
      else match askPieces r ps r.data s with
        | none => answerFail r ccXlate s
        | some (rs, s) => setReq { r with stage := .remote, remote := rs } s

/-- The gate of a request's class (R519, R520). -/
def gateReq (r : Req) (s : State) : State :=
  match srcGate r.src with
  | some g => if gateOpen s g && !(s.coh.reqs.any fun q => q.stage == .gated && srcGate q.src == some g && q.id != r.id) then serveReq r s
    else setReq { r with stage := .gated } s
  | none => serveReq r s

/-- A gate has opened: what it held passes in the order in which it reached the gate. -/
def releaseGates (s : State) : State :=
  (s.coh.reqs.filter fun r => r.stage == .gated).foldl (fun s r => match srcGate r.src with
    | some g => if gateOpen s g then serveReq r s else s
    | none => s) s

/-- What the twin's state does to a message (R590, R604): it is sunk; a syncing twin applies writes and answers nothing, and in
phase 3 holds what arrives. -/
def sunk (s : State) : Bool := s.span.twin == .detached || s.span.twin == .fenced || !live s

/-- A request arrives at a port: its tolls, its gate, and on (R533). -/
def arrive (r : Req) (cin : Nat) (s : State) : State :=
  let s := linkTally false (srcUnit r.src) (if r.src < 13 then kafSlots r.data.length else r.data.length) (tookId s)
  let s := tenantCount r.tenant 7 r.data.length s
  let s := if paired s ∧ r.src < 13 then { s with span := { s.span with seqIn := tins s.span.seqIn r.src r.tag } } else s
  let gone := match r.agent with | some a => !agentUp s a | none => false
  if gone || sunk s then s
  else if s.span.twin = .syncing then
    if obj s 0x8300 1 = 3 then setReq { r with stage := .held } s
    else if isWrite r then { serveReq r s with out := s.out } else s
  else
    match markReq r cin s with
    | (true, _, s) => answerFail r ccRate s
    | (false, [], s) => gateReq r s
    | (false, ks, s) => setReq { r with stage := .tolled, tolls := ks, waited := true } s

/-! ## KAF requests -/

/-- The request of a KAF message; the class where the requester is no caching agent is uncached (R317). -/
def kafReq (port : Nat) (m : KafMsg) (cls : RClass) (len : Nat) (s : State) : Req :=
  let agent := if port < 8 then some port else none
  let cls := if port < 8 then cls else match cls with | .rs | .ro | .up => .ur | c => c
  { newReq port m.op cls agent s with
    pasid := m.pasid, tenant := pasidTenant s m.pasid, addr := m.addr, len := len, tag := m.tag, arg := m.mask, srcDev := m.srcDev
    data := m.data }

/-- A message on a span port for another index is forwarded without being translated or checked (R578); true where it is. -/
def transit (port : Nat) (m : KafMsg) (s : State) : Option State :=
  if 8 ≤ port ∧ m.addr / 2 ^ 52 ≠ ownIndex s then
    some ((routesTo s (m.addr / 2 ^ 52)).foldl (fun s l => if l = port then s else sendKaf l m s) s)
  else none

/-- A KAF request of one opcode reaches its port. A message that does not hold the opcode's shape is malformed (R471) and
comes as MALFORMED_MESSAGE; a link that is not up delivers nothing. -/
def kafArrive (port op : Nat) (m : KafMsg) (cls : RClass) (len : Nat) (s : State) : State :=
  if m.op ≠ op ∨ !linkUp s port then s
  else match transit port m s with
    | some s => s
    | none => arrive (kafReq port m cls len s) 0 s

/-- RD_SHARED, RD_OWN, UPGRADE, RD_UNCACHED, WR_UNCACHED and EVICT_CLEAN (R331). -/
def execRdShared (port : Fin 13) (m : KafMsg) (s : State) : Res := .next (kafArrive port.val 0x10 m .rs 64 s)
def execRdOwn (port : Fin 13) (m : KafMsg) (s : State) : Res := .next (kafArrive port.val 0x11 m .ro 64 s)
def execUpgrade (port : Fin 13) (m : KafMsg) (s : State) : Res := .next (kafArrive port.val 0x12 m .up 64 s)
def execRdUncached (port : Fin 13) (m : KafMsg) (s : State) : Res := .next (kafArrive port.val 0x13 m .ur 64 s)
def execWrUncached (port : Fin 13) (m : KafMsg) (s : State) : Res :=
  .next (kafArrive port.val 0x14 m .uw m.data.length s)
def execEvictClean (port : Fin 13) (m : KafMsg) (s : State) : Res := .next (kafArrive port.val 0x15 m .ec 64 s)

/-- BLK_RD and BLK_WR (R469): the length asked is in mask [12:0]. -/
def execBlkRd (port : Fin 13) (m : KafMsg) (s : State) : Res := .next (kafArrive port.val 0x40 m .ur (m.mask % 8192) s)
def execBlkWr (port : Fin 13) (m : KafMsg) (s : State) : Res := .next (kafArrive port.val 0x41 m .uw m.data.length s)

/-- SPAN_REMOTE_FORWARD (R372): a request whose translated address names another member takes the same path, whatever its
opcode. -/
def execSpanRemoteForward (port : Fin 13) (m : KafMsg) (s : State) : Res :=
  let p := port.val
  .next (if m.op = 0x40 then kafArrive p 0x40 m .ur (m.mask % 8192) s
    else if m.op = 0x41 then kafArrive p 0x41 m .uw m.data.length s
    else if m.op = 0x14 then kafArrive p 0x14 m .uw m.data.length s
    else if 0x10 ≤ m.op ∧ m.op ≤ 0x13 then kafArrive p m.op m .ur 64 s
    else match transit p m s with
      | some s => s
      | none => s)

/-! ## Writebacks (R339, R340, R344) -/

/-- The data of a line from its keeper, or discarded: of an agent that is not the keeper, of an extent in escrow. -/
def writeBack (a line mask : Nat) (data : List Byte) (poison : Bool) (s : State) : State :=
  let d := dirOf s line
  let keeper := d.keeper == a && (d.st == 3 || d.st == 4)
  let s := if keeper && (extOf s (line / 2 ^ 24)).st != .escrow then memStore (line * 64) mask data poison s else s
  let s := if keeper then setDir line (dropAgent a d) s else s
  s.setCoh fun c => { c with txns := c.txns.map fun t => { t with wb := t.wb.filter fun w => w ≠ (line, a) } }

/-- A WbDirty at the home: written at once, whether or not the line is locked; Cmp; and a snoop that waited for it is
complete. -/
def serveWb (r : Req) (s : State) : State :=
  match placeReq r s with
  | (.at_ [(pa, _)], s) =>
    if pa / 2 ^ 52 ≠ ownIndex s then answerDone r 0 [] s
    else if !decoded s (pa % 2 ^ 52) then answerFail r ccXlate (noteDecode r.src r.tenant (pa % 2 ^ 52) s)
    else
      let line := pa % 2 ^ 52 / 64
      settle (twinLog r.src r.src line true (answerDone r 0 [] (writeBack r.src line (2 ^ 64 - 1) r.data false s)))
  | (_, s) => answerFail r (if r.tenant < 64 ∧ (tenantOf s r.tenant).st = .removing then ccClosed else ccXlate) s

/-- WB_DIRTY. -/
def execWbDirty (port : Fin 13) (m : KafMsg) (s : State) : Res :=
  let p := port.val
  if m.op ≠ 0x16 ∨ !linkUp s p ∨ 8 ≤ p ∨ !agentUp s p ∨ sunk s ∨ s.span.twin = .syncing then .next s
  else
    let r := kafReq p m .wb 64 s
    let s := linkTally false p 96 (tookId s)
    if !homeActive s then .next (setReq { r with stage := .held } s) else .next (serveWb r s)

/-! ## Snoop responses (R333, R336, R340, R343) -/

/-- The line of a response: its physical address on this device (log entry 26). -/
def rspLine (m : KafMsg) : Nat := m.addr % 2 ^ 52 / 64

/-- The next survivor is asked for a copy, or the loss policy applies (R346). -/
def nextCopy (t : Txn) (line : Nat) (s : State) : State :=
  match (holdersAt s line).filter (agentUp s) with
  | [] => setTxn t (lineLost line s)
  | a :: _ =>
    let q : Snoop := { line := line, agent := a, op := snpCopy, sent := some s.time.cycle }
    setTxn { t with snoops := t.snoops ++ [q] } (emit (snoopOut s q 15 0) s)

/-- What a response does to the entry, and to memory where it returns dirty data. `rsp` is numbered as R469; a recall for an
extent in escrow discards the data. -/
def applyRsp (t : Txn) (line a rsp : Nat) (data : List Byte) (s : State) : State :=
  let d := dirOf s line
  let s := if 0x2E ≤ rsp ∧ rsp ≤ 0x30 ∧ t.why ≠ .recall true then memStore (line * 64) (2 ^ 64 - 1) data false s else s
  let d' :=
    if rsp = 0x27 ∨ rsp = 0x2B ∨ rsp = 0x2E then dropAgent a d
    else if rsp = 0x28 then (if d.keeper = a then { d with st := 1, keeper := 15 } else d)
    else if rsp = 0x2A ∨ rsp = 0x2C ∨ rsp = 0x30 then (if d.st = 3 ∨ d.st = 4 ∨ d.keeper = a then { d with st := 2, keeper := a } else d)
    else if rsp = 0x2D then { d with st := 4, keeper := a }
    else d
  setDir line d' s

/-- A snoop of a transaction is answered. -/
def snoopAnswer (line a rsp : Nat) (data : List Byte) (s : State) : State :=
  match s.coh.txns.find? fun t => t.snoops.any fun q => q.line == line && q.agent == a && q.sent.isSome with
  | none => s
  | some t =>
    let op := ((t.snoops.find? fun q => q.line == line && q.agent == a).map (·.op)).getD 0
    let t := { t with snoops := t.snoops.filter fun q => !(q.line == line && q.agent == a) }
    let s := applyRsp t line a rsp data (setTxn t s)
    if op = snpCopy then settle (nextCopy t line s)
    else
      let fwdOp := op == snpShrFwd || op == snpOwnFwd
      let t := if fwdOp && 0x2B ≤ rsp && rsp ≤ 0x2D then { t with rsp := rsp } else if fwdOp then { t with fwd := false } else t
      settle (sendHeld a (setTxn t s))

/-- SNOOP_RESPONSE: RspI, RspS, RspE, RspF, RspFwdI, RspFwdF, RspFwdO, RspIWb, RspEWb and RspFWb. -/
def execSnoopResponse (port : Fin 13) (m : KafMsg) (s : State) : Res :=
  if 8 ≤ port.val ∨ !agentUp s port.val ∨ m.op < 0x27 ∨ 0x30 < m.op ∨ sunk s then .next s
  else .next (snoopAnswer (rspLine m) port.val m.op m.data s)

/-- RSP_COPY: the copy is written to memory, and the surviving holders stay in S (R346). -/
def execRspCopy (port : Fin 13) (m : KafMsg) (s : State) : Res :=
  let a := port.val
  let line := rspLine m
  if 8 ≤ a ∨ !agentUp s a ∨ m.op ≠ 0x31 then .next s
  else match s.coh.txns.find? fun t => t.snoops.any fun q => q.line == line && q.agent == a && q.op == snpCopy with
    | none => .next s
    | some t =>
      let s := setTxn { t with snoops := t.snoops.filter fun q => !(q.line == line && q.agent == a) }
        (memStore (line * 64) (2 ^ 64 - 1) m.data false s)
      .next (settle (setDir line { dirOf s line with st := 1, keeper := 15 } s))

/-- RSP_WB_PEND: the home waits for the WbDirty, unless it has been written already (R340). -/
def execRspWbPend (port : Fin 13) (m : KafMsg) (s : State) : Res :=
  let a := port.val
  let line := rspLine m
  if 8 ≤ a ∨ !agentUp s a ∨ m.op ≠ 0x32 then .next s
  else match s.coh.txns.find? fun t => t.snoops.any fun q => q.line == line && q.agent == a with
    | none => .next s
    | some t =>
      let d := dirOf s line
      let due := d.keeper == a && (d.st == 3 || d.st == 4)
      let t := { t with snoops := t.snoops.filter fun q => !(q.line == line && q.agent == a), fwd := false
                        wb := if due then t.wb ++ [(line, a)] else t.wb }
      .next (settle (sendHeld a (setTxn t s)))

/-- FORWARDED_DATA: the keeper's DataS, DataE or DataM crosses the truss to the requester's pier (R334). -/
def execForwardedData (port : Fin 13) (m : KafMsg) (s : State) : Res :=
  if 8 ≤ port.val ∨ !agentUp s port.val ∨ !linkUp s port.val ∨ m.op < 0x18 ∨ 0x1B < m.op then .next s
  else
    let hit := fun (t : Txn) => t.fwd && !t.got && (match t.why with
      | .req id => match reqOf s id with
        | some r => r.agent == some m.fwdAgent && r.tag == m.fwdTag
        | none => false
      | _ => false)
    match s.coh.txns.find? hit with
    | none => .next s
    | some t =>
      let s := setTxn { t with got := true, fwdOp := m.op } (linkTally false port.val (kafSlots 64) s)
      .next (if agentUp s m.fwdAgent then sendKaf m.fwdAgent { m with tag := m.fwdTag, addr := 0 } s else s)

/-- FWD_ACK: the requester has the forwarded data (R330, R335). -/
def execFwdAck (port : Fin 13) (m : KafMsg) (s : State) : Res :=
  if 8 ≤ port.val ∨ !agentUp s port.val ∨ m.op ≠ 0x33 then .next s
  else
    let hit := fun (t : Txn) => t.fwd && !t.ack && (match t.why with
      | .req id => match reqOf s id with
        | some r => r.agent == some port.val && r.tag == m.tag
        | none => false
      | _ => false)
    match s.coh.txns.find? hit with
    | none => .next s
    | some t => .next (settle (setTxn { t with ack := true } s))

/-- The request that takes a line's lock next: the oldest, and of one cycle the lower agent number. -/
def lineNext (line : Nat) (s : State) : Option Req :=
  let older := fun (q r : Req) => decide (q.since < r.since ∨ (q.since = r.since ∧ q.agent.getD 15 < r.agent.getD 15))
  (s.coh.reqs.filter fun r => r.stage == .locked && r.lines.contains line).foldl (fun m r => match m with
    | none => some r
    | some q => if older r q then some r else m) none

/-- LINE_LOCK_ACQUIRE: the oldest request that waits for the line takes its lock, where it is free (R330). -/
def execLineLockAcquire (line : Nat) (s : State) : Res :=
  if locked s line then .next s
  else match lineNext line s with
    | none => .next s
    | some r => .next (if r.pieces.isEmpty then serveReq r s else tryLock r s)

/-! ## CXL requests (R329, R342, R549 to R552) -/

/-- The port acts in CXL 3.x mode: processors cache by back-invalidate (R549, R594). -/
def cxl3 (s : State) (p : Nat) : Bool := bitsOf (obj s 0x5200 (p + 1)) 27 24 == 1 && s.span.twin == .single
/-- The port carries CXL.mem. -/
def cxlOn (s : State) (p : Nat) : Bool :=
  bitsOf (obj s 0x5200 (p + 1)) 31 28 == 2 && (bitsOf (obj s 0x5200 (p + 1)) 27 24 == 1 || bitsOf (obj s 0x5200 (p + 1)) 27 24 == 2)

/-- The request of a CXL message: in CXL 2.0 and 1.1 mode every read is UR and every write UW. -/
def cxlReq (p op tag addr : Nat) (cls : RClass) (s : State) : Req :=
  let pasid := obj s 0x2301 (p + 1)
  let cls := if cxl3 s p then cls else match cls with | .rs | .ro => .ur | .wb => .uw | c => c
  { newReq (0x10 + p) op cls (if cxl3 s p then some (8 + p) else none) s with
    pasid := pasid, tenant := pasidTenant s pasid, addr := addr / 64 * 64, tag := tag }

/-- The queue of held CXL requests of a half is full, and the ports take no further request (R338). -/
def cxlQueueFull (s : State) : Bool :=
  [0, 1].any fun h => decide (256 ≤ (s.coh.reqs.filter fun r => r.stage == .locked && decide (0x10 ≤ r.src ∧ r.src < 0x14)
    && bitsOf (r.lines.headD 0 * 64) 12 12 == h).length)

/-- A CXL request arrives, where the port carries CXL.mem; MemInv and MemClnEvct change nothing in CXL 2.0 mode. -/
def cxlArrive (p op tag addr : Nat) (cls : RClass) (s : State) : State :=
  if !cxlOn s p ∨ cxlQueueFull s then s
  else if !cxl3 s p ∧ (cls = .up ∨ cls = .ec) then emit (.cxl p 0 tag 0 []) s
  else arrive (cxlReq p op tag addr cls s) 0 s

/-- CXL_MEM_RD: MetaValue Any asks for a writable copy, Shared for a readable one, Invalid for none (as does the value 1, which
R329 does not list). -/
def execCxlMemRd (port : Fin 4) (tag : Nat) (addr : BitVec 57) (mv : BitVec 2) (s : State) : Res :=
  .next (cxlArrive port.val 0x100 tag addr.toNat (if mv = 3 then .rs else if mv = 2 then .ro else .ur) s)
def execCxlMemRdData (port : Fin 4) (tag : Nat) (addr : BitVec 57) (s : State) : Res :=
  .next (cxlArrive port.val 0x101 tag addr.toNat .rs s)
/-- CXL_MEM_INV: MetaValue Any is UP, another value EC. -/
def execCxlMemInv (port : Fin 4) (tag : Nat) (addr : BitVec 57) (mv : BitVec 2) (s : State) : Res :=
  .next (cxlArrive port.val 0x102 tag addr.toNat (if mv = 2 then .up else .ec) s)
def execCxlMemClnEvct (port : Fin 4) (tag : Nat) (addr : BitVec 57) (s : State) : Res :=
  .next (cxlArrive port.val 0x103 tag addr.toNat .ec s)

/-- CXL_MEM_WR: WB from the recorded keeper of the line, taken at once (R340, R342), and UW from any other processor. -/
def execCxlMemWr (port : Fin 4) (tag : Nat) (addr : BitVec 57) (mask : BitVec 64) (data : List Byte) (poison : Bool) (s : State) :
    Res :=
  let p := port.val
  if !cxlOn s p then .next s
  else
    let r := { cxlReq p 0x104 tag addr.toNat .uw s with arg := mask.toNat, data := data.take 64, poison := poison }
    match placeReq { r with cls := .wb } s with
    | (.at_ [(pa, _)], s') =>
      let line := pa % 2 ^ 52 / 64
      let d := dirOf s line
      if cxl3 s p && agentUp s (8 + p) && pa / 2 ^ 52 == ownIndex s && d.st == 3 && d.keeper == 8 + p then
        .next (settle (answerDone { r with cls := .wb } 0 [] (writeBack (8 + p) line mask.toNat data poison (tookId s'))))
      else .next (arrive r 0 s)
    | _ => .next (arrive r 0 s)

/-- BI_SNOOP_RESPONSE: BIRspI, BIRspS, BIRspE; a BIConflict is acknowledged (kind 4), and its snoop stays open (R342). -/
def execBiSnoopResponse (port : Fin 4) (kind : BitVec 2) (addr : BitVec 52) (s : State) : Res :=
  let a := 8 + port.val
  let line := addr.toNat / 64
  if !agentUp s a then .next s
  else if kind = 3 then .next (emit (.cxl port.val 4 (addr.toNat) 0 []) s)
  else .next (snoopAnswer line a (if kind = 0 then 0x27 else if kind = 1 then 0x28 else 0x29) [] s)

/-! ## Failed agents (R343 to R348) -/

/-- The purge of one entry that names a failed agent, and what an open transaction on the line does (R346, R347). -/
def purgeLine (a : Nat) (s : State) (line : Nat) : State :=
  let d := dirOf s line
  if !bitAt d.holders a then s
  else if d.keeper = a ∧ d.st = 3 then lineLost line s
  else if d.keeper = a ∧ d.st = 4 then
    let s := setDir line { d with keeper := 15, holders := bitSet d.holders a false } s
    match s.coh.txns.find? fun t => t.lines.contains line with
    | some t => nextCopy t line s
    | none =>
      let id := s.coh.nextTxn
      let s := s.setCoh fun c => { c with txns := c.txns ++ [{ newTxn .purge [line] with id := id }], nextTxn := id + 1 }
      match s.coh.txns.find? fun t => t.id == id with
      | some t => nextCopy t line s
      | none => s
  else setDir line (dropAgent a d) s

/-- A transaction stops waiting for a failed agent: forwarded data already received whole stands for its answer. -/
def unwaitTxn (a : Nat) (s : State) (t : Txn) : State :=
  let mine := t.snoops.filter fun q => q.agent == a
  let t' := { t with snoops := t.snoops.filter fun q => q.agent != a, wb := t.wb.filter fun w => w.2 != a }
  match mine.find? fun q => q.op == snpShrFwd || q.op == snpOwnFwd with
  | none => setTxn t' s
  | some q =>
    if t.got then
      let d := dirOf s q.line
      let rsp := if q.op = snpOwnFwd then 0x2B else if d.st = 2 then 0x2C else 0x2D
      applyRsp t' q.line a rsp [] (setTxn { t' with rsp := rsp } s)
    else setTxn { t' with fwd := false } s

/-- An agent is declared failed: its requests are discarded, and every entry that names it is purged. -/
def failAgent (a : Nat) (s : State) : State :=
  if tget 0 s.coh.agents a = 4 then s.setCoh fun c => { c with agents := tput 0 c.agents a 2 }
  else if tget 0 s.coh.agents a ≠ 1 then s
  else
    let s := (s.coh.reqs.filter fun r => r.agent == some a && r.stage == .tolled).foldl (fun s r => tollLeave r.id s) s
    let s := s.setCoh fun c => { c with
      agents := tput 0 c.agents a 2
      reqs := (c.reqs.filter fun r => r.agent != some a || r.stage == .opened).map fun r =>
        if r.agent = some a then { r with dead := true } else r
      txns := c.txns.map fun t => match t.why with
        | .req id => if (c.reqs.any fun r => r.id == id && r.agent == some a) then { t with ack := true } else t
        | _ => t }
    let s := (s.coh.txns.filter fun t => t.snoops.any (fun q => q.agent == a) || t.wb.any fun w => w.2 == a).foldl (unwaitTxn a) s
    settle ((s.coh.dir.map (·.1)).foldl (purgeLine a) s)

/-- A command that brings an agent's answer to a snoop of a line. -/
def answersSnoop (a line : Nat) : Instr → Bool
  | .snoopResponse p m | .rspCopy p m | .rspWbPend p m => p.val == a && rspLine m == line
  | .biSnoopResponse p _ addr => 8 + p.val == a && addr.toNat / 64 == line
  | _ => false

/-- SNOOP_TIMEOUT: the clock is carried to the expiry, and the agent is declared failed (R343), unless its answer comes in that very
cycle. -/
def execSnoopTimeout (a : Fin 12) (line : Nat) (s : State) : Res :=
  match (s.coh.txns.flatMap (·.snoops)).find? fun q => q.agent == a.val && q.line == line with
  | some q =>
    match q.sent with
    | some c =>
      let due := c + usCycles (obj s 0x2200 1)
      let t := carryTo due s
      .next (if arrivalWins due (answersSnoop a.val line) s then t else failAgent a.val t)
    | none => .next s
  | none => .next s

/-- AGENT_FAILED (R346). -/
def execAgentFailed (a : Fin 12) (s : State) : Res := .next (failAgent a.val s)

/-- A write of 2200:03 (R345, R350): above 11 refused. -/
def declareFailed (v : Nat) (s : State) : Nat × State := if v < 12 then (0, failAgent v s) else (abValue, s)

/-- DECLARE_AGENT_FAILED. -/
def execDeclareAgentFailed (v : BitVec 8) (s : State) : Res := .next (commanded (declareFailed v.toNat) s)

/-- AGENT_PURGE_END: no purge runs any more: the agent's state becomes purged, or, where its link has trained afresh in the
meantime, active (R348, 2201). -/
def execAgentPurgeEnd (a : Fin 12) (s : State) : Res :=
  let st := tget 0 s.coh.agents a.val
  if (st = 2 ∨ st = 4) ∧ !(s.coh.txns.any fun t => t.why == .purge) then
    .next (s.setCoh fun c => { c with agents := tput 0 c.agents a.val (if st = 4 then 1 else 3) })
  else .next s

/-- An agent's link has trained: it takes part, again only once its purge has finished (R348). -/
def agentTrained (a : Nat) (s : State) : State :=
  let st := tget 0 s.coh.agents a
  s.setCoh fun c => { c with agents := tput 0 c.agents a (if st = 2 ∨ st = 4 then 4 else 1) }

/-- Entries of an extent, and requests counted in flight at it (R399). -/
def extLines (s : State) (e : Nat) : List Nat := (s.coh.dir.filter fun p => p.1 / 2 ^ 24 == e).map (·.1)
def extInflight (s : State) (e : Nat) : Nat :=
  (s.coh.reqs.filter fun r => (ownPieces s r.pieces).any fun p => p.1 / 2 ^ 30 == e).length

/-- ESCROW_RECALL_WALK: at step 3 of an extent's escrow every tracked line is recalled, and returned data is discarded
(R344). -/
def execEscrowRecallWalk (ext : Nat) (s : State) : Res :=
  if (extOf s ext).st ≠ .escrow ∨ (extOf s ext).step ≠ 3 ∨ extInflight s ext ≠ 0 then .next s
  else
    let go := (extLines s ext).filter fun l => !locked s l
    .next (settle (go.foldl (fun s l => openTxn (newTxn (.recall true) [l]) (writeSnoops s l) 15 0 s) s))

/-! ## Answers from other members (R372, R469) -/

/-- A remote answer for a descriptor's block: a read's piece is kept, and when none is due the descriptor may dispatch; a
write counts as an acknowledgement of the output (R372). -/
def remoteFlight (q : RemoteAsk) (code : Nat) (data : List Byte) (s : State) : State :=
  match flightOf s q.who with
  | none => s
  | some f =>
    if q.write then
      if code ≠ 0 then complete f.id code 1 0 0 s
      else if f.acks ≤ 1 then complete f.id 0 0 f.r1 f.r2 s else setFlight { f with acks := f.acks - 1 } s
    else
      let rs := f.remote.map fun r => if r.1 = q.pa then (r.1, some (code, data)) else r
      setFlight { f with remote := rs } s

/-- A remote answer for a request: when none is due, it is answered. -/
def remoteReq (q : RemoteAsk) (code : Nat) (data : List Byte) (s : State) : State :=
  match reqOf s q.who with
  | none => s
  | some r =>
    let rs := r.remote.map fun x => if x.1 = q.pa then (x.1, some (code, data)) else x
    let r := { r with remote := rs }
    if rs.any fun x => x.2.isNone then setReq r s
    else
      let bad := rs.foldl (fun c x => match x.2 with
        | some (k, _) => if c ≠ 0 then c else k
        | none => c) 0
      if bad ≠ 0 then answerFail r bad s else (performReq r 0 s).2

/-- BLK_DATA: a BlkData, DataU, Cmp or Err answer to what this device sent over a span port. -/
def execBlkData (port : Fin 13) (m : KafMsg) (s : State) : Res :=
  if port.val < 8 ∨ !linkUp s port.val then .next s
  else match s.coh.asks.find? fun q => q.tag == m.tag && (routesTo s q.index).contains port.val with
    | none => .next s
    | some q =>
      let s := linkTally false port.val (kafSlots m.data.length) (s.setCoh fun c => { c with asks := c.asks.filter fun p => p ≠ q })
      let code := if m.op = 0x42 ∨ m.op = 0x1C ∨ m.op = 0x1E then 0 else if m.code = 0 then ccXlate else m.code
      .next (if q.flight then remoteFlight q code m.data s else remoteReq q code m.data s)

/-- RELAYED_WRITE_ACK (R594): the partner has applied a relayed write, which then completes. -/
def execRelayedWriteAck (id : Nat) (s : State) : Res :=
  match reqOf s id with
  | none => .next s
  | some r => if r.stage = .remote ∧ relays s r then .next (answerDone r 0 [] s) else .next s

/-- The direct accesses that wait for a tier-cache block. -/
def blockWaiters (block : Nat) (s : State) : List Req :=
  s.coh.reqs.filter fun r => r.stage == .cache && (ownPieces s r.pieces).any fun p =>
    decide (p.1 / 65536 ≤ block ∧ block * 65536 < p.1 + p.2)

/-- The descriptors that wait for it. -/
def blockFlights (block : Nat) (s : State) : List Flight :=
  s.attn.flights.filter fun f => (f.blocks.getD []).contains block

/-- A block has been read from T3 (R234): the accesses that wait for it go on; without room they are refused. -/
def blockRead (block : Nat) (s : State) : State :=
  let k := cacheOf s (block * 65536)
  let rs := blockWaiters block s
  let s := nvmeDrop (fun c => c.block == some block) s
  let fs := blockFlights block s
  if rs.isEmpty ∧ fs.isEmpty then s
  else match (if (cachePlace s k block).isSome then some s else cacheFill k block s) with
    | some s =>
      let s := fs.foldl (fun s f => setFlight { f with blocks := f.blocks.map fun l => l.erase block } s) s
      rs.foldl (fun s r => serveLocal r s) s
    | none => rs.foldl (fun s r => answerFail r ccFull s) (fs.foldl (fun s f => complete f.id ccFull 0 0 0 s) s)

/-- TIER_CACHE_MISS. -/
def execTierCacheMiss (block : Nat) (s : State) : Res := .next (blockRead block s)

end Sys2Proof.Machine
end

