-- ==== Sys2Proof/Machine/Fencing.lean ====
section
/-! DEFINITION. Core fencing: why a core is fenced, the fence, its effect on descriptors, and the return to service
(R243 to R259). -/

namespace Sys2Proof.Machine

/-- The count of cores in service has changed from `was` while below 16 (R253, R665). -/
def belowRating (was : Nat) (s : State) : State :=
  let n := (coresInService s).length
  if n < 16 ∧ n ≠ was then
    let mask := (coresInService s).foldl (fun a c => a + 2 ^ c) 0
    telemetry 3 n (emcyRaise 2 0x9001 3 mask s)
  else s

/-- An ATTEND loses a core: its other work items are cancelled, on the members of a striped context too, and it completes with 0x40
once they have stopped (R248). A COMPACT lets its other cores run on (R249). -/
def fenceFlight (c : Nat) (s : State) (f : Flight) : State :=
  if dOpcode f.desc = 1 then
    let s := faultDrop f.id (cancelWork f.id s)
    if f.members.isEmpty then complete f.id ccFenced 0 0 0 s
    else f.members.foldl (spanSend 3 f.id []) (setFlight { f with left := [], parts := [], codes := f.codes ++ [(ccFenced, 0)] } s)
  else workEnded f.id (setFlight { f with left := f.left.erase c, codes := f.codes ++ [(ccFenced, 0)] } s)

/-- The fence of a core that runs: its work is abandoned, its reads drain, its interface sinks what comes (R246, R247, R257,
R514). -/
def fenceCore (c reason : Nat) (s : State) : State :=
  let k := coreOf s c
  let works := k.work.toList ++ k.queue
  let s := works.foldl (fun s w => match w.fresh with
    | some fr => freeFrame fr s
    | none => s) s
  let s := setCore c { k with st := .fencing, reason := reason, count := min 255 (k.count + 1), work := none, queue := []
                              draining := (k.work.map fun w => (outstanding w).map fun g => (g.addr, g.len)).getD []
                              entering := false, checkDue := false } (sinkCore c s)
  let s := s.setXl fun x => { x with queue := x.queue.filter fun r => !(r.kind == 0 && r.source == c)
                                     holding := x.holding.filter fun r => !(r.kind == 0 && r.source == c) }
  let s := logEvent 0x0B 0 (coreLoc c) 0 (0x20 + c) reason 1 s
  let s := (works.map (·.desc)).foldl (fun s d => match flightOf s d with
    | some f => fenceFlight c s f
    | none => s) s
  swapAll s

def fence (c reason : Nat) (s : State) : State := belowRating (coresInService s).length (fenceCore c reason s)

/-- CHECK_TILE (R244): in the background window, between two work items. -/
def execCheckTile (c : Fin 20) (ok : Bool) (s : State) : Res :=
  let k := coreOf s c.val
  if k.st = .inService ∧ k.work.isNone ∧ k.checkDue ∧ s.clk.winOpen then
    let s := setCore c.val { k with checkDue := false } s
    .next (if ok then s else fence c.val 2 s)
  else .next s

/-- Commands with which a tile of a core may end. -/
def endsTile (c : Fin 20) : Instr → Bool
  | .t1GranuleReady d _ _ | .certifiedCheck d | .summaryPassEnd d => d == c
  | _ => false

/-- CORE_WATCHDOG (R245): the clock is carried to the expiry. Time has not advanced while the array waited on a ready bit or a
translation fault, and a core that waits so is not fenced; a tile that ends in the cycle of expiry wins. -/
def execCoreWatchdog (c : Fin 20) (s : State) : Res :=
  let k := coreOf s c.val
  match k.work with
  | some w =>
    let due := w.tick + usCycles (obj s 0x9001 6)
    if k.st ≠ .inService ∨ waiting w then .next s
    else if arrivalWins due (endsTile c) s then .next (carryTo due s)
    else .next (fence c.val 4 (carryTo due s))
  | none => .next s

/-- CORE_SRAM_UNCORRECTABLE (R243 reason 3). -/
def execCoreSramUncorrectable (c : Fin 20) (s : State) : Res :=
  if (coreOf s c.val).st = .inService then .next (fence c.val 3 s) else .next s

/-- One core of a quadrant whose attachment fails (R243). -/
def quadCore (s : State) (c : Nat) : State :=
  let k := coreOf s c
  match k.st with
  | .inService => fenceCore c 5 s
  | .testing => fenceCore c 5 s
  | .fencing => setCore c { k with quad := true } s
  | _ => setCore c { k with reason := 5 } s

/-- QUADRANT_ATTACHMENT_FAIL: its five cores in one cycle. -/
def execQuadrantAttachmentFail (q : Fin 4) (s : State) : Res :=
  .next (belowRating (coresInService s).length ((List.range 5).foldl (fun s i => quadCore s (5 * q.val + i)) s))

/-- A write of 9001:01: above 19 refused, no effect on a core that is not IN_SERVICE. -/
def writeFence (v : Nat) (s : State) : Nat × State :=
  if 20 ≤ v then (abValue, s) else (0, if (coreOf s v).st = .inService then fence v 6 s else s)

/-- FENCE_CORE (R256). -/
def execFenceCore (p : Prin) (v : BitVec 8) (s : State) : Res := .next (objCmd p 0x9001 1 (writeFence v.toNat) s)

/-- A fenced core's record: HELD once its count reaches the limit (R255). -/
def fencedState (s : State) (k : Core) : CoreState := if obj s 0x9001 5 ≤ k.count then .held else .fenced

/-- FENCE_READS_DRAINED (R247): the last read has returned; the SRAM is zeroed and the clock stopped. -/
def execFenceReadsDrained (c : Fin 20) (s : State) : Res :=
  let k := coreOf s c.val
  if k.st = .fencing then
    .next (setCore c.val { k with st := fencedState s k, reason := if k.quad then 5 else k.reason, quad := false, draining := [] } s)
  else .next s

/-- A write of 9001:02: above 19 refused; so is one for a core that reads HELD or has taken reason 5 (R255); no effect on
another core that is not FENCED. -/
def writeReturn (v : Nat) (s : State) : Nat × State :=
  let k := coreOf s v
  if 20 ≤ v then (abValue, s)
  else if k.st = .held ∨ (k.st = .fenced ∧ k.reason = 5) then (abState, s)
  else (0, if k.st = .fenced then setCore v { k with st := .testing } s else s)

/-- RETURN_CORE (R254 to R256). -/
def execReturnCore (p : Prin) (v : BitVec 8) (s : State) : Res := .next (objCmd p 0x9001 2 (writeReturn v.toNat) s)

/-- CORE_TEST_END (R254): on a pass the core enters service at the next step boundary. -/
def execCoreTestEnd (c : Fin 20) (ok : Bool) (s : State) : Res :=
  let k := coreOf s c.val
  if k.st = .testing ∧ !k.entering then
    if ok then .next (setCore c.val { k with entering := true } s)
    else
      let k := { k with reason := 1, count := min 255 (k.count + 1) }
      .next (logEvent 0x0B 0 (coreLoc c.val) 0 (0x20 + c.val) 1 1 (setCore c.val { k with st := fencedState s k } s))
  else .next s

/-- At a step boundary the cores that have passed their tests enter service (R254). -/
def enterCores (s : State) : State :=
  belowRating (coresInService s).length ((List.range 20).foldl (fun s c =>
    let k := coreOf s c
    if k.st = .testing ∧ k.entering then setCore c { k with st := .inService, entering := false } s else s) s)

end Sys2Proof.Machine
end

