-- ==== Sys2Proof/Machine/Hbm.lean ====
section
/-! DEFINITION. The HBM controllers: pattern operations, refresh, row disturbance, self-refresh and retraining (R260 to
R289). -/

namespace Sys2Proof.Machine

/-- The number of a controller's state in HBMSTAT. -/
def hbmStateNum (h : Hbm) : Nat :=
  match h.st with
  | .off => 0
  | .training => 1
  | .initialising => 2
  | .inService => if h.selfRefresh then 4 else if h.retraining then 5 else 3
  | .retained => 6
  | .failed => 7

/-- HBMSTAT, 4000:(ctl + 1) (R264). -/
def hbmStat (h : Hbm) : Nat :=
  hbmStateNum h * 2 ^ 28 + min 255 h.temp * 2 ^ 20 + (if h.hot then 2 ^ 19 else 0)
    + (if h.throttled.isEmpty then 0 else 2 ^ 18) + popCount h.failedPc 64 % 256 * 256 + h.repaired % 256

/-! ## Device reset requests and die failures (R14, R691) -/

/-- A device reset is requested; a request while one runs is ignored and counted (R691). -/
def requestReset (cause : Nat) (s : State) : State :=
  let p := s.pwr
  if p.resetAt.isSome then s.setPwr fun p => { p with ignored := (p.ignored + 1) % 65536 }
  else if p.dev = .ready ∨ p.dev = .failed ∨ (p.dev = .starting ∧ (p.step = 0 ∨ 4 ≤ p.step)) then
    s.setPwr fun p => { p with dev := .quiescing, resetAt := some s.time.cycle, cause := cause }
  else s

/-- A die fails: the device is FAILED, with fault_n asserted, and a reset is requested where 2020:07 is 1. -/
def dieFails (s : State) : State :=
  let p := s.pwr
  if p.dev = .reset ∨ p.dev = .shutdown ∨ p.dev = .quiescing then
    if p.dev = .quiescing ∧ obj s 0x2020 7 = 1 then requestReset 3 s else s
  else
    let ran := p.resetAt.isSome
    let s := s.setPwr fun p => { p with dev := .failed, faultN := true, cause := 3, step := 0, resetAt := none }
    if obj s 0x2020 7 ≠ 1 then s
    else if ran then s.setPwr fun p => { p with ignored := (p.ignored + 1) % 65536 } else requestReset 3 s

/-- A controller enters FAILED (R665 kind 7, EMCY class 7), which the device treats as a die failure (R14). -/
def hbmFail (c : Nat) (s : State) : State :=
  let s := setCtl c { ctlOf s c with st := .failed } s
  dieFails (telemetry 7 c (emcyRaise 7 0x4000 (c + 1) (hbmStat (ctlOf s c)) s))

/-! ## PATCTL (R262, R265, R266, R271) -/

/-- The rule of R271 for a start. -/
def patAllowed (s : State) (h : Hbm) (v : BitVec 64) : Bool :=
  if fld v 59 58 = 3 then h.st == .training || (h.st == .inService && h.retraining)
  else h.st == .training && decide (s.hbm.retained * 1024 ≤ fld v 45 32 ∧ fld v 45 32 + fld v 31 18 < 16384)

/-- PATCTL: instance 0 is the steward's, 1 to 4 are the sequencers'; only the sequencer of the selected controller's die
writes it. What an array operation writes lies outside the retained segments and is zeroed by step 6 of R268. -/
def patWrite (inst : Nat) (v : BitVec 64) (s : State) : State :=
  let c := tget 0 s.win.hbmSel inst
  if inst = 0 ∨ 24 ≤ c ∨ c / 6 + 1 ≠ inst then s
  else
    let h : Hbm := { ctlOf s c with patctl := v.toNat % 2 ^ 63 / 1024 * 1024 }
    if fld v 63 63 = 0 ∨ h.patBusy then setCtl c h s
    else if patAllowed s h v then setCtl c { h with patBusy := true, patRun := h.patctl, cmpRes := h.cmpRes / 2 * 2 } s
    else setCtl c { h with cmpRes := 0xFFFF * 2 ^ 12 + 1, cmpLane := 0 } s

/-- PATCTL. -/
def execPatctl (inst : Fin 5) (v : BitVec 64) (s : State) : Res := .next (patWrite inst.val v s)

/-- PATTERN_OP_DONE: an operation that compares reports; one that only writes sets done. -/
def execPatternOpDone (c : Fin 24) (res : BitVec 64) (lanes : BitVec 36) (s : State) : Res :=
  let h := ctlOf s c.val
  if !h.patBusy then .next s
  else if bitsOf h.patRun 59 58 = 0 then .next (setCtl c.val { h with patBusy := false, cmpRes := h.cmpRes / 2 * 2 + 1 } s)
  else .next (setCtl c.val { h with patBusy := false, cmpRes := res.toNat / 4096 * 4096 + 1, cmpLane := lanes.toNat } s)

/-! ## Refresh (R272 to R274) -/

/-- A controller that serves requests. -/
def hbmServes (h : Hbm) : Bool := h.st == .inService && !h.selfRefresh

/-- The interval of a bank's refreshes in truss cycles: 15.625 µs, or half of it above the threshold. -/
def refreshCycles (h : Hbm) : Nat := if h.hot then 15625 else 31250

/-- REFRESH_DUE: the clock is carried to the end of the bank's interval (the first falls due as the controller comes to it); issued,
with every postponed one, or postponed unless 8 already are; a sweep of 2,048 refreshes covers the bank and clears its tracker. -/
def execRefreshDue (c : Fin 24) (pc : Fin 64) (bank : Fin 64) (issue : Bool) (s : State) : Res :=
  let h := ctlOf s c.val
  let k := pc.val * 64 + bank.val
  if !hbmServes h then .next s
  else
    let p := tget 0 h.postponed k
    let s := if tget 0 h.dueAt k = 0 then s else carryTo (tget 0 h.dueAt k + refreshCycles h) s
    let h := { h with dueAt := tput 0 h.dueAt k s.time.cycle }
    if !issue && decide (p < 8) then .next (setCtl c.val { h with postponed := tput 0 h.postponed k (p + 1) } s)
    else .next (setCtl c.val (refreshBank k (p + 1) h) s)

/-- STACK_TEMPERATURE_CHANGE (R272). -/
def execStackTemperatureChange (c : Fin 24) (t : Nat) (s : State) : Res :=
  let h := ctlOf s c.val
  let hot := if 85 < t then true else if t ≤ 80 then false else h.hot
  .next (setCtl c.val { h with temp := t, hot := hot } s)

/-! ## Row disturbance (R274 to R278) -/

/-- Device-sourced traffic: scrubber, summary units, the device (R277, R305). -/
def deviceSource (src : Nat) : Bool := src == 0x41 || decide (0x43 ≤ src ∧ src ≤ 0x47) || src == 0xFF

/-- The requester with the most activations of a row since it entered its tracker (R276); of several with as many, `req` where it is
one of them (log entry 108). -/
def rowBlame (e : RowCount) (req : Nat) : Nat :=
  let most := e.by_.foldl (fun (m : Nat × Nat) q => if m.2 < q.2 then q else m) (0, 0)
  if tget 0 e.by_ req = most.2 then req else most.1

/-- The rows that a targeted refresh takes (R275). -/
def rowsBeside (r : Nat) : List Nat :=
  (if 2 ≤ r then [r - 2] else []) ++ (if 1 ≤ r then [r - 1] else []) ++ ([r + 1, r + 2].filter (· < 16384))

/-- TARGETED_REFRESH: a tracked row's count has reached 4020:01; it returns to 0, and its requester takes a credit, at most 8
requesters an interval. -/
def execTargetedRefresh (c : Fin 24) (pc : Fin 64) (bank : Fin 64) (row : Fin 16384) (tag source : BitVec 8) (s : State) : Res :=
  let h := ctlOf s c.val
  let k := pc.val * 64 + bank.val
  match (tget [] h.rows k).find? fun e => e.row == row.val && decide (obj s 0x4020 1 ≤ e.count) with
  | none => .next s
  | some e =>
    if !hbmServes h then .next s
    else
      let r := rowBlame e (tag.toNat * 256 + source.toNat)
      let credits := if tget 0 h.credits r ≠ 0 ∨ h.credits.length < 8 then tmod 0 h.credits r (· + 1) else h.credits
      let rows := tmod [] h.rows k fun l => l.map fun x => if x.row = row.val then { x with count := 0 } else x
      .next (bumpObj 0x4020 5 1 64 (setCtl c.val { h with rows := rows, credits := credits, targeted := (k, rowsBeside row.val) } s))

/-- One requester over its credits is throttled: the log, the count, and its tenant's tally (R277, R278). -/
def throttleOne (c : Nat) (s : State) (r : Nat) : State :=
  let s := logEvent 0x0D 0 (ctlLoc c) (r / 256) (r % 256) 0 1 (bumpObj 0x4020 6 1 32 s)
  let h := ctlOf s c
  tenantCount (r / 256) 0x0B 1 (setCtl c { h with throttled := tput 0 h.throttled r (obj s 0x4020 3) } s)

/-- One controller at the end of an interval. -/
def throttleCtl (s : State) (c : Nat) : State :=
  let h := ctlOf s c
  let above := (h.credits.filter fun p => decide (obj s 0x4020 2 < p.2) && !deviceSource (p.1 % 256)).map (·.1)
  let left := (h.throttled.map fun p => (p.1, p.2 - 1)).filter fun p => p.2 != 0
  above.foldl (throttleOne c) (setCtl c { h with credits := [], throttled := left } s)

/-- THROTTLE_INTERVAL_END: the clock is carried to the next whole millisecond of truss time. -/
def execThrottleIntervalEnd (s : State) : Res :=
  let s := carryTo ((s.time.cycle / 2000000 + 1) * 2000000) s
  .next ((List.range 24).foldl throttleCtl s)

/-! ## Self-refresh (R279 to R281) -/

/-- SELF_REFRESH_ENTRY: the clock is carried to the expiry of the idle timer. -/
def execSelfRefreshEntry (c : Fin 24) (s : State) : Res :=
  let h := ctlOf s c.val
  let us := obj s 0x4030 1
  if us = 0 ∨ !hbmServes h ∨ h.retraining then .next s
  else
    let s := carryTo (h.lastUse + usCycles us) s
    .next (bumpObj 0x4030 3 1 32 (setCtl c.val { h with selfRefresh := true } s))

/-- SELF_REFRESH_EXIT: a request or a scrub deadline wakes the controller; its trackers are cleared. -/
def execSelfRefreshExit (c : Fin 24) (s : State) : Res :=
  if (ctlOf s c.val).selfRefresh then .next (wakeCtl c.val s) else .next s

/-! ## Retraining (R285 to R287) -/

/-- A controller is to retrain: it is asked to, or its temperature has drifted since its last training. -/
def wantsRetrain (s : State) (h : Hbm) : Bool :=
  h.askRetrain || decide (obj s 0x4010 2 < max h.temp h.trainTemp - min h.temp h.trainTemp)

/-- The controllers to retrain in a window that opens: those that ask, or all where the step's period falls due; a
sequence left over goes on (R50, R286). One in self-refresh takes its turn in the window after its exit (R281). -/
def retrainOpen (all : Bool) (s : State) : State :=
  let asleep := if all then (List.range 24).filter fun c => (ctlOf s c).st == .inService && (ctlOf s c).selfRefresh else []
  let s := asleep.foldl (fun s c => setCtl c { ctlOf s c with askRetrain := true } s) s
  if s.hbm.groups ≠ 0 then s
  else
    let cs := (List.range 24).filter fun c => hbmServes (ctlOf s c) && (all || wantsRetrain s (ctlOf s c))
    let s := cs.foldl (fun s c => setCtl c { ctlOf s c with retraining := true, askRetrain := false } s) s
    if cs.isEmpty then s else s.setHbm fun b => { b with groups := 16 }

/-- A group's retraining on a controller gives new settings, or, where a lane found none, keeps its previous ones; their values are
free (log entry 107). -/
def retrainGroup (g : Nat) (bad : List Nat) (s : State) (c : Nat) : State :=
  let h := ctlOf s c
  if h.retraining ∧ !bad.contains c then freeStep 1 (setCtl c { h with delays := tins h.delays g (freeAt s 0) } s) else s

/-- RETRAIN_GROUP: a group has been quiet and has served; lanes that found no setting are logged, and after the last
group the controllers' temperatures are those of this training. -/
def execRetrainGroup (bad : List (Fin 24 × Nat)) (s : State) : Res :=
  if s.hbm.groups = 0 ∨ !s.clk.winOpen then .next s
  else
    let s := bad.foldl (fun s b => logEvent 0x0F 0 (ctlLoc b.1.val) 0xFF 0xFF (min 7 b.2) 1 s) s
    let n := s.hbm.groups - 1
    let s := (List.range 24).foldl (retrainGroup (15 - n) (bad.map (·.1.val))) s
    let s := s.setHbm fun b => { b with groups := n }
    if n = 0 then
      .next ((List.range 24).foldl (fun s c =>
        let h := ctlOf s c
        if h.retraining then setCtl c { h with retraining := false, trainTemp := h.temp } s else s) s)
    else .next s

/-- A write of 4010:01: a controller, or 0xFF for every one; 24 to 254 have no effect (R289). -/
def writeRetrain (v : Nat) (s : State) : Nat × State :=
  if v < 24 then (0, setCtl v { ctlOf s v with askRetrain := true } s)
  else if v = 255 then (0, (List.range 24).foldl (fun s c => setCtl c { ctlOf s c with askRetrain := true } s) s)
  else (0, s)

/-- RETRAIN_CONTROLLER: a write of 4010:01 (R287, R289). -/
def execRetrainController (p : Prin) (v : BitVec 8) (s : State) : Res :=
  .next (objCmd p 0x4010 1 (writeRetrain v.toNat) s)

end Sys2Proof.Machine
end

