-- ==== Sys2Proof/Machine/Protect.lean ====
section
/-! DEFINITION. Scrub, the read index of the error log, retirement and MAC regions (R295, R296, R299 to R303, R309, R311 to
R315). -/

namespace Sys2Proof.Machine

/-! ## Ciphertext, line code and MAC slots (R290, R292, R297, R432) -/

/-- The generation of the key that a tag's epoch names. -/
def keyGen (s : State) (tag epoch : Nat) : Nat :=
  let g := (keysOf s tag).gen
  if 64 ≤ tag then 0 else if g % 2 = epoch then g else g - 1

/-- An address within its tier's window. -/
def tierLocal (a : Nat) : Nat := if tierOf a = 2 then a - 0x100000000000 else if tierOf a = 3 then a - 0x8000000000000 else a

/-- A line's stored ciphertext, under its tag and epoch, with the tweak of R432. -/
def lineCipher (s : State) (line : Nat) : List Byte :=
  let v := lineOf s line
  let a := line * 64
  slice (Config.xtsLine v.tag (keyGen s v.tag v.epoch) (tierOf a * 2 ^ 46 + tierLocal a / 64 % 2 ^ 46) (mread s.mem.bytes a 64)) 0 64

/-- The tag byte and metadata byte [7:0] of a line. -/
def metaBytes (s : State) (line : Nat) : List Byte :=
  let v := lineOf s line
  leBytes v.tag 1 ++ leBytes (v.epoch % 2 * 128 + (if v.poison then 64 else 0) + v.hint % 64) 1

/-- The five address symbols, which are not stored: the controller, o[35:6] of R261, and five bits of 0. -/
def addressBytes (line : Nat) : List Byte :=
  leBytes (ctlOfAddr (line * 64) * 2 ^ 35 + ctlOffset (line * 64) / 64 % 2 ^ 30 * 32) 5

/-- The check symbols of a line as it was written: the ecc field. -/
def lineEcc (s : State) (line : Nat) : Nat :=
  (Config.checkSymbols (lineCipher s line ++ metaBytes s line ++ addressBytes line)).toNat

/-- The codeword of a line: its 72 stored symbols, then the address symbols. -/
def codeword (s : State) (line : Nat) : List Byte :=
  lineCipher s line ++ metaBytes s line ++ leBytes (lineEcc s line) 6 ++ addressBytes line

/-- A line's 64 bits of metadata (R290). -/
def lineWord (s : State) (line : Nat) : BitVec 64 :=
  let m := metaBytes s line
  BitVec.ofNat 64 (lineEcc s line * 2 ^ 16 + (m.getD 0 0).toNat * 2 ^ 8 + (m.getD 1 0).toNat)

/-- The lane and the half of the burst on which a stored symbol travels (log entry 109). -/
def symbolLane (i : Nat) : Nat × Nat := (i / 2, i % 2)

/-- What a sector's MAC is computed over: its ciphertext, its tier-local address, its tag and its epoch. -/
def macInput (s : State) (sector : Nat) : List Byte :=
  let v := lineOf s (sector * 4)
  ((List.range 4).flatMap fun i => lineCipher s (sector * 4 + i)) ++ leBytes (tierLocal (sector * 256)) 8 ++ leBytes v.tag 1
    ++ leBytes v.epoch 1

/-- The slot of a protected sector as it was written: the MAC and the epoch it was computed under. -/
def macSlot (s : State) (sector : Nat) : BitVec 64 :=
  let v := lineOf s (sector * 4)
  BitVec.ofNat 64 ((Config.cmac v.tag (keyGen s v.tag v.epoch) (macInput s sector)).toNat * 2 ^ 8 + v.epoch % 2 * 2 ^ 7)

/-! ## Scrub (R301 to R303) -/

/-- The line of a controller at one position of its pass: controller offset 64 × position, row by row (R261, R301). -/
def patrolLine (c n : Nat) : Nat :=
  let o := 64 * n
  (o / 4096 * 24 * 4096 + c * 4096 + o % 4096) / 64

/-- Lines of a controller (R260, R301). -/
def patrolLines : Nat := 1073741824

/-- Zero data, poison, the owner's tag and current epoch; the MAC of its sector is then recomputed, so that no line of the
sector fails it any more (R303). -/
def poisonLine (line : Nat) (s : State) : State :=
  let owner := (extOf s (line / 2 ^ 24)).owner
  let s := s.setMem fun m => { m with bytes := mzero m.bytes (line * 64) (line * 64 + 64) }
  let s := (List.range 4).foldl (fun s i =>
    let l := line / 4 * 4 + i
    if (lineOf s l).cond = .mac then setLine l { lineOf s l with cond := .clean } s else s) s
  setLine line { tag := owner, epoch := curEpoch s owner, poison := true, hint := 0, cond := .clean } s

/-- The scrubber reads one line: the line code only, so a MAC finding is none of its business (R301); a line it corrects
does not enter the queue of R302 again. -/
def scrubLine (line : Nat) (f : Finding) (s : State) : State :=
  let s := if f = .mac then s else meet (line * 64) f s
  let v := lineOf s line
  let q := s.mem.scrubQ
  match v.cond with
  | .corrected _ =>
    let s := (noteLine 0x41 s line v).setMem fun m => { m with scrubQ := q }
    setLine line { v with cond := .clean } s
  | .uncorrectable _ => poisonLine line (noteLine 0x41 s line v)
  | .address => poisonLine line (noteLine 0x41 s line v)
  | .tag => noteLine 0x41 s line v
  | .mac => s
  | .clean => if v.poison then s else noteLine 0x41 s line v

/-- Scrub runs on a controller that serves requests and is not in self-refresh (R281). -/
def scrubs (s : State) (c : Nat) : Bool := hbmServes (ctlOf s c)

/-- Truss cycles of a pass: 4040:01 hours. -/
def passCycles (s : State) : Nat := obj s 0x4040 1 * 7200000000000

/-- The cycle in which a controller's pass began. -/
def passBegan (s : State) (c : Nat) : Nat := tget 0 s.mem.passAt c

/-- Patrol is behind pace on a controller: it has read fewer lines than the elapsed fraction of 4040:01 gives (R676). -/
def patrolBehind (s : State) (c : Nat) : Bool :=
  decide (tget 0 s.mem.patrol c < patrolLines * (s.time.cycle - passBegan s c) / max 1 (passCycles s))

/-- Some tenant's rewrap sweep runs. -/
def sweeps (s : State) : Bool := s.mint.keys.any fun k => k.2.sweep

/-- PATROL_SCRUB_READ: the next line of a controller's pass; the last one ends the pass and the bank counts of R308. The
controller's queue of R302 comes first. Outside the background window, and where a sweep comes first, the clock is carried to the
cycle in which the line is due (R301, R676). -/
def execPatrolScrubRead (c : Fin 24) (f : Finding) (s : State) : Res :=
  if scrubs s c.val && (tget [] s.mem.scrubQ c.val).isEmpty then
    let n := tget 0 s.mem.patrol c.val
    let s := if s.clk.winOpen && !sweeps s then s
      else carryTo (passBegan s c.val + ceilDiv ((n + 1) * passCycles s) patrolLines) s
    let s := scrubLine (patrolLine c.val n) f s
    if n + 1 < patrolLines then .next (s.setMem fun m => { m with patrol := tput 0 m.patrol c.val (n + 1) })
    else .next (bumpObj 0x4040 4 1 32 (s.setMem fun m => { m with
      patrol := tput 0 m.patrol c.val 0, passAt := tput 0 m.passAt c.val s.time.cycle
      bankCorr := m.bankCorr.filter fun q => !(bitsOf q.1 27 24 == 2 + c.val / 6 && bitsOf q.1 21 19 == c.val % 6) }))
  else .next s

/-- IMMEDIATE_SCRUB (R302): the oldest line that a demand read found corrected. -/
def execImmediateScrub (c : Fin 24) (f : Finding) (s : State) : Res :=
  match tget [] s.mem.scrubQ c.val with
  | [] => .next s
  | line :: rest =>
    if scrubs s c.val then
      .next (scrubLine line f (s.setMem fun m => { m with scrubQ := tput [] m.scrubQ c.val rest }))
    else .next s

/-! ## The error log's read index (R309) -/

/-- A write of 7400:03: refused ahead of the write index or more than 4,096 entries behind it; the first freed slot after a
loss takes a gap entry. -/
def writeLogIndex (v : Nat) (s : State) : Nat × State :=
  if 4096 < (s.mem.logWr + 2 ^ 32 - v % 2 ^ 32) % 2 ^ 32 then (abValue, s)
  else
    let s := s.setMem fun m => { m with logRd := v % 2 ^ 32 }
    if s.mem.logGap ≠ 0 ∧ logUsed s < 4096 then
      (0, (logPut { time := devNs s, step := s.clk.last, addr := 0, loc := 0, tag := 0, source := 0xFF, symbols := 0
                    count := min s.mem.logGap 65535, kind := 0x10, severity := 0 } s).setMem fun m => { m with logGap := 0 })
    else (0, s)

/-- STEWARD_READ_INDEX. -/
def execStewardReadIndex (v : BitVec 32) (s : State) : Res := .next (commanded (writeLogIndex v.toNat) s)

/-! ## Retirement (R311 to R313) -/

/-- A write of 4042:01: outside T1, or beyond 65,536 entries, refused. -/
def retireGranule (v : Nat) (s : State) : Nat × State :=
  if 402653184 ≤ v then (abValue, s)
  else if s.mem.retired.contains v then (0, s)
  else if 65536 ≤ s.mem.retired.length then (abValue, s)
  else (0, s.setMem fun m => { m with retired := m.retired ++ [v] })

/-- A level-2 or level-3 code of a memory-side die, its lower fields 0 (R13). -/
def bankCodeOk (v : Nat) : Bool :=
  decide (2 ≤ bitsOf v 27 24 ∧ bitsOf v 27 24 ≤ 5 ∧ bitsOf v 23 22 = 0 ∧ bitsOf v 21 19 < 6)
    && ((bitsOf v 31 28 == 2 && decide (bitsOf v 12 0 < 64)) || (bitsOf v 31 28 == 3 && bitsOf v 12 0 == 0))

/-- A write of 4042:02: a wrong code, or beyond 64 entries, refused. -/
def retireBank (v : Nat) (s : State) : Nat × State :=
  if !bankCodeOk v then (abValue, s)
  else if s.mem.retiredBanks.contains v then (0, s)
  else if 64 ≤ s.mem.retiredBanks.length then (abValue, s)
  else (0, s.setMem fun m => { m with retiredBanks := m.retiredBanks ++ [v] })

/-- RETIRE_GRANULE and RETIRE_BANK. -/
def execRetireGranule (v : BitVec 64) (s : State) : Res := .next (commanded (retireGranule v.toNat) s)
def execRetireBank (v : BitVec 32) (s : State) : Res := .next (commanded (retireBank v.toNat) s)

/-! ## MAC regions (R295, R296, R315) -/

/-- The first extent of a tier's window, and its extents (R18, R392). -/
def tierFirst (tier : Nat) : Nat := if tier = 1 then 0 else if tier = 2 then 0x4000 else 0x200000
def tierExtents (tier : Nat) : Nat := if tier = 1 then 1536 else if tier = 2 then 0xC000 else 0x200000

/-- An extent's tier. -/
def extTier (e : Nat) : Nat := tierOf (e * 2 ^ 30)

/-- A tier's MAC region: base within the tier's window, and size, in GiB. -/
def macRegion (s : State) (tier : Nat) : Nat × Nat := (obj s 0x4041 (2 * tier - 1), obj s 0x4041 (2 * tier))

/-- Where a protected sector's slot lies: in its extent's block of the tier's region, 8 bytes a sector. -/
def macSlotAddr (s : State) (sector : Nat) : Nat :=
  let e := sector / 2 ^ 22
  (tierFirst (extTier e) + (macRegion s (extTier e)).1) * 2 ^ 30 + (extOf s e).macBlock * 2 ^ 25 + sector % 2 ^ 22 * 8

/-- The MAC blocks of a tier in use. -/
def macUsed (s : State) (tier : Nat) : List Nat :=
  (s.led.exts.filter fun e => e.2.st != .free && e.2.mac && extTier e.1 == tier).map fun e => e.2.macBlock

/-- A free MAC block of a tier; which one the device takes is free (log entry 8). -/
def macDraw (tier : Nat) (s : State) : Option (Nat × State) :=
  let used := macUsed s tier
  let free := (List.range ((macRegion s tier).2 * 32)).filter fun b => !used.contains b
  match free[freeAt s 0 % max 1 free.length]? with
  | none => none
  | some b => some (b, freeStep 1 s)

/-- Some free MAC block is left. -/
def macRoom (s : State) (tier : Nat) : Bool := decide ((macUsed s tier).length < (macRegion s tier).2 * 32)

/-- The extents of a region, as read in the ledger: GRANTED, kind 6, owner 0xFF; or FREE again when it goes. -/
def macMark (tier base size : Nat) (on : Bool) (s : State) : State :=
  s.setLed fun l => { l with exts := (List.range size).foldl (fun t i =>
    tput ({} : Extent) t (tierFirst tier + base + i) (if on then { ({} : Extent) with st := .granted, kind := 6 } else {})) l.exts }

/-- A region may stand there: within the tier's window, and on no extent that is not FREE. -/
def macFits (s : State) (tier base size : Nat) : Bool :=
  decide (size = 0 ∨ base + size ≤ tierExtents tier)
    && !(s.led.exts.any fun e => e.2.st != .free && decide (tierFirst tier + base ≤ e.1 ∧ e.1 < tierFirst tier + base + size))

/-- A write of 4041: refused while a MAC block of the tier is in use, or where the region would not fit; else the region as
it then stands is marked. -/
def placeMacRegion (sub v : Nat) (s : State) : Nat × State :=
  if sub = 0 ∨ 6 < sub then (abNoSub, s)
  else
    let tier := (sub + 1) / 2
    let (b, n) := macRegion s tier
    let (b', n') := if sub % 2 = 1 then (v, n) else (b, v)
    if !(macUsed s tier).isEmpty then (abValue, s)
    else
      let t := macMark tier b n false s
      if macFits t tier b' n' then (0, writeObj 0x4041 sub v (macMark tier b' n' true t)) else (abValue, s)

/-- MAC_REGION_PLACE. -/
def execMacRegionPlace (sub : BitVec 8) (v : Nat) (s : State) : Res := .next (commanded (placeMacRegion sub.toNat v) s)

end Sys2Proof.Machine
end

