-- ==== Sys2Proof/Machine/Tenants.lean ====
section
/-! DEFINITION. Tenants and extents: creation, grants, zeroizing, revocation and escrow, reader sets, removal, and the
PASIDs of upstream CXL ports (R353, R380, R392 to R401, R411, R412, R445 to R448). -/

namespace Sys2Proof.Machine

/-- 2400:0B. -/
def setStatus (v : Nat) (s : State) : State := s.setLed fun l => { l with status := v }

/-! ## Grants (R392 to R398) -/

/-- The extent number is decoded, and for T2 and T3 an active tray lies behind it (R392, R397). -/
def extDecoded (s : State) (e : Nat) : Bool := decide (e < 2 ^ 22) && decoded s (e * 2 ^ 30)

/-- A kind is allowed in a tier and for an owner (R394). -/
def kindOk (kind tier owner : Nat) : Bool :=
  if kind = 1 then tier == 1 && decide (owner < 64)
  else if kind = 2 then (tier == 2 || tier == 3) && decide (owner < 64)
  else if kind = 3 then decide (owner < 64)
  else if kind = 4 ∨ kind = 5 then (tier == 1 || tier == 2) && owner == 0xFE
  else if kind = 7 then tier == 1 && owner == 0xFF
  else if kind = 8 then (tier == 1 || tier == 2) && owner == 0xFF else false

/-- The extents that hold a place in the ledger and one more T3 grant leave room for its written map: 2 KiB, as 128 page
records (R396). -/
def mapRoom (s : State) : Bool :=
  let t3 := (s.led.exts.filter fun e => e.2.st != .free && extTier e.1 == 3).length
  decide (s.kv.pages.length + 128 * (t3 + 1)
    ≤ 67108864 * (s.led.exts.filter fun e => e.2.st == .granted && e.2.kind == 7).length)

/-- The reason a grant is refused, judged in the order of R397's table; 0 none. -/
def grantReason (s : State) (v : BitVec 128) : Nat :=
  let e := fld v 85 64
  let owner := fld v 63 56
  let kind := fld v 55 52
  let mode := fld v 51 50
  let loss := fld v 49 49
  let mac := fld v 48 48
  let cache := fld v 47 47
  let readers := fld v 46 43
  let tier := extTier e
  if !extDecoded s e ∨ (extOf s e).st ≠ .free then 1
  else if owner < 64 ∧ (tenantOf s owner).st ≠ .active then 2
  else if !kindOk kind tier owner then 3
  else if 2 < mode ∨ (kind ≠ 3 ∧ mode ≠ 0) ∨ (mode ≠ 1 ∧ loss ≠ 0) ∨ (kind ≠ 3 ∧ mac ≠ 0) ∨ (kind ≠ 4 ∧ readers ≠ 0)
      ∨ (cache ≠ 0 ∧ !(kind = 3 ∧ tier = 3)) then 4
  else if (kind = 1 ∨ kind = 2 ∨ mac = 1 ∨ (owner < 64 ∧ (tenantOf s owner).confidential)) ∧ !macRoom s tier then 5
  else if tier = 3 ∧ ((kind = 3 ∧ obj s 0x4300 (8 + cache) = 0) ∨ !mapRoom s) then 6
  else if fld v 127 86 ≠ 0 ∨ fld v 42 0 ≠ 0 then 7 else 0

/-- A grant that every check passes: GRANTING, with a MAC block where the extent needs one. -/
def grantNow (v : BitVec 128) (s : State) : State :=
  let e := fld v 85 64
  let owner := fld v 63 56
  let kind := fld v 55 52
  let mac := kind == 1 || kind == 2 || fld v 48 48 == 1 || (decide (owner < 64) && (tenantOf s owner).confidential)
  let (blk, s) := if mac then (macDraw (extTier e) s).getD (0, s) else (0, s)
  let s := setExt e { ({} : Extent) with
    st := .granting, kind := kind, owner := owner, mode := fld v 51 50, loss := fld v 49 49 == 1, mac := mac
    cache := fld v 47 47 == 1, epoch := curEpoch s owner, readers := fld v 46 43, macBlock := blk } s
  setDom 0x2401 2 (objDom s 0x2401 2 ++ leBytes v.toNat 16) s

/-- A write of 2400:02: 16 bytes; the reason of a refusal stands in 2400:0B. -/
def writeGrant (v : BitVec 128) (s : State) : Nat × State :=
  let r := grantReason s v
  if r = 0 then (0, grantNow v (setStatus 0 s)) else (abValue, setStatus r s)

/-- GRANT_EXTENT. -/
def execGrantExtent (v : BitVec 128) (s : State) : Res :=
  .next (commanded (mirrorGate (.write 0x2400 2 (leBytes v.toNat 16)) (writeGrant v)) s)

/-- The records of 2401:02 without those of one extent. -/
def dropGrant (e : Nat) : Nat → List Byte → List Byte
  | 0, _ => []
  | k + 1, bs =>
    let r := bs.take 16
    if bs.isEmpty then [] else (if leNat r / 2 ^ 64 % 2 ^ 22 = e then [] else r) ++ dropGrant e k (bs.drop 16)

/-- An extent enters ESCROW (R399). -/
def toEscrow (e : Nat) (s : State) : State :=
  let s := setExt e { extOf s e with st := .escrow, step := 1 } s
  let g := objDom s 0x2401 2
  setDom 0x2401 2 (dropGrant e (g.length / 16 + 1) g) s

/-- ZEROIZE_DONE (R398): zero data, the owner's tag and current epoch, no poison, no hint; a T3 extent's written map is
clear. The extent of a tenant that is being removed enters escrow. -/
def execZeroizeDone (ext : Nat) (s : State) : Res :=
  let e := extOf s ext
  if e.st ≠ .granting then .next s
  else
    let s := zeroRange (ext * 2 ^ 30) ((ext + 1) * 2 ^ 30) s
    let s := s.setMem fun m => { m with written := m.written.filter fun b => b / 16384 != ext }
    let s := setExt ext { e with st := .granted, base := curEpoch s e.owner, epoch := curEpoch s e.owner } s
    if e.owner < 64 ∧ (tenantOf s e.owner).st = .removing then .next (toEscrow ext s) else .next s

/-! ## Revocation and escrow (R399 to R401) -/

/-- A write of 2400:03. -/
def writeRevoke (e : Nat) (s : State) : Nat × State :=
  if extDecoded s e ∧ (extOf s e).st = .granted ∧ (extOf s e).kind ≠ 6 then (0, toEscrow e (setStatus 0 s))
  else (abValue, setStatus 1 s)

/-- REVOKE_EXTENT. -/
def execRevokeExtent (v : BitVec 32) (s : State) : Res :=
  .next (commanded (mirrorGate (.write 0x2400 3 (leBytes v.toNat 4)) (writeRevoke v.toNat)) s)

/-- A copy of a frame, as PA[51:12], lies in an extent. -/
def copyIn1G (e : Nat) (c : Option Nat) : Bool := match c with | some a => a / 2 ^ 18 == e | none => false

/-- One frame when its copies in a tier extent are dropped: a page whose highest copy lay there is revoked (R401). -/
def dropCopies (e : Nat) (s : State) (q : Nat × Frame) : State :=
  let v := q.2
  let d2 := copyIn1G e v.t2
  let d3 := copyIn1G e v.t3
  if d2 || d3 then
    let top := v.t1.isNone && (d2 || v.t2.isNone)
    setFrame q.1 { v with t2 := if d2 then none else v.t2, t3 := if d3 then none else v.t3, revoked := v.revoked || top } s
  else s

/-- Step 2 of a tier extent's escrow: its copies go at once, the moves into it end, and the promotions of pages whose
highest copy lay there complete with 0x21, detail 4. -/
def dropTier (e : Nat) (s : State) : State :=
  let into := s.kv.moves.filter fun m => m.started && m.dest / 2 ^ 18 == e
  let s := into.foldl (fun s m => dropMove m s) s
  let s := s.kv.frames.foldl (dropCopies e) s
  let hit := s.kv.moves.filter fun m => match frameOf s m.frame with
    | some v => v.revoked && m.up
    | none => false
  let s := s.setKv fun k => { k with slabs := terase k.slabs (e * 32) (e * 32 + 32) }
  runMoves (hit.foldl (fun s m => failMove m ccRevoked 4 s) s)

/-- Something names a KV extent: a frame, a structure or a drain, each of which holds a place in a slab (R177, R401). -/
def kvNamed (s : State) (e : Nat) : Bool := s.kv.slabs.any fun b => b.1 / 32 == e && !b.2.used.isEmpty

/-- Step 4 on a T3 extent: once its last dirty block is written back its blocks are deallocated. -/
def escrowT3 (e : Nat) (s : State) : State :=
  let s := cacheFlush e s
  if cacheHolds s e then s else nvmeSend ((trayAt s (e * 2 ^ 30)).getD 0) 9 none none (e * 2 ^ 30) (2 ^ 30) s

/-- The step of escrow after the one that ends: zero at step 5, with which the extent becomes FREE (R401). -/
def escrowNext (e : Nat) (s : State) : State :=
  let x := extOf s e
  let go := fun (n : Nat) (s : State) => setExt e { extOf s e with step := n } s
  if x.step = 1 then
    if extInflight s e ≠ 0 then s else go 2 (if x.kind = 2 then dropTier e s else s)
  else if x.step = 2 then (if x.kind = 1 ∧ kvNamed s e then s else go 3 s)
  else if x.step = 3 then
    if !(extLines s e).isEmpty ∨ s.coh.txns.any fun t => t.lines.any fun l => l / 2 ^ 24 == e then s
    else go 4 (if extTier e = 3 then escrowT3 e s else s)
  else if x.step = 4 ∧ extTier e = 3 ∧ cacheHolds s e then escrowT3 e s
  else if x.step = 4 then
    let s := nvmeDrop (fun c => c.opc == 9 && (trayAt s (e * 2 ^ 30)).getD 0 == c.ns) s
    go 5 (if extTier e = 3 then s.setMem fun m => { m with written := m.written.filter fun b => b / 16384 != e } else s)
  else
    let s := setExt e {} (zeroRange (e * 2 ^ 30) ((e + 1) * 2 ^ 30) s)
    let s := s.setKv fun k => { k with slabs := terase k.slabs (e * 32) (e * 32 + 32) }
    { s with mint := { s.mint with bundles := tput 0 s.mint.bundles e 0 } }

/-- ESCROW_STEP_END: a step whose end is not reached stays. -/
def execEscrowStepEnd (ext : Nat) (s : State) : Res :=
  if (extOf s ext).st = .escrow then .next (escrowNext ext s) else .next s

/-- A write of a reader set (R395). -/
def writeReaders (set v : Nat) (s : State) : Nat × State := (0, writeObj 0x2402 (set + 1) v s)

/-- READER_SET_WRITE. -/
def execReaderSetWrite (set : Fin 16) (v : BitVec 64) (s : State) : Res :=
  .next (commanded (mirrorGate (.write 0x2402 (set.val + 1) (leBytes v.toNat 8)) (writeReaders set.val v.toNat)) s)

/-! ## Tenant commands (R380, R411, R412, R443, R445) -/

def setKeys (t : Nat) (v : Keys) (s : State) : State := { s with mint := { s.mint with keys := tput ({} : Keys) s.mint.keys t v } }

/-- Sealing is on for the tenant: b+6:05 (R438). -/
def sealOn (s : State) (t : Nat) : Bool := obj s (0x3006 + 16 * t) 5 == 1

/-- The sealed record's bytes (R438). -/
def sealBytes (t : Nat) (r : SealRec) : List Byte := slice (Config.sealWrap t r.gen r.slot0 r.slot1 r.sweep) 0 1024

/-- The address of a tenant's sealed record, where a seal extent is named (R438). -/
def sealAddr (s : State) (t : Nat) : Option Nat :=
  if obj s 0x6010 1 = 0 then none else some (obj s 0x6010 1 * 2 ^ 30 + 1024 * t)

/-- The Mint writes the sealed record of a tenant whose keys are sealed. -/
def writeSeal (t : Nat) (k : Keys) (s : State) : State :=
  match sealOn s t, sealAddr s t with
  | true, some a =>
    let r : SealRec := { gen := k.gen, slot0 := k.slot0, slot1 := k.slot1, sweep := k.sweep }
    writeWhole a (sealBytes t r) { s with mint := { s.mint with sealed := tins s.mint.sealed t r } }
  | _, _ => s

/-- Creation: ACTIVE, the mode fixed, the first key slot filled (R429, R431). -/
def createTenant (t : Nat) (conf : Bool) (s : State) : State :=
  let s := setTenant t { ({} : Tenant) with st := .active, confidential := conf } s
  let k : Keys := { ({} : Keys) with slot0 := 1 }
  setKeys t k (if conf then s else writeSeal t k s)

/-- The descriptors of a tenant that run stop at the boundary they stand at, the command being one, with 0x22 (R446). -/
def stopFlights (t : Nat) (all : Bool) (s : State) : State :=
  let mine := s.attn.flights.filter fun f => f.tenant == t
    && (all || (f.stage != .tolled && f.stage != .waiting && f.stage != .stalled))
  mine.foldl (fun s f =>
    let fresh := s.attn.cores.flatMap fun c => ((c.2.work.toList ++ c.2.queue).filter fun w => w.desc == f.id).filterMap (·.fresh)
    let s := fresh.foldl (fun s fr => freeFrame fr s) s
    let s := s.setShape fun h => { h with tolls := h.tolls.map fun k => (k.1, { k.2 with queue := k.2.queue.filter fun i => i.1 != f.id }) }
    complete f.id ccClosed 0 f.r1 f.r2 (faultDrop f.id (cancelWork f.id s))) s

/-- Step 1 of a removal, in the cycle of the command (R446). -/
def removeTenant (t : Nat) (s : State) : State :=
  let s := setTenant t { tenantOf s t with st := .removing, removeStep := 2 } s
  let own := (s.led.exts.filter fun e => e.2.owner == t && e.2.st == .granted).map (·.1)
  let s := own.foldl (fun s e => toEscrow e s) s
  let s := (List.range 16).foldl (fun s i =>
    if bitAt (obj s 0x2402 (i + 1)) t then setObj 0x2402 (i + 1) (bitSet (obj s 0x2402 (i + 1)) t false) s else s) s
  let s := s.setKv fun k => { k with ctxs := k.ctxs.map fun c =>
    (c.1, if c.2.st = .open ∧ c.2.tenant = t then { c.2 with st := .closing, hints := [] } else c.2) }
  let s := setKeys t { keysOf s t with sweep := false } s
  stopFlights t false s

/-- The tenant of a tenant command. -/
def cmdTenant (v : BitVec 16) : Nat := fld v 5 0

/-- A write of 2400:01: command 1 create, 2 remove. A creation needs a new key, and is refused while the random source fails (R414;
2400:0B then reads 1, log entry 112). -/
def tenantCommand (v : BitVec 16) (s : State) : Nat × State :=
  let op := fld v 15 14
  let conf := fld v 8 8 == 1
  let st := (tenantOf s (cmdTenant v)).st
  if (op ≠ 1 ∧ op ≠ 2) ∨ fld v 13 9 ≠ 0 ∨ fld v 7 6 ≠ 0 then (abValue, setStatus 7 s)
  else if (op = 1 ∧ st ≠ .free) ∨ (op = 2 ∧ st ≠ .active) then (abState, setStatus 1 s)
  else if op = 1 ∧ conf ∧ s.mint.debug then (abValue, setStatus 8 s)
  else if op = 1 ∧ !s.mint.healthy then (abState, setStatus 1 s)
  else (0, if op = 1 then createTenant (cmdTenant v) conf (setStatus 0 s) else removeTenant (cmdTenant v) (setStatus 0 s))

/-- TENANT_CREATE and TENANT_REMOVE: the two commands of 2400:01. -/
def execTenantCreate (v : BitVec 16) (s : State) : Res :=
  .next (commanded (mirrorGate (.write 0x2400 1 (leBytes v.toNat 2)) (tenantCommand v)) s)
def execTenantRemove (v : BitVec 16) (s : State) : Res :=
  .next (commanded (mirrorGate (.write 0x2400 1 (leBytes v.toNat 2)) (tenantCommand v)) s)

/-! ## Removal (R445 to R448) -/

/-- The removal count, b+7:04 (R445): requests and descriptors of the tenant that have not ended, and its messages that a link's
replay buffer, or its queue for a VC that is off, holds. -/
def removalCount (s : State) (t : Nat) : Nat :=
  s.links.link.foldl (fun n k => n + (k.2.owed.filter fun p => p.2 == t).length + (k.2.parked.filter fun p => p.1 == t).length)
    ((s.coh.reqs.filter fun r => r.tenant == t).length + (s.attn.flights.filter fun f => f.tenant == t).length)

/-- Step 4: the tenant's queue pairs are zeroed and DISABLED, their last-descriptor records go, and its PASIDs are unbound. -/
def disableTenant (t : Nat) (s : State) : State :=
  let mine := tenantQps s t
  let s := s.setTal fun v => { v with qpLast := v.qpLast.filter fun r => !mine.contains r.1
                                      qpDigest := v.qpDigest.filter fun r => !mine.contains r.1 }
  let s := s.setLed fun l => { l with qps := l.qps.map fun q =>
    (q.1, if q.2.tenant = t ∧ q.2.st ≠ .disabled then
        { q.2 with enable := false, st := .disabled, reason := 0, starved := false, starvedAt := none, sq := [], sqAt := []
                   rd := 0, tail := 0, sqBad := false, cq := [], reserved := 0, consumed := 0, done := [], cqBad := false
                   irqCount := 0, irqAt := none, toDisabled := false, seq := 0 }
      else q.2) }
  let busy := fun (s : State) (p : Nat) => (s.xl.invs ++ s.xl.running.toList).any fun i => i.unbind && i.pasid == p
  (s.led.binds.filter fun b => b.2.1 == t && b.1 != 0).foldl (fun s b =>
    if busy s b.1 then s
    else s.setXl fun x => { x with
      invs := x.invs ++ [{ qp := none, pasid := b.1, page := 0, pages := 0, whole := true, token := 0, unbind := true }] }) s

/-- Step 9: the objects of the tenant's block return to their defaults, its tallies, records and trace records are cleared,
its teller channel is emptied, and the tenant is FREE (R446, R656). -/
def freeTenant (t : Nat) (s : State) : State :=
  let keep := fun (k : Nat) => decide (k / 256 < 0x3000 + 16 * t ∨ 0x300F + 16 * t < k / 256)
  let s := s.setDict fun d => { d with force := d.force.filter fun q => keep q.1, waiting := d.waiting.filter fun q => keep q.1
                                       doms := d.doms.filter fun q => keep q.1 }
  let clear := fun (r : Trace) => { r with fifo := r.fifo.filter fun w => fld w 55 48 != t
                                           recs := r.recs.filter fun w => fld w.2 55 48 != t }
  let s := s.setTal fun v => { v with io0 := clear v.io0, io1 := clear v.io1 }
  let s := s.setTel fun v => { v with chan := tput ({} : Teller) v.chan t {} }
  let s := { s with mint := { s.mint with spdm := tput ({} : Spdm) s.mint.spdm t {} } }
  setTenant t {} s

/-- The end of the step a removal stands at; a step whose end is not reached stays. -/
def removalNext (t : Nat) (s : State) : State :=
  let v := tenantOf s t
  let own := s.led.exts.filter fun e => e.2.owner == t && e.2.st != .free
  let go := fun (n : Nat) (s : State) => setTenant t { tenantOf s t with removeStep := n } s
  if v.removeStep = 2 then go 3 (stopFlights t true s)
  else if v.removeStep = 3 then (if removalCount s t ≠ 0 then s else go 4 (disableTenant t s))
  else if v.removeStep = 4 then (if s.led.binds.any fun b => b.2.1 == t && b.1 != 0 then s else go 5 s)
  else if v.removeStep = 5 then
    let held := fun (s : State) (p : Nat) => (pasidOf s p).isSome
    go 6 (s.setXl fun x => { x with
      tlb0 := x.tlb0.filter fun l => held s l.pasid, tlb1 := x.tlb1.filter fun l => held s l.pasid
      walk0 := x.walk0.filter fun n => held s n.pasid, walk1 := x.walk1.filter fun n => held s n.pasid })
  else if v.removeStep = 6 then
    if own.any fun e => e.2.st != .escrow || decide (e.2.step < 5) then s
    else go 8 { s with mint := { s.mint with keys := tput ({} : Keys) s.mint.keys t {}
                                             sealed := s.mint.sealed.filter fun r => r.1 != t } }
  else if own.isEmpty ∧ !(s.kv.ctxs.any fun c => c.2.tenant == t && c.2.st != .free) then freeTenant t s else s

/-- REMOVAL_STEP_END. -/
def execRemovalStepEnd (t : Fin 64) (s : State) : Res :=
  if (tenantOf s t.val).st = .removing then .next (removalNext t.val s) else .next s

/-! ## The PASIDs of upstream CXL ports (R353, R379) -/

/-- A write of 2301: 0 is refused while the port's agent holds a line or a queue pair is bound to the port, and a confidential
tenant's PASID while the port's IDE is not required (R555). -/
def writePortPasid (port v : Nat) (s : State) : Nat × State :=
  let holds := s.coh.dir.any fun d => bitAt d.2.holders (8 + port)
  let bound := s.led.qps.any fun q => q.2.bindKind == 2 && q.2.bindPort == port && q.2.st != .disabled
  let conf : Bool := match pasidOf s v with | some b => (tenantOf s b.1).confidential | none => false
  if 0xFFFFF < v ∨ (v = 0 ∧ (holds ∨ bound)) ∨ (conf ∧ obj s 0x5201 (port + 1) = 0) then (abValue, s) else (0, waitObj 0x2301 (port + 1) v s)

/-- PORT_PASID_WRITE. -/
def execPortPasidWrite (port : Fin 4) (v : BitVec 32) (s : State) : Res :=
  .next (commanded (mirrorGate (.write 0x2301 (port.val + 1) (leBytes v.toNat 4)) (writePortPasid port.val v.toNat)) s)

end Sys2Proof.Machine
end

