-- ==== Sys2Proof/Machine/Tellers.lean ====
section
/-! DEFINITION. The tellers and the pool-manager inbox: sending, acknowledging, replying, releasing (R648 to R656). -/

namespace Sys2Proof.Machine

def chanOf (s : State) (c : Nat) : Teller := tget ({} : Teller) s.tel.chan c
def setChan (c : Nat) (v : Teller) (s : State) : State := s.setTel fun t => { t with chan := tput ({} : Teller) t.chan c v }

/-- The receivers a channel may address: 0 dictionary, 1 Mint, 2 pool manager (R648). -/
def tlAllowed (c dest : Nat) : Bool :=
  if c < 64 then decide (dest ≤ 2) else if c = 64 then decide (dest ≤ 1) else if c = 65 then dest == 1 || dest == 2
  else if c = 66 then dest == 2 else if c = 67 then dest == 0 else false

/-- The principal of a channel. -/
def chanPrin (c : Nat) : Prin :=
  if h : c < 64 then .t ⟨c, h⟩ else if c = 64 then .s else if c = 65 then .m else if c = 66 then .n else .k

/-- The return codes of TLACK. -/
def tlAccept : Nat := 0
def tlBusy : Nat := 1
def tlDenied : Nat := 2
def tlUnknown : Nat := 3
def tlStale : Nat := 4

/-- TLACK records a code, without touching the message that waits. -/
def tlRecord (c code seq : Nat) (s : State) : State :=
  setChan c { chanOf s c with ackValid := true, ackCode := code, ackSeq := seq } s

/-- A receiver acknowledges the message of a channel: full is cleared. -/
def tlClear (c code : Nat) (s : State) : State :=
  match (chanOf s c).msg with
  | none => s
  | some m => setChan c { chanOf s c with msg := none, ackValid := true, ackCode := code, ackSeq := m.seq } s

/-- A reply lands in the reply buffer, or waits for it at its receiver (R653). -/
def tlReply (c : Nat) (r : TlReply) (s : State) : State :=
  let v := chanOf s c
  if v.replyFull then setChan c { v with wait := v.wait ++ [r] } s
  else setChan c { v with rply := some r, replyFull := true } s

/-- A pending bit of the inbox rises (R655). -/
def inboxRises (s : State) : State := if s.win.inbIrq then emit (.stewardIrq s.win.inbVec) s else s

/-- A write of TLSEND (R651). -/
def tlSend (c : Nat) (v : BitVec 64) (s : State) : State :=
  let k := chanOf s c
  let seq := fld v 47 32
  let dest := fld v 23 20
  let len := fld v 12 0
  if fld v 63 48 ≠ 0 ∨ fld v 19 13 ≠ 0 ∨ 4096 < len then s
  else if k.msg.isSome ∨ k.replyFull then
    tlRecord c tlBusy seq (setChan c { k with turned := if k.replyFull then none else some (s.time.cycle, v) } s)
  else if !tlAllowed c dest ∨ (c < 64 ∧ (tenantOf s c).st ≠ .active) then tlRecord c tlDenied seq s
  else
    let bytes := (List.range len).map fun i => tget 0 k.send i
    let s := setChan c { k with msg := some { seq := seq, verb := fld v 31 24, dest := dest, bytes := bytes, at_ := s.time.cycle } } s
    if dest = 2 then inboxRises s else s

/-- An acknowledgement without a reply: a send of the same cycle that found the channel full is taken (R651). -/
def tlAck (c code : Nat) (s : State) : State :=
  let t := tlClear c code s
  match (chanOf s c).turned with
  | some (at_, v) => if at_ = s.time.cycle then tlSend c v (setChan c { chanOf t c with turned := none } t) else t
  | none => t

/-- TLSEND. -/
def execTlsend (ch : Fin 72) (v : BitVec 64) (s : State) : Res := .next (tlSend ch.val v s)

/-- A write of TLRDONE: the buffer is released, and the oldest reply that waits for it lands. -/
def tlDone (c : Nat) (v : BitVec 32) (s : State) : State :=
  let k := chanOf s c
  if fld v 0 0 = 0 ∨ !k.replyFull then s
  else match k.wait with
    | [] => setChan c { k with replyFull := false } s
    | r :: rest => setChan c { k with rply := some r, wait := rest } s

/-- TLRDONE. -/
def execTlrdone (ch : Fin 72) (v : BitVec 32) (s : State) : Res := .next (tlDone ch.val v s)

/-- The message of a channel that waits in the inbox. -/
def inboxMsg (s : State) (c : Nat) : Option TlMsg := (chanOf s c).msg.filter fun m => m.dest == 2

/-- A write of INBACK (R654, R655): a refused one is judged first. -/
def inbAck (v : BitVec 64) (s : State) : State :=
  let c := s.tel.inbSel
  let code := fld v 35 32
  let rlen := fld v 12 0
  let flags := fun (r st : Bool) (s : State) => s.setTel fun t => { t with refused := r, stale := st }
  if fld v 63 36 ≠ 0 ∨ fld v 15 13 ≠ 0 ∨ 4 ≤ code ∨ 4096 < rlen then flags true false s
  else match inboxMsg s c with
    | none => flags false true s
    | some m =>
      if m.seq ≠ fld v 31 16 then flags false true s
      else
        let s := flags false false s
        if rlen = 0 then tlAck c code s
        else tlReply c { dest := 2, seq := m.seq, verb := m.verb, bytes := (List.range rlen).map fun i => tget 0 s.tel.inbReply i } (tlClear c code s)

/-- INBACK. -/
def execInback (v : BitVec 64) (s : State) : Res := .next (inbAck v s)

/-- The oldest message for a receiver, the lower channel first among equals (R653). -/
def tlOldest (s : State) (dest : Nat) : Option (Nat × TlMsg) :=
  (s.tel.chan.filterMap fun q => (q.2.msg.filter fun m => m.dest == dest).map fun m => (q.1, m)).foldl
    (fun b q => match b with
      | none => some q
      | some p => if q.2.at_ < p.2.at_ then some q else some p) none

end Sys2Proof.Machine
end

