-- ==== Sys2Proof/Machine/Mint.lean ====
section
/-! DEFINITION. The Mint: tenant keys and their rotation, sealing, measurements, the SPDM responder, debug unlock and weight
bundles (R414, R423 to R428, R434 to R443, R449 to R457). The layout of SPDM messages is that of DSP0274 (log entry 30). -/

namespace Sys2Proof.Machine

def State.setMint (s : State) (f : Mint → Mint) : State := { s with mint := f s.mint }

/-- 6000:01 as a number. -/
def mintNum (m : MintState) : Nat := match m with | .booting => 0 | .running => 1 | .identityFail => 2 | .bootFail => 3

/-- The Mint's state changes: telemetry kind 8 and EMCY class 5 (R623, R665). -/
def mintTo (m : MintState) (s : State) : State :=
  if s.mint.st = m then s
  else
    let s := s.setMint fun k => { k with st := m }
    telemetry 8 (mintNum m) (emcyRaise 5 0x6000 1 (mintNum m) s)

/-! ## Key rotation (R434 to R437, R456, R457) -/

/-- b+7:03. -/
def keyStatus (t r : Nat) (s : State) : State := setObj (0x3007 + 16 * t) 3 r s

/-- The two slots' states after a change: the current epoch's, the other's. -/
def withSlots (k : Keys) (cur other : Nat) : Keys :=
  if k.gen % 2 = 0 then { k with slot0 := cur, slot1 := other } else { k with slot0 := other, slot1 := cur }
def otherSlot (k : Keys) : Nat := if k.gen % 2 = 0 then k.slot1 else k.slot0

/-- A tenant's extents. -/
def extsOf (s : State) (t : Nat) : List Nat := (s.led.exts.filter fun e => e.2.owner == t && e.2.st != .free).map (·.1)

/-- A frame has a lower copy. -/
def hasLower (v : Frame) : Bool := v.t2.isSome || v.t3.isSome

/-- The frames whose lower copies stand under an epoch other than the current one. -/
def oldFrames (s : State) (t : Nat) : Tbl Frame := s.kv.frames.filter fun q => q.2.tenant == t && hasLower q.2 && q.2.epoch != curEpoch s t

/-- The first line of an extent under another epoch than the current one: its base epoch stands for the lines that carry no
metadata of their own. -/
def oldLine (cur base : Nat) : Tbl Line → Nat → Nat → Option Nat
  | [], n, top => if n < top ∧ base ≠ cur then some n else none
  | (j, v) :: rest, n, top =>
    if n < j ∧ base ≠ cur then some n else if v.epoch ≠ cur then some j else oldLine cur base rest (j + 1) top

def firstOld (s : State) (t e : Nat) : Option Nat :=
  oldLine (curEpoch s t) (extOf s e).base (linesIn s (e * 2 ^ 30) ((e + 1) * 2 ^ 30)) (e * 2 ^ 24) ((e + 1) * 2 ^ 24)

/-- A unit has been rewrapped: b+7:01. -/
def unitDone (t n : Nat) (s : State) : State := bumpObj (0x3007 + 16 * t) 1 n 64 s

/-- Lines take the tenant's current epoch, data and condition unchanged; a line whose old symbols cannot be read keeps that. -/
def rewrapLines (t : Nat) (lines : List Nat) (s : State) : State :=
  lines.foldl (fun s l => setLine l { lineOf s l with epoch := curEpoch s t } s) s

/-- A written block of a direct T3 extent still stands, in part, under another epoch. -/
def blockOld (s : State) (t e b : Nat) : Bool :=
  let ls := linesIn s (b * 65536) ((b + 1) * 65536)
  (ls.any fun q => q.2.epoch != curEpoch s t) || (decide ((extOf s e).base ≠ curEpoch s t) && decide (ls.length < 1024))

def oldBlocks (s : State) (t e : Nat) : List Nat := s.mem.written.filter fun b => b / 16384 == e && blockOld s t e b

/-- A rewrap outside T1 of `n` bytes, `w` of them written to T3 at `a`: it goes while the tenant's and the device's migration tolls
cover reading and writing it and the namespace's budget covers the write, which it takes (R227, R231, R435). -/
def rewrapPays (t n w a : Nat) (s : State) : Option State :=
  let ns := (trayAt s a).getD 0
  if migrCovers s (300 + t) (2 * n) && migrCovers s 200 (2 * n) && (w == 0 || nsCovers s ns w) then
    let s := migrTake 200 (2 * n) (migrTake (300 + t) (2 * n) s)
    some (if w = 0 then s else nsTake ns w s)
  else none

/-- The background share of a controller is taken by work that comes before line rewrap (R676). -/
def shareTaken (s : State) (c : Nat) : Bool := !(tget [] s.mem.scrubQ c).isEmpty || patrolBehind s c

/-- The tenants whose sweep has lines to rewrite take turns, in ascending number (R676). -/
def rewrapTurn (s : State) (t : Nat) : Bool :=
  let ts := (s.mint.keys.filter fun k => k.2.sweep && (extsOf s k.1).any fun e =>
    (extOf s e).kind != 2 && extTier e != 3 && (firstOld s k.1 e).isSome).map (·.1)
  nextAfter s.mint.turn ts == some t

/-- One unit of an extent (R435, R436): a line of T1 or T2, or the four lines of a sector that carries a MAC; a written block of a
direct T3 extent; or, in a tier extent, one frame's lower copies. -/
def rewrapOne (t e : Nat) (s : State) : State :=
  let x := extOf s e
  if x.kind = 2 then
    match (oldFrames s t).find? fun q => copyIn1G e q.2.t2 || copyIn1G e q.2.t3 with
    | none => s
    | some q =>
      let v := q.2
      let n := (if v.t2.isSome then v.size else 0) + if v.t3.isSome then v.size else 0
      match rewrapPays t n (if v.t3.isSome then v.size else 0) (v.t3.getD 0 * 4096) s with
      | none => s
      | some s => unitDone t 1 (setFrame q.1 { v with epoch := curEpoch s t } s)
  else if extTier e = 3 then
    match oldBlocks s t e with
    | [] => s
    | b :: _ =>
      match rewrapPays t 65536 65536 (b * 65536) s with
      | none => s
      | some s => unitDone t 1 (rewrapLines t ((List.range 1024).map (b * 1024 + ·)) s)
  else
    match firstOld s t e with
    | none => s
    | some n =>
      if extTier e = 1 ∧ shareTaken s (ctlOfAddr (n * 64)) ∨ !rewrapTurn s t then s
      else
        let s := s.setMint fun m => { m with turn := t }
        unitDone t 1 (rewrapLines t (if x.mac then (List.range 4).map (n / 4 * 4 + ·) else [n]) s)

/-- REWRAP_UNIT. -/
def execRewrapUnit (t : Fin 64) (ext : Nat) (s : State) : Res :=
  if (keysOf s t.val).sweep ∧ (extOf s ext).owner = t.val ∧ (extOf s ext).st = .granted then .next (rewrapOne t.val ext s)
  else .next s

/-- The units that a sweep has still to rewrite in one extent: lines (or sectors) of T1 and T2, and the written blocks of a
direct T3 extent; the extent's base stands for the epoch of the lines that carry none of their own. -/
def unitsLeft (s : State) (t e : Nat) : Nat :=
  let x := extOf s e
  if x.kind = 2 then 0
  else if extTier e = 3 then (oldBlocks s t e).length
  else
    let own := linesIn s (e * 2 ^ 30) ((e + 1) * 2 ^ 30)
    let n := (own.filter fun q => q.2.epoch != curEpoch s t).length
      + if x.base ≠ curEpoch s t then 2 ^ 24 - own.length else 0
    if x.mac then ceilDiv n 4 else n

/-- All units of an extent stand under the current epoch. -/
def rewrapAll (t : Nat) (s : State) (e : Nat) : State :=
  let n := unitsLeft s t e
  let cur := curEpoch s t
  let lo := e * 2 ^ 24
  let hi := (e + 1) * 2 ^ 24
  let s := unitDone t n (s.setMem fun m => { m with lines := m.lines.map fun q =>
    if lo ≤ q.1 ∧ q.1 < hi then (q.1, { q.2 with epoch := cur }) else q })
  let s := setExt e { extOf s e with base := cur, rewrap := false } s
  s.setMem fun m => { m with lines := m.lines.filter fun q => !(decide (lo ≤ q.1 ∧ q.1 < hi) && q.2 == lineBase s q.1) }

/-- The sweep has rewritten every unit (R434 step 4): the old slot is destroyed and the sealed record written again; the
units left are carried out with it (log entry 31). -/
def sweepEnd (t : Nat) (s : State) : State :=
  let s := (extsOf s t).foldl (rewrapAll t) s
  let s := (oldFrames s t).foldl (fun s q => unitDone t 1 (setFrame q.1 { q.2 with epoch := curEpoch s t } s)) s
  let k := { withSlots (keysOf s t) 1 0 with sweep := false }
  writeSeal t k (setKeys t k s)

/-- SWEEP_COMPLETE. -/
def execSweepComplete (t : Fin 64) (s : State) : Res :=
  if (keysOf s t.val).sweep then .next (sweepEnd t.val s) else .next s

/-- A rotation is installed (R434 steps 1 to 3): the sealed record first, then the new slot, the epoch and rewrap bits. -/
def rotateNow (t : Nat) (s : State) : State :=
  let k := keysOf s t
  let k := { withSlots { k with gen := (k.gen + 1) % 2 ^ 32 } 1 2 with sweep := true }
  let s := setKeys t k (writeSeal t k s)
  let s := (extsOf s t).foldl (fun s e => setExt e { extOf s e with epoch := curEpoch s t, rewrap := true } s) s
  if (extsOf s t).isEmpty ∧ !(s.kv.frames.any fun q => q.2.tenant == t && hasLower q.2) then sweepEnd t s else s

/-- A write of b+6:03. -/
def writeRotate (t v : Nat) (s : State) : Nat × State :=
  if v = 0 then (0, s)
  else if (tenantOf s t).st ≠ .active then (abState, keyStatus t 2 s)
  else if otherSlot (keysOf s t) ≠ 0 then (abState, keyStatus t 1 s)
  else if !s.mint.healthy then (abState, keyStatus t 4 s) else (0, rotateNow t (keyStatus t 0 s))

/-- KEY_ROTATE. -/
def execKeyRotate (p : Prin) (t : Fin 64) (s : State) : Res :=
  .next (objCmd p (0x3006 + 16 * t.val) 3 (mirrorGate (.write (0x3006 + 16 * t.val) 3 [1]) (writeRotate t.val 1)) s)

/-- A write of b+6:04 (R437). -/
def writeRetire (t v : Nat) (s : State) : Nat × State :=
  if v = 0 then (0, s)
  else if otherSlot (keysOf s t) ≠ 2 then (abState, keyStatus t 3 s)
  else
    let k := { withSlots (keysOf s t) 1 0 with sweep := false }
    let s := (extsOf s t).foldl (fun s e => setExt e { extOf s e with rewrap := false } s) s
    (0, writeSeal t k (setKeys t k (keyStatus t 0 s)))

/-- RETIRE_OLD_EPOCH. -/
def execRetireOldEpoch (p : Prin) (t : Fin 64) (s : State) : Res :=
  .next (objCmd p (0x3006 + 16 * t.val) 4 (mirrorGate (.write (0x3006 + 16 * t.val) 4 [1]) (writeRetire t.val 1)) s)

/-- A write of b+6:05 (R438): refused for a confidential tenant. -/
def writeSealing (t : Nat) (v : Bool) (s : State) : Nat × State :=
  if v && (tenantOf s t).confidential then (abState, keyStatus t 5 s)
  else (0, writeObj (0x3006 + 16 * t) 5 (if v then 1 else 0) (keyStatus t 0 s))

/-- SEAL_KEYS_WRITE. -/
def execSealKeysWrite (t : Fin 64) (v : Bool) (s : State) : Res := .next (commanded (writeSealing t.val v) s)

/-- A write of 6010:01 (R438, R457): an extent of kind 5 in T1 wholly below k × 96 GiB, or 0 for none; not while any tenant
is sealed. -/
def writeSealExtent (e : Nat) (s : State) : Nat × State :=
  let ok := e = 0 ∨ ((extOf s e).kind = 5 ∧ (extOf s e).st = .granted ∧ extTier e = 1 ∧ e + 1 ≤ obj s 0x4030 2 * 96)
  if !ok ∨ ((List.range 64).any fun t => sealOn s t) then (abValue, s) else (0, writeObj 0x6010 1 e s)

/-- RANDOM_SOURCE_HEALTH_FAIL and RANDOM_SOURCE_HEALTHY (R414). -/
def execRandomSourceHealthFail (s : State) : Res := .next (s.setMint fun m => { m with healthy := false })
def execRandomSourceHealthy (s : State) : Res := .next (s.setMint fun m => { m with healthy := true })

/-! ## Measurements (R423) -/

def measure (s : State) (i : Nat) : BitVec 384 := tget 0 s.mint.regs (i - 1)
def digestBytes (d : BitVec 384) : List Byte := leBytes d.toNat 48

/-- An extend of a measurement register, which the log keeps. -/
def mExtend (i : Nat) (d : BitVec 384) (s : State) : State :=
  s.setMint fun m => { m with regs := tput 0 m.regs (i - 1) (Config.sha384 (digestBytes (tget 0 m.regs (i - 1)) ++ digestBytes d))
                              log := m.log ++ [(i, digestBytes d)] }

/-- M1 to M5, the salt of the alias keys (R418). -/
def aliasSalt (s : State) : List Byte := (List.range 5).flatMap fun i => digestBytes (measure s (i + 1))

/-! ## The SPDM responder (R425 to R428) -/

def spdmOf (s : State) (p : Nat) : Spdm := tget ({} : Spdm) s.mint.spdm p
def setSpdm (p : Nat) (v : Spdm) (s : State) : State := s.setMint fun m => { m with spdm := tput ({} : Spdm) m.spdm p v }

/-- An ERROR response. -/
def spdmErr (ver code : Nat) : List Byte := leBytes (if ver = 0 then 0x10 else ver) 1 ++ [0x7F] ++ leBytes code 1 ++ [0]

def byteAt (bs : List Byte) (i : Nat) : Nat := (bs.getD i 0).toNat
def le16 (bs : List Byte) (i : Nat) : Nat := leNat (slice bs i 2)

/-- A response's header. -/
def spdmHead (v code p1 p2 : Nat) : List Byte := leBytes v 1 ++ leBytes code 1 ++ leBytes p1 1 ++ leBytes p2 1

/-- A certificate slot exists. -/
def slotOk (n : Nat) : Bool := decide (n < 2)

/-- The signature of a slot's Ed25519 key. -/
def edSign (s : State) (slot : Nat) (msg : List Byte) : List Byte := slice (Config.sign 0 slot (aliasSalt s) msg) 0 64

/-- The capabilities of R426: CERT, CHAL, MEAS with signature, ENCRYPT, MAC, KEY_EX, HBEAT, KEY_UPD, CHUNK. -/
def spdmCaps : Nat := 2 ^ 1 + 2 ^ 2 + 2 * 2 ^ 3 + 2 ^ 6 + 2 ^ 7 + 2 ^ 9 + 2 ^ 13 + 2 ^ 14 + 2 ^ 17

/-- The algorithms of R426: SHA-384, Ed25519, secp384r1, AES-256-GCM. -/
def spdmAlgs : List Byte :=
  leBytes 48 2 ++ [1, 0] ++ leBytes 4 4 ++ leBytes 1024 4 ++ leBytes 2 4 ++ List.replicate 12 0 ++ [0, 0, 0, 0]
    ++ [2, 0x20] ++ leBytes 16 2 ++ [3, 0x20] ++ leBytes 2 2 ++ [5, 0x20] ++ leBytes 1 2

/-- The measurement summary hash, where it is asked for. -/
def measHash (s : State) (kind : Nat) : List Byte :=
  if kind = 0 then [] else digestBytes (Config.sha384 ((List.range 8).flatMap fun i => digestBytes (measure s (i + 1))))

/-- One measurement block; its value type is free. -/
def measBlock (s : State) (i : Nat) : List Byte :=
  leBytes i 1 ++ [1] ++ leBytes 51 2 ++ leBytes (freeAt s i) 1 ++ leBytes 48 2 ++ digestBytes (measure s i)

/-- The tenant report (R428). -/
def tenantReport (s : State) (t : Nat) : List Byte :=
  let v := tenantOf s t
  let k := keysOf s t
  let held := fun (kind : Nat) => (s.led.exts.filter fun e => e.2.kind == kind && e.2.owner == t && e.2.st == .granted).length
  let seen := s.led.exts.filter fun e => e.2.sealed && extHeld s e.2 t && (!e.2.sealConf || v.confidential)
  leBytes t 1 ++ [if v.st = .active then 1 else if v.st = .removing then 2 else 0] ++ [if v.confidential then 1 else 0]
    ++ leBytes k.gen 4 ++ leBytes (k.slot0 + 4 * k.slot1) 1 ++ [if s.mint.debug then 1 else 0]
    ++ leBytes (held 1) 4 ++ leBytes (held 2) 4 ++ leBytes (held 3) 4
    ++ leBytes (s.led.exts.filter fun e => e.2.kind == 4 && e.2.st == .granted && extHeld s e.2 t).length 4
    ++ seen.flatMap fun e => leBytes (tget 0 s.mint.bundles e.1 - 1) 8

/-- The vendor code and slot of a vendor-defined request to Kazinmar's identifier; none for another's (R427). -/
def vendorReq (s : State) (req : List Byte) : Option (Nat × Nat) :=
  let n := byteAt req 6
  if leNat (slice req 7 n) = obj s 0x1018 1 then some (byteAt req (9 + n), byteAt req (10 + n)) else none

/-- A vendor-defined response. -/
def vendorRsp (s : State) (v : Nat) (req : List Byte) (code : Nat) (body : List Byte) : List Byte :=
  spdmHead v 0x7E 0 0 ++ slice req 4 2 ++ [4] ++ leBytes (obj s 0x1018 1) 4 ++ leBytes (body.length + 1) 2 ++ leBytes code 1 ++ body

/-- Answer one request, in the order in which the connection stands; `sec` says that it came inside the session. -/
def spdmAnswer (p : Nat) (sec : Bool) (req : List Byte) (s : State) : List Byte × State :=
  let k := spdmOf s p
  let code := byteAt req 1
  let p1 := byteAt req 2
  let p2 := byteAt req 3
  let unexpected := (spdmErr k.ver 0x04, s)
  let invalid := (spdmErr k.ver 0x01, s)
  let nonce := leBytes (freeAt s 0) 32
  if code = 0x84 then
    let r := spdmHead 0x10 0x04 0 0 ++ [0, 2] ++ leBytes 0x1200 2 ++ leBytes 0x1300 2
    (r, setSpdm p { ({} : Spdm) with phase := 1, trA := req ++ r } s)
  else if code = 0xE1 then
    if k.phase = 0 ∨ 1 < k.phase then unexpected
    else if byteAt req 0 ≠ 0x12 ∧ byteAt req 0 ≠ 0x13 then (spdmErr 0x10 0x41, s)
    else
      let r := spdmHead (byteAt req 0) 0x61 0 0 ++ [0] ++ leBytes (freeAt s 0) 1 ++ [0, 0] ++ leBytes spdmCaps 4 ++ leBytes 4096 4
        ++ leBytes (freeAt s 1) 4
      (r, freeStep 2 (setSpdm p { k with ver := byteAt req 0, phase := 2, trA := k.trA ++ req ++ r } s))
  else if byteAt req 0 ≠ k.ver then (if k.phase < 2 then unexpected else (spdmErr k.ver 0x41, s))
  else if code = 0xE3 then
    if k.phase ≠ 2 then unexpected
    else
      let r := spdmHead k.ver 0x63 3 0 ++ spdmAlgs
      (r, setSpdm p { k with phase := 3, trA := k.trA ++ req ++ r } s)
  else if k.phase ≠ 3 then unexpected
  else match code with
    | 0x81 =>
      let r := spdmHead k.ver 0x01 3 3 ++ ([0, 1].flatMap fun n => digestBytes (Config.sha384 (Config.certChain 0 n (aliasSalt s))))
      (r, setSpdm p { k with trB := k.trB ++ req ++ r } s)
    | 0x82 =>
      if !slotOk (p1 % 16) then invalid
      else
        let c := Config.certChain 0 (p1 % 16) (aliasSalt s)
        let o := le16 req 4
        if c.length < o then invalid
        else
          let n := min (le16 req 6) (c.length - o)
          let r := spdmHead k.ver 0x02 (p1 % 16) 0 ++ leBytes n 2 ++ leBytes (c.length - o - n) 2 ++ slice c o n
          (r, setSpdm p { k with trB := k.trB ++ req ++ r } s)
    | 0x83 =>
      if !slotOk (p1 % 16) then invalid
      else
        let n := p1 % 16
        let r := spdmHead k.ver 0x03 n (2 ^ n) ++ digestBytes (Config.sha384 (Config.certChain 0 n (aliasSalt s))) ++ nonce
          ++ measHash s p2 ++ [0, 0] ++ (if k.ver = 0x13 then slice req 36 8 else [])
        let m := k.trA ++ k.trB ++ req ++ r
        (r ++ edSign s n m, freeStep 1 (setSpdm p { k with trB := [], signed := some (n, m) } s))
    | 0xE0 =>
      let is := if p2 = 0 then [] else if p2 = 0xFF then (List.range 8).map (· + 1) else [p2]
      let signed := p1 % 2 = 1
      let n := if signed then byteAt req 36 % 16 else 0
      if !slotOk n ∨ (p2 ≠ 0 ∧ p2 ≠ 0xFF ∧ 8 < p2) then invalid
      else
        let bl := is.flatMap fun i => measBlock s i
        let r := spdmHead k.ver 0x60 (if p2 = 0 then 8 else 0) n ++ leBytes is.length 1 ++ leBytes bl.length 3 ++ bl
          ++ leBytes (freeAt s 0) 32 ++ [0, 0] ++ (if k.ver = 0x13 then slice req (if signed then 37 else 4) 8 else [])
        let tl := k.trL ++ req ++ r
        let m := k.trA ++ tl
        let s := freeStep 9 s
        if signed then (r ++ edSign s n m, setSpdm p { k with trL := [], signed := some (n, m) } s)
        else (r, setSpdm p { k with trL := tl } s)
    | 0xE4 =>
      if !slotOk p2 then invalid
      else if !s.mint.healthy then (spdmErr k.ver 0x05, s)
      else if sec then unexpected
      else
        let sid := le16 req 4 + freeAt s 1 % 65536 * 65536
        let share := slice (Config.kexShare (req ++ nonce)) 0 96
        let r := spdmHead k.ver 0x64 (freeAt s 2 % 256) 0 ++ leBytes (sid / 65536) 2 ++ [0, 0] ++ nonce ++ share ++ measHash s p1 ++ [0, 0]
        let th := k.trA ++ digestBytes (Config.sha384 (Config.certChain 0 p2 (aliasSalt s))) ++ req ++ r
        let sg := edSign s p2 th
        (r ++ sg ++ slice (Config.sessionMac (th ++ sg) []) 0 48,
         freeStep 3 (setSpdm p { k with signed := some (p2, th)
                                        session := some { sid := sid, up := false, th := th ++ sg, updates := 0, beat := freeAt s 2 % 256
                                                          last := s.time.cycle } } s))
    | 0xE5 =>
      match k.session with
      | none => unexpected
      | some e =>
        if !sec ∨ e.up then unexpected
        else if slice req 4 48 ≠ slice (Config.sessionMac e.th req) 0 48 then (spdmErr k.ver 0x06, setSpdm p { k with session := none } s)
        else (spdmHead k.ver 0x65 0 0, setSpdm p { k with session := some { e with up := true, th := e.th ++ req, last := s.time.cycle } } s)
    | 0xE8 =>
      match k.session with
      | none => unexpected
      | some e => if sec ∧ e.up then (spdmHead k.ver 0x68 0 0, setSpdm p { k with session := some { e with last := s.time.cycle } } s)
        else unexpected
    | 0xE9 =>
      match k.session with
      | none => unexpected
      | some e =>
        if !sec ∨ !e.up then unexpected
        else if p1 = 0 ∨ 3 < p1 then invalid
        else (spdmHead k.ver 0x69 p1 p2, setSpdm p { k with session := some { e with updates := e.updates + (if p1 < 3 then 1 else 0) } } s)
    | 0xEC => if sec then (spdmHead k.ver 0x6C 0 0, setSpdm p { k with session := none } s) else unexpected
    | 0x86 =>
      match k.chunk with
      | none => unexpected
      | some (bs, i) =>
        if le16 req 4 ≠ i then invalid
        else
          let n := min bs.length (if i = 0 then 4080 else 4084)
          let last := bs.length ≤ n
          (spdmHead k.ver 0x06 (if last then 1 else 0) p2 ++ leBytes i 2 ++ [0, 0] ++ leBytes n 4
            ++ (if i = 0 then leBytes bs.length 4 else []) ++ bs.take n,
           setSpdm p { k with chunk := if last then none else some (bs.drop n, i + 1) } s)
    | 0xFE =>
      match vendorReq s req with
      | none => (spdmErr k.ver 0x07, s)
      | some (1, n) => if slotOk n then (vendorRsp s k.ver req 1 (Config.certChain 1 n (aliasSalt s)), s) else invalid
      | some (2, _) =>
        match k.signed with
        | none => unexpected
        | some (n, m) => (vendorRsp s k.ver req 2 (slice (Config.sign 1 n (aliasSalt s) m) 0 3309), s)
      | some (3, _) =>
        if sec ∧ p < 64 ∧ ((k.session.map (·.up)) == some true) then (vendorRsp s k.ver req 3 (tenantReport s p), s) else unexpected
      | some (4, _) =>
        (vendorRsp s k.ver req 4 (Config.bundleKeys ++ slice (Config.sign 0 0 [] Config.bundleKeys) 0 64
          ++ slice (Config.sign 1 0 [] Config.bundleKeys) 0 3309), s)
      | some _ => (spdmErr k.ver 0x07, s)
    | _ => (spdmErr k.ver 0x07, s)

/-- A response longer than the 4,096 bytes of a transfer is kept for CHUNK_GET (R653). -/
def spdmBound (p : Nat) (r : List Byte × State) : List Byte × State :=
  let k := spdmOf r.2 p
  if r.1.length ≤ 4096 then r
  else (spdmErr k.ver 0x0F ++ [0], setSpdm p { k with chunk := some (r.1, 0) } r.2)

/-- The plain request inside a message in MCTP form: type 5 SPDM, type 6 a secured message of the path's session. -/
def spdmPlain (s : State) (p : Nat) (bs : List Byte) : Option (Bool × List Byte) :=
  match bs with
  | [] => none
  | t :: rest =>
    if t = 5 then some (false, rest)
    else if t = 6 then match (spdmOf s p).session with
      | none => none
      | some e =>
        if leNat (slice rest 0 4) ≠ e.sid then none
        else (Config.sessionOpen e.th e.updates (rest.drop 4)).map fun m => (true, m.drop 1)
    else none

/-- Answer a message in MCTP form; what cannot be read gets DecryptError, or no answer where it is no SPDM message. -/
def spdmMsg (p : Nat) (bs : List Byte) (s : State) : Option (List Byte) × State :=
  match spdmPlain s p bs with
  | none => (if byteAt bs 0 = 6 then some ([5] ++ spdmErr (spdmOf s p).ver 0x06) else none, s)
  | some (sec, req) =>
    let (r, t) := spdmBound p (spdmAnswer p sec req s)
    if sec then
      let e := (spdmOf s p).session
      let sid := (e.map (·.sid)).getD 0
      (some ([6] ++ leBytes sid 4 ++ Config.sessionWrap ((e.map (·.th)).getD []) ((e.map (·.updates)).getD 0) ([5] ++ r)), t)
    else (some ([5] ++ r), t)

/-- The request code of a message, with a vendor request's own code above bit 8. -/
def spdmCode (s : State) (p : Nat) (bs : List Byte) : Nat :=
  match spdmPlain s p bs with
  | none => 0
  | some (_, req) => if byteAt req 1 = 0xFE then 0xFE + 256 * (((vendorReq s req).map (·.1)).getD 0) else byteAt req 1

/-! ## Verbs (R454) -/

/-- The message of a channel that waits for the Mint, which runs. -/
def mintMsg (s : State) (c : Nat) : Option TlMsg := if s.mint.st = .running then (chanOf s c).msg.filter fun m => m.dest == 1 else none

/-- An earlier verb of the sender is still running. -/
def mintBusy (s : State) (c : Nat) : Bool := c == 64 && s.mint.import_.isSome

/-- The responder's path: a teller channel, or MCTP over I3C. -/
def spdmPath (ch : Option (Fin 72)) : Nat := match ch with | some c => c.val | none => 100

/-- The Mint takes an SPDM message of a request code that `want` admits, and answers on the path it came by. -/
def spdmTake (ch : Option (Fin 72)) (bytes : List Byte) (want : Nat → Bool) (s : State) : State :=
  let p := spdmPath ch
  match ch with
  | none =>
    if s.mint.st ≠ .running ∨ !want (spdmCode s p bytes) then s
    else match spdmMsg p bytes s with
      | (some r, s) => emit (.mctp r) s
      | (none, s) => s
  | some c =>
    match mintMsg s c.val with
    | none => s
    | some m =>
      if m.verb ≠ 1 ∨ !want (spdmCode s p m.bytes) then s
      else if 66 ≤ c.val then tlAck c.val tlDenied s
      else if mintBusy s c.val then tlAck c.val tlBusy s
      else match spdmMsg p m.bytes (tlAck c.val tlAccept s) with
        | (some r, s) => tlReply c.val { dest := 1, seq := m.seq, verb := m.verb, bytes := r } s
        | (none, s) => s

/-- SPDM: any message of the verb. The rows after it are the requests of R426 and R427, each of its own code. -/
def execSpdm (ch : Option (Fin 72)) (bytes : List Byte) (s : State) : Res := .next (spdmTake ch bytes (fun _ => true) s)
def execGetVersion (ch : Option (Fin 72)) (bytes : List Byte) (s : State) : Res := .next (spdmTake ch bytes (· == 0x84) s)
def execGetCapabilities (ch : Option (Fin 72)) (bytes : List Byte) (s : State) : Res := .next (spdmTake ch bytes (· == 0xE1) s)
def execNegotiateAlgorithms (ch : Option (Fin 72)) (bytes : List Byte) (s : State) : Res := .next (spdmTake ch bytes (· == 0xE3) s)
def execGetDigests (ch : Option (Fin 72)) (bytes : List Byte) (s : State) : Res := .next (spdmTake ch bytes (· == 0x81) s)
def execGetCertificate (ch : Option (Fin 72)) (bytes : List Byte) (s : State) : Res := .next (spdmTake ch bytes (· == 0x82) s)
def execChallenge (ch : Option (Fin 72)) (bytes : List Byte) (s : State) : Res := .next (spdmTake ch bytes (· == 0x83) s)
def execGetMeasurements (ch : Option (Fin 72)) (bytes : List Byte) (s : State) : Res := .next (spdmTake ch bytes (· == 0xE0) s)
def execKeyExchange (ch : Option (Fin 72)) (bytes : List Byte) (s : State) : Res := .next (spdmTake ch bytes (· == 0xE4) s)
def execFinish (ch : Option (Fin 72)) (bytes : List Byte) (s : State) : Res := .next (spdmTake ch bytes (· == 0xE5) s)
def execHeartbeat (ch : Option (Fin 72)) (bytes : List Byte) (s : State) : Res := .next (spdmTake ch bytes (· == 0xE8) s)
def execKeyUpdate (ch : Option (Fin 72)) (bytes : List Byte) (s : State) : Res := .next (spdmTake ch bytes (· == 0xE9) s)
def execEndSession (ch : Option (Fin 72)) (bytes : List Byte) (s : State) : Res := .next (spdmTake ch bytes (· == 0xEC) s)
def execChunkGet (ch : Option (Fin 72)) (bytes : List Byte) (s : State) : Res := .next (spdmTake ch bytes (· == 0x86) s)
def execPqCerts (ch : Option (Fin 72)) (bytes : List Byte) (s : State) : Res := .next (spdmTake ch bytes (· == 0x1FE) s)
def execPqSig (ch : Option (Fin 72)) (bytes : List Byte) (s : State) : Res := .next (spdmTake ch bytes (· == 0x2FE) s)
def execTenantReport (ch : Option (Fin 72)) (bytes : List Byte) (s : State) : Res := .next (spdmTake ch bytes (· == 0x3FE) s)
def execBundleKeys (ch : Option (Fin 72)) (bytes : List Byte) (s : State) : Res := .next (spdmTake ch bytes (· == 0x4FE) s)

/-- A verb other than SPDM: refused to a sender it does not name, answered BUSY while one of the sender's runs, else run. -/
def verbTake (c verb : Nat) (sender : Nat → Bool) (run : TlMsg → State → State) (s : State) : State :=
  match mintMsg s c with
  | none => s
  | some m =>
    if m.verb ≠ verb then s
    else if !sender c then tlAck c tlDenied s
    else if mintBusy s c then tlAck c tlBusy s else run m s

/-- EXTEND: 48 bytes into M6; a payload of another length is denied. -/
def execExtend (ch : Fin 72) (s : State) : Res :=
  .next (verbTake ch.val 2 (· == 64) (fun m s =>
    if m.bytes.length = 48 then mExtend 6 (BitVec.ofNat 384 (leNat m.bytes)) (tlAck ch.val tlAccept s) else tlAck ch.val tlDenied s) s)

/-- DEBUG_UNLOCK (R442). -/
def execDebugUnlock (ch : Fin 72) (s : State) : Res :=
  .next (verbTake ch.val 4 (fun c => c == 64 || c == 65) (fun _ s =>
    let tok := objDom s 0x6020 3
    if obj s 0x6020 4 = 0 ∨ (s.led.tens.any fun t => t.2.confidential && t.2.st != .free) ∨ Config.tokenDevId tok ≠ Config.devId
        ∨ !Config.tokenSigned tok then tlAck ch.val tlDenied s
    else if Config.tokenNonce tok ≠ s.mint.nonce then tlAck ch.val tlStale s
    else
      let s := tlAck ch.val tlAccept s
      mExtend 7 (Config.sha384 [1]) (freeStep 1 (s.setMint fun m => { m with debug := true, nonce := freeAt s 0 % 2 ^ 256 }))) s)

/-- UNKNOWN_VERB. -/
def execUnknownVerb (ch : Fin 72) (s : State) : Res :=
  match mintMsg s ch.val with
  | none => .next s
  | some m => if 1 ≤ m.verb ∧ m.verb ≤ 4 then .next s else .next (tlAck ch.val tlUnknown s)

/-! ## Weight bundles (R449 to R453) -/

/-- Bytes of a manifest of `n` device entries. -/
def manifestLen (n : Nat) : Nat := 72 + 1208 * n + 64 + 3309

/-- The device entry of a manifest that carries this device's DevID digest. -/
def manifestEntry (m : List Byte) : Nat → Option (List Byte)
  | 0 => none
  | k + 1 =>
    match manifestEntry m k with
    | some e => some e
    | none =>
      let e := slice m (72 + 1208 * k) 1208
      if slice e 0 48 = digestBytes Config.devId then some e else none

/-- Plaintext bytes of a ciphertext of `n` bytes: a 16-byte tag after each chunk of 64 KiB (R451). -/
def plainLen (n : Nat) : Nat := n - 16 * ceilDiv n 65552

/-- The publisher digests of 6030:01. -/
def trusted (s : State) (d : List Byte) : Bool :=
  let b := objDom s 0x6030 1
  (List.range (b.length / 48)).any fun i => slice b (48 * i) 48 == d

/-- The destination extents can take a bundle (check 6). -/
def importFits (s : State) (first count len : Nat) : Bool :=
  decide (0 < count ∧ len ≤ count * 2 ^ 30) && (List.range count).all fun i =>
    let e := extOf s (first + i)
    e.st == .granted && e.kind == 4 && (extTier (first + i) == 1 || extTier (first + i) == 2)

/-- The bytes of a range of the pool manager's own memory. -/
def ownRead (s : State) (a n : Nat) : Option (List Byte) :=
  if memCheck s 0 a false = 0 ∧ memCheck s 0 (a + n - 1) false = 0 ∧ memCode s a n = 0 then some (mread s.mem.bytes a n) else none

/-- The checks of R452 in their order: the code of the first that fails, or the import. -/
def importCheck (s : State) (man cipher first count : Nat) : Nat × Option Import :=
  match ownRead s man 72 with
  | none => (2, none)
  | some h =>
    let n := leNat (slice h 22 2)
    match (if 1 ≤ n ∧ n ≤ 64 then ownRead s man (manifestLen n) else none) with
    | none => (2, none)
    | some m =>
      let len := leNat (slice h 8 8)
      if !Config.manifestOk m then (2, none)
      else if !trusted s (slice m 24 48) then (3, none)
      else match manifestEntry m n with
        | none => (4, none)
        | some e =>
          if obj s 0x6000 4 < leNat (slice m 16 4) then (5, none)
          else if !importFits s first count (plainLen len) then (6, none)
          else match Config.contentKey (slice m 0 8 ++ e) with
            | none => (8, none)
            | some k => (1, some { first := first, count := count, ident := leNat (slice m 0 8), len := len, flags := leNat (slice m 20 2)
                                   digest := Config.sha384 m, cipher := cipher, key := k, seq := 0 })

/-- The destination extents of an import. -/
def importExts (i : Import) : List Nat := (List.range i.count).map (i.first + ·)

/-- BUNDLE_IMPORT: four 8-byte operands in the order of R454 (log entry 32); 6030:02 reads 1 while the import runs. -/
def execBundleImport (ch : Fin 72) (s : State) : Res :=
  .next (verbTake ch.val 3 (· == 64) (fun m s =>
    let w := fun i => leNat (slice m.bytes (8 * i) 8)
    if m.bytes.length ≠ 32 then tlAck ch.val tlDenied s
    else
      let s := tlAck ch.val tlAccept s
      let (code, imp) := importCheck s (w 0) (w 1) (w 2) (w 3)
      let s := setObj 0x6030 2 code s
      match imp with
      | none => tlReply ch.val { dest := 1, seq := m.seq, verb := 3, bytes := leBytes code 1 } s
      | some i =>
        let s := (importExts i).foldl (fun s e => setExt e { extOf s e with sealed := true, sealConf := i.flags % 2 == 1 } s) s
        s.setMint fun k => { k with import_ := some { i with seq := m.seq }
                                    bundles := (importExts i).foldl (fun t e => tput 0 t e (i.ident + 1)) k.bundles }) s)

/-- BUNDLE_IMPORT_END (R452): the last chunk is written, or a tag failed: zeroized, and still sealed. -/
def execBundleImportEnd (ok : Bool) (s : State) : Res :=
  match s.mint.import_ with
  | none => .next s
  | some i =>
    let s := s.setMint fun k => { k with import_ := none }
    let zero := fun (s : State) => zeroRange (i.first * 2 ^ 30) ((i.first + i.count) * 2 ^ 30) s
    let done := fun (code : Nat) (s : State) =>
      tlReply 64 { dest := 1, seq := i.seq, verb := 3, bytes := leBytes code 1 } (setObj 0x6030 2 code s)
    match (if ok then ownRead s i.cipher i.len else none) with
    | some c =>
      let plain := slice (Config.bundlePlain i.key i.ident c) 0 (plainLen i.len)
      let s := (zero s).setMem fun m => { m with bytes := mwrite m.bytes (i.first * 2 ^ 30) plain }
      .next (mExtend 8 i.digest (done 0 s))
    | none => .next (done 7 (zero s))

end Sys2Proof.Machine
end

