-- ==== Sys2Proof/Machine/Links.lean ====
section
/-! DEFINITION. KAF links: training, flits and replay, retraining and link down, keys, link-channel messages, malformed
messages (R458 to R490). -/

namespace Sys2Proof.Machine

/-! ## Widths and rates (R459, R461, R462) -/

/-- The widest lane group that passes, of at most `top`: the width's code and its lowest lane; the lower group first. -/
def linkWidth (l lanes top : Nat) : Nat × Nat :=
  let has := fun (m : Nat) => lanes % 256 &&& m == m
  if l < 12 ∧ 3 ≤ top ∧ has 0xFF then (3, 0)
  else if 2 ≤ top ∧ has 0x0F then (2, 0)
  else if l < 12 ∧ 2 ≤ top ∧ has 0xF0 then (2, 4)
  else if 1 ≤ top ∧ has 0x03 then (1, 0)
  else if 1 ≤ top ∧ has 0x0C then (1, 2)
  else if l < 12 ∧ 1 ≤ top ∧ has 0x30 then (1, 4)
  else if l < 12 ∧ 1 ≤ top ∧ has 0xC0 then (1, 6) else (0, 0)

/-- Full width of a link, and the lanes of a width code. -/
def fullWidth (l : Nat) : Nat := if l = 12 then 2 else 3
def minLanes (w : Nat) : Nat := 2 ^ w

/-- Truss cycles that `n` flit times last: 1.28 ns at KAF3 x8, doubled for each halving (R459). -/
def flitCycles (k : Link) (n : Nat) : Nat :=
  ceilDiv (n * 256 * 2 ^ (3 - k.width) * (if k.gen = 2 then 1 else 2)) 100

/-! ## States (R460, R480, R481) -/

/-- A link enters a state of R460. -/
def linkTo (l st : Nat) (s : State) : State := setLink l { linkOf s l with st := st, since := s.time.cycle } s

/-- A count of 5010: 0 bad positions, 1 tag failures, 2 selective replays, 3 go-backs, 4 duplicates, 5 retrains, 6 rekeys,
7 malformed messages, 8 to 11 off time of each VC. -/
def linkCount (l i : Nat) (s : State) : State :=
  setLink l { linkOf s l with counts := tmod 0 (linkOf s l).counts i fun n => (n + 1) % 2 ^ 64 } s

/-- Values of 5001 to 5003 that wait for the link's next training take effect (R489). -/
def linkSettings (l : Nat) (s : State) : State :=
  applyWaiting .training (fun k => decide (0x5001 ≤ k / 256 ∧ k / 256 ≤ 0x5003) && k % 256 == l + 1) s

/-- The push writes to a pier that is DOWN count as acknowledged (R481). -/
def pushesDone (l : Nat) (s : State) : State :=
  (s.attn.flights.filter fun f => f.stage == .pushing && (qpOf s f.qp).bindKind == 1 && (qpOf s f.qp).bindPort == l).foldl
    (fun s f => complete f.id 0 0 f.r1 f.r2 s) s

/-- A link enters DOWN (R481): replay and receive buffers go, the next ACTIVE begins with sequence numbers at 0; telemetry
kind 6 and EMCY class 6; a pier's agent fails. -/
def linkDown (l reason : Nat) (s : State) : State :=
  let k := linkOf s l
  if k.st = 0 then s
  else
    let s := setLink l { ({} : Link) with reason := reason, since := s.time.cycle, counts := k.counts, retrains := k.retrains
                                          rtt := k.rtt } s
    let s := telemetry 6 l (emcyRaise 6 0x5000 (l + 1) (linkStat (linkOf s l)) s)
    if l < 8 then failAgent l (pushesDone l s)
    else s.setCoh fun c => { c with reqs := c.reqs.map fun r => if r.src = l then { r with dead := true } else r }

/-- DETECT is entered, the settings that waited for it in force. -/
def linkDetect (l : Nat) (s : State) : State := linkTo l 1 (linkSettings l s)

/-- The end that opens the key exchange (R483): the VP24 on a pier, the lower index on a span port, the lead twin on the
viaduct. -/
def linkOpens (s : State) (l : Nat) : Bool :=
  if l < 8 then true
  else if l = 12 then obj s 0x8100 1 == 1
  else (List.range 16).any fun i => decide (ownIndex s < i) && memberOf s i && (routesTo s i == [l] || (objDom s 0x8000 3).getD (2 * i) 0xFF == BitVec.ofNat 8 (l - 8))

/-- T of R483. -/
def linkT (k : Link) : BitVec 384 := Config.sha384 (k.hello ++ k.reply)

/-- PRK of R485: salted with the initiator's random and the responder's. -/
def linkPrk (k : Link) : BitVec 384 :=
  Config.hkdfExtract (k.hello.take 32 ++ k.reply.take 32) (Config.linkSecret (k.hello ++ k.reply))

/-- The key (32 bytes) and the IV base (4 bytes) of a direction and a generation (R485). -/
def linkKey (k : Link) (i2r : Bool) (g : Nat) : List Byte :=
  let dir : List Byte := if i2r then [0x69, 0x32, 0x72] else [0x72, 0x32, 0x69]
  let info := dir ++ leBytes g 4 ++ digestBytes (linkT k)
  (digestBytes (Config.hkdfExpand k.prk [0x4B, 0x41, 0x46, 0x20] info)).take 32
    ++ (digestBytes (Config.hkdfExpand k.prk [0x4B, 0x41, 0x46, 0x20, 0x69, 0x76, 0x20] info)).take 4

/-- The Mint gives the link engine its keys: the sender's for its generation, the receiver's for its own and the next (R487). -/
def linkKeys (s : State) (l : Nat) (k : Link) : Link :=
  if k.encrypted then
    let i := linkOpens s l
    { k with txKey := linkKey k i k.txGen, rxKey := linkKey k (!i) k.rxGen, rxNext := linkKey k (!i) (k.rxGen + 1) }
  else k

/-- The nonce under which a flit is sealed or opened: the IV base and the 64-bit flit counter (R486). -/
def flitNonce (key : List Byte) (ctr : Nat) : List Byte := slice key 32 4 ++ leBytes ctr 8

/-- The header of a flit (R465): `slots` holds the seven slot codes, `xoff` the sender's off bits. -/
def flitHeader (seq ack slots kind req reqSeq xoff phase ctr : Nat) : BitVec 128 :=
  BitVec.ofNat 128 (seq % 4096 * 2 ^ 116 + ack % 4096 * 2 ^ 104 + slots % 2 ^ 21 * 2 ^ 83 + kind % 8 * 2 ^ 80 + req % 4 * 2 ^ 78
    + reqSeq % 4096 * 2 ^ 66 + xoff % 16 * 2 ^ 62 + phase % 2 * 2 ^ 61 + ctr % 256 * 2 ^ 53)

/-- The header slot of a message (R468); on a span port the address is PA[55:0] in bits 190 to 135. -/
def kafHeader (m : KafMsg) : BitVec 256 :=
  BitVec.ofNat 256 (m.mask % 2 ^ 64 * 2 ^ 192 + m.addr % 2 ^ 57 * 2 ^ 135 + m.pasid % 2 ^ 20 * 2 ^ 115 + m.tag % 2 ^ 16 * 2 ^ 99
    + m.fwdTag % 2 ^ 16 * 2 ^ 83 + m.fwdAgent % 16 * 2 ^ 79 + m.srcDev % 16 * 2 ^ 75 + m.code % 256 * 2 ^ 67
    + m.data.length % 8192 * 2 ^ 54 + m.delay % 2 ^ 16 * 2 ^ 38 + m.op % 256)

/-- RETRAIN is entered (R480, R487): both generations advance; too many within one second take the link down. -/
def linkRetrain (l : Nat) (raise : Bool) (s : State) : State :=
  let k := linkOf s l
  if k.st ≠ 6 then s
  else
    let rs := (k.retrains.filter fun c => decide (s.time.cycle < c + 2000000000)) ++ [s.time.cycle]
    let s := linkCount l 5 (setLink l { k with retrains := rs } s)
    if obj s 0x5004 3 < rs.length then linkDown l 6 s
    else
      let k := linkOf (linkSettings l s) l
      setLink l (linkKeys s l { k with st := 7, since := s.time.cycle, txGen := k.txGen + 1, rxGen := k.rxGen + 1, raise := raise
                                       second := false, lanes := 0, tagBad := none, rxCtr := 0 }) (linkSettings l s)

/-- A link becomes ACTIVE. -/
def linkActive (l : Nat) (s : State) : State :=
  let s := setLink l { linkOf s l with st := 6, since := s.time.cycle, txSince := s.time.cycle } s
  if l < 8 then agentTrained l s
  else if l < 12 then
    let s := if obj s 0x8100 5 = l - 8 then { s with span := { s.span with heardGuard := s.time.cycle, guardSilent := false } } else s
    sendDigest s
  else { s with span := { s.span with heardVia := s.time.cycle, viaSilent := false } }

/-- A link-channel message leaves; in SECURE the link carries nothing else (R483, R484). -/
def sendLink (l : Nat) (m : KafMsg) (s : State) : State :=
  if (linkOf s l).st = 5 ∨ linkUp s l then
    linkBuild l (kafSlots m.data.length) (linkTally true l (kafSlots m.data.length) (emit (.kaf l m) s))
  else s

/-- A message in fragments of 4,096 bytes (R484). -/
def sendFrags (l op : Nat) : Nat → Nat → List Byte → State → State
  | 0, _, _, s => s
  | k + 1, i, bs, s =>
    if bs.length ≤ 4096 then sendLink l { kafOf op with tag := i, code := 1, data := bs } s
    else sendFrags l op k (i + 1) (bs.drop 4096) (sendLink l { kafOf op with tag := i, data := bs.take 4096 } s)

/-- SECURE is entered: the opening end sends KEY_HELLO, a random and public keys that are free. -/
def linkSecure (l : Nat) (s : State) : State :=
  let s := linkTo l 5 (setLink l { linkOf s l with encrypted := true } s)
  if linkOpens s l then
    let h := leBytes (freeAt s 0) 1248
    freeStep 1 (sendLink l { kafOf 0x70 with data := h } (setLink l { linkOf s l with hello := h } s))
  else s

/-- Encryption is in force on a link: always on span ports and the viaduct, on a pier unless its 5003 is 0 (R482). -/
def linkSeals (s : State) (l : Nat) : Bool := decide (8 ≤ l) || obj s 0x5003 (l + 1) != 0

/-! ## Commands of the pier window (R488) -/

/-- LINKCTL's restart: from DOWN only. -/
def linkRestart (l : Nat) (s : State) : State := if (linkOf s l).st = 0 then linkDetect l s else s

/-- LINKCTL_RESTART, LINKCTL_RETRAIN, LINKCTL_DOWN: without effect in another state. -/
def execLinkctlRestart (l : Fin 13) (s : State) : Res := .next (linkRestart l.val s)
def execLinkctlRetrain (l : Fin 13) (s : State) : Res := .next (linkRetrain l.val true s)
def execLinkctlDown (l : Fin 13) (s : State) : Res := .next (linkDown l.val 9 s)

/-- The transmit generation advances (R487). -/
def linkRekey (l : Nat) (s : State) : State :=
  let k := linkOf s l
  linkCount l 6 (setLink l (linkKeys s l { k with txGen := k.txGen + 1, txSince := s.time.cycle }) s)

/-- LINKCTL's rekey: no more than once in 2^20 flits. -/
def linkRekeyNow (l : Nat) (s : State) : State :=
  let k := linkOf s l
  if k.st = 6 ∧ k.encrypted ∧ k.txSince + flitCycles k (2 ^ 20) ≤ s.time.cycle then linkRekey l s else s

/-- LINKCTL_REKEY. -/
def execLinkctlRekey (l : Fin 13) (s : State) : Res := .next (linkRekeyNow l.val s)

/-- REKEY_INTERVAL: the clock is carried to the last flit of the generation. -/
def execRekeyInterval (l : Fin 13) (s : State) : Res :=
  let k := linkOf s l.val
  if k.st = 6 ∧ k.encrypted then .next (linkRekey l.val (carryTo (k.txSince + flitCycles k (2 ^ obj s 0x5004 1)) s)) else .next s

/-! ## Training (R460 to R463) -/

/-- LINK_RESTART_DELAY: the clock is carried to 5004:06 ms after DOWN; 0 means only on LINKCTL. -/
def execLinkRestartDelay (l : Fin 13) (s : State) : Res :=
  let k := linkOf s l.val
  if k.st = 0 ∧ obj s 0x5004 6 ≠ 0 then .next (linkDetect l.val (carryTo (k.since + msCycles (obj s 0x5004 6)) s)) else .next s

/-- LINK_PARTNER_DETECT: at least the minimum width of lanes detect a partner. -/
def execLinkPartnerDetect (l : Fin 13) (lanes : BitVec 8) (s : State) : Res :=
  let k := linkOf s l.val
  if k.st = 1 ∧ minLanes (obj s 0x5002 (l.val + 1)) ≤ popCount lanes.toNat 8 then .next (linkTo l.val 2 s) else .next s

/-- The rate of a result: a generation doubles it, a width step too. -/
def linkRate (gen width : Nat) : Nat := if width = 0 then 0 else 2 ^ (gen + width)

/-- An equalisation ends with the lanes that pass (R461): the result to keep, as generation, width and lowest lane; none to
go on with KAF2; (0, 0, 0) where neither generation gives a result. -/
def equalized (s : State) (l : Nat) (k : Link) (gen lanes top : Nat) : Option (Nat × Nat × Nat) :=
  let low := obj s 0x5002 (l + 1)
  let (w, f) := linkWidth l lanes top
  let good := fun (g w f : Nat) => if low ≤ w ∧ w ≠ 0 then (g, w, f) else (0, 0, 0)
  if gen = 2 ∧ !k.second then (if (if l = 12 then 1 else 2) ≤ w ∧ low ≤ w then some (2, w, f) else none)
  else if !k.second then some (good gen w f)
  else
    let (w3, f3) := linkWidth l k.lanes top
    let a := good 2 w3 f3
    let b := good 1 w f
    some (if linkRate b.1 b.2.1 ≤ linkRate a.1 a.2.1 then a else b)

/-- A round trip is measured (R463): above 448 flit times the link enters DOWN. -/
def laneEnd (l rtt : Nat) (s : State) : State :=
  if 448 < rtt then linkDown l 3 s
  else
    let s := setLink l { linkOf s l with rtt := rtt } s
    if linkSeals s l then linkSecure l s else linkActive l (setLink l { linkOf s l with encrypted := false } s)

/-- RETRAIN ends (R480): the receiver enters GO_BACK. -/
def retrainEnd (l rtt g w f : Nat) (s : State) : State :=
  if 448 < rtt then linkDown l 3 s
  else
    let k := linkOf s l
    let s := setLink l { k with st := 6, since := s.time.cycle, txSince := s.time.cycle, gen := g, width := w, firstLane := f, rtt := rtt
                                second := false, lanes := 0, raise := false, rx := 2, held := [], missing := [], waited := 0 } s
    emit (.replayAsk l 2 k.e) s

/-- LINK_TRAINING_STAGE_END. -/
def execLinkTrainingStageEnd (l : Fin 13) (lanes : BitVec 8) (rtt : Nat) (ok : Bool) (s : State) : Res :=
  let k := linkOf s l.val
  let both := if ok ∧ obj s 0x5001 (l.val + 1) = 2 then 2 else 1
  if k.st = 2 then .next (linkTo l.val 3 (setLink l.val { k with gen := both, second := false } s))
  else if k.st = 3 then
    match equalized s l.val k k.gen lanes.toNat (fullWidth l.val) with
    | none => .next (setLink l.val { k with second := true, lanes := lanes.toNat } s)
    | some (0, _, _) => .next (linkDown l.val 2 s)
    | some (g, w, f) => .next (linkTo l.val 4 (setLink l.val { k with gen := g, width := w, firstLane := f, second := false, lanes := 0 } s))
  else if k.st = 4 then .next (laneEnd l.val rtt s)
  else if k.st = 7 then
    let gen := if k.raise then both else k.gen
    let top := if k.raise then fullWidth l.val else k.width
    if !k.raise ∧ !ok then .next (linkDown l.val 6 s)
    else match equalized s l.val k gen lanes.toNat top with
      | none => .next (setLink l.val { k with second := true, lanes := lanes.toNat } s)
      | some (0, _, _) => .next (linkDown l.val 6 s)
      | some (g, w, f) => .next (retrainEnd l.val rtt g w f s)
  else .next s

/-- The time limit of a state, in microseconds. -/
def stateLimit (st : Nat) : Option Nat :=
  if st = 2 then some 1000 else if st = 3 then some 20000 else if st = 4 then some 2000 else if st = 5 then some 100000
  else if st = 7 then some 2000 else none

/-- A command that ends the state a link stands in. -/
def endsStage (l : Nat) : Instr → Bool
  | .linkTrainingStageEnd i _ _ _ => i.val == l
  | .keyProof i _ => i.val == l
  | _ => false

/-- LINK_STATE_TIMEOUT: the clock is carried to the limit and the link enters DOWN, unless the state's end comes in that cycle
(R26); the reason of a SPEED or LANE that runs out is not stated, and is free. -/
def execLinkStateTimeout (l : Fin 13) (s : State) : Res :=
  let k := linkOf s l.val
  match stateLimit k.st with
  | none => .next s
  | some us =>
    let yields := arrivalWins (k.since + usCycles us) (endsStage l.val) s
    let s := carryTo (k.since + usCycles us) s
    if yields then .next s
    else if k.st = 3 then .next (linkDown l.val 2 s)
    else if k.st = 5 then .next (linkDown l.val 4 s)
    else if k.st = 7 then .next (linkDown l.val 6 s)
    else .next (freeStep 1 (linkDown l.val (freeAt s 0 % 16) s))

/-! ## Sequence numbers and replay (R476 to R479) -/

/-- The receiver's states of R478. -/
def rxInOrder : Nat := 0
def rxHolding : Nat := 1
def rxGoBack : Nat := 2

/-- GO_BACK is entered: held flits go, and a go-back request for e is sent. -/
def toGoBack (l : Nat) (k : Link) (s : State) : State :=
  emit (.replayAsk l 2 k.e) (setLink l { k with rx := rxGoBack, held := [], missing := [], waited := 0 } s)

/-- Held flits that follow in order are released. -/
def releaseHeld : Nat → Link → Link
  | 0, k => k
  | n + 1, k => if k.held.contains k.e then releaseHeld n { k with held := k.held.erase k.e, e := (k.e + 1) % 4096 } else k

/-- The expected flit is accepted. -/
def acceptFlit (k : Link) : Link :=
  let k := { k with missing := k.missing.erase k.e, e := (k.e + 1) % 4096 }
  let k := if k.rx = rxGoBack then { k with rx := rxInOrder } else releaseHeld (k.held.length + 1) k
  if k.rx = rxHolding ∧ k.missing.isEmpty then { k with rx := rxInOrder, waited := 0 } else k

/-- A good flit ahead of the expected one, up to 512 (R478). -/
def aheadFlit (l seq : Nat) (k : Link) (s : State) : State :=
  let d := (seq + 4096 - k.e) % 4096
  let new := ((List.range d).map fun i => (k.e + i) % 4096).filter fun n => !k.missing.contains n && !k.held.contains n
  let missing := (k.missing.filter fun n => n != seq) ++ new
  if obj s 0x5004 4 = 0 ∨ 8 < missing.length ∨ 512 < k.held.length + 1 then toGoBack l k s
  else
    let k := { k with rx := rxHolding, missing := missing, held := k.held ++ [seq], waited := if new.isEmpty then k.waited else 0 }
    new.foldl (fun s n => emit (.replayAsk l 1 n) s) (setLink l k s)

/-- A bad position (R478): in order it opens HOLDING, or GO_BACK where selective replay is off. -/
def badFlit (l : Nat) (k : Link) (s : State) : State :=
  if k.rx = rxInOrder then
    if obj s 0x5004 4 = 0 then toGoBack l k s
    else emit (.replayAsk l 1 k.e) (setLink l { k with rx := rxHolding, missing := [k.e], waited := 0 } s)
  else setLink l { k with waited := k.waited + 1 } s

/-- A good SEQ flit (R477). -/
def seqFlit (l seq : Nat) (s : State) : State :=
  let k := linkOf s l
  let d := (seq + 4096 - k.e) % 4096
  let k' := { k with waited := k.waited + 1, tagBad := if k.tagBad = some seq then none else k.tagBad }
  if d = 0 then setLink l (acceptFlit k') s
  else if d = 2048 then linkRetrain l false s
  else if 2049 ≤ d ∨ k.held.contains seq then linkCount l 4 (setLink l k' s)
  else if k.rx = rxGoBack then setLink l k' s
  else if d ≤ 512 then aheadFlit l seq k' s else toGoBack l k s

/-- An ack covers held flits up to `a`, and flits that wait take their place (R476). -/
def takeAck (now a : Nat) (k : Link) : Link :=
  let n := (a + 4096 - k.oldest) % 4096
  if n < linkHeld k then
    linkFill now { k with oldest := (a + 1) % 4096, ackAt := now, backs := 0, acked := k.acked + n + 1
                          owed := k.owed.filter fun p => decide (k.acked + n + 1 < p.1) }
  else k

/-- The off bits of a flit are taken; the time that each VC was off adds up, in ns (5010; log entry 113). -/
def takeOff (now xoff : Nat) (k : Link) : Link :=
  let off := (List.range 4).foldl (fun t v => if bitAt k.xoff v then tmod 0 t (8 + v) fun n => (n + (now - k.offAt) / 2) % 2 ^ 64 else t)
    k.counts
  { k with counts := off, xoff := xoff, offAt := now }

/-- A number is held by the sender. -/
def seqHeld (k : Link) (n : Nat) : Bool := decide ((n + 4096 - k.oldest) % 4096 < linkHeld k)

/-- Nothing was sent again under the key `r` within the last 5004:02 ns. -/
def resendFree (s : State) (k : Link) (r : Nat) : Bool :=
  match k.resent.find? fun q => q.1 == r with
  | none => true
  | some (_, c) => decide (c + nsCycles (obj s 0x5004 2) ≤ s.time.cycle)

/-- Go back from a held flit: it and every later one are sent again; the fourth from the same oldest flit with no ack
advancing retrains (R479, R480). -/
def goBackFrom (l n : Nat) (s : State) : State :=
  let k := linkOf s l
  let backs := if n = k.oldest then k.backs + 1 else k.backs
  let s := linkCount l 3 (setLink l { k with resent := tins k.resent (4096 + n) s.time.cycle, backs := backs, ackAt := s.time.cycle } s)
  let s := emit (.resend l n (linkHeld k - (n + 4096 - k.oldest) % 4096)) s
  if 4 ≤ backs then linkRetrain l false s else s

/-- A replay request is served (R479). -/
def serveReplay (l req n : Nat) (s : State) : State :=
  let k := linkOf s l
  if !seqHeld k n then s
  else if req = 1 ∧ resendFree s k n then
    emit (.resend l n 1) (linkCount l 2 (setLink l { k with resent := tins k.resent n s.time.cycle } s))
  else if req = 2 ∧ resendFree s k (4096 + n) then goBackFrom l n s else s

/-- FLIT_POSITION: the checks first, then ack, off bits and request, then the sequence number. The receiver's counter advances for
every position; a phase that differs is the next generation's, whose keys then become the present ones (R486, R487). A second tag
failure of one flit takes the link down (R481). -/
def execFlitPosition (l : Fin 13) (good : Bool) (tagOk : Bool) (seq : Option (BitVec 12)) (ack : BitVec 12) (xoff : BitVec 4)
    (req : BitVec 2) (reqSeq : BitVec 12) (phase : Bool) (s : State) : Res :=
  let l := l.val
  let s := if (linkOf s l).st = 5 ∨ (linkOf s l).st = 6 then setLink l { linkOf s l with rxCtr := ((linkOf s l).rxCtr + 1) % 2 ^ 64 } s else s
  let k := linkOf s l
  if k.st ≠ 5 ∧ k.st ≠ 6 then .next s
  else
    let sealed := k.encrypted && k.st == 6
    if !good then
      let s := linkCount l 0 s
      .next (badFlit l (linkOf s l) s)
    else if sealed && !tagOk then
      let n := seq.map (·.toNat)
      if n.isSome ∧ k.tagBad = n then .next (linkDown l 7 (linkCount l 1 (linkCount l 0 s)))
      else
        let s := linkCount l 1 (linkCount l 0 s)
        .next (badFlit l { linkOf s l with tagBad := if n.isSome then n else k.tagBad } s)
    else
      let k := if sealed && (phase != (k.rxGen % 2 == 1)) then linkKeys s l { k with rxGen := k.rxGen + 1, rxCtr := 1 } else k
      let k := takeOff s.time.cycle xoff.toNat (takeAck s.time.cycle ack.toNat k)
      let s := serveReplay l req.toNat reqSeq.toNat (sendParked l (setLink l k s))
      if (linkOf s l).st ≠ k.st then .next s
      else match seq with
        | none => .next (setLink l { linkOf s l with waited := (linkOf s l).waited + 1 } s)
        | some n => .next (seqFlit l n.toNat s)

/-- Positions after which a receiver's wait ends: 2R + 64 (R478). -/
def rxLimit (k : Link) : Nat := 2 * k.rtt + 64

/-- HOLDING_TIMEOUT: the clock is carried by the positions that are left. -/
def execHoldingTimeout (l : Fin 13) (s : State) : Res :=
  let k := linkOf s l.val
  if (k.st = 5 ∨ k.st = 6) ∧ k.rx = rxHolding ∧ !k.missing.isEmpty then
    .next (toGoBack l.val k (elapse (flitCycles k (rxLimit k - k.waited)) s))
  else .next s

/-- GO_BACK_RESEND_TIMEOUT: the go-back request for e is sent again. -/
def execGoBackResendTimeout (l : Fin 13) (s : State) : Res :=
  let k := linkOf s l.val
  if (k.st = 5 ∨ k.st = 6) ∧ k.rx = rxGoBack then
    let s := elapse (flitCycles k (rxLimit k - k.waited)) s
    .next (emit (.replayAsk l.val 2 k.e) (setLink l.val { k with waited := 0 } s))
  else .next s

/-- A flit position whose ack advances. -/
def bringsAck (l : Nat) (k : Link) : Instr → Bool
  | .flitPosition i good tagOk _ ack _ _ _ _ =>
    i.val == l && good && (tagOk || !k.encrypted || k.st == 5) && decide ((ack.toNat + 4096 - k.oldest) % 4096 < linkHeld k)
  | _ => false

/-- REPLAY_TIMEOUT: the clock is carried to 5004:02 ns after the last advance; a timer that expires in the cycle an ack advances does
not fire (R479). -/
def execReplayTimeout (l : Fin 13) (s : State) : Res :=
  let k := linkOf s l.val
  let due := k.ackAt + nsCycles (obj s 0x5004 2)
  if (k.st = 5 ∨ k.st = 6) ∧ linkHeld k ≠ 0 then
    if arrivalWins due (bringsAck l.val k) s then .next (carryTo due s)
    else .next (goBackFrom l.val k.oldest (carryTo due s))
  else .next s

/-- LINK_RETRAIN_TRIGGER (R480): loss of block lock, or a counter that is not the one expected. -/
def execLinkRetrainTrigger (l : Fin 13) (s : State) : Res := .next (linkRetrain l.val false s)

/-- LINK_DOWN (R481). -/
def execLinkDown (l : Fin 13) (reason : BitVec 4) (s : State) : Res := .next (linkDown l.val reason.toNat s)

/-! ## Link-channel messages (R483, R484) -/

/-- A fragment joins the message so far: the whole message, nothing yet, or a fragment out of order. -/
inductive Frag where
  | whole (bytes : List Byte)
  | more
  | bad
  deriving DecidableEq, Repr

/-- Join a fragment (R484): tags count from 0, every fragment but the last carries 4,096 bytes, at most 16. -/
def joinFrag (l op : Nat) (m : KafMsg) (s : State) : Frag × State :=
  let k := linkOf s l
  let (n, bs) := match k.frag with
    | some (o, n, bs) => if o = op then (n, bs) else (17, [])
    | none => (0, [])
  let last := m.code % 2 = 1 ∨ (n = 0 ∧ m.data.length < 4096)
  if 16 ≤ n ∨ m.tag ≠ n ∨ 4096 < m.data.length ∨ (!last ∧ m.data.length ≠ 4096) then (.bad, setLink l { k with frag := none } s)
  else if last then (.whole (bs ++ m.data), setLink l { k with frag := none } s)
  else (.more, setLink l { k with frag := some (op, n + 1, bs ++ m.data) } s)

/-- This device's KEY_PROOF: chains with their lengths, and both signatures of the alias keys over "KAF link" and T. -/
def ownProof (s : State) (t : BitVec 384) : List Byte :=
  let salt := aliasSalt s
  let msg := ([0x4B, 0x41, 0x46, 0x20, 0x6C, 0x69, 0x6E, 0x6B] : List Byte) ++ digestBytes t
  let c := fun a => let b := Config.certChain a 1 salt; leBytes b.length 4 ++ b
  c 0 ++ c 1 ++ slice (Config.sign 0 1 salt msg) 0 64 ++ slice (Config.sign 1 1 salt msg) 0 3309

/-- Both halves of the exchange are held: PRK is computed, and the proof is sent. -/
def sendProof (l : Nat) (s : State) : State :=
  let s := setLink l { linkOf s l with prk := linkPrk (linkOf s l) } s
  let s := sendFrags l 0x72 17 0 (ownProof s (linkT (linkOf s l))) s
  setLink l { linkOf s l with proofSent := true } s

/-- The exchange has ended on both sides: ACTIVE, with sequence numbers at 0 (R481). -/
def proofsDone (l : Nat) (s : State) : State :=
  if (linkOf s l).proofSent ∧ (linkOf s l).proofOk then
    linkActive l (setLink l (linkKeys s l { linkOf s l with
      e := 0, next := 0, oldest := 0, queued := 0, rx := 0, missing := [], held := [], waited := 0, resent := [], backs := 0
      txGen := 0, rxGen := 0, rxCtr := 0, built := 0, acked := 0, owed := [], parked := [] }) s)
  else s

/-- DevID digests that the span map gives the partner of a span port or of the viaduct (R576). -/
def mapDevIds (s : State) (l : Nat) : List (List Byte) :=
  let b := objDom s 0x8000 1
  let r := objDom s 0x8000 3
  if l = 12 then
    let i := ownIndex s
    [slice b (16 + 96 * i + if obj s 0x8100 1 = 1 then 48 else 0) 48]
  else (List.range 16).flatMap fun i =>
    (if r.getD (2 * i) 0xFF = BitVec.ofNat 8 (l - 8) then [slice b (16 + 96 * i) 48] else [])
      ++ (if r.getD (2 * i + 1) 0xFF = BitVec.ofNat 8 (l - 8) then [slice b (64 + 96 * i) 48] else [])

/-- A partner is trusted (R483). -/
def linkTrusted (s : State) (l : Nat) (m : List Byte) : Bool :=
  Config.proofSigned (linkT (linkOf s l)) m &&
    (if l < 8 then
      let b := objDom s 0x5004 5
      let has := fun d => (List.range (b.length / 48)).any fun i => slice b (48 * i) 48 == digestBytes d
      has (Config.proofRoots m).1 && has (Config.proofRoots m).2
    else Config.proofKazinmar m && (mapDevIds s l).contains (digestBytes (Config.proofDevId m)))

/-- A link-channel message of a key exchange in SECURE: `take` its bytes once whole, of a length that `ok` admits; anything
else fails the exchange. -/
def keyMsg (l op : Nat) (m : KafMsg) (ok : Nat → Bool) (take : List Byte → State → State) (s : State) : State :=
  if (linkOf s l).st ≠ 5 then s
  else
    let s := linkTally false l (kafSlots m.data.length) s
    match joinFrag l op m s with
    | (.bad, s) => linkDown l 4 s
    | (.more, s) => s
    | (.whole bs, s) => if ok bs.length then take bs s else linkDown l 4 s

/-- KEY_HELLO at the responder: it answers KEY_REPLY, a random and keys that are free, and sends its proof. -/
def execKeyHello (l : Fin 13) (m : KafMsg) (s : State) : Res :=
  .next (keyMsg l.val 0x70 m (· == 1248) (fun bs s =>
    let k := linkOf s l.val
    if linkOpens s l.val ∨ !k.hello.isEmpty then s
    else
      let r := leBytes (freeAt s 0) 1152
      sendProof l.val (freeStep 1 (sendLink l.val { kafOf 0x71 with data := r } (setLink l.val { k with hello := bs, reply := r } s)))) s)

/-- KEY_REPLY at the end that opened the exchange. -/
def execKeyReply (l : Fin 13) (m : KafMsg) (s : State) : Res :=
  .next (keyMsg l.val 0x71 m (· == 1152) (fun bs s =>
    let k := linkOf s l.val
    if k.hello.isEmpty ∨ !k.reply.isEmpty then s else sendProof l.val (setLink l.val { k with reply := bs } s)) s)

/-- KEY_PROOF: an untrusted partner takes the link down with reason 5. -/
def execKeyProof (l : Fin 13) (m : KafMsg) (s : State) : Res :=
  .next (keyMsg l.val 0x72 m (fun n => decide (n ≤ 65536)) (fun bs s =>
    let k := linkOf s l.val
    if k.hello.isEmpty ∨ k.reply.isEmpty then linkDown l.val 4 s
    else if !linkTrusted s l.val bs then linkDown l.val 5 s else proofsDone l.val (setLink l.val { k with proofOk := true } s)) s)

/-- TLACK and TLRPLY as registers (R650). -/
def tlAckWord (v : Teller) : Nat := (if v.ackValid then 2 ^ 31 else 0) + v.ackCode * 2 ^ 16 + v.ackSeq
def tlRplyWord (v : Teller) : Nat :=
  match v.rply with
  | none => 0
  | some r => r.seq * 2 ^ 32 + r.verb * 2 ^ 24 + r.dest * 2 ^ 20 + r.bytes.length

/-- A span port whose partner the span map names as keystone (R648). -/
def keystonePort (s : State) (l : Nat) : Bool :=
  let i := byteAt (objDom s 0x8000 1) 1
  decide (8 ≤ l ∧ l < 12) && memberOf s i && i != ownIndex s && (routesTo s i).contains l

/-- The answer of channel 67 goes out: its TLACK, and its reply when one follows (R484). -/
def sendTlans (l : Nat) (s : State) : State :=
  let v := chanOf s 67
  let (w, bs) := if v.replyFull then (tlRplyWord v, (v.rply.map (·.bytes)).getD []) else (0, [])
  let s := sendLink l { kafOf 0x74 with mask := tlAckWord v + w % 2 ^ 32 * 2 ^ 32, fwdTag := w / 2 ^ 32 % 65536, code := 1, data := bs } s
  tlDone 67 1 s

/-- A TLANS that carries DENIED (R484). -/
def sendDenied (l : Nat) (v : Nat) (s : State) : State :=
  sendLink l { kafOf 0x74 with mask := 2 ^ 31 + tlDenied * 2 ^ 16 + v / 2 ^ 32 % 65536, code := 1 } s

/-- TLMSG: one message of channel 67; what is not delivered is answered at once, what is when the dictionary has answered. A
message out of order is discarded, counted and denied. -/
def execTlmsg (port : Fin 13) (m : KafMsg) (s : State) : Res :=
  let l := port.val
  if (linkOf s l).st ≠ 6 ∨ !keystonePort s l then .next s
  else
    let s := linkTally false l (kafSlots m.data.length) s
    match joinFrag l 0x73 m s with
    | (.bad, s) => .next (sendDenied l m.mask (linkCount l 7 s))
    | (.more, s) => .next s
    | (.whole bs, s) =>
      let v := BitVec.ofNat 64 m.mask
      if fld v 63 48 ≠ 0 ∨ fld v 19 13 ≠ 0 ∨ fld v 12 0 ≠ bs.length then .next (sendDenied l m.mask (linkCount l 7 s))
      else
        let send := (List.range bs.length).foldl (fun t i => tput 0 t i (bs.getD i 0)) ([] : Tbl Byte)
        let s := tlSend 67 v (setChan 67 { chanOf s 67 with send := send } s)
        .next (if (chanOf s 67).msg.isSome then s else sendTlans l s)

/-- TLANS at the keystone: the answer is received; the specification gives no register of this device that holds it. -/
def execTlans (port : Fin 13) (m : KafMsg) (s : State) : Res :=
  if (linkOf s port.val).st = 6 ∧ 8 ≤ port.val ∧ port.val < 12 then .next (linkTally false port.val (kafSlots m.data.length) s)
  else .next s

/-! ## Malformed messages (R471, R473) -/

/-- The opcode is a request that expects an answer. -/
def kafAsks (op : Nat) : Bool := decide (0x10 ≤ op ∧ op ≤ 0x16) || op == 0x40 || op == 0x41 || op == 0x48 || op == 0x49

/-- The length that a BlkRd or a WinRd asks for lies outside its row (R469). -/
def badAsk (header : BitVec 256) : Bool :=
  let n := fld header 255 192
  (fld header 7 0 == 0x40 && (decide (n % 8192 < 64 ∨ 4096 < n % 8192) || n % 64 != 0))
    || (fld header 7 0 == 0x48 && !(n % 16 == 4 || n % 16 == 8))

/-- The message is malformed: unknown opcode, wrong VC, a len outside its row, or a reserved field (R471); on the bypass
channel, another type than those of R473. -/
def kafMalformed (header : BitVec 256) (vc len : Nat) : Bool :=
  if vc = 4 then !(fld header 7 0 == 0x5A || fld header 7 0 == 0x5B || fld header 7 0 == 0x60)
  else if vc = 5 then !(decide (0x70 ≤ fld header 7 0 ∧ fld header 7 0 ≤ 0x74))
  else match kafRow (fld header 7 0) with
    | none => true
    | some (v, ok) => v != vc || !ok len || fld header 66 54 != len || fld header 37 8 != 0 || badAsk header

/-- MALFORMED_MESSAGE. -/
def execMalformedMessage (l : Fin 13) (header : BitVec 256) (vc : Fin 8) (len : Nat) (s : State) : Res :=
  if !linkUp s l.val ∨ !kafMalformed header vc.val len then .next s
  else
    let s := linkCount l.val 7 s
    .next (if vc.val < 4 ∧ kafAsks (fld header 7 0) then sendKaf l.val { kafOf 0x20 with tag := fld header 114 99, code := ccBadDesc } s
      else s)

end Sys2Proof.Machine
end

