-- ==== Sys2Proof/Machine/Ports.lean ====
section
/-! DEFINITION. Foreign ports: the upstream CXL ports, the trays and NVMe controllers, and the Ethernet ports with RoCE, IEEE
1588 and MACsec (R545 to R573). The numbers of standard frames and the rules of RoCE sequence numbers are taken from their
standards (log entry 34). -/

namespace Sys2Proof.Machine

def State.setPorts (s : State) (f : Ports → Ports) : State := { s with ports := f s.ports }

/-! ## State records (R545, R546) -/

/-- The object of a port's state record: ports 0 to 3 upstream CXL, 4 to 7 downstream CXL, 8 to 11 PCIe, 12 and 13 Ethernet. -/
def portState (p : Nat) : Nat × Nat :=
  if p < 4 then (0x5200, p + 1) else if p < 8 then (0x5300, p - 3) else if p < 12 then (0x5400, p - 7) else (0x5500, p - 11)

/-- A mode, rate and width that a port supports (R545). -/
def portSupports (p mode rate width : Nat) : Bool :=
  let rates := fun (l : List Nat) => l.contains rate
  let wide := fun (l : List Nat) => l.contains width
  if p < 4 then ((mode == 1 && rates [64, 32, 16]) || (mode == 2 && rates [32, 16]) || (mode == 3 && rates [64, 32, 16]))
    && wide [16, 8, 4]
  else if p < 8 then (mode == 1 || mode == 2) && rates [64, 32] && wide [16, 8]
  else if p < 12 then mode == 4 && rates [64, 32, 16] && wide [16, 8, 4]
  else (mode == 5 && rate == 80 && width == 8) || (mode == 6 && rate == 40 && width == 4)

/-- The values that wait for a port's next training (R572). -/
def portWaits (p key : Nat) : Bool :=
  let i := key / 256
  let n := key % 256
  if p < 4 then decide (0x5201 ≤ i ∧ i ≤ 0x5203) && n == p + 1
  else if p < 8 then (i == 0x5301 && n == p - 3) || i == 0x5302
  else if p < 12 then i == 0x5401
  else (i == 0x5502 && (n == p - 11 || decide (3 ≤ n))) || ((i == 0x5503 || i == 0x5504) && n == p - 11)

/-- The DVSEC and CDAT of the trays found behind a downstream port (R558). -/
def trayTables : Nat → List Byte → State → State
  | 0, _, s => s
  | k + 1, bs, s =>
    if bs.length < 3 then s
    else
      let n := leNat (slice bs 1 2)
      let t := (bs.getD 0 0).toNat
      let s := if t < 32 then setDom 0x5301 (t + 5) (slice bs 3 (min n (bs.length - 3))) s else s
      trayTables k (bs.drop (3 + n)) s

/-- The numbers of the trays or namespaces that the port lists. -/
def portFinds : Nat → List Byte → List Nat
  | 0, _ => []
  | k + 1, bs => if bs.length < 3 then [] else (bs.getD 0 0).toNat :: portFinds k (bs.drop (3 + leNat (slice bs 1 2)))

/-- The kept records of a port whose state is active take effect as it trains, each where its tray or namespace was found good
(R236, R629). -/
def bootTrays (p : Nat) (found : List Nat) (s : State) : State :=
  let t3 := decide (8 ≤ p)
  (List.range (if t3 then 64 else 32)).foldl (fun s n =>
    let bs := objDom s (if t3 then 0x4210 else 0x4200) (n + 1)
    let v := tget ({} : Tray) (if t3 then s.kv.nss else s.kv.trays) n
    if byteAt bs 0 = 1 ∧ (trayRec t3 bs).1.port = p % 4 ∧ v = {} then (trayWrite t3 n bs (found.contains n) s).2 else s) s

/-- PORT_LINK_UP. -/
def execPortLinkUp (port : Fin 14) (data : List Byte) (s : State) : Res :=
  let p := port.val
  let v := leNat (data.take 4)
  if !live s ∨ !portSupports p (bitsOf v 27 24) (bitsOf v 23 16) (bitsOf v 15 8) then .next s
  else
    let s := applyWaiting .training (portWaits p) s
    let s := setObj (portState p).1 (portState p).2 (2 * 2 ^ 28 + bitsOf v 27 7 * 2 ^ 7) s
    let s := if 4 ≤ p ∧ p < 8 then trayTables 32 (data.drop 4) s else s
    let seen := portFinds 64 (data.drop 4)
    let s := if 4 ≤ p ∧ p < 12 then
        let keys := seen.map fun n => if 8 ≤ p then 64 + n else n
        bootTrays p seen (s.setPorts fun q => { q with found := (q.found.filter fun k => !keys.contains k) ++ keys })
      else s
    .next (if p < 4 ∧ cxl3 s p then agentTrained (8 + p) s else s)

/-! ## Upstream CXL (R553, R556) -/

/-- UPERRSTAT as a register. -/
def upErrWord (v : UpErr) : Nat := v.code * 2 ^ 24 + v.count * 2 + if v.valid then 1 else 0

/-- A read of UPERRSTAT clears valid and count. -/
def readUpErr (port : Nat) (s : State) : Nat × State :=
  let v := tget ({} : UpErr) s.ports.up port
  (upErrWord v, s.setPorts fun q => { q with up := tput ({} : UpErr) q.up port { v with valid := false, count := 0 } })

/-- UPERRSTAT_READ. -/
def execUperrstatRead (port : Fin 4) (s : State) : Res :=
  let (v, s) := readUpErr port.val s
  .next (emit (.value v) s)

/-- The upstream link goes down or is hot reset: the agent fails, and answers to its requests are discarded. -/
def cxlDown (p : Nat) (s : State) : State :=
  let s := setObj 0x5200 (p + 1) 0 s
  failAgent (8 + p) (s.setCoh fun c => { c with reqs := c.reqs.map fun r => if r.src = 0x10 + p then { r with dead := true } else r })

/-- CXL_LINK_DOWN. -/
def execCxlLinkDown (port : Fin 4) (s : State) : Res :=
  if bitsOf (obj s 0x5200 (port.val + 1)) 31 28 = 0 then .next s else .next (cxlDown port.val s)

/-! ## Trays (R559 to R562) -/

/-- A command that brings a tray's response to a transfer. -/
def bringsMove : Instr → Bool
  | .moveComplete _ _ => true
  | _ => false

/-- TRAY_REQUEST_TIMEOUT: the clock is carried by 5302:01 from the request, which is taken to leave as the command comes; a response
in the cycle of expiry wins (R26). -/
def execTrayRequestTimeout (tray : Fin 32) (s : State) : Res :=
  let n := usCycles (obj s 0x5302 1)
  if (tget ({} : Tray) s.kv.trays tray.val).active then
    .next (if arrivalWins (s.time.cycle + n) bringsMove s then elapse n s else trayFails false tray.val (elapse n s))
  else .next s

/-- A command fails (R562): a page or block stays in its higher tier, a read gives 0x31 with detail 4. -/
def nvmeFail (c : NvmeCmd) (s : State) : State :=
  let s := nvmeDrop (fun d => d.port == c.port && d.cid == c.cid) s
  match c.move, c.block with
  | some id, _ =>
    match s.kv.moves.find? fun m => m.id == id with
    | none => s
    | some m =>
      if c.opc = 2 then runMoves (failMove m ccUncorr 4 s)
      else runMoves (m.descs.foldl (fun s d => finishRange d s) (failMove { m with descs := [] } ccUncorr 4 s))
  | none, some b =>
    let fs := blockFlights b s
    let s := fs.foldl (fun s f => complete f.id ccUncorr (if f.stage == .output then 1 else 0)
      (if dOpcode f.desc = 2 then (ctxOf s (dCtx f.desc)).length else 0) 0 s) s
    (blockWaiters b s).foldl (fun s r => answerFail r ccUncorr s) s
  | none, none => s

/-- NVME_COMPLETION: status 0 ends the command well. -/
def execNvmeCompletion (port : Fin 4) (cid : Nat) (status : BitVec 16) (s : State) : Res :=
  match s.ports.nvme.find? fun c => c.port == port.val && c.cid == cid with
  | none => .next s
  | some c =>
    if status ≠ 0 then .next (nvmeFail c s)
    else
      let s := nvmeDrop (fun d => d.port == c.port && d.cid == c.cid) s
      match c.move, c.block with
      | some id, _ =>
        match s.kv.moves.find? fun m => m.id == id && m.started with
        | some m => .next (moveDone m .clean s)
        | none => .next s
      | none, some b => .next (blockRead b s)
      | none, none => .next s

/-- The controller is reset, and every command then outstanding fails. -/
def nvmeReset (port : Nat) (s : State) : State :=
  let s := emit (.tray port 0x200 0 0 0) (s.setPorts fun q => { q with
    resetting := if q.resetting.contains port then q.resetting else q.resetting ++ [port] })
  (s.ports.nvme.filter fun c => c.port == port).foldl (fun s c => nvmeFail c s) s

/-- A command that brings the completion of an NVMe command. -/
def bringsCompletion (port cid : Nat) : Instr → Bool
  | .nvmeCompletion p c _ => p.val == port && c == cid
  | _ => false

/-- NVME_COMMAND_TIMEOUT: the clock is carried to 5401:01 ms after the command, or after its Abort; a completion in that cycle
wins (R26). -/
def execNvmeCommandTimeout (port : Fin 4) (cid : Nat) (s : State) : Res :=
  match s.ports.nvme.find? fun c => c.port == port.val && c.cid == cid with
  | none => .next s
  | some c =>
    let due := c.at_ + msCycles (obj s 0x5401 1)
    let yields := arrivalWins due (bringsCompletion port.val cid) s
    let s := carryTo due s
    if yields then .next s
    else if c.aborting then .next (nvmeReset port.val s)
    else .next (emit (.tray port.val 0x108 cid 0 0) (s.setPorts fun q => { q with nvme := q.nvme.map fun d =>
      if d = c then { d with aborting := true, at_ := s.time.cycle } else d }))

/-- NVME_CONTROLLER_RESET_END: after 5401:02 resets in a row that fail, every namespace of the controller fails. -/
def execNvmeControllerResetEnd (port : Fin 4) (ok : Bool) (s : State) : Res :=
  let p := port.val
  if !s.ports.resetting.contains p then .next s
  else if ok then .next (s.setPorts fun q => { q with resetting := q.resetting.erase p, resets := tput 0 q.resets p 0 })
  else
    let n := tget 0 s.ports.resets p + 1
    if n < obj s 0x5401 2 then .next (nvmeReset p (s.setPorts fun q => { q with resets := tput 0 q.resets p n }))
    else
      let s := s.setPorts fun q => { q with resetting := q.resetting.erase p, resets := tput 0 q.resets p 0 }
      .next ((s.kv.nss.filter fun t => t.2.active && t.2.port == p).foldl (fun s t => trayFails true t.1 s) s)

/-! ## Ethernet frames (R563, R571) -/

/-- The port is ACTIVE, and passes more than MKA frames (R571). -/
def ethUp (s : State) (p : Nat) : Bool := bitsOf (obj s 0x5500 (p + 1)) 31 28 == 2
def ethOpen (s : State) (p : Nat) : Bool := ethUp s p && (obj s 0x5502 (p + 1) == 0 || tget false s.ports.mka p)

/-- Big-endian numbers of a frame. -/
def beAt (bs : List Byte) (i n : Nat) : Nat := leNat (slice bs i n).reverse
def beBytes (v n : Nat) : List Byte := (leBytes v n).reverse

/-- A frame of a kind that the port handles. -/
def frameHandled (bs : List Byte) : Bool :=
  let t := beAt bs 12 2
  let l4 := fun (proto port type : Nat) =>
    (proto == 17 && (port == 4791 || port == 319 || port == 320)) || (proto == 58 && (type == 135 || type == 136))
  t == 0x88F7 || t == 0x888E || t == 0x0806 || t == 0x8808
    || (t == 0x0800 && l4 (beAt bs 23 1) (beAt bs (14 + beAt bs 14 1 % 16 * 4 + 2) 2) 0)
    || (t == 0x86DD && l4 (beAt bs 20 1) (beAt bs 56 2) (beAt bs 54 1))

/-- ETHERNET_FRAME_DISCARD: a frame of another kind, and on a port that passes MKA frames only any other frame, is counted. -/
def execEthernetFrameDiscard (port : Fin 2) (frame : List Byte) (s : State) : Res :=
  if ethUp s port.val && (!frameHandled frame || (!ethOpen s port.val && beAt frame 12 2 != 0x888E)) then
    .next (s.setPorts fun q => { q with discards := tput 0 q.discards port.val (tget 0 q.discards port.val + 1) })
  else .next s

/-- The ones' complement sum of 16-bit words. -/
def onesSum : Nat → List Byte → Nat
  | 0, _ => 0
  | k + 1, bs => if bs.isEmpty then 0 else beAt bs 0 2 + onesSum k (bs.drop 2)
def onesFold (v : Nat) : Nat := let w := v % 65536 + v / 65536; 65535 - (w % 65536 + w / 65536)

/-- The answer to an ARP request for the port's own address: addresses in 5503 are MAC, IPv4 and IPv6. -/
def arpReply (own bs : List Byte) : Option (List Byte) :=
  if beAt bs 12 2 = 0x0806 ∧ beAt bs 20 2 = 1 ∧ own.length = 26 ∧ slice bs 38 4 = slice own 6 4 then
    some (slice bs 22 6 ++ slice own 0 6 ++ beBytes 0x0806 2 ++ slice bs 14 6 ++ beBytes 2 2 ++ slice own 0 10 ++ slice bs 22 10)
  else none

/-- The answer to a Neighbor Solicitation for the port's own address. -/
def ndReply (own bs : List Byte) : Option (List Byte) :=
  if beAt bs 12 2 = 0x86DD ∧ beAt bs 20 1 = 58 ∧ beAt bs 54 1 = 135 ∧ own.length = 26 ∧ slice bs 62 16 = slice own 10 16 then
    let src := slice own 10 16
    let dst := slice bs 22 16
    let body := fun (c : Nat) => beBytes 0x8800 2 ++ beBytes c 2 ++ beBytes 0x60000000 4 ++ src ++ beBytes 0x0201 2 ++ slice own 0 6
    let sum := onesFold (onesSum 64 (src ++ dst ++ beBytes 32 4 ++ beBytes 58 4 ++ body 0))
    some (slice bs 6 6 ++ slice own 0 6 ++ beBytes 0x86DD 2 ++ beBytes 0x60000000 4 ++ beBytes 32 2 ++ beBytes 58 1
      ++ beBytes 255 1 ++ src ++ dst ++ body sum)
  else none

/-- NEIGHBOR_RESOLUTION: the sender's addresses are kept, and a request for the port's own address is answered. -/
def execNeighborResolution (port : Fin 2) (frame : List Byte) (s : State) : Res :=
  let p := port.val
  let own := objDom s 0x5503 (p + 1)
  if !ethOpen s p then .next s
  else
    let arp := beAt frame 12 2 == 0x0806
    let nd := beAt frame 12 2 == 0x86DD && beAt frame 20 1 == 58 && (beAt frame 54 1 == 135 || beAt frame 54 1 == 136)
    if !arp && !nd then .next s
    else
      let (ip, mac) := if arp then (slice frame 28 4, slice frame 22 6) else (slice frame 22 16, slice frame 6 6)
      let s := s.setPorts fun q => { q with neigh := (q.neigh.filter fun n => !(n.1 == p && n.2.1 == ip)) ++ [(p, ip, mac)] }
      match (arpReply own frame).orElse fun _ => ndReply own frame with
      | some r => .next (emit (.frame p r) s)
      | none => .next s

/-- MKA_FRAME: handled by the Mint, where a CAK is kept; a genuine frame makes the peer live and delivers a SAK. -/
def execMkaFrame (port : Fin 2) (frame : List Byte) (s : State) : Res :=
  let p := port.val
  let cak := objDom s 0x5502 3
  if !ethUp s p ∨ s.mint.st ≠ .running ∨ cak.isEmpty ∨ !Config.mkaFrame cak frame then .next s
  else
    let v := obj s 0x5500 (p + 1)
    .next (setObj 0x5500 (p + 1) (bitSet v 7 true) (s.setPorts fun q => { q with mka := tput false q.mka p true }))

/-- Truss cycles of one pause quantum, 512 bit times, doubled. -/
def pauseQuantum (s : State) (p : Nat) (n : Nat) : Nat :=
  ceilDiv (n * (if bitsOf (obj s 0x5500 (p + 1)) 23 16 = 80 then 128 else 256)) 100

/-- PRIORITY_FLOW_CONTROL_FRAME: on the priorities set in 5504, sending pauses for the stated quanta, and with 0 resumes. -/
def execPriorityFlowControlFrame (port : Fin 2) (mask : BitVec 8) (pause : List Nat) (s : State) : Res :=
  let p := port.val
  if !ethOpen s p then .next s
  else
    let on := mask.toNat &&& obj s 0x5504 (p + 1)
    .next ((List.range 8).foldl (fun s i => if bitAt on i then
      let n := pause.getD i 0 % 65536
      s.setPorts fun q => { q with pause := tput 0 q.pause (p * 8 + i) (if n = 0 then 0 else s.time.cycle + pauseQuantum s p n) }
      else s) s)

/-- An Ethernet port enters DOWN. -/
def ethDown (p : Nat) (s : State) : State :=
  setObj 0x5500 (p + 1) 0 (s.setPorts fun q => { q with mka := tput false q.mka p false })

/-- ETHERNET_LINK_DOWN. -/
def execEthernetLinkDown (port : Fin 2) (s : State) : Res :=
  if ethUp s port.val then .next (ethDown port.val s) else .next s

/-! ## IEEE 1588 (R569, R570) -/

/-- The port is the one that 2100:06 names, and is locked. -/
def ptpNamed (s : State) (p : Nat) : Bool := obj s 0x2100 6 == p + 1
def ptpLocked (s : State) : Bool := obj s 0x5501 3 == 1

/-- A difference of device times in half nanoseconds, signed. -/
def halfDiff (a b : Nat) : Int :=
  let d : Nat := (a + 2 ^ 65 - b % 2 ^ 65) % 2 ^ 65
  if d < 2 ^ 64 then (d : Int) else (d : Int) - 2 ^ 65

/-- Device time moves by a signed number of half nanoseconds. -/
def shiftTime (d : Int) (s : State) : State :=
  { s with time := { s.time with devHalf := (((s.time.devHalf : Int) + d) % (2 ^ 65 : Int)).toNat } }

/-- A Sync while locked slews device time toward the transmitter's by at most 100 ppm of the time since the previous one. -/
def ptpSlew (origin since : Nat) (s : State) : State :=
  let lim : Int := ((s.time.cycle - since) / 10000 : Nat)
  shiftTime (max (-lim) (min lim (halfDiff (2 * origin) s.time.devHalf))) s

/-- PTP_SYNC: `origin` is the transmitter's time at this point, `offset` the port's offset from it in ns. -/
def execPtpSync (port : Fin 2) (domain : BitVec 8) (origin : Nat) (offset : Int) (s : State) : Res :=
  let p := port.val
  if !ethOpen s p ∨ domain.toNat ≠ obj s 0x5501 1 ∨ !ptpNamed s p then .next s
  else
    let near := decide (-100 ≤ offset ∧ offset ≤ 100)
    let since := tget s.time.cycle s.ports.syncAt p
    let n := if near then min 16 (tget 0 s.ports.syncs p + 1) else 0
    let off : Int := max (-2147483648) (min 2147483647 offset)
    let s := setObj 0x5501 4 (off % 4294967296).toNat s
    let s := s.setPorts fun q => { q with syncs := tput 0 q.syncs p n, syncAt := tins q.syncAt p s.time.cycle }
    if ptpLocked s then
      .next (if offset < -1000 ∨ 1000 < offset then setObj 0x5501 3 0 s else ptpSlew origin since s)
    else if n = 16 then .next (setObj 0x5501 3 1 (shiftTime (halfDiff (2 * origin) s.time.devHalf) s))
    else .next s

/-- A command that brings a Sync message to a port. -/
def bringsSync (p : Nat) : Instr → Bool
  | .ptpSync i _ _ _ => i.val == p
  | _ => false

/-- PTP_LOCK_LOSS: the clock is carried to 5501:02 ms after the last Sync; a Sync in that cycle wins (R26). -/
def execPtpLockLoss (port : Fin 2) (s : State) : Res :=
  let p := port.val
  if !ptpNamed s p ∨ !ptpLocked s then .next s
  else
    let due := tget s.time.cycle s.ports.syncAt p + msCycles (obj s 0x5501 2)
    let yields := arrivalWins due (bringsSync p) s
    let s := carryTo due s
    .next (if yields then s else setObj 0x5501 3 0 (s.setPorts fun q => { q with syncs := tput 0 q.syncs p 0 }))

/-! ## RoCE (R564 to R568) -/

/-- Record `qp` of a port: its bytes, and whether it is enabled. -/
def roceRec (s : State) (port qp : Nat) : List Byte := objDom s (0x5510 + port) qp
def roceOn (s : State) (port qp : Nat) : Bool := qp != 0 && byteAt (roceRec s port qp) 43 == 1

/-- The checks of R565: a record that another on the port uses, or whose queue pair and PASID do not belong together, is
refused. -/
def roceCheck (s : State) (port qp : Nat) (r : List Byte) : Bool :=
  let q := leNat (slice r 40 2)
  let p := qpOf s q
  let lqpn := leNat (slice r 0 3)
  decide (q < 1024) && p.st != .disabled && p.bindKind == 3 && p.bindPort == port
    && (match pasidOf s (leNat (slice r 44 4)) with | some b => b.1 == p.tenant | none => false)
    && decide (2 ≤ lqpn)
    && !((List.range 256).any fun i => i != 0 && i != qp
      && (let o := objDomLast s (0x5510 + port) i; !o.isEmpty && leNat (slice o 0 3) == lqpn))
    && byteAt r 3 == 0 && byteAt r 7 == 0 && byteAt r 30 == 0 && byteAt r 31 == 0 && decide (leNat (slice r 44 4) < 2 ^ 20)
    && decide (byteAt r 42 ≤ 2 ∧ byteAt r 43 ≤ 1)

/-- A write of a record (R565, R572): in force at the next step boundary. -/
def writeRoce (port qp : Nat) (r : List Byte) (s : State) : Nat × State :=
  if qp = 0 ∨ 255 < qp then (abNoSub, s)
  else if r.length ≠ 48 then (abLength, s)
  else if !roceCheck s port qp r then (abValue, s)
  else (0, waitDom (0x5510 + port) qp r s)

/-- ROCE_RECORD_WRITE. -/
def execRoceRecordWrite (port : Fin 2) (qp : Fin 256) (rec : List Byte) (s : State) : Res :=
  .next (commanded (writeRoce port.val qp.val rec) s)

/-- A record comes into force: both PSNs start at its initial values. -/
def roceStart (port qp : Nat) (s : State) : State :=
  let r := roceRec s port qp
  setRoce (port * 256 + qp) { recv := leNat (slice r 32 3), send := leNat (slice r 36 3) } s

/-- Path MTU in bytes, and the sequence numbers that a message of `n` bytes takes. -/
def roceMtu (s : State) (port qp : Nat) : Nat := 1024 * 2 ^ byteAt (roceRec s port qp) 42
def rocePsns (s : State) (port qp n : Nat) : Nat := max 1 (ceilDiv n (roceMtu s port qp))

/-- What a request's PSN makes of it: the expected one, a duplicate, or one ahead. -/
inductive Psn where
  | next | again | ahead
  deriving DecidableEq, Repr

def psnClass (v : Roce) (psn : Nat) : Psn :=
  let d := (psn + 2 ^ 24 - v.recv) % 2 ^ 24
  if d = 0 then .next else if 2 ^ 23 ≤ d then .again else .ahead

/-- The input colour of a DSCP: AF drop precedence (R533). -/
def dscpColour (d : Nat) : Nat :=
  if 8 < d ∧ d < 40 ∧ d % 2 = 0 ∧ d % 8 ≠ 0 then d % 8 / 2 - 1 else 0

/-- A RoCE request as a direct request: 0x200 and 0x201 on pool memory, 0x210 and 0x211 on the queue window. -/
def roceReq (port qp op psn addr len : Nat) (data : List Byte) (s : State) : Req :=
  let pasid := leNat (slice (roceRec s port qp) 44 4)
  { newReq (0x14 + port) op (if op % 2 = 0 then .uw else .ur) none s with
    pasid := pasid, tenant := pasidTenant s pasid, addr := addr, len := len, tag := psn, arg := qp, data := data }

/-- A request of the next PSN is taken, and the PSN moves on. -/
def roceTake (port qp n : Nat) (s : State) : State :=
  let k := port * 256 + qp
  let v := roceOf s k
  setRoce k { v with recv := (v.recv + rocePsns s port qp n) % 2 ^ 24 } s

/-- The bytes of a status block. -/
def roceStatus (v : Roce) : List Byte := leBytes (v.naks * 2 ^ 64 + v.nakPsn * 2 ^ 40 + v.code * 2 ^ 32) 64

/-- ROCE_ACKNOWLEDGE: what the peer has acknowledged of the device's responses. -/
def execRoceAcknowledge (port : Fin 2) (qp : Fin 256) (psn : BitVec 24) (nak : Bool) (s : State) : Res :=
  let k := port.val * 256 + qp.val
  if !ethOpen s port.val ∨ !roceOn s port.val qp.val ∨ nak then .next s
  else .next (setRoce k { roceOf s k with acked := psn.toNat } s)

/-- An opcode that R564 lists: RDMA WRITE First, Middle, Last and Only, READ Request and Response, Acknowledge. -/
def roceListed (op : Nat) : Bool := [6, 7, 8, 0x0A, 0x0C, 0x0D, 0x0E, 0x0F, 0x10, 0x11].contains op

/-- ROCE_INVALID_REQUEST. -/
def execRoceInvalidRequest (port : Fin 2) (qp : Fin 256) (psn : BitVec 24) (opcode : BitVec 8) (s : State) : Res :=
  if !ethOpen s port.val ∨ !roceOn s port.val qp.val ∨ roceListed opcode.toNat then .next s
  else .next (roceNak port.val qp.val psn.toNat ccBadDesc 1 s)

end Sys2Proof.Machine
end

