-- ==== Sys2Proof/Machine/Windows.lean ====
section
/-! DEFINITION. The windows that a tenant reaches: its instance of the tenant queue window and its teller channel, by KAF and by
Ethernet (R384 to R388, R636, R637, R644 to R650, R469, R566). -/

namespace Sys2Proof.Machine

/-! ## Accesses (R637) -/

/-- A naturally aligned read or register write of 4 or 8 bytes. -/
def regAccess (off n : Nat) : Bool := (n == 4 || n == 8) && off % n == 0

/-- An aligned burst of up to 64 bytes. -/
def burstAccess (off n : Nat) : Bool := [1, 2, 4, 8, 16, 32, 64].contains n && off % n == 0

/-- What a read of `n` bytes gives of the 64 bits at `off / 8 * 8`. -/
def regBytes (v off n : Nat) : List Byte := leBytes (v / 2 ^ (8 * (off % 8))) n

/-- A write to the register at `off`: its value where the access reaches it. A 64-bit register takes one 8-byte write only; of
an 8-byte write a 32-bit register takes its own half. -/
def regValue (wide : Bool) (off : Nat) (data : List Byte) : Option Nat :=
  if off % 8 ≠ 0 ∨ (wide ∧ data.length ≠ 8) then none else some (leNat (data.take (if wide then 8 else 4)))

/-- Put bytes into a sparse buffer. -/
def putBytes (t : Tbl Byte) (at_ : Nat) (data : List Byte) : Tbl Byte :=
  ((List.range data.length).foldl (fun t i => tput 0 t (at_ + i) (data.getD i 0)) t)

/-- `n` bytes of a sparse buffer. -/
def getBytes (t : Tbl Byte) (at_ n : Nat) : List Byte := (List.range n).map fun i => tget 0 t (at_ + i)

/-! ## The tenant queue window (R384 to R388) -/

def winKey : Win → Nat
  | .steward => 64
  | .tenant t => t.val

/-- The queues of a confidential tenant's pair read as 0 in the steward's instance (R441). -/
def queuesHidden (s : State) (w : Win) (p : Qp) : Bool := w == .steward && (tenantOf s p.tenant).confidential

/-- The 64 bits at an offset of the register page. -/
def qwReg (s : State) (w : Win) (q : Nat) (off : Nat) : Nat :=
  let p := qpOf s q
  if off = 0x08 then qpCfg p
  else if off = 0x10 then qpStat p (qpPlaces s q)
  else if off = 0x18 then p.pushAddr
  else if off = 0x40 then (if p.sqBad then 2 ^ 31 else 0) + p.tail
  else if off = 0x48 then (if p.cqBad then 2 ^ 31 else 0) + p.consumed % cqSize p
  else if off = 0x78 then (readInvStat w s).1 else 0

/-- A read of the window: XLINVSTAT clears its flags as it is read. -/
def qwRead (w : Win) (off n : Nat) (s : State) : List Byte × State :=
  if off / 8 = 0 then (regBytes (tget 0 s.win.qpSel (winKey w)) off n, s)
  else match winQp s w with
    | none => (List.replicate n 0, s)
    | some q =>
      let p := qpOf s q
      if off < 0x10000 then (regBytes (qwReg s w q (off / 8 * 8)) off n, if off = 0x78 then (readInvStat w s).2 else s)
      else if off < 0x20000 then
        let i := (off - 0x10000) / 64
        (if i < sqSize p ∧ !queuesHidden s w p then leBytes ((tget 0 p.sq i).toNat / 2 ^ (8 * (off % 64))) n else List.replicate n 0, s)
      else if off < 0x30000 then
        let i := (off - 0x20000) / 16
        (if i < cqSize p ∧ !queuesHidden s w p then leBytes ((tget 0 p.cq i).toNat / 2 ^ (8 * (off % 16))) n else List.replicate n 0, s)
      else (List.replicate n 0, s)

/-- A slot of the submission queue: one that holds a submitted descriptor keeps it, and the write is counted (R644); in a cycle the
slots are written before the tail (R637). -/
def slotWrite (q off : Nat) (data : List Byte) (s : State) : State :=
  let p := qpOf s q
  let i := (off - 0x10000) / 64
  if p.st = .disabled ∨ p.st = .refused ∨ sqSize p ≤ i then s
  else if (i + sqSize p - p.rd) % sqSize p < sqCount p ∧ tget 0 p.sqAt i ≠ s.time.cycle then setQp q { p with slotIgnored := p.slotIgnored + 1 } s
  else
    let b := leBytes (tget 0 p.sq i).toNat 64
    let v := leNat (b.take (off % 64) ++ data ++ b.drop (off % 64 + data.length))
    setQp q { p with sq := tput 0 p.sq i (BitVec.ofNat 512 v) } s

/-- A write of a register of the window. -/
def qwRegWrite (w : Win) (off : Nat) (data : List Byte) (s : State) : State :=
  let wide := [0x08, 0x18, 0x60, 0x68, 0x70].contains (off / 8 * 8)
  match regValue wide off data with
  | none => s
  | some v =>
    if off = 0 then s.setWin fun x => { x with qpSel := tput 0 x.qpSel (winKey w) (v % 1024) }
    else if off = 0x08 then qpcfgWrite w (BitVec.ofNat 64 v) s
    else if off = 0x40 then sqTail w (BitVec.ofNat 32 v) s
    else if off = 0x48 then cqHead w (BitVec.ofNat 32 v) s
    else if off = 0x60 then tierHint w (BitVec.ofNat 64 v) s
    else if off = 0x70 then xlinvCommand w (BitVec.ofNat 64 v) s
    else match winQp s w with
      | none => s
      | some q =>
        let p := qpOf s q
        if off = 0x18 then setQp q { p with pushAddr := bitsOf v 56 6 * 64 } s
        else if off = 0x68 then setQp q { p with invAddr := v } s else s

/-- A write of the window. -/
def qwWrite (w : Win) (off : Nat) (data : List Byte) (s : State) : State :=
  if off < 0x10000 then qwRegWrite w off data s
  else if off < 0x20000 then match winQp s w with
    | some q => slotWrite q off data s
    | none => s
  else s

/-! ## A teller channel (R649, R650) -/

/-- A read of a channel block. -/
def chRead (s : State) (c off n : Nat) : List Byte :=
  let v := chanOf s c
  let r := off / 8 * 8
  if 0x1000 ≤ off ∧ off < 0x2000 then getBytes v.send (off - 0x1000) n
  else if 0x2000 ≤ off ∧ off < 0x3000 then
    (if v.replyFull then slice ((v.rply.map (·.bytes)).getD []) (off - 0x2000) n else List.replicate n 0)
  else if r = 0x08 then regBytes ((if v.replyFull then 2 else 0) + if v.msg.isSome then 1 else 0) off n
  else if r = 0x10 then regBytes (tlAckWord v) off n
  else if r = 0x18 then regBytes (tlRplyWord v) off n
  else List.replicate n 0

/-- A write of a channel block. -/
def chWrite (c off : Nat) (data : List Byte) (s : State) : State :=
  if 0x1000 ≤ off ∧ off < 0x2000 then
    let v := chanOf s c
    setChan c { v with send := putBytes v.send (off - 0x1000) data } s
  else if off = 0 then match regValue true off data with
    | some v => tlSend c (BitVec.ofNat 64 v) s
    | none => s
  else if off = 0x20 then match regValue false off data with
    | some v => tlDone c (BitVec.ofNat 32 v) s
    | none => s
  else s

/-! ## The tenant view (R636) -/

/-- An offset within the view. -/
def inView (off n : Nat) : Bool := decide (off + n ≤ 0x43000)

/-- A part of the view that takes bursts: queue slots and teller buffers. -/
def viewBursts (off : Nat) : Bool := decide ((0x10000 ≤ off ∧ off < 0x30000) ∨ (0x41000 ≤ off ∧ off < 0x43000))

/-- The shape of an access to the view. -/
def viewShape (write : Bool) (off n : Nat) : Bool := regAccess off n || (write && viewBursts off && burstAccess off n)

/-- Reads and writes within the view of tenant `t`, of a shape that R637 allows. -/
def viewRead (t : Fin 64) (off n : Nat) (s : State) : List Byte × State :=
  if off < 0x40000 then qwRead (.tenant t) off n s else (chRead s t.val (off - 0x40000) n, s)
def viewWrite (t : Fin 64) (off : Nat) (data : List Byte) (s : State) : State :=
  if off < 0x40000 then qwWrite (.tenant t) off data s else chWrite t.val (off - 0x40000) data s

/-! ## Requests to a window (R469, R566, R636, R637) -/

/-- A window access fails with an Err of a code on a pier; elsewhere it reads 0 and is ignored. -/
def winRefuse (r : Req) (code : Nat) (s : State) : State :=
  if r.src < 13 then answerFail r code s
  else answerDone r 0 (if isWrite r then [] else List.replicate r.len 0) s

/-- The access is carried out: beyond the ranges or under an unbound PASID 0x20, of another size or alignment 0x50. A write on
an Ethernet port of a twin is relayed (R594). -/
def winServe (r : Req) (s : State) : State :=
  if h : r.tenant < 64 ∧ !(decide (8 ≤ r.src ∧ r.src < 13)) ∧ inView r.addr r.len then
    if !viewShape (isWrite r) r.addr r.len then winRefuse r ccBadDesc s
    else if isWrite r then
      let s := viewWrite ⟨r.tenant, h.1⟩ r.addr r.data s
      if relays s r then setReq { r with stage := .remote } (emit (.span 12 7 r.id (leBytes r.addr 8 ++ r.data)) s)
      else answerDone r 0 [] s
    else
      let (bs, s) := viewRead ⟨r.tenant, h.1⟩ r.addr r.len s
      answerDone r 0 bs s
  else winRefuse r ccXlate s

/-- A window access arrives: the port's toll meters it, and no gate holds it (R519, R529). -/
def winArrive (r : Req) (cin : Nat) (s : State) : State :=
  let s := linkTally false (srcUnit r.src) (if r.src < 13 then kafSlots r.data.length else r.data.length) (tookId s)
  let s := tenantCount r.tenant 7 r.data.length s
  let s := if paired s ∧ r.src < 13 then { s with span := { s.span with seqIn := tins s.span.seqIn r.src r.tag } } else s
  if sunk s then s
  else if s.span.twin = .syncing then
    if obj s 0x8300 1 = 3 then setReq { r with stage := .held } s
    else if isWrite r then { winServe r s with out := s.out } else s
  else
    match markReq r cin s with
    | (true, _, s) => answerFail r ccRate s
    | (false, [], s) => winServe r s
    | (false, ks, s) => setReq { r with stage := .tolled, tolls := ks, waited := true } s

/-- WIN_RD: 4 or 8 bytes asked in mask [3:0]; WIN_WR: 4 to 64 bytes. -/
def winKaf (port op : Nat) (m : KafMsg) (len : Nat) (s : State) : State :=
  if m.op ≠ op ∨ !linkUp s port then s
  else match transit port m s with
    | some s => s
    | none => winArrive { kafReq port m (if op = 0x49 then .uw else .ur) len s with agent := none } 0 s

/-- WIN_RD. -/
def execWinRd (port : Fin 13) (m : KafMsg) (s : State) : Res := .next (winKaf port.val 0x48 m (m.mask % 16) s)

/-- WIN_WR. -/
def execWinWr (port : Fin 13) (m : KafMsg) (s : State) : Res := .next (winKaf port.val 0x49 m m.data.length s)

/-! ## RoCE requests (R564 to R568) -/

/-- The R_Keys of R566. -/
def rkPool : Nat := 0x100
def rkWindow : Nat := 0x200
def rkStatus : Nat := 0x300

/-- RDMA_WRITE of a whole message by the class of its PSN: one that repeats an acknowledged PSN is acknowledged again, one ahead
of the expected PSN is a sequence error (kind 0; log entry 34). -/
def rdmaWriteAs (c : Psn) (port qp psn rkey addr : Nat) (data : List Byte) (dscp : Nat) (s : State) : State :=
  match c with
  | .again => emit (.roce port qp psn 0 0 []) s
  | .ahead => emit (.roce port qp psn 2 0 []) s
  | .next =>
    let s := roceTake port qp data.length s
    if rkey = rkPool then
      if 2 ^ 57 ≤ addr then roceNak port qp psn ccBadDesc 1 s
      else arrive (roceReq port qp 0x200 psn addr data.length data s) (dscpColour dscp) s
    else if rkey = rkWindow then winArrive (roceReq port qp 0x210 psn addr data.length data s) (dscpColour dscp) s
    else roceNak port qp psn ccXlate 2 s

def rdmaWrite (port qp psn rkey addr : Nat) (data : List Byte) (dscp : Nat) (s : State) : State :=
  rdmaWriteAs (psnClass (roceOf s (port * 256 + qp)) psn) port qp psn rkey addr data dscp s

/-- RDMA_WRITE. -/
def execRdmaWrite (port : Fin 2) (qp : Fin 256) (psn : BitVec 24) (rkey : BitVec 32) (addr : BitVec 64) (data : List Byte)
    (dscp : BitVec 6) (s : State) : Res :=
  if !ethOpen s port.val ∨ !roceOn s port.val qp.val then .next s
  else .next (rdmaWrite port.val qp.val psn.toNat rkey.toNat addr.toNat data dscp.toNat s)

/-- A read of the RoCE queue pair's own status block, by its offset within the 64 bytes. -/
def statusRead (port qp psn addr len : Nat) (s : State) : State :=
  if 64 < addr + len then roceNak port qp psn ccXlate 2 s
  else
    let bs := slice (roceStatus (roceOf s (port * 256 + qp))) addr len
    linkTally true (25 + port) len (emit (.roce port qp psn 1 0 bs) s)

/-- An RDMA READ Request of `len` bytes, carried out at once or again when it repeats one. -/
def rdmaReadAs (c : Psn) (port qp psn rkey addr len dscp : Nat) (s : State) : State :=
  match c with
  | .ahead => emit (.roce port qp psn 2 0 []) s
  | c =>
    let s := if c = .next then roceTake port qp len s else s
    if rkey = rkPool then
      if 2 ^ 57 ≤ addr then roceNak port qp psn ccBadDesc 1 s
      else arrive (roceReq port qp 0x201 psn addr len [] s) (dscpColour dscp) s
    else if rkey = rkWindow then winArrive (roceReq port qp 0x211 psn addr len [] s) (dscpColour dscp) s
    else if rkey = rkStatus then statusRead port qp psn addr len s
    else roceNak port qp psn ccXlate 2 s

def rdmaRead (port qp psn rkey addr len dscp : Nat) (s : State) : State :=
  rdmaReadAs (psnClass (roceOf s (port * 256 + qp)) psn) port qp psn rkey addr len dscp s

/-- RDMA_READ_REQUEST. -/
def execRdmaReadRequest (port : Fin 2) (qp : Fin 256) (psn : BitVec 24) (rkey : BitVec 32) (addr : BitVec 64) (len : Nat)
    (dscp : BitVec 6) (s : State) : Res :=
  if !ethOpen s port.val ∨ !roceOn s port.val qp.val then .next s
  else .next (rdmaRead port.val qp.val psn.toNat rkey.toNat addr.toNat len dscp.toNat s)

end Sys2Proof.Machine
end

