-- ==== Sys2Proof/Machine/Shaping.lean ====
section
/-! DEFINITION. The tolls let their items go, and the tenants' hold limits end (R227, R228, R405, R406, R534 to R537). -/

namespace Sys2Proof.Machine

/-- Toll `k` has released an item: a descriptor may be dispatched; a request goes on when every toll has released it. -/
def tollPass (k item : Nat) (s : State) : State :=
  match flightOf s item with
  | some f => if f.stage = .tolled then setFlight { holdEnd s.time.cycle f with stage := .waiting } s else s
  | none =>
    match reqOf s item with
    | none => s
    | some r =>
      let r := { r with tolls := r.tolls.filter fun j => j != k }
      if !r.tolls.isEmpty then setReq r s else if isWin r then winServe r s else gateReq r s

/-- Release what a disabled toll holds, in marking order. -/
def tollDrain : Nat → Nat → State → State
  | 0, _, s => s
  | n + 1, k, s =>
    match tollPop k s with
    | (some item, s) => tollDrain n k (tollPass k item s)
    | (none, s) => s

/-- A toll's record has been written: its buckets fill afresh, and a toll that is off releases everything at once (R537). -/
def tollFresh (s : State) (k : Nat) : State :=
  let (_, cbs, _, pbs) := tollRates s k
  let t := tget ({} : Toll) s.shape.tolls k
  let s := setToll k { t with tc := cbs * 2000, tp := pbs * 2000, on := true, at_ := s.time.cycle } s
  if tollField s k 1 = 0 then tollDrain t.queue.length k s else s

/-- The head item's time comes, and it is released; a red one that has become yellow then waits as yellow. -/
def tollHead : Nat → Nat → State → State
  | 0, _, s => s
  | n + 1, k, s =>
    match tollDue s k with
    | none => s
    | some c =>
      match tollPop k (elapse c s) with
      | (some item, s) => tollPass k item s
      | (none, s) => tollHead n k s

/-- The first move that a migration toll meters and its bytes. -/
def migrHead (s : State) (k : Nat) : Option Nat :=
  ((readyMoves s).find? fun m => if k = 200 then m.prio != 1 else 300 + m.tenant == k).bind fun m =>
    (frameOf s m.frame).map fun v => 2 * v.size

/-- A migration toll covers the first move that waits for it. -/
def migrRelease (k : Nat) (s : State) : State :=
  match migrHead s k with
  | none => s
  | some n =>
    let t := tollNow s k
    match tollWait t.tc (min n 8388608 * 2000) (tollRates s k).1 with
    | none => s
    | some c => runMoves (elapse c s)

/-- TOLL_RELEASE: the clock is carried to the cycle in which the tokens cover the head item. -/
def execTollRelease (toll : Nat) (s : State) : Res := .next (if 200 ≤ toll then migrRelease toll s else tollHead 2 toll s)

/-- A release of a toll. -/
def releasesFrom (toll : Nat) : Instr → Bool
  | .tollRelease k => k == toll
  | _ => false

/-- A request held past its tenant's hold limit is refused; one on an upstream CXL port never is (R535); the release of the one toll
that holds it wins in the cycle of expiry (R26). -/
def holdRequest (r : Req) (s : State) : State :=
  let due := r.since + holdLimit s r.tenant
  if r.stage ≠ .tolled ∨ 64 ≤ r.tenant ∨ (0x10 ≤ r.src ∧ r.src < 0x14) then s
  else if arrivalWins due (fun i => r.tolls.all fun k => releasesFrom k i) s then carryTo due s
  else answerFail r ccRate (tollLeave r.id (carryTo due s))

/-- A descriptor held past the hold limit is refused: 0x11 at its toll, 0x12 otherwise. A release in the cycle in which the limit
expires wins (R26); an ATTEND whose deadline expires in that cycle ends with 0x41 (R406). -/
def holdFlight (f : Flight) (s : State) : State :=
  match f.heldAt with
  | none => s
  | some c =>
    let due := c + (holdLimit s f.tenant - f.heldFor)
    let late := dOpcode f.desc == 1 && aDeadline f.desc != 0 && f.readAt + usCycles (aDeadline f.desc) == due
    if f.forToll ∧ arrivalWins due (releasesFrom f.tenant) s then carryTo due s
    else
      let s := tollLeave f.id (carryTo due s)
      if late then complete f.id ccAborted 1 0 0 s
      else complete f.id (if f.forToll then ccRate else ccFull) 0 0 0 s

/-- The starved head of a queue pair reaches the limit: it is read without a place. -/
def holdStarved (q : Nat) (s : State) : State :=
  let p := qpOf s q
  match p.starvedAt with
  | some c => if p.starved then readHead q false (carryTo (c + holdLimit s p.tenant) s) else s
  | none => s

/-- ADMISSION_HOLD_LIMIT (R406): of the starved head of a queue pair, or of a held descriptor or request `d`. -/
def execAdmissionHoldLimit (qp : Fin 1024) (d : Option Nat) (s : State) : Res :=
  match d with
  | none => .next (holdStarved qp.val s)
  | some id =>
    match flightOf s id, reqOf s id with
    | some f, _ => .next (holdFlight f s)
    | none, some r => .next (holdRequest r s)
    | none, none => .next s

end Sys2Proof.Machine
end

