-- ==== Sys2Proof/Machine/Spans.lean ====
section
/-! DEFINITION. Spans and twin pairs: the span map, striped contexts at a member and at the entry device, and the pair's log,
records, comparison, loss, resynchronisation and handover (R574 to R609). -/

namespace Sys2Proof.Machine

def State.setSpan (s : State) (f : Span → Span) : State := { s with span := f s.span }

/-! ## The span map (R576, R577, R609) -/

/-- From index `i` a tree's parents end at 0xFF: there is no cycle on the way. -/
def mapClimbs (b : List Byte) (root : Nat) : Nat → Nat → Bool
  | 0, _ => false
  | k + 1, i =>
    let p := byteAt b (1552 + 16 * root + i)
    p == 0xFF || mapClimbs b root k p

/-- The rules of R577. -/
def mapOk (b : List Byte) : Bool :=
  let present := leNat (slice b 4 2)
  let paired := leNat (slice b 6 2)
  let has := fun (i : Nat) => decide (i < 16) && bitAt present i
  has (byteAt b 1) && (byteAt b 2 == 0xFF || has (byteAt b 2)) && paired &&& present == paired
    && byteAt b 3 == 0 && leNat (slice b 8 8) == 0
    && (List.range 16).all fun r => (List.range 16).all fun i =>
      let p := byteAt b (1552 + 16 * r + i)
      if p = 0xFF then i == r || !has i || !has r else has p && mapClimbs b r 17 i

/-- A write of 8000:01: in force at the next step boundary. -/
def writeMap (b : List Byte) (s : State) : Nat × State :=
  if b.length ≠ 1808 then (abLength, s) else if !mapOk b then (abValue, s) else (0, waitDom 0x8000 1 b s)

/-- SPAN_MAP_WRITE, by the pool manager, the rack manager or the keystone. -/
def execSpanMapWrite (p : Prin) (rec : List Byte) (s : State) : Res :=
  .next (objCmd p 0x8000 1 (writeMap rec) s)

/-- The keystone index of the map. -/
def mapKeystone (s : State) : Nat := byteAt (objDom s 0x8000 1) 1

/-- SPAN_MAP_DIGEST: kept at the keystone. -/
def execSpanMapDigest (index : Fin 16) (digest : BitVec 384) (s : State) : Res :=
  if (objDom s 0x8000 1).isEmpty ∨ mapKeystone s ≠ ownIndex s then .next s
  else .next (s.setSpan fun p => { p with digests := tins p.digests index.val digest })

/-- 8000:05 and 8000:06. -/
def membersReachable (s : State) : Nat :=
  (List.range 16).foldl (fun a i => if memberOf s i && reachable s i then a + 2 ^ i else a) 0
def mapsDiffer (s : State) : Nat :=
  let own := Config.sha384 (objDom s 0x8000 1)
  s.span.digests.foldl (fun a d => if memberOf s d.1 && d.2 != own then a + 2 ^ d.1 else a) 0

/-! ## A member's part of a striped descriptor (R584 to R588) -/

/-- A flight for a part that an entry device has sent. -/
def partFlight (s : State) (home d len : Nat) (desc : Desc) (input : List Byte) : Flight :=
  { id := s.attn.nextId, qp := 1024 + home, tenant := (ctxOf s (dCtx desc)).tenant, desc := desc, seq := d, slot := 0, place := false
    stage := .running, held := false, heldFor := 0, heldAt := none, forToll := false, readAt := s.time.cycle
    shownAt := s.time.cycle, input := input, len := min len (ctxOf s (dCtx desc)).length, cores := [], left := [], parts := []
    merged := [], due := [], codes := [], tilesRead := 0, tilesAll := 0, rounds := 0, r1 := 0, r2 := 0, acks := 0, t1r := 0
    t1w := 0, tiles := 0, members := [] }

/-- Checks 1 and 4 of R125 on a member. -/
def partGone (s : State) (f : Flight) : Option (Nat × Nat) :=
  let x := ctxOf s (dCtx f.desc)
  if (tenantOf s f.tenant).st = .removing then some (ccClosed, 0)
  else if x.st ≠ .open ∨ spanMask s (dCtx f.desc) = 0 then some (ccBadDesc, 0x41)
  else if !pasidHeld s (dPasid f.desc) f.tenant then some (ccBadDesc, 8) else none

/-- The part runs: checks 7 and 8 on it, then the member's own pages; the two-phase kind is prepared and reports. -/
def runPart (f : Flight) (s : State) : State :=
  let x := ctxOf s (dCtx f.desc)
  let fail := fun (c d : Nat) => complete f.id c d 0 0 s
  match dOpcode f.desc with
  | 1 =>
    if !attendLimits f.desc x then fail ccBadDesc 0x43
    else match inputCheck (askOf s f) with
      | some (c, d) => fail c d
      | none =>
        if revokedPage s (dCtx f.desc) (dLayer f.desc) then fail ccRevoked 3
        else if partWaits f s then setFlight { f with stage := .waiting } s else startPart startAttend f s
  | 5 => completeEff f.id (memEff f.desc f.input s)
  | 6 => finishRange f.id (runMoves ((rangePages s f.desc).foldl (prefetchPage f) s))
  | 7 => finishRange f.id (runMoves ((rangePages s f.desc).foldl (pinPage f) s))
  | 8 => finishRange f.id (runMoves ((rangePages s f.desc).foldl (evictPage f) s))
  | 9 => if partWaits f s then setFlight { f with stage := .waiting } s else startPart startCompact f s
  | _ =>
    let e := memEff f.desc f.input s
    if e.code = 0 then
      let (f, s) := preparePart f e s
      memberReport f 0 0 e.r1 e.r2 (setFlight f s)
    else complete f.id e.code e.detail e.r1 e.r2 s

/-- STRIPED_PART. -/
def execStripedPart (port : Fin 13) (desc : Desc) (home : Fin 16) (d : Nat) (len : Nat) (input : List Byte) (s : State) : Res :=
  if port.val < 8 ∨ port.val = 12 ∨ !linkUp s port.val ∨ sunk s ∨ home.val = ownIndex s ∨ !opKnown (dOpcode desc) then .next s
  else
    let f := partFlight s home.val d len desc input
    let s := s.setAttn fun a => { a with flights := a.flights ++ [f], nextId := a.nextId + 1 }
    match partGone s f with
    | some (c, dt) => .next (complete f.id c dt 0 0 s)
    | none => .next (runPart f s)

/-- The flight of a part, by the entry device's number and a port toward it. -/
def partOf (s : State) (port d : Nat) : Option Flight :=
  s.attn.flights.find? fun f => decide (1024 ≤ f.qp) && f.seq == d && (routesTo s (f.qp - 1024)).contains port

/-- STRIPE_COMMIT: the prepared part is applied. -/
def execStripeCommit (port : Fin 13) (d : Nat) (s : State) : Res :=
  match partOf s port.val d with
  | none => .next s
  | some f =>
    if !twoPhase f.desc then .next s
    else
      let e := applyPart f s
      let s := if e.code = 0 then e.s else givePrep f s
      .next (s.setAttn fun a => { a with flights := a.flights.filter fun g => g.id != f.id })

/-- STRIPE_ABORT: what was prepared is released, and a part that runs stops. -/
def execStripeAbort (port : Fin 13) (d : Nat) (s : State) : Res :=
  match partOf s port.val d with
  | none => .next s
  | some f =>
    let s := givePrep f (faultDrop f.id (cancelWork f.id s))
    .next (swapAll (if twoPhase f.desc then s.setAttn fun a => { a with flights := a.flights.filter fun g => g.id != f.id }
      else complete f.id 0 0 0 0 s))

/-- MEMBER_REPORT at the entry device: results add up, and with the last report the descriptor goes on (R586). -/
def execMemberReport (d : Nat) (index : Fin 16) (code : BitVec 8) (detail : BitVec 8) (r1 r2 rounds : Nat) (s : State) : Res :=
  match flightOf s d with
  | none => .next s
  | some f =>
    if 1024 ≤ f.qp ∨ !f.members.contains index.val then .next s
    else
      let f := { f with members := f.members.erase index.val, codes := f.codes ++ [(code.toNat, detail.toNat)] }
      let f := if dOpcode f.desc = 1 then { f with tilesRead := f.tilesRead + r1, tilesAll := f.tilesAll + r2, rounds := max f.rounds rounds }
        else if twoPhase f.desc then { f with r2 := f.r2 + r2 } else { f with r1 := f.r1 + r1, r2 := f.r2 + r2 }
      let s := setFlight f s
      if dOpcode f.desc = 1 ∨ dOpcode f.desc = 9 then .next (swapAll (workEnded d s)) else .next (finishStriped d s)

/-- A row of a device partial as a partial of R83: m = s, l = 1, B = ρ', o = ô; −∞ gives an empty row. -/
def landedRow (r : Option Dy × Dy × Option Dy × List Dy) : Row :=
  { m := r.1, l := if r.1.isSome then dyOf 1 else dyZero, bound := r.2.2.1, o := r.2.2.2 }

/-- SPAN_PARTIAL: `d` is the flight of this device whose slot the partial names. The first of a child index is taken; one whose
ATTEND has ended is discarded (R588, R638). -/
def execSpanPartial (port : Fin 13) (d : Nat) (rows : List (Option Dy × Dy × Option Dy × List Dy)) (s : State) : Res :=
  match flightOf s d with
  | none => .next s
  | some f =>
    let x := ctxOf s (dCtx f.desc)
    match f.due.find? fun p => decide (16 ≤ p.1) && (routesTo s (p.1 - 16)).contains port.val with
    | none => .next s
    | some (k, _) =>
      if rows.length ≠ rowsAll f.desc x then .next s
      else .next (setFlight { f with
        parts := f.parts ++ [(x.home, rows.map landedRow)]
        due := tput 0 (tput 0 f.due k 0) x.home (tget 0 f.due x.home + 1) } s)

/-! ## Alarms and the tracked home (R601 to R603, R606) -/

/-- An alarm: 8200:0A, telemetry and EMCY. -/
def alarm (n : Nat) (s : State) : State :=
  let s := setObj 0x8200 0x0A n s
  telemetry 5 n (emcyRaise 1 0x8200 0x0A n s)

def setTwin (t : TwinState) (s : State) : State := s.setSpan fun p => { p with twin := t }

/-- The lines that a held tracked message names. -/
def heldLines (s : State) (r : Req) : List Nat :=
  if isWin r then []
  else if r.lines.isEmpty then match (placeReq r s).1 with
    | .at_ ps => trackedLines s ps
    | _ => []
  else r.lines

/-- A request that was held is served. -/
def serveOne (s : State) (r : Req) : State := if isWin r then winServe r s else if r.cls = .wb then serveWb r s else serveReq r s

/-- Held messages are served in arrival order. -/
def serveHeld (s : State) : State := (s.coh.reqs.filter fun r => r.stage == .held).foldl serveOne s

/-- Steps 3 and 4 of R603: each uncertain line is snooped at the agents that named it and at its holders, and the held messages
are served. -/
def takeHome (s : State) : State :=
  let held := s.coh.reqs.filter fun r => r.stage == .held
  let lines := ((held.flatMap (heldLines s)).eraseDups).filter fun l => !locked s l
  let asked := fun (s : State) (l : Nat) => ((List.range 12).filter fun a => agentUp s a
    && ((holdersAt s l).contains a || held.any fun r => r.agent == some a && (heldLines s r).contains l)).map fun a => (l, a, snpInv)
  serveHeld (settle (lines.foldl (fun s l => openTxn (newTxn (.recall false) [l]) (asked s l) 15 0 s) s))

/-- Writes that wait for the partner's acknowledgement complete (R594). -/
def relaysDone (s : State) : State :=
  (s.coh.reqs.filter fun r => r.stage == .remote && r.remote.isEmpty && decide (0x10 ≤ r.src)).foldl (fun s r => answerDone r 0 [] s) s

/-- The partner is lost: a follow takes over, a lead goes on alone (R603). -/
def goSole (why : Nat) (s : State) : State :=
  let follow := s.span.twin == .follow
  let s := setTwin .sole (relaysDone s)
  let s := s.setSpan fun p => { p with swapped := false, handover := none, proving := none, logBytes := 0, disagree := false, own := none, other := none
                                       mirror := [], accepted := [] }
  let s := if follow then takeHome (bumpObj 0x8200 6 1 32 s) else s
  alarm why s

/-- The twin stops answering. -/
def stopTwin (t : TwinState) (why : Nat) (s : State) : State := alarm why (setTwin t s)

/-! ## The log (R593) -/

/-- A directory entry from a record's word (its layout as `twinLog` writes it). -/
def logEntryDir (s : State) (w : BitVec 64) : Dir :=
  { st := fld w 28 26, keeper := if fld w 25 21 = 15 then 15 else fld w 25 21, holders := fld w 20 9, used := s.time.cycle }

/-- TWIN_LOG_RECORD: applied by the twin whose home is not active; the held message that it shows as served is discarded. -/
def execTwinLogRecord (src : Nat) (tag : Nat) (line : Nat) (entry : BitVec 64) (data : List Byte) (s : State) : Res :=
  if !(paired s || s.span.twin == .syncing) ∨ homeActive s ∨ !linkUp s 12 then .next s
  else
    let rec_ := leBytes src 1 ++ leBytes tag 2 ++ leBytes line 8 ++ leBytes entry.toNat 8 ++ data
    let s := s.setSpan fun p => { p with
      logged := p.logged + 1, logDigest := Config.sha384 (leBytes p.logDigest.toNat 48 ++ rec_), heardVia := s.time.cycle
      viaSilent := false }
    let s := if data.length = 64 then memStore (line * 64) (2 ^ 64 - 1) data false s else s
    let s := setDir line (logEntryDir s entry) s
    match s.coh.reqs.find? fun r => r.stage == .held && r.src == src && (r.tag == tag || (r.cls == .wb && (heldLines s r).contains line)) with
    | some r => .next (dropReq r.id s)
    | none => .next s

/-! ## Comparison of answers (R597 to R601) -/

/-- One statistic of two buckets agrees (R599). -/
def statAgrees (s : State) (a b : Dy) (k : Nat) : Bool :=
  let rho : Dy := { m := (obj s 0x8200 1 : Nat), e := -16 }
  let eps := fmtVal fmtF32 (obj s 0x8200 2)
  dyLe (dyAbs (dySub a b)) (dyAdd (dyMul rho (dyMax (dyAbs a) (dyAbs b))) (dyMul eps (dyOf k)))

/-- Two records of a bucket agree. -/
def bucketAgrees (s : State) (a b : Bucket) : Bool :=
  a.crc == b.crc && a.n == b.n && statAgrees s (f64Val a.sum) (f64Val b.sum) a.n && statAgrees s (f64Val a.sumsq) (f64Val b.sumsq) a.n
    && statAgrees s (fmtVal fmtF32 a.maxabs) (fmtVal fmtF32 b.maxabs) 1

/-- A disagreement: a self-check is due, which judges the error log from `since` on. -/
def disagree (since : Nat) (s : State) : State :=
  bumpObj 0x8200 5 1 32 (s.setSpan fun p => { p with
    disagree := true, own := none, other := none, logAt := if p.disagree then min p.logAt since else since })

/-- One bucket that both twins have closed is compared, or skipped. -/
def compareBucket (s : State) (k : Nat) : State :=
  let a := tget ({} : Bucket) s.span.closed k
  let b := tget ({} : Bucket) s.span.partner k
  let s := s.setSpan fun p => { p with closed := tput ({} : Bucket) p.closed k {}, partner := tput ({} : Bucket) p.partner k {} }
  if a.bad ≠ 0 ∨ b.bad ≠ 0 then bumpObj 0x8200 4 1 64 s
  else
    let s := bumpObj 0x8200 3 1 64 s
    if bucketAgrees s a b then s else disagree a.since s

/-- Every bucket of which both records are held is compared. -/
def compareBuckets (s : State) : State :=
  let ks := (s.span.closed.filter fun p => s.span.partner.any fun q => q.1 == p.1).map (·.1)
  ks.foldl compareBucket s

/-- An entry of the error log from `logAt` on that shows an internal fault (R600). -/
def logFault (s : State) : Bool :=
  s.mem.log.any fun e => [2, 4, 5, 6, 0x0B, 0x0E].contains e.2.kind
    && decide ((e.1 + 4096 - s.span.logAt % 4096) % 4096 < (s.mem.logWr + 2 ^ 32 - s.span.logAt) % 2 ^ 32)

/-- TWIN_SELF_CHECK, in the background window after a disagreement: `ok` where check tiles and vectors pass. -/
def execTwinSelfCheck (ok : Bool) (s : State) : Res :=
  if s.span.disagree ∧ s.span.own.isNone ∧ s.clk.winOpen then
    .next (s.setSpan fun p => { p with own := some (!ok || logFault s) })
  else .next s

/-- DISAGREEMENT_ACTION: at the boundary after both results are known, the table of R601. -/
def execDisagreementAction (s : State) : Res :=
  match s.span.own, s.span.other with
  | some own, some other =>
    let lead := s.span.twin == .lead
    let (l, f) := if lead then (own, other) else (other, own)
    let s := s.setSpan fun p => { p with disagree := false, own := none, other := none }
    if !paired s then .next s
    else if lead then .next (if l && !f then stopTwin .fenced 2 s else alarm (if f then 2 else 1) s)
    else if !l && !f then .next (stopTwin .detached 1 s)
    else if f then .next (stopTwin .fenced 2 s) else .next (goSole 2 s)
  | _, _ => .next s

/-! ## Step records (R595, R596) -/

/-- The digest of the extent table. -/
def extentDigest (s : State) : BitVec 384 :=
  Config.sha384 (s.led.exts.flatMap fun e => leBytes e.1 4
    ++ leBytes (match e.2.st with | .free => 0 | .granting => 1 | .granted => 2 | .escrow => 3) 1
    ++ leBytes e.2.kind 1 ++ leBytes e.2.owner 1 ++ leBytes e.2.mode 1)

/-- A bucket's record as bytes. -/
def bucketBytes (k : Nat) (b : Bucket) : List Byte :=
  leBytes k 8 ++ leBytes b.count 2 ++ leBytes b.bad 2 ++ leBytes b.crc 8 ++ leBytes b.n 8 ++ leBytes b.sum 8 ++ leBytes b.sumsq 8
    ++ leBytes b.maxabs 4

/-- A mirrored command as index, subindex and bytes: index 0x10000 an OPEN of a context, 0x10001 a CLOSE. -/
def mirrorOf (c : Nat × Nat × List Byte) : Mirror :=
  if c.1 = 0x10000 then .ctx false c.2.1 else if c.1 = 0x10001 then .ctx true c.2.1 else .write c.1 c.2.1 c.2.2
def mirrorBytes : Mirror → List Byte
  | .write i n bs => leBytes i 4 ++ leBytes n 2 ++ leBytes bs.length 2 ++ bs
  | .ctx c n => leBytes (if c then 0x10001 else 0x10000) 4 ++ leBytes n 2 ++ leBytes 0 2

/-- The sequence delta: of each requester the last number registered, of each queue pair the ordinal of the last descriptor
read. -/
def seqDelta (s : State) : Tbl Nat :=
  s.span.seqIn ++ (s.led.qps.filter fun q => q.2.st != .disabled).map fun q => (64 + q.1, q.2.seq)

/-- The checkpoint cut closes this twin's step record and sends it (R596; kind 9 on the viaduct). -/
def closeRecord (s : State) : State :=
  if !paired s then s
  else
    let led := extentDigest s
    let dir := s.span.logDigest
    let seqs := seqDelta s
    let body := leBytes s.clk.last 6 ++ leBytes led.toNat 48 ++ leBytes dir.toNat 48 ++ leBytes s.span.logged 4
      ++ (s.span.fresh.flatMap fun k => bucketBytes k (tget ({} : Bucket) s.span.closed k))
      ++ (match s.span.own with | none => [] | some b => [if b then 1 else 0])
      ++ (seqs.flatMap fun q => leBytes q.1 2 ++ leBytes q.2 4)
      ++ (if s.span.twin = .lead then s.span.accepted.flatMap mirrorBytes else [])
    let s := s.setSpan fun p => { p with
      cutLedger := led, cutDir := dir, cutLog := s.mem.logWr, logged := 0, logDigest := 0, fresh := [], accepted := [], recordIn := false
      sentAt := s.time.cycle }
    if linkUp s 12 then emit (.span 12 9 s.clk.last body) s else s

/-- The tracked home passes to the other twin, or back. -/
def passHome (across : Bool) (s : State) : State :=
  let s := s.setSpan fun p => { p with swapped := across }
  if homeActive s then takeHome s else s

/-- A handover does not pass: the twin that held the home takes it back, counted, with an alarm (R607). -/
def handoverFails (s : State) : State :=
  alarm 6 (bumpObj 0x8200 8 1 32 (passHome (!s.span.swapped) (s.setSpan fun p => { p with handover := none })))

/-- The buckets that closed in a handover's step have been compared: it passed, or it did not (R606, R607); after a forced swap
the home has passed back by then. -/
def handoverJudged (was : Nat) (s : State) : State :=
  match s.span.proving with
  | none => s
  | some forced =>
    let s := s.setSpan fun p => { p with proving := none }
    if obj s 0x8200 5 = was then bumpObj 0x8200 7 1 32 s
    else if forced then alarm 6 (bumpObj 0x8200 8 1 32 s) else handoverFails s

/-- STEP_RECORD: buckets are compared, digests too, and the lead's commands wait for the next boundary. The final record of a
resynchronisation brings the cut (R604). -/
def execStepRecord (step : Nat) (ledger dir : BitVec 384) (buckets : List (Nat × List Nat)) (check : Option Bool)
    (seqs : List (Nat × Nat)) (cmds : List (Nat × Nat × List Byte)) (s : State) : Res :=
  if !linkUp s 12 then .next s
  else
    let s := s.setSpan fun p => { p with heardVia := s.time.cycle, viaSilent := false, recordIn := true }
    if s.span.twin = .syncing then .next (s.setSpan fun p => { p with cut := seqs.foldl (fun t q => tins t q.1 q.2) [] })
    else if !paired s then .next s
    else
      let part := buckets.foldl (fun (t : Tbl Bucket) b => tput ({} : Bucket) t b.1 {
        count := b.2.getD 0 0, bad := b.2.getD 1 0, crc := b.2.getD 2 0, n := b.2.getD 3 0, sum := b.2.getD 4 0
        sumsq := b.2.getD 5 0, maxabs := b.2.getD 6 0 }) s.span.partner
      let s := s.setSpan fun p => { p with
        partner := part, other := if check.isSome then check else p.other
        mirror := if p.twin = .follow then p.mirror ++ cmds.map fun c => (1, mirrorOf c) else p.mirror }
      let s := handoverJudged (obj s 0x8200 5) (compareBuckets s)
      .next (if step = s.clk.last ∧ (ledger ≠ s.span.cutLedger ∨ dir ≠ s.span.cutDir) then disagree s.span.cutLog s else s)

/-- A mirrored command is carried out (R595). -/
def applyMirror (m : Mirror) (s : State) : State :=
  match m with
  | .ctx false c => (openCtx c s).2
  | .ctx true c => (closeCtx c s).2
  | .write i n bs =>
    let v := leNat bs
    if i = 0x2400 ∧ n = 1 then (tenantCommand (BitVec.ofNat 16 v) s).2
    else if i = 0x2400 ∧ n = 2 then (writeGrant (BitVec.ofNat 128 v) s).2
    else if i = 0x2400 ∧ n = 3 then (writeRevoke v s).2
    else if i = 0x2402 then (writeReaders (n - 1) v s).2
    else if i = 0x2310 ∧ n = 1 then (bindPasid (BitVec.ofNat 128 v) s).2
    else if i = 0x2310 ∧ n = 2 then (unbindPasid (BitVec.ofNat 32 v) s).2
    else if i = 0x2301 then (writePortPasid (n - 1) v s).2
    else if i = 0x8010 then waitDom 0x8010 1 bs s
    else if objNorm i = 0x3006 ∧ n = 3 then (writeRotate ((i - 0x3006) / 16) v s).2
    else if objNorm i = 0x3006 ∧ n = 4 then (writeRetire ((i - 0x3006) / 16) v s).2 else s

/-- A step boundary passes: the commands whose second boundary it is are carried out. -/
def runMirror (s : State) : State :=
  let due := s.span.mirror.filter fun m => decide (m.1 ≤ 1)
  let s := s.setSpan fun p => { p with mirror := (p.mirror.filter fun m => decide (1 < m.1)).map fun m => (m.1 - 1, m.2) }
  due.foldl (fun s m => applyMirror m.2 s) s

/-! ## Keepalives and silence (R602) -/

/-- The guard link, where 8100:05 names one. -/
def guardLink (s : State) : Option Nat := if obj s 0x8100 5 < 4 then some (8 + obj s 0x8100 5) else none

/-- A twin of a pair that takes part. -/
def twinTalks (s : State) : Bool := paired s || s.span.twin == .sole || s.span.twin == .syncing

/-- TWIN_KEEPALIVE: the clock is carried to the interval's end, and both paths carry one (kind 0). -/
def execTwinKeepalive (s : State) : Res :=
  if !twinTalks s then .next s
  else
    let s := carryTo (s.span.sentAt + usCycles (obj s 0x8100 3)) s
    let send := fun (l : Nat) (s : State) => if linkUp s l then emit (.span l 0 0 []) s else s
    let s := send 12 (s.setSpan fun p => { p with sentAt := s.time.cycle })
    .next (match guardLink s with | some l => send l s | none => s)

/-- A path is silent or down. -/
def viaGone (s : State) : Bool := s.span.viaSilent || !linkUp s 12
def guardGone (s : State) : Bool := s.span.guardSilent || (match guardLink s with | some l => !linkUp s l | none => true)

/-- The arrival brings a record on the viaduct, or on the guard link. -/
def bringsRecord (viaduct : Bool) : Instr → Bool
  | .twinLogRecord _ _ _ _ _ => viaduct
  | .stepRecord _ _ _ _ _ _ _ => viaduct
  | _ => false

/-- The paths on which no record has arrived for 8100:04 are silent. -/
def noteSilence (s : State) : State :=
  let old := fun (c : Nat) => decide (c + usCycles (obj s 0x8100 4) ≤ s.time.cycle)
  s.setSpan fun p => { p with viaSilent := p.viaSilent || old p.heardVia, guardSilent := p.guardSilent || old p.heardGuard }

/-- PATH_SILENCE: the clock is carried to 8100:04 after the last record, where the path is not DOWN already, and a record that
arrives in that cycle keeps the path alive (R26). With both paths gone the partner is lost, with the viaduct alone the follow
steps down and the lead raises the alarm. -/
def execPathSilence (viaduct : Bool) (s : State) : Res :=
  let due := (if viaduct then s.span.heardVia else s.span.heardGuard) + usCycles (obj s 0x8100 4)
  let up := if viaduct then linkUp s 12 else (guardLink s).any (linkUp s)
  if !paired s then .next s
  else if up ∧ arrivalWins due (bringsRecord viaduct) s then .next (carryTo due s)
  else
    let s := noteSilence (if up then carryTo due s else s)
    if viaGone s ∧ guardGone s then .next (goSole (if s.span.twin = .follow then 3 else 4) s)
    else if viaduct then .next (if s.span.twin = .follow then stopTwin .detached 5 s else alarm 5 s)
    else .next s

/-! ## Resynchronisation (R604, R605) -/

def phase8300 (s : State) : Nat := obj s 0x8300 1

/-- Units that a resynchronisation copies. -/
def resyncUnits (s : State) : Nat :=
  ((s.led.exts.filter fun e => e.2.st == .granted && extTier e.1 == 1).length) * 2 ^ 18
    + (s.kv.frames.foldl (fun n f => n + (if f.2.t2.isSome then 1 else 0) + (if f.2.t3.isSome then 1 else 0)) 0)
    + (s.kv.ctxs.filter fun c => c.2.st != .free).length + s.led.exts.length
    + (s.coh.dir.filter fun d => (List.range 8).any fun a => bitAt d.2.holders a).length

/-- A held request lies at or below the cut. -/
def belowCut (s : State) (r : Req) : Bool :=
  match s.span.cut.find? fun q => q.1 == r.src with
  | some (_, n) => decide (r.src < 13 ∧ (n + 65536 - r.tag) % 65536 < 32768)
  | none => false

/-- Phase 3 ends: what lies above the cut is carried out, each queue pair goes on after it, and the twin answers as the follow. -/
def joinPair (s : State) : State :=
  let s := s.setCoh fun c => { c with reqs := c.reqs.filter fun r => !(r.stage == .held && belowCut s r) }
  let s := s.span.cut.foldl (fun s q => if 64 ≤ q.1 ∧ q.1 < 1088 then
      let p := qpOf s (q.1 - 64)
      if p.st = .active then setQp (q.1 - 64) { p with rd := q.2 % sqSize p, seq := q.2, reserved := q.2, consumed := q.2, done := [] } s
      else s
    else s) s
  let tracked := fun (r : Req) => r.cls == .wb || !(heldLines s r).isEmpty
  let s := setTwin .follow s
  (s.coh.reqs.filter fun r => r.stage == .held && !tracked r).foldl serveOne s

/-- The final record goes out with the cut (R604, phase 3; kind 10 on the viaduct). -/
def sendCut (s : State) : State :=
  emit (.span 12 10 s.clk.last (s.span.cut.flatMap fun q => leBytes q.1 2 ++ leBytes q.2 4)) s

/-- Phase 5, at a step boundary: the designated roles return, and where they change the tracked home passes by a handover
(R604, R606). -/
def rolesReturn (s : State) : State :=
  let role := if obj s 0x8100 1 = 1 then TwinState.lead else .follow
  if s.span.twin = role then s
  else passHome false (setTwin role (s.setSpan fun p => { p with handover := some s.clk.last }))

/-- RESYNC_PHASE_END: from 0 the twins find each other, one SOLE and one just reset (log entry 35); the phases follow in order. -/
def execResyncPhaseEnd (s : State) : Res :=
  let ph := phase8300 s
  let phaseTo := fun (n : Nat) (s : State) => setObj 0x8300 1 n s
  let syncing := s.span.twin == .syncing
  if !linkUp s 12 then .next s
  else if ph = 0 then
    if s.span.twin = .sole then .next (phaseTo 1 (setObj 0x8300 2 (resyncUnits s) s))
    else if paired s ∧ !s.clk.seen then .next (phaseTo 1 (setTwin .syncing s))
    else .next s
  else if ph = 1 then .next (phaseTo 2 (setObj 0x8300 2 0 s))
  else if ph = 2 then .next (phaseTo 3 (if syncing then s else s.setSpan fun p => { p with cut := seqDelta s }))
  else if ph = 3 then .next (phaseTo 4 (if syncing then joinPair s else setTwin .lead (sendCut s)))
  else if ph = 4 then .next (phaseTo 5 s)
  else .next (phaseTo 0 (rolesReturn s))

/-- HOLD_BUFFER_OVERFLOW: the buffer goes, and phase 2 begins again. -/
def execHoldBufferOverflow (s : State) : Res :=
  if s.span.twin = .syncing ∧ phase8300 s = 3 then
    .next (bumpObj 0x8300 3 1 32 (setObj 0x8300 1 2 (s.setCoh fun c => { c with reqs := c.reqs.filter fun r => r.stage != .held })))
  else .next s

/-! ## Handovers (R606, R607) -/

/-- Steps 3 and 4 of a handover have ended. -/
def handoverDone (s : State) : Bool :=
  !(s.coh.txns.any fun t => match t.why with | .recall _ => true | _ => false) && !(s.coh.reqs.any fun r => r.stage == .held)

/-- HANDOVER_FAIL: the home goes back, counted, with an alarm. -/
def execHandoverFail (s : State) : Res :=
  if s.span.handover.isNone then .next s else .next (handoverFails s)

end Sys2Proof.Machine
end

