-- ==== Sys2Proof/Machine/StepClock.lean ====
section
/-! DEFINITION. The step clock: marks, beacons, internal steps, the events bound to phase and to step boundaries, and the
gates that open with them (R29 to R55, R715, R716, R225, R523 to R528, R580, R581, R606, R664). -/

namespace Sys2Proof.Machine

/-! ## Beacons (R34) -/

/-- CRC-32C of bytes: reflected, all ones at the start and at the end. -/
def crc32cBit (c : Nat) : Nat := if c % 2 = 1 then (c / 2) ^^^ 0x82F63B78 else c / 2
def crc32cByte (c : Nat) (b : Byte) : Nat := (List.range 8).foldl (fun c _ => crc32cBit c) (c ^^^ b.toNat)
def crc32c (bs : List Byte) : Nat := bs.foldl crc32cByte 0xFFFFFFFF ^^^ 0xFFFFFFFF

def bType (m : Beacon) : Nat := fld m 7 0
def bSpan (m : Beacon) : Nat := fld m 15 8
def bKeystone (m : Beacon) : Nat := fld m 19 16
def bRestart (m : Beacon) : Bool := fld m 20 20 == 1
def bCoast (m : Beacon) : Bool := fld m 21 21 == 1
def bTimeValid (m : Beacon) : Bool := fld m 22 22 == 1
def bHop (m : Beacon) : Nat := fld m 31 24
def bStep (m : Beacon) : Nat := fld m 79 32
def bLayers (m : Beacon) : Nat := fld m 95 80
def bPredicted (m : Beacon) : Nat := fld m 127 96
def bOrigin (m : Beacon) : Nat := fld m 191 128

/-- The crc holds over bits [223:0]. -/
def bCrcOk (m : Beacon) : Bool := fld m 255 224 == crc32c (leBytes m.toNat 28)

/-- The message of a body's 28 bytes with its crc. -/
def withCrc (body : Nat) : Beacon :=
  let b := body % 2 ^ 224
  BitVec.ofNat 256 (crc32c (leBytes b 28) * 2 ^ 224 + b)

def layersOk (n : Nat) : Bool := decide (1 ≤ n ∧ n ≤ 1024)
def predictedOk (n : Nat) : Bool := decide (100000 ≤ n ∧ n ≤ 4000000000)

/-- The fields of a beacon that this device sends as keystone, or over its viaduct while it coasts. -/
structure BeaconFields where
  prev : Nat := 0
  origin : Nat
  predicted : Nat
  layers : Nat
  step : Nat
  restart : Bool := false
  coast : Bool := false
  deriving DecidableEq, Repr

/-- Device time follows the port that 2100:06 names, and it is locked (R570, R715). -/
def timeValid (s : State) : Bool := obj s 0x2100 6 != 0 && ptpLocked s

def beaconWord (s : State) (f : BeaconFields) : Beacon :=
  withCrc (f.prev % 2 ^ 32 * 2 ^ 192 + f.origin % 2 ^ 64 * 2 ^ 128 + f.predicted % 2 ^ 32 * 2 ^ 96 + f.layers % 2 ^ 16 * 2 ^ 80
    + f.step % 2 ^ 48 * 2 ^ 32 + (if timeValid s then 2 ^ 22 else 0) + (if f.coast then 2 ^ 21 else 0)
    + (if f.restart then 2 ^ 20 else 0) + ownIndex s % 16 * 2 ^ 16 + obj s 0x2100 9 % 256 * 2 ^ 8 + 0x5B)

/-! ## Roles and counts (R30, R55, R580) -/

/-- The step source: 2100:01, a follow that has taken over at the keystone index acting as source 1; a follow beside its lead
takes the lead's beacons (R580). -/
def stepSource (s : State) : Nat :=
  if s.span.twin = .follow then 0
  else if s.span.twin = .sole ∧ obj s 0x8100 1 = 2 ∧ !(objDom s 0x8000 1).isEmpty ∧ mapKeystone s = ownIndex s then 1
  else obj s 0x2100 1

/-- The number of the step in progress (R716). -/
def stepNumber (s : State) : Nat :=
  match s.clk.st with
  | .unlocked => s.clk.internal
  | .coast => s.clk.last + s.clk.internal
  | _ => s.clk.last

/-- The number is a multiple of a period: step 0 and a period of 0 fire nothing (R50, R716). -/
def stepDue (s : State) (period : Nat) : Bool :=
  decide (stepNumber s ≠ 0 ∧ period ≠ 0) && stepNumber s % period == 0

def countDiscarded (s : State) : State := s.setClk fun c => { c with discarded := (c.discarded + 1) % 2 ^ 32 }
def countStale (s : State) : State := s.setClk fun c => { c with stale := (c.stale + 1) % 2 ^ 32 }
def countMissed (n : Nat) (s : State) : State := s.setClk fun c => { c with missed := (c.missed + n) % 2 ^ 32 }

/-! ## Events bound to phase (R50) -/

/-- A controller whose decoder vectors gave a wrong answer in the window: logged, and FAILED (R300). -/
def vectorFail (s : State) (c : Fin 24) : State := hbmFail c.val (logEvent 0x0E 0 (ctlLoc c.val) 0xFF 0xFF 0 1 s)

/-- Order 5 and 6: the window opens; check tiles fall due, and retraining begins (R244, R285). -/
def openWindow (s : State) : State :=
  let s := s.setClk fun c => { c with winOpen := true, winDone := true }
  let s := if stepDue s (obj s 0x9001 4) then
      (coresInService s).foldl (fun s c => setCore c { coreOf s c with checkDue := true } s) s
    else s
  retrainOpen (stepDue s (obj s 0x2102 6)) s

/-- Order 8: the window closes. -/
def closeWindow (s : State) : State := s.setClk fun c => { c with winOpen := false }

/-- The phase of slot `l`'s prefetch: its start plus 2102:01, or 65,535 where the sum exceeds that. -/
def slotPhase (s : State) (l : Nat) : Nat := min 65535 (l * 65536 / max 1 s.clk.layers + obj s 0x2102 1)

/-- The pages of a context's layer that a prefetch event promotes, in rising page number (R225). -/
def prefetchPages (s : State) (c l : Nat) : List Nat :=
  let x := ctxOf s c
  (layerPages s c l).filterMap fun q =>
    let wanted := hintOf s c q.1 == 1 || decide (0 < x.length ∧ q.1 = (x.length - 1) / 64)
    match frameOf s q.2.frame with
    | some v => if wanted ∧ v.t1.isNone then some q.2.frame else none
    | none => none

/-- Order 7: the prefetch event of slot `l` (R225, R226). -/
def firePrefetch (l : Nat) (s : State) : State :=
  let n := max 1 s.clk.layers
  let lead := l + obj s 0x2102 2
  let due := (s.clk.last + s.clk.internal + lead / n) * 2048 + lead % n
  let cs := s.kv.ctxs.filter fun p => p.2.st == .open && p.2.pfForce && decide (lead % n < ctxLayers p.2)
  cs.foldl (fun s p => (prefetchPages s p.1 (lead % n)).foldl (fun s f => raiseMove f 1 true 2 false none none (some due) s) s) s

/-- The prefetches of the step that have not fired; UNLOCKED has none (R45). -/
def firePrefetches : Nat → State → State
  | 0, s => s
  | k + 1, s =>
    if s.clk.st = .unlocked ∨ s.clk.layers ≤ s.clk.slots then s
    else firePrefetches k (firePrefetch s.clk.slots (s.setClk fun c => { c with slots := c.slots + 1 }))

/-- Order 9: a record of the partner that has not landed is counted (R596), and a handover whose steps 3 and 4 have not ended
does not pass (R606). -/
def copyDeadline (s : State) : State :=
  let s := s.setClk fun c => { c with deadlineDone := true }
  let s := if s.span.handover.isSome ∧ homeActive s ∧ !handoverDone s then handoverFails s else s
  if paired s ∧ !s.span.recordIn then bumpObj 0x8200 9 1 64 s else s

/-- The waiting gate change is stated in the step in progress. -/
def gateThisStep (s : State) : Bool :=
  match s.shape.change with
  | some (_, 0, t) => (s.clk.st == .locked || s.clk.st == .overrun) && bitsOf t 47 0 == s.clk.last
  | _ => false
def gatePhase (s : State) : Nat := match s.shape.change with | some (_, _, t) => bitsOf t 63 48 | none => 0

/-- An event of the ending step lies at a later phase than the present one; slots with no enabled context and the deadline of an
unpaired device count too (log entry 95). -/
def eventsAhead (s : State) : Bool :=
  let ph := phaseOf s
  let opens := obj s 0x2102 3
  let shuts := obj s 0x2102 4
  decide (ph < opens) || (decide (opens ≤ shuts) && decide (ph < shuts)) || decide (ph < obj s 0x2102 5)
    || (s.clk.st != .unlocked && decide (ph < slotPhase s (s.clk.layers - 1))) || (gateThisStep s && decide (ph < gatePhase s))

/-- The ending step's events that have not fired fire; a window whose phase has not come is dropped, and an open one closes
(R51). -/
def fireRest (s : State) : State :=
  let s := if gateThisStep s then gateApply s else s
  let s := if !s.clk.winDone ∧ obj s 0x2102 3 ≤ phaseOf s then openWindow s else s
  let s := firePrefetches 1024 (closeWindow (s.setClk fun c => { c with winDone := true }))
  runMoves (if s.clk.deadlineDone then s else copyDeadline s)

/-- A step ends; `accepted` where an accepted beacon ends it, which counts as early (R51, R55). -/
def endStep (accepted : Bool) (s : State) : State :=
  let s := if accepted ∧ phaseOf s < 65535 ∧ eventsAhead s then s.setClk fun c => { c with early := (c.early + 1) % 2 ^ 32 } else s
  fireRest s

/-! ## Step boundaries -/

/-- The toll whose record an object belongs to. -/
def tollOfKey (k : Nat) : Option Nat :=
  let i := k / 256
  if i = 0x5100 then some (128 + k % 256 / 16)
  else if objNorm i = 0x3002 then some ((i - 0x3002) / 16)
  else if objNorm i = 0x3003 then some (64 + (i - 0x3003) / 16) else none

/-- What waits for a step boundary takes effect (R617): the values, and with them the RoCE records, the span map's digest, the
tolls' buckets, pf_en, cores that passed their test, and the gate list of 2600:08. -/
def boundaryValues (s : State) : State :=
  let keys := (s.dict.waiting.filter fun q => objEffect (q.1 / 256) (q.1 % 256) == .boundary).map (·.1)
  let s := applyWaiting .boundary (fun _ => true) (if keys.any fun k => k / 256 == 0x4300 then ratesSettle s else s)
  let s := keys.foldl (fun s k => if k / 256 = 0x5510 ∨ k / 256 = 0x5511 then roceStart (k / 256 - 0x5510) (k % 256) s else s) s
  let s := ((keys.filterMap tollOfKey).eraseDups).foldl tollFresh s
  let s := if keys.contains (okey 0x8000 1) then sendDigest s else s
  let s := s.setKv fun k => { k with ctxs := k.ctxs.map fun p => (p.1, { p.2 with pfForce := p.2.pfEn }) }
  enterCores (s.setShape fun h => match h.bootList with | some l => { h with active := l, bootList := none } | none => h)

/-- Order 2: the snapshot (R664). -/
def tallySnapshot (s : State) : State :=
  let t := fun (g col lo hi : Nat) => tallySum s g col lo hi
  let row := [s.clk.last, t 0x7001 0 0 24, t 0x7001 1 0 24, t 0x7001 0 24 56, t 0x7001 1 24 56, t 0x7001 0 56 120, t 0x7001 1 56 120,
    t 0x7002 1 0 8, t 0x7002 0 0 8, t 0x7002 1 8 12, t 0x7002 0 8 12, t 0x7003 0 0 20, t 0x7003 1 0 20, t 0x7003 2 0 20,
    s.tal.completed, s.tal.failed]
  s.setTal fun v => { v with snaps := tins v.snaps (v.snapCount % 64) row, snapCount := v.snapCount + 1 }

/-- A handover's step ends: a forced swap's home passes back, and what closed in the step is still to be compared (R606,
R607). -/
def handoverEnd (s : State) : State :=
  if s.span.handover.isNone then s
  else if handoverDone s then passHome false (s.setSpan fun p => { p with handover := none, proving := some p.swapped })
  else handoverFails s

/-- Order 3: the last swap's home passes back, and a forced swap begins (R606). -/
def roleSwap (s : State) : State :=
  let s := handoverEnd s
  if paired s ∧ stepDue s (obj s 0x2102 7) then passHome true (s.setSpan fun p => { p with handover := some (stepNumber s) }) else s

/-- Order 4: a change that the accepted step number has passed, or reached at this phase (R52). -/
def gatePassed (s : State) : State :=
  match s.shape.change with
  | some (_, 0, t) =>
    if s.clk.st = .locked ∧ (bitsOf t 47 0 < s.clk.last ∨ (bitsOf t 47 0 = s.clk.last ∧ bitsOf t 63 48 ≤ phaseOf s)) then gateApply s else s
  | _ => s

/-- The state that the clock enters is counted and raised (R49). -/
def noteClock (was : ClkState) (s : State) : State :=
  if s.clk.st = was then s
  else match s.clk.st with
    | .overrun => telemetry 1 0 (emcyRaise 3 0x2101 1 2 (s.setClk fun c => { c with overruns := (c.overruns + 1) % 2 ^ 32 }))
    | .coast => telemetry 2 0 (emcyRaise 3 0x2101 1 3 (s.setClk fun c => { c with coasts := (c.coasts + 1) % 2 ^ 32 }))
    | _ => s

/-- A step begins: the clock takes the fields that `f` gives it, and the events of the boundary fire in order (R50). The values
that waited for the boundary are already in force. -/
def beginStep (f : StepClk → StepClk) (s : State) : State :=
  let was := s.clk.st
  let s := s.setClk fun c => { f c with stepAt := s.time.cycle, stepDev := s.time.devHalf, slots := 0, winOpen := false, winDone := false, deadlineDone := false }
  let s := runMirror (noteClock was s)
  let s := roleSwap (tallySnapshot (compareBuckets (closeRecord s)))
  releaseGates (runMoves (gatePassed s))

/-- Acceptance of the step number of 7000:04 asks for a freeze (R663). -/
def stepFreeze (s : State) : State :=
  if obj s 0x7000 4 ≠ 0 ∧ obj s 0x7000 4 = s.clk.last then askFreeze s else s

/-- Time since the origin that a beacon gives, in ns (R43). -/
def beaconElapsed (s : State) (m : Beacon) : Nat :=
  if bTimeValid m && timeValid s then
    let d := (devNs s + 2 ^ 64 - bOrigin m) % 2 ^ 64
    if d < 2 ^ 63 then d else 0
  else bHop m * obj s 0x2100 7

/-- A beacon, this device's own ones among them, is accepted: phase is loaded and the device is LOCKED (R43, R45); the trace of
IO0, where beacons are judged, records it with the link of its arrival (R667). -/
def acceptBeacon (port : Nat) (m : Beacon) (s : State) : State :=
  let el := beaconElapsed s m
  let note := fun (s : State) => traceEvent 0 none 0 port 0xFF 0xFF 0 32 8 s
  note (stepFreeze (beginStep (fun c => { c with
    st := .locked, last := bStep m, seen := true, heard := true, acc := min 65535 (el * 65536 / bPredicted m) * 2 ^ 32
    predicted := bPredicted m, layers := bLayers m, originTs := bOrigin m, predicting := true
    originAt := (s.time.cycle : Int) - 2 * (el : Int), internal := 0, coasted := none }) s))

/-! ## The keystone (R30 to R33, R36, R44, R715) -/

/-- The ports on which a keystone sends its beacons (R36). -/
def beaconPorts (s : State) : List Nat := [8, 9, 10, 11, 12] ++ (List.range 8).filter fun p => bitAt (obj s 0x2100 8) p

/-- The measured length of the last step, where one is known; a mark that skips numbers gives one length (log entry 96). -/
def measuredStep (s : State) (origin : Nat) : Option Int :=
  if !s.clk.predicting then none
  else
    let d : Nat := (origin + 2 ^ 64 - s.clk.originTs) % 2 ^ 64
    some (if d < 2 ^ 63 then (d : Int) else (d : Int) - 2 ^ 64)

/-- An integer divided by 2^k, to nearest with ties to even. -/
def divPow2 (v : Int) (k : Nat) : Int :=
  let q := v / (2 ^ k : Int)
  let r := v % (2 ^ k : Int)
  if 2 * r < 2 ^ k ∨ (2 * r = 2 ^ k ∧ q % 2 = 0) then q else q + 1

/-- The prediction of R44: the first is 2100:03. -/
def nextPrediction (s : State) (measured : Option Int) : Nat :=
  match measured with
  | none => obj s 0x2100 3
  | some m => (max 100000 (min 4000000000 (divPow2 ((s.clk.predicted : Int) * 2 ^ obj s 0x2100 4 + (m - s.clk.predicted)) (obj s 0x2100 4)))).toNat

/-- A keystone starts a step and sends its beacon; `fixed` is the prediction of a self-timed step. The successor's first beacon
carries restart and the number of R581. -/
def keystoneStart (number layers origin : Nat) (fixed : Option Nat) (s : State) : State :=
  let s := boundaryValues (endStep true s)
  let measured := measuredStep s origin
  let prev := match measured with
    | some v => if 0 ≤ v ∧ v < 2 ^ 32 then v.toNat else 0
    | none => 0
  let m := beaconWord s {
    prev := prev, origin := origin, predicted := fixed.getD (nextPrediction s measured), layers := layers
    step := if s.clk.takeover then s.clk.last + s.clk.internal + 1 else number, restart := !s.clk.seen || s.clk.takeover }
  let s := (beaconPorts s).foldl (fun s l => sendBypass l m s) s
  acceptBeacon 0xFFFF m (s.setClk fun c => { c with takeover := false })

/-- What the step number of a beacon or of a mark makes of it (R33, R37): `first` where none came before it that it is judged
against (log entry 43). -/
inductive NumberJudge where
  | duplicate | stale | taken (missed : Nat)
  deriving DecidableEq, Repr

def judgeNumber (s : State) (n : Nat) (first : Bool) : NumberJudge :=
  if first then .taken 0
  else if n = s.clk.last then .duplicate
  else if n < s.clk.last then .stale else .taken (n - s.clk.last - 1)

/-- Bypass messages that arrive on IO1 cross to IO0 in 5 to 12 truss cycles (R40). -/
def crossing (port delay : Nat) (s : State) : State :=
  linkTally false port 32 (if (4 ≤ port ∧ port < 8) ∨ port = 10 ∨ port = 11 then elapse (max 5 (min 12 delay)) s else s)

/-- A step mark is judged (R31, R33). -/
def judgeMark (port : Nat) (m : Beacon) (s : State) : State :=
  if stepSource s ≠ 1 ∨ port ≠ obj s 0x2100 2 ∨ !bCrcOk m ∨ bType m ≠ 0x5A ∨ !layersOk (bLayers m) then countDiscarded s
  else match judgeNumber s (bStep m) !s.clk.seen with
    | .duplicate => s
    | .stale => countStale s
    | .taken k => keystoneStart (bStep m) (bLayers m) (if bOrigin m = 0 then devNs s else bOrigin m) none (countMissed k s)

/-- STEP_MARK. -/
def execStepMark (port : Fin 13) (delay : Nat) (m : Beacon) (s : State) : Res :=
  if linkUp s port.val then .next (judgeMark port.val m (crossing port.val delay s)) else .next s

/-- A steward mark (R32, R640); writes of one truss cycle are one mark. -/
def stewardMark (s : State) : State :=
  if stepSource s ≠ 2 ∨ (s.clk.st = .locked ∧ s.clk.stepAt = s.time.cycle) then s
  else keystoneStart (s.clk.last + 1) (objLast s 0x2100 0x0A) (devNs s) none s

/-- A write of STEPMARK: only one that sets `mark` is a mark (R639). -/
def stepMark (v : BitVec 32) (s : State) : State := if fld v 0 0 = 1 then stewardMark s else s

/-- STEPMARK. -/
def execStepmark (v : BitVec 32) (s : State) : Res := .next (stepMark v s)

/-- SELF_TIMED_STEP: the clock is carried to the end of a step of 2100:03. -/
def execSelfTimedStep (s : State) : Res :=
  if stepSource s ≠ 3 then .next s
  else
    let s := carryTo (s.clk.stepAt + nsCycles (obj s 0x2100 3)) s
    .next (keystoneStart (s.clk.last + 1) (objLast s 0x2100 0x0A) (devNs s) (some (objLast s 0x2100 3)) s)

/-! ## Members (R35 to R37, R43, R48, R581) -/

/-- A beacon is relayed to the span ports but the one of arrival, and to the viaduct (R36). -/
def relayBeacon (port : Nat) (m : Beacon) (s : State) : State :=
  if 15 ≤ bHop m ∨ (s.clk.heard ∧ bStep m = s.clk.last) then s
  else
    let out := withCrc (m.toNat % 2 ^ 224 + 2 ^ 24)
    ([8, 9, 10, 11].filter (· != port) ++ [12]).foldl (fun s l => sendBypass l out s) s

/-- The successor's index of the map. -/
def mapSuccessor (s : State) : Nat := byteAt (objDom s 0x8000 1) 2

/-- A coasted beacon that the follow takes from its viaduct: an internal step begins at its boundary (R48). -/
def takeCoasted (m : Beacon) (s : State) : State :=
  let n := s.clk.last
  if bStep m ≤ max n (s.clk.coasted.getD n) then s
  else
    let s := boundaryValues (endStep false s)
    let el := beaconElapsed s m
    beginStep (fun c => { c with
      st := .coast, internal := bStep m - n, coasted := some (bStep m), predicted := bPredicted m, layers := bLayers m
      acc := min 65535 (el * 65536 / bPredicted m) * 2 ^ 32 }) s

/-- A beacon is judged (R35, R37, R48, R581). -/
def judgeBeacon (port : Nat) (m : Beacon) (s : State) : State :=
  if !bCrcOk m ∨ bType m ≠ 0x5B ∨ bSpan m ≠ obj s 0x2100 9 ∨ !layersOk (bLayers m) ∨ !predictedOk (bPredicted m) ∨ port < 8 then
    countDiscarded s
  else if bCoast m then
    if s.span.twin = .follow ∧ port = 12 then takeCoasted m s else countDiscarded s
  else if stepSource s ≠ 0 then
    if bKeystone m = ownIndex s then s else countDiscarded s
  else if s.span.keystone.isSome ∧ s.span.keystone ≠ some (bKeystone m) then countDiscarded s
  else match judgeNumber s (bStep m) (!s.clk.heard || bRestart m) with
    | .duplicate => s
    | .stale => countStale s
    | .taken k =>
      let s := relayBeacon port m (countMissed k s)
      let s := if bRestart m ∧ !(objDom s 0x8000 1).isEmpty ∧ bKeystone m = mapSuccessor s then
          s.setSpan fun p => { p with keystone := some (bKeystone m) } else s
      acceptBeacon port m (boundaryValues (endStep true s))

/-- STEP_BEACON. -/
def execStepBeacon (port : Fin 13) (delay : Nat) (m : Beacon) (s : State) : Res :=
  if linkUp s port.val then .next (judgeBeacon port.val m (crossing port.val delay s)) else .next s

/-- COASTED_BEACON. -/
def execCoastedBeacon (port : Fin 13) (delay : Nat) (m : Beacon) (s : State) : Res :=
  if linkUp s port.val then .next (judgeBeacon port.val m (crossing port.val delay s)) else .next s

/-! ## COAST, OVERRUN and UNLOCKED (R39, R45 to R49, R54, R581, R716) -/

/-- A lead in COAST sends its beacon over the viaduct at each internal boundary (R47, R48). -/
def sendCoasted (s : State) : State :=
  if s.clk.st = .coast ∧ s.span.twin = .lead then
    sendBypass 12 (beaconWord s { origin := devNs s, predicted := s.clk.predicted, layers := s.clk.layers
                                  step := s.clk.last + s.clk.internal, coast := true }) s
  else s

/-- The cycle in which the beacon timeout expires (R46). -/
def timeoutAt (s : State) : Nat := (s.clk.originAt + 2 * (max 1000000 (obj s 0x2100 5 * s.clk.predicted) : Nat)).toNat

/-- The state that an arrival answers is LOCKED by a step accepted in the cycle of `s` (R46). -/
def acceptedNow (s : State) : Res → Bool
  | .next t => t.clk.st == .locked && t.time.cycle == s.time.cycle && t.clk.stepAt == s.time.cycle
  | _ => false

/-- The arrival would be accepted as a beacon in the cycle of `s`, or starts a step there. -/
def startsStep (s : State) : Instr → Bool
  | .stepBeacon p d m => acceptedNow s (execStepBeacon p d m s)
  | .stepMark p d m => acceptedNow s (execStepMark p d m s)
  | .stepmark v => acceptedNow s (execStepmark v s)
  | _ => false

/-- BEACON_TIMEOUT: COAST begins with its first internal step, unless a beacon is accepted in the cycle of expiry (R26, R46). -/
def execBeaconTimeout (s : State) : Res :=
  if s.clk.st = .unlocked ∨ s.clk.st = .coast then .next s
  else if arrivalWins (timeoutAt s) (startsStep (carryTo (timeoutAt s) s)) s then .next (carryTo (timeoutAt s) s)
  else
    let s := boundaryValues (endStep false (carryTo (timeoutAt s) s))
    .next (sendCoasted (beginStep (fun c => { c with st := .coast, internal := 1, acc := 0 }) s))

/-- The first step of UNLOCKED, or a later one: number `n`, of 2100:03, layer_count 1 (R45). -/
def unlockedStep (n : Nat) (s : State) : State :=
  beginStep (fun c => { c with st := .unlocked, last := 0, internal := n, acc := 0, layers := 1, predicted := obj s 0x2100 3 }) s

/-- INTERNAL_STEP_BOUNDARY: the clock is carried to the end of the internal step. A follow that takes its lead's boundaries has
none of its own, and a self-timed keystone's first internal step ends in SELF_TIMED_STEP. -/
def execInternalStepBoundary (s : State) : Res :=
  let on := fun (s : State) => boundaryValues (endStep false (carryTo (s.clk.stepAt + nsCycles s.clk.predicted) s))
  match s.clk.st with
  | .coast =>
    if s.span.twin = .follow ∧ s.clk.coasted.isSome then .next s
    else .next (sendCoasted (beginStep (fun c => { c with internal := (c.internal + 1) % 2 ^ 32, acc := 0 }) (on s)))
  | .unlocked => if stepSource s = 3 then .next s else .next (unlockedStep ((s.clk.internal + 1) % 2 ^ 32) (on s))
  | _ => .next s

/-- STEP_OVERRUN: the clock is carried to the cycle in which the accumulator would pass phase 65,535. -/
def execStepOverrun (s : State) : Res :=
  if s.clk.st ≠ .locked then .next s
  else
    let left := 2 ^ 48 - s.clk.acc
    let s := if left ≤ 1 then s else elapse (ceilDiv left (max 1 (clkIncrement s.clk))) s
    .next (noteClock .locked ((fireRest s).setClk fun c => { c with st := .overrun }))

/-- Entry to UNLOCKED (R54, R55). -/
def unlock (s : State) : State :=
  let s := boundaryValues (endStep false s)
  unlockedStep 1 (s.setClk fun c => { c with
    seen := false, predicting := false, coasted := none, takeover := false
    discarded := 0, stale := 0, missed := 0, early := 0, overruns := 0, coasts := 0 })

/-- The port that 2100:06 names is another one: the lock of 5501:03 was the former port's, and 16 Sync messages in a row are to
come from the new one (R570, R715). -/
def ptpAnew (s : State) : State := setObj 0x5501 3 0 (s.setPorts fun q => { q with syncs := [] })

/-- A write of 2100:01, :06 or :09. -/
def writeClock (sub v : Nat) (s : State) : Nat × State :=
  if (sub = 1 ∧ 3 < v) ∨ (sub = 6 ∧ 2 < v) then (abValue, s)
  else
    let t := unlock (writeObj 0x2100 sub v s)
    (0, if sub = 6 ∧ obj s 0x2100 6 ≠ v then ptpAnew t else t)

/-- STEP_CLOCK_RECONFIGURE: by the steward or the rack manager, and for 2100:09 the keystone too. -/
def execStepClockReconfigure (p : Prin) (sub : BitVec 8) (v : Nat) (s : State) : Res :=
  let n := sub.toNat
  if n = 1 ∨ n = 6 ∨ n = 9 then
    .next (objCmd p 0x2100 n (fun s => if v < 256 then writeClock n v s else (abLength, s)) s)
  else .next s

/-- SUCCESSOR_TAKEOVER: the device at the successor index has coasted for 8000:04 internal steps; it becomes keystone with source
1, and its first beacon is still to come. -/
def execSuccessorTakeover (s : State) : Res :=
  if s.clk.st = .coast ∧ obj s 0x8000 4 ≤ s.clk.internal ∧ stepSource s = 0 ∧ s.span.twin ≠ .follow ∧ !(objDom s 0x8000 1).isEmpty
      ∧ mapSuccessor s = ownIndex s then
    .next (setObj 0x2100 1 1 (s.setClk fun c => { c with takeover := true, predicting := false }))
  else .next s

/-! ## The events' commands -/

/-- BACKGROUND_WINDOW_OPEN: the clock is carried to phase 2102:03. -/
def execBackgroundWindowOpen (s : State) : Res :=
  if s.clk.winDone then .next s else .next (openWindow (carryToPhase (obj s 0x2102 3) s))

/-- BACKGROUND_WINDOW_CLOSE: the clock is carried to phase 2102:04; a window whose end lies before its start stays open to the
boundary (R51). In a retraining window the controllers whose vectors failed go FAILED. -/
def execBackgroundWindowClose (bad : List (Fin 24)) (s : State) : Res :=
  if !s.clk.winOpen then .next s
  else
    let vectors := stepDue s (obj s 0x2102 6) || s.hbm.ctl.any fun h => h.2.retraining
    let shuts := decide (obj s 0x2102 3 ≤ obj s 0x2102 4)
    let s := if shuts then closeWindow (carryToPhase (obj s 0x2102 4) s) else s
    .next (if vectors then bad.foldl vectorFail s else s)

/-- LAYER_PREFETCH_EVENT: the next slot's, at its phase. -/
def execLayerPrefetchEvent (s : State) : Res :=
  if s.clk.st = .unlocked ∨ s.clk.layers ≤ s.clk.slots then .next s
  else
    let l := s.clk.slots
    let s := carryToPhase (slotPhase s l) s
    .next (runMoves (firePrefetch l (s.setClk fun c => { c with slots := l + 1 })))

/-- CHECKPOINT_COPY_DEADLINE: the clock is carried to phase 2102:05. -/
def execCheckpointCopyDeadline (s : State) : Res :=
  if s.clk.deadlineDone then .next s else .next (copyDeadline (carryToPhase (obj s 0x2102 5) s))

/-! ## Gate changes (R521 to R528) -/

/-- GATE_ENTRY_BOUNDARY: the clock is carried to the start of the next entry of the active list, at which the gates it
opens and closes change; past the last entry of a phase list there is none before the step's end (R521, R523). -/
def execGateEntryBoundary (s : State) : Res :=
  let l := s.shape.active
  let p := gatePos s l
  match l.entries.find? (fun e => decide (p < e.1)) with
  | some e => .next (releaseGates (if l.cyclic then elapse (nsCycles (e.1 - p) - stepAge s % 2) s
      else carryToPhase e.1 s))
  | none => .next (releaseGates (if l.cyclic then elapse (nsCycles (max 1 l.cycleNs - p) - stepAge s % 2) s else s))

/-- GATE_LIST_CHANGE: event 4 of R50. A change at a step and phase waits in UNLOCKED and COAST and for its step; the
clock is carried to its phase, or to its device time. -/
def execGateListChange (s : State) : Res :=
  match s.shape.change with
  | none => .next s
  | some (_, kind, t) =>
    if kind = 1 then .next (releaseGates (gateApply (elapse (2 * t - s.time.devHalf) s)))
    else if s.clk.st = .unlocked ∨ s.clk.st = .coast ∨ s.clk.last < bitsOf t 47 0 then .next s
    else if s.clk.last = bitsOf t 47 0 then .next (releaseGates (gateApply (carryToPhase (bitsOf t 63 48) s)))
    else .next (releaseGates (gateApply s))

end Sys2Proof.Machine
end

