-- ==== Sys2Proof/Machine/Rules.lean ====
section
/-! DEFINITION. The rules that a value of an object must keep: its own (R54, R90, R259, R289, R315, R350, R379, R412, R490, R518,
R538, R544, R573, R577, R609, R634, R679, R700, R717), those that join two objects (R242, R538, R609), and the lengths and layouts
of objects of bytes. -/

namespace Sys2Proof.Machine

/-- Objects 2010 to 2600. -/
def ruleOwn2 (i sub v : Nat) : Bool :=
  if i = 0x2010 then (if sub = 1 then decide (1200 ≤ v ∧ v ≤ 2400) else if sub = 3 then decide (v ≤ 105) else decide (v ≤ 100))
  else if i = 0x2020 then (if sub = 1 ∨ sub = 2 then v == 0xA5 else if sub = 8 then v != 0 else true)
  else if i = 0x2100 then
    (if sub = 1 then decide (v ≤ 3) else if sub = 2 then decide (v ≤ 7) else if sub = 3 then predictedOk v
      else if sub = 6 then decide (v ≤ 2) else if sub = 0x0A then layersOk v else true)
  else if i = 0x2200 then (if sub = 1 then v != 0 else if sub = 3 then decide (v ≤ 11) else true)
  else if i = 0x2300 then sub != 1 || v != 0
  else if i = 0x2301 then decide (v ≤ 0xFFFFF)
  else if i = 0x2400 then sub != 5 || v != 0
  else if i = 0x2500 then sub != 8 || v != 0
  else if i = 0x2600 then sub != 3 || decide (v ≤ 1) else true

/-- A toll record's own fields: modes and actions within their ranges (R538). -/
def ruleToll (sub v : Nat) : Bool := if sub = 6 ∨ sub = 8 ∨ sub = 9 then decide (v ≤ 1) else sub != 7 || decide (v ≤ 2)

/-- Objects 4020 to 5504. -/
def ruleOwn4 (i sub v : Nat) : Bool :=
  if i = 0x4020 then (if sub = 1 then decide (256 ≤ v ∧ v ≤ 4096) else v != 0)
  else if i = 0x4030 then sub != 2 || decide (v ≤ 15)
  else if i = 0x4040 then 3 < sub || v != 0
  else if i = 0x4300 then (if sub = 3 then v == 1 || v == 2 else if sub = 5 then decide (1 ≤ v ∧ v ≤ 100) else true)
  else if i = 0x5001 then v == 1 || v == 2
  else if i = 0x5002 then decide (1 ≤ v ∧ v ≤ (if sub = 0x0D then 2 else 3))
  else if i = 0x5004 then (if sub = 1 then decide (24 ≤ v ∧ v ≤ 40) else if sub = 2 ∨ sub = 3 then v != 0 else true)
  else if i = 0x5302 ∨ i = 0x5401 then v != 0
  else if i = 0x5502 then sub != 4 || decide (v ≤ 1)
  else if i = 0x5504 then decide (popCount v 8 ≤ 2) else true

/-- Objects 7004 to 9100. -/
def ruleOwn7 (i sub v : Nat) : Bool :=
  if i = 0x7004 then [1, 2, 3, 4, 0xFF].contains v
  else if i = 0x7200 then (if sub = 1 then decide (1000 ≤ v) else sub != 2 || decide (v < 1024) || v == 0xFFFF)
  else if i = 0x7300 then (if sub = 1 then decide (v ≤ 3) else if sub = 2 then decide (1 ≤ v ∧ v ≤ 65534) else true)
  else if i = 0x8000 then sub != 2 || decide (v ≤ 15)
  else if i = 0x8100 then (if sub = 1 then decide (v ≤ 2) else if sub = 3 then v != 0 else if sub = 5 then decide (v ≤ 3) || v == 0xFF else true)
  else if i = 0x8200 then (if sub = 1 then v != 0 else if sub = 2 then f32Positive v else true)
  else if i = 0x9001 then (if sub = 1 ∨ sub = 2 then decide (v ≤ 19) else if sub = 5 ∨ sub = 6 then v != 0 else true)
  else if i = 0x9100 then sub != 2 || decide (1 ≤ v ∧ v ≤ 63) else true

/-- A value keeps its object's own rule. -/
def ruleOwn (index sub v : Nat) : Bool :=
  let i := objNorm index
  if ((objRow? index sub).map (·.type)) == some 0x01 && decide (1 < v) then false
  else if i = 0x1015 then decide (v ≤ 10000)
  else if i = 0x1020 then
    (if sub = 1 then decide (1 ≤ v ∧ v ≤ 127) else if sub = 2 then [125, 250, 500, 1000].contains v
      else if sub = 3 then [1000, 2000, 4000, 5000, 8000].contains v else true)
  else if i < 0x3000 then ruleOwn2 i sub v
  else if i = 0x3001 then (if sub = 2 ∨ sub = 4 then decide (v ≤ 4096) else sub != 5 || v != 0)
  else if i = 0x3002 ∨ i = 0x3003 then ruleToll sub v
  else if i = 0x5100 then ruleToll (sub % 16) v
  else if i < 0x4000 then true
  else if i < 0x6000 then ruleOwn4 i sub v else ruleOwn7 i sub v

/-- The places guaranteed on a die over the 64 tenants are within 4,096 (R402, R412). -/
def placesFit (get : Nat → Nat → Nat) (sub : Nat) : Bool :=
  decide (((List.range 64).foldl (fun n t => n + get (0x3001 + 16 * t) sub) 0) ≤ 4096)

/-- A toll record that is enabled (R538). -/
def tollFits (get : Nat → Nat → Nat) (i sb : Nat) : Bool :=
  get i (sb + 1) == 0 || (decide (get i (sb + 2) ≤ get i (sb + 4)) && decide (get i (sb + 3) ≤ get i (sb + 5)) && get i (sb + 2) != 0
    && get i (sb + 3) != 0)

/-- The rules that join an object with others, over the values that `get` gives. -/
def ruleJoint (get : Nat → Nat → Nat) (index sub : Nat) : Bool :=
  let i := objNorm index
  if i = 0x1020 then decide (get 0x1020 2 ≤ get 0x1020 3)
  else if i = 0x3001 then
    (if sub = 1 ∨ sub = 2 then decide (get index 1 ≤ get index 2) else if sub = 3 ∨ sub = 4 then decide (get index 3 ≤ get index 4) else true)
      && (sub != 1 || placesFit get 1) && (sub != 3 || placesFit get 3)
  else if i = 0x3002 ∨ i = 0x3003 then tollFits get index 0
  else if i = 0x5100 then tollFits get index (sub / 16 * 16)
  else if i = 0x4300 ∧ (sub = 1 ∨ sub = 2) then decide (get 0x4300 1 < get 0x4300 2)
  else if (i = 0x5001 ∨ i = 0x5002) ∧ sub = 0x0D then get 0x5001 0x0D != 1 || get 0x5002 0x0D != 1
  else if i = 0x8100 ∧ (sub = 3 ∨ sub = 4) then decide (3 * get 0x8100 3 ≤ get 0x8100 4)
  else if i = 0x8100 ∧ (sub = 1 ∨ sub = 5) then get 0x8100 1 == 0 || get 0x8100 5 != 0xFF else true

/-- The size of a type, where it is fixed (R611). -/
def typeSize (t : Nat) : Option Nat :=
  if t = 0x01 ∨ t = 0x05 then some 1 else if t = 0x06 then some 2 else if t = 0x04 ∨ t = 0x07 then some 4
  else if t = 0x1B then some 8 else none

/-- The lengths that an object of bytes takes: fixed, or up to a bound in steps. -/
def domLength (index sub n : Nat) : Bool :=
  let i := objNorm index
  if i = 0x4200 ∨ i = 0x4210 then n == 16
  else if i = 0x2401 then n % 16 == 0
  else if i = 0x4042 then n % 8 == 0 && decide (n ≤ 8 * 65600)
  else if i = 0x2500 then n == 64
  else if i = 0x5004 then n % 48 == 0 && decide (n ≤ 8 * 48)
  else if i = 0x5503 then n == 26
  else if i = 0x5510 ∨ i = 0x5511 then n == 48
  else if i = 0x8000 then (if sub = 1 then n == 1808 else n == 32)
  else if i = 0x8010 then n == 8192
  else decide (n ≤ 16777216)

/-- The rule of an object of bytes on its content (R504, R577, R609). -/
def domOk (index sub : Nat) (bs : List Byte) : Bool :=
  if index = 0x2500 then trussTableOk bs
  else if index = 0x8000 ∧ sub = 1 then mapOk bs
  else if index = 0x8000 then bs.all fun b => b.toNat ≤ 3 || b.toNat == 0xFE || b.toNat == 0xFF
  else true

/-- A red action of refuse on an upstream CXL port's record is stored as hold (R538). -/
def storedValue (index sub v : Nat) : Nat :=
  if index = 0x5100 ∧ sub % 16 = 8 ∧ 8 ≤ sub / 16 ∧ sub / 16 < 12 then 1 else v

end Sys2Proof.Machine
end

