-- ==== Sys2Proof/Machine/Power.lean ====
section
/-! DEFINITION. Power-up and power-down, device reset, the watchdog, the issue allowance, and the failures that lead to them
(R14, R282 to R284, R412, R422, R439, R440, R508, R509, R515, R548, R626 to R630, R680 to R700, R706). -/

namespace Sys2Proof.Machine

/-! ## The configuration record (R626 to R630) -/

/-- One entry of a record: key, type code, value. -/
structure RecEntry where
  key : Nat
  type : Nat
  bytes : List Byte
  deriving DecidableEq, Repr

/-- The entries of a body, the value of each padded to 8 bytes (R627). -/
def recEntries : Nat → List Byte → Option (List RecEntry)
  | 0, bs => if bs.isEmpty then some [] else none
  | k + 1, bs =>
    let n := leNat (slice bs 4 4)
    let v := (bs.drop 8).take n
    let pad := roundUp n 8
    if bs.length < 8 + pad ∨ ((bs.drop (8 + n)).take (pad - n)).any (· != 0) then none
    else (recEntries k (bs.drop (8 + pad))).map fun t =>
      { key := okey (leNat (slice bs 0 2)) (leNat (slice bs 2 1)), type := leNat (slice bs 3 1), bytes := v } :: t

/-- The header of a record's body. -/
def recHeader (b : List Byte) : Bool :=
  slice b 0 4 == [0x4B, 0x5A, 0x43, 0x52] && leNat (slice b 4 2) == 1 && leNat (slice b 6 2) == 0 && leNat (slice b 12 4) == b.length

/-- The value that a record gives an object, else the table's. -/
def recGet (es : List RecEntry) (index sub : Nat) : Nat :=
  match es.find? fun e => e.key == okey index sub with
  | some e => leNat e.bytes
  | none => objTableDefault index sub

/-- An entry names a Kept object, with its type and length, and keeps the object's rules with the rest of the record (R628). -/
def entryOk (es : List RecEntry) (e : RecEntry) : Bool :=
  let i := e.key / 256
  let n := e.key % 256
  match objRow? i n with
  | none => false
  | some r => r.kept && r.type == e.type && (match typeSize r.type with
    | some k => e.bytes.length == k && ruleOwn i n (leNat e.bytes) && ruleJoint (recGet es) i n
    | none => domLength i n e.bytes.length && domOk i n e.bytes)

/-- Keys in strictly rising order. -/
def rising : List RecEntry → Bool
  | a :: b :: t => decide (a.key < b.key) && rising (b :: t)
  | _ => true

/-- A body that R628 does not reject. -/
def recParse (b : List Byte) : Option (List RecEntry) :=
  if b.length < 16 ∨ !recHeader b then none
  else match recEntries (leNat (slice b 8 4)) (b.drop 16) with
    | none => none
    | some es => if rising es && es.all (entryOk es) then some es else none

/-- An entry whose write would wait for a step boundary waits for the first one (R629). -/
def deferEntry (s : State) (e : RecEntry) : State :=
  let i := e.key / 256
  let n := e.key % 256
  if objEffect i n ≠ .boundary then s
  else if objIsBytes i n then putWaiting i n (leNat (e.bytes ++ [1])) (setDom i n [] s)
  else putWaiting i n (leNat e.bytes) (setObj i n (objTableDefault i n) s)

/-- The entries of an accepted record are stored (R629, R630): 2100:01, :06 and :09 return the clock to UNLOCKED (R54), and the
CANopen FD interface takes its node-ID and bit rates. -/
def storeRecord (es : List RecEntry) (s : State) : State :=
  let s := s.setDict fun d => { d with force := [], waiting := [], doms := [], record := es.map fun e => (e.key, e.bytes) }
  let s := es.foldl deferEntry s
  let s := s.setCan fun c => { c with node := obj s 0x1020 1, nominal := obj s 0x1020 2, dataRate := obj s 0x1020 3 }
  if es.any fun e => [okey 0x2100 1, okey 0x2100 6, okey 0x2100 9].contains e.key then unlock s else s

/-! ## Failures (R14, R270, R509, R548, R686) -/

/-- A power-up step fails: FAILED, fault_n, cause 8. -/
def startFails (s : State) : State :=
  s.setPwr fun p => { p with dev := .failed, faultN := true, cause := 8, step := 0, resetAt := none }

/-- DIE_FAILURE. -/
def execDieFailure (die : Fin 9) (s : State) : Res := if die.val < 9 then .next (dieFails s) else .next s

/-- TRUSS_FLIT_CRC_FAIL: four failures in a row remove a lane group, and the last group of a direction fails the die. -/
def execTrussFlitCrcFail (link : Fin 22) (dir : Bool) (s : State) : Res :=
  if !live s then .next s
  else
    let (lost, s) := trussCrc link.val (if dir then 1 else 0) s
    .next (if lost then dieFails s else s)

/-- UCIE_LINK_LOSS: a failure of the steward die. -/
def execUcieLinkLoss (s : State) : Res := if live s then .next (dieFails (setObj 0x5600 1 (3 * 2 ^ 28) s)) else .next s

/-! ## Power-up (R685) -/

/-- The three digests of Kazinmar firmware are measured in order. -/
def measureFirmware (bs : List Byte) (s : State) : State :=
  (List.range 3).foldl (fun s i => mExtend 3 (BitVec.ofNat 384 (leNat (slice bs (48 * i) 48))) s) s

/-- Step 5: the owner record, the configuration record and the firmware are measured, and the record is stored. `images`: the
record's copy (1 A, 2 B), the owner record's digest, the record's SVN and the firmware's, three firmware digests, the body. -/
def bootImages (images : List Byte) (s : State) : Option State :=
  let body := images.drop 203
  match recParse body with
  | none => none
  | some es =>
    let d := Config.sha384 body
    let s := mExtend 4 d (mExtend 2 (BitVec.ofNat 384 (leNat (slice images 1 48))) s)
    let s := storeRecord es (measureFirmware (slice images 57 144) s)
    some (setObj 0x6000 4 (leNat (slice images 53 4)) (setObj 0x1010 4 (leNat (slice images 49 4))
      (setObj 0x1010 3 (byteAt images 0) (setDom 0x1010 2 (digestBytes d) s))))

/-- The lanes of a pseudo-channel that the eye scan failed fit the 2 repair lanes of its data and of its metadata group. -/
def lanesFit (lanes : Nat) : Bool := decide (popCount (lanes % 2 ^ 32) 32 ≤ 2 ∧ popCount (lanes / 2 ^ 32) 4 ≤ 2)

/-- Training of one controller with its failing lanes by pseudo-channel (R268, R269): INITIALISING with its lanes repaired, its
failed pseudo-channels logged and its delays set (free; log entry 107). -/
def trainCtl (temp : Nat) (lanes : Tbl Nat) (s : State) (c : Nat) : State :=
  let good := lanes.filter fun p => lanesFit p.2
  let bad := (lanes.filter fun p => !lanesFit p.2).map (·.1)
  let h : Hbm := { st := .initialising, temp := temp, trainTemp := temp, hot := decide (85 < temp), repairMap := good
                   failedPc := bad.foldl (fun m p => m ||| 2 ^ p) 0
                   repaired := good.foldl (fun n p => n + popCount p.2 36) 0
                   delays := (List.range 16).map fun g => (g, freeAt s g) }
  bad.foldl (fun s p => logEvent 8 0 (3 * 2 ^ 28 + (2 + c / 6) * 2 ^ 24 + c % 6 * 2 ^ 19 + p * 2 ^ 13) 0xFF 0xFF 0 1 s)
    (freeStep 16 (setCtl c h s))

/-- Failing lanes of a controller: records of controller, pseudo-channel and 36 bits of lanes in 5 bytes. -/
def lanesFrom (c : Nat) : Nat → List Byte → Tbl Nat
  | 0, _ => []
  | k + 1, bs =>
    let t := lanesFrom c k (bs.drop 7)
    if byteAt bs 0 = c ∧ byteAt bs 1 < 64 ∧ leNat (slice bs 2 5) % 2 ^ 36 ≠ 0 then tins t (byteAt bs 1) (leNat (slice bs 2 5) % 2 ^ 36) else t

/-- Step 6 begins: every controller trains. -/
def startTraining (s : State) : State :=
  s.setHbm fun b => { b with ctl := (List.range 24).map fun c => (c, { ({} : Hbm) with st := .training }) }

/-- Steps 1 to 5 of R268 end: `images`, where given, is 6, for each controller its temperature and 1 where it fails a step, and the
failing lanes. -/
def bootTraining (images : List Byte) (s : State) : State :=
  (List.range 24).foldl (fun s c =>
    if byteAt images (2 * c + 2) = 1 then hbmFail c s
    else trainCtl (byteAt images (2 * c + 1)) (lanesFrom c ((images.length - 49) / 7) (images.drop 49)) s c) s

/-- Step 6 of R268 ends: in service, or FAILED where its checkers' self-test failed (R299, R300). -/
def initCtl (fails : Nat) (s : State) (c : Nat) : State :=
  let h := ctlOf s c
  if h.st ≠ .initialising then s
  else if bitAt fails c then hbmFail c (logEvent 0x0E 0 (ctlLoc c) 0xFF 0xFF 0 1 s)
  else setCtl c { h with st := .inService, lastUse := s.time.cycle } s

/-- Step 6, one core whose test failed (R243 reason 1). -/
def bootCore (s : State) (c : Nat) : State :=
  let k : Core := { reason := 1, count := 1 }
  logEvent 0x0B 0 (coreLoc c) 0 (0x20 + c) 1 1 (setCore c { k with st := fencedState s k } s)

/-- Step 6 ends: `images`, where given, is 6, the mask of cores that fail, and the mask of controllers whose checkers fail. -/
def bootMemory (images : List Byte) (s : State) : State :=
  let bad := (List.range 20).filter fun c => bitAt (leNat (slice images 1 4)) c
  let s := belowRating (coresInService s).length (bad.foldl bootCore s)
  (List.range 24).foldl (initCtl (leNat (slice images 5 3))) s

/-- Step 7 of power-up, and of R422: the steward image and the state record are measured, and the steward cores are released.
`images` is 7, the copies used at boot steps 3 to 6, and the steward image's digest. -/
def bootSteward (images : List Byte) (s : State) : State :=
  let state := slice images 1 4 ++ ((List.range 4).flatMap fun i => leBytes (obj s 0x1030 (i + 1)) 4) ++ [if s.mint.debug then 1 else 0]
  let s := mExtend 7 (Config.sha384 state) (mExtend 5 (BitVec.ofNat 384 (leNat (slice images 5 48))) s)
  mintTo .running (s.setPwr fun p => { p with stewardUp := true, dogStart := some s.time.cycle, ended7 := true })

/-! ## READY: what is kept comes back (R412, R439, R440, R629) -/

/-- The sealed record that a tenant's place in the seal area unwraps to. -/
def unsealed (s : State) (t : Nat) : Option SealRec :=
  match sealAddr s t with
  | none => none
  | some a =>
    if s.hbm.retained * 96 < a / 2 ^ 30 + 1 then none
    else
      let bs := mread s.mem.bytes a 1024
      match s.mint.sealed.find? fun p => p.1 == t && sealBytes t p.2 == bs with
      | some p => some p.2
      | none => match Config.sealUnwrap bs with
        | some (u, g, slots, sw) => if u = t then some { gen := g, slot0 := slots % 4, slot1 := slots / 4 % 4, sweep := sw } else none
        | none => none

/-- A tenant returns as ACTIVE with its slots and generation; a sweep restarts. -/
def restoreTenant (s : State) (t : Nat) : State :=
  match unsealed s t with
  | none => s
  | some r =>
    let s := setKeys t { gen := r.gen, slot0 := r.slot0, slot1 := r.slot1, sweep := r.sweep } (setTenant t { ({} : Tenant) with st := .active } s)
    setObj 0x6010 2 (obj s 0x6010 2 + 2 ^ t) s

/-- One kept grant: dropped where its tenant has not returned; without zeroizing where its bytes were retained; else as any other. -/
def reGrant (s : State) (r : List Byte) : State :=
  let v : BitVec 128 := BitVec.ofNat 128 (leNat r)
  let e := fld v 85 64
  let owner := fld v 63 56
  if owner < 64 ∧ (tenantOf s owner).st = .free then bumpObj 0x6010 3 1 32 s
  else if grantReason s v ≠ 0 then s
  else
    let s := grantNow v s
    match s.hbm.kept.find? fun p => p.1 == e with
    | some (_, o, b, bundle) =>
      if bundle ∨ s.hbm.retained * 96 < e + 1 then s
      else setExt e { extOf s e with st := .granted, base := b, alien := o != owner } s
    | none => s

/-- Records of 16 bytes. -/
def chunks16 : Nat → List Byte → List (List Byte)
  | 0, _ => []
  | k + 1, bs => if bs.isEmpty then [] else bs.take 16 :: chunks16 k (bs.drop 16)

/-- The retirement list of the record: 8 bytes an entry, a granule or a bank's code (R313). -/
def loadRetired : Nat → List Byte → State → State
  | 0, _, s => s
  | k + 1, bs, s =>
    if bs.isEmpty then s
    else
      let v := leNat (bs.take 8)
      loadRetired k (bs.drop 8) (if v < 402653184 then (retireGranule v s).2 else (retireBank v s).2)

/-- The twin's state after a start, from its designated role (R590). -/
def twinAtStart (s : State) : TwinState :=
  if obj s 0x8100 1 = 1 then .lead else if obj s 0x8100 1 = 2 then .follow else .single

/-- READY: the entries of the record take effect in the order of R629, after the tenants whose records unwrap have returned. -/
def toReady (s : State) : State :=
  let s := s.setPwr fun p => { p with dev := .ready, step := 0, resetAt := none }
  let s := (List.range 64).foldl restoreTenant s
  let ret := objDom s 0x4042 3
  let s := loadRetired (ret.length / 8) ret s
  let s := [1, 2, 3].foldl (fun s t => let r := macRegion s t; if macFits s t r.1 r.2 then macMark t r.1 r.2 true s else s) s
  let grants := objDom s 0x2401 2
  let s := (chunks16 (grants.length / 16 + 1) grants).foldl reGrant (setDom 0x2401 2 [] s)
  let s := s.setShape fun h => { h with bootList := gateParse (objDom s 0x2600 8) }
  s.setSpan fun p => { p with twin := twinAtStart s, heardVia := s.time.cycle, heardGuard := s.time.cycle, sentAt := s.time.cycle }

/-- Steps 6 and 7 have both ended. -/
def bothEnded (s : State) : State :=
  if s.pwr.dev = .starting ∧ s.pwr.step = 6 ∧ s.pwr.ended6 ∧ s.pwr.ended7 then toReady s else s

/-- The UCIe link as trained: the mode and rate that the two bytes give, x64 (R545, R546). -/
def ucieUp (images : List Byte) (s : State) : State :=
  let mode := if byteAt images 0 = 8 then 8 else 7
  let rate := if [32, 24, 16, 12, 8, 4].contains (byteAt images 1) then byteAt images 1 else 32
  setObj 0x5600 1 (2 * 2 ^ 28 + mode * 2 ^ 24 + rate * 2 ^ 16 + 64 * 2 ^ 8) s

/-- The debug nonce of a Mint start: random (R442, 6020:02). -/
def drawNonce (s : State) : State := freeStep 1 (s.setMint fun m => { m with nonce := freeAt s 0 % 2 ^ 256 })

def toStep (n : Nat) (s : State) : State := s.setPwr fun p => { p with step := n }

/-- POWER_UP_STEP_END: the step in progress ends; while steps 6 and 7 run, `images` that begin with 7 end step 7. -/
def execPowerUpStepEnd (ok : Bool) (images : List Byte) (s : State) : Res :=
  if s.pwr.dev ≠ .starting then .next s
  else match s.pwr.step with
    | 1 => .next (if ok then toStep 2 (s.setPwr fun p => { p with rails := 1 }) else startFails s)
    | 2 => .next (if ok then toStep 3 (s.setPwr fun p => { p with rails := 0x3FF }) else startFails s)
    | 3 => .next (if ok then toStep 4 (s.setPwr fun p => { p with pwrGood := true }) else startFails s)
    | 4 => .next (if ok then toStep 5 (drawNonce (mExtend 1 Config.romDigest (ucieUp images s))) else startFails (mintTo .identityFail s))
    | 5 => match (if ok then bootImages images s else none) with
      | some s => .next (toStep 6 (startTraining s))
      | none => .next (startFails (mintTo .bootFail s))
    | 6 =>
      if byteAt images 0 = 7 then
        if s.pwr.ended7 then .next s
        else .next (if ok then bothEnded (bootSteward images s) else startFails (mintTo .bootFail s))
      else if s.pwr.ended6 then .next s
      else if !ok then .next (startFails s)
      else if s.hbm.ctl.any fun c => c.2.st == .initialising then
        .next (bothEnded ((bootMemory images s).setPwr fun p => { p with ended6 := true }))
      else .next (bootTraining images s)
    | _ => .next s

/-- The device after power has gone: everything at its reset value, memory with it; the time bases, what has left the device and
the waiting commands are the model's own. -/
def coldState (s : State) : State :=
  { State.reset with time := s.time, out := s.out, freeCtr := s.freeCtr, pending := s.pending }

/-- The input is in range (R680). -/
def inputOk (mv : Nat) : Bool := decide (40000 ≤ mv ∧ mv ≤ 60000)

/-- POWER_UP: pwr_en has risen with the input in range; out of range nothing starts (R685), beyond the rating of R701 too (log entry
90). After an emergency only the end of the low time of R698 lets it start. -/
def execPowerUp (mv : Nat) (s : State) : Res :=
  if s.pwr.dev ≠ .shutdown ∨ !inputOk mv then .next s
  else
    let s := if s.pwr.emergency then carryTo (s.pwr.downAt + msCycles 2000) s else s
    .next { coldState s with time := {}, pwr := { dev := .starting, step := 1, rails := 0, pwrGood := false, millivolt := mv } }

/-! ## Power-down (R687, R688) -/

/-- The device is down. -/
def powerGone (cause : Nat) (emergency : Bool) (s : State) : State :=
  { coldState s with pwr := {
      dev := .shutdown, step := 0, rails := 0, pwrEn := s.pwr.pwrEn, pwrGood := false, faultN := emergency, millivolt := s.pwr.millivolt
      cause := cause, emergency := emergency, downAt := s.time.cycle } }

/-! ## Device reset (R515, R690 to R695) -/

/-- The ports and links go down at cycle 8; nothing in flight is answered (R692). -/
def quiesce (s : State) : State :=
  let s := s.setAttn fun a => { a with flights := [], cores := a.cores.map fun c => (c.1, { c.2 with work := none, queue := [], draining := [] }) }
  let s := s.setCoh fun c => { c with reqs := [], txns := [], asks := [] }
  let s := s.setKv fun k => { k with moves := [] }
  let s := (List.range 13).foldl (fun s l => linkDown l 0 s) s
  (List.range 14).foldl (fun s p => setObj (portState p).1 (portState p).2 0 s) (setObj 0x5600 1 0 s)

/-- Address below which a reset keeps T1 (R282). -/
def keptTop (k : Nat) : Nat := k * 96 * 2 ^ 30

/-- The device in reset: the retained segments and the reset controller's registers stay (R684, R693, R695). -/
def inReset (s : State) : State :=
  let k := objLast s 0x4030 2
  let kept := (s.led.exts.filter fun e => e.2.st != .free && decide (e.1 < k * 96)).map fun e => (e.1, (e.2.owner, e.2.base, e.2.sealed))
  { coldState s with
    mem := { bytes := s.mem.bytes.filter fun p => decide (p.1 < keptTop k)
             lines := s.mem.lines.filter fun p => decide (p.1 * 64 < keptTop k) }
    hbm := { retained := k, kept := kept, ctl := (List.range 24).map fun c => (c, { st := .retained }) }
    mint := { sealed := s.mint.sealed }
    dict := { force := s.dict.force.filter fun p => p.1 / 256 == 0x4212 }
    pwr := { dev := .reset, step := 4, rails := s.pwr.rails, millivolt := s.pwr.millivolt, watts := s.pwr.watts, hottest := s.pwr.hottest
             resets := (s.pwr.resets + 1) % 65536, ignored := s.pwr.ignored, cause := s.pwr.cause, resetAt := some s.time.cycle } }

/-- DEVICE_RESET: quiesced at cycle 8, drained, and every domain but the reset controller in reset. -/
def execDeviceReset (s : State) : Res :=
  match s.pwr.dev, s.pwr.resetAt with
  | .quiescing, some t => .next (inReset (quiesce (carryTo (t + 8) s)))
  | _, _ => .next s

/-- The arrival is a burst's delivery. -/
def delivers : Instr → Bool
  | .multicastDeliveryNotice _ _ => true
  | _ => false

/-- RESET_DRAIN_LIMIT: the clock is carried to the end of the drain; the routers discard what remains, but not a burst that is
delivered in that cycle (R26). -/
def execResetDrainLimit (s : State) : Res :=
  match s.pwr.dev, s.pwr.resetAt with
  | .quiescing, some t =>
    let due := t + 8 + obj s 0x2500 8
    let r := quiesce (carryTo due s)
    .next (if arrivalWins due delivers s then r else r.setTruss fun x => { x with packets := [], left := 0 })
  | _, _ => .next s

/-- RESET_RELEASE: the 1 ms hold has ended, and power-up goes on at step 4. Truss cycles count from here. -/
def execResetRelease (s : State) : Res :=
  match s.pwr.dev, s.pwr.resetAt with
  | .reset, some t =>
    let s := carryTo (t + msCycles 1) s
    .next { s with
      time := {}, clk := {}
      pwr := { s.pwr with dev := .starting, step := 4, resetAt := some 0 } }
  | _, _ => .next s

/-- ORDERLY_POWER_DOWN: pwr_en falls, or the rack manager writes 0xA5 to 2020:02; quiesce, drain, and the rails fall. -/
def powerDown (s : State) : State :=
  if s.pwr.dev = .shutdown then s
  else powerGone s.pwr.cause false (quiesce (elapse 8 s))

/-- A write of 2020:02. -/
def writePowerDown (v : Nat) (s : State) : Nat × State := if v = 0xA5 then (0, powerDown s) else (abValue, s)

def execOrderlyPowerDown (byPin : Bool) (v : BitVec 8) (s : State) : Res :=
  if byPin then .next ((powerDown s).setPwr fun p => { p with pwrEn := false })
  else .next (commanded (writePowerDown v.toNat) s)

/-- EMERGENCY_POWER_DOWN: 5 undervoltage, 6 overvoltage, 7 thermal; within 1 ms, with no drain. -/
def execEmergencyPowerDown (cause : BitVec 8) (s : State) : Res :=
  if cause.toNat < 5 ∨ 7 < cause.toNat ∨ s.pwr.dev = .shutdown then .next s
  else .next (powerGone cause.toNat true s)

/-- RST_N: acted on only while the device is READY or FAILED (R706). -/
def execRstN (s : State) : Res :=
  if s.pwr.dev = .ready ∨ s.pwr.dev = .failed then .next (requestReset 1 s) else .next s

/-- A write of 2020:01. -/
def writeResetRequest (v : Nat) (s : State) : Nat × State := if v = 0xA5 then (0, requestReset 2 s) else (abValue, s)

/-- REQUEST_DEVICE_RESET, by the steward or the rack manager. -/
def execRequestDeviceReset (p : Prin) (v : BitVec 8) (s : State) : Res :=
  .next (objCmd p 0x2020 1 (writeResetRequest v.toNat) s)

/-! ## The watchdog (R696) -/

/-- A write of 1 to 2020:04. -/
def writeKick (v : Nat) (s : State) : Nat × State :=
  if 1 < v then (abValue, s)
  else (0, if v = 1 ∧ s.pwr.dogStart.isSome then s.setPwr fun p => { p with dogStart := some s.time.cycle } else s)

/-- WATCHDOG_KICK. -/
def execWatchdogKick (v : Bool) (s : State) : Res := .next (commanded (writeKick (if v then 1 else 0)) s)

/-- The arrival is a write of 1 to 2020:04. -/
def kicks : Instr → Bool
  | .watchdogKick v => v
  | .objectWrite p _ index sub off total data => p == .s && index == 0x2020 && sub == 4 && off == 0 && total == 0 && data == [1]
  | _ => false

/-- WATCHDOG_EXPIRY: the clock is carried to the end of the period; a device reset with cause 4, unless a kick is registered in that
cycle (R26, R696). -/
def execWatchdogExpiry (s : State) : Res :=
  match s.pwr.dogStart with
  | some t =>
    let due := t + msCycles (obj s 0x2020 3)
    if obj s 0x2020 3 = 0 ∨ !live s then .next s
    else if arrivalWins due kicks s then .next (carryTo due s) else .next (requestReset 4 (carryTo due s))
  | none => .next s

/-! ## The issue allowance (R682, R683) -/

/-- A temperature asks for less. -/
def tooHot (s : State) (hottest : Nat) : Bool :=
  decide (obj s 0x2010 3 < hottest) || s.hbm.ctl.any fun h => decide (obj s 0x2010 4 < h.2.temp)

/-- The next allowance of a core. -/
def nextAllowance (watts cap : Nat) (hot : Bool) (g : Nat) : Nat :=
  if hot ∨ cap < watts then max 1 (g - 1) else if 100 * watts < 95 * cap ∧ g < 16 then g + 1 else g

/-- Core cycles that can have been gated in the last 10 µs: of each 16 the share above the allowance, at 2.5 GHz. -/
def gateBound (s : State) : Nat := s.pwr.allowance.foldl (fun n g => n + 25000 / 16 * (16 - g)) 0

/-- ISSUE_ALLOWANCE_UPDATE: the clock is carried to the next 10 µs; the gated cycles counted are a free value within their bound
(log entry 7). -/
def execIssueAllowanceUpdate (watts hottest : Nat) (s : State) : Res :=
  if s.pwr.dev = .shutdown then .next s
  else
    let s := carryTo ((s.time.cycle / 20000 + 1) * 20000) s
    let gs := s.pwr.allowance.map (nextAllowance watts (obj s 0x2010 1) (tooHot s hottest))
    let n := freeAt s 0 % (gateBound s + 1)
    .next (freeStep 1 (s.setPwr fun p => { p with
      allowance := gs, gated := (p.gated + n) % 2 ^ 64, watts := watts, hottest := hottest, thermN := gs.any (· != 16) }))

end Sys2Proof.Machine
end

