-- ==== Sys2Proof/Machine/Tallies.lean ====
section
/-! DEFINITION. Commands on the tallies and the traces: resets, the freeze, the trace writer, arming and triggers (R657 to R679). -/

namespace Sys2Proof.Machine

/-! ## Resets (R659, R675) -/

/-- The tallies of one group return to 0. -/
def tallyZero (group : Nat) (s : State) : State :=
  s.setTal fun t => { t with counts := terase t.counts (tkey group 0 0) (tkey (group + 1) 0 0) }

/-- A write of 7004:01. -/
def writeTallyReset (v : Nat) (s : State) : Nat × State :=
  if v = 1 then (0, tallyZero 0x7001 s)
  else if v = 2 then (0, tallyZero 0x7002 s)
  else if v = 3 then (0, tallyZero 0x7003 s)
  else if v = 4 then (0, tallyZero 0x7100 s)
  else if v = 0xFF then (0, tallyZero 0x7001 (tallyZero 0x7002 (tallyZero 0x7003 (tallyZero 0x7100 s))))
  else (abValue, s)

/-- RESET_TALLY_GROUP. -/
def execResetTallyGroup (p : Prin) (v : BitVec 8) (s : State) : Res := .next (objCmd p 0x7004 1 (writeTallyReset v.toNat) s)

/-- A write of 1 to b+8:10: the tenant's tallies return to 0. -/
def writeTenantReset (t : Nat) (v : Bool) (s : State) : Nat × State :=
  (0, if v then (List.range 15).foldl (fun s i => setObj (0x3008 + 16 * t) (i + 1) 0 s) s else s)

/-- RESET_TENANT_TALLIES. -/
def execResetTenantTallies (p : Prin) (t : Fin 64) (s : State) : Res :=
  .next (objCmd p (0x3008 + 16 * t.val) 0x10 (writeTenantReset t.val true) s)

/-! ## The freeze (R661 to R663) -/

/-- The tallies freeze, which is a telemetry event; frozen tallies stay as they are. -/
def freezeTallies (s : State) : State := if s.tal.frozen then s else telemetry 0x0B 0 (freezeNow s)

/-- A write of 7000:02; a trigger registered in the cycle of the lifting leaves the tallies frozen, from that cycle on. -/
def writeFreeze (v : Bool) (s : State) : Nat × State :=
  (0, if v then freezeTallies s
    else
      let t := s.setTal fun t => { t with frozen := false }
      if s.tal.frozen ∧ s.tal.trigAt = some s.time.cycle then freezeTallies t else t)

/-- FREEZE. -/
def execFreeze (p : Prin) (v : Bool) (s : State) : Res := .next (objCmd p 0x7000 2 (writeFreeze v) s)

/-- FREEZE_TRIGGER: an event that R663 selects has been registered. -/
def execFreezeTrigger (s : State) : Res := if s.tal.freezeWait then .next (freezeTallies s) else .next s

/-! ## The trace (R666 to R670) -/

/-- The next slot takes a record, in a ring. -/
def traceSlot (w : BitVec 256) (t : Trace) : Trace := { t with recs := tins t.recs (t.wr % 65536) w, wr := t.wr + 1 }

/-- The trace writer takes one record. In mode 1 the last slot holds a gap record of reason 3 that counts what is lost from then
on; in mode 3 the P-th record after the trigger is the last. -/
def traceTake (s : State) (mode : Nat) (w : BitVec 256) (t : Trace) : Trace :=
  if mode = 1 ∧ 65535 ≤ t.wr then
    { t with recs := tins t.recs 65535 (traceWord s 0 3 0 0xFF 0 (t.wr - 65534) 0x10 0), wr := t.wr + 1 }
  else
    let t := traceSlot w t
    if t.st = 2 then { t with left := t.left - 1, st := if t.left ≤ 1 then 3 else 2 } else t

/-- TRACE_RECORD: up to two records leave the FIFO; those that an ended or stopped trace no longer takes are dropped. -/
def execTraceRecord (die : Fin 2) (s : State) : Res :=
  let t := traceOf s die.val
  if t.wait then .next s
  else
    let two := t.fifo.take 2
    let full := if s.tal.mode = 1 then t.wr + two.length - max 65535 t.wr else 0
    let t := two.foldl (fun t w => if t.st = 1 ∨ t.st = 2 then traceTake s s.tal.mode w t else t) { t with fifo := t.fifo.drop 2 }
    .next (setTrace die.val t (s.setTal fun v => { v with recLost := (v.recLost + full) % 2 ^ 64 }))

/-- A write of 7300:06: the settings last written come into force, and both dies record from the next cycle on. -/
def writeArm (v : Bool) (s : State) : Nat × State :=
  if !v then (0, s)
  else
    let s := applyWaiting .arm (fun _ => true) s
    let mode := obj s 0x7300 1
    let t : Trace := { st := if mode = 0 then 0 else 1 }
    (0, s.setTal fun x => { x with
      io0 := t, io1 := t, mode := mode, post := obj s 0x7300 2, kinds := obj s 0x7300 3, tenants := obj s 0x7300 4
      trigKinds := obj s 0x7300 5, trigCode := obj s 0x7300 8, armedFrom := s.time.cycle + 1 })

/-- ARM. -/
def execArm (p : Prin) (v : Bool) (s : State) : Res := .next (objCmd p 0x7300 6 (writeArm v) s)

/-- A write of 7300:09. -/
def writeTriggerNow (v : Bool) (s : State) : Nat × State := (0, if v then traceTriggerSeen s else s)

/-- TRIGGER_NOW. -/
def execTriggerNow (p : Prin) (v : Bool) (s : State) : Res := .next (objCmd p 0x7300 9 (writeTriggerNow v) s)

/-- TRACE_TRIGGER: a die writes its gap records that are pending and then its trigger record, past the FIFO. -/
def execTraceTrigger (die : Fin 2) (s : State) : Res :=
  let t := traceOf s die.val
  if !t.wait then .next s
  else
    let gaps := gapWords s 1 t.lost (t.lost / 65535 + 1) ++ gapWords s 2 t.hidden (t.hidden / 65535 + 1)
    let t := gaps.foldl (fun t w => traceSlot w t) { t with lost := 0, hidden := 0, wait := false }
    let t := { traceSlot (traceWord s 0 0 0 0xFF 0 0 0x0A 1) t with st := 2, trigSlot := t.wr % 65536, left := s.tal.post }
    .next (telemetry 0x0A die.val (setTrace die.val t s))

end Sys2Proof.Machine
end

