-- ==== Sys2Proof/Machine/Views.lean ====
section
/-! DEFINITION. What a read of each object returns: its present length and its bytes (R611, R615, R617). Objects that show the
state of a unit are read from that unit; every other object from the store. Layouts that no rule states are in log entry 36. -/

namespace Sys2Proof.Machine

/-- A value as its length and its bytes by position. -/
abbrev View := Nat × (Nat → Byte)

/-- A number of `n` bytes, bytes as they stand, and `n` records of `w` bytes. -/
def numView (n v : Nat) : View := (n, fun i => BitVec.ofNat 8 (v / 256 ^ i))
def byteView (bs : List Byte) : View := (bs.length, fun i => bs.getD i 0)
def arrView (n w : Nat) (rec : Nat → Nat) : View := (n * w, fun i => BitVec.ofNat 8 (rec (i / w) / 256 ^ (i % w)))

/-- Numbers of 8 bytes, first number first. -/
def words8 (l : List Nat) : Nat := leNat (l.flatMap fun v => leBytes v 8)

/-- The bytes of a text. -/
def textBytes (t : String) : List Byte := t.toList.map fun c => BitVec.ofNat 8 c.toNat

/-! ## Identity, power, the step clock -/

/-- The layer slot that the phase lies in, 2101:04 (R41). -/
def layerSlot (s : State) : Nat :=
  ((List.range s.clk.layers).filter fun l => decide (l * 65536 / max 1 s.clk.layers ≤ phaseOf s)).length - 1

/-- Objects 1000 to 2101 that are numbers. -/
def num1 (s : State) (i sub : Nat) : Option Nat :=
  if i = 0x1001 then some (errReg s)
  else if i = 0x1018 ∧ sub = 4 then some (leNat ((digestBytes Config.devId).take 4))
  else if i = 0x1020 ∧ sub = 4 then some s.can.nmt
  else if i = 0x1021 ∧ sub = 1 then some s.can.eid
  else if i = 0x2000 then
    (if sub = 1 then some (devStateNum s.pwr.dev) else if sub = 2 then some s.pwr.millivolt else if sub = 3 then some s.pwr.watts
      else if sub = 4 then some s.pwr.rails else none)
  else if i = 0x2010 then
    (if sub = 2 then some (s.pwr.allowance.foldl min 16) else if sub = 5 then some s.pwr.hottest
      else if sub = 6 then some s.pwr.gated else none)
  else if i = 0x2020 then
    (if sub = 5 then some (s.pwr.ignored * 65536 + s.pwr.resets % 65536) else if sub = 6 then some s.pwr.cause else none)
  else if i = 0x2101 then
    (if sub = 1 then some (clkStateNum s.clk.st) else if sub = 2 then some s.clk.last else if sub = 3 then some (phaseOf s)
      else if sub = 4 then some (layerSlot s) else if sub = 5 then some s.clk.predicted
      else if sub = 7 then some (if s.clk.st = .unlocked ∨ s.clk.st = .coast then s.clk.internal else 0) else none)
  else none

/-! ## Coherence, translation, tenants, the truss, shaping -/

/-- A tenant's state, b:01 (R380). -/
def tenantNum (t : TenState) : Nat := match t with | .free => 0 | .active => 1 | .removing => 2

/-- Extents that count in b+4 (R410): KV, direct, tier, and the read-mostly ones whose reader set names the tenant. -/
def extentsHeld (s : State) (t sub : Nat) : Nat :=
  (s.led.exts.filter fun e => e.2.st == .granted &&
    (if sub = 4 then e.2.kind == 4 && bitAt (obj s 0x2402 (e.2.readers + 1)) t
     else e.2.owner == t && e.2.kind == (if sub = 1 then 1 else if sub = 2 then 3 else 2))).length

/-- Free admission places of an I/O die, 2400:08 and :09 (R402). -/
def freePlaces (s : State) (die : Nat) : Nat :=
  4096 - (s.attn.flights.filter fun f => f.place && qpDie f.qp == die).length

/-- Numbers of a tenant's block. -/
def numTenant (s : State) (t i sub : Nat) : Option Nat :=
  let v := tenantOf s t
  if i = 0x3000 then
    (if sub = 1 then some (tenantNum v.st) else if sub = 2 then some (if v.confidential then 1 else 0)
      else if sub = 4 then some (tenantQps s t).length else none)
  else if i = 0x3004 then some (extentsHeld s t sub)
  else if i = 0x3006 ∧ sub = 1 then some (keysOf s t).gen
  else if i = 0x3006 ∧ sub = 2 then
    some (if v.st = .free then 1 else (keysOf s t).slot0 + 4 * (keysOf s t).slot1)
  else if i = 0x3007 ∧ sub = 4 then some (removalCount s t)
  else none

/-- Objects 2200 to 3FFF that are numbers. -/
def num2 (s : State) (index sub : Nat) : Option Nat :=
  let i := objNorm index
  if i = 0x2201 then some (let a := tget 0 s.coh.agents (sub - 1); if a = 4 then 2 else a)
  else if i = 0x2300 ∧ sub = 2 then some s.xl.queue.length
  else if i = 0x2300 ∧ sub = 3 then some s.xl.high
  else if i = 0x2310 ∧ sub = 3 then some (s.led.binds.length + 1)
  else if i = 0x2400 then
    (if sub = 6 then some (s.led.exts.filter fun e => e.2.st == .escrow).length else if sub = 7 then some s.kv.pages.length
      else if sub = 8 then some (freePlaces s 0) else if sub = 9 then some (freePlaces s 1)
      else if sub = 0x0B then some s.led.status else none)
  else if i = 0x2500 ∧ sub = 1 then some s.truss.epoch
  else if i = 0x2500 ∧ sub = 4 then some s.truss.left
  else if i = 0x2600 ∧ sub = 6 then some s.shape.status
  else if i = 0x2600 ∧ sub = 7 then some (gatesOpen s)
  else if 0x3000 ≤ index ∧ index < 0x3400 then numTenant s ((index - 0x3000) / 16) i sub
  else none

/-! ## Memory, links, the Mint, tallies, spans, cores -/

/-- A twin's state, 8100:07 (R590). -/
def twinNum (t : TwinState) : Nat :=
  match t with | .single => 0 | .lead => 1 | .follow => 2 | .sole => 3 | .syncing => 4 | .detached => 5 | .fenced => 6

/-- Objects 4000 to 7400 that are numbers. -/
def num3 (s : State) (i sub : Nat) : Option Nat :=
  if i = 0x4000 then some (hbmStat (ctlOf s (sub - 1)))
  else if i = 0x4001 then some (ctlOf s (sub - 1)).failedPc
  else if i = 0x5000 then some (linkStat (linkOf s (sub - 1)))
  else if i = 0x6000 ∧ sub = 1 then some (mintNum s.mint.st)
  else if i = 0x6000 ∧ sub = 3 then some (if s.mint.healthy then 1 else 0)
  else if i = 0x6020 ∧ sub = 1 then some (if s.mint.debug then 1 else 0)
  else if i = 0x7000 then
    (if sub = 1 then some (if s.tal.frozen then 1 else 0) else if sub = 5 then some s.tal.frozenAt
      else if sub = 6 then some s.tal.frozenCycles else none)
  else if i = 0x7010 ∧ sub = 2 then some s.tal.snapCount
  else if i = 0x7030 ∧ sub = 2 then some s.tal.eventCount
  else if i = 0x7300 then
    (if sub = 7 then some (max s.tal.io0.st s.tal.io1.st) else if sub = 0x0C then some s.tal.io0.trigSlot
      else if sub = 0x0D then some s.tal.io1.trigSlot else if sub = 0x0E then some s.tal.recLost
      else if sub = 0x0F then some s.tal.trigIgnored else none)
  else if i = 0x7400 then
    (if sub = 2 then some s.mem.logWr else if sub = 3 then some s.mem.logRd else if sub = 4 then some s.mem.logRdM
      else if sub = 5 then some s.mem.logLost else none)
  else none

/-- Objects 8000 to 9001 that are numbers. -/
def num4 (s : State) (i sub : Nat) : Option Nat :=
  if i = 0x8000 ∧ sub = 5 then some (membersReachable s)
  else if i = 0x8000 ∧ sub = 6 then some (mapsDiffer s)
  else if i = 0x8100 ∧ sub = 7 then some (twinNum s.span.twin)
  else if i = 0x9000 then some (coreRecord (coreOf s (sub - 1)))
  else if i = 0x9001 ∧ sub = 3 then some ((coresInService s).foldl (fun a c => a + 2 ^ c) 0)
  else if i = 0x9001 ∧ sub = 7 then some s.attn.fencedRetry
  else none

/-- The number of an object that shows a unit's state. -/
def viewNum (s : State) (index sub : Nat) : Option Nat :=
  if sub = 0 ∧ index ≠ 0x1001 then none
  else if index < 0x2200 then num1 s index sub
  else if index < 0x4000 then num2 s index sub
  else if index < 0x8000 then num3 s index sub else num4 s index sub

/-! ## Records -/

/-- An extent record (R393); its in-flight count; an extent with no tray behind it reads as FREE. -/
def extRecord (s : State) (e : Nat) : Nat :=
  let x := if 1536 ≤ e ∧ trayRegion s (e * 2 ^ 30) = [] then ({} : Extent) else extOf s e
  (match x.st with | .free => 0 | .granting => 1 | .granted => 2 | .escrow => 3) * 2 ^ 62 + x.kind * 2 ^ 58 + x.owner % 256 * 2 ^ 50
    + x.mode * 2 ^ 48 + (if x.loss then 2 ^ 47 else 0) + (if x.mac then 2 ^ 46 else 0) + (if x.cache then 2 ^ 45 else 0)
    + x.epoch % 2 * 2 ^ 44 + (if x.rewrap then 2 ^ 43 else 0) + min 65535 (extInflight s e) * 2 ^ 27 + x.readers * 2 ^ 23
    + x.macBlock % 2 ^ 21

/-- An error-log entry (R305). -/
def logWord (e : LogEntry) : Nat :=
  e.time % 2 ^ 64 * 2 ^ 192 + e.step % 2 ^ 48 * 2 ^ 144 + e.addr % 2 ^ 52 * 2 ^ 88 + e.loc % 2 ^ 32 * 2 ^ 56 + e.tag % 256 * 2 ^ 48
    + e.source % 256 * 2 ^ 40 + e.symbols % 256 * 2 ^ 32 + e.count % 65536 * 2 ^ 16 + e.kind % 256 * 256 + e.severity % 16 * 16

/-- A queue sample record (R541). -/
def sampleWord (r : Sample) : Nat :=
  ((List.range 16).foldl (fun a b => a + min 65535 (r.hist.getD b 0) * 65536 ^ b) 0) * 2 ^ 256 + min (2 ^ 32 - 1) r.delayMax * 2 ^ 224
    + r.placesMax % 65536 * 2 ^ 208 + r.depthMax % 65536 * 2 ^ 192 + r.depthSum % 2 ^ 64 * 2 ^ 128 + r.samples % 2 ^ 64 * 2 ^ 64

/-- Sample record `q` of 7200:03: that of a confidential tenant's queue pair reads 0 (R542). -/
def sampleShown (s : State) (q : Nat) : Nat :=
  if (qpOf s q).st ≠ .disabled ∧ (tenantOf s (qpOf s q).tenant).confidential then 0 else sampleWord (tget ({} : Sample) s.led.samples q)

/-- Binding `i` of 2310:04: PASID 0 first, then the bound PASIDs in ascending order (R355). -/
def bindRecord (s : State) (i : Nat) : Nat :=
  if i = 0 then 0
  else match s.led.binds[i - 1]? with
    | none => 0
    | some (p, t, root, stall) => (if stall then 2 ^ 108 else 0) + t * 2 ^ 102 + root % 2 ^ 40 * 2 ^ 52 + p

/-- The next step whose number is a multiple of a period, 0 for a period of 0 (R677). -/
def nextDue (s : State) (n : Nat) : Nat := if n = 0 then 0 else (stepNumber s / n + 1) * n

/-- Patrol progress of a memory-side die, in thousandths of a pass over its six controllers' 2^30 lines each (R677). -/
def patrolShare (s : State) (md : Nat) : Nat :=
  ((List.range 6).foldl (fun a c => a + tget 0 s.mem.patrol (6 * md + c)) 0) * 1000 / (6 * 2 ^ 30)

/-- One requester's six counters at a truss output port (R511), by its number: 0 to 7 input links, 0x10 + e endpoints. -/
def arbiterWord (s : State) (link r : Nat) : Nat := words8 ((List.range 6).map fun c => tget 0 s.tal.counts (tkey 0x7100 (link * 80 + r) c))

/-! ## Objects of bytes -/

/-- Tallies: `n` units of `c` counters of 8 bytes, in the order of R658. -/
def tallyView (s : State) (group n c : Nat) : View := arrView (n * c) 8 fun k => tget 0 s.tal.counts (tkey group (k / c) (k % c))

/-- A trace as read: its records by slot. -/
def traceView (t : Trace) : View := arrView (min t.wr 65536) 32 fun k => (tget 0#256 t.recs k).toNat

/-- DOMAIN objects of the tallies. -/
def domTally (s : State) (i sub : Nat) : Option View :=
  if i = 0x7001 then some (tallyView s 0x7001 142 2)
  else if i = 0x7002 then some (tallyView s 0x7002 28 4)
  else if i = 0x7003 ∧ sub = 1 then some (tallyView s 0x7003 20 4)
  else if i = 0x7003 then some (arrView 20 40 fun c => words8 (tget [] s.tal.coreLast c))
  else if i = 0x7010 ∧ sub = 1 then some (arrView (min s.tal.snapCount 64) 128 fun k => words8 (tget [] s.tal.snaps k))
  else if i = 0x7020 then
    some (if sub = 1 then numView 8 (nextDue s (obj s 0x2102 6)) else if sub = 2 then numView 8 (nextDue s (obj s 0x2102 7))
      else if sub = 3 then numView 8 (nextDue s (obj s 0x9001 4)) else arrView 4 2 (patrolShare s))
  else if i = 0x7030 ∧ sub = 1 then some (arrView (min s.tal.eventCount 256) 16 fun k => (tget 0#128 s.tal.events k).toNat)
  else if i = 0x7100 then some (arrView 80 48 (arbiterWord s (sub - 1)))
  else if i = 0x7200 ∧ sub = 3 then some (arrView 1024 64 (sampleShown s))
  else if i = 0x7300 ∧ sub = 0x0A then some (traceView s.tal.io0)
  else if i = 0x7300 ∧ sub = 0x0B then some (traceView s.tal.io1)
  else if i = 0x7400 ∧ sub = 1 then
    some (arrView (min s.mem.logWr 4096) 32 fun k => match s.mem.log.find? (fun e => e.1 == k) with | some e => logWord e.2 | none => 0)
  else none

/-- The Mint's objects of bytes. -/
def domMint (s : State) (i sub : Nat) : Option View :=
  if i = 0x6001 ∧ sub ≤ 8 then some (byteView (digestBytes (tget 0#384 s.mint.regs (sub - 1))))
  else if i = 0x6001 then some (byteView (s.mint.log.flatMap fun e => BitVec.ofNat 8 e.1 :: e.2))
  else if i = 0x6002 ∧ sub = 1 then some (byteView (digestBytes Config.devId))
  else if i = 0x6002 then some (byteView (Config.certChain 0 1 (aliasSalt s) ++ Config.certChain 1 1 (aliasSalt s)))
  else if i = 0x6000 ∧ sub = 2 then some (byteView (Config.version 0))
  else if i = 0x6020 ∧ sub = 2 then some (numView 32 s.mint.nonce)
  else if i = 0x6030 ∧ sub = 3 then some (byteView (s.mint.bundles.flatMap fun b => leBytes b.1 8 ++ leBytes (b.2 - 1) 8))
  else none

/-- A tenant's objects of bytes. -/
def domTenant (s : State) (t i sub : Nat) : Option View :=
  let qs := tenantQps s t
  if i = 0x3000 ∧ sub = 3 then some (numView (if qs.isEmpty then 0 else 128) (qs.foldl (fun a q => a + 2 ^ q) 0))
  else if i = 0x3009 ∧ sub = 1 then some (arrView qs.length 40 fun k => words8 (tget [] s.tal.qpLast (qs.getD k 0)))
  else if i = 0x3009 ∧ sub = 2 then some (arrView qs.length 32 fun k => (tget 0#256 s.tal.qpDigest (qs.getD k 0)).toNat)
  else if i = 0x3009 ∧ sub = 3 then some (arrView qs.length 64 fun k => sampleWord (tget ({} : Sample) s.led.samples (qs.getD k 0)))
  else none

/-- The retirement list: the granules, then the banks and pseudo-channels, 8 bytes an entry. -/
def retiredView (s : State) : View :=
  let l := s.mem.retired ++ s.mem.retiredBanks
  arrView l.length 8 fun k => l.getD k 0

/-- Objects of bytes that show a unit's state. -/
def viewDom (s : State) (index sub : Nat) : Option View :=
  let i := objNorm index
  if i = 0x1008 then some (byteView (textBytes "Vrelim VP24"))
  else if i = 0x1009 then some (byteView (textBytes "B0"))
  else if sub = 0 then none
  else if i = 0x2101 ∧ sub = 6 then
    some (arrView 6 4 fun k => [s.clk.discarded, s.clk.stale, s.clk.missed, s.clk.early, s.clk.overruns, s.clk.coasts].getD k 0)
  else if i = 0x2310 ∧ sub = 4 then some (arrView (s.led.binds.length + 1) 16 (bindRecord s))
  else if i = 0x2401 ∧ sub = 1 then some (arrView 50688 8 fun k => extRecord s (if k < 1536 then k else k - 1536 + 0x4000))
  else if i = 0x2401 ∧ sub = 3 then some (arrView 2097152 8 fun k => extRecord s (k + 0x200000))
  else if i = 0x2500 ∧ sub = 5 then some (byteView (s.truss.next.getD []))
  else if i = 0x2500 ∧ sub = 6 then some (byteView (trussTable s))
  else if i = 0x2500 ∧ sub = 7 then some (byteView (trussLanes s))
  else if i = 0x2600 ∧ sub = 1 then some (byteView (gateBytes s.shape.active))
  else if 0x3000 ≤ index ∧ index < 0x3400 then domTenant s ((index - 0x3000) / 16) i sub
  else if i = 0x4010 ∧ sub = 3 then some (byteView (Config.version 1))
  else if i = 0x4042 ∧ sub = 3 then some (retiredView s)
  else if i = 0x5010 then some (arrView 12 8 fun k => tget 0 (linkOf s (sub - 1)).counts k)
  else if 0x6000 ≤ i ∧ i < 0x7000 then domMint s i sub
  else if 0x7000 ≤ i ∧ i < 0x8000 then domTally s i sub
  else if i = 0x8000 ∧ sub = 3 then
    some (byteView (if (objDomLast s 0x8000 3).isEmpty then List.replicate 32 0xFF else objDomLast s 0x8000 3))
  else none

/-! ## The export of the configuration (R627, R631) -/

/-- The present value of any object but the export. -/
def viewOf (s : State) (r : ObjRow) (index sub : Nat) : View :=
  match viewDom s index sub, viewNum s index sub, typeSize r.type with
  | some v, _, _ => v
  | none, some n, some k => numView k n
  | none, none, some k => numView k (objLast s index sub)
  | none, _, none => byteView (objDomLast s index sub)

/-- The bytes of a view. -/
def viewBytes (v : View) : List Byte := (List.range v.1).map v.2

/-- The default of an object in the object tables. -/
def tableDefault (r : ObjRow) (index sub : Nat) : List Byte :=
  match typeSize r.type with
  | some k => leBytes (objTableDefault index sub) k
  | none =>
    if index = 0x8000 ∧ sub = 3 then List.replicate 32 0xFF
    else if index = 0x2500 then trussDefault
    else if index = 0x2310 then List.replicate 16 0 else []

/-- One entry of a record: the object where its value differs from its table default. -/
def exportEntry (s : State) (r : ObjRow) (index sub : Nat) : List (List Byte) :=
  let bs := viewBytes (viewOf s r index sub)
  if bs = tableDefault r index sub then []
  else [leBytes (index + sub * 65536 + r.type * 2 ^ 24 + bs.length * 2 ^ 32) 8 ++ bs ++ List.replicate (roundUp bs.length 8 - bs.length) 0]

/-- The entries of one row, for the tenant block that begins at `shift`. -/
def exportRow (s : State) (shift : Nat) (r : ObjRow) : List (List Byte) :=
  if r.kept ∧ r.access ≠ 3 then (List.range (r.hi + 1 - r.lo)).flatMap fun k => exportEntry s r (r.index + shift) (r.lo + k) else []

/-- The body of a record of every Kept object that differs from its table default, 1010:01. -/
def exportBody (s : State) : List Byte :=
  let es := (objTable.filter fun r => decide (r.index < 0x3000)).flatMap (exportRow s 0)
    ++ (List.range 64).flatMap (fun t => (objTable.filter fun r => decide (0x3000 ≤ r.index ∧ r.index < 0x3400)).flatMap (exportRow s (16 * t)))
    ++ (objTable.filter fun r => decide (0x3400 ≤ r.index)).flatMap (exportRow s 0)
  let len := 16 + (es.map List.length).foldl (· + ·) 0
  leBytes (0x52435A4B + 2 ^ 32) 8 ++ leBytes es.length 4 ++ leBytes len 4 ++ es.flatten

/-- A tray's or namespace's record: its state reads 2 where it has failed (R237, R239; log entry 21). -/
def trayView (s : State) (index sub : Nat) : View :=
  let v := tget ({} : Tray) (if index = 0x4210 then s.kv.nss else s.kv.trays) (sub - 1)
  let bs := objDomLast s index sub
  byteView (if v.failed ∧ !bs.isEmpty then 2 :: bs.drop 1 else bs)

/-- The present value of an object. -/
def view (s : State) (r : ObjRow) (index sub : Nat) : View :=
  if index = 0x1010 ∧ sub = 1 then byteView (exportBody s)
  else if (index = 0x4200 ∨ index = 0x4210) ∧ sub ≠ 0 then trayView s index sub
  else viewOf s r index sub

end Sys2Proof.Machine
end

