-- ==== Sys2Proof/Machine/Dictionary.lean ====
section
/-! DEFINITION. The object dictionary: access, reads, writes, staged writes, in-band requests, CANopen FD and MCTP over I3C (R610 to
R634, R717). -/

namespace Sys2Proof.Machine

/-! ## Access (R610 to R614) -/

/-- Some object of the index is the principal's (R610). -/
def mayTouchAny (p : Prin) (index : Nat) : Bool :=
  objTable.any fun r => r.index == objNorm index && mayTouch p index r.lo

/-- The tallies of a confidential tenant are shown to nobody but the tenant (R441, R674). -/
def talliesHidden (s : State) (p : Prin) (index : Nat) : Bool :=
  match p, blockOf index with
  | .t _, _ => false
  | _, some t => (objNorm index == 0x3008 || objNorm index == 0x3009) && (tenantOf s t).confidential
  | _, none => false

/-- The abort code that an access draws before its value is judged, 0 for none. A span port reaches nothing while the device holds
no span map. -/
def accessCode (p : Prin) (index sub : Nat) (write : Bool) (s : State) : Nat :=
  let hide : Bool := match p with | .t _ => true | _ => false
  if p = .k ∧ (objDom s 0x8000 1).isEmpty then abPrin
  else if !objIndexExists index then abNoObj
  else match objRow? index sub with
    | none => if hide && !mayTouchAny p index then abNoObj else abNoSub
    | some r =>
      if !mayTouch p index sub then (if hide then abNoObj else abPrin)
      else if talliesHidden s p index then abPrin
      else if write then (if r.access ≤ 1 then abWriteRo else 0)
      else if r.access = 3 then abReadWo else 0

/-- An access that is refused is counted in 1022:01. -/
def refusedAccess (s : State) : State := bumpObj 0x1022 1 1 32 s

/-! ## Reads (R615, R619) -/

/-- The present length of an object that the principal may read. -/
def objSize (p : Prin) (index sub : Nat) (s : State) : Nat :=
  if accessCode p index sub false s ≠ 0 then 0
  else match objRow? index sub with
    | some r => (view s r index sub).1
    | none => 0

/-- A read of up to `len` bytes from `off`: abort code, present length, bytes; nothing at or beyond the end. -/
def objRead (p : Prin) (index sub off len : Nat) (s : State) : Nat × Nat × List Byte :=
  let c := accessCode p index sub false s
  if c ≠ 0 then (c, 0, [])
  else if 1024 < len then (abLength, 0, [])
  else match objRow? index sub with
    | some r =>
      let v := view s r index sub
      (0, v.1, (List.range (min len (v.1 - off))).map fun i => v.2 (off + i))
    | none => (abNoSub, 0, [])

/-! ## The accesses of one truss cycle (R615, R616) -/

/-- An access on a path: each takes a cycle of its path, and accesses on different paths may share one (log entry 116). -/
def accessOn (path : Nat) (s : State) : State :=
  let s := if s.dict.accAt = s.time.cycle ∧ s.dict.accOn.contains path then elapse 1 s else s
  s.setDict fun d =>
    if d.accAt = s.time.cycle then { d with accOn := path :: d.accOn }
    else { d with accAt := s.time.cycle, accOn := [path], early := [], wrote := [] }

/-- What a waiting read asks: principal, object, offset and length. -/
def accessAsked (s : State) : Instr → Option (Prin × Nat × Nat × Nat × Nat)
  | .objectRead p _ index sub off len => some (p, index.toNat, sub.toNat, off, len)
  | .usdoTransfer true index sub _ _ _ =>
    some (.m, index.toNat, sub.toNat, (match s.can.usdo with
      | some (k, true, bs) => if k = okey index.toNat sub.toNat then bs.length else 0
      | _ => 0), 1024)
  | _ => none

/-- Before the first write of a cycle: what the reads that wait return if they fall in it (R616). -/
def noteReads (s : State) : State :=
  if s.dict.wrote.isEmpty then
    let es := s.pending.filterMap fun i => (accessAsked s i).map fun (p, index, sub, off, len) =>
      let r := objRead p index sub off len s
      { prin := p, key := okey index sub, off := off, len := len, code := r.1, size := r.2.1, bytes := r.2.2 : EarlyRead }
    s.setDict fun d => { d with early := es }
  else s

/-- A read as its cycle serves it: the value as it stood before the cycle's writes (R616). -/
def readNow (p : Prin) (index sub off len : Nat) (s : State) : Nat × Nat × List Byte :=
  match s.dict.early.find? fun e => s.dict.accAt == s.time.cycle && e.prin == p && e.key == okey index sub && e.off == off && e.len == len with
  | some e => (e.code, e.size, e.bytes)
  | none => objRead p index sub off len s

/-- The order of a cycle's writes: N, K, S, M, and the tenants in ascending number. -/
def prinRank : Prin → Nat
  | .n => 0
  | .k => 1
  | .s => 2
  | .m => 3
  | .t i => 4 + i.val

/-- A write to an object that a principal later in the order has written in this cycle: the other stands. -/
def outranked (p : Prin) (index sub : Nat) (s : State) : Bool :=
  ((objRow? index sub).map (·.access)) == some 2
    && s.dict.wrote.any fun q => q.1 == okey index sub && decide (prinRank p < q.2)

/-- A write stands in its cycle. -/
def noteWrote (p : Prin) (index sub : Nat) (s : State) : State :=
  s.setDict fun d => { d with wrote := tins d.wrote (okey index sub) (prinRank p) }

/-! ## Writes (R611, R617, R717) -/

/-- Rules on the present state: no plaintext for a confidential tenant's queue pair or PASID (R482, R573), no processor cut off from
lines it holds (R573), no tier cache changed under its extents (R242). -/
def stateRefuses (s : State) (index sub v : Nat) : Bool :=
  if index = 0x5003 then
    v == 0 && s.led.qps.any fun q => q.2.st == .active && q.2.bindKind == 1 && q.2.bindPort == sub - 1 && (tenantOf s q.2.tenant).confidential
  else if index = 0x5201 then
    v == 0 && (match pasidOf s (objLast s 0x2301 sub) with
      | some b => (tenantOf s b.1).confidential
      | none => false)
  else if index = 0x5202 then
    v == 0 && ((s.led.qps.any fun q => q.2.st != .disabled && q.2.bindKind == 2 && q.2.bindPort == sub - 1) || objLast s 0x2301 sub != 0)
      && s.coh.dir.any fun d => bitAt d.2.holders (7 + sub)
  else if index = 0x4300 ∧ (sub = 8 ∨ sub = 9) then
    v != objLast s 0x4300 sub && s.led.exts.any fun e => e.2.st != .free && e.2.kind == 3 && extTier e.1 == 3 && e.2.cache == (sub == 9)
  else false

/-- A value is stored, in force at once or when its chapter says. -/
def storeNum (index sub v : Nat) (s : State) : State :=
  match objEffect index sub with
  | .now => writeObj index sub v s
  | _ => waitObj index sub v s
def storeBytes (index sub : Nat) (bs : List Byte) (s : State) : State :=
  match objEffect index sub with
  | .now => writeDom index sub bs s
  | _ => waitDom index sub bs s

/-- Commands of a tenant's block. -/
def tenantWrite (t i sub v : Nat) (s : State) : Option (Nat × State) :=
  let b := leBytes v 1
  if i = 0x3006 ∧ sub = 3 then some (mirrorGate (.write (0x3006 + 16 * t) 3 b) (writeRotate t v) s)
  else if i = 0x3006 ∧ sub = 4 then some (mirrorGate (.write (0x3006 + 16 * t) 4 b) (writeRetire t v) s)
  else if i = 0x3006 ∧ sub = 5 then some (writeSealing t (v == 1) s)
  else if i = 0x3008 ∧ sub = 0x10 then some (writeTenantReset t (v == 1) s)
  else if i = 0x3009 ∧ sub = 4 then
    some (match (tenantQps s t)[v]? with
      | some q => writeSampleReset q s
      | none => (abValue, s))
  else none

/-- Commands and numbers that act beyond the store, indices below 3000. -/
def commandLow (index sub v : Nat) (s : State) : Option (Nat × State) :=
  if index = 0x2020 ∧ sub = 1 then some (writeResetRequest v s)
  else if index = 0x2020 ∧ sub = 2 then some (writePowerDown v s)
  else if index = 0x2020 ∧ sub = 3 then
    some (0, (writeObj 0x2020 3 v s).setPwr fun p => if p.stewardUp then { p with dogStart := some s.time.cycle } else p)
  else if index = 0x2020 ∧ sub = 4 then some (writeKick v s)
  else if index = 0x2100 ∧ (sub = 1 ∨ sub = 6 ∨ sub = 9) then some (writeClock sub v s)
  else if index = 0x2200 ∧ sub = 3 then some (declareFailed v s)
  else if index = 0x2301 then some (mirrorGate (.write index sub (leBytes v 4)) (writePortPasid (sub - 1) v) s)
  else if index = 0x2310 ∧ sub = 2 then some (mirrorGate (.write index sub (leBytes v 4)) (unbindPasid (BitVec.ofNat 32 v)) s)
  else if index = 0x2400 ∧ sub = 1 then some (mirrorGate (.write index sub (leBytes v 2)) (tenantCommand (BitVec.ofNat 16 v)) s)
  else if index = 0x2400 ∧ sub = 3 then some (mirrorGate (.write index sub (leBytes v 4)) (writeRevoke v) s)
  else if index = 0x2402 then some (mirrorGate (.write index sub (leBytes v 8)) (writeReaders (sub - 1) v) s)
  else if index = 0x2500 ∧ sub = 2 then some (if v = 1 then commitTable s else (0, s))
  else if index = 0x2600 ∧ sub = 5 then some (if v = 1 then commitGates s else (0, s))
  else none

/-- The same, indices from 3400 on. -/
def commandHigh (index sub v : Nat) (s : State) : Option (Nat × State) :=
  if index = 0x4010 ∧ sub = 1 then some (writeRetrain v s)
  else if index = 0x4211 then some (0, writeObj index sub v (ratesSettle s))
  else if index = 0x4041 then some (placeMacRegion sub v s)
  else if index = 0x4042 ∧ sub = 1 then some (retireGranule v s)
  else if index = 0x4042 ∧ sub = 2 then some (retireBank v s)
  else if index = 0x6010 ∧ sub = 1 then some (writeSealExtent v s)
  else if index = 0x7000 ∧ sub = 2 then some (writeFreeze (v == 1) s)
  else if index = 0x7004 then some (writeTallyReset v s)
  else if index = 0x7200 ∧ sub = 2 then some (writeSampleReset v s)
  else if index = 0x7300 ∧ sub = 6 then some (writeArm (v == 1) s)
  else if index = 0x7300 ∧ sub = 9 then some (writeTriggerNow (v == 1) s)
  else if index = 0x7400 ∧ sub = 3 then some (writeLogIndex v s)
  else if index = 0x7400 ∧ sub = 4 then some (0, s.setMem fun m => { m with logRdM := v })
  else if index = 0x9001 ∧ sub = 1 then some (writeFence v s)
  else if index = 0x9001 ∧ sub = 2 then some (writeReturn v s)
  else none

/-- Writes of numbers that act beyond the store. -/
def commandNum (index sub v : Nat) (s : State) : Option (Nat × State) :=
  match blockOf index with
  | some t => tenantWrite t (objNorm index) sub v s
  | none => if index < 0x3000 then commandLow index sub v s else commandHigh index sub v s

/-- A number is written: judged by the object's own rule, by those that join it to others, and by the present state. -/
def applyNum (index sub v : Nat) (s : State) : Nat × State :=
  if !ruleOwn index sub v then (abValue, s)
  else match commandNum index sub v s with
    | some r => r
    | none =>
      let v := storedValue index sub v
      let get := fun i n => if i = index ∧ n = sub then v else objLast s i n
      if !ruleJoint get index sub then (abValue, s)
      else if stateRefuses s index sub v then (abState, s) else (0, storeNum index sub v s)

/-- Masks of 8010:01 change only where the context is FREE (R582). -/
def masksFree (s : State) (bs : List Byte) : Bool :=
  let old := objDomLast s 0x8010 1
  s.kv.ctxs.all fun c => c.2.st == .free || slice bs (2 * c.1) 2 == slice old (2 * c.1) 2

/-- Bytes are written. -/
def applyBytes (index sub : Nat) (bs : List Byte) (s : State) : Nat × State :=
  let t := fun (t3 : Bool) => s.ports.found.contains (if t3 then 63 + sub else sub - 1)
  if index = 0x2310 ∧ sub = 1 then
    (if bs.length = 16 then mirrorGate (.write index sub bs) (bindPasid (BitVec.ofNat 128 (leNat bs))) s else (abLength, s))
  else if index = 0x2400 ∧ sub = 2 then
    (if bs.length = 16 then mirrorGate (.write index sub bs) (writeGrant (BitVec.ofNat 128 (leNat bs))) s else (abLength, s))
  else if index = 0x2500 ∧ sub = 5 then writeTable bs s
  else if index = 0x4200 then trayWrite false (sub - 1) bs (t false) s
  else if index = 0x4210 then trayWrite true (sub - 1) bs (t true) s
  else if index = 0x5510 ∨ index = 0x5511 then writeRoce (index - 0x5510) sub bs s
  else if index = 0x8000 ∧ sub = 1 then writeMap bs s
  else if !domLength index sub bs.length then (abLength, s)
  else if !domOk index sub bs then (abValue, s)
  else if index = 0x8010 then
    mirrorGate (.write index sub bs) (fun s => if masksFree s bs then (0, waitDom index sub bs s) else (abState, s)) s
  else (0, storeBytes index sub bs s)

/-- A whole value is written to an object that the principal may write. -/
def objApply (index sub : Nat) (bs : List Byte) (s : State) : Nat × State :=
  match (objRow? index sub).map (·.type) with
  | none => (abNoSub, s)
  | some ty => match typeSize ty with
    | some n => if bs.length = n then applyNum index sub (leNat bs) s else (abLength, s)
    | none => applyBytes index sub bs s

/-! ## Staged writes (R618) -/

/-- The staged write of a path and principal. -/
def stagedOf (s : State) (path : Nat) (p : Prin) : Option Staged := s.dict.staged.find? fun g => g.path == path && g.prin == p

def dropStaged (path : Nat) (p : Prin) (s : State) : State :=
  s.setDict fun d => { d with staged := d.staged.filter fun g => g.path != path || g.prin != p }

/-- A staged write is discarded, and counted in 1022:02. -/
def stagedLost (path : Nat) (p : Prin) (s : State) : State :=
  if (stagedOf s path p).isSome then bumpObj 0x1022 2 1 32 (dropStaged path p s) else s

/-- A part lands: the last one applies the whole value. -/
def stagedPart (g : Staged) (data : List Byte) (s : State) : Nat × State :=
  let g := { g with bytes := g.bytes ++ data, last := s.time.cycle }
  let s := dropStaged g.path g.prin s
  if g.total < g.bytes.length then (abLength, bumpObj 0x1022 2 1 32 s)
  else if g.bytes.length = g.total then objApply (g.key / 256) (g.key % 256) g.bytes s
  else (0, s.setDict fun d => { d with staged := d.staged ++ [g] })

/-- A write request: a whole value (total 0), the first part of a staged write (offset 0 and its total), or a later part, which must
continue it within 100 ms. -/
def objWriteRaw (p : Prin) (path index sub off total : Nat) (data : List Byte) (s : State) : Nat × State :=
  let c := accessCode p index sub true s
  if c ≠ 0 then (c, s)
  else if 1024 < data.length then (abLength, s)
  else if off = 0 ∧ total = 0 then objApply index sub data s
  else if off = 0 then
    let s := stagedLost path p s
    if 16777216 < total then (abLength, s)
    else stagedPart { path := path, prin := p, key := okey index sub, total := total, bytes := [], last := s.time.cycle } data s
  else match stagedOf s path p with
    | none => (abTimeout, s)
    | some g =>
      if g.key ≠ okey index sub ∨ off ≠ g.bytes.length ∨ g.last + msCycles 100 < s.time.cycle then (abTimeout, stagedLost path p s)
      else stagedPart g data s

/-- The same, with a refusal counted, after the cycle's reads and in its order of writes: one that is not the last of that order is
judged, and does not stand (R616). -/
def objWrite (p : Prin) (path index sub off total : Nat) (data : List Byte) (s : State) : Nat × State :=
  let s := noteReads s
  let r := objWriteRaw p path index sub off total data s
  if r.1 = 0 then (0, if off = 0 ∧ total = 0 ∧ outranked p index sub s then s else noteWrote p index sub r.2) else (r.1, written r)

/-- A read, with a refusal counted. -/
def objReadNoted (p : Prin) (index sub off len : Nat) (s : State) : (Nat × Nat × List Byte) × State :=
  let r := readNow p index sub off len s
  (r, if r.1 = 0 then s else refusedAccess s)

/-! ## In-band requests (R613, R619, R625) -/

/-- The principal that a path carries: the teller channels, 72 CANopen FD, 73 MCTP over I3C. -/
def pathPrin (path : Nat) : Option Prin :=
  if path < 68 ∧ path ≠ 65 then some (chanPrin path) else if path = 72 ∨ path = 73 then some .m else none

/-- A request reaches the dictionary on its path. -/
def pathOpen (s : State) (p : Prin) (path : Nat) : Bool := answering s && pathPrin path == some p

/-- Requests by MCTP are refused while 1021:02 is 0. -/
def mctpShut (s : State) (path : Nat) : Bool := path == 73 && obj s 0x1021 2 == 0

/-- OBJECT_READ. -/
def execObjectRead (p : Prin) (path : Fin 80) (index : BitVec 16) (sub : BitVec 8) (offset len : Nat) (s : State) : Res :=
  if !pathOpen s p path.val then .next s
  else if mctpShut s path.val then .next (emit (.dict path.val abPrin 0 []) (refusedAccess s))
  else
    let (r, s) := objReadNoted p index.toNat sub.toNat offset len (accessOn path.val s)
    .next (emit (.dict path.val r.1 r.2.1 r.2.2) s)

/-- OBJECT_WRITE: a whole value, or a part of a staged write. -/
def execObjectWrite (p : Prin) (path : Fin 80) (index : BitVec 16) (sub : BitVec 8) (offset total : Nat) (data : List Byte) (s : State) : Res :=
  if !pathOpen s p path.val then .next s
  else if mctpShut s path.val then .next (emit (.dict path.val abPrin 0 []) (refusedAccess s))
  else
    let (c, s) := objWrite p path.val index.toNat sub.toNat offset total data (accessOn path.val s)
    .next (emit (.dict path.val c (objSize p index.toNat sub.toNat s) []) s)

/-- STAGED_WRITE_ABORT: an in-band request with op 3. -/
def execStagedWriteAbort (p : Prin) (path : Fin 80) (s : State) : Res :=
  if !pathOpen s p path.val then .next s else .next (emit (.dict path.val 0 0 []) (stagedLost path.val p s))

/-- The arrival is a part on this path and of this principal. -/
def bringsPart (p : Prin) (path : Nat) : Instr → Bool
  | .objectWrite q h _ _ _ _ _ => q == p && h.val == path
  | .usdoTransfer false _ _ _ _ _ => p == .m && path == 72
  | _ => false

/-- STAGED_WRITE_TIMEOUT: the clock is carried to 100 ms after the last part; a part in that cycle is in time (R26). A USDO download
in parts is aborted with it. -/
def execStagedWriteTimeout (p : Prin) (path : Fin 80) (s : State) : Res :=
  match stagedOf s path.val p with
  | none => .next s
  | some g =>
    let due := g.last + msCycles 100
    let yields := arrivalWins due (bringsPart p path.val) s
    let s := carryTo due s
    if yields then .next s else
    let s := stagedLost path.val p s
    if path.val = 72 ∧ s.can.usdo.isSome then
      .next (emit (.usdo abTimeout []) (bumpObj 0x1022 4 1 32 (s.setCan fun c => { c with usdo := none })))
    else .next s

/-! ## The dictionary service of the tellers (R653) -/

/-- A response of R619: op, subindex and index as in the request, its reserved bits 0. -/
def dictResponse (head c size : Nat) (data : List Byte) : List Byte :=
  leBytes (bitsOf head 31 8 * 256 + head % 16) 4 ++ leBytes c 4 ++ leBytes size 4 ++ leBytes data.length 4 ++ data

/-- The request of a message: its response and the state after it. -/
def serveRequest (p : Prin) (path : Nat) (bs : List Byte) (s : State) : List Byte × State :=
  let head := leNat (bs.take 4)
  let op := head % 16
  let sub := head / 256 % 256
  let index := head / 65536
  let total := leNat (slice bs 4 4)
  let off := leNat (slice bs 8 4)
  let len := leNat (slice bs 12 4)
  let bad := fun (c : Nat) => (dictResponse head c 0 [], refusedAccess s)
  if bs.length ≠ 16 + (if op = 2 then len else 0) then bad abLength
  else if head / 16 % 16 ≠ 0 then bad abOp
  else if op = 1 then
    let (r, s) := objReadNoted p index sub off len s
    (dictResponse head r.1 r.2.1 r.2.2, s)
  else if op = 2 then
    let (c, s) := objWrite p path index sub off total (bs.drop 16) s
    (dictResponse head c (objSize p index sub s) [], s)
  else if op = 3 then (dictResponse head 0 0 [], stagedLost path p s)
  else bad abOp

/-- The span ports on which the keystone's answers leave. -/
def keystoneAnswers (s : State) : State :=
  match (List.range 4).find? fun i => keystonePort s (8 + i) && linkUp s (8 + i) with
  | some i => sendTlans (8 + i) s
  | none => s

/-- DICTIONARY_SERVICE: the oldest message is carried out, answered and acknowledged in one cycle; another verb is unknown. -/
def execDictionaryService (s : State) : Res :=
  match answering s, tlOldest s 0 with
  | true, some (c, m) =>
    let s :=
      if m.verb ≠ 1 then tlAck c tlUnknown s
      else
        let (bs, s) := serveRequest (chanPrin c) c m.bytes (accessOn c s)
        tlClear c tlAccept (tlReply c { dest := 0, seq := m.seq, verb := m.verb, bytes := bs } s)
    .next (if c = 67 then keystoneAnswers s else s)
  | _, _ => .next s

/-! ## CANopen FD (R620 to R624, R634) -/

/-- The interface is out of Stopped: USDO and EMCY are served. -/
def canServes (s : State) : Bool := answering s && (s.can.nmt == 5 || s.can.nmt == 127)

def nmtTo (n : Nat) (s : State) : State := s.setCan fun c => { c with nmt := n }

/-- NMT_START, NMT_STOP and NMT_ENTER_PRE_OPERATIONAL. -/
def execNmtStart (s : State) : Res := if answering s then .next (nmtTo 5 s) else .next s
def execNmtStop (s : State) : Res := if answering s then .next (nmtTo 4 s) else .next s
def execNmtEnterPreOperational (s : State) : Res := if answering s then .next (nmtTo 127 s) else .next s

/-- A USDO transfer that has begun is aborted, and counted in 1022:04. -/
def usdoAbort (s : State) : State :=
  if s.can.usdo.isSome then bumpObj 0x1022 4 1 32 (stagedLost 72 .m (s.setCan fun c => { c with usdo := none })) else s

/-- The interface restarts with the values in 1020; the device is not reset. -/
def canRestart (s : State) : State :=
  let s := applyWaiting .restart (fun _ => true) (usdoAbort s)
  s.setCan fun c => { c with
    nmt := 127, node := obj s 0x1020 1, nominal := obj s 0x1020 2, dataRate := obj s 0x1020 3, lastBeat := s.time.cycle }

/-- NMT_RESET_COMMUNICATION and NMT_RESET_NODE. -/
def execNmtResetCommunication (s : State) : Res := if answering s then .next (canRestart s) else .next s
def execNmtResetNode (s : State) : Res := if answering s then .next (canRestart s) else .next s

/-- The parts that a transfer has moved, when it is the one that goes on. -/
def usdoMoved (s : State) (key : Nat) (upload : Bool) : Option (List Byte) :=
  match s.can.usdo with
  | some (k, u, bs) => if k = key ∧ u = upload then some bs else none
  | none => none

/-- One part of an upload, from where the transfer stands, under principal M. -/
def usdoUpload (index sub : Nat) (had : List Byte) (s : State) : State :=
  let (r, s) := objReadNoted .m index sub had.length 1024 s
  let bs := had ++ r.2.2
  if r.1 ≠ 0 then emit (.usdo r.1 []) (bumpObj 0x1022 4 1 32 (s.setCan fun c => { c with usdo := none }))
  else
    emit (.usdo 0 r.2.2) (s.setCan fun c => { c with
      usdo := if r.2.1 ≤ bs.length then none else some (okey index sub, true, bs) })

/-- One part of a download: an expedited or last first part is a whole value, the others are parts of a staged write. -/
def usdoDownload (index sub total : Nat) (data : List Byte) (last : Bool) (had : List Byte) (s : State) : State :=
  let whole := had.isEmpty && last
  let (c, s) := objWrite .m 72 index sub had.length (if whole then 0 else if had.isEmpty then max 1 total else 0) data s
  let open_ := (stagedOf s 72 .m).isSome
  let c := if c = 0 ∧ last ∧ open_ then abLength else c
  if c ≠ 0 then emit (.usdo c []) (bumpObj 0x1022 4 1 32 (stagedLost 72 .m (s.setCan fun x => { x with usdo := none })))
  else emit (.usdo 0 []) (s.setCan fun x => { x with usdo := if open_ then some (okey index sub, false, had ++ data) else none })

/-- USDO_TRANSFER: one segment; a transfer of another object ends the one that runs. -/
def execUsdoTransfer (upload : Bool) (index : BitVec 16) (sub : BitVec 8) (total : Nat) (data : List Byte) (last : Bool) (s : State) : Res :=
  if !canServes s then .next s
  else
    let i := index.toNat
    let n := sub.toNat
    let (had, s) := match usdoMoved s (okey i n) upload with
      | some bs => (bs, s)
      | none => ([], usdoAbort s)
    let s := accessOn 72 s
    .next (if upload then usdoUpload i n had s else usdoDownload i n total data last had s)

/-- HEARTBEAT_PERIOD: the clock is carried to the end of the period of 1017:00. -/
def execHeartbeatPeriod (s : State) : Res :=
  if !answering s ∨ obj s 0x1017 0 = 0 then .next s
  else
    let s := carryTo (s.can.lastBeat + msCycles (obj s 0x1017 0)) s
    .next (emit (.beat s.can.nmt) (s.setCan fun c => { c with lastBeat := s.time.cycle }))

/-- EMCY_INHIBIT_EXPIRY: the clock is carried to the end of the inhibit time of 1015:00; the oldest waiting event is sent unless the
interface is Stopped. -/
def execEmcyInhibitExpiry (s : State) : Res :=
  match canServes s, s.can.emcy with
  | true, e :: rest =>
    let s := match s.can.lastEmcy with
      | some c => carryTo (c + 200000 * obj s 0x1015 0) s
      | none => s
    .next (emcySend e (s.setCan fun c => { c with emcy := rest }))
  | _, _ => .next s

/-! ## MCTP over I3C (R625) -/

/-- ENTDAA: the dynamic address is assigned. -/
def execEntdaa (addr : BitVec 7) (s : State) : Res :=
  if answering s then .next (s.setCan fun c => { c with i3c := addr.toNat }) else .next s

/-- A control response: message type 0, the command, completion code 0, and its bytes. -/
def mctpControl (cmd : Byte) (code : Byte) (bs : List Byte) (s : State) : State := emit (.mctp ([0, 0, cmd, code] ++ bs)) s

/-- The endpoint has its dynamic address. -/
def mctpUp (s : State) : Bool := answering s && s.can.i3c != 0

/-- SET_ENDPOINT_ID: the null and broadcast IDs are not endpoints. -/
def execSetEndpointId (eid : BitVec 8) (s : State) : Res :=
  if !mctpUp s then .next s
  else if eid = 0 ∨ eid = 0xFF then .next (mctpControl 1 2 [] s)
  else .next (mctpControl 1 0 [0, eid, 0] (s.setCan fun c => { c with eid := eid.toNat }))

/-- GET_ENDPOINT_ID. -/
def execGetEndpointId (s : State) : Res :=
  if mctpUp s then .next (mctpControl 2 0 [BitVec.ofNat 8 s.can.eid, 0, 0] s) else .next s

/-- GET_MCTP_VERSION_SUPPORT: one version of each message type it accepts, a free value; code 0x80 for another type. -/
def execGetMctpVersionSupport (type : BitVec 8) (s : State) : Res :=
  if !mctpUp s then .next s
  else if type = 0xFF ∨ type = 0 ∨ type = 5 ∨ type = 0x7F then
    .next (mctpControl 4 0 (1 :: leBytes (freeAt s type.toNat) 4) (freeStep 256 s))
  else .next (mctpControl 4 0x80 [] s)

/-- GET_MESSAGE_TYPE_SUPPORT: SPDM and the vendor-defined type beside control. -/
def execGetMessageTypeSupport (s : State) : Res :=
  if mctpUp s then .next (mctpControl 5 0 [2, 5, 0x7F] s) else .next s

end Sys2Proof.Machine
end

