-- ==== Sys2Proof/Machine/Registers.lean ====
section
/-! DEFINITION. The steward's windows, the training sequencers' instances of the HBM window and the rack manager's channel block
(R262 to R266, R488, R635 to R643, R648, R654). -/

namespace Sys2Proof.Machine

/-! ## The context window (R169, R641, R642) -/

def ctxStateNum : CtxState → Nat
  | .free => 0
  | .open => 1
  | .closing => 2

/-- A context entry as the window shows it; `hide` leaves out what R441 does not show of a confidential tenant's context. -/
def ctxEntry (s : State) (c : Nat) (hide : Bool) : Nat :=
  let x := ctxOf s c
  let own := ctxStateNum x.st + x.tenant * 2 ^ 6 + x.layersM1 * 2 ^ 12 + x.headsM1 * 2 ^ 22 + x.dkc * 2 ^ 26 + x.fmt * 2 ^ 28
    + x.home * 2 ^ 192 + x.stripe * 2 ^ 196 + (if x.pfEn then 2 ^ 216 else 0) + x.lanes * 2 ^ 219 + x.family * 2 ^ 292
  if hide then own
  else own + x.length * 2 ^ 231 + (if x.rotSet then 2 ^ 280 else 0) + (if x.halves then 2 ^ 281 else 0) + x.rotDims * 2 ^ 282
    + x.dirAddr * 2 ^ 304 + x.liveAddr * 2 ^ 344 + (ctxPages s c).length * 2 ^ 384 + x.theta * 2 ^ 448 + x.posScale * 2 ^ 480

/-- Bytes written into an entry: the rw fields while it is FREE, pf_en always. -/
def ctxWrite (c at_ : Nat) (data : List Byte) (s : State) : State :=
  let x := ctxOf s c
  let b := leBytes (ctxEntry s c false) 64
  let v := leNat (b.take at_ ++ data ++ b.drop (at_ + data.length))
  let pf := bitAt v 216
  if x.st ≠ .free then setCtx c { x with pfEn := pf } s
  else setCtx c { x with tenant := bitsOf v 11 6, layersM1 := bitsOf v 21 12, headsM1 := bitsOf v 25 22, dkc := bitsOf v 27 26
                         fmt := bitsOf v 31 28, home := bitsOf v 192 192, stripe := bitsOf v 215 196, pfEn := pf } s

/-- CTXCMDST. -/
def ctxCmdSt (s : State) : Nat := (if s.win.ctxBusy then 2 ^ 31 else 0) + s.win.ctxLast * 16 + s.win.ctxStatus

/-- CTXCMD: 1 OPEN, 2 CLOSE. -/
def ctxCmd (v : Nat) (s : State) : State :=
  if v % 4 = 1 then ctxOpenCmd s else if v % 4 = 2 then ctxCloseCmd s else s

/-! ## The pier window (R488) -/

/-- LINKCTL: down before retrain before rekey; restart applies in DOWN only. -/
def linkCtl (l v : Nat) (s : State) : State :=
  if 13 ≤ l then s
  else if (linkOf s l).st = 0 then (if bitAt v 0 then linkRestart l s else s)
  else if bitAt v 2 then linkDown l 9 s
  else if bitAt v 1 then linkRetrain l true s
  else if bitAt v 3 then linkRekeyNow l s else s

/-! ## The HBM window (R262 to R266) -/

/-- The 64 bits at an offset of an instance. -/
def hbmReg (s : State) (inst off : Nat) : Nat :=
  let c := tget 0 s.win.hbmSel inst
  let h := ctlOf s c
  if off = 0 then c
  else if 24 ≤ c then 0
  else if off = 0x08 then hbmStat h
  else if off = 0x10 then h.failedPc
  else if off = 0x20 then h.patctl + (if h.patBusy then 1 else 0)
  else if off = 0x28 then h.cmpRes
  else if off = 0x30 then h.cmpLane else 0

/-- A write in an instance. -/
def hbmWrite (inst off : Nat) (data : List Byte) (s : State) : State :=
  if off = 0 then match regValue false off data with
    | some v => s.setWin fun x => { x with hbmSel := tput 0 x.hbmSel inst (v % 32) }
    | none => s
  else if off = 0x20 then match regValue true off data with
    | some v => patWrite inst (BitVec.ofNat 64 v) s
    | none => s
  else s

/-! ## The inbox (R654) -/

/-- INBPEND0 and INBPEND1: the channels with a message pending. -/
def inbPend (s : State) (from_ n : Nat) : Nat :=
  (List.range n).foldl (fun a i => a + if (inboxMsg s (from_ + i)).isSome then 2 ^ i else 0) 0

/-- INBHDR. -/
def inbHdr (s : State) : Nat :=
  let c := s.tel.inbSel
  match inboxMsg s c with
  | none => 0
  | some m =>
    c * 2 ^ 57 + (if c < 64 then 1 else if c = 65 then 2 else 3) * 2 ^ 54 + (if c < 64 then c else 0) * 2 ^ 48 + m.seq * 2 ^ 32
      + m.verb * 2 ^ 24 + m.bytes.length

/-- A read of the inbox block. -/
def inbRead (s : State) (off n : Nat) : List Byte :=
  let r := off / 8 * 8
  if 0x1000 ≤ off ∧ off < 0x2000 then slice (((inboxMsg s s.tel.inbSel).map (·.bytes)).getD []) (off - 0x1000) n
  else if 0x2000 ≤ off ∧ off < 0x3000 then getBytes s.tel.inbReply (off - 0x2000) n
  else if r = 0x00 then regBytes (inbPend s 0 64) off n
  else if r = 0x08 then regBytes (inbPend s 64 8) off n
  else if r = 0x10 then regBytes s.tel.inbSel off n
  else if r = 0x18 then regBytes (inbHdr s) off n
  else if r = 0x28 then regBytes ((if s.tel.stale then 2 else 0) + if s.tel.refused then 1 else 0) off n
  else List.replicate n 0

/-- A write of the inbox block. -/
def inbWrite (off : Nat) (data : List Byte) (s : State) : State :=
  if 0x2000 ≤ off ∧ off < 0x3000 then s.setTel fun t => { t with inbReply := putBytes t.inbReply (off - 0x2000) data }
  else if off = 0x10 then match regValue false off data with
    | some v => s.setTel fun t => { t with inbSel := v % 128 }
    | none => s
  else if off = 0x20 then match regValue true off data with
    | some v => inbAck (BitVec.ofNat 64 v) s
    | none => s
  else s

/-! ## The window map (R635, R637) -/

/-- A part of the steward's windows that takes bursts. -/
def stewardBursts (off : Nat) : Bool :=
  decide ((0x10040 ≤ off ∧ off < 0x10080) ∨ (0x110000 ≤ off ∧ off < 0x130000) ∨ (0x201000 ≤ off ∧ off < 0x203000)
    ∨ (0x211000 ≤ off ∧ off < 0x213000))

/-- A window that stands in the map; the counting-house aperture takes no access of the steward's (R638). -/
def inMap (off n : Nat) : Bool :=
  decide (off + n ≤ 0x50000 ∨ (0x100000 ≤ off ∧ off + n ≤ 0x140000) ∨ (0x200000 ≤ off ∧ off + n ≤ 0x220000))

/-- An access elsewhere in the window range completes with 0x20 as an undecoded address (R19, R635); so does one to the
counting-house aperture, which is decoded (R638). -/
def noteUnmapped (off : Nat) (s : State) : State :=
  let s := emit (.steward ccXlate) s
  if 0x40000000 ≤ off ∧ off < 0x4C000000 then s else logEvent 9 (0xE0000000000 + off) 0 0xFE 0x42 0 1 s

/-- The shape of a steward access. -/
def stewardShape (write : Bool) (off n : Nat) : Bool := regAccess off n || (write && stewardBursts off && burstAccess off n)

/-- What a steward read of a window shows, as it stands; a read of XLINVSTAT is XLINVSTAT_READ. -/
def stewardRead (s : State) (off n : Nat) : List Byte :=
  let r := off / 8 * 8
  if off < 0x10000 then regBytes (if r = 8 then s.win.inbVec + (if s.win.inbIrq then 2 ^ 11 else 0) else 0) off n
  else if off < 0x20000 then
    let c := s.win.ctxSel
    if r = 0x10000 then regBytes c off n
    else if r = 0x10010 then regBytes (ctxCmdSt s) off n
    else if 0x10040 ≤ off ∧ off < 0x10080 then
      leBytes (ctxEntry s c (tenantOf s (ctxOf s c).tenant).confidential / 2 ^ (8 * (off - 0x10040))) n
    else List.replicate n 0
  else if off < 0x30000 then
    let c := s.win.coreSel
    if r = 0x20000 then regBytes c off n
    else if 20 ≤ c then List.replicate n 0
    else if r = 0x20008 then regBytes (coreRecord (coreOf s c)) off n
    else if r = 0x20010 then regBytes (coreWi (coreOf s c)) off n else List.replicate n 0
  else if off < 0x40000 then regBytes (hbmReg s 0 (r - 0x30000)) off n
  else if off < 0x50000 then
    let l := s.win.pierSel
    if r = 0x40000 then regBytes l off n
    else if r = 0x40008 ∧ l < 13 then regBytes (linkStat (linkOf s l)) off n else List.replicate n 0
  else if 0x100000 ≤ off ∧ off < 0x140000 then (qwRead .steward (off - 0x100000) n s).1
  else if 0x200000 ≤ off ∧ off < 0x210000 then chRead s 64 (off - 0x200000) n
  else if 0x210000 ≤ off ∧ off < 0x220000 then inbRead s (off - 0x210000) n
  else List.replicate n 0

/-- A write of a 32-bit register of the steward's own windows. -/
def stewardReg (off v : Nat) (s : State) : State :=
  if off = 0 then stepMark (BitVec.ofNat 32 v) s
  else if off = 8 then s.setWin fun x => { x with inbIrq := bitAt v 11, inbVec := v % 2 ^ 11 }
  else if off = 0x10000 then s.setWin fun x => { x with ctxSel := v % 4096 }
  else if off = 0x10008 then ctxCmd v s
  else if off = 0x20000 then s.setWin fun x => { x with coreSel := v % 32 }
  else if off = 0x40000 then s.setWin fun x => { x with pierSel := v % 16 }
  else if off = 0x40010 then linkCtl s.win.pierSel v s
  else s

/-- A steward write. -/
def stewardWrite (off : Nat) (data : List Byte) (s : State) : State :=
  if 0x10040 ≤ off ∧ off < 0x10080 then ctxWrite s.win.ctxSel (off - 0x10040) data s
  else if 0x30000 ≤ off ∧ off < 0x40000 then hbmWrite 0 (off - 0x30000) data s
  else if 0x100000 ≤ off ∧ off < 0x140000 then qwWrite .steward (off - 0x100000) data s
  else if 0x200000 ≤ off ∧ off < 0x210000 then chWrite 64 (off - 0x200000) data s
  else if 0x210000 ≤ off ∧ off < 0x220000 then inbWrite (off - 0x210000) data s
  else match regValue false off data with
    | some v => stewardReg off v s
    | none => s

/-- REGISTER_WRITE: a write of another size or alignment, or beyond the windows, is ignored; so is the rack manager's while
1021:02 is not 1. -/
def execRegisterWrite (w : Door) (off : Nat) (data : List Byte) (s : State) : Res :=
  let n := data.length
  if !live s then .next s
  else match w with
    | .steward =>
      let s := linkTally false 27 n s
      if !inMap off n then .next (noteUnmapped off s)
      else if stewardShape true off n then .next (stewardWrite off data s) else .next s
    | .tenant t => if inView off n && viewShape true off n then .next (viewWrite t off data s) else .next s
    | .sequencer i => if regAccess off n then .next (hbmWrite (i.val + 1) off data s) else .next s
    | .rack =>
      if obj s 0x1021 2 = 1 ∧ (regAccess off n || (decide (0x1000 ≤ off ∧ off < 0x3000) && burstAccess off n)) then
        .next (chWrite 65 off data s)
      else .next s

end Sys2Proof.Machine
end

