-- ==== Sys2Proof/Machine/Dispatch.lean ====
section
/-! DEFINITION. One arm per command: the direct call of its meaning. -/

namespace Sys2Proof.Machine

/-- The effect of a command on the state (R-numbered meanings stand in the files of each family). -/
def exec (i : Instr) (s : State) : Host.Outcome State Fault Refusal :=
  match i with
  | .stepMark port delay m => Sys2Proof.Machine.execStepMark port delay m s
  | .stepmark v => Sys2Proof.Machine.execStepmark v s
  | .selfTimedStep => Sys2Proof.Machine.execSelfTimedStep s
  | .stepBeacon port delay m => Sys2Proof.Machine.execStepBeacon port delay m s
  | .beaconTimeout => Sys2Proof.Machine.execBeaconTimeout s
  | .internalStepBoundary => Sys2Proof.Machine.execInternalStepBoundary s
  | .coastedBeacon port delay m => Sys2Proof.Machine.execCoastedBeacon port delay m s
  | .stepOverrun => Sys2Proof.Machine.execStepOverrun s
  | .stepClockReconfigure p sub v => Sys2Proof.Machine.execStepClockReconfigure p sub v s
  | .backgroundWindowOpen => Sys2Proof.Machine.execBackgroundWindowOpen s
  | .backgroundWindowClose bad => Sys2Proof.Machine.execBackgroundWindowClose bad s
  | .layerPrefetchEvent => Sys2Proof.Machine.execLayerPrefetchEvent s
  | .checkpointCopyDeadline => Sys2Proof.Machine.execCheckpointCopyDeadline s
  | .unsupported qp => Sys2Proof.Machine.execUnsupported qp s
  | .sqtail w v => Sys2Proof.Machine.execSqtail w v s
  | .cqhead w v => Sys2Proof.Machine.execCqhead w v s
  | .descriptorRead die => Sys2Proof.Machine.execDescriptorRead die s
  | .admissionHoldLimit qp d => Sys2Proof.Machine.execAdmissionHoldLimit qp d s
  | .attend d => Sys2Proof.Machine.execAttend d s
  | .append d => Sys2Proof.Machine.execAppend d s
  | .fork d => Sys2Proof.Machine.execFork d s
  | .trim d => Sys2Proof.Machine.execTrim d s
  | .summarize d => Sys2Proof.Machine.execSummarize d s
  | .prefetch d => Sys2Proof.Machine.execPrefetch d s
  | .pin d => Sys2Proof.Machine.execPin d s
  | .evict d => Sys2Proof.Machine.execEvict d s
  | .compact d => Sys2Proof.Machine.execCompact d s
  | .attendDeadline d => Sys2Proof.Machine.execAttendDeadline d s
  | .workItemStart c => Sys2Proof.Machine.execWorkItemStart c s
  | .t1GranuleReady c n f => Sys2Proof.Machine.execT1GranuleReady c n f s
  | .summaryPassEnd c => Sys2Proof.Machine.execSummaryPassEnd c s
  | .certifiedCheck c => Sys2Proof.Machine.execCertifiedCheck c s
  | .partialArrival die d => Sys2Proof.Machine.execPartialArrival die d s
  | .outputFormed d => Sys2Proof.Machine.execOutputFormed d s
  | .pushAck pier m => Sys2Proof.Machine.execPushAck pier m s
  | .checkTile c ok => Sys2Proof.Machine.execCheckTile c ok s
  | .coreWatchdog c => Sys2Proof.Machine.execCoreWatchdog c s
  | .coreSramUncorrectable c => Sys2Proof.Machine.execCoreSramUncorrectable c s
  | .quadrantAttachmentFail q => Sys2Proof.Machine.execQuadrantAttachmentFail q s
  | .fenceCore p v => Sys2Proof.Machine.execFenceCore p v s
  | .fenceReadsDrained c => Sys2Proof.Machine.execFenceReadsDrained c s
  | .returnCore p v => Sys2Proof.Machine.execReturnCore p v s
  | .coreTestEnd c ok => Sys2Proof.Machine.execCoreTestEnd c ok s
  | .ctxOpen => Sys2Proof.Machine.execCtxOpen s
  | .openEnd => Sys2Proof.Machine.execOpenEnd s
  | .ctxClose => Sys2Proof.Machine.execCtxClose s
  | .releaseWalkEnd c => Sys2Proof.Machine.execReleaseWalkEnd c s
  | .frameDrainEnd n => Sys2Proof.Machine.execFrameDrainEnd n s
  | .tierhint w v => Sys2Proof.Machine.execTierhint w v s
  | .residencyFault c => Sys2Proof.Machine.execResidencyFault c s
  | .moveComplete id f => Sys2Proof.Machine.execMoveComplete id f s
  | .automaticDemotion t => Sys2Proof.Machine.execAutomaticDemotion t s
  | .t3BudgetRefill ns => Sys2Proof.Machine.execT3BudgetRefill ns s
  | .tierCacheMiss block => Sys2Proof.Machine.execTierCacheMiss block s
  | .trayRecordActivate p t3 n rec ok => Sys2Proof.Machine.execTrayRecordActivate p t3 n rec ok s
  | .trayFail t3 n => Sys2Proof.Machine.execTrayFail t3 n s
  | .patctl inst v => Sys2Proof.Machine.execPatctl inst v s
  | .patternOpDone c res lanes => Sys2Proof.Machine.execPatternOpDone c res lanes s
  | .refreshDue c pc bank issue => Sys2Proof.Machine.execRefreshDue c pc bank issue s
  | .stackTemperatureChange c t => Sys2Proof.Machine.execStackTemperatureChange c t s
  | .targetedRefresh c pc bank row tag source => Sys2Proof.Machine.execTargetedRefresh c pc bank row tag source s
  | .throttleIntervalEnd => Sys2Proof.Machine.execThrottleIntervalEnd s
  | .selfRefreshEntry c => Sys2Proof.Machine.execSelfRefreshEntry c s
  | .selfRefreshExit c => Sys2Proof.Machine.execSelfRefreshExit c s
  | .retrainGroup bad => Sys2Proof.Machine.execRetrainGroup bad s
  | .retrainController p v => Sys2Proof.Machine.execRetrainController p v s
  | .patrolScrubRead c f => Sys2Proof.Machine.execPatrolScrubRead c f s
  | .immediateScrub c f => Sys2Proof.Machine.execImmediateScrub c f s
  | .stewardReadIndex v => Sys2Proof.Machine.execStewardReadIndex v s
  | .retireGranule v => Sys2Proof.Machine.execRetireGranule v s
  | .retireBank v => Sys2Proof.Machine.execRetireBank v s
  | .macRegionPlace sub v => Sys2Proof.Machine.execMacRegionPlace sub v s
  | .rdShared port m => Sys2Proof.Machine.execRdShared port m s
  | .rdOwn port m => Sys2Proof.Machine.execRdOwn port m s
  | .upgrade port m => Sys2Proof.Machine.execUpgrade port m s
  | .rdUncached port m => Sys2Proof.Machine.execRdUncached port m s
  | .wrUncached port m => Sys2Proof.Machine.execWrUncached port m s
  | .evictClean port m => Sys2Proof.Machine.execEvictClean port m s
  | .wbDirty port m => Sys2Proof.Machine.execWbDirty port m s
  | .snoopResponse port m => Sys2Proof.Machine.execSnoopResponse port m s
  | .rspCopy port m => Sys2Proof.Machine.execRspCopy port m s
  | .rspWbPend port m => Sys2Proof.Machine.execRspWbPend port m s
  | .fwdAck port m => Sys2Proof.Machine.execFwdAck port m s
  | .cxlMemRd port tag addr mv => Sys2Proof.Machine.execCxlMemRd port tag addr mv s
  | .cxlMemRdData port tag addr => Sys2Proof.Machine.execCxlMemRdData port tag addr s
  | .cxlMemInv port tag addr mv => Sys2Proof.Machine.execCxlMemInv port tag addr mv s
  | .cxlMemClnEvct port tag addr => Sys2Proof.Machine.execCxlMemClnEvct port tag addr s
  | .cxlMemWr port tag addr mask data poison => Sys2Proof.Machine.execCxlMemWr port tag addr mask data poison s
  | .biSnoopResponse port kind addr => Sys2Proof.Machine.execBiSnoopResponse port kind addr s
  | .lineLockAcquire line => Sys2Proof.Machine.execLineLockAcquire line s
  | .snoopTimeout a line => Sys2Proof.Machine.execSnoopTimeout a line s
  | .agentFailed a => Sys2Proof.Machine.execAgentFailed a s
  | .declareAgentFailed v => Sys2Proof.Machine.execDeclareAgentFailed v s
  | .escrowRecallWalk ext => Sys2Proof.Machine.execEscrowRecallWalk ext s
  | .pendingFault d => Sys2Proof.Machine.execPendingFault d s
  | .faultQueueSlotFree => Sys2Proof.Machine.execFaultQueueSlotFree s
  | .pendingRewalk n => Sys2Proof.Machine.execPendingRewalk n s
  | .pendingFaultTimeout n => Sys2Proof.Machine.execPendingFaultTimeout n s
  | .xlinvcmd w v => Sys2Proof.Machine.execXlinvcmd w v s
  | .invalidationStart => Sys2Proof.Machine.execInvalidationStart s
  | .invalidationComplete => Sys2Proof.Machine.execInvalidationComplete s
  | .xlinvstatRead w => Sys2Proof.Machine.execXlinvstatRead w s
  | .bindPasid v => Sys2Proof.Machine.execBindPasid v s
  | .unbindPasid v => Sys2Proof.Machine.execUnbindPasid v s
  | .portPasidWrite port v => Sys2Proof.Machine.execPortPasidWrite port v s
  | .spanRemoteForward port m => Sys2Proof.Machine.execSpanRemoteForward port m s
  | .tenantCreate v => Sys2Proof.Machine.execTenantCreate v s
  | .tenantRemove v => Sys2Proof.Machine.execTenantRemove v s
  | .removalStepEnd t => Sys2Proof.Machine.execRemovalStepEnd t s
  | .grantExtent v => Sys2Proof.Machine.execGrantExtent v s
  | .zeroizeDone ext => Sys2Proof.Machine.execZeroizeDone ext s
  | .revokeExtent v => Sys2Proof.Machine.execRevokeExtent v s
  | .escrowStepEnd ext => Sys2Proof.Machine.execEscrowStepEnd ext s
  | .qpcfgEnable w v => Sys2Proof.Machine.execQpcfgEnable w v s
  | .qpcfgReinit w v => Sys2Proof.Machine.execQpcfgReinit w v s
  | .reinitDone qp => Sys2Proof.Machine.execReinitDone qp s
  | .interruptCoalesceTimer qp => Sys2Proof.Machine.execInterruptCoalesceTimer qp s
  | .readerSetWrite set v => Sys2Proof.Machine.execReaderSetWrite set v s
  | .keyRotate p t => Sys2Proof.Machine.execKeyRotate p t s
  | .rewrapUnit t ext => Sys2Proof.Machine.execRewrapUnit t ext s
  | .sweepComplete t => Sys2Proof.Machine.execSweepComplete t s
  | .retireOldEpoch p t => Sys2Proof.Machine.execRetireOldEpoch p t s
  | .sealKeysWrite t v => Sys2Proof.Machine.execSealKeysWrite t v s
  | .randomSourceHealthFail => Sys2Proof.Machine.execRandomSourceHealthFail s
  | .spdm ch bytes => Sys2Proof.Machine.execSpdm ch bytes s
  | .getVersion ch bytes => Sys2Proof.Machine.execGetVersion ch bytes s
  | .getCapabilities ch bytes => Sys2Proof.Machine.execGetCapabilities ch bytes s
  | .negotiateAlgorithms ch bytes => Sys2Proof.Machine.execNegotiateAlgorithms ch bytes s
  | .getDigests ch bytes => Sys2Proof.Machine.execGetDigests ch bytes s
  | .getCertificate ch bytes => Sys2Proof.Machine.execGetCertificate ch bytes s
  | .challenge ch bytes => Sys2Proof.Machine.execChallenge ch bytes s
  | .getMeasurements ch bytes => Sys2Proof.Machine.execGetMeasurements ch bytes s
  | .keyExchange ch bytes => Sys2Proof.Machine.execKeyExchange ch bytes s
  | .finish ch bytes => Sys2Proof.Machine.execFinish ch bytes s
  | .heartbeat ch bytes => Sys2Proof.Machine.execHeartbeat ch bytes s
  | .keyUpdate ch bytes => Sys2Proof.Machine.execKeyUpdate ch bytes s
  | .endSession ch bytes => Sys2Proof.Machine.execEndSession ch bytes s
  | .chunkGet ch bytes => Sys2Proof.Machine.execChunkGet ch bytes s
  | .pqCerts ch bytes => Sys2Proof.Machine.execPqCerts ch bytes s
  | .pqSig ch bytes => Sys2Proof.Machine.execPqSig ch bytes s
  | .tenantReport ch bytes => Sys2Proof.Machine.execTenantReport ch bytes s
  | .bundleKeys ch bytes => Sys2Proof.Machine.execBundleKeys ch bytes s
  | .extend ch => Sys2Proof.Machine.execExtend ch s
  | .bundleImport ch => Sys2Proof.Machine.execBundleImport ch s
  | .bundleImportEnd ok => Sys2Proof.Machine.execBundleImportEnd ok s
  | .debugUnlock ch => Sys2Proof.Machine.execDebugUnlock ch s
  | .unknownVerb ch => Sys2Proof.Machine.execUnknownVerb ch s
  | .linkctlRestart l => Sys2Proof.Machine.execLinkctlRestart l s
  | .linkctlRetrain l => Sys2Proof.Machine.execLinkctlRetrain l s
  | .linkctlDown l => Sys2Proof.Machine.execLinkctlDown l s
  | .linkctlRekey l => Sys2Proof.Machine.execLinkctlRekey l s
  | .linkRestartDelay l => Sys2Proof.Machine.execLinkRestartDelay l s
  | .linkPartnerDetect l lanes => Sys2Proof.Machine.execLinkPartnerDetect l lanes s
  | .linkTrainingStageEnd l lanes rtt ok => Sys2Proof.Machine.execLinkTrainingStageEnd l lanes rtt ok s
  | .linkStateTimeout l => Sys2Proof.Machine.execLinkStateTimeout l s
  | .flitPosition l good tagOk seq ack xoff req reqSeq phase => Sys2Proof.Machine.execFlitPosition l good tagOk seq ack xoff req reqSeq phase s
  | .holdingTimeout l => Sys2Proof.Machine.execHoldingTimeout l s
  | .goBackResendTimeout l => Sys2Proof.Machine.execGoBackResendTimeout l s
  | .replayTimeout l => Sys2Proof.Machine.execReplayTimeout l s
  | .linkRetrainTrigger l => Sys2Proof.Machine.execLinkRetrainTrigger l s
  | .linkDown l reason => Sys2Proof.Machine.execLinkDown l reason s
  | .rekeyInterval l => Sys2Proof.Machine.execRekeyInterval l s
  | .keyHello l m => Sys2Proof.Machine.execKeyHello l m s
  | .keyReply l m => Sys2Proof.Machine.execKeyReply l m s
  | .keyProof l m => Sys2Proof.Machine.execKeyProof l m s
  | .tlmsg port m => Sys2Proof.Machine.execTlmsg port m s
  | .tlans port m => Sys2Proof.Machine.execTlans port m s
  | .malformedMessage l header vc len => Sys2Proof.Machine.execMalformedMessage l header vc len s
  | .blkRd port m => Sys2Proof.Machine.execBlkRd port m s
  | .blkWr port m => Sys2Proof.Machine.execBlkWr port m s
  | .winRd port m => Sys2Proof.Machine.execWinRd port m s
  | .winWr port m => Sys2Proof.Machine.execWinWr port m s
  | .tableCommit v => Sys2Proof.Machine.execTableCommit v s
  | .epochRetire => Sys2Proof.Machine.execEpochRetire s
  | .trussFlitCrcFail link dir => Sys2Proof.Machine.execTrussFlitCrcFail link dir s
  | .multicastDeliveryNotice id dest => Sys2Proof.Machine.execMulticastDeliveryNotice id dest s
  | .resetDrainLimit => Sys2Proof.Machine.execResetDrainLimit s
  | .gateEntryBoundary => Sys2Proof.Machine.execGateEntryBoundary s
  | .gateChangeCommit p v => Sys2Proof.Machine.execGateChangeCommit p v s
  | .gateListChange => Sys2Proof.Machine.execGateListChange s
  | .tollRelease toll => Sys2Proof.Machine.execTollRelease toll s
  | .queueSample => Sys2Proof.Machine.execQueueSample s
  | .resetSampleRecord v => Sys2Proof.Machine.execResetSampleRecord v s
  | .ucieLinkLoss => Sys2Proof.Machine.execUcieLinkLoss s
  | .uperrstatRead port => Sys2Proof.Machine.execUperrstatRead port s
  | .cxlLinkDown port => Sys2Proof.Machine.execCxlLinkDown port s
  | .trayRequestTimeout tray => Sys2Proof.Machine.execTrayRequestTimeout tray s
  | .nvmeCommandTimeout port cid => Sys2Proof.Machine.execNvmeCommandTimeout port cid s
  | .nvmeCompletion port cid status => Sys2Proof.Machine.execNvmeCompletion port cid status s
  | .rdmaWrite port qp psn rkey addr data dscp => Sys2Proof.Machine.execRdmaWrite port qp psn rkey addr data dscp s
  | .rdmaReadRequest port qp psn rkey addr len dscp => Sys2Proof.Machine.execRdmaReadRequest port qp psn rkey addr len dscp s
  | .roceAcknowledge port qp psn nak => Sys2Proof.Machine.execRoceAcknowledge port qp psn nak s
  | .roceInvalidRequest port qp psn opcode => Sys2Proof.Machine.execRoceInvalidRequest port qp psn opcode s
  | .ethernetFrameDiscard port frame => Sys2Proof.Machine.execEthernetFrameDiscard port frame s
  | .neighborResolution port frame => Sys2Proof.Machine.execNeighborResolution port frame s
  | .ptpSync port domain origin offset => Sys2Proof.Machine.execPtpSync port domain origin offset s
  | .ptpLockLoss port => Sys2Proof.Machine.execPtpLockLoss port s
  | .mkaFrame port frame => Sys2Proof.Machine.execMkaFrame port frame s
  | .roceRecordWrite port qp rec => Sys2Proof.Machine.execRoceRecordWrite port qp rec s
  | .spanMapWrite p rec => Sys2Proof.Machine.execSpanMapWrite p rec s
  | .spanMapDigest index digest => Sys2Proof.Machine.execSpanMapDigest index digest s
  | .stripedPart port desc home d len input => Sys2Proof.Machine.execStripedPart port desc home d len input s
  | .memberReport d index code detail r1 r2 rounds => Sys2Proof.Machine.execMemberReport d index code detail r1 r2 rounds s
  | .stripeCommit port d => Sys2Proof.Machine.execStripeCommit port d s
  | .stripeAbort port d => Sys2Proof.Machine.execStripeAbort port d s
  | .spanPartial port d rows => Sys2Proof.Machine.execSpanPartial port d rows s
  | .successorTakeover => Sys2Proof.Machine.execSuccessorTakeover s
  | .twinLogRecord src tag line entry data => Sys2Proof.Machine.execTwinLogRecord src tag line entry data s
  | .relayedWriteAck id => Sys2Proof.Machine.execRelayedWriteAck id s
  | .twinKeepalive => Sys2Proof.Machine.execTwinKeepalive s
  | .pathSilence viaduct => Sys2Proof.Machine.execPathSilence viaduct s
  | .stepRecord step ledger dir buckets check seqs cmds => Sys2Proof.Machine.execStepRecord step ledger dir buckets check seqs cmds s
  | .twinSelfCheck ok => Sys2Proof.Machine.execTwinSelfCheck ok s
  | .disagreementAction => Sys2Proof.Machine.execDisagreementAction s
  | .resyncPhaseEnd => Sys2Proof.Machine.execResyncPhaseEnd s
  | .holdBufferOverflow => Sys2Proof.Machine.execHoldBufferOverflow s
  | .handoverFail => Sys2Proof.Machine.execHandoverFail s
  | .objectRead p path index sub offset len => Sys2Proof.Machine.execObjectRead p path index sub offset len s
  | .objectWrite p path index sub offset total data => Sys2Proof.Machine.execObjectWrite p path index sub offset total data s
  | .stagedWriteAbort p path => Sys2Proof.Machine.execStagedWriteAbort p path s
  | .stagedWriteTimeout p path => Sys2Proof.Machine.execStagedWriteTimeout p path s
  | .nmtStart => Sys2Proof.Machine.execNmtStart s
  | .nmtStop => Sys2Proof.Machine.execNmtStop s
  | .nmtEnterPreOperational => Sys2Proof.Machine.execNmtEnterPreOperational s
  | .nmtResetCommunication => Sys2Proof.Machine.execNmtResetCommunication s
  | .nmtResetNode => Sys2Proof.Machine.execNmtResetNode s
  | .usdoTransfer upload index sub total data last => Sys2Proof.Machine.execUsdoTransfer upload index sub total data last s
  | .heartbeatPeriod => Sys2Proof.Machine.execHeartbeatPeriod s
  | .emcyInhibitExpiry => Sys2Proof.Machine.execEmcyInhibitExpiry s
  | .entdaa addr => Sys2Proof.Machine.execEntdaa addr s
  | .setEndpointId eid => Sys2Proof.Machine.execSetEndpointId eid s
  | .getEndpointId => Sys2Proof.Machine.execGetEndpointId s
  | .getMctpVersionSupport type => Sys2Proof.Machine.execGetMctpVersionSupport type s
  | .getMessageTypeSupport => Sys2Proof.Machine.execGetMessageTypeSupport s
  | .registerWrite w off data => Sys2Proof.Machine.execRegisterWrite w off data s
  | .tlsend ch v => Sys2Proof.Machine.execTlsend ch v s
  | .dictionaryService => Sys2Proof.Machine.execDictionaryService s
  | .tlrdone ch v => Sys2Proof.Machine.execTlrdone ch v s
  | .inback v => Sys2Proof.Machine.execInback v s
  | .resetTallyGroup p v => Sys2Proof.Machine.execResetTallyGroup p v s
  | .resetTenantTallies p t => Sys2Proof.Machine.execResetTenantTallies p t s
  | .freeze p v => Sys2Proof.Machine.execFreeze p v s
  | .freezeTrigger => Sys2Proof.Machine.execFreezeTrigger s
  | .traceRecord die => Sys2Proof.Machine.execTraceRecord die s
  | .arm p v => Sys2Proof.Machine.execArm p v s
  | .triggerNow p v => Sys2Proof.Machine.execTriggerNow p v s
  | .traceTrigger die => Sys2Proof.Machine.execTraceTrigger die s
  | .powerUp mv => Sys2Proof.Machine.execPowerUp mv s
  | .powerUpStepEnd ok images => Sys2Proof.Machine.execPowerUpStepEnd ok images s
  | .orderlyPowerDown byPin v => Sys2Proof.Machine.execOrderlyPowerDown byPin v s
  | .emergencyPowerDown cause => Sys2Proof.Machine.execEmergencyPowerDown cause s
  | .rstN => Sys2Proof.Machine.execRstN s
  | .requestDeviceReset p v => Sys2Proof.Machine.execRequestDeviceReset p v s
  | .dieFailure die => Sys2Proof.Machine.execDieFailure die s
  | .deviceReset => Sys2Proof.Machine.execDeviceReset s
  | .resetRelease => Sys2Proof.Machine.execResetRelease s
  | .watchdogKick v => Sys2Proof.Machine.execWatchdogKick v s
  | .watchdogExpiry => Sys2Proof.Machine.execWatchdogExpiry s
  | .issueAllowanceUpdate watts hottest => Sys2Proof.Machine.execIssueAllowanceUpdate watts hottest s
  | .forwardedData port m => Sys2Proof.Machine.execForwardedData port m s
  | .blkData port m => Sys2Proof.Machine.execBlkData port m s
  | .agentPurgeEnd a => Sys2Proof.Machine.execAgentPurgeEnd a s
  | .portLinkUp port data => Sys2Proof.Machine.execPortLinkUp port data s
  | .ethernetLinkDown port => Sys2Proof.Machine.execEthernetLinkDown port s
  | .nvmeControllerResetEnd port ok => Sys2Proof.Machine.execNvmeControllerResetEnd port ok s
  | .randomSourceHealthy => Sys2Proof.Machine.execRandomSourceHealthy s
  | .priorityFlowControlFrame port mask pause => Sys2Proof.Machine.execPriorityFlowControlFrame port mask pause s

end Sys2Proof.Machine
end

