-- ==== Sys2Proof/Safety.lean ====
section
/-! DEFINITION. What counts as a safe run: the block answers every command with a next state, and the bounds that the
specification sets on what the device holds stay in force. -/

namespace Sys2Proof.Machine

/-- The command is carried out: it neither faults nor is refused. -/
def goesOn (c : Instr) (s : State) : Prop := ∃ t, exec c s = .next t

/-- The numbers of a table rise, so that a number has one entry. -/
def Tbl.Rising {α : Type} (t : Tbl α) : Prop := t.Pairwise fun p q => p.1 < q.1

/-- Memory lists rising addresses and no byte that an unlisted address reads as; 65,536 retired granules and 64 retired
banks (R313). -/
structure Mem.Ok (m : Mem) : Prop where
  bytes : Memory.wf m.bytes = true
  granules : m.retired.length ≤ 65536
  banks : m.retiredBanks.length ≤ 64
  lines : Tbl.Rising m.lines
  patrol : Tbl.Rising m.patrol

/-- A number names one tenant, one extent and one queue pair (R380, R382, R383). -/
structure Ledger.Ok (l : Ledger) : Prop where
  tens : Tbl.Rising l.tens
  exts : Tbl.Rising l.exts
  qps : Tbl.Rising l.qps

/-- 512 records of the fault queue (R364). -/
def Xlate.Ok (x : Xlate) : Prop := x.queue.length ≤ 512

/-- 16 EMCY events that wait (R623). -/
def Can.Ok (c : Can) : Prop := c.emcy.length ≤ 16

/-- 256 records of each trace FIFO (R668). -/
structure Tally.Ok (t : Tally) : Prop where
  fifo0 : t.io0.fifo.length ≤ 256
  fifo1 : t.io1.fifo.length ≤ 256

/-- The phase accumulator has 48 bits (R38). -/
def StepClk.Ok (c : StepClk) : Prop := c.acc < 2 ^ 48

/-- The device time has 64 bits of nanoseconds (R23). -/
def Time.Ok (t : Time) : Prop := t.devHalf < 2 ^ 65

/-- A number names one context and one tray (R168, R236). -/
def Kv.Ok (k : Kv) : Prop := Tbl.Rising k.ctxs ∧ Tbl.Rising k.trays

/-- A number names one tenant's keys and one measurement register (R423, R431). -/
def Mint.Ok (m : Mint) : Prop := Tbl.Rising m.keys ∧ Tbl.Rising m.regs

/-- A line has one entry in the directory, and a number names one agent (R316, R323). -/
def Coh.Ok (c : Coh) : Prop := Tbl.Rising c.dir ∧ Tbl.Rising c.agents

/-- What holds of the device's state whatever it is told. -/
structure Inv (s : State) : Prop where
  mem : s.mem.Ok
  led : s.led.Ok
  kv : s.kv.Ok
  cores : Tbl.Rising s.attn.cores
  ctl : Tbl.Rising s.hbm.ctl
  mint : s.mint.Ok
  link : Tbl.Rising s.links.link
  tel : Tbl.Rising s.tel.chan
  coh : s.coh.Ok
  xl : s.xl.Ok
  can : s.can.Ok
  tal : s.tal.Ok
  clk : s.clk.Ok
  time : s.time.Ok

theorem Inv.ctxs {s : State} (h : Inv s) : Tbl.Rising s.kv.ctxs := h.kv.1
theorem Inv.trays {s : State} (h : Inv s) : Tbl.Rising s.kv.trays := h.kv.2
theorem Inv.keys {s : State} (h : Inv s) : Tbl.Rising s.mint.keys := h.mint.1
theorem Inv.regs {s : State} (h : Inv s) : Tbl.Rising s.mint.regs := h.mint.2
theorem Inv.dir {s : State} (h : Inv s) : Tbl.Rising s.coh.dir := h.coh.1
theorem Inv.agents {s : State} (h : Inv s) : Tbl.Rising s.coh.agents := h.coh.2

/-! ## What a command may write -/

/-- The parts of the state. -/
inductive Part where
  /-- Cycles, device time and protocol time -/
  | time
  /-- The object dictionary -/
  | dict
  /-- CANopen -/
  | can
  /-- Power and reset -/
  | pwr
  /-- The step clock -/
  | clk
  /-- Register windows and doorbells -/
  | win
  /-- Tellers and inbox -/
  | tel
  /-- Tallies and traces -/
  | tal
  /-- What memory holds beside its bytes: line metadata, logs, scrubbing, retirement -/
  | mem
  /-- HBM controllers -/
  | hbm
  /-- Tenants, extents, queue pairs, bindings -/
  | led
  /-- Contexts, frames, moves, trays -/
  | kv
  /-- Flights and cores -/
  | attn
  /-- Gates and tolls -/
  | shape
  /-- Translation -/
  | xl
  /-- Directory and requests -/
  | coh
  /-- Keys, measurements, responders -/
  | mint
  /-- KAF links -/
  | links
  /-- The truss -/
  | truss
  /-- Foreign ports -/
  | ports
  /-- Spans and twins -/
  | span
  /-- What has gone out -/
  | out
  /-- The free-value counter -/
  | freeCtr
  /-- The bytes of memory -/
  | bytes
  /-- The role in a twin pair -/
  | role
  deriving DecidableEq, Repr

/-- A part is the same in two states; `mem` is the memory as a whole, `bytes` its bytes alone, and `role` one field of `span`. -/
def Part.same : Part → State → State → Prop
  | .time, s, t => t.time = s.time
  | .dict, s, t => t.dict = s.dict
  | .can, s, t => t.can = s.can
  | .pwr, s, t => t.pwr = s.pwr
  | .clk, s, t => t.clk = s.clk
  | .win, s, t => t.win = s.win
  | .tel, s, t => t.tel = s.tel
  | .tal, s, t => t.tal = s.tal
  | .mem, s, t => t.mem = s.mem
  | .hbm, s, t => t.hbm = s.hbm
  | .led, s, t => t.led = s.led
  | .kv, s, t => t.kv = s.kv
  | .attn, s, t => t.attn = s.attn
  | .shape, s, t => t.shape = s.shape
  | .xl, s, t => t.xl = s.xl
  | .coh, s, t => t.coh = s.coh
  | .mint, s, t => t.mint = s.mint
  | .links, s, t => t.links = s.links
  | .truss, s, t => t.truss = s.truss
  | .ports, s, t => t.ports = s.ports
  | .span, s, t => t.span = s.span
  | .out, s, t => t.out = s.out
  | .freeCtr, s, t => t.freeCtr = s.freeCtr
  | .bytes, s, t => t.mem.bytes = s.mem.bytes
  | .role, s, t => t.span.twin = s.span.twin

/-- The parts that a command may write; no command writes the queue. -/
def writes : Instr → List Part
  | .stepMark .. | .selfTimedStep | .stepBeacon .. | .beaconTimeout | .internalStepBoundary | .coastedBeacon ..
    => [.time, .dict, .can, .clk, .win, .tel, .tal, .mem, .hbm, .led, .kv, .attn, .shape, .xl, .coh, .mint, .links,
      .ports, .span, .out, .freeCtr, .bytes]
  | .stepmark .. | .stepClockReconfigure .. | .registerWrite ..
    => [.dict, .can, .clk, .win, .tel, .tal, .mem, .hbm, .led, .kv, .attn, .shape, .xl, .coh, .mint, .links, .ports,
      .span, .out, .freeCtr, .bytes]
  | .stepOverrun | .checkpointCopyDeadline | .tollRelease ..
    => [.time, .dict, .can, .clk, .win, .tel, .tal, .mem, .hbm, .led, .kv, .attn, .shape, .xl, .coh, .links, .ports,
      .span, .out, .freeCtr, .bytes]
  | .backgroundWindowOpen => [.time, .clk, .tal, .hbm, .attn]
  | .backgroundWindowClose .. => [.time, .dict, .can, .pwr, .clk, .tal, .mem, .hbm, .out]
  | .layerPrefetchEvent | .t3BudgetRefill ..
    => [.time, .dict, .clk, .tal, .led, .kv, .attn, .shape, .xl, .links, .ports, .span, .out, .freeCtr]
  | .unsupported .. | .descriptorRead .. => [.time, .dict, .clk, .tal, .led, .kv, .attn, .shape, .links, .span, .out]
  | .sqtail .. | .cqhead .. | .reinitDone .. => [.led]
  | .admissionHoldLimit .. => [.time, .dict, .clk, .tal, .led, .kv, .attn, .shape, .coh, .links, .ports, .span, .out]
  | .attend ..
    => [.dict, .can, .tal, .mem, .hbm, .led, .kv, .attn, .shape, .xl, .coh, .links, .truss, .ports, .span, .out, .freeCtr]
  | .append .. | .outputFormed .. | .nvmeCompletion ..
    => [.dict, .can, .tal, .mem, .hbm, .led, .kv, .attn, .shape, .xl, .coh, .links, .ports, .span, .out, .freeCtr, .bytes]
  | .fork .. | .trim .. | .summarize .. | .t1GranuleReady .. | .certifiedCheck .. | .memberReport .. | .stripeCommit ..
    => [.dict, .can, .tal, .mem, .hbm, .led, .kv, .attn, .shape, .links, .span, .out, .freeCtr, .bytes]
  | .prefetch .. | .pin .. | .evict .. | .residencyFault .. | .automaticDemotion ..
    => [.dict, .tal, .led, .kv, .attn, .shape, .xl, .links, .ports, .span, .out, .freeCtr]
  | .compact .. | .pushAck .. | .releaseWalkEnd .. | .frameDrainEnd .. | .qpcfgEnable .. | .qpcfgReinit ..
    => [.dict, .tal, .led, .kv, .attn, .shape, .links, .span, .out]
  | .attendDeadline ..
    => [.time, .dict, .can, .clk, .tal, .mem, .hbm, .led, .kv, .attn, .shape, .xl, .links, .span, .out, .bytes]
  | .workItemStart .. => [.tal, .attn]
  | .summaryPassEnd .. => [.dict, .can, .tal, .mem, .kv, .attn, .out]
  | .partialArrival .. => [.dict, .can, .tal, .mem, .led, .kv, .attn, .shape, .links, .span, .out]
  | .checkTile .. | .coreSramUncorrectable .. | .quadrantAttachmentFail .. | .fenceCore ..
    => [.dict, .can, .tal, .mem, .hbm, .led, .kv, .attn, .shape, .xl, .links, .truss, .span, .out, .bytes]
  | .coreWatchdog ..
    => [.time, .dict, .can, .clk, .tal, .mem, .hbm, .led, .kv, .attn, .shape, .xl, .links, .truss, .span, .out, .bytes]
  | .fenceReadsDrained .. | .spanPartial .. => [.attn]
  | .returnCore .. => [.dict, .attn]
  | .coreTestEnd .. => [.dict, .can, .tal, .mem, .attn, .out]
  | .ctxOpen | .ctxClose => [.win, .kv, .span]
  | .openEnd => [.win, .kv, .freeCtr]
  | .tierhint .. | .trayRecordActivate .. => [.dict, .kv]
  | .moveComplete ..
    => [.dict, .can, .tal, .mem, .hbm, .led, .kv, .attn, .shape, .xl, .links, .ports, .span, .out, .freeCtr, .bytes]
  | .tierCacheMiss .. | .linkctlRetrain .. | .linkctlDown .. | .flitPosition .. | .linkRetrainTrigger .. | .linkDown .. |
    .keyReply .. | .keyProof .. | .blkData ..
    => [.dict, .can, .tal, .mem, .hbm, .led, .kv, .attn, .shape, .coh, .links, .ports, .span, .out, .bytes]
  | .trayFail .. => [.dict, .can, .tal, .mem, .led, .kv, .attn, .shape, .xl, .links, .ports, .span, .out, .freeCtr]
  | .patctl .. | .patternOpDone .. | .stackTemperatureChange .. | .selfRefreshExit .. => [.hbm]
  | .refreshDue .. => [.time, .clk, .tal, .hbm]
  | .targetedRefresh .. | .retrainController .. => [.dict, .hbm]
  | .throttleIntervalEnd => [.time, .dict, .can, .clk, .tal, .mem, .hbm, .out]
  | .selfRefreshEntry .. => [.time, .dict, .clk, .tal, .hbm]
  | .retrainGroup .. => [.dict, .can, .tal, .mem, .hbm, .out, .freeCtr]
  | .patrolScrubRead .. => [.time, .dict, .can, .clk, .tal, .mem, .out, .bytes]
  | .immediateScrub .. => [.dict, .can, .tal, .mem, .out, .bytes]
  | .stewardReadIndex .. | .retireGranule .. | .retireBank .. => [.dict, .mem]
  | .macRegionPlace .. | .resetSampleRecord .. => [.dict, .led]
  | .rdShared .. | .rdOwn .. | .upgrade .. | .rdUncached .. | .wrUncached .. | .evictClean .. | .cxlMemRd .. |
    .cxlMemRdData .. | .cxlMemInv .. | .cxlMemClnEvct .. | .cxlMemWr .. | .spanRemoteForward .. | .blkRd .. | .blkWr ..
    => [.dict, .can, .tal, .mem, .hbm, .kv, .attn, .shape, .xl, .coh, .links, .ports, .span, .out, .freeCtr, .bytes]
  | .wbDirty .. => [.dict, .can, .tal, .mem, .hbm, .attn, .shape, .xl, .coh, .links, .ports, .span, .out, .freeCtr, .bytes]
  | .snoopResponse .. | .rspCopy .. | .rspWbPend .. | .fwdAck .. | .biSnoopResponse .. | .agentFailed .. |
    .declareAgentFailed .. | .escrowRecallWalk .. | .cxlLinkDown ..
    => [.dict, .can, .tal, .mem, .hbm, .shape, .coh, .links, .ports, .span, .out, .bytes]
  | .lineLockAcquire ..
    => [.dict, .can, .tal, .mem, .hbm, .kv, .shape, .xl, .coh, .links, .ports, .span, .out, .freeCtr, .bytes]
  | .snoopTimeout .. => [.time, .dict, .can, .clk, .tal, .mem, .hbm, .shape, .coh, .links, .ports, .span, .out, .bytes]
  | .pendingFault .. => [.dict, .can, .tal, .mem, .hbm, .attn, .xl, .out, .freeCtr]
  | .faultQueueSlotFree => [.dict, .xl]
  | .pendingRewalk .. => [.dict, .can, .tal, .mem, .hbm, .led, .kv, .attn, .shape, .xl, .links, .span, .out, .freeCtr]
  | .pendingFaultTimeout .. => [.time, .dict, .clk, .tal, .led, .kv, .attn, .shape, .xl, .links, .span, .out]
  | .xlinvcmd .. => [.led, .xl]
  | .invalidationStart => [.xl]
  | .invalidationComplete => [.dict, .led, .xl]
  | .xlinvstatRead .. => [.led, .out]
  | .bindPasid .. | .revokeExtent .. => [.dict, .led, .span]
  | .unbindPasid .. => [.dict, .xl, .span]
  | .portPasidWrite .. | .readerSetWrite .. => [.dict, .span]
  | .tenantCreate .. | .tenantRemove ..
    => [.dict, .tal, .mem, .hbm, .led, .kv, .attn, .shape, .xl, .mint, .links, .span, .out, .bytes]
  | .removalStepEnd .. => [.dict, .tel, .tal, .led, .kv, .attn, .shape, .xl, .mint, .links, .span, .out]
  | .grantExtent .. => [.dict, .led, .span, .freeCtr]
  | .zeroizeDone .. => [.dict, .mem, .led, .bytes]
  | .escrowStepEnd ..
    => [.dict, .tal, .mem, .led, .kv, .attn, .shape, .xl, .mint, .links, .ports, .span, .out, .freeCtr, .bytes]
  | .interruptCoalesceTimer .. => [.time, .clk, .tal, .led, .links, .out]
  | .keyRotate .. => [.dict, .tal, .mem, .hbm, .led, .kv, .mint, .span, .bytes]
  | .rewrapUnit .. => [.dict, .mem, .kv, .shape, .mint]
  | .sweepComplete .. => [.dict, .tal, .mem, .hbm, .led, .kv, .mint, .bytes]
  | .retireOldEpoch .. => [.dict, .tal, .mem, .hbm, .led, .mint, .span, .bytes]
  | .sealKeysWrite .. | .roceRecordWrite .. | .spanMapWrite .. | .resetTenantTallies .. => [.dict]
  | .randomSourceHealthFail | .randomSourceHealthy => [.mint]
  | .spdm .. | .getVersion .. | .getCapabilities .. | .negotiateAlgorithms .. | .getDigests .. | .getCertificate .. |
    .challenge .. | .getMeasurements .. | .keyExchange .. | .finish .. | .heartbeat .. | .keyUpdate .. | .endSession .. |
    .chunkGet .. | .pqCerts .. | .pqSig .. | .tenantReport .. | .bundleKeys .. | .debugUnlock ..
    => [.tel, .mint, .out, .freeCtr]
  | .extend .. => [.tel, .mint, .out]
  | .bundleImport .. => [.dict, .tel, .led, .mint, .out]
  | .bundleImportEnd .. => [.dict, .tel, .mem, .mint, .bytes]
  | .unknownVerb .. | .tlsend .. | .inback .. => [.tel, .out]
  | .linkctlRestart .. => [.dict, .links]
  | .linkctlRekey .. | .linkPartnerDetect .. => [.links]
  | .linkRestartDelay .. => [.time, .dict, .clk, .tal, .links]
  | .linkTrainingStageEnd .. | .keyHello ..
    => [.dict, .can, .tal, .mem, .hbm, .led, .kv, .attn, .shape, .coh, .links, .ports, .span, .out, .freeCtr, .bytes]
  | .linkStateTimeout ..
    => [.time, .dict, .can, .clk, .tal, .mem, .hbm, .led, .kv, .attn, .shape, .coh, .links, .ports, .span, .out, .freeCtr,
      .bytes]
  | .holdingTimeout .. | .goBackResendTimeout .. => [.time, .clk, .tal, .links, .out]
  | .replayTimeout ..
    => [.time, .dict, .can, .clk, .tal, .mem, .hbm, .led, .kv, .attn, .shape, .coh, .links, .ports, .span, .out, .bytes]
  | .rekeyInterval .. => [.time, .clk, .tal, .links]
  | .tlmsg .. => [.tel, .tal, .links, .out]
  | .tlans .. | .freezeTrigger | .traceRecord .. | .traceTrigger .. => [.tal]
  | .malformedMessage .. => [.tal, .links, .out]
  | .winRd .. | .winWr .. => [.dict, .win, .tel, .tal, .led, .kv, .attn, .shape, .xl, .coh, .links, .ports, .span, .out]
  | .tableCommit .. | .epochRetire => [.dict, .truss]
  | .trussFlitCrcFail .. => [.pwr, .tal, .truss]
  | .multicastDeliveryNotice .. => [.tal, .truss]
  | .resetDrainLimit
    => [.time, .dict, .can, .clk, .tal, .mem, .hbm, .led, .kv, .attn, .shape, .coh, .links, .truss, .ports, .span, .out,
      .bytes]
  | .gateEntryBoundary | .gateListChange
    => [.time, .dict, .can, .clk, .tal, .mem, .hbm, .kv, .shape, .xl, .coh, .links, .ports, .span, .out, .freeCtr, .bytes]
  | .gateChangeCommit .. => [.dict, .shape]
  | .queueSample => [.time, .clk, .tal, .led]
  | .ucieLinkLoss | .requestDeviceReset .. | .watchdogKick .. => [.dict, .pwr]
  | .uperrstatRead .. | .neighborResolution .. => [.ports, .out]
  | .trayRequestTimeout ..
    => [.time, .dict, .can, .clk, .tal, .mem, .led, .kv, .attn, .shape, .xl, .links, .ports, .span, .out, .freeCtr]
  | .nvmeCommandTimeout ..
    => [.time, .dict, .clk, .tal, .led, .kv, .attn, .shape, .xl, .coh, .links, .ports, .span, .out, .freeCtr]
  | .rdmaWrite .. | .rdmaReadRequest .. | .stepRecord .. | .handoverFail
    => [.dict, .can, .win, .tel, .tal, .mem, .hbm, .led, .kv, .attn, .shape, .xl, .coh, .links, .ports, .span, .out,
      .freeCtr, .bytes]
  | .roceAcknowledge .. | .ethernetFrameDiscard .. | .priorityFlowControlFrame .. => [.ports]
  | .roceInvalidRequest .. => [.tal, .ports, .out]
  | .ptpSync .. => [.time, .dict, .ports]
  | .ptpLockLoss .. => [.time, .dict, .clk, .tal, .ports]
  | .mkaFrame .. | .ethernetLinkDown .. => [.dict, .ports]
  | .spanMapDigest .. | .twinSelfCheck .. => [.span]
  | .stripedPart ..
    => [.dict, .can, .tal, .mem, .hbm, .led, .kv, .attn, .shape, .xl, .links, .truss, .ports, .span, .out, .freeCtr,
      .bytes]
  | .stripeAbort .. => [.dict, .can, .tal, .mem, .hbm, .led, .kv, .attn, .shape, .xl, .links, .span, .out, .bytes]
  | .successorTakeover => [.dict, .clk]
  | .twinLogRecord .. => [.dict, .can, .tal, .mem, .hbm, .shape, .xl, .coh, .span, .out, .freeCtr, .bytes]
  | .relayedWriteAck .. => [.dict, .tal, .shape, .coh, .links, .span, .out]
  | .twinKeepalive => [.time, .clk, .tal, .span, .out]
  | .pathSilence ..
    => [.time, .dict, .can, .clk, .win, .tel, .tal, .mem, .hbm, .led, .kv, .attn, .shape, .xl, .coh, .links, .ports,
      .span, .out, .freeCtr, .bytes, .role]
  | .disagreementAction | .resyncPhaseEnd
    => [.dict, .can, .win, .tel, .tal, .mem, .hbm, .led, .kv, .attn, .shape, .xl, .coh, .links, .ports, .span, .out,
      .freeCtr, .bytes, .role]
  | .holdBufferOverflow => [.dict, .coh]
  | .objectRead .. => [.time, .dict, .clk, .tal, .out]
  | .objectWrite .. | .usdoTransfer .. | .dictionaryService | .powerUp .. | .orderlyPowerDown .. | .emergencyPowerDown .. |
    .deviceReset
    => [.time, .dict, .can, .pwr, .clk, .win, .tel, .tal, .mem, .hbm, .led, .kv, .attn, .shape, .xl, .coh, .mint, .links,
      .truss, .ports, .span, .out, .freeCtr, .bytes, .role]
  | .stagedWriteAbort .. => [.dict, .out]
  | .stagedWriteTimeout .. => [.time, .dict, .can, .clk, .tal, .out]
  | .nmtStart | .nmtStop | .nmtEnterPreOperational | .entdaa .. => [.can]
  | .nmtResetCommunication | .nmtResetNode => [.dict, .can]
  | .heartbeatPeriod | .emcyInhibitExpiry => [.time, .can, .clk, .tal, .out]
  | .setEndpointId .. => [.can, .out]
  | .getEndpointId | .getMessageTypeSupport => [.out]
  | .getMctpVersionSupport .. => [.out, .freeCtr]
  | .tlrdone .. => [.tel]
  | .resetTallyGroup .. | .freeze .. | .arm .. | .triggerNow .. => [.dict, .tal]
  | .powerUpStepEnd ..
    => [.dict, .can, .pwr, .clk, .win, .tel, .tal, .mem, .hbm, .led, .kv, .attn, .shape, .xl, .coh, .mint, .links, .ports,
      .span, .out, .freeCtr, .bytes, .role]
  | .rstN | .dieFailure .. => [.pwr]
  | .resetRelease | .watchdogExpiry => [.time, .pwr, .clk, .tal]
  | .issueAllowanceUpdate .. => [.time, .pwr, .clk, .tal, .freeCtr]
  | .forwardedData .. => [.tal, .coh, .links, .out]
  | .agentPurgeEnd .. => [.coh]
  | .portLinkUp .. => [.dict, .kv, .coh, .ports]
  | .nvmeControllerResetEnd ..
    => [.dict, .can, .tal, .mem, .led, .kv, .attn, .shape, .xl, .coh, .links, .ports, .span, .out, .freeCtr]

/-! ## Answers -/

/-- A descriptor that was read has been answered: its completion entry stands in the slot reserved for it, and it is no longer in
flight (R162, R403, R647). -/
def Answered (t : State) (f : Flight) (code detail r1 r2 : Nat) : Prop :=
  (∀ g ∈ t.attn.flights, g.id ≠ f.id) ∧ f.slot ∈ (qpOf t f.qp).done ∧
  ∃ w : BitVec 128, ((qpOf t f.qp).cq.find? fun p => p.1 == f.slot % cqSize (qpOf t f.qp)) = some (f.slot % cqSize (qpOf t f.qp), w) ∧
    fld w 15 8 = dOpcode f.desc ∧ fld w 23 16 = code ∧ fld w 31 24 = detail ∧ fld w 47 32 = dTag f.desc ∧ fld w 127 96 = r1 ∧
    fld w 95 64 = r2

/-! ## Requests on their way to the memory (R316 to R342, R533) -/

/-- The state in which an arriving request is looked at: counted at its port and for its tenant, and numbered. -/
def counted (r : Req) (s : State) : State :=
  tenantCount r.tenant 7 r.data.length
    (linkTally false (srcUnit r.src) (if r.src < 13 then kafSlots r.data.length else r.data.length) (tookId s))

/-- The direct request that a command brings, where its port takes it: the message has the command's opcode, the link is up,
and the message is no transit one. -/
def askedBy (s : State) : Instr → Option Req
  | .rdShared p m => kaf p 0x10 m .rs 64
  | .rdOwn p m => kaf p 0x11 m .ro 64
  | .upgrade p m => kaf p 0x12 m .up 64
  | .rdUncached p m => kaf p 0x13 m .ur 64
  | .wrUncached p m => kaf p 0x14 m .uw m.data.length
  | .evictClean p m => kaf p 0x15 m .ec 64
  | .blkRd p m => kaf p 0x40 m .ur (m.mask % 8192)
  | .blkWr p m => kaf p 0x41 m .uw m.data.length
  | .cxlMemRd p tag a mv => cxl p 0x100 tag a (if mv = 3 then .rs else if mv = 2 then .ro else .ur)
  | .cxlMemRdData p tag a => cxl p 0x101 tag a .rs
  | .cxlMemInv p tag a mv => if cxl3 s p.val then cxl p 0x102 tag a (if mv = 2 then .up else .ec) else none
  | .cxlMemClnEvct p tag a => if cxl3 s p.val then cxl p 0x103 tag a .ec else none
  | .cxlMemWr p tag a mask data poison =>
    if cxl3 s p.val then none
    else (cxl p 0x104 tag a .uw).map fun r => { r with arg := mask.toNat, data := data.take 64, poison := poison }
  | _ => none
where
  kaf (p : Fin 13) (op : Nat) (m : KafMsg) (cls : RClass) (len : Nat) : Option Req :=
    if m.op = op ∧ linkUp s p.val = true ∧ (8 ≤ p.val → m.addr / 2 ^ 52 = ownIndex s) then some (kafReq p.val m cls len s) else none
  cxl (p : Fin 4) (op tag : Nat) (a : BitVec 57) (cls : RClass) : Option Req :=
    if cxlOn s p.val then some (cxlReq p.val op tag a.toNat cls s) else none

/-- A link carries messages: it is up, and its partner has no data channel off. -/
def sends (s : State) (l : Nat) : Bool := linkUp s l && (linkOf s l).xoff == 0

/-- Nothing holds a request back: the block works and is no twin, a link that asks carries the answer, the requester takes part, no toll of the request is enabled,
its gate is open with none waiting at it, and a CXL request finds room at the home. -/
structure Unheld (s : State) (r : Req) : Prop where
  live : live s = true
  single : s.span.twin = .single
  sends : r.src < 13 → sends s r.src = true
  agent : ∀ a, r.agent = some a → agentUp s a = true
  tolls : ∀ k ∈ reqTolls r, tollField s k 1 = 0
  gate : ∀ g, srcGate r.src = some g → gateOpen s g = true ∧ ∀ q ∈ s.coh.reqs, q.stage ≠ .gated
  room : 13 ≤ r.src → cxlQueueFull s = false

/-- A request that reaches `a` in this device's memory, of tier 1 or 2, and passes every check; `u` is the state that its
translation leaves. -/
structure Seen (s : State) (r : Req) (a : Nat) (u : State) : Prop where
  unheld : Unheld s r
  port : portFails (counted r s) r = false
  place : placeReq r (counted r s) = (.at_ [(ownIndex u * 2 ^ 52 + a, r.len)], u)
  check : checkReq u r [(a, r.len)] = 0
  low : a < 2 ^ 52
  near : tierOf a ≠ 3
  new : ∀ q ∈ s.coh.reqs, q.id < s.attn.nextId

/-- No transaction is open, no request waits for a line, and the line's set has a free way (R330, R337). -/
structure LineFree (s : State) (line : Nat) : Prop where
  txns : s.coh.txns = []
  reqs : ∀ q ∈ s.coh.reqs, q.stage ≠ .locked
  ways : (s.coh.dir.filter fun p => dirSet p.1 == dirSet line).length < 16
  dir : Tbl.Rising s.coh.dir

/-- The message that ends a read or an acquisition: the data with the state granted (1 S, 2 F, 3 E, 0 none). -/
def dataOut (r : Req) (grant : Nat) (data : List Byte) : Out :=
  if r.src < 13 then .kaf r.src { kafOf (if r.op = 0x40 then 0x42 else if grant = 0 then 0x1C else 0x17 + grant) with
    tag := r.tag, srcDev := r.srcDev, data := data }
  else .cxl (r.src - 0x10) 1 r.tag (if grant = 0 then 0 else if grant ≤ 2 then 1 else 2) data

/-- The message that ends a write, an eviction or an invalidation. -/
def doneOut (r : Req) (grant : Nat) : Out :=
  if r.src < 13 then .kaf r.src { kafOf 0x1E with tag := r.tag, srcDev := r.srcDev }
  else .cxl (r.src - 0x10) 0 r.tag (if grant = 0 then 0 else 2) []

/-- The code of a request that cannot be translated: 0x20, or 0x22 under a PASID of a tenant that is being removed (R352,
R447). -/
def xlateCode (s : State) (t : Nat) : Nat := if t < 64 ∧ (tenantOf s t).st = .removing then 0x22 else 0x20

/-! ## Messages to the Mint -/

/-- The Mint runs, and a message by I3C carries a plain SPDM request of a code to it. -/
structure Asked (s : State) (bytes req : List Byte) (code : Nat) : Prop where
  run : s.mint.st = .running
  plain : bytes = 5 :: req
  code : byteAt req 1 = code

/-- The Mint has answered by I3C with a plain SPDM response. -/
def Said (s t : State) (body : List Byte) : Prop := t.out = s.out ++ [.mctp (5 :: body)]

/-- What goes out for a response that may be longer than a transfer: itself, or the error that names a large response. -/
def bounded (s : State) (r : List Byte) : List Byte := if r.length ≤ 4096 then r else spdmErr (spdmOf s 100).ver 0x0F ++ [0]

/-- The Mint runs, and a message by I3C carries the identifier of the path's session. -/
structure Sealed (s : State) (bytes : List Byte) (e : SpdmSession) : Prop where
  run : s.mint.st = .running
  order : (spdmOf s 100).phase = 3
  session : (spdmOf s 100).session = some e
  head : bytes.take 5 = 6 :: leBytes e.sid 4
  sid : e.sid < 2 ^ 32

/-- A sealed message opens to a request of a code and of the connection's version. -/
structure Opens (s : State) (bytes : List Byte) (e : SpdmSession) (code : Nat) (m : List Byte) : Prop where
  opens : ∃ x, Config.sessionOpen e.th e.updates (bytes.drop 5) = some (x :: m)
  ver : byteAt m 0 = (spdmOf s 100).ver
  code : byteAt m 1 = code

/-- No send of this cycle was turned away at the channel: one would go in as the message is acknowledged (R631). -/
def tlQuiet (s : State) (c : Nat) : Bool := (chanOf s c).turned.all fun p => p.1 != s.time.cycle

/-- A channel's message has been acknowledged with a code. -/
structure Acked (t : State) (c code : Nat) (m : TlMsg) : Prop where
  valid : (chanOf t c).ackValid = true
  code : (chanOf t c).ackCode = code
  seq : (chanOf t c).ackSeq = m.seq
  gone : (chanOf t c).msg = none

/-! ## KAF links -/

/-- The link has gone down for a reason: its record keeps what `k` counts and measured; on a pier, what was pushed to it counts
as acknowledged and its agent fails; what a span or the viaduct asked for is answered no more (R481). -/
def Fell (l reason : Nat) (k : Link) (s t : State) : Prop :=
  ∃ u, linkOf u l = { ({} : Link) with reason := reason, since := u.time.cycle, counts := k.counts, retrains := k.retrains, rtt := k.rtt } ∧
    u.time.cycle = s.time.cycle ∧ (∀ x, x ≠ l → linkOf u x = linkOf s x) ∧ t = if l < 8 then failAgent l (pushesDone l u)
      else u.setCoh fun c => { c with reqs := c.reqs.map fun r => if r.src = l then { r with dead := true } else r }

/-- A link's record with one more of what count `i` of 5010 counts (R489). -/
def Link.counted (k : Link) (i : Nat) : Link := { k with counts := tmod 0 k.counts i fun n => (n + 1) % 2 ^ 64 }

/-- What a good flit position needs to be taken as it stands: on an encrypted link its phase is that of the present key generation,
and every message that waits for its VC still waits under the off bits that the flit brings (R475, R486). -/
structure PlainFlit (s : State) (l xoff : Nat) (phase : Bool) : Prop where
  phase : (linkOf s l).encrypted = true → phase = ((linkOf s l).rxGen % 2 == 1)
  waits : ∀ p ∈ (linkOf s l).parked, vcOff { linkOf s l with xoff := xoff } p.2 = true

/-- Only the link's own record differs. -/
def OtherLinks (l : Nat) (s t : State) : Prop := ∀ x, x ≠ l → linkOf t x = linkOf s x

/-! ## Twin pairs -/

/-- An alarm of a twin pair: its reason stands in 8200:0A and telemetry carries it (R601). -/
def Alarmed (n : Nat) (s t : State) : Prop :=
  obj t 0x8200 0x0A = n ∧ t.tal.eventCount = (s.tal.eventCount + 1) % 2 ^ 64

end Sys2Proof.Machine
end

