-- ==== Sys2Proof/Certificates/Slice0/Obligations.lean ====
section
/-! DEFINITION. The statements about the model. -/

open Sys2Proof Sys2Proof.Machine

/-! ## The block as a whole -/

/-- A step runs the command at the front of the queue, and leaves the queue's rest (log entry 1). -/
def Obligations.StepRunsFront : Prop :=
  ∀ (c : Instr) (rest : List Instr) (s : State), s.pending = c :: rest → step s = exec c { s with pending := rest }

/-- With no command waiting, a step lets one truss cycle pass, completes, and leaves the queue empty (the model's choice, log
entry 2). -/
def Obligations.StepIdles : Prop :=
  ∀ s : State, s.pending = [] → ∃ t, step s = .next t ∧ t.time.cycle = s.time.cycle + 1 ∧ t.pending = [] ∧ t.mem = s.mem ∧ t.led = s.led

/-- Right after reset the invariant holds, the device is starting, the step clock is UNLOCKED, the Mint boots, no link is up, no
tenant is ACTIVE, no queue pair enabled, no extent granted, and no byte of memory is listed (R26, R382, R467, R694; the values
that no rule gives are those of log entry 5). -/
def Obligations.ResetIsInOrder : Prop :=
  Inv State.reset ∧ State.reset.pending = [] ∧ State.reset.pwr.dev = .starting ∧ State.reset.clk.st = .unlocked ∧
    State.reset.mint.st = .booting ∧ (∀ l, linkUp State.reset l = false) ∧ (∀ n, (tenantOf State.reset n).st = .free) ∧
    (∀ q, (qpOf State.reset q).st = .disabled) ∧ (∀ e, (extOf State.reset e).st = .free) ∧ State.reset.mem.bytes = []

/-- From every state in which the invariant holds, whatever command stands at the front of the queue or with none, a step that
answers a next state keeps the invariant: memory in canonical form and at most 65,536 retired granules and 64 retired banks, one
entry for each tenant, extent, queue pair, context, tray, core, controller, key slot, line and link, at most 512 fault records,
16 waiting EMCY events and 256 trace records a die, and the phase accumulator within 48 bits and the device time within its 64
(R23, R38, R313, R364, R382, R623, R668). -/
def Obligations.InvariantIsKept : Prop := ∀ s t : State, Inv s → step s = .next t → Inv t

/-- Every command completes from every state, whatever its operands; and POWER_UP above the 60 V of the rails' shutdown limit
changes nothing (R685). -/
def Obligations.CommandsComplete : Prop :=
  (∀ (c : Instr) (s : State), ∃ t, exec c s = .next t) ∧
  ∀ (mv : Nat) (s : State), 60000 < mv → exec (.powerUp mv) s = .next s

/-- A command leaves every part of the state as it was, but those that `writes` names for it; the queue it never writes. -/
def Obligations.FramesHold : Prop :=
  ∀ (c : Instr) (s t : State), exec c s = .next t → (∀ p, p ∉ writes c → p.same s t) ∧ t.pending = s.pending

/-- A command that `writes` does not let write the bytes of memory leaves every byte of memory as it reads. -/
def Obligations.MemoryStays : Prop :=
  ∀ (c : Instr) (s t : State), exec c s = .next t → Part.bytes ∉ writes c → ∀ a, mget t.mem.bytes a = mget s.mem.bytes a

/-! ## The step clock -/

/-- STEP_BEACON, COASTED_BEACON: a valid beacon whose number is above the last one, or that is the first after reset or carries
restart, makes the device LOCKED with the beacon's step number, prediction, layer count and origin, its phase loaded with
fraction 0; a lower number without restart is stale and counted, the same number is ignored, and neither changes another field of
the clock but the accumulator; the follow takes its lead's coasted beacon as an internal step and keeps the last accepted number;
a device that is no follow discards and counts one (R35, R37, R43, R45, R48, R49). -/
def Obligations.BeaconsAreTaken : Prop :=
  (∀ (s : State) (p : Fin 13) (d : Nat) (m : Beacon),
    linkUp s p.val = true → 8 ≤ p.val → bCrcOk m = true → bType m = 0x5B → bSpan m = obj s 0x2100 9 →
    layersOk (bLayers m) = true → predictedOk (bPredicted m) = true → bCoast m = false → stepSource s = 0 →
    (s.span.keystone = none ∨ s.span.keystone = some (bKeystone m)) →
    (s.clk.heard = false ∨ bRestart m = true ∨ s.clk.last < bStep m) →
    ∃ t, exec (.stepBeacon p d m) s = .next t ∧ t.clk.st = .locked ∧ t.clk.last = bStep m ∧ t.clk.predicted = bPredicted m ∧
      t.clk.layers = bLayers m ∧ t.clk.originTs = bOrigin m ∧ t.clk.seen = true ∧ t.clk.internal = 0 ∧
      t.clk.acc % 2 ^ 32 = 0 ∧ t.clk.acc < 2 ^ 48) ∧
  (∀ (s : State) (p : Fin 13) (d : Nat) (m : Beacon),
    linkUp s p.val = true → 8 ≤ p.val → bCrcOk m = true → bType m = 0x5B → bSpan m = obj s 0x2100 9 →
    layersOk (bLayers m) = true → predictedOk (bPredicted m) = true → bCoast m = false → stepSource s = 0 →
    (s.span.keystone = none ∨ s.span.keystone = some (bKeystone m)) →
    s.clk.heard = true → bRestart m = false → bStep m ≤ s.clk.last →
    ∃ t, exec (.stepBeacon p d m) s = .next t ∧ t.clk = { s.clk with
      acc := t.clk.acc, stale := if bStep m = s.clk.last then s.clk.stale else (s.clk.stale + 1) % 2 ^ 32 }) ∧
  (∀ (s : State) (d : Nat) (m : Beacon),
    linkUp s 12 = true → bCrcOk m = true → bType m = 0x5B → bSpan m = obj s 0x2100 9 → layersOk (bLayers m) = true →
    predictedOk (bPredicted m) = true → bCoast m = true → s.span.twin = .follow → s.clk.last < bStep m →
    (∀ c, s.clk.coasted = some c → c < bStep m) →
    ∃ t, exec (.coastedBeacon 12 d m) s = .next t ∧ t.clk.st = .coast ∧ t.clk.last = s.clk.last ∧
      t.clk.internal = bStep m - s.clk.last ∧ t.clk.coasted = some (bStep m) ∧ t.clk.predicted = bPredicted m ∧
      t.clk.layers = bLayers m) ∧
  (∀ (s : State) (p : Fin 13) (d : Nat) (m : Beacon),
    linkUp s p.val = true → bCoast m = true → s.span.twin ≠ .follow →
    ∃ t, exec (.coastedBeacon p d m) s = .next t ∧
      t.clk = { s.clk with acc := t.clk.acc, discarded := (s.clk.discarded + 1) % 2 ^ 32 })

/-- STEP_MARK, STEPMARK, SELF_TIMED_STEP: the keystone starts a step and is LOCKED in it: with the mark's number and layer
count; with the last number plus 1 and the layer count of 2100:0A; and, self-timed, when the step before it has lasted
2100:03, which is also its prediction (R30 to R33, R715). A takeover's first step, whose number R581 gives, is apart. -/
def Obligations.KeystoneStartsSteps : Prop :=
  (∀ (s : State) (p : Fin 13) (d : Nat) (m : Beacon),
    linkUp s p.val = true → stepSource s = 1 → p.val = obj s 0x2100 2 → bCrcOk m = true → bType m = 0x5A →
    layersOk (bLayers m) = true → (s.clk.seen = false ∨ s.clk.last < bStep m) → s.clk.takeover = false →
    ∃ t, exec (.stepMark p d m) s = .next t ∧ t.clk.st = .locked ∧ t.clk.last = bStep m ∧ t.clk.layers = bLayers m ∧
      t.clk.seen = true ∧ t.clk.internal = 0) ∧
  (∀ (s : State) (v : BitVec 32),
    fld v 0 0 = 1 → stepSource s = 2 → (s.clk.st ≠ .locked ∨ s.clk.stepAt ≠ s.time.cycle) → s.clk.takeover = false →
    s.clk.last + 1 < 2 ^ 48 → layersOk (objLast s 0x2100 0x0A) = true →
    ∃ t, exec (.stepmark v) s = .next t ∧ t.clk.st = .locked ∧ t.clk.last = s.clk.last + 1 ∧
      t.clk.layers = objLast s 0x2100 0x0A ∧ t.clk.internal = 0) ∧
  (∀ s : State,
    stepSource s = 3 → s.clk.takeover = false → s.clk.last + 1 < 2 ^ 48 → layersOk (objLast s 0x2100 0x0A) = true →
    objLast s 0x2100 3 < 2 ^ 32 →
    ∃ t, exec .selfTimedStep s = .next t ∧ t.clk.st = .locked ∧ t.clk.last = s.clk.last + 1 ∧
      t.clk.predicted = objLast s 0x2100 3 ∧ t.clk.layers = objLast s 0x2100 0x0A ∧
      s.clk.stepAt + 2 * obj s 0x2100 3 ≤ t.time.cycle)

/-- R640, whole: a STEPMARK write is ignored unless 2100:01 is 2, and a second write of the same truss cycle is no second
mark. -/
def Obligations.StepmarkWritesOfOneCycle : Prop :=
  (∀ (s : State) (v : BitVec 32), obj s 0x2100 1 ≠ 2 → exec (.stepmark v) s = .next s) ∧
  (∀ (s : State) (v w : BitVec 32), fld v 0 0 = 1 → ∃ t, exec (.stepmark v) s = .next t ∧ exec (.stepmark w) t = .next t)

/-- BEACON_TIMEOUT, INTERNAL_STEP_BOUNDARY, STEP_OVERRUN, STEP_CLOCK_RECONFIGURE: when the timeout has passed and no arrival of its
cycle is accepted, the clock enters COAST with its first internal step and keeps the last accepted number, and when one is, the
timeout leaves it to the arrival (R26); internal steps are counted in COAST and in UNLOCKED; a step that passes phase 65,535
enters OVERRUN, which is counted; and a write of 2100:01, :06 or :09 is stored, and returns the clock to UNLOCKED with its first
internal step, the counts of 2101 at 0 (R39, R45 to R47, R54, R55). -/
def Obligations.ClockWithoutBeacons : Prop :=
  (∀ s : State, (s.clk.st = .locked ∨ s.clk.st = .overrun) →
    arrivalWins (timeoutAt s) (startsStep (carryTo (timeoutAt s) s)) s = false →
    ∃ t, exec .beaconTimeout s = .next t ∧ t.clk.st = .coast ∧ t.clk.internal = 1 ∧ t.clk.acc = 0 ∧
      t.clk.last = s.clk.last ∧ t.clk.predicted = s.clk.predicted ∧ t.clk.layers = s.clk.layers ∧
      t.time.cycle = max s.time.cycle (timeoutAt s)) ∧
  (∀ s : State, (s.clk.st = .locked ∨ s.clk.st = .overrun) →
    arrivalWins (timeoutAt s) (startsStep (carryTo (timeoutAt s) s)) s = true →
    exec .beaconTimeout s = .next (carryTo (timeoutAt s) s)) ∧
  (∀ s : State, s.clk.st = .coast → s.span.twin ≠ .follow →
    ∃ t, exec .internalStepBoundary s = .next t ∧ t.clk.st = .coast ∧ t.clk.internal = (s.clk.internal + 1) % 2 ^ 32 ∧
      t.clk.acc = 0 ∧ t.clk.last = s.clk.last ∧ s.clk.stepAt + 2 * s.clk.predicted ≤ t.time.cycle) ∧
  (∀ s : State, s.clk.st = .unlocked → stepSource s ≠ 3 →
    ∃ t, exec .internalStepBoundary s = .next t ∧ t.clk.st = .unlocked ∧ t.clk.internal = (s.clk.internal + 1) % 2 ^ 32 ∧
      t.clk.last = 0 ∧ t.clk.layers = 1) ∧
  (∀ s : State, s.clk.st = .locked →
    ∃ t, exec .stepOverrun s = .next t ∧ t.clk.st = .overrun ∧ t.clk.last = s.clk.last ∧
      t.clk.overruns = (s.clk.overruns + 1) % 2 ^ 32) ∧
  (∀ (s : State) (p : Prin) (sub : BitVec 8) (v : Nat),
    (sub = 1 ∧ v ≤ 3) ∨ (sub = 6 ∧ v ≤ 2) ∨ (sub = 9 ∧ v < 256) → mayTouch p 0x2100 sub.toNat = true → answering s = true →
    ∃ t, exec (.stepClockReconfigure p sub v) s = .next t ∧ obj (writeObj 0x2100 sub.toNat v s) 0x2100 sub.toNat = v ∧
      (t = unlock (writeObj 0x2100 sub.toNat v s) ∨ sub = 6 ∧ obj s 0x2100 6 ≠ v ∧ t = ptpAnew (unlock (writeObj 0x2100 6 v s))) ∧
      t.clk.st = .unlocked ∧ t.clk.last = 0 ∧ t.clk.internal = 1 ∧ t.clk.seen = false ∧ t.clk.discarded = 0 ∧ t.clk.stale = 0 ∧ t.clk.missed = 0 ∧
      t.clk.early = 0 ∧ t.clk.overruns = 0 ∧ t.clk.coasts = 0)

/-- BACKGROUND_WINDOW_OPEN, BACKGROUND_WINDOW_CLOSE, LAYER_PREFETCH_EVENT, CHECKPOINT_COPY_DEADLINE: each event of a step
happens at its phase, and once (R50). -/
def Obligations.PhaseEventsFire : Prop :=
  (∀ s : State, s.clk.winDone = false → s.clk.acc < 2 ^ 48 → obj s 0x2102 3 < 65536 → 0 < clkIncrement s.clk →
    ∃ t, exec .backgroundWindowOpen s = .next t ∧ t.clk.winOpen = true ∧ t.clk.winDone = true ∧ obj s 0x2102 3 ≤ phaseOf t ∧
      exec .backgroundWindowOpen t = .next t) ∧
  (∀ s : State, s.clk.winOpen = true → obj s 0x2102 3 ≤ obj s 0x2102 4 → s.clk.acc < 2 ^ 48 → obj s 0x2102 4 < 65536 →
    0 < clkIncrement s.clk →
    ∃ t, exec (.backgroundWindowClose []) s = .next t ∧ t.clk.winOpen = false ∧ obj s 0x2102 4 ≤ phaseOf t ∧
      exec (.backgroundWindowClose []) t = .next t) ∧
  (∀ s : State, s.clk.st ≠ .unlocked → s.clk.slots < s.clk.layers → s.clk.acc < 2 ^ 48 → 0 < clkIncrement s.clk →
    ∃ t, exec .layerPrefetchEvent s = .next t ∧ t.clk.slots = s.clk.slots + 1 ∧ slotPhase s s.clk.slots ≤ phaseOf t) ∧
  (∀ s : State, s.clk.layers ≤ s.clk.slots → exec .layerPrefetchEvent s = .next s) ∧
  (∀ s : State, s.clk.deadlineDone = false → s.clk.acc < 2 ^ 48 → obj s 0x2102 5 < 65536 → 0 < clkIncrement s.clk →
    ∃ t, exec .checkpointCopyDeadline s = .next t ∧ t.clk.deadlineDone = true ∧ obj s 0x2102 5 ≤ phaseOf t ∧
      exec .checkpointCopyDeadline t = .next t)

/-! ## Queue pairs and descriptors -/

/-- SQTAIL, CQHEAD: an accepted tail or head is taken and clears bad; a tail on a pair that is not ACTIVE, at or beyond the queue's
size or past the limit of R644, and a head on a pair that is neither ACTIVE nor in REINIT, at or beyond the queue's size or past an
entry that has not been written, are ignored and set bad (R644, R646, R647). -/
def Obligations.DoorbellsMove : Prop :=
  (∀ (s : State) (w : Win) (v : BitVec 32) (q : Nat),
    Inv s → winQp s w = some q → (qpOf s q).st = .active → fld v 9 0 < sqSize (qpOf s q) →
    sqCount (qpOf s q) + (fld v 9 0 + sqSize (qpOf s q) - (qpOf s q).tail) % sqSize (qpOf s q) ≤ sqSize (qpOf s q) - 1 →
    ∃ t, exec (.sqtail w v) s = .next t ∧ (qpOf t q).tail = fld v 9 0 ∧ (qpOf t q).sqBad = false ∧
      (qpOf t q).rd = (qpOf s q).rd ∧ (qpOf t q).sq = (qpOf s q).sq) ∧
  (∀ (s : State) (w : Win) (v : BitVec 32) (q : Nat),
    Inv s → winQp s w = some q →
    ((qpOf s q).st ≠ .active ∨ sqSize (qpOf s q) ≤ fld v 9 0 ∨
      sqSize (qpOf s q) - 1 < sqCount (qpOf s q) + (fld v 9 0 + sqSize (qpOf s q) - (qpOf s q).tail) % sqSize (qpOf s q)) →
    ∃ t, exec (.sqtail w v) s = .next t ∧ (qpOf t q).tail = (qpOf s q).tail ∧ (qpOf t q).sqBad = true) ∧
  (∀ (s : State) (w : Win) (v : BitVec 32) (q n : Nat),
    Inv s → winQp s w = some q → ((qpOf s q).st = .active ∨ (qpOf s q).st = .reinit) → fld v 11 0 < cqSize (qpOf s q) →
    n = (fld v 11 0 + cqSize (qpOf s q) - (qpOf s q).consumed % cqSize (qpOf s q)) % cqSize (qpOf s q) →
    (∀ i, i < n → (qpOf s q).consumed + i ∈ (qpOf s q).done) →
    ∃ t, exec (.cqhead w v) s = .next t ∧ (qpOf t q).consumed = (qpOf s q).consumed + n ∧ (qpOf t q).cqBad = false ∧
      (qpOf t q).cq = (qpOf s q).cq) ∧
  (∀ (s : State) (w : Win) (v : BitVec 32) (q : Nat),
    Inv s → winQp s w = some q →
    (((qpOf s q).st ≠ .active ∧ (qpOf s q).st ≠ .reinit) ∨ cqSize (qpOf s q) ≤ fld v 11 0 ∨
      ∃ i, i < (fld v 11 0 + cqSize (qpOf s q) - (qpOf s q).consumed % cqSize (qpOf s q)) % cqSize (qpOf s q) ∧
        (qpOf s q).consumed + i ∉ (qpOf s q).done) →
    ∃ t, exec (.cqhead w v) s = .next t ∧ (qpOf t q).consumed = (qpOf s q).consumed ∧ (qpOf t q).cqBad = true)

/-- DESCRIPTOR_READ, UNSUPPORTED: the scheduler reads the head descriptor of the pair whose turn it is, moves the read index
past it and reserves one completion entry; one with an unknown opcode completes with 0x51, detail 0 and result fields 0 in
that entry, and nothing else of it is in flight (R121, R125, R403). -/
def Obligations.HeadDescriptorsAreRead : Prop :=
  (∀ (s : State) (die : Fin 2) (q : Nat),
    Inv s → pickQp (markStarved s) die.val = some q →
    ∃ t, exec (.descriptorRead die) s = .next t ∧ (qpOf t q).rd = ((qpOf s q).rd + 1) % sqSize (qpOf s q) ∧
      (qpOf t q).reserved = (qpOf s q).reserved + 1 ∧ (qpOf t q).seq = (qpOf s q).seq + 1) ∧
  (∀ (s : State) (q : Fin 1024),
    Inv s → readsQueues s = true → headReady (qpOf s q.val) = true →
    placeFree s (qpOf s q.val).tenant (qpDie q.val) = true →
    opKnown (dOpcode (tget 0 (qpOf s q.val).sq (qpOf s q.val).rd)) = false →
    (tenantOf s (qpOf s q.val).tenant).st ≠ .removing → (∀ f ∈ s.attn.flights, f.id < s.attn.nextId) →
    ∃ t, exec (.unsupported q) s = .next t ∧ t.attn.flights = s.attn.flights ∧
      (qpOf t q.val).rd = ((qpOf s q.val).rd + 1) % sqSize (qpOf s q.val) ∧
      (qpOf t q.val).done = (qpOf s q.val).done ++ [(qpOf s q.val).reserved] ∧
      ((qpOf t q.val).cq.find? fun p => p.1 == (qpOf s q.val).reserved % cqSize (qpOf s q.val)) =
        some ((qpOf s q.val).reserved % cqSize (qpOf s q.val),
          cqWord 0 0 (((qpOf s q.val).rd + 1) % sqSize (qpOf s q.val)) (dTag (tget 0 (qpOf s q.val).sq (qpOf s q.val).rd)) 0 0x51
            (dOpcode (tget 0 (qpOf s q.val).sq (qpOf s q.val).rd)) (cqPhase (qpOf s q.val).reserved (cqSize (qpOf s q.val)))))

/-- QPCFG_ENABLE, QPCFG_REINIT, REINIT_DONE: a configuration that passes the checks makes the pair ACTIVE with empty queues,
one that does not reads REFUSED with its reason; a write of reinit or of enable = 0 to an ACTIVE pair enters REINIT and drops
what has not been read; a pair in REINIT with nothing left ends ACTIVE, or DISABLED after enable = 0 (R387 to R389). -/
def Obligations.QueuePairsAreConfigured : Prop :=
  (∀ (s : State) (v : BitVec 64) (q : Nat),
    Inv s → winQp s .steward = some q → ((qpOf s q).st = .disabled ∨ (qpOf s q).st = .refused) → fld v 63 63 = 1 →
    s.pwr.dev = .ready → qpReason s q (qpFields v (qpOf s q)) = 0 →
    ∃ t, exec (.qpcfgEnable .steward v) s = .next t ∧ (qpOf t q).st = .active ∧ (qpOf t q).tenant = fld v 61 56 ∧
      (qpOf t q).sqLog = fld v 47 44 ∧ (qpOf t q).cqLog = fld v 43 40 ∧ (qpOf t q).sq = [] ∧ (qpOf t q).cq = [] ∧
      (qpOf t q).rd = 0 ∧ (qpOf t q).tail = 0 ∧ (qpOf t q).reserved = 0 ∧ (qpOf t q).consumed = 0) ∧
  (∀ (s : State) (v : BitVec 64) (q : Nat),
    Inv s → winQp s .steward = some q → ((qpOf s q).st = .disabled ∨ (qpOf s q).st = .refused) → fld v 63 63 = 1 →
    s.pwr.dev = .ready → qpReason s q (qpFields v (qpOf s q)) ≠ 0 →
    ∃ t, exec (.qpcfgEnable .steward v) s = .next t ∧ (qpOf t q).st = .refused ∧
      (qpOf t q).reason = qpReason s q (qpFields v (qpOf s q)) ∧ (qpOf t q).enable = false) ∧
  (∀ (s : State) (v : BitVec 64) (q : Nat),
    Inv s → winQp s .steward = some q → (qpOf s q).st = .active → (fld v 63 63 = 0 ∨ fld v 0 0 = 1) →
    ∃ t, exec (.qpcfgReinit .steward v) s = .next t ∧ (qpOf t q).st = .reinit ∧ (qpOf t q).tail = (qpOf s q).rd ∧
      (qpOf t q).rd = (qpOf s q).rd ∧ (qpOf t q).toDisabled = (fld v 63 63 == 0)) ∧
  (∀ (s : State) (q : Fin 1024),
    Inv s → (qpOf s q.val).st = .reinit → (∀ f ∈ s.attn.flights, f.qp ≠ q.val) →
    (qpOf s q.val).reserved = (qpOf s q.val).consumed →
    ∃ t, exec (.reinitDone q) s = .next t ∧
      (qpOf t q.val).st = (if (qpOf s q.val).toDisabled then .disabled else .active) ∧ (qpOf t q.val).cq = [] ∧
      (qpOf t q.val).rd = 0 ∧ (qpOf t q.val).tail = 0 ∧ (qpOf t q.val).reserved = 0 ∧ (qpOf t q.val).consumed = 0)

/-- INTERRUPT_COALESCE_TIMER, QUEUE_SAMPLE, RESET_SAMPLE_RECORD: coal_time after the first counted entry the interrupt is
raised toward the pair's owner (a kind-6 bypass message on its KAF port, an MSI-X vector on its CXL port, or the steward) and its count
restarts; after the interval of 7200:01 every ACTIVE pair has one sample more; and a write of 7200:02
resets one record or all of them (R390, R539, R542). -/
def Obligations.InterruptsAndSamples : Prop :=
  (∀ (s : State) (q : Fin 1024) (c : Nat),
    Inv s → (qpOf s q.val).irqAt = some c → (qpOf s q.val).coalTime ≠ 0 →
    ∃ t, exec (.interruptCoalesceTimer q) s = .next t ∧ (qpOf t q.val).irqCount = 0 ∧ (qpOf t q.val).irqAt = none ∧
      c + 2000 * (qpOf s q.val).coalTime ≤ t.time.cycle ∧
      ((qpOf s q.val).bindKind = 4 → t.out = s.out ++ [.stewardIrq (qpOf s q.val).irqVec]) ∧
      ((qpOf s q.val).bindKind = 2 → obj s 0x5200 ((qpOf s q.val).bindPort + 1) / 2 ^ 28 % 16 = 2 →
        t.out = s.out ++ [.msix (qpOf s q.val).bindPort (qpOf s q.val).irqVec]) ∧
      ((qpOf s q.val).bindKind = 1 → linkUp s (qpOf s q.val).bindPort = true →
        t.out = s.out ++ [.bypass (qpOf s q.val).bindPort (BitVec.ofNat 256 (0x60 + (qpOf s q.val).irqVec * 2 ^ 8))])) ∧
  (∀ s : State,
    Inv s → Tbl.Rising s.led.samples →
    ∃ t, exec .queueSample s = .next t ∧ s.led.sampledAt + 2 * obj s 0x7200 1 ≤ t.time.cycle ∧
      t.led.sampledAt = t.time.cycle ∧ t.led.qps = s.led.qps ∧
      ∀ q, (tget ({} : Sample) t.led.samples q).samples =
        if (qpOf s q).st = .active then ((tget ({} : Sample) s.led.samples q).samples + 1) % 2 ^ 64 else (tget ({} : Sample) s.led.samples q).samples) ∧
  (∀ (s : State) (v : BitVec 16),
    answering s = true → v = 0xFFFF →
    exec (.resetSampleRecord v) s = .next (s.setLed fun l => { l with samples := [] })) ∧
  (∀ (s : State) (v : BitVec 16),
    answering s = true → v.toNat < 1024 →
    exec (.resetSampleRecord v) s = .next (s.setLed fun l => { l with samples := tput ({} : Sample) l.samples v.toNat {} })) ∧
  (∀ (s : State) (v : BitVec 16),
    answering s = true → 1024 ≤ v.toNat → v ≠ 0xFFFF →
    ∃ t, exec (.resetSampleRecord v) s = .next t ∧ t.led = s.led)

/-! ## Descriptors, attention cores -/

/-- APPEND, FORK, TRIM, SUMMARIZE on a context of one device, where the device has not stepped down in its twin pair, the checks
pass and nothing fails: the tables of contexts, pages and frames are those of the effect (but for frames drawn ahead, which go back
to their slabs), an APPEND's bytes of memory too, and the descriptor is answered, with 0x10 if it was held, with the new length,
the prefix, or the number of pages rebuilt as result1, and the effect's result2 (R147, R151, R155, R159, R162, R405). -/
def Obligations.DescriptorsChangeContexts : Prop :=
  (∀ (s s1 s2 : State) (d : Nat) (f g : Flight) (bs : List Byte) (ps : List (Nat × Nat)),
    dispatchable s d 2 = some f → Tbl.Rising s1.led.qps → flightOf s1 d = some g →
    fetchBlock f (pSrc f.desc) (srcBytes f.desc (ctxOf s (dCtx f.desc))) (setFlight f s) = (.got 0 bs ps, s1) →
    s2 = noteDispatch f (setFlight { f with input := bs, t1r := f.t1r + t1Bytes ps }
      (tenantCount f.tenant 1 (t1Bytes ps) (notePieces 0xFF f.tenant ps s1))) →
    ctxGone s1 f = none → appendCheck s1 f.desc = none → ctxGone s2 f = none → spanMask s2 (dCtx f.desc) = 0 → steppedDown s1 = false →
    (appendEff f.desc bs s2).code = 0 →
    ∃ t, exec (.append d) s = .next t ∧ { t.kv with slabs := (appendEff f.desc bs s2).s.kv.slabs } = (appendEff f.desc bs s2).s.kv ∧ t.mem.bytes = (appendEff f.desc bs s2).s.mem.bytes ∧
      Answered t f (if f.held then 0x10 else 0) 0 (((ctxOf s2 (dCtx f.desc)).length + pTokens f.desc) % 2 ^ 32)
        ((appendEff f.desc bs s2).r2 % 2 ^ 32)) ∧
  (∀ (s : State) (d : Nat) (f : Flight),
    Inv s → dispatchable s d 3 = some f → ctxGone s f = none → spanMask s (dCtx f.desc) = 0 → steppedDown s = false →
    (forkEff f.desc (noteDispatch f s)).code = 0 →
    ∃ t, exec (.fork d) s = .next t ∧ { t.kv with slabs := (forkEff f.desc (noteDispatch f s)).s.kv.slabs } = (forkEff f.desc (noteDispatch f s)).s.kv ∧
      Answered t f (if f.held then 0x10 else 0) 0 (fPrefix f.desc % 2 ^ 32) ((forkEff f.desc (noteDispatch f s)).r2 % 2 ^ 32)) ∧
  (∀ (s : State) (d : Nat) (f : Flight),
    Inv s → dispatchable s d 4 = some f → ctxGone s f = none → spanMask s (dCtx f.desc) = 0 → steppedDown s = false →
    (trimEff f.desc (noteDispatch f s)).code = 0 → (flightOf (trimEff f.desc (noteDispatch f s)).s d).map (fun g => { g with passed := true }) = some f →
    Tbl.Rising (trimEff f.desc (noteDispatch f s)).s.led.qps →
    ∃ t, exec (.trim d) s = .next t ∧ { t.kv with slabs := (trimEff f.desc (noteDispatch f s)).s.kv.slabs } = (trimEff f.desc (noteDispatch f s)).s.kv ∧
      Answered t f (if f.held then 0x10 else 0) 0 (tLen f.desc % 2 ^ 32) ((trimEff f.desc (noteDispatch f s)).r2 % 2 ^ 32)) ∧
  (∀ (s : State) (d : Nat) (f : Flight),
    Inv s → dispatchable s d 5 = some f → ctxGone s f = none → spanMask s (dCtx f.desc) = 0 → steppedDown s = false →
    (summarizeEff f.desc (noteDispatch f s)).code = 0 →
    ∃ t, exec (.summarize d) s = .next t ∧ { t.kv with slabs := (summarizeEff f.desc (noteDispatch f s)).s.kv.slabs } = (summarizeEff f.desc (noteDispatch f s)).s.kv ∧
      Answered t f (if f.held then 0x10 else 0) 0 ((summarizeEff f.desc (noteDispatch f s)).r1 % 2 ^ 32) 0)

/-- PREFETCH, PIN, EVICT: on a context of one device the descriptor runs, takes the pages of its range layer by layer, lets the
moves they asked for begin, and is answered once no move that names it is left, with the pages taken and skipped as its results,
and 0x10 if it was held; a page that PIN takes within the tenant's limit is pinned or released (R156 to R160, R165, R229, R405). -/
def Obligations.RangeDescriptorsTakePages : Prop :=
  (∀ (s : State) (d : Nat) (f : Flight),
    dispatchable s d 6 = some f → ctxGone s f = none → spanMask s (dCtx f.desc) = 0 →
    exec (.prefetch d) s = .next (finishRange d (runMoves
      ((rangePages s f.desc).foldl (prefetchPage f) (setFlight { f with stage := .running } (noteDispatch f s)))))) ∧
  (∀ (s : State) (d : Nat) (f : Flight),
    dispatchable s d 7 = some f → ctxGone s f = none → spanMask s (dCtx f.desc) = 0 →
    exec (.pin d) s = .next (finishRange d (runMoves
      ((rangePages s f.desc).foldl (pinPage f) (setFlight { f with stage := .running } (noteDispatch f s)))))) ∧
  (∀ (s : State) (d : Nat) (f : Flight),
    dispatchable s d 8 = some f → ctxGone s f = none → spanMask s (dCtx f.desc) = 0 →
    exec (.evict d) s = .next (finishRange d (runMoves
      ((rangePages s f.desc).foldl (evictPage f) (setFlight { f with stage := .running } (noteDispatch f s)))))) ∧
  (∀ (s : State) (f g : Flight) (l p : Nat) (v : Page),
    pageOf s (dCtx f.desc) l p = some v → flightOf s f.id = some g → g.codes.contains (0x12, 4) = false → v.pinned ≠ rOpt f.desc →
    (rOpt f.desc = true → (tenantOf s f.tenant).pinned < obj s (0x3001 + 16 * f.tenant) 6) →
    pageOf (pinPage f s (l, p)) (dCtx f.desc) l p = some { v with pinned := rOpt f.desc }) ∧
  (∀ (s : State) (f : Flight),
    Inv s → flightOf s f.id = some f → f.qp < 1024 → f.stage = .running → 5 ≤ dOpcode f.desc → f.members = [] →
    (∀ m ∈ s.kv.moves, m.descs.contains f.id = false) → (∀ c ∈ f.codes, c.1 = 0) → spanMask s (dCtx f.desc) = 0 →
    steppedDown s = false →
    Answered (finishRange f.id s) f (if f.held then 0x10 else 0) 0 (f.r1 % 2 ^ 32) (f.r2 % 2 ^ 32))

/-- ATTEND, COMPACT: once the input block has been read and checked, or the context's stripe has places, the descriptor runs and
every core of the stripe gets one work item behind its others; a core outside it gets none (R69, R71, R72, R161, R198). -/
def Obligations.StripesGetWork : Prop :=
  (∀ (s s1 s2 : State) (d : Nat) (f : Flight) (bs : List Byte) (ps : List (Nat × Nat)),
    dispatchable s d 1 = some f → placesFree s (stripeCores s (ctxOf s (dCtx f.desc))) = true →
    fetchBlock (holdEnd s.time.cycle f) (aIn f.desc) (inBytes f.desc (ctxOf s (dCtx f.desc)))
      (setFlight (holdEnd s.time.cycle f) s) = (.got 0 bs ps, s1) →
    ctxGone s1 f = none → attendLimits f.desc (ctxOf s (dCtx f.desc)) = true →
    inputCheck { d := f.desc, x := ctxOf s1 (dCtx f.desc), n := (ctxOf s (dCtx f.desc)).length, input := bs } = none →
    revokedPage s1 (dCtx f.desc) (dLayer f.desc) = false →
    s2 = noteDispatch f (tenantCount f.tenant 1 (t1Bytes ps) (notePieces 0xFF f.tenant ps s1)) → spanMask s2 (dCtx f.desc) = 0 →
    stripeCores s1 (ctxOf s (dCtx f.desc)) ≠ [] →
    ctxOf s1 (dCtx f.desc) = ctxOf s (dCtx f.desc) → Tbl.Rising s1.attn.cores → (flightOf s1 d).isSome →
    ∃ t, exec (.attend d) s = .next t ∧
      (∃ h, flightOf t d = some h ∧ h.stage = .running ∧ h.input = bs ∧ h.cores = stripeCores s1 (ctxOf s (dCtx f.desc))) ∧
      (∀ c ∈ stripeCores s1 (ctxOf s (dCtx f.desc)), ∃ w : Work, w.desc = d ∧ w.compact = false ∧
        coreOf t c = { coreOf s1 c with queue := (coreOf s1 c).queue ++ [w] }) ∧
      (∀ c, c ∉ stripeCores s1 (ctxOf s (dCtx f.desc)) → coreOf t c = coreOf s1 c)) ∧
  (∀ (s : State) (d : Nat) (f : Flight),
    Inv s → dispatchable s d 9 = some f → ctxGone s f = none → spanMask s (dCtx f.desc) = 0 →
    stripeCores s (ctxOf s (dCtx f.desc)) ≠ [] → placesFree s (stripeCores s (ctxOf s (dCtx f.desc))) = true →
    (∃ lp v, lp ∈ rangePages s f.desc ∧ pageOf s (dCtx f.desc) lp.1 lp.2 = some v ∧ compactTakes s f.desc v = true) →
    ∃ t, exec (.compact d) s = .next t ∧
      (∃ h, flightOf t d = some h ∧ h.stage = .running ∧ h.left = stripeCores s (ctxOf s (dCtx f.desc))) ∧
      (∀ c ∈ stripeCores s (ctxOf s (dCtx f.desc)), ∃ w : Work, w.desc = d ∧ w.compact = true ∧
        coreOf t c = { coreOf s c with queue := (coreOf s c).queue ++ [w] }) ∧
      (∀ c, c ∉ stripeCores s (ctxOf s (dCtx f.desc)) → coreOf t c = coreOf s c))

/-- ATTEND_DEADLINE, ADMISSION_HOLD_LIMIT: an ATTEND whose deadline passes, not pushing and with no output formed in that cycle, is
answered 0x41 with detail 1, and no core keeps work of it; a descriptor held to the limit is answered 0x11 at its toll and 0x12
otherwise, or 0x41 with detail 1 where its deadline is that cycle too; a starved head is read without a place; a request held to
the limit is refused with 0x11; an arrival of that cycle that is waited for wins. The clock stands at the deadline or the limit,
or later (R26, R139, R163, R405, R406, R535). The first clause is stated for the case in which no COMPACT waits to swap a page. -/
def Obligations.DeadlinesAndHoldsEnd : Prop :=
  (∀ (s : State) (d : Nat) (f : Flight),
    Inv s → flightOf s d = some f → f.qp < 1024 → dOpcode f.desc = 1 → aDeadline f.desc ≠ 0 → f.stage ≠ .pushing →
    steppedDown s = false → arrivalWins (f.readAt + usCycles (aDeadline f.desc)) (· == .outputFormed d) s = false →
    (∀ c w, (coreOf s c).work = some w → w.fresh = none) →
    ∃ t, exec (.attendDeadline d) s = .next t ∧ Answered t f 0x41 1 0 0 ∧ f.readAt + usCycles (aDeadline f.desc) ≤ t.time.cycle ∧
      ∀ c w, (coreOf t c).work = some w → w.desc ≠ d) ∧
  (∀ (s : State) (d : Nat) (f : Flight),
    flightOf s d = some f → f.qp < 1024 → dOpcode f.desc = 1 → aDeadline f.desc ≠ 0 → f.stage ≠ .pushing →
    arrivalWins (f.readAt + usCycles (aDeadline f.desc)) (· == .outputFormed d) s = true →
    exec (.attendDeadline d) s = .next (carryTo (f.readAt + usCycles (aDeadline f.desc)) s)) ∧
  (∀ (s : State) (q : Fin 1024) (d c due : Nat) (f : Flight),
    Inv s → flightOf s d = some f → f.qp < 1024 → f.heldAt = some c → due = c + (holdLimit s f.tenant - f.heldFor) →
    steppedDown s = false → (f.forToll = true → arrivalWins due (releasesFrom f.tenant) s = false) →
    (dOpcode f.desc ≠ 1 ∨ aDeadline f.desc = 0 ∨ f.readAt + usCycles (aDeadline f.desc) ≠ due) →
    ∃ t, exec (.admissionHoldLimit q (some d)) s = .next t ∧
      Answered t f (if f.forToll then 0x11 else 0x12) 0 (if dOpcode f.desc = 2 then lengthSeen s f % 2 ^ 32 else 0) 0 ∧
      due ≤ t.time.cycle) ∧
  (∀ (s : State) (q : Fin 1024) (d c due : Nat) (f : Flight),
    Inv s → flightOf s d = some f → f.qp < 1024 → f.heldAt = some c → due = c + (holdLimit s f.tenant - f.heldFor) →
    steppedDown s = false → (f.forToll = true → arrivalWins due (releasesFrom f.tenant) s = false) →
    dOpcode f.desc = 1 → aDeadline f.desc ≠ 0 → f.readAt + usCycles (aDeadline f.desc) = due →
    ∃ t, exec (.admissionHoldLimit q (some d)) s = .next t ∧ Answered t f 0x41 1 0 0 ∧ due ≤ t.time.cycle) ∧
  (∀ (s : State) (q : Fin 1024) (c : Nat),
    Inv s → (qpOf s q.val).starved = true → (qpOf s q.val).starvedAt = some c →
    ∃ t, exec (.admissionHoldLimit q none) s = .next t ∧ (qpOf t q.val).rd = ((qpOf s q.val).rd + 1) % sqSize (qpOf s q.val) ∧
      (qpOf t q.val).reserved = (qpOf s q.val).reserved + 1 ∧ c + holdLimit s (qpOf s q.val).tenant ≤ t.time.cycle) ∧
  (∀ (s : State) (q : Fin 1024) (d : Nat) (r : Req),
    flightOf s d = none → reqOf s d = some r → r.stage = .tolled → r.tenant < 64 → (r.src < 0x10 ∨ 0x14 ≤ r.src) →
    arrivalWins (r.since + holdLimit s r.tenant) (fun i => r.tolls.all fun k => releasesFrom k i) s = false →
    exec (.admissionHoldLimit q (some d)) s =
      .next (answerFail r 0x11 (tollLeave d (carryTo (r.since + holdLimit s r.tenant) s))))

/-- WORK_ITEM_START, T1_GRANULE_READY, SUMMARY_PASS_END, CERTIFIED_CHECK: an idle core takes its next work item, which begins with
the summary pass, or with the stream in the full mode, or with the pages of a COMPACT; a read that returns is counted to the work
item, and a page of a COMPACT is converted once its reads are back; the summary pass gives each head its threshold and the first
stream begins; and after a stream the core is free, or, certified, runs one round more (R67, R71, R73 to R78, R81, R82). -/
def Obligations.CoresRunWork : Prop :=
  (∀ (s : State) (c : Fin 20) (w : Work) (l : List Work),
    Inv s → (coreOf s c.val).work = none → (coreOf s c.val).queue = w :: l → (coreOf s c.val).st = .inService →
    (w.compact = true ∨ swapWaits s w.ctx = false) →
    ∃ t v, exec (.workItemStart c) s = .next t ∧ (coreOf t c.val).queue = l ∧ (coreOf t c.val).work = some v ∧ v.desc = w.desc ∧
      v.phase = (if w.compact then .compact else if ((flightOf s w.desc).map fun f => aMode f.desc).getD 0 = 0 then .stream else .summary) ∧
      ∀ e, e ≠ c.val → coreOf t e = coreOf s e) ∧
  (∀ (s : State) (c : Fin 20) (w : Work) (i : Nat) (g : Granule) (f : Finding),
    Inv s → (coreOf s c.val).work = some w → w.compact = false → (outstanding w)[i]? = some g →
    ∃ t v, exec (.t1GranuleReady c i f) s = .next t ∧ (coreOf t c.val).work = some v ∧ v.desc = w.desc ∧ v.phase = w.phase ∧
      v.bytes = w.bytes + g.len ∧ ∀ e, e ≠ c.val → coreOf t e = coreOf s e) ∧
  (∀ (s : State) (c : Fin 20) (w v : Work) (i : Nat) (g : Granule) (f : Finding),
    Inv s → (coreOf s c.val).work = some w → w.compact = true → (outstanding w)[i]? = some g →
    (coreOf (granuleBack c.val (coreOf s c.val) w i f s) c.val).work = some v → nextIn v = none → drained v = false →
    ∃ t u, exec (.t1GranuleReady c i f) s = .next t ∧ (coreOf t c.val).work = some u ∧ u.desc = w.desc ∧
      u.bytes = w.bytes + g.len ∧ ∀ e, e ≠ c.val → coreOf t e = coreOf s e) ∧
  (∀ (s : State) (c : Fin 20) (w v : Work) (x : Tile) (i : Nat) (f : Finding),
    (coreOf s c.val).work = some w → (coreOf (granuleBack c.val (coreOf s c.val) w i f s) c.val).work = some v →
    v.compact = true → v.fresh = none → nextIn v = some x →
    exec (.t1GranuleReady c i f) s =
      .next (compactIdle c.val (compactPage c.val v x (granuleBack c.val (coreOf s c.val) w i f s)))) ∧
  (∀ (s : State) (c : Fin 20) (w : Work) (f : Flight),
    Inv s → (coreOf s c.val).work = some w → w.phase = .summary → drained w = true → w.thrWas = [] → flightOf s w.desc = some f →
    ∃ t v, exec (.summaryPassEnd c) s = .next t ∧ (coreOf t c.val).work = some v ∧ v.phase = .stream ∧ v.desc = w.desc ∧
      v.round = 1 ∧ v.thr.length = ctxHeads (ctxOf s (dCtx f.desc)) ∧ v.rows = w.rows) ∧
  (∀ (s : State) (c : Fin 20) (w : Work) (f : Flight),
    Inv s → (coreOf s c.val).work = some w → w.phase = .summary → drained w = true → w.thrWas ≠ [] → flightOf s w.desc = some f →
    ∃ t v, exec (.summaryPassEnd c) s = .next t ∧ (coreOf t c.val).work = some v ∧ v.phase = .stream ∧ v.desc = w.desc ∧
      v.round = w.round ∧ v.thr = w.thr ∧ v.rows = w.rows) ∧
  (∀ (s : State) (c : Fin 20) (w : Work) (f : Flight),
    Inv s → (coreOf s c.val).work = some w → w.phase = .stream → w.compact = false → drained w = true → w.fresh = none →
    flightOf s w.desc = some f →
    ∃ t, exec (.certifiedCheck c) s = .next t ∧ (coreOf t c.val).queue = (coreOf s c.val).queue ∧
      ((coreOf t c.val).work = none ∨
        (aMode f.desc ≠ 0 ∧ aMode f.desc ≠ 1 ∧ ∃ v, (coreOf t c.val).work = some v ∧ v.desc = w.desc ∧ v.round = w.round + 1))) ∧
  (∀ (s : State) (c : Fin 20) (w : Work),
    Inv s → (coreOf s c.val).work = some w → w.compact = true → drained w = true → w.fresh = none →
    ∃ t, exec (.certifiedCheck c) s = .next t ∧ (coreOf t c.val).work = none ∧ (coreOf t c.val).queue = (coreOf s c.val).queue)

/-- PARTIAL_ARRIVAL, OUTPUT_FORMED, PUSH_ACK: the oldest partial waiting in a die's counting house is merged into what the die has,
and the die expects one less; a die that is not the home die and expects none more passes its result on; a sum above FP32 ends the
ATTEND with 0x41, detail 2; an output that is pushed waits for one acknowledgement for each 4 KiB; one written to pool memory of
this device, and a push whose last acknowledgement arrives, answer the ATTEND with its results; an acknowledgement that tells of a
failure answers it with that code, or with 0x20 (the model's choice, log entry 104) where the code is none of a block's, and
detail 1 (R83, R84, R102, R132, R137, R139, R165, R166). -/
def Obligations.PartialsBecomeOutput : Prop :=
  (∀ (s : State) (die : Fin 2) (d : Nat) (f : Flight) (p : Nat × List Row) (rows : List Row),
    flightOf s d = some f → f.parts.find? (fun p => p.1 == die.val) = some p → Tbl.Rising f.merged → Tbl.Rising f.due →
    mergeRows (tget [] f.merged die.val) p.2 = (rows, none) →
    (tget 0 f.due die.val ≠ 1 ∨ die.val = (ctxOf s (dCtx f.desc)).home) → 0 < tget 0 f.due die.val →
    ∃ t g, exec (.partialArrival die d) s = .next t ∧ flightOf t d = some g ∧ g.parts = f.parts.erase p ∧
      tget [] g.merged die.val = rows ∧ tget 0 g.due die.val + 1 = tget 0 f.due die.val) ∧
  (∀ (s : State) (die : Fin 2) (d : Nat) (f : Flight) (p : Nat × List Row) (rows : List Row),
    flightOf s d = some f → f.parts.find? (fun p => p.1 == die.val) = some p → tget 0 f.due die.val = 1 →
    mergeRows (tget [] f.merged die.val) p.2 = (rows, none) → die.val ≠ (ctxOf s (dCtx f.desc)).home →
    ∃ t g, exec (.partialArrival die d) s = .next t ∧ flightOf t d = some g ∧
      g.parts = f.parts.erase p ++ [((ctxOf s (dCtx f.desc)).home, rows)]) ∧
  (∀ (s : State) (die : Fin 2) (d r : Nat) (f : Flight) (p : Nat × List Row) (rows : List Row),
    Inv s → flightOf s d = some f → f.qp < 1024 → dOpcode f.desc = 1 → f.parts.find? (fun p => p.1 == die.val) = some p →
    mergeRows (tget [] f.merged die.val) p.2 = (rows, some r) → f.left = [] → f.members = [] → f.codes = [] →
    steppedDown s = false →
    ∃ t, exec (.partialArrival die d) s = .next t ∧ Answered t f 0x41 2 0 0) ∧
  (∀ (s : State) (d n : Nat) (f : Flight),
    flightOf s d = some f → f.stage = .running → f.qp < 1024 → dOpcode f.desc = 1 → allMerged f = true → f.members = [] →
    tget [] f.merged (ctxOf s (dCtx f.desc)).home ≠ [] → aPush f.desc = true → linkUp s (qpOf s f.qp).bindPort = true →
    n = (chunksOf 4096 ((outBlock f.desc (tget [] f.merged (ctxOf s (dCtx f.desc)).home)).length + 1)
      (outBlock f.desc (tget [] f.merged (ctxOf s (dCtx f.desc)).home))).length → 0 < n →
    ∃ t g, exec (.outputFormed d) s = .next t ∧ flightOf t d = some g ∧ g.stage = .pushing ∧ g.acks = n ∧
      g.r2 = attendResult2 f ∧ (aMode f.desc = 0 → g.r1 = 0)) ∧
  (∀ (s s1 s2 s2' s3 s4 : State) (d : Nat) (f : Flight) (ps : List (Nat × Nat)),
    flightOf s d = some f → f.stage = .running → f.qp < 1024 → dOpcode f.desc = 1 → allMerged f = true → f.members = [] →
    tget [] f.merged (ctxOf s (dCtx f.desc)).home ≠ [] → aPush f.desc = false →
    blockWait (flightDie f) (dPasid f.desc) (aOut f.desc) (outBytes f.desc (ctxOf s (dCtx f.desc))) true
      (setFlight { f with stage := .output } s) = (false, s1) →
    translateBlock (flightDie f) (dPasid f.desc) (aOut f.desc) (outBytes f.desc (ctxOf s (dCtx f.desc))) true s1 = (.ok ps, s2) →
    (∀ p ∈ ps, p.1 / 2 ^ 52 = ownIndex s2) →
    cacheWait ((flightOf s2 d).getD { f with stage := .output }) ps s2 = (false, s2') → cacheReady ps true s2' = some s3 →
    writePieces (dPasid f.desc) ps (ownBytes s3 ps (outBlock f.desc (tget [] f.merged (ctxOf s (dCtx f.desc)).home))) s3 = (0, s4) →
    ownIndex (tenantCount f.tenant 2 (t1Bytes ps) s4) = ownIndex s2 → Tbl.Rising s4.led.qps → (flightOf s4 d).isSome →
    steppedDown s4 = false → aMode f.desc = 0 →
    ∃ t, exec (.outputFormed d) s = .next t ∧ t.mem.bytes = s4.mem.bytes ∧
      Answered t f (if f.held then 0x10 else 0) 0 0 (attendResult2 f % 2 ^ 32)) ∧
  (∀ (s : State) (d : Nat) (f : Flight),
    flightOf s d = some f → f.qp ≥ 1024 → f.stage = .running → dOpcode f.desc = 1 → allMerged f = true →
    tget [] f.merged (ctxOf s (dCtx f.desc)).home ≠ [] →
    exec (.outputFormed d) s = .next (sendPartial f (tget [] f.merged (ctxOf s (dCtx f.desc)).home) s)) ∧
  (∀ (s : State) (p : Fin 8) (m : KafMsg) (f : Flight),
    Inv s → (s.attn.flights.find? fun f => f.stage == .pushing && f.id % 2 ^ 15 == m.tag && (qpOf s f.qp).bindPort == p.val) = some f →
    flightOf s f.id = some f → f.qp < 1024 → (m.code = 0 ∨ m.code = 0x10) → f.acks ≤ 1 → steppedDown s = false →
    ∃ t, exec (.pushAck p m) s = .next t ∧
      Answered t f (if f.held then 0x10 else 0) 0 (f.r1 % 2 ^ 32) (f.r2 % 2 ^ 32)) ∧
  (∀ (s : State) (p : Fin 8) (m : KafMsg) (f : Flight),
    Inv s → (s.attn.flights.find? fun f => f.stage == .pushing && f.id % 2 ^ 15 == m.tag && (qpOf s f.qp).bindPort == p.val) = some f →
    flightOf s f.id = some f → f.qp < 1024 → dOpcode f.desc = 1 → m.code ≠ 0 → m.code ≠ 0x10 → steppedDown s = false →
    ∃ t, exec (.pushAck p m) s = .next t ∧ Answered t f (if m.code ∈ blockCodes then m.code else 0x20) 1 0 0) ∧
  (∀ (s : State) (p : Fin 8) (m : KafMsg) (f : Flight),
    (s.attn.flights.find? fun f => f.stage == .pushing && f.id % 2 ^ 15 == m.tag && (qpOf s f.qp).bindPort == p.val) = some f →
    (m.code = 0 ∨ m.code = 0x10) → 1 < f.acks →
    exec (.pushAck p m) s = .next (setFlight { f with acks := f.acks - 1 } s))

/-- CHECK_TILE, CORE_WATCHDOG, CORE_SRAM_UNCORRECTABLE, QUADRANT_ATTACHMENT_FAIL, FENCE_CORE: a core is fenced with the reason of its
event, its fence counted and its work abandoned; after the watchdog, which a core that waits for a read or a page does not run
out of and which a tile that ends in that cycle holds off, the reads it had outstanding are left to drain; a check tile with the
expected digest ends the check and fences nothing (R26, R243 to R247, R256). -/
def Obligations.CoresAreFenced : Prop :=
  (∀ (s : State) (c : Fin 20),
    Inv s → (coreOf s c.val).st = .inService → (coreOf s c.val).work = none → (coreOf s c.val).checkDue = true → s.clk.winOpen = true →
    exec (.checkTile c true) s = .next (setCore c.val { coreOf s c.val with checkDue := false } s)) ∧
  (∀ (s : State) (c : Fin 20),
    Inv s → (coreOf s c.val).st = .inService → (coreOf s c.val).work = none → (coreOf s c.val).checkDue = true → s.clk.winOpen = true →
    ∃ t, exec (.checkTile c false) s = .next t ∧ (coreOf t c.val).st = .fencing ∧ (coreOf t c.val).reason = 2 ∧
      (coreOf t c.val).count = min 255 ((coreOf s c.val).count + 1) ∧ (coreOf t c.val).work = none ∧ (coreOf t c.val).queue = []) ∧
  (∀ (s : State) (c : Fin 20) (w : Work),
    Inv s → (coreOf s c.val).st = .inService → (coreOf s c.val).work = some w →
    waiting w = false → arrivalWins (w.tick + usCycles (obj s 0x9001 6)) (endsTile c) s = false →
    ∃ t, exec (.coreWatchdog c) s = .next t ∧ (coreOf t c.val).st = .fencing ∧ (coreOf t c.val).reason = 4 ∧
      (coreOf t c.val).count = min 255 ((coreOf s c.val).count + 1) ∧ (coreOf t c.val).work = none ∧ (coreOf t c.val).queue = [] ∧
      (coreOf t c.val).draining = (outstanding w).map (fun g => (g.addr, g.len)) ∧ w.tick + usCycles (obj s 0x9001 6) ≤ t.time.cycle) ∧
  (∀ (s : State) (c : Fin 20) (w : Work),
    (coreOf s c.val).st = .inService → (coreOf s c.val).work = some w → waiting w = true → exec (.coreWatchdog c) s = .next s) ∧
  (∀ (s : State) (c : Fin 20) (w : Work),
    (coreOf s c.val).st = .inService → (coreOf s c.val).work = some w → waiting w = false →
    arrivalWins (w.tick + usCycles (obj s 0x9001 6)) (endsTile c) s = true →
    exec (.coreWatchdog c) s = .next (carryTo (w.tick + usCycles (obj s 0x9001 6)) s)) ∧
  (∀ (s : State) (c : Fin 20),
    Inv s → (coreOf s c.val).st = .inService →
    ∃ t, exec (.coreSramUncorrectable c) s = .next t ∧ (coreOf t c.val).st = .fencing ∧ (coreOf t c.val).reason = 3 ∧
      (coreOf t c.val).count = min 255 ((coreOf s c.val).count + 1) ∧ (coreOf t c.val).work = none ∧ (coreOf t c.val).queue = []) ∧
  (∀ (s : State) (q : Fin 4),
    Inv s →
    ∃ t, exec (.quadrantAttachmentFail q) s = .next t ∧
      ∀ i, i < 5 → ((coreOf s (5 * q.val + i)).st = .inService ∨ (coreOf s (5 * q.val + i)).st = .testing) →
        (coreOf t (5 * q.val + i)).st = .fencing ∧ (coreOf t (5 * q.val + i)).reason = 5 ∧
        (coreOf t (5 * q.val + i)).count = min 255 ((coreOf s (5 * q.val + i)).count + 1) ∧
        (coreOf t (5 * q.val + i)).work = none ∧ (coreOf t (5 * q.val + i)).queue = []) ∧
  (∀ (s : State) (p : Prin) (v : BitVec 8),
    Inv s → v.toNat < 20 → (coreOf s v.toNat).st = .inService → mayTouch p 0x9001 1 = true → answering s = true →
    ∃ t, exec (.fenceCore p v) s = .next t ∧ (coreOf t v.toNat).st = .fencing ∧ (coreOf t v.toNat).reason = 6 ∧
      (coreOf t v.toNat).count = min 255 ((coreOf s v.toNat).count + 1) ∧ (coreOf t v.toNat).work = none ∧
      (coreOf t v.toNat).queue = [])

/-- FENCE_READS_DRAINED, RETURN_CORE, CORE_TEST_END: a fenced core whose reads have returned reads FENCED, or HELD once its fences
reach 9001:05; a FENCED core with a reason other than 5 that is returned goes to its tests; a core that passes them waits for
the next step boundary, and one that fails them is fenced again with reason 1 (R247, R254 to R256). -/
def Obligations.FencedCoresReturn : Prop :=
  (∀ (s : State) (c : Fin 20),
    Inv s → (coreOf s c.val).st = .fencing →
    ∃ t, exec (.fenceReadsDrained c) s = .next t ∧
      (coreOf t c.val).st = (if obj s 0x9001 5 ≤ (coreOf s c.val).count then .held else .fenced) ∧
      (coreOf t c.val).reason = (if (coreOf s c.val).quad then 5 else (coreOf s c.val).reason) ∧
      (coreOf t c.val).count = (coreOf s c.val).count ∧ (coreOf t c.val).draining = [] ∧
      ∀ e, e ≠ c.val → coreOf t e = coreOf s e) ∧
  (∀ (s : State) (p : Prin) (v : BitVec 8),
    Inv s → v.toNat < 20 → (coreOf s v.toNat).st = .fenced → (coreOf s v.toNat).reason ≠ 5 → mayTouch p 0x9001 2 = true →
    answering s = true →
    ∃ t, exec (.returnCore p v) s = .next t ∧ coreOf t v.toNat = { coreOf s v.toNat with st := .testing } ∧
      ∀ e, e ≠ v.toNat → coreOf t e = coreOf s e) ∧
  (∀ (s : State) (c : Fin 20),
    Inv s → (coreOf s c.val).st = .testing → (coreOf s c.val).entering = false →
    exec (.coreTestEnd c true) s = .next (setCore c.val { coreOf s c.val with entering := true } s)) ∧
  (∀ (s : State) (c : Fin 20),
    Inv s → (coreOf s c.val).st = .testing → (coreOf s c.val).entering = false →
    ∃ t, exec (.coreTestEnd c false) s = .next t ∧ (coreOf t c.val).reason = 1 ∧
      (coreOf t c.val).count = min 255 ((coreOf s c.val).count + 1) ∧
      (coreOf t c.val).st = (if obj s 0x9001 5 ≤ (coreOf t c.val).count then .held else .fenced))

/-! ## Contexts, pages, tiers -/

/-- CTX_OPEN, OPEN_END, CTX_CLOSE, RELEASE_WALK_END, TIERHINT, on a device that is no LEAD and no FOLLOW (a LEAD only queues
OPEN and CLOSE for its pair, last clause but one): an OPEN is judged at once and ends OPEN with length 0, or FREE with its status; a CLOSE
makes an OPEN entry CLOSING without hints; a release walk makes it FREE with the fields that describe it kept; and a hint
replaces the ranges it overlaps, or is counted as dropped (R171 to R173, R219, R220, R595, R641, R642). -/
def Obligations.ContextsOpenAndClose : Prop :=
  (∀ s : State, s.win.ctxBusy = false → s.span.twin ≠ .lead → s.span.twin ≠ .follow → openStatus s (ctxOf s s.win.ctxSel) = 0 →
    ∃ t, exec .ctxOpen s = .next t ∧ t.win.ctxBusy = true ∧ t.win.ctxStatus = 0 ∧ t.win.ctxLast = s.win.ctxSel ∧
      t.kv.opening = some (s.win.ctxSel, s.time.cycle) ∧ t.kv.ctxs = s.kv.ctxs) ∧
  (∀ s : State, s.win.ctxBusy = false → s.span.twin ≠ .lead → s.span.twin ≠ .follow → openStatus s (ctxOf s s.win.ctxSel) ≠ 0 →
    ∃ t, exec .ctxOpen s = .next t ∧ t.win.ctxBusy = false ∧ t.win.ctxStatus = openStatus s (ctxOf s s.win.ctxSel) ∧ t.kv = s.kv) ∧
  (∀ s : State, s.win.ctxBusy = true → exec .ctxOpen s = .next s ∧ exec .ctxClose s = .next s) ∧
  (∀ (s u : State) (c n a b : Nat),
    Inv s → s.kv.opening = some (c, n) → (tenantOf s (ctxOf s c).tenant).st = .active →
    openDirs (ctxOf s c) (s.setKv fun k => { k with opening := none }) = some (a, b, u) →
    ∃ t, exec .openEnd s = .next t ∧ (ctxOf t c).st = .open ∧ (ctxOf t c).length = 0 ∧ (ctxOf t c).family = c ∧
      (ctxOf t c).dirAddr = a ∧ (ctxOf t c).liveAddr = b ∧ t.win.ctxBusy = false ∧ t.win.ctxStatus = 0) ∧
  (∀ (s : State) (c n : Nat),
    s.kv.opening = some (c, n) → (tenantOf s (ctxOf s c).tenant).st ≠ .active →
    ∃ t, exec .openEnd s = .next t ∧ t.kv.ctxs = s.kv.ctxs ∧ t.win.ctxBusy = false ∧ t.win.ctxStatus = 4) ∧
  (∀ s : State, Inv s → s.win.ctxBusy = false → s.span.twin ≠ .lead → s.span.twin ≠ .follow → (ctxOf s s.win.ctxSel).st = .open →
    ∃ t, exec .ctxClose s = .next t ∧ ctxOf t s.win.ctxSel = { ctxOf s s.win.ctxSel with st := .closing, hints := [] }) ∧
  (∀ (s : State) (c : Fin 4096),
    Inv s → (ctxOf s c.val).st = .closing → ctxBusy s c.val = false →
    ∃ t, exec (.releaseWalkEnd c) s = .next t ∧ (ctxOf t c.val).st = .free ∧ (ctxOf t c.val).length = 0 ∧
      (ctxOf t c.val).tenant = (ctxOf s c.val).tenant ∧ (ctxOf t c.val).stripe = (ctxOf s c.val).stripe ∧
      (ctxOf t c.val).fmt = (ctxOf s c.val).fmt ∧ (ctxOf t c.val).dirAddr = 0) ∧
  (∀ s : State, s.win.ctxBusy = false → s.span.twin = .lead → openStatus s (ctxOf s s.win.ctxSel) = 0 →
    ∃ t, exec .ctxOpen s = .next t ∧ t.kv = s.kv ∧ t.win = s.win ∧ t.span.mirror = s.span.mirror ++ [(2, .ctx false s.win.ctxSel)]) ∧
  (∀ (s : State) (w : Win) (v : BitVec 64) (q : Nat),
    Inv s → winQp s w = some q → (ctxOf s (hintCtx v)).st = .open → (ctxOf s (hintCtx v)).tenant = (qpOf s q).tenant →
    hintReserved v = false → hintKind v ≠ 3 → hintFirst v + hintPages v ≤ 262143 →
    ∃ t, exec (.tierhint w v) s = .next t ∧
      (∀ h ∈ (ctxOf t (hintCtx v)).hints, (h ∈ (ctxOf s (hintCtx v)).hints ∧ (h.2.1 < hintFirst v ∨ hintFirst v + hintPages v < h.1)) ∨
        (hintKind v ≠ 0 ∧ h = (hintFirst v, hintFirst v + hintPages v, hintKind v == 1))) ∧
      (hintKind v ≠ 0 → (hintFirst v, hintFirst v + hintPages v, hintKind v == 1) ∈ (ctxOf t (hintCtx v)).hints))

/-- FRAME_DRAIN_END, RESIDENCY_FAULT, MOVE_COMPLETE, AUTOMATIC_DEMOTION, T3_BUDGET_REFILL: a frame or a copy whose last holder has
ended goes back; a core that stands at a tile that is not resident has a record of it, and the moves asked for begin; a move whose copy was read
well is finished, and a promotion to T1 writes the copy into its place and the frame has it; below the low watermark victims are
raised until the high one is reached, and above it nothing happens; and time passes until a namespace's budget covers the first
move that waits for it, when the moves go on (R128, R208 to R211,
R216, R222, R223, R231). -/
def Obligations.FramesMove : Prop :=
  (∀ (s : State) (i : Nat) (d : Drain),
    s.kv.drains[i]? = some d → (∀ h ∈ d.holders, flightOf s h = none) →
    exec (.frameDrainEnd i) s = .next (if d.frame = 0 then giveBack d.addr d.size (s.setKv fun k => { k with drains := k.drains.eraseIdx i })
      else freeFrame d.frame (s.setKv fun k => { k with drains := k.drains.eraseIdx i }))) ∧
  (∀ (s : State) (c : Fin 20) (w : Work) (x : Tile),
    (coreOf s c.val).work = some w → (w.toIssue.find? fun t => !isDraft t) = some x → w.phase ≠ .summary →
    entryAt s w x = none →
    exec (.residencyFault c) s = .next (runMoves ((w.toIssue.take 32).foldl (faultTile c.val w) s))) ∧
  (∀ (s : State) (c : Nat) (w : Work) (x : Tile),
    isDraft x = false → (frameOf s x.frame).bind (·.t1) = none →
    (∃ r ∈ (faultTile c w s x).xl.queue ++ (faultTile c w s x).xl.holding, r.source = c)) ∧
  (∀ (s u : State) (id : Nat) (f : Finding) (m : Move) (v : Frame),
    s.kv.moves.find? (fun m => m.id == id && m.started) = some m → frameOf s m.frame = some v →
    u = noteCopy 0x40 v v.size (meet (topCopy v).2 f s) →
    (if (topCopy v).1 = 1 then readCode u (topCopy v).2 v.size else (copyCode u v v.size).1) = 0 →
    exec (.moveComplete id f) s = .next (runMoves (residencyDone (finishMove m v u)))) ∧
  (∀ (s : State) (m : Move) (v : Frame),
    m.up = true → m.target = 1 → moveIdle m v s = false →
    frameOf (finishMove m v s) m.frame = some { v with t1 := some m.dest } ∧
      (finishMove m v s).mem.bytes = mwrite s.mem.bytes (m.dest * 4096) (mread s.mem.bytes (topCopy v).2 v.size)) ∧
  (∀ (s : State) (t : Fin 64),
    kvFree s t.val * 100 < obj s 0x4300 1 * kvBytes s t.val →
    exec (.automaticDemotion t) s = .next (demoteUntil t.val s.kv.frames.length [] s)) ∧
  (∀ (s : State) (t : Fin 64),
    obj s 0x4300 1 * kvBytes s t.val ≤ kvFree s t.val * 100 → exec (.automaticDemotion t) s = .next s) ∧
  (∀ (s : State) (n : Fin 64) (m : Move) (l : List Move),
    ((readyMoves s).filter fun m => !m.up && m.target == 3) = m :: l → nsBudget s n.val ≠ 0 →
    (((frameOf s m.frame).map (·.size)).getD 4096) * 7200000000000 ≤ nsDepth s n.val →
    (tget ({} : Tray) s.kv.nss n.val).tokensAt ≤ s.time.cycle →
    ∃ u, exec (.t3BudgetRefill n) s = .next (runMoves u) ∧ u.kv = s.kv ∧ u.mem = s.mem ∧ u.time.cycle = s.time.cycle +
        ceilDiv ((((frameOf s m.frame).map (·.size)).getD 4096) * 7200000000000 - (nsNow s n.val).tokens) (nsBudget s n.val * 1000000000) ∧
      (((frameOf s m.frame).map (·.size)).getD 4096) * 7200000000000 ≤ (nsNow u n.val).tokens)

/-- TIER_CACHE_MISS, TRAY_RECORD_ACTIVATE, TRAY_FAIL, for trays and for NVMe namespaces: a block read from T3 is put into its cache, and
the descriptors and requests that wait for it go on; an active record that fits is taken active where its tray is good and failed
where it is not; a tray that fails reads failed and is no longer found (R234, R236, R237, R239). The record's layout is log entry
21's. -/
def Obligations.TraysAndBlocks : Prop :=
  (∀ (s : State) (b : Nat),
    blockWaiters b s = [] → blockFlights b (nvmeDrop (fun c => c.block == some b) s) = [] →
    exec (.tierCacheMiss b) s = .next (nvmeDrop (fun c => c.block == some b) s)) ∧
  (∀ (s u v : State) (b : Nat),
    v = nvmeDrop (fun c => c.block == some b) s → (blockWaiters b s ≠ [] ∨ blockFlights b v ≠ []) →
    cachePlace v (cacheOf s (b * 65536)) b = none → cacheFill (cacheOf s (b * 65536)) b v = some u →
    exec (.tierCacheMiss b) s = .next ((blockWaiters b s).foldl (fun s r => serveLocal r s)
      ((blockFlights b v).foldl (fun s f => setFlight { f with blocks := f.blocks.map fun l => l.erase b } s) u))) ∧
  (∀ (s : State) (p : Prin) (t3 : Bool) (n : Fin 64) (rec : List Byte) (ok : Bool),
    answering s = true → mayTouch p (if t3 then 0x4210 else 0x4200) (n.val + 1) = true → rec.length = 16 → (trayRec t3 rec).2 = 1 →
    (tget ({} : Tray) (if t3 then s.kv.nss else s.kv.trays) n.val).active = false → trayFits s t3 n.val (trayRec t3 rec).1 = true →
    Tbl.Rising (if t3 then s.kv.nss else s.kv.trays) →
    ∃ t v, exec (.trayRecordActivate p t3 n rec ok) s = .next t ∧ tget ({} : Tray) (if t3 then t.kv.nss else t.kv.trays) n.val = v ∧
      v.active = ok ∧ v.failed = !ok ∧ v.present = ok ∧ v.port = (trayRec t3 rec).1.port ∧ v.base = (trayRec t3 rec).1.base ∧
      v.size = (trayRec t3 rec).1.size) ∧
  (∀ (s : State) (t3 : Bool) (n : Fin 64),
    (tget ({} : Tray) (if t3 then s.kv.nss else s.kv.trays) n.val).active = true → Tbl.Rising (if t3 then s.kv.nss else s.kv.trays) →
    ∃ (u : State) (l : List Move) (v : Tray), exec (.trayFail t3 n) s = .next (runMoves (l.foldl (fun s m => failMove m 0x31 4 s) u)) ∧
      tget ({} : Tray) (if t3 then u.kv.nss else u.kv.trays) n.val = v ∧ v.failed = true ∧ v.present = false ∧
      ∀ f ∈ u.ports.found, f ≠ if t3 then 64 + n.val else n.val)

/-! ## HBM -/

/-- PATCTL, PATTERN_OP_DONE, STACK_TEMPERATURE_CHANGE, RETRAIN_GROUP, RETRAIN_CONTROLLER: the sequencer of a controller's die starts an
operation that R271 allows, and one that it does not allow ends done with every segment failed; while one runs a write stores its
fields and starts nothing; an operation that ends reports what it compared; a temperature is taken, with double-rate refresh above
85 °C until 80 °C; a window that opens retrains a serving controller whose temperature has drifted beyond 4010:02; a group is done
in an open window, and after the last the controllers are trained at their temperature; a write of 4010:01 asks for one controller
or for all (R265, R266, R271, R272, R285 to R287, R289). -/
def Obligations.ControllersTrain : Prop :=
  (∀ (s : State) (i : Fin 5) (v : BitVec 64) (c : Nat),
    Inv s → c = tget 0 s.win.hbmSel i.val → i ≠ 0 → c < 24 → c / 6 + 1 = i.val → (ctlOf s c).patBusy = false → fld v 63 63 = 1 →
    ∃ t, exec (.patctl i v) s = .next t ∧ (ctlOf t c).patctl = v.toNat % 2 ^ 63 / 1024 * 1024 ∧
      (patAllowed s (ctlOf s c) v = true → (ctlOf t c).patBusy = true ∧ (ctlOf t c).cmpRes % 2 = 0) ∧
      (patAllowed s (ctlOf s c) v = false → (ctlOf t c).patBusy = false ∧ (ctlOf t c).cmpRes = 0xFFFF * 2 ^ 12 + 1)) ∧
  (∀ (s : State) (i : Fin 5) (v : BitVec 64) (c : Nat),
    Inv s → c = tget 0 s.win.hbmSel i.val → i ≠ 0 → c < 24 → c / 6 + 1 = i.val → (ctlOf s c).patBusy = true →
    ∃ t, exec (.patctl i v) s = .next t ∧ ctlOf t c = { ctlOf s c with patctl := v.toNat % 2 ^ 63 / 1024 * 1024 }) ∧
  (∀ (s : State) (c : Fin 24) (r : BitVec 64) (l : BitVec 36),
    Inv s → (ctlOf s c.val).patBusy = true → bitsOf (ctlOf s c.val).patRun 59 58 ≠ 0 →
    ∃ t, exec (.patternOpDone c r l) s = .next t ∧ (ctlOf t c.val).patBusy = false ∧
      (ctlOf t c.val).cmpRes = r.toNat / 4096 * 4096 + 1 ∧ (ctlOf t c.val).cmpLane = l.toNat) ∧
  (∀ (s : State) (c : Fin 24) (n : Nat),
    Inv s →
    ∃ t, exec (.stackTemperatureChange c n) s = .next t ∧ (ctlOf t c.val).temp = n ∧
      (ctlOf t c.val).hot = (if 85 < n then true else if n ≤ 80 then false else (ctlOf s c.val).hot)) ∧
  (∀ (s : State) (c : Nat),
    Inv s → c < 24 → s.hbm.groups = 0 → hbmServes (ctlOf s c) = true →
    obj s 0x4010 2 < max (ctlOf s c).temp (ctlOf s c).trainTemp - min (ctlOf s c).temp (ctlOf s c).trainTemp →
    (ctlOf (retrainOpen false s) c).retraining = true ∧ (retrainOpen false s).hbm.groups = 16) ∧
  (∀ (s : State) (bad : List (Fin 24 × Nat)),
    Inv s → s.hbm.groups ≠ 0 → s.clk.winOpen = true →
    ∃ t, exec (.retrainGroup bad) s = .next t ∧ t.hbm.groups + 1 = s.hbm.groups ∧
      (s.hbm.groups = 1 → ∀ c, c < 24 → (ctlOf s c).retraining = true →
        (ctlOf t c).retraining = false ∧ (ctlOf t c).trainTemp = (ctlOf s c).temp)) ∧
  (∀ (s : State) (p : Prin) (v : BitVec 8),
    Inv s → answering s = true → mayTouch p 0x4010 1 = true →
    ∃ t, exec (.retrainController p v) s = .next t ∧
      ∀ c, c < 24 → (ctlOf t c).askRetrain = ((ctlOf s c).askRetrain || c == v.toNat || v.toNat == 255))

/-- REFRESH_DUE, TARGETED_REFRESH, THROTTLE_INTERVAL_END, SELF_REFRESH_ENTRY, SELF_REFRESH_EXIT: a refresh falls due at the end
of the bank's interval and is issued with every one postponed, or postponed while fewer than 8 are, and the refresh that ends a
sweep clears the bank's tracker; a row whose count has reached 4020:01 has its neighbours refreshed, its count returns to 0, and
its requester takes a credit; at the end of an interval, a whole millisecond of truss time, the credits are gone; a controller idle for 4030:01 enters self-refresh and leaves
it with its trackers cleared (R272 to R277, R279 to R281). -/
def Obligations.ControllersRefresh : Prop :=
  (∀ (s : State) (c : Fin 24) (pc bank : Fin 64),
    Inv s → hbmServes (ctlOf s c.val) = true → Tbl.Rising (ctlOf s c.val).postponed → Tbl.Rising (ctlOf s c.val).swept →
    Tbl.Rising (ctlOf s c.val).rows →
    ∃ t, exec (.refreshDue c pc bank true) s = .next t ∧ tget 0 (ctlOf t c.val).postponed (pc.val * 64 + bank.val) = 0 ∧
      (tget 0 (ctlOf s c.val).dueAt (pc.val * 64 + bank.val) ≠ 0 →
        tget 0 (ctlOf s c.val).dueAt (pc.val * 64 + bank.val) + refreshCycles (ctlOf s c.val) ≤ t.time.cycle) ∧
      (2048 ≤ tget 0 (ctlOf s c.val).swept (pc.val * 64 + bank.val) + tget 0 (ctlOf s c.val).postponed (pc.val * 64 + bank.val) + 1 →
        tget [] (ctlOf t c.val).rows (pc.val * 64 + bank.val) = []) ∧
      tget 0 (ctlOf t c.val).swept (pc.val * 64 + bank.val) =
        (tget 0 (ctlOf s c.val).swept (pc.val * 64 + bank.val) + tget 0 (ctlOf s c.val).postponed (pc.val * 64 + bank.val) + 1) % 2048) ∧
  (∀ (s : State) (c : Fin 24) (pc bank : Fin 64),
    Inv s → hbmServes (ctlOf s c.val) = true → Tbl.Rising (ctlOf s c.val).postponed →
    tget 0 (ctlOf s c.val).postponed (pc.val * 64 + bank.val) < 8 →
    ∃ t, exec (.refreshDue c pc bank false) s = .next t ∧
      tget 0 (ctlOf t c.val).postponed (pc.val * 64 + bank.val) = tget 0 (ctlOf s c.val).postponed (pc.val * 64 + bank.val) + 1 ∧
      (ctlOf t c.val).swept = (ctlOf s c.val).swept) ∧
  (∀ (s : State) (c : Fin 24) (pc bank : Fin 64) (row : Fin 16384) (tag source : BitVec 8) (e : RowCount),
    Inv s → hbmServes (ctlOf s c.val) = true → Tbl.Rising (ctlOf s c.val).rows → Tbl.Rising (ctlOf s c.val).credits →
    (tget [] (ctlOf s c.val).rows (pc.val * 64 + bank.val)).find? (fun e => e.row == row.val && decide (obj s 0x4020 1 ≤ e.count)) = some e →
    ∃ t, exec (.targetedRefresh c pc bank row tag source) s = .next t ∧ obj t 0x4020 5 = (obj s 0x4020 5 + 1) % 2 ^ 64 ∧
      (ctlOf t c.val).targeted = (pc.val * 64 + bank.val, rowsBeside row.val) ∧
      (∀ x ∈ tget [] (ctlOf t c.val).rows (pc.val * 64 + bank.val), x.row = row.val → x.count = 0) ∧
      ((ctlOf s c.val).credits.length < 8 →
        tget 0 (ctlOf t c.val).credits (rowBlame e (tag.toNat * 256 + source.toNat)) =
          tget 0 (ctlOf s c.val).credits (rowBlame e (tag.toNat * 256 + source.toNat)) + 1)) ∧
  (∀ s : State,
    Inv s →
    ∃ t, exec .throttleIntervalEnd s = .next t ∧ t.time.cycle = (s.time.cycle / 2000000 + 1) * 2000000 ∧
      ∀ c, c < 24 → (ctlOf t c).credits = []) ∧
  (∀ (s : State) (c : Fin 24),
    Inv s → obj s 0x4030 1 ≠ 0 → hbmServes (ctlOf s c.val) = true → (ctlOf s c.val).retraining = false →
    ∃ t, exec (.selfRefreshEntry c) s = .next t ∧ (ctlOf t c.val).selfRefresh = true ∧
      obj t 0x4030 3 = (obj s 0x4030 3 + 1) % 2 ^ 32 ∧ (ctlOf s c.val).lastUse + usCycles (obj s 0x4030 1) ≤ t.time.cycle) ∧
  (∀ (s : State) (c : Fin 24),
    Inv s → (ctlOf s c.val).selfRefresh = true →
    ∃ t, exec (.selfRefreshExit c) s = .next t ∧ (ctlOf t c.val).selfRefresh = false ∧ (ctlOf t c.val).rows = [])

/-- PATROL_SCRUB_READ, IMMEDIATE_SCRUB, STEWARD_READ_INDEX, RETIRE_GRANULE, RETIRE_BANK, MAC_REGION_PLACE: the scrubber takes the
next line of a controller's pass while no line is queued, or the oldest queued one; a line it cannot correct is poisoned with the owner's tag and current
epoch; the read index of the log moves within what has been written; granules and banks join their lists; a MAC region is
placed where it fits and none of the tier's blocks is in use (R295, R296, R301 to R303, R309, R311). -/
def Obligations.MemoryIsScrubbedAndRetired : Prop :=
  (∀ (s : State) (c : Fin 24) (f : Finding),
    Inv s → scrubs s c.val = true → tget [] s.mem.scrubQ c.val = [] → tget 0 s.mem.patrol c.val + 1 < patrolLines → Tbl.Rising s.mem.patrol →
    ∃ t, exec (.patrolScrubRead c f) s = .next t ∧ tget 0 t.mem.patrol c.val = tget 0 s.mem.patrol c.val + 1) ∧
  (∀ (s : State) (c : Fin 24) (n : Nat),
    Inv s → scrubs s c.val = true → tget [] s.mem.scrubQ c.val = [] → tget 0 s.mem.patrol c.val + 1 < patrolLines → Tbl.Rising s.mem.lines →
    ∃ t, exec (.patrolScrubRead c (.uncorrectable n)) s = .next t ∧
      lineOf t (patrolLine c.val (tget 0 s.mem.patrol c.val)) =
        { tag := (extOf s (patrolLine c.val (tget 0 s.mem.patrol c.val) / 2 ^ 24)).owner
          epoch := curEpoch s (extOf s (patrolLine c.val (tget 0 s.mem.patrol c.val) / 2 ^ 24)).owner
          poison := true, hint := 0, cond := .clean }) ∧
  (∀ (s : State) (c : Fin 24) (f : Finding) (x : Nat) (l : List Nat),
    tget [] s.mem.scrubQ c.val = x :: l → scrubs s c.val = true →
    exec (.immediateScrub c f) s = .next (scrubLine x f (s.setMem fun m => { m with scrubQ := tput [] m.scrubQ c.val l }))) ∧
  (∀ (s : State) (v : BitVec 32),
    answering s = true → (s.mem.logWr + 2 ^ 32 - v.toNat) % 2 ^ 32 ≤ 4096 → s.mem.logGap = 0 →
    ∃ t, exec (.stewardReadIndex v) s = .next t ∧ t.mem = { s.mem with logRd := v.toNat }) ∧
  (∀ (s : State) (v : BitVec 32),
    answering s = true → 4096 < (s.mem.logWr + 2 ^ 32 - v.toNat) % 2 ^ 32 →
    ∃ t, exec (.stewardReadIndex v) s = .next t ∧ t.mem = s.mem ∧ obj t 0x1022 1 = (obj s 0x1022 1 + 1) % 2 ^ 32) ∧
  (∀ (s : State) (v : BitVec 64),
    answering s = true → v.toNat < 402653184 → v.toNat ∉ s.mem.retired → s.mem.retired.length < 65536 →
    exec (.retireGranule v) s = .next (s.setMem fun m => { m with retired := m.retired ++ [v.toNat] })) ∧
  (∀ (s : State) (v : BitVec 32),
    answering s = true → bankCodeOk v.toNat = true → v.toNat ∉ s.mem.retiredBanks → s.mem.retiredBanks.length < 64 →
    exec (.retireBank v) s = .next (s.setMem fun m => { m with retiredBanks := m.retiredBanks ++ [v.toNat] })) ∧
  (∀ (s : State) (sub : BitVec 8) (v tier b n : Nat),
    answering s = true → 1 ≤ sub.toNat → sub.toNat ≤ 6 → tier = (sub.toNat + 1) / 2 → macUsed s tier = [] →
    (b, n) = (if sub.toNat % 2 = 1 then (v, (macRegion s tier).2) else ((macRegion s tier).1, v)) →
    macFits (macMark tier (macRegion s tier).1 (macRegion s tier).2 false s) tier b n = true →
    ∃ t, exec (.macRegionPlace sub v) s = .next t ∧ obj t 0x4041 sub.toNat = v)

/-! ## Coherence -/

/-- RD_SHARED, RD_OWN, UPGRADE, RD_UNCACHED, WR_UNCACHED, EVICT_CLEAN, BLK_RD, BLK_WR, CXL_MEM_RD, CXL_MEM_RD_DATA,
CXL_MEM_INV, CXL_MEM_CLN_EVCT, CXL_MEM_WR: a request that nothing holds and that passes its checks is carried out at once and
answered, and the device keeps nothing of it. A line that nobody holds is granted: X to a KAF requester, and to a CXL requester
but for MemRd with MetaValue Shared, which leaves it S; data come from memory. EC removes the requester from the line and, where
the directory does not name it, changes no entry (R341). An uncached read answers the bytes, an uncached write stores them
(R329, R331, R341, R469). -/
def Obligations.RequestsAreAnswered : Prop :=
  (∀ (s : State) (i : Instr) (r : Req) (line a : Nat) (u : State)
      (p : Fin 13) (m : KafMsg) (c : Fin 4) (tag : Nat) (ad : BitVec 57) (mv : BitVec 2),
    i ∈ [Instr.rdShared p m, .rdOwn p m, .upgrade p m, .cxlMemRd c tag ad mv, .cxlMemRdData c tag ad] →
    askedBy s i = some r → Seen s r (line * 64) u → r.agent = some a → r.cls = .rs ∨ r.cls = .ro ∨ r.cls = .up → r.op ≠ 0x102 →
    cohMode s (line * 64) = 1 → LineFree s line → dirOf s line = dirI → memCode u (line * 64) 64 = 0 →
    ∃ t, exec i s = .next t ∧ reqOf t r.id = none ∧ t.mem.bytes = s.mem.bytes ∧
      dirOf t line = (if 13 ≤ r.src ∧ r.op = 0x100 ∧ r.cls = .rs then { st := 1, keeper := 15, holders := 2 ^ a, used := s.time.cycle }
        else { st := 3, keeper := a, holders := 2 ^ a, used := s.time.cycle }) ∧
      dataOut r (if 13 ≤ r.src ∧ r.op = 0x100 ∧ r.cls = .rs then 1 else 3) (mread s.mem.bytes (line * 64) 64) ∈ t.out) ∧
  (∀ (s : State) (i : Instr) (r : Req) (line a : Nat) (u : State)
      (c : Fin 4) (tag : Nat) (ad : BitVec 57) (mv : BitVec 2),
    i ∈ [Instr.cxlMemInv c tag ad mv] →
    askedBy s i = some r → Seen s r (line * 64) u → r.agent = some a → r.cls = .up → r.op = 0x102 →
    cohMode s (line * 64) = 1 → LineFree s line → dirOf s line = dirI →
    ∃ t, exec i s = .next t ∧ reqOf t r.id = none ∧ t.mem.bytes = s.mem.bytes ∧
      dirOf t line = { st := 3, keeper := a, holders := 2 ^ a, used := s.time.cycle } ∧ doneOut r 3 ∈ t.out) ∧
  (∀ (s : State) (i : Instr) (r : Req) (line a : Nat) (u : State)
      (p : Fin 13) (m : KafMsg) (c : Fin 4) (tag : Nat) (ad : BitVec 57) (mv : BitVec 2),
    i ∈ [Instr.evictClean p m, .cxlMemInv c tag ad mv, .cxlMemClnEvct c tag ad] →
    askedBy s i = some r → Seen s r (line * 64) u → r.agent = some a → r.cls = .ec → cohMode s (line * 64) = 1 → LineFree s line →
    ∃ t, exec i s = .next t ∧ reqOf t r.id = none ∧ t.mem.bytes = s.mem.bytes ∧ doneOut r 0 ∈ t.out ∧
      (∀ l, l ≠ line → dirOf t l = dirOf s l) ∧ bitAt (dirOf t line).holders a = false ∧
      (bitAt (dirOf s line).holders a = false → (dirOf s line).keeper ≠ a → dirOf s line = dirI ∨ (dirOf s line).holders ≠ 0 ∧ (dirOf s line).st ≠ 0 →
        dirOf t line = dirOf s line)) ∧
  (∀ (s : State) (i : Instr) (r : Req) (x : Nat) (u : State)
      (p : Fin 13) (m : KafMsg) (c : Fin 4) (tag : Nat) (ad : BitVec 57) (mv : BitVec 2),
    i ∈ [Instr.rdUncached p m, .blkRd p m, .cxlMemRd c tag ad mv] →
    askedBy s i = some r → Seen s r x u → r.cls = .ur → r.len ≠ 0 → cohMode s x = 0 → memCode u x r.len = 0 →
    ∃ t, exec i s = .next t ∧ reqOf t r.id = none ∧ t.mem.bytes = s.mem.bytes ∧ t.coh.dir = s.coh.dir ∧
      dataOut r 0 (mread s.mem.bytes x r.len) ∈ t.out) ∧
  (∀ (s : State) (i : Instr) (r : Req) (x : Nat) (u : State)
      (p : Fin 13) (m : KafMsg) (c : Fin 4) (tag : Nat) (ad : BitVec 57) (mask : BitVec 64) (data : List Byte) (poison : Bool),
    i ∈ [Instr.wrUncached p m, .blkWr p m, .cxlMemWr c tag ad mask data poison] →
    askedBy s i = some r → Seen s r x u → r.cls = .uw → r.len = r.data.length → cohMode s x = 0 → writeCode u r [(x, r.len)] = 0 →
    ∃ t, exec i s = .next t ∧ reqOf t r.id = none ∧ t.coh.dir = s.coh.dir ∧ doneOut r 0 ∈ t.out ∧
      t.mem.bytes = mwriteMask s.mem.bytes x (writeMask r r.data.length % 2 ^ r.len) r.data)

/-- SNOOP_RESPONSE, BI_SNOOP_RESPONSE, RSP_COPY, RSP_WB_PEND, FWD_ACK, FORWARDED_DATA, LINE_LOCK_ACQUIRE: a response ends its
snoop, takes the agent from the line where it gave the line up, and writes the dirty data it brings; a copy leaves S; a
pending writeback is waited for; forwarded data go on to the requester, whose acknowledgement ends that wait; the oldest request
that waits for a free line goes on (R330, R333 to R336, R340, R342, R346). -/
def Obligations.SnoopsAreAnswered : Prop :=
  (∀ (s : State) (port : Fin 13) (m : KafMsg) (t : Txn) (q q' : Snoop),
    port.val < 8 → agentUp s port.val = true → sunk s = false → m.op = 0x27 ∨ m.op = 0x2E → s.coh.txns = [t] → t.snoops = [q, q'] →
    q = { line := rspLine m, agent := port.val, op := snpInv, sent := q.sent } → q.sent ≠ none → q'.agent ≠ port.val → t.why ≠ .recall true →
    Tbl.Rising s.coh.dir →
    ∃ u, exec (.snoopResponse port m) s = .next u ∧ u.coh.txns = [{ t with snoops := [q'] }] ∧
      bitAt (dirOf u (rspLine m)).holders port.val = false ∧
      u.mem.bytes = (if m.op = 0x2E then mwriteMask s.mem.bytes (rspLine m * 64) (2 ^ 64 - 1) m.data else s.mem.bytes)) ∧
  (∀ (s : State) (port : Fin 4) (a : BitVec 52) (t : Txn) (q q' : Snoop),
    agentUp s (8 + port.val) = true → s.coh.txns = [t] → t.snoops = [q, q'] →
    q = { line := a.toNat / 64, agent := 8 + port.val, op := snpInv, sent := q.sent } → q.sent ≠ none → q'.agent ≠ 8 + port.val →
    t.why ≠ .recall true → Tbl.Rising s.coh.dir →
    ∃ u, exec (.biSnoopResponse port 0 a) s = .next u ∧ u.coh.txns = [{ t with snoops := [q'] }] ∧
      bitAt (dirOf u (a.toNat / 64)).holders (8 + port.val) = false ∧ u.mem.bytes = s.mem.bytes) ∧
  (∀ (s : State) (port : Fin 4) (a : BitVec 52),
    agentUp s (8 + port.val) = true →
    exec (.biSnoopResponse port 3 a) s = .next (emit (.cxl port.val 4 a.toNat 0 []) s)) ∧
  (∀ (s : State) (port : Fin 13) (m : KafMsg) (t : Txn) (q q' : Snoop),
    port.val < 8 → agentUp s port.val = true → m.op = 0x31 → s.coh.txns = [t] → t.snoops = [q, q'] →
    q = { line := rspLine m, agent := port.val, op := snpCopy, sent := q.sent } → q'.agent ≠ port.val → Tbl.Rising s.coh.dir →
    ∃ u, exec (.rspCopy port m) s = .next u ∧ u.coh.txns = [{ t with snoops := [q'] }] ∧ (dirOf u (rspLine m)).st = 1 ∧
      (dirOf u (rspLine m)).holders = (dirOf s (rspLine m)).holders ∧
      u.mem.bytes = mwriteMask s.mem.bytes (rspLine m * 64) (2 ^ 64 - 1) m.data) ∧
  (∀ (s : State) (port : Fin 13) (m : KafMsg) (t : Txn) (q : Snoop),
    port.val < 8 → agentUp s port.val = true → m.op = 0x32 → s.coh.txns = [t] → t.snoops = [q] → q.line = rspLine m → q.agent = port.val →
    (dirOf s (rspLine m)).keeper = port.val → (dirOf s (rspLine m)).st = 3 →
    ∃ u, exec (.rspWbPend port m) s = .next u ∧ u.coh.txns = [{ t with snoops := [], wb := t.wb ++ [(rspLine m, port.val)], fwd := false }] ∧
      u.coh.dir = s.coh.dir) ∧
  (∀ (s : State) (port : Fin 13) (m : KafMsg) (t : Txn) (r : Req) (q : Snoop) (l : List Snoop),
    port.val < 8 → agentUp s port.val = true → m.op = 0x33 → s.coh.txns = [t] → t.snoops = q :: l → t.fwd = true → t.ack = false →
    t.why = .req r.id → reqOf s r.id = some r → r.agent = some port.val → r.tag = m.tag →
    ∃ u, exec (.fwdAck port m) s = .next u ∧ u.coh.txns = [{ t with ack := true }]) ∧
  (∀ (s : State) (port : Fin 13) (m : KafMsg) (t : Txn) (r : Req),
    port.val < 8 → agentUp s port.val = true → linkUp s port.val = true → 0x18 ≤ m.op → m.op ≤ 0x1B → s.coh.txns = [t] → t.fwd = true →
    t.got = false → t.why = .req r.id → reqOf s r.id = some r → r.agent = some m.fwdAgent → r.tag = m.fwdTag →
    agentUp s m.fwdAgent = true → sends s m.fwdAgent = true →
    ∃ u, exec (.forwardedData port m) s = .next u ∧ u.coh.txns = [{ t with got := true, fwdOp := m.op }] ∧
      Out.kaf m.fwdAgent { m with tag := m.fwdTag, addr := 0 } ∈ u.out) ∧
  (∀ (s : State) (line : Nat) (r : Req),
    locked s line = false → lineNext line s = some r → r.pieces ≠ [] →
    exec (.lineLockAcquire line) s = .next (tryLock r s))

/-- WB_DIRTY, CXL_MEM_WR by the recorded keeper, SPAN_REMOTE_FORWARD, BLK_DATA, RELAYED_WRITE_ACK: the keeper's data are
written and it leaves the line, an X entry becoming I; a message for another member goes on toward it and is not looked at; a
member's answer ends what was asked; a partner's acknowledgement ends a relayed write (R331, R339, R340, R342, R372, R578,
R594). -/
def Obligations.WritebacksAndAnswers : Prop :=
  (∀ (s : State) (port : Fin 13) (m : KafMsg) (r : Req) (line : Nat) (u : State),
    r = kafReq port.val m .wb 64 s → port.val < 8 → m.op = 0x16 → sends s port.val = true → agentUp s port.val = true → live s = true →
    s.span.twin = .single → placeReq r (linkTally false port.val 96 (tookId s)) = (.at_ [(ownIndex u * 2 ^ 52 + line * 64, 64)], u) →
    line * 64 < 2 ^ 52 → decoded u (line * 64) = true → s.coh.txns = [] → Tbl.Rising s.coh.dir → (dirOf s line).keeper = port.val → (dirOf s line).st = 3 →
    (extOf s (line / 2 ^ 24)).st ≠ .escrow →
    ∃ t, exec (.wbDirty port m) s = .next t ∧ dirOf t line = dirI ∧ doneOut r 0 ∈ t.out ∧
      t.mem.bytes = mwriteMask s.mem.bytes (line * 64) (2 ^ 64 - 1) m.data) ∧
  (∀ (s : State) (port : Fin 4) (tag : Nat) (a : BitVec 57) (mask : BitVec 64) (data : List Byte) (poison : Bool) (r : Req) (line : Nat) (u : State),
    r = { cxlReq port.val 0x104 tag a.toNat .uw s with cls := .wb, arg := mask.toNat, data := data.take 64, poison := poison } →
    cxlOn s port.val = true → cxl3 s port.val = true → agentUp s (8 + port.val) = true → steppedDown s = false →
    placeReq r s = (.at_ [(ownIndex s * 2 ^ 52 + line * 64, 64)], u) →
    line * 64 < 2 ^ 52 → s.coh.txns = [] → Tbl.Rising s.coh.dir → (dirOf s line).keeper = 8 + port.val → (dirOf s line).st = 3 →
    (extOf s (line / 2 ^ 24)).st ≠ .escrow →
    ∃ t, exec (.cxlMemWr port tag a mask data poison) s = .next t ∧ dirOf t line = dirI ∧ Out.cxl port.val 0 tag 0 [] ∈ t.out ∧
      t.mem.bytes = mwriteMask s.mem.bytes (line * 64) mask.toNat data) ∧
  (∀ (s : State) (port : Fin 13) (m : KafMsg) (l : Nat),
    8 ≤ port.val → linkUp s port.val = true → m.op = 0x13 ∨ m.op = 0x14 ∨ m.op = 0x40 ∨ m.op = 0x41 → m.addr / 2 ^ 52 ≠ ownIndex s →
    routesTo s (m.addr / 2 ^ 52) = [l] → l ≠ port.val → sends s l = true →
    ∃ t, exec (.spanRemoteForward port m) s = .next t ∧ t.coh = s.coh ∧ t.mem = s.mem ∧ Out.kaf l m ∈ t.out) ∧
  (∀ (s : State) (port : Fin 13) (m : KafMsg) (q : RemoteAsk) (f : Flight),
    8 ≤ port.val → linkUp s port.val = true → (s.coh.asks.find? fun q => q.tag == m.tag && (routesTo s q.index).contains port.val) = some q →
    q.flight = true → q.write = false → flightOf s q.who = some f → m.op = 0x42 →
    ∃ t, exec (.blkData port m) s = .next t ∧ q ∉ t.coh.asks ∧
      ∀ g ∈ t.attn.flights, g.id = f.id → g.remote = f.remote.map fun r => if r.1 = q.pa then (r.1, some (0, m.data)) else r) ∧
  (∀ (s : State) (id : Nat) (r : Req),
    reqOf s id = some r → r.stage = .remote → relays s r = true → r.dead = false →
    ∃ t, exec (.relayedWriteAck id) s = .next t ∧ t.mem = s.mem ∧ t.coh.dir = s.coh.dir ∧ ∀ x ∈ t.coh.reqs, x.id ≠ r.id)

/-- SNOOP_TIMEOUT, AGENT_FAILED, DECLARE_AGENT_FAILED, AGENT_PURGE_END, ESCROW_RECALL_WALK: an agent that takes part and fails is
purging, and its requests are gone but for those whose transaction is open; when no purge runs it is purged, or active where its
link has trained in the meantime; the recall of an extent in escrow snoops the holders of its lines (R343 to R348). -/
def Obligations.AgentsFail : Prop :=
  (∀ (s : State) (a : Fin 12) (line c : Nat) (q : Snoop),
    ((s.coh.txns.flatMap (·.snoops)).find? fun q => q.agent == a.val && q.line == line) = some q → q.sent = some c →
    tget 0 s.coh.agents a.val = 1 → Tbl.Rising s.coh.agents →
    arrivalWins (c + usCycles (obj s 0x2200 1)) (answersSnoop a.val line) s = false →
    ∃ t, exec (.snoopTimeout a line) s = .next t ∧ tget 0 t.coh.agents a.val = 2 ∧ c + usCycles (obj s 0x2200 1) ≤ t.time.cycle) ∧
  (∀ (s : State) (a : Fin 12),
    tget 0 s.coh.agents a.val = 1 → Tbl.Rising s.coh.agents →
    ∃ t, exec (.agentFailed a) s = .next t ∧ tget 0 t.coh.agents a.val = 2 ∧
      ∀ b, b ≠ a.val → tget 0 t.coh.agents b = tget 0 s.coh.agents b) ∧
  (∀ (s : State) (v : BitVec 8),
    answering s = true → v.toNat < 12 → tget 0 s.coh.agents v.toNat = 1 → Tbl.Rising s.coh.agents →
    ∃ t, exec (.declareAgentFailed v) s = .next t ∧ tget 0 t.coh.agents v.toNat = 2) ∧
  (∀ (s : State) (v : BitVec 8),
    answering s = true → 12 ≤ v.toNat →
    exec (.declareAgentFailed v) s = .next (bumpObj 0x1022 1 1 32 s)) ∧
  (∀ (s : State) (a : Fin 12),
    (∀ t ∈ s.coh.txns, t.why ≠ .purge) → tget 0 s.coh.agents a.val = 2 ∨ tget 0 s.coh.agents a.val = 4 → Tbl.Rising s.coh.agents →
    ∃ t, exec (.agentPurgeEnd a) s = .next t ∧
      tget 0 t.coh.agents a.val = (if tget 0 s.coh.agents a.val = 4 then 1 else 3) ∧ t.coh.dir = s.coh.dir) ∧
  (∀ (s : State) (ext l a : Nat),
    (extOf s ext).st = .escrow → (extOf s ext).step = 3 → extInflight s ext = 0 → extLines s ext = [l] → s.coh.txns = [] →
    holdersAt s l = [a] → a < 8 → agentUp s a = true →
    ∃ t q, exec (.escrowRecallWalk ext) s = .next t ∧ t.coh.dir = s.coh.dir ∧
      t.coh.txns = [{ newTxn (.recall true) [l] with id := s.coh.nextTxn, snoops := [q] }] ∧ q.line = l ∧ q.agent = a ∧ q.op = snpInv ∧
      Out.kaf a { kafOf snpInv with addr := ownIndex s * 2 ^ 52 + l * 64, fwdAgent := 15, fwdTag := 0 } ∈ t.out)

/-! ## Translation -/

/-- RD_SHARED, RD_OWN, UPGRADE, RD_UNCACHED, WR_UNCACHED, EVICT_CLEAN, BLK_RD, BLK_WR on a pier: a request whose address has a
bit of [63:57] set completes with 0x20, or with 0x22 where its tenant is being removed, and memory is as it was; so does WB_DIRTY
(R352, R447). -/
def Obligations.LongAddressesFault : Prop :=
  (∀ (s : State) (i : Instr) (r : Req),
    askedBy s i = some r → Unheld s r → r.src < 8 → 2 ^ 57 ≤ r.addr →
    ∃ t, exec i s = .next t ∧ reqOf t r.id = none ∧ t.mem = s.mem ∧
      Out.kaf r.src { kafOf 0x20 with tag := r.tag, srcDev := r.srcDev, code := xlateCode s r.tenant } ∈ t.out) ∧
  (∀ (s : State) (port : Fin 13) (m : KafMsg),
    port.val < 8 → m.op = 0x16 → sends s port.val = true → agentUp s port.val = true → live s = true → s.span.twin = .single →
    2 ^ 57 ≤ m.addr →
    ∃ t, exec (.wbDirty port m) s = .next t ∧ t.mem = s.mem ∧
      Out.kaf port.val { kafOf 0x20 with tag := m.tag, srcDev := m.srcDev, code := xlateCode s (pasidTenant s m.pasid) } ∈ t.out)

/-- PENDING_FAULT, FAULT_QUEUE_SLOT_FREE, PENDING_REWALK, PENDING_FAULT_TIMEOUT: a descriptor that meets a pending page stalls
on a record of it; a record waits for its place in the queue of 512; a re-walk takes the replay units that cover the record's page:
where every page of them is found their records go, and with no record left the descriptor goes on; one that faults completes it
with 0x20; a record that stays past 2300:01 completes it with 0x20. An APPEND so ended gives its context's length (R163, R363 to
R368). -/
def Obligations.PendingPagesStall : Prop :=
  (∀ (s : State) (d page va len : Nat) (wr : Bool) (f : Flight) (u : State),
    flightOf s d = some f → f.stage = .waiting → flightBlock s f = (va, len, wr) →
    translateBlock (flightDie f) (dPasid f.desc) va len wr s = (.pending [page], u) →
    u.xl.queue.length < 512 → u.xl.holding = [] → pendingOf u f.id = [] →
    ∃ t, exec (.pendingFault d) s = .next t ∧ t.xl.holding = [] ∧
      t.xl.queue = u.xl.queue ++ [{ kind := 1, source := 20 + flightDie f, pasid := dPasid f.desc, addr := page * 4096
                                    desc := f.id, output := false, made := s.time.cycle, due := false }] ∧
      t.xl.high = max u.xl.high (u.xl.queue.length + 1) ∧ ∀ g ∈ t.attn.flights, g.id = f.id → g.stage = .stalled) ∧
  (∀ (s : State) (r : FaultRec),
    s.xl.holding = [r] → s.xl.queue.length < 512 →
    ∃ t, exec .faultQueueSlotFree s = .next t ∧ t.xl.queue = s.xl.queue ++ [r] ∧ t.xl.holding = [] ∧
      obj t 0x2300 4 = (obj s 0x2300 4 + 1) % 2 ^ 64) ∧
  (∀ (s : State) (i : Nat) (r : FaultRec) (f : Flight) (ps : List (Nat × Nat)) (u : State),
    s.xl.queue[i]? = some r → r.kind = 1 → r.due = true → (∀ q ∈ s.xl.queue.take i, q.due = false) → flightOf s r.desc = some f →
    translateUnits (flightDie f) (dPasid f.desc) r.output (unitsAt s f (r.addr / 4096)) s = (.ok ps, u) →
    ∃ t, exec (.pendingRewalk i) s = .next t ∧
      (∀ q ∈ t.xl.queue ++ t.xl.holding, q.kind = 1 → q.desc = r.desc → ∀ w ∈ unitsAt s f (r.addr / 4096),
        ¬ (w.1 / 4096 ≤ q.addr / 4096 ∧ q.addr / 4096 * 4096 < w.1 + w.2)) ∧
      (pendingOf t r.desc = [] → ∀ g ∈ t.attn.flights, g.id = f.id → g.stage = (if r.output then .output else .waiting))) ∧
  (∀ (s : State) (i : Nat) (r : FaultRec) (f : Flight) (u : State),
    Inv s → steppedDown s = false → s.xl.queue[i]? = some r → r.kind = 1 → r.due = true → (∀ q ∈ s.xl.queue.take i, q.due = false) →
    flightOf s r.desc = some f → f.qp < 1024 →
    translateUnits (flightDie f) (dPasid f.desc) r.output (unitsAt s f (r.addr / 4096)) s = (.fault, u) →
    ∃ t, exec (.pendingRewalk i) s = .next t ∧
      Answered t f 0x20 (if r.output then 1 else 0) (if dOpcode f.desc = 2 then lengthSeen s f % 2 ^ 32 else 0) 0) ∧
  (∀ (s : State) (i : Nat) (r : FaultRec) (f : Flight),
    Inv s → steppedDown s = false → (s.xl.queue ++ s.xl.holding)[i]? = some r → r.kind = 1 → r.due = false →
    flightOf s r.desc = some f → f.qp < 1024 → arrivalWins (r.made + usCycles (obj s 0x2300 1)) (· == .invalidationComplete) s = false →
    ∃ t, exec (.pendingFaultTimeout i) s = .next t ∧
      Answered t f 0x20 (if r.output then 1 else 0) (if dOpcode f.desc = 2 then lengthSeen s f % 2 ^ 32 else 0) 0 ∧
      r.made + usCycles (obj s 0x2300 1) ≤ t.time.cycle)

/-- XLINVCMD, XLINVSTAT_READ, INVALIDATION_START, INVALIDATION_COMPLETE, BIND_PASID, UNBIND_PASID, PORT_PASID_WRITE: a command
is queued with busy set, is refused where it names no PASID of its tenant, and overruns while busy; a read clears refused and
overrun; an invalidation that starts drops the leaves of its range and the walks of its PASID from both dies' caches, and its end gives the token and drops
an unbound PASID; a binding names a free PASID and an ACTIVE tenant; a port takes a PASID (R353 to R355, R374 to R379). -/
def Obligations.InvalidationsAndBindings : Prop :=
  (∀ (s : State) (w : Win) (v : BitVec 64) (q : Nat),
    Inv s → winQp s w = some q → (qpOf s q).invBusy = false → pasidHeld s (fld v 51 32) (qpOf s q).tenant = true →
    fld v 63 52 = 0 → fld v 11 8 = 0 → fld v 13 12 < 2 → bitsOf (qpOf s q).invAddr 63 57 = 0 → bitsOf (qpOf s q).invAddr 11 0 = 0 →
    ∃ t, exec (.xlinvcmd w v) s = .next t ∧ (qpOf t q).invBusy = true ∧ (qpOf t q).invRefused = false ∧
      t.xl.invs = s.xl.invs ++ [{ qp := some q, pasid := fld v 51 32, page := bitsOf (qpOf s q).invAddr 56 12, pages := fld v 31 14 + 1
                                  whole := fld v 13 12 == 1, token := fld v 7 0, unbind := false }]) ∧
  (∀ (s : State) (w : Win) (v : BitVec 64) (q : Nat),
    Inv s → winQp s w = some q → (qpOf s q).invBusy = false → pasidHeld s (fld v 51 32) (qpOf s q).tenant = false →
    ∃ t, exec (.xlinvcmd w v) s = .next t ∧ (qpOf t q).invRefused = true ∧ (qpOf t q).invBusy = false ∧ t.xl = s.xl) ∧
  (∀ (s : State) (w : Win) (v : BitVec 64) (q : Nat),
    Inv s → winQp s w = some q → (qpOf s q).invBusy = true →
    ∃ t, exec (.xlinvcmd w v) s = .next t ∧ (qpOf t q).invOverrun = true ∧ (qpOf t q).invBusy = true ∧ t.xl = s.xl) ∧
  (∀ (s : State) (w : Win) (q : Nat),
    Inv s → winQp s w = some q →
    ∃ t, exec (.xlinvstatRead w) s = .next t ∧ Out.value (invStat (qpOf s q)) ∈ t.out ∧
      qpOf t q = { qpOf s q with invRefused := false, invOverrun := false }) ∧
  (∀ (s : State) (i : Inval) (l : List Inval),
    s.xl.running = none → s.xl.invs = i :: l →
    ∃ t, exec .invalidationStart s = .next t ∧ t.xl.running = some i ∧ t.xl.invs = l ∧ t.xl.gen = s.xl.gen + 1 ∧
      (∀ die x, x ∈ tlbOf t die ↔ x ∈ tlbOf s die ∧ leafHit i x = false) ∧
      (∀ die n, n ∈ walksOf t die ↔ n ∈ walksOf s die ∧ n.pasid ≠ i.pasid)) ∧
  (∀ (s : State) (i : Inval) (q : Nat),
    Inv s → s.xl.running = some i → i.qp = some q → i.unbind = false → (∀ r ∈ s.coh.reqs, r.pieces = [] ∨ s.xl.gen ≤ r.gen) →
    (∀ q ∈ s.coh.asks, s.xl.gen ≤ q.gen) →
    ∃ t, exec .invalidationComplete s = .next t ∧ t.xl.running = none ∧ (qpOf t q).invBusy = false ∧ (qpOf t q).invDone = i.token ∧
      obj t 0x2300 7 = (obj s 0x2300 7 + 1) % 2 ^ 64 ∧ t.led.binds = s.led.binds) ∧
  (∀ (s : State) (i : Inval),
    s.xl.running = some i → i.qp = none → i.unbind = true → (∀ r ∈ s.coh.reqs, r.pieces = [] ∨ s.xl.gen ≤ r.gen) →
    (∀ q ∈ s.coh.asks, s.xl.gen ≤ q.gen) →
    ∃ t, exec .invalidationComplete s = .next t ∧ t.xl.running = none ∧ pasidOf t i.pasid = none) ∧
  (∀ (s : State) (v : BitVec 128),
    answering s = true → s.span.twin = .single → fld v 19 0 ≠ 0 →
    pasidOf s (fld v 19 0) = none → (tenantOf s (fld v 107 102)).st = .active → s.led.binds.length < 4096 →
    ∃ t, exec (.bindPasid v) s = .next t ∧ pasidOf t (fld v 19 0) = some (fld v 107 102, fld v 91 52, fld v 108 108 == 1) ∧
      ∀ p, p ≠ fld v 19 0 → pasidOf t p = pasidOf s p) ∧
  (∀ (s : State) (v : BitVec 32) (b : Nat × Nat × Bool),
    answering s = true → s.span.twin = .single → v.toNat ≠ 0 → pasidOf s v.toNat = some b → (tenantOf s b.1).st ≠ .removing →
    (∀ i ∈ s.xl.invs ++ s.xl.running.toList, i.unbind = false ∨ i.pasid ≠ v.toNat) →
    ∃ t, exec (.unbindPasid v) s = .next t ∧ t.led = s.led ∧
      t.xl.invs = s.xl.invs ++ [{ qp := none, pasid := v.toNat, page := 0, pages := 0, whole := true, token := 0, unbind := true }]) ∧
  (∀ (s : State) (port : Fin 4) (v : BitVec 32),
    answering s = true → s.span.twin = .single → 0xFFFFF < v.toNat →
    ∃ t, exec (.portPasidWrite port v) s = .next t ∧ t.led = s.led ∧ obj t 0x1022 1 = (obj s 0x1022 1 + 1) % 2 ^ 32) ∧
  (∀ (s : State) (port : Fin 4) (v : BitVec 32) (b : Nat × Nat × Bool),
    answering s = true → s.span.twin = .single → 0 < v.toNat → v.toNat ≤ 0xFFFFF → pasidOf s v.toNat = some b →
    (tenantOf s b.1).confidential = false →
    ∃ t, exec (.portPasidWrite port v) s = .next t ∧ objLast t 0x2301 (port.val + 1) = v.toNat)

/-! ## Tenants and extents -/

/-- TENANT_CREATE, TENANT_REMOVE, REMOVAL_STEP_END: a command that creates a FREE tenant, while the random source works,
makes it ACTIVE with its mode and its first key slot, one that removes an ACTIVE tenant makes it REMOVING and puts its granted extents into escrow, a command in the wrong
state is refused with reason 1; a removal whose extents have all passed step 4 of their escrow destroys the keys, and one with
nothing left ends with the tenant FREE (R411, R414, R429, R443, R445, R446). -/
def Obligations.TenantsComeAndGo : Prop :=
  (∀ (s : State) (v : BitVec 16),
    Inv s → answering s = true → s.span.twin = .single → fld v 15 14 = 1 → fld v 13 9 = 0 → fld v 7 6 = 0 →
    (tenantOf s (fld v 5 0)).st = .free → s.mint.healthy = true → fld v 8 8 = 0 ∨ s.mint.debug = false →
    ∃ t, exec (.tenantCreate v) s = .next t ∧ (tenantOf t (fld v 5 0)).st = .active ∧
      (tenantOf t (fld v 5 0)).confidential = (fld v 8 8 == 1) ∧ (keysOf t (fld v 5 0)).slot0 = 1 ∧ t.led.status = 0 ∧
      ∀ x, x ≠ fld v 5 0 → tenantOf t x = tenantOf s x) ∧
  (∀ (s : State) (v : BitVec 16),
    answering s = true → s.span.twin = .single → fld v 15 14 = 1 → fld v 13 9 = 0 → fld v 7 6 = 0 →
    (tenantOf s (fld v 5 0)).st ≠ .free →
    ∃ t, exec (.tenantCreate v) s = .next t ∧ t.led.status = 1 ∧ t.led.tens = s.led.tens ∧ obj t 0x1022 1 = (obj s 0x1022 1 + 1) % 2 ^ 32) ∧
  (∀ (s : State) (v : BitVec 16) (e : Nat),
    Inv s → answering s = true → s.span.twin = .single → fld v 15 14 = 2 → fld v 13 9 = 0 → fld v 7 6 = 0 →
    (tenantOf s (fld v 5 0)).st = .active →
    ∃ t, exec (.tenantRemove v) s = .next t ∧ (tenantOf t (fld v 5 0)).st = .removing ∧
      ((extOf s e).owner = fld v 5 0 → (extOf s e).st = .granted → (extOf t e).st = .escrow ∧ (extOf t e).step = 1) ∧
      ((extOf s e).owner ≠ fld v 5 0 → extOf t e = extOf s e) ∧ ∀ x, x ≠ fld v 5 0 → tenantOf t x = tenantOf s x) ∧
  (∀ (s : State) (n : Fin 64),
    Inv s → (tenantOf s n.val).st = .removing → (tenantOf s n.val).removeStep = 6 →
    (∀ q ∈ s.led.exts, q.2.owner = n.val → q.2.st ≠ .free → q.2.st = .escrow ∧ 5 ≤ q.2.step) →
    ∃ t, exec (.removalStepEnd n) s = .next t ∧ keysOf t n.val = {} ∧ (tenantOf t n.val).removeStep = 8 ∧
      (tenantOf t n.val).st = .removing) ∧
  (∀ (s : State) (n : Fin 64),
    Inv s → (tenantOf s n.val).st = .removing → (tenantOf s n.val).removeStep = 8 →
    (∀ q ∈ s.led.exts, q.2.owner = n.val → q.2.st = .free) → (∀ c ∈ s.kv.ctxs, c.2.tenant = n.val → c.2.st = .free) →
    ∃ t, exec (.removalStepEnd n) s = .next t ∧ (tenantOf t n.val).st = .free ∧ t.led.exts = s.led.exts)

/-- GRANT_EXTENT, ZEROIZE_DONE, REVOKE_EXTENT, ESCROW_STEP_END, READER_SET_WRITE: a grant that passes every check is GRANTING, a
refused one leaves its reason; a zeroized extent is GRANTED and its bytes read 0; a revoked one is in ESCROW at step 1, and
after step 5 it is FREE with its bytes 0; a reader set is written (R392 to R401). -/
def Obligations.ExtentsAreGranted : Prop :=
  (∀ (s : State) (v : BitVec 128),
    Inv s → answering s = true → s.span.twin = .single → grantReason s v = 0 →
    ∃ t, exec (.grantExtent v) s = .next t ∧ (extOf t (fld v 85 64)).st = .granting ∧ (extOf t (fld v 85 64)).owner = fld v 63 56 ∧
      (extOf t (fld v 85 64)).kind = fld v 55 52 ∧ (extOf t (fld v 85 64)).mode = fld v 51 50 ∧ t.led.status = 0 ∧
      ∀ x, x ≠ fld v 85 64 → extOf t x = extOf s x) ∧
  (∀ (s : State) (v : BitVec 128),
    answering s = true → s.span.twin = .single → grantReason s v ≠ 0 →
    ∃ t, exec (.grantExtent v) s = .next t ∧ t.led.status = grantReason s v ∧ t.led.exts = s.led.exts ∧
      obj t 0x1022 1 = (obj s 0x1022 1 + 1) % 2 ^ 32) ∧
  (∀ (s : State) (e : Nat),
    Inv s → (extOf s e).st = .granting → ¬((extOf s e).owner < 64 ∧ (tenantOf s (extOf s e).owner).st = .removing) →
    ∃ t, exec (.zeroizeDone e) s = .next t ∧ (extOf t e).st = .granted ∧ (extOf t e).base = curEpoch s (extOf s e).owner ∧
      ∀ a, mget t.mem.bytes a = if e * 2 ^ 30 ≤ a ∧ a < (e + 1) * 2 ^ 30 then 0 else mget s.mem.bytes a) ∧
  (∀ (s : State) (v : BitVec 32),
    Inv s → answering s = true → s.span.twin = .single → extDecoded s v.toNat = true → (extOf s v.toNat).st = .granted →
    (extOf s v.toNat).kind ≠ 6 →
    ∃ t, exec (.revokeExtent v) s = .next t ∧ (extOf t v.toNat).st = .escrow ∧ (extOf t v.toNat).step = 1 ∧
      (extOf t v.toNat).owner = (extOf s v.toNat).owner ∧ t.mem = s.mem ∧ t.led.status = 0) ∧
  (∀ (s : State) (e : Nat),
    Inv s → (extOf s e).st = .escrow → (extOf s e).step = 1 → (extOf s e).kind ≠ 2 → extInflight s e = 0 →
    ∃ t, exec (.escrowStepEnd e) s = .next t ∧ extOf t e = { extOf s e with step := 2 } ∧ t.mem = s.mem) ∧
  (∀ (s : State) (e : Nat),
    Inv s → (extOf s e).st = .escrow → (extOf s e).step = 5 →
    ∃ t, exec (.escrowStepEnd e) s = .next t ∧ extOf t e = {} ∧
      ∀ a, mget t.mem.bytes a = if e * 2 ^ 30 ≤ a ∧ a < (e + 1) * 2 ^ 30 then 0 else mget s.mem.bytes a) ∧
  (∀ (s : State) (set : Fin 16) (v : BitVec 64),
    answering s = true → s.span.twin = .single →
    ∃ t, exec (.readerSetWrite set v) s = .next t ∧ obj t 0x2402 (set.val + 1) = v.toNat ∧ t.led = s.led)

/-! ## Keys, the SPDM responder and the Mint's verbs -/

/-- KEY_ROTATE, REWRAP_UNIT, SWEEP_COMPLETE, RETIRE_OLD_EPOCH, SEAL_KEYS_WRITE, RANDOM_SOURCE_HEALTH_FAIL, RANDOM_SOURCE_HEALTHY: a
rotation raises the generation, makes the new slot current and the other old, and starts a sweep; a rotation while the old slot
stands is refused with status 1; a unit goes over to the current epoch, its condition kept: in its tenant's turn a line, or a sector
that carries a MAC, while no scrub of its controller stands before it, and a frame's lower copies where tolls and budget cover
them; a sweep's end and a retirement destroy the old slot (R414, R431, R434 to R438, R676). -/
def Obligations.KeysRotate : Prop :=
  (∀ (s : State) (p : Prin) (n : Fin 64),
    Inv s → answering s = true → s.span.twin = .single → mayTouch p (0x3006 + 16 * n.val) 3 = true →
    (tenantOf s n.val).st = .active → otherSlot (keysOf s n.val) = 0 → s.mint.healthy = true → extsOf s n.val ≠ [] →
    ∃ t, exec (.keyRotate p n) s = .next t ∧ (keysOf t n.val).gen = ((keysOf s n.val).gen + 1) % 2 ^ 32 ∧
      otherSlot (keysOf t n.val) = 2 ∧ (keysOf t n.val).sweep = true ∧ (∀ x, x ≠ n.val → keysOf t x = keysOf s x) ∧
      ∀ e ∈ extsOf s n.val, (extOf t e).epoch = curEpoch t n.val ∧ (extOf t e).rewrap = true) ∧
  (∀ (s : State) (p : Prin) (n : Fin 64),
    answering s = true → s.span.twin = .single → mayTouch p (0x3006 + 16 * n.val) 3 = true →
    (tenantOf s n.val).st = .active → otherSlot (keysOf s n.val) ≠ 0 →
    ∃ t, exec (.keyRotate p n) s = .next t ∧ obj t (0x3007 + 16 * n.val) 3 = 1 ∧ t.mint = s.mint) ∧
  (∀ (s : State) (n : Fin 64) (e l : Nat),
    Inv s → (keysOf s n.val).sweep = true → (extOf s e).owner = n.val → (extOf s e).st = .granted → (extOf s e).kind ≠ 2 → extTier e ≠ 3 →
    firstOld s n.val e = some l → (extTier e = 1 → shareTaken s (ctlOfAddr (l * 64)) = false) → rewrapTurn s n.val = true →
    ∃ t, exec (.rewrapUnit n e) s = .next t ∧ t.mem.bytes = s.mem.bytes ∧
      (∀ x, lineOf t x = if x = l ∨ ((extOf s e).mac = true ∧ x / 4 = l / 4) then { lineOf s x with epoch := curEpoch s n.val } else lineOf s x) ∧
      obj t (0x3007 + 16 * n.val) 1 = (obj s (0x3007 + 16 * n.val) 1 + 1) % 2 ^ 64) ∧
  (∀ (s : State) (n : Fin 64) (e f : Nat) (v : Frame) (u : State),
    (keysOf s n.val).sweep = true → (extOf s e).owner = n.val → (extOf s e).st = .granted → (extOf s e).kind = 2 →
    ((oldFrames s n.val).find? fun q => copyIn1G e q.2.t2 || copyIn1G e q.2.t3) = some (f, v) →
    rewrapPays n.val ((if v.t2.isSome then v.size else 0) + if v.t3.isSome then v.size else 0) (if v.t3.isSome then v.size else 0)
      (v.t3.getD 0 * 4096) s = some u →
    ∃ t, exec (.rewrapUnit n e) s = .next t ∧ frameOf t f = some { v with epoch := curEpoch s n.val } ∧
      obj t (0x3007 + 16 * n.val) 1 = (obj s (0x3007 + 16 * n.val) 1 + 1) % 2 ^ 64) ∧
  (∀ (s : State) (n : Fin 64),
    Inv s → (keysOf s n.val).sweep = true →
    ∃ t, exec (.sweepComplete n) s = .next t ∧ keysOf t n.val = { withSlots (keysOf s n.val) 1 0 with sweep := false } ∧
      (∀ x, x ≠ n.val → keysOf t x = keysOf s x) ∧
      ∀ e ∈ extsOf s n.val, (extOf t e).base = curEpoch s n.val ∧ (extOf t e).rewrap = false) ∧
  (∀ (s : State) (p : Prin) (n : Fin 64),
    Inv s → answering s = true → s.span.twin = .single → mayTouch p (0x3006 + 16 * n.val) 4 = true →
    otherSlot (keysOf s n.val) = 2 →
    ∃ t, exec (.retireOldEpoch p n) s = .next t ∧ keysOf t n.val = { withSlots (keysOf s n.val) 1 0 with sweep := false } ∧
      ∀ x, x ≠ n.val → keysOf t x = keysOf s x) ∧
  (∀ (s : State) (n : Fin 64) (v : Bool),
    answering s = true → v = false ∨ (tenantOf s n.val).confidential = false →
    ∃ t, exec (.sealKeysWrite n v) s = .next t ∧ sealOn t n.val = v ∧ t.mint = s.mint) ∧
  (∀ s : State,
    ∃ t, exec .randomSourceHealthFail s = .next t ∧ t.mint.healthy = false ∧ t.mint.keys = s.mint.keys) ∧
  (∀ s : State,
    ∃ t, exec .randomSourceHealthy s = .next t ∧ t.mint.healthy = true ∧ t.mint.keys = s.mint.keys)

/-- SPDM, GET_VERSION, GET_CAPABILITIES, NEGOTIATE_ALGORITHMS, GET_DIGESTS, GET_CERTIFICATE, CHALLENGE, GET_MEASUREMENTS, KEY_EXCHANGE,
CHUNK_GET, PQ_CERTS, PQ_SIG, BUNDLE_KEYS: a plain request that stands in its order is answered with the response of its code, and
the responder's state goes on (R425 to R427, R653). The layout of the messages is that of DSP0274 (log entry 30). -/
def Obligations.RequestersAreAnswered : Prop :=
  (∀ (s : State) (bytes req : List Byte),
    Asked s bytes req 0x84 →
    ∃ t, exec (.getVersion none bytes) s = .next t ∧ exec (.spdm none bytes) s = .next t ∧
      Said s t (spdmHead 0x10 0x04 0 0 ++ [0, 2] ++ leBytes 0x1200 2 ++ leBytes 0x1300 2) ∧
      (spdmOf t 100).phase = 1 ∧ (spdmOf t 100).session = none) ∧
  (∀ (s : State) (bytes req : List Byte),
    Asked s bytes req 0xE1 → (spdmOf s 100).phase = 1 → byteAt req 0 = 0x12 ∨ byteAt req 0 = 0x13 →
    ∃ t body, exec (.getCapabilities none bytes) s = .next t ∧ Said s t body ∧ byteAt body 1 = 0x61 ∧ slice body 8 4 = leBytes spdmCaps 4 ∧
      (spdmOf t 100).ver = byteAt req 0 ∧ (spdmOf t 100).phase = 2) ∧
  (∀ (s : State) (bytes req : List Byte),
    Asked s bytes req 0xE3 → (spdmOf s 100).phase = 2 → byteAt req 0 = (spdmOf s 100).ver →
    ∃ t, exec (.negotiateAlgorithms none bytes) s = .next t ∧ Said s t (spdmHead (byteAt req 0) 0x63 3 0 ++ spdmAlgs) ∧
      (spdmOf t 100).ver = (spdmOf s 100).ver ∧ (spdmOf t 100).phase = 3) ∧
  (∀ (s : State) (bytes req : List Byte),
    Asked s bytes req 0x81 → (spdmOf s 100).phase = 3 → byteAt req 0 = (spdmOf s 100).ver →
    ∃ t, exec (.getDigests none bytes) s = .next t ∧
      Said s t (spdmHead (byteAt req 0) 0x01 3 3 ++ digestBytes (Config.sha384 (Config.certChain 0 0 (aliasSalt s)))
        ++ digestBytes (Config.sha384 (Config.certChain 0 1 (aliasSalt s))))) ∧
  (∀ (s : State) (bytes req : List Byte),
    Asked s bytes req 0x82 → (spdmOf s 100).phase = 3 → byteAt req 0 = (spdmOf s 100).ver → slotOk (byteAt req 2 % 16) = true →
    le16 req 4 ≤ (Config.certChain 0 (byteAt req 2 % 16) (aliasSalt s)).length → le16 req 6 ≤ 4088 →
    ∃ t body, exec (.getCertificate none bytes) s = .next t ∧ Said s t body ∧ byteAt body 1 = 0x02 ∧
      body.drop 8 = slice (Config.certChain 0 (byteAt req 2 % 16) (aliasSalt s)) (le16 req 4)
        (min (le16 req 6) ((Config.certChain 0 (byteAt req 2 % 16) (aliasSalt s)).length - le16 req 4))) ∧
  (∀ (s : State) (bytes req : List Byte),
    Asked s bytes req 0x83 → (spdmOf s 100).phase = 3 → byteAt req 0 = (spdmOf s 100).ver → slotOk (byteAt req 2 % 16) = true →
    ∃ t r, exec (.challenge none bytes) s = .next t ∧ byteAt r 1 = 0x03 ∧ (spdmOf t 100).trB = [] ∧
      Said s t (r ++ edSign s (byteAt req 2 % 16) ((spdmOf s 100).trA ++ (spdmOf s 100).trB ++ req ++ r)) ∧
      (spdmOf t 100).signed = some (byteAt req 2 % 16, (spdmOf s 100).trA ++ (spdmOf s 100).trB ++ req ++ r)) ∧
  (∀ (s : State) (bytes req : List Byte),
    Asked s bytes req 0xE0 → (spdmOf s 100).phase = 3 → byteAt req 0 = (spdmOf s 100).ver → byteAt req 2 % 2 = 0 →
    1 ≤ byteAt req 3 → byteAt req 3 ≤ 8 →
    ∃ t pre post, exec (.getMeasurements none bytes) s = .next t ∧ byteAt pre 1 = 0x60 ∧ pre.length = 15 ∧
      Said s t (pre ++ digestBytes (measure s (byteAt req 3)) ++ post)) ∧
  (∀ (s : State) (bytes req : List Byte),
    Asked s bytes req 0xE4 → (spdmOf s 100).phase = 3 → byteAt req 0 = (spdmOf s 100).ver → slotOk (byteAt req 3) = true →
    s.mint.healthy = true →
    ∃ t body e, exec (.keyExchange none bytes) s = .next t ∧ Said s t body ∧ byteAt body 1 = 0x64 ∧
      (spdmOf t 100).session = some e ∧ e.up = false ∧ e.sid % 65536 = le16 req 4) ∧
  (∀ (s : State) (bytes req : List Byte) (bs : List Byte) (i : Nat),
    Asked s bytes req 0x86 → (spdmOf s 100).phase = 3 → byteAt req 0 = (spdmOf s 100).ver → (spdmOf s 100).chunk = some (bs, i) →
    le16 req 4 = i → 1 ≤ i →
    ∃ t body, exec (.chunkGet none bytes) s = .next t ∧ Said s t body ∧ byteAt body 1 = 0x06 ∧ body.drop 12 = bs.take 4084 ∧
      (spdmOf t 100).chunk = if bs.length ≤ 4084 then none else some (bs.drop 4084, i + 1)) ∧
  (∀ (s : State) (bytes req : List Byte) (n : Nat),
    Asked s bytes req 0xFE → (spdmOf s 100).phase = 3 → byteAt req 0 = (spdmOf s 100).ver → vendorReq s req = some (1, n) → slotOk n = true →
    ∃ t, exec (.pqCerts none bytes) s = .next t ∧
      Said s t (bounded s (vendorRsp s (spdmOf s 100).ver req 1 (Config.certChain 1 n (aliasSalt s))))) ∧
  (∀ (s : State) (bytes req : List Byte) (n m : Nat) (msg : List Byte),
    Asked s bytes req 0xFE → (spdmOf s 100).phase = 3 → byteAt req 0 = (spdmOf s 100).ver → vendorReq s req = some (2, n) →
    (spdmOf s 100).signed = some (m, msg) →
    ∃ t, exec (.pqSig none bytes) s = .next t ∧
      Said s t (vendorRsp s (spdmOf s 100).ver req 2 (slice (Config.sign 1 m (aliasSalt s) msg) 0 3309))) ∧
  (∀ (s : State) (bytes req : List Byte) (n : Nat),
    Asked s bytes req 0xFE → (spdmOf s 100).phase = 3 → byteAt req 0 = (spdmOf s 100).ver → vendorReq s req = some (4, n) →
    ∃ t, exec (.bundleKeys none bytes) s = .next t ∧
      Said s t (bounded s (vendorRsp s (spdmOf s 100).ver req 4 (Config.bundleKeys ++ slice (Config.sign 0 0 [] Config.bundleKeys) 0 64
        ++ slice (Config.sign 1 0 [] Config.bundleKeys) 0 3309))))

/-- FINISH, HEARTBEAT, KEY_UPDATE, END_SESSION, TENANT_REPORT: a message of the path's session completes, and where it opens to the
request of its row, the session comes up when the requester's proof is right, is renewed, changes its keys, ends, or the report
goes to the tenant that asks on its own channel (R425, R426, R428). -/
def Obligations.SessionsGoOn : Prop :=
  (∀ (s : State) (bytes : List Byte) (e : SpdmSession),
    Sealed s bytes e → e.up = false →
    ∃ t, exec (.finish none bytes) s = .next t ∧
      ∀ m, Opens s bytes e 0xE5 m → slice m 4 48 = slice (Config.sessionMac e.th m) 0 48 →
        (spdmOf t 100).session = some { e with up := true, th := e.th ++ m, last := s.time.cycle }) ∧
  (∀ (s : State) (bytes : List Byte) (e : SpdmSession),
    Sealed s bytes e → e.up = false →
    ∃ t, exec (.finish none bytes) s = .next t ∧
      ∀ m, Opens s bytes e 0xE5 m → slice m 4 48 ≠ slice (Config.sessionMac e.th m) 0 48 → (spdmOf t 100).session = none) ∧
  (∀ (s : State) (bytes : List Byte) (e : SpdmSession),
    Sealed s bytes e → e.up = true →
    ∃ t, exec (.heartbeat none bytes) s = .next t ∧
      ∀ m, Opens s bytes e 0xE8 m → (spdmOf t 100).session = some { e with last := s.time.cycle }) ∧
  (∀ (s : State) (bytes : List Byte) (e : SpdmSession),
    Sealed s bytes e → e.up = true →
    ∃ t, exec (.keyUpdate none bytes) s = .next t ∧
      ∀ m, Opens s bytes e 0xE9 m → 1 ≤ byteAt m 2 → byteAt m 2 < 3 → (spdmOf t 100).session = some { e with updates := e.updates + 1 }) ∧
  (∀ (s : State) (bytes : List Byte) (e : SpdmSession),
    Sealed s bytes e →
    ∃ t, exec (.endSession none bytes) s = .next t ∧ ∀ m, Opens s bytes e 0xEC m → (spdmOf t 100).session = none) ∧
  (∀ (s : State) (c : Fin 72) (bytes : List Byte) (k : TlMsg) (e : SpdmSession),
    c.val < 64 → mintMsg s c.val = some k → tlQuiet s c.val = true → k.verb = 1 → (spdmOf s c.val).phase = 3 → (spdmOf s c.val).session = some e → e.up = true →
    k.bytes.take 5 = 6 :: leBytes e.sid 4 → e.sid < 2 ^ 32 → (chanOf s c.val).replyFull = false →
    ∃ t, exec (.tenantReport (some c) bytes) s = .next t ∧
      ∀ m n, Config.sessionOpen e.th e.updates (k.bytes.drop 5) = some m → byteAt (m.drop 1) 0 = (spdmOf s c.val).ver →
        byteAt (m.drop 1) 1 = 0xFE → vendorReq s (m.drop 1) = some (3, n) →
        (vendorRsp s (spdmOf s c.val).ver (m.drop 1) 3 (tenantReport s c.val)).length ≤ 4096 →
        (chanOf t c.val).msg = none ∧ ∃ r, (chanOf t c.val).rply = some r ∧ r.dest = 1 ∧ r.seq = k.seq ∧ r.verb = 1 ∧
          r.bytes = [6] ++ leBytes e.sid 4 ++ Config.sessionWrap e.th e.updates
            ([5] ++ vendorRsp s (spdmOf s c.val).ver (m.drop 1) 3 (tenantReport s c.val)))

/-- EXTEND, DEBUG_UNLOCK, UNKNOWN_VERB, BUNDLE_IMPORT, BUNDLE_IMPORT_END: an accepted extend goes into M6 and the log; debug opens
exactly where every check of R442 holds, and is denied with no enable; an unknown verb is told so; an import leaves the code of
R452 and seals its extents; an import that fails its tags leaves zeros and code 7, one that ends well the plaintext and code 0
(R423, R442, R451, R452, R454). The payload of the import is that of log entry 32. -/
def Obligations.VerbsAreCarriedOut : Prop :=
  (∀ (s : State) (m : TlMsg),
    mintMsg s 64 = some m → tlQuiet s 64 = true → m.verb = 2 → m.bytes.length = 48 → mintBusy s 64 = false → Inv s →
    ∃ t, exec (.extend 64) s = .next t ∧ Acked t 64 0 m ∧
      measure t 6 = Config.sha384 (digestBytes (measure s 6) ++ digestBytes (BitVec.ofNat 384 (leNat m.bytes))) ∧
      t.mint.log = s.mint.log ++ [(6, digestBytes (BitVec.ofNat 384 (leNat m.bytes)))]) ∧
  (∀ (s : State) (c : Fin 72) (m : TlMsg),
    mintMsg s c.val = some m → tlQuiet s c.val = true → m.verb = 2 → c.val ≠ 64 →
    ∃ t, exec (.extend c) s = .next t ∧ Acked t c.val 2 m ∧ t.mint = s.mint) ∧
  (∀ (s : State) (c : Fin 72) (m : TlMsg),
    mintMsg s c.val = some m → m.verb = 4 → c.val = 64 ∨ c.val = 65 → mintBusy s c.val = false →
    ∃ t, exec (.debugUnlock c) s = .next t ∧
      (t.mint.debug = true ↔ s.mint.debug = true ∨ (obj s 0x6020 4 ≠ 0 ∧ (∀ n ∈ s.led.tens, n.2.confidential = true → n.2.st = .free) ∧
        Config.tokenDevId (objDom s 0x6020 3) = Config.devId ∧ Config.tokenSigned (objDom s 0x6020 3) = true ∧
        Config.tokenNonce (objDom s 0x6020 3) = s.mint.nonce))) ∧
  (∀ (s : State) (c : Fin 72) (m : TlMsg),
    mintMsg s c.val = some m → tlQuiet s c.val = true → m.verb = 4 → c.val = 64 ∨ c.val = 65 → mintBusy s c.val = false → obj s 0x6020 4 = 0 →
    ∃ t, exec (.debugUnlock c) s = .next t ∧ Acked t c.val 2 m ∧ t.mint = s.mint) ∧
  (∀ (s : State) (c : Fin 72) (m : TlMsg),
    mintMsg s c.val = some m → tlQuiet s c.val = true → ¬(1 ≤ m.verb ∧ m.verb ≤ 4) →
    ∃ t, exec (.unknownVerb c) s = .next t ∧ Acked t c.val 3 m ∧ t.mint = s.mint) ∧
  (∀ (s : State) (m : TlMsg),
    Inv s → mintMsg s 64 = some m → m.verb = 3 → m.bytes.length = 32 → mintBusy s 64 = false →
    ∃ t code imp, exec (.bundleImport 64) s = .next t ∧ obj t 0x6030 2 = code ∧
      (code, imp) = importCheck (tlAck 64 tlAccept s) (leNat (slice m.bytes 0 8)) (leNat (slice m.bytes 8 8)) (leNat (slice m.bytes 16 8))
        (leNat (slice m.bytes 24 8)) ∧
      t.mint.import_ = imp.map (fun i => { i with seq := m.seq }) ∧ t.mem = s.mem ∧
      ∀ i, imp = some i → ∀ e ∈ importExts i, (extOf t e).sealed = true) ∧
  (∀ (s : State) (i : Import),
    Inv s → s.mint.import_ = some i →
    ∃ t, exec (.bundleImportEnd false) s = .next t ∧ t.mint.import_ = none ∧ obj t 0x6030 2 = 7 ∧ t.mint.regs = s.mint.regs ∧
      ∀ a, mget t.mem.bytes a = if i.first * 2 ^ 30 ≤ a ∧ a < (i.first + i.count) * 2 ^ 30 then 0 else mget s.mem.bytes a) ∧
  (∀ (s : State) (i : Import) (c : List Byte),
    Inv s → s.mint.import_ = some i → ownRead { s with mint := { s.mint with import_ := none } } i.cipher i.len = some c →
    ∃ t, exec (.bundleImportEnd true) s = .next t ∧ t.mint.import_ = none ∧ obj t 0x6030 2 = 0 ∧
      measure t 8 = Config.sha384 (digestBytes (measure s 8) ++ digestBytes i.digest) ∧
      ∀ k < plainLen i.len, mget t.mem.bytes (i.first * 2 ^ 30 + k) = (Config.bundlePlain i.key i.ident c).getD k 0)

/-- FENCE_CORE, RETURN_CORE: a write to 9001:01 for a core that is not IN_SERVICE has no effect; a write to 9001:02 for a core that
is not FENCED has none on any core, and none at all but for a HELD core, whose refused return is counted in 1022:01; a core number
above 19 is refused by both, which counts it in 1022:01 (R256). -/
def Obligations.FenceWritesWithoutEffect : Prop :=
  (∀ (s : State) (p : Prin) (v : BitVec 8),
    answering s = true → mayTouch p 0x9001 1 = true → v.toNat < 20 → (coreOf s v.toNat).st ≠ .inService →
    exec (.fenceCore p v) s = .next s) ∧
  (∀ (s : State) (p : Prin) (v : BitVec 8),
    answering s = true → mayTouch p 0x9001 2 = true → v.toNat < 20 → (coreOf s v.toNat).st ≠ .fenced →
    ∃ t, exec (.returnCore p v) s = .next t ∧ t.attn = s.attn ∧ ((coreOf s v.toNat).st ≠ .held → t = s) ∧
      ((coreOf s v.toNat).st = .held → t = bumpObj 0x1022 1 1 32 s)) ∧
  (∀ (s : State) (p q : Prin) (v : BitVec 8),
    answering s = true → mayTouch p 0x9001 1 = true → mayTouch q 0x9001 2 = true → 20 ≤ v.toNat →
    exec (.fenceCore p v) s = .next (bumpObj 0x1022 1 1 32 s) ∧ exec (.returnCore q v) s = .next (bumpObj 0x1022 1 1 32 s))

/-! ## KAF links -/

/-- LINKCTL_RESTART, LINK_RESTART_DELAY, LINK_PARTNER_DETECT, LINK_TRAINING_STAGE_END, LINK_STATE_TIMEOUT: a link leaves DOWN on a
command or after its delay, goes through DETECT, SPEED, EQUALIZE and LANE to ACTIVE or SECURE, takes the full width where every
lane passes, comes back from RETRAIN in GO_BACK, and is down where no lane passes, the round trip is too long or a state runs out
(R460 to R463, R480, R488). -/
def Obligations.LinksTrain : Prop :=
  (∀ (s : State) (l : Fin 13),
    Inv s → (linkOf s l.val).st = 0 →
    ∃ t, exec (.linkctlRestart l) s = .next t ∧ linkOf t l.val = { linkOf s l.val with st := 1, since := s.time.cycle } ∧
      OtherLinks l.val s t) ∧
  (∀ (s : State) (l : Fin 13),
    Inv s → (linkOf s l.val).st = 0 → obj s 0x5004 6 ≠ 0 →
    ∃ t, exec (.linkRestartDelay l) s = .next t ∧ t.time.cycle = max s.time.cycle ((linkOf s l.val).since + msCycles (obj s 0x5004 6)) ∧
      linkOf t l.val = { linkOf s l.val with st := 1, since := t.time.cycle } ∧ OtherLinks l.val s t) ∧
  (∀ (s : State) (l : Fin 13) (lanes : BitVec 8),
    Inv s → (linkOf s l.val).st = 1 →
    ∃ t, exec (.linkPartnerDetect l lanes) s = .next t ∧ OtherLinks l.val s t ∧
      linkOf t l.val = if 2 ^ obj s 0x5002 (l.val + 1) ≤ popCount lanes.toNat 8 then { linkOf s l.val with st := 2, since := s.time.cycle }
        else linkOf s l.val) ∧
  (∀ (s : State) (l : Fin 13) (lanes : BitVec 8) (rtt : Nat) (ok : Bool),
    Inv s → (linkOf s l.val).st = 2 →
    ∃ t, exec (.linkTrainingStageEnd l lanes rtt ok) s = .next t ∧ OtherLinks l.val s t ∧
      linkOf t l.val = { linkOf s l.val with st := 3, since := s.time.cycle, second := false,
                                             gen := if ok ∧ obj s 0x5001 (l.val + 1) = 2 then 2 else 1 }) ∧
  (∀ (s : State) (l : Fin 13) (rtt : Nat) (ok : Bool),
    Inv s → (linkOf s l.val).st = 3 → (linkOf s l.val).second = false → (linkOf s l.val).gen = 1 ∨ (linkOf s l.val).gen = 2 →
    obj s 0x5002 (l.val + 1) ≤ fullWidth l.val →
    ∃ t, exec (.linkTrainingStageEnd l 0xFF rtt ok) s = .next t ∧ OtherLinks l.val s t ∧
      linkOf t l.val = { linkOf s l.val with st := 4, since := s.time.cycle, width := fullWidth l.val, firstLane := 0, lanes := 0 }) ∧
  (∀ (s : State) (l : Fin 13) (rtt : Nat) (ok : Bool),
    Inv s → (linkOf s l.val).st = 3 →
    ((linkOf s l.val).gen = 1 ∧ (linkOf s l.val).second = false) ∨ ((linkOf s l.val).second = true ∧ (linkOf s l.val).lanes = 0) →
    ∃ t, exec (.linkTrainingStageEnd l 0 rtt ok) s = .next t ∧ Fell l.val 2 (linkOf s l.val) s t) ∧
  (∀ (s : State) (l : Fin 13) (lanes : BitVec 8) (rtt : Nat) (ok : Bool),
    Inv s → (linkOf s l.val).st = 4 → rtt ≤ 448 →
    ∃ t, exec (.linkTrainingStageEnd l lanes rtt ok) s = .next t ∧ OtherLinks l.val s t ∧ (linkOf t l.val).rtt = rtt ∧
      (linkOf t l.val).encrypted = linkSeals s l.val ∧ (linkOf t l.val).st = if linkSeals s l.val then 5 else 6) ∧
  (∀ (s : State) (l : Fin 13) (lanes : BitVec 8) (rtt : Nat) (ok : Bool),
    Inv s → (linkOf s l.val).st = 4 → 448 < rtt →
    ∃ t, exec (.linkTrainingStageEnd l lanes rtt ok) s = .next t ∧ Fell l.val 3 (linkOf s l.val) s t) ∧
  (∀ (s : State) (l : Fin 13) (lanes : BitVec 8) (rtt g w f : Nat),
    Inv s → (linkOf s l.val).st = 7 → (linkOf s l.val).raise = false → rtt ≤ 448 →
    equalized s l.val (linkOf s l.val) (linkOf s l.val).gen lanes.toNat (linkOf s l.val).width = some (g, w, f) → g ≠ 0 →
    ∃ t, exec (.linkTrainingStageEnd l lanes rtt true) s = .next t ∧ OtherLinks l.val s t ∧
      t.out = s.out ++ [.replayAsk l.val 2 (linkOf s l.val).e] ∧
      linkOf t l.val = { linkOf s l.val with st := 6, since := s.time.cycle, txSince := s.time.cycle, gen := g, width := w, firstLane := f,
                                             rtt := rtt, second := false, lanes := 0, rx := 2, held := [], missing := [], waited := 0 }) ∧
  (∀ (s : State) (l : Fin 13) (us : Nat),
    Inv s → stateLimit (linkOf s l.val).st = some us → arrivalWins ((linkOf s l.val).since + usCycles us) (endsStage l.val) s = false →
    ∃ t u r, exec (.linkStateTimeout l) s = .next t ∧ u.time.cycle = max s.time.cycle ((linkOf s l.val).since + usCycles us) ∧
      (∀ x, linkOf u x = linkOf s x) ∧
      (∃ v, Fell l.val r (linkOf s l.val) u v ∧ (t = v ∨ t = freeStep 1 v)) ∧ ((linkOf s l.val).st = 3 → r = 2) ∧
      ((linkOf s l.val).st = 5 → r = 4) ∧ ((linkOf s l.val).st = 7 → r = 6))

/-- FLIT_POSITION, HOLDING_TIMEOUT, GO_BACK_RESEND_TIMEOUT, REPLAY_TIMEOUT, REKEY_INTERVAL, LINKCTL_REKEY: the expected flit is taken
and the next one expected, an acknowledgement frees what it covers, a bad position asks for the flit again, a flit whose tag fails
a second time takes the link down with reason 7, a duplicate is counted, a sequence number half way round retrains; what is not
answered in time is asked for or sent again, but an answer of the same cycle comes first; a key generation ends, and the engine
has the keys of the next (R26, R475 to R479, R481, R487). -/
def Obligations.FlitsAreReplayed : Prop :=
  (∀ (s : State) (l : Fin 13) (n ack : BitVec 12) (xoff : BitVec 4) (phase : Bool),
    Inv s → (linkOf s l.val).st = 6 → PlainFlit s l.val xoff.toNat phase → (linkOf s l.val).e = n.toNat →
    (linkOf s l.val).rx = 0 ∨ (linkOf s l.val).rx = 2 →
    (linkOf s l.val).held = [] → (linkOf s l.val).missing = [] →
    ∃ t, exec (.flitPosition l true true (some n) ack xoff 0 0 phase) s = .next t ∧ OtherLinks l.val s t ∧ t.out = s.out ∧
      (linkOf t l.val).e = (n.toNat + 1) % 4096 ∧ (linkOf t l.val).rx = 0 ∧ (linkOf t l.val).xoff = xoff.toNat ∧
      (linkOf t l.val).oldest = if (ack.toNat + 4096 - (linkOf s l.val).oldest) % 4096 < linkHeld (linkOf s l.val) then (ack.toNat + 1) % 4096
        else (linkOf s l.val).oldest) ∧
  (∀ (s : State) (l : Fin 13) (tagOk : Bool) (seq : Option (BitVec 12)) (ack rs : BitVec 12) (xoff : BitVec 4) (req : BitVec 2) (phase : Bool),
    Inv s → (linkOf s l.val).st = 5 ∨ (linkOf s l.val).st = 6 → (linkOf s l.val).rx = 0 →
    ∃ t, exec (.flitPosition l false tagOk seq ack xoff req rs phase) s = .next t ∧ OtherLinks l.val s t ∧
      t.out = s.out ++ [.replayAsk l.val (if obj s 0x5004 4 = 0 then 2 else 1) (linkOf s l.val).e] ∧
      linkOf t l.val = if obj s 0x5004 4 = 0
        then { (linkOf s l.val).counted 0 with rx := 2, held := [], missing := [], waited := 0, rxCtr := ((linkOf s l.val).rxCtr + 1) % 2 ^ 64 }
        else { (linkOf s l.val).counted 0 with rx := 1, missing := [(linkOf s l.val).e], waited := 0,
                                               rxCtr := ((linkOf s l.val).rxCtr + 1) % 2 ^ 64 }) ∧
  (∀ (s : State) (l : Fin 13) (n ack rs : BitVec 12) (xoff : BitVec 4) (req : BitVec 2) (phase : Bool),
    Inv s → (linkOf s l.val).st = 6 → (linkOf s l.val).encrypted = true → (linkOf s l.val).tagBad = some n.toNat →
    ∃ t k, exec (.flitPosition l true false (some n) ack xoff req rs phase) s = .next t ∧ Fell l.val 7 k s t ∧
      k.counts = (((linkOf s l.val).counted 0).counted 1).counts) ∧
  (∀ (s : State) (l : Fin 13) (n ack : BitVec 12) (xoff : BitVec 4) (phase : Bool),
    Inv s → (linkOf s l.val).st = 6 → PlainFlit s l.val xoff.toNat phase →
    2049 ≤ (n.toNat + 4096 - (linkOf s l.val).e) % 4096 →
    ∃ t, exec (.flitPosition l true true (some n) ack xoff 0 0 phase) s = .next t ∧ OtherLinks l.val s t ∧ t.out = s.out ∧
      (linkOf t l.val).e = (linkOf s l.val).e ∧ (linkOf t l.val).counts = ((takeOff s.time.cycle xoff.toNat (linkOf s l.val)).counted 4).counts) ∧
  (∀ (s : State) (l : Fin 13) (n ack : BitVec 12) (xoff : BitVec 4) (phase : Bool),
    Inv s → (linkOf s l.val).st = 6 → PlainFlit s l.val xoff.toNat phase →
    (n.toNat + 4096 - (linkOf s l.val).e) % 4096 = 2048 →
    ((linkOf s l.val).retrains.filter fun c => decide (s.time.cycle < c + 2000000000)).length < obj s 0x5004 3 →
    ∃ t, exec (.flitPosition l true true (some n) ack xoff 0 0 phase) s = .next t ∧ OtherLinks l.val s t ∧
      (linkOf t l.val).st = 7 ∧ (linkOf t l.val).e = (linkOf s l.val).e) ∧
  (∀ (s : State) (l : Fin 13) (ack rs : BitVec 12) (xoff : BitVec 4) (phase : Bool),
    Inv s → (linkOf s l.val).st = 6 → PlainFlit s l.val xoff.toNat phase →
    linkHeld (linkOf s l.val) ≤ (ack.toNat + 4096 - (linkOf s l.val).oldest) % 4096 → seqHeld (linkOf s l.val) rs.toNat = true →
    (linkOf s l.val).resent.find? (fun q => q.1 == rs.toNat) = none →
    ∃ t, exec (.flitPosition l true true none ack xoff 1 rs phase) s = .next t ∧ OtherLinks l.val s t ∧
      t.out = s.out ++ [.resend l.val rs.toNat 1] ∧ (linkOf t l.val).counts = ((takeOff s.time.cycle xoff.toNat (linkOf s l.val)).counted 2).counts) ∧
  (∀ (s : State) (l : Fin 13),
    Inv s → (linkOf s l.val).st = 5 ∨ (linkOf s l.val).st = 6 → (linkOf s l.val).rx = 1 → (linkOf s l.val).missing ≠ [] →
    ∃ t, exec (.holdingTimeout l) s = .next t ∧ OtherLinks l.val s t ∧ t.out = s.out ++ [.replayAsk l.val 2 (linkOf s l.val).e] ∧
      t.time.cycle = s.time.cycle + flitCycles (linkOf s l.val) (2 * (linkOf s l.val).rtt + 64 - (linkOf s l.val).waited) ∧
      linkOf t l.val = { linkOf s l.val with rx := 2, held := [], missing := [], waited := 0 }) ∧
  (∀ (s : State) (l : Fin 13),
    Inv s → (linkOf s l.val).st = 5 ∨ (linkOf s l.val).st = 6 → (linkOf s l.val).rx = 2 →
    ∃ t, exec (.goBackResendTimeout l) s = .next t ∧ OtherLinks l.val s t ∧ t.out = s.out ++ [.replayAsk l.val 2 (linkOf s l.val).e] ∧
      linkOf t l.val = { linkOf s l.val with waited := 0 }) ∧
  (∀ (s : State) (l : Fin 13),
    Inv s → (linkOf s l.val).st = 5 ∨ (linkOf s l.val).st = 6 → linkHeld (linkOf s l.val) ≠ 0 → (linkOf s l.val).backs < 3 →
    arrivalWins ((linkOf s l.val).ackAt + nsCycles (obj s 0x5004 2)) (bringsAck l.val (linkOf s l.val)) s = false →
    ∃ t, exec (.replayTimeout l) s = .next t ∧ OtherLinks l.val s t ∧
      t.out = s.out ++ [.resend l.val (linkOf s l.val).oldest (linkHeld (linkOf s l.val))] ∧
      t.time.cycle = max s.time.cycle ((linkOf s l.val).ackAt + nsCycles (obj s 0x5004 2)) ∧
      (linkOf t l.val).backs = (linkOf s l.val).backs + 1 ∧ (linkOf t l.val).ackAt = t.time.cycle ∧
      (linkOf t l.val).counts = ((linkOf s l.val).counted 3).counts) ∧
  (∀ (s : State) (l : Fin 13),
    Inv s → (linkOf s l.val).st = 6 → (linkOf s l.val).encrypted = true →
    ∃ t, exec (.rekeyInterval l) s = .next t ∧ OtherLinks l.val s t ∧
      t.time.cycle = max s.time.cycle ((linkOf s l.val).txSince + flitCycles (linkOf s l.val) (2 ^ obj s 0x5004 1)) ∧
      linkOf t l.val = linkKeys t l.val { (linkOf s l.val).counted 6 with txGen := (linkOf s l.val).txGen + 1, txSince := t.time.cycle }) ∧
  (∀ (s : State) (l : Fin 13),
    Inv s → (linkOf s l.val).st = 6 → (linkOf s l.val).encrypted = true →
    (linkOf s l.val).txSince + flitCycles (linkOf s l.val) (2 ^ 20) ≤ s.time.cycle →
    ∃ t, exec (.linkctlRekey l) s = .next t ∧ OtherLinks l.val s t ∧
      linkOf t l.val = linkKeys t l.val { (linkOf s l.val).counted 6 with txGen := (linkOf s l.val).txGen + 1, txSince := s.time.cycle })

/-- LINKCTL_RETRAIN, LINK_RETRAIN_TRIGGER, LINKCTL_DOWN, LINK_DOWN: a retrain of an ACTIVE link advances both key generations and
keeps the sequence numbers, and only the commanded one may raise the rate; one retrain too many within a second takes the link
down with reason 6; LINKCTL.down takes it down with reason 9, an event with its own (R480, R481, R487, R488). -/
def Obligations.LinksRetrainAndFall : Prop :=
  (∀ (s : State) (l : Fin 13),
    Inv s → (linkOf s l.val).st = 6 →
    ((linkOf s l.val).retrains.filter fun c => decide (s.time.cycle < c + 2000000000)).length < obj s 0x5004 3 →
    ∃ t u, exec (.linkctlRetrain l) s = .next t ∧ exec (.linkRetrainTrigger l) s = .next u ∧ OtherLinks l.val s t ∧ OtherLinks l.val s u ∧
      linkOf t l.val = linkKeys s l.val { (linkOf s l.val).counted 5 with
        st := 7, since := s.time.cycle, txGen := (linkOf s l.val).txGen + 1, rxGen := (linkOf s l.val).rxGen + 1, raise := true,
        second := false, lanes := 0, tagBad := none, rxCtr := 0, retrains := (linkOf t l.val).retrains } ∧
      linkOf u l.val = { linkOf t l.val with raise := false } ∧
      (linkOf t l.val).retrains = ((linkOf s l.val).retrains.filter fun c => decide (s.time.cycle < c + 2000000000)) ++ [s.time.cycle]) ∧
  (∀ (s : State) (l : Fin 13),
    Inv s → (linkOf s l.val).st = 6 →
    obj s 0x5004 3 ≤ ((linkOf s l.val).retrains.filter fun c => decide (s.time.cycle < c + 2000000000)).length →
    ∃ t k, exec (.linkRetrainTrigger l) s = .next t ∧ Fell l.val 6 k s t ∧ k.counts = ((linkOf s l.val).counted 5).counts) ∧
  (∀ (s : State) (l : Fin 13) (reason : BitVec 4),
    Inv s → (linkOf s l.val).st ≠ 0 →
    ∃ t u, exec (.linkctlDown l) s = .next t ∧ Fell l.val 9 (linkOf s l.val) s t ∧
      exec (.linkDown l reason) s = .next u ∧ Fell l.val reason.toNat (linkOf s l.val) s u)

/-! ## Link-channel messages, windows and tellers -/

/-- KEY_HELLO, KEY_REPLY, KEY_PROOF: in SECURE the responder answers KEY_HELLO with KEY_REPLY and its proof, the opening end answers
KEY_REPLY with its proof, and each then has the pseudorandom key of both; a proof takes the link to ACTIVE with its numbers at 0 and
the keys of generation 0, or down with reason 5 where the partner is not trusted; a message of another length fails the exchange
with reason 4 (R481, R483 to R485, R487). -/
def Obligations.KeysAreExchanged : Prop :=
  (∀ (s : State) (l : Fin 13) (m : KafMsg),
    Inv s → (linkOf s l.val).st = 5 → (linkOf s l.val).frag = none → m.tag = 0 → m.data.length = 1248 → linkOpens s l.val = false →
    (linkOf s l.val).hello = [] →
    ∃ t, exec (.keyHello l m) s = .next t ∧ OtherLinks l.val s t ∧ (linkOf t l.val).st = 5 ∧ (linkOf t l.val).hello = m.data ∧
      (linkOf t l.val).reply.length = 1152 ∧ (linkOf t l.val).proofSent = true ∧ (linkOf t l.val).prk = linkPrk (linkOf t l.val) ∧
      .kaf l.val { kafOf 0x71 with data := (linkOf t l.val).reply } ∈ t.out) ∧
  (∀ (s : State) (l : Fin 13) (m : KafMsg),
    Inv s → (linkOf s l.val).st = 5 → (linkOf s l.val).frag = none → m.tag = 0 → m.data.length = 1152 →
    (linkOf s l.val).hello ≠ [] → (linkOf s l.val).reply = [] →
    ∃ t, exec (.keyReply l m) s = .next t ∧ OtherLinks l.val s t ∧ (linkOf t l.val).st = 5 ∧ (linkOf t l.val).reply = m.data ∧
      (linkOf t l.val).proofSent = true ∧ (linkOf t l.val).prk = linkPrk (linkOf t l.val)) ∧
  (∀ (s : State) (l : Fin 13) (m : KafMsg),
    Inv s → (linkOf s l.val).st = 5 → (linkOf s l.val).frag = none → m.tag = 0 → m.data.length < 4096 →
    (linkOf s l.val).hello ≠ [] → (linkOf s l.val).reply ≠ [] → (linkOf s l.val).proofSent = true →
    ∃ t, exec (.keyProof l m) s = .next t ∧ (linkTrusted s l.val m.data = false → Fell l.val 5 (linkOf s l.val) s t) ∧
      (linkTrusted s l.val m.data = true → OtherLinks l.val s t ∧ (linkOf t l.val).st = 6 ∧ (linkOf t l.val).proofOk = true ∧
        (linkOf t l.val).e = 0 ∧ (linkOf t l.val).next = 0 ∧ (linkOf t l.val).oldest = 0 ∧ (linkOf t l.val).rx = 0 ∧
        (linkOf t l.val).txGen = 0 ∧ (linkOf t l.val).rxGen = 0 ∧
        ((linkOf s l.val).encrypted = true → (linkOf t l.val).txKey = linkKey (linkOf t l.val) (linkOpens s l.val) 0 ∧
          (linkOf t l.val).rxKey = linkKey (linkOf t l.val) (!linkOpens s l.val) 0))) ∧
  (∀ (s : State) (l : Fin 13) (m : KafMsg),
    Inv s → (linkOf s l.val).st = 5 → (linkOf s l.val).frag = none → m.tag = 0 → m.data.length < 4096 →
    ∃ t u, exec (.keyHello l m) s = .next t ∧ (m.data.length ≠ 1248 → Fell l.val 4 (linkOf s l.val) s t) ∧
      exec (.keyReply l m) s = .next u ∧ (m.data.length ≠ 1152 → Fell l.val 4 (linkOf s l.val) s u))

/-- TLMSG, TLANS, MALFORMED_MESSAGE, WIN_RD, WIN_WR: a keystone's message reaches channel 67, and one whose fields do not hold is
counted and denied; an answer is received and counted; a malformed message is counted, and answered BAD_DESC where its opcode asks
for an answer; a window read answers the bytes that the tenant's view shows, a write into the teller's send buffer lands and is
answered Cmp (R471, R484, R649 to R651, R469, R636, R637). -/
def Obligations.LinkMessagesAreTaken : Prop :=
  (∀ (s : State) (l : Fin 13) (m : KafMsg),
    Inv s → (linkOf s l.val).st = 6 → keystonePort s l.val = true → (linkOf s l.val).frag = none → m.tag = 0 → m.data.length < 4096 →
    m.mask < 2 ^ 48 → m.mask % 2 ^ 24 = m.data.length → (chanOf s 67).msg = none → (chanOf s 67).replyFull = false →
    ∃ t, exec (.tlmsg l m) s = .next t ∧ t.out = s.out ∧
      (chanOf t 67).msg = some { seq := m.mask / 2 ^ 32, verb := m.mask / 2 ^ 24 % 256, dest := 0, bytes := m.data, at_ := s.time.cycle }) ∧
  (∀ (s : State) (l : Fin 13) (m : KafMsg),
    Inv s → (linkOf s l.val).st = 6 → keystonePort s l.val = true → (linkOf s l.val).frag = none → m.tag = 0 → m.data.length < 4096 →
    m.mask % 2 ^ 13 ≠ m.data.length →
    ∃ t, exec (.tlmsg l m) s = .next t ∧ t.tel = s.tel ∧ (linkOf t l.val).counts = ((linkOf s l.val).counted 7).counts ∧
      t.out = s.out ++ [.kaf l.val { kafOf 0x74 with mask := 2 ^ 31 + 2 * 2 ^ 16 + m.mask % 2 ^ 64 / 2 ^ 32 % 65536, code := 1 }]) ∧
  (∀ (s : State) (l : Fin 13) (m : KafMsg),
    (linkOf s l.val).st = 6 → 8 ≤ l.val → l.val < 12 →
    ∃ t, exec (.tlans l m) s = .next t ∧ t = linkTally false l.val (kafSlots m.data.length) s) ∧
  (∀ (s : State) (l : Fin 13) (h : BitVec 256) (vc : Fin 8) (len : Nat),
    Inv s → sends s l.val = true → kafMalformed h vc.val len = true →
    ∃ t, exec (.malformedMessage l h vc len) s = .next t ∧ OtherLinks l.val s t ∧
      (linkOf t l.val).counts = ((linkOf s l.val).counted 7).counts ∧ (linkOf t l.val).st = (linkOf s l.val).st ∧
      t.out = s.out ++ if vc.val < 4 ∧ kafAsks (fld h 7 0) then
        [.kaf l.val { kafOf 0x20 with tag := fld h 114 99, code := 0x50 }] else []) ∧
  (∀ (s : State) (l : Fin 8) (m : KafMsg) (n : Fin 64),
    live s = true → s.span.twin = .single → sends s l.val = true → m.op = 0x48 → pasidTenant s m.pasid = n.val →
    inView m.addr (m.mask % 16) = true → viewShape false m.addr (m.mask % 16) = true → tollField s (128 + l.val) 1 = 0 →
    ∃ t, exec (.winRd ⟨l.val, by omega⟩ m) s = .next t ∧
      t.out = s.out ++ [.kaf l.val { kafOf 0x4A with tag := m.tag, srcDev := m.srcDev, data := (viewRead n m.addr (m.mask % 16) s).1 }]) ∧
  (∀ (s : State) (l : Fin 8) (m : KafMsg) (n : Fin 64),
    live s = true → s.span.twin = .single → sends s l.val = true → m.op = 0x49 → pasidTenant s m.pasid = n.val →
    0x41000 ≤ m.addr → m.addr + m.data.length ≤ 0x42000 → viewShape true m.addr m.data.length = true → tollField s (128 + l.val) 1 = 0 →
    ∃ t, exec (.winWr ⟨l.val, by omega⟩ m) s = .next t ∧
      t.out = s.out ++ [.kaf l.val { kafOf 0x1E with tag := m.tag, srcDev := m.srcDev }] ∧
      t.tel = (setChan n.val { chanOf s n.val with send := putBytes (chanOf s n.val).send (m.addr - 0x41000) m.data } s).tel) ∧
  (∀ (s : State) (l : Fin 8) (m : KafMsg),
    live s = true → s.span.twin = .single → sends s l.val = true → m.op = 0x48 → pasidTenant s m.pasid = 0xFF →
    tollField s (128 + l.val) 1 = 0 →
    ∃ t, exec (.winRd ⟨l.val, by omega⟩ m) s = .next t ∧
      t.out = s.out ++ [.kaf l.val { kafOf 0x20 with tag := m.tag, code := 0x20, srcDev := m.srcDev }])

/-- TLSEND, TLRDONE, INBACK, DICTIONARY_SERVICE, REGISTER_WRITE: a send puts the message of the send buffer to its receiver, is BUSY
while one waits and DENIED to a receiver that the channel may not address; a release of the reply buffer lets the oldest waiting
reply land; INBACK acknowledges the selected message by its number, or is stale, and a send that the message had turned away in the
same cycle goes in; the dictionary answers its oldest message with what the object holds for the path in this cycle and acknowledges
it; a register takes a write of its size at its place, and one of another size has no effect but that the steward's unit counts it
(R615, R616, R635 to R637, R649 to R655). -/
def Obligations.TellersCarryMessages : Prop :=
  (∀ (s : State) (c : Fin 72) (v : BitVec 64),
    fld v 63 48 = 0 → fld v 19 13 = 0 → fld v 12 0 ≤ 4096 → (chanOf s c.val).msg = none → (chanOf s c.val).replyFull = false →
    tlAllowed c.val (fld v 23 20) = true → (c.val < 64 → (tenantOf s c.val).st = .active) →
    ∃ t, exec (.tlsend c v) s = .next t ∧
      chanOf t c.val = { chanOf s c.val with msg := some { seq := fld v 47 32, verb := fld v 31 24, dest := fld v 23 20, at_ := s.time.cycle, bytes := (List.range (fld v 12 0)).map fun i => tget 0 (chanOf s c.val).send i } } ∧
      t.out = s.out ++ if fld v 23 20 = 2 ∧ s.win.inbIrq then [.stewardIrq s.win.inbVec] else []) ∧
  (∀ (s : State) (c : Fin 72) (v : BitVec 64),
    fld v 63 48 = 0 → fld v 19 13 = 0 → fld v 12 0 ≤ 4096 → (chanOf s c.val).msg ≠ none ∨ (chanOf s c.val).replyFull = true →
    ∃ t, exec (.tlsend c v) s = .next t ∧ t.out = s.out ∧
      chanOf t c.val = { chanOf s c.val with ackValid := true, ackCode := 1, ackSeq := fld v 47 32,
                                             turned := if (chanOf s c.val).replyFull then none else some (s.time.cycle, v) }) ∧
  (∀ (s : State) (c : Fin 72) (v : BitVec 64),
    fld v 63 48 = 0 → fld v 19 13 = 0 → fld v 12 0 ≤ 4096 → (chanOf s c.val).msg = none → (chanOf s c.val).replyFull = false →
    tlAllowed c.val (fld v 23 20) = false →
    ∃ t, exec (.tlsend c v) s = .next t ∧ t.out = s.out ∧
      chanOf t c.val = { chanOf s c.val with ackValid := true, ackCode := 2, ackSeq := fld v 47 32 }) ∧
  (∀ (s : State) (c : Fin 72) (v : BitVec 32),
    Inv s → (chanOf s c.val).replyFull = true → fld v 0 0 = 1 →
    ∃ t, exec (.tlrdone c v) s = .next t ∧
      chanOf t c.val = match (chanOf s c.val).wait with
        | [] => { chanOf s c.val with replyFull := false }
        | r :: rest => { chanOf s c.val with rply := some r, wait := rest }) ∧
  (∀ (s : State) (v : BitVec 64) (m : TlMsg),
    fld v 63 36 = 0 → fld v 15 13 = 0 → fld v 35 32 < 4 → fld v 12 0 ≤ 4096 → inboxMsg s s.tel.inbSel = some m →
    (chanOf s s.tel.inbSel).replyFull = false → (fld v 12 0 = 0 → tlQuiet s s.tel.inbSel = true) →
    ∃ t, exec (.inback v) s = .next t ∧
      (m.seq ≠ fld v 31 16 → t.tel = { s.tel with refused := false, stale := true }) ∧
      (m.seq = fld v 31 16 → Acked t s.tel.inbSel (fld v 35 32) m ∧ t.tel.stale = false ∧ t.tel.refused = false ∧
        (fld v 12 0 ≠ 0 → (chanOf t s.tel.inbSel).replyFull = true ∧ (chanOf t s.tel.inbSel).rply = some { dest := 2, seq := m.seq, verb := m.verb, bytes := (List.range (fld v 12 0)).map fun i => tget 0 s.tel.inbReply i }))) ∧
  (∀ (s : State) (v w : BitVec 64) (m : TlMsg),
    fld v 63 36 = 0 → fld v 15 13 = 0 → fld v 35 32 < 4 → fld v 12 0 = 0 → inboxMsg s s.tel.inbSel = some m → m.seq = fld v 31 16 →
    (chanOf s s.tel.inbSel).replyFull = false → (chanOf s s.tel.inbSel).turned = some (s.time.cycle, w) →
    fld w 63 48 = 0 → fld w 19 13 = 0 → fld w 12 0 ≤ 4096 → tlAllowed s.tel.inbSel (fld w 23 20) = true →
    (s.tel.inbSel < 64 → (tenantOf s s.tel.inbSel).st = .active) →
    ∃ t, exec (.inback v) s = .next t ∧ (chanOf t s.tel.inbSel).ackCode = fld v 35 32 ∧ (chanOf t s.tel.inbSel).ackSeq = m.seq ∧
      (chanOf t s.tel.inbSel).msg = some { seq := fld w 47 32, verb := fld w 31 24, dest := fld w 23 20, at_ := s.time.cycle, bytes := (List.range (fld w 12 0)).map fun i => tget 0 (chanOf s s.tel.inbSel).send i }) ∧
  (∀ (s : State) (c : Nat) (m : TlMsg),
    answering s = true → tlOldest s 0 = some (c, m) → (chanOf s c).msg = some m → tlQuiet s c = true → m.verb ≠ 1 → c ≠ 67 →
    ∃ t, exec .dictionaryService s = .next t ∧ Acked t c 3 m ∧ t.dict = s.dict) ∧
  (∀ (s : State) (c : Nat) (m : TlMsg) (index sub off len : Nat),
    answering s = true → tlOldest s 0 = some (c, m) → (chanOf s c).msg = some m → (chanOf s c).replyFull = false → m.verb = 1 → c ≠ 67 →
    m.bytes = leBytes (1 + 256 * sub + 65536 * index) 4 ++ leBytes 0 4 ++ leBytes off 4 ++ leBytes len 4 →
    sub < 256 → index < 65536 → off < 2 ^ 32 → len < 2 ^ 32 →
    ∃ t, exec .dictionaryService s = .next t ∧ Acked t c 0 m ∧ (chanOf t c).rply = some { dest := 0, seq := m.seq, verb := 1, bytes := dictResponse (1 + 256 * sub + 65536 * index) (readNow (chanPrin c) index sub off len (accessOn c s)).1 (readNow (chanPrin c) index sub off len (accessOn c s)).2.1 (readNow (chanPrin c) index sub off len (accessOn c s)).2.2 }) ∧
  (∀ (s : State) (v : Nat),
    live s = true → v < 2 ^ 32 →
    ∃ t u w, exec (.registerWrite .steward 0x20000 (leBytes v 4)) s = .next t ∧ t.win = { s.win with coreSel := v % 32 } ∧
      exec (.registerWrite .steward 0x40000 (leBytes v 4)) s = .next u ∧ u.win = { s.win with pierSel := v % 16 } ∧
      exec (.registerWrite .steward 0x10000 (leBytes v 4)) s = .next w ∧ w.win = { s.win with ctxSel := v % 4096 }) ∧
  (∀ (s : State) (w : Door) (off : Nat) (data : List Byte),
    live s = true → data.length = 3 → off + 3 ≤ 0x40000 →
    exec (.registerWrite w off data) s = .next (if w = .steward then linkTally false 27 3 s else s)) ∧
  (∀ (s : State) (off : Nat) (data : List Byte),
    live s = true → obj s 0x1021 2 ≠ 1 → exec (.registerWrite .rack off data) s = .next s)

/-! ## The truss and traffic shaping -/

/-- TABLE_COMMIT, EPOCH_RETIRE, MULTICAST_DELIVERY_NOTICE, TRUSS_FLIT_CRC_FAIL, RESET_DRAIN_LIMIT: a valid table begins the other
epoch and the old one drains; an invalid one, and a commit while an epoch drains, change nothing but the status; the drained epoch
is retired; a delivery takes its endpoint from its packet, and lets the next unicast packet of its source, class and endpoint go
where one waits; the fourth failure of a flit in a row takes a lane group out of service
and the last group fails the die; the drain of a reset ends with what remains discarded (R499, R502, R504 to R509, R515). -/
def Obligations.TrussCarriesOn : Prop :=
  (∀ (s : State) (bs : List Byte),
    live s = true → s.truss.draining = false → s.truss.next = some bs → trussTableOk bs = true →
    ∃ t, exec (.tableCommit true) s = .next t ∧ obj t 0x2500 3 = 1 ∧
      t.truss = { s.truss with epoch := 1 - s.truss.epoch, draining := true, left := trussLeft s s.truss.epoch,
                               table0 := if s.truss.epoch = 1 then bs else s.truss.table0,
                               table1 := if s.truss.epoch = 0 then bs else s.truss.table1 }) ∧
  (∀ (s : State) (bs : List Byte),
    live s = true → s.truss.draining = false → s.truss.next = some bs → trussTableOk bs = false →
    ∃ t, exec (.tableCommit true) s = .next t ∧ obj t 0x2500 3 = 2 ∧ t.truss = s.truss ∧
      obj t 0x1022 1 = (obj s 0x1022 1 + 1) % 2 ^ 32) ∧
  (∀ s : State,
    live s = true → s.truss.draining = true →
    ∃ t, exec (.tableCommit true) s = .next t ∧ obj t 0x2500 3 = 3 ∧ t.truss = s.truss) ∧
  (∀ (s : State) (bs : List Byte),
    s.truss.draining = true → s.truss.left = 0 → s.truss.next = some bs →
    ∃ t, exec .epochRetire s = .next t ∧ obj t 0x2500 3 = 0 ∧ objDom t 0x2500 6 = bs ∧ t.truss.epoch = s.truss.epoch ∧
      t.truss.draining = false ∧ t.truss.next = none ∧ t.truss.packets = s.truss.packets ∧
      (s.truss.epoch = 0 → t.truss.table1 = []) ∧ (s.truss.epoch = 1 → t.truss.table0 = [])) ∧
  (∀ (s : State) (dest : Nat) (p : Packet) (pre rest : List Packet),
    s.truss.packets = pre ++ p :: rest → (∀ q ∈ pre, q.desc = p.desc → q.sent = true → dest ∉ q.wait) → p.sent = true → dest ∈ p.wait →
    ∃ t u, exec (.multicastDeliveryNotice p.desc dest) s = .next t ∧ (t = if p.mc then u else injectNext p.src p.cls dest u) ∧
      u = { s with truss := { s.truss with
        packets := if p.wait.erase dest = [] then pre ++ rest else pre ++ { p with wait := p.wait.erase dest } :: rest,
        left := if s.truss.draining ∧ p.epoch ≠ s.truss.epoch then s.truss.left - 1 else s.truss.left } }) ∧
  (∀ (s : State) (link : Fin 22) (dir : Bool) (k : Nat),
    live s = true → k = 2 * link.val + (if dir then 1 else 0) → tget 0 s.truss.crc k < 3 →
    ∃ t, exec (.trussFlitCrcFail link dir) s = .next t ∧
      t = s.setTruss fun x => { x with crc := tput 0 x.crc k (tget 0 s.truss.crc k + 1) }) ∧
  (∀ (s : State) (link : Fin 22) (dir : Bool) (k : Nat),
    live s = true → k = 2 * link.val + (if dir then 1 else 0) → 3 ≤ tget 0 s.truss.crc k →
    tget 0 s.truss.lost k + 1 < trussGroups link.val →
    ∃ t, exec (.trussFlitCrcFail link dir) s = .next t ∧ t.pwr = s.pwr ∧ t.tal.eventCount = (s.tal.eventCount + 1) % 2 ^ 64 ∧
      t.truss = { s.truss with crc := tput 0 s.truss.crc k 0, lost := tput 0 s.truss.lost k (tget 0 s.truss.lost k + 1) }) ∧
  (∀ (s : State) (link : Fin 22) (dir : Bool) (k : Nat),
    live s = true → k = 2 * link.val + (if dir then 1 else 0) → 3 ≤ tget 0 s.truss.crc k →
    trussGroups link.val ≤ tget 0 s.truss.lost k + 1 → obj s 0x2020 7 ≠ 1 →
    ∃ t, exec (.trussFlitCrcFail link dir) s = .next t ∧
      t.truss = { s.truss with crc := tput 0 s.truss.crc k 0, lost := tput 0 s.truss.lost k (trussGroups link.val) } ∧
      t.pwr = { s.pwr with dev := .failed, faultN := true, cause := 3, step := 0, resetAt := none }) ∧
  (∀ (s : State) (c : Nat),
    s.pwr.dev = .quiescing → s.pwr.resetAt = some c → arrivalWins (c + 8 + obj s 0x2500 8) delivers s = false →
    ∃ t, exec .resetDrainLimit s = .next t ∧ t.time.cycle = max s.time.cycle (c + 8 + obj s 0x2500 8) ∧
      t.truss = { s.truss with packets := [], left := 0 } ∧ t.pwr = s.pwr)

/-- GATE_CHANGE_COMMIT, GATE_LIST_CHANGE, GATE_ENTRY_BOUNDARY, TOLL_RELEASE: a committed list waits for its stated time, an
invalid list and a time that has passed are refused and told in 2600:06; at its time the list is the active one; the active list
goes on to its next entry; the head item of a descriptor toll is released when its tokens cover it, and the descriptor may then be
dispatched (R521 to R528, R534, R536). -/
def Obligations.GatesAndTolls : Prop :=
  (∀ (s : State) (p : Prin) (l : GateList),
    live s = true → mayTouch p 0x2600 5 = true → gateParse (objDom s 0x2600 2) = some l →
    gateTimeOk s (obj s 0x2600 3) (obj s 0x2600 4) = true →
    ∃ t, exec (.gateChangeCommit p true) s = .next t ∧ t.dict = s.dict ∧
      t.shape = { s.shape with change := some (l, obj s 0x2600 3, obj s 0x2600 4), status := 1 }) ∧
  (∀ (s : State) (p : Prin) (l : GateList),
    live s = true → mayTouch p 0x2600 5 = true → gateParse (objDom s 0x2600 2) = some l →
    gateTimeOk s (obj s 0x2600 3) (obj s 0x2600 4) = false →
    ∃ t, exec (.gateChangeCommit p true) s = .next t ∧ t.shape = { s.shape with status := 3 }) ∧
  (∀ (s : State) (p : Prin),
    live s = true → mayTouch p 0x2600 5 = true → gateParse (objDom s 0x2600 2) = none →
    ∃ t, exec (.gateChangeCommit p true) s = .next t ∧ t.shape = { s.shape with status := 2 } ∧
      obj t 0x1022 1 = (obj s 0x1022 1 + 1) % 2 ^ 32) ∧
  (∀ (s : State) (p : Prin) (v : Bool),
    live s = true → mayTouch p 0x2600 5 = false →
    ∃ t, exec (.gateChangeCommit p v) s = .next t ∧ t = bumpObj 0x1022 1 1 32 s) ∧
  (∀ (s : State) (l : GateList) (at_ : Nat),
    s.shape.change = some (l, 1, at_) → (∀ r ∈ s.coh.reqs, r.stage ≠ .gated) →
    ∃ t, exec .gateListChange s = .next t ∧ t.shape = { s.shape with active := l, change := none, status := 4 } ∧
      t.time.cycle = s.time.cycle + (2 * at_ - s.time.devHalf)) ∧
  (∀ (s : State) (l : GateList) (at_ : Nat),
    s.shape.change = some (l, 0, at_) → s.clk.st = .locked ∨ s.clk.st = .overrun → s.clk.last = bitsOf at_ 47 0 →
    (∀ r ∈ s.coh.reqs, r.stage ≠ .gated) →
    ∃ t, exec .gateListChange s = .next t ∧ t.shape = { s.shape with active := l, change := none, status := 4 } ∧
      t.time = (carryToPhase (bitsOf at_ 63 48) s).time) ∧
  (∀ (s : State) (l : GateList) (at_ : Nat),
    s.shape.change = some (l, 0, at_) → s.clk.st = .unlocked ∨ s.clk.st = .coast ∨ s.clk.last < bitsOf at_ 47 0 →
    exec .gateListChange s = .next s) ∧
  (∀ (s : State) (e : Nat × Nat),
    s.shape.active.cyclic = true → s.clk.stepDev ≤ 2 ^ 65 → stepAge s + 2 * (e.1 - gatePos s s.shape.active) < 2 ^ 65 →
    s.shape.active.entries.find? (fun e => decide (gatePos s s.shape.active < e.1)) = some e → e.1 < s.shape.active.cycleNs →
    (∀ r ∈ s.coh.reqs, r.stage ≠ .gated) →
    ∃ t, exec .gateEntryBoundary s = .next t ∧ t.shape = s.shape ∧ gatePos t t.shape.active = e.1 ∧
      t.time.cycle = s.time.cycle + (2 * (e.1 - gatePos s s.shape.active) - stepAge s % 2)) ∧
  (∀ (s : State) (e : Nat × Nat),
    s.shape.active.cyclic = false →
    s.shape.active.entries.find? (fun e => decide (phaseOf s < e.1)) = some e → (∀ r ∈ s.coh.reqs, r.stage ≠ .gated) →
    ∃ t, exec .gateEntryBoundary s = .next t ∧ t = carryToPhase e.1 s) ∧
  (∀ (s : State) (k id len cin : Nat) (rest : List (Nat × Nat × Nat × Nat)) (f : Flight),
    k < 64 → (tollNow s k).queue = (id, len, 0, cin) :: rest → tollField s k 1 ≠ 0 → flightOf s id = some f → f.stage = .tolled →
    ∃ t, exec (.tollRelease k) s = .next t ∧ t.time.cycle = s.time.cycle ∧
      flightOf t id = some { holdEnd s.time.cycle f with stage := .waiting } ∧ t.led = s.led) ∧
  (∀ (s : State) (k id len c cin : Nat) (rest : List (Nat × Nat × Nat × Nat)) (f : Flight),
    k < 64 → (tget ({} : Toll) s.shape.tolls k).on = true → (tget ({} : Toll) s.shape.tolls k).at_ ≤ s.time.cycle →
    (tget ({} : Toll) s.shape.tolls k).queue = (id, len, 1, cin) :: rest → tollField s k 1 ≠ 0 → tollField s k 9 = 0 →
    tollWait (tollNow s k).tc (min len (tollField s k 3) * 2000) (tollField s k 2) = some c →
    flightOf s id = some f → f.stage = .tolled →
    ∃ t, exec (.tollRelease k) s = .next t ∧ t.time.cycle = s.time.cycle + c ∧
      flightOf t id = some { holdEnd t.time.cycle f with stage := .waiting })

/-! ## Tallies and traces -/

/-- RESET_TALLY_GROUP, RESET_TENANT_TALLIES, FREEZE, FREEZE_TRIGGER: a reset returns one group, or all four, to 0 and another value is
refused; a tenant's tallies return to 0; a freeze takes the device time and leaves the tallies as they are, a second one does nothing,
and only a write of 0 lifts it, after which a trigger of the same cycle freezes them anew (R659, R661 to R663, R675). -/
def Obligations.TalliesResetAndFreeze : Prop :=
  (∀ (s : State) (p : Prin) (v : BitVec 8) (g : Nat),
    live s = true → mayTouch p 0x7004 1 = true →
    (v = 1 ∧ g = 0x7001) ∨ (v = 2 ∧ g = 0x7002) ∨ (v = 3 ∧ g = 0x7003) ∨ (v = 4 ∧ g = 0x7100) →
    ∃ t, exec (.resetTallyGroup p v) s = .next t ∧ t.dict = s.dict ∧
      t.tal = { s.tal with counts := s.tal.counts.filter fun q => decide (q.1 < tkey g 0 0) || decide (tkey (g + 1) 0 0 ≤ q.1) }) ∧
  (∀ (s : State) (p : Prin),
    live s = true → mayTouch p 0x7004 1 = true →
    ∃ t, exec (.resetTallyGroup p 0xFF) s = .next t ∧ ∀ q ∈ t.tal.counts, q ∈ s.tal.counts ∧
      ∀ g, g = 0x7001 ∨ g = 0x7002 ∨ g = 0x7003 ∨ g = 0x7100 → q.1 < tkey g 0 0 ∨ tkey (g + 1) 0 0 ≤ q.1) ∧
  (∀ (s : State) (p : Prin) (v : BitVec 8),
    live s = true → mayTouch p 0x7004 1 = true → v.toNat = 0 ∨ (4 < v.toNat ∧ v.toNat < 0xFF) →
    exec (.resetTallyGroup p v) s = .next (bumpObj 0x1022 1 1 32 s)) ∧
  (∀ (s : State) (p : Prin) (n : Fin 64),
    live s = true → mayTouch p (0x3008 + 16 * n.val) 0x10 = true →
    ∃ t, exec (.resetTenantTallies p n) s = .next t ∧ t.tal = s.tal ∧
      ∀ i, 1 ≤ i → i ≤ 15 → obj t (0x3008 + 16 * n.val) i = 0) ∧
  (∀ (s : State) (p : Prin),
    live s = true → mayTouch p 0x7000 2 = true → s.tal.frozen = false →
    ∃ t, exec (.freeze p true) s = .next t ∧ t.tal.frozen = true ∧ t.tal.frozenAt = devNs s ∧ t.tal.counts = s.tal.counts) ∧
  (∀ (s : State) (p : Prin),
    live s = true → mayTouch p 0x7000 2 = true → s.tal.frozen = true →
    exec (.freeze p true) s = .next s ∧
      ∃ t, exec (.freeze p false) s = .next t ∧ (s.tal.trigAt ≠ some s.time.cycle → t.tal = { s.tal with frozen := false }) ∧
        (s.tal.trigAt = some s.time.cycle → t.tal.frozen = true ∧ t.tal.frozenAt = devNs s ∧ t.tal.counts = s.tal.counts)) ∧
  (∀ s : State,
    s.tal.freezeWait = true → s.tal.frozen = false →
    ∃ t, exec .freezeTrigger s = .next t ∧ t.tal.frozen = true ∧ t.tal.frozenAt = devNs s ∧ t.tal.counts = s.tal.counts) ∧
  (∀ s : State, s.tal.freezeWait = false → exec .freezeTrigger s = .next s)

/-- TRACE_RECORD, ARM, TRIGGER_NOW, TRACE_TRIGGER: up to two records leave a die's FIFO for its next slots, and are dropped while no
trace runs; in mode 1 the last slot tells what is lost from then on; an arm clears both traces and takes the settings; a trigger of an
armed trace in mode 3 is registered on both dies, and each writes its record, after which 7300:02 more are taken (R666 to R670). -/
def Obligations.TracesRecord : Prop :=
  (∀ (s : State) (die : Fin 2) (a b : BitVec 256) (rest : List (BitVec 256)),
    (traceOf s die.val).wait = false → (traceOf s die.val).fifo = a :: b :: rest → (traceOf s die.val).st = 1 →
    s.tal.mode = 2 ∨ s.tal.mode = 3 →
    ∃ t, exec (.traceRecord die) s = .next t ∧ t.tal.recLost = s.tal.recLost % 2 ^ 64 ∧
      traceOf t die.val = { traceOf s die.val with
        fifo := rest, wr := (traceOf s die.val).wr + 2, recs := tins (tins (traceOf s die.val).recs ((traceOf s die.val).wr % 65536) a) (((traceOf s die.val).wr + 1) % 65536) b }) ∧
  (∀ (s : State) (die : Fin 2),
    (traceOf s die.val).wait = false → (traceOf s die.val).st = 0 ∨ (traceOf s die.val).st = 3 →
    ∃ t, exec (.traceRecord die) s = .next t ∧
      traceOf t die.val = { traceOf s die.val with fifo := (traceOf s die.val).fifo.drop 2 }) ∧
  (∀ (s : State) (die : Fin 2) (a : BitVec 256),
    (traceOf s die.val).wait = false → (traceOf s die.val).fifo = [a] → (traceOf s die.val).st = 1 → s.tal.mode = 1 →
    65535 ≤ (traceOf s die.val).wr →
    ∃ t, exec (.traceRecord die) s = .next t ∧ t.tal.recLost = (s.tal.recLost + 1) % 2 ^ 64 ∧
      (traceOf t die.val).recs = tins (traceOf s die.val).recs 65535 (traceWord s 0 3 0 0xFF 0 ((traceOf s die.val).wr - 65534) 0x10 0)) ∧
  (∀ (s : State) (die : Fin 2) (a : BitVec 256),
    (traceOf s die.val).wait = false → (traceOf s die.val).fifo = [a] → (traceOf s die.val).st = 2 → s.tal.mode = 3 →
    ∃ t, exec (.traceRecord die) s = .next t ∧ (traceOf t die.val).left = (traceOf s die.val).left - 1 ∧
      (traceOf t die.val).st = if (traceOf s die.val).left ≤ 1 then 3 else 2) ∧
  (∀ (s : State) (p : Prin),
    live s = true → mayTouch p 0x7300 6 = true →
    ∃ t, exec (.arm p true) s = .next t ∧ t.tal.io0 = { st := if t.tal.mode = 0 then 0 else 1 } ∧ t.tal.io1 = t.tal.io0 ∧
      t.tal.mode = obj t 0x7300 1 ∧ t.tal.post = obj t 0x7300 2 ∧ t.tal.kinds = obj t 0x7300 3 ∧ t.tal.tenants = obj t 0x7300 4 ∧
      t.tal.trigKinds = obj t 0x7300 5 ∧ t.tal.trigCode = obj t 0x7300 8 ∧ t.tal.armedFrom = s.time.cycle + 1) ∧
  (∀ (s : State) (p : Prin),
    live s = true → mayTouch p 0x7300 9 = true → s.tal.mode = 3 → traceArmed s = true →
    ∃ t, exec (.triggerNow p true) s = .next t ∧ t.tal.io0 = { s.tal.io0 with wait := true } ∧ t.tal.io1 = { s.tal.io1 with wait := true } ∧
      t.tal.trigIgnored = s.tal.trigIgnored) ∧
  (∀ (s : State) (p : Prin),
    live s = true → mayTouch p 0x7300 9 = true → s.tal.mode ≠ 0 → s.tal.armedFrom ≤ s.time.cycle → s.tal.io0.st ≠ 0 →
    s.tal.mode ≠ 3 ∨ traceArmed s = false →
    ∃ t, exec (.triggerNow p true) s = .next t ∧ t.tal = { s.tal with trigIgnored := (s.tal.trigIgnored + 1) % 2 ^ 32 }) ∧
  (∀ (s : State) (die : Fin 2),
    (traceOf s die.val).wait = true → (traceOf s die.val).lost = 0 → (traceOf s die.val).hidden = 0 →
    ∃ t, exec (.traceTrigger die) s = .next t ∧ (traceOf t die.val).st = 2 ∧ (traceOf t die.val).left = s.tal.post ∧
      (traceOf t die.val).trigSlot = (traceOf s die.val).wr % 65536 ∧ (traceOf t die.val).wr = (traceOf s die.val).wr + 1 ∧
      (traceOf t die.val).recs = tins (traceOf s die.val).recs ((traceOf s die.val).wr % 65536) (traceWord s 0 0 0 0xFF 0 0 0x0A 1))

/-! ## Power, reset and recovery -/

/-- POWER_UP, POWER_UP_STEP_END, ORDERLY_POWER_DOWN, EMERGENCY_POWER_DOWN, DIE_FAILURE, UCIE_LINK_LOSS: power-up begins at step 1 with
every memory lost, its steps follow one another, in step 6 the controllers train and are initialised, a failed step leaves the device
FAILED with fault_n asserted, and the end of steps 6 and 7 leaves it READY; a power-down leaves it SHUTDOWN, an emergency one with fault_n; a failed die leaves it FAILED, and a reset
follows where 2020:07 is 1 (R14, R548, R685 to R688). -/
def Obligations.PowerRisesAndFalls : Prop :=
  (∀ (s : State) (mv : Nat),
    s.pwr.dev = .shutdown → 40000 ≤ mv → mv ≤ 60000 →
    ∃ t, exec (.powerUp mv) s = .next t ∧ t.mem.bytes = [] ∧ t.time.cycle = 0 ∧ t.dict = {} ∧
      t.pwr = { dev := .starting, step := 1, rails := 0, pwrGood := false, millivolt := mv }) ∧
  (∀ (s : State) (mv : Nat),
    s.pwr.dev ≠ .shutdown ∨ mv < 40000 ∨ 60000 < mv → exec (.powerUp mv) s = .next s) ∧
  (∀ (s : State) (images : List Byte),
    s.pwr.dev = .starting → s.pwr.step = 1 ∨ s.pwr.step = 2 ∨ s.pwr.step = 3 →
    ∃ t u, exec (.powerUpStepEnd true images) s = .next t ∧ t.pwr.step = s.pwr.step + 1 ∧ t.pwr.dev = .starting ∧
      (s.pwr.step = 3 → t.pwr.pwrGood = true) ∧ (s.pwr.step = 2 → t.pwr.rails = 0x3FF) ∧
      exec (.powerUpStepEnd false images) s = .next u ∧
      u.pwr = { s.pwr with dev := .failed, faultN := true, cause := 8, step := 0, resetAt := none }) ∧
  (∀ (s : State) (images : List Byte),
    s.pwr.dev = .starting → s.pwr.step = 4 →
    ∃ t u, exec (.powerUpStepEnd true images) s = .next t ∧ t.pwr = { s.pwr with step := 5 } ∧ t.mint.nonce = freeAt s 0 % 2 ^ 256 ∧
      exec (.powerUpStepEnd false images) s = .next u ∧ u.pwr.dev = .failed ∧ u.mint.st = .identityFail) ∧
  (∀ (s : State) (images : List Byte),
    s.pwr.dev = .starting → s.pwr.step = 5 →
    ∃ t, exec (.powerUpStepEnd true images) s = .next t ∧ (∀ u, bootImages images s = some u → t = toStep 6 (startTraining u)) ∧
      (bootImages images s = none → t.pwr.dev = .failed ∧ t.pwr.faultN = true ∧ t.mint.st = .bootFail)) ∧
  (∀ (s : State) (images : List Byte),
    s.pwr.dev = .starting → s.pwr.step = 6 → s.pwr.ended7 = false → byteAt images 0 = 7 →
    ∃ t, exec (.powerUpStepEnd true images) s = .next t ∧ t.pwr.stewardUp = true ∧ t.pwr.dogStart = some s.time.cycle ∧
      (s.pwr.ended6 = false → t.pwr.dev = .starting ∧ t.pwr.ended7 = true ∧ t.mint.st = .running) ∧
      (s.pwr.ended6 = true → t.pwr.dev = .ready ∧ t.pwr.step = 0)) ∧
  (∀ (s : State) (images : List Byte),
    Inv s → s.pwr.dev = .starting → s.pwr.step = 6 → s.pwr.ended6 = false → byteAt images 0 ≠ 7 →
    (∀ p ∈ s.hbm.ctl, p.2.st ≠ .initialising) → (∀ c, c < 24 → byteAt images (2 * c + 2) ≠ 1) →
    ∃ t, exec (.powerUpStepEnd true images) s = .next t ∧ t.pwr = s.pwr ∧ ∀ c, c < 24 → (ctlOf t c).st = .initialising) ∧
  (∀ (s : State) (images : List Byte),
    Inv s → s.pwr.dev = .starting → s.pwr.step = 6 → s.pwr.ended6 = false → byteAt images 0 ≠ 7 →
    (∃ p ∈ s.hbm.ctl, p.2.st = .initialising) → leNat (slice images 5 3) = 0 →
    ∃ t, exec (.powerUpStepEnd true images) s = .next t ∧
      (∀ c, c < 24 → (ctlOf s c).st = .initialising → (ctlOf t c).st = .inService) ∧
      (s.pwr.ended7 = false → t.pwr = { s.pwr with ended6 := true }) ∧ (s.pwr.ended7 = true → t.pwr.dev = .ready ∧ t.pwr.step = 0)) ∧
  (∀ (s : State) (v : BitVec 8),
    s.pwr.dev ≠ .shutdown →
    ∃ t, exec (.orderlyPowerDown true v) s = .next t ∧ t.pwr.dev = .shutdown ∧ t.pwr.pwrEn = false ∧ t.pwr.pwrGood = false ∧
      t.pwr.faultN = false ∧ t.pwr.rails = 0 ∧ t.mem.bytes = [] ∧ t.mint.keys = []) ∧
  (∀ s : State,
    live s = true →
    ∃ t, exec (.orderlyPowerDown false 0xA5) s = .next t ∧ t.pwr.dev = .shutdown ∧ t.pwr.pwrGood = false ∧ t.mem.bytes = []) ∧
  (∀ (s : State) (v : BitVec 8),
    live s = true → v ≠ 0xA5 → exec (.orderlyPowerDown false v) s = .next (bumpObj 0x1022 1 1 32 s)) ∧
  (∀ (s : State) (cause : BitVec 8),
    5 ≤ cause.toNat → cause.toNat ≤ 7 → s.pwr.dev ≠ .shutdown →
    ∃ t, exec (.emergencyPowerDown cause) s = .next t ∧ t.mem.bytes = [] ∧ t.pwr.dev = .shutdown ∧ t.pwr.faultN = true ∧
      t.pwr.emergency = true ∧ t.pwr.cause = cause.toNat ∧ t.pwr.downAt = s.time.cycle) ∧
  (∀ (s : State) (die : Fin 9),
    live s = true → obj s 0x2020 7 ≠ 1 →
    ∃ t, exec (.dieFailure die) s = .next t ∧
      t = s.setPwr fun p => { p with dev := .failed, faultN := true, cause := 3, step := 0, resetAt := none }) ∧
  (∀ (s : State) (die : Fin 9),
    live s = true → obj s 0x2020 7 = 1 → s.pwr.resetAt = none →
    ∃ t, exec (.dieFailure die) s = .next t ∧
      t = s.setPwr fun p => { p with dev := .quiescing, faultN := true, cause := 3, step := 0, resetAt := some s.time.cycle }) ∧
  (∀ s : State,
    live s = true → obj s 0x2020 7 ≠ 1 →
    ∃ t, exec .ucieLinkLoss s = .next t ∧ obj t 0x5600 1 = 3 * 2 ^ 28 ∧
      t.pwr = { s.pwr with dev := .failed, faultN := true, cause := 3, step := 0, resetAt := none })

/-- RST_N, REQUEST_DEVICE_RESET, DEVICE_RESET, RESET_RELEASE, WATCHDOG_KICK, WATCHDOG_EXPIRY, ISSUE_ALLOWANCE_UPDATE: a request quiesces
the device and a further one is counted; the reset returns every domain to its reset values but the retained segments and the reset
controller; the release restarts power-up at step 4; a kick restarts the watchdog's period, whose end requests a reset with cause 4;
each core's issue allowance falls by one a 10 µs while the cap or a temperature is passed and rises while there is room (R682, R683,
R691, R693 to R696, R706). -/
def Obligations.DeviceResets : Prop :=
  (∀ s : State,
    s.pwr.dev = .ready → s.pwr.resetAt = none →
    exec .rstN s = .next (s.setPwr fun p => { p with dev := .quiescing, resetAt := some s.time.cycle, cause := 1 })) ∧
  (∀ s : State, s.pwr.dev = .starting ∨ s.pwr.dev = .quiescing ∨ s.pwr.dev = .reset ∨ s.pwr.dev = .shutdown → exec .rstN s = .next s) ∧
  (∀ (s : State) (p : Prin),
    s.pwr.dev = .ready ∨ s.pwr.dev = .failed → mayTouch p 0x2020 1 = true → s.pwr.resetAt = none →
    exec (.requestDeviceReset p 0xA5) s =
      .next (s.setPwr fun p => { p with dev := .quiescing, resetAt := some s.time.cycle, cause := 2 })) ∧
  (∀ (s : State) (p : Prin),
    answering s = true → mayTouch p 0x2020 1 = true → s.pwr.resetAt ≠ none →
    exec (.requestDeviceReset p 0xA5) s = .next (s.setPwr fun p => { p with ignored := (p.ignored + 1) % 65536 })) ∧
  (∀ (s : State) (p : Prin) (v : BitVec 8),
    answering s = true → mayTouch p 0x2020 1 = false ∨ v ≠ 0xA5 →
    exec (.requestDeviceReset p v) s = .next (bumpObj 0x1022 1 1 32 s)) ∧
  (∀ (s : State) (c : Nat),
    s.pwr.dev = .quiescing → s.pwr.resetAt = some c →
    ∃ t, exec .deviceReset s = .next t ∧ t.pwr.dev = .reset ∧ t.pwr.step = 4 ∧ t.pwr.resets = (s.pwr.resets + 1) % 65536 ∧
      t.pwr.cause = s.pwr.cause ∧ t.pwr.rails = s.pwr.rails ∧ t.time.cycle = max s.time.cycle (c + 8) ∧
      t.pwr.resetAt = some t.time.cycle ∧ (∀ c, c < 24 → (ctlOf t c).st = .retained) ∧ t.attn.flights = [] ∧ t.led.qps = [] ∧ t.kv = {} ∧ t.links.link = [] ∧
      t.clk = {} ∧ (∀ q ∈ t.mem.bytes, q.1 < keptTop t.hbm.retained)) ∧
  (∀ (s : State) (c : Nat),
    s.pwr.dev = .reset → s.pwr.resetAt = some c →
    ∃ t, exec .resetRelease s = .next t ∧ t.time = {} ∧ t.clk = {} ∧ t.hbm = s.hbm ∧ t.mem = s.mem ∧
      t.pwr = { s.pwr with dev := .starting, step := 4, resetAt := some 0 }) ∧
  (∀ (s : State) (c : Nat),
    live s = true → s.pwr.dogStart = some c →
    exec (.watchdogKick true) s = .next (s.setPwr fun p => { p with dogStart := some s.time.cycle })) ∧
  (∀ (s : State) (v : Bool), live s = true → s.pwr.dogStart = none ∨ v = false → exec (.watchdogKick v) s = .next s) ∧
  (∀ (s : State) (c : Nat),
    s.pwr.dogStart = some c → obj s 0x2020 3 ≠ 0 → s.pwr.dev = .ready → s.pwr.resetAt = none →
    arrivalWins (c + msCycles (obj s 0x2020 3)) kicks s = false →
    ∃ t, exec .watchdogExpiry s = .next t ∧ t.time.cycle = max s.time.cycle (c + msCycles (obj s 0x2020 3)) ∧
      t.pwr = { s.pwr with dev := .quiescing, resetAt := some t.time.cycle, cause := 4 }) ∧
  (∀ (s : State) (watts hottest : Nat),
    s.pwr.dev ≠ .shutdown →
    ∃ t, exec (.issueAllowanceUpdate watts hottest) s = .next t ∧ t.time.cycle = (s.time.cycle / 20000 + 1) * 20000 ∧
      t.pwr.watts = watts ∧ t.pwr.hottest = hottest ∧
      (obj s 0x2010 1 < watts → t.pwr.allowance = s.pwr.allowance.map fun g => max 1 (g - 1)) ∧
      (100 * watts < 95 * obj s 0x2010 1 → tooHot s hottest = false →
        t.pwr.allowance = s.pwr.allowance.map fun g => if g < 16 then g + 1 else g) ∧
      (t.pwr.thermN = true ↔ ∃ g ∈ t.pwr.allowance, g ≠ 16))

/-! ## Foreign ports -/

/-- PORT_LINK_UP, UPERRSTAT_READ, CXL_LINK_DOWN, TRAY_REQUEST_TIMEOUT, NVME_COMMAND_TIMEOUT, NVME_COMPLETION, NVME_CONTROLLER_RESET_END:
a port that trains shows its mode, rate and width and what was found behind it; a read of UPERRSTAT clears valid and count; an upstream
port that goes down fails its agent, and answers to its requests are discarded; a tray that does not answer in time fails; an NVMe
command that times out is aborted, and after that its controller is reset; a completion ends the command and its move; as many failed
resets in a row as 5401:02 end the attempts (R236, R239, R545, R546, R553, R556, R558, R559, R562). -/
def Obligations.PortsTrainAndFail : Prop :=
  (∀ (s : State) (p : Fin 14) (data : List Byte),
    live s = true → p.val < 4 ∨ 12 ≤ p.val →
    portSupports p.val (leNat (data.take 4) / 2 ^ 24 % 16) (leNat (data.take 4) / 2 ^ 16 % 256) (leNat (data.take 4) / 2 ^ 8 % 256) = true →
    ∃ t, exec (.portLinkUp p data) s = .next t ∧ t.ports = s.ports ∧
      obj t (portState p.val).1 (portState p.val).2 = 2 * 2 ^ 28 + leNat (data.take 4) / 2 ^ 7 % 2 ^ 21 * 2 ^ 7) ∧
  (∀ (s : State) (p : Fin 14) (data : List Byte),
    live s = true → s.dict.waiting = [] → 8 ≤ p.val → p.val < 12 → (∀ n, byteAt (objDom s 0x4210 (n + 1)) 0 ≠ 1) →
    portSupports p.val (leNat (data.take 4) / 2 ^ 24 % 16) (leNat (data.take 4) / 2 ^ 16 % 256) (leNat (data.take 4) / 2 ^ 8 % 256) = true →
    ∃ t, exec (.portLinkUp p data) s = .next t ∧
      obj t (portState p.val).1 (portState p.val).2 = 2 * 2 ^ 28 + leNat (data.take 4) / 2 ^ 7 % 2 ^ 21 * 2 ^ 7 ∧
      (∀ n ∈ portFinds 64 (data.drop 4), 64 + n ∈ t.ports.found) ∧ ∀ k ∈ s.ports.found, k ∈ t.ports.found) ∧
  (∀ (s : State) (p : Fin 14) (data : List Byte),
    portSupports p.val (leNat (data.take 4) / 2 ^ 24 % 16) (leNat (data.take 4) / 2 ^ 16 % 256) (leNat (data.take 4) / 2 ^ 8 % 256) = false →
    exec (.portLinkUp p data) s = .next s) ∧
  (∀ (s : State) (p : Fin 4) (v : UpErr),
    tget ({} : UpErr) s.ports.up p.val = v →
    ∃ t, exec (.uperrstatRead p) s = .next t ∧ t.out = s.out ++ [.value (v.code * 2 ^ 24 + v.count * 2 + if v.valid then 1 else 0)] ∧
      t.ports = { s.ports with up := tput ({} : UpErr) s.ports.up p.val { v with valid := false, count := 0 } }) ∧
  (∀ (s : State) (p : Fin 4),
    obj s 0x5200 (p.val + 1) / 2 ^ 28 % 16 ≠ 0 →
    ∃ u, exec (.cxlLinkDown p) s = .next (failAgent (8 + p.val) u) ∧ obj u 0x5200 (p.val + 1) = 0 ∧ u.coh.dir = s.coh.dir ∧
      (∀ r ∈ u.coh.reqs, r.src = 0x10 + p.val → r.dead = true) ∧ u.coh.reqs.length = s.coh.reqs.length) ∧
  (∀ (s : State) (p : Fin 4), obj s 0x5200 (p.val + 1) = 0 → exec (.cxlLinkDown p) s = .next s) ∧
  (∀ (s : State) (n : Fin 32),
    (tget ({} : Tray) s.kv.trays n.val).active = true →
    arrivalWins (s.time.cycle + 2000 * obj s 0x5302 1) bringsMove s = false →
    ∃ u, u.time.cycle = s.time.cycle + 2000 * obj s 0x5302 1 ∧ u.kv = s.kv ∧ u.attn = s.attn ∧
      exec (.trayRequestTimeout n) s = exec (.trayFail false ⟨n.val, by omega⟩) u) ∧
  (∀ (s : State) (p : Fin 4) (cid : Nat) (c : NvmeCmd),
    s.ports.nvme.find? (fun c => c.port == p.val && c.cid == cid) = some c → c.aborting = false →
    arrivalWins (c.at_ + msCycles (obj s 0x5401 1)) (bringsCompletion p.val cid) s = false →
    ∃ t, exec (.nvmeCommandTimeout p cid) s = .next t ∧ t.out = s.out ++ [.tray p.val 0x108 cid 0 0] ∧
      t.time.cycle = max s.time.cycle (c.at_ + msCycles (obj s 0x5401 1)) ∧
      t.ports = { s.ports with nvme := s.ports.nvme.map fun d => if d = c then { d with aborting := true, at_ := t.time.cycle } else d }) ∧
  (∀ (s : State) (p : Fin 4) (cid : Nat) (c : NvmeCmd),
    s.ports.nvme = [c] → c.port = p.val → c.cid = cid → c.aborting = true → c.move = none → c.block = none →
    s.ports.resetting = [] → arrivalWins (c.at_ + msCycles (obj s 0x5401 1)) (bringsCompletion p.val cid) s = false →
    ∃ t, exec (.nvmeCommandTimeout p cid) s = .next t ∧ t.out = s.out ++ [.tray p.val 0x200 0 0 0] ∧
      t.ports = { s.ports with nvme := [], resetting := [p.val] }) ∧
  (∀ (s : State) (p : Fin 4) (cid id : Nat) (c : NvmeCmd),
    s.ports.nvme.find? (fun c => c.port == p.val && c.cid == cid) = some c → c.move = some id →
    (s.kv.moves.any fun m => m.id == id && m.started) = true →
    ∃ u, u.ports = { s.ports with nvme := s.ports.nvme.filter fun d => !(d.port == p.val && d.cid == cid) } ∧ u.kv = s.kv ∧
      u.mem = s.mem ∧ exec (.nvmeCompletion p cid 0) s = exec (.moveComplete id .clean) u) ∧
  (∀ (s : State) (p : Fin 4) (cid : Nat) (c : NvmeCmd) (status : BitVec 16),
    s.ports.nvme.find? (fun c => c.port == p.val && c.cid == cid) = some c → c.move = none → c.block = none →
    ∃ t, exec (.nvmeCompletion p cid status) s = .next t ∧
      t.ports = { s.ports with nvme := s.ports.nvme.filter fun d => !(d.port == p.val && d.cid == cid) }) ∧
  (∀ (s : State) (p : Fin 4),
    p.val ∈ s.ports.resetting →
    ∃ t, exec (.nvmeControllerResetEnd p true) s = .next t ∧
      t.ports = { s.ports with resetting := s.ports.resetting.erase p.val, resets := tput 0 s.ports.resets p.val 0 }) ∧
  (∀ (s : State) (p : Fin 4),
    p.val ∈ s.ports.resetting → tget 0 s.ports.resets p.val + 1 < obj s 0x5401 2 → (∀ c ∈ s.ports.nvme, c.port ≠ p.val) →
    ∃ t, exec (.nvmeControllerResetEnd p false) s = .next t ∧ t.out = s.out ++ [.tray p.val 0x200 0 0 0] ∧
      t.ports = { s.ports with resets := tput 0 s.ports.resets p.val (tget 0 s.ports.resets p.val + 1) }) ∧
  (∀ (s : State) (p : Fin 4),
    p.val ∈ s.ports.resetting → obj s 0x5401 2 ≤ tget 0 s.ports.resets p.val + 1 →
    (∀ t ∈ s.kv.nss, t.2.port = p.val → t.2.active = false) →
    ∃ t, exec (.nvmeControllerResetEnd p false) s = .next t ∧
      t.ports = { s.ports with resetting := s.ports.resetting.erase p.val, resets := tput 0 s.ports.resets p.val 0 })

/-- ETHERNET_FRAME_DISCARD, NEIGHBOR_RESOLUTION, MKA_FRAME, PRIORITY_FLOW_CONTROL_FRAME, ETHERNET_LINK_DOWN, PTP_SYNC, PTP_LOCK_LOSS,
RDMA_WRITE, RDMA_READ_REQUEST, ROCE_ACKNOWLEDGE, ROCE_INVALID_REQUEST, ROCE_RECORD_WRITE: other frames are counted and dropped; a request
for the port's own address is answered; the sixteenth Sync in a row within 100 ns locks and steps device time, one beyond 1000 ns
loses the lock, one between slews by at most 100 ppm; a request of the expected sequence number is carried out, a repeated one is
acknowledged again, and one ahead is a sequence error (R563 to R571). -/
def Obligations.EthernetIsHandled : Prop :=
  (∀ (s : State) (p : Fin 2) (f : List Byte),
    ethUp s p.val = true → frameHandled f = false →
    ∃ t, exec (.ethernetFrameDiscard p f) s = .next t ∧
      t.ports = { s.ports with discards := tput 0 s.ports.discards p.val (tget 0 s.ports.discards p.val + 1) }) ∧
  (∀ (s : State) (p : Fin 2) (f : List Byte),
    ethOpen s p.val = true → frameHandled f = true → exec (.ethernetFrameDiscard p f) s = .next s) ∧
  (∀ (s : State) (p : Fin 2) (f r : List Byte),
    ethOpen s p.val = true → beAt f 12 2 = 0x0806 → arpReply (objDom s 0x5503 (p.val + 1)) f = some r →
    ∃ t, exec (.neighborResolution p f) s = .next t ∧ t.out = s.out ++ [.frame p.val r] ∧
      (p.val, slice f 28 4, slice f 22 6) ∈ t.ports.neigh) ∧
  (∀ (s : State) (p : Fin 2) (f r : List Byte),
    ethOpen s p.val = true → beAt f 12 2 = 0x86DD → beAt f 20 1 = 58 → ndReply (objDom s 0x5503 (p.val + 1)) f = some r →
    beAt f 54 1 = 135 →
    ∃ t, exec (.neighborResolution p f) s = .next t ∧ t.out = s.out ++ [.frame p.val r] ∧
      (p.val, slice f 22 16, slice f 6 6) ∈ t.ports.neigh) ∧
  (∀ (s : State) (p : Fin 2) (f : List Byte),
    ethUp s p.val = true → s.mint.st = .running → objDom s 0x5502 3 ≠ [] →
    ∃ t, exec (.mkaFrame p f) s = .next t ∧ (Config.mkaFrame (objDom s 0x5502 3) f = false → t = s) ∧
      (Config.mkaFrame (objDom s 0x5502 3) f = true → t.ports = { s.ports with mka := tput false s.ports.mka p.val true } ∧
        obj t 0x5500 (p.val + 1) = bitSet (obj s 0x5500 (p.val + 1)) 7 true)) ∧
  (∀ (s : State) (p : Fin 2) (mask : BitVec 8) (pause : List Nat) (i : Fin 8),
    ethOpen s p.val = true → mask.toNat &&& obj s 0x5504 (p.val + 1) = 2 ^ i.val →
    ∃ t, exec (.priorityFlowControlFrame p mask pause) s = .next t ∧
      t.ports = { s.ports with pause := tput 0 s.ports.pause (p.val * 8 + i.val) (if pause.getD i.val 0 % 65536 = 0 then 0 else s.time.cycle + pauseQuantum s p.val (pause.getD i.val 0 % 65536)) }) ∧
  (∀ (s : State) (p : Fin 2),
    ethUp s p.val = true →
    ∃ t, exec (.ethernetLinkDown p) s = .next t ∧ obj t 0x5500 (p.val + 1) = 0 ∧
      t.ports = { s.ports with mka := tput false s.ports.mka p.val false }) ∧
  (∀ (s : State) (p : Fin 2) (dom : BitVec 8) (origin : Nat) (off : Int),
    ethOpen s p.val = true → dom.toNat = obj s 0x5501 1 → obj s 0x2100 6 = p.val + 1 → obj s 0x5501 3 ≠ 1 →
    -100 ≤ off → off ≤ 100 →
    ∃ t, exec (.ptpSync p dom origin off) s = .next t ∧
      t.ports = { s.ports with syncs := tput 0 s.ports.syncs p.val (min 16 (tget 0 s.ports.syncs p.val + 1)), syncAt := tins s.ports.syncAt p.val s.time.cycle } ∧
      (tget 0 s.ports.syncs p.val < 15 → t.time = s.time ∧ obj t 0x5501 3 = obj s 0x5501 3) ∧
      (15 ≤ tget 0 s.ports.syncs p.val → obj t 0x5501 3 = 1 ∧ t.time.cycle = s.time.cycle)) ∧
  (∀ (s : State) (p : Fin 2) (dom : BitVec 8) (origin : Nat) (off : Int),
    ethOpen s p.val = true → dom.toNat = obj s 0x5501 1 → obj s 0x2100 6 = p.val + 1 → obj s 0x5501 3 = 1 →
    ∃ t, exec (.ptpSync p dom origin off) s = .next t ∧ (off < -1000 ∨ 1000 < off → obj t 0x5501 3 = 0 ∧ t.time = s.time) ∧
      (-1000 ≤ off → off ≤ 1000 → obj t 0x5501 3 = 1 ∧ ∃ d : Int, d.natAbs ≤ (s.time.cycle - tget s.time.cycle s.ports.syncAt p.val) / 10000 ∧
        (t.time.devHalf : Int) = ((s.time.devHalf : Int) + d) % 2 ^ 65)) ∧
  (∀ (s : State) (p : Fin 2),
    obj s 0x2100 6 = p.val + 1 → obj s 0x5501 3 = 1 →
    arrivalWins (tget s.time.cycle s.ports.syncAt p.val + msCycles (obj s 0x5501 2)) (bringsSync p.val) s = false →
    ∃ t, exec (.ptpLockLoss p) s = .next t ∧ obj t 0x5501 3 = 0 ∧
      t.time.cycle = max s.time.cycle (tget s.time.cycle s.ports.syncAt p.val + msCycles (obj s 0x5501 2)) ∧
      t.ports = { s.ports with syncs := tput 0 s.ports.syncs p.val 0 }) ∧
  (∀ (s : State) (p : Fin 2) (q : Fin 256) (psn : BitVec 24) (rkey : BitVec 32) (a : BitVec 64) (data : List Byte) (dscp : BitVec 6),
    ethOpen s p.val = true → roceOn s p.val q.val = true →
    ∃ t, exec (.rdmaWrite p q psn rkey a data dscp) s = .next t ∧
      (psnClass (roceOf s (p.val * 256 + q.val)) psn.toNat = .again → t.ports = s.ports ∧ t.out = s.out ++ [.roce p.val q.val psn.toNat 0 0 []]) ∧
      (psnClass (roceOf s (p.val * 256 + q.val)) psn.toNat = .ahead → t.ports = s.ports ∧ t.out = s.out ++ [.roce p.val q.val psn.toNat 2 0 []]) ∧
      (psnClass (roceOf s (p.val * 256 + q.val)) psn.toNat = .next → rkey = 0x100 → a.toNat < 2 ^ 57 →
        t = arrive (roceReq p.val q.val 0x200 psn.toNat a.toNat data.length data (roceTake p.val q.val data.length s)) (dscpColour dscp.toNat) (roceTake p.val q.val data.length s)) ∧
      (psnClass (roceOf s (p.val * 256 + q.val)) psn.toNat = .next → rkey = 0x100 → 2 ^ 57 ≤ a.toNat →
        t.out = s.out ++ [.roce p.val q.val psn.toNat 2 1 []])) ∧
  (∀ (s : State) (p : Fin 2) (q : Fin 256) (psn : BitVec 24) (rkey : BitVec 32) (a : BitVec 64) (len : Nat) (dscp : BitVec 6),
    ethOpen s p.val = true → roceOn s p.val q.val = true →
    ∃ t, exec (.rdmaReadRequest p q psn rkey a len dscp) s = .next t ∧
      (psnClass (roceOf s (p.val * 256 + q.val)) psn.toNat = .ahead → t.ports = s.ports ∧ t.out = s.out ++ [.roce p.val q.val psn.toNat 2 0 []]) ∧
      (psnClass (roceOf s (p.val * 256 + q.val)) psn.toNat = .again → rkey = 0x300 → a.toNat + len ≤ 64 →
        t.ports = s.ports ∧ t.out = s.out ++ [.roce p.val q.val psn.toNat 1 0 (slice (roceStatus (roceOf s (p.val * 256 + q.val))) a.toNat len)]) ∧
      (psnClass (roceOf s (p.val * 256 + q.val)) psn.toNat = .next → rkey = 0x100 → a.toNat < 2 ^ 57 →
        t = arrive (roceReq p.val q.val 0x201 psn.toNat a.toNat len [] (roceTake p.val q.val len s)) (dscpColour dscp.toNat) (roceTake p.val q.val len s)) ∧
      (psnClass (roceOf s (p.val * 256 + q.val)) psn.toNat = .next → rkey.toNat < 0x100 →
        t.out = s.out ++ [.roce p.val q.val psn.toNat 2 2 []])) ∧
  (∀ (s : State) (p : Fin 2) (q : Fin 256) (psn : BitVec 24) (v : Roce) (op : BitVec 8),
    ethOpen s p.val = true → roceOn s p.val q.val = true → roceOf s (p.val * 256 + q.val) = v →
    ∃ t u, exec (.roceAcknowledge p q psn false) s = .next t ∧
      t.ports = { s.ports with roce := tput ({} : Roce) s.ports.roce (p.val * 256 + q.val) { v with acked := psn.toNat } } ∧
      exec (.roceInvalidRequest p q psn op) s = .next u ∧
      (roceListed op.toNat = false → u.out = s.out ++ [.roce p.val q.val psn.toNat 2 1 []] ∧
        u.ports = { s.ports with roce := tput ({} : Roce) s.ports.roce (p.val * 256 + q.val) { v with naks := min (2 ^ 32 - 1) (v.naks + 1), nakPsn := psn.toNat, code := 0x50 } })) ∧
  (∀ (s : State) (p : Fin 2) (q : Fin 256) (rec : List Byte),
    live s = true → q.val ≠ 0 → rec.length = 48 →
    ∃ t, exec (.roceRecordWrite p q rec) s = .next t ∧ t.ports = s.ports ∧
      (roceCheck s p.val q.val rec = true → objDomLast t (0x5510 + p.val) q.val = rec) ∧
      (roceCheck s p.val q.val rec = false → t = bumpObj 0x1022 1 1 32 s))

/-! ## The dictionary and its paths -/

/-- OBJECT_READ, OBJECT_WRITE, STAGED_WRITE_ABORT, STAGED_WRITE_TIMEOUT, NMT_START, NMT_STOP, NMT_ENTER_PRE_OPERATIONAL,
NMT_RESET_COMMUNICATION, NMT_RESET_NODE, USDO_TRANSFER, HEARTBEAT_PERIOD, EMCY_INHIBIT_EXPIRY, ENTDAA, SET_ENDPOINT_ID, GET_ENDPOINT_ID,
GET_MCTP_VERSION_SUPPORT, GET_MESSAGE_TYPE_SUPPORT: an access is the only one of its path in its cycle; a read answers the
present length and its bytes, and a read of a cycle in which a write of its object was carried out first answers what stood before that
write; a write answers its code, and one that is refused is counted; a write of a cycle in which a principal later in the order N, K, S,
M, T wrote the same object leaves the value; a staged write takes its parts in order and is discarded on abort or after
100 ms, counted; NMT acts on the interface alone, and a restart takes up the values of 1020; a USDO transfer moves parts of 1,024
bytes; a waiting EMCY leaves when its inhibit time ends (R615 to R625, R633, R634). -/
def Obligations.TheDictionaryAnswers : Prop :=
  (∀ (s u : State) (p : Prin) (path : Fin 80) (i : BitVec 16) (n : BitVec 8) (off len : Nat) (r : ObjRow),
    pathOpen s p path.val = true → mctpShut s path.val = false → accessOn path.val s = u → u.dict.early = [] →
    accessCode p i.toNat n.toNat false u = 0 → len ≤ 1024 → objRow? i.toNat n.toNat = some r →
    ∃ bs, exec (.objectRead p path i n off len) s = .next (emit (.dict path.val 0 (view u r i.toNat n.toNat).1 bs) u) ∧
      bs.length = min len ((view u r i.toNat n.toNat).1 - off) ∧ ∀ k, k < bs.length → bs.getD k 0 = (view u r i.toNat n.toNat).2 (off + k)) ∧
  (∀ (s u : State) (p : Prin) (path : Fin 80) (i : BitVec 16) (n : BitVec 8) (off len c : Nat),
    pathOpen s p path.val = true → mctpShut s path.val = false → accessOn path.val s = u → u.dict.early = [] →
    accessCode p i.toNat n.toNat false u = c → c ≠ 0 →
    exec (.objectRead p path i n off len) s = .next (emit (.dict path.val c 0 []) (bumpObj 0x1022 1 1 32 u))) ∧
  (∀ (s u : State) (p : Prin) (path : Fin 80) (i : BitVec 16) (n : BitVec 8) (off len : Nat) (e : EarlyRead),
    pathOpen s p path.val = true → mctpShut s path.val = false → accessOn path.val s = u → u.dict.early = [e] →
    e.prin = p → e.key = okey i.toNat n.toNat → e.off = off → e.len = len → e.code = 0 →
    exec (.objectRead p path i n off len) s = .next (emit (.dict path.val 0 e.size e.bytes) u)) ∧
  (∀ (s : State) (p : Prin) (path : Fin 80) (i : BitVec 16) (n : BitVec 8) (off len : Nat) (data : List Byte),
    pathOpen s p path.val = true → mctpShut s path.val = true →
    exec (.objectRead p path i n off len) s = .next (emit (.dict path.val abPrin 0 []) (bumpObj 0x1022 1 1 32 s)) ∧
    exec (.objectWrite p path i n off len data) s = .next (emit (.dict path.val abPrin 0 []) (bumpObj 0x1022 1 1 32 s))) ∧
  (∀ (s w u : State) (p : Prin) (path : Fin 80) (i : BitVec 16) (n : BitVec 8) (data : List Byte),
    pathOpen s p path.val = true → mctpShut s path.val = false → noteReads (accessOn path.val s) = w →
    accessCode p i.toNat n.toNat true w = 0 → data.length ≤ 1024 → objApply i.toNat n.toNat data w = (0, u) →
    (outranked p i.toNat n.toNat w = false →
      exec (.objectWrite p path i n 0 0 data) s =
        .next (emit (.dict path.val 0 (objSize p i.toNat n.toNat (noteWrote p i.toNat n.toNat u)) []) (noteWrote p i.toNat n.toNat u))) ∧
    (outranked p i.toNat n.toNat w = true →
      exec (.objectWrite p path i n 0 0 data) s = .next (emit (.dict path.val 0 (objSize p i.toNat n.toNat w) []) w))) ∧
  (∀ (s w u : State) (p : Prin) (path : Fin 80) (i : BitVec 16) (n : BitVec 8) (data : List Byte) (c : Nat),
    pathOpen s p path.val = true → mctpShut s path.val = false → noteReads (accessOn path.val s) = w →
    accessCode p i.toNat n.toNat true w = 0 → data.length ≤ 1024 → objApply i.toNat n.toNat data w = (c, u) → c ≠ 0 →
    exec (.objectWrite p path i n 0 0 data) s =
      .next (emit (.dict path.val c (objSize p i.toNat n.toNat (bumpObj 0x1022 1 1 32 u)) []) (bumpObj 0x1022 1 1 32 u))) ∧
  (∀ (s : State) (v : BitVec 16),
    ∃ t, objApply 0x1017 0 (leBytes v.toNat 2) s = (0, t) ∧ obj t 0x1017 0 = v.toNat ∧ t.can = s.can) ∧
  (∀ (s w : State) (p : Prin) (path : Fin 80) (i : BitVec 16) (n : BitVec 8) (total : Nat) (data : List Byte),
    pathOpen s p path.val = true → mctpShut s path.val = false → noteReads (accessOn path.val s) = w →
    accessCode p i.toNat n.toNat true w = 0 → data.length ≤ 1024 →
    stagedOf s path.val p = none → data.length < total → total ≤ 2 ^ 24 →
    ∃ t g, exec (.objectWrite p path i n 0 total data) s = .next t ∧ t.dict.force = s.dict.force ∧ t.dict.doms = s.dict.doms ∧
      t.dict.staged = s.dict.staged ++ [g] ∧ g.path = path.val ∧ g.prin = p ∧ g.total = total ∧ g.bytes = data ∧
      g.key = okey i.toNat n.toNat) ∧
  (∀ (s w : State) (p : Prin) (path : Fin 80) (i : BitVec 16) (n : BitVec 8) (off : Nat) (data : List Byte) (g : Staged),
    pathOpen s p path.val = true → mctpShut s path.val = false → noteReads (accessOn path.val s) = w →
    accessCode p i.toNat n.toNat true w = 0 → data.length ≤ 1024 →
    stagedOf s path.val p = some g → off ≠ 0 → off ≠ g.bytes.length →
    ∃ t, exec (.objectWrite p path i n off 0 data) s = .next t ∧ stagedOf t path.val p = none ∧
      obj t 0x1022 2 = (obj s 0x1022 2 + 1) % 2 ^ 32) ∧
  (∀ (s : State) (p : Prin) (path : Fin 80) (g : Staged),
    pathOpen s p path.val = true → stagedOf s path.val p = some g →
    ∃ t, exec (.stagedWriteAbort p path) s = .next t ∧ t.out = s.out ++ [.dict path.val 0 0 []] ∧ stagedOf t path.val p = none ∧
      obj t 0x1022 2 = (obj s 0x1022 2 + 1) % 2 ^ 32) ∧
  (∀ (s : State) (p : Prin) (path : Fin 80) (g : Staged),
    stagedOf s path.val p = some g → path.val ≠ 72 → arrivalWins (g.last + msCycles 100) (bringsPart p path.val) s = false →
    ∃ t, exec (.stagedWriteTimeout p path) s = .next t ∧ t.time.cycle = max s.time.cycle (g.last + msCycles 100) ∧
      stagedOf t path.val p = none ∧ obj t 0x1022 2 = (obj s 0x1022 2 + 1) % 2 ^ 32) ∧
  (∀ s : State, answering s = true →
    exec .nmtStart s = .next { s with can := { s.can with nmt := 5 } } ∧ exec .nmtStop s = .next { s with can := { s.can with nmt := 4 } } ∧
    exec .nmtEnterPreOperational s = .next { s with can := { s.can with nmt := 127 } }) ∧
  (∀ s : State, answering s = true →
    ∃ t, exec .nmtResetCommunication s = .next t ∧ exec .nmtResetNode s = .next t ∧ t.can.nmt = 127 ∧ t.can.node = obj t 0x1020 1 ∧
      t.can.nominal = obj t 0x1020 2 ∧ t.can.dataRate = obj t 0x1020 3 ∧ t.can.usdo = none ∧ t.pwr = s.pwr ∧ t.mem = s.mem ∧
      t.led = s.led ∧ t.kv = s.kv) ∧
  (∀ (s u : State) (i : BitVec 16) (n : BitVec 8) (total : Nat) (data : List Byte) (last : Bool) (r : ObjRow),
    canServes s = true → s.can.usdo = none → accessOn 72 s = u → u.dict.early = [] → accessCode .m i.toNat n.toNat false u = 0 →
    objRow? i.toNat n.toNat = some r →
    ∃ t bs, exec (.usdoTransfer true i n total data last) s = .next t ∧ t.out = s.out ++ [.usdo 0 bs] ∧ t.dict = u.dict ∧
      bs = (List.range (min 1024 (view u r i.toNat n.toNat).1)).map (view u r i.toNat n.toNat).2 ∧
      t.can = { s.can with usdo := if (view u r i.toNat n.toNat).1 ≤ bs.length then none else some (okey i.toNat n.toNat, true, bs) }) ∧
  (∀ (s w u : State) (i : BitVec 16) (n : BitVec 8) (total : Nat) (data : List Byte),
    canServes s = true → s.can.usdo = none → noteReads (accessOn 72 s) = w → accessCode .m i.toNat n.toNat true w = 0 →
    data.length ≤ 1024 → outranked .m i.toNat n.toNat w = false → objApply i.toNat n.toNat data w = (0, u) → stagedOf u 72 .m = none →
    exec (.usdoTransfer false i n total data true) s =
      .next (emit (.usdo 0 []) { noteWrote .m i.toNat n.toNat u with can := { u.can with usdo := none } })) ∧
  (∀ s : State, answering s = true → obj s 0x1017 0 ≠ 0 →
    ∃ t, exec .heartbeatPeriod s = .next t ∧ t.out = s.out ++ [.beat s.can.nmt] ∧
      t.time.cycle = max s.time.cycle (s.can.lastBeat + msCycles (obj s 0x1017 0)) ∧ t.can = { s.can with lastBeat := t.time.cycle }) ∧
  (∀ (s : State) (e : Emcy) (rest : List Emcy),
    canServes s = true → s.can.emcy = e :: rest → obj s 0x1021 2 = 0 →
    ∃ t, exec .emcyInhibitExpiry s = .next t ∧ t.out = s.out ++ [.emcy (emcyWord e)] ∧
      t.can = { s.can with emcy := rest, lastEmcy := some t.time.cycle } ∧
      ∀ c, s.can.lastEmcy = some c → t.time.cycle = max s.time.cycle (c + 200000 * obj s 0x1015 0)) ∧
  (∀ (s : State) (a : BitVec 7),
    answering s = true → exec (.entdaa a) s = .next { s with can := { s.can with i3c := a.toNat } }) ∧
  (∀ (s : State) (e : BitVec 8),
    mctpUp s = true → e ≠ 0 → e ≠ 0xFF →
    ∃ t, exec (.setEndpointId e) s = .next t ∧ t.can = { s.can with eid := e.toNat } ∧ t.out = s.out ++ [.mctp [0, 0, 1, 0, 0, e, 0]]) ∧
  (∀ (s : State) (e : BitVec 8),
    mctpUp s = true → e = 0 ∨ e = 0xFF → ∃ t, exec (.setEndpointId e) s = .next t ∧ t.can = s.can) ∧
  (∀ s : State, mctpUp s = true →
    ∃ t, exec .getEndpointId s = .next t ∧ t.can = s.can ∧ t.out = s.out ++ [.mctp [0, 0, 2, 0, BitVec.ofNat 8 s.can.eid, 0, 0]]) ∧
  (∀ (s : State) (ty : BitVec 8),
    mctpUp s = true → ty = 0xFF ∨ ty = 0 ∨ ty = 5 ∨ ty = 0x7F →
    ∃ t bs, exec (.getMctpVersionSupport ty) s = .next t ∧ t.can = s.can ∧ bs.length = 4 ∧ t.out = s.out ++ [.mctp ([0, 0, 4, 0, 1] ++ bs)]) ∧
  (∀ s : State, mctpUp s = true →
    ∃ t, exec .getMessageTypeSupport s = .next t ∧ t.can = s.can ∧ t.out = s.out ++ [.mctp [0, 0, 5, 0, 2, 5, 0x7F]])

/-! ## Spans and twin pairs -/

/-- SPAN_MAP_WRITE, SPAN_MAP_DIGEST, STRIPED_PART, MEMBER_REPORT, STRIPE_COMMIT, STRIPE_ABORT, SPAN_PARTIAL, SUCCESSOR_TAKEOVER: a map
that breaks a rule is refused and one that does not waits for the boundary; the keystone keeps the digests; a member prepares its part
of the two-phase kind, reports, and applies it on commit; the entry device adds the reports up and goes on with the last of them;
the first partial of a child index is taken; the successor becomes the source of the step.
TWIN_LOG_RECORD, TWIN_KEEPALIVE, PATH_SILENCE, STEP_RECORD, TWIN_SELF_CHECK, DISAGREEMENT_ACTION, RESYNC_PHASE_END,
HOLD_BUFFER_OVERFLOW, HANDOVER_FAIL: the twin whose home is not active follows the log; the silence of both paths makes a twin SOLE, that
of the viaduct alone detaches the follow; the partner's record brings its commands to the follow and a digest that differs is a
disagreement; the table of R601 decides who goes on; the phases of a resynchronisation follow in order, and a full hold buffer returns
to phase 2; a handover that fails gives the home back, counted (R576 to R607). -/
def Obligations.SpansAndTwinsWork : Prop :=
  (∀ (s : State) (p : Prin) (rec : List Byte),
    answering s = true → mayTouch p 0x8000 1 = true →
    (mapOk rec = true → rec.length = 1808 → ∃ t, exec (.spanMapWrite p rec) s = .next t ∧ objDomLast t 0x8000 1 = rec ∧
      objDom t 0x8000 1 = objDom s 0x8000 1) ∧
    (mapOk rec = false ∨ rec.length ≠ 1808 → exec (.spanMapWrite p rec) s = .next (bumpObj 0x1022 1 1 32 s))) ∧
  (∀ (s : State) (i : Fin 16) (d : BitVec 384),
    objDom s 0x8000 1 ≠ [] → mapKeystone s = ownIndex s →
    exec (.spanMapDigest i d) s = .next { s with span := { s.span with digests := tins s.span.digests i.val d } }) ∧
  (∀ (s u : State) (port : Fin 13) (desc : Desc) (home : Fin 16) (d len : Nat) (input : List Byte) (f : Flight),
    8 ≤ port.val → port.val ≠ 12 → linkUp s port.val = true → sunk s = false → home.val ≠ ownIndex s → twoPhase desc = true →
    f = partFlight s home.val d len desc input →
    u = { s with attn := { s.attn with flights := s.attn.flights ++ [f], nextId := s.attn.nextId + 1 } } →
    partGone u f = none → (memEff desc input u).code = 0 → (∀ g ∈ s.attn.flights, g.id ≠ s.attn.nextId) →
    ∃ t, exec (.stripedPart port desc home d len input) s = .next t ∧ t.mem = s.mem ∧ f.qp = 1024 + home.val ∧ f.seq = d ∧ f.desc = desc ∧
      t.attn.flights = s.attn.flights ++ [{ f with prep := slabGrown u (memEff desc input u).s }] ∧
      t.kv = ((slabGrown u (memEff desc input u).s).foldl (takeFrame f.tenant) s).kv ∧
      t.out = s.out ++ (routesTo s home.val).map fun l => .span l 4 d
        (leBytes 0 1 ++ leBytes 0 1 ++ leBytes (memEff desc input u).r1 4 ++ leBytes (memEff desc input u).r2 4 ++ leBytes 0 1)) ∧
  (∀ (s : State) (d : Nat) (i : Fin 16) (code detail : BitVec 8) (r1 r2 rounds : Nat) (f g : Flight),
    flightOf s d = some f → f.qp < 1024 → f.members.contains i.val = true → twoPhase f.desc = true →
    g = { f with members := f.members.erase i.val, codes := f.codes ++ [(code.toNat, detail.toNat)], r2 := f.r2 + r2 } →
    exec (.memberReport d i code detail r1 r2 rounds) s = .next (finishStriped d (setFlight g s)) ∧
    (f.members.erase i.val ≠ [] → exec (.memberReport d i code detail r1 r2 rounds) s =
      .next { s with attn := { s.attn with flights := s.attn.flights.map fun h => if h.id = f.id then g else h } })) ∧
  (∀ (s : State) (port : Fin 13) (d : Nat) (f : Flight) (e : Eff),
    partOf s port.val d = some f → twoPhase f.desc = true → applyPart f s = e →
    ∃ t, exec (.stripeCommit port d) s = .next t ∧ (∀ g ∈ t.attn.flights, g.id ≠ f.id) ∧
      (e.code = 0 → t.kv = e.s.kv ∧ t.mem = e.s.mem ∧ t.hbm = e.s.hbm) ∧ (e.code ≠ 0 → t.kv = (givePrep f s).kv ∧ t.mem = s.mem ∧ t.hbm = s.hbm)) ∧
  (∀ (s : State) (port : Fin 13) (d : Nat) (f : Flight),
    partOf s port.val d = some f →
    (twoPhase f.desc = true → ∃ u, exec (.stripeAbort port d) s = .next (swapAll u) ∧ (∀ g ∈ u.attn.flights, g.id ≠ f.id) ∧
      u.kv = (givePrep f s).kv ∧ u.mem = s.mem) ∧
    (twoPhase f.desc = false → ∃ u, exec (.stripeAbort port d) s = .next (swapAll (complete f.id 0 0 0 0 u)) ∧ u.mem = s.mem ∧
      ∀ c, c ∈ u.attn.cores → ∀ w ∈ c.2.queue, w.desc ≠ f.id)) ∧
  (∀ (s : State) (port : Fin 13) (d : Nat) (rows : List (Option Dy × Dy × Option Dy × List Dy)) (f : Flight) (x : Ctx) (k n : Nat),
    flightOf s d = some f → ctxOf s (dCtx f.desc) = x → (f.due.find? fun p => decide (16 ≤ p.1) && (routesTo s (p.1 - 16)).contains port.val) = some (k, n) →
    rows.length = rowsAll f.desc x →
    exec (.spanPartial port d rows) s = .next (setFlight { f with parts := f.parts ++ [(x.home, rows.map landedRow)], due := tput 0 (tput 0 f.due k 0) x.home (tget 0 f.due x.home + 1) } s)) ∧
  (∀ s : State, s.clk.st = .coast → obj s 0x8000 4 ≤ s.clk.internal → stepSource s = 0 → s.span.twin ≠ .follow → objDom s 0x8000 1 ≠ [] →
    mapSuccessor s = ownIndex s →
    ∃ t, exec .successorTakeover s = .next t ∧ obj t 0x2100 1 = 1 ∧ t.clk = { s.clk with takeover := true, predicting := false }) ∧
  (∀ (s : State) (src tag line : Nat) (entry : BitVec 64) (data : List Byte),
    paired s = true ∨ s.span.twin = .syncing → homeActive s = false → linkUp s 12 = true → Tbl.Rising s.coh.dir →
    ∃ t, exec (.twinLogRecord src tag line entry data) s = .next t ∧ t.span.logged = s.span.logged + 1 ∧
      t.span.heardVia = s.time.cycle ∧ t.span.viaSilent = false ∧ (∀ l, dirOf t l = if l = line then (if fld entry 28 26 = 0 then dirI else logEntryDir s entry) else dirOf s l) ∧
      (data.length ≠ 64 → t.mem = s.mem) ∧
      (data.length = 64 → t.mem.bytes = mwriteMask s.mem.bytes (line * 64) (2 ^ 64 - 1) data) ∧
      ((∀ r ∈ s.coh.reqs, r.stage ≠ .held) → t.coh.reqs = s.coh.reqs) ∧
      (∀ r, s.coh.reqs = [r] → r.stage = .held → r.src = src → r.tag = tag → t.coh.reqs = [])) ∧
  (∀ s : State, twinTalks s = true → guardLink s = none →
    ∃ t, exec .twinKeepalive s = .next t ∧ t.time.cycle = max s.time.cycle (s.span.sentAt + usCycles (obj s 0x8100 3)) ∧
      t.span = { s.span with sentAt := t.time.cycle } ∧
      t.out = if linkUp s 12 then s.out ++ [.span 12 0 0 []] else s.out) ∧
  (∀ (s : State) (n c : Nat), s.span.twin = .follow → guardGone s = false → usCycles (obj s 0x8100 4) = n →
    max s.time.cycle (s.span.heardVia + n) = c → linkUp s 12 = true → arrivalWins (s.span.heardVia + n) (bringsRecord true) s = false →
    c < s.span.heardGuard + n →
    ∃ t, exec (.pathSilence true) s = .next t ∧ t.span = { s.span with viaSilent := true, twin := .detached } ∧ Alarmed 5 s t ∧
      t.time.cycle = c) ∧
  (∀ s : State, s.span.twin = .follow → guardGone s = false → linkUp s 12 = false →
    s.time.cycle < s.span.heardGuard + usCycles (obj s 0x8100 4) →
    ∃ t, exec (.pathSilence true) s = .next t ∧ t.span.twin = .detached ∧ Alarmed 5 s t ∧ t.time = s.time) ∧
  (∀ (s : State) (n c : Nat), s.span.twin = .lead → guardGone s = false → usCycles (obj s 0x8100 4) = n →
    max s.time.cycle (s.span.heardVia + n) = c → linkUp s 12 = true → arrivalWins (s.span.heardVia + n) (bringsRecord true) s = false →
    c < s.span.heardGuard + n →
    ∃ t, exec (.pathSilence true) s = .next t ∧ t.span = { s.span with viaSilent := true } ∧ Alarmed 5 s t ∧ t.time.cycle = c) ∧
  (∀ (s : State) (n c l : Nat), paired s = true → viaGone s = false → usCycles (obj s 0x8100 4) = n →
    max s.time.cycle (s.span.heardGuard + n) = c → guardLink s = some l → linkUp s l = true →
    arrivalWins (s.span.heardGuard + n) (bringsRecord false) s = false → c < s.span.heardVia + n →
    ∃ t, exec (.pathSilence false) s = .next t ∧ t.span = { s.span with guardSilent := true } ∧ t.dict = s.dict ∧ t.time.cycle = c) ∧
  (∀ (s : State) (n l : Nat), s.span.twin = .follow → viaGone s = true → usCycles (obj s 0x8100 4) = n → guardLink s = some l →
    linkUp s l = true → arrivalWins (s.span.heardGuard + n) (bringsRecord false) s = false →
    ∃ u, exec (.pathSilence false) s = .next (goSole 3 u) ∧ u.span = { s.span with viaSilent := u.span.viaSilent, guardSilent := true } ∧
      u.coh = s.coh ∧ u.mem = s.mem ∧ u.time.cycle = max s.time.cycle (s.span.heardGuard + n)) ∧
  (∀ (s : State) (n l : Nat), s.span.twin = .lead → viaGone s = true → s.coh.reqs = [] → usCycles (obj s 0x8100 4) = n →
    guardLink s = some l → linkUp s l = true → arrivalWins (s.span.heardGuard + n) (bringsRecord false) s = false →
    ∃ t, exec (.pathSilence false) s = .next t ∧ t.span.twin = .sole ∧ t.span.mirror = [] ∧ t.span.accepted = [] ∧ Alarmed 4 s t) ∧
  (∀ (s : State) (step : Nat) (led dir : BitVec 384) (check : Option Bool) (cmds : List (Nat × Nat × List Byte)) (seqs : List (Nat × Nat)),
    linkUp s 12 = true → s.span.twin = .follow → s.span.partner = [] → s.span.disagree = false → s.span.proving = none →
    ∃ t, exec (.stepRecord step led dir [] check seqs cmds) s = .next t ∧ t.span.recordIn = true ∧ t.span.heardVia = s.time.cycle ∧
      t.span.mirror = s.span.mirror ++ cmds.map (fun c => (1, mirrorOf c)) ∧
      (step ≠ s.clk.last ∨ led = s.span.cutLedger ∧ dir = s.span.cutDir → t.span.disagree = false ∧ t.dict = s.dict) ∧
      (step = s.clk.last → led ≠ s.span.cutLedger ∨ dir ≠ s.span.cutDir →
        t.span.disagree = true ∧ t.span.own = none ∧ t.span.other = none ∧ t.span.logAt = s.span.cutLog ∧
          obj t 0x8200 5 = (obj s 0x8200 5 + 1) % 2 ^ 32)) ∧
  (∀ (s : State) (step : Nat) (led dir : BitVec 384) (check : Option Bool) (cmds : List (Nat × Nat × List Byte)) (seqs : List (Nat × Nat))
      (forced : Bool),
    linkUp s 12 = true → paired s = true → s.span.partner = [] → s.span.proving = some forced → step ≠ s.clk.last →
    ∃ t, exec (.stepRecord step led dir [] check seqs cmds) s = .next t ∧ t.span.proving = none ∧
      obj t 0x8200 7 = (obj s 0x8200 7 + 1) % 2 ^ 32) ∧
  (∀ (s : State) (step : Nat) (led dir : BitVec 384) (bs : List (Nat × List Nat)) (check : Option Bool) (cmds : List (Nat × Nat × List Byte))
      (seqs : List (Nat × Nat)),
    linkUp s 12 = true → s.span.twin = .syncing →
    ∃ t, exec (.stepRecord step led dir bs check seqs cmds) s = .next t ∧ t.span.cut = seqs.foldl (fun m q => tins m q.1 q.2) []) ∧
  (∀ (s : State) (ok : Bool), s.span.disagree = true → s.span.own = none → s.clk.winOpen = true →
    exec (.twinSelfCheck ok) s = .next { s with span := { s.span with own := some (!ok || logFault s) } }) ∧
  (∀ (s : State) (own other : Bool), s.span.own = some own → s.span.other = some other →
    (s.span.twin = .lead → ∃ t, exec .disagreementAction s = .next t ∧ t.span.disagree = false ∧
      t.span.twin = (if own && !other then .fenced else .lead) ∧ Alarmed (if own || other then 2 else 1) s t) ∧
    (s.span.twin = .follow → own || !other → ∃ t, exec .disagreementAction s = .next t ∧ t.span.disagree = false ∧
      t.span.twin = (if own then .fenced else .detached) ∧ Alarmed (if own then 2 else 1) s t) ∧
    (s.span.twin = .follow → own = false → other = true →
      ∃ u, exec .disagreementAction s = .next (goSole 2 u) ∧ u.span.twin = .follow ∧ u.span.disagree = false ∧ u.coh = s.coh ∧ u.mem = s.mem)) ∧
  (∀ s : State, linkUp s 12 = true →
    (obj s 0x8300 1 = 0 → s.span.twin = .sole → ∃ t, exec .resyncPhaseEnd s = .next t ∧ obj t 0x8300 1 = 1 ∧ obj t 0x8300 2 = resyncUnits s ∧ t.span = s.span) ∧
    (obj s 0x8300 1 = 0 → paired s = true → s.clk.seen = false → ∃ t, exec .resyncPhaseEnd s = .next t ∧ obj t 0x8300 1 = 1 ∧ t.span = { s.span with twin := .syncing }) ∧
    (obj s 0x8300 1 = 1 → ∃ t, exec .resyncPhaseEnd s = .next t ∧ obj t 0x8300 1 = 2 ∧ obj t 0x8300 2 = 0 ∧ t.span = s.span) ∧
    (obj s 0x8300 1 = 2 → ∃ t, exec .resyncPhaseEnd s = .next t ∧ obj t 0x8300 1 = 3 ∧
      t.span = if s.span.twin = .syncing then s.span else { s.span with cut := seqDelta s }) ∧
    (obj s 0x8300 1 = 3 → s.span.twin ≠ .syncing → ∃ t, exec .resyncPhaseEnd s = .next t ∧ obj t 0x8300 1 = 4 ∧ t.span = { s.span with twin := .lead } ∧
      t.out = s.out ++ [.span 12 10 s.clk.last (s.span.cut.flatMap fun q => leBytes q.1 2 ++ leBytes q.2 4)]) ∧
    (obj s 0x8300 1 = 3 → s.span.twin = .syncing → exec .resyncPhaseEnd s = .next (setObj 0x8300 1 4 (joinPair s))) ∧
    (obj s 0x8300 1 = 4 → exec .resyncPhaseEnd s = .next (setObj 0x8300 1 5 s))) ∧
  (∀ s : State, linkUp s 12 = true → obj s 0x8300 1 = 5 → paired s = true →
    (obj s 0x8100 1 ≠ 1 → s.span.twin = .follow → exec .resyncPhaseEnd s = .next (setObj 0x8300 1 0 s)) ∧
    (obj s 0x8100 1 ≠ 1 → s.span.twin = .lead → ∃ t, exec .resyncPhaseEnd s = .next t ∧ obj t 0x8300 1 = 0 ∧
      t.span = { s.span with handover := some s.clk.last, twin := .follow, swapped := false }) ∧
    (obj s 0x8100 1 = 1 → s.span.twin = .lead → exec .resyncPhaseEnd s = .next (setObj 0x8300 1 0 s)) ∧
    (obj s 0x8100 1 = 1 → s.span.twin = .follow → ∃ u, exec .resyncPhaseEnd s = .next (setObj 0x8300 1 0 (takeHome u)) ∧
      u.span = { s.span with handover := some s.clk.last, twin := .lead, swapped := false } ∧ u.coh = s.coh)) ∧
  (∀ s : State, s.span.twin = .syncing → obj s 0x8300 1 = 3 →
    ∃ t, exec .holdBufferOverflow s = .next t ∧ obj t 0x8300 1 = 2 ∧ obj t 0x8300 3 = (obj s 0x8300 3 + 1) % 2 ^ 32 ∧
      t.coh.reqs = s.coh.reqs.filter fun r => r.stage != .held) ∧
  (∀ (s : State) (n : Nat), s.span.handover = some n → s.span.twin = .follow ∧ s.span.swapped = true ∨ s.span.twin = .lead ∧ s.span.swapped = false →
    ∃ t, exec .handoverFail s = .next t ∧ t.span = { s.span with handover := none, swapped := !s.span.swapped } ∧
      obj t 0x8200 8 = (obj s 0x8200 8 + 1) % 2 ^ 32 ∧ Alarmed 6 s t) ∧
  (∀ (s : State) (n : Nat), s.span.handover = some n → s.span.twin = .lead ∧ s.span.swapped = true ∨ s.span.twin = .follow ∧ s.span.swapped = false →
    ∃ u, exec .handoverFail s = .next (alarm 6 (bumpObj 0x8200 8 1 32 (takeHome u))) ∧
      u.span = { s.span with handover := none, swapped := !s.span.swapped } ∧ u.coh = s.coh)
end

