-- ==== Sys2Proof/Laws/Memory.lean ====
section
/-! SUPPORT. Memory and the sparse tables: what a read gives after a write, and that every operation keeps the canonical
form. -/

namespace Sys2Proof.Machine

set_option Elab.async false

/-- The canonical form as a statement about the list: no listed zero, addresses strictly rising. -/
def Memory.Sorted (m : List Host.Cell) : Prop := (m.Pairwise fun p q => p.1 < q.1) ∧ ∀ p ∈ m, p.2 ≠ 0

theorem Memory.wf_cons (p : Host.Cell) (m : List Host.Cell) :
    Memory.wf (p :: m) = true ↔ p.2 ≠ 0 ∧ (∀ q ∈ m, p.1 < q.1) ∧ Memory.wf m = true := by
  induction m generalizing p with
  | nil => simp [Memory.wf]
  | cons q t ih =>
    have h := ih q
    rw [Memory.wf, Bool.and_eq_true, Bool.and_eq_true, h]
    simp only [bne_iff_ne, ne_eq, decide_eq_true_eq, List.mem_cons, forall_eq_or_imp]
    constructor
    · rintro ⟨⟨a, b⟩, c, d, e⟩
      exact ⟨a, ⟨b, fun r hr => lt_trans b (d r hr)⟩, c, d, e⟩
    · rintro ⟨a, ⟨b, _⟩, c, d, e⟩
      exact ⟨⟨a, b⟩, c, d, e⟩

theorem Memory.wf_iff (m : List Host.Cell) : Memory.wf m = true ↔ Memory.Sorted m := by
  induction m with
  | nil => simp [Memory.wf, Memory.Sorted]
  | cons p t ih =>
    rw [Memory.wf_cons, ih]
    simp only [Memory.Sorted, List.pairwise_cons, List.mem_cons, forall_eq_or_imp]
    tauto

/-- What is left of a memory is in canonical form. -/
theorem Memory.wf_filter (q : Host.Cell → Bool) {m : List Host.Cell} (h : Memory.wf m = true) :
    Memory.wf (m.filter q) = true := by
  rw [Memory.wf_iff] at *
  exact ⟨h.1.filter q, fun p hp => h.2 p (List.mem_filter.mp hp).1⟩

theorem mput_mem {m : List Host.Cell} {a : Nat} {b : Byte} {p : Host.Cell} (h : p ∈ mput m a b) : p = (a, b) ∧ b ≠ 0 ∨ p ∈ m := by
  induction m with
  | nil => simp only [mput] at h; split at h <;> simp_all
  | cons q t ih =>
    simp only [mput] at h
    split at h
    · split at h <;> simp_all; tauto
    · split at h
      · split at h <;> simp_all
      · simp only [List.mem_cons] at h ⊢
        rcases h with h | h
        · exact .inr (.inl h)
        · rcases ih h with h | h
          · exact .inl h
          · exact .inr (.inr h)

/-- Writing a byte keeps the canonical form. -/
theorem mput_wf {m : List Host.Cell} (h : Memory.wf m = true) (a : Nat) (b : Byte) : Memory.wf (mput m a b) = true := by
  induction m with
  | nil => simp only [mput]; split <;> simp_all [Memory.wf]
  | cons q t ih =>
    obtain ⟨hz, hlt, ht⟩ := (Memory.wf_cons q t).mp h
    simp only [mput]
    split
    · split
      · exact ht
      · next e _ => exact (Memory.wf_cons _ _).mpr ⟨by simpa, by simpa [e] using hlt, ht⟩
    · split
      · next hl =>
        split
        · exact h
        · refine (Memory.wf_cons _ _).mpr ⟨by simpa, ?_, h⟩
          intro r hr
          rcases List.mem_cons.mp hr with rfl | hr
          · exact hl
          · exact lt_trans hl (hlt r hr)
      · next hne hnl =>
        refine (Memory.wf_cons _ _).mpr ⟨hz, ?_, ih ht⟩
        intro r hr
        rcases mput_mem hr with ⟨rfl, _⟩ | hr
        · dsimp only; omega
        · exact hlt r hr

theorem mwrite_wf {m : List Host.Cell} (h : Memory.wf m = true) (a : Nat) (bs : List Byte) :
    Memory.wf (mwrite m a bs) = true := by
  induction bs generalizing m a with
  | nil => exact h
  | cons b t ih => exact ih (mput_wf h a b) (a + 1)

theorem mwriteMask_wf {m : List Host.Cell} (h : Memory.wf m = true) (a k : Nat) (bs : List Byte) :
    Memory.wf (mwriteMask m a k bs) = true := by
  induction bs generalizing m a k with
  | nil => exact h
  | cons b t ih =>
    refine ih ?_ _ _
    split
    · exact mput_wf h a b
    · exact h

theorem mzero_wf {m : List Host.Cell} (h : Memory.wf m = true) (lo hi : Nat) : Memory.wf (mzero m lo hi) = true :=
  Memory.wf_filter _ h

/-- A byte that no entry of a rising list names reads as 0. -/
theorem mget_lt {m : List Host.Cell} {a : Nat} (h : ∀ p ∈ m, a < p.1) : mget m a = 0 := by
  cases m with
  | nil => rfl
  | cons q t => have := h q (by simp); simp [mget, this]; omega

/-- A read after a write: the byte written where it was written, what was there before elsewhere. -/
theorem mget_mput {m : List Host.Cell} (h : Memory.wf m = true) (a x : Nat) (b : Byte) :
    mget (mput m a b) x = if x = a then b else mget m x := by
  induction m with
  | nil => simp only [mput]; split <;> split <;> simp_all [mget]
  | cons q t ih =>
    obtain ⟨hz, hlt, ht⟩ := (Memory.wf_cons q t).mp h
    have ih := ih ht
    have low : ∀ y, y ≤ q.1 → mget t y = 0 := fun y hy => mget_lt fun p hp => lt_of_le_of_lt hy (hlt p hp)
    obtain ⟨j, w⟩ := q
    simp only at hz hlt low
    simp only [mput]
    split
    · next e =>
      subst e
      split
      · next hb =>
        subst hb
        rcases lt_trichotomy x a with hx | rfl | hx
        · rw [low x hx.le, if_neg hx.ne]; simp [mget, hx, hx.ne]
        · rw [if_pos rfl, low x le_rfl]
        · rw [if_neg hx.ne']; simp [mget, hx.ne', hx.not_gt]
      · simp only [mget]; split <;> simp_all
    · next hne =>
      split
      · next hl =>
        split
        · next hb =>
          subst hb
          split
          · next e => subst e; simp [mget, hne, hl]
          · rfl
        · rw [mget]
          split
          · rfl
          · split
            · next hx => simp only [mget]; rw [if_neg (by omega), if_pos (by omega)]
            · rfl
      · next hnl =>
        simp only [mget]
        rw [ih]
        split
        · next e => rw [if_neg (by omega)]
        · split
          · next e => rw [if_neg (by omega)]
          · rfl

/-- A byte outside the bytes written keeps its value. -/
theorem mget_mwrite_of_lt {m : List Host.Cell} (h : Memory.wf m = true) (a : Nat) (bs : List Byte) (x : Nat) (hx : x < a) :
    mget (mwrite m a bs) x = mget m x := by
  induction bs generalizing m a with
  | nil => rfl
  | cons b t ih => rw [mwrite, ih (mput_wf h a b) (a + 1) (by omega), mget_mput h, if_neg (by omega)]

/-- A read after a write of bytes. -/
theorem mget_mwrite {m : List Host.Cell} (h : Memory.wf m = true) (a : Nat) (bs : List Byte) (x : Nat) :
    mget (mwrite m a bs) x = if a ≤ x ∧ x < a + bs.length then bs.getD (x - a) 0 else mget m x := by
  induction bs generalizing m a with
  | nil => rw [if_neg (by simp)]; rfl
  | cons b t ih =>
    rw [mwrite]
    rcases lt_trichotomy x a with hx | rfl | hx
    · rw [mget_mwrite_of_lt (mput_wf h a b) _ _ _ (by omega), mget_mput h, if_neg (by omega), if_neg (by omega)]
    · rw [mget_mwrite_of_lt (mput_wf h x b) _ _ _ (by omega), mget_mput h]; simp
    · rw [ih (mput_wf h a b), mget_mput h, if_neg (show ¬ x = a by omega)]
      obtain ⟨k, rfl⟩ := Nat.exists_eq_add_of_lt hx
      simp only [List.length_cons, show a + k + 1 - (a + 1) = k by omega, show a + k + 1 - a = k + 1 by omega, List.getD_cons_succ]
      split <;> split <;> first | rfl | omega

/-- A read after a zeroing. -/
theorem mget_mzero {m : List Host.Cell} (h : Memory.wf m = true) (lo hi x : Nat) :
    mget (mzero m lo hi) x = if lo ≤ x ∧ x < hi then 0 else mget m x := by
  induction m with
  | nil => simp [mzero, mget]
  | cons q t ih =>
    obtain ⟨hz, hlt, ht⟩ := (Memory.wf_cons q t).mp h
    have ih := ih ht
    have low : ∀ y, y ≤ q.1 → mget t y = 0 := fun y hy => mget_lt fun p hp => lt_of_le_of_lt hy (hlt p hp)
    obtain ⟨j, w⟩ := q
    simp only at hz hlt low
    have e : mzero ((j, w) :: t) lo hi = if lo ≤ j ∧ j < hi then mzero t lo hi else (j, w) :: mzero t lo hi := by
      simp only [mzero, List.filter_cons]
      by_cases hc : lo ≤ j ∧ j < hi
      · rw [if_pos hc, if_neg (by simp; omega)]
      · rw [if_neg hc, if_pos (by simp; omega)]
    rw [e]
    split
    · next hc =>
      rw [ih]
      split
      · rfl
      · simp only [mget]
        split
        · omega
        · split
          · exact low x (by omega)
          · rfl
    · next hc =>
      simp only [mget, ih]
      split
      · split <;> first | rfl | omega
      · split
        · split <;> rfl
        · rfl

/-! ## Sparse tables -/

theorem tget_cons {α : Type} (d v : α) (j k : Nat) (t : Tbl α) :
    tget d ((j, v) :: t) k = if k = j then v else if k < j then d else tget d t k := rfl

theorem tget_low {α : Type} (d : α) {t : Tbl α} {k : Nat} (h : ∀ p ∈ t, k < p.1) : tget d t k = d := by
  cases t with
  | nil => rfl
  | cons q t => have := h q (by simp); simp [tget, this]; omega

/-- An entry just written reads back. -/
@[simp] theorem tget_tput {α : Type} [DecidableEq α] (d v : α) (t : Tbl α) (h : Tbl.Rising t) (k : Nat) :
    tget d (tput d t k v) k = v := by
  induction t with
  | nil => simp only [tput]; split <;> simp_all [tget]
  | cons q t ih =>
    have h := List.pairwise_cons.mp h
    have ih := ih h.2
    simp only [tput]
    split
    · next e =>
      split
      · next hv => rw [hv]; exact tget_low d fun p hp => by rw [e]; exact h.1 p hp
      · simp [tget]
    · split
      · next hl => split <;> simp_all [tget]
      · next hne hnl => simp only [tget, if_neg hne, if_neg hnl, ih]

/-- Another entry keeps its value. -/
theorem tget_tput_ne {α : Type} [DecidableEq α] (d v : α) (t : Tbl α) (h : Tbl.Rising t) {k x : Nat} (hx : x ≠ k) :
    tget d (tput d t k v) x = tget d t x := by
  induction t with
  | nil => simp only [tput]; split <;> simp_all [tget]
  | cons q t ih =>
    obtain ⟨j, w⟩ := q
    have h := List.pairwise_cons.mp h
    have ih := ih h.2
    have low : ∀ y, y ≤ j → tget d t y = d := fun y hy => tget_low d fun p hp => lt_of_le_of_lt hy (h.1 p hp)
    simp only [tput]
    split
    · next e =>
      subst e
      split
      · simp only [tget]
        rcases lt_trichotomy x k with hl | hl | hl
        · rw [if_neg hl.ne, if_pos hl, low x hl.le]
        · exact absurd hl hx
        · rw [if_neg hl.ne', if_neg hl.not_gt]
      · simp only [tget, if_neg hx]
    · split
      · next hl =>
        split
        · rfl
        · simp only [tget, if_neg hx]
          split
          · next hxk => rw [if_neg (by omega), if_pos (by omega)]
          · rfl
      · simp only [tget, ih]

theorem tput_mem {α : Type} [DecidableEq α] {d v : α} {t : Tbl α} {k : Nat} {p : Nat × α} (h : p ∈ tput d t k v) :
    p = (k, v) ∨ p ∈ t := by
  induction t with
  | nil => simp only [tput] at h; split at h <;> simp_all
  | cons q t ih =>
    simp only [tput] at h
    split at h
    · split at h <;> simp_all; tauto
    · split at h
      · split at h <;> simp_all
      · simp only [List.mem_cons] at h ⊢
        rcases h with h | h
        · exact .inr (.inl h)
        · rcases ih h with h | h
          · exact .inl h
          · exact .inr (.inr h)

/-- Writing an entry keeps the numbers rising. -/
theorem tput_rising {α : Type} [DecidableEq α] (d v : α) {t : Tbl α} (h : Tbl.Rising t) (k : Nat) : Tbl.Rising (tput d t k v) := by
  induction t with
  | nil => simp only [tput]; split <;> simp [Tbl.Rising]
  | cons q t ih =>
    have h' := List.pairwise_cons.mp h
    simp only [tput]
    split
    · next e =>
      split
      · exact h'.2
      · exact List.pairwise_cons.mpr ⟨fun p hp => by rw [e]; exact h'.1 p hp, h'.2⟩
    · split
      · next hl =>
        split
        · exact h
        · refine List.pairwise_cons.mpr ⟨fun p hp => ?_, h⟩
          rcases List.mem_cons.mp hp with rfl | hp
          · exact hl
          · exact lt_trans hl (h'.1 p hp)
      · next hne hnl =>
        refine List.pairwise_cons.mpr ⟨fun p hp => ?_, ih h'.2⟩
        rcases tput_mem hp with rfl | hp
        · dsimp only; omega
        · exact h'.1 p hp

/-- Entries changed in place keep the numbers rising. -/
theorem Tbl.rising_map {α β : Type} {t : Tbl α} (h : Tbl.Rising t) (f : Nat × α → Nat × β) (hf : ∀ p, (f p).1 = p.1) :
    Tbl.Rising (t.map f) := by
  refine List.pairwise_map.mpr (h.imp fun {p q} hpq => ?_)
  rw [hf, hf]
  exact hpq

/-- So do entries left out. -/
theorem Tbl.rising_filter {α : Type} {t : Tbl α} (h : Tbl.Rising t) (f : Nat × α → Bool) : Tbl.Rising (t.filter f) :=
  List.Pairwise.filter f h

/-- So do changes made one after another, each of which keeps them rising. -/
theorem Tbl.rising_foldl {α β : Type} {t : Tbl α} {f : Tbl α → β → Tbl α} {l : List β} (h : Tbl.Rising t)
    (hf : ∀ t x, Tbl.Rising t → Tbl.Rising (f t x)) : Tbl.Rising (l.foldl f t) := by
  induction l generalizing t with
  | nil => exact h
  | cons x l ih => exact ih (hf t x h)

/-- An entry written that is not the default reads back in every table. -/
theorem tget_tput_ne_default {α : Type} [DecidableEq α] {d v : α} (hv : v ≠ d) (t : Tbl α) (k : Nat) :
    tget d (tput d t k v) k = v := by
  induction t with
  | nil => simp [tput, hv, tget]
  | cons q t ih =>
    simp only [tput, if_neg hv]
    split
    · simp [tget]
    · split
      · simp [tget]
      · next hne hnl => simp only [tget, if_neg hne, if_neg hnl, ih]

/-- An object put in a table of values is found, and the others stay. -/
theorem tins_find {α : Type} (t : Tbl α) (k x : Nat) (v : α) :
    (tins t k v).find? (fun p => p.1 == x) = if k = x then some (k, v) else t.find? (fun p => p.1 == x) := by
  induction t with
  | nil => simp only [tins, List.find?_cons]; split <;> simp_all
  | cons q t ih =>
    obtain ⟨j, w⟩ := q
    simp only [tins]
    split
    · next e => subst e; simp only [List.find?_cons]; split <;> simp_all
    · split
      · simp only [List.find?_cons]; split <;> simp_all
      · next hne _ =>
        simp only [List.find?_cons, ih]
        split
        · next hj => simp only [beq_iff_eq] at hj; subst hj; rw [if_neg hne]
        · rfl

end Sys2Proof.Machine
end

