-- ==== Sys2Proof/Laws/Frame.lean ====
section
/-! SUPPORT. The frame of an operation as one relation: the parts of the state that it may write, by their bits in a mask,
and that it keeps the invariant. Bit 24 stands for the bytes of memory, apart from the rest of `mem` (bit 8), and bit 25 for the
role in a twin pair, apart from the rest of `span` (bit 20). -/

namespace Sys2Proof.Machine

set_option Elab.async false

/-- From `s` to `t` only the parts whose bits `P` has are written, and the invariant is kept. -/
structure Keeps (P : Nat) (s t : State) : Prop where
  time : P.testBit 0 = false → t.time = s.time
  dict : P.testBit 1 = false → t.dict = s.dict
  can : P.testBit 2 = false → t.can = s.can
  pwr : P.testBit 3 = false → t.pwr = s.pwr
  clk : P.testBit 4 = false → t.clk = s.clk
  win : P.testBit 5 = false → t.win = s.win
  tel : P.testBit 6 = false → t.tel = s.tel
  tal : P.testBit 7 = false → t.tal = s.tal
  mem : P.testBit 8 = false → t.mem = s.mem
  hbm : P.testBit 9 = false → t.hbm = s.hbm
  led : P.testBit 10 = false → t.led = s.led
  kv : P.testBit 11 = false → t.kv = s.kv
  attn : P.testBit 12 = false → t.attn = s.attn
  shape : P.testBit 13 = false → t.shape = s.shape
  xl : P.testBit 14 = false → t.xl = s.xl
  coh : P.testBit 15 = false → t.coh = s.coh
  mint : P.testBit 16 = false → t.mint = s.mint
  links : P.testBit 17 = false → t.links = s.links
  truss : P.testBit 18 = false → t.truss = s.truss
  ports : P.testBit 19 = false → t.ports = s.ports
  span : P.testBit 20 = false → t.span = s.span
  out : P.testBit 21 = false → t.out = s.out
  freeCtr : P.testBit 22 = false → t.freeCtr = s.freeCtr
  pending : P.testBit 23 = false → t.pending = s.pending
  bytes : P.testBit 24 = false → t.mem.bytes = s.mem.bytes
  twin : P.testBit 25 = false → t.span.twin = s.span.twin
  inv : Inv s → Inv t

@[refl] theorem Keeps.refl (P : Nat) (s : State) : Keeps P s s := by constructor <;> intros <;> trivial

theorem testBit_sub {P Q i : Nat} (sub : Nat.lor Q P = P) (h : P.testBit i = false) : Q.testBit i = false := by
  rw [← sub, show Nat.lor Q P = Q ||| P from rfl, Nat.testBit_or] at h
  simp only [Bool.or_eq_false_iff] at h
  exact h.1

/-- One more operation, whose parts are among those of the whole. -/
theorem Keeps.step {P Q : Nat} {r s t : State} (g : Keeps Q s t) (h : Keeps P r s) (sub : Nat.lor Q P = P := by with_unfolding_all rfl) : Keeps P r t where
  time b := (g.time (testBit_sub sub b)).trans (h.time b)
  dict b := (g.dict (testBit_sub sub b)).trans (h.dict b)
  can b := (g.can (testBit_sub sub b)).trans (h.can b)
  pwr b := (g.pwr (testBit_sub sub b)).trans (h.pwr b)
  clk b := (g.clk (testBit_sub sub b)).trans (h.clk b)
  win b := (g.win (testBit_sub sub b)).trans (h.win b)
  tel b := (g.tel (testBit_sub sub b)).trans (h.tel b)
  tal b := (g.tal (testBit_sub sub b)).trans (h.tal b)
  mem b := (g.mem (testBit_sub sub b)).trans (h.mem b)
  hbm b := (g.hbm (testBit_sub sub b)).trans (h.hbm b)
  led b := (g.led (testBit_sub sub b)).trans (h.led b)
  kv b := (g.kv (testBit_sub sub b)).trans (h.kv b)
  attn b := (g.attn (testBit_sub sub b)).trans (h.attn b)
  shape b := (g.shape (testBit_sub sub b)).trans (h.shape b)
  xl b := (g.xl (testBit_sub sub b)).trans (h.xl b)
  coh b := (g.coh (testBit_sub sub b)).trans (h.coh b)
  mint b := (g.mint (testBit_sub sub b)).trans (h.mint b)
  links b := (g.links (testBit_sub sub b)).trans (h.links b)
  truss b := (g.truss (testBit_sub sub b)).trans (h.truss b)
  ports b := (g.ports (testBit_sub sub b)).trans (h.ports b)
  span b := (g.span (testBit_sub sub b)).trans (h.span b)
  out b := (g.out (testBit_sub sub b)).trans (h.out b)
  freeCtr b := (g.freeCtr (testBit_sub sub b)).trans (h.freeCtr b)
  pending b := (g.pending (testBit_sub sub b)).trans (h.pending b)
  bytes b := (g.bytes (testBit_sub sub b)).trans (h.bytes b)
  twin b := (g.twin (testBit_sub sub b)).trans (h.twin b)
  inv v := g.inv (h.inv v)

theorem Keeps.mono {P Q : Nat} {s t : State} (g : Keeps Q s t) (sub : Nat.lor Q P = P := by with_unfolding_all rfl) : Keeps P s t :=
  g.step (.refl P s) sub

theorem Keeps.ite {P : Nat} {r s t : State} {c : Prop} [Decidable c] (hs : Keeps P r s) (ht : Keeps P r t) :
    Keeps P r (if c then s else t) := by split <;> assumption

theorem Keeps.ite_snd {α : Type} {P : Nat} {r : State} {x y : α × State} {c : Prop} [Decidable c] (hx : Keeps P r x.2)
    (hy : Keeps P r y.2) : Keeps P r (if c then x else y).2 := by split <;> assumption

theorem Keeps.foldl {P : Nat} {α : Type} {r s : State} {f : State → α → State} {l : List α} (hs : Keeps P r s)
    (hf : ∀ s x, Keeps P r s → Keeps P r (f s x)) : Keeps P r (l.foldl f s) := by
  induction l generalizing s with
  | nil => exact hs
  | cons x l ih => exact ih (hf s x hs)

/-- A fold that carries something beside the state. -/
theorem Keeps.foldl_fst {P : Nat} {α β : Type} {r s : State} {b : β} {f : State × β → α → State × β} {l : List α}
    (hs : Keeps P r s) (hf : ∀ p x, Keeps P r p.1 → Keeps P r (f p x).1) : Keeps P r (l.foldl f (s, b)).1 := by
  generalize hp : (s, b) = p
  have h : Keeps P r p.1 := by rw [← hp]; exact hs
  clear hp hs
  induction l generalizing p with
  | nil => exact h
  | cons x l ih => exact ih _ (hf p x h)

theorem Keeps.foldl_snd {P : Nat} {α β : Type} {r s : State} {b : β} {f : β × State → α → β × State} {l : List α}
    (hs : Keeps P r s) (hf : ∀ p x, Keeps P r p.2 → Keeps P r (f p x).2) : Keeps P r (l.foldl f (b, s)).2 := by
  generalize hp : (b, s) = p
  have h : Keeps P r p.2 := by rw [← hp]; exact hs
  clear hp hs
  induction l generalizing p with
  | nil => exact h
  | cons x l ih => exact ih _ (hf p x h)

/-- An operation that answers a number and a state. -/
theorem Keeps.snd {P : Nat} {α : Type} {s t : State} {p : α × State} {a : α} (h : Keeps P s p.2) (e : p = (a, t)) : Keeps P s t := by
  rw [e] at h
  exact h

theorem Keeps.snd2 {P : Nat} {α β : Type} {s t : State} {p : α × β × State} {a : α} {b : β} (h : Keeps P s p.2.2)
    (e : p = (a, b, t)) : Keeps P s t := by rw [e] at h; exact h

theorem Keeps.snd3 {P : Nat} {α β γ : Type} {s t : State} {p : α × β × γ × State} {a : α} {b : β} {c : γ}
    (h : Keeps P s p.2.2.2) (e : p = (a, b, c, t)) : Keeps P s t := by rw [e] at h; exact h

theorem Keeps.fst {P : Nat} {α : Type} {s t : State} {p : State × α} {a : α} (h : Keeps P s p.1) (e : p = (t, a)) : Keeps P s t := by
  rw [e] at h
  exact h

/-- An operation that may answer a state, alone or beside something else. -/
structure OKeeps {α : Type} (P : Nat) (s : State) (g : α → State) (o : Option α) : Prop where
  all : ∀ x, o = some x → Keeps P s (g x)

theorem OKeeps.none {α : Type} {P : Nat} {s : State} {g : α → State} : OKeeps P s g none := ⟨fun _ h => by cases h⟩

theorem OKeeps.some {α : Type} {P : Nat} {s : State} {g : α → State} {x : α} (h : Keeps P s (g x)) : OKeeps P s g (some x) :=
  ⟨fun _ e => by cases e; exact h⟩

theorem OKeeps.pure {α : Type} {P : Nat} {s : State} {g : α → State} {x : α} (h : Keeps P s (g x)) :
    OKeeps P s g (Pure.pure x) := OKeeps.some h

theorem OKeeps.ite {α : Type} {P : Nat} {s : State} {g : α → State} {o p : Option α} {c : Prop} [Decidable c]
    (ho : OKeeps P s g o) (hp : OKeeps P s g p) : OKeeps P s g (if c then o else p) := by split <;> assumption

theorem OKeeps.step {α : Type} {P Q : Nat} {r s : State} {g : α → State} {o : Option α} (h : OKeeps Q s g o) (k : Keeps P r s)
    (sub : Nat.lor Q P = P := by with_unfolding_all rfl) : OKeeps P r g o := ⟨fun x e => (h.all x e).step k sub⟩

theorem OKeeps.bind {α β : Type} {P : Nat} {r : State} {g : α → State} {h : β → State} {o : Option α} {f : α → Option β}
    (ho : OKeeps P r g o) (hf : ∀ x, Keeps P r (g x) → OKeeps P r h (f x)) : OKeeps P r h (o >>= f) := by
  cases o with
  | none => exact ⟨fun _ e => by cases e⟩
  | some x => exact hf x (ho.all x rfl)

theorem OKeeps.obind {α β : Type} {P : Nat} {r : State} {g : α → State} {h : β → State} {o : Option α} {f : α → Option β}
    (ho : OKeeps P r g o) (hf : ∀ x, Keeps P r (g x) → OKeeps P r h (f x)) : OKeeps P r h (o.bind f) := ho.bind hf

theorem OKeeps.map {α β : Type} {P : Nat} {r : State} {g : α → State} {h : β → State} {o : Option α} {f : α → β}
    (ho : OKeeps P r g o) (hf : ∀ x, Keeps P r (g x) → Keeps P r (h (f x))) : OKeeps P r h (o.map f) := by
  cases o with
  | none => exact ⟨fun _ e => by cases e⟩
  | some x => exact OKeeps.some (hf x (ho.all x rfl))

theorem OKeeps.map_snd {α : Type} {P : Nat} {r : State} {o : Option (α × State)} {f : α × State → α × State}
    (ho : OKeeps P r (·.2) o) (hf : ∀ x, (f x).2 = x.2) : OKeeps P r (·.2) (o.map f) :=
  OKeeps.map ho fun x h => by rw [hf]; exact h

theorem OKeeps.map_any {α β : Type} {P : Nat} {r : State} {h : β → State} {o : Option α} {f : α → β}
    (hf : ∀ x, Keeps P r (h (f x))) : OKeeps P r h (o.map f) := by
  cases o with
  | none => exact ⟨fun _ e => by cases e⟩
  | some x => exact OKeeps.some (hf x)

theorem OKeeps.foldl {α β : Type} {P : Nat} {r : State} {g : β → State} {f : Option β → α → Option β} {l : List α} {o : Option β}
    (ho : OKeeps P r g o) (hf : ∀ o x, OKeeps P r g o → OKeeps P r g (f o x)) : OKeeps P r g (l.foldl f o) := by
  induction l generalizing o with
  | nil => exact ho
  | cons x l ih => exact ih (hf o x ho)

theorem Keeps.getD {P : Nat} {r s : State} {o : Option State} (ho : OKeeps P r (fun t => t) o) (hs : Keeps P r s) :
    Keeps P r (o.getD s) := by
  cases o with
  | none => exact hs
  | some x => exact ho.all x rfl

theorem Keeps.getD_snd {α : Type} {P : Nat} {r : State} {o : Option (α × State)} {x : α × State} (ho : OKeeps P r (·.2) o)
    (hs : Keeps P r x.2) : Keeps P r (o.getD x).2 := by
  cases o with
  | none => exact hs
  | some x => exact ho.all x rfl

theorem OKeeps.get {P : Nat} {s t : State} {o : Option State} (h : OKeeps P s (fun t => t) o) (e : o = Option.some t) :
    Keeps P s t := h.all t e

theorem OKeeps.get1 {α : Type} {P : Nat} {s t : State} {o : Option (α × State)} {a : α} (h : OKeeps P s (·.2) o)
    (e : o = Option.some (a, t)) : Keeps P s t := h.all _ e

theorem OKeeps.get2 {α β : Type} {P : Nat} {s t : State} {o : Option (α × β × State)} {a : α} {b : β}
    (h : OKeeps P s (·.2.2) o) (e : o = Option.some (a, b, t)) : Keeps P s t := h.all _ e

/-- A command's meaning. -/
structure RKeeps (P : Nat) (s : State) (r : Res) : Prop where
  all : ∀ t, r = .next t → Keeps P s t

theorem RKeeps.next {P : Nat} {s t : State} (h : Keeps P s t) : RKeeps P s (.next t) := ⟨fun _ e => by cases e; exact h⟩

theorem RKeeps.ite {P : Nat} {s : State} {o p : Res} {c : Prop} [Decidable c] (ho : RKeeps P s o) (hp : RKeeps P s p) :
    RKeeps P s (if c then o else p) := by split <;> assumption

theorem RKeeps.step {P Q : Nat} {r s : State} {o : Res} (h : RKeeps Q s o) (k : Keeps P r s)
    (sub : Nat.lor Q P = P := by with_unfolding_all rfl) : RKeeps P r o := ⟨fun x e => (h.all x e).step k sub⟩

/-- Everything but the queue may be written. -/
theorem Keeps.all {s t : State} (hp : t.pending = s.pending) (hi : Inv s → Inv t) : Keeps 0x37FFFFF s t := by
  constructor
  case pending => exact fun _ => hp
  case inv => exact hi
  all_goals exact fun b => absurd b (by decide)

/-! ## What a part's bound depends on -/

theorem Mem.ok_of {a b : Mem} (h : a.Ok) (hb : b.bytes = a.bytes) (hr : b.retired = a.retired)
    (hk : b.retiredBanks = a.retiredBanks) (hl : b.lines = a.lines := by rfl) (hp : b.patrol = a.patrol := by rfl) : b.Ok :=
  ⟨by rw [hb]; exact h.1, by rw [hr]; exact h.2, by rw [hk]; exact h.3, by rw [hl]; exact h.4, by rw [hp]; exact h.5⟩

theorem Ledger.ok_of {a b : Ledger} (h : a.Ok) (ht : b.tens = a.tens) (he : b.exts = a.exts) (hq : b.qps = a.qps) : b.Ok :=
  ⟨by rw [ht]; exact h.1, by rw [he]; exact h.2, by rw [hq]; exact h.3⟩

theorem Xlate.ok_of {a b : Xlate} (h : a.Ok) (e : b.queue = a.queue) : b.Ok := by unfold Xlate.Ok; rw [e]; exact h

theorem Can.ok_of {a b : Can} (h : a.Ok) (e : b.emcy = a.emcy) : b.Ok := by unfold Can.Ok; rw [e]; exact h

theorem Tally.ok_of {a b : Tally} (h : a.Ok) (e : b.io0.fifo = a.io0.fifo) (f : b.io1.fifo = a.io1.fifo) : b.Ok :=
  ⟨by rw [e]; exact h.1, by rw [f]; exact h.2⟩

theorem StepClk.ok_of {a b : StepClk} (h : a.Ok) (e : b.acc = a.acc) : b.Ok := by unfold StepClk.Ok; rw [e]; exact h

theorem Time.ok_of {a b : Time} (h : a.Ok) (e : b.devHalf = a.devHalf) : b.Ok := by unfold Time.Ok; rw [e]; exact h

/-! ## Writing one part -/

theorem Keeps.time_mk (s : State) (v : Time) (h : s.time.Ok → (v).Ok) : Keeps (2 ^ 0) s { s with time := v } := by
  constructor
  case inv => exact fun k => { k with time := h k.time }
  all_goals (intro b; first | rfl | exact absurd b (by decide))

theorem Keeps.dict_mk (s : State) (v : Dict) : Keeps (2 ^ 1) s { s with dict := v } := by
  constructor
  case inv => exact fun k => { k with }
  all_goals (intro b; first | rfl | exact absurd b (by decide))

theorem Keeps.can_mk (s : State) (v : Can) (h : s.can.Ok → (v).Ok) : Keeps (2 ^ 2) s { s with can := v } := by
  constructor
  case inv => exact fun k => { k with can := h k.can }
  all_goals (intro b; first | rfl | exact absurd b (by decide))

theorem Keeps.pwr_mk (s : State) (v : Power) : Keeps (2 ^ 3) s { s with pwr := v } := by
  constructor
  case inv => exact fun k => { k with }
  all_goals (intro b; first | rfl | exact absurd b (by decide))

theorem Keeps.clk_mk (s : State) (v : StepClk) (h : s.clk.Ok → (v).Ok) : Keeps (2 ^ 4) s { s with clk := v } := by
  constructor
  case inv => exact fun k => { k with clk := h k.clk }
  all_goals (intro b; first | rfl | exact absurd b (by decide))

theorem Keeps.win_mk (s : State) (v : Windows) : Keeps (2 ^ 5) s { s with win := v } := by
  constructor
  case inv => exact fun k => { k with }
  all_goals (intro b; first | rfl | exact absurd b (by decide))

theorem Keeps.tel_mk (s : State) (v : Tellers) (h : Tbl.Rising s.tel.chan → Tbl.Rising v.chan) : Keeps (2 ^ 6) s { s with tel := v } := by
  constructor
  case inv => exact fun k => { k with tel := h k.tel }
  all_goals (intro b; first | rfl | exact absurd b (by decide))

theorem Keeps.tal_mk (s : State) (v : Tally) (h : s.tal.Ok → (v).Ok) : Keeps (2 ^ 7) s { s with tal := v } := by
  constructor
  case inv => exact fun k => { k with tal := h k.tal }
  all_goals (intro b; first | rfl | exact absurd b (by decide))

theorem Keeps.mem_mk (s : State) (v : Mem) (hb : v.bytes = s.mem.bytes) (h : s.mem.Ok → v.Ok) : Keeps (2 ^ 8) s { s with mem := v } := by
  constructor
  case bytes => exact fun _ => hb
  case inv => exact fun k => { k with mem := h k.mem }
  all_goals (intro b; first | rfl | exact absurd b (by decide))

theorem Keeps.bytes_mk (s : State) (v : Mem) (h : s.mem.Ok → v.Ok) : Keeps (2 ^ 8 + 2 ^ 24) s { s with mem := v } := by
  constructor
  case inv => exact fun k => { k with mem := h k.mem }
  all_goals (intro b; first | rfl | exact absurd b (by decide))

theorem Keeps.hbm_mk (s : State) (v : HbmSys) (h : Tbl.Rising s.hbm.ctl → Tbl.Rising (v).ctl) : Keeps (2 ^ 9) s { s with hbm := v } := by
  constructor
  case inv => exact fun k => { k with ctl := h k.ctl }
  all_goals (intro b; first | rfl | exact absurd b (by decide))

theorem Keeps.led_mk (s : State) (v : Ledger) (h : s.led.Ok → (v).Ok) : Keeps (2 ^ 10) s { s with led := v } := by
  constructor
  case inv => exact fun k => { k with led := h k.led }
  all_goals (intro b; first | rfl | exact absurd b (by decide))

theorem Keeps.kv_mk (s : State) (v : Kv) (h : s.kv.Ok → v.Ok) : Keeps (2 ^ 11) s { s with kv := v } := by
  constructor
  case inv => exact fun k => { k with kv := h k.kv }
  all_goals (intro b; first | rfl | exact absurd b (by decide))

theorem Keeps.attn_mk (s : State) (v : Attn) (h : Tbl.Rising s.attn.cores → Tbl.Rising (v).cores) : Keeps (2 ^ 12) s { s with attn := v } := by
  constructor
  case inv => exact fun k => { k with cores := h k.cores }
  all_goals (intro b; first | rfl | exact absurd b (by decide))

theorem Keeps.shape_mk (s : State) (v : Shaping) : Keeps (2 ^ 13) s { s with shape := v } := by
  constructor
  case inv => exact fun k => { k with }
  all_goals (intro b; first | rfl | exact absurd b (by decide))

theorem Keeps.xl_mk (s : State) (v : Xlate) (h : s.xl.Ok → (v).Ok) : Keeps (2 ^ 14) s { s with xl := v } := by
  constructor
  case inv => exact fun k => { k with xl := h k.xl }
  all_goals (intro b; first | rfl | exact absurd b (by decide))

theorem Keeps.coh_mk (s : State) (v : Coh) (h : s.coh.Ok → v.Ok) : Keeps (2 ^ 15) s { s with coh := v } := by
  constructor
  case inv => exact fun k => { k with coh := h k.coh }
  all_goals (intro b; first | rfl | exact absurd b (by decide))

theorem Keeps.mint_mk (s : State) (v : Mint) (h : s.mint.Ok → v.Ok) : Keeps (2 ^ 16) s { s with mint := v } := by
  constructor
  case inv => exact fun k => { k with mint := h k.mint }
  all_goals (intro b; first | rfl | exact absurd b (by decide))

theorem Keeps.links_mk (s : State) (v : Links) (h : Tbl.Rising s.links.link → Tbl.Rising (v).link) : Keeps (2 ^ 17) s { s with links := v } := by
  constructor
  case inv => exact fun k => { k with link := h k.link }
  all_goals (intro b; first | rfl | exact absurd b (by decide))

theorem Keeps.truss_mk (s : State) (v : Truss) : Keeps (2 ^ 18) s { s with truss := v } := by
  constructor
  case inv => exact fun k => { k with }
  all_goals (intro b; first | rfl | exact absurd b (by decide))

theorem Keeps.ports_mk (s : State) (v : Ports) : Keeps (2 ^ 19) s { s with ports := v } := by
  constructor
  case inv => exact fun k => { k with }
  all_goals (intro b; first | rfl | exact absurd b (by decide))

theorem Keeps.span_mk (s : State) (v : Span) (ht : v.twin = s.span.twin) : Keeps (2 ^ 20) s { s with span := v } := by
  constructor
  case twin => exact fun _ => ht
  case inv => exact fun k => { k with }
  all_goals (intro b; first | rfl | exact absurd b (by decide))

theorem Keeps.role_mk (s : State) (v : Span) : Keeps (2 ^ 20 + 2 ^ 25) s { s with span := v } := by
  constructor
  case inv => exact fun k => { k with }
  all_goals (intro b; first | rfl | exact absurd b (by decide))

theorem Keeps.out_mk (s : State) (v : List Out) : Keeps (2 ^ 21) s { s with out := v } := by
  constructor
  case inv => exact fun k => { k with }
  all_goals (intro b; first | rfl | exact absurd b (by decide))

theorem Keeps.freeCtr_mk (s : State) (v : Nat) : Keeps (2 ^ 22) s { s with freeCtr := v } := by
  constructor
  case inv => exact fun k => { k with }
  all_goals (intro b; first | rfl | exact absurd b (by decide))

theorem Keeps.pending_mk (s : State) (v : List Instr) : Keeps (2 ^ 23) s { s with pending := v } := by
  constructor
  case inv => exact fun k => { k with }
  all_goals (intro b; first | rfl | exact absurd b (by decide))

theorem State.setMem_keeps (s : State) (f : Mem → Mem) (hb : (f s.mem).bytes = s.mem.bytes := by rfl) (h : s.mem.Ok → (f s.mem).Ok) :
    Keeps 0x100 s (s.setMem f) := Keeps.mem_mk s _ hb h

theorem State.setBytes_keeps (s : State) (f : Mem → Mem) (h : s.mem.Ok → (f s.mem).Ok) : Keeps 0x1000100 s (s.setMem f) :=
  Keeps.bytes_mk s _ h

theorem State.setLed_keeps (s : State) (f : Ledger → Ledger) (h : s.led.Ok → (f s.led).Ok) : Keeps 0x400 s (s.setLed f) :=
  Keeps.led_mk s _ h

theorem State.setKv_keeps (s : State) (f : Kv → Kv) (h : s.kv.Ok → (f s.kv).Ok) : Keeps 0x800 s (s.setKv f) :=
  Keeps.kv_mk s _ h

theorem State.setAttn_keeps (s : State) (f : Attn → Attn) (h : Tbl.Rising s.attn.cores → Tbl.Rising (f s.attn).cores) : Keeps 0x1000 s (s.setAttn f) :=
  Keeps.attn_mk s _ h

theorem State.setTal_keeps (s : State) (f : Tally → Tally) (h : s.tal.Ok → (f s.tal).Ok) : Keeps 0x80 s (s.setTal f) :=
  Keeps.tal_mk s _ h

theorem State.setClk_keeps (s : State) (f : StepClk → StepClk) (h : s.clk.Ok → (f s.clk).Ok) : Keeps 0x10 s (s.setClk f) :=
  Keeps.clk_mk s _ h

theorem State.setDict_keeps (s : State) (f : Dict → Dict) : Keeps 0x2 s (s.setDict f) :=
  Keeps.dict_mk s _

theorem State.setHbm_keeps (s : State) (f : HbmSys → HbmSys) (h : Tbl.Rising s.hbm.ctl → Tbl.Rising (f s.hbm).ctl) : Keeps 0x200 s (s.setHbm f) :=
  Keeps.hbm_mk s _ h

theorem State.setXl_keeps (s : State) (f : Xlate → Xlate) (h : s.xl.Ok → (f s.xl).Ok) : Keeps 0x4000 s (s.setXl f) :=
  Keeps.xl_mk s _ h

theorem State.setShape_keeps (s : State) (f : Shaping → Shaping) : Keeps 0x2000 s (s.setShape f) :=
  Keeps.shape_mk s _

theorem State.setPwr_keeps (s : State) (f : Power → Power) : Keeps 0x8 s (s.setPwr f) :=
  Keeps.pwr_mk s _

theorem State.setCan_keeps (s : State) (f : Can → Can) (h : s.can.Ok → (f s.can).Ok) : Keeps 0x4 s (s.setCan f) :=
  Keeps.can_mk s _ h

theorem State.setTel_keeps (s : State) (f : Tellers → Tellers) (h : Tbl.Rising s.tel.chan → Tbl.Rising (f s.tel).chan) :
    Keeps 0x40 s (s.setTel f) := Keeps.tel_mk s _ h

theorem State.setWin_keeps (s : State) (f : Windows → Windows) : Keeps 0x20 s (s.setWin f) :=
  Keeps.win_mk s _

end Sys2Proof.Machine
end

