-- ==== Sys2Proof/Laws/KeepsOps.lean ====
section
/-! SUPPORT. What each operation of Machine/Ops.lean may write, and that it keeps the invariant. -/

namespace Sys2Proof.Machine

set_option Elab.async false

theorem emit_keeps (a1 s) : Keeps 0x200000 s (emit a1 s) := by
  unfold emit
  try dsimp only
  repeat'
    first
    | with_reducible exact Keeps.refl _ _
    | with_reducible refine Keeps.ite ?_ ?_
    | with_reducible refine (Keeps.out_mk _ _).step ?_

theorem freeStep_keeps (a1 s) : Keeps 0x400000 s (freeStep a1 s) := by
  unfold freeStep
  try dsimp only
  repeat'
    first
    | with_reducible exact Keeps.refl _ _
    | with_reducible refine Keeps.ite ?_ ?_
    | with_reducible refine (Keeps.freeCtr_mk _ _).step ?_

theorem elapse_keeps (a1 s) : Keeps 0x91 s (elapse a1 s) := by
  have a := Keeps.time_mk s { cycle := s.time.cycle + a1, devHalf := (s.time.devHalf + a1) % 2 ^ 65 } fun _ => Nat.mod_lt _ (by decide)
  have b := Keeps.clk_mk { s with time := { cycle := s.time.cycle + a1, devHalf := (s.time.devHalf + a1) % 2 ^ 65 } }
    { s.clk with acc := min (2 ^ 48 - 1) (s.clk.acc + a1 * clkIncrement s.clk) } fun _ => lt_of_le_of_lt (Nat.min_le_left _ _) (by decide)
  refine (Keeps.tal_mk _ _ ?_).step (b.step a.mono)
  intro h
  dsimp only
  split
  · exact ⟨h.1, h.2⟩
  · exact h

theorem carryTo_keeps (a1 s) : Keeps 0x91 s (carryTo a1 s) := by
  unfold carryTo
  try dsimp only
  repeat'
    first
    | with_reducible exact Keeps.refl _ _
    | with_reducible refine Keeps.ite ?_ ?_
    | with_reducible refine (elapse_keeps ..).step ?_

theorem carryToPhase_keeps (a1 s) : Keeps 0x91 s (carryToPhase a1 s) := by
  unfold carryToPhase
  try dsimp only
  repeat'
    first
    | with_reducible exact Keeps.refl _ _
    | with_reducible refine Keeps.ite ?_ ?_
    | with_reducible refine (elapse_keeps ..).step ?_

theorem setObj_keeps (a1 a2 a3 s) : Keeps 0x2 s (setObj a1 a2 a3 s) := by
  unfold setObj
  try dsimp only
  repeat'
    first
    | with_reducible exact Keeps.refl _ _
    | with_reducible refine Keeps.ite ?_ ?_
    | with_reducible refine (State.setDict_keeps _ _).step ?_

theorem putWaiting_keeps (a1 a2 a3 s) : Keeps 0x2 s (putWaiting a1 a2 a3 s) := by
  unfold putWaiting
  try dsimp only
  repeat'
    first
    | with_reducible exact Keeps.refl _ _
    | with_reducible refine Keeps.ite ?_ ?_
    | with_reducible refine (State.setDict_keeps _ _).step ?_

theorem keptCount_keeps (a1 a2 a3 s) : Keeps 0x2 s (keptCount a1 a2 a3 s) := by
  unfold keptCount
  try dsimp only
  repeat'
    first
    | with_reducible exact Keeps.refl _ _
    | with_reducible refine Keeps.ite ?_ ?_
    | with_reducible refine (setObj_keeps ..).step ?_

theorem waitObj_keeps (a1 a2 a3 s) : Keeps 0x2 s (waitObj a1 a2 a3 s) := by
  unfold waitObj
  try dsimp only
  repeat'
    first
    | with_reducible exact Keeps.refl _ _
    | with_reducible refine Keeps.ite ?_ ?_
    | with_reducible refine (putWaiting_keeps ..).step ?_
    | with_reducible refine (keptCount_keeps ..).step ?_

theorem writeObj_keeps (a1 a2 a3 s) : Keeps 0x2 s (writeObj a1 a2 a3 s) := by
  unfold writeObj
  try dsimp only
  repeat'
    first
    | with_reducible exact Keeps.refl _ _
    | with_reducible refine Keeps.ite ?_ ?_
    | with_reducible refine (setObj_keeps ..).step ?_
    | with_reducible refine (keptCount_keeps ..).step ?_

theorem bumpObj_keeps (a1 a2 a3 a4 s) : Keeps 0x2 s (bumpObj a1 a2 a3 a4 s) := by
  unfold bumpObj
  try dsimp only
  repeat'
    first
    | with_reducible exact Keeps.refl _ _
    | with_reducible refine Keeps.ite ?_ ?_
    | with_reducible refine (setObj_keeps ..).step ?_

theorem setDom_keeps (a1 a2 a3 s) : Keeps 0x2 s (setDom a1 a2 a3 s) := by
  unfold setDom
  try dsimp only
  repeat'
    first
    | with_reducible exact Keeps.refl _ _
    | with_reducible refine Keeps.ite ?_ ?_
    | with_reducible refine (State.setDict_keeps _ _).step ?_

theorem waitDom_keeps (a1 a2 a3 s) : Keeps 0x2 s (waitDom a1 a2 a3 s) := by
  unfold waitDom
  try dsimp only
  repeat'
    first
    | with_reducible exact Keeps.refl _ _
    | with_reducible refine Keeps.ite ?_ ?_
    | with_reducible refine (putWaiting_keeps ..).step ?_
    | with_reducible refine (keptCount_keeps ..).step ?_

theorem writeDom_keeps (a1 a2 a3 s) : Keeps 0x2 s (writeDom a1 a2 a3 s) := by
  unfold writeDom
  try dsimp only
  repeat'
    first
    | with_reducible exact Keeps.refl _ _
    | with_reducible refine Keeps.ite ?_ ?_
    | with_reducible refine (keptCount_keeps ..).step ?_
    | with_reducible refine (setDom_keeps ..).step ?_

theorem applyWaiting_keeps (a1 a2 s) : Keeps 0x2 s (applyWaiting a1 a2 s) := by
  unfold applyWaiting
  try dsimp only
  repeat'
    first
    | with_reducible exact Keeps.refl _ _
    | with_reducible assumption
    | with_reducible refine Keeps.ite ?_ ?_
    | with_reducible refine (setObj_keeps ..).step ?_
    | with_reducible refine (setDom_keeps ..).step ?_
    | with_reducible refine Keeps.foldl ?_ ?_
    | with_reducible refine Keeps.foldl_fst ?_ ?_
    | with_reducible refine Keeps.foldl_snd ?_ ?_
    | intro _ _ _

theorem tallyAdd_keeps (a1 a2 a3 a4 s) : Keeps 0x80 s (tallyAdd a1 a2 a3 a4 s) := by
  unfold tallyAdd
  try dsimp only
  repeat'
    first
    | with_reducible exact Keeps.refl _ _
    | with_reducible refine Keeps.ite ?_ ?_
    | with_reducible refine (State.setTal_keeps _ _ ?_).step ?_
    | exact fun h => Tally.ok_of h rfl rfl

theorem setLink_keeps (a1 a2 s) : Keeps 0x20000 s (setLink a1 a2 s) := by
  unfold setLink
  try dsimp only
  repeat'
    first
    | with_reducible exact Keeps.refl _ _
    | with_reducible refine Keeps.ite ?_ ?_
    | with_reducible refine (Keeps.links_mk _ _ ?_).step ?_
    | exact fun h => h
    | exact fun h => tput_rising _ _ h _
    | exact fun h => ⟨tput_rising _ _ h.1 _, h.2⟩

theorem linkTally_keeps (a1 a2 a3 s) : Keeps 0x80 s (linkTally a1 a2 a3 s) := by
  unfold linkTally
  try dsimp only
  repeat'
    first
    | with_reducible exact Keeps.refl _ _
    | with_reducible refine Keeps.ite ?_ ?_
    | with_reducible refine (tallyAdd_keeps ..).step ?_

theorem linkBuild_keeps (a1 a2 s) : Keeps 0x20000 s (linkBuild a1 a2 s) := by
  unfold linkBuild
  try dsimp only
  repeat'
    first
    | with_reducible exact Keeps.refl _ _
    | with_reducible refine Keeps.ite ?_ ?_
    | with_reducible refine (setLink_keeps ..).step ?_

theorem sendNow_keeps (a1 a2 a3 s) : Keeps 0x220080 s (sendNow a1 a2 a3 s) := by
  unfold sendNow
  try dsimp only
  repeat'
    first
    | with_reducible exact Keeps.refl _ _
    | with_reducible refine Keeps.ite ?_ ?_
    | with_reducible refine (emit_keeps ..).step ?_
    | with_reducible refine (setLink_keeps ..).step ?_
    | with_reducible refine (linkTally_keeps ..).step ?_
    | with_reducible refine (linkBuild_keeps ..).step ?_
    | split

theorem sendFor_keeps (a1 a2 a3 s) : Keeps 0x220080 s (sendFor a1 a2 a3 s) := by
  unfold sendFor
  try dsimp only
  repeat'
    first
    | with_reducible exact Keeps.refl _ _
    | with_reducible refine Keeps.ite ?_ ?_
    | with_reducible refine (sendNow_keeps ..).step ?_
    | with_reducible refine (setLink_keeps ..).step ?_
    | split

theorem sendKaf_keeps (a1 a2 s) : Keeps 0x220080 s (sendKaf a1 a2 s) := by
  unfold sendKaf
  try dsimp only
  repeat'
    first
    | with_reducible exact Keeps.refl _ _
    | with_reducible refine Keeps.ite ?_ ?_
    | with_reducible refine (sendFor_keeps ..).step ?_
    | split

theorem sendParked_keeps (a1 s) : Keeps 0x220080 s (sendParked a1 s) := by
  unfold sendParked
  try dsimp only
  repeat'
    first
    | with_reducible exact Keeps.refl _ _
    | with_reducible assumption
    | with_reducible refine Keeps.ite ?_ ?_
    | with_reducible refine (sendNow_keeps ..).step ?_
    | with_reducible refine (setLink_keeps ..).step ?_
    | with_reducible refine Keeps.foldl ?_ ?_
    | with_reducible refine Keeps.foldl_fst ?_ ?_
    | with_reducible refine Keeps.foldl_snd ?_ ?_
    | intro _ _ _
    | intro _ _
    | split

theorem sendBypass_keeps (a1 a2 s) : Keeps 0x220080 s (sendBypass a1 a2 s) := by
  unfold sendBypass
  try dsimp only
  repeat'
    first
    | with_reducible exact Keeps.refl _ _
    | with_reducible refine Keeps.ite ?_ ?_
    | with_reducible refine (linkTally_keeps ..).step ?_
    | with_reducible refine (emit_keeps ..).step ?_
    | with_reducible refine (linkBuild_keeps ..).step ?_

theorem freezeNow_keeps (s) : Keeps 0x80 s (freezeNow s) := by
  unfold freezeNow
  try dsimp only
  repeat'
    first
    | with_reducible exact Keeps.refl _ _
    | with_reducible refine Keeps.ite ?_ ?_
    | with_reducible refine (State.setTal_keeps _ _ ?_).step ?_
    | exact fun h => Tally.ok_of h rfl rfl

theorem askFreeze_keeps (s) : Keeps 0x80 s (askFreeze s) := by
  unfold askFreeze
  try dsimp only
  repeat'
    first
    | with_reducible exact Keeps.refl _ _
    | with_reducible refine Keeps.ite ?_ ?_
    | with_reducible refine (State.setTal_keeps _ _ ?_).step ?_
    | exact fun h => Tally.ok_of h rfl rfl
    | split

theorem setTrace_keeps (a1 a2 s) (h : s.tal.Ok → a2.fifo.length ≤ 256) : Keeps 0x80 s (setTrace a1 a2 s) := by
  unfold setTrace
  refine State.setTal_keeps _ _ fun k => ?_
  split
  · exact ⟨h k, k.2⟩
  · exact ⟨k.1, h k⟩

theorem traceOf_fifo {s : State} (h : s.tal.Ok) (die : Nat) : (traceOf s die).fifo.length ≤ 256 := by
  unfold traceOf
  split
  · exact h.1
  · exact h.2

theorem traceEnter_fifo (s : State) (t : Trace) (w : BitVec 256) (h : t.fifo.length ≤ 256) :
    (traceEnter s t w).fifo.length ≤ 256 := by
  unfold traceEnter
  extract_lets gaps
  split
  · next g => simpa only [List.length_append, List.length_singleton] using g
  · exact h

theorem traceEvent_keeps (a1 a2 a3 a4 a5 a6 a7 a8 a9 s) : Keeps 0x80 s (traceEvent a1 a2 a3 a4 a5 a6 a7 a8 a9 s) := by
  unfold traceEvent
  extract_lets t on wanted conf u
  refine Keeps.ite (Keeps.ite (setTrace_keeps _ _ _ fun h => traceOf_fifo h _) ?_) (.refl ..)
  have hu : s.tal.Ok → u.fifo.length ≤ 256 := fun h => traceEnter_fifo _ _ _ (traceOf_fifo h _)
  clear_value u
  split
  · exact setTrace_keeps _ _ _ hu
  · refine (setTrace_keeps _ _ _ fun h => hu ?_).step ?_
    · exact ⟨h.1, h.2⟩
    · exact State.setTal_keeps _ _ fun h => Tally.ok_of h rfl rfl

theorem traceTriggerSeen_keeps (s) : Keeps 0x80 s (traceTriggerSeen s) := by
  unfold traceTriggerSeen
  try dsimp only
  repeat'
    first
    | with_reducible exact Keeps.refl _ _
    | with_reducible refine Keeps.ite ?_ ?_
    | with_reducible refine (State.setTal_keeps _ _ ?_).step ?_
    | with_reducible refine (askFreeze_keeps ..).step ?_
    | exact fun h => Tally.ok_of h rfl rfl
    | split

theorem emcySend_keeps (a1 s) : Keeps 0x200004 s (emcySend a1 s) := by
  unfold emcySend
  try dsimp only
  repeat'
    first
    | with_reducible exact Keeps.refl _ _
    | with_reducible refine Keeps.ite ?_ ?_
    | with_reducible refine (emit_keeps ..).step ?_
    | with_reducible refine (State.setCan_keeps _ _ ?_).step ?_
    | exact fun h => Can.ok_of h rfl

theorem emcyRaise_keeps (a1 a2 a3 a4 s) : Keeps 0x200006 s (emcyRaise a1 a2 a3 a4 s) := by
  unfold emcyRaise
  extract_lets e
  split
  · exact (emcySend_keeps ..).mono
  · split
    · refine (State.setCan_keeps _ _ fun h => ?_).mono
      next g => simp only [Can.Ok, List.length_append, List.length_singleton]; omega
    · refine (bumpObj_keeps ..).step ((State.setCan_keeps _ _ fun h => ?_).mono)
      simp only [Can.Ok, List.length_append, List.length_singleton, List.length_drop] at h ⊢
      omega

theorem telemetry_keeps (a1 a2 s) : Keeps 0x80 s (telemetry a1 a2 s) := by
  unfold telemetry
  try dsimp only
  repeat'
    first
    | with_reducible exact Keeps.refl _ _
    | with_reducible refine Keeps.ite ?_ ?_
    | with_reducible refine (traceEvent_keeps ..).step ?_
    | with_reducible refine (State.setTal_keeps _ _ ?_).step ?_
    | with_reducible refine (traceTriggerSeen_keeps ..).step ?_
    | with_reducible refine (askFreeze_keeps ..).step ?_
    | exact fun h => Tally.ok_of h rfl rfl
    | split

theorem logPut_keeps (a1 s) : Keeps 0x100 s (logPut a1 s) := by
  unfold logPut
  try dsimp only
  repeat'
    first
    | with_reducible exact Keeps.refl _ _
    | with_reducible refine Keeps.ite ?_ ?_
    | with_reducible refine (State.setMem_keeps _ _ rfl ?_).step ?_
    | exact fun h => Mem.ok_of h rfl rfl rfl

theorem logStore_keeps (e s) : Keeps 0x100 s (if logUsed s < 4096 then logPut e s
      else s.setMem fun m => { m with logLost := (m.logLost + 1) % 2 ^ 32, logGap := m.logGap + 1 }) :=
  Keeps.ite (logPut_keeps ..) (State.setMem_keeps _ _ rfl fun h => Mem.ok_of h rfl rfl rfl)

theorem severe_keeps (s) : Keeps 0x100 s (s.setMem fun m => { m with sev3 := true }) :=
  State.setMem_keeps _ _ rfl fun h => Mem.ok_of h rfl rfl rfl

theorem logEvent_keeps (a1 a2 a3 a4 a5 a6 a7 s) : Keeps 0x200186 s (logEvent a1 a2 a3 a4 a5 a6 a7 s) := by
  unfold logEvent
  extract_lets conf e s1 s2
  have h1 : Keeps 0x200186 s s1 := (logStore_keeps e s).mono
  clear_value s1
  clear e conf
  refine Keeps.ite ?_ h1
  exact (telemetry_keeps ..).step ((emcyRaise_keeps ..).step ((severe_keeps ..).step h1))

theorem setTenant_keeps (a1 a2 s) : Keeps 0x400 s (setTenant a1 a2 s) := by
  unfold setTenant
  try dsimp only
  repeat'
    first
    | with_reducible exact Keeps.refl _ _
    | with_reducible refine Keeps.ite ?_ ?_
    | with_reducible refine (State.setLed_keeps _ _ ?_).step ?_
    | exact fun h => Ledger.ok_of h rfl rfl rfl
    | exact fun h => ⟨tput_rising _ _ h.1 _, h.2, h.3⟩

theorem setExt_keeps (a1 a2 s) : Keeps 0x400 s (setExt a1 a2 s) := by
  unfold setExt
  try dsimp only
  repeat'
    first
    | with_reducible exact Keeps.refl _ _
    | with_reducible refine Keeps.ite ?_ ?_
    | with_reducible refine (State.setLed_keeps _ _ ?_).step ?_
    | exact fun h => Ledger.ok_of h rfl rfl rfl
    | exact fun h => ⟨tput_rising _ _ h.1 _, h.2, h.3⟩
    | exact fun h => ⟨h.1, tput_rising _ _ h.2 _, h.3⟩

theorem setQp_keeps (a1 a2 s) : Keeps 0x400 s (setQp a1 a2 s) := by
  unfold setQp
  try dsimp only
  repeat'
    first
    | with_reducible exact Keeps.refl _ _
    | with_reducible refine Keeps.ite ?_ ?_
    | with_reducible refine (State.setLed_keeps _ _ ?_).step ?_
    | exact fun h => Ledger.ok_of h rfl rfl rfl
    | exact fun h => ⟨tput_rising _ _ h.1 _, h.2, h.3⟩
    | exact fun h => ⟨h.1, tput_rising _ _ h.2 _, h.3⟩
    | exact fun h => ⟨h.1, h.2, tput_rising _ _ h.3 _⟩

theorem setCtx_keeps (a1 a2 s) : Keeps 0x800 s (setCtx a1 a2 s) := by
  unfold setCtx
  try dsimp only
  repeat'
    first
    | with_reducible exact Keeps.refl _ _
    | with_reducible refine Keeps.ite ?_ ?_
    | with_reducible refine (State.setKv_keeps _ _ ?_).step ?_
    | exact fun h => h
    | exact fun h => tput_rising _ _ h _
    | exact fun h => ⟨tput_rising _ _ h.1 _, h.2⟩

theorem setCore_keeps (a1 a2 s) : Keeps 0x1000 s (setCore a1 a2 s) := by
  unfold setCore
  try dsimp only
  repeat'
    first
    | with_reducible exact Keeps.refl _ _
    | with_reducible refine Keeps.ite ?_ ?_
    | with_reducible refine (State.setAttn_keeps _ _ ?_).step ?_
    | exact fun h => h
    | exact fun h => tput_rising _ _ h _
    | exact fun h => ⟨tput_rising _ _ h.1 _, h.2⟩

theorem setCtl_keeps (a1 a2 s) : Keeps 0x200 s (setCtl a1 a2 s) := by
  unfold setCtl
  try dsimp only
  repeat'
    first
    | with_reducible exact Keeps.refl _ _
    | with_reducible refine Keeps.ite ?_ ?_
    | with_reducible refine (State.setHbm_keeps _ _ ?_).step ?_
    | exact fun h => h
    | exact fun h => tput_rising _ _ h _
    | exact fun h => ⟨tput_rising _ _ h.1 _, h.2⟩

theorem giveBack_keeps (a1 a2 s) : Keeps 0x800 s (giveBack a1 a2 s) := by
  unfold giveBack
  try dsimp only
  repeat'
    first
    | with_reducible exact Keeps.refl _ _
    | with_reducible refine Keeps.ite ?_ ?_
    | with_reducible refine (State.setKv_keeps _ _ ?_).step ?_
    | exact fun h => h

theorem givePrep_keeps (a1 s) : Keeps 0x800 s (givePrep a1 s) := by
  unfold givePrep
  try dsimp only
  repeat'
    first
    | with_reducible exact Keeps.refl _ _
    | with_reducible assumption
    | with_reducible refine Keeps.ite ?_ ?_
    | with_reducible refine (giveBack_keeps ..).step ?_
    | with_reducible refine Keeps.foldl ?_ ?_
    | with_reducible refine Keeps.foldl_fst ?_ ?_
    | with_reducible refine Keeps.foldl_snd ?_ ?_
    | intro _ _ _
    | intro _ _
    | split

theorem setLine_keeps (a1 a2 s) : Keeps 0x100 s (setLine a1 a2 s) := by
  unfold setLine
  try dsimp only
  repeat'
    first
    | with_reducible exact Keeps.refl _ _
    | with_reducible refine Keeps.ite ?_ ?_
    | with_reducible refine (State.setMem_keeps _ _ rfl ?_).step ?_
    | exact fun h => ⟨h.1, h.2, h.3, tput_rising _ _ h.4 _, h.5⟩

theorem noteLine_keeps (a1 s a2 a3) : Keeps 0x200186 s (noteLine a1 s a2 a3) := by
  unfold noteLine
  try dsimp only
  repeat'
    first
    | with_reducible exact Keeps.refl _ _
    | with_reducible refine Keeps.ite ?_ ?_
    | with_reducible refine (logEvent_keeps ..).step ?_
    | with_reducible refine (bumpObj_keeps ..).step ?_
    | with_reducible refine (State.setMem_keeps _ _ rfl ?_).step ?_
    | exact fun h => Mem.ok_of h rfl rfl rfl
    | split

theorem notePoison_keeps (a1 s a2 a3) : Keeps 0x200186 s (notePoison a1 s a2 a3) := by
  unfold notePoison
  try dsimp only
  repeat'
    first
    | with_reducible exact Keeps.refl _ _
    | with_reducible refine Keeps.ite ?_ ?_
    | with_reducible refine (logEvent_keeps ..).step ?_

theorem noteSector_keeps (a1 a2 s a3) : Keeps 0x200186 s (noteSector a1 a2 s a3) := by
  unfold noteSector
  try dsimp only
  repeat'
    first
    | with_reducible exact Keeps.refl _ _
    | with_reducible assumption
    | with_reducible refine Keeps.ite ?_ ?_
    | with_reducible refine (logEvent_keeps ..).step ?_
    | with_reducible refine (notePoison_keeps ..).step ?_
    | with_reducible refine (noteLine_keeps ..).step ?_
    | with_reducible refine (bumpObj_keeps ..).step ?_
    | with_reducible refine Keeps.foldl ?_ ?_
    | with_reducible refine Keeps.foldl_fst ?_ ?_
    | with_reducible refine Keeps.foldl_snd ?_ ?_
    | with_reducible refine Keeps.snd ?_ (by assumption)
    | with_reducible refine Keeps.fst ?_ (by assumption)
    | with_reducible refine Keeps.snd2 ?_ (by assumption)
    | with_reducible refine Keeps.snd3 ?_ (by assumption)
    | intro _ _ _
    | intro _ _
    | split

theorem noteMedia_keeps (a1 a2 a3 a4 s) : Keeps 0x200186 s (noteMedia a1 a2 a3 a4 s) := by
  unfold noteMedia
  try dsimp only
  repeat'
    first
    | with_reducible exact Keeps.refl _ _
    | with_reducible assumption
    | with_reducible refine Keeps.ite ?_ ?_
    | with_reducible refine (notePoison_keeps ..).step ?_
    | with_reducible refine (noteSector_keeps ..).step ?_
    | with_reducible refine (noteLine_keeps ..).step ?_
    | with_reducible refine Keeps.foldl ?_ ?_
    | with_reducible refine Keeps.foldl_fst ?_ ?_
    | with_reducible refine Keeps.foldl_snd ?_ ?_
    | intro _ _ _

theorem wakeCtl_keeps (a1 s) : Keeps 0x200 s (wakeCtl a1 s) := by
  unfold wakeCtl
  try dsimp only
  repeat'
    first
    | with_reducible exact Keeps.refl _ _
    | with_reducible refine Keeps.ite ?_ ?_
    | with_reducible refine (State.setHbm_keeps _ _ ?_).step ?_
    | exact fun h => h
    | exact fun h => tput_rising _ _ h _
    | exact fun h => ⟨tput_rising _ _ h.1 _, h.2⟩

theorem notePlain_keeps (a1 a2 a3 s) : Keeps 0x200186 s (notePlain a1 a2 a3 s) := by
  unfold notePlain
  try dsimp only
  repeat'
    first
    | with_reducible exact Keeps.refl _ _
    | with_reducible refine Keeps.ite ?_ ?_
    | with_reducible refine (logEvent_keeps ..).step ?_
    | with_reducible refine (bumpObj_keeps ..).step ?_
    | split

theorem rowTouch_keeps (a1 a2 a3 s) : Keeps 0x200 s (rowTouch a1 a2 a3 s) := by
  unfold rowTouch
  try dsimp only
  repeat'
    first
    | with_reducible exact Keeps.refl _ _
    | with_reducible refine Keeps.ite ?_ ?_
    | with_reducible refine (wakeCtl_keeps ..).step ?_
    | with_reducible refine (State.setHbm_keeps _ _ ?_).step ?_
    | exact fun h => h
    | exact fun h => tput_rising _ _ h _
    | exact fun h => Tbl.rising_map h _ fun _ => rfl
    | exact fun h => Tbl.rising_map h _ fun p => by split <;> rfl
    | split

theorem activate_keeps (a1 a2 a3 a4 a5 s) : Keeps 0x200 s (activate a1 a2 a3 a4 a5 s) := by
  unfold activate
  try dsimp only
  repeat'
    first
    | with_reducible exact Keeps.refl _ _
    | with_reducible assumption
    | with_reducible refine Keeps.ite ?_ ?_
    | with_reducible refine (rowTouch_keeps ..).step ?_
    | with_reducible refine Keeps.foldl ?_ ?_
    | with_reducible refine Keeps.foldl_fst ?_ ?_
    | with_reducible refine Keeps.foldl_snd ?_ ?_
    | intro _ _ _
    | intro _ _
    | split

theorem noteReadBy_keeps (a1 a2 a3 a4 s) : Keeps 0x200386 s (noteReadBy a1 a2 a3 a4 s) := by
  unfold noteReadBy
  try dsimp only
  repeat'
    first
    | with_reducible exact Keeps.refl _ _
    | with_reducible refine Keeps.ite ?_ ?_
    | with_reducible refine (notePlain_keeps ..).step ?_
    | with_reducible refine (noteMedia_keeps ..).step ?_
    | with_reducible refine (activate_keeps ..).step ?_
    | split

theorem noteRead_keeps (a1 a2 a3 s) : Keeps 0x200386 s (noteRead a1 a2 a3 s) := by
  unfold noteRead
  try dsimp only
  repeat'
    first
    | with_reducible exact Keeps.refl _ _
    | with_reducible refine Keeps.ite ?_ ?_
    | with_reducible refine (noteReadBy_keeps ..).step ?_
    | split

theorem tallyT1_keeps (a1 a2 a3 a4 s) : Keeps 0x280 s (tallyT1 a1 a2 a3 a4 s) := by
  induction a2 generalizing a3 a4 s with
  | zero => exact .refl ..
  | succ k ih =>
    unfold tallyT1
    refine Keeps.ite (.refl ..) ((ih _ _ _).step ((wakeCtl_keeps ..).step ((tallyAdd_keeps ..).mono)))

theorem tallyPort_keeps (a1 a2 a3 s) : Keeps 0x80 s (tallyPort a1 a2 a3 s) := by
  unfold tallyPort
  try dsimp only
  repeat'
    first
    | with_reducible exact Keeps.refl _ _
    | with_reducible refine Keeps.ite ?_ ?_
    | with_reducible refine (linkTally_keeps ..).step ?_
    | split

theorem tallyMem_keeps (a1 a2 a3 s) : Keeps 0x280 s (tallyMem a1 a2 a3 s) := by
  unfold tallyMem
  try dsimp only
  repeat'
    first
    | with_reducible exact Keeps.refl _ _
    | with_reducible refine Keeps.ite ?_ ?_
    | with_reducible refine (tallyPort_keeps ..).step ?_
    | with_reducible refine (tallyAdd_keeps ..).step ?_
    | with_reducible refine (tallyT1_keeps ..).step ?_
    | split

theorem writeLines_keeps (a1 a2 a3 a4 s) : Keeps 0x100 s (writeLines a1 a2 a3 a4 s) := by
  unfold writeLines
  try dsimp only
  repeat'
    first
    | with_reducible exact Keeps.refl _ _
    | with_reducible assumption
    | with_reducible refine Keeps.ite ?_ ?_
    | with_reducible refine (setLine_keeps ..).step ?_
    | with_reducible refine Keeps.foldl ?_ ?_
    | with_reducible refine Keeps.foldl_fst ?_ ?_
    | with_reducible refine Keeps.foldl_snd ?_ ?_
    | intro _ _ _

theorem writeWhole_keeps (a1 a2 s) : Keeps 0x1000380 s (writeWhole a1 a2 s) := by
  unfold writeWhole
  try dsimp only
  repeat'
    first
    | with_reducible exact Keeps.refl _ _
    | with_reducible refine Keeps.ite ?_ ?_
    | with_reducible refine (tallyMem_keeps ..).step ?_
    | with_reducible refine (writeLines_keeps ..).step ?_
    | with_reducible refine (activate_keeps ..).step ?_
    | with_reducible refine (State.setBytes_keeps _ _ ?_).step ?_
    | exact fun h => ⟨mwrite_wf h.1 _ _, h.2, h.3, h.4, h.5⟩
    | exact fun h => ⟨mzero_wf h.1 _ _, h.2, h.3, h.4, h.5⟩
    | exact fun h => Mem.ok_of h rfl rfl rfl
    | exact fun h => ⟨h.1, h.2, h.3, tput_rising _ _ h.4 _, h.5⟩
    | exact fun h => ⟨h.1, h.2, h.3, h.4, tput_rising _ _ h.5 _⟩
    | split

theorem writeMeta_keeps (a1 a2 a3 s) : Keeps 0x100 s (writeMeta a1 a2 a3 s) := by
  unfold writeMeta
  try dsimp only
  repeat'
    first
    | with_reducible exact Keeps.refl _ _
    | with_reducible assumption
    | with_reducible refine Keeps.ite ?_ ?_
    | with_reducible refine (setLine_keeps ..).step ?_
    | with_reducible refine Keeps.foldl ?_ ?_
    | with_reducible refine Keeps.foldl_fst ?_ ?_
    | with_reducible refine Keeps.foldl_snd ?_ ?_
    | intro _ _ _
    | intro _ _
    | split

theorem memStore_keeps (a1 a2 a3 a4 s) : Keeps 0x1000380 s (memStore a1 a2 a3 a4 s) := by
  unfold memStore
  extract_lets n s1
  have h1 : Keeps 0x1000380 s s1 := by
    refine Keeps.foldl (.refl ..) fun t i h => ?_
    exact Keeps.ite h ((writeMeta_keeps ..).step h)
  clear_value s1
  exact (tallyMem_keeps ..).step ((State.setBytes_keeps _ _ fun h => ⟨mwriteMask_wf h.1 _ _ _, h.2, h.3, h.4, h.5⟩).step h1)

theorem noteWriteBy_keeps (a1 a2 a3 a4 a5 s) : Keeps 0x200386 s (noteWriteBy a1 a2 a3 a4 a5 s) := by
  unfold noteWriteBy
  try dsimp only
  repeat'
    first
    | with_reducible exact Keeps.refl _ _
    | with_reducible assumption
    | with_reducible refine Keeps.ite ?_ ?_
    | with_reducible refine (noteMedia_keeps ..).step ?_
    | with_reducible refine (activate_keeps ..).step ?_
    | with_reducible refine Keeps.foldl ?_ ?_
    | with_reducible refine Keeps.foldl_fst ?_ ?_
    | with_reducible refine Keeps.foldl_snd ?_ ?_
    | intro _ _ _
    | intro _ _
    | split

theorem noteWrite_keeps (a1 a2 a3 a4 s) : Keeps 0x200386 s (noteWrite a1 a2 a3 a4 s) := by
  unfold noteWrite
  try dsimp only
  repeat'
    first
    | with_reducible exact Keeps.refl _ _
    | with_reducible refine Keeps.ite ?_ ?_
    | with_reducible refine (noteWriteBy_keeps ..).step ?_
    | split

theorem zeroRange_keeps (a1 a2 s) : Keeps 0x1000100 s (zeroRange a1 a2 s) := by
  unfold zeroRange
  exact State.setBytes_keeps _ _ fun h => ⟨mzero_wf h.1 _ _, h.2, h.3, Tbl.rising_filter h.4 _, h.5⟩

end Sys2Proof.Machine
end

