-- ==== Sys2Proof/Laws/KeepsFlags.lean ====
section
/-! SUPPORT. What each operation of Machine/Flags.lean may write, and that it keeps the invariant. -/

namespace Sys2Proof.Machine

set_option Elab.async false

/-- What a refused write leaves is what the write answers, 1022:01 apart. -/
theorem written_keeps {P : Nat} {r : State} {x : Nat × State} (h : Keeps P r x.2) (sub : Nat.lor 2 P = P := by with_unfolding_all rfl) :
    Keeps P r (written x) := by
  unfold written
  exact Keeps.ite h ((bumpObj_keeps ..).step h sub)

theorem commanded_keeps {P : Nat} {r : State} {f : State → Nat × State} {s : State} (h : Keeps P r s)
    (hf : ∀ t, Keeps P r t → Keeps P r (f t).2) (sub : Nat.lor 2 P = P := by with_unfolding_all rfl) : Keeps P r (commanded f s) := by
  unfold commanded
  exact Keeps.ite (written_keeps (hf s h) sub) h

theorem objCmd_keeps {P : Nat} {r : State} {p : Prin} {i j : Nat} {f : State → Nat × State} {s : State} (h : Keeps P r s)
    (hf : ∀ t, Keeps P r t → Keeps P r (f t).2) (sub : Nat.lor 2 P = P := by with_unfolding_all rfl) : Keeps P r (objCmd p i j f s) := by
  unfold objCmd
  refine commanded_keeps h (fun t k => ?_) sub
  split
  · exact hf t k
  · exact k

theorem mirrorGate_keeps {P : Nat} {r : State} {m : Mirror} {f : State → Nat × State} {s : State} (h : Keeps P r s)
    (hf : ∀ t, Keeps P r t → Keeps P r (f t).2) (sub : Nat.lor 0x100000 P = P := by with_unfolding_all rfl) :
    Keeps P r (mirrorGate m f s).2 := by
  unfold mirrorGate
  split
  · exact h
  · next e =>
    extract_lets x
    split
    · exact hf s h
    · exact (Keeps.span_mk s _ (by first | rfl | exact e.symm)).step h sub
  · exact hf s h

end Sys2Proof.Machine
end

