-- ==== Sys2Proof/Laws/KeepsQueues.lean ====
section
/-! SUPPORT. What each operation of Machine/Queues.lean may write, and that it keeps the invariant. -/

namespace Sys2Proof.Machine

set_option Elab.async false

theorem markStarved1_keeps (s a1) : Keeps 0x400 s (markStarved1 s a1) := by
  unfold markStarved1
  try dsimp only
  repeat'
    first
    | with_reducible exact Keeps.refl _ _
    | with_reducible refine Keeps.ite ?_ ?_
    | with_reducible refine (setQp_keeps ..).step ?_

theorem markStarved_keeps (s) : Keeps 0x400 s (markStarved s) := by
  unfold markStarved
  try dsimp only
  repeat'
    first
    | with_reducible exact Keeps.refl _ _
    | with_reducible assumption
    | with_reducible refine Keeps.ite ?_ ?_
    | with_reducible refine (markStarved1_keeps ..).step ?_
    | with_reducible refine Keeps.foldl ?_ ?_
    | with_reducible refine Keeps.foldl_fst ?_ ?_
    | with_reducible refine Keeps.foldl_snd ?_ ?_
    | intro _ _ _

theorem sqTail_keeps (a1 a2 s) : Keeps 0x400 s (sqTail a1 a2 s) := by
  unfold sqTail
  try dsimp only
  repeat'
    first
    | with_reducible exact Keeps.refl _ _
    | with_reducible assumption
    | with_reducible refine Keeps.ite ?_ ?_
    | with_reducible refine (markStarved_keeps ..).step ?_
    | with_reducible refine (setQp_keeps ..).step ?_
    | with_reducible refine Keeps.foldl ?_ ?_
    | with_reducible refine Keeps.foldl_fst ?_ ?_
    | with_reducible refine Keeps.foldl_snd ?_ ?_
    | with_reducible refine Keeps.snd ?_ (by assumption)
    | with_reducible refine Keeps.fst ?_ (by assumption)
    | with_reducible refine Keeps.snd2 ?_ (by assumption)
    | with_reducible refine Keeps.snd3 ?_ (by assumption)
    | intro _ _ _
    | intro _ _
    | split

theorem cqHead_keeps (a1 a2 s) : Keeps 0x400 s (cqHead a1 a2 s) := by
  unfold cqHead
  try dsimp only
  repeat'
    first
    | with_reducible exact Keeps.refl _ _
    | with_reducible refine Keeps.ite ?_ ?_
    | with_reducible refine (markStarved_keeps ..).step ?_
    | with_reducible refine (setQp_keeps ..).step ?_
    | split

theorem setToll_keeps (a1 a2 s) : Keeps 0x2000 s (setToll a1 a2 s) := by
  unfold setToll
  try dsimp only
  repeat'
    first
    | with_reducible exact Keeps.refl _ _
    | with_reducible refine Keeps.ite ?_ ?_
    | with_reducible refine (State.setShape_keeps _ _).step ?_

theorem tollSettle_keeps (a1 a2 a3 a4 a5 s) : Keeps 0x2000 s (tollSettle a1 a2 a3 a4 a5 s).2 := by
  unfold tollSettle
  try dsimp only
  repeat'
    first
    | with_reducible exact Keeps.refl _ _
    | with_reducible refine Keeps.ite ?_ ?_
    | with_reducible refine Keeps.ite_snd ?_ ?_
    | with_reducible refine (setToll_keeps ..).step ?_
    | split

theorem tollMark_keeps (a1 a2 a3 a4 s) : Keeps 0x2002 s (tollMark a1 a2 a3 a4 s).2 := by
  unfold tollMark
  try dsimp only
  repeat'
    first
    | with_reducible exact Keeps.refl _ _
    | with_reducible refine Keeps.ite ?_ ?_
    | with_reducible refine Keeps.ite_snd ?_ ?_
    | with_reducible refine (tollSettle_keeps ..).step ?_
    | with_reducible refine (Keeps.snd (tollSettle_keeps ..) (by assumption)).step ?_
    | with_reducible refine (setToll_keeps ..).step ?_
    | with_reducible refine (bumpObj_keeps ..).step ?_
    | with_reducible refine Keeps.snd ?_ (by assumption)
    | with_reducible refine Keeps.fst ?_ (by assumption)
    | with_reducible refine Keeps.snd2 ?_ (by assumption)
    | with_reducible refine Keeps.snd3 ?_ (by assumption)
    | split

theorem tollPop_keeps (a1 s) : Keeps 0x2000 s (tollPop a1 s).2 := by
  unfold tollPop
  try dsimp only
  repeat'
    first
    | with_reducible exact Keeps.refl _ _
    | with_reducible refine Keeps.ite ?_ ?_
    | with_reducible refine Keeps.ite_snd ?_ ?_
    | with_reducible refine (setToll_keeps ..).step ?_
    | split

theorem tollLeave_keeps (a1 s) : Keeps 0x2000 s (tollLeave a1 s) := by
  unfold tollLeave
  try dsimp only
  repeat'
    first
    | with_reducible exact Keeps.refl _ _
    | with_reducible refine Keeps.ite ?_ ?_
    | with_reducible refine (State.setShape_keeps _ _).step ?_

theorem setFlight_keeps (a1 s) : Keeps 0x1000 s (setFlight a1 s) := by
  unfold setFlight
  try dsimp only
  repeat'
    first
    | with_reducible exact Keeps.refl _ _
    | with_reducible refine Keeps.ite ?_ ?_
    | with_reducible refine (State.setAttn_keeps _ _ ?_).step ?_
    | exact fun h => h

theorem raiseIrq_keeps (a1 s) : Keeps 0x220480 s (raiseIrq a1 s) := by
  unfold raiseIrq
  try dsimp only
  repeat'
    first
    | with_reducible exact Keeps.refl _ _
    | with_reducible refine Keeps.ite ?_ ?_
    | with_reducible refine (emit_keeps ..).step ?_
    | with_reducible refine (sendBypass_keeps ..).step ?_
    | with_reducible refine (setQp_keeps ..).step ?_
    | split

theorem countIrq_keeps (a1 s) : Keeps 0x220480 s (countIrq a1 s) := by
  unfold countIrq
  try dsimp only
  repeat'
    first
    | with_reducible exact Keeps.refl _ _
    | with_reducible refine Keeps.ite ?_ ?_
    | with_reducible refine (setQp_keeps ..).step ?_
    | with_reducible refine (raiseIrq_keeps ..).step ?_

theorem sampleDelay_keeps (a1 a2 s) : Keeps 0x400 s (sampleDelay a1 a2 s) := by
  unfold sampleDelay
  try dsimp only
  repeat'
    first
    | with_reducible exact Keeps.refl _ _
    | with_reducible refine Keeps.ite ?_ ?_
    | with_reducible refine (State.setLed_keeps _ _ ?_).step ?_
    | exact fun h => Ledger.ok_of h rfl rfl rfl

theorem sampleAll_keeps (s) : Keeps 0x400 s (sampleAll s) := by
  unfold sampleAll
  try dsimp only
  repeat'
    first
    | with_reducible exact Keeps.refl _ _
    | with_reducible assumption
    | with_reducible refine Keeps.ite ?_ ?_
    | with_reducible refine (State.setLed_keeps _ _ ?_).step ?_
    | with_reducible refine Keeps.foldl ?_ ?_
    | with_reducible refine Keeps.foldl_fst ?_ ?_
    | with_reducible refine Keeps.foldl_snd ?_ ?_
    | exact fun h => Ledger.ok_of h rfl rfl rfl
    | exact fun h => ⟨tput_rising _ _ h.1 _, h.2, h.3⟩
    | exact fun h => ⟨h.1, tput_rising _ _ h.2 _, h.3⟩
    | exact fun h => ⟨h.1, h.2, tput_rising _ _ h.3 _⟩
    | intro _ _ _

theorem bucketAdd_keeps (a1 a2 a3 a4 a5 s) : Keeps 0x100000 s (bucketAdd a1 a2 a3 a4 a5 s) := by
  unfold bucketAdd
  try dsimp only
  repeat'
    first
    | with_reducible exact Keeps.refl _ _
    | with_reducible refine Keeps.ite ?_ ?_
    | with_reducible refine (Keeps.span_mk _ _ ?_).step ?_
    | exact rfl

theorem memberReport_keeps (a1 a2 a3 a4 a5 s) : Keeps 0x200000 s (memberReport a1 a2 a3 a4 a5 s) := by
  unfold memberReport
  try dsimp only
  repeat'
    first
    | with_reducible exact Keeps.refl _ _
    | with_reducible assumption
    | with_reducible refine Keeps.ite ?_ ?_
    | with_reducible refine (emit_keeps ..).step ?_
    | with_reducible refine Keeps.foldl ?_ ?_
    | with_reducible refine Keeps.foldl_fst ?_ ?_
    | with_reducible refine Keeps.foldl_snd ?_ ?_
    | intro _ _ _

theorem complete_keeps (a1 a2 a3 a4 a5 s) : Keeps 0x323C82 s (complete a1 a2 a3 a4 a5 s) := by
  unfold complete
  try dsimp only
  repeat'
    first
    | with_reducible exact Keeps.refl _ _
    | with_reducible refine Keeps.ite ?_ ?_
    | with_reducible refine (tollLeave_keeps ..).step ?_
    | with_reducible refine (bucketAdd_keeps ..).step ?_
    | with_reducible refine (traceEvent_keeps ..).step ?_
    | with_reducible refine (memberReport_keeps ..).step ?_
    | with_reducible refine (State.setTal_keeps _ _ ?_).step ?_
    | with_reducible refine (traceTriggerSeen_keeps ..).step ?_
    | with_reducible refine (bumpObj_keeps ..).step ?_
    | with_reducible refine (markStarved_keeps ..).step ?_
    | with_reducible refine (sampleDelay_keeps ..).step ?_
    | with_reducible refine (State.setAttn_keeps _ _ ?_).step ?_
    | with_reducible refine (givePrep_keeps ..).step ?_
    | with_reducible refine (sendFor_keeps ..).step ?_
    | with_reducible refine (countIrq_keeps ..).step ?_
    | with_reducible refine (setQp_keeps ..).step ?_
    | exact fun h => Tally.ok_of h rfl rfl
    | exact fun h => h
    | exact fun h => tput_rising _ _ h _
    | exact fun h => Tbl.rising_map h _ fun _ => rfl
    | exact fun h => Tbl.rising_map h _ fun p => by split <;> rfl
    | split

theorem readHead_keeps (a1 a2 s) : Keeps 0x323C93 s (readHead a1 a2 s) := by
  unfold readHead
  try dsimp only
  repeat'
    first
    | with_reducible exact Keeps.refl _ _
    | with_reducible refine Keeps.ite ?_ ?_
    | with_reducible refine (setFlight_keeps ..).step ?_
    | with_reducible refine (tollMark_keeps ..).step ?_
    | with_reducible refine (Keeps.snd (tollMark_keeps ..) (by assumption)).step ?_
    | with_reducible refine (markStarved_keeps ..).step ?_
    | with_reducible refine (State.setAttn_keeps _ _ ?_).step ?_
    | with_reducible refine (traceEvent_keeps ..).step ?_
    | with_reducible refine (setQp_keeps ..).step ?_
    | with_reducible refine (complete_keeps ..).step ?_
    | with_reducible refine (carryTo_keeps ..).step ?_
    | with_reducible refine Keeps.snd ?_ (by assumption)
    | with_reducible refine Keeps.fst ?_ (by assumption)
    | with_reducible refine Keeps.snd2 ?_ (by assumption)
    | with_reducible refine Keeps.snd3 ?_ (by assumption)
    | exact fun h => h
    | exact fun h => tput_rising _ _ h _
    | exact fun h => Tbl.rising_map h _ fun _ => rfl
    | exact fun h => Tbl.rising_map h _ fun p => by split <;> rfl
    | split

theorem tookTurn_keeps (a1 a2 s) : Keeps 0x400 s (tookTurn a1 a2 s) := by
  unfold tookTurn
  try dsimp only
  repeat'
    first
    | with_reducible exact Keeps.refl _ _
    | with_reducible refine Keeps.ite ?_ ?_
    | with_reducible refine (State.setLed_keeps _ _ ?_).step ?_
    | with_reducible refine (setTenant_keeps ..).step ?_
    | exact fun h => Ledger.ok_of h rfl rfl rfl
    | exact fun h => ⟨tput_rising _ _ h.1 _, h.2, h.3⟩
    | exact fun h => ⟨h.1, tput_rising _ _ h.2 _, h.3⟩
    | exact fun h => ⟨h.1, h.2, tput_rising _ _ h.3 _⟩
    | split

theorem execDescriptorRead_keeps (a1 s) : RKeeps 0x323C93 s (execDescriptorRead a1 s) := by
  unfold execDescriptorRead
  try dsimp only
  repeat'
    first
    | with_reducible exact Keeps.refl _ _
    | with_reducible refine Keeps.ite ?_ ?_
    | with_reducible refine RKeeps.next ?_
    | with_reducible refine RKeeps.ite ?_ ?_
    | with_reducible refine (readHead_keeps ..).step ?_
    | with_reducible refine (tookTurn_keeps ..).step ?_
    | with_reducible refine (markStarved_keeps ..).step ?_
    | split

theorem execUnsupported_keeps (a1 s) : RKeeps 0x323C93 s (execUnsupported a1 s) := by
  unfold execUnsupported
  try dsimp only
  repeat'
    first
    | with_reducible exact Keeps.refl _ _
    | with_reducible refine Keeps.ite ?_ ?_
    | with_reducible refine RKeeps.next ?_
    | with_reducible refine RKeeps.ite ?_ ?_
    | with_reducible refine (readHead_keeps ..).step ?_

theorem execSqtail_keeps (a1 a2 s) : RKeeps 0x400 s (execSqtail a1 a2 s) := by
  unfold execSqtail
  try dsimp only
  repeat'
    first
    | with_reducible exact Keeps.refl _ _
    | with_reducible refine Keeps.ite ?_ ?_
    | with_reducible refine RKeeps.next ?_
    | with_reducible refine RKeeps.ite ?_ ?_
    | with_reducible refine (sqTail_keeps ..).step ?_

theorem execCqhead_keeps (a1 a2 s) : RKeeps 0x400 s (execCqhead a1 a2 s) := by
  unfold execCqhead
  try dsimp only
  repeat'
    first
    | with_reducible exact Keeps.refl _ _
    | with_reducible refine Keeps.ite ?_ ?_
    | with_reducible refine RKeeps.next ?_
    | with_reducible refine RKeeps.ite ?_ ?_
    | with_reducible refine (cqHead_keeps ..).step ?_

theorem execInterruptCoalesceTimer_keeps (a1 s) : RKeeps 0x220491 s (execInterruptCoalesceTimer a1 s) := by
  unfold execInterruptCoalesceTimer
  try dsimp only
  repeat'
    first
    | with_reducible exact Keeps.refl _ _
    | with_reducible refine Keeps.ite ?_ ?_
    | with_reducible refine RKeeps.next ?_
    | with_reducible refine RKeeps.ite ?_ ?_
    | with_reducible refine (raiseIrq_keeps ..).step ?_
    | with_reducible refine (carryTo_keeps ..).step ?_
    | split

theorem reinitBegin_keeps (a1 a2 s) : Keeps 0x323C82 s (reinitBegin a1 a2 s) := by
  unfold reinitBegin
  try dsimp only
  repeat'
    first
    | with_reducible exact Keeps.refl _ _
    | with_reducible assumption
    | with_reducible refine Keeps.ite ?_ ?_
    | with_reducible refine (setQp_keeps ..).step ?_
    | with_reducible refine (complete_keeps ..).step ?_
    | with_reducible refine Keeps.foldl ?_ ?_
    | with_reducible refine Keeps.foldl_fst ?_ ?_
    | with_reducible refine Keeps.foldl_snd ?_ ?_
    | intro _ _ _
    | intro _ _
    | split

theorem qpcfgWrite_keeps (a1 a2 s) : Keeps 0x323C82 s (qpcfgWrite a1 a2 s) := by
  unfold qpcfgWrite
  try dsimp only
  repeat'
    first
    | with_reducible exact Keeps.refl _ _
    | with_reducible refine Keeps.ite ?_ ?_
    | with_reducible refine (reinitBegin_keeps ..).step ?_
    | with_reducible refine (setQp_keeps ..).step ?_
    | split

theorem execQpcfgEnable_keeps (a1 a2 s) : RKeeps 0x323C82 s (execQpcfgEnable a1 a2 s) := by
  unfold execQpcfgEnable
  try dsimp only
  repeat'
    first
    | with_reducible exact Keeps.refl _ _
    | with_reducible refine Keeps.ite ?_ ?_
    | with_reducible refine RKeeps.next ?_
    | with_reducible refine RKeeps.ite ?_ ?_
    | with_reducible refine (qpcfgWrite_keeps ..).step ?_

theorem execQpcfgReinit_keeps (a1 a2 s) : RKeeps 0x323C82 s (execQpcfgReinit a1 a2 s) := by
  unfold execQpcfgReinit
  try dsimp only
  repeat'
    first
    | with_reducible exact Keeps.refl _ _
    | with_reducible refine Keeps.ite ?_ ?_
    | with_reducible refine RKeeps.next ?_
    | with_reducible refine RKeeps.ite ?_ ?_
    | with_reducible refine (qpcfgWrite_keeps ..).step ?_

theorem execReinitDone_keeps (a1 s) : RKeeps 0x400 s (execReinitDone a1 s) := by
  unfold execReinitDone
  try dsimp only
  repeat'
    first
    | with_reducible exact Keeps.refl _ _
    | with_reducible refine Keeps.ite ?_ ?_
    | with_reducible refine RKeeps.next ?_
    | with_reducible refine RKeeps.ite ?_ ?_
    | with_reducible refine (setQp_keeps ..).step ?_

theorem execQueueSample_keeps (s) : RKeeps 0x491 s (execQueueSample s) := by
  unfold execQueueSample
  try dsimp only
  repeat'
    first
    | with_reducible exact Keeps.refl _ _
    | with_reducible refine Keeps.ite ?_ ?_
    | with_reducible refine RKeeps.next ?_
    | with_reducible refine RKeeps.ite ?_ ?_
    | with_reducible refine (sampleAll_keeps ..).step ?_
    | with_reducible refine (carryTo_keeps ..).step ?_

theorem writeSampleReset_keeps (a1 s) : Keeps 0x400 s (writeSampleReset a1 s).2 := by
  unfold writeSampleReset
  try dsimp only
  repeat'
    first
    | with_reducible exact Keeps.refl _ _
    | with_reducible refine Keeps.ite ?_ ?_
    | with_reducible refine Keeps.ite_snd ?_ ?_
    | with_reducible refine (State.setLed_keeps _ _ ?_).step ?_
    | exact fun h => Ledger.ok_of h rfl rfl rfl

theorem execResetSampleRecord_keeps (a1 s) : RKeeps 0x402 s (execResetSampleRecord a1 s) := by
  unfold execResetSampleRecord
  try dsimp only
  repeat'
    first
    | with_reducible exact Keeps.refl _ _
    | with_reducible assumption
    | with_reducible refine Keeps.ite ?_ ?_
    | with_reducible refine RKeeps.next ?_
    | with_reducible refine RKeeps.ite ?_ ?_
    | with_reducible refine (writeSampleReset_keeps ..).step ?_
    | with_reducible refine (Keeps.snd (writeSampleReset_keeps ..) (by assumption)).step ?_
    | with_reducible refine commanded_keeps ?_ ?_
    | split
    | intro _ _ _
    | intro _ _

end Sys2Proof.Machine
end

