-- ==== Sys2Proof/Laws/KeepsXlate.lean ====
section
/-! SUPPORT. What each operation of Machine/Xlate.lean may write, and that it keeps the invariant. -/

namespace Sys2Proof.Machine

set_option Elab.async false

theorem noteDecode_keeps (a1 a2 a3 s) : Keeps 0x200186 s (noteDecode a1 a2 a3 s) := by
  unfold noteDecode
  try dsimp only
  repeat'
    first
    | with_reducible exact Keeps.refl _ _
    | with_reducible refine Keeps.ite ?_ ?_
    | with_reducible refine (logEvent_keeps ..).step ?_

theorem setTlb_keeps (a1 a2 s) : Keeps 0x4000 s (setTlb a1 a2 s) := by
  unfold setTlb
  try dsimp only
  repeat'
    first
    | with_reducible exact Keeps.refl _ _
    | with_reducible refine Keeps.ite ?_ ?_
    | with_reducible refine (State.setXl_keeps _ _ ?_).step ?_
    | exact fun h => Xlate.ok_of h rfl
    | exact fun h => le_trans (List.length_filter_le _ _) h
    | exact fun h => (List.length_map _).trans_le h
    | exact fun h => le_trans List.length_erase_le h
    | split

theorem tlbFill_keeps (a1 a2 s) : Keeps 0x404000 s (tlbFill a1 a2 s) := by
  unfold tlbFill
  try dsimp only
  repeat'
    first
    | with_reducible exact Keeps.refl _ _
    | with_reducible refine Keeps.ite ?_ ?_
    | with_reducible refine (setTlb_keeps ..).step ?_
    | with_reducible refine (freeStep_keeps ..).step ?_

theorem setWalks_keeps (a1 a2 s) : Keeps 0x4000 s (setWalks a1 a2 s) := by
  unfold setWalks
  try dsimp only
  repeat'
    first
    | with_reducible exact Keeps.refl _ _
    | with_reducible refine Keeps.ite ?_ ?_
    | with_reducible refine (State.setXl_keeps _ _ ?_).step ?_
    | exact fun h => Xlate.ok_of h rfl
    | exact fun h => le_trans (List.length_filter_le _ _) h
    | exact fun h => (List.length_map _).trans_le h
    | exact fun h => le_trans List.length_erase_le h
    | split

theorem walkFill_keeps (a1 s a2) : Keeps 0x404000 s (walkFill a1 s a2) := by
  unfold walkFill
  try dsimp only
  repeat'
    first
    | with_reducible exact Keeps.refl _ _
    | with_reducible refine Keeps.ite ?_ ?_
    | with_reducible refine (freeStep_keeps ..).step ?_
    | with_reducible refine (setWalks_keeps ..).step ?_
    | split

theorem noteTable_keeps (a1 s a2) : Keeps 0x200386 s (noteTable a1 s a2) := by
  unfold noteTable
  try dsimp only
  repeat'
    first
    | with_reducible exact Keeps.refl _ _
    | with_reducible refine Keeps.ite ?_ ?_
    | with_reducible refine (logEvent_keeps ..).step ?_
    | with_reducible refine (tallyMem_keeps ..).step ?_
    | with_reducible refine (noteRead_keeps ..).step ?_
    | split

theorem countFault_keeps (a1 s) : Keeps 0x2 s (countFault a1 s) := by
  unfold countFault
  try dsimp only
  repeat'
    first
    | with_reducible exact Keeps.refl _ _
    | with_reducible refine Keeps.ite ?_ ?_
    | with_reducible refine (bumpObj_keeps ..).step ?_
    | split

theorem translate_keeps (a1 a2 a3 a4 s) : Keeps 0x604386 s (translate a1 a2 a3 a4 s).2 := by
  unfold translate
  try dsimp only
  repeat'
    first
    | with_reducible exact Keeps.refl _ _
    | with_reducible assumption
    | with_reducible refine Keeps.ite ?_ ?_
    | with_reducible refine Keeps.ite_snd ?_ ?_
    | with_reducible refine (bumpObj_keeps ..).step ?_
    | with_reducible refine (walkFill_keeps ..).step ?_
    | with_reducible refine (tlbFill_keeps ..).step ?_
    | with_reducible refine (countFault_keeps ..).step ?_
    | with_reducible refine (noteTable_keeps ..).step ?_
    | with_reducible refine Keeps.foldl ?_ ?_
    | with_reducible refine Keeps.foldl_fst ?_ ?_
    | with_reducible refine Keeps.foldl_snd ?_ ?_
    | with_reducible refine Keeps.snd ?_ (by assumption)
    | with_reducible refine Keeps.fst ?_ (by assumption)
    | with_reducible refine Keeps.snd2 ?_ (by assumption)
    | with_reducible refine Keeps.snd3 ?_ (by assumption)
    | intro _ _ _
    | intro _ _
    | split

theorem translatePages_keeps (a1 a2 a3 a4 a5 a6 a7 a8 s) : Keeps 0x604386 s (translatePages a1 a2 a3 a4 a5 a6 a7 a8 s).2 := by
  induction a6 generalizing a1 a2 a3 a4 a5 a7 a8 s with
  | zero =>
    unfold translatePages
    try dsimp only
    repeat'
      first
      | with_reducible exact Keeps.refl _ _
  | succ k ih =>
    unfold translatePages
    try dsimp only
    repeat'
      first
      | with_reducible refine (ih ..).step ?_
      | with_reducible refine (Keeps.snd (ih ..) (by assumption)).step ?_
      | with_reducible exact Keeps.refl _ _
      | with_reducible refine Keeps.ite ?_ ?_
      | with_reducible refine Keeps.ite_snd ?_ ?_
      | with_reducible refine (translate_keeps ..).step ?_
      | with_reducible refine (Keeps.snd (translate_keeps ..) (by assumption)).step ?_
      | with_reducible refine Keeps.snd ?_ (by assumption)
      | with_reducible refine Keeps.fst ?_ (by assumption)
      | with_reducible refine Keeps.snd2 ?_ (by assumption)
      | with_reducible refine Keeps.snd3 ?_ (by assumption)
      | split

theorem translateBlock_keeps (a1 a2 a3 a4 a5 s) : Keeps 0x604386 s (translateBlock a1 a2 a3 a4 a5 s).2 := by
  unfold translateBlock
  try dsimp only
  repeat'
    first
    | with_reducible exact Keeps.refl _ _
    | with_reducible refine Keeps.ite ?_ ?_
    | with_reducible refine Keeps.ite_snd ?_ ?_
    | with_reducible refine (countFault_keeps ..).step ?_
    | with_reducible refine (translatePages_keeps ..).step ?_
    | with_reducible refine (Keeps.snd (translatePages_keeps ..) (by assumption)).step ?_
    | with_reducible refine Keeps.snd ?_ (by assumption)
    | with_reducible refine Keeps.fst ?_ (by assumption)
    | with_reducible refine Keeps.snd2 ?_ (by assumption)
    | with_reducible refine Keeps.snd3 ?_ (by assumption)
    | split

theorem notePieces_keeps (a1 a2 a3 s) : Keeps 0x200386 s (notePieces a1 a2 a3 s) := by
  unfold notePieces
  try dsimp only
  repeat'
    first
    | with_reducible exact Keeps.refl _ _
    | with_reducible assumption
    | with_reducible refine Keeps.ite ?_ ?_
    | with_reducible refine (tallyMem_keeps ..).step ?_
    | with_reducible refine (noteRead_keeps ..).step ?_
    | with_reducible refine (noteDecode_keeps ..).step ?_
    | with_reducible refine Keeps.foldl ?_ ?_
    | with_reducible refine Keeps.foldl_fst ?_ ?_
    | with_reducible refine Keeps.foldl_snd ?_ ?_
    | intro _ _ _

theorem writePieces_keeps (a1 a2 a3 s) : Keeps 0x1200386 s (writePieces a1 a2 a3 s).2 := by
  unfold writePieces
  try dsimp only
  repeat'
    first
    | with_reducible exact Keeps.refl _ _
    | with_reducible assumption
    | with_reducible refine Keeps.ite ?_ ?_
    | with_reducible refine Keeps.ite_snd ?_ ?_
    | with_reducible refine (noteWrite_keeps ..).step ?_
    | with_reducible refine (memStore_keeps ..).step ?_
    | with_reducible refine Keeps.foldl ?_ ?_
    | with_reducible refine Keeps.foldl_fst ?_ ?_
    | with_reducible refine Keeps.foldl_snd ?_ ?_
    | intro _ _ _

theorem faultPost_keeps (a1 s) : Keeps 0x4000 s (faultPost a1 s) := by
  unfold faultPost
  split
  · next c =>
    refine State.setXl_keeps _ _ fun _ => ?_
    simp only [Xlate.Ok, List.length_append, List.length_singleton]
    omega
  · exact State.setXl_keeps _ _ fun h => Xlate.ok_of h rfl

theorem faultDrop_keeps (a1 s) : Keeps 0x4000 s (faultDrop a1 s) := by
  unfold faultDrop
  try dsimp only
  repeat'
    first
    | with_reducible exact Keeps.refl _ _
    | with_reducible refine Keeps.ite ?_ ?_
    | with_reducible refine (State.setXl_keeps _ _ ?_).step ?_
    | exact fun h => Xlate.ok_of h rfl
    | exact fun h => le_trans (List.length_filter_le _ _) h

theorem pendingRecords_keeps (a1 a2 s) : Keeps 0x4000 s (pendingRecords a1 a2 s) := by
  unfold pendingRecords
  try dsimp only
  repeat'
    first
    | with_reducible exact Keeps.refl _ _
    | with_reducible assumption
    | with_reducible refine Keeps.ite ?_ ?_
    | with_reducible refine (faultPost_keeps ..).step ?_
    | with_reducible refine Keeps.foldl ?_ ?_
    | with_reducible refine Keeps.foldl_fst ?_ ?_
    | with_reducible refine Keeps.foldl_snd ?_ ?_
    | intro _ _ _

theorem pendingPost_keeps (a1 a2 s) : Keeps 0x5000 s (pendingPost a1 a2 s) := by
  unfold pendingPost
  try dsimp only
  repeat'
    first
    | with_reducible exact Keeps.refl _ _
    | with_reducible refine Keeps.ite ?_ ?_
    | with_reducible refine (setFlight_keeps ..).step ?_
    | with_reducible refine (pendingRecords_keeps ..).step ?_

theorem execPendingFault_keeps (a1 s) : RKeeps 0x605386 s (execPendingFault a1 s) := by
  unfold execPendingFault
  try dsimp only
  repeat'
    first
    | with_reducible exact Keeps.refl _ _
    | with_reducible refine Keeps.ite ?_ ?_
    | with_reducible refine RKeeps.next ?_
    | with_reducible refine RKeeps.ite ?_ ?_
    | with_reducible refine (pendingPost_keeps ..).step ?_
    | with_reducible refine (translateBlock_keeps ..).step ?_
    | with_reducible refine (Keeps.snd (translateBlock_keeps ..) (by assumption)).step ?_
    | with_reducible refine Keeps.snd ?_ (by assumption)
    | with_reducible refine Keeps.fst ?_ (by assumption)
    | with_reducible refine Keeps.snd2 ?_ (by assumption)
    | with_reducible refine Keeps.snd3 ?_ (by assumption)
    | split

theorem execFaultQueueSlotFree_keeps (s) : RKeeps 0x4002 s (execFaultQueueSlotFree s) := by
  unfold execFaultQueueSlotFree
  split
  · exact RKeeps.next (.refl ..)
  · split
    · next c =>
      refine RKeeps.next ((bumpObj_keeps ..).step ((State.setXl_keeps _ _ fun _ => ?_).mono))
      simp only [Xlate.Ok, List.length_append, List.length_singleton]
      omega
    · exact RKeeps.next (.refl ..)

theorem translateUnits_keeps (a1 a2 a3 a4 s) : Keeps 0x604386 s (translateUnits a1 a2 a3 a4 s).2 := by
  induction a4 generalizing a1 a2 a3 s with
  | nil =>
    unfold translateUnits
    try dsimp only
    repeat'
      first
      | with_reducible exact Keeps.refl _ _
      | with_reducible refine Keeps.ite ?_ ?_
      | with_reducible refine Keeps.ite_snd ?_ ?_
      | with_reducible refine (translateBlock_keeps ..).step ?_
      | with_reducible refine (Keeps.snd (translateBlock_keeps ..) (by assumption)).step ?_
      | with_reducible refine Keeps.snd ?_ (by assumption)
      | with_reducible refine Keeps.fst ?_ (by assumption)
      | with_reducible refine Keeps.snd2 ?_ (by assumption)
      | with_reducible refine Keeps.snd3 ?_ (by assumption)
      | split
  | cons x l ih =>
    unfold translateUnits
    try dsimp only
    repeat'
      first
      | with_reducible refine (ih ..).step ?_
      | with_reducible refine (Keeps.snd (ih ..) (by assumption)).step ?_
      | with_reducible exact Keeps.refl _ _
      | with_reducible refine Keeps.ite ?_ ?_
      | with_reducible refine Keeps.ite_snd ?_ ?_
      | with_reducible refine (translateBlock_keeps ..).step ?_
      | with_reducible refine (Keeps.snd (translateBlock_keeps ..) (by assumption)).step ?_
      | with_reducible refine Keeps.snd ?_ (by assumption)
      | with_reducible refine Keeps.fst ?_ (by assumption)
      | with_reducible refine Keeps.snd2 ?_ (by assumption)
      | with_reducible refine Keeps.snd3 ?_ (by assumption)
      | split

theorem unitsDrop_keeps (a1 a2 s) : Keeps 0x4000 s (unitsDrop a1 a2 s) := by
  unfold unitsDrop
  try dsimp only
  repeat'
    first
    | with_reducible exact Keeps.refl _ _
    | with_reducible refine Keeps.ite ?_ ?_
    | with_reducible refine (State.setXl_keeps _ _ ?_).step ?_
    | exact fun h => Xlate.ok_of h rfl
    | exact fun h => le_trans (List.length_filter_le _ _) h
    | exact fun h => (List.length_map _).trans_le h
    | exact fun h => le_trans List.length_erase_le h
    | split

theorem execPendingRewalk_keeps (a1 s) : RKeeps 0x727F86 s (execPendingRewalk a1 s) := by
  unfold execPendingRewalk
  try dsimp only
  repeat'
    first
    | with_reducible exact Keeps.refl _ _
    | with_reducible refine Keeps.ite ?_ ?_
    | with_reducible refine RKeeps.next ?_
    | with_reducible refine RKeeps.ite ?_ ?_
    | with_reducible refine (setFlight_keeps ..).step ?_
    | with_reducible refine (unitsDrop_keeps ..).step ?_
    | with_reducible refine (translateUnits_keeps ..).step ?_
    | with_reducible refine (Keeps.snd (translateUnits_keeps ..) (by assumption)).step ?_
    | with_reducible refine (faultDrop_keeps ..).step ?_
    | with_reducible refine (pendingPost_keeps ..).step ?_
    | with_reducible refine (State.setXl_keeps _ _ ?_).step ?_
    | with_reducible refine (complete_keeps ..).step ?_
    | with_reducible refine Keeps.snd ?_ (by assumption)
    | with_reducible refine Keeps.fst ?_ (by assumption)
    | with_reducible refine Keeps.snd2 ?_ (by assumption)
    | with_reducible refine Keeps.snd3 ?_ (by assumption)
    | exact fun h => Xlate.ok_of h rfl
    | exact fun h => le_trans (List.length_filter_le _ _) h
    | exact fun h => (List.length_map _).trans_le h
    | exact fun h => le_trans List.length_erase_le h
    | split

theorem execPendingFaultTimeout_keeps (a1 s) : RKeeps 0x327C93 s (execPendingFaultTimeout a1 s) := by
  unfold execPendingFaultTimeout
  try dsimp only
  repeat'
    first
    | with_reducible exact Keeps.refl _ _
    | with_reducible refine Keeps.ite ?_ ?_
    | with_reducible refine RKeeps.next ?_
    | with_reducible refine RKeeps.ite ?_ ?_
    | with_reducible refine (countFault_keeps ..).step ?_
    | with_reducible refine (complete_keeps ..).step ?_
    | with_reducible refine (faultDrop_keeps ..).step ?_
    | with_reducible refine (carryTo_keeps ..).step ?_
    | split

theorem xlinvCommand_keeps (a1 a2 s) : Keeps 0x4400 s (xlinvCommand a1 a2 s) := by
  unfold xlinvCommand
  try dsimp only
  repeat'
    first
    | with_reducible exact Keeps.refl _ _
    | with_reducible refine Keeps.ite ?_ ?_
    | with_reducible refine (setQp_keeps ..).step ?_
    | with_reducible refine (State.setXl_keeps _ _ ?_).step ?_
    | exact fun h => Xlate.ok_of h rfl
    | exact fun h => le_trans (List.length_filter_le _ _) h
    | exact fun h => (List.length_map _).trans_le h
    | exact fun h => le_trans List.length_erase_le h
    | split

theorem execXlinvcmd_keeps (a1 a2 s) : RKeeps 0x4400 s (execXlinvcmd a1 a2 s) := by
  unfold execXlinvcmd
  try dsimp only
  repeat'
    first
    | with_reducible exact Keeps.refl _ _
    | with_reducible refine Keeps.ite ?_ ?_
    | with_reducible refine RKeeps.next ?_
    | with_reducible refine RKeeps.ite ?_ ?_
    | with_reducible refine (xlinvCommand_keeps ..).step ?_

theorem execInvalidationStart_keeps (s) : RKeeps 0x4000 s (execInvalidationStart s) := by
  unfold execInvalidationStart
  try dsimp only
  repeat'
    first
    | with_reducible exact Keeps.refl _ _
    | with_reducible refine Keeps.ite ?_ ?_
    | with_reducible refine RKeeps.next ?_
    | with_reducible refine RKeeps.ite ?_ ?_
    | with_reducible refine (State.setXl_keeps _ _ ?_).step ?_
    | exact fun h => Xlate.ok_of h rfl
    | exact fun h => le_trans (List.length_filter_le _ _) h
    | exact fun h => (List.length_map _).trans_le h
    | exact fun h => le_trans List.length_erase_le h
    | split

theorem execInvalidationComplete_keeps (s) : RKeeps 0x4402 s (execInvalidationComplete s) := by
  unfold execInvalidationComplete
  try dsimp only
  repeat'
    first
    | with_reducible exact Keeps.refl _ _
    | with_reducible refine Keeps.ite ?_ ?_
    | with_reducible refine RKeeps.next ?_
    | with_reducible refine RKeeps.ite ?_ ?_
    | with_reducible refine (bumpObj_keeps ..).step ?_
    | with_reducible refine (State.setLed_keeps _ _ ?_).step ?_
    | with_reducible refine (setQp_keeps ..).step ?_
    | with_reducible refine (State.setXl_keeps _ _ ?_).step ?_
    | exact fun h => Ledger.ok_of h rfl rfl rfl
    | exact fun h => ⟨tput_rising _ _ h.1 _, h.2, h.3⟩
    | exact fun h => ⟨h.1, tput_rising _ _ h.2 _, h.3⟩
    | exact fun h => ⟨h.1, h.2, tput_rising _ _ h.3 _⟩
    | exact fun h => Xlate.ok_of h rfl
    | exact fun h => le_trans (List.length_filter_le _ _) h
    | exact fun h => (List.length_map _).trans_le h
    | exact fun h => le_trans List.length_erase_le h
    | split

theorem readInvStat_keeps (a1 s) : Keeps 0x400 s (readInvStat a1 s).2 := by
  unfold readInvStat
  try dsimp only
  repeat'
    first
    | with_reducible exact Keeps.refl _ _
    | with_reducible refine Keeps.ite ?_ ?_
    | with_reducible refine Keeps.ite_snd ?_ ?_
    | with_reducible refine (setQp_keeps ..).step ?_
    | split

theorem execXlinvstatRead_keeps (a1 s) : RKeeps 0x200400 s (execXlinvstatRead a1 s) := by
  unfold execXlinvstatRead
  try dsimp only
  repeat'
    first
    | with_reducible exact Keeps.refl _ _
    | with_reducible refine Keeps.ite ?_ ?_
    | with_reducible refine RKeeps.next ?_
    | with_reducible refine RKeeps.ite ?_ ?_
    | with_reducible refine (readInvStat_keeps ..).step ?_
    | with_reducible refine (Keeps.snd (readInvStat_keeps ..) (by assumption)).step ?_
    | with_reducible refine (emit_keeps ..).step ?_

theorem bindPasid_keeps (a1 s) : Keeps 0x400 s (bindPasid a1 s).2 := by
  unfold bindPasid
  try dsimp only
  repeat'
    first
    | with_reducible exact Keeps.refl _ _
    | with_reducible refine Keeps.ite ?_ ?_
    | with_reducible refine Keeps.ite_snd ?_ ?_
    | with_reducible refine (State.setLed_keeps _ _ ?_).step ?_
    | exact fun h => Ledger.ok_of h rfl rfl rfl

theorem execBindPasid_keeps (a1 s) : RKeeps 0x100402 s (execBindPasid a1 s) := by
  unfold execBindPasid
  try dsimp only
  repeat'
    first
    | with_reducible exact Keeps.refl _ _
    | with_reducible assumption
    | with_reducible refine Keeps.ite ?_ ?_
    | with_reducible refine RKeeps.next ?_
    | with_reducible refine RKeeps.ite ?_ ?_
    | with_reducible refine mirrorGate_keeps ?_ ?_
    | refine (bindPasid_keeps ..).step ?_
    | refine (Keeps.snd (bindPasid_keeps ..) (by assumption)).step ?_
    | with_reducible refine commanded_keeps ?_ ?_
    | split
    | intro _ _ _
    | intro _ _

theorem unbindPasid_keeps (a1 s) : Keeps 0x4000 s (unbindPasid a1 s).2 := by
  unfold unbindPasid
  try dsimp only
  repeat'
    first
    | with_reducible exact Keeps.refl _ _
    | with_reducible refine Keeps.ite ?_ ?_
    | with_reducible refine Keeps.ite_snd ?_ ?_
    | with_reducible refine (State.setXl_keeps _ _ ?_).step ?_
    | exact fun h => Xlate.ok_of h rfl
    | exact fun h => le_trans (List.length_filter_le _ _) h
    | exact fun h => (List.length_map _).trans_le h
    | exact fun h => le_trans List.length_erase_le h
    | split

theorem execUnbindPasid_keeps (a1 s) : RKeeps 0x104002 s (execUnbindPasid a1 s) := by
  unfold execUnbindPasid
  try dsimp only
  repeat'
    first
    | with_reducible exact Keeps.refl _ _
    | with_reducible assumption
    | with_reducible refine Keeps.ite ?_ ?_
    | with_reducible refine RKeeps.next ?_
    | with_reducible refine RKeeps.ite ?_ ?_
    | with_reducible refine mirrorGate_keeps ?_ ?_
    | refine (unbindPasid_keeps ..).step ?_
    | refine (Keeps.snd (unbindPasid_keeps ..) (by assumption)).step ?_
    | with_reducible refine commanded_keeps ?_ ?_
    | split
    | intro _ _ _
    | intro _ _

end Sys2Proof.Machine
end

