-- ==== Sys2Proof/Laws/KeepsGates.lean ====
section
/-! SUPPORT. What each operation of Machine/Gates.lean may write, and that it keeps the invariant. -/

namespace Sys2Proof.Machine

theorem atGate_keeps (a1 a2 s) : Keeps 0x1000 s (atGate a1 a2 s) := by
  unfold atGate
  try dsimp only
  repeat'
    first
    | with_reducible exact Keeps.refl _ _
    | with_reducible assumption
    | with_reducible refine Keeps.ite ?_ ?_
    | with_reducible refine (setFlight_keeps ..).step ?_
    | with_reducible refine Keeps.foldl ?_ ?_
    | with_reducible refine Keeps.foldl_fst ?_ ?_
    | with_reducible refine Keeps.foldl_snd ?_ ?_
    | with_reducible refine Keeps.snd ?_ (by assumption)
    | with_reducible refine Keeps.fst ?_ (by assumption)
    | with_reducible refine Keeps.snd2 ?_ (by assumption)
    | with_reducible refine Keeps.snd3 ?_ (by assumption)
    | intro _ _ _
    | intro _ _
    | split

set_option Elab.async false

theorem noteDispatch_keeps (a1 s) : Keeps 0x80 s (noteDispatch a1 s) := by
  unfold noteDispatch
  try dsimp only
  repeat'
    first
    | with_reducible exact Keeps.refl _ _
    | with_reducible refine Keeps.ite ?_ ?_
    | with_reducible refine (traceEvent_keeps ..).step ?_

theorem commitGates_keeps (s) : Keeps 0x2000 s (commitGates s).2 := by
  unfold commitGates
  try dsimp only
  repeat'
    first
    | with_reducible exact Keeps.refl _ _
    | with_reducible refine Keeps.ite ?_ ?_
    | with_reducible refine Keeps.ite_snd ?_ ?_
    | with_reducible refine (State.setShape_keeps _ _).step ?_
    | split

theorem execGateChangeCommit_keeps (a1 a2 s) : RKeeps 0x2002 s (execGateChangeCommit a1 a2 s) := by
  unfold execGateChangeCommit
  try dsimp only
  repeat'
    first
    | with_reducible exact Keeps.refl _ _
    | with_reducible assumption
    | with_reducible refine Keeps.ite ?_ ?_
    | with_reducible refine RKeeps.next ?_
    | with_reducible refine RKeeps.ite ?_ ?_
    | with_reducible refine (commitGates_keeps ..).step ?_
    | with_reducible refine (Keeps.snd (commitGates_keeps ..) (by assumption)).step ?_
    | with_reducible refine objCmd_keeps ?_ ?_
    | split
    | intro _ _ _
    | intro _ _

theorem gateApply_keeps (s) : Keeps 0x2000 s (gateApply s) := by
  unfold gateApply
  try dsimp only
  repeat'
    first
    | with_reducible exact Keeps.refl _ _
    | with_reducible refine Keeps.ite ?_ ?_
    | with_reducible refine (State.setShape_keeps _ _).step ?_

end Sys2Proof.Machine
end

