-- ==== Sys2Proof/Laws/KeepsDirectory.lean ====
section
/-! SUPPORT. What each operation of Machine/Directory.lean may write, and that it keeps the invariant. -/

namespace Sys2Proof.Machine

set_option Elab.async false

theorem State.setCoh_keeps (s : State) (f : Coh → Coh) (h : s.coh.Ok → (f s.coh).Ok) :
    Keeps 0x8000 s (s.setCoh f) := Keeps.coh_mk s _ h

theorem setDir_keeps (a1 a2 s) : Keeps 0x8000 s (setDir a1 a2 s) := by
  unfold setDir
  try dsimp only
  repeat'
    first
    | with_reducible exact Keeps.refl _ _
    | with_reducible refine Keeps.ite ?_ ?_
    | with_reducible refine (State.setCoh_keeps _ _ ?_).step ?_
    | exact fun h => ⟨tput_rising _ _ h.1 _, h.2⟩

theorem sendSnoop_keeps {P : Nat} {r : State} {n a b : Nat} {x : List Snoop × State} {q : Snoop} (h : Keeps P r x.2)
    (sub : Nat.lor 0x200000 P = P := by with_unfolding_all rfl) : Keeps P r (sendSnoop n a b x q).2 := by
  unfold sendSnoop
  extract_lets out
  split
  · exact h
  · exact (emit_keeps ..).step h sub

theorem openTxn_keeps (a1 a2 a3 a4 s) : Keeps 0x208000 s (openTxn a1 a2 a3 a4 s) := by
  unfold openTxn
  try dsimp only
  repeat'
    first
    | with_reducible exact Keeps.refl _ _
    | with_reducible assumption
    | with_reducible refine Keeps.ite ?_ ?_
    | with_reducible refine (State.setCoh_keeps _ _ ?_).step ?_
    | with_reducible refine sendSnoop_keeps ?_
    | with_reducible refine Keeps.foldl ?_ ?_
    | with_reducible refine Keeps.foldl_fst ?_ ?_
    | with_reducible refine Keeps.foldl_snd ?_ ?_
    | with_reducible refine Keeps.snd ?_ (by assumption)
    | with_reducible refine Keeps.fst ?_ (by assumption)
    | with_reducible refine Keeps.snd2 ?_ (by assumption)
    | with_reducible refine Keeps.snd3 ?_ (by assumption)
    | exact fun h => h
    | exact fun h => ⟨tput_rising _ _ h.1 _, h.2⟩
    | exact fun h => ⟨h.1, tput_rising _ _ h.2 _⟩
    | exact fun h => ⟨Tbl.rising_map h.1 _ fun _ => rfl, h.2⟩
    | exact fun h => ⟨h.1, Tbl.rising_map h.2 _ fun _ => rfl⟩
    | exact fun h => ⟨h.1.filter _, h.2⟩
    | exact fun h => ⟨h.1, h.2.filter _⟩
    | exact fun h => ⟨Tbl.rising_map h.1 _ fun p => by split <;> rfl, h.2⟩
    | intro _ _ _
    | intro _ _
    | split

theorem blockTxn_keeps (a1 a2 s) : Keeps 0x208000 s (blockTxn a1 a2 s).2 := by
  unfold blockTxn
  try dsimp only
  repeat'
    first
    | with_reducible exact Keeps.refl _ _
    | with_reducible assumption
    | with_reducible refine Keeps.ite ?_ ?_
    | with_reducible refine Keeps.ite_snd ?_ ?_
    | with_reducible refine (setDir_keeps ..).step ?_
    | with_reducible refine (openTxn_keeps ..).step ?_
    | with_reducible refine Keeps.foldl ?_ ?_
    | with_reducible refine Keeps.foldl_fst ?_ ?_
    | with_reducible refine Keeps.foldl_snd ?_ ?_
    | intro _ _ _

theorem blockWait_keeps (a1 a2 a3 a4 a5 s) : Keeps 0x60C386 s (blockWait a1 a2 a3 a4 a5 s).2 := by
  unfold blockWait
  try dsimp only
  repeat'
    first
    | with_reducible exact Keeps.refl _ _
    | with_reducible refine Keeps.ite ?_ ?_
    | with_reducible refine Keeps.ite_snd ?_ ?_
    | with_reducible refine (blockTxn_keeps ..).step ?_
    | with_reducible refine (Keeps.snd (blockTxn_keeps ..) (by assumption)).step ?_
    | with_reducible refine (State.setCoh_keeps _ _ ?_).step ?_
    | exact fun h => h
    | with_reducible refine (translateBlock_keeps ..).step ?_
    | with_reducible refine (Keeps.snd (translateBlock_keeps ..) (by assumption)).step ?_
    | with_reducible refine Keeps.snd ?_ (by assumption)
    | with_reducible refine Keeps.fst ?_ (by assumption)
    | with_reducible refine Keeps.snd2 ?_ (by assumption)
    | with_reducible refine Keeps.snd3 ?_ (by assumption)
    | split

theorem nextSeq_keeps (a1 s) : Keeps 0x100000 s (nextSeq a1 s).2 := by
  unfold nextSeq
  try dsimp only
  repeat'
    first
    | with_reducible exact Keeps.refl _ _
    | with_reducible refine Keeps.ite ?_ ?_
    | with_reducible refine Keeps.ite_snd ?_ ?_
    | with_reducible refine (Keeps.span_mk _ _ ?_).step ?_
    | exact rfl

theorem askRemote_keeps (a1 a2 a3 a4 a5 a6 a7 a8 s) : OKeeps 0x328080 s (fun t => t) (askRemote a1 a2 a3 a4 a5 a6 a7 a8 s) := by
  unfold askRemote
  try dsimp only
  repeat'
    first
    | with_reducible exact Keeps.refl _ _
    | with_reducible assumption
    | with_reducible refine Keeps.ite ?_ ?_
    | with_reducible refine (sendKaf_keeps ..).step ?_
    | with_reducible refine (nextSeq_keeps ..).step ?_
    | with_reducible refine (Keeps.snd (nextSeq_keeps ..) (by assumption)).step ?_
    | with_reducible refine (State.setCoh_keeps _ _ ?_).step ?_
    | exact fun h => h
    | with_reducible refine Keeps.foldl ?_ ?_
    | with_reducible refine Keeps.foldl_fst ?_ ?_
    | with_reducible refine Keeps.foldl_snd ?_ ?_
    | apply OKeeps.bind
    | with_reducible refine Keeps.getD ?_ ?_
    | with_reducible refine Keeps.getD_snd ?_ ?_
    | apply OKeeps.obind
    | refine OKeeps.map_snd ?_ fun _ => rfl
    | apply OKeeps.map
    | with_reducible refine OKeeps.pure ?_
    | with_reducible exact OKeeps.none
    | with_reducible refine OKeeps.some ?_
    | with_reducible refine OKeeps.ite ?_ ?_
    | with_reducible refine Keeps.snd ?_ (by assumption)
    | with_reducible refine Keeps.fst ?_ (by assumption)
    | with_reducible refine Keeps.snd2 ?_ (by assumption)
    | with_reducible refine Keeps.snd3 ?_ (by assumption)
    | with_reducible refine OKeeps.get ?_ (by assumption)
    | with_reducible refine OKeeps.get1 ?_ (by assumption)
    | with_reducible refine OKeeps.get2 ?_ (by assumption)
    | split
    | intro _ _ _

theorem remoteWait_keeps (a1 a2 s) : Keeps 0x329080 s (remoteWait a1 a2 s).2 := by
  unfold remoteWait
  try dsimp only
  repeat'
    first
    | with_reducible exact Keeps.refl _ _
    | with_reducible assumption
    | with_reducible refine Keeps.ite ?_ ?_
    | with_reducible refine Keeps.ite_snd ?_ ?_
    | with_reducible refine (setFlight_keeps ..).step ?_
    | with_reducible refine (askRemote_keeps ..).step ?_
    | with_reducible refine (OKeeps.get (askRemote_keeps ..) (by assumption)).step ?_
    | with_reducible refine Keeps.foldl ?_ ?_
    | with_reducible refine Keeps.foldl_fst ?_ ?_
    | with_reducible refine Keeps.foldl_snd ?_ ?_
    | apply OKeeps.bind
    | with_reducible refine Keeps.getD ?_ ?_
    | with_reducible refine Keeps.getD_snd ?_ ?_
    | apply OKeeps.obind
    | refine OKeeps.map_snd ?_ fun _ => rfl
    | apply OKeeps.map
    | with_reducible refine OKeeps.pure ?_
    | with_reducible exact OKeeps.none
    | with_reducible refine OKeeps.some ?_
    | with_reducible refine OKeeps.ite ?_ ?_
    | with_reducible refine Keeps.snd ?_ (by assumption)
    | with_reducible refine Keeps.fst ?_ (by assumption)
    | with_reducible refine Keeps.snd2 ?_ (by assumption)
    | with_reducible refine Keeps.snd3 ?_ (by assumption)
    | with_reducible refine OKeeps.get ?_ (by assumption)
    | with_reducible refine OKeeps.get1 ?_ (by assumption)
    | with_reducible refine OKeeps.get2 ?_ (by assumption)
    | intro _ _ _
    | intro _ _
    | split

end Sys2Proof.Machine
end

