-- ==== Sys2Proof/Laws/KeepsFrames.lean ====
section
/-! SUPPORT. What each operation of Machine/Frames.lean may write, and that it keeps the invariant. -/

namespace Sys2Proof.Machine

theorem takeFrame_keeps (a1 s a2) : Keeps 0x800 s (takeFrame a1 s a2) := by
  unfold takeFrame
  try dsimp only
  repeat'
    first
    | with_reducible exact Keeps.refl _ _
    | with_reducible refine Keeps.ite ?_ ?_
    | with_reducible refine (State.setKv_keeps _ _ ?_).step ?_
    | exact fun h => h
    | exact fun h => ⟨tput_rising _ _ h.1 _, h.2⟩
    | exact fun h => ⟨h.1, tput_rising _ _ h.2 _⟩
    | exact fun h => ⟨Tbl.rising_map h.1 _ fun _ => rfl, h.2⟩
    | exact fun h => ⟨h.1, Tbl.rising_map h.2 _ fun _ => rfl⟩
    | exact fun h => ⟨h.1.filter _, h.2⟩
    | exact fun h => ⟨h.1, h.2.filter _⟩
    | exact fun h => ⟨Tbl.rising_map h.1 _ fun p => by split <;> rfl, h.2⟩
    | split

set_option Elab.async false

theorem drawFrom_keeps (a1 a2 a3 s) : OKeeps 0x400800 s (·.2) (drawFrom a1 a2 a3 s) := by
  unfold drawFrom
  try dsimp only
  repeat'
    first
    | with_reducible exact Keeps.refl _ _
    | with_reducible refine Keeps.ite ?_ ?_
    | with_reducible refine (State.setKv_keeps _ _ ?_).step ?_
    | with_reducible refine (freeStep_keeps ..).step ?_
    | apply OKeeps.bind
    | with_reducible refine Keeps.getD ?_ ?_
    | with_reducible refine Keeps.getD_snd ?_ ?_
    | apply OKeeps.obind
    | refine OKeeps.map_snd ?_ fun _ => rfl
    | apply OKeeps.map
    | with_reducible refine OKeeps.pure ?_
    | with_reducible exact OKeeps.none
    | with_reducible refine OKeeps.some ?_
    | with_reducible refine OKeeps.ite ?_ ?_
    | with_reducible refine OKeeps.get ?_ (by assumption)
    | with_reducible refine OKeeps.get1 ?_ (by assumption)
    | with_reducible refine OKeeps.get2 ?_ (by assumption)
    | exact fun h => h
    | exact fun h => tput_rising _ _ h _
    | exact fun h => ⟨tput_rising _ _ h.1 _, h.2⟩
    | exact fun h => Tbl.rising_map h _ fun _ => rfl
    | exact fun h => ⟨Tbl.rising_map h.1 _ fun _ => rfl, h.2⟩
    | split

theorem drawT1_keeps (a1 a2 s) : OKeeps 0x400800 s (·.2) (drawT1 a1 a2 s) := by
  unfold drawT1
  try dsimp only
  repeat'
    first
    | with_reducible exact Keeps.refl _ _
    | with_reducible assumption
    | with_reducible refine Keeps.ite ?_ ?_
    | with_reducible refine (drawFrom_keeps ..).step ?_

theorem setPage_keeps (a1 a2 a3 a4 s) : Keeps 0x800 s (setPage a1 a2 a3 a4 s) := by
  unfold setPage
  try dsimp only
  repeat'
    first
    | with_reducible exact Keeps.refl _ _
    | with_reducible refine Keeps.ite ?_ ?_
    | with_reducible refine (State.setKv_keeps _ _ ?_).step ?_
    | exact fun h => h

theorem setLive_keeps (a1 a2 a3 s) : Keeps 0x800 s (setLive a1 a2 a3 s) := by
  unfold setLive
  try dsimp only
  repeat'
    first
    | with_reducible exact Keeps.refl _ _
    | with_reducible refine Keeps.ite ?_ ?_
    | with_reducible refine (State.setKv_keeps _ _ ?_).step ?_
    | exact fun h => h

theorem setFrame_keeps (a1 a2 s) : Keeps 0x800 s (setFrame a1 a2 s) := by
  unfold setFrame
  try dsimp only
  repeat'
    first
    | with_reducible exact Keeps.refl _ _
    | with_reducible refine Keeps.ite ?_ ?_
    | with_reducible refine (State.setKv_keeps _ _ ?_).step ?_
    | exact fun h => h

theorem finishRange_keeps (a1 s) : Keeps 0x323C82 s (finishRange a1 s) := by
  unfold finishRange
  try dsimp only
  repeat'
    first
    | with_reducible exact Keeps.refl _ _
    | with_reducible refine Keeps.ite ?_ ?_
    | with_reducible refine (complete_keeps ..).step ?_
    | split

theorem dropMove_keeps (a1 s) : Keeps 0x323C82 s (dropMove a1 s) := by
  unfold dropMove
  try dsimp only
  repeat'
    first
    | with_reducible exact Keeps.refl _ _
    | with_reducible assumption
    | with_reducible refine Keeps.ite ?_ ?_
    | with_reducible refine (finishRange_keeps ..).step ?_
    | with_reducible refine (State.setKv_keeps _ _ ?_).step ?_
    | with_reducible refine (giveBack_keeps ..).step ?_
    | with_reducible refine Keeps.foldl ?_ ?_
    | with_reducible refine Keeps.foldl_fst ?_ ?_
    | with_reducible refine Keeps.foldl_snd ?_ ?_
    | exact fun h => h
    | exact fun h => tput_rising _ _ h _
    | exact fun h => ⟨tput_rising _ _ h.1 _, h.2⟩
    | exact fun h => Tbl.rising_map h _ fun _ => rfl
    | exact fun h => ⟨Tbl.rising_map h.1 _ fun _ => rfl, h.2⟩
    | intro _ _ _

theorem freeFrame_keeps (a1 s) : Keeps 0x323C82 s (freeFrame a1 s) := by
  unfold freeFrame
  try dsimp only
  repeat'
    first
    | with_reducible exact Keeps.refl _ _
    | with_reducible assumption
    | with_reducible refine Keeps.ite ?_ ?_
    | with_reducible refine (giveBack_keeps ..).step ?_
    | with_reducible refine (State.setKv_keeps _ _ ?_).step ?_
    | with_reducible refine (dropMove_keeps ..).step ?_
    | with_reducible refine Keeps.foldl ?_ ?_
    | with_reducible refine Keeps.foldl_fst ?_ ?_
    | with_reducible refine Keeps.foldl_snd ?_ ?_
    | with_reducible refine Keeps.snd ?_ (by assumption)
    | with_reducible refine Keeps.fst ?_ (by assumption)
    | with_reducible refine Keeps.snd2 ?_ (by assumption)
    | with_reducible refine Keeps.snd3 ?_ (by assumption)
    | exact fun h => h
    | exact fun h => tput_rising _ _ h _
    | exact fun h => ⟨tput_rising _ _ h.1 _, h.2⟩
    | exact fun h => Tbl.rising_map h _ fun _ => rfl
    | exact fun h => ⟨Tbl.rising_map h.1 _ fun _ => rfl, h.2⟩
    | intro _ _ _
    | intro _ _
    | split

theorem relFrame_keeps (a1 s) : Keeps 0x323C82 s (relFrame a1 s) := by
  unfold relFrame
  try dsimp only
  repeat'
    first
    | with_reducible exact Keeps.refl _ _
    | with_reducible refine Keeps.ite ?_ ?_
    | with_reducible refine (setFrame_keeps ..).step ?_
    | with_reducible refine (State.setKv_keeps _ _ ?_).step ?_
    | with_reducible refine (freeFrame_keeps ..).step ?_
    | exact fun h => h
    | exact fun h => tput_rising _ _ h _
    | exact fun h => ⟨tput_rising _ _ h.1 _, h.2⟩
    | exact fun h => Tbl.rising_map h _ fun _ => rfl
    | exact fun h => ⟨Tbl.rising_map h.1 _ fun _ => rfl, h.2⟩
    | split

theorem relT1_keeps (a1 a2 a3 s) : Keeps 0x800 s (relT1 a1 a2 a3 s) := by
  unfold relT1
  try dsimp only
  repeat'
    first
    | with_reducible exact Keeps.refl _ _
    | with_reducible refine Keeps.ite ?_ ?_
    | with_reducible refine (State.setKv_keeps _ _ ?_).step ?_
    | with_reducible refine (giveBack_keeps ..).step ?_
    | exact fun h => h
    | exact fun h => tput_rising _ _ h _
    | exact fun h => ⟨tput_rising _ _ h.1 _, h.2⟩
    | exact fun h => Tbl.rising_map h _ fun _ => rfl
    | exact fun h => ⟨Tbl.rising_map h.1 _ fun _ => rfl, h.2⟩
    | split

theorem execFrameDrainEnd_keeps (a1 s) : RKeeps 0x323C82 s (execFrameDrainEnd a1 s) := by
  unfold execFrameDrainEnd
  try dsimp only
  repeat'
    first
    | with_reducible exact Keeps.refl _ _
    | with_reducible refine Keeps.ite ?_ ?_
    | with_reducible refine RKeeps.next ?_
    | with_reducible refine RKeeps.ite ?_ ?_
    | with_reducible refine (giveBack_keeps ..).step ?_
    | with_reducible refine (State.setKv_keeps _ _ ?_).step ?_
    | with_reducible refine (freeFrame_keeps ..).step ?_
    | exact fun h => h
    | exact fun h => tput_rising _ _ h _
    | exact fun h => ⟨tput_rising _ _ h.1 _, h.2⟩
    | exact fun h => Tbl.rising_map h _ fun _ => rfl
    | exact fun h => ⟨Tbl.rising_map h.1 _ fun _ => rfl, h.2⟩
    | split

theorem needStruct_keeps (a1 a2 a3 a4 s) : OKeeps 0x400800 s (fun t => t) (needStruct a1 a2 a3 a4 s) := by
  unfold needStruct
  try dsimp only
  repeat'
    first
    | with_reducible exact Keeps.refl _ _
    | with_reducible assumption
    | with_reducible refine Keeps.ite ?_ ?_
    | with_reducible refine (drawT1_keeps ..).step ?_
    | with_reducible refine (OKeeps.get1 (drawT1_keeps ..) (by assumption)).step ?_
    | with_reducible refine (State.setKv_keeps _ _ ?_).step ?_
    | apply OKeeps.bind
    | with_reducible refine Keeps.getD ?_ ?_
    | with_reducible refine Keeps.getD_snd ?_ ?_
    | apply OKeeps.obind
    | refine OKeeps.map_snd ?_ fun _ => rfl
    | apply OKeeps.map
    | with_reducible refine OKeeps.pure ?_
    | with_reducible exact OKeeps.none
    | with_reducible refine OKeeps.some ?_
    | with_reducible refine OKeeps.ite ?_ ?_
    | with_reducible refine OKeeps.get ?_ (by assumption)
    | with_reducible refine OKeeps.get1 ?_ (by assumption)
    | with_reducible refine OKeeps.get2 ?_ (by assumption)
    | exact fun h => h
    | exact fun h => tput_rising _ _ h _
    | exact fun h => ⟨tput_rising _ _ h.1 _, h.2⟩
    | exact fun h => Tbl.rising_map h _ fun _ => rfl
    | exact fun h => ⟨Tbl.rising_map h.1 _ fun _ => rfl, h.2⟩
    | split

theorem sweepStructs_keeps (a1 s) : Keeps 0x800 s (sweepStructs a1 s) := by
  unfold sweepStructs
  try dsimp only
  repeat'
    first
    | with_reducible exact Keeps.refl _ _
    | with_reducible assumption
    | with_reducible refine Keeps.ite ?_ ?_
    | with_reducible refine (giveBack_keeps ..).step ?_
    | with_reducible refine (State.setKv_keeps _ _ ?_).step ?_
    | with_reducible refine Keeps.foldl ?_ ?_
    | with_reducible refine Keeps.foldl_fst ?_ ?_
    | with_reducible refine Keeps.foldl_snd ?_ ?_
    | exact fun h => h
    | exact fun h => tput_rising _ _ h _
    | exact fun h => ⟨tput_rising _ _ h.1 _, h.2⟩
    | exact fun h => Tbl.rising_map h _ fun _ => rfl
    | exact fun h => ⟨Tbl.rising_map h.1 _ fun _ => rfl, h.2⟩
    | intro _ _ _

theorem addPage_keeps (a1 a2 a3 a4 s) : OKeeps 0x400800 s (fun t => t) (addPage a1 a2 a3 a4 s) := by
  unfold addPage
  try dsimp only
  repeat'
    first
    | with_reducible exact Keeps.refl _ _
    | with_reducible assumption
    | with_reducible refine Keeps.ite ?_ ?_
    | with_reducible refine (setPage_keeps ..).step ?_
    | with_reducible refine (needStruct_keeps ..).step ?_
    | with_reducible refine (OKeeps.get (needStruct_keeps ..) (by assumption)).step ?_
    | apply OKeeps.bind
    | with_reducible refine Keeps.getD ?_ ?_
    | with_reducible refine Keeps.getD_snd ?_ ?_
    | apply OKeeps.obind
    | refine OKeeps.map_snd ?_ fun _ => rfl
    | apply OKeeps.map
    | with_reducible refine OKeeps.pure ?_
    | with_reducible exact OKeeps.none
    | with_reducible refine OKeeps.some ?_
    | with_reducible refine OKeeps.ite ?_ ?_
    | split
    | intro _ _ _
    | intro _ _

theorem remPage_keeps (a1 a2 a3 s) : Keeps 0x323C82 s (remPage a1 a2 a3 s) := by
  unfold remPage
  try dsimp only
  repeat'
    first
    | with_reducible exact Keeps.refl _ _
    | with_reducible refine Keeps.ite ?_ ?_
    | with_reducible refine (relFrame_keeps ..).step ?_
    | with_reducible refine (setTenant_keeps ..).step ?_
    | with_reducible refine (State.setKv_keeps _ _ ?_).step ?_
    | exact fun h => h
    | exact fun h => tput_rising _ _ h _
    | exact fun h => ⟨tput_rising _ _ h.1 _, h.2⟩
    | exact fun h => Tbl.rising_map h _ fun _ => rfl
    | exact fun h => ⟨Tbl.rising_map h.1 _ fun _ => rfl, h.2⟩
    | split

theorem newFrame_keeps (a1 a2 s) : OKeeps 0x400800 s (·.2) (newFrame a1 a2 s) := by
  unfold newFrame
  try dsimp only
  repeat'
    first
    | with_reducible exact Keeps.refl _ _
    | with_reducible assumption
    | with_reducible refine Keeps.ite ?_ ?_
    | with_reducible refine (drawT1_keeps ..).step ?_
    | with_reducible refine (OKeeps.get1 (drawT1_keeps ..) (by assumption)).step ?_
    | with_reducible refine (State.setKv_keeps _ _ ?_).step ?_
    | with_reducible refine (setFrame_keeps ..).step ?_
    | apply OKeeps.bind
    | with_reducible refine Keeps.getD ?_ ?_
    | with_reducible refine Keeps.getD_snd ?_ ?_
    | apply OKeeps.obind
    | refine OKeeps.map_snd ?_ fun _ => rfl
    | apply OKeeps.map
    | with_reducible refine OKeeps.pure ?_
    | with_reducible exact OKeeps.none
    | with_reducible refine OKeeps.some ?_
    | with_reducible refine OKeeps.ite ?_ ?_
    | with_reducible refine OKeeps.get ?_ (by assumption)
    | with_reducible refine OKeeps.get1 ?_ (by assumption)
    | with_reducible refine OKeeps.get2 ?_ (by assumption)
    | exact fun h => h
    | exact fun h => tput_rising _ _ h _
    | exact fun h => ⟨tput_rising _ _ h.1 _, h.2⟩
    | exact fun h => Tbl.rising_map h _ fun _ => rfl
    | exact fun h => ⟨Tbl.rising_map h.1 _ fun _ => rfl, h.2⟩
    | split

theorem devWrite_keeps (a1 a2 a3 s) : Keeps 0x1000380 s (devWrite a1 a2 a3 s) := by
  unfold devWrite
  try dsimp only
  repeat'
    first
    | with_reducible exact Keeps.refl _ _
    | with_reducible refine Keeps.ite ?_ ?_
    | with_reducible refine (tallyMem_keeps ..).step ?_
    | with_reducible refine (writeLines_keeps ..).step ?_
    | with_reducible refine (activate_keeps ..).step ?_
    | with_reducible refine (State.setBytes_keeps _ _ ?_).step ?_
    | exact fun h => ⟨mwrite_wf h.1 _ _, h.2, h.3, h.4, h.5⟩
    | exact fun h => ⟨mzero_wf h.1 _ _, h.2, h.3, h.4, h.5⟩
    | exact fun h => Mem.ok_of h rfl rfl rfl
    | exact fun h => ⟨h.1, h.2, h.3, tput_rising _ _ h.4 _, h.5⟩
    | exact fun h => ⟨h.1, h.2, h.3, h.4, tput_rising _ _ h.5 _⟩
    | split

theorem copyBytes_keeps (a1 a2 a3 a4 s) : Keeps 0x1000380 s (copyBytes a1 a2 a3 a4 s) := by
  unfold copyBytes
  try dsimp only
  repeat'
    first
    | with_reducible exact Keeps.refl _ _
    | with_reducible refine Keeps.ite ?_ ?_
    | with_reducible refine (tallyMem_keeps ..).step ?_
    | with_reducible refine (devWrite_keeps ..).step ?_
    | with_reducible refine (activate_keeps ..).step ?_
    | split

theorem sumRebuild_keeps (a1 a2 a3 s) : Keeps 0x1200B86 s (sumRebuild a1 a2 a3 s).2 := by
  unfold sumRebuild
  try dsimp only
  repeat'
    first
    | with_reducible exact Keeps.refl _ _
    | with_reducible assumption
    | with_reducible refine Keeps.ite ?_ ?_
    | with_reducible refine Keeps.ite_snd ?_ ?_
    | with_reducible refine (devWrite_keeps ..).step ?_
    | with_reducible refine (tallyMem_keeps ..).step ?_
    | with_reducible refine (setPage_keeps ..).step ?_
    | with_reducible refine (noteRead_keeps ..).step ?_
    | with_reducible refine Keeps.foldl ?_ ?_
    | with_reducible refine Keeps.foldl_fst ?_ ?_
    | with_reducible refine Keeps.foldl_snd ?_ ?_
    | with_reducible refine Keeps.snd ?_ (by assumption)
    | with_reducible refine Keeps.fst ?_ (by assumption)
    | with_reducible refine Keeps.snd2 ?_ (by assumption)
    | with_reducible refine Keeps.snd3 ?_ (by assumption)
    | intro _ _ _
    | intro _ _
    | split

end Sys2Proof.Machine
end

