-- ==== Sys2Proof/Laws/KeepsKv.lean ====
section
/-! SUPPORT. What each operation of Machine/Kv.lean may write, and that it keeps the invariant. -/

namespace Sys2Proof.Machine

set_option Elab.async false

theorem effFail_keeps (a1 a2 s) : Keeps 0x0 s (effFail a1 a2 s).s := by
  unfold effFail
  try dsimp only
  repeat'
    first
    | with_reducible exact Keeps.refl _ _

theorem tenantCount_keeps (a1 a2 a3 s) : Keeps 0x2 s (tenantCount a1 a2 a3 s) := by
  unfold tenantCount
  try dsimp only
  repeat'
    first
    | with_reducible exact Keeps.refl _ _
    | with_reducible refine Keeps.ite ?_ ?_
    | with_reducible refine (bumpObj_keeps ..).step ?_

/-- Parts among those of an operation are among those of the whole. -/
theorem lor_absorb {P Q R : Nat} (h : Nat.lor Q P = P) (k : Nat.lor R Q = Q) : Nat.lor R P = P := by
  rw [← h]
  show R ||| (Q ||| P) = Q ||| P
  rw [← Nat.or_assoc, show R ||| Q = Q from k]

theorem completeEff_keeps {P : Nat} {r : State} {i : Nat} {e : Eff} (h : Keeps P r e.s)
    (sub : Nat.lor 0x323C82 P = P := by with_unfolding_all rfl) : Keeps P r (completeEff i e) := by
  unfold completeEff
  refine (complete_keeps ..).step ?_ sub
  split
  · exact (setFlight_keeps ..).step h (lor_absorb sub rfl)
  · exact h

/-- A failure leaves memory, frames and records as they were before it. -/
theorem undone_keeps {P : Nat} {s t : State} (h : Keeps P s t) : Keeps P s (undone s t) := by
  constructor
  case kv => exact fun _ => rfl
  case led => exact fun _ => rfl
  case bytes => exact fun _ => rfl
  case mem => exact fun b => by show Mem.mk .. = _; rw [h.mem b]
  case inv =>
    intro k
    have w := h.inv k
    exact { w with mem := ⟨k.mem.1, w.mem.2, w.mem.3, k.mem.4, w.mem.5⟩, kv := k.kv, led := k.led }
  all_goals intro b; first | exact h.time b | exact h.dict b | exact h.can b | exact h.pwr b | exact h.clk b | exact h.win b | exact h.tel b | exact h.tal b | exact h.hbm b | exact h.attn b | exact h.shape b | exact h.xl b | exact h.coh b | exact h.mint b | exact h.links b | exact h.truss b | exact h.ports b | exact h.span b | exact h.out b | exact h.freeCtr b | exact h.pending b | exact h.twin b

theorem noteCopy_keeps (a1 a2 a3 s) : Keeps 0x200386 s (noteCopy a1 a2 a3 s) := by
  unfold noteCopy
  try dsimp only
  repeat'
    first
    | with_reducible exact Keeps.refl _ _
    | with_reducible refine Keeps.ite ?_ ?_
    | with_reducible refine (noteRead_keeps ..).step ?_
    | split

theorem onlyT1_keeps (a1 s) : Keeps 0x1400B80 s (onlyT1 a1 s).2 := by
  unfold onlyT1
  try dsimp only
  repeat'
    first
    | with_reducible exact Keeps.refl _ _
    | with_reducible assumption
    | with_reducible refine Keeps.ite ?_ ?_
    | with_reducible refine Keeps.ite_snd ?_ ?_
    | with_reducible refine (drawT1_keeps ..).step ?_
    | with_reducible refine (OKeeps.get1 (drawT1_keeps ..) (by assumption)).step ?_
    | with_reducible refine (setFrame_keeps ..).step ?_
    | with_reducible refine (copyBytes_keeps ..).step ?_
    | with_reducible refine (giveBack_keeps ..).step ?_
    | with_reducible refine Keeps.foldl ?_ ?_
    | with_reducible refine Keeps.foldl_fst ?_ ?_
    | with_reducible refine Keeps.foldl_snd ?_ ?_
    | apply OKeeps.bind
    | with_reducible refine Keeps.getD ?_ ?_
    | with_reducible refine Keeps.getD_snd ?_ ?_
    | apply OKeeps.obind
    | refine OKeeps.map_snd ?_ fun _ => rfl
    | apply OKeeps.map
    | with_reducible refine OKeeps.pure ?_
    | with_reducible exact OKeeps.none
    | with_reducible refine OKeeps.some ?_
    | with_reducible refine OKeeps.ite ?_ ?_
    | with_reducible refine Keeps.snd ?_ (by assumption)
    | with_reducible refine Keeps.fst ?_ (by assumption)
    | with_reducible refine Keeps.snd2 ?_ (by assumption)
    | with_reducible refine Keeps.snd3 ?_ (by assumption)
    | with_reducible refine OKeeps.get ?_ (by assumption)
    | with_reducible refine OKeeps.get1 ?_ (by assumption)
    | with_reducible refine OKeeps.get2 ?_ (by assumption)
    | intro _ _ _
    | intro _ _
    | split

theorem openCtx_keeps (a1 s) : Keeps 0x820 s (openCtx a1 s).2 := by
  unfold openCtx
  try dsimp only
  repeat'
    first
    | with_reducible exact Keeps.refl _ _
    | with_reducible refine Keeps.ite ?_ ?_
    | with_reducible refine Keeps.ite_snd ?_ ?_
    | with_reducible refine (State.setWin_keeps _ _).step ?_
    | with_reducible refine (State.setKv_keeps _ _ ?_).step ?_
    | exact fun h => h

theorem ctxOpenCmd_keeps (s) : Keeps 0x100820 s (ctxOpenCmd s) := by
  unfold ctxOpenCmd
  try dsimp only
  repeat'
    first
    | with_reducible exact Keeps.refl _ _
    | with_reducible assumption
    | with_reducible refine Keeps.ite ?_ ?_
    | with_reducible refine mirrorGate_keeps ?_ ?_
    | with_reducible refine (openCtx_keeps ..).step ?_
    | with_reducible refine (Keeps.snd (openCtx_keeps ..) (by assumption)).step ?_
    | intro _ _ _
    | intro _ _

theorem execCtxOpen_keeps (s) : RKeeps 0x100820 s (execCtxOpen s) := by
  unfold execCtxOpen
  try dsimp only
  repeat'
    first
    | with_reducible exact Keeps.refl _ _
    | with_reducible refine Keeps.ite ?_ ?_
    | with_reducible refine RKeeps.next ?_
    | with_reducible refine RKeeps.ite ?_ ?_
    | with_reducible refine (ctxOpenCmd_keeps ..).step ?_

theorem openDirs_keeps (a1 s) : OKeeps 0x400800 s (·.2.2) (openDirs a1 s) := by
  unfold openDirs
  try dsimp only
  repeat'
    first
    | with_reducible exact Keeps.refl _ _
    | with_reducible assumption
    | with_reducible refine Keeps.ite ?_ ?_
    | with_reducible refine (drawT1_keeps ..).step ?_
    | with_reducible refine (OKeeps.get1 (drawT1_keeps ..) (by assumption)).step ?_
    | apply OKeeps.bind
    | with_reducible refine Keeps.getD ?_ ?_
    | with_reducible refine Keeps.getD_snd ?_ ?_
    | apply OKeeps.obind
    | refine OKeeps.map_snd ?_ fun _ => rfl
    | apply OKeeps.map
    | with_reducible refine OKeeps.pure ?_
    | with_reducible exact OKeeps.none
    | with_reducible refine OKeeps.some ?_
    | with_reducible refine OKeeps.ite ?_ ?_
    | with_reducible refine OKeeps.get ?_ (by assumption)
    | with_reducible refine OKeeps.get1 ?_ (by assumption)
    | with_reducible refine OKeeps.get2 ?_ (by assumption)
    | split
    | intro _ _ _
    | intro _ _

theorem execOpenEnd_keeps (s) : RKeeps 0x400820 s (execOpenEnd s) := by
  unfold execOpenEnd
  try dsimp only
  repeat'
    first
    | with_reducible exact Keeps.refl _ _
    | with_reducible assumption
    | with_reducible refine Keeps.ite ?_ ?_
    | with_reducible refine RKeeps.next ?_
    | with_reducible refine RKeeps.ite ?_ ?_
    | with_reducible refine (State.setWin_keeps _ _).step ?_
    | with_reducible refine (openDirs_keeps ..).step ?_
    | with_reducible refine (OKeeps.get2 (openDirs_keeps ..) (by assumption)).step ?_
    | with_reducible refine (State.setKv_keeps _ _ ?_).step ?_
    | with_reducible refine (setCtx_keeps ..).step ?_
    | apply OKeeps.bind
    | with_reducible refine Keeps.getD ?_ ?_
    | with_reducible refine Keeps.getD_snd ?_ ?_
    | apply OKeeps.obind
    | refine OKeeps.map_snd ?_ fun _ => rfl
    | apply OKeeps.map
    | with_reducible refine OKeeps.pure ?_
    | with_reducible exact OKeeps.none
    | with_reducible refine OKeeps.some ?_
    | with_reducible refine OKeeps.ite ?_ ?_
    | with_reducible refine OKeeps.get ?_ (by assumption)
    | with_reducible refine OKeeps.get1 ?_ (by assumption)
    | with_reducible refine OKeeps.get2 ?_ (by assumption)
    | exact fun h => h
    | exact fun h => tput_rising _ _ h _
    | exact fun h => ⟨tput_rising _ _ h.1 _, h.2⟩
    | exact fun h => Tbl.rising_map h _ fun _ => rfl
    | exact fun h => ⟨Tbl.rising_map h.1 _ fun _ => rfl, h.2⟩
    | split

theorem closeCtx_keeps (a1 s) : Keeps 0x820 s (closeCtx a1 s).2 := by
  unfold closeCtx
  try dsimp only
  repeat'
    first
    | with_reducible exact Keeps.refl _ _
    | with_reducible refine Keeps.ite ?_ ?_
    | with_reducible refine Keeps.ite_snd ?_ ?_
    | with_reducible refine (State.setWin_keeps _ _).step ?_
    | with_reducible refine (setCtx_keeps ..).step ?_

theorem ctxCloseCmd_keeps (s) : Keeps 0x100820 s (ctxCloseCmd s) := by
  unfold ctxCloseCmd
  try dsimp only
  repeat'
    first
    | with_reducible exact Keeps.refl _ _
    | with_reducible assumption
    | with_reducible refine Keeps.ite ?_ ?_
    | with_reducible refine mirrorGate_keeps ?_ ?_
    | with_reducible refine (closeCtx_keeps ..).step ?_
    | with_reducible refine (Keeps.snd (closeCtx_keeps ..) (by assumption)).step ?_
    | intro _ _ _
    | intro _ _

theorem execCtxClose_keeps (s) : RKeeps 0x100820 s (execCtxClose s) := by
  unfold execCtxClose
  try dsimp only
  repeat'
    first
    | with_reducible exact Keeps.refl _ _
    | with_reducible refine Keeps.ite ?_ ?_
    | with_reducible refine RKeeps.next ?_
    | with_reducible refine RKeeps.ite ?_ ?_
    | with_reducible refine (ctxCloseCmd_keeps ..).step ?_

theorem leaveFamily_keeps (a1 s) : Keeps 0x800 s (leaveFamily a1 s) := by
  unfold leaveFamily
  try dsimp only
  repeat'
    first
    | with_reducible exact Keeps.refl _ _
    | with_reducible refine Keeps.ite ?_ ?_
    | with_reducible refine (State.setKv_keeps _ _ ?_).step ?_
    | with_reducible refine (setCtx_keeps ..).step ?_
    | exact fun h => h
    | exact fun h => tput_rising _ _ h _
    | exact fun h => ⟨tput_rising _ _ h.1 _, h.2⟩
    | exact fun h => Tbl.rising_map h _ fun _ => rfl
    | exact fun h => ⟨Tbl.rising_map h.1 _ fun _ => rfl, h.2⟩
    | exact fun h => Tbl.rising_map h _ fun p => by split <;> rfl
    | exact fun h => ⟨Tbl.rising_map h.1 _ fun p => by split <;> rfl, h.2⟩

theorem releaseWalk_keeps (a1 s) : Keeps 0x323C82 s (releaseWalk a1 s) := by
  unfold releaseWalk
  try dsimp only
  repeat'
    first
    | with_reducible exact Keeps.refl _ _
    | with_reducible assumption
    | with_reducible refine Keeps.ite ?_ ?_
    | with_reducible refine (leaveFamily_keeps ..).step ?_
    | with_reducible refine (sweepStructs_keeps ..).step ?_
    | with_reducible refine (State.setKv_keeps _ _ ?_).step ?_
    | with_reducible refine (giveBack_keeps ..).step ?_
    | with_reducible refine (remPage_keeps ..).step ?_
    | with_reducible refine (setCtx_keeps ..).step ?_
    | with_reducible refine Keeps.foldl ?_ ?_
    | with_reducible refine Keeps.foldl_fst ?_ ?_
    | with_reducible refine Keeps.foldl_snd ?_ ?_
    | exact fun h => h
    | exact fun h => tput_rising _ _ h _
    | exact fun h => ⟨tput_rising _ _ h.1 _, h.2⟩
    | exact fun h => Tbl.rising_map h _ fun _ => rfl
    | exact fun h => ⟨Tbl.rising_map h.1 _ fun _ => rfl, h.2⟩
    | intro _ _ _

theorem execReleaseWalkEnd_keeps (a1 s) : RKeeps 0x323C82 s (execReleaseWalkEnd a1 s) := by
  unfold execReleaseWalkEnd
  try dsimp only
  repeat'
    first
    | with_reducible exact Keeps.refl _ _
    | with_reducible refine Keeps.ite ?_ ?_
    | with_reducible refine RKeeps.next ?_
    | with_reducible refine RKeeps.ite ?_ ?_
    | with_reducible refine (releaseWalk_keeps ..).step ?_

theorem putToken_keeps (a1 a2 a3 a4 a5 a6 a7 a8 s) : Keeps 0x1000380 s (putToken a1 a2 a3 a4 a5 a6 a7 a8 s) := by
  unfold putToken
  try dsimp only
  repeat'
    first
    | with_reducible exact Keeps.refl _ _
    | with_reducible refine Keeps.ite ?_ ?_
    | with_reducible refine (devWrite_keeps ..).step ?_

theorem appendPage_keeps (a1 a2 a3 a4 s) : Keeps 0x1600B86 s (appendPage a1 a2 a3 a4 s).2.2.2 := by
  unfold appendPage
  try dsimp only
  repeat'
    first
    | with_reducible exact Keeps.refl _ _
    | with_reducible assumption
    | with_reducible refine Keeps.ite ?_ ?_
    | with_reducible refine (devWrite_keeps ..).step ?_
    | with_reducible refine (freeStep_keeps ..).step ?_
    | with_reducible refine (addPage_keeps ..).step ?_
    | with_reducible refine (OKeeps.get (addPage_keeps ..) (by assumption)).step ?_
    | with_reducible refine (onlyT1_keeps ..).step ?_
    | with_reducible refine (Keeps.snd (onlyT1_keeps ..) (by assumption)).step ?_
    | with_reducible refine (putToken_keeps ..).step ?_
    | with_reducible refine (newFrame_keeps ..).step ?_
    | with_reducible refine (OKeeps.get1 (newFrame_keeps ..) (by assumption)).step ?_
    | with_reducible refine (setPage_keeps ..).step ?_
    | with_reducible refine (noteRead_keeps ..).step ?_
    | with_reducible refine Keeps.foldl ?_ ?_
    | with_reducible refine Keeps.foldl_fst ?_ ?_
    | with_reducible refine Keeps.foldl_snd ?_ ?_
    | apply OKeeps.bind
    | with_reducible refine Keeps.getD ?_ ?_
    | with_reducible refine Keeps.getD_snd ?_ ?_
    | apply OKeeps.obind
    | refine OKeeps.map_snd ?_ fun _ => rfl
    | apply OKeeps.map
    | with_reducible refine OKeeps.pure ?_
    | with_reducible exact OKeeps.none
    | with_reducible refine OKeeps.some ?_
    | with_reducible refine OKeeps.ite ?_ ?_
    | with_reducible refine Keeps.snd ?_ (by assumption)
    | with_reducible refine Keeps.fst ?_ (by assumption)
    | with_reducible refine Keeps.snd2 ?_ (by assumption)
    | with_reducible refine Keeps.snd3 ?_ (by assumption)
    | with_reducible refine OKeeps.get ?_ (by assumption)
    | with_reducible refine OKeeps.get1 ?_ (by assumption)
    | with_reducible refine OKeeps.get2 ?_ (by assumption)
    | intro _ _ _
    | intro _ _
    | split

theorem appendAll_keeps (a1 a2 a3 a4 s) : Keeps 0x1600B86 s (appendAll a1 a2 a3 a4 s).2.2.2 := by
  induction a3 generalizing a1 a2 a4 s with
  | nil =>
    unfold appendAll
    try dsimp only
    repeat'
      first
      | with_reducible exact Keeps.refl _ _
  | cons x l ih =>
    unfold appendAll
    try dsimp only
    repeat'
      first
      | with_reducible refine (ih ..).step ?_
      | with_reducible refine (Keeps.snd3 (ih ..) (by assumption)).step ?_
      | with_reducible exact Keeps.refl _ _
      | with_reducible refine Keeps.ite ?_ ?_
      | with_reducible refine (appendPage_keeps ..).step ?_
      | with_reducible refine (Keeps.snd3 (appendPage_keeps ..) (by assumption)).step ?_
      | with_reducible refine Keeps.snd ?_ (by assumption)
      | with_reducible refine Keeps.fst ?_ (by assumption)
      | with_reducible refine Keeps.snd2 ?_ (by assumption)
      | with_reducible refine Keeps.snd3 ?_ (by assumption)
      | split

theorem appendEff_keeps (a1 a2 s) : Keeps 0x1600B86 s (appendEff a1 a2 s).s := by
  unfold appendEff
  try dsimp only
  repeat'
    first
    | with_reducible exact Keeps.refl _ _
    | with_reducible assumption
    | with_reducible refine Keeps.ite ?_ ?_
    | with_reducible refine (setLive_keeps ..).step ?_
    | with_reducible refine undone_keeps ?_
    | with_reducible refine (appendAll_keeps ..).step ?_
    | with_reducible refine (Keeps.snd3 (appendAll_keeps ..) (by assumption)).step ?_
    | with_reducible refine (setCtx_keeps ..).step ?_
    | with_reducible refine (effFail_keeps ..).step ?_
    | with_reducible refine Keeps.foldl ?_ ?_
    | with_reducible refine Keeps.foldl_fst ?_ ?_
    | with_reducible refine Keeps.foldl_snd ?_ ?_
    | with_reducible refine Keeps.snd ?_ (by assumption)
    | with_reducible refine Keeps.fst ?_ (by assumption)
    | with_reducible refine Keeps.snd2 ?_ (by assumption)
    | with_reducible refine Keeps.snd3 ?_ (by assumption)
    | intro _ _ _
    | intro _ _
    | split

theorem forkShare_keeps (a1 a2 a3 a4 a5 s) : Keeps 0x1600B86 s (forkShare a1 a2 a3 a4 a5 s).2 := by
  unfold forkShare
  try dsimp only
  repeat'
    first
    | with_reducible exact Keeps.refl _ _
    | with_reducible assumption
    | with_reducible refine Keeps.ite ?_ ?_
    | with_reducible refine (setFrame_keeps ..).step ?_
    | with_reducible refine (copyBytes_keeps ..).step ?_
    | with_reducible refine (noteRead_keeps ..).step ?_
    | with_reducible refine (addPage_keeps ..).step ?_
    | with_reducible refine (OKeeps.get (addPage_keeps ..) (by assumption)).step ?_
    | apply OKeeps.bind
    | with_reducible refine Keeps.getD ?_ ?_
    | with_reducible refine Keeps.getD_snd ?_ ?_
    | apply OKeeps.obind
    | refine OKeeps.map_snd ?_ fun _ => rfl
    | apply OKeeps.map
    | with_reducible refine OKeeps.pure ?_
    | with_reducible exact OKeeps.none
    | with_reducible refine OKeeps.some ?_
    | with_reducible refine OKeeps.ite ?_ ?_
    | with_reducible refine OKeeps.get ?_ (by assumption)
    | with_reducible refine OKeeps.get1 ?_ (by assumption)
    | with_reducible refine OKeeps.get2 ?_ (by assumption)
    | split
    | intro _ _ _
    | intro _ _

theorem privateCopy_keeps (a1 a2 a3 a4 a5 s) : Keeps 0x1600B86 s (privateCopy a1 a2 a3 a4 a5 s).2.2 := by
  unfold privateCopy
  try dsimp only
  repeat'
    first
    | with_reducible exact Keeps.refl _ _
    | with_reducible assumption
    | with_reducible refine Keeps.ite ?_ ?_
    | with_reducible refine (noteCopy_keeps ..).step ?_
    | with_reducible refine (copyBytes_keeps ..).step ?_
    | with_reducible refine (newFrame_keeps ..).step ?_
    | with_reducible refine (OKeeps.get1 (newFrame_keeps ..) (by assumption)).step ?_
    | with_reducible refine (addPage_keeps ..).step ?_
    | with_reducible refine (OKeeps.get (addPage_keeps ..) (by assumption)).step ?_
    | apply OKeeps.bind
    | with_reducible refine Keeps.getD ?_ ?_
    | with_reducible refine Keeps.getD_snd ?_ ?_
    | apply OKeeps.obind
    | refine OKeeps.map_snd ?_ fun _ => rfl
    | apply OKeeps.map
    | with_reducible refine OKeeps.pure ?_
    | with_reducible exact OKeeps.none
    | with_reducible refine OKeeps.some ?_
    | with_reducible refine OKeeps.ite ?_ ?_
    | with_reducible refine OKeeps.get ?_ (by assumption)
    | with_reducible refine OKeeps.get1 ?_ (by assumption)
    | with_reducible refine OKeeps.get2 ?_ (by assumption)
    | intro _ _ _
    | intro _ _
    | split

theorem forkAll_keeps (a1 a2 a3 a4 a5 s) : Keeps 0x1600B86 s (forkAll a1 a2 a3 a4 a5 s).2.2.2 := by
  induction a4 generalizing a1 a2 a3 a5 s with
  | nil =>
    unfold forkAll
    try dsimp only
    repeat'
      first
      | with_reducible exact Keeps.refl _ _
  | cons x l ih =>
    unfold forkAll
    try dsimp only
    repeat'
      first
      | with_reducible refine (ih ..).step ?_
      | with_reducible refine (Keeps.snd3 (ih ..) (by assumption)).step ?_
      | with_reducible exact Keeps.refl _ _
      | with_reducible assumption
      | with_reducible refine Keeps.ite ?_ ?_
      | with_reducible refine (privateCopy_keeps ..).step ?_
      | with_reducible refine (Keeps.snd2 (privateCopy_keeps ..) (by assumption)).step ?_
      | with_reducible refine (forkShare_keeps ..).step ?_
      | with_reducible refine (OKeeps.get (forkShare_keeps ..) (by assumption)).step ?_
      | with_reducible refine (sumRebuild_keeps ..).step ?_
      | with_reducible refine (Keeps.snd (sumRebuild_keeps ..) (by assumption)).step ?_
      | apply OKeeps.bind
      | with_reducible refine Keeps.getD ?_ ?_
      | with_reducible refine Keeps.getD_snd ?_ ?_
      | apply OKeeps.obind
      | refine OKeeps.map_snd ?_ fun _ => rfl
      | apply OKeeps.map
      | with_reducible refine OKeeps.pure ?_
      | with_reducible exact OKeeps.none
      | with_reducible refine OKeeps.some ?_
      | with_reducible refine OKeeps.ite ?_ ?_
      | with_reducible refine Keeps.snd ?_ (by assumption)
      | with_reducible refine Keeps.fst ?_ (by assumption)
      | with_reducible refine Keeps.snd2 ?_ (by assumption)
      | with_reducible refine Keeps.snd3 ?_ (by assumption)
      | with_reducible refine OKeeps.get ?_ (by assumption)
      | with_reducible refine OKeeps.get1 ?_ (by assumption)
      | with_reducible refine OKeeps.get2 ?_ (by assumption)
      | intro _ _ _
      | intro _ _
      | split

theorem forkEff_keeps (a1 s) : Keeps 0x1600B86 s (forkEff a1 s).s := by
  unfold forkEff
  try dsimp only
  repeat'
    first
    | with_reducible exact Keeps.refl _ _
    | with_reducible assumption
    | with_reducible refine Keeps.ite ?_ ?_
    | with_reducible refine (forkAll_keeps ..).step ?_
    | with_reducible refine (Keeps.snd3 (forkAll_keeps ..) (by assumption)).step ?_
    | with_reducible refine (leaveFamily_keeps ..).step ?_
    | with_reducible refine (setLive_keeps ..).step ?_
    | with_reducible refine undone_keeps ?_
    | with_reducible refine (effFail_keeps ..).step ?_
    | with_reducible refine (setCtx_keeps ..).step ?_
    | with_reducible refine Keeps.foldl ?_ ?_
    | with_reducible refine Keeps.foldl_fst ?_ ?_
    | with_reducible refine Keeps.foldl_snd ?_ ?_
    | with_reducible refine Keeps.snd ?_ (by assumption)
    | with_reducible refine Keeps.fst ?_ (by assumption)
    | with_reducible refine Keeps.snd2 ?_ (by assumption)
    | with_reducible refine Keeps.snd3 ?_ (by assumption)
    | intro _ _ _
    | intro _ _
    | split

theorem trimCopies_keeps (a1 a2 a3 s) : Keeps 0x1723F86 s (trimCopies a1 a2 a3 s).2.2 := by
  induction a3 generalizing a1 a2 s with
  | nil =>
    unfold trimCopies
    try dsimp only
    repeat'
      first
      | with_reducible exact Keeps.refl _ _
      | with_reducible refine Keeps.ite ?_ ?_
      | with_reducible refine (onlyT1_keeps ..).step ?_
      | with_reducible refine (Keeps.snd (onlyT1_keeps ..) (by assumption)).step ?_
      | with_reducible refine (privateCopy_keeps ..).step ?_
      | with_reducible refine (Keeps.snd2 (privateCopy_keeps ..) (by assumption)).step ?_
      | with_reducible refine (relFrame_keeps ..).step ?_
      | with_reducible refine (sumRebuild_keeps ..).step ?_
      | with_reducible refine (Keeps.snd (sumRebuild_keeps ..) (by assumption)).step ?_
      | with_reducible refine Keeps.snd ?_ (by assumption)
      | with_reducible refine Keeps.fst ?_ (by assumption)
      | with_reducible refine Keeps.snd2 ?_ (by assumption)
      | with_reducible refine Keeps.snd3 ?_ (by assumption)
      | split
  | cons x l ih =>
    unfold trimCopies
    try dsimp only
    repeat'
      first
      | with_reducible refine (ih ..).step ?_
      | with_reducible refine (Keeps.snd2 (ih ..) (by assumption)).step ?_
      | with_reducible exact Keeps.refl _ _
      | with_reducible refine Keeps.ite ?_ ?_
      | with_reducible refine (onlyT1_keeps ..).step ?_
      | with_reducible refine (Keeps.snd (onlyT1_keeps ..) (by assumption)).step ?_
      | with_reducible refine (privateCopy_keeps ..).step ?_
      | with_reducible refine (Keeps.snd2 (privateCopy_keeps ..) (by assumption)).step ?_
      | with_reducible refine (relFrame_keeps ..).step ?_
      | with_reducible refine (sumRebuild_keeps ..).step ?_
      | with_reducible refine (Keeps.snd (sumRebuild_keeps ..) (by assumption)).step ?_
      | with_reducible refine Keeps.snd ?_ (by assumption)
      | with_reducible refine Keeps.fst ?_ (by assumption)
      | with_reducible refine Keeps.snd2 ?_ (by assumption)
      | with_reducible refine Keeps.snd3 ?_ (by assumption)
      | split

theorem trimEff_keeps (a1 s) : Keeps 0x1723F86 s (trimEff a1 s).s := by
  unfold trimEff
  try dsimp only
  repeat'
    first
    | with_reducible exact Keeps.refl _ _
    | with_reducible assumption
    | with_reducible refine Keeps.ite ?_ ?_
    | with_reducible refine (setLive_keeps ..).step ?_
    | with_reducible refine undone_keeps ?_
    | with_reducible refine (setCtx_keeps ..).step ?_
    | with_reducible refine (trimCopies_keeps ..).step ?_
    | with_reducible refine (Keeps.snd2 (trimCopies_keeps ..) (by assumption)).step ?_
    | with_reducible refine (sweepStructs_keeps ..).step ?_
    | with_reducible refine (State.setKv_keeps _ _ ?_).step ?_
    | with_reducible refine (remPage_keeps ..).step ?_
    | with_reducible refine (effFail_keeps ..).step ?_
    | with_reducible refine Keeps.foldl ?_ ?_
    | with_reducible refine Keeps.foldl_fst ?_ ?_
    | with_reducible refine Keeps.foldl_snd ?_ ?_
    | with_reducible refine Keeps.snd ?_ (by assumption)
    | with_reducible refine Keeps.fst ?_ (by assumption)
    | with_reducible refine Keeps.snd2 ?_ (by assumption)
    | with_reducible refine Keeps.snd3 ?_ (by assumption)
    | exact fun h => h
    | exact fun h => ⟨tput_rising _ _ h.1 _, h.2⟩
    | exact fun h => ⟨h.1, tput_rising _ _ h.2 _⟩
    | exact fun h => ⟨Tbl.rising_map h.1 _ fun _ => rfl, h.2⟩
    | exact fun h => ⟨h.1, Tbl.rising_map h.2 _ fun _ => rfl⟩
    | exact fun h => ⟨h.1.filter _, h.2⟩
    | exact fun h => ⟨h.1, h.2.filter _⟩
    | exact fun h => ⟨Tbl.rising_map h.1 _ fun p => by split <;> rfl, h.2⟩
    | intro _ _ _
    | intro _ _
    | split

theorem summarizeAll_keeps (a1 a2 a3 a4 a5 s) : Keeps 0x1200B86 s (summarizeAll a1 a2 a3 a4 a5 s).s := by
  induction a2 generalizing a1 a3 a4 a5 s with
  | nil =>
    unfold summarizeAll
    try dsimp only
    repeat'
      first
      | with_reducible exact Keeps.refl _ _
      | with_reducible refine Keeps.ite ?_ ?_
      | with_reducible refine (sumRebuild_keeps ..).step ?_
      | with_reducible refine (Keeps.snd (sumRebuild_keeps ..) (by assumption)).step ?_
      | with_reducible refine (setPage_keeps ..).step ?_
      | with_reducible refine (noteRead_keeps ..).step ?_
      | with_reducible refine Keeps.snd ?_ (by assumption)
      | with_reducible refine Keeps.fst ?_ (by assumption)
      | with_reducible refine Keeps.snd2 ?_ (by assumption)
      | with_reducible refine Keeps.snd3 ?_ (by assumption)
      | split
  | cons x l ih =>
    unfold summarizeAll
    try dsimp only
    repeat'
      first
      | with_reducible refine (ih ..).step ?_
      | with_reducible exact Keeps.refl _ _
      | with_reducible refine Keeps.ite ?_ ?_
      | with_reducible refine (sumRebuild_keeps ..).step ?_
      | with_reducible refine (Keeps.snd (sumRebuild_keeps ..) (by assumption)).step ?_
      | with_reducible refine (setPage_keeps ..).step ?_
      | with_reducible refine (noteRead_keeps ..).step ?_
      | with_reducible refine Keeps.snd ?_ (by assumption)
      | with_reducible refine Keeps.fst ?_ (by assumption)
      | with_reducible refine Keeps.snd2 ?_ (by assumption)
      | with_reducible refine Keeps.snd3 ?_ (by assumption)
      | split

theorem summarizeEff_keeps (a1 s) : Keeps 0x1200B86 s (summarizeEff a1 s).s := by
  unfold summarizeEff
  try dsimp only
  repeat'
    first
    | with_reducible exact Keeps.refl _ _
    | with_reducible refine Keeps.ite ?_ ?_
    | with_reducible refine (summarizeAll_keeps ..).step ?_

theorem spanSend_keeps (a1 a2 a3 s a4) : Keeps 0x200000 s (spanSend a1 a2 a3 s a4) := by
  unfold spanSend
  try dsimp only
  repeat'
    first
    | with_reducible exact Keeps.refl _ _
    | with_reducible assumption
    | with_reducible refine Keeps.ite ?_ ?_
    | with_reducible refine (emit_keeps ..).step ?_
    | with_reducible refine Keeps.foldl ?_ ?_
    | with_reducible refine Keeps.foldl_fst ?_ ?_
    | with_reducible refine Keeps.foldl_snd ?_ ?_
    | intro _ _ _

theorem sendDigest_keeps (s) : Keeps 0x200000 s (sendDigest s) := by
  unfold sendDigest
  try dsimp only
  repeat'
    first
    | with_reducible exact Keeps.refl _ _
    | with_reducible refine Keeps.ite ?_ ?_
    | with_reducible refine (spanSend_keeps ..).step ?_

theorem sendPart_keeps (a1 s a2) : Keeps 0x200000 s (sendPart a1 s a2) := by
  unfold sendPart
  try dsimp only
  repeat'
    first
    | with_reducible exact Keeps.refl _ _
    | with_reducible refine Keeps.ite ?_ ?_
    | with_reducible refine (spanSend_keeps ..).step ?_

theorem startStriped_keeps (a1 a2 s) : Keeps 0x201000 s (startStriped a1 a2 s) := by
  unfold startStriped
  try dsimp only
  repeat'
    first
    | with_reducible exact Keeps.refl _ _
    | with_reducible assumption
    | with_reducible refine Keeps.ite ?_ ?_
    | with_reducible refine (setFlight_keeps ..).step ?_
    | with_reducible refine (sendPart_keeps ..).step ?_
    | with_reducible refine Keeps.foldl ?_ ?_
    | with_reducible refine Keeps.foldl_fst ?_ ?_
    | with_reducible refine Keeps.foldl_snd ?_ ?_
    | intro _ _ _

theorem memEff_keeps (a1 a2 s) : Keeps 0x1723F86 s (memEff a1 a2 s).s := by
  unfold memEff
  try dsimp only
  repeat'
    first
    | with_reducible exact Keeps.refl _ _
    | with_reducible refine Keeps.ite ?_ ?_
    | with_reducible refine (trimEff_keeps ..).step ?_
    | with_reducible refine (summarizeEff_keeps ..).step ?_
    | with_reducible refine (forkEff_keeps ..).step ?_
    | with_reducible refine (appendEff_keeps ..).step ?_
    | split

theorem preparePart_keeps (a1 a2 s) : Keeps 0x800 s (preparePart a1 a2 s).2 := by
  unfold preparePart
  try dsimp only
  repeat'
    first
    | with_reducible exact Keeps.refl _ _
    | with_reducible assumption
    | with_reducible refine Keeps.ite ?_ ?_
    | with_reducible refine Keeps.ite_snd ?_ ?_
    | with_reducible refine (takeFrame_keeps ..).step ?_
    | with_reducible refine Keeps.foldl ?_ ?_
    | with_reducible refine Keeps.foldl_fst ?_ ?_
    | with_reducible refine Keeps.foldl_snd ?_ ?_
    | intro _ _ _
    | intro _ _
    | split

theorem applyPart_keeps (a1 s) : Keeps 0x1723F86 s (applyPart a1 s).s := by
  unfold applyPart
  try dsimp only
  repeat'
    first
    | with_reducible exact Keeps.refl _ _
    | with_reducible refine Keeps.ite ?_ ?_
    | with_reducible refine (givePrep_keeps ..).step ?_
    | with_reducible refine (setFlight_keeps ..).step ?_
    | with_reducible refine (memEff_keeps ..).step ?_
    | split

theorem finishStriped_keeps (a1 s) : Keeps 0x1723F86 s (finishStriped a1 s) := by
  unfold finishStriped
  try dsimp only
  repeat'
    first
    | with_reducible exact Keeps.refl _ _
    | with_reducible assumption
    | with_reducible refine Keeps.ite ?_ ?_
    | with_reducible refine completeEff_keeps ?_
    | with_reducible refine (finishRange_keeps ..).step ?_
    | with_reducible refine (spanSend_keeps ..).step ?_
    | with_reducible refine (applyPart_keeps ..).step ?_
    | with_reducible refine (complete_keeps ..).step ?_
    | with_reducible refine Keeps.foldl ?_ ?_
    | with_reducible refine Keeps.foldl_fst ?_ ?_
    | with_reducible refine Keeps.foldl_snd ?_ ?_
    | with_reducible refine Keeps.snd ?_ (by assumption)
    | with_reducible refine Keeps.fst ?_ (by assumption)
    | with_reducible refine Keeps.snd2 ?_ (by assumption)
    | with_reducible refine Keeps.snd3 ?_ (by assumption)
    | intro _ _ _
    | intro _ _
    | split

theorem runMem_keeps (a1 s) : Keeps 0x1723F86 s (runMem a1 s) := by
  unfold runMem
  try dsimp only
  repeat'
    first
    | with_reducible exact Keeps.refl _ _
    | with_reducible assumption
    | with_reducible refine Keeps.ite ?_ ?_
    | with_reducible refine (memEff_keeps ..).step ?_
    | with_reducible refine (finishStriped_keeps ..).step ?_
    | with_reducible refine completeEff_keeps ?_
    | with_reducible refine (preparePart_keeps ..).step ?_
    | with_reducible refine (Keeps.snd (preparePart_keeps ..) (by assumption)).step ?_
    | with_reducible refine (noteDispatch_keeps ..).step ?_
    | with_reducible refine (complete_keeps ..).step ?_
    | with_reducible refine (startStriped_keeps ..).step ?_
    | with_reducible refine Keeps.snd ?_ (by assumption)
    | with_reducible refine Keeps.fst ?_ (by assumption)
    | with_reducible refine Keeps.snd2 ?_ (by assumption)
    | with_reducible refine Keeps.snd3 ?_ (by assumption)
    | intro _ _ _
    | intro _ _
    | split

theorem execFork_keeps (a1 s) : RKeeps 0x1723F86 s (execFork a1 s) := by
  unfold execFork
  try dsimp only
  repeat'
    first
    | with_reducible exact Keeps.refl _ _
    | with_reducible refine Keeps.ite ?_ ?_
    | with_reducible refine RKeeps.next ?_
    | with_reducible refine RKeeps.ite ?_ ?_
    | with_reducible refine (runMem_keeps ..).step ?_
    | with_reducible refine (atGate_keeps ..).step ?_
    | split

theorem execTrim_keeps (a1 s) : RKeeps 0x1723F86 s (execTrim a1 s) := by
  unfold execTrim
  try dsimp only
  repeat'
    first
    | with_reducible exact Keeps.refl _ _
    | with_reducible refine Keeps.ite ?_ ?_
    | with_reducible refine RKeeps.next ?_
    | with_reducible refine RKeeps.ite ?_ ?_
    | with_reducible refine (runMem_keeps ..).step ?_
    | with_reducible refine (atGate_keeps ..).step ?_
    | split

theorem execSummarize_keeps (a1 s) : RKeeps 0x1723F86 s (execSummarize a1 s) := by
  unfold execSummarize
  try dsimp only
  repeat'
    first
    | with_reducible exact Keeps.refl _ _
    | with_reducible refine Keeps.ite ?_ ?_
    | with_reducible refine RKeeps.next ?_
    | with_reducible refine RKeeps.ite ?_ ?_
    | with_reducible refine (runMem_keeps ..).step ?_
    | with_reducible refine (atGate_keeps ..).step ?_
    | split

end Sys2Proof.Machine
end

