-- ==== Sys2Proof/Laws/KeepsReads.lean ====
section
/-! SUPPORT. What each operation of Machine/Reads.lean may write, and that it keeps the invariant. -/

namespace Sys2Proof.Machine

set_option Elab.async false

theorem meet_keeps (a1 a2 s) : Keeps 0x100 s (meet a1 a2 s) := by
  unfold meet
  try dsimp only
  repeat'
    first
    | with_reducible exact Keeps.refl _ _
    | with_reducible refine Keeps.ite ?_ ?_
    | with_reducible refine (setLine_keeps ..).step ?_

theorem runCount_keeps (a1 a2 a3 s) : Keeps 0x80 s (runCount a1 a2 a3 s) := by
  unfold runCount
  try dsimp only
  repeat'
    first
    | with_reducible exact Keeps.refl _ _
    | with_reducible refine Keeps.ite ?_ ?_
    | with_reducible refine (State.setTal_keeps _ _ ?_).step ?_
    | exact fun h => Tally.ok_of h rfl rfl
    | split

theorem noteWait_keeps (a1 s) : Keeps 0x1080 s (noteWait a1 s) := by
  unfold noteWait
  try dsimp only
  repeat'
    first
    | with_reducible exact Keeps.refl _ _
    | with_reducible refine Keeps.ite ?_ ?_
    | with_reducible refine (runCount_keeps ..).step ?_
    | with_reducible refine (tallyAdd_keeps ..).step ?_
    | with_reducible refine (setCore_keeps ..).step ?_
    | split

theorem issueReads_keeps (a1 s) : Keeps 0x1080 s (issueReads a1 s) := by
  unfold issueReads
  try dsimp only
  repeat'
    first
    | with_reducible exact Keeps.refl _ _
    | with_reducible refine Keeps.ite ?_ ?_
    | with_reducible refine (noteWait_keeps ..).step ?_
    | with_reducible refine (setCore_keeps ..).step ?_
    | split

theorem issueAll_keeps (s) : Keeps 0x1080 s (issueAll s) := by
  unfold issueAll
  try dsimp only
  repeat'
    first
    | with_reducible exact Keeps.refl _ _
    | with_reducible assumption
    | with_reducible refine Keeps.ite ?_ ?_
    | with_reducible refine (issueReads_keeps ..).step ?_
    | with_reducible refine Keeps.foldl ?_ ?_
    | with_reducible refine Keeps.foldl_fst ?_ ?_
    | with_reducible refine Keeps.foldl_snd ?_ ?_
    | intro _ _ _

theorem failTile_keeps (a1 a2 a3 s a4) : Keeps 0x1000 s (failTile a1 a2 a3 s a4) := by
  unfold failTile
  try dsimp only
  repeat'
    first
    | with_reducible exact Keeps.refl _ _
    | with_reducible refine Keeps.ite ?_ ?_
    | with_reducible refine (setCore_keeps ..).step ?_
    | split

end Sys2Proof.Machine
end

