-- ==== Sys2Proof/Laws/KeepsTiers.lean ====
section
/-! SUPPORT. What each operation of Machine/Tiers.lean may write, and that it keeps the invariant. -/

namespace Sys2Proof.Machine

set_option Elab.async false

theorem tierHint_keeps (a1 a2 s) : Keeps 0x802 s (tierHint a1 a2 s) := by
  unfold tierHint
  try dsimp only
  repeat'
    first
    | with_reducible exact Keeps.refl _ _
    | with_reducible refine Keeps.ite ?_ ?_
    | with_reducible refine (bumpObj_keeps ..).step ?_
    | with_reducible refine (setCtx_keeps ..).step ?_
    | split

theorem execTierhint_keeps (a1 a2 s) : RKeeps 0x802 s (execTierhint a1 a2 s) := by
  unfold execTierhint
  try dsimp only
  repeat'
    first
    | with_reducible exact Keeps.refl _ _
    | with_reducible refine Keeps.ite ?_ ?_
    | with_reducible refine RKeeps.next ?_
    | with_reducible refine RKeeps.ite ?_ ?_
    | with_reducible refine (tierHint_keeps ..).step ?_

theorem ratesSettle_keeps (s) : Keeps 0x2800 s (ratesSettle s) := by
  unfold ratesSettle
  try dsimp only
  repeat'
    first
    | with_reducible exact Keeps.refl _ _
    | with_reducible assumption
    | with_reducible refine Keeps.ite ?_ ?_
    | with_reducible refine (State.setKv_keeps _ _ ?_).step ?_
    | with_reducible refine (setToll_keeps ..).step ?_
    | with_reducible refine Keeps.foldl ?_ ?_
    | with_reducible refine Keeps.foldl_fst ?_ ?_
    | with_reducible refine Keeps.foldl_snd ?_ ?_
    | exact fun h => h
    | exact fun h => ⟨tput_rising _ _ h.1 _, h.2⟩
    | exact fun h => ⟨h.1, tput_rising _ _ h.2 _⟩
    | exact fun h => ⟨Tbl.rising_map h.1 _ fun _ => rfl, h.2⟩
    | exact fun h => ⟨h.1, Tbl.rising_map h.2 _ fun _ => rfl⟩
    | exact fun h => ⟨h.1.filter _, h.2⟩
    | exact fun h => ⟨h.1, h.2.filter _⟩
    | exact fun h => ⟨Tbl.rising_map h.1 _ fun p => by split <;> rfl, h.2⟩
    | intro _ _ _
    | intro _ _
    | split

theorem nsTake_keeps (a1 a2 s) : Keeps 0x802 s (nsTake a1 a2 s) := by
  unfold nsTake
  try dsimp only
  repeat'
    first
    | with_reducible exact Keeps.refl _ _
    | with_reducible refine Keeps.ite ?_ ?_
    | with_reducible refine (bumpObj_keeps ..).step ?_
    | with_reducible refine (State.setKv_keeps _ _ ?_).step ?_
    | exact fun h => h

theorem nvmeDrop_keeps (a1 s) : Keeps 0x80000 s (nvmeDrop a1 s) := by
  unfold nvmeDrop
  try dsimp only
  repeat'
    first
    | with_reducible exact Keeps.refl _ _
    | with_reducible refine Keeps.ite ?_ ?_
    | with_reducible refine (Keeps.ports_mk _ _).step ?_

theorem endMove_keeps (a1 s) : Keeps 0x3A3C82 s (endMove a1 s) := by
  unfold endMove
  try dsimp only
  repeat'
    first
    | with_reducible exact Keeps.refl _ _
    | with_reducible assumption
    | with_reducible refine Keeps.ite ?_ ?_
    | with_reducible refine (State.setKv_keeps _ _ ?_).step ?_
    | with_reducible refine (finishRange_keeps ..).step ?_
    | with_reducible refine (nvmeDrop_keeps ..).step ?_
    | with_reducible refine Keeps.foldl ?_ ?_
    | with_reducible refine Keeps.foldl_fst ?_ ?_
    | with_reducible refine Keeps.foldl_snd ?_ ?_
    | exact fun h => h
    | exact fun h => tput_rising _ _ h _
    | exact fun h => ⟨tput_rising _ _ h.1 _, h.2⟩
    | exact fun h => Tbl.rising_map h _ fun _ => rfl
    | exact fun h => ⟨Tbl.rising_map h.1 _ fun _ => rfl, h.2⟩
    | intro _ _ _

theorem lateDrop_keeps (s a1) : Keeps 0x3A3C82 s (lateDrop s a1) := by
  unfold lateDrop
  try dsimp only
  repeat'
    first
    | with_reducible exact Keeps.refl _ _
    | with_reducible refine Keeps.ite ?_ ?_
    | with_reducible refine (tenantCount_keeps ..).step ?_
    | with_reducible refine (bumpObj_keeps ..).step ?_
    | with_reducible refine (endMove_keeps ..).step ?_
    | split

theorem raiseMove_keeps (a1 a2 a3 a4 a5 a6 a7 a8 s) : Keeps 0x3A3C82 s (raiseMove a1 a2 a3 a4 a5 a6 a7 a8 s) := by
  unfold raiseMove
  try dsimp only
  repeat'
    first
    | with_reducible exact Keeps.refl _ _
    | with_reducible assumption
    | with_reducible refine Keeps.ite ?_ ?_
    | with_reducible refine (lateDrop_keeps ..).step ?_
    | with_reducible refine (State.setKv_keeps _ _ ?_).step ?_
    | with_reducible refine Keeps.foldl ?_ ?_
    | with_reducible refine Keeps.foldl_fst ?_ ?_
    | with_reducible refine Keeps.foldl_snd ?_ ?_
    | with_reducible refine Keeps.snd ?_ (by assumption)
    | with_reducible refine Keeps.fst ?_ (by assumption)
    | with_reducible refine Keeps.snd2 ?_ (by assumption)
    | with_reducible refine Keeps.snd3 ?_ (by assumption)
    | exact fun h => h
    | exact fun h => ⟨tput_rising _ _ h.1 _, h.2⟩
    | exact fun h => ⟨h.1, tput_rising _ _ h.2 _⟩
    | exact fun h => ⟨Tbl.rising_map h.1 _ fun _ => rfl, h.2⟩
    | exact fun h => ⟨h.1, Tbl.rising_map h.2 _ fun _ => rfl⟩
    | exact fun h => ⟨h.1.filter _, h.2⟩
    | exact fun h => ⟨h.1, h.2.filter _⟩
    | exact fun h => ⟨Tbl.rising_map h.1 _ fun p => by split <;> rfl, h.2⟩
    | intro _ _ _
    | intro _ _
    | split

theorem sweepPass_keeps (a1 s) : Keeps 0x800 s (sweepPass a1 s).2 := by
  unfold sweepPass
  try dsimp only
  repeat'
    first
    | with_reducible exact Keeps.refl _ _
    | with_reducible assumption
    | with_reducible refine Keeps.ite ?_ ?_
    | with_reducible refine Keeps.ite_snd ?_ ?_
    | with_reducible refine (setFrame_keeps ..).step ?_
    | with_reducible refine Keeps.foldl ?_ ?_
    | with_reducible refine Keeps.foldl_fst ?_ ?_
    | with_reducible refine Keeps.foldl_snd ?_ ?_
    | with_reducible refine Keeps.snd ?_ (by assumption)
    | with_reducible refine Keeps.fst ?_ (by assumption)
    | with_reducible refine Keeps.snd2 ?_ (by assumption)
    | with_reducible refine Keeps.snd3 ?_ (by assumption)
    | intro _ _ _
    | intro _ _
    | split

theorem pickVictim_keeps (a1 a2 s) : Keeps 0x800 s (pickVictim a1 a2 s).2 := by
  unfold pickVictim
  try dsimp only
  repeat'
    first
    | with_reducible exact Keeps.refl _ _
    | with_reducible refine Keeps.ite ?_ ?_
    | with_reducible refine Keeps.ite_snd ?_ ?_
    | with_reducible refine (State.setKv_keeps _ _ ?_).step ?_
    | with_reducible refine (sweepPass_keeps ..).step ?_
    | with_reducible refine (Keeps.snd (sweepPass_keeps ..) (by assumption)).step ?_
    | with_reducible refine Keeps.snd ?_ (by assumption)
    | with_reducible refine Keeps.fst ?_ (by assumption)
    | with_reducible refine Keeps.snd2 ?_ (by assumption)
    | with_reducible refine Keeps.snd3 ?_ (by assumption)
    | exact fun h => h
    | exact fun h => tput_rising _ _ h _
    | exact fun h => ⟨tput_rising _ _ h.1 _, h.2⟩
    | exact fun h => Tbl.rising_map h _ fun _ => rfl
    | exact fun h => ⟨Tbl.rising_map h.1 _ fun _ => rfl, h.2⟩
    | split

theorem nvmeSend_keeps (a1 a2 a3 a4 a5 a6 s) : Keeps 0x280000 s (nvmeSend a1 a2 a3 a4 a5 a6 s) := by
  unfold nvmeSend
  try dsimp only
  repeat'
    first
    | with_reducible exact Keeps.refl _ _
    | with_reducible refine Keeps.ite ?_ ?_
    | with_reducible refine (emit_keeps ..).step ?_
    | with_reducible refine (Keeps.ports_mk _ _).step ?_

theorem residencyDone_keeps (s) : Keeps 0x5080 s (residencyDone s) := by
  unfold residencyDone
  try dsimp only
  repeat'
    first
    | with_reducible exact Keeps.refl _ _
    | with_reducible refine Keeps.ite ?_ ?_
    | with_reducible refine (State.setXl_keeps _ _ ?_).step ?_
    | with_reducible refine (issueAll_keeps ..).step ?_
    | exact fun h => Xlate.ok_of h rfl
    | exact fun h => le_trans (List.length_filter_le _ _) h

theorem failMove_keeps (a1 a2 a3 s) : Keeps 0x3A7C82 s (failMove a1 a2 a3 s) := by
  unfold failMove
  try dsimp only
  repeat'
    first
    | with_reducible exact Keeps.refl _ _
    | with_reducible assumption
    | with_reducible refine Keeps.ite ?_ ?_
    | with_reducible refine (setFlight_keeps ..).step ?_
    | with_reducible refine (failTile_keeps ..).step ?_
    | with_reducible refine (endMove_keeps ..).step ?_
    | with_reducible refine (State.setXl_keeps _ _ ?_).step ?_
    | with_reducible refine (giveBack_keeps ..).step ?_
    | with_reducible refine (issueAll_keeps ..).step ?_
    | with_reducible refine Keeps.foldl ?_ ?_
    | with_reducible refine Keeps.foldl_fst ?_ ?_
    | with_reducible refine Keeps.foldl_snd ?_ ?_
    | with_reducible refine Keeps.snd ?_ (by assumption)
    | with_reducible refine Keeps.fst ?_ (by assumption)
    | with_reducible refine Keeps.snd2 ?_ (by assumption)
    | with_reducible refine Keeps.snd3 ?_ (by assumption)
    | exact fun h => Xlate.ok_of h rfl
    | exact fun h => le_trans (List.length_filter_le _ _) h
    | exact fun h => (List.length_map _).trans_le h
    | exact fun h => le_trans List.length_erase_le h
    | intro _ _ _
    | intro _ _
    | split

theorem climb_keeps (a1 s) : Keeps 0x3A3C82 s (climb a1 s) := by
  unfold climb
  try dsimp only
  repeat'
    first
    | with_reducible exact Keeps.refl _ _
    | with_reducible assumption
    | with_reducible refine Keeps.ite ?_ ?_
    | with_reducible refine (raiseMove_keeps ..).step ?_
    | with_reducible refine Keeps.foldl ?_ ?_
    | with_reducible refine Keeps.foldl_fst ?_ ?_
    | with_reducible refine Keeps.foldl_snd ?_ ?_
    | intro _ _ _
    | intro _ _
    | split

theorem unplaced_keeps (a1 s) : Keeps 0x3A7C82 s (unplaced a1 s) := by
  unfold unplaced
  try dsimp only
  repeat'
    first
    | with_reducible exact Keeps.refl _ _
    | with_reducible assumption
    | with_reducible refine Keeps.ite ?_ ?_
    | with_reducible refine (setFlight_keeps ..).step ?_
    | with_reducible refine (finishRange_keeps ..).step ?_
    | with_reducible refine (tenantCount_keeps ..).step ?_
    | with_reducible refine (bumpObj_keeps ..).step ?_
    | with_reducible refine (State.setKv_keeps _ _ ?_).step ?_
    | with_reducible refine (failMove_keeps ..).step ?_
    | with_reducible refine Keeps.foldl ?_ ?_
    | with_reducible refine Keeps.foldl_fst ?_ ?_
    | with_reducible refine Keeps.foldl_snd ?_ ?_
    | with_reducible refine Keeps.snd ?_ (by assumption)
    | with_reducible refine Keeps.fst ?_ (by assumption)
    | with_reducible refine Keeps.snd2 ?_ (by assumption)
    | with_reducible refine Keeps.snd3 ?_ (by assumption)
    | exact fun h => h
    | exact fun h => tput_rising _ _ h _
    | exact fun h => ⟨tput_rising _ _ h.1 _, h.2⟩
    | exact fun h => Tbl.rising_map h _ fun _ => rfl
    | exact fun h => ⟨Tbl.rising_map h.1 _ fun _ => rfl, h.2⟩
    | intro _ _ _
    | intro _ _
    | split

theorem demoteSwitch_keeps (a1 a2 s) : Keeps 0x800 s (demoteSwitch a1 a2 s) := by
  unfold demoteSwitch
  try dsimp only
  repeat'
    first
    | with_reducible exact Keeps.refl _ _
    | with_reducible refine Keeps.ite ?_ ?_
    | with_reducible refine (giveBack_keeps ..).step ?_
    | with_reducible refine (relT1_keeps ..).step ?_
    | with_reducible refine (setFrame_keeps ..).step ?_
    | split

theorem countMoved_keeps (a1 s) : Keeps 0x1000 s (countMoved a1 s) := by
  unfold countMoved
  try dsimp only
  repeat'
    first
    | with_reducible exact Keeps.refl _ _
    | with_reducible assumption
    | with_reducible refine Keeps.ite ?_ ?_
    | with_reducible refine (setFlight_keeps ..).step ?_
    | with_reducible refine Keeps.foldl ?_ ?_
    | with_reducible refine Keeps.foldl_fst ?_ ?_
    | with_reducible refine Keeps.foldl_snd ?_ ?_
    | with_reducible refine Keeps.snd ?_ (by assumption)
    | with_reducible refine Keeps.fst ?_ (by assumption)
    | with_reducible refine Keeps.snd2 ?_ (by assumption)
    | with_reducible refine Keeps.snd3 ?_ (by assumption)
    | intro _ _ _
    | intro _ _
    | split

theorem drawIn_keeps (a1 a2 a3 s) : OKeeps 0x400800 s (·.2) (drawIn a1 a2 a3 s) := by
  unfold drawIn
  try dsimp only
  repeat'
    first
    | with_reducible exact Keeps.refl _ _
    | with_reducible assumption
    | with_reducible refine Keeps.ite ?_ ?_
    | with_reducible refine (drawT1_keeps ..).step ?_
    | with_reducible refine (OKeeps.get1 (drawT1_keeps ..) (by assumption)).step ?_
    | with_reducible refine (drawFrom_keeps ..).step ?_
    | with_reducible refine (OKeeps.get1 (drawFrom_keeps ..) (by assumption)).step ?_
    | apply OKeeps.bind
    | with_reducible refine Keeps.getD ?_ ?_
    | with_reducible refine Keeps.getD_snd ?_ ?_
    | apply OKeeps.obind
    | refine OKeeps.map_snd ?_ fun _ => rfl
    | apply OKeeps.map
    | with_reducible refine OKeeps.pure ?_
    | with_reducible exact OKeeps.none
    | with_reducible refine OKeeps.some ?_
    | with_reducible refine OKeeps.ite ?_ ?_

theorem migrTake_keeps (a1 a2 s) : Keeps 0x2000 s (migrTake a1 a2 s) := by
  unfold migrTake
  try dsimp only
  repeat'
    first
    | with_reducible exact Keeps.refl _ _
    | with_reducible refine Keeps.ite ?_ ?_
    | with_reducible refine (setToll_keeps ..).step ?_

theorem beginMove_keeps (a1 a2 a3 s) : Keeps 0x3A3C82 s (beginMove a1 a2 a3 s) := by
  unfold beginMove
  try dsimp only
  repeat'
    first
    | with_reducible exact Keeps.refl _ _
    | with_reducible assumption
    | with_reducible refine Keeps.ite ?_ ?_
    | with_reducible refine (migrTake_keeps ..).step ?_
    | with_reducible refine (finishRange_keeps ..).step ?_
    | with_reducible refine (nvmeSend_keeps ..).step ?_
    | with_reducible refine (State.setKv_keeps _ _ ?_).step ?_
    | with_reducible refine Keeps.foldl ?_ ?_
    | with_reducible refine Keeps.foldl_fst ?_ ?_
    | with_reducible refine Keeps.foldl_snd ?_ ?_
    | exact fun h => h
    | exact fun h => tput_rising _ _ h _
    | exact fun h => ⟨tput_rising _ _ h.1 _, h.2⟩
    | exact fun h => Tbl.rising_map h _ fun _ => rfl
    | exact fun h => ⟨Tbl.rising_map h.1 _ fun _ => rfl, h.2⟩
    | intro _ _ _

/-- A transfer that went on. -/
structure SKeeps (P : Nat) (s : State) (o : Start) : Prop where
  all : ∀ t, o = .went t → Keeps P s t

theorem SKeeps.went {P : Nat} {s t : State} (h : Keeps P s t) : SKeeps P s (.went t) := ⟨fun _ e => by cases e; exact h⟩

theorem SKeeps.waits {P : Nat} {s : State} : SKeeps P s .waits := ⟨fun _ e => by cases e⟩

theorem SKeeps.tenantToll {P : Nat} {s : State} : SKeeps P s .tenantToll := ⟨fun _ e => by cases e⟩

theorem SKeeps.deviceToll {P : Nat} {s : State} : SKeeps P s .deviceToll := ⟨fun _ e => by cases e⟩

theorem SKeeps.ite {P : Nat} {s : State} {o p : Start} {c : Prop} [Decidable c] (ho : SKeeps P s o) (hp : SKeeps P s p) :
    SKeeps P s (if c then o else p) := by split <;> assumption

theorem startMove_keeps (m s) : SKeeps 0x7A7C82 s (startMove m s) := by
  unfold startMove
  dsimp only
  repeat'
    first
    | with_reducible exact Keeps.refl _ _
    | exact SKeeps.waits
    | exact SKeeps.tenantToll
    | exact SKeeps.deviceToll
    | refine SKeeps.went ?_
    | with_reducible refine SKeeps.ite ?_ ?_
    | with_reducible refine (endMove_keeps ..).step ?_
    | with_reducible refine (lateDrop_keeps ..).step ?_
    | with_reducible refine (climb_keeps ..).step ?_
    | with_reducible refine (residencyDone_keeps ..).step ?_
    | with_reducible refine (failMove_keeps ..).step ?_
    | with_reducible refine (beginMove_keeps ..).step ?_
    | with_reducible refine (raiseMove_keeps ..).step ?_
    | with_reducible refine (unplaced_keeps ..).step ?_
    | with_reducible refine (countMoved_keeps ..).step ?_
    | with_reducible refine (nsTake_keeps ..).step ?_
    | with_reducible refine (demoteSwitch_keeps ..).step ?_
    | with_reducible refine (State.setKv_keeps _ _ ?_).step ?_
    | with_reducible refine (OKeeps.get1 (drawIn_keeps ..) (by assumption)).step ?_
    | with_reducible refine (Keeps.snd (pickVictim_keeps ..) (by assumption)).step ?_
    | exact fun h => h
    | split

theorem startFirst_keeps (a1 a2 a3 s) : OKeeps 0x7A7C82 s (fun t => t) (startFirst a1 a2 a3 s) := by
  induction a1 generalizing a2 a3 s with
  | nil => unfold startFirst; exact OKeeps.none
  | cons m l ih =>
    unfold startFirst
    split
    · exact ih ..
    · split
      · next e => exact OKeeps.some ((startMove_keeps _ _).all _ e)
      · exact ih ..
      · exact ih ..
      · exact ih ..

theorem startMoves_keeps (a1 s) : Keeps 0x7A7C82 s (startMoves a1 s) := by
  induction a1 generalizing s with
  | zero =>
    unfold startMoves
    try dsimp only
    repeat'
      first
      | with_reducible exact Keeps.refl _ _
  | succ k ih =>
    unfold startMoves
    try dsimp only
    repeat'
      first
      | with_reducible refine (ih ..).step ?_
      | with_reducible exact Keeps.refl _ _
      | with_reducible assumption
      | with_reducible refine Keeps.ite ?_ ?_
      | with_reducible refine (startFirst_keeps ..).step ?_
      | with_reducible refine (OKeeps.get (startFirst_keeps ..) (by assumption)).step ?_
      | apply OKeeps.bind
      | with_reducible refine Keeps.getD ?_ ?_
      | with_reducible refine Keeps.getD_snd ?_ ?_
      | apply OKeeps.obind
      | refine OKeeps.map_snd ?_ fun _ => rfl
      | apply OKeeps.map
      | with_reducible refine OKeeps.pure ?_
      | with_reducible exact OKeeps.none
      | with_reducible refine OKeeps.some ?_
      | with_reducible refine OKeeps.ite ?_ ?_
      | with_reducible refine OKeeps.get ?_ (by assumption)
      | with_reducible refine OKeeps.get1 ?_ (by assumption)
      | with_reducible refine OKeeps.get2 ?_ (by assumption)
      | intro _ _ _
      | intro _ _
      | split

theorem runMoves_keeps (s) : Keeps 0x7A7C82 s (runMoves s) := by
  unfold runMoves
  try dsimp only
  repeat'
    first
    | with_reducible exact Keeps.refl _ _
    | with_reducible refine Keeps.ite ?_ ?_
    | with_reducible refine (startMoves_keeps ..).step ?_

theorem fillLines_keeps (a1 a2 a3 a4 s) : Keeps 0x100 s (fillLines a1 a2 a3 a4 s) := by
  unfold fillLines
  try dsimp only
  repeat'
    first
    | with_reducible exact Keeps.refl _ _
    | with_reducible assumption
    | with_reducible refine Keeps.ite ?_ ?_
    | with_reducible refine (setLine_keeps ..).step ?_
    | with_reducible refine Keeps.foldl ?_ ?_
    | with_reducible refine Keeps.foldl_fst ?_ ?_
    | with_reducible refine Keeps.foldl_snd ?_ ?_
    | intro _ _ _

theorem lowLines_keeps (a1 a2 s) : Keeps 0x100 s (lowLines a1 a2 s) := by
  unfold lowLines
  exact State.setMem_keeps _ _ rfl fun h => ⟨h.1, h.2, h.3, Tbl.rising_filter h.4 _, h.5⟩

theorem finishMove_keeps (a1 a2 s) : Keeps 0x13A3F82 s (finishMove a1 a2 s) := by
  unfold finishMove
  try dsimp only
  repeat'
    first
    | with_reducible exact Keeps.refl _ _
    | with_reducible refine Keeps.ite ?_ ?_
    | with_reducible refine (traceEvent_keeps ..).step ?_
    | with_reducible refine (tallyMem_keeps ..).step ?_
    | with_reducible refine (demoteSwitch_keeps ..).step ?_
    | with_reducible refine (tenantCount_keeps ..).step ?_
    | with_reducible refine (countMoved_keeps ..).step ?_
    | with_reducible refine (setFrame_keeps ..).step ?_
    | with_reducible refine (endMove_keeps ..).step ?_
    | with_reducible refine (State.setBytes_keeps _ _ ?_).step ?_
    | with_reducible refine (fillLines_keeps ..).step ?_
    | with_reducible refine (climb_keeps ..).step ?_
    | with_reducible refine (giveBack_keeps ..).step ?_
    | with_reducible refine (lowLines_keeps ..).step ?_
    | with_reducible refine (activate_keeps ..).step ?_
    | exact fun h => ⟨mwrite_wf h.1 _ _, h.2, h.3, h.4, h.5⟩
    | exact fun h => ⟨mzero_wf h.1 _ _, h.2, h.3, h.4, h.5⟩
    | exact fun h => Mem.ok_of h rfl rfl rfl
    | exact fun h => ⟨h.1, h.2, h.3, tput_rising _ _ h.4 _, h.5⟩
    | exact fun h => ⟨h.1, h.2, h.3, h.4, tput_rising _ _ h.5 _⟩
    | split

theorem moveDone_keeps (a1 a2 s) : Keeps 0x17A7F86 s (moveDone a1 a2 s) := by
  unfold moveDone
  try dsimp only
  repeat'
    first
    | with_reducible exact Keeps.refl _ _
    | with_reducible refine Keeps.ite ?_ ?_
    | with_reducible refine (residencyDone_keeps ..).step ?_
    | with_reducible refine (meet_keeps ..).step ?_
    | with_reducible refine (noteCopy_keeps ..).step ?_
    | with_reducible refine (failMove_keeps ..).step ?_
    | with_reducible refine (finishMove_keeps ..).step ?_
    | with_reducible refine (runMoves_keeps ..).step ?_
    | with_reducible refine (endMove_keeps ..).step ?_
    | split

theorem execMoveComplete_keeps (a1 a2 s) : RKeeps 0x17A7F86 s (execMoveComplete a1 a2 s) := by
  unfold execMoveComplete
  try dsimp only
  repeat'
    first
    | with_reducible exact Keeps.refl _ _
    | with_reducible refine Keeps.ite ?_ ?_
    | with_reducible refine RKeeps.next ?_
    | with_reducible refine RKeeps.ite ?_ ?_
    | with_reducible refine (moveDone_keeps ..).step ?_
    | split

theorem demoteUntil_keeps (a1 a2 a3 s) : Keeps 0x7A7C82 s (demoteUntil a1 a2 a3 s) := by
  induction a2 generalizing a1 a3 s with
  | zero =>
    unfold demoteUntil
    try dsimp only
    repeat'
      first
      | with_reducible exact Keeps.refl _ _
      | with_reducible refine Keeps.ite ?_ ?_
      | with_reducible refine (pickVictim_keeps ..).step ?_
      | with_reducible refine (Keeps.snd (pickVictim_keeps ..) (by assumption)).step ?_
      | with_reducible refine (raiseMove_keeps ..).step ?_
      | with_reducible refine (runMoves_keeps ..).step ?_
      | with_reducible refine Keeps.snd ?_ (by assumption)
      | with_reducible refine Keeps.fst ?_ (by assumption)
      | with_reducible refine Keeps.snd2 ?_ (by assumption)
      | with_reducible refine Keeps.snd3 ?_ (by assumption)
      | split
  | succ k ih =>
    unfold demoteUntil
    try dsimp only
    repeat'
      first
      | with_reducible refine (ih ..).step ?_
      | with_reducible exact Keeps.refl _ _
      | with_reducible refine Keeps.ite ?_ ?_
      | with_reducible refine (pickVictim_keeps ..).step ?_
      | with_reducible refine (Keeps.snd (pickVictim_keeps ..) (by assumption)).step ?_
      | with_reducible refine (raiseMove_keeps ..).step ?_
      | with_reducible refine (runMoves_keeps ..).step ?_
      | with_reducible refine Keeps.snd ?_ (by assumption)
      | with_reducible refine Keeps.fst ?_ (by assumption)
      | with_reducible refine Keeps.snd2 ?_ (by assumption)
      | with_reducible refine Keeps.snd3 ?_ (by assumption)
      | split

theorem execAutomaticDemotion_keeps (a1 s) : RKeeps 0x7A7C82 s (execAutomaticDemotion a1 s) := by
  unfold execAutomaticDemotion
  try dsimp only
  repeat'
    first
    | with_reducible exact Keeps.refl _ _
    | with_reducible refine Keeps.ite ?_ ?_
    | with_reducible refine RKeeps.next ?_
    | with_reducible refine RKeeps.ite ?_ ?_
    | with_reducible refine (demoteUntil_keeps ..).step ?_
    | with_reducible refine (runMoves_keeps ..).step ?_

theorem faultTile_keeps (a1 a2 s a3) : Keeps 0x3A7C82 s (faultTile a1 a2 s a3) := by
  unfold faultTile
  try dsimp only
  repeat'
    first
    | with_reducible exact Keeps.refl _ _
    | with_reducible refine Keeps.ite ?_ ?_
    | with_reducible refine (faultPost_keeps ..).step ?_
    | with_reducible refine (tenantCount_keeps ..).step ?_
    | with_reducible refine (raiseMove_keeps ..).step ?_

theorem execResidencyFault_keeps (a1 s) : RKeeps 0x7A7C82 s (execResidencyFault a1 s) := by
  unfold execResidencyFault
  try dsimp only
  repeat'
    first
    | with_reducible exact Keeps.refl _ _
    | with_reducible assumption
    | with_reducible refine Keeps.ite ?_ ?_
    | with_reducible refine RKeeps.next ?_
    | with_reducible refine RKeeps.ite ?_ ?_
    | with_reducible refine (faultTile_keeps ..).step ?_
    | with_reducible refine (runMoves_keeps ..).step ?_
    | with_reducible refine Keeps.foldl ?_ ?_
    | with_reducible refine Keeps.foldl_fst ?_ ?_
    | with_reducible refine Keeps.foldl_snd ?_ ?_
    | with_reducible refine Keeps.snd ?_ (by assumption)
    | with_reducible refine Keeps.fst ?_ (by assumption)
    | with_reducible refine Keeps.snd2 ?_ (by assumption)
    | with_reducible refine Keeps.snd3 ?_ (by assumption)
    | split
    | intro _ _ _

theorem execT3BudgetRefill_keeps (a1 s) : RKeeps 0x7A7C93 s (execT3BudgetRefill a1 s) := by
  unfold execT3BudgetRefill
  try dsimp only
  repeat'
    first
    | with_reducible exact Keeps.refl _ _
    | with_reducible refine Keeps.ite ?_ ?_
    | with_reducible refine RKeeps.next ?_
    | with_reducible refine RKeeps.ite ?_ ?_
    | with_reducible refine (elapse_keeps ..).step ?_
    | with_reducible refine (runMoves_keeps ..).step ?_
    | split

theorem prefetchPage_keeps (a1 s a2) : Keeps 0x3A3C82 s (prefetchPage a1 s a2) := by
  unfold prefetchPage
  try dsimp only
  repeat'
    first
    | with_reducible exact Keeps.refl _ _
    | with_reducible refine Keeps.ite ?_ ?_
    | with_reducible refine (setFlight_keeps ..).step ?_
    | with_reducible refine (raiseMove_keeps ..).step ?_
    | split

theorem pinPage_keeps (a1 s a2) : Keeps 0x3A3C82 s (pinPage a1 s a2) := by
  unfold pinPage
  try dsimp only
  repeat'
    first
    | with_reducible exact Keeps.refl _ _
    | with_reducible refine Keeps.ite ?_ ?_
    | with_reducible refine (setFlight_keeps ..).step ?_
    | with_reducible refine (setTenant_keeps ..).step ?_
    | with_reducible refine (raiseMove_keeps ..).step ?_
    | with_reducible refine (setPage_keeps ..).step ?_
    | split

theorem evictPage_keeps (a1 s a2) : Keeps 0x3A3C82 s (evictPage a1 s a2) := by
  unfold evictPage
  try dsimp only
  repeat'
    first
    | with_reducible exact Keeps.refl _ _
    | with_reducible refine Keeps.ite ?_ ?_
    | with_reducible refine (setFlight_keeps ..).step ?_
    | with_reducible refine (raiseMove_keeps ..).step ?_
    | split

theorem runRange_keeps {P : Nat} (a1) {a2 : Flight → State → Nat × Nat → State} (s) (h : ∀ t x, Keeps P s t → Keeps P s (a2 a1 t x))
    (sub : Nat.lor 0x7A7C82 P = P := by with_unfolding_all rfl) : Keeps P s (runRange a1 a2 s) := by
  unfold runRange
  extract_lets s1 s2 s3
  have h1 : Keeps P s s1 := (noteDispatch_keeps ..).step (.refl ..) (lor_absorb sub rfl)
  split
  · exact (complete_keeps ..).step h1 (lor_absorb sub rfl)
  · split
    · refine (finishRange_keeps ..).step ((runMoves_keeps ..).step (Keeps.foldl ?_ h) (lor_absorb sub rfl)) (lor_absorb sub rfl)
      exact (setFlight_keeps ..).step h1 (lor_absorb sub rfl)
    · refine (finishRange_keeps ..).step ((runMoves_keeps ..).step (Keeps.foldl ?_ h) (lor_absorb sub rfl)) (lor_absorb sub rfl)
      exact (startStriped_keeps ..).step h1 (lor_absorb sub rfl)

theorem execPrefetch_keeps (a1 s) : RKeeps 0x7A7C82 s (execPrefetch a1 s) := by
  unfold execPrefetch
  try dsimp only
  repeat'
    first
    | with_reducible exact Keeps.refl _ _
    | with_reducible assumption
    | with_reducible refine Keeps.ite ?_ ?_
    | with_reducible refine RKeeps.next ?_
    | with_reducible refine RKeeps.ite ?_ ?_
    | with_reducible refine (prefetchPage_keeps ..).step ?_
    | with_reducible refine runRange_keeps _ _ ?_
    | with_reducible refine (atGate_keeps ..).step ?_
    | split
    | intro _ _ _
    | intro _ _

theorem execPin_keeps (a1 s) : RKeeps 0x7A7C82 s (execPin a1 s) := by
  unfold execPin
  try dsimp only
  repeat'
    first
    | with_reducible exact Keeps.refl _ _
    | with_reducible assumption
    | with_reducible refine Keeps.ite ?_ ?_
    | with_reducible refine RKeeps.next ?_
    | with_reducible refine RKeeps.ite ?_ ?_
    | with_reducible refine (pinPage_keeps ..).step ?_
    | with_reducible refine runRange_keeps _ _ ?_
    | with_reducible refine (atGate_keeps ..).step ?_
    | split
    | intro _ _ _
    | intro _ _

theorem execEvict_keeps (a1 s) : RKeeps 0x7A7C82 s (execEvict a1 s) := by
  unfold execEvict
  try dsimp only
  repeat'
    first
    | with_reducible exact Keeps.refl _ _
    | with_reducible assumption
    | with_reducible refine Keeps.ite ?_ ?_
    | with_reducible refine RKeeps.next ?_
    | with_reducible refine RKeeps.ite ?_ ?_
    | with_reducible refine (evictPage_keeps ..).step ?_
    | with_reducible refine runRange_keeps _ _ ?_
    | with_reducible refine (atGate_keeps ..).step ?_
    | split
    | intro _ _ _
    | intro _ _

theorem setCache_keeps (a1 a2 s) : Keeps 0x800 s (setCache a1 a2 s) := by
  unfold setCache
  try dsimp only
  repeat'
    first
    | with_reducible exact Keeps.refl _ _
    | with_reducible refine Keeps.ite ?_ ?_
    | with_reducible refine (State.setKv_keeps _ _ ?_).step ?_
    | exact fun h => h
    | exact fun h => tput_rising _ _ h _
    | exact fun h => ⟨tput_rising _ _ h.1 _, h.2⟩
    | exact fun h => Tbl.rising_map h _ fun _ => rfl
    | exact fun h => ⟨Tbl.rising_map h.1 _ fun _ => rfl, h.2⟩
    | split

theorem cacheUse_keeps (a1 a2 a3 s) : Keeps 0x800 s (cacheUse a1 a2 a3 s) := by
  unfold cacheUse
  try dsimp only
  repeat'
    first
    | with_reducible exact Keeps.refl _ _
    | with_reducible refine Keeps.ite ?_ ?_
    | with_reducible refine (setCache_keeps ..).step ?_

theorem cacheBack_keeps (a1 a2 s) : OKeeps 0x280902 s (fun t => t) (cacheBack a1 a2 s) := by
  unfold cacheBack
  try dsimp only
  repeat'
    first
    | with_reducible exact Keeps.refl _ _
    | with_reducible refine Keeps.ite ?_ ?_
    | with_reducible refine (nsTake_keeps ..).step ?_
    | with_reducible refine (tenantCount_keeps ..).step ?_
    | with_reducible refine (nvmeSend_keeps ..).step ?_
    | with_reducible refine (State.setMem_keeps _ _ rfl ?_).step ?_
    | with_reducible refine (setCache_keeps ..).step ?_
    | apply OKeeps.bind
    | with_reducible refine Keeps.getD ?_ ?_
    | with_reducible refine Keeps.getD_snd ?_ ?_
    | apply OKeeps.obind
    | refine OKeeps.map_snd ?_ fun _ => rfl
    | apply OKeeps.map
    | with_reducible refine OKeeps.pure ?_
    | with_reducible exact OKeeps.none
    | with_reducible refine OKeeps.some ?_
    | with_reducible refine OKeeps.ite ?_ ?_
    | exact fun h => Mem.ok_of h rfl rfl rfl
    | exact fun h => ⟨h.1, h.2, h.3, tput_rising _ _ h.4 _, h.5⟩
    | exact fun h => ⟨h.1, h.2, h.3, h.4, tput_rising _ _ h.5 _⟩
    | split

theorem cacheRoom_keeps (a1 a2 s) : OKeeps 0x280902 s (·.2) (cacheRoom a1 a2 s) := by
  unfold cacheRoom
  extract_lets sets base ways held older clean
  split
  · exact OKeeps.none
  split
  · exact OKeeps.some (.refl ..)
  split
  · exact OKeeps.none
  split
  · split
    · next h => exact OKeeps.some ((OKeeps.get (cacheBack_keeps ..) h).mono)
    · exact OKeeps.map_any fun _ => .refl ..
  · exact OKeeps.some (.refl ..)

theorem cacheFill_keeps (a1 a2 s) : OKeeps 0x282B82 s (fun t => t) (cacheFill a1 a2 s) := by
  unfold cacheFill
  try dsimp only
  repeat'
    first
    | with_reducible exact Keeps.refl _ _
    | with_reducible assumption
    | with_reducible refine Keeps.ite ?_ ?_
    | with_reducible refine (migrTake_keeps ..).step ?_
    | with_reducible refine (tallyMem_keeps ..).step ?_
    | with_reducible refine (cacheRoom_keeps ..).step ?_
    | with_reducible refine (OKeeps.get1 (cacheRoom_keeps ..) (by assumption)).step ?_
    | with_reducible refine (setCache_keeps ..).step ?_
    | apply OKeeps.bind
    | with_reducible refine Keeps.getD ?_ ?_
    | with_reducible refine Keeps.getD_snd ?_ ?_
    | apply OKeeps.obind
    | refine OKeeps.map_snd ?_ fun _ => rfl
    | apply OKeeps.map
    | with_reducible refine OKeeps.pure ?_
    | with_reducible exact OKeeps.none
    | with_reducible refine OKeeps.some ?_
    | with_reducible refine OKeeps.ite ?_ ?_
    | with_reducible refine OKeeps.get ?_ (by assumption)
    | with_reducible refine OKeeps.get1 ?_ (by assumption)
    | with_reducible refine OKeeps.get2 ?_ (by assumption)
    | split

theorem cacheReady_keeps (a1 a2 s) : OKeeps 0x282B82 s (fun t => t) (cacheReady a1 a2 s) := by
  unfold cacheReady
  refine OKeeps.foldl (OKeeps.some (.refl ..)) fun o b h => OKeeps.obind h fun t k => ?_
  dsimp only
  split
  · exact OKeeps.some ((cacheUse_keeps ..).step k)
  · refine OKeeps.map ((cacheFill_keeps ..).step k) fun u v => ?_
    split
    · exact (cacheUse_keeps ..).step v
    · exact v

theorem cacheFlush_keeps (a1 s) : Keeps 0x280902 s (cacheFlush a1 s) := by
  unfold cacheFlush
  try dsimp only
  repeat'
    first
    | with_reducible exact Keeps.refl _ _
    | with_reducible assumption
    | with_reducible refine Keeps.ite ?_ ?_
    | with_reducible refine (cacheBack_keeps ..).step ?_
    | with_reducible refine (OKeeps.get (cacheBack_keeps ..) (by assumption)).step ?_
    | with_reducible refine (setCache_keeps ..).step ?_
    | with_reducible refine Keeps.foldl ?_ ?_
    | with_reducible refine Keeps.foldl_fst ?_ ?_
    | with_reducible refine Keeps.foldl_snd ?_ ?_
    | apply OKeeps.bind
    | with_reducible refine Keeps.getD ?_ ?_
    | with_reducible refine Keeps.getD_snd ?_ ?_
    | apply OKeeps.obind
    | refine OKeeps.map_snd ?_ fun _ => rfl
    | apply OKeeps.map
    | with_reducible refine OKeeps.pure ?_
    | with_reducible exact OKeeps.none
    | with_reducible refine OKeeps.some ?_
    | with_reducible refine OKeeps.ite ?_ ?_
    | intro _ _ _

theorem cacheAsk_keeps (a1 s) : Keeps 0x280000 s (cacheAsk a1 s) := by
  unfold cacheAsk
  try dsimp only
  repeat'
    first
    | with_reducible exact Keeps.refl _ _
    | with_reducible assumption
    | with_reducible refine Keeps.ite ?_ ?_
    | with_reducible refine (nvmeSend_keeps ..).step ?_
    | with_reducible refine Keeps.foldl ?_ ?_
    | with_reducible refine Keeps.foldl_fst ?_ ?_
    | with_reducible refine Keeps.foldl_snd ?_ ?_
    | intro _ _ _
    | intro _ _
    | split

theorem cacheWait_keeps (a1 a2 s) : Keeps 0x281000 s (cacheWait a1 a2 s).2 := by
  unfold cacheWait
  try dsimp only
  repeat'
    first
    | with_reducible exact Keeps.refl _ _
    | with_reducible refine Keeps.ite ?_ ?_
    | with_reducible refine Keeps.ite_snd ?_ ?_
    | with_reducible refine (setFlight_keeps ..).step ?_
    | with_reducible refine (cacheAsk_keeps ..).step ?_
    | split

theorem trayWrite_keeps (a1 a2 a3 a4 s) : Keeps 0x802 s (trayWrite a1 a2 a3 a4 s).2 := by
  unfold trayWrite
  try dsimp only
  repeat'
    first
    | with_reducible exact Keeps.refl _ _
    | with_reducible refine Keeps.ite ?_ ?_
    | with_reducible refine Keeps.ite_snd ?_ ?_
    | with_reducible refine (writeDom_keeps ..).step ?_
    | with_reducible refine (State.setKv_keeps _ _ ?_).step ?_
    | exact fun h => h
    | exact fun h => tput_rising _ _ h _
    | exact fun h => ⟨tput_rising _ _ h.1 _, h.2⟩
    | exact fun h => Tbl.rising_map h _ fun _ => rfl
    | exact fun h => ⟨Tbl.rising_map h.1 _ fun _ => rfl, h.2⟩
    | exact fun h => ⟨h.1, tput_rising _ _ h.2 _⟩
    | split

theorem execTrayRecordActivate_keeps (a1 a2 a3 a4 a5 s) : RKeeps 0x802 s (execTrayRecordActivate a1 a2 a3 a4 a5 s) := by
  unfold execTrayRecordActivate
  try dsimp only
  repeat'
    first
    | with_reducible exact Keeps.refl _ _
    | with_reducible assumption
    | with_reducible refine Keeps.ite ?_ ?_
    | with_reducible refine RKeeps.next ?_
    | with_reducible refine RKeeps.ite ?_ ?_
    | with_reducible refine (trayWrite_keeps ..).step ?_
    | with_reducible refine (Keeps.snd (trayWrite_keeps ..) (by assumption)).step ?_
    | with_reducible refine objCmd_keeps ?_ ?_
    | split
    | intro _ _ _
    | intro _ _

theorem loseCopy_keeps (a1 a2 s a3) : Keeps 0x200986 s (loseCopy a1 a2 s a3) := by
  unfold loseCopy
  try dsimp only
  repeat'
    first
    | with_reducible exact Keeps.refl _ _
    | with_reducible refine Keeps.ite ?_ ?_
    | with_reducible refine (logEvent_keeps ..).step ?_
    | with_reducible refine (setFrame_keeps ..).step ?_

theorem trayFails_keeps (a1 a2 s) : Keeps 0x7A7D86 s (trayFails a1 a2 s) := by
  unfold trayFails
  extract_lets p s1 s2 s3 hit
  have h1 : Keeps 0x7A7D86 s s1 := (Keeps.ports_mk ..).mono
  clear_value s1
  have h2 : Keeps 0x7A7D86 s s2 := Keeps.foldl h1 fun t q h => (loseCopy_keeps ..).step h
  clear_value s2
  have h3 : Keeps 0x7A7D86 s s3 := (State.setKv_keeps _ _ fun h => by
    split
    · exact h
    · exact ⟨h.1, tput_rising _ _ h.2 _⟩).step h2
  exact (runMoves_keeps ..).step (Keeps.foldl h3 fun t m h => (failMove_keeps ..).step h)

theorem execTrayFail_keeps (a1 a2 s) : RKeeps 0x7A7D86 s (execTrayFail a1 a2 s) := by
  unfold execTrayFail
  try dsimp only
  repeat'
    first
    | with_reducible exact Keeps.refl _ _
    | with_reducible refine Keeps.ite ?_ ?_
    | with_reducible refine RKeeps.next ?_
    | with_reducible refine RKeeps.ite ?_ ?_
    | with_reducible refine (trayFails_keeps ..).step ?_

end Sys2Proof.Machine
end

