-- ==== Sys2Proof/Laws/KeepsTruss.lean ====
section
/-! SUPPORT. What each operation of Machine/Truss.lean may write, and that it keeps the invariant. -/

namespace Sys2Proof.Machine

set_option Elab.async false

theorem State.setTruss_keeps (s a1) : Keeps 0x40000 s (State.setTruss s a1) := Keeps.truss_mk s _

theorem writeTable_keeps (a1 s) : Keeps 0x40000 s (writeTable a1 s).2 := by
  unfold writeTable
  try dsimp only
  repeat'
    first
    | with_reducible exact Keeps.refl _ _
    | with_reducible refine Keeps.ite ?_ ?_
    | with_reducible refine Keeps.ite_snd ?_ ?_
    | with_reducible refine (State.setTruss_keeps _ _).step ?_

theorem tableStatus_keeps (a1 s) : Keeps 0x2 s (tableStatus a1 s) := by
  unfold tableStatus
  try dsimp only
  repeat'
    first
    | with_reducible exact Keeps.refl _ _
    | with_reducible refine Keeps.ite ?_ ?_
    | with_reducible refine (setObj_keeps ..).step ?_

theorem commitTable_keeps (s) : Keeps 0x40002 s (commitTable s).2 := by
  unfold commitTable
  try dsimp only
  repeat'
    first
    | with_reducible exact Keeps.refl _ _
    | with_reducible refine Keeps.ite ?_ ?_
    | with_reducible refine Keeps.ite_snd ?_ ?_
    | with_reducible refine (tableStatus_keeps ..).step ?_
    | with_reducible refine (State.setTruss_keeps _ _).step ?_
    | split

theorem execTableCommit_keeps (a1 s) : RKeeps 0x40002 s (execTableCommit a1 s) := by
  unfold execTableCommit
  try dsimp only
  repeat'
    first
    | with_reducible exact Keeps.refl _ _
    | with_reducible assumption
    | with_reducible refine Keeps.ite ?_ ?_
    | with_reducible refine RKeeps.next ?_
    | with_reducible refine RKeeps.ite ?_ ?_
    | with_reducible refine (commitTable_keeps ..).step ?_
    | with_reducible refine (Keeps.snd (commitTable_keeps ..) (by assumption)).step ?_
    | with_reducible refine commanded_keeps ?_ ?_
    | split
    | intro _ _ _
    | intro _ _

theorem execEpochRetire_keeps (s) : RKeeps 0x40002 s (execEpochRetire s) := by
  unfold execEpochRetire
  try dsimp only
  repeat'
    first
    | with_reducible exact Keeps.refl _ _
    | with_reducible refine Keeps.ite ?_ ?_
    | with_reducible refine RKeeps.next ?_
    | with_reducible refine RKeeps.ite ?_ ?_
    | with_reducible refine (tableStatus_keeps ..).step ?_
    | with_reducible refine (setDom_keeps ..).step ?_
    | with_reducible refine (State.setTruss_keeps _ _).step ?_

theorem branchCount_keeps (a1 a2 a3 a4 a5 a6 s) : Keeps 0x80 s (branchCount a1 a2 a3 a4 a5 a6 s) := by
  induction a3 generalizing a1 a2 a4 a5 a6 s with
  | zero =>
    unfold branchCount
    try dsimp only
    repeat'
      first
      | with_reducible exact Keeps.refl _ _
      | with_reducible assumption
      | with_reducible refine Keeps.ite ?_ ?_
      | with_reducible refine (tallyAdd_keeps ..).step ?_
      | with_reducible refine Keeps.foldl ?_ ?_
      | with_reducible refine Keeps.foldl_fst ?_ ?_
      | with_reducible refine Keeps.foldl_snd ?_ ?_
      | with_reducible refine Keeps.snd ?_ (by assumption)
      | with_reducible refine Keeps.fst ?_ (by assumption)
      | with_reducible refine Keeps.snd2 ?_ (by assumption)
      | with_reducible refine Keeps.snd3 ?_ (by assumption)
      | intro _ _ _
      | intro _ _
      | split
  | succ k ih =>
    unfold branchCount
    try dsimp only
    repeat'
      first
      | with_reducible refine (ih ..).step ?_
      | with_reducible exact Keeps.refl _ _
      | with_reducible assumption
      | with_reducible refine Keeps.ite ?_ ?_
      | with_reducible refine (tallyAdd_keeps ..).step ?_
      | with_reducible refine Keeps.foldl ?_ ?_
      | with_reducible refine Keeps.foldl_fst ?_ ?_
      | with_reducible refine Keeps.foldl_snd ?_ ?_
      | with_reducible refine Keeps.snd ?_ (by assumption)
      | with_reducible refine Keeps.fst ?_ (by assumption)
      | with_reducible refine Keeps.snd2 ?_ (by assumption)
      | with_reducible refine Keeps.snd3 ?_ (by assumption)
      | intro _ _ _
      | intro _ _
      | split

theorem launch_keeps (a1 s) : Keeps 0x80 s (launch a1 s).2 := by
  unfold launch
  try dsimp only
  repeat'
    first
    | with_reducible exact Keeps.refl _ _
    | with_reducible refine Keeps.ite ?_ ?_
    | with_reducible refine Keeps.ite_snd ?_ ?_
    | with_reducible refine (branchCount_keeps ..).step ?_
    | split

theorem inject_keeps (a1 a2 a3 a4 a5 s) : Keeps 0x40080 s (inject a1 a2 a3 a4 a5 s) := by
  unfold inject
  try dsimp only
  repeat'
    first
    | with_reducible exact Keeps.refl _ _
    | with_reducible refine Keeps.ite ?_ ?_
    | with_reducible refine (State.setTruss_keeps _ _).step ?_
    | with_reducible refine (launch_keeps ..).step ?_
    | with_reducible refine (Keeps.snd (launch_keeps ..) (by assumption)).step ?_
    | with_reducible refine (tallyAdd_keeps ..).step ?_
    | with_reducible refine Keeps.snd ?_ (by assumption)
    | with_reducible refine Keeps.fst ?_ (by assumption)
    | with_reducible refine Keeps.snd2 ?_ (by assumption)
    | with_reducible refine Keeps.snd3 ?_ (by assumption)
    | split

theorem countLeft_keeps (a1 a2 s) : Keeps 0x40000 s (countLeft a1 a2 s) := by
  unfold countLeft
  try dsimp only
  repeat'
    first
    | with_reducible exact Keeps.refl _ _
    | with_reducible refine Keeps.ite ?_ ?_
    | with_reducible refine (State.setTruss_keeps _ _).step ?_
    | split

theorem injectNext_keeps (a1 a2 a3 s) : Keeps 0x40080 s (injectNext a1 a2 a3 s) := by
  unfold injectNext
  try dsimp only
  repeat'
    first
    | with_reducible exact Keeps.refl _ _
    | with_reducible refine Keeps.ite ?_ ?_
    | with_reducible refine (State.setTruss_keeps _ _).step ?_
    | with_reducible refine (launch_keeps ..).step ?_
    | with_reducible refine (Keeps.snd (launch_keeps ..) (by assumption)).step ?_
    | with_reducible refine Keeps.snd ?_ (by assumption)
    | with_reducible refine Keeps.fst ?_ (by assumption)
    | with_reducible refine Keeps.snd2 ?_ (by assumption)
    | with_reducible refine Keeps.snd3 ?_ (by assumption)
    | split

theorem execMulticastDeliveryNotice_keeps (a1 a2 s) : RKeeps 0x40080 s (execMulticastDeliveryNotice a1 a2 s) := by
  unfold execMulticastDeliveryNotice
  try dsimp only
  repeat'
    first
    | with_reducible exact Keeps.refl _ _
    | with_reducible refine Keeps.ite ?_ ?_
    | with_reducible refine RKeeps.next ?_
    | with_reducible refine RKeeps.ite ?_ ?_
    | with_reducible refine (injectNext_keeps ..).step ?_
    | with_reducible refine (State.setTruss_keeps _ _).step ?_
    | with_reducible refine (countLeft_keeps ..).step ?_
    | split

theorem sinkCore_keeps (a1 s) : Keeps 0x40000 s (sinkCore a1 s) := by
  unfold sinkCore
  try dsimp only
  repeat'
    first
    | with_reducible exact Keeps.refl _ _
    | with_reducible refine Keeps.ite ?_ ?_
    | with_reducible refine (State.setTruss_keeps _ _).step ?_
    | with_reducible refine (countLeft_keeps ..).step ?_
    | split

theorem trussCrc_keeps (a1 a2 s) : Keeps 0x40080 s (trussCrc a1 a2 s).2 := by
  unfold trussCrc
  try dsimp only
  repeat'
    first
    | with_reducible exact Keeps.refl _ _
    | with_reducible refine Keeps.ite ?_ ?_
    | with_reducible refine Keeps.ite_snd ?_ ?_
    | with_reducible refine (State.setTruss_keeps _ _).step ?_
    | with_reducible refine (telemetry_keeps ..).step ?_

end Sys2Proof.Machine
end

