-- ==== Sys2Proof/Laws/KeepsAttend.lean ====
section
/-! SUPPORT. What each operation of Machine/Attend.lean may write, and that it keeps the invariant. -/

namespace Sys2Proof.Machine

set_option Elab.async false

theorem awaitPlace_keeps (a1 s) : Keeps 0x1000 s (awaitPlace a1 s) := by
  unfold awaitPlace
  try dsimp only
  repeat'
    first
    | with_reducible exact Keeps.refl _ _
    | with_reducible refine Keeps.ite ?_ ?_
    | with_reducible refine (setFlight_keeps ..).step ?_

theorem queueWork_keeps (a1 s a2) : Keeps 0x1000 s (queueWork a1 s a2) := by
  unfold queueWork
  try dsimp only
  repeat'
    first
    | with_reducible exact Keeps.refl _ _
    | with_reducible refine Keeps.ite ?_ ?_
    | with_reducible refine (setCore_keeps ..).step ?_

theorem startAttend_keeps (a1 s) : Keeps 0x41080 s (startAttend a1 s) := by
  unfold startAttend
  try dsimp only
  repeat'
    first
    | with_reducible exact Keeps.refl _ _
    | with_reducible assumption
    | with_reducible refine Keeps.ite ?_ ?_
    | with_reducible refine (setFlight_keeps ..).step ?_
    | with_reducible refine (inject_keeps ..).step ?_
    | with_reducible refine (queueWork_keeps ..).step ?_
    | with_reducible refine Keeps.foldl ?_ ?_
    | with_reducible refine Keeps.foldl_fst ?_ ?_
    | with_reducible refine Keeps.foldl_snd ?_ ?_
    | intro _ _ _
    | intro _ _
    | split

theorem fetchBlock_keeps (a1 a2 a3 s) : Keeps 0x7AFB86 s (fetchBlock a1 a2 a3 s).2 := by
  unfold fetchBlock
  try dsimp only
  repeat'
    first
    | with_reducible exact Keeps.refl _ _
    | with_reducible assumption
    | with_reducible refine Keeps.ite ?_ ?_
    | with_reducible refine Keeps.ite_snd ?_ ?_
    | with_reducible refine (blockWait_keeps ..).step ?_
    | with_reducible refine (Keeps.snd (blockWait_keeps ..) (by assumption)).step ?_
    | with_reducible refine (cacheWait_keeps ..).step ?_
    | with_reducible refine (Keeps.snd (cacheWait_keeps ..) (by assumption)).step ?_
    | with_reducible refine (remoteWait_keeps ..).step ?_
    | with_reducible refine (Keeps.snd (remoteWait_keeps ..) (by assumption)).step ?_
    | with_reducible refine (cacheReady_keeps ..).step ?_
    | with_reducible refine (OKeeps.get (cacheReady_keeps ..) (by assumption)).step ?_
    | with_reducible refine (pendingPost_keeps ..).step ?_
    | with_reducible refine (translateBlock_keeps ..).step ?_
    | with_reducible refine (Keeps.snd (translateBlock_keeps ..) (by assumption)).step ?_
    | apply OKeeps.bind
    | with_reducible refine Keeps.getD ?_ ?_
    | with_reducible refine Keeps.getD_snd ?_ ?_
    | apply OKeeps.obind
    | refine OKeeps.map_snd ?_ fun _ => rfl
    | apply OKeeps.map
    | with_reducible refine OKeeps.pure ?_
    | with_reducible exact OKeeps.none
    | with_reducible refine OKeeps.some ?_
    | with_reducible refine OKeeps.ite ?_ ?_
    | with_reducible refine Keeps.snd ?_ (by assumption)
    | with_reducible refine Keeps.fst ?_ (by assumption)
    | with_reducible refine Keeps.snd2 ?_ (by assumption)
    | with_reducible refine Keeps.snd3 ?_ (by assumption)
    | with_reducible refine OKeeps.get ?_ (by assumption)
    | with_reducible refine OKeeps.get1 ?_ (by assumption)
    | with_reducible refine OKeeps.get2 ?_ (by assumption)
    | intro _ _ _
    | intro _ _
    | split

theorem execAppend_keeps (a1 s) : RKeeps 0x17AFF86 s (execAppend a1 s) := by
  unfold execAppend
  try dsimp only
  repeat'
    first
    | with_reducible exact Keeps.refl _ _
    | with_reducible refine Keeps.ite ?_ ?_
    | with_reducible refine RKeeps.next ?_
    | with_reducible refine RKeeps.ite ?_ ?_
    | with_reducible refine (setFlight_keeps ..).step ?_
    | with_reducible refine (tenantCount_keeps ..).step ?_
    | with_reducible refine (fetchBlock_keeps ..).step ?_
    | with_reducible refine (Keeps.snd (fetchBlock_keeps ..) (by assumption)).step ?_
    | with_reducible refine (atGate_keeps ..).step ?_
    | with_reducible refine (complete_keeps ..).step ?_
    | with_reducible refine (runMem_keeps ..).step ?_
    | with_reducible refine (notePieces_keeps ..).step ?_
    | with_reducible refine Keeps.snd ?_ (by assumption)
    | with_reducible refine Keeps.fst ?_ (by assumption)
    | with_reducible refine Keeps.snd2 ?_ (by assumption)
    | with_reducible refine Keeps.snd3 ?_ (by assumption)
    | split

theorem startPart_keeps {P : Nat} {r : State} (k : Flight → State → State) (a2) {s : State} (h : Keeps P r s)
    (hk : ∀ t, Keeps P r t → Keeps P r (k a2 t)) (sub : Nat.lor 0x323C82 P = P := by with_unfolding_all rfl) : Keeps P r (startPart k a2 s) := by
  unfold startPart
  exact Keeps.ite ((complete_keeps ..).step h sub) (hk _ h)

theorem execAttend_keeps (a1 s) : RKeeps 0x7EFF86 s (execAttend a1 s) := by
  unfold execAttend
  try dsimp only
  repeat'
    first
    | with_reducible exact Keeps.refl _ _
    | with_reducible assumption
    | with_reducible refine Keeps.ite ?_ ?_
    | with_reducible refine RKeeps.next ?_
    | with_reducible refine RKeeps.ite ?_ ?_
    | with_reducible refine (setFlight_keeps ..).step ?_
    | with_reducible refine (tenantCount_keeps ..).step ?_
    | with_reducible refine (fetchBlock_keeps ..).step ?_
    | with_reducible refine (Keeps.snd (fetchBlock_keeps ..) (by assumption)).step ?_
    | with_reducible refine startPart_keeps _ _ ?_ ?_
    | with_reducible refine (atGate_keeps ..).step ?_
    | with_reducible refine (startStriped_keeps ..).step ?_
    | with_reducible refine (startAttend_keeps ..).step ?_
    | with_reducible refine (awaitPlace_keeps ..).step ?_
    | with_reducible refine (noteDispatch_keeps ..).step ?_
    | with_reducible refine (complete_keeps ..).step ?_
    | with_reducible refine (notePieces_keeps ..).step ?_
    | with_reducible refine Keeps.snd ?_ (by assumption)
    | with_reducible refine Keeps.fst ?_ (by assumption)
    | with_reducible refine Keeps.snd2 ?_ (by assumption)
    | with_reducible refine Keeps.snd3 ?_ (by assumption)
    | split
    | intro _ _ _
    | intro _ _

theorem coreTally_keeps (a1 a2 a3 s) : Keeps 0x80 s (coreTally a1 a2 a3 s) := by
  unfold coreTally
  try dsimp only
  repeat'
    first
    | with_reducible exact Keeps.refl _ _
    | with_reducible refine Keeps.ite ?_ ?_
    | with_reducible refine (tallyAdd_keeps ..).step ?_

theorem coreRecordMove_keeps (a1 s) : Keeps 0x80 s (coreRecordMove a1 s) := by
  unfold coreRecordMove
  try dsimp only
  repeat'
    first
    | with_reducible exact Keeps.refl _ _
    | with_reducible refine Keeps.ite ?_ ?_
    | with_reducible refine (State.setTal_keeps _ _ ?_).step ?_
    | exact fun h => Tally.ok_of h rfl rfl

theorem execWorkItemStart_keeps (a1 s) : RKeeps 0x1080 s (execWorkItemStart a1 s) := by
  unfold execWorkItemStart
  try dsimp only
  repeat'
    first
    | with_reducible exact Keeps.refl _ _
    | with_reducible refine Keeps.ite ?_ ?_
    | with_reducible refine RKeeps.next ?_
    | with_reducible refine RKeeps.ite ?_ ?_
    | with_reducible refine (issueReads_keeps ..).step ?_
    | with_reducible refine (runCount_keeps ..).step ?_
    | with_reducible refine (coreRecordMove_keeps ..).step ?_
    | with_reducible refine (setCore_keeps ..).step ?_
    | split

theorem granuleBack_keeps (a1 a2 a3 a4 a5 s) : Keeps 0x201386 s (granuleBack a1 a2 a3 a4 a5 s) := by
  unfold granuleBack
  try dsimp only
  repeat'
    first
    | with_reducible exact Keeps.refl _ _
    | with_reducible refine Keeps.ite ?_ ?_
    | with_reducible refine (tallyMem_keeps ..).step ?_
    | with_reducible refine (tenantCount_keeps ..).step ?_
    | with_reducible refine (runCount_keeps ..).step ?_
    | with_reducible refine (meet_keeps ..).step ?_
    | with_reducible refine (tallyAdd_keeps ..).step ?_
    | with_reducible refine (setCore_keeps ..).step ?_
    | with_reducible refine (noteRead_keeps ..).step ?_
    | split

theorem busy_keeps (a1 a2 a3 s) : Keeps 0x82 s (busy a1 a2 a3 s) := by
  unfold busy
  try dsimp only
  repeat'
    first
    | with_reducible exact Keeps.refl _ _
    | with_reducible refine Keeps.ite ?_ ?_
    | with_reducible refine (tenantCount_keeps ..).step ?_
    | with_reducible refine (runCount_keeps ..).step ?_
    | with_reducible refine (coreTally_keeps ..).step ?_
    | split

theorem summaryEnd_keeps (a1 a2 a3 a4 s) : Keeps 0x201186 s (summaryEnd a1 a2 a3 a4 s) := by
  unfold summaryEnd
  try dsimp only
  repeat'
    first
    | with_reducible exact Keeps.refl _ _
    | with_reducible refine Keeps.ite ?_ ?_
    | with_reducible refine (busy_keeps ..).step ?_
    | with_reducible refine (logEvent_keeps ..).step ?_
    | with_reducible refine (issueReads_keeps ..).step ?_
    | with_reducible refine (runCount_keeps ..).step ?_
    | with_reducible refine (setCore_keeps ..).step ?_
    | split

theorem noteUse_keeps (a1 s) : Keeps 0x800 s (noteUse a1 s) := by
  unfold noteUse
  try dsimp only
  repeat'
    first
    | with_reducible exact Keeps.refl _ _
    | with_reducible refine Keeps.ite ?_ ?_
    | with_reducible refine (setFrame_keeps ..).step ?_
    | split

theorem streamTile_keeps (a1 a2 s a3 a4) : Keeps 0x200186 s (streamTile a1 a2 s a3 a4).1 := by
  unfold streamTile
  try dsimp only
  repeat'
    first
    | with_reducible exact Keeps.refl _ _
    | with_reducible assumption
    | with_reducible refine Keeps.ite ?_ ?_
    | with_reducible refine (logEvent_keeps ..).step ?_
    | with_reducible refine (runCount_keeps ..).step ?_
    | with_reducible refine (busy_keeps ..).step ?_
    | with_reducible refine (coreTally_keeps ..).step ?_
    | with_reducible refine Keeps.foldl ?_ ?_
    | with_reducible refine Keeps.foldl_fst ?_ ?_
    | with_reducible refine Keeps.foldl_snd ?_ ?_
    | with_reducible refine Keeps.snd ?_ (by assumption)
    | with_reducible refine Keeps.fst ?_ (by assumption)
    | with_reducible refine Keeps.snd2 ?_ (by assumption)
    | with_reducible refine Keeps.snd3 ?_ (by assumption)
    | intro _ _ _
    | intro _ _
    | split

theorem cancelWork_keeps (a1 s) : Keeps 0x1000 s (cancelWork a1 s) := by
  unfold cancelWork
  try dsimp only
  repeat'
    first
    | with_reducible exact Keeps.refl _ _
    | with_reducible refine Keeps.ite ?_ ?_
    | with_reducible refine (State.setAttn_keeps _ _ ?_).step ?_
    | exact fun h => h
    | exact fun h => tput_rising _ _ h _
    | exact fun h => ⟨tput_rising _ _ h.1 _, h.2⟩
    | exact fun h => Tbl.rising_map h _ fun _ => rfl
    | exact fun h => ⟨Tbl.rising_map h.1 _ fun _ => rfl, h.2⟩

theorem workEnded_keeps (a1 s) : Keeps 0x323C82 s (workEnded a1 s) := by
  unfold workEnded
  try dsimp only
  repeat'
    first
    | with_reducible exact Keeps.refl _ _
    | with_reducible assumption
    | with_reducible refine Keeps.ite ?_ ?_
    | with_reducible refine (spanSend_keeps ..).step ?_
    | with_reducible refine (complete_keeps ..).step ?_
    | with_reducible refine Keeps.foldl ?_ ?_
    | with_reducible refine Keeps.foldl_fst ?_ ?_
    | with_reducible refine Keeps.foldl_snd ?_ ?_
    | with_reducible refine Keeps.snd ?_ (by assumption)
    | with_reducible refine Keeps.fst ?_ (by assumption)
    | with_reducible refine Keeps.snd2 ?_ (by assumption)
    | with_reducible refine Keeps.snd3 ?_ (by assumption)
    | intro _ _ _
    | intro _ _
    | split

theorem workEnd_keeps (a1 a2 a3 s) : Keeps 0x323C82 s (workEnd a1 a2 a3 s) := by
  unfold workEnd
  try dsimp only
  repeat'
    first
    | with_reducible exact Keeps.refl _ _
    | with_reducible refine Keeps.ite ?_ ?_
    | with_reducible refine (setFlight_keeps ..).step ?_
    | with_reducible refine (coreTally_keeps ..).step ?_
    | with_reducible refine (setCore_keeps ..).step ?_
    | with_reducible refine (workEnded_keeps ..).step ?_
    | split

theorem attendEnd_keeps (a1 a2 a3 s) : Keeps 0x323C82 s (attendEnd a1 a2 a3 s) := by
  unfold attendEnd
  try dsimp only
  repeat'
    first
    | with_reducible exact Keeps.refl _ _
    | with_reducible refine Keeps.ite ?_ ?_
    | with_reducible refine (workEnd_keeps ..).step ?_

theorem roundEnd_keeps (a1 a2 a3 a4 s) : Keeps 0x323C82 s (roundEnd a1 a2 a3 a4 s) := by
  unfold roundEnd
  try dsimp only
  repeat'
    first
    | with_reducible exact Keeps.refl _ _
    | with_reducible refine Keeps.ite ?_ ?_
    | with_reducible refine (attendEnd_keeps ..).step ?_
    | with_reducible refine (issueReads_keeps ..).step ?_
    | with_reducible refine (runCount_keeps ..).step ?_
    | with_reducible refine (setCore_keeps ..).step ?_
    | split

theorem takeReady_keeps (a1 a2 a3 a4 s) : Keeps 0x200986 s (takeReady a1 a2 a3 a4 s).1 := by
  induction a3 generalizing a1 a2 a4 s with
  | zero =>
    unfold takeReady
    try dsimp only
    repeat'
      first
      | with_reducible exact Keeps.refl _ _
      | with_reducible refine Keeps.ite ?_ ?_
      | with_reducible refine (noteUse_keeps ..).step ?_
      | with_reducible refine (streamTile_keeps ..).step ?_
      | with_reducible refine (Keeps.fst (streamTile_keeps ..) (by assumption)).step ?_
      | with_reducible refine Keeps.snd ?_ (by assumption)
      | with_reducible refine Keeps.fst ?_ (by assumption)
      | with_reducible refine Keeps.snd2 ?_ (by assumption)
      | with_reducible refine Keeps.snd3 ?_ (by assumption)
      | split
  | succ k ih =>
    unfold takeReady
    try dsimp only
    repeat'
      first
      | with_reducible refine (ih ..).step ?_
      | with_reducible refine (Keeps.fst (ih ..) (by assumption)).step ?_
      | with_reducible exact Keeps.refl _ _
      | with_reducible refine Keeps.ite ?_ ?_
      | with_reducible refine (noteUse_keeps ..).step ?_
      | with_reducible refine (streamTile_keeps ..).step ?_
      | with_reducible refine (Keeps.fst (streamTile_keeps ..) (by assumption)).step ?_
      | with_reducible refine Keeps.snd ?_ (by assumption)
      | with_reducible refine Keeps.fst ?_ (by assumption)
      | with_reducible refine Keeps.snd2 ?_ (by assumption)
      | with_reducible refine Keeps.snd3 ?_ (by assumption)
      | split

theorem advance_keeps (a1 s) : Keeps 0x201986 s (advance a1 s) := by
  unfold advance
  try dsimp only
  repeat'
    first
    | with_reducible exact Keeps.refl _ _
    | with_reducible refine Keeps.ite ?_ ?_
    | with_reducible refine (takeReady_keeps ..).step ?_
    | with_reducible refine (Keeps.fst (takeReady_keeps ..) (by assumption)).step ?_
    | with_reducible refine (issueReads_keeps ..).step ?_
    | with_reducible refine (setCore_keeps ..).step ?_
    | with_reducible refine Keeps.snd ?_ (by assumption)
    | with_reducible refine Keeps.fst ?_ (by assumption)
    | with_reducible refine Keeps.snd2 ?_ (by assumption)
    | with_reducible refine Keeps.snd3 ?_ (by assumption)
    | split

theorem execSummaryPassEnd_keeps (a1 s) : RKeeps 0x201986 s (execSummaryPassEnd a1 s) := by
  unfold execSummaryPassEnd
  try dsimp only
  repeat'
    first
    | with_reducible exact Keeps.refl _ _
    | with_reducible refine Keeps.ite ?_ ?_
    | with_reducible refine RKeeps.next ?_
    | with_reducible refine RKeeps.ite ?_ ?_
    | with_reducible refine (advance_keeps ..).step ?_
    | with_reducible refine (summaryEnd_keeps ..).step ?_
    | split

theorem convertPage_keeps (a1 a2 a3 a4 a5 a6 s) : Keeps 0x1000380 s (convertPage a1 a2 a3 a4 a5 a6 s) := by
  unfold convertPage
  try dsimp only
  repeat'
    first
    | with_reducible exact Keeps.refl _ _
    | with_reducible assumption
    | with_reducible refine Keeps.ite ?_ ?_
    | with_reducible refine (putToken_keeps ..).step ?_
    | with_reducible refine Keeps.foldl ?_ ?_
    | with_reducible refine Keeps.foldl_fst ?_ ?_
    | with_reducible refine Keeps.foldl_snd ?_ ?_
    | intro _ _ _

theorem swapEntry_keeps (a1 a2 s a3) : Keeps 0x1323F86 s (swapEntry a1 a2 s a3) := by
  unfold swapEntry
  try dsimp only
  repeat'
    first
    | with_reducible exact Keeps.refl _ _
    | with_reducible refine Keeps.ite ?_ ?_
    | with_reducible refine (relFrame_keeps ..).step ?_
    | with_reducible refine (setPage_keeps ..).step ?_
    | with_reducible refine (sumRebuild_keeps ..).step ?_

theorem swapPage_keeps (a1 a2 a3 a4 s) : Keeps 0x1323F86 s (swapPage a1 a2 a3 a4 s) := by
  unfold swapPage
  try dsimp only
  repeat'
    first
    | with_reducible exact Keeps.refl _ _
    | with_reducible assumption
    | with_reducible refine Keeps.ite ?_ ?_
    | with_reducible refine (setFlight_keeps ..).step ?_
    | with_reducible refine (setFrame_keeps ..).step ?_
    | with_reducible refine (swapEntry_keeps ..).step ?_
    | with_reducible refine (freeFrame_keeps ..).step ?_
    | with_reducible refine (issueReads_keeps ..).step ?_
    | with_reducible refine (setCore_keeps ..).step ?_
    | with_reducible refine Keeps.foldl ?_ ?_
    | with_reducible refine Keeps.foldl_fst ?_ ?_
    | with_reducible refine Keeps.foldl_snd ?_ ?_
    | with_reducible refine Keeps.snd ?_ (by assumption)
    | with_reducible refine Keeps.fst ?_ (by assumption)
    | with_reducible refine Keeps.snd2 ?_ (by assumption)
    | with_reducible refine Keeps.snd3 ?_ (by assumption)
    | intro _ _ _
    | intro _ _
    | split

theorem stopCompact_keeps (a1 s) : Keeps 0x1000 s (stopCompact a1 s) := by
  unfold stopCompact
  try dsimp only
  repeat'
    first
    | with_reducible exact Keeps.refl _ _
    | with_reducible refine Keeps.ite ?_ ?_
    | with_reducible refine (State.setAttn_keeps _ _ ?_).step ?_
    | exact fun h => h
    | exact fun h => tput_rising _ _ h _
    | exact fun h => Tbl.rising_map h _ fun _ => rfl
    | exact fun h => Tbl.rising_map h _ fun p => by split <;> rfl
    | split

theorem compactPage_keeps (a1 a2 a3 s) : Keeps 0x1723F86 s (compactPage a1 a2 a3 s) := by
  unfold compactPage
  try dsimp only
  repeat'
    first
    | with_reducible exact Keeps.refl _ _
    | with_reducible assumption
    | with_reducible refine Keeps.ite ?_ ?_
    | with_reducible refine (setFlight_keeps ..).step ?_
    | with_reducible refine (noteUse_keeps ..).step ?_
    | with_reducible refine (swapPage_keeps ..).step ?_
    | with_reducible refine (issueReads_keeps ..).step ?_
    | with_reducible refine (stopCompact_keeps ..).step ?_
    | with_reducible refine (newFrame_keeps ..).step ?_
    | with_reducible refine (OKeeps.get1 (newFrame_keeps ..) (by assumption)).step ?_
    | with_reducible refine (setCore_keeps ..).step ?_
    | with_reducible refine (convertPage_keeps ..).step ?_
    | apply OKeeps.bind
    | with_reducible refine Keeps.getD ?_ ?_
    | with_reducible refine Keeps.getD_snd ?_ ?_
    | apply OKeeps.obind
    | refine OKeeps.map_snd ?_ fun _ => rfl
    | apply OKeeps.map
    | with_reducible refine OKeeps.pure ?_
    | with_reducible exact OKeeps.none
    | with_reducible refine OKeeps.some ?_
    | with_reducible refine OKeeps.ite ?_ ?_
    | with_reducible refine OKeeps.get ?_ (by assumption)
    | with_reducible refine OKeeps.get1 ?_ (by assumption)
    | with_reducible refine OKeeps.get2 ?_ (by assumption)
    | intro _ _ _
    | intro _ _
    | split

theorem swapAll_keeps (s) : Keeps 0x1323F86 s (swapAll s) := by
  unfold swapAll
  try dsimp only
  repeat'
    first
    | with_reducible exact Keeps.refl _ _
    | with_reducible assumption
    | with_reducible refine Keeps.ite ?_ ?_
    | with_reducible refine (swapPage_keeps ..).step ?_
    | with_reducible refine Keeps.foldl ?_ ?_
    | with_reducible refine Keeps.foldl_fst ?_ ?_
    | with_reducible refine Keeps.foldl_snd ?_ ?_
    | with_reducible refine Keeps.snd ?_ (by assumption)
    | with_reducible refine Keeps.fst ?_ (by assumption)
    | with_reducible refine Keeps.snd2 ?_ (by assumption)
    | with_reducible refine Keeps.snd3 ?_ (by assumption)
    | intro _ _ _
    | intro _ _
    | split

theorem compactIdle_keeps (a1 s) : Keeps 0x323C82 s (compactIdle a1 s) := by
  unfold compactIdle
  try dsimp only
  repeat'
    first
    | with_reducible exact Keeps.refl _ _
    | with_reducible refine Keeps.ite ?_ ?_
    | with_reducible refine (workEnd_keeps ..).step ?_
    | split

theorem compactOn_keeps (a1 a2 s) : Keeps 0x1723F86 s (compactOn a1 a2 s) := by
  unfold compactOn
  try dsimp only
  repeat'
    first
    | with_reducible exact Keeps.refl _ _
    | with_reducible refine Keeps.ite ?_ ?_
    | with_reducible refine (issueReads_keeps ..).step ?_
    | with_reducible refine (compactPage_keeps ..).step ?_
    | with_reducible refine (compactIdle_keeps ..).step ?_
    | split

theorem execT1GranuleReady_keeps (a1 a2 a3 s) : RKeeps 0x1723F86 s (execT1GranuleReady a1 a2 a3 s) := by
  unfold execT1GranuleReady
  try dsimp only
  repeat'
    first
    | with_reducible exact Keeps.refl _ _
    | with_reducible refine Keeps.ite ?_ ?_
    | with_reducible refine RKeeps.next ?_
    | with_reducible refine RKeeps.ite ?_ ?_
    | with_reducible refine (compactOn_keeps ..).step ?_
    | with_reducible refine (advance_keeps ..).step ?_
    | with_reducible refine (granuleBack_keeps ..).step ?_
    | split

theorem execCertifiedCheck_keeps (a1 s) : RKeeps 0x1723F86 s (execCertifiedCheck a1 s) := by
  unfold execCertifiedCheck
  try dsimp only
  repeat'
    first
    | with_reducible exact Keeps.refl _ _
    | with_reducible refine Keeps.ite ?_ ?_
    | with_reducible refine RKeeps.next ?_
    | with_reducible refine RKeeps.ite ?_ ?_
    | with_reducible refine (compactOn_keeps ..).step ?_
    | with_reducible refine (advance_keeps ..).step ?_
    | with_reducible refine (roundEnd_keeps ..).step ?_
    | with_reducible refine (swapAll_keeps ..).step ?_
    | split

theorem startCompact_keeps (a1 s) : Keeps 0x323C82 s (startCompact a1 s) := by
  unfold startCompact
  try dsimp only
  repeat'
    first
    | with_reducible exact Keeps.refl _ _
    | with_reducible assumption
    | with_reducible refine Keeps.ite ?_ ?_
    | with_reducible refine (setFlight_keeps ..).step ?_
    | with_reducible refine (workEnded_keeps ..).step ?_
    | with_reducible refine (queueWork_keeps ..).step ?_
    | with_reducible refine Keeps.foldl ?_ ?_
    | with_reducible refine Keeps.foldl_fst ?_ ?_
    | with_reducible refine Keeps.foldl_snd ?_ ?_
    | with_reducible refine Keeps.snd ?_ (by assumption)
    | with_reducible refine Keeps.fst ?_ (by assumption)
    | with_reducible refine Keeps.snd2 ?_ (by assumption)
    | with_reducible refine Keeps.snd3 ?_ (by assumption)
    | intro _ _ _

theorem execCompact_keeps (a1 s) : RKeeps 0x323C82 s (execCompact a1 s) := by
  unfold execCompact
  try dsimp only
  repeat'
    first
    | with_reducible exact Keeps.refl _ _
    | with_reducible assumption
    | with_reducible refine Keeps.ite ?_ ?_
    | with_reducible refine RKeeps.next ?_
    | with_reducible refine RKeeps.ite ?_ ?_
    | with_reducible refine (setFlight_keeps ..).step ?_
    | with_reducible refine startPart_keeps _ _ ?_ ?_
    | with_reducible refine (awaitPlace_keeps ..).step ?_
    | with_reducible refine (atGate_keeps ..).step ?_
    | with_reducible refine (noteDispatch_keeps ..).step ?_
    | with_reducible refine (complete_keeps ..).step ?_
    | with_reducible refine (startCompact_keeps ..).step ?_
    | with_reducible refine (startStriped_keeps ..).step ?_
    | split
    | intro _ _ _
    | intro _ _

theorem execPartialArrival_keeps (a1 a2 s) : RKeeps 0x323D86 s (execPartialArrival a1 a2 s) := by
  unfold execPartialArrival
  try dsimp only
  repeat'
    first
    | with_reducible exact Keeps.refl _ _
    | with_reducible refine Keeps.ite ?_ ?_
    | with_reducible refine RKeeps.next ?_
    | with_reducible refine RKeeps.ite ?_ ?_
    | with_reducible refine (setFlight_keeps ..).step ?_
    | with_reducible refine (logEvent_keeps ..).step ?_
    | with_reducible refine (tallyAdd_keeps ..).step ?_
    | with_reducible refine (workEnded_keeps ..).step ?_
    | split

theorem pushBlock_keeps (a1 a2 s) : Keeps 0x220080 s (pushBlock a1 a2 s).1 := by
  unfold pushBlock
  try dsimp only
  repeat'
    first
    | with_reducible exact Keeps.refl _ _
    | with_reducible assumption
    | with_reducible refine Keeps.ite ?_ ?_
    | with_reducible refine (sendFor_keeps ..).step ?_
    | with_reducible refine Keeps.foldl ?_ ?_
    | with_reducible refine Keeps.foldl_fst ?_ ?_
    | with_reducible refine Keeps.foldl_snd ?_ ?_
    | intro _ _ _
    | intro _ _
    | split

theorem sendRemote_keeps (a1 a2 a3 s) : OKeeps 0x328080 s (·.2) (sendRemote a1 a2 a3 s) := by
  induction a2 generalizing a1 a3 s with
  | nil =>
    unfold sendRemote
    try dsimp only
    repeat'
      first
      | with_reducible exact Keeps.refl _ _
      | with_reducible assumption
      | with_reducible refine Keeps.ite ?_ ?_
      | with_reducible refine (askRemote_keeps ..).step ?_
      | with_reducible refine (OKeeps.get (askRemote_keeps ..) (by assumption)).step ?_
      | apply OKeeps.bind
      | with_reducible refine Keeps.getD ?_ ?_
      | with_reducible refine Keeps.getD_snd ?_ ?_
      | apply OKeeps.obind
      | refine OKeeps.map_snd ?_ fun _ => rfl
      | apply OKeeps.map
      | with_reducible refine OKeeps.pure ?_
      | with_reducible exact OKeeps.none
      | with_reducible refine OKeeps.some ?_
  | cons x l ih =>
    unfold sendRemote
    try dsimp only
    repeat'
      first
      | with_reducible refine (ih ..).step ?_
      | with_reducible refine (OKeeps.get1 (ih ..) (by assumption)).step ?_
      | with_reducible exact Keeps.refl _ _
      | with_reducible assumption
      | with_reducible refine Keeps.ite ?_ ?_
      | with_reducible refine (askRemote_keeps ..).step ?_
      | with_reducible refine (OKeeps.get (askRemote_keeps ..) (by assumption)).step ?_
      | apply OKeeps.bind
      | with_reducible refine Keeps.getD ?_ ?_
      | with_reducible refine Keeps.getD_snd ?_ ?_
      | apply OKeeps.obind
      | refine OKeeps.map_snd ?_ fun _ => rfl
      | apply OKeeps.map
      | with_reducible refine OKeeps.pure ?_
      | with_reducible exact OKeeps.none
      | with_reducible refine OKeeps.some ?_
      | with_reducible refine OKeeps.ite ?_ ?_
      | with_reducible refine OKeeps.get ?_ (by assumption)
      | with_reducible refine OKeeps.get1 ?_ (by assumption)
      | with_reducible refine OKeeps.get2 ?_ (by assumption)
      | split

theorem writeOutput_keeps (a1 a2 s) : Keeps 0x17AFF86 s (writeOutput a1 a2 s) := by
  unfold writeOutput
  try dsimp only
  repeat'
    first
    | with_reducible exact Keeps.refl _ _
    | with_reducible assumption
    | with_reducible refine Keeps.ite ?_ ?_
    | with_reducible refine (setFlight_keeps ..).step ?_
    | with_reducible refine (pushBlock_keeps ..).step ?_
    | with_reducible refine (Keeps.fst (pushBlock_keeps ..) (by assumption)).step ?_
    | with_reducible refine (blockWait_keeps ..).step ?_
    | with_reducible refine (Keeps.snd (blockWait_keeps ..) (by assumption)).step ?_
    | with_reducible refine (tenantCount_keeps ..).step ?_
    | with_reducible refine (cacheReady_keeps ..).step ?_
    | with_reducible refine (OKeeps.get (cacheReady_keeps ..) (by assumption)).step ?_
    | with_reducible refine (translateBlock_keeps ..).step ?_
    | with_reducible refine (Keeps.snd (translateBlock_keeps ..) (by assumption)).step ?_
    | with_reducible refine (State.setTal_keeps _ _ ?_).step ?_
    | with_reducible refine (cacheWait_keeps ..).step ?_
    | with_reducible refine (Keeps.snd (cacheWait_keeps ..) (by assumption)).step ?_
    | with_reducible refine (pendingPost_keeps ..).step ?_
    | with_reducible refine (sendRemote_keeps ..).step ?_
    | with_reducible refine (OKeeps.get1 (sendRemote_keeps ..) (by assumption)).step ?_
    | with_reducible refine (complete_keeps ..).step ?_
    | with_reducible refine (writePieces_keeps ..).step ?_
    | with_reducible refine (Keeps.snd (writePieces_keeps ..) (by assumption)).step ?_
    | with_reducible refine (noteDecode_keeps ..).step ?_
    | with_reducible refine Keeps.foldl ?_ ?_
    | with_reducible refine Keeps.foldl_fst ?_ ?_
    | with_reducible refine Keeps.foldl_snd ?_ ?_
    | apply OKeeps.bind
    | with_reducible refine Keeps.getD ?_ ?_
    | with_reducible refine Keeps.getD_snd ?_ ?_
    | apply OKeeps.obind
    | refine OKeeps.map_snd ?_ fun _ => rfl
    | apply OKeeps.map
    | with_reducible refine OKeeps.pure ?_
    | with_reducible exact OKeeps.none
    | with_reducible refine OKeeps.some ?_
    | with_reducible refine OKeeps.ite ?_ ?_
    | with_reducible refine Keeps.snd ?_ (by assumption)
    | with_reducible refine Keeps.fst ?_ (by assumption)
    | with_reducible refine Keeps.snd2 ?_ (by assumption)
    | with_reducible refine Keeps.snd3 ?_ (by assumption)
    | with_reducible refine OKeeps.get ?_ (by assumption)
    | with_reducible refine OKeeps.get1 ?_ (by assumption)
    | with_reducible refine OKeeps.get2 ?_ (by assumption)
    | exact fun h => Tally.ok_of h rfl rfl
    | intro _ _ _
    | intro _ _
    | split

theorem sendPartial_keeps (a1 a2 s) : Keeps 0x323C82 s (sendPartial a1 a2 s) := by
  unfold sendPartial
  try dsimp only
  repeat'
    first
    | with_reducible exact Keeps.refl _ _
    | with_reducible refine Keeps.ite ?_ ?_
    | with_reducible refine (spanSend_keeps ..).step ?_
    | with_reducible refine (freeStep_keeps ..).step ?_
    | with_reducible refine (complete_keeps ..).step ?_
    | split

theorem execOutputFormed_keeps (a1 s) : RKeeps 0x17AFF86 s (execOutputFormed a1 s) := by
  unfold execOutputFormed
  try dsimp only
  repeat'
    first
    | with_reducible exact Keeps.refl _ _
    | with_reducible refine Keeps.ite ?_ ?_
    | with_reducible refine RKeeps.next ?_
    | with_reducible refine RKeeps.ite ?_ ?_
    | with_reducible refine (setFlight_keeps ..).step ?_
    | with_reducible refine (sendPartial_keeps ..).step ?_
    | with_reducible refine (writeOutput_keeps ..).step ?_
    | split

theorem execPushAck_keeps (a1 a2 s) : RKeeps 0x323C82 s (execPushAck a1 a2 s) := by
  unfold execPushAck
  try dsimp only
  repeat'
    first
    | with_reducible exact Keeps.refl _ _
    | with_reducible refine Keeps.ite ?_ ?_
    | with_reducible refine RKeeps.next ?_
    | with_reducible refine RKeeps.ite ?_ ?_
    | with_reducible refine (setFlight_keeps ..).step ?_
    | with_reducible refine (complete_keeps ..).step ?_
    | split

theorem execAttendDeadline_keeps (a1 s) : RKeeps 0x1327F97 s (execAttendDeadline a1 s) := by
  unfold execAttendDeadline
  try dsimp only
  repeat'
    first
    | with_reducible exact Keeps.refl _ _
    | with_reducible assumption
    | with_reducible refine Keeps.ite ?_ ?_
    | with_reducible refine RKeeps.next ?_
    | with_reducible refine RKeeps.ite ?_ ?_
    | with_reducible refine (cancelWork_keeps ..).step ?_
    | with_reducible refine (swapAll_keeps ..).step ?_
    | with_reducible refine (spanSend_keeps ..).step ?_
    | with_reducible refine (complete_keeps ..).step ?_
    | with_reducible refine (faultDrop_keeps ..).step ?_
    | with_reducible refine (State.setShape_keeps _ _).step ?_
    | with_reducible refine (carryTo_keeps ..).step ?_
    | with_reducible refine Keeps.foldl ?_ ?_
    | with_reducible refine Keeps.foldl_fst ?_ ?_
    | with_reducible refine Keeps.foldl_snd ?_ ?_
    | with_reducible refine Keeps.snd ?_ (by assumption)
    | with_reducible refine Keeps.fst ?_ (by assumption)
    | with_reducible refine Keeps.snd2 ?_ (by assumption)
    | with_reducible refine Keeps.snd3 ?_ (by assumption)
    | split
    | intro _ _ _
    | intro _ _

end Sys2Proof.Machine
end

