-- ==== Sys2Proof/Laws/KeepsRequests.lean ====
section
/-! SUPPORT. What each operation of Machine/Requests.lean may write, and that it keeps the invariant. -/

namespace Sys2Proof.Machine

set_option Elab.async false

theorem setReq_keeps (a1 s) : Keeps 0x8000 s (setReq a1 s) := by
  unfold setReq
  try dsimp only
  repeat'
    first
    | with_reducible exact Keeps.refl _ _
    | with_reducible refine Keeps.ite ?_ ?_
    | with_reducible refine (State.setCoh_keeps _ _ ?_).step ?_
    | exact fun h => by split <;> exact h

theorem dropReq_keeps (a1 s) : Keeps 0xA000 s (dropReq a1 s) := by
  unfold dropReq
  try dsimp only
  repeat'
    first
    | with_reducible exact Keeps.refl _ _
    | with_reducible refine Keeps.ite ?_ ?_
    | with_reducible refine (State.setCoh_keeps _ _ ?_).step ?_
    | exact fun h => h
    | with_reducible refine (tollLeave_keeps ..).step ?_

theorem tookId_keeps (s) : Keeps 0x1000 s (tookId s) := by
  unfold tookId
  try dsimp only
  repeat'
    first
    | with_reducible exact Keeps.refl _ _
    | with_reducible refine Keeps.ite ?_ ?_
    | with_reducible refine (State.setAttn_keeps _ _ ?_).step ?_
    | exact fun h => h

theorem setRoce_keeps (a1 a2 s) : Keeps 0x80000 s (setRoce a1 a2 s) := by
  unfold setRoce
  try dsimp only
  repeat'
    first
    | with_reducible exact Keeps.refl _ _
    | with_reducible refine Keeps.ite ?_ ?_
    | with_reducible refine (Keeps.ports_mk _ _).step ?_

theorem roceNak_keeps (a1 a2 a3 a4 a5 s) : Keeps 0x280080 s (roceNak a1 a2 a3 a4 a5 s) := by
  unfold roceNak
  try dsimp only
  repeat'
    first
    | with_reducible exact Keeps.refl _ _
    | with_reducible refine Keeps.ite ?_ ?_
    | with_reducible refine (emit_keeps ..).step ?_
    | with_reducible refine (setRoce_keeps ..).step ?_
    | with_reducible refine (linkTally_keeps ..).step ?_

theorem upError_keeps (a1 a2 a3 s) : Keeps 0x280000 s (upError a1 a2 a3 s) := by
  unfold upError
  try dsimp only
  repeat'
    first
    | with_reducible exact Keeps.refl _ _
    | with_reducible refine Keeps.ite ?_ ?_
    | with_reducible refine (emit_keeps ..).step ?_
    | with_reducible refine (Keeps.ports_mk _ _).step ?_

theorem noteAnswer_keeps (a1 a2 a3 s) : Keeps 0x82 s (noteAnswer a1 a2 a3 s) := by
  unfold noteAnswer
  try dsimp only
  repeat'
    first
    | with_reducible exact Keeps.refl _ _
    | with_reducible refine Keeps.ite ?_ ?_
    | with_reducible refine (traceEvent_keeps ..).step ?_
    | with_reducible refine (tenantCount_keeps ..).step ?_

theorem kafAnswer_keeps (a1 a2 a3 a4 a5 s) : Keeps 0x320080 s (kafAnswer a1 a2 a3 a4 a5 s) := by
  unfold kafAnswer
  try dsimp only
  repeat'
    first
    | with_reducible exact Keeps.refl _ _
    | with_reducible refine Keeps.ite ?_ ?_
    | with_reducible refine (sendFor_keeps ..).step ?_
    | with_reducible refine (bucketAdd_keeps ..).step ?_
    | split

theorem answerFail_keeps (a1 a2 s) : Keeps 0x3AA082 s (answerFail a1 a2 s) := by
  unfold answerFail
  try dsimp only
  repeat'
    first
    | with_reducible exact Keeps.refl _ _
    | with_reducible refine Keeps.ite ?_ ?_
    | with_reducible refine (emit_keeps ..).step ?_
    | with_reducible refine (roceNak_keeps ..).step ?_
    | with_reducible refine (bumpObj_keeps ..).step ?_
    | with_reducible refine (kafAnswer_keeps ..).step ?_
    | with_reducible refine (noteAnswer_keeps ..).step ?_
    | with_reducible refine (dropReq_keeps ..).step ?_
    | with_reducible refine (upError_keeps ..).step ?_
    | split

theorem answerDone_keeps (a1 a2 a3 s) : Keeps 0x32A082 s (answerDone a1 a2 a3 s) := by
  unfold answerDone
  try dsimp only
  repeat'
    first
    | with_reducible exact Keeps.refl _ _
    | with_reducible refine Keeps.ite ?_ ?_
    | with_reducible refine (emit_keeps ..).step ?_
    | with_reducible refine (linkTally_keeps ..).step ?_
    | with_reducible refine (kafAnswer_keeps ..).step ?_
    | with_reducible refine (noteAnswer_keeps ..).step ?_
    | with_reducible refine (dropReq_keeps ..).step ?_

theorem answerRetry_keeps (a1 s) : Keeps 0x32A082 s (answerRetry a1 s) := by
  unfold answerRetry
  try dsimp only
  repeat'
    first
    | with_reducible exact Keeps.refl _ _
    | with_reducible refine Keeps.ite ?_ ?_
    | with_reducible refine (dropReq_keeps ..).step ?_
    | with_reducible refine (kafAnswer_keeps ..).step ?_
    | with_reducible refine (bumpObj_keeps ..).step ?_

theorem reqMark_keeps {P : Nat} {r : State} {q : Req} {n : Nat} {x : List Nat × State} {m : Nat × Nat × Nat} (h : Keeps P r x.2)
    (sub : Nat.lor 0x2002 P = P := by with_unfolding_all rfl) : Keeps P r (reqMark q n x m).2 := by
  unfold reqMark
  dsimp only
  have k := (bumpObj_keeps (tollObj m.1).1 ((tollObj m.1).2 + 0x0A + m.2.1) 1 64 x.2).step h (lor_absorb sub rfl)
  split
  · exact (setToll_keeps ..).step k (lor_absorb sub rfl)
  · split
    · exact (setToll_keeps ..).step k (lor_absorb sub rfl)
    · exact (tollSettle_keeps ..).step k (lor_absorb sub rfl)

theorem markReq_keeps (a1 a2 s) : Keeps 0x2002 s (markReq a1 a2 s).2.2 := by
  unfold markReq
  try dsimp only
  repeat'
    first
    | with_reducible exact Keeps.refl _ _
    | with_reducible assumption
    | with_reducible refine Keeps.ite ?_ ?_
    | with_reducible refine reqMark_keeps ?_
    | with_reducible refine (bumpObj_keeps ..).step ?_
    | with_reducible refine Keeps.foldl ?_ ?_
    | with_reducible refine Keeps.foldl_fst ?_ ?_
    | with_reducible refine Keeps.foldl_snd ?_ ?_
    | with_reducible refine Keeps.snd ?_ (by assumption)
    | with_reducible refine Keeps.fst ?_ (by assumption)
    | with_reducible refine Keeps.snd2 ?_ (by assumption)
    | with_reducible refine Keeps.snd3 ?_ (by assumption)
    | intro _ _ _
    | intro _ _
    | split

theorem placeReq_keeps (a1 s) : Keeps 0x604386 s (placeReq a1 s).2 := by
  unfold placeReq
  try dsimp only
  repeat'
    first
    | with_reducible exact Keeps.refl _ _
    | with_reducible refine Keeps.ite ?_ ?_
    | with_reducible refine Keeps.ite_snd ?_ ?_
    | with_reducible refine (countFault_keeps ..).step ?_
    | with_reducible refine (translateBlock_keeps ..).step ?_
    | with_reducible refine (Keeps.snd (translateBlock_keeps ..) (by assumption)).step ?_
    | with_reducible refine Keeps.snd ?_ (by assumption)
    | with_reducible refine Keeps.fst ?_ (by assumption)
    | with_reducible refine Keeps.snd2 ?_ (by assumption)
    | with_reducible refine Keeps.snd3 ?_ (by assumption)
    | split

theorem noteReq_keeps (a1 a2 s) : Keeps 0x200386 s (noteReq a1 a2 s) := by
  unfold noteReq
  try dsimp only
  repeat'
    first
    | with_reducible exact Keeps.refl _ _
    | with_reducible assumption
    | with_reducible refine Keeps.ite ?_ ?_
    | with_reducible refine (noteReadBy_keeps ..).step ?_
    | with_reducible refine (tenantCount_keeps ..).step ?_
    | with_reducible refine (tallyMem_keeps ..).step ?_
    | with_reducible refine Keeps.foldl ?_ ?_
    | with_reducible refine Keeps.foldl_fst ?_ ?_
    | with_reducible refine Keeps.foldl_snd ?_ ?_
    | intro _ _ _
    | intro _ _
    | split

theorem noteWrites_keeps (a1 a2 s) : Keeps 0x200386 s (noteWrites a1 a2 s) := by
  unfold noteWrites
  try dsimp only
  repeat'
    first
    | with_reducible exact Keeps.refl _ _
    | with_reducible assumption
    | with_reducible refine Keeps.ite ?_ ?_
    | with_reducible refine (noteWriteBy_keeps ..).step ?_
    | with_reducible refine Keeps.foldl ?_ ?_
    | with_reducible refine Keeps.foldl_fst ?_ ?_
    | with_reducible refine Keeps.foldl_snd ?_ ?_
    | intro _ _ _
    | intro _ _
    | split

theorem storeReq_keeps (a1 s) : Keeps 0x1000382 s (storeReq a1 s) := by
  unfold storeReq
  try dsimp only
  repeat'
    first
    | with_reducible exact Keeps.refl _ _
    | with_reducible assumption
    | with_reducible refine Keeps.ite ?_ ?_
    | with_reducible refine (tenantCount_keeps ..).step ?_
    | with_reducible refine (memStore_keeps ..).step ?_
    | with_reducible refine Keeps.foldl ?_ ?_
    | with_reducible refine Keeps.foldl_fst ?_ ?_
    | with_reducible refine Keeps.foldl_snd ?_ ?_
    | intro _ _ _

theorem performReq_keeps (a1 a2 s) : Keeps 0x13AA386 s (performReq a1 a2 s).2 := by
  unfold performReq
  try dsimp only
  repeat'
    first
    | with_reducible exact Keeps.refl _ _
    | with_reducible refine Keeps.ite ?_ ?_
    | with_reducible refine Keeps.ite_snd ?_ ?_
    | with_reducible refine (emit_keeps ..).step ?_
    | with_reducible refine (answerDone_keeps ..).step ?_
    | with_reducible refine (storeReq_keeps ..).step ?_
    | with_reducible refine (noteReq_keeps ..).step ?_
    | with_reducible refine (setReq_keeps ..).step ?_
    | with_reducible refine (answerFail_keeps ..).step ?_
    | with_reducible refine (noteWrites_keeps ..).step ?_

end Sys2Proof.Machine
end

