-- ==== Sys2Proof/Laws/KeepsCoherence.lean ====
section
/-! SUPPORT. What each operation of Machine/Coherence.lean may write, and that it keeps the invariant. -/

namespace Sys2Proof.Machine

set_option Elab.async false

theorem freshKeeper_keeps (a1 a2 s) : Keeps 0x8000 s (freshKeeper a1 a2 s) := by
  unfold freshKeeper
  try dsimp only
  repeat'
    first
    | with_reducible exact Keeps.refl _ _
    | with_reducible refine Keeps.ite ?_ ?_
    | with_reducible refine (setDir_keeps ..).step ?_
    | split

theorem twinLog_keeps (a1 a2 a3 a4 s) : Keeps 0x300000 s (twinLog a1 a2 a3 a4 s) := by
  unfold twinLog
  try dsimp only
  repeat'
    first
    | with_reducible exact Keeps.refl _ _
    | with_reducible refine Keeps.ite ?_ ?_
    | with_reducible refine (emit_keeps ..).step ?_
    | with_reducible refine (Keeps.span_mk _ _ ?_).step ?_
    | exact rfl

theorem noteTxn_keeps (a1 a2 s) : Keeps 0x80 s (noteTxn a1 a2 s) := by
  unfold noteTxn
  try dsimp only
  repeat'
    first
    | with_reducible exact Keeps.refl _ _
    | with_reducible refine Keeps.ite ?_ ?_
    | with_reducible refine (traceEvent_keeps ..).step ?_

theorem finishReq_keeps (a1 a2 s) : Keeps 0x13AA386 s (finishReq a1 a2 s) := by
  unfold finishReq
  try dsimp only
  repeat'
    first
    | with_reducible exact Keeps.refl _ _
    | with_reducible assumption
    | with_reducible refine Keeps.ite ?_ ?_
    | with_reducible refine (setDir_keeps ..).step ?_
    | with_reducible refine (answerDone_keeps ..).step ?_
    | with_reducible refine (performReq_keeps ..).step ?_
    | with_reducible refine (Keeps.snd (performReq_keeps ..) (by assumption)).step ?_
    | with_reducible refine (noteAnswer_keeps ..).step ?_
    | with_reducible refine (twinLog_keeps ..).step ?_
    | with_reducible refine (dropReq_keeps ..).step ?_
    | with_reducible refine (noteTxn_keeps ..).step ?_
    | with_reducible refine Keeps.foldl ?_ ?_
    | with_reducible refine Keeps.foldl_fst ?_ ?_
    | with_reducible refine Keeps.foldl_snd ?_ ?_
    | with_reducible refine Keeps.snd ?_ (by assumption)
    | with_reducible refine Keeps.fst ?_ (by assumption)
    | with_reducible refine Keeps.snd2 ?_ (by assumption)
    | with_reducible refine Keeps.snd3 ?_ (by assumption)
    | intro _ _ _
    | intro _ _
    | split

theorem lineLost_keeps (a1 s) : Keeps 0x1008382 s (lineLost a1 s) := by
  unfold lineLost
  try dsimp only
  repeat'
    first
    | with_reducible exact Keeps.refl _ _
    | with_reducible refine Keeps.ite ?_ ?_
    | with_reducible refine (setDir_keeps ..).step ?_
    | with_reducible refine (bumpObj_keeps ..).step ?_
    | with_reducible refine (memStore_keeps ..).step ?_

theorem finishTxn_keeps (a1 s) : Keeps 0x13AA386 s (finishTxn a1 s) := by
  unfold finishTxn
  try dsimp only
  repeat'
    first
    | with_reducible exact Keeps.refl _ _
    | with_reducible assumption
    | with_reducible refine Keeps.ite ?_ ?_
    | with_reducible refine (setDir_keeps ..).step ?_
    | with_reducible refine (State.setCoh_keeps _ _ ?_).step ?_
    | exact fun h => h
    | with_reducible refine (finishReq_keeps ..).step ?_
    | with_reducible refine Keeps.foldl ?_ ?_
    | with_reducible refine Keeps.foldl_fst ?_ ?_
    | with_reducible refine Keeps.foldl_snd ?_ ?_
    | with_reducible refine Keeps.snd ?_ (by assumption)
    | with_reducible refine Keeps.fst ?_ (by assumption)
    | with_reducible refine Keeps.snd2 ?_ (by assumption)
    | with_reducible refine Keeps.snd3 ?_ (by assumption)
    | intro _ _ _
    | intro _ _
    | split

theorem sendHeld_keeps (a1 s) : Keeps 0x208000 s (sendHeld a1 s) := by
  unfold sendHeld
  try dsimp only
  repeat'
    first
    | with_reducible exact Keeps.refl _ _
    | with_reducible refine Keeps.ite ?_ ?_
    | with_reducible refine (emit_keeps ..).step ?_
    | with_reducible refine (State.setCoh_keeps _ _ ?_).step ?_
    | exact fun h => h
    | split

theorem settle_keeps (s) : Keeps 0x13AA386 s (settle s) := by
  unfold settle
  try dsimp only
  repeat'
    first
    | with_reducible exact Keeps.refl _ _
    | with_reducible assumption
    | with_reducible refine Keeps.ite ?_ ?_
    | with_reducible refine (finishTxn_keeps ..).step ?_
    | with_reducible refine Keeps.foldl ?_ ?_
    | with_reducible refine Keeps.foldl_fst ?_ ?_
    | with_reducible refine Keeps.foldl_snd ?_ ?_
    | intro _ _ _

theorem setTxn_keeps (a1 s) : Keeps 0x8000 s (setTxn a1 s) := by
  unfold setTxn
  try dsimp only
  repeat'
    first
    | with_reducible exact Keeps.refl _ _
    | with_reducible refine Keeps.ite ?_ ?_
    | with_reducible refine (State.setCoh_keeps _ _ ?_).step ?_
    | exact fun h => h

theorem noRoom_keeps (a1 s) : Keeps 0x32A082 s (noRoom a1 s) := by
  unfold noRoom
  try dsimp only
  repeat'
    first
    | with_reducible exact Keeps.refl _ _
    | with_reducible refine Keeps.ite ?_ ?_
    | with_reducible refine (setReq_keeps ..).step ?_
    | with_reducible refine (answerRetry_keeps ..).step ?_

theorem startTxn_keeps (a1 s) : Keeps 0x13AA386 s (startTxn a1 s) := by
  unfold startTxn
  try dsimp only
  repeat'
    first
    | with_reducible exact Keeps.refl _ _
    | with_reducible assumption
    | with_reducible refine Keeps.ite ?_ ?_
    | with_reducible refine (setReq_keeps ..).step ?_
    | with_reducible refine (openTxn_keeps ..).step ?_
    | with_reducible refine (freshKeeper_keeps ..).step ?_
    | with_reducible refine (settle_keeps ..).step ?_
    | with_reducible refine Keeps.foldl ?_ ?_
    | with_reducible refine Keeps.foldl_fst ?_ ?_
    | with_reducible refine Keeps.foldl_snd ?_ ?_
    | intro _ _ _

theorem tryLock_keeps (a1 s) : Keeps 0x13AA386 s (tryLock a1 s) := by
  unfold tryLock
  try dsimp only
  repeat'
    first
    | with_reducible exact Keeps.refl _ _
    | with_reducible refine Keeps.ite ?_ ?_
    | with_reducible refine (answerDone_keeps ..).step ?_
    | with_reducible refine (bumpObj_keeps ..).step ?_
    | with_reducible refine (startTxn_keeps ..).step ?_
    | with_reducible refine (setReq_keeps ..).step ?_
    | with_reducible refine (openTxn_keeps ..).step ?_
    | with_reducible refine (noRoom_keeps ..).step ?_
    | with_reducible refine (setDir_keeps ..).step ?_
    | with_reducible refine (twinLog_keeps ..).step ?_
    | with_reducible refine (settle_keeps ..).step ?_
    | split

theorem serveLocal_keeps (a1 s) : Keeps 0x13AAB86 s (serveLocal a1 s) := by
  unfold serveLocal
  try dsimp only
  repeat'
    first
    | with_reducible exact Keeps.refl _ _
    | with_reducible assumption
    | with_reducible refine Keeps.ite ?_ ?_
    | with_reducible refine (answerDone_keeps ..).step ?_
    | with_reducible refine (performReq_keeps ..).step ?_
    | with_reducible refine (Keeps.snd (performReq_keeps ..) (by assumption)).step ?_
    | with_reducible refine (cacheAsk_keeps ..).step ?_
    | with_reducible refine (tryLock_keeps ..).step ?_
    | with_reducible refine (setReq_keeps ..).step ?_
    | with_reducible refine (cacheReady_keeps ..).step ?_
    | with_reducible refine (OKeeps.get (cacheReady_keeps ..) (by assumption)).step ?_
    | apply OKeeps.bind
    | with_reducible refine Keeps.getD ?_ ?_
    | with_reducible refine Keeps.getD_snd ?_ ?_
    | apply OKeeps.obind
    | refine OKeeps.map_snd ?_ fun _ => rfl
    | apply OKeeps.map
    | with_reducible refine OKeeps.pure ?_
    | with_reducible exact OKeeps.none
    | with_reducible refine OKeeps.some ?_
    | with_reducible refine OKeeps.ite ?_ ?_
    | intro _ _ _
    | intro _ _
    | split

theorem noteCheck_keeps (a1 a2 s) : Keeps 0x80 s (noteCheck a1 a2 s) := by
  unfold noteCheck
  try dsimp only
  repeat'
    first
    | with_reducible exact Keeps.refl _ _
    | with_reducible refine Keeps.ite ?_ ?_
    | with_reducible refine (traceEvent_keeps ..).step ?_

theorem askPieces_keeps (a1 a2 a3 s) : OKeeps 0x328080 s (·.2) (askPieces a1 a2 a3 s) := by
  induction a2 generalizing a1 a3 s with
  | nil =>
    unfold askPieces
    try dsimp only
    repeat'
      first
      | with_reducible exact Keeps.refl _ _
      | with_reducible assumption
      | with_reducible refine Keeps.ite ?_ ?_
      | with_reducible refine (askRemote_keeps ..).step ?_
      | with_reducible refine (OKeeps.get (askRemote_keeps ..) (by assumption)).step ?_
      | apply OKeeps.bind
      | with_reducible refine Keeps.getD ?_ ?_
      | with_reducible refine Keeps.getD_snd ?_ ?_
      | apply OKeeps.obind
      | refine OKeeps.map_snd ?_ fun _ => rfl
      | apply OKeeps.map
      | with_reducible refine OKeeps.pure ?_
      | with_reducible exact OKeeps.none
      | with_reducible refine OKeeps.some ?_
  | cons x l ih =>
    unfold askPieces
    try dsimp only
    repeat'
      first
      | with_reducible refine (ih ..).step ?_
      | with_reducible refine (OKeeps.get1 (ih ..) (by assumption)).step ?_
      | with_reducible exact Keeps.refl _ _
      | with_reducible assumption
      | with_reducible refine Keeps.ite ?_ ?_
      | with_reducible refine (askRemote_keeps ..).step ?_
      | with_reducible refine (OKeeps.get (askRemote_keeps ..) (by assumption)).step ?_
      | apply OKeeps.bind
      | with_reducible refine Keeps.getD ?_ ?_
      | with_reducible refine Keeps.getD_snd ?_ ?_
      | apply OKeeps.obind
      | refine OKeeps.map_snd ?_ fun _ => rfl
      | apply OKeeps.map
      | with_reducible refine OKeeps.pure ?_
      | with_reducible exact OKeeps.none
      | with_reducible refine OKeeps.some ?_
      | with_reducible refine OKeeps.ite ?_ ?_
      | with_reducible refine OKeeps.get ?_ (by assumption)
      | with_reducible refine OKeeps.get1 ?_ (by assumption)
      | with_reducible refine OKeeps.get2 ?_ (by assumption)
      | split

theorem serveReq_keeps (a1 s) : Keeps 0x17AEB86 s (serveReq a1 s) := by
  unfold serveReq
  try dsimp only
  repeat'
    first
    | with_reducible exact Keeps.refl _ _
    | with_reducible assumption
    | with_reducible refine Keeps.ite ?_ ?_
    | with_reducible refine (blockTxn_keeps ..).step ?_
    | with_reducible refine (Keeps.snd (blockTxn_keeps ..) (by assumption)).step ?_
    | with_reducible refine (serveLocal_keeps ..).step ?_
    | with_reducible refine (askPieces_keeps ..).step ?_
    | with_reducible refine (OKeeps.get1 (askPieces_keeps ..) (by assumption)).step ?_
    | with_reducible refine (answerDone_keeps ..).step ?_
    | with_reducible refine (setReq_keeps ..).step ?_
    | with_reducible refine (answerFail_keeps ..).step ?_
    | with_reducible refine (State.setCoh_keeps _ _ ?_).step ?_
    | exact fun h => h
    | with_reducible refine (placeReq_keeps ..).step ?_
    | with_reducible refine (Keeps.snd (placeReq_keeps ..) (by assumption)).step ?_
    | with_reducible refine (noteDecode_keeps ..).step ?_
    | with_reducible refine (noteCheck_keeps ..).step ?_
    | with_reducible refine Keeps.foldl ?_ ?_
    | with_reducible refine Keeps.foldl_fst ?_ ?_
    | with_reducible refine Keeps.foldl_snd ?_ ?_
    | apply OKeeps.bind
    | with_reducible refine Keeps.getD ?_ ?_
    | with_reducible refine Keeps.getD_snd ?_ ?_
    | apply OKeeps.obind
    | refine OKeeps.map_snd ?_ fun _ => rfl
    | apply OKeeps.map
    | with_reducible refine OKeeps.pure ?_
    | with_reducible exact OKeeps.none
    | with_reducible refine OKeeps.some ?_
    | with_reducible refine OKeeps.ite ?_ ?_
    | with_reducible refine Keeps.snd ?_ (by assumption)
    | with_reducible refine Keeps.fst ?_ (by assumption)
    | with_reducible refine Keeps.snd2 ?_ (by assumption)
    | with_reducible refine Keeps.snd3 ?_ (by assumption)
    | with_reducible refine OKeeps.get ?_ (by assumption)
    | with_reducible refine OKeeps.get1 ?_ (by assumption)
    | with_reducible refine OKeeps.get2 ?_ (by assumption)
    | intro _ _ _
    | intro _ _
    | split

theorem gateReq_keeps (a1 s) : Keeps 0x17AEB86 s (gateReq a1 s) := by
  unfold gateReq
  try dsimp only
  repeat'
    first
    | with_reducible exact Keeps.refl _ _
    | with_reducible refine Keeps.ite ?_ ?_
    | with_reducible refine (serveReq_keeps ..).step ?_
    | with_reducible refine (setReq_keeps ..).step ?_
    | split

theorem releaseGates_keeps (s) : Keeps 0x17AEB86 s (releaseGates s) := by
  unfold releaseGates
  try dsimp only
  repeat'
    first
    | with_reducible exact Keeps.refl _ _
    | with_reducible assumption
    | with_reducible refine Keeps.ite ?_ ?_
    | with_reducible refine (serveReq_keeps ..).step ?_
    | with_reducible refine Keeps.foldl ?_ ?_
    | with_reducible refine Keeps.foldl_fst ?_ ?_
    | with_reducible refine Keeps.foldl_snd ?_ ?_
    | with_reducible refine Keeps.snd ?_ (by assumption)
    | with_reducible refine Keeps.fst ?_ (by assumption)
    | with_reducible refine Keeps.snd2 ?_ (by assumption)
    | with_reducible refine Keeps.snd3 ?_ (by assumption)
    | intro _ _ _
    | intro _ _
    | split

theorem arrive_keeps (a1 a2 s) : Keeps 0x17AFB86 s (arrive a1 a2 s) := by
  unfold arrive
  extract_lets s1 s2 w s3 gone u
  have h1 : Keeps 0x17AFB86 s s1 := (linkTally_keeps ..).step ((tookId_keeps ..).mono)
  clear_value s1
  have h2 : Keeps 0x17AFB86 s s2 := (tenantCount_keeps ..).step h1
  clear_value s2
  have h3 : Keeps 0x17AFB86 s s3 := by
    refine Keeps.ite ((Keeps.span_mk s2 _ ?_).step h2) h2
    show _ = _
    exact (by rfl)
  clear_value s3
  split
  · exact h3
  · split
    · split
      · exact (setReq_keeps ..).step h3
      · split
        · exact (Keeps.out_mk u _).step ((serveReq_keeps ..).step h3)
        · exact h3
    · split
      · next e => exact (answerFail_keeps ..).step ((Keeps.snd2 (markReq_keeps ..) e).step h3)
      · next e => exact (gateReq_keeps ..).step ((Keeps.snd2 (markReq_keeps ..) e).step h3)
      · next e => exact (setReq_keeps ..).step ((Keeps.snd2 (markReq_keeps ..) e).step h3)

theorem transit_keeps (a1 a2 s) : OKeeps 0x220080 s (fun t => t) (transit a1 a2 s) := by
  unfold transit
  try dsimp only
  repeat'
    first
    | with_reducible exact Keeps.refl _ _
    | with_reducible assumption
    | with_reducible refine Keeps.ite ?_ ?_
    | with_reducible refine (sendKaf_keeps ..).step ?_
    | with_reducible refine Keeps.foldl ?_ ?_
    | with_reducible refine Keeps.foldl_fst ?_ ?_
    | with_reducible refine Keeps.foldl_snd ?_ ?_
    | apply OKeeps.bind
    | with_reducible refine Keeps.getD ?_ ?_
    | with_reducible refine Keeps.getD_snd ?_ ?_
    | apply OKeeps.obind
    | refine OKeeps.map_snd ?_ fun _ => rfl
    | apply OKeeps.map
    | with_reducible refine OKeeps.pure ?_
    | with_reducible exact OKeeps.none
    | with_reducible refine OKeeps.some ?_
    | with_reducible refine OKeeps.ite ?_ ?_
    | split
    | intro _ _ _

theorem kafArrive_keeps (a1 a2 a3 a4 a5 s) : Keeps 0x17AFB86 s (kafArrive a1 a2 a3 a4 a5 s) := by
  unfold kafArrive
  try dsimp only
  repeat'
    first
    | with_reducible exact Keeps.refl _ _
    | with_reducible assumption
    | with_reducible refine Keeps.ite ?_ ?_
    | with_reducible refine (arrive_keeps ..).step ?_
    | with_reducible refine (transit_keeps ..).step ?_
    | with_reducible refine (OKeeps.get (transit_keeps ..) (by assumption)).step ?_
    | apply OKeeps.bind
    | with_reducible refine Keeps.getD ?_ ?_
    | with_reducible refine Keeps.getD_snd ?_ ?_
    | apply OKeeps.obind
    | refine OKeeps.map_snd ?_ fun _ => rfl
    | apply OKeeps.map
    | with_reducible refine OKeeps.pure ?_
    | with_reducible exact OKeeps.none
    | with_reducible refine OKeeps.some ?_
    | with_reducible refine OKeeps.ite ?_ ?_
    | with_reducible refine OKeeps.get ?_ (by assumption)
    | with_reducible refine OKeeps.get1 ?_ (by assumption)
    | with_reducible refine OKeeps.get2 ?_ (by assumption)
    | intro _ _ _
    | intro _ _
    | split

theorem execRdShared_keeps (a1 a2 s) : RKeeps 0x17AFB86 s (execRdShared a1 a2 s) := by
  unfold execRdShared
  try dsimp only
  repeat'
    first
    | with_reducible exact Keeps.refl _ _
    | with_reducible refine Keeps.ite ?_ ?_
    | with_reducible refine RKeeps.next ?_
    | with_reducible refine RKeeps.ite ?_ ?_
    | with_reducible refine (kafArrive_keeps ..).step ?_

theorem execRdOwn_keeps (a1 a2 s) : RKeeps 0x17AFB86 s (execRdOwn a1 a2 s) := by
  unfold execRdOwn
  try dsimp only
  repeat'
    first
    | with_reducible exact Keeps.refl _ _
    | with_reducible refine Keeps.ite ?_ ?_
    | with_reducible refine RKeeps.next ?_
    | with_reducible refine RKeeps.ite ?_ ?_
    | with_reducible refine (kafArrive_keeps ..).step ?_

theorem execUpgrade_keeps (a1 a2 s) : RKeeps 0x17AFB86 s (execUpgrade a1 a2 s) := by
  unfold execUpgrade
  try dsimp only
  repeat'
    first
    | with_reducible exact Keeps.refl _ _
    | with_reducible refine Keeps.ite ?_ ?_
    | with_reducible refine RKeeps.next ?_
    | with_reducible refine RKeeps.ite ?_ ?_
    | with_reducible refine (kafArrive_keeps ..).step ?_

theorem execRdUncached_keeps (a1 a2 s) : RKeeps 0x17AFB86 s (execRdUncached a1 a2 s) := by
  unfold execRdUncached
  try dsimp only
  repeat'
    first
    | with_reducible exact Keeps.refl _ _
    | with_reducible refine Keeps.ite ?_ ?_
    | with_reducible refine RKeeps.next ?_
    | with_reducible refine RKeeps.ite ?_ ?_
    | with_reducible refine (kafArrive_keeps ..).step ?_

theorem execWrUncached_keeps (a1 a2 s) : RKeeps 0x17AFB86 s (execWrUncached a1 a2 s) := by
  unfold execWrUncached
  try dsimp only
  repeat'
    first
    | with_reducible exact Keeps.refl _ _
    | with_reducible refine Keeps.ite ?_ ?_
    | with_reducible refine RKeeps.next ?_
    | with_reducible refine RKeeps.ite ?_ ?_
    | with_reducible refine (kafArrive_keeps ..).step ?_

theorem execEvictClean_keeps (a1 a2 s) : RKeeps 0x17AFB86 s (execEvictClean a1 a2 s) := by
  unfold execEvictClean
  try dsimp only
  repeat'
    first
    | with_reducible exact Keeps.refl _ _
    | with_reducible refine Keeps.ite ?_ ?_
    | with_reducible refine RKeeps.next ?_
    | with_reducible refine RKeeps.ite ?_ ?_
    | with_reducible refine (kafArrive_keeps ..).step ?_

theorem execBlkRd_keeps (a1 a2 s) : RKeeps 0x17AFB86 s (execBlkRd a1 a2 s) := by
  unfold execBlkRd
  try dsimp only
  repeat'
    first
    | with_reducible exact Keeps.refl _ _
    | with_reducible refine Keeps.ite ?_ ?_
    | with_reducible refine RKeeps.next ?_
    | with_reducible refine RKeeps.ite ?_ ?_
    | with_reducible refine (kafArrive_keeps ..).step ?_

theorem execBlkWr_keeps (a1 a2 s) : RKeeps 0x17AFB86 s (execBlkWr a1 a2 s) := by
  unfold execBlkWr
  try dsimp only
  repeat'
    first
    | with_reducible exact Keeps.refl _ _
    | with_reducible refine Keeps.ite ?_ ?_
    | with_reducible refine RKeeps.next ?_
    | with_reducible refine RKeeps.ite ?_ ?_
    | with_reducible refine (kafArrive_keeps ..).step ?_

theorem execSpanRemoteForward_keeps (a1 a2 s) : RKeeps 0x17AFB86 s (execSpanRemoteForward a1 a2 s) := by
  unfold execSpanRemoteForward
  try dsimp only
  repeat'
    first
    | with_reducible exact Keeps.refl _ _
    | with_reducible assumption
    | with_reducible refine Keeps.ite ?_ ?_
    | with_reducible refine RKeeps.next ?_
    | with_reducible refine RKeeps.ite ?_ ?_
    | with_reducible refine (kafArrive_keeps ..).step ?_
    | with_reducible refine (transit_keeps ..).step ?_
    | with_reducible refine (OKeeps.get (transit_keeps ..) (by assumption)).step ?_
    | apply OKeeps.bind
    | with_reducible refine Keeps.getD ?_ ?_
    | with_reducible refine Keeps.getD_snd ?_ ?_
    | apply OKeeps.obind
    | refine OKeeps.map_snd ?_ fun _ => rfl
    | apply OKeeps.map
    | with_reducible refine OKeeps.pure ?_
    | with_reducible exact OKeeps.none
    | with_reducible refine OKeeps.some ?_
    | with_reducible refine OKeeps.ite ?_ ?_
    | with_reducible refine OKeeps.get ?_ (by assumption)
    | with_reducible refine OKeeps.get1 ?_ (by assumption)
    | with_reducible refine OKeeps.get2 ?_ (by assumption)
    | split

theorem writeBack_keeps (a1 a2 a3 a4 a5 s) : Keeps 0x1008380 s (writeBack a1 a2 a3 a4 a5 s) := by
  unfold writeBack
  try dsimp only
  repeat'
    first
    | with_reducible exact Keeps.refl _ _
    | with_reducible refine Keeps.ite ?_ ?_
    | with_reducible refine (setDir_keeps ..).step ?_
    | with_reducible refine (State.setCoh_keeps _ _ ?_).step ?_
    | exact fun h => h
    | with_reducible refine (memStore_keeps ..).step ?_

theorem serveWb_keeps (a1 s) : Keeps 0x17AE386 s (serveWb a1 s) := by
  unfold serveWb
  try dsimp only
  repeat'
    first
    | with_reducible exact Keeps.refl _ _
    | with_reducible refine Keeps.ite ?_ ?_
    | with_reducible refine (writeBack_keeps ..).step ?_
    | with_reducible refine (answerDone_keeps ..).step ?_
    | with_reducible refine (twinLog_keeps ..).step ?_
    | with_reducible refine (placeReq_keeps ..).step ?_
    | with_reducible refine (Keeps.snd (placeReq_keeps ..) (by assumption)).step ?_
    | with_reducible refine (answerFail_keeps ..).step ?_
    | with_reducible refine (settle_keeps ..).step ?_
    | with_reducible refine (noteDecode_keeps ..).step ?_
    | with_reducible refine Keeps.snd ?_ (by assumption)
    | with_reducible refine Keeps.fst ?_ (by assumption)
    | with_reducible refine Keeps.snd2 ?_ (by assumption)
    | with_reducible refine Keeps.snd3 ?_ (by assumption)
    | split

theorem execWbDirty_keeps (a1 a2 s) : RKeeps 0x17AF386 s (execWbDirty a1 a2 s) := by
  unfold execWbDirty
  try dsimp only
  repeat'
    first
    | with_reducible exact Keeps.refl _ _
    | with_reducible refine Keeps.ite ?_ ?_
    | with_reducible refine RKeeps.next ?_
    | with_reducible refine RKeeps.ite ?_ ?_
    | with_reducible refine (serveWb_keeps ..).step ?_
    | with_reducible refine (linkTally_keeps ..).step ?_
    | with_reducible refine (setReq_keeps ..).step ?_
    | with_reducible refine (tookId_keeps ..).step ?_

theorem nextCopy_keeps (a1 a2 s) : Keeps 0x1208382 s (nextCopy a1 a2 s) := by
  unfold nextCopy
  try dsimp only
  repeat'
    first
    | with_reducible exact Keeps.refl _ _
    | with_reducible refine Keeps.ite ?_ ?_
    | with_reducible refine (emit_keeps ..).step ?_
    | with_reducible refine (lineLost_keeps ..).step ?_
    | with_reducible refine (setTxn_keeps ..).step ?_
    | split

theorem applyRsp_keeps (a1 a2 a3 a4 a5 s) : Keeps 0x1008380 s (applyRsp a1 a2 a3 a4 a5 s) := by
  unfold applyRsp
  try dsimp only
  repeat'
    first
    | with_reducible exact Keeps.refl _ _
    | with_reducible refine Keeps.ite ?_ ?_
    | with_reducible refine (setDir_keeps ..).step ?_
    | with_reducible refine (memStore_keeps ..).step ?_

theorem snoopAnswer_keeps (a1 a2 a3 a4 s) : Keeps 0x13AA386 s (snoopAnswer a1 a2 a3 a4 s) := by
  unfold snoopAnswer
  try dsimp only
  repeat'
    first
    | with_reducible exact Keeps.refl _ _
    | with_reducible refine Keeps.ite ?_ ?_
    | with_reducible refine (nextCopy_keeps ..).step ?_
    | with_reducible refine (applyRsp_keeps ..).step ?_
    | with_reducible refine (sendHeld_keeps ..).step ?_
    | with_reducible refine (settle_keeps ..).step ?_
    | with_reducible refine (setTxn_keeps ..).step ?_
    | split

theorem execSnoopResponse_keeps (a1 a2 s) : RKeeps 0x13AA386 s (execSnoopResponse a1 a2 s) := by
  unfold execSnoopResponse
  try dsimp only
  repeat'
    first
    | with_reducible exact Keeps.refl _ _
    | with_reducible refine Keeps.ite ?_ ?_
    | with_reducible refine RKeeps.next ?_
    | with_reducible refine RKeeps.ite ?_ ?_
    | with_reducible refine (snoopAnswer_keeps ..).step ?_

theorem execRspCopy_keeps (a1 a2 s) : RKeeps 0x13AA386 s (execRspCopy a1 a2 s) := by
  unfold execRspCopy
  try dsimp only
  repeat'
    first
    | with_reducible exact Keeps.refl _ _
    | with_reducible refine Keeps.ite ?_ ?_
    | with_reducible refine RKeeps.next ?_
    | with_reducible refine RKeeps.ite ?_ ?_
    | with_reducible refine (setDir_keeps ..).step ?_
    | with_reducible refine (memStore_keeps ..).step ?_
    | with_reducible refine (settle_keeps ..).step ?_
    | with_reducible refine (setTxn_keeps ..).step ?_
    | split

theorem execRspWbPend_keeps (a1 a2 s) : RKeeps 0x13AA386 s (execRspWbPend a1 a2 s) := by
  unfold execRspWbPend
  try dsimp only
  repeat'
    first
    | with_reducible exact Keeps.refl _ _
    | with_reducible refine Keeps.ite ?_ ?_
    | with_reducible refine RKeeps.next ?_
    | with_reducible refine RKeeps.ite ?_ ?_
    | with_reducible refine (sendHeld_keeps ..).step ?_
    | with_reducible refine (settle_keeps ..).step ?_
    | with_reducible refine (setTxn_keeps ..).step ?_
    | split

theorem execForwardedData_keeps (a1 a2 s) : RKeeps 0x228080 s (execForwardedData a1 a2 s) := by
  unfold execForwardedData
  try dsimp only
  repeat'
    first
    | with_reducible exact Keeps.refl _ _
    | with_reducible refine Keeps.ite ?_ ?_
    | with_reducible refine RKeeps.next ?_
    | with_reducible refine RKeeps.ite ?_ ?_
    | with_reducible refine (sendKaf_keeps ..).step ?_
    | with_reducible refine (linkTally_keeps ..).step ?_
    | with_reducible refine (setTxn_keeps ..).step ?_
    | split

theorem execFwdAck_keeps (a1 a2 s) : RKeeps 0x13AA386 s (execFwdAck a1 a2 s) := by
  unfold execFwdAck
  try dsimp only
  repeat'
    first
    | with_reducible exact Keeps.refl _ _
    | with_reducible refine Keeps.ite ?_ ?_
    | with_reducible refine RKeeps.next ?_
    | with_reducible refine RKeeps.ite ?_ ?_
    | with_reducible refine (settle_keeps ..).step ?_
    | with_reducible refine (setTxn_keeps ..).step ?_
    | split

theorem execLineLockAcquire_keeps (a1 s) : RKeeps 0x17AEB86 s (execLineLockAcquire a1 s) := by
  unfold execLineLockAcquire
  try dsimp only
  repeat'
    first
    | with_reducible exact Keeps.refl _ _
    | with_reducible refine Keeps.ite ?_ ?_
    | with_reducible refine RKeeps.next ?_
    | with_reducible refine RKeeps.ite ?_ ?_
    | with_reducible refine (serveReq_keeps ..).step ?_
    | with_reducible refine (tryLock_keeps ..).step ?_
    | split

theorem cxlArrive_keeps (a1 a2 a3 a4 a5 s) : Keeps 0x17AFB86 s (cxlArrive a1 a2 a3 a4 a5 s) := by
  unfold cxlArrive
  try dsimp only
  repeat'
    first
    | with_reducible exact Keeps.refl _ _
    | with_reducible refine Keeps.ite ?_ ?_
    | with_reducible refine (emit_keeps ..).step ?_
    | with_reducible refine (arrive_keeps ..).step ?_

theorem execCxlMemRd_keeps (a1 a2 a3 a4 s) : RKeeps 0x17AFB86 s (execCxlMemRd a1 a2 a3 a4 s) := by
  unfold execCxlMemRd
  try dsimp only
  repeat'
    first
    | with_reducible exact Keeps.refl _ _
    | with_reducible refine Keeps.ite ?_ ?_
    | with_reducible refine RKeeps.next ?_
    | with_reducible refine RKeeps.ite ?_ ?_
    | with_reducible refine (cxlArrive_keeps ..).step ?_

theorem execCxlMemRdData_keeps (a1 a2 a3 s) : RKeeps 0x17AFB86 s (execCxlMemRdData a1 a2 a3 s) := by
  unfold execCxlMemRdData
  try dsimp only
  repeat'
    first
    | with_reducible exact Keeps.refl _ _
    | with_reducible refine Keeps.ite ?_ ?_
    | with_reducible refine RKeeps.next ?_
    | with_reducible refine RKeeps.ite ?_ ?_
    | with_reducible refine (cxlArrive_keeps ..).step ?_

theorem execCxlMemInv_keeps (a1 a2 a3 a4 s) : RKeeps 0x17AFB86 s (execCxlMemInv a1 a2 a3 a4 s) := by
  unfold execCxlMemInv
  try dsimp only
  repeat'
    first
    | with_reducible exact Keeps.refl _ _
    | with_reducible refine Keeps.ite ?_ ?_
    | with_reducible refine RKeeps.next ?_
    | with_reducible refine RKeeps.ite ?_ ?_
    | with_reducible refine (cxlArrive_keeps ..).step ?_

theorem execCxlMemClnEvct_keeps (a1 a2 a3 s) : RKeeps 0x17AFB86 s (execCxlMemClnEvct a1 a2 a3 s) := by
  unfold execCxlMemClnEvct
  try dsimp only
  repeat'
    first
    | with_reducible exact Keeps.refl _ _
    | with_reducible refine Keeps.ite ?_ ?_
    | with_reducible refine RKeeps.next ?_
    | with_reducible refine RKeeps.ite ?_ ?_
    | with_reducible refine (cxlArrive_keeps ..).step ?_

theorem execCxlMemWr_keeps (a1 a2 a3 a4 a5 a6 s) : RKeeps 0x17AFB86 s (execCxlMemWr a1 a2 a3 a4 a5 a6 s) := by
  unfold execCxlMemWr
  try dsimp only
  repeat'
    first
    | with_reducible exact Keeps.refl _ _
    | with_reducible refine Keeps.ite ?_ ?_
    | with_reducible refine RKeeps.next ?_
    | with_reducible refine RKeeps.ite ?_ ?_
    | with_reducible refine (writeBack_keeps ..).step ?_
    | with_reducible refine (answerDone_keeps ..).step ?_
    | with_reducible refine (placeReq_keeps ..).step ?_
    | with_reducible refine (Keeps.snd (placeReq_keeps ..) (by assumption)).step ?_
    | with_reducible refine (tookId_keeps ..).step ?_
    | with_reducible refine (arrive_keeps ..).step ?_
    | with_reducible refine (settle_keeps ..).step ?_
    | with_reducible refine Keeps.snd ?_ (by assumption)
    | with_reducible refine Keeps.fst ?_ (by assumption)
    | with_reducible refine Keeps.snd2 ?_ (by assumption)
    | with_reducible refine Keeps.snd3 ?_ (by assumption)
    | split

theorem execBiSnoopResponse_keeps (a1 a2 a3 s) : RKeeps 0x13AA386 s (execBiSnoopResponse a1 a2 a3 s) := by
  unfold execBiSnoopResponse
  try dsimp only
  repeat'
    first
    | with_reducible exact Keeps.refl _ _
    | with_reducible refine Keeps.ite ?_ ?_
    | with_reducible refine RKeeps.next ?_
    | with_reducible refine RKeeps.ite ?_ ?_
    | with_reducible refine (emit_keeps ..).step ?_
    | with_reducible refine (snoopAnswer_keeps ..).step ?_

theorem purgeLine_keeps (a1 s a2) : Keeps 0x1208382 s (purgeLine a1 s a2) := by
  unfold purgeLine
  try dsimp only
  repeat'
    first
    | with_reducible exact Keeps.refl _ _
    | with_reducible refine Keeps.ite ?_ ?_
    | with_reducible refine (setDir_keeps ..).step ?_
    | with_reducible refine (nextCopy_keeps ..).step ?_
    | with_reducible refine (State.setCoh_keeps _ _ ?_).step ?_
    | exact fun h => h
    | with_reducible refine (lineLost_keeps ..).step ?_
    | split

theorem unwaitTxn_keeps (a1 s a2) : Keeps 0x1008380 s (unwaitTxn a1 s a2) := by
  unfold unwaitTxn
  try dsimp only
  repeat'
    first
    | with_reducible exact Keeps.refl _ _
    | with_reducible refine Keeps.ite ?_ ?_
    | with_reducible refine (applyRsp_keeps ..).step ?_
    | with_reducible refine (setTxn_keeps ..).step ?_
    | split

theorem failAgent_keeps (a1 s) : Keeps 0x13AA386 s (failAgent a1 s) := by
  unfold failAgent
  try dsimp only
  repeat'
    first
    | with_reducible exact Keeps.refl _ _
    | with_reducible assumption
    | with_reducible refine Keeps.ite ?_ ?_
    | with_reducible refine (tollLeave_keeps ..).step ?_
    | with_reducible refine (unwaitTxn_keeps ..).step ?_
    | with_reducible refine (State.setCoh_keeps _ _ ?_).step ?_
    | exact fun h => h
    | exact fun h => ⟨h.1, tput_rising _ _ h.2 _⟩
    | with_reducible refine (purgeLine_keeps ..).step ?_
    | with_reducible refine (settle_keeps ..).step ?_
    | with_reducible refine Keeps.foldl ?_ ?_
    | with_reducible refine Keeps.foldl_fst ?_ ?_
    | with_reducible refine Keeps.foldl_snd ?_ ?_
    | with_reducible refine Keeps.snd ?_ (by assumption)
    | with_reducible refine Keeps.fst ?_ (by assumption)
    | with_reducible refine Keeps.snd2 ?_ (by assumption)
    | with_reducible refine Keeps.snd3 ?_ (by assumption)
    | intro _ _ _

theorem execSnoopTimeout_keeps (a1 a2 s) : RKeeps 0x13AA397 s (execSnoopTimeout a1 a2 s) := by
  unfold execSnoopTimeout
  try dsimp only
  repeat'
    first
    | with_reducible exact Keeps.refl _ _
    | with_reducible refine Keeps.ite ?_ ?_
    | with_reducible refine RKeeps.next ?_
    | with_reducible refine RKeeps.ite ?_ ?_
    | with_reducible refine (failAgent_keeps ..).step ?_
    | with_reducible refine (carryTo_keeps ..).step ?_
    | split

theorem execAgentFailed_keeps (a1 s) : RKeeps 0x13AA386 s (execAgentFailed a1 s) := by
  unfold execAgentFailed
  try dsimp only
  repeat'
    first
    | with_reducible exact Keeps.refl _ _
    | with_reducible refine Keeps.ite ?_ ?_
    | with_reducible refine RKeeps.next ?_
    | with_reducible refine RKeeps.ite ?_ ?_
    | with_reducible refine (failAgent_keeps ..).step ?_

theorem declareFailed_keeps (a1 s) : Keeps 0x13AA386 s (declareFailed a1 s).2 := by
  unfold declareFailed
  try dsimp only
  repeat'
    first
    | with_reducible exact Keeps.refl _ _
    | with_reducible refine Keeps.ite ?_ ?_
    | with_reducible refine Keeps.ite_snd ?_ ?_
    | with_reducible refine (failAgent_keeps ..).step ?_

theorem execDeclareAgentFailed_keeps (a1 s) : RKeeps 0x13AA386 s (execDeclareAgentFailed a1 s) := by
  unfold execDeclareAgentFailed
  try dsimp only
  repeat'
    first
    | with_reducible exact Keeps.refl _ _
    | with_reducible assumption
    | with_reducible refine Keeps.ite ?_ ?_
    | with_reducible refine RKeeps.next ?_
    | with_reducible refine RKeeps.ite ?_ ?_
    | with_reducible refine (declareFailed_keeps ..).step ?_
    | with_reducible refine (Keeps.snd (declareFailed_keeps ..) (by assumption)).step ?_
    | with_reducible refine commanded_keeps ?_ ?_
    | split
    | intro _ _ _
    | intro _ _

theorem execAgentPurgeEnd_keeps (a1 s) : RKeeps 0x8000 s (execAgentPurgeEnd a1 s) := by
  unfold execAgentPurgeEnd
  try dsimp only
  repeat'
    first
    | with_reducible exact Keeps.refl _ _
    | with_reducible refine Keeps.ite ?_ ?_
    | with_reducible refine RKeeps.next ?_
    | with_reducible refine RKeeps.ite ?_ ?_
    | with_reducible refine (State.setCoh_keeps _ _ ?_).step ?_
    | exact fun h => ⟨h.1, tput_rising _ _ h.2 _⟩

theorem agentTrained_keeps (a1 s) : Keeps 0x8000 s (agentTrained a1 s) := by
  unfold agentTrained
  try dsimp only
  repeat'
    first
    | with_reducible exact Keeps.refl _ _
    | with_reducible refine Keeps.ite ?_ ?_
    | with_reducible refine (State.setCoh_keeps _ _ ?_).step ?_
    | exact fun h => ⟨h.1, tput_rising _ _ h.2 _⟩

theorem execEscrowRecallWalk_keeps (a1 s) : RKeeps 0x13AA386 s (execEscrowRecallWalk a1 s) := by
  unfold execEscrowRecallWalk
  try dsimp only
  repeat'
    first
    | with_reducible exact Keeps.refl _ _
    | with_reducible assumption
    | with_reducible refine Keeps.ite ?_ ?_
    | with_reducible refine RKeeps.next ?_
    | with_reducible refine RKeeps.ite ?_ ?_
    | with_reducible refine (openTxn_keeps ..).step ?_
    | with_reducible refine (settle_keeps ..).step ?_
    | with_reducible refine Keeps.foldl ?_ ?_
    | with_reducible refine Keeps.foldl_fst ?_ ?_
    | with_reducible refine Keeps.foldl_snd ?_ ?_
    | split
    | intro _ _ _

theorem remoteFlight_keeps (a1 a2 a3 s) : Keeps 0x323C82 s (remoteFlight a1 a2 a3 s) := by
  unfold remoteFlight
  try dsimp only
  repeat'
    first
    | with_reducible exact Keeps.refl _ _
    | with_reducible refine Keeps.ite ?_ ?_
    | with_reducible refine (setFlight_keeps ..).step ?_
    | with_reducible refine (complete_keeps ..).step ?_
    | split

theorem remoteReq_keeps (a1 a2 a3 s) : Keeps 0x13AA386 s (remoteReq a1 a2 a3 s) := by
  unfold remoteReq
  try dsimp only
  repeat'
    first
    | with_reducible exact Keeps.refl _ _
    | with_reducible assumption
    | with_reducible refine Keeps.ite ?_ ?_
    | with_reducible refine (performReq_keeps ..).step ?_
    | with_reducible refine (Keeps.snd (performReq_keeps ..) (by assumption)).step ?_
    | with_reducible refine (setReq_keeps ..).step ?_
    | with_reducible refine (answerFail_keeps ..).step ?_
    | with_reducible refine Keeps.foldl ?_ ?_
    | with_reducible refine Keeps.foldl_fst ?_ ?_
    | with_reducible refine Keeps.foldl_snd ?_ ?_
    | with_reducible refine Keeps.snd ?_ (by assumption)
    | with_reducible refine Keeps.fst ?_ (by assumption)
    | with_reducible refine Keeps.snd2 ?_ (by assumption)
    | with_reducible refine Keeps.snd3 ?_ (by assumption)
    | intro _ _ _
    | intro _ _
    | split

theorem execBlkData_keeps (a1 a2 s) : RKeeps 0x13ABF86 s (execBlkData a1 a2 s) := by
  unfold execBlkData
  try dsimp only
  repeat'
    first
    | with_reducible exact Keeps.refl _ _
    | with_reducible refine Keeps.ite ?_ ?_
    | with_reducible refine RKeeps.next ?_
    | with_reducible refine RKeeps.ite ?_ ?_
    | with_reducible refine (remoteReq_keeps ..).step ?_
    | with_reducible refine (linkTally_keeps ..).step ?_
    | with_reducible refine (remoteFlight_keeps ..).step ?_
    | with_reducible refine (State.setCoh_keeps _ _ ?_).step ?_
    | exact fun h => h
    | split

theorem execRelayedWriteAck_keeps (a1 s) : RKeeps 0x32A082 s (execRelayedWriteAck a1 s) := by
  unfold execRelayedWriteAck
  try dsimp only
  repeat'
    first
    | with_reducible exact Keeps.refl _ _
    | with_reducible refine Keeps.ite ?_ ?_
    | with_reducible refine RKeeps.next ?_
    | with_reducible refine RKeeps.ite ?_ ?_
    | with_reducible refine (answerDone_keeps ..).step ?_
    | split

theorem blockRead_keeps (a1 s) : Keeps 0x13ABF86 s (blockRead a1 s) := by
  unfold blockRead
  try dsimp only
  repeat'
    first
    | with_reducible exact Keeps.refl _ _
    | with_reducible assumption
    | with_reducible refine Keeps.ite ?_ ?_
    | with_reducible refine (setFlight_keeps ..).step ?_
    | with_reducible refine (serveLocal_keeps ..).step ?_
    | with_reducible refine (nvmeDrop_keeps ..).step ?_
    | with_reducible refine (answerFail_keeps ..).step ?_
    | with_reducible refine (complete_keeps ..).step ?_
    | with_reducible refine (cacheFill_keeps ..).step ?_
    | with_reducible refine (OKeeps.get (cacheFill_keeps ..) (by assumption)).step ?_
    | with_reducible refine Keeps.foldl ?_ ?_
    | with_reducible refine Keeps.foldl_fst ?_ ?_
    | with_reducible refine Keeps.foldl_snd ?_ ?_
    | apply OKeeps.bind
    | with_reducible refine Keeps.getD ?_ ?_
    | with_reducible refine Keeps.getD_snd ?_ ?_
    | apply OKeeps.obind
    | refine OKeeps.map_snd ?_ fun _ => rfl
    | apply OKeeps.map
    | with_reducible refine OKeeps.pure ?_
    | with_reducible exact OKeeps.none
    | with_reducible refine OKeeps.some ?_
    | with_reducible refine OKeeps.ite ?_ ?_
    | with_reducible refine Keeps.snd ?_ (by assumption)
    | with_reducible refine Keeps.fst ?_ (by assumption)
    | with_reducible refine Keeps.snd2 ?_ (by assumption)
    | with_reducible refine Keeps.snd3 ?_ (by assumption)
    | with_reducible refine OKeeps.get ?_ (by assumption)
    | with_reducible refine OKeeps.get1 ?_ (by assumption)
    | with_reducible refine OKeeps.get2 ?_ (by assumption)
    | intro _ _ _
    | intro _ _
    | split

theorem execTierCacheMiss_keeps (a1 s) : RKeeps 0x13ABF86 s (execTierCacheMiss a1 s) := by
  unfold execTierCacheMiss
  try dsimp only
  repeat'
    first
    | with_reducible exact Keeps.refl _ _
    | with_reducible refine Keeps.ite ?_ ?_
    | with_reducible refine RKeeps.next ?_
    | with_reducible refine RKeeps.ite ?_ ?_
    | with_reducible refine (blockRead_keeps ..).step ?_

end Sys2Proof.Machine
end

