-- ==== Sys2Proof/Laws/KeepsFencing.lean ====
section
/-! SUPPORT. What each operation of Machine/Fencing.lean may write, and that it keeps the invariant. -/

namespace Sys2Proof.Machine

set_option Elab.async false

theorem belowRating_keeps (a1 s) : Keeps 0x200086 s (belowRating a1 s) := by
  unfold belowRating
  try dsimp only
  repeat'
    first
    | with_reducible exact Keeps.refl _ _
    | with_reducible assumption
    | with_reducible refine Keeps.ite ?_ ?_
    | with_reducible refine (emcyRaise_keeps ..).step ?_
    | with_reducible refine (telemetry_keeps ..).step ?_

theorem fenceFlight_keeps (a1 s a2) : Keeps 0x327C82 s (fenceFlight a1 s a2) := by
  unfold fenceFlight
  try dsimp only
  repeat'
    first
    | with_reducible exact Keeps.refl _ _
    | with_reducible assumption
    | with_reducible refine Keeps.ite ?_ ?_
    | with_reducible refine (setFlight_keeps ..).step ?_
    | with_reducible refine (cancelWork_keeps ..).step ?_
    | with_reducible refine (spanSend_keeps ..).step ?_
    | with_reducible refine (complete_keeps ..).step ?_
    | with_reducible refine (faultDrop_keeps ..).step ?_
    | with_reducible refine (workEnded_keeps ..).step ?_
    | with_reducible refine Keeps.foldl ?_ ?_
    | with_reducible refine Keeps.foldl_fst ?_ ?_
    | with_reducible refine Keeps.foldl_snd ?_ ?_
    | intro _ _ _
    | intro _ _
    | split

theorem fenceCore_keeps (a1 a2 s) : Keeps 0x1367F86 s (fenceCore a1 a2 s) := by
  unfold fenceCore
  try dsimp only
  repeat'
    first
    | with_reducible exact Keeps.refl _ _
    | with_reducible assumption
    | with_reducible refine Keeps.ite ?_ ?_
    | with_reducible refine (logEvent_keeps ..).step ?_
    | with_reducible refine (sinkCore_keeps ..).step ?_
    | with_reducible refine (swapAll_keeps ..).step ?_
    | with_reducible refine (State.setXl_keeps _ _ ?_).step ?_
    | with_reducible refine (fenceFlight_keeps ..).step ?_
    | with_reducible refine (setCore_keeps ..).step ?_
    | with_reducible refine (freeFrame_keeps ..).step ?_
    | with_reducible refine Keeps.foldl ?_ ?_
    | with_reducible refine Keeps.foldl_fst ?_ ?_
    | with_reducible refine Keeps.foldl_snd ?_ ?_
    | with_reducible refine Keeps.snd ?_ (by assumption)
    | with_reducible refine Keeps.fst ?_ (by assumption)
    | with_reducible refine Keeps.snd2 ?_ (by assumption)
    | with_reducible refine Keeps.snd3 ?_ (by assumption)
    | exact fun h => Xlate.ok_of h rfl
    | exact fun h => le_trans (List.length_filter_le _ _) h
    | exact fun h => (List.length_map _).trans_le h
    | exact fun h => le_trans List.length_erase_le h
    | intro _ _ _
    | intro _ _
    | split

theorem fence_keeps (a1 a2 s) : Keeps 0x1367F86 s (fence a1 a2 s) := by
  unfold fence
  try dsimp only
  repeat'
    first
    | with_reducible exact Keeps.refl _ _
    | with_reducible refine Keeps.ite ?_ ?_
    | with_reducible refine (fenceCore_keeps ..).step ?_
    | with_reducible refine (belowRating_keeps ..).step ?_
    | split

theorem execCheckTile_keeps (a1 a2 s) : RKeeps 0x1367F86 s (execCheckTile a1 a2 s) := by
  unfold execCheckTile
  try dsimp only
  repeat'
    first
    | with_reducible exact Keeps.refl _ _
    | with_reducible refine Keeps.ite ?_ ?_
    | with_reducible refine RKeeps.next ?_
    | with_reducible refine RKeeps.ite ?_ ?_
    | with_reducible refine (fence_keeps ..).step ?_
    | with_reducible refine (setCore_keeps ..).step ?_

theorem execCoreWatchdog_keeps (a1 s) : RKeeps 0x1367F97 s (execCoreWatchdog a1 s) := by
  unfold execCoreWatchdog
  try dsimp only
  repeat'
    first
    | with_reducible exact Keeps.refl _ _
    | with_reducible refine Keeps.ite ?_ ?_
    | with_reducible refine RKeeps.next ?_
    | with_reducible refine RKeeps.ite ?_ ?_
    | with_reducible refine (fence_keeps ..).step ?_
    | with_reducible refine (carryTo_keeps ..).step ?_
    | split

theorem execCoreSramUncorrectable_keeps (a1 s) : RKeeps 0x1367F86 s (execCoreSramUncorrectable a1 s) := by
  unfold execCoreSramUncorrectable
  try dsimp only
  repeat'
    first
    | with_reducible exact Keeps.refl _ _
    | with_reducible refine Keeps.ite ?_ ?_
    | with_reducible refine RKeeps.next ?_
    | with_reducible refine RKeeps.ite ?_ ?_
    | with_reducible refine (fence_keeps ..).step ?_

theorem quadCore_keeps (s a1) : Keeps 0x1367F86 s (quadCore s a1) := by
  unfold quadCore
  try dsimp only
  repeat'
    first
    | with_reducible exact Keeps.refl _ _
    | with_reducible refine Keeps.ite ?_ ?_
    | with_reducible refine (fenceCore_keeps ..).step ?_
    | with_reducible refine (setCore_keeps ..).step ?_
    | split

theorem execQuadrantAttachmentFail_keeps (a1 s) : RKeeps 0x1367F86 s (execQuadrantAttachmentFail a1 s) := by
  unfold execQuadrantAttachmentFail
  try dsimp only
  repeat'
    first
    | with_reducible exact Keeps.refl _ _
    | with_reducible assumption
    | with_reducible refine Keeps.ite ?_ ?_
    | with_reducible refine RKeeps.next ?_
    | with_reducible refine RKeeps.ite ?_ ?_
    | with_reducible refine (quadCore_keeps ..).step ?_
    | with_reducible refine (belowRating_keeps ..).step ?_
    | with_reducible refine Keeps.foldl ?_ ?_
    | with_reducible refine Keeps.foldl_fst ?_ ?_
    | with_reducible refine Keeps.foldl_snd ?_ ?_
    | split
    | intro _ _ _
    | intro _ _

theorem writeFence_keeps (a1 s) : Keeps 0x1367F86 s (writeFence a1 s).2 := by
  unfold writeFence
  try dsimp only
  repeat'
    first
    | with_reducible exact Keeps.refl _ _
    | with_reducible refine Keeps.ite ?_ ?_
    | with_reducible refine Keeps.ite_snd ?_ ?_
    | with_reducible refine (fence_keeps ..).step ?_

theorem execFenceCore_keeps (a1 a2 s) : RKeeps 0x1367F86 s (execFenceCore a1 a2 s) := by
  unfold execFenceCore
  try dsimp only
  repeat'
    first
    | with_reducible exact Keeps.refl _ _
    | with_reducible assumption
    | with_reducible refine Keeps.ite ?_ ?_
    | with_reducible refine RKeeps.next ?_
    | with_reducible refine RKeeps.ite ?_ ?_
    | with_reducible refine objCmd_keeps ?_ ?_
    | with_reducible refine (writeFence_keeps ..).step ?_
    | with_reducible refine (Keeps.snd (writeFence_keeps ..) (by assumption)).step ?_
    | split
    | intro _ _ _
    | intro _ _

theorem execFenceReadsDrained_keeps (a1 s) : RKeeps 0x1000 s (execFenceReadsDrained a1 s) := by
  unfold execFenceReadsDrained
  try dsimp only
  repeat'
    first
    | with_reducible exact Keeps.refl _ _
    | with_reducible refine Keeps.ite ?_ ?_
    | with_reducible refine RKeeps.next ?_
    | with_reducible refine RKeeps.ite ?_ ?_
    | with_reducible refine (setCore_keeps ..).step ?_

theorem writeReturn_keeps (a1 s) : Keeps 0x1000 s (writeReturn a1 s).2 := by
  unfold writeReturn
  try dsimp only
  repeat'
    first
    | with_reducible exact Keeps.refl _ _
    | with_reducible refine Keeps.ite ?_ ?_
    | with_reducible refine Keeps.ite_snd ?_ ?_
    | with_reducible refine (setCore_keeps ..).step ?_

theorem execReturnCore_keeps (a1 a2 s) : RKeeps 0x1002 s (execReturnCore a1 a2 s) := by
  unfold execReturnCore
  try dsimp only
  repeat'
    first
    | with_reducible exact Keeps.refl _ _
    | with_reducible assumption
    | with_reducible refine Keeps.ite ?_ ?_
    | with_reducible refine RKeeps.next ?_
    | with_reducible refine RKeeps.ite ?_ ?_
    | with_reducible refine (writeReturn_keeps ..).step ?_
    | with_reducible refine (Keeps.snd (writeReturn_keeps ..) (by assumption)).step ?_
    | with_reducible refine objCmd_keeps ?_ ?_
    | split
    | intro _ _ _
    | intro _ _

theorem execCoreTestEnd_keeps (a1 a2 s) : RKeeps 0x201186 s (execCoreTestEnd a1 a2 s) := by
  unfold execCoreTestEnd
  try dsimp only
  repeat'
    first
    | with_reducible exact Keeps.refl _ _
    | with_reducible refine Keeps.ite ?_ ?_
    | with_reducible refine RKeeps.next ?_
    | with_reducible refine RKeeps.ite ?_ ?_
    | with_reducible refine (logEvent_keeps ..).step ?_
    | with_reducible refine (setCore_keeps ..).step ?_

theorem enterCores_keeps (s) : Keeps 0x201086 s (enterCores s) := by
  unfold enterCores
  try dsimp only
  repeat'
    first
    | with_reducible exact Keeps.refl _ _
    | with_reducible assumption
    | with_reducible refine Keeps.ite ?_ ?_
    | with_reducible refine (belowRating_keeps ..).step ?_
    | with_reducible refine (setCore_keeps ..).step ?_
    | with_reducible refine Keeps.foldl ?_ ?_
    | with_reducible refine Keeps.foldl_fst ?_ ?_
    | with_reducible refine Keeps.foldl_snd ?_ ?_
    | intro _ _ _

end Sys2Proof.Machine
end

