-- ==== Sys2Proof/Laws/KeepsHbm.lean ====
section
/-! SUPPORT. What each operation of Machine/Hbm.lean may write, and that it keeps the invariant. -/

namespace Sys2Proof.Machine

set_option Elab.async false

theorem requestReset_keeps (a1 s) : Keeps 0x8 s (requestReset a1 s) := by
  unfold requestReset
  try dsimp only
  repeat'
    first
    | with_reducible exact Keeps.refl _ _
    | with_reducible refine Keeps.ite ?_ ?_
    | with_reducible refine (State.setPwr_keeps _ _).step ?_

theorem dieFails_keeps (s) : Keeps 0x8 s (dieFails s) := by
  unfold dieFails
  try dsimp only
  repeat'
    first
    | with_reducible exact Keeps.refl _ _
    | with_reducible refine Keeps.ite ?_ ?_
    | with_reducible refine (requestReset_keeps ..).step ?_
    | with_reducible refine (State.setPwr_keeps _ _).step ?_

theorem hbmFail_keeps (a1 s) : Keeps 0x20028E s (hbmFail a1 s) := by
  unfold hbmFail
  try dsimp only
  repeat'
    first
    | with_reducible exact Keeps.refl _ _
    | with_reducible refine Keeps.ite ?_ ?_
    | with_reducible refine (emcyRaise_keeps ..).step ?_
    | with_reducible refine (telemetry_keeps ..).step ?_
    | with_reducible refine (dieFails_keeps ..).step ?_
    | with_reducible refine (setCtl_keeps ..).step ?_

theorem patWrite_keeps (a1 a2 s) : Keeps 0x200 s (patWrite a1 a2 s) := by
  unfold patWrite
  try dsimp only
  repeat'
    first
    | with_reducible exact Keeps.refl _ _
    | with_reducible refine Keeps.ite ?_ ?_
    | with_reducible refine (setCtl_keeps ..).step ?_

theorem execPatctl_keeps (a1 a2 s) : RKeeps 0x200 s (execPatctl a1 a2 s) := by
  unfold execPatctl
  try dsimp only
  repeat'
    first
    | with_reducible exact Keeps.refl _ _
    | with_reducible refine Keeps.ite ?_ ?_
    | with_reducible refine RKeeps.next ?_
    | with_reducible refine RKeeps.ite ?_ ?_
    | with_reducible refine (patWrite_keeps ..).step ?_

theorem execPatternOpDone_keeps (a1 a2 a3 s) : RKeeps 0x200 s (execPatternOpDone a1 a2 a3 s) := by
  unfold execPatternOpDone
  try dsimp only
  repeat'
    first
    | with_reducible exact Keeps.refl _ _
    | with_reducible refine Keeps.ite ?_ ?_
    | with_reducible refine RKeeps.next ?_
    | with_reducible refine RKeeps.ite ?_ ?_
    | with_reducible refine (setCtl_keeps ..).step ?_

theorem execRefreshDue_keeps (a1 a2 a3 a4 s) : RKeeps 0x291 s (execRefreshDue a1 a2 a3 a4 s) := by
  unfold execRefreshDue
  try dsimp only
  repeat'
    first
    | with_reducible exact Keeps.refl _ _
    | with_reducible refine Keeps.ite ?_ ?_
    | with_reducible refine RKeeps.next ?_
    | with_reducible refine RKeeps.ite ?_ ?_
    | with_reducible refine (setCtl_keeps ..).step ?_
    | with_reducible refine (carryTo_keeps ..).step ?_
    | split

theorem execStackTemperatureChange_keeps (a1 a2 s) : RKeeps 0x200 s (execStackTemperatureChange a1 a2 s) := by
  unfold execStackTemperatureChange
  try dsimp only
  repeat'
    first
    | with_reducible exact Keeps.refl _ _
    | with_reducible refine Keeps.ite ?_ ?_
    | with_reducible refine RKeeps.next ?_
    | with_reducible refine RKeeps.ite ?_ ?_
    | with_reducible refine (setCtl_keeps ..).step ?_

theorem execTargetedRefresh_keeps (a1 a2 a3 a4 a5 a6 s) : RKeeps 0x202 s (execTargetedRefresh a1 a2 a3 a4 a5 a6 s) := by
  unfold execTargetedRefresh
  try dsimp only
  repeat'
    first
    | with_reducible exact Keeps.refl _ _
    | with_reducible refine Keeps.ite ?_ ?_
    | with_reducible refine RKeeps.next ?_
    | with_reducible refine RKeeps.ite ?_ ?_
    | with_reducible refine (bumpObj_keeps ..).step ?_
    | with_reducible refine (setCtl_keeps ..).step ?_
    | split

theorem throttleOne_keeps (a1 s a2) : Keeps 0x200386 s (throttleOne a1 s a2) := by
  unfold throttleOne
  try dsimp only
  repeat'
    first
    | with_reducible exact Keeps.refl _ _
    | with_reducible refine Keeps.ite ?_ ?_
    | with_reducible refine (logEvent_keeps ..).step ?_
    | with_reducible refine (tenantCount_keeps ..).step ?_
    | with_reducible refine (bumpObj_keeps ..).step ?_
    | with_reducible refine (setCtl_keeps ..).step ?_

theorem throttleCtl_keeps (s a1) : Keeps 0x200386 s (throttleCtl s a1) := by
  unfold throttleCtl
  try dsimp only
  repeat'
    first
    | with_reducible exact Keeps.refl _ _
    | with_reducible assumption
    | with_reducible refine Keeps.ite ?_ ?_
    | with_reducible refine (setCtl_keeps ..).step ?_
    | with_reducible refine (throttleOne_keeps ..).step ?_
    | with_reducible refine Keeps.foldl ?_ ?_
    | with_reducible refine Keeps.foldl_fst ?_ ?_
    | with_reducible refine Keeps.foldl_snd ?_ ?_
    | intro _ _ _

theorem execThrottleIntervalEnd_keeps (s) : RKeeps 0x200397 s (execThrottleIntervalEnd s) := by
  unfold execThrottleIntervalEnd
  try dsimp only
  repeat'
    first
    | with_reducible exact Keeps.refl _ _
    | with_reducible assumption
    | with_reducible refine Keeps.ite ?_ ?_
    | with_reducible refine RKeeps.next ?_
    | with_reducible refine RKeeps.ite ?_ ?_
    | with_reducible refine (throttleCtl_keeps ..).step ?_
    | with_reducible refine (carryTo_keeps ..).step ?_
    | with_reducible refine Keeps.foldl ?_ ?_
    | with_reducible refine Keeps.foldl_fst ?_ ?_
    | with_reducible refine Keeps.foldl_snd ?_ ?_
    | split
    | intro _ _ _

theorem execSelfRefreshEntry_keeps (a1 s) : RKeeps 0x293 s (execSelfRefreshEntry a1 s) := by
  unfold execSelfRefreshEntry
  try dsimp only
  repeat'
    first
    | with_reducible exact Keeps.refl _ _
    | with_reducible refine Keeps.ite ?_ ?_
    | with_reducible refine RKeeps.next ?_
    | with_reducible refine RKeeps.ite ?_ ?_
    | with_reducible refine (bumpObj_keeps ..).step ?_
    | with_reducible refine (setCtl_keeps ..).step ?_
    | with_reducible refine (carryTo_keeps ..).step ?_

theorem execSelfRefreshExit_keeps (a1 s) : RKeeps 0x200 s (execSelfRefreshExit a1 s) := by
  unfold execSelfRefreshExit
  try dsimp only
  repeat'
    first
    | with_reducible exact Keeps.refl _ _
    | with_reducible refine Keeps.ite ?_ ?_
    | with_reducible refine RKeeps.next ?_
    | with_reducible refine RKeeps.ite ?_ ?_
    | with_reducible refine (wakeCtl_keeps ..).step ?_

theorem retrainOpen_keeps (a1 s) : Keeps 0x200 s (retrainOpen a1 s) := by
  unfold retrainOpen
  try dsimp only
  repeat'
    first
    | with_reducible exact Keeps.refl _ _
    | with_reducible assumption
    | with_reducible refine Keeps.ite ?_ ?_
    | with_reducible refine (setCtl_keeps ..).step ?_
    | with_reducible refine (State.setHbm_keeps _ _ ?_).step ?_
    | with_reducible refine Keeps.foldl ?_ ?_
    | with_reducible refine Keeps.foldl_fst ?_ ?_
    | with_reducible refine Keeps.foldl_snd ?_ ?_
    | exact fun h => h
    | exact fun h => tput_rising _ _ h _
    | exact fun h => ⟨tput_rising _ _ h.1 _, h.2⟩
    | exact fun h => Tbl.rising_map h _ fun _ => rfl
    | exact fun h => ⟨Tbl.rising_map h.1 _ fun _ => rfl, h.2⟩
    | intro _ _ _

theorem retrainGroup_keeps (a1 a2 s a3) : Keeps 0x400200 s (retrainGroup a1 a2 s a3) := by
  unfold retrainGroup
  try dsimp only
  repeat'
    first
    | with_reducible exact Keeps.refl _ _
    | with_reducible refine Keeps.ite ?_ ?_
    | with_reducible refine (freeStep_keeps ..).step ?_
    | with_reducible refine (setCtl_keeps ..).step ?_
    | split

theorem execRetrainGroup_keeps (a1 s) : RKeeps 0x600386 s (execRetrainGroup a1 s) := by
  unfold execRetrainGroup
  split
  · exact RKeeps.next (.refl ..)
  · extract_lets s1 n s2 s3
    have h1 : Keeps 0x600386 s s1 := Keeps.foldl (.refl ..) fun t b h => (logEvent_keeps ..).step h
    clear_value s1
    have h2 : Keeps 0x600386 s s2 := Keeps.foldl h1 fun t c h => (retrainGroup_keeps ..).step h
    clear_value s2
    have h3 : Keeps 0x600386 s s3 := by
      refine (State.setHbm_keeps _ _ ?_).step h2
      exact fun h => h
    clear_value s3
    split
    · refine RKeeps.next (Keeps.foldl h3 fun t c h => ?_)
      exact Keeps.ite ((setCtl_keeps ..).step h) h
    · exact RKeeps.next h3

theorem writeRetrain_keeps (a1 s) : Keeps 0x200 s (writeRetrain a1 s).2 := by
  unfold writeRetrain
  try dsimp only
  repeat'
    first
    | with_reducible exact Keeps.refl _ _
    | with_reducible assumption
    | with_reducible refine Keeps.ite ?_ ?_
    | with_reducible refine Keeps.ite_snd ?_ ?_
    | with_reducible refine (setCtl_keeps ..).step ?_
    | with_reducible refine Keeps.foldl ?_ ?_
    | with_reducible refine Keeps.foldl_fst ?_ ?_
    | with_reducible refine Keeps.foldl_snd ?_ ?_
    | intro _ _ _

theorem execRetrainController_keeps (a1 a2 s) : RKeeps 0x202 s (execRetrainController a1 a2 s) := by
  unfold execRetrainController
  try dsimp only
  repeat'
    first
    | with_reducible exact Keeps.refl _ _
    | with_reducible assumption
    | with_reducible refine Keeps.ite ?_ ?_
    | with_reducible refine RKeeps.next ?_
    | with_reducible refine RKeeps.ite ?_ ?_
    | with_reducible refine objCmd_keeps ?_ ?_
    | with_reducible refine (writeRetrain_keeps ..).step ?_
    | with_reducible refine (Keeps.snd (writeRetrain_keeps ..) (by assumption)).step ?_
    | split
    | intro _ _ _
    | intro _ _

end Sys2Proof.Machine
end

