-- ==== Sys2Proof/Laws/KeepsProtect.lean ====
section
/-! SUPPORT. What each operation of Machine/Protect.lean may write, and that it keeps the invariant. -/

namespace Sys2Proof.Machine

set_option Elab.async false

theorem poisonLine_keeps (a1 s) : Keeps 0x1000100 s (poisonLine a1 s) := by
  unfold poisonLine
  try dsimp only
  repeat'
    first
    | with_reducible exact Keeps.refl _ _
    | with_reducible assumption
    | with_reducible refine Keeps.ite ?_ ?_
    | with_reducible refine (setLine_keeps ..).step ?_
    | with_reducible refine (State.setBytes_keeps _ _ ?_).step ?_
    | with_reducible refine Keeps.foldl ?_ ?_
    | with_reducible refine Keeps.foldl_fst ?_ ?_
    | with_reducible refine Keeps.foldl_snd ?_ ?_
    | exact fun h => ⟨mwrite_wf h.1 _ _, h.2, h.3, h.4, h.5⟩
    | exact fun h => ⟨mzero_wf h.1 _ _, h.2, h.3, h.4, h.5⟩
    | exact fun h => Mem.ok_of h rfl rfl rfl
    | intro _ _ _

theorem scrubLine_keeps (a1 a2 s) : Keeps 0x1200186 s (scrubLine a1 a2 s) := by
  unfold scrubLine
  try dsimp only
  repeat'
    first
    | with_reducible exact Keeps.refl _ _
    | with_reducible refine Keeps.ite ?_ ?_
    | with_reducible refine (noteLine_keeps ..).step ?_
    | with_reducible refine (setLine_keeps ..).step ?_
    | with_reducible refine (State.setMem_keeps _ _ rfl ?_).step ?_
    | with_reducible refine (meet_keeps ..).step ?_
    | with_reducible refine (poisonLine_keeps ..).step ?_
    | exact fun h => Mem.ok_of h rfl rfl rfl
    | split

theorem execPatrolScrubRead_keeps (a1 a2 s) : RKeeps 0x1200197 s (execPatrolScrubRead a1 a2 s) := by
  unfold execPatrolScrubRead
  try dsimp only
  repeat'
    first
    | with_reducible exact Keeps.refl _ _
    | with_reducible refine Keeps.ite ?_ ?_
    | with_reducible refine RKeeps.next ?_
    | with_reducible refine RKeeps.ite ?_ ?_
    | with_reducible refine (bumpObj_keeps ..).step ?_
    | with_reducible refine (scrubLine_keeps ..).step ?_
    | with_reducible refine (State.setMem_keeps _ _ rfl ?_).step ?_
    | with_reducible refine (carryTo_keeps ..).step ?_
    | exact fun h => Mem.ok_of h rfl rfl rfl
    | exact fun h => ⟨h.1, h.2, h.3, tput_rising _ _ h.4 _, h.5⟩
    | exact fun h => ⟨h.1, h.2, h.3, h.4, tput_rising _ _ h.5 _⟩
    | split

theorem execImmediateScrub_keeps (a1 a2 s) : RKeeps 0x1200186 s (execImmediateScrub a1 a2 s) := by
  unfold execImmediateScrub
  try dsimp only
  repeat'
    first
    | with_reducible exact Keeps.refl _ _
    | with_reducible refine Keeps.ite ?_ ?_
    | with_reducible refine RKeeps.next ?_
    | with_reducible refine RKeeps.ite ?_ ?_
    | with_reducible refine (scrubLine_keeps ..).step ?_
    | with_reducible refine (State.setMem_keeps _ _ rfl ?_).step ?_
    | exact fun h => Mem.ok_of h rfl rfl rfl
    | split

theorem writeLogIndex_keeps (a1 s) : Keeps 0x100 s (writeLogIndex a1 s).2 := by
  unfold writeLogIndex
  try dsimp only
  repeat'
    first
    | with_reducible exact Keeps.refl _ _
    | with_reducible refine Keeps.ite ?_ ?_
    | with_reducible refine Keeps.ite_snd ?_ ?_
    | with_reducible refine (State.setMem_keeps _ _ rfl ?_).step ?_
    | with_reducible refine (logPut_keeps ..).step ?_
    | exact fun h => Mem.ok_of h rfl rfl rfl

theorem execStewardReadIndex_keeps (a1 s) : RKeeps 0x102 s (execStewardReadIndex a1 s) := by
  unfold execStewardReadIndex
  try dsimp only
  repeat'
    first
    | with_reducible exact Keeps.refl _ _
    | with_reducible assumption
    | with_reducible refine Keeps.ite ?_ ?_
    | with_reducible refine RKeeps.next ?_
    | with_reducible refine RKeeps.ite ?_ ?_
    | with_reducible refine (writeLogIndex_keeps ..).step ?_
    | with_reducible refine (Keeps.snd (writeLogIndex_keeps ..) (by assumption)).step ?_
    | with_reducible refine commanded_keeps ?_ ?_
    | split
    | intro _ _ _
    | intro _ _

theorem retireGranule_keeps (a1 s) : Keeps 0x100 s (retireGranule a1 s).2 := by
  unfold retireGranule
  split
  · exact .refl ..
  · split
    · exact .refl ..
    · split
      · exact .refl ..
      · refine State.setMem_keeps s (fun m => { m with retired := m.retired ++ [a1] }) rfl fun h => ?_
        exact ⟨h.1, by simp only [List.length_append, List.length_singleton]; omega, h.3, h.4, h.5⟩

theorem retireBank_keeps (a1 s) : Keeps 0x100 s (retireBank a1 s).2 := by
  unfold retireBank
  split
  · exact .refl ..
  · split
    · exact .refl ..
    · split
      · exact .refl ..
      · refine State.setMem_keeps s (fun m => { m with retiredBanks := m.retiredBanks ++ [a1] }) rfl fun h => ?_
        exact ⟨h.1, h.2, by simp only [List.length_append, List.length_singleton]; omega, h.4, h.5⟩

theorem execRetireGranule_keeps (a1 s) : RKeeps 0x102 s (execRetireGranule a1 s) := by
  unfold execRetireGranule
  try dsimp only
  repeat'
    first
    | with_reducible exact Keeps.refl _ _
    | with_reducible assumption
    | with_reducible refine Keeps.ite ?_ ?_
    | with_reducible refine RKeeps.next ?_
    | with_reducible refine RKeeps.ite ?_ ?_
    | with_reducible refine (retireGranule_keeps ..).step ?_
    | with_reducible refine (Keeps.snd (retireGranule_keeps ..) (by assumption)).step ?_
    | with_reducible refine commanded_keeps ?_ ?_
    | split
    | intro _ _ _
    | intro _ _

theorem execRetireBank_keeps (a1 s) : RKeeps 0x102 s (execRetireBank a1 s) := by
  unfold execRetireBank
  try dsimp only
  repeat'
    first
    | with_reducible exact Keeps.refl _ _
    | with_reducible assumption
    | with_reducible refine Keeps.ite ?_ ?_
    | with_reducible refine RKeeps.next ?_
    | with_reducible refine RKeeps.ite ?_ ?_
    | with_reducible refine (retireBank_keeps ..).step ?_
    | with_reducible refine (Keeps.snd (retireBank_keeps ..) (by assumption)).step ?_
    | with_reducible refine commanded_keeps ?_ ?_
    | split
    | intro _ _ _
    | intro _ _

theorem macDraw_keeps (a1 s) : OKeeps 0x400000 s (·.2) (macDraw a1 s) := by
  unfold macDraw
  try dsimp only
  repeat'
    first
    | with_reducible exact Keeps.refl _ _
    | with_reducible refine Keeps.ite ?_ ?_
    | with_reducible refine (freeStep_keeps ..).step ?_
    | apply OKeeps.bind
    | with_reducible refine Keeps.getD ?_ ?_
    | with_reducible refine Keeps.getD_snd ?_ ?_
    | apply OKeeps.obind
    | refine OKeeps.map_snd ?_ fun _ => rfl
    | apply OKeeps.map
    | with_reducible refine OKeeps.pure ?_
    | with_reducible exact OKeeps.none
    | with_reducible refine OKeeps.some ?_
    | with_reducible refine OKeeps.ite ?_ ?_
    | with_reducible refine OKeeps.get ?_ (by assumption)
    | with_reducible refine OKeeps.get1 ?_ (by assumption)
    | with_reducible refine OKeeps.get2 ?_ (by assumption)
    | split

theorem macMark_keeps (a1 a2 a3 a4 s) : Keeps 0x400 s (macMark a1 a2 a3 a4 s) :=
  State.setLed_keeps _ _ fun h => ⟨h.1, Tbl.rising_foldl h.2 fun _ _ k => tput_rising _ _ k _, h.3⟩

theorem placeMacRegion_keeps (a1 a2 s) : Keeps 0x402 s (placeMacRegion a1 a2 s).2 := by
  unfold placeMacRegion
  try dsimp only
  repeat'
    first
    | with_reducible exact Keeps.refl _ _
    | with_reducible refine Keeps.ite ?_ ?_
    | with_reducible refine Keeps.ite_snd ?_ ?_
    | with_reducible refine (macMark_keeps ..).step ?_
    | with_reducible refine (writeObj_keeps ..).step ?_

theorem execMacRegionPlace_keeps (a1 a2 s) : RKeeps 0x402 s (execMacRegionPlace a1 a2 s) := by
  unfold execMacRegionPlace
  try dsimp only
  repeat'
    first
    | with_reducible exact Keeps.refl _ _
    | with_reducible assumption
    | with_reducible refine Keeps.ite ?_ ?_
    | with_reducible refine RKeeps.next ?_
    | with_reducible refine RKeeps.ite ?_ ?_
    | with_reducible refine (placeMacRegion_keeps ..).step ?_
    | with_reducible refine (Keeps.snd (placeMacRegion_keeps ..) (by assumption)).step ?_
    | with_reducible refine commanded_keeps ?_ ?_
    | split
    | intro _ _ _
    | intro _ _

end Sys2Proof.Machine
end

