-- ==== Sys2Proof/Laws/KeepsTenants.lean ====
section
/-! SUPPORT. What each operation of Machine/Tenants.lean may write, and that it keeps the invariant. -/

namespace Sys2Proof.Machine

set_option Elab.async false

theorem setStatus_keeps (a1 s) : Keeps 0x400 s (setStatus a1 s) := by
  unfold setStatus
  try dsimp only
  repeat'
    first
    | with_reducible exact Keeps.refl _ _
    | with_reducible refine Keeps.ite ?_ ?_
    | with_reducible refine (State.setLed_keeps _ _ ?_).step ?_
    | exact fun h => Ledger.ok_of h rfl rfl rfl

theorem grantNow_keeps (a1 s) : Keeps 0x400402 s (grantNow a1 s) := by
  unfold grantNow
  try dsimp only
  repeat'
    first
    | with_reducible exact Keeps.refl _ _
    | with_reducible assumption
    | with_reducible refine Keeps.ite ?_ ?_
    | with_reducible refine (setDom_keeps ..).step ?_
    | with_reducible refine (macDraw_keeps ..).step ?_
    | with_reducible refine (OKeeps.get1 (macDraw_keeps ..) (by assumption)).step ?_
    | with_reducible refine (setExt_keeps ..).step ?_
    | apply OKeeps.bind
    | with_reducible refine Keeps.getD ?_ ?_
    | with_reducible refine Keeps.getD_snd ?_ ?_
    | apply OKeeps.obind
    | refine OKeeps.map_snd ?_ fun _ => rfl
    | apply OKeeps.map
    | with_reducible refine OKeeps.pure ?_
    | with_reducible exact OKeeps.none
    | with_reducible refine OKeeps.some ?_
    | with_reducible refine OKeeps.ite ?_ ?_
    | with_reducible refine OKeeps.get ?_ (by assumption)
    | with_reducible refine OKeeps.get1 ?_ (by assumption)
    | with_reducible refine OKeeps.get2 ?_ (by assumption)
    | intro _ _ _
    | intro _ _
    | split

theorem writeGrant_keeps (a1 s) : Keeps 0x400402 s (writeGrant a1 s).2 := by
  unfold writeGrant
  try dsimp only
  repeat'
    first
    | with_reducible exact Keeps.refl _ _
    | with_reducible refine Keeps.ite ?_ ?_
    | with_reducible refine Keeps.ite_snd ?_ ?_
    | with_reducible refine (grantNow_keeps ..).step ?_
    | with_reducible refine (setStatus_keeps ..).step ?_

theorem execGrantExtent_keeps (a1 s) : RKeeps 0x500402 s (execGrantExtent a1 s) := by
  unfold execGrantExtent
  try dsimp only
  repeat'
    first
    | with_reducible exact Keeps.refl _ _
    | with_reducible assumption
    | with_reducible refine Keeps.ite ?_ ?_
    | with_reducible refine RKeeps.next ?_
    | with_reducible refine RKeeps.ite ?_ ?_
    | with_reducible refine (writeGrant_keeps ..).step ?_
    | with_reducible refine (Keeps.snd (writeGrant_keeps ..) (by assumption)).step ?_
    | with_reducible refine mirrorGate_keeps ?_ ?_
    | with_reducible refine commanded_keeps ?_ ?_
    | split
    | intro _ _ _
    | intro _ _

theorem toEscrow_keeps (a1 s) : Keeps 0x402 s (toEscrow a1 s) := by
  unfold toEscrow
  try dsimp only
  repeat'
    first
    | with_reducible exact Keeps.refl _ _
    | with_reducible refine Keeps.ite ?_ ?_
    | with_reducible refine (setDom_keeps ..).step ?_
    | with_reducible refine (setExt_keeps ..).step ?_

theorem execZeroizeDone_keeps (a1 s) : RKeeps 0x1000502 s (execZeroizeDone a1 s) := by
  unfold execZeroizeDone
  try dsimp only
  repeat'
    first
    | with_reducible exact Keeps.refl _ _
    | with_reducible refine Keeps.ite ?_ ?_
    | with_reducible refine RKeeps.next ?_
    | with_reducible refine RKeeps.ite ?_ ?_
    | with_reducible refine (State.setMem_keeps _ _ rfl ?_).step ?_
    | with_reducible refine (zeroRange_keeps ..).step ?_
    | with_reducible refine (setExt_keeps ..).step ?_
    | with_reducible refine (toEscrow_keeps ..).step ?_
    | exact fun h => Mem.ok_of h rfl rfl rfl

theorem writeRevoke_keeps (a1 s) : Keeps 0x402 s (writeRevoke a1 s).2 := by
  unfold writeRevoke
  try dsimp only
  repeat'
    first
    | with_reducible exact Keeps.refl _ _
    | with_reducible refine Keeps.ite ?_ ?_
    | with_reducible refine Keeps.ite_snd ?_ ?_
    | with_reducible refine (toEscrow_keeps ..).step ?_
    | with_reducible refine (setStatus_keeps ..).step ?_

theorem execRevokeExtent_keeps (a1 s) : RKeeps 0x100402 s (execRevokeExtent a1 s) := by
  unfold execRevokeExtent
  try dsimp only
  repeat'
    first
    | with_reducible exact Keeps.refl _ _
    | with_reducible assumption
    | with_reducible refine Keeps.ite ?_ ?_
    | with_reducible refine RKeeps.next ?_
    | with_reducible refine RKeeps.ite ?_ ?_
    | with_reducible refine (writeRevoke_keeps ..).step ?_
    | with_reducible refine (Keeps.snd (writeRevoke_keeps ..) (by assumption)).step ?_
    | with_reducible refine mirrorGate_keeps ?_ ?_
    | with_reducible refine commanded_keeps ?_ ?_
    | split
    | intro _ _ _
    | intro _ _

theorem dropCopies_keeps (a1 s a2) : Keeps 0x800 s (dropCopies a1 s a2) := by
  unfold dropCopies
  try dsimp only
  repeat'
    first
    | with_reducible exact Keeps.refl _ _
    | with_reducible refine Keeps.ite ?_ ?_
    | with_reducible refine (setFrame_keeps ..).step ?_

theorem dropTier_keeps (a1 s) : Keeps 0x7A7C82 s (dropTier a1 s) := by
  unfold dropTier
  try dsimp only
  repeat'
    first
    | with_reducible exact Keeps.refl _ _
    | with_reducible assumption
    | with_reducible refine Keeps.ite ?_ ?_
    | with_reducible refine (State.setKv_keeps _ _ ?_).step ?_
    | with_reducible refine (dropMove_keeps ..).step ?_
    | with_reducible refine (failMove_keeps ..).step ?_
    | with_reducible refine (dropCopies_keeps ..).step ?_
    | with_reducible refine (runMoves_keeps ..).step ?_
    | with_reducible refine Keeps.foldl ?_ ?_
    | with_reducible refine Keeps.foldl_fst ?_ ?_
    | with_reducible refine Keeps.foldl_snd ?_ ?_
    | with_reducible refine Keeps.snd ?_ (by assumption)
    | with_reducible refine Keeps.fst ?_ (by assumption)
    | with_reducible refine Keeps.snd2 ?_ (by assumption)
    | with_reducible refine Keeps.snd3 ?_ (by assumption)
    | exact fun h => h
    | exact fun h => tput_rising _ _ h _
    | exact fun h => ⟨tput_rising _ _ h.1 _, h.2⟩
    | exact fun h => Tbl.rising_map h _ fun _ => rfl
    | exact fun h => ⟨Tbl.rising_map h.1 _ fun _ => rfl, h.2⟩
    | intro _ _ _

theorem escrowT3_keeps (a1 s) : Keeps 0x280902 s (escrowT3 a1 s) := by
  unfold escrowT3
  try dsimp only
  repeat'
    first
    | with_reducible exact Keeps.refl _ _
    | with_reducible refine Keeps.ite ?_ ?_
    | with_reducible refine (cacheFlush_keeps ..).step ?_
    | with_reducible refine (nvmeSend_keeps ..).step ?_
    | split

theorem escrowNext_keeps (a1 s) : Keeps 0x17B7D82 s (escrowNext a1 s) := by
  unfold escrowNext
  try dsimp only
  repeat'
    first
    | with_reducible exact Keeps.refl _ _
    | with_reducible refine Keeps.ite ?_ ?_
    | with_reducible refine (zeroRange_keeps ..).step ?_
    | with_reducible refine (setExt_keeps ..).step ?_
    | with_reducible refine (nvmeDrop_keeps ..).step ?_
    | with_reducible refine (State.setMem_keeps _ _ rfl ?_).step ?_
    | with_reducible refine (State.setKv_keeps _ _ ?_).step ?_
    | with_reducible refine (dropTier_keeps ..).step ?_
    | with_reducible refine (escrowT3_keeps ..).step ?_
    | with_reducible refine (Keeps.mint_mk _ _ ?_).step ?_
    | exact fun h => Mem.ok_of h rfl rfl rfl
    | exact fun h => ⟨h.1, h.2, h.3, tput_rising _ _ h.4 _, h.5⟩
    | exact fun h => ⟨h.1, h.2, h.3, h.4, tput_rising _ _ h.5 _⟩
    | exact fun h => h
    | exact fun h => ⟨tput_rising _ _ h.1 _, h.2⟩
    | exact fun h => ⟨h.1, tput_rising _ _ h.2 _⟩
    | exact fun h => ⟨Tbl.rising_map h.1 _ fun _ => rfl, h.2⟩
    | exact fun h => ⟨h.1, Tbl.rising_map h.2 _ fun _ => rfl⟩
    | exact fun h => ⟨h.1.filter _, h.2⟩
    | exact fun h => ⟨h.1, h.2.filter _⟩
    | exact fun h => ⟨Tbl.rising_map h.1 _ fun p => by split <;> rfl, h.2⟩
    | split

theorem execEscrowStepEnd_keeps (a1 s) : RKeeps 0x17B7D82 s (execEscrowStepEnd a1 s) := by
  unfold execEscrowStepEnd
  try dsimp only
  repeat'
    first
    | with_reducible exact Keeps.refl _ _
    | with_reducible refine Keeps.ite ?_ ?_
    | with_reducible refine RKeeps.next ?_
    | with_reducible refine RKeeps.ite ?_ ?_
    | with_reducible refine (escrowNext_keeps ..).step ?_
    | split

theorem writeReaders_keeps (a1 a2 s) : Keeps 0x2 s (writeReaders a1 a2 s).2 := by
  unfold writeReaders
  try dsimp only
  repeat'
    first
    | with_reducible exact Keeps.refl _ _
    | with_reducible refine Keeps.ite ?_ ?_
    | with_reducible refine Keeps.ite_snd ?_ ?_
    | with_reducible refine (writeObj_keeps ..).step ?_

theorem execReaderSetWrite_keeps (a1 a2 s) : RKeeps 0x100002 s (execReaderSetWrite a1 a2 s) := by
  unfold execReaderSetWrite
  try dsimp only
  repeat'
    first
    | with_reducible exact Keeps.refl _ _
    | with_reducible assumption
    | with_reducible refine Keeps.ite ?_ ?_
    | with_reducible refine RKeeps.next ?_
    | with_reducible refine RKeeps.ite ?_ ?_
    | with_reducible refine (writeReaders_keeps ..).step ?_
    | with_reducible refine (Keeps.snd (writeReaders_keeps ..) (by assumption)).step ?_
    | with_reducible refine mirrorGate_keeps ?_ ?_
    | with_reducible refine commanded_keeps ?_ ?_
    | split
    | intro _ _ _
    | intro _ _

theorem setKeys_keeps (a1 a2 s) : Keeps 0x10000 s (setKeys a1 a2 s) := by
  unfold setKeys
  try dsimp only
  repeat'
    first
    | with_reducible exact Keeps.refl _ _
    | with_reducible refine Keeps.ite ?_ ?_
    | with_reducible refine (Keeps.mint_mk _ _ ?_).step ?_
    | exact fun h => h
    | exact fun h => tput_rising _ _ h _
    | exact fun h => ⟨tput_rising _ _ h.1 _, h.2⟩

theorem writeSeal_keeps (a1 a2 s) : Keeps 0x1010380 s (writeSeal a1 a2 s) := by
  unfold writeSeal
  split
  · extract_lets r m
    refine (writeWhole_keeps ..).step ?_
    refine (Keeps.mint_mk _ _ ?_).mono
    exact fun h => h
  · exact .refl ..

theorem createTenant_keeps (a1 a2 s) : Keeps 0x1010780 s (createTenant a1 a2 s) := by
  unfold createTenant
  try dsimp only
  repeat'
    first
    | with_reducible exact Keeps.refl _ _
    | with_reducible refine Keeps.ite ?_ ?_
    | with_reducible refine (writeSeal_keeps ..).step ?_
    | with_reducible refine (setTenant_keeps ..).step ?_
    | with_reducible refine (setKeys_keeps ..).step ?_

theorem stopFlights_keeps (a1 a2 s) : Keeps 0x327C82 s (stopFlights a1 a2 s) := by
  unfold stopFlights
  refine Keeps.foldl (.refl ..) fun t f h => ?_
  refine (complete_keeps ..).step ((faultDrop_keeps ..).step ((cancelWork_keeps ..).step ((State.setShape_keeps _ _).step ?_)))
  exact Keeps.foldl h fun u x k => (freeFrame_keeps ..).step k

theorem removeTenant_keeps (a1 s) : Keeps 0x337C82 s (removeTenant a1 s) := by
  unfold removeTenant
  try dsimp only
  repeat'
    first
    | with_reducible exact Keeps.refl _ _
    | with_reducible assumption
    | with_reducible refine Keeps.ite ?_ ?_
    | with_reducible refine (setTenant_keeps ..).step ?_
    | with_reducible refine (setKeys_keeps ..).step ?_
    | with_reducible refine (setObj_keeps ..).step ?_
    | with_reducible refine (toEscrow_keeps ..).step ?_
    | with_reducible refine (stopFlights_keeps ..).step ?_
    | with_reducible refine (State.setKv_keeps _ _ ?_).step ?_
    | with_reducible refine Keeps.foldl ?_ ?_
    | with_reducible refine Keeps.foldl_fst ?_ ?_
    | with_reducible refine Keeps.foldl_snd ?_ ?_
    | exact fun h => h
    | exact fun h => tput_rising _ _ h _
    | exact fun h => ⟨tput_rising _ _ h.1 _, h.2⟩
    | exact fun h => Tbl.rising_map h _ fun _ => rfl
    | exact fun h => ⟨Tbl.rising_map h.1 _ fun _ => rfl, h.2⟩
    | intro _ _ _

theorem tenantCommand_keeps (a1 s) : Keeps 0x1337F82 s (tenantCommand a1 s).2 := by
  unfold tenantCommand
  try dsimp only
  repeat'
    first
    | with_reducible exact Keeps.refl _ _
    | with_reducible refine Keeps.ite ?_ ?_
    | with_reducible refine Keeps.ite_snd ?_ ?_
    | with_reducible refine (createTenant_keeps ..).step ?_
    | with_reducible refine (removeTenant_keeps ..).step ?_
    | with_reducible refine (setStatus_keeps ..).step ?_

theorem execTenantCreate_keeps (a1 s) : RKeeps 0x1337F82 s (execTenantCreate a1 s) := by
  unfold execTenantCreate
  try dsimp only
  repeat'
    first
    | with_reducible exact Keeps.refl _ _
    | with_reducible assumption
    | with_reducible refine Keeps.ite ?_ ?_
    | with_reducible refine RKeeps.next ?_
    | with_reducible refine RKeeps.ite ?_ ?_
    | with_reducible refine (tenantCommand_keeps ..).step ?_
    | with_reducible refine (Keeps.snd (tenantCommand_keeps ..) (by assumption)).step ?_
    | with_reducible refine mirrorGate_keeps ?_ ?_
    | with_reducible refine commanded_keeps ?_ ?_
    | split
    | intro _ _ _
    | intro _ _

theorem execTenantRemove_keeps (a1 s) : RKeeps 0x1337F82 s (execTenantRemove a1 s) := by
  unfold execTenantRemove
  try dsimp only
  repeat'
    first
    | with_reducible exact Keeps.refl _ _
    | with_reducible assumption
    | with_reducible refine Keeps.ite ?_ ?_
    | with_reducible refine RKeeps.next ?_
    | with_reducible refine RKeeps.ite ?_ ?_
    | with_reducible refine (tenantCommand_keeps ..).step ?_
    | with_reducible refine (Keeps.snd (tenantCommand_keeps ..) (by assumption)).step ?_
    | with_reducible refine mirrorGate_keeps ?_ ?_
    | with_reducible refine commanded_keeps ?_ ?_
    | split
    | intro _ _ _
    | intro _ _

theorem disableTenant_keeps (a1 s) : Keeps 0x4480 s (disableTenant a1 s) := by
  unfold disableTenant
  extract_lets mine s1 s2 busy
  have h1 : Keeps 0x4480 s s1 := (State.setTal_keeps _ _ fun h => Tally.ok_of h rfl rfl).mono
  clear_value s1
  have h2 : Keeps 0x4480 s s2 := by
    refine (State.setLed_keeps _ _ ?_).step h1
    exact fun h => ⟨h.1, h.2, Tbl.rising_map h.3 _ fun _ => rfl⟩
  clear_value s2
  exact Keeps.foldl h2 fun t b h => Keeps.ite h ((State.setXl_keeps _ _ fun h => Xlate.ok_of h rfl).step h)

theorem freeTenant_keeps (a1 s) : Keeps 0x104C2 s (freeTenant a1 s) := by
  unfold freeTenant
  extract_lets keep s1 clear s2 s3 m s4
  have h1 : Keeps 0x104C2 s s1 := (State.setDict_keeps _ _).mono
  clear_value s1
  have h2 : Keeps 0x104C2 s s2 := (State.setTal_keeps _ _ fun h =>
    ⟨le_trans (List.length_filter_le _ _) h.1, le_trans (List.length_filter_le _ _) h.2⟩).step h1
  clear_value s2
  have h3 : Keeps 0x104C2 s s3 := (State.setTel_keeps _ _ fun h => tput_rising _ _ h _).step h2
  have h4 : Keeps 0x104C2 s s4 := by
    refine (Keeps.mint_mk _ _ ?_).step h3
    exact fun h => h
  exact (setTenant_keeps ..).step h4

theorem removalNext_keeps (a1 s) : Keeps 0x337CC2 s (removalNext a1 s) := by
  unfold removalNext
  try dsimp only
  repeat'
    first
    | with_reducible exact Keeps.refl _ _
    | with_reducible refine Keeps.ite ?_ ?_
    | with_reducible refine (freeTenant_keeps ..).step ?_
    | with_reducible refine (setTenant_keeps ..).step ?_
    | with_reducible refine (stopFlights_keeps ..).step ?_
    | with_reducible refine (State.setXl_keeps _ _ ?_).step ?_
    | with_reducible refine (disableTenant_keeps ..).step ?_
    | with_reducible refine (Keeps.mint_mk _ _ ?_).step ?_
    | exact fun h => Xlate.ok_of h rfl
    | exact fun h => le_trans (List.length_filter_le _ _) h
    | exact fun h => (List.length_map _).trans_le h
    | exact fun h => le_trans List.length_erase_le h
    | exact fun h => h
    | exact fun h => ⟨tput_rising _ _ h.1 _, h.2⟩
    | exact fun h => ⟨h.1, tput_rising _ _ h.2 _⟩
    | exact fun h => ⟨Tbl.rising_map h.1 _ fun _ => rfl, h.2⟩
    | exact fun h => ⟨h.1, Tbl.rising_map h.2 _ fun _ => rfl⟩
    | exact fun h => ⟨h.1.filter _, h.2⟩
    | exact fun h => ⟨h.1, h.2.filter _⟩
    | exact fun h => ⟨Tbl.rising_map h.1 _ fun p => by split <;> rfl, h.2⟩
    | split

theorem execRemovalStepEnd_keeps (a1 s) : RKeeps 0x337CC2 s (execRemovalStepEnd a1 s) := by
  unfold execRemovalStepEnd
  try dsimp only
  repeat'
    first
    | with_reducible exact Keeps.refl _ _
    | with_reducible refine Keeps.ite ?_ ?_
    | with_reducible refine RKeeps.next ?_
    | with_reducible refine RKeeps.ite ?_ ?_
    | with_reducible refine (removalNext_keeps ..).step ?_
    | split

theorem writePortPasid_keeps (a1 a2 s) : Keeps 0x2 s (writePortPasid a1 a2 s).2 := by
  unfold writePortPasid
  try dsimp only
  repeat'
    first
    | with_reducible exact Keeps.refl _ _
    | with_reducible refine Keeps.ite ?_ ?_
    | with_reducible refine Keeps.ite_snd ?_ ?_
    | with_reducible refine (waitObj_keeps ..).step ?_

theorem execPortPasidWrite_keeps (a1 a2 s) : RKeeps 0x100002 s (execPortPasidWrite a1 a2 s) := by
  unfold execPortPasidWrite
  try dsimp only
  repeat'
    first
    | with_reducible exact Keeps.refl _ _
    | with_reducible assumption
    | with_reducible refine Keeps.ite ?_ ?_
    | with_reducible refine RKeeps.next ?_
    | with_reducible refine RKeeps.ite ?_ ?_
    | with_reducible refine (writePortPasid_keeps ..).step ?_
    | with_reducible refine (Keeps.snd (writePortPasid_keeps ..) (by assumption)).step ?_
    | with_reducible refine mirrorGate_keeps ?_ ?_
    | with_reducible refine commanded_keeps ?_ ?_
    | split
    | intro _ _ _
    | intro _ _

end Sys2Proof.Machine
end

