-- ==== Sys2Proof/Laws/KeepsTellers.lean ====
section
/-! SUPPORT. What each operation of Machine/Tellers.lean may write, and that it keeps the invariant. -/

namespace Sys2Proof.Machine

set_option Elab.async false

theorem setChan_keeps (a1 a2 s) : Keeps 0x40 s (setChan a1 a2 s) := by
  unfold setChan
  try dsimp only
  repeat'
    first
    | with_reducible exact Keeps.refl _ _
    | with_reducible refine Keeps.ite ?_ ?_
    | with_reducible refine (State.setTel_keeps _ _ fun h => tput_rising _ _ h _).step ?_

theorem tlRecord_keeps (a1 a2 a3 s) : Keeps 0x40 s (tlRecord a1 a2 a3 s) := by
  unfold tlRecord
  try dsimp only
  repeat'
    first
    | with_reducible exact Keeps.refl _ _
    | with_reducible refine Keeps.ite ?_ ?_
    | with_reducible refine (setChan_keeps ..).step ?_

theorem tlClear_keeps (a1 a2 s) : Keeps 0x40 s (tlClear a1 a2 s) := by
  unfold tlClear
  try dsimp only
  repeat'
    first
    | with_reducible exact Keeps.refl _ _
    | with_reducible refine Keeps.ite ?_ ?_
    | with_reducible refine (setChan_keeps ..).step ?_
    | split

theorem tlReply_keeps (a1 a2 s) : Keeps 0x40 s (tlReply a1 a2 s) := by
  unfold tlReply
  try dsimp only
  repeat'
    first
    | with_reducible exact Keeps.refl _ _
    | with_reducible refine Keeps.ite ?_ ?_
    | with_reducible refine (setChan_keeps ..).step ?_

theorem inboxRises_keeps (s) : Keeps 0x200000 s (inboxRises s) := by
  unfold inboxRises
  try dsimp only
  repeat'
    first
    | with_reducible exact Keeps.refl _ _
    | with_reducible refine Keeps.ite ?_ ?_
    | with_reducible refine (emit_keeps ..).step ?_

theorem tlSend_keeps (a1 a2 s) : Keeps 0x200040 s (tlSend a1 a2 s) := by
  unfold tlSend
  try dsimp only
  repeat'
    first
    | with_reducible exact Keeps.refl _ _
    | with_reducible refine Keeps.ite ?_ ?_
    | with_reducible refine (tlRecord_keeps ..).step ?_
    | with_reducible refine (setChan_keeps ..).step ?_
    | with_reducible refine (inboxRises_keeps ..).step ?_

theorem tlAck_keeps (a1 a2 s) : Keeps 0x200040 s (tlAck a1 a2 s) := by
  unfold tlAck
  try dsimp only
  repeat'
    first
    | with_reducible exact Keeps.refl _ _
    | with_reducible refine Keeps.ite ?_ ?_
    | with_reducible refine (setChan_keeps ..).step ?_
    | with_reducible refine (tlSend_keeps ..).step ?_
    | with_reducible refine (tlClear_keeps ..).step ?_
    | split

theorem execTlsend_keeps (a1 a2 s) : RKeeps 0x200040 s (execTlsend a1 a2 s) := by
  unfold execTlsend
  try dsimp only
  repeat'
    first
    | with_reducible exact Keeps.refl _ _
    | with_reducible refine Keeps.ite ?_ ?_
    | with_reducible refine RKeeps.next ?_
    | with_reducible refine RKeeps.ite ?_ ?_
    | with_reducible refine (tlSend_keeps ..).step ?_

theorem tlDone_keeps (a1 a2 s) : Keeps 0x40 s (tlDone a1 a2 s) := by
  unfold tlDone
  try dsimp only
  repeat'
    first
    | with_reducible exact Keeps.refl _ _
    | with_reducible refine Keeps.ite ?_ ?_
    | with_reducible refine (setChan_keeps ..).step ?_
    | split

theorem execTlrdone_keeps (a1 a2 s) : RKeeps 0x40 s (execTlrdone a1 a2 s) := by
  unfold execTlrdone
  try dsimp only
  repeat'
    first
    | with_reducible exact Keeps.refl _ _
    | with_reducible refine Keeps.ite ?_ ?_
    | with_reducible refine RKeeps.next ?_
    | with_reducible refine RKeeps.ite ?_ ?_
    | with_reducible refine (tlDone_keeps ..).step ?_

theorem inbAck_keeps (a1 s) : Keeps 0x200040 s (inbAck a1 s) := by
  unfold inbAck
  try dsimp only
  repeat'
    first
    | with_reducible exact Keeps.refl _ _
    | with_reducible refine Keeps.ite ?_ ?_
    | with_reducible refine (tlReply_keeps ..).step ?_
    | with_reducible refine (State.setTel_keeps _ _ ?_).step ?_
    | with_reducible refine (tlAck_keeps ..).step ?_
    | with_reducible refine (tlClear_keeps ..).step ?_
    | exact fun h => h
    | exact fun h => tput_rising _ _ h _
    | exact fun h => Tbl.rising_map h _ fun _ => rfl
    | exact fun h => Tbl.rising_map h _ fun p => by split <;> rfl
    | split

theorem execInback_keeps (a1 s) : RKeeps 0x200040 s (execInback a1 s) := by
  unfold execInback
  try dsimp only
  repeat'
    first
    | with_reducible exact Keeps.refl _ _
    | with_reducible refine Keeps.ite ?_ ?_
    | with_reducible refine RKeeps.next ?_
    | with_reducible refine RKeeps.ite ?_ ?_
    | with_reducible refine (inbAck_keeps ..).step ?_

end Sys2Proof.Machine
end

