-- ==== Sys2Proof/Laws/KeepsMint.lean ====
section
/-! SUPPORT. What each operation of Machine/Mint.lean may write, and that it keeps the invariant. -/

namespace Sys2Proof.Machine

set_option Elab.async false

theorem State.setMint_keeps (s : State) (f : Mint → Mint) (h : s.mint.Ok → (f s.mint).Ok) :
    Keeps 0x10000 s (s.setMint f) := Keeps.mint_mk s _ h

theorem mintTo_keeps (a1 s) : Keeps 0x210086 s (mintTo a1 s) := by
  unfold mintTo
  try dsimp only
  repeat'
    first
    | with_reducible exact Keeps.refl _ _
    | with_reducible refine Keeps.ite ?_ ?_
    | with_reducible refine (emcyRaise_keeps ..).step ?_
    | with_reducible refine (State.setMint_keeps _ _ ?_).step ?_
    | with_reducible refine (telemetry_keeps ..).step ?_
    | exact fun h => h

theorem keyStatus_keeps (a1 a2 s) : Keeps 0x2 s (keyStatus a1 a2 s) := by
  unfold keyStatus
  try dsimp only
  repeat'
    first
    | with_reducible exact Keeps.refl _ _
    | with_reducible refine Keeps.ite ?_ ?_
    | with_reducible refine (setObj_keeps ..).step ?_

theorem unitDone_keeps (a1 a2 s) : Keeps 0x2 s (unitDone a1 a2 s) := by
  unfold unitDone
  try dsimp only
  repeat'
    first
    | with_reducible exact Keeps.refl _ _
    | with_reducible refine Keeps.ite ?_ ?_
    | with_reducible refine (bumpObj_keeps ..).step ?_

theorem rewrapLines_keeps (a1 a2 s) : Keeps 0x100 s (rewrapLines a1 a2 s) := by
  unfold rewrapLines
  try dsimp only
  repeat'
    first
    | with_reducible exact Keeps.refl _ _
    | with_reducible assumption
    | with_reducible refine Keeps.ite ?_ ?_
    | with_reducible refine (setLine_keeps ..).step ?_
    | with_reducible refine Keeps.foldl ?_ ?_
    | with_reducible refine Keeps.foldl_fst ?_ ?_
    | with_reducible refine Keeps.foldl_snd ?_ ?_
    | intro _ _ _
    | intro _ _
    | split

theorem rewrapPays_keeps (a1 a2 a3 a4 s) : OKeeps 0x2802 s (fun t => t) (rewrapPays a1 a2 a3 a4 s) := by
  unfold rewrapPays
  try dsimp only
  repeat'
    first
    | with_reducible exact Keeps.refl _ _
    | with_reducible refine Keeps.ite ?_ ?_
    | with_reducible refine (migrTake_keeps ..).step ?_
    | with_reducible refine (nsTake_keeps ..).step ?_
    | apply OKeeps.bind
    | with_reducible refine Keeps.getD ?_ ?_
    | with_reducible refine Keeps.getD_snd ?_ ?_
    | apply OKeeps.obind
    | refine OKeeps.map_snd ?_ fun _ => rfl
    | apply OKeeps.map
    | with_reducible refine OKeeps.pure ?_
    | with_reducible exact OKeeps.none
    | with_reducible refine OKeeps.some ?_
    | with_reducible refine OKeeps.ite ?_ ?_
    | split

theorem rewrapOne_keeps (a1 a2 s) : Keeps 0x12902 s (rewrapOne a1 a2 s) := by
  unfold rewrapOne
  try dsimp only
  repeat'
    first
    | with_reducible exact Keeps.refl _ _
    | with_reducible assumption
    | with_reducible refine Keeps.ite ?_ ?_
    | with_reducible refine (State.setMint_keeps _ _ ?_).step ?_
    | with_reducible refine (setFrame_keeps ..).step ?_
    | with_reducible refine (rewrapLines_keeps ..).step ?_
    | with_reducible refine (rewrapPays_keeps ..).step ?_
    | with_reducible refine (OKeeps.get (rewrapPays_keeps ..) (by assumption)).step ?_
    | with_reducible refine (unitDone_keeps ..).step ?_
    | apply OKeeps.bind
    | with_reducible refine Keeps.getD ?_ ?_
    | with_reducible refine Keeps.getD_snd ?_ ?_
    | apply OKeeps.obind
    | refine OKeeps.map_snd ?_ fun _ => rfl
    | apply OKeeps.map
    | with_reducible refine OKeeps.pure ?_
    | with_reducible exact OKeeps.none
    | with_reducible refine OKeeps.some ?_
    | with_reducible refine OKeeps.ite ?_ ?_
    | with_reducible refine OKeeps.get ?_ (by assumption)
    | with_reducible refine OKeeps.get1 ?_ (by assumption)
    | with_reducible refine OKeeps.get2 ?_ (by assumption)
    | exact fun h => h
    | exact fun h => ⟨tput_rising _ _ h.1 _, h.2⟩
    | exact fun h => ⟨h.1, tput_rising _ _ h.2 _⟩
    | exact fun h => ⟨Tbl.rising_map h.1 _ fun _ => rfl, h.2⟩
    | exact fun h => ⟨h.1, Tbl.rising_map h.2 _ fun _ => rfl⟩
    | exact fun h => ⟨h.1.filter _, h.2⟩
    | exact fun h => ⟨h.1, h.2.filter _⟩
    | exact fun h => ⟨Tbl.rising_map h.1 _ fun p => by split <;> rfl, h.2⟩
    | intro _ _ _
    | intro _ _
    | split

theorem execRewrapUnit_keeps (a1 a2 s) : RKeeps 0x12902 s (execRewrapUnit a1 a2 s) := by
  unfold execRewrapUnit
  try dsimp only
  repeat'
    first
    | with_reducible exact Keeps.refl _ _
    | with_reducible refine Keeps.ite ?_ ?_
    | with_reducible refine RKeeps.next ?_
    | with_reducible refine RKeeps.ite ?_ ?_
    | with_reducible refine (rewrapOne_keeps ..).step ?_

theorem setEpoch_keeps (s : State) (lo hi cur : Nat) : Keeps 0x502 s (s.setMem fun m =>
    { m with lines := m.lines.map fun q => if lo ≤ q.1 ∧ q.1 < hi then (q.1, { q.2 with epoch := cur }) else q }) :=
  (State.setMem_keeps _ _ rfl fun h => ⟨h.1, h.2, h.3, Tbl.rising_map h.4 _ fun p => by split <;> rfl, h.5⟩).mono

theorem dropBase_keeps (s b : State) (lo hi : Nat) (h : Keeps 0x502 s b) : Keeps 0x502 s (b.setMem fun m =>
    { m with lines := m.lines.filter fun q => !(decide (lo ≤ q.1 ∧ q.1 < hi) && q.2 == lineBase b q.1) }) :=
  (State.setMem_keeps _ _ rfl fun h => ⟨h.1, h.2, h.3, Tbl.rising_filter h.4 _, h.5⟩).step h

theorem rewrapAll_keeps (a1 s a2) : Keeps 0x502 s (rewrapAll a1 s a2) := by
  unfold rewrapAll
  refine dropBase_keeps s _ _ _ ?_
  refine (setExt_keeps ..).step ?_
  refine (unitDone_keeps ..).step ?_
  exact setEpoch_keeps ..

theorem sweepEnd_keeps (a1 s) : Keeps 0x1010F82 s (sweepEnd a1 s) := by
  unfold sweepEnd
  try dsimp only
  repeat'
    first
    | with_reducible exact Keeps.refl _ _
    | with_reducible assumption
    | with_reducible refine Keeps.ite ?_ ?_
    | with_reducible refine (rewrapAll_keeps ..).step ?_
    | with_reducible refine (writeSeal_keeps ..).step ?_
    | with_reducible refine (unitDone_keeps ..).step ?_
    | with_reducible refine (setFrame_keeps ..).step ?_
    | with_reducible refine (setKeys_keeps ..).step ?_
    | with_reducible refine Keeps.foldl ?_ ?_
    | with_reducible refine Keeps.foldl_fst ?_ ?_
    | with_reducible refine Keeps.foldl_snd ?_ ?_
    | intro _ _ _

theorem execSweepComplete_keeps (a1 s) : RKeeps 0x1010F82 s (execSweepComplete a1 s) := by
  unfold execSweepComplete
  try dsimp only
  repeat'
    first
    | with_reducible exact Keeps.refl _ _
    | with_reducible refine Keeps.ite ?_ ?_
    | with_reducible refine RKeeps.next ?_
    | with_reducible refine RKeeps.ite ?_ ?_
    | with_reducible refine (sweepEnd_keeps ..).step ?_

theorem rotateNow_keeps (a1 s) : Keeps 0x1010F82 s (rotateNow a1 s) := by
  unfold rotateNow
  try dsimp only
  repeat'
    first
    | with_reducible exact Keeps.refl _ _
    | with_reducible assumption
    | with_reducible refine Keeps.ite ?_ ?_
    | with_reducible refine (setKeys_keeps ..).step ?_
    | with_reducible refine (writeSeal_keeps ..).step ?_
    | with_reducible refine (sweepEnd_keeps ..).step ?_
    | with_reducible refine (setExt_keeps ..).step ?_
    | with_reducible refine Keeps.foldl ?_ ?_
    | with_reducible refine Keeps.foldl_fst ?_ ?_
    | with_reducible refine Keeps.foldl_snd ?_ ?_
    | intro _ _ _

theorem writeRotate_keeps (a1 a2 s) : Keeps 0x1010F82 s (writeRotate a1 a2 s).2 := by
  unfold writeRotate
  try dsimp only
  repeat'
    first
    | with_reducible exact Keeps.refl _ _
    | with_reducible refine Keeps.ite ?_ ?_
    | with_reducible refine Keeps.ite_snd ?_ ?_
    | with_reducible refine (rotateNow_keeps ..).step ?_
    | with_reducible refine (keyStatus_keeps ..).step ?_

theorem execKeyRotate_keeps (a1 a2 s) : RKeeps 0x1110F82 s (execKeyRotate a1 a2 s) := by
  unfold execKeyRotate
  try dsimp only
  repeat'
    first
    | with_reducible exact Keeps.refl _ _
    | with_reducible assumption
    | with_reducible refine Keeps.ite ?_ ?_
    | with_reducible refine RKeeps.next ?_
    | with_reducible refine RKeeps.ite ?_ ?_
    | with_reducible refine mirrorGate_keeps ?_ ?_
    | with_reducible refine (writeRotate_keeps ..).step ?_
    | with_reducible refine (Keeps.snd (writeRotate_keeps ..) (by assumption)).step ?_
    | with_reducible refine objCmd_keeps ?_ ?_
    | split
    | intro _ _ _
    | intro _ _

theorem writeRetire_keeps (a1 a2 s) : Keeps 0x1010782 s (writeRetire a1 a2 s).2 := by
  unfold writeRetire
  try dsimp only
  repeat'
    first
    | with_reducible exact Keeps.refl _ _
    | with_reducible assumption
    | with_reducible refine Keeps.ite ?_ ?_
    | with_reducible refine Keeps.ite_snd ?_ ?_
    | with_reducible refine (writeSeal_keeps ..).step ?_
    | with_reducible refine (setExt_keeps ..).step ?_
    | with_reducible refine (keyStatus_keeps ..).step ?_
    | with_reducible refine (setKeys_keeps ..).step ?_
    | with_reducible refine Keeps.foldl ?_ ?_
    | with_reducible refine Keeps.foldl_fst ?_ ?_
    | with_reducible refine Keeps.foldl_snd ?_ ?_
    | intro _ _ _

theorem execRetireOldEpoch_keeps (a1 a2 s) : RKeeps 0x1110782 s (execRetireOldEpoch a1 a2 s) := by
  unfold execRetireOldEpoch
  try dsimp only
  repeat'
    first
    | with_reducible exact Keeps.refl _ _
    | with_reducible assumption
    | with_reducible refine Keeps.ite ?_ ?_
    | with_reducible refine RKeeps.next ?_
    | with_reducible refine RKeeps.ite ?_ ?_
    | with_reducible refine mirrorGate_keeps ?_ ?_
    | with_reducible refine objCmd_keeps ?_ ?_
    | with_reducible refine (writeRetire_keeps ..).step ?_
    | with_reducible refine (Keeps.snd (writeRetire_keeps ..) (by assumption)).step ?_
    | split
    | intro _ _ _
    | intro _ _

theorem writeSealing_keeps (a1 a2 s) : Keeps 0x2 s (writeSealing a1 a2 s).2 := by
  unfold writeSealing
  try dsimp only
  repeat'
    first
    | with_reducible exact Keeps.refl _ _
    | with_reducible refine Keeps.ite ?_ ?_
    | with_reducible refine Keeps.ite_snd ?_ ?_
    | with_reducible refine (writeObj_keeps ..).step ?_
    | with_reducible refine (keyStatus_keeps ..).step ?_

theorem execSealKeysWrite_keeps (a1 a2 s) : RKeeps 0x2 s (execSealKeysWrite a1 a2 s) := by
  unfold execSealKeysWrite
  try dsimp only
  repeat'
    first
    | with_reducible exact Keeps.refl _ _
    | with_reducible assumption
    | with_reducible refine Keeps.ite ?_ ?_
    | with_reducible refine RKeeps.next ?_
    | with_reducible refine RKeeps.ite ?_ ?_
    | with_reducible refine (writeSealing_keeps ..).step ?_
    | with_reducible refine (Keeps.snd (writeSealing_keeps ..) (by assumption)).step ?_
    | with_reducible refine commanded_keeps ?_ ?_
    | split
    | intro _ _ _
    | intro _ _

theorem writeSealExtent_keeps (a1 s) : Keeps 0x2 s (writeSealExtent a1 s).2 := by
  unfold writeSealExtent
  try dsimp only
  repeat'
    first
    | with_reducible exact Keeps.refl _ _
    | with_reducible refine Keeps.ite ?_ ?_
    | with_reducible refine Keeps.ite_snd ?_ ?_
    | with_reducible refine (writeObj_keeps ..).step ?_

theorem execRandomSourceHealthFail_keeps (s) : RKeeps 0x10000 s (execRandomSourceHealthFail s) := by
  unfold execRandomSourceHealthFail
  try dsimp only
  repeat'
    first
    | with_reducible exact Keeps.refl _ _
    | with_reducible refine Keeps.ite ?_ ?_
    | with_reducible refine RKeeps.next ?_
    | with_reducible refine RKeeps.ite ?_ ?_
    | with_reducible refine (State.setMint_keeps _ _ ?_).step ?_
    | exact fun h => h

theorem execRandomSourceHealthy_keeps (s) : RKeeps 0x10000 s (execRandomSourceHealthy s) := by
  unfold execRandomSourceHealthy
  try dsimp only
  repeat'
    first
    | with_reducible exact Keeps.refl _ _
    | with_reducible refine Keeps.ite ?_ ?_
    | with_reducible refine RKeeps.next ?_
    | with_reducible refine RKeeps.ite ?_ ?_
    | with_reducible refine (State.setMint_keeps _ _ ?_).step ?_
    | exact fun h => h

theorem mExtend_keeps (a1 a2 s) : Keeps 0x10000 s (mExtend a1 a2 s) := by
  unfold mExtend
  try dsimp only
  repeat'
    first
    | with_reducible exact Keeps.refl _ _
    | with_reducible refine Keeps.ite ?_ ?_
    | with_reducible refine (State.setMint_keeps _ _ ?_).step ?_
    | exact fun h => ⟨h.1, tput_rising _ _ h.2 _⟩

theorem setSpdm_keeps (a1 a2 s) : Keeps 0x10000 s (setSpdm a1 a2 s) := by
  unfold setSpdm
  try dsimp only
  repeat'
    first
    | with_reducible exact Keeps.refl _ _
    | with_reducible refine Keeps.ite ?_ ?_
    | with_reducible refine (State.setMint_keeps _ _ ?_).step ?_
    | exact fun h => h

theorem spdmAnswer_keeps (a1 a2 a3 s) : Keeps 0x410000 s (spdmAnswer a1 a2 a3 s).2 := by
  unfold spdmAnswer
  try dsimp only
  repeat'
    first
    | with_reducible exact Keeps.refl _ _
    | with_reducible refine Keeps.ite ?_ ?_
    | with_reducible refine Keeps.ite_snd ?_ ?_
    | with_reducible refine (freeStep_keeps ..).step ?_
    | with_reducible refine (setSpdm_keeps ..).step ?_
    | split

theorem spdmBound_keeps {P : Nat} {r : State} {p : Nat} {x : List Byte × State} (h : Keeps P r x.2)
    (sub : Nat.lor 0x10000 P = P := by with_unfolding_all rfl) : Keeps P r (spdmBound p x).2 := by
  unfold spdmBound
  dsimp only
  split
  · exact h
  · exact (setSpdm_keeps ..).step h sub

theorem spdmMsg_keeps (a1 a2 s) : Keeps 0x410000 s (spdmMsg a1 a2 s).2 := by
  unfold spdmMsg
  try dsimp only
  repeat'
    first
    | with_reducible exact Keeps.refl _ _
    | with_reducible assumption
    | with_reducible refine Keeps.ite ?_ ?_
    | with_reducible refine Keeps.ite_snd ?_ ?_
    | with_reducible refine spdmBound_keeps ?_
    | with_reducible refine (spdmAnswer_keeps ..).step ?_
    | with_reducible refine (Keeps.snd (spdmAnswer_keeps ..) (by assumption)).step ?_
    | with_reducible refine Keeps.snd ?_ (by assumption)
    | with_reducible refine Keeps.fst ?_ (by assumption)
    | with_reducible refine Keeps.snd2 ?_ (by assumption)
    | with_reducible refine Keeps.snd3 ?_ (by assumption)
    | intro _ _ _
    | intro _ _
    | split

theorem spdmTake_keeps (a1 a2 a3 s) : Keeps 0x610040 s (spdmTake a1 a2 a3 s) := by
  unfold spdmTake
  try dsimp only
  repeat'
    first
    | with_reducible exact Keeps.refl _ _
    | with_reducible refine Keeps.ite ?_ ?_
    | with_reducible refine (emit_keeps ..).step ?_
    | with_reducible refine (tlAck_keeps ..).step ?_
    | with_reducible refine (tlReply_keeps ..).step ?_
    | with_reducible refine (spdmMsg_keeps ..).step ?_
    | with_reducible refine (Keeps.snd (spdmMsg_keeps ..) (by assumption)).step ?_
    | with_reducible refine Keeps.snd ?_ (by assumption)
    | with_reducible refine Keeps.fst ?_ (by assumption)
    | with_reducible refine Keeps.snd2 ?_ (by assumption)
    | with_reducible refine Keeps.snd3 ?_ (by assumption)
    | split

theorem execSpdm_keeps (a1 a2 s) : RKeeps 0x610040 s (execSpdm a1 a2 s) := by
  unfold execSpdm
  try dsimp only
  repeat'
    first
    | with_reducible exact Keeps.refl _ _
    | with_reducible refine Keeps.ite ?_ ?_
    | with_reducible refine RKeeps.next ?_
    | with_reducible refine RKeeps.ite ?_ ?_
    | with_reducible refine (spdmTake_keeps ..).step ?_

theorem execGetVersion_keeps (a1 a2 s) : RKeeps 0x610040 s (execGetVersion a1 a2 s) := by
  unfold execGetVersion
  try dsimp only
  repeat'
    first
    | with_reducible exact Keeps.refl _ _
    | with_reducible refine Keeps.ite ?_ ?_
    | with_reducible refine RKeeps.next ?_
    | with_reducible refine RKeeps.ite ?_ ?_
    | with_reducible refine (spdmTake_keeps ..).step ?_

theorem execGetCapabilities_keeps (a1 a2 s) : RKeeps 0x610040 s (execGetCapabilities a1 a2 s) := by
  unfold execGetCapabilities
  try dsimp only
  repeat'
    first
    | with_reducible exact Keeps.refl _ _
    | with_reducible refine Keeps.ite ?_ ?_
    | with_reducible refine RKeeps.next ?_
    | with_reducible refine RKeeps.ite ?_ ?_
    | with_reducible refine (spdmTake_keeps ..).step ?_

theorem execNegotiateAlgorithms_keeps (a1 a2 s) : RKeeps 0x610040 s (execNegotiateAlgorithms a1 a2 s) := by
  unfold execNegotiateAlgorithms
  try dsimp only
  repeat'
    first
    | with_reducible exact Keeps.refl _ _
    | with_reducible refine Keeps.ite ?_ ?_
    | with_reducible refine RKeeps.next ?_
    | with_reducible refine RKeeps.ite ?_ ?_
    | with_reducible refine (spdmTake_keeps ..).step ?_

theorem execGetDigests_keeps (a1 a2 s) : RKeeps 0x610040 s (execGetDigests a1 a2 s) := by
  unfold execGetDigests
  try dsimp only
  repeat'
    first
    | with_reducible exact Keeps.refl _ _
    | with_reducible refine Keeps.ite ?_ ?_
    | with_reducible refine RKeeps.next ?_
    | with_reducible refine RKeeps.ite ?_ ?_
    | with_reducible refine (spdmTake_keeps ..).step ?_

theorem execGetCertificate_keeps (a1 a2 s) : RKeeps 0x610040 s (execGetCertificate a1 a2 s) := by
  unfold execGetCertificate
  try dsimp only
  repeat'
    first
    | with_reducible exact Keeps.refl _ _
    | with_reducible refine Keeps.ite ?_ ?_
    | with_reducible refine RKeeps.next ?_
    | with_reducible refine RKeeps.ite ?_ ?_
    | with_reducible refine (spdmTake_keeps ..).step ?_

theorem execChallenge_keeps (a1 a2 s) : RKeeps 0x610040 s (execChallenge a1 a2 s) := by
  unfold execChallenge
  try dsimp only
  repeat'
    first
    | with_reducible exact Keeps.refl _ _
    | with_reducible refine Keeps.ite ?_ ?_
    | with_reducible refine RKeeps.next ?_
    | with_reducible refine RKeeps.ite ?_ ?_
    | with_reducible refine (spdmTake_keeps ..).step ?_

theorem execGetMeasurements_keeps (a1 a2 s) : RKeeps 0x610040 s (execGetMeasurements a1 a2 s) := by
  unfold execGetMeasurements
  try dsimp only
  repeat'
    first
    | with_reducible exact Keeps.refl _ _
    | with_reducible refine Keeps.ite ?_ ?_
    | with_reducible refine RKeeps.next ?_
    | with_reducible refine RKeeps.ite ?_ ?_
    | with_reducible refine (spdmTake_keeps ..).step ?_

theorem execKeyExchange_keeps (a1 a2 s) : RKeeps 0x610040 s (execKeyExchange a1 a2 s) := by
  unfold execKeyExchange
  try dsimp only
  repeat'
    first
    | with_reducible exact Keeps.refl _ _
    | with_reducible refine Keeps.ite ?_ ?_
    | with_reducible refine RKeeps.next ?_
    | with_reducible refine RKeeps.ite ?_ ?_
    | with_reducible refine (spdmTake_keeps ..).step ?_

theorem execFinish_keeps (a1 a2 s) : RKeeps 0x610040 s (execFinish a1 a2 s) := by
  unfold execFinish
  try dsimp only
  repeat'
    first
    | with_reducible exact Keeps.refl _ _
    | with_reducible refine Keeps.ite ?_ ?_
    | with_reducible refine RKeeps.next ?_
    | with_reducible refine RKeeps.ite ?_ ?_
    | with_reducible refine (spdmTake_keeps ..).step ?_

theorem execHeartbeat_keeps (a1 a2 s) : RKeeps 0x610040 s (execHeartbeat a1 a2 s) := by
  unfold execHeartbeat
  try dsimp only
  repeat'
    first
    | with_reducible exact Keeps.refl _ _
    | with_reducible refine Keeps.ite ?_ ?_
    | with_reducible refine RKeeps.next ?_
    | with_reducible refine RKeeps.ite ?_ ?_
    | with_reducible refine (spdmTake_keeps ..).step ?_

theorem execKeyUpdate_keeps (a1 a2 s) : RKeeps 0x610040 s (execKeyUpdate a1 a2 s) := by
  unfold execKeyUpdate
  try dsimp only
  repeat'
    first
    | with_reducible exact Keeps.refl _ _
    | with_reducible refine Keeps.ite ?_ ?_
    | with_reducible refine RKeeps.next ?_
    | with_reducible refine RKeeps.ite ?_ ?_
    | with_reducible refine (spdmTake_keeps ..).step ?_

theorem execEndSession_keeps (a1 a2 s) : RKeeps 0x610040 s (execEndSession a1 a2 s) := by
  unfold execEndSession
  try dsimp only
  repeat'
    first
    | with_reducible exact Keeps.refl _ _
    | with_reducible refine Keeps.ite ?_ ?_
    | with_reducible refine RKeeps.next ?_
    | with_reducible refine RKeeps.ite ?_ ?_
    | with_reducible refine (spdmTake_keeps ..).step ?_

theorem execChunkGet_keeps (a1 a2 s) : RKeeps 0x610040 s (execChunkGet a1 a2 s) := by
  unfold execChunkGet
  try dsimp only
  repeat'
    first
    | with_reducible exact Keeps.refl _ _
    | with_reducible refine Keeps.ite ?_ ?_
    | with_reducible refine RKeeps.next ?_
    | with_reducible refine RKeeps.ite ?_ ?_
    | with_reducible refine (spdmTake_keeps ..).step ?_

theorem execPqCerts_keeps (a1 a2 s) : RKeeps 0x610040 s (execPqCerts a1 a2 s) := by
  unfold execPqCerts
  try dsimp only
  repeat'
    first
    | with_reducible exact Keeps.refl _ _
    | with_reducible refine Keeps.ite ?_ ?_
    | with_reducible refine RKeeps.next ?_
    | with_reducible refine RKeeps.ite ?_ ?_
    | with_reducible refine (spdmTake_keeps ..).step ?_

theorem execPqSig_keeps (a1 a2 s) : RKeeps 0x610040 s (execPqSig a1 a2 s) := by
  unfold execPqSig
  try dsimp only
  repeat'
    first
    | with_reducible exact Keeps.refl _ _
    | with_reducible refine Keeps.ite ?_ ?_
    | with_reducible refine RKeeps.next ?_
    | with_reducible refine RKeeps.ite ?_ ?_
    | with_reducible refine (spdmTake_keeps ..).step ?_

theorem execTenantReport_keeps (a1 a2 s) : RKeeps 0x610040 s (execTenantReport a1 a2 s) := by
  unfold execTenantReport
  try dsimp only
  repeat'
    first
    | with_reducible exact Keeps.refl _ _
    | with_reducible refine Keeps.ite ?_ ?_
    | with_reducible refine RKeeps.next ?_
    | with_reducible refine RKeeps.ite ?_ ?_
    | with_reducible refine (spdmTake_keeps ..).step ?_

theorem execBundleKeys_keeps (a1 a2 s) : RKeeps 0x610040 s (execBundleKeys a1 a2 s) := by
  unfold execBundleKeys
  try dsimp only
  repeat'
    first
    | with_reducible exact Keeps.refl _ _
    | with_reducible refine Keeps.ite ?_ ?_
    | with_reducible refine RKeeps.next ?_
    | with_reducible refine RKeeps.ite ?_ ?_
    | with_reducible refine (spdmTake_keeps ..).step ?_

theorem verbTake_keeps {P : Nat} {r : State} {c v : Nat} {sender : Nat → Bool} {run : TlMsg → State → State} {s : State}
    (h : Keeps P r s) (hr : ∀ m, Keeps P r (run m s)) (sub : Nat.lor 0x200040 P = P := by with_unfolding_all rfl) :
    Keeps P r (verbTake c v sender run s) := by
  unfold verbTake
  split
  · exact h
  · exact Keeps.ite h (Keeps.ite ((tlAck_keeps ..).step h sub) (Keeps.ite ((tlAck_keeps ..).step h sub) (hr _)))

theorem execExtend_keeps (a1 s) : RKeeps 0x210040 s (execExtend a1 s) := by
  unfold execExtend
  try dsimp only
  repeat'
    first
    | with_reducible exact Keeps.refl _ _
    | with_reducible assumption
    | with_reducible refine Keeps.ite ?_ ?_
    | with_reducible refine RKeeps.next ?_
    | with_reducible refine RKeeps.ite ?_ ?_
    | with_reducible refine verbTake_keeps (.refl ..) fun _ => ?_
    | with_reducible refine (tlAck_keeps ..).step ?_
    | with_reducible refine (mExtend_keeps ..).step ?_

theorem execDebugUnlock_keeps (a1 s) : RKeeps 0x610040 s (execDebugUnlock a1 s) := by
  unfold execDebugUnlock
  try dsimp only
  repeat'
    first
    | with_reducible exact Keeps.refl _ _
    | with_reducible assumption
    | with_reducible refine Keeps.ite ?_ ?_
    | with_reducible refine RKeeps.next ?_
    | with_reducible refine RKeeps.ite ?_ ?_
    | with_reducible refine verbTake_keeps (.refl ..) fun _ => ?_
    | with_reducible refine (State.setMint_keeps _ _ ?_).step ?_
    | with_reducible refine (tlAck_keeps ..).step ?_
    | with_reducible refine (mExtend_keeps ..).step ?_
    | with_reducible refine (freeStep_keeps ..).step ?_
    | exact fun h => h

theorem execUnknownVerb_keeps (a1 s) : RKeeps 0x200040 s (execUnknownVerb a1 s) := by
  unfold execUnknownVerb
  try dsimp only
  repeat'
    first
    | with_reducible exact Keeps.refl _ _
    | with_reducible refine Keeps.ite ?_ ?_
    | with_reducible refine RKeeps.next ?_
    | with_reducible refine RKeeps.ite ?_ ?_
    | with_reducible refine (tlAck_keeps ..).step ?_
    | split

theorem execBundleImport_keeps (a1 s) : RKeeps 0x210442 s (execBundleImport a1 s) := by
  unfold execBundleImport
  try dsimp only
  repeat'
    first
    | with_reducible exact Keeps.refl _ _
    | with_reducible assumption
    | with_reducible refine Keeps.ite ?_ ?_
    | with_reducible refine RKeeps.next ?_
    | with_reducible refine RKeeps.ite ?_ ?_
    | with_reducible refine verbTake_keeps (.refl ..) fun _ => ?_
    | with_reducible refine (State.setMint_keeps _ _ ?_).step ?_
    | with_reducible refine (tlAck_keeps ..).step ?_
    | with_reducible refine (tlReply_keeps ..).step ?_
    | with_reducible refine (setObj_keeps ..).step ?_
    | with_reducible refine (setExt_keeps ..).step ?_
    | with_reducible refine Keeps.foldl ?_ ?_
    | with_reducible refine Keeps.foldl_fst ?_ ?_
    | with_reducible refine Keeps.foldl_snd ?_ ?_
    | with_reducible refine Keeps.snd ?_ (by assumption)
    | with_reducible refine Keeps.fst ?_ (by assumption)
    | with_reducible refine Keeps.snd2 ?_ (by assumption)
    | with_reducible refine Keeps.snd3 ?_ (by assumption)
    | exact fun h => h
    | exact fun h => tput_rising _ _ h _
    | exact fun h => ⟨tput_rising _ _ h.1 _, h.2⟩
    | exact fun h => Tbl.rising_map h _ fun _ => rfl
    | exact fun h => ⟨Tbl.rising_map h.1 _ fun _ => rfl, h.2⟩
    | split
    | intro _ _ _

theorem execBundleImportEnd_keeps (a1 s) : RKeeps 0x1010142 s (execBundleImportEnd a1 s) := by
  unfold execBundleImportEnd
  try dsimp only
  repeat'
    first
    | with_reducible exact Keeps.refl _ _
    | with_reducible refine Keeps.ite ?_ ?_
    | with_reducible refine RKeeps.next ?_
    | with_reducible refine RKeeps.ite ?_ ?_
    | with_reducible refine (State.setMint_keeps _ _ ?_).step ?_
    | with_reducible refine (mExtend_keeps ..).step ?_
    | with_reducible refine (State.setBytes_keeps _ _ ?_).step ?_
    | with_reducible refine (tlReply_keeps ..).step ?_
    | with_reducible refine (setObj_keeps ..).step ?_
    | with_reducible refine (zeroRange_keeps ..).step ?_
    | exact fun h => h
    | exact fun h => tput_rising _ _ h _
    | exact fun h => ⟨tput_rising _ _ h.1 _, h.2⟩
    | exact fun h => Tbl.rising_map h _ fun _ => rfl
    | exact fun h => ⟨Tbl.rising_map h.1 _ fun _ => rfl, h.2⟩
    | exact fun h => ⟨mwrite_wf h.1 _ _, h.2, h.3, h.4, h.5⟩
    | exact fun h => ⟨mzero_wf h.1 _ _, h.2, h.3, h.4, h.5⟩
    | exact fun h => Mem.ok_of h rfl rfl rfl
    | split

end Sys2Proof.Machine
end

