-- ==== Sys2Proof/Laws/KeepsLinks.lean ====
section
/-! SUPPORT. What each operation of Machine/Links.lean may write, and that it keeps the invariant. -/

namespace Sys2Proof.Machine

set_option Elab.async false

theorem linkTo_keeps (a1 a2 s) : Keeps 0x20000 s (linkTo a1 a2 s) := by
  unfold linkTo
  try dsimp only
  repeat'
    first
    | with_reducible exact Keeps.refl _ _
    | with_reducible refine Keeps.ite ?_ ?_
    | with_reducible refine (setLink_keeps ..).step ?_

theorem linkCount_keeps (a1 a2 s) : Keeps 0x20000 s (linkCount a1 a2 s) := by
  unfold linkCount
  try dsimp only
  repeat'
    first
    | with_reducible exact Keeps.refl _ _
    | with_reducible refine Keeps.ite ?_ ?_
    | with_reducible refine (setLink_keeps ..).step ?_

theorem linkSettings_keeps (a1 s) : Keeps 0x2 s (linkSettings a1 s) := by
  unfold linkSettings
  try dsimp only
  repeat'
    first
    | with_reducible exact Keeps.refl _ _
    | with_reducible refine Keeps.ite ?_ ?_
    | with_reducible refine (applyWaiting_keeps ..).step ?_

theorem pushesDone_keeps (a1 s) : Keeps 0x323C82 s (pushesDone a1 s) := by
  unfold pushesDone
  try dsimp only
  repeat'
    first
    | with_reducible exact Keeps.refl _ _
    | with_reducible assumption
    | with_reducible refine Keeps.ite ?_ ?_
    | with_reducible refine (complete_keeps ..).step ?_
    | with_reducible refine Keeps.foldl ?_ ?_
    | with_reducible refine Keeps.foldl_fst ?_ ?_
    | with_reducible refine Keeps.foldl_snd ?_ ?_
    | intro _ _ _

theorem linkDown_keeps (a1 a2 s) : Keeps 0x13ABF86 s (linkDown a1 a2 s) := by
  unfold linkDown
  try dsimp only
  repeat'
    first
    | with_reducible exact Keeps.refl _ _
    | with_reducible refine Keeps.ite ?_ ?_
    | with_reducible refine (pushesDone_keeps ..).step ?_
    | with_reducible refine (emcyRaise_keeps ..).step ?_
    | with_reducible refine (State.setCoh_keeps _ _ ?_).step ?_
    | with_reducible refine (setLink_keeps ..).step ?_
    | with_reducible refine (failAgent_keeps ..).step ?_
    | with_reducible refine (telemetry_keeps ..).step ?_
    | exact fun h => h
    | exact fun h => ⟨tput_rising _ _ h.1 _, h.2⟩
    | exact fun h => ⟨h.1, tput_rising _ _ h.2 _⟩
    | exact fun h => ⟨Tbl.rising_map h.1 _ fun _ => rfl, h.2⟩
    | exact fun h => ⟨h.1, Tbl.rising_map h.2 _ fun _ => rfl⟩
    | exact fun h => ⟨h.1.filter _, h.2⟩
    | exact fun h => ⟨h.1, h.2.filter _⟩
    | exact fun h => ⟨Tbl.rising_map h.1 _ fun p => by split <;> rfl, h.2⟩
    | split

theorem linkDetect_keeps (a1 s) : Keeps 0x20002 s (linkDetect a1 s) := by
  unfold linkDetect
  try dsimp only
  repeat'
    first
    | with_reducible exact Keeps.refl _ _
    | with_reducible refine Keeps.ite ?_ ?_
    | with_reducible refine (linkSettings_keeps ..).step ?_
    | with_reducible refine (linkTo_keeps ..).step ?_

theorem linkRetrain_keeps (a1 a2 s) : Keeps 0x13ABF86 s (linkRetrain a1 a2 s) := by
  unfold linkRetrain
  try dsimp only
  repeat'
    first
    | with_reducible exact Keeps.refl _ _
    | with_reducible refine Keeps.ite ?_ ?_
    | with_reducible refine (setLink_keeps ..).step ?_
    | with_reducible refine (linkSettings_keeps ..).step ?_
    | with_reducible refine (linkCount_keeps ..).step ?_
    | with_reducible refine (linkDown_keeps ..).step ?_

theorem linkActive_keeps (a1 s) : Keeps 0x328000 s (linkActive a1 s) := by
  unfold linkActive
  try dsimp only
  repeat'
    first
    | with_reducible exact Keeps.refl _ _
    | with_reducible refine Keeps.ite ?_ ?_
    | with_reducible refine (agentTrained_keeps ..).step ?_
    | with_reducible refine (sendDigest_keeps ..).step ?_
    | with_reducible refine (setLink_keeps ..).step ?_
    | with_reducible refine (Keeps.span_mk _ _ ?_).step ?_
    | exact rfl

theorem sendLink_keeps (a1 a2 s) : Keeps 0x220080 s (sendLink a1 a2 s) := by
  unfold sendLink
  try dsimp only
  repeat'
    first
    | with_reducible exact Keeps.refl _ _
    | with_reducible refine Keeps.ite ?_ ?_
    | with_reducible refine (linkTally_keeps ..).step ?_
    | with_reducible refine (emit_keeps ..).step ?_
    | with_reducible refine (linkBuild_keeps ..).step ?_

theorem sendFrags_keeps (a1 a2 a3 a4 a5 s) : Keeps 0x220080 s (sendFrags a1 a2 a3 a4 a5 s) := by
  induction a3 generalizing a1 a2 a4 a5 s with
  | zero =>
    unfold sendFrags
    try dsimp only
    repeat'
      first
      | with_reducible exact Keeps.refl _ _
  | succ k ih =>
    unfold sendFrags
    try dsimp only
    repeat'
      first
      | with_reducible refine (ih ..).step ?_
      | with_reducible exact Keeps.refl _ _
      | with_reducible refine Keeps.ite ?_ ?_
      | with_reducible refine (sendLink_keeps ..).step ?_

theorem linkSecure_keeps (a1 s) : Keeps 0x620080 s (linkSecure a1 s) := by
  unfold linkSecure
  try dsimp only
  repeat'
    first
    | with_reducible exact Keeps.refl _ _
    | with_reducible refine Keeps.ite ?_ ?_
    | with_reducible refine (sendLink_keeps ..).step ?_
    | with_reducible refine (setLink_keeps ..).step ?_
    | with_reducible refine (linkTo_keeps ..).step ?_
    | with_reducible refine (freeStep_keeps ..).step ?_

theorem linkRestart_keeps (a1 s) : Keeps 0x20002 s (linkRestart a1 s) := by
  unfold linkRestart
  try dsimp only
  repeat'
    first
    | with_reducible exact Keeps.refl _ _
    | with_reducible refine Keeps.ite ?_ ?_
    | with_reducible refine (linkDetect_keeps ..).step ?_

theorem execLinkctlRestart_keeps (a1 s) : RKeeps 0x20002 s (execLinkctlRestart a1 s) := by
  unfold execLinkctlRestart
  try dsimp only
  repeat'
    first
    | with_reducible exact Keeps.refl _ _
    | with_reducible refine Keeps.ite ?_ ?_
    | with_reducible refine RKeeps.next ?_
    | with_reducible refine RKeeps.ite ?_ ?_
    | with_reducible refine (linkRestart_keeps ..).step ?_

theorem execLinkctlRetrain_keeps (a1 s) : RKeeps 0x13ABF86 s (execLinkctlRetrain a1 s) := by
  unfold execLinkctlRetrain
  try dsimp only
  repeat'
    first
    | with_reducible exact Keeps.refl _ _
    | with_reducible refine Keeps.ite ?_ ?_
    | with_reducible refine RKeeps.next ?_
    | with_reducible refine RKeeps.ite ?_ ?_
    | with_reducible refine (linkRetrain_keeps ..).step ?_

theorem execLinkctlDown_keeps (a1 s) : RKeeps 0x13ABF86 s (execLinkctlDown a1 s) := by
  unfold execLinkctlDown
  try dsimp only
  repeat'
    first
    | with_reducible exact Keeps.refl _ _
    | with_reducible refine Keeps.ite ?_ ?_
    | with_reducible refine RKeeps.next ?_
    | with_reducible refine RKeeps.ite ?_ ?_
    | with_reducible refine (linkDown_keeps ..).step ?_

theorem linkRekey_keeps (a1 s) : Keeps 0x20000 s (linkRekey a1 s) := by
  unfold linkRekey
  try dsimp only
  repeat'
    first
    | with_reducible exact Keeps.refl _ _
    | with_reducible refine Keeps.ite ?_ ?_
    | with_reducible refine (linkCount_keeps ..).step ?_
    | with_reducible refine (setLink_keeps ..).step ?_

theorem linkRekeyNow_keeps (a1 s) : Keeps 0x20000 s (linkRekeyNow a1 s) := by
  unfold linkRekeyNow
  try dsimp only
  repeat'
    first
    | with_reducible exact Keeps.refl _ _
    | with_reducible refine Keeps.ite ?_ ?_
    | with_reducible refine (linkRekey_keeps ..).step ?_

theorem execLinkctlRekey_keeps (a1 s) : RKeeps 0x20000 s (execLinkctlRekey a1 s) := by
  unfold execLinkctlRekey
  try dsimp only
  repeat'
    first
    | with_reducible exact Keeps.refl _ _
    | with_reducible refine Keeps.ite ?_ ?_
    | with_reducible refine RKeeps.next ?_
    | with_reducible refine RKeeps.ite ?_ ?_
    | with_reducible refine (linkRekeyNow_keeps ..).step ?_

theorem execRekeyInterval_keeps (a1 s) : RKeeps 0x20091 s (execRekeyInterval a1 s) := by
  unfold execRekeyInterval
  try dsimp only
  repeat'
    first
    | with_reducible exact Keeps.refl _ _
    | with_reducible refine Keeps.ite ?_ ?_
    | with_reducible refine RKeeps.next ?_
    | with_reducible refine RKeeps.ite ?_ ?_
    | with_reducible refine (linkRekey_keeps ..).step ?_
    | with_reducible refine (carryTo_keeps ..).step ?_

theorem execLinkRestartDelay_keeps (a1 s) : RKeeps 0x20093 s (execLinkRestartDelay a1 s) := by
  unfold execLinkRestartDelay
  try dsimp only
  repeat'
    first
    | with_reducible exact Keeps.refl _ _
    | with_reducible refine Keeps.ite ?_ ?_
    | with_reducible refine RKeeps.next ?_
    | with_reducible refine RKeeps.ite ?_ ?_
    | with_reducible refine (linkDetect_keeps ..).step ?_
    | with_reducible refine (carryTo_keeps ..).step ?_

theorem execLinkPartnerDetect_keeps (a1 a2 s) : RKeeps 0x20000 s (execLinkPartnerDetect a1 a2 s) := by
  unfold execLinkPartnerDetect
  try dsimp only
  repeat'
    first
    | with_reducible exact Keeps.refl _ _
    | with_reducible refine Keeps.ite ?_ ?_
    | with_reducible refine RKeeps.next ?_
    | with_reducible refine RKeeps.ite ?_ ?_
    | with_reducible refine (linkTo_keeps ..).step ?_

theorem laneEnd_keeps (a1 a2 s) : Keeps 0x17ABF86 s (laneEnd a1 a2 s) := by
  unfold laneEnd
  try dsimp only
  repeat'
    first
    | with_reducible exact Keeps.refl _ _
    | with_reducible refine Keeps.ite ?_ ?_
    | with_reducible refine (linkActive_keeps ..).step ?_
    | with_reducible refine (setLink_keeps ..).step ?_
    | with_reducible refine (linkSecure_keeps ..).step ?_
    | with_reducible refine (linkDown_keeps ..).step ?_

theorem retrainEnd_keeps (a1 a2 a3 a4 a5 s) : Keeps 0x13ABF86 s (retrainEnd a1 a2 a3 a4 a5 s) := by
  unfold retrainEnd
  try dsimp only
  repeat'
    first
    | with_reducible exact Keeps.refl _ _
    | with_reducible refine Keeps.ite ?_ ?_
    | with_reducible refine (emit_keeps ..).step ?_
    | with_reducible refine (linkDown_keeps ..).step ?_
    | with_reducible refine (setLink_keeps ..).step ?_

theorem execLinkTrainingStageEnd_keeps (a1 a2 a3 a4 s) : RKeeps 0x17ABF86 s (execLinkTrainingStageEnd a1 a2 a3 a4 s) := by
  unfold execLinkTrainingStageEnd
  try dsimp only
  repeat'
    first
    | with_reducible exact Keeps.refl _ _
    | with_reducible refine Keeps.ite ?_ ?_
    | with_reducible refine RKeeps.next ?_
    | with_reducible refine RKeeps.ite ?_ ?_
    | with_reducible refine (setLink_keeps ..).step ?_
    | with_reducible refine (retrainEnd_keeps ..).step ?_
    | with_reducible refine (linkTo_keeps ..).step ?_
    | with_reducible refine (linkDown_keeps ..).step ?_
    | with_reducible refine (laneEnd_keeps ..).step ?_
    | split

theorem execLinkStateTimeout_keeps (a1 s) : RKeeps 0x17ABF97 s (execLinkStateTimeout a1 s) := by
  unfold execLinkStateTimeout
  try dsimp only
  repeat'
    first
    | with_reducible exact Keeps.refl _ _
    | with_reducible refine Keeps.ite ?_ ?_
    | with_reducible refine RKeeps.next ?_
    | with_reducible refine RKeeps.ite ?_ ?_
    | with_reducible refine (linkDown_keeps ..).step ?_
    | with_reducible refine (freeStep_keeps ..).step ?_
    | with_reducible refine (carryTo_keeps ..).step ?_
    | split

theorem toGoBack_keeps (a1 a2 s) : Keeps 0x220000 s (toGoBack a1 a2 s) := by
  unfold toGoBack
  try dsimp only
  repeat'
    first
    | with_reducible exact Keeps.refl _ _
    | with_reducible refine Keeps.ite ?_ ?_
    | with_reducible refine (emit_keeps ..).step ?_
    | with_reducible refine (setLink_keeps ..).step ?_

theorem aheadFlit_keeps (a1 a2 a3 s) : Keeps 0x220000 s (aheadFlit a1 a2 a3 s) := by
  unfold aheadFlit
  try dsimp only
  repeat'
    first
    | with_reducible exact Keeps.refl _ _
    | with_reducible assumption
    | with_reducible refine Keeps.ite ?_ ?_
    | with_reducible refine (toGoBack_keeps ..).step ?_
    | with_reducible refine (emit_keeps ..).step ?_
    | with_reducible refine (setLink_keeps ..).step ?_
    | with_reducible refine Keeps.foldl ?_ ?_
    | with_reducible refine Keeps.foldl_fst ?_ ?_
    | with_reducible refine Keeps.foldl_snd ?_ ?_
    | intro _ _ _

theorem badFlit_keeps (a1 a2 s) : Keeps 0x220000 s (badFlit a1 a2 s) := by
  unfold badFlit
  try dsimp only
  repeat'
    first
    | with_reducible exact Keeps.refl _ _
    | with_reducible refine Keeps.ite ?_ ?_
    | with_reducible refine (toGoBack_keeps ..).step ?_
    | with_reducible refine (emit_keeps ..).step ?_
    | with_reducible refine (setLink_keeps ..).step ?_

theorem seqFlit_keeps (a1 a2 s) : Keeps 0x13ABF86 s (seqFlit a1 a2 s) := by
  unfold seqFlit
  try dsimp only
  repeat'
    first
    | with_reducible exact Keeps.refl _ _
    | with_reducible refine Keeps.ite ?_ ?_
    | with_reducible refine (toGoBack_keeps ..).step ?_
    | with_reducible refine (linkRetrain_keeps ..).step ?_
    | with_reducible refine (setLink_keeps ..).step ?_
    | with_reducible refine (linkCount_keeps ..).step ?_
    | with_reducible refine (aheadFlit_keeps ..).step ?_

theorem goBackFrom_keeps (a1 a2 s) : Keeps 0x13ABF86 s (goBackFrom a1 a2 s) := by
  unfold goBackFrom
  try dsimp only
  repeat'
    first
    | with_reducible exact Keeps.refl _ _
    | with_reducible refine Keeps.ite ?_ ?_
    | with_reducible refine (emit_keeps ..).step ?_
    | with_reducible refine (linkRetrain_keeps ..).step ?_
    | with_reducible refine (setLink_keeps ..).step ?_
    | with_reducible refine (linkCount_keeps ..).step ?_

theorem serveReplay_keeps (a1 a2 a3 s) : Keeps 0x13ABF86 s (serveReplay a1 a2 a3 s) := by
  unfold serveReplay
  try dsimp only
  repeat'
    first
    | with_reducible exact Keeps.refl _ _
    | with_reducible refine Keeps.ite ?_ ?_
    | with_reducible refine (emit_keeps ..).step ?_
    | with_reducible refine (goBackFrom_keeps ..).step ?_
    | with_reducible refine (setLink_keeps ..).step ?_
    | with_reducible refine (linkCount_keeps ..).step ?_

theorem execFlitPosition_keeps (a1 a2 a3 a4 a5 a6 a7 a8 a9 s) : RKeeps 0x13ABF86 s (execFlitPosition a1 a2 a3 a4 a5 a6 a7 a8 a9 s) := by
  unfold execFlitPosition
  try dsimp only
  repeat'
    first
    | with_reducible exact Keeps.refl _ _
    | with_reducible refine Keeps.ite ?_ ?_
    | with_reducible refine RKeeps.next ?_
    | with_reducible refine RKeeps.ite ?_ ?_
    | with_reducible refine (serveReplay_keeps ..).step ?_
    | with_reducible refine (sendParked_keeps ..).step ?_
    | with_reducible refine (badFlit_keeps ..).step ?_
    | with_reducible refine (linkDown_keeps ..).step ?_
    | with_reducible refine (seqFlit_keeps ..).step ?_
    | with_reducible refine (setLink_keeps ..).step ?_
    | with_reducible refine (linkCount_keeps ..).step ?_
    | split

theorem execHoldingTimeout_keeps (a1 s) : RKeeps 0x220091 s (execHoldingTimeout a1 s) := by
  unfold execHoldingTimeout
  try dsimp only
  repeat'
    first
    | with_reducible exact Keeps.refl _ _
    | with_reducible refine Keeps.ite ?_ ?_
    | with_reducible refine RKeeps.next ?_
    | with_reducible refine RKeeps.ite ?_ ?_
    | with_reducible refine (toGoBack_keeps ..).step ?_
    | with_reducible refine (elapse_keeps ..).step ?_

theorem execGoBackResendTimeout_keeps (a1 s) : RKeeps 0x220091 s (execGoBackResendTimeout a1 s) := by
  unfold execGoBackResendTimeout
  try dsimp only
  repeat'
    first
    | with_reducible exact Keeps.refl _ _
    | with_reducible refine Keeps.ite ?_ ?_
    | with_reducible refine RKeeps.next ?_
    | with_reducible refine RKeeps.ite ?_ ?_
    | with_reducible refine (emit_keeps ..).step ?_
    | with_reducible refine (elapse_keeps ..).step ?_
    | with_reducible refine (setLink_keeps ..).step ?_

theorem execReplayTimeout_keeps (a1 s) : RKeeps 0x13ABF97 s (execReplayTimeout a1 s) := by
  unfold execReplayTimeout
  try dsimp only
  repeat'
    first
    | with_reducible exact Keeps.refl _ _
    | with_reducible refine Keeps.ite ?_ ?_
    | with_reducible refine RKeeps.next ?_
    | with_reducible refine RKeeps.ite ?_ ?_
    | with_reducible refine (goBackFrom_keeps ..).step ?_
    | with_reducible refine (carryTo_keeps ..).step ?_

theorem execLinkRetrainTrigger_keeps (a1 s) : RKeeps 0x13ABF86 s (execLinkRetrainTrigger a1 s) := by
  unfold execLinkRetrainTrigger
  try dsimp only
  repeat'
    first
    | with_reducible exact Keeps.refl _ _
    | with_reducible refine Keeps.ite ?_ ?_
    | with_reducible refine RKeeps.next ?_
    | with_reducible refine RKeeps.ite ?_ ?_
    | with_reducible refine (linkRetrain_keeps ..).step ?_

theorem execLinkDown_keeps (a1 a2 s) : RKeeps 0x13ABF86 s (execLinkDown a1 a2 s) := by
  unfold execLinkDown
  try dsimp only
  repeat'
    first
    | with_reducible exact Keeps.refl _ _
    | with_reducible refine Keeps.ite ?_ ?_
    | with_reducible refine RKeeps.next ?_
    | with_reducible refine RKeeps.ite ?_ ?_
    | with_reducible refine (linkDown_keeps ..).step ?_

theorem joinFrag_keeps (a1 a2 a3 s) : Keeps 0x20000 s (joinFrag a1 a2 a3 s).2 := by
  unfold joinFrag
  try dsimp only
  repeat'
    first
    | with_reducible exact Keeps.refl _ _
    | with_reducible refine Keeps.ite ?_ ?_
    | with_reducible refine Keeps.ite_snd ?_ ?_
    | with_reducible refine (setLink_keeps ..).step ?_

theorem sendProof_keeps (a1 s) : Keeps 0x220080 s (sendProof a1 s) := by
  unfold sendProof
  try dsimp only
  repeat'
    first
    | with_reducible exact Keeps.refl _ _
    | with_reducible refine Keeps.ite ?_ ?_
    | with_reducible refine (setLink_keeps ..).step ?_
    | with_reducible refine (sendFrags_keeps ..).step ?_

theorem proofsDone_keeps (a1 s) : Keeps 0x328000 s (proofsDone a1 s) := by
  unfold proofsDone
  try dsimp only
  repeat'
    first
    | with_reducible exact Keeps.refl _ _
    | with_reducible refine Keeps.ite ?_ ?_
    | with_reducible refine (linkActive_keeps ..).step ?_
    | with_reducible refine (setLink_keeps ..).step ?_

theorem keyMsg_keeps {P : Nat} {r : State} {l op : Nat} {m : KafMsg} {ok : Nat → Bool} {take : List Byte → State → State} {s : State}
    (h : Keeps P r s) (ht : ∀ bs t, Keeps P r t → Keeps P r (take bs t)) (sub : Nat.lor 0x13ABF86 P = P := by with_unfolding_all rfl) :
    Keeps P r (keyMsg l op m ok take s) := by
  unfold keyMsg
  split
  · exact h
  · extract_lets t
    have h1 : Keeps P r t := (linkTally_keeps ..).step h (lor_absorb sub rfl)
    clear_value t
    split
    · next e => exact (linkDown_keeps ..).step ((Keeps.snd (joinFrag_keeps ..) e).step h1 (lor_absorb sub rfl)) (lor_absorb sub rfl)
    · next e => exact (Keeps.snd (joinFrag_keeps ..) e).step h1 (lor_absorb sub rfl)
    · next e =>
      have h2 := (Keeps.snd (joinFrag_keeps ..) e).step h1 (lor_absorb sub rfl)
      exact Keeps.ite (ht _ _ h2) ((linkDown_keeps ..).step h2 (lor_absorb sub rfl))

theorem execKeyHello_keeps (a1 a2 s) : RKeeps 0x17ABF86 s (execKeyHello a1 a2 s) := by
  unfold execKeyHello
  try dsimp only
  repeat'
    first
    | with_reducible exact Keeps.refl _ _
    | with_reducible assumption
    | with_reducible refine Keeps.ite ?_ ?_
    | with_reducible refine RKeeps.next ?_
    | with_reducible refine RKeeps.ite ?_ ?_
    | with_reducible refine (sendLink_keeps ..).step ?_
    | with_reducible refine (setLink_keeps ..).step ?_
    | with_reducible refine (sendProof_keeps ..).step ?_
    | with_reducible refine keyMsg_keeps ?_ ?_
    | with_reducible refine (freeStep_keeps ..).step ?_
    | split
    | intro _ _ _

theorem execKeyReply_keeps (a1 a2 s) : RKeeps 0x13ABF86 s (execKeyReply a1 a2 s) := by
  unfold execKeyReply
  try dsimp only
  repeat'
    first
    | with_reducible exact Keeps.refl _ _
    | with_reducible assumption
    | with_reducible refine Keeps.ite ?_ ?_
    | with_reducible refine RKeeps.next ?_
    | with_reducible refine RKeeps.ite ?_ ?_
    | with_reducible refine (setLink_keeps ..).step ?_
    | with_reducible refine (sendProof_keeps ..).step ?_
    | with_reducible refine keyMsg_keeps ?_ ?_
    | split
    | intro _ _ _

theorem execKeyProof_keeps (a1 a2 s) : RKeeps 0x13ABF86 s (execKeyProof a1 a2 s) := by
  unfold execKeyProof
  try dsimp only
  repeat'
    first
    | with_reducible exact Keeps.refl _ _
    | with_reducible assumption
    | with_reducible refine Keeps.ite ?_ ?_
    | with_reducible refine RKeeps.next ?_
    | with_reducible refine RKeeps.ite ?_ ?_
    | with_reducible refine (setLink_keeps ..).step ?_
    | with_reducible refine keyMsg_keeps ?_ ?_
    | with_reducible refine (linkDown_keeps ..).step ?_
    | with_reducible refine (proofsDone_keeps ..).step ?_
    | split
    | intro _ _ _

theorem sendTlans_keeps (a1 s) : Keeps 0x2200C0 s (sendTlans a1 s) := by
  unfold sendTlans
  try dsimp only
  repeat'
    first
    | with_reducible exact Keeps.refl _ _
    | with_reducible refine Keeps.ite ?_ ?_
    | with_reducible refine (sendLink_keeps ..).step ?_
    | with_reducible refine (tlDone_keeps ..).step ?_

theorem sendDenied_keeps (a1 a2 s) : Keeps 0x220080 s (sendDenied a1 a2 s) := by
  unfold sendDenied
  try dsimp only
  repeat'
    first
    | with_reducible exact Keeps.refl _ _
    | with_reducible refine Keeps.ite ?_ ?_
    | with_reducible refine (sendLink_keeps ..).step ?_

theorem execTlmsg_keeps (a1 a2 s) : RKeeps 0x2200C0 s (execTlmsg a1 a2 s) := by
  unfold execTlmsg
  try dsimp only
  repeat'
    first
    | with_reducible exact Keeps.refl _ _
    | with_reducible assumption
    | with_reducible refine Keeps.ite ?_ ?_
    | with_reducible refine RKeeps.next ?_
    | with_reducible refine RKeeps.ite ?_ ?_
    | with_reducible refine (sendTlans_keeps ..).step ?_
    | with_reducible refine (linkTally_keeps ..).step ?_
    | with_reducible refine (setChan_keeps ..).step ?_
    | with_reducible refine (tlSend_keeps ..).step ?_
    | with_reducible refine (joinFrag_keeps ..).step ?_
    | with_reducible refine (Keeps.snd (joinFrag_keeps ..) (by assumption)).step ?_
    | with_reducible refine (linkCount_keeps ..).step ?_
    | with_reducible refine (sendDenied_keeps ..).step ?_
    | with_reducible refine Keeps.foldl ?_ ?_
    | with_reducible refine Keeps.foldl_fst ?_ ?_
    | with_reducible refine Keeps.foldl_snd ?_ ?_
    | with_reducible refine Keeps.snd ?_ (by assumption)
    | with_reducible refine Keeps.fst ?_ (by assumption)
    | with_reducible refine Keeps.snd2 ?_ (by assumption)
    | with_reducible refine Keeps.snd3 ?_ (by assumption)
    | split

theorem execTlans_keeps (a1 a2 s) : RKeeps 0x80 s (execTlans a1 a2 s) := by
  unfold execTlans
  try dsimp only
  repeat'
    first
    | with_reducible exact Keeps.refl _ _
    | with_reducible refine Keeps.ite ?_ ?_
    | with_reducible refine RKeeps.next ?_
    | with_reducible refine RKeeps.ite ?_ ?_
    | with_reducible refine (linkTally_keeps ..).step ?_

theorem execMalformedMessage_keeps (a1 a2 a3 a4 s) : RKeeps 0x220080 s (execMalformedMessage a1 a2 a3 a4 s) := by
  unfold execMalformedMessage
  try dsimp only
  repeat'
    first
    | with_reducible exact Keeps.refl _ _
    | with_reducible refine Keeps.ite ?_ ?_
    | with_reducible refine RKeeps.next ?_
    | with_reducible refine RKeeps.ite ?_ ?_
    | with_reducible refine (linkCount_keeps ..).step ?_
    | with_reducible refine (sendKaf_keeps ..).step ?_

end Sys2Proof.Machine
end

