-- ==== Sys2Proof/Laws/KeepsPorts.lean ====
section
/-! SUPPORT. What each operation of Machine/Ports.lean may write, and that it keeps the invariant. -/

namespace Sys2Proof.Machine

set_option Elab.async false

theorem State.setPorts_keeps (s a1) : Keeps 0x80000 s (State.setPorts s a1) := Keeps.ports_mk s _

theorem trayTables_keeps (a1 a2 s) : Keeps 0x2 s (trayTables a1 a2 s) := by
  induction a1 generalizing a2 s with
  | zero =>
    unfold trayTables
    try dsimp only
    repeat'
      first
      | with_reducible exact Keeps.refl _ _
  | succ k ih =>
    unfold trayTables
    try dsimp only
    repeat'
      first
      | with_reducible refine (ih ..).step ?_
      | with_reducible exact Keeps.refl _ _
      | with_reducible refine Keeps.ite ?_ ?_
      | with_reducible refine (setDom_keeps ..).step ?_

theorem bootTrays_keeps (a1 a2 s) : Keeps 0x802 s (bootTrays a1 a2 s) := by
  unfold bootTrays
  try dsimp only
  repeat'
    first
    | with_reducible exact Keeps.refl _ _
    | with_reducible assumption
    | with_reducible refine Keeps.ite ?_ ?_
    | with_reducible refine (trayWrite_keeps ..).step ?_
    | with_reducible refine (Keeps.snd (trayWrite_keeps ..) (by assumption)).step ?_
    | with_reducible refine Keeps.foldl ?_ ?_
    | with_reducible refine Keeps.foldl_fst ?_ ?_
    | with_reducible refine Keeps.foldl_snd ?_ ?_
    | intro _ _ _

theorem execPortLinkUp_keeps (a1 a2 s) : RKeeps 0x88802 s (execPortLinkUp a1 a2 s) := by
  unfold execPortLinkUp
  try dsimp only
  repeat'
    first
    | with_reducible exact Keeps.refl _ _
    | with_reducible refine Keeps.ite ?_ ?_
    | with_reducible refine RKeeps.next ?_
    | with_reducible refine RKeeps.ite ?_ ?_
    | with_reducible refine (bootTrays_keeps ..).step ?_
    | with_reducible refine (trayTables_keeps ..).step ?_
    | with_reducible refine (agentTrained_keeps ..).step ?_
    | with_reducible refine (setObj_keeps ..).step ?_
    | with_reducible refine (State.setPorts_keeps _ _).step ?_
    | with_reducible refine (applyWaiting_keeps ..).step ?_

theorem readUpErr_keeps (a1 s) : Keeps 0x80000 s (readUpErr a1 s).2 := by
  unfold readUpErr
  try dsimp only
  repeat'
    first
    | with_reducible exact Keeps.refl _ _
    | with_reducible refine Keeps.ite ?_ ?_
    | with_reducible refine Keeps.ite_snd ?_ ?_
    | with_reducible refine (State.setPorts_keeps _ _).step ?_

theorem execUperrstatRead_keeps (a1 s) : RKeeps 0x280000 s (execUperrstatRead a1 s) := by
  unfold execUperrstatRead
  try dsimp only
  repeat'
    first
    | with_reducible exact Keeps.refl _ _
    | with_reducible refine Keeps.ite ?_ ?_
    | with_reducible refine RKeeps.next ?_
    | with_reducible refine RKeeps.ite ?_ ?_
    | with_reducible refine (emit_keeps ..).step ?_
    | with_reducible refine (readUpErr_keeps ..).step ?_

theorem cxlDown_keeps (a1 s) : Keeps 0x13AA386 s (cxlDown a1 s) := by
  unfold cxlDown
  try dsimp only
  repeat'
    first
    | with_reducible exact Keeps.refl _ _
    | with_reducible refine Keeps.ite ?_ ?_
    | with_reducible refine (setObj_keeps ..).step ?_
    | with_reducible refine (State.setCoh_keeps _ _ ?_).step ?_
    | exact fun h => h
    | with_reducible refine (failAgent_keeps ..).step ?_

theorem execCxlLinkDown_keeps (a1 s) : RKeeps 0x13AA386 s (execCxlLinkDown a1 s) := by
  unfold execCxlLinkDown
  try dsimp only
  repeat'
    first
    | with_reducible exact Keeps.refl _ _
    | with_reducible refine Keeps.ite ?_ ?_
    | with_reducible refine RKeeps.next ?_
    | with_reducible refine RKeeps.ite ?_ ?_
    | with_reducible refine (cxlDown_keeps ..).step ?_

theorem execTrayRequestTimeout_keeps (a1 s) : RKeeps 0x7A7D97 s (execTrayRequestTimeout a1 s) := by
  unfold execTrayRequestTimeout
  try dsimp only
  repeat'
    first
    | with_reducible exact Keeps.refl _ _
    | with_reducible refine Keeps.ite ?_ ?_
    | with_reducible refine RKeeps.next ?_
    | with_reducible refine RKeeps.ite ?_ ?_
    | with_reducible refine (elapse_keeps ..).step ?_
    | with_reducible refine (trayFails_keeps ..).step ?_

theorem nvmeFail_keeps (a1 s) : Keeps 0x7AFC82 s (nvmeFail a1 s) := by
  unfold nvmeFail
  try dsimp only
  repeat'
    first
    | with_reducible exact Keeps.refl _ _
    | with_reducible assumption
    | with_reducible refine Keeps.ite ?_ ?_
    | with_reducible refine (finishRange_keeps ..).step ?_
    | with_reducible refine (nvmeDrop_keeps ..).step ?_
    | with_reducible refine (answerFail_keeps ..).step ?_
    | with_reducible refine (complete_keeps ..).step ?_
    | with_reducible refine (failMove_keeps ..).step ?_
    | with_reducible refine (runMoves_keeps ..).step ?_
    | with_reducible refine Keeps.foldl ?_ ?_
    | with_reducible refine Keeps.foldl_fst ?_ ?_
    | with_reducible refine Keeps.foldl_snd ?_ ?_
    | with_reducible refine Keeps.snd ?_ (by assumption)
    | with_reducible refine Keeps.fst ?_ (by assumption)
    | with_reducible refine Keeps.snd2 ?_ (by assumption)
    | with_reducible refine Keeps.snd3 ?_ (by assumption)
    | intro _ _ _
    | intro _ _
    | split

theorem execNvmeCompletion_keeps (a1 a2 a3 s) : RKeeps 0x17AFF86 s (execNvmeCompletion a1 a2 a3 s) := by
  unfold execNvmeCompletion
  try dsimp only
  repeat'
    first
    | with_reducible exact Keeps.refl _ _
    | with_reducible refine Keeps.ite ?_ ?_
    | with_reducible refine RKeeps.next ?_
    | with_reducible refine RKeeps.ite ?_ ?_
    | with_reducible refine (moveDone_keeps ..).step ?_
    | with_reducible refine (blockRead_keeps ..).step ?_
    | with_reducible refine (nvmeFail_keeps ..).step ?_
    | with_reducible refine (nvmeDrop_keeps ..).step ?_
    | split

theorem nvmeReset_keeps (a1 s) : Keeps 0x7AFC82 s (nvmeReset a1 s) := by
  unfold nvmeReset
  try dsimp only
  repeat'
    first
    | with_reducible exact Keeps.refl _ _
    | with_reducible assumption
    | with_reducible refine Keeps.ite ?_ ?_
    | with_reducible refine (emit_keeps ..).step ?_
    | with_reducible refine (nvmeFail_keeps ..).step ?_
    | with_reducible refine (State.setPorts_keeps _ _).step ?_
    | with_reducible refine Keeps.foldl ?_ ?_
    | with_reducible refine Keeps.foldl_fst ?_ ?_
    | with_reducible refine Keeps.foldl_snd ?_ ?_
    | intro _ _ _

theorem execNvmeCommandTimeout_keeps (a1 a2 s) : RKeeps 0x7AFC93 s (execNvmeCommandTimeout a1 a2 s) := by
  unfold execNvmeCommandTimeout
  try dsimp only
  repeat'
    first
    | with_reducible exact Keeps.refl _ _
    | with_reducible refine Keeps.ite ?_ ?_
    | with_reducible refine RKeeps.next ?_
    | with_reducible refine RKeeps.ite ?_ ?_
    | with_reducible refine (emit_keeps ..).step ?_
    | with_reducible refine (nvmeReset_keeps ..).step ?_
    | with_reducible refine (State.setPorts_keeps _ _).step ?_
    | with_reducible refine (carryTo_keeps ..).step ?_
    | split

theorem execNvmeControllerResetEnd_keeps (a1 a2 s) : RKeeps 0x7AFD86 s (execNvmeControllerResetEnd a1 a2 s) := by
  unfold execNvmeControllerResetEnd
  try dsimp only
  repeat'
    first
    | with_reducible exact Keeps.refl _ _
    | with_reducible assumption
    | with_reducible refine Keeps.ite ?_ ?_
    | with_reducible refine RKeeps.next ?_
    | with_reducible refine RKeeps.ite ?_ ?_
    | with_reducible refine (trayFails_keeps ..).step ?_
    | with_reducible refine (nvmeReset_keeps ..).step ?_
    | with_reducible refine (State.setPorts_keeps _ _).step ?_
    | with_reducible refine Keeps.foldl ?_ ?_
    | with_reducible refine Keeps.foldl_fst ?_ ?_
    | with_reducible refine Keeps.foldl_snd ?_ ?_
    | split
    | intro _ _ _

theorem execEthernetFrameDiscard_keeps (a1 a2 s) : RKeeps 0x80000 s (execEthernetFrameDiscard a1 a2 s) := by
  unfold execEthernetFrameDiscard
  try dsimp only
  repeat'
    first
    | with_reducible exact Keeps.refl _ _
    | with_reducible refine Keeps.ite ?_ ?_
    | with_reducible refine RKeeps.next ?_
    | with_reducible refine RKeeps.ite ?_ ?_
    | with_reducible refine (State.setPorts_keeps _ _).step ?_

theorem execNeighborResolution_keeps (a1 a2 s) : RKeeps 0x280000 s (execNeighborResolution a1 a2 s) := by
  unfold execNeighborResolution
  try dsimp only
  repeat'
    first
    | with_reducible exact Keeps.refl _ _
    | with_reducible refine Keeps.ite ?_ ?_
    | with_reducible refine RKeeps.next ?_
    | with_reducible refine RKeeps.ite ?_ ?_
    | with_reducible refine (emit_keeps ..).step ?_
    | with_reducible refine (State.setPorts_keeps _ _).step ?_
    | split

theorem execMkaFrame_keeps (a1 a2 s) : RKeeps 0x80002 s (execMkaFrame a1 a2 s) := by
  unfold execMkaFrame
  try dsimp only
  repeat'
    first
    | with_reducible exact Keeps.refl _ _
    | with_reducible refine Keeps.ite ?_ ?_
    | with_reducible refine RKeeps.next ?_
    | with_reducible refine RKeeps.ite ?_ ?_
    | with_reducible refine (setObj_keeps ..).step ?_
    | with_reducible refine (State.setPorts_keeps _ _).step ?_

theorem execPriorityFlowControlFrame_keeps (a1 a2 a3 s) : RKeeps 0x80000 s (execPriorityFlowControlFrame a1 a2 a3 s) := by
  unfold execPriorityFlowControlFrame
  try dsimp only
  repeat'
    first
    | with_reducible exact Keeps.refl _ _
    | with_reducible assumption
    | with_reducible refine Keeps.ite ?_ ?_
    | with_reducible refine RKeeps.next ?_
    | with_reducible refine RKeeps.ite ?_ ?_
    | with_reducible refine (State.setPorts_keeps _ _).step ?_
    | with_reducible refine Keeps.foldl ?_ ?_
    | with_reducible refine Keeps.foldl_fst ?_ ?_
    | with_reducible refine Keeps.foldl_snd ?_ ?_
    | split
    | intro _ _ _

theorem ethDown_keeps (a1 s) : Keeps 0x80002 s (ethDown a1 s) := by
  unfold ethDown
  try dsimp only
  repeat'
    first
    | with_reducible exact Keeps.refl _ _
    | with_reducible refine Keeps.ite ?_ ?_
    | with_reducible refine (setObj_keeps ..).step ?_
    | with_reducible refine (State.setPorts_keeps _ _).step ?_

theorem execEthernetLinkDown_keeps (a1 s) : RKeeps 0x80002 s (execEthernetLinkDown a1 s) := by
  unfold execEthernetLinkDown
  try dsimp only
  repeat'
    first
    | with_reducible exact Keeps.refl _ _
    | with_reducible refine Keeps.ite ?_ ?_
    | with_reducible refine RKeeps.next ?_
    | with_reducible refine RKeeps.ite ?_ ?_
    | with_reducible refine (ethDown_keeps ..).step ?_

theorem shiftTime_keeps (a1 s) : Keeps 0x1 s (shiftTime a1 s) := by
  unfold shiftTime
  refine Keeps.time_mk _ _ fun _ => ?_
  have h := Int.emod_lt_of_pos ((s.time.devHalf : Int) + a1) (show (0 : Int) < 2 ^ 65 by decide)
  have k := Int.emod_nonneg ((s.time.devHalf : Int) + a1) (show (2 ^ 65 : Int) ≠ 0 by decide)
  simp only [Time.Ok]
  omega

theorem ptpSlew_keeps (a1 a2 s) : Keeps 0x1 s (ptpSlew a1 a2 s) := by
  unfold ptpSlew
  try dsimp only
  repeat'
    first
    | with_reducible exact Keeps.refl _ _
    | with_reducible refine Keeps.ite ?_ ?_
    | with_reducible refine (shiftTime_keeps ..).step ?_

theorem execPtpSync_keeps (a1 a2 a3 a4 s) : RKeeps 0x80003 s (execPtpSync a1 a2 a3 a4 s) := by
  unfold execPtpSync
  try dsimp only
  repeat'
    first
    | with_reducible exact Keeps.refl _ _
    | with_reducible refine Keeps.ite ?_ ?_
    | with_reducible refine RKeeps.next ?_
    | with_reducible refine RKeeps.ite ?_ ?_
    | with_reducible refine (shiftTime_keeps ..).step ?_
    | with_reducible refine (ptpSlew_keeps ..).step ?_
    | with_reducible refine (setObj_keeps ..).step ?_
    | with_reducible refine (State.setPorts_keeps _ _).step ?_

theorem execPtpLockLoss_keeps (a1 s) : RKeeps 0x80093 s (execPtpLockLoss a1 s) := by
  unfold execPtpLockLoss
  try dsimp only
  repeat'
    first
    | with_reducible exact Keeps.refl _ _
    | with_reducible refine Keeps.ite ?_ ?_
    | with_reducible refine RKeeps.next ?_
    | with_reducible refine RKeeps.ite ?_ ?_
    | with_reducible refine (setObj_keeps ..).step ?_
    | with_reducible refine (State.setPorts_keeps _ _).step ?_
    | with_reducible refine (carryTo_keeps ..).step ?_

theorem writeRoce_keeps (a1 a2 a3 s) : Keeps 0x2 s (writeRoce a1 a2 a3 s).2 := by
  unfold writeRoce
  try dsimp only
  repeat'
    first
    | with_reducible exact Keeps.refl _ _
    | with_reducible refine Keeps.ite ?_ ?_
    | with_reducible refine Keeps.ite_snd ?_ ?_
    | with_reducible refine (waitDom_keeps ..).step ?_

theorem execRoceRecordWrite_keeps (a1 a2 a3 s) : RKeeps 0x2 s (execRoceRecordWrite a1 a2 a3 s) := by
  unfold execRoceRecordWrite
  try dsimp only
  repeat'
    first
    | with_reducible exact Keeps.refl _ _
    | with_reducible assumption
    | with_reducible refine Keeps.ite ?_ ?_
    | with_reducible refine RKeeps.next ?_
    | with_reducible refine RKeeps.ite ?_ ?_
    | with_reducible refine (writeRoce_keeps ..).step ?_
    | with_reducible refine (Keeps.snd (writeRoce_keeps ..) (by assumption)).step ?_
    | with_reducible refine commanded_keeps ?_ ?_
    | split
    | intro _ _ _
    | intro _ _

theorem roceStart_keeps (a1 a2 s) : Keeps 0x80000 s (roceStart a1 a2 s) := by
  unfold roceStart
  try dsimp only
  repeat'
    first
    | with_reducible exact Keeps.refl _ _
    | with_reducible refine Keeps.ite ?_ ?_
    | with_reducible refine (setRoce_keeps ..).step ?_

theorem roceTake_keeps (a1 a2 a3 s) : Keeps 0x80000 s (roceTake a1 a2 a3 s) := by
  unfold roceTake
  try dsimp only
  repeat'
    first
    | with_reducible exact Keeps.refl _ _
    | with_reducible refine Keeps.ite ?_ ?_
    | with_reducible refine (setRoce_keeps ..).step ?_

theorem execRoceAcknowledge_keeps (a1 a2 a3 a4 s) : RKeeps 0x80000 s (execRoceAcknowledge a1 a2 a3 a4 s) := by
  unfold execRoceAcknowledge
  try dsimp only
  repeat'
    first
    | with_reducible exact Keeps.refl _ _
    | with_reducible refine Keeps.ite ?_ ?_
    | with_reducible refine RKeeps.next ?_
    | with_reducible refine RKeeps.ite ?_ ?_
    | with_reducible refine (setRoce_keeps ..).step ?_

theorem execRoceInvalidRequest_keeps (a1 a2 a3 a4 s) : RKeeps 0x280080 s (execRoceInvalidRequest a1 a2 a3 a4 s) := by
  unfold execRoceInvalidRequest
  try dsimp only
  repeat'
    first
    | with_reducible exact Keeps.refl _ _
    | with_reducible refine Keeps.ite ?_ ?_
    | with_reducible refine RKeeps.next ?_
    | with_reducible refine RKeeps.ite ?_ ?_
    | with_reducible refine (roceNak_keeps ..).step ?_

end Sys2Proof.Machine
end

