-- ==== Sys2Proof/Laws/KeepsWindows.lean ====
section
/-! SUPPORT. What each operation of Machine/Windows.lean may write, and that it keeps the invariant. -/

namespace Sys2Proof.Machine

set_option Elab.async false

theorem qwRead_keeps (a1 a2 a3 s) : Keeps 0x400 s (qwRead a1 a2 a3 s).2 := by
  unfold qwRead
  try dsimp only
  repeat'
    first
    | with_reducible exact Keeps.refl _ _
    | with_reducible refine Keeps.ite ?_ ?_
    | with_reducible refine Keeps.ite_snd ?_ ?_
    | with_reducible refine (readInvStat_keeps ..).step ?_
    | with_reducible refine (Keeps.snd (readInvStat_keeps ..) (by assumption)).step ?_
    | with_reducible refine Keeps.snd ?_ (by assumption)
    | with_reducible refine Keeps.fst ?_ (by assumption)
    | with_reducible refine Keeps.snd2 ?_ (by assumption)
    | with_reducible refine Keeps.snd3 ?_ (by assumption)
    | split

theorem slotWrite_keeps (a1 a2 a3 s) : Keeps 0x400 s (slotWrite a1 a2 a3 s) := by
  unfold slotWrite
  try dsimp only
  repeat'
    first
    | with_reducible exact Keeps.refl _ _
    | with_reducible refine Keeps.ite ?_ ?_
    | with_reducible refine (setQp_keeps ..).step ?_

theorem qwRegWrite_keeps (a1 a2 a3 s) : Keeps 0x327CA2 s (qwRegWrite a1 a2 a3 s) := by
  unfold qwRegWrite
  try dsimp only
  repeat'
    first
    | with_reducible exact Keeps.refl _ _
    | with_reducible refine Keeps.ite ?_ ?_
    | with_reducible refine (setQp_keeps ..).step ?_
    | with_reducible refine (xlinvCommand_keeps ..).step ?_
    | with_reducible refine (State.setWin_keeps _ _).step ?_
    | with_reducible refine (cqHead_keeps ..).step ?_
    | with_reducible refine (sqTail_keeps ..).step ?_
    | with_reducible refine (tierHint_keeps ..).step ?_
    | with_reducible refine (qpcfgWrite_keeps ..).step ?_
    | split

theorem qwWrite_keeps (a1 a2 a3 s) : Keeps 0x327CA2 s (qwWrite a1 a2 a3 s) := by
  unfold qwWrite
  try dsimp only
  repeat'
    first
    | with_reducible exact Keeps.refl _ _
    | with_reducible refine Keeps.ite ?_ ?_
    | with_reducible refine (qwRegWrite_keeps ..).step ?_
    | with_reducible refine (slotWrite_keeps ..).step ?_
    | split

theorem chWrite_keeps (a1 a2 a3 s) : Keeps 0x200040 s (chWrite a1 a2 a3 s) := by
  unfold chWrite
  try dsimp only
  repeat'
    first
    | with_reducible exact Keeps.refl _ _
    | with_reducible refine Keeps.ite ?_ ?_
    | with_reducible refine (tlDone_keeps ..).step ?_
    | with_reducible refine (setChan_keeps ..).step ?_
    | with_reducible refine (tlSend_keeps ..).step ?_
    | split

theorem viewRead_keeps (a1 a2 a3 s) : Keeps 0x400 s (viewRead a1 a2 a3 s).2 := by
  unfold viewRead
  try dsimp only
  repeat'
    first
    | with_reducible exact Keeps.refl _ _
    | with_reducible refine Keeps.ite ?_ ?_
    | with_reducible refine Keeps.ite_snd ?_ ?_
    | with_reducible refine (qwRead_keeps ..).step ?_

theorem viewWrite_keeps (a1 a2 a3 s) : Keeps 0x327CE2 s (viewWrite a1 a2 a3 s) := by
  unfold viewWrite
  try dsimp only
  repeat'
    first
    | with_reducible exact Keeps.refl _ _
    | with_reducible refine Keeps.ite ?_ ?_
    | with_reducible refine (chWrite_keeps ..).step ?_
    | with_reducible refine (qwWrite_keeps ..).step ?_

theorem winRefuse_keeps (a1 a2 s) : Keeps 0x3AA082 s (winRefuse a1 a2 s) := by
  unfold winRefuse
  try dsimp only
  repeat'
    first
    | with_reducible exact Keeps.refl _ _
    | with_reducible refine Keeps.ite ?_ ?_
    | with_reducible refine (answerFail_keeps ..).step ?_
    | with_reducible refine (answerDone_keeps ..).step ?_

theorem winServe_keeps (a1 s) : Keeps 0x3AFCE2 s (winServe a1 s) := by
  unfold winServe
  try dsimp only
  repeat'
    first
    | with_reducible exact Keeps.refl _ _
    | with_reducible refine Keeps.ite ?_ ?_
    | with_reducible refine (viewRead_keeps ..).step ?_
    | with_reducible refine (Keeps.snd (viewRead_keeps ..) (by assumption)).step ?_
    | with_reducible refine (emit_keeps ..).step ?_
    | with_reducible refine (answerDone_keeps ..).step ?_
    | with_reducible refine (setReq_keeps ..).step ?_
    | with_reducible refine (viewWrite_keeps ..).step ?_
    | with_reducible refine (winRefuse_keeps ..).step ?_
    | with_reducible refine Keeps.snd ?_ (by assumption)
    | with_reducible refine Keeps.fst ?_ (by assumption)
    | with_reducible refine Keeps.snd2 ?_ (by assumption)
    | with_reducible refine Keeps.snd3 ?_ (by assumption)
    | split

theorem winArrive_keeps (a1 a2 s) : Keeps 0x3AFCE2 s (winArrive a1 a2 s) := by
  unfold winArrive
  extract_lets s1 s2 w s3 u
  have h1 : Keeps 0x3AFCE2 s s1 := (linkTally_keeps ..).step ((tookId_keeps ..).mono)
  clear_value s1
  have h2 : Keeps 0x3AFCE2 s s2 := (tenantCount_keeps ..).step h1
  clear_value s2
  have h3 : Keeps 0x3AFCE2 s s3 := by
    refine Keeps.ite ((Keeps.span_mk s2 _ ?_).step h2) h2
    show _ = _
    exact (by rfl)
  clear_value s3
  split
  · exact h3
  · split
    · split
      · exact (setReq_keeps ..).step h3
      · split
        · exact (Keeps.out_mk u _).step ((winServe_keeps ..).step h3)
        · exact h3
    · split
      · next e => exact (answerFail_keeps ..).step ((Keeps.snd2 (markReq_keeps ..) e).step h3)
      · next e => exact (winServe_keeps ..).step ((Keeps.snd2 (markReq_keeps ..) e).step h3)
      · next e => exact (setReq_keeps ..).step ((Keeps.snd2 (markReq_keeps ..) e).step h3)

theorem winKaf_keeps (a1 a2 a3 a4 s) : Keeps 0x3AFCE2 s (winKaf a1 a2 a3 a4 s) := by
  unfold winKaf
  try dsimp only
  repeat'
    first
    | with_reducible exact Keeps.refl _ _
    | with_reducible assumption
    | with_reducible refine Keeps.ite ?_ ?_
    | with_reducible refine (winArrive_keeps ..).step ?_
    | with_reducible refine (transit_keeps ..).step ?_
    | with_reducible refine (OKeeps.get (transit_keeps ..) (by assumption)).step ?_
    | apply OKeeps.bind
    | with_reducible refine Keeps.getD ?_ ?_
    | with_reducible refine Keeps.getD_snd ?_ ?_
    | apply OKeeps.obind
    | refine OKeeps.map_snd ?_ fun _ => rfl
    | apply OKeeps.map
    | with_reducible refine OKeeps.pure ?_
    | with_reducible exact OKeeps.none
    | with_reducible refine OKeeps.some ?_
    | with_reducible refine OKeeps.ite ?_ ?_
    | with_reducible refine OKeeps.get ?_ (by assumption)
    | with_reducible refine OKeeps.get1 ?_ (by assumption)
    | with_reducible refine OKeeps.get2 ?_ (by assumption)
    | intro _ _ _
    | intro _ _
    | split

theorem execWinRd_keeps (a1 a2 s) : RKeeps 0x3AFCE2 s (execWinRd a1 a2 s) := by
  unfold execWinRd
  try dsimp only
  repeat'
    first
    | with_reducible exact Keeps.refl _ _
    | with_reducible refine Keeps.ite ?_ ?_
    | with_reducible refine RKeeps.next ?_
    | with_reducible refine RKeeps.ite ?_ ?_
    | with_reducible refine (winKaf_keeps ..).step ?_

theorem execWinWr_keeps (a1 a2 s) : RKeeps 0x3AFCE2 s (execWinWr a1 a2 s) := by
  unfold execWinWr
  try dsimp only
  repeat'
    first
    | with_reducible exact Keeps.refl _ _
    | with_reducible refine Keeps.ite ?_ ?_
    | with_reducible refine RKeeps.next ?_
    | with_reducible refine RKeeps.ite ?_ ?_
    | with_reducible refine (winKaf_keeps ..).step ?_

theorem rdmaWriteAs_keeps (a1 a2 a3 a4 a5 a6 a7 a8 s) : Keeps 0x17AFFE6 s (rdmaWriteAs a1 a2 a3 a4 a5 a6 a7 a8 s) := by
  unfold rdmaWriteAs
  try dsimp only
  repeat'
    first
    | with_reducible exact Keeps.refl _ _
    | with_reducible refine Keeps.ite ?_ ?_
    | with_reducible refine (roceTake_keeps ..).step ?_
    | with_reducible refine (emit_keeps ..).step ?_
    | with_reducible refine (winArrive_keeps ..).step ?_
    | with_reducible refine (roceNak_keeps ..).step ?_
    | with_reducible refine (arrive_keeps ..).step ?_
    | split

theorem rdmaWrite_keeps (a1 a2 a3 a4 a5 a6 a7 s) : Keeps 0x17AFFE6 s (rdmaWrite a1 a2 a3 a4 a5 a6 a7 s) := by
  unfold rdmaWrite
  try dsimp only
  repeat'
    first
    | with_reducible exact Keeps.refl _ _
    | with_reducible refine Keeps.ite ?_ ?_
    | with_reducible refine (rdmaWriteAs_keeps ..).step ?_

theorem execRdmaWrite_keeps (a1 a2 a3 a4 a5 a6 a7 s) : RKeeps 0x17AFFE6 s (execRdmaWrite a1 a2 a3 a4 a5 a6 a7 s) := by
  unfold execRdmaWrite
  try dsimp only
  repeat'
    first
    | with_reducible exact Keeps.refl _ _
    | with_reducible refine Keeps.ite ?_ ?_
    | with_reducible refine RKeeps.next ?_
    | with_reducible refine RKeeps.ite ?_ ?_
    | with_reducible refine (rdmaWrite_keeps ..).step ?_

theorem statusRead_keeps (a1 a2 a3 a4 a5 s) : Keeps 0x280080 s (statusRead a1 a2 a3 a4 a5 s) := by
  unfold statusRead
  try dsimp only
  repeat'
    first
    | with_reducible exact Keeps.refl _ _
    | with_reducible refine Keeps.ite ?_ ?_
    | with_reducible refine (emit_keeps ..).step ?_
    | with_reducible refine (roceNak_keeps ..).step ?_
    | with_reducible refine (linkTally_keeps ..).step ?_

theorem rdmaReadAs_keeps (a1 a2 a3 a4 a5 a6 a7 a8 s) : Keeps 0x17AFFE6 s (rdmaReadAs a1 a2 a3 a4 a5 a6 a7 a8 s) := by
  unfold rdmaReadAs
  try dsimp only
  repeat'
    first
    | with_reducible exact Keeps.refl _ _
    | with_reducible refine Keeps.ite ?_ ?_
    | with_reducible refine (roceTake_keeps ..).step ?_
    | with_reducible refine (emit_keeps ..).step ?_
    | with_reducible refine (winArrive_keeps ..).step ?_
    | with_reducible refine (roceNak_keeps ..).step ?_
    | with_reducible refine (arrive_keeps ..).step ?_
    | with_reducible refine (statusRead_keeps ..).step ?_
    | split

theorem rdmaRead_keeps (a1 a2 a3 a4 a5 a6 a7 s) : Keeps 0x17AFFE6 s (rdmaRead a1 a2 a3 a4 a5 a6 a7 s) := by
  unfold rdmaRead
  try dsimp only
  repeat'
    first
    | with_reducible exact Keeps.refl _ _
    | with_reducible refine Keeps.ite ?_ ?_
    | with_reducible refine (rdmaReadAs_keeps ..).step ?_

theorem execRdmaReadRequest_keeps (a1 a2 a3 a4 a5 a6 a7 s) : RKeeps 0x17AFFE6 s (execRdmaReadRequest a1 a2 a3 a4 a5 a6 a7 s) := by
  unfold execRdmaReadRequest
  try dsimp only
  repeat'
    first
    | with_reducible exact Keeps.refl _ _
    | with_reducible refine Keeps.ite ?_ ?_
    | with_reducible refine RKeeps.next ?_
    | with_reducible refine RKeeps.ite ?_ ?_
    | with_reducible refine (rdmaRead_keeps ..).step ?_

end Sys2Proof.Machine
end

