-- ==== Sys2Proof/Laws/KeepsSpans.lean ====
section
/-! SUPPORT. What each operation of Machine/Spans.lean may write, and that it keeps the invariant. -/

namespace Sys2Proof.Machine

set_option Elab.async false

theorem State.setSpan_keeps (s : State) (f : Span → Span) (ht : (f s.span).twin = s.span.twin) : Keeps 0x100000 s (s.setSpan f) :=
  Keeps.span_mk s _ ht

theorem State.setRole_keeps (s : State) (f : Span → Span) : Keeps 0x2100000 s (s.setSpan f) := Keeps.role_mk s _

theorem writeMap_keeps (a1 s) : Keeps 0x2 s (writeMap a1 s).2 := by
  unfold writeMap
  try dsimp only
  repeat'
    first
    | with_reducible exact Keeps.refl _ _
    | with_reducible refine Keeps.ite ?_ ?_
    | with_reducible refine Keeps.ite_snd ?_ ?_
    | with_reducible refine (waitDom_keeps ..).step ?_

theorem execSpanMapWrite_keeps (a1 a2 s) : RKeeps 0x2 s (execSpanMapWrite a1 a2 s) := by
  unfold execSpanMapWrite
  try dsimp only
  repeat'
    first
    | with_reducible exact Keeps.refl _ _
    | with_reducible assumption
    | with_reducible refine Keeps.ite ?_ ?_
    | with_reducible refine RKeeps.next ?_
    | with_reducible refine RKeeps.ite ?_ ?_
    | with_reducible refine (writeMap_keeps ..).step ?_
    | with_reducible refine (Keeps.snd (writeMap_keeps ..) (by assumption)).step ?_
    | with_reducible refine objCmd_keeps ?_ ?_
    | split
    | intro _ _ _
    | intro _ _

theorem execSpanMapDigest_keeps (a1 a2 s) : RKeeps 0x100000 s (execSpanMapDigest a1 a2 s) := by
  unfold execSpanMapDigest
  try dsimp only
  repeat'
    first
    | with_reducible exact Keeps.refl _ _
    | with_reducible refine Keeps.ite ?_ ?_
    | with_reducible refine RKeeps.next ?_
    | with_reducible refine RKeeps.ite ?_ ?_
    | with_reducible refine (State.setSpan_keeps _ _ rfl).step ?_

theorem runPart_keeps (a1 s) : Keeps 0x17E7F86 s (runPart a1 s) := by
  unfold runPart
  try dsimp only
  repeat'
    first
    | with_reducible exact Keeps.refl _ _
    | with_reducible assumption
    | with_reducible refine Keeps.ite ?_ ?_
    | with_reducible refine (setFlight_keeps ..).step ?_
    | with_reducible refine (memEff_keeps ..).step ?_
    | with_reducible refine completeEff_keeps ?_
    | with_reducible refine (memberReport_keeps ..).step ?_
    | with_reducible refine (finishRange_keeps ..).step ?_
    | with_reducible refine (startAttend_keeps ..).step ?_
    | with_reducible refine (startCompact_keeps ..).step ?_
    | with_reducible refine startPart_keeps _ _ ?_ ?_
    | with_reducible refine (preparePart_keeps ..).step ?_
    | with_reducible refine (Keeps.snd (preparePart_keeps ..) (by assumption)).step ?_
    | with_reducible refine (evictPage_keeps ..).step ?_
    | with_reducible refine (complete_keeps ..).step ?_
    | with_reducible refine (pinPage_keeps ..).step ?_
    | with_reducible refine (prefetchPage_keeps ..).step ?_
    | with_reducible refine (runMoves_keeps ..).step ?_
    | with_reducible refine Keeps.foldl ?_ ?_
    | with_reducible refine Keeps.foldl_fst ?_ ?_
    | with_reducible refine Keeps.foldl_snd ?_ ?_
    | with_reducible refine Keeps.snd ?_ (by assumption)
    | with_reducible refine Keeps.fst ?_ (by assumption)
    | with_reducible refine Keeps.snd2 ?_ (by assumption)
    | with_reducible refine Keeps.snd3 ?_ (by assumption)
    | intro _ _ _
    | intro _ _
    | split

theorem execStripedPart_keeps (a1 a2 a3 a4 a5 a6 s) : RKeeps 0x17E7F86 s (execStripedPart a1 a2 a3 a4 a5 a6 s) := by
  unfold execStripedPart
  try dsimp only
  repeat'
    first
    | with_reducible exact Keeps.refl _ _
    | with_reducible refine Keeps.ite ?_ ?_
    | with_reducible refine RKeeps.next ?_
    | with_reducible refine RKeeps.ite ?_ ?_
    | with_reducible refine (runPart_keeps ..).step ?_
    | with_reducible refine (State.setAttn_keeps _ _ ?_).step ?_
    | with_reducible refine (complete_keeps ..).step ?_
    | exact fun h => h
    | exact fun h => tput_rising _ _ h _
    | exact fun h => ⟨tput_rising _ _ h.1 _, h.2⟩
    | exact fun h => Tbl.rising_map h _ fun _ => rfl
    | exact fun h => ⟨Tbl.rising_map h.1 _ fun _ => rfl, h.2⟩
    | split

theorem execStripeCommit_keeps (a1 a2 s) : RKeeps 0x1723F86 s (execStripeCommit a1 a2 s) := by
  unfold execStripeCommit
  try dsimp only
  repeat'
    first
    | with_reducible exact Keeps.refl _ _
    | with_reducible refine Keeps.ite ?_ ?_
    | with_reducible refine RKeeps.next ?_
    | with_reducible refine RKeeps.ite ?_ ?_
    | with_reducible refine (givePrep_keeps ..).step ?_
    | with_reducible refine (applyPart_keeps ..).step ?_
    | with_reducible refine (State.setAttn_keeps _ _ ?_).step ?_
    | exact fun h => h
    | exact fun h => tput_rising _ _ h _
    | exact fun h => Tbl.rising_map h _ fun _ => rfl
    | exact fun h => Tbl.rising_map h _ fun p => by split <;> rfl
    | split

theorem execStripeAbort_keeps (a1 a2 s) : RKeeps 0x1327F86 s (execStripeAbort a1 a2 s) := by
  unfold execStripeAbort
  try dsimp only
  repeat'
    first
    | with_reducible exact Keeps.refl _ _
    | with_reducible refine Keeps.ite ?_ ?_
    | with_reducible refine RKeeps.next ?_
    | with_reducible refine RKeeps.ite ?_ ?_
    | with_reducible refine (givePrep_keeps ..).step ?_
    | with_reducible refine (State.setAttn_keeps _ _ ?_).step ?_
    | with_reducible refine (cancelWork_keeps ..).step ?_
    | with_reducible refine (complete_keeps ..).step ?_
    | with_reducible refine (faultDrop_keeps ..).step ?_
    | with_reducible refine (swapAll_keeps ..).step ?_
    | exact fun h => h
    | exact fun h => tput_rising _ _ h _
    | exact fun h => Tbl.rising_map h _ fun _ => rfl
    | exact fun h => Tbl.rising_map h _ fun p => by split <;> rfl
    | split

theorem execMemberReport_keeps (a1 a2 a3 a4 a5 a6 a7 s) : RKeeps 0x1723F86 s (execMemberReport a1 a2 a3 a4 a5 a6 a7 s) := by
  unfold execMemberReport
  try dsimp only
  repeat'
    first
    | with_reducible exact Keeps.refl _ _
    | with_reducible refine Keeps.ite ?_ ?_
    | with_reducible refine RKeeps.next ?_
    | with_reducible refine RKeeps.ite ?_ ?_
    | with_reducible refine (setFlight_keeps ..).step ?_
    | with_reducible refine (finishStriped_keeps ..).step ?_
    | with_reducible refine (swapAll_keeps ..).step ?_
    | with_reducible refine (workEnded_keeps ..).step ?_
    | split

theorem execSpanPartial_keeps (a1 a2 a3 s) : RKeeps 0x1000 s (execSpanPartial a1 a2 a3 s) := by
  unfold execSpanPartial
  try dsimp only
  repeat'
    first
    | with_reducible exact Keeps.refl _ _
    | with_reducible refine Keeps.ite ?_ ?_
    | with_reducible refine RKeeps.next ?_
    | with_reducible refine RKeeps.ite ?_ ?_
    | with_reducible refine (setFlight_keeps ..).step ?_
    | split

theorem alarm_keeps (a1 s) : Keeps 0x200086 s (alarm a1 s) := by
  unfold alarm
  try dsimp only
  repeat'
    first
    | with_reducible exact Keeps.refl _ _
    | with_reducible refine Keeps.ite ?_ ?_
    | with_reducible refine (emcyRaise_keeps ..).step ?_
    | with_reducible refine (telemetry_keeps ..).step ?_
    | with_reducible refine (setObj_keeps ..).step ?_

theorem setTwin_keeps (a1 s) : Keeps 0x2100000 s (setTwin a1 s) := by
  unfold setTwin
  try dsimp only
  repeat'
    first
    | with_reducible exact Keeps.refl _ _
    | with_reducible refine Keeps.ite ?_ ?_
    | with_reducible refine (State.setRole_keeps _ _).step ?_
    | split

theorem serveOne_keeps (s a1) : Keeps 0x17AFFE6 s (serveOne s a1) := by
  unfold serveOne
  try dsimp only
  repeat'
    first
    | with_reducible exact Keeps.refl _ _
    | with_reducible refine Keeps.ite ?_ ?_
    | with_reducible refine (serveReq_keeps ..).step ?_
    | with_reducible refine (winServe_keeps ..).step ?_
    | with_reducible refine (serveWb_keeps ..).step ?_

theorem serveHeld_keeps (s) : Keeps 0x17AFFE6 s (serveHeld s) := by
  unfold serveHeld
  try dsimp only
  repeat'
    first
    | with_reducible exact Keeps.refl _ _
    | with_reducible assumption
    | with_reducible refine Keeps.ite ?_ ?_
    | with_reducible refine (serveOne_keeps ..).step ?_
    | with_reducible refine Keeps.foldl ?_ ?_
    | with_reducible refine Keeps.foldl_fst ?_ ?_
    | with_reducible refine Keeps.foldl_snd ?_ ?_
    | intro _ _ _

theorem takeHome_keeps (s) : Keeps 0x17AFFE6 s (takeHome s) := by
  unfold takeHome
  try dsimp only
  repeat'
    first
    | with_reducible exact Keeps.refl _ _
    | with_reducible assumption
    | with_reducible refine Keeps.ite ?_ ?_
    | with_reducible refine (openTxn_keeps ..).step ?_
    | with_reducible refine (serveHeld_keeps ..).step ?_
    | with_reducible refine (settle_keeps ..).step ?_
    | with_reducible refine Keeps.foldl ?_ ?_
    | with_reducible refine Keeps.foldl_fst ?_ ?_
    | with_reducible refine Keeps.foldl_snd ?_ ?_
    | intro _ _ _

theorem relaysDone_keeps (s) : Keeps 0x32A082 s (relaysDone s) := by
  unfold relaysDone
  try dsimp only
  repeat'
    first
    | with_reducible exact Keeps.refl _ _
    | with_reducible assumption
    | with_reducible refine Keeps.ite ?_ ?_
    | with_reducible refine (answerDone_keeps ..).step ?_
    | with_reducible refine Keeps.foldl ?_ ?_
    | with_reducible refine Keeps.foldl_fst ?_ ?_
    | with_reducible refine Keeps.foldl_snd ?_ ?_
    | intro _ _ _

theorem goSole_keeps (a1 s) : Keeps 0x37AFFE6 s (goSole a1 s) := by
  unfold goSole
  try dsimp only
  repeat'
    first
    | with_reducible exact Keeps.refl _ _
    | with_reducible refine Keeps.ite ?_ ?_
    | with_reducible refine (relaysDone_keeps ..).step ?_
    | with_reducible refine (alarm_keeps ..).step ?_
    | with_reducible refine (setTwin_keeps ..).step ?_
    | with_reducible refine (bumpObj_keeps ..).step ?_
    | with_reducible refine (takeHome_keeps ..).step ?_
    | with_reducible refine (State.setSpan_keeps _ _ rfl).step ?_

theorem stopTwin_keeps (a1 a2 s) : Keeps 0x2300086 s (stopTwin a1 a2 s) := by
  unfold stopTwin
  try dsimp only
  repeat'
    first
    | with_reducible exact Keeps.refl _ _
    | with_reducible refine Keeps.ite ?_ ?_
    | with_reducible refine (alarm_keeps ..).step ?_
    | with_reducible refine (setTwin_keeps ..).step ?_

theorem execTwinLogRecord_keeps (a1 a2 a3 a4 a5 s) : RKeeps 0x170E386 s (execTwinLogRecord a1 a2 a3 a4 a5 s) := by
  unfold execTwinLogRecord
  try dsimp only
  repeat'
    first
    | with_reducible exact Keeps.refl _ _
    | with_reducible refine Keeps.ite ?_ ?_
    | with_reducible refine RKeeps.next ?_
    | with_reducible refine RKeeps.ite ?_ ?_
    | with_reducible refine (dropReq_keeps ..).step ?_
    | with_reducible refine (memStore_keeps ..).step ?_
    | with_reducible refine (setDir_keeps ..).step ?_
    | with_reducible refine (State.setSpan_keeps _ _ rfl).step ?_
    | split

theorem disagree_keeps (a1 s) : Keeps 0x100002 s (disagree a1 s) := by
  unfold disagree
  try dsimp only
  repeat'
    first
    | with_reducible exact Keeps.refl _ _
    | with_reducible refine Keeps.ite ?_ ?_
    | with_reducible refine (bumpObj_keeps ..).step ?_
    | with_reducible refine (State.setSpan_keeps _ _ rfl).step ?_

theorem compareBucket_keeps (s a1) : Keeps 0x100002 s (compareBucket s a1) := by
  unfold compareBucket
  try dsimp only
  repeat'
    first
    | with_reducible exact Keeps.refl _ _
    | with_reducible refine Keeps.ite ?_ ?_
    | with_reducible refine (bumpObj_keeps ..).step ?_
    | with_reducible refine (disagree_keeps ..).step ?_
    | with_reducible refine (State.setSpan_keeps _ _ rfl).step ?_

theorem compareBuckets_keeps (s) : Keeps 0x100002 s (compareBuckets s) := by
  unfold compareBuckets
  try dsimp only
  repeat'
    first
    | with_reducible exact Keeps.refl _ _
    | with_reducible assumption
    | with_reducible refine Keeps.ite ?_ ?_
    | with_reducible refine (compareBucket_keeps ..).step ?_
    | with_reducible refine (State.setSpan_keeps _ _ rfl).step ?_
    | with_reducible refine Keeps.foldl ?_ ?_
    | with_reducible refine Keeps.foldl_fst ?_ ?_
    | with_reducible refine Keeps.foldl_snd ?_ ?_
    | intro _ _ _

theorem execTwinSelfCheck_keeps (a1 s) : RKeeps 0x100000 s (execTwinSelfCheck a1 s) := by
  unfold execTwinSelfCheck
  try dsimp only
  repeat'
    first
    | with_reducible exact Keeps.refl _ _
    | with_reducible refine Keeps.ite ?_ ?_
    | with_reducible refine RKeeps.next ?_
    | with_reducible refine RKeeps.ite ?_ ?_
    | with_reducible refine (State.setSpan_keeps _ _ rfl).step ?_

theorem execDisagreementAction_keeps (s) : RKeeps 0x37AFFE6 s (execDisagreementAction s) := by
  unfold execDisagreementAction
  try dsimp only
  repeat'
    first
    | with_reducible exact Keeps.refl _ _
    | with_reducible refine Keeps.ite ?_ ?_
    | with_reducible refine RKeeps.next ?_
    | with_reducible refine RKeeps.ite ?_ ?_
    | with_reducible refine (stopTwin_keeps ..).step ?_
    | with_reducible refine (alarm_keeps ..).step ?_
    | with_reducible refine (goSole_keeps ..).step ?_
    | with_reducible refine (State.setSpan_keeps _ _ rfl).step ?_
    | split

theorem closeRecord_keeps (s) : Keeps 0x300000 s (closeRecord s) := by
  unfold closeRecord
  try dsimp only
  repeat'
    first
    | with_reducible exact Keeps.refl _ _
    | with_reducible refine Keeps.ite ?_ ?_
    | with_reducible refine (emit_keeps ..).step ?_
    | with_reducible refine (State.setSpan_keeps _ _ rfl).step ?_

theorem passHome_keeps (a1 s) : Keeps 0x17AFFE6 s (passHome a1 s) := by
  unfold passHome
  try dsimp only
  repeat'
    first
    | with_reducible exact Keeps.refl _ _
    | with_reducible refine Keeps.ite ?_ ?_
    | with_reducible refine (takeHome_keeps ..).step ?_
    | with_reducible refine (State.setSpan_keeps _ _ rfl).step ?_

theorem handoverFails_keeps (s) : Keeps 0x17AFFE6 s (handoverFails s) := by
  unfold handoverFails
  try dsimp only
  repeat'
    first
    | with_reducible exact Keeps.refl _ _
    | with_reducible refine Keeps.ite ?_ ?_
    | with_reducible refine (alarm_keeps ..).step ?_
    | with_reducible refine (passHome_keeps ..).step ?_
    | with_reducible refine (bumpObj_keeps ..).step ?_
    | with_reducible refine (State.setSpan_keeps _ _ rfl).step ?_
    | split

theorem handoverJudged_keeps (a1 s) : Keeps 0x17AFFE6 s (handoverJudged a1 s) := by
  unfold handoverJudged
  try dsimp only
  repeat'
    first
    | with_reducible exact Keeps.refl _ _
    | with_reducible refine Keeps.ite ?_ ?_
    | with_reducible refine (alarm_keeps ..).step ?_
    | with_reducible refine (handoverFails_keeps ..).step ?_
    | with_reducible refine (bumpObj_keeps ..).step ?_
    | with_reducible refine (State.setSpan_keeps _ _ rfl).step ?_
    | split

theorem execStepRecord_keeps (a1 a2 a3 a4 a5 a6 a7 s) : RKeeps 0x17AFFE6 s (execStepRecord a1 a2 a3 a4 a5 a6 a7 s) := by
  unfold execStepRecord
  try dsimp only
  repeat'
    first
    | with_reducible exact Keeps.refl _ _
    | with_reducible assumption
    | with_reducible refine Keeps.ite ?_ ?_
    | with_reducible refine RKeeps.next ?_
    | with_reducible refine RKeeps.ite ?_ ?_
    | with_reducible refine (compareBuckets_keeps ..).step ?_
    | with_reducible refine (handoverJudged_keeps ..).step ?_
    | with_reducible refine (disagree_keeps ..).step ?_
    | with_reducible refine (State.setSpan_keeps _ _ rfl).step ?_
    | with_reducible refine Keeps.foldl ?_ ?_
    | with_reducible refine Keeps.foldl_fst ?_ ?_
    | with_reducible refine Keeps.foldl_snd ?_ ?_
    | split
    | intro _ _ _
    | intro _ _

theorem applyMirror_keeps (a1 s) : Keeps 0x1737FA2 s (applyMirror a1 s) := by
  unfold applyMirror
  try dsimp only
  repeat'
    first
    | with_reducible exact Keeps.refl _ _
    | with_reducible refine Keeps.ite ?_ ?_
    | with_reducible refine (writeGrant_keeps ..).step ?_
    | with_reducible refine (Keeps.snd (writeGrant_keeps ..) (by assumption)).step ?_
    | with_reducible refine (writeRevoke_keeps ..).step ?_
    | with_reducible refine (Keeps.snd (writeRevoke_keeps ..) (by assumption)).step ?_
    | with_reducible refine (writeReaders_keeps ..).step ?_
    | with_reducible refine (Keeps.snd (writeReaders_keeps ..) (by assumption)).step ?_
    | refine (bindPasid_keeps ..).step ?_
    | refine (Keeps.snd (bindPasid_keeps ..) (by assumption)).step ?_
    | with_reducible refine (openCtx_keeps ..).step ?_
    | with_reducible refine (Keeps.snd (openCtx_keeps ..) (by assumption)).step ?_
    | with_reducible refine (writeRotate_keeps ..).step ?_
    | with_reducible refine (Keeps.snd (writeRotate_keeps ..) (by assumption)).step ?_
    | refine (unbindPasid_keeps ..).step ?_
    | refine (Keeps.snd (unbindPasid_keeps ..) (by assumption)).step ?_
    | with_reducible refine (closeCtx_keeps ..).step ?_
    | with_reducible refine (Keeps.snd (closeCtx_keeps ..) (by assumption)).step ?_
    | with_reducible refine (waitDom_keeps ..).step ?_
    | with_reducible refine (writePortPasid_keeps ..).step ?_
    | with_reducible refine (Keeps.snd (writePortPasid_keeps ..) (by assumption)).step ?_
    | with_reducible refine (tenantCommand_keeps ..).step ?_
    | with_reducible refine (Keeps.snd (tenantCommand_keeps ..) (by assumption)).step ?_
    | with_reducible refine (writeRetire_keeps ..).step ?_
    | with_reducible refine (Keeps.snd (writeRetire_keeps ..) (by assumption)).step ?_
    | with_reducible refine Keeps.snd ?_ (by assumption)
    | with_reducible refine Keeps.fst ?_ (by assumption)
    | with_reducible refine Keeps.snd2 ?_ (by assumption)
    | with_reducible refine Keeps.snd3 ?_ (by assumption)
    | split

theorem runMirror_keeps (s) : Keeps 0x1737FA2 s (runMirror s) := by
  unfold runMirror
  try dsimp only
  repeat'
    first
    | with_reducible exact Keeps.refl _ _
    | with_reducible assumption
    | with_reducible refine Keeps.ite ?_ ?_
    | with_reducible refine (applyMirror_keeps ..).step ?_
    | with_reducible refine (State.setSpan_keeps _ _ rfl).step ?_
    | with_reducible refine Keeps.foldl ?_ ?_
    | with_reducible refine Keeps.foldl_fst ?_ ?_
    | with_reducible refine Keeps.foldl_snd ?_ ?_
    | intro _ _ _

theorem execTwinKeepalive_keeps (s) : RKeeps 0x300091 s (execTwinKeepalive s) := by
  unfold execTwinKeepalive
  try dsimp only
  repeat'
    first
    | with_reducible exact Keeps.refl _ _
    | with_reducible refine Keeps.ite ?_ ?_
    | with_reducible refine RKeeps.next ?_
    | with_reducible refine RKeeps.ite ?_ ?_
    | with_reducible refine (emit_keeps ..).step ?_
    | with_reducible refine (carryTo_keeps ..).step ?_
    | with_reducible refine (State.setSpan_keeps _ _ rfl).step ?_
    | split

theorem noteSilence_keeps (s) : Keeps 0x100000 s (noteSilence s) := by
  unfold noteSilence
  try dsimp only
  repeat'
    first
    | with_reducible exact Keeps.refl _ _
    | with_reducible refine Keeps.ite ?_ ?_
    | with_reducible refine (State.setSpan_keeps _ _ rfl).step ?_
    | split

theorem execPathSilence_keeps (a1 s) : RKeeps 0x37AFFF7 s (execPathSilence a1 s) := by
  unfold execPathSilence
  try dsimp only
  repeat'
    first
    | with_reducible exact Keeps.refl _ _
    | with_reducible refine Keeps.ite ?_ ?_
    | with_reducible refine RKeeps.next ?_
    | with_reducible refine RKeeps.ite ?_ ?_
    | with_reducible refine (stopTwin_keeps ..).step ?_
    | with_reducible refine (alarm_keeps ..).step ?_
    | with_reducible refine (goSole_keeps ..).step ?_
    | with_reducible refine (noteSilence_keeps ..).step ?_
    | with_reducible refine (carryTo_keeps ..).step ?_
    | split

theorem joinPair_keeps (s) : Keeps 0x37AFFE6 s (joinPair s) := by
  unfold joinPair
  try dsimp only
  repeat'
    first
    | with_reducible exact Keeps.refl _ _
    | with_reducible assumption
    | with_reducible refine Keeps.ite ?_ ?_
    | with_reducible refine (State.setCoh_keeps _ _ ?_).step ?_
    | exact fun h => h
    | with_reducible refine (setTwin_keeps ..).step ?_
    | with_reducible refine (setQp_keeps ..).step ?_
    | with_reducible refine (serveOne_keeps ..).step ?_
    | with_reducible refine Keeps.foldl ?_ ?_
    | with_reducible refine Keeps.foldl_fst ?_ ?_
    | with_reducible refine Keeps.foldl_snd ?_ ?_
    | intro _ _ _

theorem sendCut_keeps (s) : Keeps 0x200000 s (sendCut s) := by
  unfold sendCut
  try dsimp only
  repeat'
    first
    | with_reducible exact Keeps.refl _ _
    | with_reducible refine Keeps.ite ?_ ?_
    | with_reducible refine (emit_keeps ..).step ?_
    | split

theorem rolesReturn_keeps (s) : Keeps 0x37AFFE6 s (rolesReturn s) := by
  unfold rolesReturn
  try dsimp only
  repeat'
    first
    | with_reducible exact Keeps.refl _ _
    | with_reducible refine Keeps.ite ?_ ?_
    | with_reducible refine (passHome_keeps ..).step ?_
    | with_reducible refine (setTwin_keeps ..).step ?_
    | with_reducible refine (State.setSpan_keeps _ _ rfl).step ?_
    | split

theorem execResyncPhaseEnd_keeps (s) : RKeeps 0x37AFFE6 s (execResyncPhaseEnd s) := by
  unfold execResyncPhaseEnd
  try dsimp only
  repeat'
    first
    | with_reducible exact Keeps.refl _ _
    | with_reducible refine Keeps.ite ?_ ?_
    | with_reducible refine RKeeps.next ?_
    | with_reducible refine RKeeps.ite ?_ ?_
    | with_reducible refine (rolesReturn_keeps ..).step ?_
    | with_reducible refine (setTwin_keeps ..).step ?_
    | with_reducible refine (joinPair_keeps ..).step ?_
    | with_reducible refine (setObj_keeps ..).step ?_
    | with_reducible refine (sendCut_keeps ..).step ?_
    | with_reducible refine (State.setSpan_keeps _ _ rfl).step ?_
    | split

theorem execHoldBufferOverflow_keeps (s) : RKeeps 0x8002 s (execHoldBufferOverflow s) := by
  unfold execHoldBufferOverflow
  try dsimp only
  repeat'
    first
    | with_reducible exact Keeps.refl _ _
    | with_reducible refine Keeps.ite ?_ ?_
    | with_reducible refine RKeeps.next ?_
    | with_reducible refine RKeeps.ite ?_ ?_
    | with_reducible refine (setObj_keeps ..).step ?_
    | with_reducible refine (State.setCoh_keeps _ _ ?_).step ?_
    | exact fun h => h
    | with_reducible refine (bumpObj_keeps ..).step ?_

theorem execHandoverFail_keeps (s) : RKeeps 0x17AFFE6 s (execHandoverFail s) := by
  unfold execHandoverFail
  try dsimp only
  repeat'
    first
    | with_reducible exact Keeps.refl _ _
    | with_reducible refine Keeps.ite ?_ ?_
    | with_reducible refine RKeeps.next ?_
    | with_reducible refine RKeeps.ite ?_ ?_
    | with_reducible refine (handoverFails_keeps ..).step ?_
    | split

end Sys2Proof.Machine
end

