-- ==== Sys2Proof/Laws/KeepsShaping.lean ====
section
/-! SUPPORT. What each operation of Machine/Shaping.lean may write, and that it keeps the invariant. -/

namespace Sys2Proof.Machine

set_option Elab.async false

theorem tollPass_keeps (a1 a2 s) : Keeps 0x17AFFE6 s (tollPass a1 a2 s) := by
  unfold tollPass
  try dsimp only
  repeat'
    first
    | with_reducible exact Keeps.refl _ _
    | with_reducible refine Keeps.ite ?_ ?_
    | with_reducible refine (setFlight_keeps ..).step ?_
    | with_reducible refine (gateReq_keeps ..).step ?_
    | with_reducible refine (setReq_keeps ..).step ?_
    | with_reducible refine (winServe_keeps ..).step ?_
    | split

theorem tollDrain_keeps (a1 a2 s) : Keeps 0x17AFFE6 s (tollDrain a1 a2 s) := by
  induction a1 generalizing a2 s with
  | zero =>
    unfold tollDrain
    try dsimp only
    repeat'
      first
      | with_reducible exact Keeps.refl _ _
  | succ k ih =>
    unfold tollDrain
    try dsimp only
    repeat'
      first
      | with_reducible refine (ih ..).step ?_
      | with_reducible exact Keeps.refl _ _
      | with_reducible refine Keeps.ite ?_ ?_
      | with_reducible refine (tollPop_keeps ..).step ?_
      | with_reducible refine (Keeps.snd (tollPop_keeps ..) (by assumption)).step ?_
      | with_reducible refine (tollPass_keeps ..).step ?_
      | with_reducible refine Keeps.snd ?_ (by assumption)
      | with_reducible refine Keeps.fst ?_ (by assumption)
      | with_reducible refine Keeps.snd2 ?_ (by assumption)
      | with_reducible refine Keeps.snd3 ?_ (by assumption)
      | split

theorem tollFresh_keeps (s a1) : Keeps 0x17AFFE6 s (tollFresh s a1) := by
  unfold tollFresh
  try dsimp only
  repeat'
    first
    | with_reducible exact Keeps.refl _ _
    | with_reducible refine Keeps.ite ?_ ?_
    | with_reducible refine (tollDrain_keeps ..).step ?_
    | with_reducible refine (setToll_keeps ..).step ?_

theorem tollHead_keeps (a1 a2 s) : Keeps 0x17AFFF7 s (tollHead a1 a2 s) := by
  induction a1 generalizing a2 s with
  | zero =>
    unfold tollHead
    try dsimp only
    repeat'
      first
      | with_reducible exact Keeps.refl _ _
  | succ k ih =>
    unfold tollHead
    try dsimp only
    repeat'
      first
      | with_reducible refine (ih ..).step ?_
      | with_reducible exact Keeps.refl _ _
      | with_reducible refine Keeps.ite ?_ ?_
      | with_reducible refine (tollPop_keeps ..).step ?_
      | with_reducible refine (Keeps.snd (tollPop_keeps ..) (by assumption)).step ?_
      | with_reducible refine (elapse_keeps ..).step ?_
      | with_reducible refine (tollPass_keeps ..).step ?_
      | with_reducible refine Keeps.snd ?_ (by assumption)
      | with_reducible refine Keeps.fst ?_ (by assumption)
      | with_reducible refine Keeps.snd2 ?_ (by assumption)
      | with_reducible refine Keeps.snd3 ?_ (by assumption)
      | split

theorem migrRelease_keeps (a1 s) : Keeps 0x7A7C93 s (migrRelease a1 s) := by
  unfold migrRelease
  try dsimp only
  repeat'
    first
    | with_reducible exact Keeps.refl _ _
    | with_reducible refine Keeps.ite ?_ ?_
    | with_reducible refine (elapse_keeps ..).step ?_
    | with_reducible refine (runMoves_keeps ..).step ?_
    | split

theorem execTollRelease_keeps (a1 s) : RKeeps 0x17AFFF7 s (execTollRelease a1 s) := by
  unfold execTollRelease
  try dsimp only
  repeat'
    first
    | with_reducible exact Keeps.refl _ _
    | with_reducible refine Keeps.ite ?_ ?_
    | with_reducible refine RKeeps.next ?_
    | with_reducible refine RKeeps.ite ?_ ?_
    | with_reducible refine (migrRelease_keeps ..).step ?_
    | with_reducible refine (tollHead_keeps ..).step ?_

theorem holdRequest_keeps (a1 s) : Keeps 0x3AA093 s (holdRequest a1 s) := by
  unfold holdRequest
  try dsimp only
  repeat'
    first
    | with_reducible exact Keeps.refl _ _
    | with_reducible refine Keeps.ite ?_ ?_
    | with_reducible refine (tollLeave_keeps ..).step ?_
    | with_reducible refine (answerFail_keeps ..).step ?_
    | with_reducible refine (carryTo_keeps ..).step ?_

theorem holdFlight_keeps (a1 s) : Keeps 0x323C93 s (holdFlight a1 s) := by
  unfold holdFlight
  try dsimp only
  repeat'
    first
    | with_reducible exact Keeps.refl _ _
    | with_reducible refine Keeps.ite ?_ ?_
    | with_reducible refine (tollLeave_keeps ..).step ?_
    | with_reducible refine (complete_keeps ..).step ?_
    | with_reducible refine (carryTo_keeps ..).step ?_
    | split

theorem holdStarved_keeps (a1 s) : Keeps 0x323C93 s (holdStarved a1 s) := by
  unfold holdStarved
  try dsimp only
  repeat'
    first
    | with_reducible exact Keeps.refl _ _
    | with_reducible refine Keeps.ite ?_ ?_
    | with_reducible refine (readHead_keeps ..).step ?_
    | with_reducible refine (carryTo_keeps ..).step ?_
    | split

theorem execAdmissionHoldLimit_keeps (a1 a2 s) : RKeeps 0x3ABC93 s (execAdmissionHoldLimit a1 a2 s) := by
  unfold execAdmissionHoldLimit
  try dsimp only
  repeat'
    first
    | with_reducible exact Keeps.refl _ _
    | with_reducible refine Keeps.ite ?_ ?_
    | with_reducible refine RKeeps.next ?_
    | with_reducible refine RKeeps.ite ?_ ?_
    | with_reducible refine (holdStarved_keeps ..).step ?_
    | with_reducible refine (holdFlight_keeps ..).step ?_
    | with_reducible refine (holdRequest_keeps ..).step ?_
    | split

end Sys2Proof.Machine
end

