-- ==== Sys2Proof/Laws/KeepsStepClock.lean ====
section
/-! SUPPORT. What each operation of Machine/StepClock.lean may write, and that it keeps the invariant. -/

namespace Sys2Proof.Machine

set_option Elab.async false

theorem countDiscarded_keeps (s) : Keeps 0x10 s (countDiscarded s) := by
  unfold countDiscarded
  try dsimp only
  repeat'
    first
    | with_reducible exact Keeps.refl _ _
    | with_reducible refine Keeps.ite ?_ ?_
    | with_reducible refine (State.setClk_keeps _ _ ?_).step ?_
    | exact fun h => StepClk.ok_of h rfl

theorem countStale_keeps (s) : Keeps 0x10 s (countStale s) := by
  unfold countStale
  try dsimp only
  repeat'
    first
    | with_reducible exact Keeps.refl _ _
    | with_reducible refine Keeps.ite ?_ ?_
    | with_reducible refine (State.setClk_keeps _ _ ?_).step ?_
    | exact fun h => StepClk.ok_of h rfl

theorem countMissed_keeps (a1 s) : Keeps 0x10 s (countMissed a1 s) := by
  unfold countMissed
  try dsimp only
  repeat'
    first
    | with_reducible exact Keeps.refl _ _
    | with_reducible refine Keeps.ite ?_ ?_
    | with_reducible refine (State.setClk_keeps _ _ ?_).step ?_
    | exact fun h => StepClk.ok_of h rfl

theorem vectorFail_keeps (s a1) : Keeps 0x20038E s (vectorFail s a1) := by
  unfold vectorFail
  try dsimp only
  repeat'
    first
    | with_reducible exact Keeps.refl _ _
    | with_reducible refine Keeps.ite ?_ ?_
    | with_reducible refine (hbmFail_keeps ..).step ?_
    | with_reducible refine (logEvent_keeps ..).step ?_

theorem openWindow_keeps (s) : Keeps 0x1210 s (openWindow s) := by
  unfold openWindow
  try dsimp only
  repeat'
    first
    | with_reducible exact Keeps.refl _ _
    | with_reducible assumption
    | with_reducible refine Keeps.ite ?_ ?_
    | with_reducible refine (retrainOpen_keeps ..).step ?_
    | with_reducible refine (State.setClk_keeps _ _ ?_).step ?_
    | with_reducible refine (setCore_keeps ..).step ?_
    | with_reducible refine Keeps.foldl ?_ ?_
    | with_reducible refine Keeps.foldl_fst ?_ ?_
    | with_reducible refine Keeps.foldl_snd ?_ ?_
    | exact fun h => StepClk.ok_of h rfl
    | intro _ _ _

theorem closeWindow_keeps (s) : Keeps 0x10 s (closeWindow s) := by
  unfold closeWindow
  try dsimp only
  repeat'
    first
    | with_reducible exact Keeps.refl _ _
    | with_reducible refine Keeps.ite ?_ ?_
    | with_reducible refine (State.setClk_keeps _ _ ?_).step ?_
    | exact fun h => StepClk.ok_of h rfl

theorem firePrefetch_keeps (a1 s) : Keeps 0x3A3C82 s (firePrefetch a1 s) := by
  unfold firePrefetch
  try dsimp only
  repeat'
    first
    | with_reducible exact Keeps.refl _ _
    | with_reducible assumption
    | with_reducible refine Keeps.ite ?_ ?_
    | with_reducible refine (raiseMove_keeps ..).step ?_
    | with_reducible refine Keeps.foldl ?_ ?_
    | with_reducible refine Keeps.foldl_fst ?_ ?_
    | with_reducible refine Keeps.foldl_snd ?_ ?_
    | intro _ _ _

theorem firePrefetches_keeps (a1 s) : Keeps 0x3A3C92 s (firePrefetches a1 s) := by
  induction a1 generalizing s with
  | zero =>
    unfold firePrefetches
    try dsimp only
    repeat'
      first
      | with_reducible exact Keeps.refl _ _
  | succ k ih =>
    unfold firePrefetches
    try dsimp only
    repeat'
      first
      | with_reducible refine (ih ..).step ?_
      | with_reducible exact Keeps.refl _ _
      | with_reducible refine Keeps.ite ?_ ?_
      | with_reducible refine (State.setClk_keeps _ _ ?_).step ?_
      | with_reducible refine (firePrefetch_keeps ..).step ?_
      | exact fun h => StepClk.ok_of h rfl

theorem copyDeadline_keeps (s) : Keeps 0x17AFFF6 s (copyDeadline s) := by
  unfold copyDeadline
  try dsimp only
  repeat'
    first
    | with_reducible exact Keeps.refl _ _
    | with_reducible refine Keeps.ite ?_ ?_
    | with_reducible refine (handoverFails_keeps ..).step ?_
    | with_reducible refine (State.setClk_keeps _ _ ?_).step ?_
    | with_reducible refine (bumpObj_keeps ..).step ?_
    | exact fun h => StepClk.ok_of h rfl
    | split

theorem fireRest_keeps (s) : Keeps 0x17AFFF6 s (fireRest s) := by
  unfold fireRest
  try dsimp only
  repeat'
    first
    | with_reducible exact Keeps.refl _ _
    | with_reducible refine Keeps.ite ?_ ?_
    | with_reducible refine (gateApply_keeps ..).step ?_
    | with_reducible refine (openWindow_keeps ..).step ?_
    | with_reducible refine (closeWindow_keeps ..).step ?_
    | with_reducible refine (copyDeadline_keeps ..).step ?_
    | with_reducible refine (State.setClk_keeps _ _ ?_).step ?_
    | with_reducible refine (runMoves_keeps ..).step ?_
    | with_reducible refine (firePrefetches_keeps ..).step ?_
    | exact fun h => StepClk.ok_of h rfl

theorem endStep_keeps (a1 s) : Keeps 0x17AFFF6 s (endStep a1 s) := by
  unfold endStep
  try dsimp only
  repeat'
    first
    | with_reducible exact Keeps.refl _ _
    | with_reducible refine Keeps.ite ?_ ?_
    | with_reducible refine (fireRest_keeps ..).step ?_
    | with_reducible refine (State.setClk_keeps _ _ ?_).step ?_
    | exact fun h => StepClk.ok_of h rfl

theorem boundaryValues_keeps (s) : Keeps 0x17AFFE6 s (boundaryValues s) := by
  unfold boundaryValues
  try dsimp only
  repeat'
    first
    | with_reducible exact Keeps.refl _ _
    | with_reducible assumption
    | with_reducible refine Keeps.ite ?_ ?_
    | with_reducible refine (enterCores_keeps ..).step ?_
    | with_reducible refine (roceStart_keeps ..).step ?_
    | with_reducible refine (tollFresh_keeps ..).step ?_
    | with_reducible refine (ratesSettle_keeps ..).step ?_
    | with_reducible refine (State.setShape_keeps _ _).step ?_
    | with_reducible refine (applyWaiting_keeps ..).step ?_
    | with_reducible refine (sendDigest_keeps ..).step ?_
    | with_reducible refine (State.setKv_keeps _ _ ?_).step ?_
    | with_reducible refine Keeps.foldl ?_ ?_
    | with_reducible refine Keeps.foldl_fst ?_ ?_
    | with_reducible refine Keeps.foldl_snd ?_ ?_
    | with_reducible refine Keeps.snd ?_ (by assumption)
    | with_reducible refine Keeps.fst ?_ (by assumption)
    | with_reducible refine Keeps.snd2 ?_ (by assumption)
    | with_reducible refine Keeps.snd3 ?_ (by assumption)
    | exact fun h => h
    | exact fun h => ⟨tput_rising _ _ h.1 _, h.2⟩
    | exact fun h => ⟨h.1, tput_rising _ _ h.2 _⟩
    | exact fun h => ⟨Tbl.rising_map h.1 _ fun _ => rfl, h.2⟩
    | exact fun h => ⟨h.1, Tbl.rising_map h.2 _ fun _ => rfl⟩
    | exact fun h => ⟨h.1.filter _, h.2⟩
    | exact fun h => ⟨h.1, h.2.filter _⟩
    | exact fun h => ⟨Tbl.rising_map h.1 _ fun p => by split <;> rfl, h.2⟩
    | intro _ _ _
    | intro _ _
    | split

theorem tallySnapshot_keeps (s) : Keeps 0x80 s (tallySnapshot s) := by
  unfold tallySnapshot
  try dsimp only
  repeat'
    first
    | with_reducible exact Keeps.refl _ _
    | with_reducible refine Keeps.ite ?_ ?_
    | with_reducible refine (State.setTal_keeps _ _ ?_).step ?_
    | exact fun h => Tally.ok_of h rfl rfl

theorem handoverEnd_keeps (s) : Keeps 0x17AFFE6 s (handoverEnd s) := by
  unfold handoverEnd
  try dsimp only
  repeat'
    first
    | with_reducible exact Keeps.refl _ _
    | with_reducible refine Keeps.ite ?_ ?_
    | with_reducible refine (passHome_keeps ..).step ?_
    | with_reducible refine (handoverFails_keeps ..).step ?_
    | with_reducible refine (State.setSpan_keeps _ _ rfl).step ?_
    | split

theorem roleSwap_keeps (s) : Keeps 0x17AFFE6 s (roleSwap s) := by
  unfold roleSwap
  try dsimp only
  repeat'
    first
    | with_reducible exact Keeps.refl _ _
    | with_reducible refine Keeps.ite ?_ ?_
    | with_reducible refine (handoverEnd_keeps ..).step ?_
    | with_reducible refine (passHome_keeps ..).step ?_
    | with_reducible refine (State.setSpan_keeps _ _ rfl).step ?_

theorem gatePassed_keeps (s) : Keeps 0x2000 s (gatePassed s) := by
  unfold gatePassed
  try dsimp only
  repeat'
    first
    | with_reducible exact Keeps.refl _ _
    | with_reducible refine Keeps.ite ?_ ?_
    | with_reducible refine (gateApply_keeps ..).step ?_
    | split

theorem noteClock_keeps (a1 s) : Keeps 0x200096 s (noteClock a1 s) := by
  unfold noteClock
  try dsimp only
  repeat'
    first
    | with_reducible exact Keeps.refl _ _
    | with_reducible refine Keeps.ite ?_ ?_
    | with_reducible refine (emcyRaise_keeps ..).step ?_
    | with_reducible refine (telemetry_keeps ..).step ?_
    | with_reducible refine (State.setClk_keeps _ _ ?_).step ?_
    | exact fun h => StepClk.ok_of h rfl
    | split

/-- The phase that a beacon loads stays within the accumulator. -/
theorem phase_bound (x : Nat) : min 65535 x * 2 ^ 32 < 2 ^ 48 :=
  lt_of_le_of_lt (Nat.mul_le_mul_right _ (Nat.min_le_left _ _)) (by decide)

theorem acc_zero {c : StepClk} (h : c.acc = 0) : c.Ok := by unfold StepClk.Ok; rw [h]; decide

theorem beginStep_keeps (a1 s) (h : s.clk.Ok → (a1 s.clk).Ok) : Keeps 0x17BFFF6 s (beginStep a1 s) := by
  unfold beginStep
  extract_lets was s1 s2 s3
  have h1 : Keeps 0x17BFFF6 s s1 := by
    refine (State.setClk_keeps _ _ ?_).mono
    exact h
  clear_value s1
  have h2 : Keeps 0x17BFFF6 s s2 := (runMirror_keeps ..).step ((noteClock_keeps ..).step h1)
  clear_value s2
  have h3 : Keeps 0x17BFFF6 s s3 :=
    (roleSwap_keeps ..).step ((tallySnapshot_keeps ..).step ((compareBuckets_keeps ..).step ((closeRecord_keeps ..).step h2)))
  exact (releaseGates_keeps ..).step ((runMoves_keeps ..).step ((gatePassed_keeps ..).step h3))

theorem stepFreeze_keeps (s) : Keeps 0x80 s (stepFreeze s) := by
  unfold stepFreeze
  try dsimp only
  repeat'
    first
    | with_reducible exact Keeps.refl _ _
    | with_reducible refine Keeps.ite ?_ ?_
    | with_reducible refine (askFreeze_keeps ..).step ?_
    | split

theorem acceptBeacon_keeps (a1 a2 s) : Keeps 0x17BFFF6 s (acceptBeacon a1 a2 s) := by
  unfold acceptBeacon
  extract_lets el
  exact (traceEvent_keeps ..).step ((stepFreeze_keeps ..).step ((beginStep_keeps _ _ fun _ => phase_bound _).mono))

theorem keystoneStart_keeps (a1 a2 a3 a4 s) : Keeps 0x17BFFF6 s (keystoneStart a1 a2 a3 a4 s) := by
  unfold keystoneStart
  try dsimp only
  repeat'
    first
    | with_reducible exact Keeps.refl _ _
    | with_reducible assumption
    | with_reducible refine Keeps.ite ?_ ?_
    | with_reducible refine (boundaryValues_keeps ..).step ?_
    | with_reducible refine (acceptBeacon_keeps ..).step ?_
    | with_reducible refine (sendBypass_keeps ..).step ?_
    | with_reducible refine (endStep_keeps ..).step ?_
    | with_reducible refine (State.setClk_keeps _ _ ?_).step ?_
    | with_reducible refine Keeps.foldl ?_ ?_
    | with_reducible refine Keeps.foldl_fst ?_ ?_
    | with_reducible refine Keeps.foldl_snd ?_ ?_
    | with_reducible refine Keeps.snd ?_ (by assumption)
    | with_reducible refine Keeps.fst ?_ (by assumption)
    | with_reducible refine Keeps.snd2 ?_ (by assumption)
    | with_reducible refine Keeps.snd3 ?_ (by assumption)
    | exact fun h => StepClk.ok_of h rfl
    | intro _ _ _

theorem crossing_keeps (a1 a2 s) : Keeps 0x91 s (crossing a1 a2 s) := by
  unfold crossing
  try dsimp only
  repeat'
    first
    | with_reducible exact Keeps.refl _ _
    | with_reducible refine Keeps.ite ?_ ?_
    | with_reducible refine (linkTally_keeps ..).step ?_
    | with_reducible refine (elapse_keeps ..).step ?_

theorem judgeMark_keeps (a1 a2 s) : Keeps 0x17BFFF6 s (judgeMark a1 a2 s) := by
  unfold judgeMark
  try dsimp only
  repeat'
    first
    | with_reducible exact Keeps.refl _ _
    | with_reducible refine Keeps.ite ?_ ?_
    | with_reducible refine (keystoneStart_keeps ..).step ?_
    | with_reducible refine (countDiscarded_keeps ..).step ?_
    | with_reducible refine (countMissed_keeps ..).step ?_
    | with_reducible refine (countStale_keeps ..).step ?_
    | split

theorem execStepMark_keeps (a1 a2 a3 s) : RKeeps 0x17BFFF7 s (execStepMark a1 a2 a3 s) := by
  unfold execStepMark
  try dsimp only
  repeat'
    first
    | with_reducible exact Keeps.refl _ _
    | with_reducible refine Keeps.ite ?_ ?_
    | with_reducible refine RKeeps.next ?_
    | with_reducible refine RKeeps.ite ?_ ?_
    | with_reducible refine (crossing_keeps ..).step ?_
    | with_reducible refine (judgeMark_keeps ..).step ?_

theorem stewardMark_keeps (s) : Keeps 0x17BFFF6 s (stewardMark s) := by
  unfold stewardMark
  try dsimp only
  repeat'
    first
    | with_reducible exact Keeps.refl _ _
    | with_reducible refine Keeps.ite ?_ ?_
    | with_reducible refine (keystoneStart_keeps ..).step ?_

theorem stepMark_keeps (a1 s) : Keeps 0x17BFFF6 s (stepMark a1 s) := by
  unfold stepMark
  try dsimp only
  repeat'
    first
    | with_reducible exact Keeps.refl _ _
    | with_reducible refine Keeps.ite ?_ ?_
    | with_reducible refine (stewardMark_keeps ..).step ?_

theorem execStepmark_keeps (a1 s) : RKeeps 0x17BFFF6 s (execStepmark a1 s) := by
  unfold execStepmark
  try dsimp only
  repeat'
    first
    | with_reducible exact Keeps.refl _ _
    | with_reducible refine Keeps.ite ?_ ?_
    | with_reducible refine RKeeps.next ?_
    | with_reducible refine RKeeps.ite ?_ ?_
    | with_reducible refine (stepMark_keeps ..).step ?_

theorem execSelfTimedStep_keeps (s) : RKeeps 0x17BFFF7 s (execSelfTimedStep s) := by
  unfold execSelfTimedStep
  try dsimp only
  repeat'
    first
    | with_reducible exact Keeps.refl _ _
    | with_reducible refine Keeps.ite ?_ ?_
    | with_reducible refine RKeeps.next ?_
    | with_reducible refine RKeeps.ite ?_ ?_
    | with_reducible refine (keystoneStart_keeps ..).step ?_
    | with_reducible refine (carryTo_keeps ..).step ?_

theorem relayBeacon_keeps (a1 a2 s) : Keeps 0x220080 s (relayBeacon a1 a2 s) := by
  unfold relayBeacon
  try dsimp only
  repeat'
    first
    | with_reducible exact Keeps.refl _ _
    | with_reducible assumption
    | with_reducible refine Keeps.ite ?_ ?_
    | with_reducible refine (sendBypass_keeps ..).step ?_
    | with_reducible refine Keeps.foldl ?_ ?_
    | with_reducible refine Keeps.foldl_fst ?_ ?_
    | with_reducible refine Keeps.foldl_snd ?_ ?_
    | intro _ _ _

theorem takeCoasted_keeps (a1 s) : Keeps 0x17BFFF6 s (takeCoasted a1 s) := by
  unfold takeCoasted
  extract_lets n s1 el
  have h1 : Keeps 0x17BFFF6 s s1 := (boundaryValues_keeps ..).step ((endStep_keeps ..).mono)
  clear_value s1
  refine Keeps.ite (.refl ..) ?_
  refine (beginStep_keeps _ _ fun _ => phase_bound _).step h1

theorem judgeBeacon_keeps (a1 a2 s) : Keeps 0x17BFFF6 s (judgeBeacon a1 a2 s) := by
  unfold judgeBeacon
  try dsimp only
  repeat'
    first
    | with_reducible exact Keeps.refl _ _
    | with_reducible refine Keeps.ite ?_ ?_
    | with_reducible refine (relayBeacon_keeps ..).step ?_
    | with_reducible refine (countDiscarded_keeps ..).step ?_
    | with_reducible refine (countMissed_keeps ..).step ?_
    | with_reducible refine (boundaryValues_keeps ..).step ?_
    | with_reducible refine (acceptBeacon_keeps ..).step ?_
    | with_reducible refine (countStale_keeps ..).step ?_
    | with_reducible refine (endStep_keeps ..).step ?_
    | with_reducible refine (takeCoasted_keeps ..).step ?_
    | with_reducible refine (State.setSpan_keeps _ _ rfl).step ?_
    | split

theorem execStepBeacon_keeps (a1 a2 a3 s) : RKeeps 0x17BFFF7 s (execStepBeacon a1 a2 a3 s) := by
  unfold execStepBeacon
  try dsimp only
  repeat'
    first
    | with_reducible exact Keeps.refl _ _
    | with_reducible refine Keeps.ite ?_ ?_
    | with_reducible refine RKeeps.next ?_
    | with_reducible refine RKeeps.ite ?_ ?_
    | with_reducible refine (judgeBeacon_keeps ..).step ?_
    | with_reducible refine (crossing_keeps ..).step ?_

theorem execCoastedBeacon_keeps (a1 a2 a3 s) : RKeeps 0x17BFFF7 s (execCoastedBeacon a1 a2 a3 s) := by
  unfold execCoastedBeacon
  try dsimp only
  repeat'
    first
    | with_reducible exact Keeps.refl _ _
    | with_reducible refine Keeps.ite ?_ ?_
    | with_reducible refine RKeeps.next ?_
    | with_reducible refine RKeeps.ite ?_ ?_
    | with_reducible refine (judgeBeacon_keeps ..).step ?_
    | with_reducible refine (crossing_keeps ..).step ?_

theorem sendCoasted_keeps (s) : Keeps 0x220080 s (sendCoasted s) := by
  unfold sendCoasted
  try dsimp only
  repeat'
    first
    | with_reducible exact Keeps.refl _ _
    | with_reducible refine Keeps.ite ?_ ?_
    | with_reducible refine (sendBypass_keeps ..).step ?_

theorem execBeaconTimeout_keeps (s) : RKeeps 0x17BFFF7 s (execBeaconTimeout s) := by
  unfold execBeaconTimeout
  refine RKeeps.ite (RKeeps.next (.refl ..)) ?_
  extract_lets s1
  split
  · exact RKeeps.next (carryTo_keeps ..).mono
  · have h1 : Keeps 0x17BFFF7 s s1 := (boundaryValues_keeps ..).step ((endStep_keeps ..).step ((carryTo_keeps ..).mono))
    clear_value s1
    exact RKeeps.next ((sendCoasted_keeps ..).step ((beginStep_keeps _ _ fun _ => acc_zero rfl).step h1))

theorem unlockedStep_keeps (a1 s) : Keeps 0x17BFFF6 s (unlockedStep a1 s) := by
  unfold unlockedStep
  exact (beginStep_keeps _ _ fun _ => acc_zero rfl).mono

theorem execInternalStepBoundary_keeps (s) : RKeeps 0x17BFFF7 s (execInternalStepBoundary s) := by
  unfold execInternalStepBoundary
  extract_lets f
  have hf : Keeps 0x17BFFF7 s (f s) := (boundaryValues_keeps ..).step ((endStep_keeps ..).step ((carryTo_keeps ..).mono))
  clear_value f
  split
  · split
    · exact RKeeps.next (.refl ..)
    · exact RKeeps.next ((sendCoasted_keeps ..).step ((beginStep_keeps _ _ fun _ => acc_zero rfl).step hf))
  · split
    · exact RKeeps.next (.refl ..)
    · exact RKeeps.next ((unlockedStep_keeps ..).step hf)
  · exact RKeeps.next (.refl ..)

theorem execStepOverrun_keeps (s) : RKeeps 0x17AFFF7 s (execStepOverrun s) := by
  unfold execStepOverrun
  try dsimp only
  repeat'
    first
    | with_reducible exact Keeps.refl _ _
    | with_reducible refine Keeps.ite ?_ ?_
    | with_reducible refine RKeeps.next ?_
    | with_reducible refine RKeeps.ite ?_ ?_
    | with_reducible refine (elapse_keeps ..).step ?_
    | with_reducible refine (fireRest_keeps ..).step ?_
    | with_reducible refine (noteClock_keeps ..).step ?_
    | with_reducible refine (State.setClk_keeps _ _ ?_).step ?_
    | exact fun h => StepClk.ok_of h rfl

theorem unlock_keeps (s) : Keeps 0x17BFFF6 s (unlock s) := by
  unfold unlock
  extract_lets s1
  have h1 : Keeps 0x17BFFF6 s s1 := (boundaryValues_keeps ..).step ((endStep_keeps ..).mono)
  clear_value s1
  exact (unlockedStep_keeps ..).step ((State.setClk_keeps _ _ fun h => StepClk.ok_of h rfl).step h1)

theorem ptpAnew_keeps (s) : Keeps 0x80002 s (ptpAnew s) := by
  unfold ptpAnew
  try dsimp only
  repeat'
    first
    | with_reducible exact Keeps.refl _ _
    | with_reducible refine Keeps.ite ?_ ?_
    | with_reducible refine (setObj_keeps ..).step ?_
    | with_reducible refine (State.setPorts_keeps _ _).step ?_
    | split

theorem writeClock_keeps (a1 a2 s) : Keeps 0x17BFFF6 s (writeClock a1 a2 s).2 := by
  unfold writeClock
  try dsimp only
  repeat'
    first
    | with_reducible exact Keeps.refl _ _
    | with_reducible refine Keeps.ite ?_ ?_
    | with_reducible refine Keeps.ite_snd ?_ ?_
    | with_reducible refine (unlock_keeps ..).step ?_
    | with_reducible refine (writeObj_keeps ..).step ?_
    | with_reducible refine (ptpAnew_keeps ..).step ?_
    | split

theorem execStepClockReconfigure_keeps (a1 a2 a3 s) : RKeeps 0x17BFFF6 s (execStepClockReconfigure a1 a2 a3 s) := by
  unfold execStepClockReconfigure
  try dsimp only
  repeat'
    first
    | with_reducible exact Keeps.refl _ _
    | with_reducible assumption
    | with_reducible refine Keeps.ite ?_ ?_
    | with_reducible refine RKeeps.next ?_
    | with_reducible refine RKeeps.ite ?_ ?_
    | with_reducible refine (writeClock_keeps ..).step ?_
    | with_reducible refine (Keeps.snd (writeClock_keeps ..) (by assumption)).step ?_
    | with_reducible refine objCmd_keeps ?_ ?_
    | split
    | intro _ _ _
    | intro _ _

theorem execSuccessorTakeover_keeps (s) : RKeeps 0x12 s (execSuccessorTakeover s) := by
  unfold execSuccessorTakeover
  try dsimp only
  repeat'
    first
    | with_reducible exact Keeps.refl _ _
    | with_reducible refine Keeps.ite ?_ ?_
    | with_reducible refine RKeeps.next ?_
    | with_reducible refine RKeeps.ite ?_ ?_
    | with_reducible refine (setObj_keeps ..).step ?_
    | with_reducible refine (State.setClk_keeps _ _ ?_).step ?_
    | exact fun h => StepClk.ok_of h rfl

theorem execBackgroundWindowOpen_keeps (s) : RKeeps 0x1291 s (execBackgroundWindowOpen s) := by
  unfold execBackgroundWindowOpen
  try dsimp only
  repeat'
    first
    | with_reducible exact Keeps.refl _ _
    | with_reducible refine Keeps.ite ?_ ?_
    | with_reducible refine RKeeps.next ?_
    | with_reducible refine RKeeps.ite ?_ ?_
    | with_reducible refine (openWindow_keeps ..).step ?_
    | with_reducible refine (carryToPhase_keeps ..).step ?_

theorem execBackgroundWindowClose_keeps (a1 s) : RKeeps 0x20039F s (execBackgroundWindowClose a1 s) := by
  unfold execBackgroundWindowClose
  try dsimp only
  repeat'
    first
    | with_reducible exact Keeps.refl _ _
    | with_reducible assumption
    | with_reducible refine Keeps.ite ?_ ?_
    | with_reducible refine RKeeps.next ?_
    | with_reducible refine RKeeps.ite ?_ ?_
    | with_reducible refine (closeWindow_keeps ..).step ?_
    | with_reducible refine (vectorFail_keeps ..).step ?_
    | with_reducible refine (carryToPhase_keeps ..).step ?_
    | with_reducible refine Keeps.foldl ?_ ?_
    | with_reducible refine Keeps.foldl_fst ?_ ?_
    | with_reducible refine Keeps.foldl_snd ?_ ?_
    | split
    | intro _ _ _

theorem execLayerPrefetchEvent_keeps (s) : RKeeps 0x7A7C93 s (execLayerPrefetchEvent s) := by
  unfold execLayerPrefetchEvent
  extract_lets l s1
  have h1 : Keeps 0x7A7C93 s s1 := (carryToPhase_keeps ..).mono
  clear_value s1
  refine RKeeps.ite (RKeeps.next (.refl ..)) (RKeeps.next ?_)
  exact (runMoves_keeps ..).step ((firePrefetch_keeps ..).step ((State.setClk_keeps _ _ fun h => StepClk.ok_of h rfl).step h1))

theorem execCheckpointCopyDeadline_keeps (s) : RKeeps 0x17AFFF7 s (execCheckpointCopyDeadline s) := by
  unfold execCheckpointCopyDeadline
  try dsimp only
  repeat'
    first
    | with_reducible exact Keeps.refl _ _
    | with_reducible refine Keeps.ite ?_ ?_
    | with_reducible refine RKeeps.next ?_
    | with_reducible refine RKeeps.ite ?_ ?_
    | with_reducible refine (copyDeadline_keeps ..).step ?_
    | with_reducible refine (carryToPhase_keeps ..).step ?_

theorem execGateEntryBoundary_keeps (s) : RKeeps 0x17AEB97 s (execGateEntryBoundary s) := by
  unfold execGateEntryBoundary
  try dsimp only
  repeat'
    first
    | with_reducible exact Keeps.refl _ _
    | with_reducible refine Keeps.ite ?_ ?_
    | with_reducible refine RKeeps.next ?_
    | with_reducible refine RKeeps.ite ?_ ?_
    | with_reducible refine (releaseGates_keeps ..).step ?_
    | with_reducible refine (elapse_keeps ..).step ?_
    | with_reducible refine (carryToPhase_keeps ..).step ?_
    | split

theorem execGateListChange_keeps (s) : RKeeps 0x17AEB97 s (execGateListChange s) := by
  unfold execGateListChange
  try dsimp only
  repeat'
    first
    | with_reducible exact Keeps.refl _ _
    | with_reducible refine Keeps.ite ?_ ?_
    | with_reducible refine RKeeps.next ?_
    | with_reducible refine RKeeps.ite ?_ ?_
    | with_reducible refine (releaseGates_keeps ..).step ?_
    | with_reducible refine (elapse_keeps ..).step ?_
    | with_reducible refine (gateApply_keeps ..).step ?_
    | with_reducible refine (carryToPhase_keeps ..).step ?_
    | split

end Sys2Proof.Machine
end

