-- ==== Sys2Proof/Laws/KeepsPower.lean ====
section
/-! SUPPORT. What each operation of Machine/Power.lean may write, and that it keeps the invariant. -/

namespace Sys2Proof.Machine

set_option Elab.async false

theorem deferEntry_keeps (s a1) : Keeps 0x2 s (deferEntry s a1) := by
  unfold deferEntry
  try dsimp only
  repeat'
    first
    | with_reducible exact Keeps.refl _ _
    | with_reducible refine Keeps.ite ?_ ?_
    | with_reducible refine (setObj_keeps ..).step ?_
    | with_reducible refine (setDom_keeps ..).step ?_
    | with_reducible refine (putWaiting_keeps ..).step ?_

theorem storeRecord_keeps (a1 s) : Keeps 0x17BFFF6 s (storeRecord a1 s) := by
  unfold storeRecord
  try dsimp only
  repeat'
    first
    | with_reducible exact Keeps.refl _ _
    | with_reducible assumption
    | with_reducible refine Keeps.ite ?_ ?_
    | with_reducible refine (deferEntry_keeps ..).step ?_
    | with_reducible refine (unlock_keeps ..).step ?_
    | with_reducible refine (State.setCan_keeps _ _ ?_).step ?_
    | with_reducible refine (State.setDict_keeps _ _).step ?_
    | with_reducible refine Keeps.foldl ?_ ?_
    | with_reducible refine Keeps.foldl_fst ?_ ?_
    | with_reducible refine Keeps.foldl_snd ?_ ?_
    | exact fun h => Can.ok_of h rfl
    | intro _ _ _

theorem startFails_keeps (s) : Keeps 0x8 s (startFails s) := by
  unfold startFails
  try dsimp only
  repeat'
    first
    | with_reducible exact Keeps.refl _ _
    | with_reducible refine Keeps.ite ?_ ?_
    | with_reducible refine (State.setPwr_keeps _ _).step ?_

theorem execDieFailure_keeps (a1 s) : RKeeps 0x8 s (execDieFailure a1 s) := by
  unfold execDieFailure
  try dsimp only
  repeat'
    first
    | with_reducible exact Keeps.refl _ _
    | with_reducible refine Keeps.ite ?_ ?_
    | with_reducible refine RKeeps.next ?_
    | with_reducible refine RKeeps.ite ?_ ?_
    | with_reducible refine (dieFails_keeps ..).step ?_

theorem execTrussFlitCrcFail_keeps (a1 a2 s) : RKeeps 0x40088 s (execTrussFlitCrcFail a1 a2 s) := by
  unfold execTrussFlitCrcFail
  try dsimp only
  repeat'
    first
    | with_reducible exact Keeps.refl _ _
    | with_reducible refine Keeps.ite ?_ ?_
    | with_reducible refine RKeeps.next ?_
    | with_reducible refine RKeeps.ite ?_ ?_
    | with_reducible refine (dieFails_keeps ..).step ?_
    | with_reducible refine (trussCrc_keeps ..).step ?_

theorem execUcieLinkLoss_keeps (s) : RKeeps 0xA s (execUcieLinkLoss s) := by
  unfold execUcieLinkLoss
  try dsimp only
  repeat'
    first
    | with_reducible exact Keeps.refl _ _
    | with_reducible refine Keeps.ite ?_ ?_
    | with_reducible refine RKeeps.next ?_
    | with_reducible refine RKeeps.ite ?_ ?_
    | with_reducible refine (dieFails_keeps ..).step ?_
    | with_reducible refine (setObj_keeps ..).step ?_

theorem measureFirmware_keeps (a1 s) : Keeps 0x10000 s (measureFirmware a1 s) := by
  unfold measureFirmware
  try dsimp only
  repeat'
    first
    | with_reducible exact Keeps.refl _ _
    | with_reducible assumption
    | with_reducible refine Keeps.ite ?_ ?_
    | with_reducible refine (mExtend_keeps ..).step ?_
    | with_reducible refine Keeps.foldl ?_ ?_
    | with_reducible refine Keeps.foldl_fst ?_ ?_
    | with_reducible refine Keeps.foldl_snd ?_ ?_
    | intro _ _ _

theorem bootImages_keeps (a1 s) : OKeeps 0x17BFFF6 s (fun t => t) (bootImages a1 s) := by
  unfold bootImages
  try dsimp only
  repeat'
    first
    | with_reducible exact Keeps.refl _ _
    | with_reducible refine Keeps.ite ?_ ?_
    | with_reducible refine (measureFirmware_keeps ..).step ?_
    | with_reducible refine (setObj_keeps ..).step ?_
    | with_reducible refine (setDom_keeps ..).step ?_
    | with_reducible refine (storeRecord_keeps ..).step ?_
    | with_reducible refine (mExtend_keeps ..).step ?_
    | apply OKeeps.bind
    | with_reducible refine Keeps.getD ?_ ?_
    | with_reducible refine Keeps.getD_snd ?_ ?_
    | apply OKeeps.obind
    | refine OKeeps.map_snd ?_ fun _ => rfl
    | apply OKeeps.map
    | with_reducible refine OKeeps.pure ?_
    | with_reducible exact OKeeps.none
    | with_reducible refine OKeeps.some ?_
    | with_reducible refine OKeeps.ite ?_ ?_
    | with_reducible refine OKeeps.get ?_ (by assumption)
    | with_reducible refine OKeeps.get1 ?_ (by assumption)
    | with_reducible refine OKeeps.get2 ?_ (by assumption)
    | split

theorem trainCtl_keeps (a1 a2 s a3) : Keeps 0x600386 s (trainCtl a1 a2 s a3) := by
  unfold trainCtl
  try dsimp only
  repeat'
    first
    | with_reducible exact Keeps.refl _ _
    | with_reducible assumption
    | with_reducible refine Keeps.ite ?_ ?_
    | with_reducible refine (logEvent_keeps ..).step ?_
    | with_reducible refine (setCtl_keeps ..).step ?_
    | with_reducible refine (freeStep_keeps ..).step ?_
    | with_reducible refine Keeps.foldl ?_ ?_
    | with_reducible refine Keeps.foldl_fst ?_ ?_
    | with_reducible refine Keeps.foldl_snd ?_ ?_
    | intro _ _ _
    | intro _ _
    | split

theorem startTraining_keeps (s) : Keeps 0x200 s (startTraining s) := by
  unfold startTraining
  exact State.setHbm_keeps _ _ fun _ => List.pairwise_map.mpr List.pairwise_lt_range

theorem bootTraining_keeps (a1 s) : Keeps 0x60038E s (bootTraining a1 s) := by
  unfold bootTraining
  try dsimp only
  repeat'
    first
    | with_reducible exact Keeps.refl _ _
    | with_reducible assumption
    | with_reducible refine Keeps.ite ?_ ?_
    | with_reducible refine (hbmFail_keeps ..).step ?_
    | with_reducible refine (trainCtl_keeps ..).step ?_
    | with_reducible refine Keeps.foldl ?_ ?_
    | with_reducible refine Keeps.foldl_fst ?_ ?_
    | with_reducible refine Keeps.foldl_snd ?_ ?_
    | intro _ _ _
    | intro _ _
    | split

theorem initCtl_keeps (a1 s a2) : Keeps 0x20038E s (initCtl a1 s a2) := by
  unfold initCtl
  try dsimp only
  repeat'
    first
    | with_reducible exact Keeps.refl _ _
    | with_reducible refine Keeps.ite ?_ ?_
    | with_reducible refine (hbmFail_keeps ..).step ?_
    | with_reducible refine (logEvent_keeps ..).step ?_
    | with_reducible refine (setCtl_keeps ..).step ?_
    | split

theorem bootCore_keeps (s a1) : Keeps 0x201186 s (bootCore s a1) := by
  unfold bootCore
  try dsimp only
  repeat'
    first
    | with_reducible exact Keeps.refl _ _
    | with_reducible refine Keeps.ite ?_ ?_
    | with_reducible refine (logEvent_keeps ..).step ?_
    | with_reducible refine (setCore_keeps ..).step ?_

theorem bootMemory_keeps (a1 s) : Keeps 0x20138E s (bootMemory a1 s) := by
  unfold bootMemory
  try dsimp only
  repeat'
    first
    | with_reducible exact Keeps.refl _ _
    | with_reducible assumption
    | with_reducible refine Keeps.ite ?_ ?_
    | with_reducible refine (initCtl_keeps ..).step ?_
    | with_reducible refine (bootCore_keeps ..).step ?_
    | with_reducible refine (belowRating_keeps ..).step ?_
    | with_reducible refine Keeps.foldl ?_ ?_
    | with_reducible refine Keeps.foldl_fst ?_ ?_
    | with_reducible refine Keeps.foldl_snd ?_ ?_
    | intro _ _ _
    | intro _ _
    | split

theorem bootSteward_keeps (a1 s) : Keeps 0x21008E s (bootSteward a1 s) := by
  unfold bootSteward
  try dsimp only
  repeat'
    first
    | with_reducible exact Keeps.refl _ _
    | with_reducible refine Keeps.ite ?_ ?_
    | with_reducible refine (mintTo_keeps ..).step ?_
    | with_reducible refine (mExtend_keeps ..).step ?_
    | with_reducible refine (State.setPwr_keeps _ _).step ?_

theorem restoreTenant_keeps (s a1) : Keeps 0x10402 s (restoreTenant s a1) := by
  unfold restoreTenant
  try dsimp only
  repeat'
    first
    | with_reducible exact Keeps.refl _ _
    | with_reducible refine Keeps.ite ?_ ?_
    | with_reducible refine (setObj_keeps ..).step ?_
    | with_reducible refine (setTenant_keeps ..).step ?_
    | with_reducible refine (setKeys_keeps ..).step ?_
    | split

theorem reGrant_keeps (s a1) : Keeps 0x400402 s (reGrant s a1) := by
  unfold reGrant
  try dsimp only
  repeat'
    first
    | with_reducible exact Keeps.refl _ _
    | with_reducible refine Keeps.ite ?_ ?_
    | with_reducible refine (bumpObj_keeps ..).step ?_
    | with_reducible refine (grantNow_keeps ..).step ?_
    | with_reducible refine (setExt_keeps ..).step ?_
    | split

theorem loadRetired_keeps (a1 a2 s) : Keeps 0x100 s (loadRetired a1 a2 s) := by
  induction a1 generalizing a2 s with
  | zero =>
    unfold loadRetired
    try dsimp only
    repeat'
      first
      | with_reducible exact Keeps.refl _ _
  | succ k ih =>
    unfold loadRetired
    try dsimp only
    repeat'
      first
      | with_reducible refine (ih ..).step ?_
      | with_reducible exact Keeps.refl _ _
      | with_reducible refine Keeps.ite ?_ ?_
      | with_reducible refine (retireBank_keeps ..).step ?_
      | with_reducible refine (Keeps.snd (retireBank_keeps ..) (by assumption)).step ?_
      | with_reducible refine (retireGranule_keeps ..).step ?_

theorem toReady_keeps (s) : Keeps 0x251250A s (toReady s) := by
  unfold toReady
  try dsimp only
  repeat'
    first
    | with_reducible exact Keeps.refl _ _
    | with_reducible assumption
    | with_reducible refine Keeps.ite ?_ ?_
    | with_reducible refine (restoreTenant_keeps ..).step ?_
    | with_reducible refine (macMark_keeps ..).step ?_
    | with_reducible refine (setDom_keeps ..).step ?_
    | with_reducible refine (State.setShape_keeps _ _).step ?_
    | with_reducible refine (reGrant_keeps ..).step ?_
    | with_reducible refine (State.setPwr_keeps _ _).step ?_
    | with_reducible refine (loadRetired_keeps ..).step ?_
    | with_reducible refine (State.setRole_keeps _ _).step ?_
    | with_reducible refine Keeps.foldl ?_ ?_
    | with_reducible refine Keeps.foldl_fst ?_ ?_
    | with_reducible refine Keeps.foldl_snd ?_ ?_
    | intro _ _ _
    | intro _ _
    | split

theorem bothEnded_keeps (s) : Keeps 0x251250A s (bothEnded s) := by
  unfold bothEnded
  try dsimp only
  repeat'
    first
    | with_reducible exact Keeps.refl _ _
    | with_reducible refine Keeps.ite ?_ ?_
    | with_reducible refine (toReady_keeps ..).step ?_

theorem ucieUp_keeps (a1 s) : Keeps 0x2 s (ucieUp a1 s) := by
  unfold ucieUp
  try dsimp only
  repeat'
    first
    | with_reducible exact Keeps.refl _ _
    | with_reducible refine Keeps.ite ?_ ?_
    | with_reducible refine (setObj_keeps ..).step ?_

theorem drawNonce_keeps (s) : Keeps 0x410000 s (drawNonce s) := by
  unfold drawNonce
  try dsimp only
  repeat'
    first
    | with_reducible exact Keeps.refl _ _
    | with_reducible refine Keeps.ite ?_ ?_
    | with_reducible refine (State.setMint_keeps _ _ ?_).step ?_
    | with_reducible refine (freeStep_keeps ..).step ?_
    | exact fun h => h

theorem toStep_keeps (a1 s) : Keeps 0x8 s (toStep a1 s) := by
  unfold toStep
  try dsimp only
  repeat'
    first
    | with_reducible exact Keeps.refl _ _
    | with_reducible refine Keeps.ite ?_ ?_
    | with_reducible refine (State.setPwr_keeps _ _).step ?_

theorem execPowerUpStepEnd_keeps (a1 a2 s) : RKeeps 0x37BFFFE s (execPowerUpStepEnd a1 a2 s) := by
  unfold execPowerUpStepEnd
  try dsimp only
  repeat'
    first
    | with_reducible exact Keeps.refl _ _
    | with_reducible assumption
    | with_reducible refine Keeps.ite ?_ ?_
    | with_reducible refine RKeeps.next ?_
    | with_reducible refine RKeeps.ite ?_ ?_
    | with_reducible refine (startFails_keeps ..).step ?_
    | with_reducible refine (startTraining_keeps ..).step ?_
    | with_reducible refine (bootImages_keeps ..).step ?_
    | with_reducible refine (OKeeps.get (bootImages_keeps ..) (by assumption)).step ?_
    | with_reducible refine (drawNonce_keeps ..).step ?_
    | with_reducible refine (mintTo_keeps ..).step ?_
    | with_reducible refine (ucieUp_keeps ..).step ?_
    | with_reducible refine (mExtend_keeps ..).step ?_
    | with_reducible refine (bootTraining_keeps ..).step ?_
    | with_reducible refine (bothEnded_keeps ..).step ?_
    | with_reducible refine (State.setPwr_keeps _ _).step ?_
    | with_reducible refine (bootMemory_keeps ..).step ?_
    | with_reducible refine (toStep_keeps ..).step ?_
    | with_reducible refine (bootSteward_keeps ..).step ?_
    | apply OKeeps.bind
    | with_reducible refine Keeps.getD ?_ ?_
    | with_reducible refine Keeps.getD_snd ?_ ?_
    | apply OKeeps.obind
    | refine OKeeps.map_snd ?_ fun _ => rfl
    | apply OKeeps.map
    | with_reducible refine OKeeps.pure ?_
    | with_reducible exact OKeeps.none
    | with_reducible refine OKeeps.some ?_
    | with_reducible refine OKeeps.ite ?_ ?_
    | with_reducible refine OKeeps.get ?_ (by assumption)
    | with_reducible refine OKeeps.get1 ?_ (by assumption)
    | with_reducible refine OKeeps.get2 ?_ (by assumption)
    | split
    | intro _ _ _
    | intro _ _

theorem coldState_inv (s) (h : s.time.Ok) : Inv (coldState s) where
  mem := ⟨rfl, Nat.zero_le _, Nat.zero_le _, .nil, .nil⟩
  led := ⟨.nil, .nil, .nil⟩
  kv := ⟨.nil, .nil⟩
  cores := .nil
  ctl := .nil
  mint := ⟨.nil, .nil⟩
  link := .nil
  tel := .nil
  coh := ⟨.nil, .nil⟩
  xl := Nat.zero_le _
  can := Nat.zero_le _
  tal := ⟨Nat.zero_le _, Nat.zero_le _⟩
  clk := acc_zero rfl
  time := h

theorem coldState_keeps (s) : Keeps 0x37FFFFF s (coldState s) := Keeps.all rfl fun h => coldState_inv s h.time

theorem execPowerUp_keeps (a1 s) : RKeeps 0x37FFFFF s (execPowerUp a1 s) := by
  unfold execPowerUp
  split
  · exact RKeeps.next (.refl ..)
  · extract_lets s1
    have h1 : Keeps 0x37FFFFF s s1 := Keeps.ite ((carryTo_keeps ..).mono) (.refl ..)
    clear_value s1
    have h2 := (coldState_keeps s1).step h1
    exact RKeeps.next ((Keeps.pwr_mk _ _).step ((Keeps.time_mk _ _ fun _ => by unfold Time.Ok; decide).step h2))

theorem powerGone_keeps (a1 a2 s) : Keeps 0x37FFFFF s (powerGone a1 a2 s) := by
  unfold powerGone
  try dsimp only
  repeat'
    first
    | with_reducible exact Keeps.refl _ _
    | with_reducible refine Keeps.ite ?_ ?_
    | with_reducible refine (coldState_keeps ..).step ?_
    | with_reducible refine (Keeps.pwr_mk _ _).step ?_

theorem quiesce_keeps (s) : Keeps 0x13ABF86 s (quiesce s) := by
  unfold quiesce
  try dsimp only
  repeat'
    first
    | with_reducible exact Keeps.refl _ _
    | with_reducible assumption
    | with_reducible refine Keeps.ite ?_ ?_
    | with_reducible refine (linkDown_keeps ..).step ?_
    | with_reducible refine (State.setKv_keeps _ _ ?_).step ?_
    | with_reducible refine (State.setAttn_keeps _ _ ?_).step ?_
    | with_reducible refine (setObj_keeps ..).step ?_
    | with_reducible refine (State.setCoh_keeps _ _ ?_).step ?_
    | exact fun h => h
    | with_reducible refine Keeps.foldl ?_ ?_
    | with_reducible refine Keeps.foldl_fst ?_ ?_
    | with_reducible refine Keeps.foldl_snd ?_ ?_
    | exact fun h => h
    | exact fun h => tput_rising _ _ h _
    | exact fun h => ⟨tput_rising _ _ h.1 _, h.2⟩
    | exact fun h => Tbl.rising_map h _ fun _ => rfl
    | exact fun h => ⟨Tbl.rising_map h.1 _ fun _ => rfl, h.2⟩
    | intro _ _ _

theorem inReset_keeps (s) : Keeps 0x37FFFFF s (inReset s) := by
  refine Keeps.all rfl fun h => ?_
  have k := coldState_inv s h.time
  exact ⟨⟨Memory.wf_filter _ h.mem.1, Nat.zero_le _, Nat.zero_le _, Tbl.rising_filter h.mem.4 _, .nil⟩, k.led, k.kv, k.cores,
    by unfold inReset Tbl.Rising; dsimp only; decide, ⟨.nil, .nil⟩, k.link, k.tel, k.coh, k.xl, k.can, k.tal, k.clk, k.time⟩

theorem execDeviceReset_keeps (s) : RKeeps 0x37FFFFF s (execDeviceReset s) := by
  unfold execDeviceReset
  try dsimp only
  repeat'
    first
    | with_reducible exact Keeps.refl _ _
    | with_reducible refine Keeps.ite ?_ ?_
    | with_reducible refine RKeeps.next ?_
    | with_reducible refine RKeeps.ite ?_ ?_
    | with_reducible refine (inReset_keeps ..).step ?_
    | with_reducible refine (carryTo_keeps ..).step ?_
    | with_reducible refine (quiesce_keeps ..).step ?_
    | split

theorem execResetDrainLimit_keeps (s) : RKeeps 0x13EBF97 s (execResetDrainLimit s) := by
  unfold execResetDrainLimit
  try dsimp only
  repeat'
    first
    | with_reducible exact Keeps.refl _ _
    | with_reducible refine Keeps.ite ?_ ?_
    | with_reducible refine RKeeps.next ?_
    | with_reducible refine RKeeps.ite ?_ ?_
    | with_reducible refine (State.setTruss_keeps _ _).step ?_
    | with_reducible refine (quiesce_keeps ..).step ?_
    | with_reducible refine (carryTo_keeps ..).step ?_
    | split

theorem execResetRelease_keeps (s) : RKeeps 0x99 s (execResetRelease s) := by
  unfold execResetRelease
  split
  · extract_lets s1
    have h1 : Keeps 0x99 s s1 := (carryTo_keeps ..).mono
    clear_value s1
    have h2 : Keeps 0x99 s { s1 with time := {} } := (Keeps.time_mk s1 {} fun _ => by unfold Time.Ok; decide).step h1
    have h3 := (Keeps.clk_mk _ {} fun _ => acc_zero rfl).step h2
    exact RKeeps.next ((Keeps.pwr_mk _ _).step h3)
  · exact RKeeps.next (.refl ..)

theorem powerDown_keeps (s) : Keeps 0x37FFFFF s (powerDown s) := by
  unfold powerDown
  try dsimp only
  repeat'
    first
    | with_reducible exact Keeps.refl _ _
    | with_reducible refine Keeps.ite ?_ ?_
    | with_reducible refine (elapse_keeps ..).step ?_
    | with_reducible refine (powerGone_keeps ..).step ?_
    | with_reducible refine (quiesce_keeps ..).step ?_

theorem writePowerDown_keeps (a1 s) : Keeps 0x37FFFFF s (writePowerDown a1 s).2 := by
  unfold writePowerDown
  try dsimp only
  repeat'
    first
    | with_reducible exact Keeps.refl _ _
    | with_reducible refine Keeps.ite ?_ ?_
    | with_reducible refine Keeps.ite_snd ?_ ?_
    | with_reducible refine (powerDown_keeps ..).step ?_

theorem execOrderlyPowerDown_keeps (a1 a2 s) : RKeeps 0x37FFFFF s (execOrderlyPowerDown a1 a2 s) := by
  unfold execOrderlyPowerDown
  try dsimp only
  repeat'
    first
    | with_reducible exact Keeps.refl _ _
    | with_reducible assumption
    | with_reducible refine Keeps.ite ?_ ?_
    | with_reducible refine RKeeps.next ?_
    | with_reducible refine RKeeps.ite ?_ ?_
    | with_reducible refine (writePowerDown_keeps ..).step ?_
    | with_reducible refine (Keeps.snd (writePowerDown_keeps ..) (by assumption)).step ?_
    | with_reducible refine (State.setPwr_keeps _ _).step ?_
    | with_reducible refine (powerDown_keeps ..).step ?_
    | with_reducible refine commanded_keeps ?_ ?_
    | split
    | intro _ _ _
    | intro _ _

theorem execEmergencyPowerDown_keeps (a1 s) : RKeeps 0x37FFFFF s (execEmergencyPowerDown a1 s) := by
  unfold execEmergencyPowerDown
  try dsimp only
  repeat'
    first
    | with_reducible exact Keeps.refl _ _
    | with_reducible refine Keeps.ite ?_ ?_
    | with_reducible refine RKeeps.next ?_
    | with_reducible refine RKeeps.ite ?_ ?_
    | with_reducible refine (powerGone_keeps ..).step ?_

theorem execRstN_keeps (s) : RKeeps 0x8 s (execRstN s) := by
  unfold execRstN
  try dsimp only
  repeat'
    first
    | with_reducible exact Keeps.refl _ _
    | with_reducible refine Keeps.ite ?_ ?_
    | with_reducible refine RKeeps.next ?_
    | with_reducible refine RKeeps.ite ?_ ?_
    | with_reducible refine (requestReset_keeps ..).step ?_

theorem writeResetRequest_keeps (a1 s) : Keeps 0x8 s (writeResetRequest a1 s).2 := by
  unfold writeResetRequest
  try dsimp only
  repeat'
    first
    | with_reducible exact Keeps.refl _ _
    | with_reducible refine Keeps.ite ?_ ?_
    | with_reducible refine Keeps.ite_snd ?_ ?_
    | with_reducible refine (requestReset_keeps ..).step ?_

theorem execRequestDeviceReset_keeps (a1 a2 s) : RKeeps 0xA s (execRequestDeviceReset a1 a2 s) := by
  unfold execRequestDeviceReset
  try dsimp only
  repeat'
    first
    | with_reducible exact Keeps.refl _ _
    | with_reducible assumption
    | with_reducible refine Keeps.ite ?_ ?_
    | with_reducible refine RKeeps.next ?_
    | with_reducible refine RKeeps.ite ?_ ?_
    | with_reducible refine objCmd_keeps ?_ ?_
    | with_reducible refine (writeResetRequest_keeps ..).step ?_
    | with_reducible refine (Keeps.snd (writeResetRequest_keeps ..) (by assumption)).step ?_
    | split
    | intro _ _ _
    | intro _ _

theorem writeKick_keeps (a1 s) : Keeps 0x8 s (writeKick a1 s).2 := by
  unfold writeKick
  try dsimp only
  repeat'
    first
    | with_reducible exact Keeps.refl _ _
    | with_reducible refine Keeps.ite ?_ ?_
    | with_reducible refine Keeps.ite_snd ?_ ?_
    | with_reducible refine (State.setPwr_keeps _ _).step ?_

theorem execWatchdogKick_keeps (a1 s) : RKeeps 0xA s (execWatchdogKick a1 s) := by
  unfold execWatchdogKick
  try dsimp only
  repeat'
    first
    | with_reducible exact Keeps.refl _ _
    | with_reducible assumption
    | with_reducible refine Keeps.ite ?_ ?_
    | with_reducible refine RKeeps.next ?_
    | with_reducible refine RKeeps.ite ?_ ?_
    | with_reducible refine (writeKick_keeps ..).step ?_
    | with_reducible refine (Keeps.snd (writeKick_keeps ..) (by assumption)).step ?_
    | with_reducible refine commanded_keeps ?_ ?_
    | split
    | intro _ _ _
    | intro _ _

theorem execWatchdogExpiry_keeps (s) : RKeeps 0x99 s (execWatchdogExpiry s) := by
  unfold execWatchdogExpiry
  try dsimp only
  repeat'
    first
    | with_reducible exact Keeps.refl _ _
    | with_reducible refine Keeps.ite ?_ ?_
    | with_reducible refine RKeeps.next ?_
    | with_reducible refine RKeeps.ite ?_ ?_
    | with_reducible refine (carryTo_keeps ..).step ?_
    | with_reducible refine (requestReset_keeps ..).step ?_
    | split

theorem execIssueAllowanceUpdate_keeps (a1 a2 s) : RKeeps 0x400099 s (execIssueAllowanceUpdate a1 a2 s) := by
  unfold execIssueAllowanceUpdate
  try dsimp only
  repeat'
    first
    | with_reducible exact Keeps.refl _ _
    | with_reducible refine Keeps.ite ?_ ?_
    | with_reducible refine RKeeps.next ?_
    | with_reducible refine RKeeps.ite ?_ ?_
    | with_reducible refine (freeStep_keeps ..).step ?_
    | with_reducible refine (State.setPwr_keeps _ _).step ?_
    | with_reducible refine (carryTo_keeps ..).step ?_

end Sys2Proof.Machine
end

