-- ==== Sys2Proof/Laws/KeepsTallies.lean ====
section
/-! SUPPORT. What each operation of Machine/Tallies.lean may write, and that it keeps the invariant. -/

namespace Sys2Proof.Machine

set_option Elab.async false

theorem tallyZero_keeps (a1 s) : Keeps 0x80 s (tallyZero a1 s) := by
  unfold tallyZero
  try dsimp only
  repeat'
    first
    | with_reducible exact Keeps.refl _ _
    | with_reducible refine Keeps.ite ?_ ?_
    | with_reducible refine (State.setTal_keeps _ _ ?_).step ?_
    | exact fun h => Tally.ok_of h rfl rfl

theorem writeTallyReset_keeps (a1 s) : Keeps 0x80 s (writeTallyReset a1 s).2 := by
  unfold writeTallyReset
  try dsimp only
  repeat'
    first
    | with_reducible exact Keeps.refl _ _
    | with_reducible refine Keeps.ite ?_ ?_
    | with_reducible refine Keeps.ite_snd ?_ ?_
    | with_reducible refine (tallyZero_keeps ..).step ?_

theorem execResetTallyGroup_keeps (a1 a2 s) : RKeeps 0x82 s (execResetTallyGroup a1 a2 s) := by
  unfold execResetTallyGroup
  try dsimp only
  repeat'
    first
    | with_reducible exact Keeps.refl _ _
    | with_reducible assumption
    | with_reducible refine Keeps.ite ?_ ?_
    | with_reducible refine RKeeps.next ?_
    | with_reducible refine RKeeps.ite ?_ ?_
    | with_reducible refine objCmd_keeps ?_ ?_
    | with_reducible refine (writeTallyReset_keeps ..).step ?_
    | with_reducible refine (Keeps.snd (writeTallyReset_keeps ..) (by assumption)).step ?_
    | split
    | intro _ _ _
    | intro _ _

theorem writeTenantReset_keeps (a1 a2 s) : Keeps 0x2 s (writeTenantReset a1 a2 s).2 := by
  unfold writeTenantReset
  try dsimp only
  repeat'
    first
    | with_reducible exact Keeps.refl _ _
    | with_reducible assumption
    | with_reducible refine Keeps.ite ?_ ?_
    | with_reducible refine Keeps.ite_snd ?_ ?_
    | with_reducible refine (setObj_keeps ..).step ?_
    | with_reducible refine Keeps.foldl ?_ ?_
    | with_reducible refine Keeps.foldl_fst ?_ ?_
    | with_reducible refine Keeps.foldl_snd ?_ ?_
    | intro _ _ _

theorem execResetTenantTallies_keeps (a1 a2 s) : RKeeps 0x2 s (execResetTenantTallies a1 a2 s) := by
  unfold execResetTenantTallies
  try dsimp only
  repeat'
    first
    | with_reducible exact Keeps.refl _ _
    | with_reducible assumption
    | with_reducible refine Keeps.ite ?_ ?_
    | with_reducible refine RKeeps.next ?_
    | with_reducible refine RKeeps.ite ?_ ?_
    | with_reducible refine (writeTenantReset_keeps ..).step ?_
    | with_reducible refine (Keeps.snd (writeTenantReset_keeps ..) (by assumption)).step ?_
    | with_reducible refine objCmd_keeps ?_ ?_
    | split
    | intro _ _ _
    | intro _ _

theorem freezeTallies_keeps (s) : Keeps 0x80 s (freezeTallies s) := by
  unfold freezeTallies
  try dsimp only
  repeat'
    first
    | with_reducible exact Keeps.refl _ _
    | with_reducible refine Keeps.ite ?_ ?_
    | with_reducible refine (telemetry_keeps ..).step ?_
    | with_reducible refine (freezeNow_keeps ..).step ?_

theorem writeFreeze_keeps (a1 s) : Keeps 0x80 s (writeFreeze a1 s).2 := by
  unfold writeFreeze
  try dsimp only
  repeat'
    first
    | with_reducible exact Keeps.refl _ _
    | with_reducible refine Keeps.ite ?_ ?_
    | with_reducible refine Keeps.ite_snd ?_ ?_
    | with_reducible refine (freezeTallies_keeps ..).step ?_
    | with_reducible refine (State.setTal_keeps _ _ ?_).step ?_
    | exact fun h => Tally.ok_of h rfl rfl

theorem execFreeze_keeps (a1 a2 s) : RKeeps 0x82 s (execFreeze a1 a2 s) := by
  unfold execFreeze
  try dsimp only
  repeat'
    first
    | with_reducible exact Keeps.refl _ _
    | with_reducible assumption
    | with_reducible refine Keeps.ite ?_ ?_
    | with_reducible refine RKeeps.next ?_
    | with_reducible refine RKeeps.ite ?_ ?_
    | with_reducible refine (writeFreeze_keeps ..).step ?_
    | with_reducible refine (Keeps.snd (writeFreeze_keeps ..) (by assumption)).step ?_
    | with_reducible refine objCmd_keeps ?_ ?_
    | split
    | intro _ _ _
    | intro _ _

theorem execFreezeTrigger_keeps (s) : RKeeps 0x80 s (execFreezeTrigger s) := by
  unfold execFreezeTrigger
  try dsimp only
  repeat'
    first
    | with_reducible exact Keeps.refl _ _
    | with_reducible refine Keeps.ite ?_ ?_
    | with_reducible refine RKeeps.next ?_
    | with_reducible refine RKeeps.ite ?_ ?_
    | with_reducible refine (freezeTallies_keeps ..).step ?_

theorem traceSlot_fifo (w : BitVec 256) (t : Trace) : (traceSlot w t).fifo = t.fifo := rfl

theorem traceTake_fifo (s : State) (m : Nat) (w : BitVec 256) (t : Trace) : (traceTake s m w t).fifo = t.fifo := by
  unfold traceTake
  split
  · rfl
  · extract_lets u
    split <;> rfl

/-- A fold that leaves the FIFO alone. -/
theorem fifo_foldl {α : Type} {f : Trace → α → Trace} (hf : ∀ t w, (f t w).fifo = t.fifo) (l : List α) (t : Trace) :
    (l.foldl f t).fifo = t.fifo := by
  induction l generalizing t with
  | nil => rfl
  | cons x l ih => rw [List.foldl_cons, ih, hf]

theorem execTraceRecord_keeps (a1 s) : RKeeps 0x80 s (execTraceRecord a1 s) := by
  unfold execTraceRecord
  extract_lets t two full u
  refine RKeeps.ite (RKeeps.next (.refl ..)) (RKeeps.next ?_)
  refine (setTrace_keeps _ _ _ fun h => ?_).step (State.setTal_keeps _ _ fun h => Tally.ok_of h rfl rfl)
  have e : u.fifo = t.fifo.drop 2 := fifo_foldl (fun t w => by split <;> first | exact traceTake_fifo .. | rfl) _ _
  have k : t.fifo.length ≤ 256 := traceOf_fifo (s := s) (Tally.ok_of h rfl rfl) _
  rw [e, List.length_drop]
  omega

theorem writeArm_keeps (a1 s) : Keeps 0x82 s (writeArm a1 s).2 := by
  unfold writeArm
  split
  · exact .refl ..
  · extract_lets s1 mode t
    have h1 : Keeps 0x82 s s1 := (applyWaiting_keeps ..).mono
    clear_value s1
    dsimp only
    refine (State.setTal_keeps _ _ ?_).step h1
    exact fun _ => ⟨Nat.zero_le _, Nat.zero_le _⟩

theorem execArm_keeps (a1 a2 s) : RKeeps 0x82 s (execArm a1 a2 s) := by
  unfold execArm
  try dsimp only
  repeat'
    first
    | with_reducible exact Keeps.refl _ _
    | with_reducible assumption
    | with_reducible refine Keeps.ite ?_ ?_
    | with_reducible refine RKeeps.next ?_
    | with_reducible refine RKeeps.ite ?_ ?_
    | with_reducible refine (writeArm_keeps ..).step ?_
    | with_reducible refine (Keeps.snd (writeArm_keeps ..) (by assumption)).step ?_
    | with_reducible refine objCmd_keeps ?_ ?_
    | split
    | intro _ _ _
    | intro _ _

theorem writeTriggerNow_keeps (a1 s) : Keeps 0x80 s (writeTriggerNow a1 s).2 := by
  unfold writeTriggerNow
  try dsimp only
  repeat'
    first
    | with_reducible exact Keeps.refl _ _
    | with_reducible refine Keeps.ite ?_ ?_
    | with_reducible refine Keeps.ite_snd ?_ ?_
    | with_reducible refine (traceTriggerSeen_keeps ..).step ?_

theorem execTriggerNow_keeps (a1 a2 s) : RKeeps 0x82 s (execTriggerNow a1 a2 s) := by
  unfold execTriggerNow
  try dsimp only
  repeat'
    first
    | with_reducible exact Keeps.refl _ _
    | with_reducible assumption
    | with_reducible refine Keeps.ite ?_ ?_
    | with_reducible refine RKeeps.next ?_
    | with_reducible refine RKeeps.ite ?_ ?_
    | with_reducible refine (writeTriggerNow_keeps ..).step ?_
    | with_reducible refine (Keeps.snd (writeTriggerNow_keeps ..) (by assumption)).step ?_
    | with_reducible refine objCmd_keeps ?_ ?_
    | split
    | intro _ _ _
    | intro _ _

theorem execTraceTrigger_keeps (a1 s) : RKeeps 0x80 s (execTraceTrigger a1 s) := by
  unfold execTraceTrigger
  extract_lets t gaps u v
  refine RKeeps.ite (RKeeps.next (.refl ..)) (RKeeps.next ?_)
  refine (telemetry_keeps ..).step (setTrace_keeps _ _ _ fun h => ?_)
  have e : v.fifo = t.fifo := fifo_foldl (fun t w => traceSlot_fifo w t) _ _
  rw [e]
  exact traceOf_fifo h _

end Sys2Proof.Machine
end

