-- ==== Sys2Proof/Laws/KeepsDictionary.lean ====
section
/-! SUPPORT. What each operation of Machine/Dictionary.lean may write, and that it keeps the invariant. -/

namespace Sys2Proof.Machine

set_option Elab.async false

theorem refusedAccess_keeps (s) : Keeps 0x2 s (refusedAccess s) := by
  unfold refusedAccess
  try dsimp only
  repeat'
    first
    | with_reducible exact Keeps.refl _ _
    | with_reducible refine Keeps.ite ?_ ?_
    | with_reducible refine (bumpObj_keeps ..).step ?_

theorem accessOn_keeps (a1 s) : Keeps 0x93 s (accessOn a1 s) := by
  unfold accessOn
  try dsimp only
  repeat'
    first
    | with_reducible exact Keeps.refl _ _
    | with_reducible refine Keeps.ite ?_ ?_
    | with_reducible refine (elapse_keeps ..).step ?_
    | with_reducible refine (State.setDict_keeps _ _).step ?_
    | split

theorem noteReads_keeps (s) : Keeps 0x2 s (noteReads s) := by
  unfold noteReads
  try dsimp only
  repeat'
    first
    | with_reducible exact Keeps.refl _ _
    | with_reducible refine Keeps.ite ?_ ?_
    | with_reducible refine (State.setDict_keeps _ _).step ?_
    | split

theorem noteWrote_keeps (a1 a2 a3 s) : Keeps 0x2 s (noteWrote a1 a2 a3 s) := by
  unfold noteWrote
  try dsimp only
  repeat'
    first
    | with_reducible exact Keeps.refl _ _
    | with_reducible refine Keeps.ite ?_ ?_
    | with_reducible refine (State.setDict_keeps _ _).step ?_
    | split

theorem storeNum_keeps (a1 a2 a3 s) : Keeps 0x2 s (storeNum a1 a2 a3 s) := by
  unfold storeNum
  try dsimp only
  repeat'
    first
    | with_reducible exact Keeps.refl _ _
    | with_reducible refine Keeps.ite ?_ ?_
    | with_reducible refine (waitObj_keeps ..).step ?_
    | with_reducible refine (writeObj_keeps ..).step ?_
    | split

theorem storeBytes_keeps (a1 a2 a3 s) : Keeps 0x2 s (storeBytes a1 a2 a3 s) := by
  unfold storeBytes
  try dsimp only
  repeat'
    first
    | with_reducible exact Keeps.refl _ _
    | with_reducible refine Keeps.ite ?_ ?_
    | with_reducible refine (waitDom_keeps ..).step ?_
    | with_reducible refine (writeDom_keeps ..).step ?_
    | split

theorem tenantWrite_keeps (a1 a2 a3 a4 s) : OKeeps 0x1110F82 s (·.2) (tenantWrite a1 a2 a3 a4 s) := by
  unfold tenantWrite
  try dsimp only
  repeat'
    first
    | with_reducible exact Keeps.refl _ _
    | with_reducible assumption
    | with_reducible refine Keeps.ite ?_ ?_
    | with_reducible refine (writeSealing_keeps ..).step ?_
    | with_reducible refine (Keeps.snd (writeSealing_keeps ..) (by assumption)).step ?_
    | with_reducible refine (writeRotate_keeps ..).step ?_
    | with_reducible refine (Keeps.snd (writeRotate_keeps ..) (by assumption)).step ?_
    | with_reducible refine (writeSampleReset_keeps ..).step ?_
    | with_reducible refine (Keeps.snd (writeSampleReset_keeps ..) (by assumption)).step ?_
    | with_reducible refine mirrorGate_keeps ?_ ?_
    | with_reducible refine (writeTenantReset_keeps ..).step ?_
    | with_reducible refine (Keeps.snd (writeTenantReset_keeps ..) (by assumption)).step ?_
    | with_reducible refine (writeRetire_keeps ..).step ?_
    | with_reducible refine (Keeps.snd (writeRetire_keeps ..) (by assumption)).step ?_
    | apply OKeeps.bind
    | with_reducible refine Keeps.getD ?_ ?_
    | with_reducible refine Keeps.getD_snd ?_ ?_
    | apply OKeeps.obind
    | refine OKeeps.map_snd ?_ fun _ => rfl
    | apply OKeeps.map
    | with_reducible refine OKeeps.pure ?_
    | with_reducible exact OKeeps.none
    | with_reducible refine OKeeps.some ?_
    | with_reducible refine OKeeps.ite ?_ ?_
    | with_reducible refine Keeps.snd ?_ (by assumption)
    | with_reducible refine Keeps.fst ?_ (by assumption)
    | with_reducible refine Keeps.snd2 ?_ (by assumption)
    | with_reducible refine Keeps.snd3 ?_ (by assumption)
    | with_reducible refine OKeeps.get ?_ (by assumption)
    | with_reducible refine OKeeps.get1 ?_ (by assumption)
    | with_reducible refine OKeeps.get2 ?_ (by assumption)
    | split
    | intro _ _ _
    | intro _ _

theorem commandLow_keeps (a1 a2 a3 s) : OKeeps 0x37FFFFF s (·.2) (commandLow a1 a2 a3 s) := by
  unfold commandLow
  try dsimp only
  repeat'
    first
    | with_reducible exact Keeps.refl _ _
    | with_reducible assumption
    | with_reducible refine Keeps.ite ?_ ?_
    | with_reducible refine (writeRevoke_keeps ..).step ?_
    | with_reducible refine (Keeps.snd (writeRevoke_keeps ..) (by assumption)).step ?_
    | with_reducible refine (commitGates_keeps ..).step ?_
    | with_reducible refine (Keeps.snd (commitGates_keeps ..) (by assumption)).step ?_
    | with_reducible refine (commitTable_keeps ..).step ?_
    | with_reducible refine (Keeps.snd (commitTable_keeps ..) (by assumption)).step ?_
    | with_reducible refine (writeClock_keeps ..).step ?_
    | with_reducible refine (Keeps.snd (writeClock_keeps ..) (by assumption)).step ?_
    | with_reducible refine (writeObj_keeps ..).step ?_
    | with_reducible refine (writeReaders_keeps ..).step ?_
    | with_reducible refine (Keeps.snd (writeReaders_keeps ..) (by assumption)).step ?_
    | with_reducible refine (writePowerDown_keeps ..).step ?_
    | with_reducible refine (Keeps.snd (writePowerDown_keeps ..) (by assumption)).step ?_
    | refine (unbindPasid_keeps ..).step ?_
    | refine (Keeps.snd (unbindPasid_keeps ..) (by assumption)).step ?_
    | with_reducible refine (declareFailed_keeps ..).step ?_
    | with_reducible refine (Keeps.snd (declareFailed_keeps ..) (by assumption)).step ?_
    | with_reducible refine (writeResetRequest_keeps ..).step ?_
    | with_reducible refine (Keeps.snd (writeResetRequest_keeps ..) (by assumption)).step ?_
    | with_reducible refine (writePortPasid_keeps ..).step ?_
    | with_reducible refine (Keeps.snd (writePortPasid_keeps ..) (by assumption)).step ?_
    | with_reducible refine (tenantCommand_keeps ..).step ?_
    | with_reducible refine (Keeps.snd (tenantCommand_keeps ..) (by assumption)).step ?_
    | with_reducible refine (State.setPwr_keeps _ _).step ?_
    | with_reducible refine (writeKick_keeps ..).step ?_
    | with_reducible refine (Keeps.snd (writeKick_keeps ..) (by assumption)).step ?_
    | with_reducible refine mirrorGate_keeps ?_ ?_
    | apply OKeeps.bind
    | with_reducible refine Keeps.getD ?_ ?_
    | with_reducible refine Keeps.getD_snd ?_ ?_
    | apply OKeeps.obind
    | refine OKeeps.map_snd ?_ fun _ => rfl
    | apply OKeeps.map
    | with_reducible refine OKeeps.pure ?_
    | with_reducible exact OKeeps.none
    | with_reducible refine OKeeps.some ?_
    | with_reducible refine OKeeps.ite ?_ ?_
    | split
    | intro _ _ _
    | intro _ _

theorem commandHigh_keeps (a1 a2 a3 s) : OKeeps 0x1367F86 s (·.2) (commandHigh a1 a2 a3 s) := by
  unfold commandHigh
  try dsimp only
  repeat'
    first
    | with_reducible exact Keeps.refl _ _
    | with_reducible refine Keeps.ite ?_ ?_
    | with_reducible refine (retireBank_keeps ..).step ?_
    | with_reducible refine (Keeps.snd (retireBank_keeps ..) (by assumption)).step ?_
    | with_reducible refine (writeTallyReset_keeps ..).step ?_
    | with_reducible refine (Keeps.snd (writeTallyReset_keeps ..) (by assumption)).step ?_
    | with_reducible refine (writeSampleReset_keeps ..).step ?_
    | with_reducible refine (Keeps.snd (writeSampleReset_keeps ..) (by assumption)).step ?_
    | with_reducible refine (writeArm_keeps ..).step ?_
    | with_reducible refine (Keeps.snd (writeArm_keeps ..) (by assumption)).step ?_
    | with_reducible refine (writeReturn_keeps ..).step ?_
    | with_reducible refine (Keeps.snd (writeReturn_keeps ..) (by assumption)).step ?_
    | with_reducible refine (writeLogIndex_keeps ..).step ?_
    | with_reducible refine (Keeps.snd (writeLogIndex_keeps ..) (by assumption)).step ?_
    | with_reducible refine (writeObj_keeps ..).step ?_
    | with_reducible refine (writeRetrain_keeps ..).step ?_
    | with_reducible refine (Keeps.snd (writeRetrain_keeps ..) (by assumption)).step ?_
    | with_reducible refine (retireGranule_keeps ..).step ?_
    | with_reducible refine (Keeps.snd (retireGranule_keeps ..) (by assumption)).step ?_
    | with_reducible refine (writeFence_keeps ..).step ?_
    | with_reducible refine (Keeps.snd (writeFence_keeps ..) (by assumption)).step ?_
    | with_reducible refine (State.setMem_keeps _ _ rfl ?_).step ?_
    | with_reducible refine (writeTriggerNow_keeps ..).step ?_
    | with_reducible refine (Keeps.snd (writeTriggerNow_keeps ..) (by assumption)).step ?_
    | with_reducible refine (placeMacRegion_keeps ..).step ?_
    | with_reducible refine (Keeps.snd (placeMacRegion_keeps ..) (by assumption)).step ?_
    | with_reducible refine (ratesSettle_keeps ..).step ?_
    | with_reducible refine (writeFreeze_keeps ..).step ?_
    | with_reducible refine (Keeps.snd (writeFreeze_keeps ..) (by assumption)).step ?_
    | with_reducible refine (writeSealExtent_keeps ..).step ?_
    | with_reducible refine (Keeps.snd (writeSealExtent_keeps ..) (by assumption)).step ?_
    | apply OKeeps.bind
    | with_reducible refine Keeps.getD ?_ ?_
    | with_reducible refine Keeps.getD_snd ?_ ?_
    | apply OKeeps.obind
    | refine OKeeps.map_snd ?_ fun _ => rfl
    | apply OKeeps.map
    | with_reducible refine OKeeps.pure ?_
    | with_reducible exact OKeeps.none
    | with_reducible refine OKeeps.some ?_
    | with_reducible refine OKeeps.ite ?_ ?_
    | exact fun h => Mem.ok_of h rfl rfl rfl
    | exact fun h => ⟨h.1, h.2, h.3, tput_rising _ _ h.4 _, h.5⟩
    | exact fun h => ⟨h.1, h.2, h.3, h.4, tput_rising _ _ h.5 _⟩
    | split

theorem commandNum_keeps (a1 a2 a3 s) : OKeeps 0x37FFFFF s (·.2) (commandNum a1 a2 a3 s) := by
  unfold commandNum
  try dsimp only
  repeat'
    first
    | with_reducible exact Keeps.refl _ _
    | with_reducible assumption
    | with_reducible refine Keeps.ite ?_ ?_
    | with_reducible refine (commandLow_keeps ..).step ?_
    | with_reducible refine (OKeeps.get1 (commandLow_keeps ..) (by assumption)).step ?_
    | with_reducible refine (commandHigh_keeps ..).step ?_
    | with_reducible refine (OKeeps.get1 (commandHigh_keeps ..) (by assumption)).step ?_
    | with_reducible refine (tenantWrite_keeps ..).step ?_
    | with_reducible refine (OKeeps.get1 (tenantWrite_keeps ..) (by assumption)).step ?_
    | apply OKeeps.bind
    | with_reducible refine Keeps.getD ?_ ?_
    | with_reducible refine Keeps.getD_snd ?_ ?_
    | apply OKeeps.obind
    | refine OKeeps.map_snd ?_ fun _ => rfl
    | apply OKeeps.map
    | with_reducible refine OKeeps.pure ?_
    | with_reducible exact OKeeps.none
    | with_reducible refine OKeeps.some ?_
    | with_reducible refine OKeeps.ite ?_ ?_
    | with_reducible refine OKeeps.get ?_ (by assumption)
    | with_reducible refine OKeeps.get1 ?_ (by assumption)
    | with_reducible refine OKeeps.get2 ?_ (by assumption)
    | split

theorem applyNum_keeps (a1 a2 a3 s) : Keeps 0x37FFFFF s (applyNum a1 a2 a3 s).2 := by
  unfold applyNum
  try dsimp only
  repeat'
    first
    | with_reducible exact Keeps.refl _ _
    | with_reducible assumption
    | with_reducible refine Keeps.ite ?_ ?_
    | with_reducible refine Keeps.ite_snd ?_ ?_
    | with_reducible refine (commandNum_keeps ..).step ?_
    | with_reducible refine (OKeeps.get1 (commandNum_keeps ..) (by assumption)).step ?_
    | with_reducible refine (storeNum_keeps ..).step ?_
    | apply OKeeps.bind
    | with_reducible refine Keeps.getD ?_ ?_
    | with_reducible refine Keeps.getD_snd ?_ ?_
    | apply OKeeps.obind
    | refine OKeeps.map_snd ?_ fun _ => rfl
    | apply OKeeps.map
    | with_reducible refine OKeeps.pure ?_
    | with_reducible exact OKeeps.none
    | with_reducible refine OKeeps.some ?_
    | with_reducible refine OKeeps.ite ?_ ?_
    | with_reducible refine OKeeps.get ?_ (by assumption)
    | with_reducible refine OKeeps.get1 ?_ (by assumption)
    | with_reducible refine OKeeps.get2 ?_ (by assumption)
    | intro _ _ _
    | intro _ _
    | split

theorem applyBytes_keeps (a1 a2 a3 s) : Keeps 0x540C02 s (applyBytes a1 a2 a3 s).2 := by
  unfold applyBytes
  try dsimp only
  repeat'
    first
    | with_reducible exact Keeps.refl _ _
    | with_reducible assumption
    | with_reducible refine Keeps.ite ?_ ?_
    | with_reducible refine Keeps.ite_snd ?_ ?_
    | with_reducible refine (writeGrant_keeps ..).step ?_
    | with_reducible refine (Keeps.snd (writeGrant_keeps ..) (by assumption)).step ?_
    | refine (bindPasid_keeps ..).step ?_
    | refine (Keeps.snd (bindPasid_keeps ..) (by assumption)).step ?_
    | with_reducible refine (trayWrite_keeps ..).step ?_
    | with_reducible refine (Keeps.snd (trayWrite_keeps ..) (by assumption)).step ?_
    | with_reducible refine (waitDom_keeps ..).step ?_
    | with_reducible refine (writeTable_keeps ..).step ?_
    | with_reducible refine (Keeps.snd (writeTable_keeps ..) (by assumption)).step ?_
    | with_reducible refine (writeRoce_keeps ..).step ?_
    | with_reducible refine (Keeps.snd (writeRoce_keeps ..) (by assumption)).step ?_
    | with_reducible refine (storeBytes_keeps ..).step ?_
    | with_reducible refine (writeMap_keeps ..).step ?_
    | with_reducible refine (Keeps.snd (writeMap_keeps ..) (by assumption)).step ?_
    | with_reducible refine mirrorGate_keeps ?_ ?_
    | intro _ _ _
    | intro _ _

theorem objApply_keeps (a1 a2 a3 s) : Keeps 0x37FFFFF s (objApply a1 a2 a3 s).2 := by
  unfold objApply
  try dsimp only
  repeat'
    first
    | with_reducible exact Keeps.refl _ _
    | with_reducible refine Keeps.ite ?_ ?_
    | with_reducible refine Keeps.ite_snd ?_ ?_
    | with_reducible refine (applyBytes_keeps ..).step ?_
    | with_reducible refine (Keeps.snd (applyBytes_keeps ..) (by assumption)).step ?_
    | with_reducible refine (applyNum_keeps ..).step ?_
    | with_reducible refine (Keeps.snd (applyNum_keeps ..) (by assumption)).step ?_
    | with_reducible refine Keeps.snd ?_ (by assumption)
    | with_reducible refine Keeps.fst ?_ (by assumption)
    | with_reducible refine Keeps.snd2 ?_ (by assumption)
    | with_reducible refine Keeps.snd3 ?_ (by assumption)
    | split

theorem dropStaged_keeps (a1 a2 s) : Keeps 0x2 s (dropStaged a1 a2 s) := by
  unfold dropStaged
  try dsimp only
  repeat'
    first
    | with_reducible exact Keeps.refl _ _
    | with_reducible refine Keeps.ite ?_ ?_
    | with_reducible refine (State.setDict_keeps _ _).step ?_

theorem stagedLost_keeps (a1 a2 s) : Keeps 0x2 s (stagedLost a1 a2 s) := by
  unfold stagedLost
  try dsimp only
  repeat'
    first
    | with_reducible exact Keeps.refl _ _
    | with_reducible refine Keeps.ite ?_ ?_
    | with_reducible refine (dropStaged_keeps ..).step ?_
    | with_reducible refine (bumpObj_keeps ..).step ?_

theorem stagedPart_keeps (a1 a2 s) : Keeps 0x37FFFFF s (stagedPart a1 a2 s).2 := by
  unfold stagedPart
  try dsimp only
  repeat'
    first
    | with_reducible exact Keeps.refl _ _
    | with_reducible refine Keeps.ite ?_ ?_
    | with_reducible refine Keeps.ite_snd ?_ ?_
    | with_reducible refine (objApply_keeps ..).step ?_
    | with_reducible refine (Keeps.snd (objApply_keeps ..) (by assumption)).step ?_
    | with_reducible refine (dropStaged_keeps ..).step ?_
    | with_reducible refine (bumpObj_keeps ..).step ?_
    | with_reducible refine (State.setDict_keeps _ _).step ?_

theorem objWriteRaw_keeps (a1 a2 a3 a4 a5 a6 a7 s) : Keeps 0x37FFFFF s (objWriteRaw a1 a2 a3 a4 a5 a6 a7 s).2 := by
  unfold objWriteRaw
  try dsimp only
  repeat'
    first
    | with_reducible exact Keeps.refl _ _
    | with_reducible refine Keeps.ite ?_ ?_
    | with_reducible refine Keeps.ite_snd ?_ ?_
    | with_reducible refine (stagedLost_keeps ..).step ?_
    | with_reducible refine (objApply_keeps ..).step ?_
    | with_reducible refine (Keeps.snd (objApply_keeps ..) (by assumption)).step ?_
    | with_reducible refine (stagedPart_keeps ..).step ?_
    | with_reducible refine (Keeps.snd (stagedPart_keeps ..) (by assumption)).step ?_
    | with_reducible refine Keeps.snd ?_ (by assumption)
    | with_reducible refine Keeps.fst ?_ (by assumption)
    | with_reducible refine Keeps.snd2 ?_ (by assumption)
    | with_reducible refine Keeps.snd3 ?_ (by assumption)
    | split

theorem objWrite_keeps (a1 a2 a3 a4 a5 a6 a7 s) : Keeps 0x37FFFFF s (objWrite a1 a2 a3 a4 a5 a6 a7 s).2 := by
  unfold objWrite
  try dsimp only
  repeat'
    first
    | with_reducible exact Keeps.refl _ _
    | with_reducible assumption
    | with_reducible refine Keeps.ite ?_ ?_
    | with_reducible refine Keeps.ite_snd ?_ ?_
    | with_reducible refine written_keeps ?_
    | with_reducible refine (noteWrote_keeps ..).step ?_
    | with_reducible refine (noteReads_keeps ..).step ?_
    | with_reducible refine (objWriteRaw_keeps ..).step ?_
    | with_reducible refine (Keeps.snd (objWriteRaw_keeps ..) (by assumption)).step ?_
    | intro _ _ _
    | intro _ _
    | split

theorem objReadNoted_keeps (a1 a2 a3 a4 a5 s) : Keeps 0x2 s (objReadNoted a1 a2 a3 a4 a5 s).2 := by
  unfold objReadNoted
  try dsimp only
  repeat'
    first
    | with_reducible exact Keeps.refl _ _
    | with_reducible refine Keeps.ite ?_ ?_
    | with_reducible refine Keeps.ite_snd ?_ ?_
    | with_reducible refine (refusedAccess_keeps ..).step ?_

theorem execObjectRead_keeps (a1 a2 a3 a4 a5 a6 s) : RKeeps 0x200093 s (execObjectRead a1 a2 a3 a4 a5 a6 s) := by
  unfold execObjectRead
  try dsimp only
  repeat'
    first
    | with_reducible exact Keeps.refl _ _
    | with_reducible refine Keeps.ite ?_ ?_
    | with_reducible refine RKeeps.next ?_
    | with_reducible refine RKeeps.ite ?_ ?_
    | with_reducible refine (accessOn_keeps ..).step ?_
    | with_reducible refine (refusedAccess_keeps ..).step ?_
    | with_reducible refine (emit_keeps ..).step ?_
    | with_reducible refine (objReadNoted_keeps ..).step ?_
    | with_reducible refine (Keeps.snd (objReadNoted_keeps ..) (by assumption)).step ?_
    | with_reducible refine Keeps.snd ?_ (by assumption)
    | with_reducible refine Keeps.fst ?_ (by assumption)
    | with_reducible refine Keeps.snd2 ?_ (by assumption)
    | with_reducible refine Keeps.snd3 ?_ (by assumption)
    | split

theorem execObjectWrite_keeps (a1 a2 a3 a4 a5 a6 a7 s) : RKeeps 0x37FFFFF s (execObjectWrite a1 a2 a3 a4 a5 a6 a7 s) := by
  unfold execObjectWrite
  try dsimp only
  repeat'
    first
    | with_reducible exact Keeps.refl _ _
    | with_reducible refine Keeps.ite ?_ ?_
    | with_reducible refine RKeeps.next ?_
    | with_reducible refine RKeeps.ite ?_ ?_
    | with_reducible refine (accessOn_keeps ..).step ?_
    | with_reducible refine (refusedAccess_keeps ..).step ?_
    | with_reducible refine (emit_keeps ..).step ?_
    | with_reducible refine (objWrite_keeps ..).step ?_
    | with_reducible refine (Keeps.snd (objWrite_keeps ..) (by assumption)).step ?_
    | with_reducible refine Keeps.snd ?_ (by assumption)
    | with_reducible refine Keeps.fst ?_ (by assumption)
    | with_reducible refine Keeps.snd2 ?_ (by assumption)
    | with_reducible refine Keeps.snd3 ?_ (by assumption)
    | split

theorem execStagedWriteAbort_keeps (a1 a2 s) : RKeeps 0x200002 s (execStagedWriteAbort a1 a2 s) := by
  unfold execStagedWriteAbort
  try dsimp only
  repeat'
    first
    | with_reducible exact Keeps.refl _ _
    | with_reducible refine Keeps.ite ?_ ?_
    | with_reducible refine RKeeps.next ?_
    | with_reducible refine RKeeps.ite ?_ ?_
    | with_reducible refine (stagedLost_keeps ..).step ?_
    | with_reducible refine (emit_keeps ..).step ?_

theorem execStagedWriteTimeout_keeps (a1 a2 s) : RKeeps 0x200097 s (execStagedWriteTimeout a1 a2 s) := by
  unfold execStagedWriteTimeout
  try dsimp only
  repeat'
    first
    | with_reducible exact Keeps.refl _ _
    | with_reducible refine Keeps.ite ?_ ?_
    | with_reducible refine RKeeps.next ?_
    | with_reducible refine RKeeps.ite ?_ ?_
    | with_reducible refine (emit_keeps ..).step ?_
    | with_reducible refine (bumpObj_keeps ..).step ?_
    | with_reducible refine (stagedLost_keeps ..).step ?_
    | with_reducible refine (State.setCan_keeps _ _ ?_).step ?_
    | with_reducible refine (carryTo_keeps ..).step ?_
    | exact fun h => Can.ok_of h rfl
    | split

theorem serveRequest_keeps (a1 a2 a3 s) : Keeps 0x37FFFFF s (serveRequest a1 a2 a3 s).2 := by
  unfold serveRequest
  try dsimp only
  repeat'
    first
    | with_reducible exact Keeps.refl _ _
    | with_reducible refine Keeps.ite ?_ ?_
    | with_reducible refine Keeps.ite_snd ?_ ?_
    | with_reducible refine (stagedLost_keeps ..).step ?_
    | with_reducible refine (refusedAccess_keeps ..).step ?_
    | with_reducible refine (objReadNoted_keeps ..).step ?_
    | with_reducible refine (Keeps.snd (objReadNoted_keeps ..) (by assumption)).step ?_
    | with_reducible refine (objWrite_keeps ..).step ?_

theorem keystoneAnswers_keeps (s) : Keeps 0x2200C0 s (keystoneAnswers s) := by
  unfold keystoneAnswers
  try dsimp only
  repeat'
    first
    | with_reducible exact Keeps.refl _ _
    | with_reducible refine Keeps.ite ?_ ?_
    | with_reducible refine (sendTlans_keeps ..).step ?_
    | split

theorem execDictionaryService_keeps (s) : RKeeps 0x37FFFFF s (execDictionaryService s) := by
  unfold execDictionaryService
  try dsimp only
  repeat'
    first
    | with_reducible exact Keeps.refl _ _
    | with_reducible refine Keeps.ite ?_ ?_
    | with_reducible refine RKeeps.next ?_
    | with_reducible refine RKeeps.ite ?_ ?_
    | with_reducible refine (accessOn_keeps ..).step ?_
    | with_reducible refine (tlReply_keeps ..).step ?_
    | with_reducible refine (keystoneAnswers_keeps ..).step ?_
    | with_reducible refine (tlAck_keeps ..).step ?_
    | with_reducible refine (serveRequest_keeps ..).step ?_
    | with_reducible refine (Keeps.snd (serveRequest_keeps ..) (by assumption)).step ?_
    | with_reducible refine (tlClear_keeps ..).step ?_
    | with_reducible refine Keeps.snd ?_ (by assumption)
    | with_reducible refine Keeps.fst ?_ (by assumption)
    | with_reducible refine Keeps.snd2 ?_ (by assumption)
    | with_reducible refine Keeps.snd3 ?_ (by assumption)
    | split

theorem nmtTo_keeps (a1 s) : Keeps 0x4 s (nmtTo a1 s) := by
  unfold nmtTo
  try dsimp only
  repeat'
    first
    | with_reducible exact Keeps.refl _ _
    | with_reducible refine Keeps.ite ?_ ?_
    | with_reducible refine (State.setCan_keeps _ _ ?_).step ?_
    | exact fun h => Can.ok_of h rfl

theorem execNmtStart_keeps (s) : RKeeps 0x4 s (execNmtStart s) := by
  unfold execNmtStart
  try dsimp only
  repeat'
    first
    | with_reducible exact Keeps.refl _ _
    | with_reducible refine Keeps.ite ?_ ?_
    | with_reducible refine RKeeps.next ?_
    | with_reducible refine RKeeps.ite ?_ ?_
    | with_reducible refine (nmtTo_keeps ..).step ?_

theorem execNmtStop_keeps (s) : RKeeps 0x4 s (execNmtStop s) := by
  unfold execNmtStop
  try dsimp only
  repeat'
    first
    | with_reducible exact Keeps.refl _ _
    | with_reducible refine Keeps.ite ?_ ?_
    | with_reducible refine RKeeps.next ?_
    | with_reducible refine RKeeps.ite ?_ ?_
    | with_reducible refine (nmtTo_keeps ..).step ?_

theorem execNmtEnterPreOperational_keeps (s) : RKeeps 0x4 s (execNmtEnterPreOperational s) := by
  unfold execNmtEnterPreOperational
  try dsimp only
  repeat'
    first
    | with_reducible exact Keeps.refl _ _
    | with_reducible refine Keeps.ite ?_ ?_
    | with_reducible refine RKeeps.next ?_
    | with_reducible refine RKeeps.ite ?_ ?_
    | with_reducible refine (nmtTo_keeps ..).step ?_

theorem usdoAbort_keeps (s) : Keeps 0x6 s (usdoAbort s) := by
  unfold usdoAbort
  try dsimp only
  repeat'
    first
    | with_reducible exact Keeps.refl _ _
    | with_reducible refine Keeps.ite ?_ ?_
    | with_reducible refine (stagedLost_keeps ..).step ?_
    | with_reducible refine (bumpObj_keeps ..).step ?_
    | with_reducible refine (State.setCan_keeps _ _ ?_).step ?_
    | exact fun h => Can.ok_of h rfl

theorem canRestart_keeps (s) : Keeps 0x6 s (canRestart s) := by
  unfold canRestart
  try dsimp only
  repeat'
    first
    | with_reducible exact Keeps.refl _ _
    | with_reducible refine Keeps.ite ?_ ?_
    | with_reducible refine (State.setCan_keeps _ _ ?_).step ?_
    | with_reducible refine (usdoAbort_keeps ..).step ?_
    | with_reducible refine (applyWaiting_keeps ..).step ?_
    | exact fun h => Can.ok_of h rfl

theorem execNmtResetCommunication_keeps (s) : RKeeps 0x6 s (execNmtResetCommunication s) := by
  unfold execNmtResetCommunication
  try dsimp only
  repeat'
    first
    | with_reducible exact Keeps.refl _ _
    | with_reducible refine Keeps.ite ?_ ?_
    | with_reducible refine RKeeps.next ?_
    | with_reducible refine RKeeps.ite ?_ ?_
    | with_reducible refine (canRestart_keeps ..).step ?_

theorem execNmtResetNode_keeps (s) : RKeeps 0x6 s (execNmtResetNode s) := by
  unfold execNmtResetNode
  try dsimp only
  repeat'
    first
    | with_reducible exact Keeps.refl _ _
    | with_reducible refine Keeps.ite ?_ ?_
    | with_reducible refine RKeeps.next ?_
    | with_reducible refine RKeeps.ite ?_ ?_
    | with_reducible refine (canRestart_keeps ..).step ?_

theorem usdoUpload_keeps (a1 a2 a3 s) : Keeps 0x200006 s (usdoUpload a1 a2 a3 s) := by
  unfold usdoUpload
  try dsimp only
  repeat'
    first
    | with_reducible exact Keeps.refl _ _
    | with_reducible refine Keeps.ite ?_ ?_
    | with_reducible refine (emit_keeps ..).step ?_
    | with_reducible refine (objReadNoted_keeps ..).step ?_
    | with_reducible refine (Keeps.snd (objReadNoted_keeps ..) (by assumption)).step ?_
    | with_reducible refine (bumpObj_keeps ..).step ?_
    | with_reducible refine (State.setCan_keeps _ _ ?_).step ?_
    | with_reducible refine Keeps.snd ?_ (by assumption)
    | with_reducible refine Keeps.fst ?_ (by assumption)
    | with_reducible refine Keeps.snd2 ?_ (by assumption)
    | with_reducible refine Keeps.snd3 ?_ (by assumption)
    | exact fun h => Can.ok_of h rfl

theorem usdoDownload_keeps (a1 a2 a3 a4 a5 a6 s) : Keeps 0x37FFFFF s (usdoDownload a1 a2 a3 a4 a5 a6 s) := by
  unfold usdoDownload
  try dsimp only
  repeat'
    first
    | with_reducible exact Keeps.refl _ _
    | with_reducible refine Keeps.ite ?_ ?_
    | with_reducible refine (emit_keeps ..).step ?_
    | with_reducible refine (bumpObj_keeps ..).step ?_
    | with_reducible refine (objWrite_keeps ..).step ?_
    | with_reducible refine (Keeps.snd (objWrite_keeps ..) (by assumption)).step ?_
    | with_reducible refine (stagedLost_keeps ..).step ?_
    | with_reducible refine (State.setCan_keeps _ _ ?_).step ?_
    | with_reducible refine Keeps.snd ?_ (by assumption)
    | with_reducible refine Keeps.fst ?_ (by assumption)
    | with_reducible refine Keeps.snd2 ?_ (by assumption)
    | with_reducible refine Keeps.snd3 ?_ (by assumption)
    | exact fun h => Can.ok_of h rfl

theorem execUsdoTransfer_keeps (a1 a2 a3 a4 a5 a6 s) : RKeeps 0x37FFFFF s (execUsdoTransfer a1 a2 a3 a4 a5 a6 s) := by
  unfold execUsdoTransfer
  try dsimp only
  repeat'
    first
    | with_reducible exact Keeps.refl _ _
    | with_reducible refine Keeps.ite ?_ ?_
    | with_reducible refine RKeeps.next ?_
    | with_reducible refine RKeeps.ite ?_ ?_
    | with_reducible refine (accessOn_keeps ..).step ?_
    | with_reducible refine (usdoUpload_keeps ..).step ?_
    | with_reducible refine (usdoDownload_keeps ..).step ?_
    | with_reducible refine (usdoAbort_keeps ..).step ?_
    | split

theorem execHeartbeatPeriod_keeps (s) : RKeeps 0x200095 s (execHeartbeatPeriod s) := by
  unfold execHeartbeatPeriod
  try dsimp only
  repeat'
    first
    | with_reducible exact Keeps.refl _ _
    | with_reducible refine Keeps.ite ?_ ?_
    | with_reducible refine RKeeps.next ?_
    | with_reducible refine RKeeps.ite ?_ ?_
    | with_reducible refine (emit_keeps ..).step ?_
    | with_reducible refine (State.setCan_keeps _ _ ?_).step ?_
    | with_reducible refine (carryTo_keeps ..).step ?_
    | exact fun h => Can.ok_of h rfl

theorem execEmcyInhibitExpiry_keeps (s) : RKeeps 0x200095 s (execEmcyInhibitExpiry s) := by
  unfold execEmcyInhibitExpiry
  split
  · next e rest _ he =>
    extract_lets s1
    have h1 : Keeps 0x200095 s s1 := by
      unfold s1
      split
      · exact (carryTo_keeps ..).mono
      · exact .refl ..
    have hc : s1.can = s.can := by
      unfold s1
      split <;> rfl
    clear_value s1
    refine RKeeps.next ((emcySend_keeps ..).step ((State.setCan_keeps _ _ fun h => ?_).step h1))
    have k : s.can.emcy.length ≤ 16 := by rw [← hc]; exact h
    rw [he] at k
    exact le_trans (Nat.le_succ _) k
  · exact RKeeps.next (.refl ..)

theorem execEntdaa_keeps (a1 s) : RKeeps 0x4 s (execEntdaa a1 s) := by
  unfold execEntdaa
  try dsimp only
  repeat'
    first
    | with_reducible exact Keeps.refl _ _
    | with_reducible refine Keeps.ite ?_ ?_
    | with_reducible refine RKeeps.next ?_
    | with_reducible refine RKeeps.ite ?_ ?_
    | with_reducible refine (State.setCan_keeps _ _ ?_).step ?_
    | exact fun h => Can.ok_of h rfl

theorem mctpControl_keeps (a1 a2 a3 s) : Keeps 0x200000 s (mctpControl a1 a2 a3 s) := by
  unfold mctpControl
  try dsimp only
  repeat'
    first
    | with_reducible exact Keeps.refl _ _
    | with_reducible refine Keeps.ite ?_ ?_
    | with_reducible refine (emit_keeps ..).step ?_

theorem execSetEndpointId_keeps (a1 s) : RKeeps 0x200004 s (execSetEndpointId a1 s) := by
  unfold execSetEndpointId
  try dsimp only
  repeat'
    first
    | with_reducible exact Keeps.refl _ _
    | with_reducible refine Keeps.ite ?_ ?_
    | with_reducible refine RKeeps.next ?_
    | with_reducible refine RKeeps.ite ?_ ?_
    | with_reducible refine (mctpControl_keeps ..).step ?_
    | with_reducible refine (State.setCan_keeps _ _ ?_).step ?_
    | exact fun h => Can.ok_of h rfl

theorem execGetEndpointId_keeps (s) : RKeeps 0x200000 s (execGetEndpointId s) := by
  unfold execGetEndpointId
  try dsimp only
  repeat'
    first
    | with_reducible exact Keeps.refl _ _
    | with_reducible refine Keeps.ite ?_ ?_
    | with_reducible refine RKeeps.next ?_
    | with_reducible refine RKeeps.ite ?_ ?_
    | with_reducible refine (mctpControl_keeps ..).step ?_

theorem execGetMctpVersionSupport_keeps (a1 s) : RKeeps 0x600000 s (execGetMctpVersionSupport a1 s) := by
  unfold execGetMctpVersionSupport
  try dsimp only
  repeat'
    first
    | with_reducible exact Keeps.refl _ _
    | with_reducible refine Keeps.ite ?_ ?_
    | with_reducible refine RKeeps.next ?_
    | with_reducible refine RKeeps.ite ?_ ?_
    | with_reducible refine (freeStep_keeps ..).step ?_
    | with_reducible refine (mctpControl_keeps ..).step ?_

theorem execGetMessageTypeSupport_keeps (s) : RKeeps 0x200000 s (execGetMessageTypeSupport s) := by
  unfold execGetMessageTypeSupport
  try dsimp only
  repeat'
    first
    | with_reducible exact Keeps.refl _ _
    | with_reducible refine Keeps.ite ?_ ?_
    | with_reducible refine RKeeps.next ?_
    | with_reducible refine RKeeps.ite ?_ ?_
    | with_reducible refine (mctpControl_keeps ..).step ?_

end Sys2Proof.Machine
end

