-- ==== Sys2Proof/Laws/KeepsRegisters.lean ====
section
/-! SUPPORT. What each operation of Machine/Registers.lean may write, and that it keeps the invariant. -/

namespace Sys2Proof.Machine

set_option Elab.async false

theorem ctxWrite_keeps (a1 a2 a3 s) : Keeps 0x800 s (ctxWrite a1 a2 a3 s) := by
  unfold ctxWrite
  try dsimp only
  repeat'
    first
    | with_reducible exact Keeps.refl _ _
    | with_reducible refine Keeps.ite ?_ ?_
    | with_reducible refine (setCtx_keeps ..).step ?_

theorem ctxCmd_keeps (a1 s) : Keeps 0x100820 s (ctxCmd a1 s) := by
  unfold ctxCmd
  try dsimp only
  repeat'
    first
    | with_reducible exact Keeps.refl _ _
    | with_reducible refine Keeps.ite ?_ ?_
    | with_reducible refine (ctxOpenCmd_keeps ..).step ?_
    | with_reducible refine (ctxCloseCmd_keeps ..).step ?_

theorem linkCtl_keeps (a1 a2 s) : Keeps 0x13ABF86 s (linkCtl a1 a2 s) := by
  unfold linkCtl
  try dsimp only
  repeat'
    first
    | with_reducible exact Keeps.refl _ _
    | with_reducible refine Keeps.ite ?_ ?_
    | with_reducible refine (linkRestart_keeps ..).step ?_
    | with_reducible refine (linkDown_keeps ..).step ?_
    | with_reducible refine (linkRekeyNow_keeps ..).step ?_
    | with_reducible refine (linkRetrain_keeps ..).step ?_

theorem hbmWrite_keeps (a1 a2 a3 s) : Keeps 0x220 s (hbmWrite a1 a2 a3 s) := by
  unfold hbmWrite
  try dsimp only
  repeat'
    first
    | with_reducible exact Keeps.refl _ _
    | with_reducible refine Keeps.ite ?_ ?_
    | with_reducible refine (State.setWin_keeps _ _).step ?_
    | with_reducible refine (patWrite_keeps ..).step ?_
    | split

theorem inbWrite_keeps (a1 a2 s) : Keeps 0x200040 s (inbWrite a1 a2 s) := by
  unfold inbWrite
  try dsimp only
  repeat'
    first
    | with_reducible exact Keeps.refl _ _
    | with_reducible refine Keeps.ite ?_ ?_
    | with_reducible refine (State.setTel_keeps _ _ fun h => h).step ?_
    | with_reducible refine (inbAck_keeps ..).step ?_
    | split

theorem noteUnmapped_keeps (a1 s) : Keeps 0x200186 s (noteUnmapped a1 s) := by
  unfold noteUnmapped
  try dsimp only
  repeat'
    first
    | with_reducible exact Keeps.refl _ _
    | with_reducible refine Keeps.ite ?_ ?_
    | with_reducible refine (emit_keeps ..).step ?_
    | with_reducible refine (logEvent_keeps ..).step ?_
    | split

theorem stewardReg_keeps (a1 a2 s) : Keeps 0x17BFFF6 s (stewardReg a1 a2 s) := by
  unfold stewardReg
  try dsimp only
  repeat'
    first
    | with_reducible exact Keeps.refl _ _
    | with_reducible refine Keeps.ite ?_ ?_
    | with_reducible refine (State.setWin_keeps _ _).step ?_
    | with_reducible refine (ctxCmd_keeps ..).step ?_
    | with_reducible refine (stepMark_keeps ..).step ?_
    | with_reducible refine (linkCtl_keeps ..).step ?_

theorem stewardWrite_keeps (a1 a2 s) : Keeps 0x17BFFF6 s (stewardWrite a1 a2 s) := by
  unfold stewardWrite
  try dsimp only
  repeat'
    first
    | with_reducible exact Keeps.refl _ _
    | with_reducible refine Keeps.ite ?_ ?_
    | with_reducible refine (chWrite_keeps ..).step ?_
    | with_reducible refine (ctxWrite_keeps ..).step ?_
    | with_reducible refine (hbmWrite_keeps ..).step ?_
    | with_reducible refine (stewardReg_keeps ..).step ?_
    | with_reducible refine (inbWrite_keeps ..).step ?_
    | with_reducible refine (qwWrite_keeps ..).step ?_
    | split

theorem execRegisterWrite_keeps (a1 a2 a3 s) : RKeeps 0x17BFFF6 s (execRegisterWrite a1 a2 a3 s) := by
  unfold execRegisterWrite
  try dsimp only
  repeat'
    first
    | with_reducible exact Keeps.refl _ _
    | with_reducible refine Keeps.ite ?_ ?_
    | with_reducible refine RKeeps.next ?_
    | with_reducible refine RKeeps.ite ?_ ?_
    | with_reducible refine (linkTally_keeps ..).step ?_
    | with_reducible refine (noteUnmapped_keeps ..).step ?_
    | with_reducible refine (stewardWrite_keeps ..).step ?_
    | with_reducible refine (chWrite_keeps ..).step ?_
    | with_reducible refine (hbmWrite_keeps ..).step ?_
    | with_reducible refine (viewWrite_keeps ..).step ?_
    | split

end Sys2Proof.Machine
end

