-- ==== Sys2Proof/WellFormed.lean ====
section
/-! DEFINITION. Well-formed commands: every field of a message fits the bits that its layout gives it, every list has a length that
its row allows, and what a decoder finds is a number of symbols that its class allows (R468, R469, R293, R596, R619, R637). The
meanings are total: an operand that is not well-formed is one that no sender can form. -/

namespace Sys2Proof

/-- A number of at most `n` bits. -/
def below (v n : Nat) : Bool := decide (v < 2 ^ n)

/-- A message that a header slot can hold (R468). -/
def KafMsg.wf (m : KafMsg) : Bool :=
  below m.op 8 && below m.mask 64 && below m.addr 57 && below m.pasid 20 && below m.tag 16 && below m.fwdTag 16 && below m.fwdAgent 4
    && below m.srcDev 4 && below m.code 8 && below m.delay 16 && decide (m.data.length ≤ 4096)

/-- One or two symbols are corrected; three or more are not (R293). -/
def Finding.wf : Finding → Bool
  | .corrected n => decide (1 ≤ n ∧ n ≤ 2)
  | .uncorrectable n => decide (3 ≤ n)
  | .clean => true
  | .address => true
  | .tag => true
  | .mac => true

/-- A command that a sender can form. -/
def Instr.wf : Instr → Bool
  | .stepMark _ _ _ => true
  | .stepmark _ => true
  | .selfTimedStep => true
  | .stepBeacon _ _ _ => true
  | .beaconTimeout => true
  | .internalStepBoundary => true
  | .coastedBeacon _ _ _ => true
  | .stepOverrun => true
  | .stepClockReconfigure _ sub v => (sub == 1 || sub == 6 || sub == 9) && below v 32
  | .backgroundWindowOpen => true
  | .backgroundWindowClose _ => true
  | .layerPrefetchEvent => true
  | .checkpointCopyDeadline => true
  | .unsupported _ => true
  | .sqtail _ _ => true
  | .cqhead _ _ => true
  | .descriptorRead _ => true
  | .admissionHoldLimit _ _ => true
  | .attend _ => true
  | .append _ => true
  | .fork _ => true
  | .trim _ => true
  | .summarize _ => true
  | .prefetch _ => true
  | .pin _ => true
  | .evict _ => true
  | .compact _ => true
  | .attendDeadline _ => true
  | .workItemStart _ => true
  | .t1GranuleReady _ _ f => f.wf
  | .summaryPassEnd _ => true
  | .certifiedCheck _ => true
  | .partialArrival _ _ => true
  | .outputFormed _ => true
  | .pushAck _ m => m.wf
  | .checkTile _ _ => true
  | .coreWatchdog _ => true
  | .coreSramUncorrectable _ => true
  | .quadrantAttachmentFail _ => true
  | .fenceCore _ _ => true
  | .fenceReadsDrained _ => true
  | .returnCore _ _ => true
  | .coreTestEnd _ _ => true
  | .ctxOpen => true
  | .openEnd => true
  | .ctxClose => true
  | .releaseWalkEnd _ => true
  | .frameDrainEnd _ => true
  | .tierhint _ _ => true
  | .residencyFault _ => true
  | .moveComplete _ f => f.wf
  | .automaticDemotion _ => true
  | .t3BudgetRefill _ => true
  | .tierCacheMiss _ => true
  | .trayRecordActivate _ t3 n rec _ => (t3 || decide (n.val < 32)) && decide (rec.length ≤ 65536)
  | .trayFail _ _ => true
  | .patctl _ _ => true
  | .patternOpDone _ _ _ => true
  | .refreshDue _ _ _ _ => true
  | .stackTemperatureChange _ t => t < 256
  | .targetedRefresh .. => true
  | .throttleIntervalEnd => true
  | .selfRefreshEntry _ => true
  | .selfRefreshExit _ => true
  | .retrainGroup bad => bad.all fun b => decide (b.2 < 256)
  | .retrainController _ _ => true
  | .patrolScrubRead _ f => f.wf
  | .immediateScrub _ f => f.wf
  | .stewardReadIndex _ => true
  | .retireGranule _ => true
  | .retireBank _ => true
  | .macRegionPlace sub v => decide (1 ≤ sub.toNat ∧ sub.toNat ≤ 6) && below v 32
  | .rdShared _ m => m.wf
  | .rdOwn _ m => m.wf
  | .upgrade _ m => m.wf
  | .rdUncached _ m => m.wf
  | .wrUncached _ m => m.wf
  | .evictClean _ m => m.wf
  | .wbDirty _ m => m.wf
  | .snoopResponse _ m => m.wf
  | .rspCopy _ m => m.wf
  | .rspWbPend _ m => m.wf
  | .fwdAck _ m => m.wf
  | .cxlMemRd _ tag _ mv => below tag 16 && mv != 1
  | .cxlMemRdData _ tag _ => below tag 16
  | .cxlMemInv _ tag _ mv => below tag 16 && mv != 1
  | .cxlMemClnEvct _ tag _ => below tag 16
  | .cxlMemWr _ tag _ _ data _ => below tag 16 && data.length == 64
  | .biSnoopResponse _ _ _ => true
  | .lineLockAcquire line => below line 46
  | .snoopTimeout _ line => below line 46
  | .agentFailed _ => true
  | .declareAgentFailed _ => true
  | .escrowRecallWalk _ => true
  | .pendingFault _ => true
  | .faultQueueSlotFree => true
  | .pendingRewalk _ => true
  | .pendingFaultTimeout _ => true
  | .xlinvcmd _ _ => true
  | .invalidationStart => true
  | .invalidationComplete => true
  | .xlinvstatRead _ => true
  | .bindPasid _ => true
  | .unbindPasid _ => true
  | .portPasidWrite _ _ => true
  | .spanRemoteForward _ m => m.wf
  | .tenantCreate _ => true
  | .tenantRemove _ => true
  | .removalStepEnd _ => true
  | .grantExtent _ => true
  | .zeroizeDone _ => true
  | .revokeExtent _ => true
  | .escrowStepEnd _ => true
  | .qpcfgEnable _ _ => true
  | .qpcfgReinit _ _ => true
  | .reinitDone _ => true
  | .interruptCoalesceTimer _ => true
  | .readerSetWrite _ _ => true
  | .keyRotate _ _ => true
  | .rewrapUnit _ _ => true
  | .sweepComplete _ => true
  | .retireOldEpoch _ _ => true
  | .sealKeysWrite _ _ => true
  | .randomSourceHealthFail => true
  | .spdm _ bytes => below bytes.length 17
  | .getVersion _ bytes => below bytes.length 17
  | .getCapabilities _ bytes => below bytes.length 17
  | .negotiateAlgorithms _ bytes => below bytes.length 17
  | .getDigests _ bytes => below bytes.length 17
  | .getCertificate _ bytes => below bytes.length 17
  | .challenge _ bytes => below bytes.length 17
  | .getMeasurements _ bytes => below bytes.length 17
  | .keyExchange _ bytes => below bytes.length 17
  | .finish _ bytes => below bytes.length 17
  | .heartbeat _ bytes => below bytes.length 17
  | .keyUpdate _ bytes => below bytes.length 17
  | .endSession _ bytes => below bytes.length 17
  | .chunkGet _ bytes => below bytes.length 17
  | .pqCerts _ bytes => below bytes.length 17
  | .pqSig _ bytes => below bytes.length 17
  | .tenantReport _ bytes => below bytes.length 17
  | .bundleKeys _ bytes => below bytes.length 17
  | .extend _ => true
  | .bundleImport _ => true
  | .bundleImportEnd _ => true
  | .debugUnlock _ => true
  | .unknownVerb _ => true
  | .linkctlRestart _ => true
  | .linkctlRetrain _ => true
  | .linkctlDown _ => true
  | .linkctlRekey _ => true
  | .linkRestartDelay _ => true
  | .linkPartnerDetect _ _ => true
  | .linkTrainingStageEnd _ _ rtt _ => below rtt 16
  | .linkStateTimeout _ => true
  | .flitPosition _ _ _ _ _ _ _ _ _ => true
  | .holdingTimeout _ => true
  | .goBackResendTimeout _ => true
  | .replayTimeout _ => true
  | .linkRetrainTrigger _ => true
  | .linkDown _ _ => true
  | .rekeyInterval _ => true
  | .keyHello _ m => m.wf
  | .keyReply _ m => m.wf
  | .keyProof _ m => m.wf
  | .tlmsg _ m => m.wf
  | .tlans _ m => m.wf
  | .malformedMessage _ _ _ len => below len 13
  | .blkRd _ m => m.wf
  | .blkWr _ m => m.wf
  | .winRd _ m => m.wf
  | .winWr _ m => m.wf
  | .tableCommit _ => true
  | .epochRetire => true
  | .trussFlitCrcFail _ _ => true
  | .multicastDeliveryNotice _ _ => true
  | .resetDrainLimit => true
  | .gateEntryBoundary => true
  | .gateChangeCommit _ _ => true
  | .gateListChange => true
  | .tollRelease toll => decide (toll < 142 ∨ toll = 200 ∨ (300 ≤ toll ∧ toll < 364))
  | .queueSample => true
  | .resetSampleRecord _ => true
  | .ucieLinkLoss => true
  | .uperrstatRead _ => true
  | .cxlLinkDown _ => true
  | .trayRequestTimeout _ => true
  | .nvmeCommandTimeout _ cid => below cid 16
  | .nvmeCompletion _ cid _ => below cid 16
  | .rdmaWrite _ qp _ _ _ data _ => qp != 0 && below data.length 31
  | .rdmaReadRequest _ qp _ _ _ len _ => qp != 0 && below len 31
  | .roceAcknowledge _ _ _ _ => true
  | .roceInvalidRequest _ _ _ _ => true
  | .ethernetFrameDiscard _ frame => decide (14 ≤ frame.length)
  | .neighborResolution _ frame => decide (14 ≤ frame.length)
  | .ptpSync _ _ origin _ => below origin 64
  | .ptpLockLoss _ => true
  | .mkaFrame _ frame => decide (14 ≤ frame.length)
  | .roceRecordWrite _ _ _ => true
  | .spanMapWrite _ _ => true
  | .spanMapDigest _ _ => true
  | .stripedPart _ _ _ _ len input => decide (input.length ≤ len)
  | .memberReport _ _ _ _ r1 r2 rounds => below r1 32 && below r2 32 && below rounds 8
  | .stripeCommit _ _ => true
  | .stripeAbort _ _ => true
  | .spanPartial _ _ _ => true
  | .successorTakeover => true
  | .twinLogRecord src tag line _ data => below src 8 && below tag 16 && below line 46 && (data.isEmpty || data.length == 64)
  | .relayedWriteAck _ => true
  | .twinKeepalive => true
  | .pathSilence _ => true
  | .stepRecord step _ _ buckets _ seqs _ => below step 48 && (buckets.all fun b => b.2.length == 7) && seqs.all fun q => below q.2 32
  | .twinSelfCheck _ => true
  | .disagreementAction => true
  | .resyncPhaseEnd => true
  | .holdBufferOverflow => true
  | .handoverFail => true
  | .objectRead _ _ _ _ offset len => below offset 32 && below len 32
  | .objectWrite _ _ _ _ offset total data => below offset 32 && below total 32 && decide (data.length ≤ 4080)
  | .stagedWriteAbort _ _ => true
  | .stagedWriteTimeout _ _ => true
  | .nmtStart => true
  | .nmtStop => true
  | .nmtEnterPreOperational => true
  | .nmtResetCommunication => true
  | .nmtResetNode => true
  | .usdoTransfer _ _ _ _ _ _ => true
  | .heartbeatPeriod => true
  | .emcyInhibitExpiry => true
  | .entdaa _ => true
  | .setEndpointId _ => true
  | .getEndpointId => true
  | .getMctpVersionSupport _ => true
  | .getMessageTypeSupport => true
  | .registerWrite _ off data => below off 32 && decide (data.length ≤ 64)
  | .tlsend _ _ => true
  | .dictionaryService => true
  | .tlrdone _ _ => true
  | .inback _ => true
  | .resetTallyGroup _ _ => true
  | .resetTenantTallies _ _ => true
  | .freeze _ _ => true
  | .freezeTrigger => true
  | .traceRecord _ => true
  | .arm _ _ => true
  | .triggerNow _ _ => true
  | .traceTrigger _ => true
  | .powerUp _ => true
  | .powerUpStepEnd _ _ => true
  | .orderlyPowerDown _ _ => true
  | .emergencyPowerDown _ => true
  | .rstN => true
  | .requestDeviceReset _ _ => true
  | .dieFailure _ => true
  | .deviceReset => true
  | .resetRelease => true
  | .watchdogKick _ => true
  | .watchdogExpiry => true
  | .issueAllowanceUpdate _ _ => true
  | .forwardedData _ m => m.wf
  | .blkData _ m => m.wf
  | .agentPurgeEnd _ => true
  | .portLinkUp _ data => decide (4 ≤ data.length)
  | .ethernetLinkDown _ => true
  | .nvmeControllerResetEnd _ _ => true
  | .randomSourceHealthy => true
  | .priorityFlowControlFrame _ _ pause => pause.length == 8 && pause.all fun n => below n 16

end Sys2Proof
end

