-- ==== Sys2Proof/Tests/Slice0.lean ====
section
/-! SUPPORT. Tests: well-formedness refuses what no sender can form, the hypotheses of every statement can be met, and single
commands on small states, with results taken from the specification. -/

namespace Sys2Proof.Machine

set_option Elab.async false

/-! ## Small states -/

/-- The numbers of a table rise, as a Boolean. -/
def rises {α : Type} : Tbl α → Bool
  | [] => true
  | p :: t => t.all (fun q => decide (p.1 < q.1)) && rises t

theorem rises_ok {α : Type} {t : Tbl α} (h : rises t = true) : Tbl.Rising t := by
  induction t with
  | nil => exact List.Pairwise.nil
  | cons p t ih =>
    unfold rises at h
    simp only [Bool.and_eq_true, List.all_eq_true, decide_eq_true_eq] at h
    exact List.Pairwise.cons h.1 (ih h.2)

/-- The parts of the invariant, as Booleans. -/
def memB (m : Mem) : Bool :=
  Memory.wf m.bytes && (decide (m.retired.length ≤ 65536) && (decide (m.retiredBanks.length ≤ 64) && (rises m.lines && rises m.patrol)))

theorem memB_ok {m : Mem} (h : memB m = true) : m.Ok := by
  simp only [memB, Bool.and_eq_true, decide_eq_true_eq] at h
  exact { bytes := h.1, granules := h.2.1, banks := h.2.2.1, lines := rises_ok h.2.2.2.1, patrol := rises_ok h.2.2.2.2 }

def ledB (l : Ledger) : Bool := rises l.tens && (rises l.exts && rises l.qps)

theorem ledB_ok {l : Ledger} (h : ledB l = true) : l.Ok := by
  simp only [ledB, Bool.and_eq_true] at h
  exact { tens := rises_ok h.1, exts := rises_ok h.2.1, qps := rises_ok h.2.2 }

def pairB {α β : Type} (t : Tbl α) (u : Tbl β) : Bool := rises t && rises u

theorem pairB_ok {α β : Type} {t : Tbl α} {u : Tbl β} (h : pairB t u = true) : Tbl.Rising t ∧ Tbl.Rising u := by
  simp only [pairB, Bool.and_eq_true] at h
  exact h.imp rises_ok rises_ok

/-- The bounds of the invariant: fault queue, EMCY events, trace FIFOs, phase and device time. -/
def boundsB (s : State) : Bool :=
  decide (s.xl.queue.length ≤ 512 ∧ s.can.emcy.length ≤ 16) && decide (s.tal.io0.fifo.length ≤ 256 ∧ s.tal.io1.fifo.length ≤ 256)
    && decide (s.clk.acc < 2 ^ 48 ∧ s.time.devHalf < 2 ^ 65)

/-- The tables of cores, controllers, links and channels. -/
def tablesB (s : State) : Bool := pairB s.attn.cores s.hbm.ctl && pairB s.links.link s.tel.chan

def invHolds (s : State) : Bool :=
  (memB s.mem && ledB s.led) && (pairB s.kv.ctxs s.kv.trays && pairB s.mint.keys s.mint.regs) && (pairB s.coh.dir s.coh.agents && tablesB s) && boundsB s

theorem inv_ok {s : State} (h : invHolds s = true) : Inv s := by
  simp only [invHolds, boundsB, tablesB, Bool.and_eq_true, decide_eq_true_eq] at h
  have hb := h.2
  have ht := h.1.2.2
  exact
    { mem := memB_ok h.1.1.1.1, led := ledB_ok h.1.1.1.2, kv := pairB_ok h.1.1.2.1, mint := pairB_ok h.1.1.2.2, coh := pairB_ok h.1.2.1
      cores := (pairB_ok ht.1).1, ctl := (pairB_ok ht.1).2, link := (pairB_ok ht.2).1, tel := (pairB_ok ht.2).2
      xl := hb.1.1.1, can := hb.1.1.2, tal := ⟨hb.1.2.1, hb.1.2.2⟩, clk := hb.2.1, time := hb.2.2 }

/-- A device that is READY. -/
def rdy : State := { State.reset with pwr := { State.reset.pwr with dev := .ready, step := 0, stewardUp := true } }

/-- With links that are ACTIVE. -/
def linked (ls : List Nat) (s : State) : State := { s with links := { link := ls.map fun l => (l, { st := 6, gen := 2, width := 8 }) } }

/-- A beacon or a mark of one layer and 1,000,000 ns, with flags. -/
def beaconOf (ty step flags : Nat) : Beacon := withCrc (1000000 * 2 ^ 96 + 2 ^ 80 + step * 2 ^ 32 + flags + ty)

/-- With a step clock. -/
def clocked (f : StepClk → StepClk) (s : State) : State := { s with clk := f s.clk }

/-- With a twin state. -/
def twinned (t : TwinState) (s : State) : State := { s with span := { s.span with twin := t } }

/-! ## Commands that no sender can form -/

/-- A message whose fields all fit. -/
def fits : KafMsg := kafOf 0xFF

theorem test_wf_message : fits.wf = true := by decide
theorem test_refuses_message_op : { fits with op := 2 ^ 8 }.wf = false := by decide
theorem test_refuses_message_mask : { fits with mask := 2 ^ 64 }.wf = false := by decide
theorem test_refuses_message_addr : { fits with addr := 2 ^ 57 }.wf = false := by decide
theorem test_refuses_message_pasid : { fits with pasid := 2 ^ 20 }.wf = false := by decide
theorem test_refuses_message_tag : { fits with tag := 2 ^ 16 }.wf = false := by decide
theorem test_refuses_message_fwd_tag : { fits with fwdTag := 2 ^ 16 }.wf = false := by decide
theorem test_refuses_message_fwd_agent : { fits with fwdAgent := 16 }.wf = false := by decide
theorem test_refuses_message_src_dev : { fits with srcDev := 16 }.wf = false := by decide
theorem test_refuses_message_code : { fits with code := 256 }.wf = false := by decide
theorem test_refuses_message_delay : { fits with delay := 2 ^ 16 }.wf = false := by decide
theorem test_refuses_message_data : { fits with data := List.replicate 4097 0 }.wf = false := by
  have h : (List.replicate 4097 (0 : Byte)).length = 4097 := List.length_replicate
  unfold KafMsg.wf; dsimp only; rw [h]; decide
theorem test_refuses_message_of_command : (Instr.rdShared 0 { fits with op := 2 ^ 8 }).wf = false := by decide
theorem test_refuses_corrected : (Finding.corrected 3).wf = false ∧ (Finding.corrected 0).wf = false := by decide
theorem test_refuses_uncorrectable : (Finding.uncorrectable 2).wf = false := by decide
theorem test_refuses_finding_of_command : (Instr.t1GranuleReady 0 0 (.corrected 3)).wf = false ∧ (Instr.moveComplete 0 (.corrected 3)).wf = false ∧
    (Instr.patrolScrubRead 0 (.corrected 3)).wf = false ∧ (Instr.immediateScrub 0 (.corrected 3)).wf = false := by decide
theorem test_refuses_reconfigure_sub : (Instr.stepClockReconfigure .s 2 0).wf = false := by decide
theorem test_refuses_reconfigure_value : (Instr.stepClockReconfigure .s 1 (2 ^ 32)).wf = false := by decide
theorem test_refuses_tray_number : (Instr.trayRecordActivate .s false 32 [] true).wf = false := by decide
theorem test_refuses_tray_record : (Instr.trayRecordActivate .s true 32 (List.replicate 65537 0) true).wf = false := by
  show (true && decide ((List.replicate 65537 (0 : Byte)).length ≤ 65536)) = false
  rw [List.length_replicate]; decide
theorem test_refuses_temperature : (Instr.stackTemperatureChange 0 256).wf = false := by decide
theorem test_refuses_retrain_bits : (Instr.retrainGroup [(0, 256)]).wf = false := by decide
theorem test_refuses_region_sub : (Instr.macRegionPlace 0 0).wf = false ∧ (Instr.macRegionPlace 7 0).wf = false := by decide
theorem test_refuses_region_value : (Instr.macRegionPlace 1 (2 ^ 32)).wf = false := by decide
theorem test_refuses_cxl_tag : (Instr.cxlMemRd 0 (2 ^ 16) 0 0).wf = false ∧ (Instr.cxlMemRdData 0 (2 ^ 16) 0).wf = false ∧
    (Instr.cxlMemInv 0 (2 ^ 16) 0 0).wf = false ∧ (Instr.cxlMemClnEvct 0 (2 ^ 16) 0).wf = false := by decide
theorem test_refuses_cxl_meta : (Instr.cxlMemRd 0 0 0 1).wf = false ∧ (Instr.cxlMemInv 0 0 0 1).wf = false := by decide
theorem test_refuses_cxl_data : (Instr.cxlMemWr 0 0 0 0 [] false).wf = false := by decide
theorem test_refuses_line : (Instr.lineLockAcquire (2 ^ 46)).wf = false ∧ (Instr.snoopTimeout 0 (2 ^ 46)).wf = false := by decide
theorem test_refuses_spdm_length : (Instr.spdm none (List.replicate 131072 0)).wf = false := by
  show below (List.replicate 131072 (0 : Byte)).length 17 = false
  rw [List.length_replicate]; decide
theorem test_refuses_round_trip : (Instr.linkTrainingStageEnd 0 0 (2 ^ 16) true).wf = false := by decide
theorem test_refuses_malformed_length : (Instr.malformedMessage 0 0 0 (2 ^ 13)).wf = false := by decide
theorem test_refuses_toll : (Instr.tollRelease 142).wf = false ∧ (Instr.tollRelease 364).wf = false := by decide
theorem test_refuses_nvme_id : (Instr.nvmeCommandTimeout 0 (2 ^ 16)).wf = false ∧ (Instr.nvmeCompletion 0 (2 ^ 16) 0).wf = false := by decide
theorem test_refuses_roce_pair : (Instr.rdmaWrite 0 0 0 0 0 [] 0).wf = false ∧ (Instr.rdmaReadRequest 0 0 0 0 0 0 0).wf = false := by decide
theorem test_refuses_roce_length : (Instr.rdmaReadRequest 0 1 0 0 0 (2 ^ 31) 0).wf = false := by decide
theorem test_refuses_frame : (Instr.ethernetFrameDiscard 0 []).wf = false ∧ (Instr.neighborResolution 0 []).wf = false ∧
    (Instr.mkaFrame 0 []).wf = false := by decide
theorem test_refuses_ptp_origin : (Instr.ptpSync 0 0 (2 ^ 64) 0).wf = false := by decide
theorem test_refuses_part_input : (Instr.stripedPart 0 0 0 0 0 [0]).wf = false := by decide
theorem test_refuses_report : (Instr.memberReport 0 0 0 0 (2 ^ 32) 0 0).wf = false ∧ (Instr.memberReport 0 0 0 0 0 (2 ^ 32) 0).wf = false ∧
    (Instr.memberReport 0 0 0 0 0 0 256).wf = false := by decide
theorem test_refuses_log_record : (Instr.twinLogRecord 256 0 0 0 []).wf = false ∧ (Instr.twinLogRecord 0 (2 ^ 16) 0 0 []).wf = false ∧
    (Instr.twinLogRecord 0 0 (2 ^ 46) 0 []).wf = false ∧ (Instr.twinLogRecord 0 0 0 0 [0]).wf = false := by decide
theorem test_refuses_step_record : (Instr.stepRecord (2 ^ 48) 0 0 [] none [] []).wf = false ∧
    (Instr.stepRecord 0 0 0 [(0, [])] none [] []).wf = false ∧ (Instr.stepRecord 0 0 0 [] none [(0, 2 ^ 32)] []).wf = false := by decide
theorem test_refuses_object_access : (Instr.objectRead .s 64 0 0 (2 ^ 32) 0).wf = false ∧ (Instr.objectRead .s 64 0 0 0 (2 ^ 32)).wf = false ∧
    (Instr.objectWrite .s 64 0 0 (2 ^ 32) 0 []).wf = false ∧ (Instr.objectWrite .s 64 0 0 0 (2 ^ 32) []).wf = false := by decide
theorem test_refuses_object_data : (Instr.objectWrite .s 64 0 0 0 0 (List.replicate 4081 0)).wf = false := by
  show (below 0 32 && below 0 32 && decide ((List.replicate 4081 (0 : Byte)).length ≤ 4080)) = false
  rw [List.length_replicate]; decide
theorem test_refuses_register_write : (Instr.registerWrite .rack (2 ^ 32) []).wf = false ∧
    (Instr.registerWrite .rack 0 (List.replicate 65 0)).wf = false := by decide
theorem test_refuses_port_data : (Instr.portLinkUp 0 [0, 0, 0]).wf = false := by decide
theorem test_refuses_pause : (Instr.priorityFlowControlFrame 0 0 []).wf = false ∧
    (Instr.priorityFlowControlFrame 0 0 (2 ^ 16 :: List.replicate 7 0)).wf = false := by decide


/-! ## Each statement's hypotheses can be met -/

theorem test_witness_step_runs_front_1 : ∃ (c : Instr) (rest : List Instr) (s : State), (s.pending = c :: rest) :=
  ⟨.nmtStart, [], { rdy with pending := [.nmtStart] }, by decide +kernel⟩
theorem test_witness_step_idles_1 : ∃ (s : State), (s.pending = []) :=
  ⟨rdy, by decide +kernel⟩
theorem test_witness_invariant_is_kept_1 : ∃ (s : State) (t : State), (Inv s) ∧ (step s = .next t) :=
  ⟨rdy, (match step rdy with | .next t => t | _ => rdy), inv_ok (by decide +kernel), rfl⟩
theorem test_witness_frames_hold_1 : ∃ (c : Instr) (s : State) (t : State), (exec c s = .next t) :=
  ⟨.nmtStart, rdy, { rdy with can := { rdy.can with nmt := 5 } }, rfl⟩
theorem test_witness_memory_stays_1 : ∃ (c : Instr) (s : State) (t : State), (exec c s = .next t) ∧ (Part.bytes ∉ writes c) :=
  ⟨.nmtStart, rdy, { rdy with can := { rdy.can with nmt := 5 } }, rfl, by decide +kernel⟩
theorem test_witness_beacons_are_taken_1 : ∃ (s : State) (p : Fin 13) (m : Beacon), (linkUp s p.val = true) ∧ (8 ≤ p.val) ∧ (bCrcOk m = true) ∧ (bType m = 0x5B) ∧ (bSpan m = obj s 0x2100 9) ∧ (layersOk (bLayers m) = true) ∧ (predictedOk (bPredicted m) = true) ∧ (bCoast m = false) ∧ (stepSource s = 0) ∧ ((s.span.keystone = none ∨ s.span.keystone = some (bKeystone m))) ∧ ((s.clk.heard = false ∨ bRestart m = true ∨ s.clk.last < bStep m)) :=
  ⟨linked [8] rdy, 8, beaconOf 0x5B 1 0, by decide +kernel⟩
theorem test_witness_beacons_are_taken_2 : ∃ (s : State) (p : Fin 13) (m : Beacon), (linkUp s p.val = true) ∧ (8 ≤ p.val) ∧ (bCrcOk m = true) ∧ (bType m = 0x5B) ∧ (bSpan m = obj s 0x2100 9) ∧ (layersOk (bLayers m) = true) ∧ (predictedOk (bPredicted m) = true) ∧ (bCoast m = false) ∧ (stepSource s = 0) ∧ ((s.span.keystone = none ∨ s.span.keystone = some (bKeystone m))) ∧ (s.clk.heard = true) ∧ (bRestart m = false) ∧ (bStep m ≤ s.clk.last) :=
  ⟨clocked (fun c => { c with seen := true, heard := true, last := 9 }) (linked [8] rdy), 8, beaconOf 0x5B 9 0, by decide +kernel⟩
theorem test_witness_beacons_are_taken_3 : ∃ (s : State) (m : Beacon), ((∀ c, s.clk.coasted = some c → c < bStep m)) ∧ (linkUp s 12 = true) ∧ (bCrcOk m = true) ∧ (bType m = 0x5B) ∧ (bSpan m = obj s 0x2100 9) ∧ (layersOk (bLayers m) = true) ∧ (predictedOk (bPredicted m) = true) ∧ (bCoast m = true) ∧ (s.span.twin = .follow) ∧ (s.clk.last < bStep m) :=
  ⟨twinned .follow (clocked (fun c => { c with coasted := some 4 }) (linked [12] rdy)), beaconOf 0x5B 5 (2 ^ 21), by intro c h; cases h; decide +kernel, by decide +kernel⟩
theorem test_witness_keystone_starts_steps_1 : ∃ (s : State) (p : Fin 13) (m : Beacon), (linkUp s p.val = true) ∧ (stepSource s = 1) ∧ (p.val = obj s 0x2100 2) ∧ (bCrcOk m = true) ∧ (bType m = 0x5A) ∧ (layersOk (bLayers m) = true) ∧ ((s.clk.seen = false ∨ s.clk.last < bStep m)) ∧ (s.clk.takeover = false) :=
  ⟨setObj 0x2100 1 1 (linked [0] rdy), 0, beaconOf 0x5A 1 0, by decide +kernel⟩
theorem test_witness_keystone_starts_steps_2 : ∃ (s : State) (v : BitVec 32), (fld v 0 0 = 1) ∧ (stepSource s = 2) ∧ ((s.clk.st ≠ .locked ∨ s.clk.stepAt ≠ s.time.cycle)) ∧ (s.clk.takeover = false) ∧ (s.clk.last + 1 < 2 ^ 48) ∧ (layersOk (objLast s 0x2100 0x0A) = true) :=
  ⟨clocked (fun c => { c with last := 2 ^ 48 - 2 }) (setObj 0x2100 1 2 rdy), 1, by decide +kernel⟩
theorem test_witness_keystone_starts_steps_3 : ∃ (s : State), (stepSource s = 3) ∧ (s.clk.takeover = false) ∧ (s.clk.last + 1 < 2 ^ 48) ∧ (layersOk (objLast s 0x2100 0x0A) = true) ∧ (objLast s 0x2100 3 < 2 ^ 32) :=
  ⟨clocked (fun c => { c with last := 2 ^ 48 - 2 }) (setObj 0x2100 1 3 rdy), by decide +kernel⟩
theorem test_witness_stepmark_writes_of_one_cycle_1 : ∃ (s : State), (obj s 0x2100 1 ≠ 2) :=
  ⟨rdy, by decide +kernel⟩
theorem test_witness_stepmark_writes_of_one_cycle_2 : ∃ (v : BitVec 32), (fld v 0 0 = 1) :=
  ⟨1, by decide +kernel⟩
theorem test_witness_clock_without_beacons_1 : ∃ (s : State), ((s.clk.st = .locked ∨ s.clk.st = .overrun)) ∧ (arrivalWins (timeoutAt s) (startsStep (carryTo (timeoutAt s) s)) s = false) :=
  ⟨clocked (fun c => { c with st := .overrun }) rdy, by decide +kernel⟩
theorem test_witness_clock_without_beacons_2 : ∃ (s : State), ((s.clk.st = .locked ∨ s.clk.st = .overrun)) ∧ (arrivalWins (timeoutAt s) (startsStep (carryTo (timeoutAt s) s)) s = true) :=
  ⟨{ clocked (fun c => { c with st := .overrun }) (setObj 0x2100 1 1 (linked [0] rdy)) with pending := [.stepMark 0 0 (beaconOf 0x5A 1 0)] }, by decide +kernel⟩
theorem test_witness_clock_without_beacons_3 : ∃ (s : State), (s.clk.st = .coast) ∧ (s.span.twin ≠ .follow) :=
  ⟨clocked (fun c => { c with st := .coast }) rdy, by decide +kernel⟩
theorem test_witness_clock_without_beacons_4 : ∃ (s : State), (s.clk.st = .unlocked) ∧ (stepSource s ≠ 3) :=
  ⟨rdy, by decide +kernel⟩
theorem test_witness_clock_without_beacons_5 : ∃ (s : State), (s.clk.st = .locked) :=
  ⟨clocked (fun c => { c with st := .locked }) rdy, by decide +kernel⟩
theorem test_witness_phase_events_fire_1 : ∃ (s : State), (s.clk.winDone = false) ∧ (s.clk.acc < 2 ^ 48) ∧ (obj s 0x2102 3 < 65536) ∧ (0 < clkIncrement s.clk) :=
  ⟨rdy, by decide +kernel⟩
theorem test_witness_phase_events_fire_2 : ∃ (s : State), (s.clk.winOpen = true) ∧ (obj s 0x2102 3 ≤ obj s 0x2102 4) ∧ (s.clk.acc < 2 ^ 48) ∧ (obj s 0x2102 4 < 65536) ∧ (0 < clkIncrement s.clk) :=
  ⟨clocked (fun c => { c with winOpen := true }) (setObj 0x2102 4 65535 rdy), by decide +kernel⟩
theorem test_witness_phase_events_fire_3 : ∃ (s : State), (s.clk.st ≠ .unlocked) ∧ (s.clk.slots < s.clk.layers) ∧ (s.clk.acc < 2 ^ 48) ∧ (0 < clkIncrement s.clk) :=
  ⟨clocked (fun c => { c with st := .locked }) rdy, by decide +kernel⟩
theorem test_witness_phase_events_fire_4 : ∃ (s : State), (s.clk.layers ≤ s.clk.slots) :=
  ⟨clocked (fun c => { c with slots := 1, layers := 1 }) rdy, by decide +kernel⟩
theorem test_witness_beacons_are_taken_4 : ∃ (s : State) (p : Fin 13) (m : Beacon), (linkUp s p.val = true) ∧ (bCoast m = true) ∧ (s.span.twin ≠ .follow) :=
  ⟨linked [8] rdy, 8, beaconOf 0x5B 5 (2 ^ 21), by decide +kernel⟩
theorem test_witness_clock_without_beacons_6 : ∃ (s : State) (p : Prin) (sub : BitVec 8) (v : Nat), ((sub = 1 ∧ v ≤ 3) ∨ (sub = 6 ∧ v ≤ 2) ∨ (sub = 9 ∧ v < 256)) ∧ (mayTouch p 0x2100 sub.toNat = true) ∧ (answering s = true) :=
  ⟨rdy, .s, 9, 255, by decide +kernel⟩
theorem test_witness_phase_events_fire_5 : ∃ (s : State), (s.clk.deadlineDone = false) ∧ (s.clk.acc < 2 ^ 48) ∧ (obj s 0x2102 5 < 65536) ∧ (0 < clkIncrement s.clk) :=
  ⟨rdy, by decide +kernel⟩

/-- Tenant 5 active with extents 0 and 1, queue pair 7 and context 3 its own, PASID 9 bound to it: its first pages lie in extent 1. -/
def base : State :=
  setCtx 3 { st := .open, tenant := 5, stripe := 1, family := 3 }
    (setQp 7 { enable := true, tenant := 5, st := .active, bindKind := 1 }
      (setTenant 5 { st := .active }
        { rdy with win := { rdy.win with qpSel := [(64, 7)], ctxSel := 3 }
                   led := { rdy.led with binds := [(9, (5, 0, false))]
                                         exts := [(0, { st := .granted, kind := 1, owner := 5 }), (1, { st := .granted, kind := 3, owner := 5 })] }
                   mint := { rdy.mint with st := .running, keys := [(5, { slot0 := 1 })] }
                   xl := { rdy.xl with tlb0 := [⟨9, 0, 512, 2 ^ 18, true, true⟩] } }))

/-- A descriptor of an opcode, for context 3 and PASID 9. -/
def descOf (op : Nat) : Desc := BitVec.ofNat _ (op + 3 * 2 ^ 32 + 9 * 2 ^ 64)

/-- With a descriptor in flight. -/
def flying (f : Flight) (s : State) : State := { s with attn := { s.attn with flights := [f], nextId := f.id + 1 } }

/-- A waiting descriptor of queue pair 7. -/
def flight (op : Nat) : Flight := { newFlight base 7 true with desc := descOf op, id := 1 }

/-- It, past its gates. -/
def gone (op : Nat) : Flight := { flight op with passed := true }

/-- With queue pair 7 so. -/
def onQp (f : Qp → Qp) (s : State) : State := setQp 7 (f (qpOf s 7)) s

/-- With context 3 so. -/
def onCtx (f : Ctx → Ctx) (s : State) : State := setCtx 3 (f (ctxOf s 3)) s

/-- With core 0 so. -/
def onCore (f : Core → Core) (s : State) : State := setCore 0 (f (coreOf s 0)) s

/-- What a block read brings. -/
def gotOf : Fetch → List Byte × List (Nat × Nat)
  | .got _ bs ps => (bs, ps)
  | _ => ([], [])

/-- With one page of context 3, in frame 1. -/
def paged (s : State) : State :=
  setFrame 1 { tenant := 5, size := 4096, count := 1, refd := false, t1 := some 0, t2 := none, t3 := none, lost2 := false, lost3 := false
               revoked := false, epoch := 0 } (setPage 3 0 0 ⟨0, 0, false, 1⟩ s)

theorem test_witness_doorbells_move_1 : ∃ (s : State) (w : Win) (v : BitVec 32) (q : Nat), (Inv s) ∧ (winQp s w = some q) ∧ ((qpOf s q).st = .active) ∧ (fld v 9 0 < sqSize (qpOf s q)) ∧ (sqCount (qpOf s q) + (fld v 9 0 + sqSize (qpOf s q) - (qpOf s q).tail) % sqSize (qpOf s q) ≤ sqSize (qpOf s q) - 1) :=
  ⟨base, .steward, 15, 7, inv_ok (by decide +kernel), by decide +kernel⟩
theorem test_witness_doorbells_move_2 : ∃ (s : State) (w : Win) (v : BitVec 32) (q : Nat), (Inv s) ∧ (winQp s w = some q) ∧ (((qpOf s q).st ≠ .active ∨ sqSize (qpOf s q) ≤ fld v 9 0 ∨ sqSize (qpOf s q) - 1 < sqCount (qpOf s q) + (fld v 9 0 + sqSize (qpOf s q) - (qpOf s q).tail) % sqSize (qpOf s q))) :=
  ⟨base, .steward, 16, 7, inv_ok (by decide +kernel), by decide +kernel⟩
theorem test_witness_doorbells_move_3 : ∃ (s : State) (w : Win) (v : BitVec 32) (q : Nat) (n : Nat), (Inv s) ∧ (winQp s w = some q) ∧ (((qpOf s q).st = .active ∨ (qpOf s q).st = .reinit)) ∧ (fld v 11 0 < cqSize (qpOf s q)) ∧ (n = (fld v 11 0 + cqSize (qpOf s q) - (qpOf s q).consumed % cqSize (qpOf s q)) % cqSize (qpOf s q)) ∧ ((∀ i, i < n → (qpOf s q).consumed + i ∈ (qpOf s q).done)) :=
  ⟨onQp (fun p => { p with done := [0] }) base, .steward, 1, 7, 1, inv_ok (by decide +kernel), by decide +kernel⟩
theorem test_witness_doorbells_move_4 : ∃ (s : State) (w : Win) (v : BitVec 32) (q : Nat), (Inv s) ∧ ((((qpOf s q).st ≠ .active ∧ (qpOf s q).st ≠ .reinit) ∨ cqSize (qpOf s q) ≤ fld v 11 0 ∨ ∃ i, i < (fld v 11 0 + cqSize (qpOf s q) - (qpOf s q).consumed % cqSize (qpOf s q)) % cqSize (qpOf s q) ∧ (qpOf s q).consumed + i ∉ (qpOf s q).done)) ∧ (winQp s w = some q) :=
  ⟨onQp (fun p => { p with done := [0] }) base, .steward, 2, 7, inv_ok (by decide +kernel), .inr (.inr ⟨1, by decide +kernel⟩), by decide +kernel⟩
theorem test_witness_head_descriptors_are_read_1 : ∃ (s : State) (die : Fin 2) (q : Nat), (Inv s) ∧ (pickQp (markStarved s) die.val = some q) :=
  ⟨onQp (fun p => { p with tail := 1 }) base, 0, 7, inv_ok (by decide +kernel), by decide +kernel⟩
theorem test_witness_head_descriptors_are_read_2 : ∃ (s : State) (q : Fin 1024), (Inv s) ∧ (readsQueues s = true) ∧ (headReady (qpOf s q.val) = true) ∧ (placeFree s (qpOf s q.val).tenant (qpDie q.val) = true) ∧ (opKnown (dOpcode (tget 0 (qpOf s q.val).sq (qpOf s q.val).rd)) = false) ∧ ((tenantOf s (qpOf s q.val).tenant).st ≠ .removing) ∧ ((∀ f ∈ s.attn.flights, f.id < s.attn.nextId)) :=
  ⟨onQp (fun p => { p with tail := 1 }) base, 7, inv_ok (by decide +kernel), by decide +kernel⟩
theorem test_witness_queue_pairs_are_configured_1 : ∃ (s : State) (v : BitVec 64) (q : Nat), (Inv s) ∧ (winQp s .steward = some q) ∧ (((qpOf s q).st = .disabled ∨ (qpOf s q).st = .refused)) ∧ (fld v 63 63 = 1) ∧ (s.pwr.dev = .ready) ∧ (qpReason s q (qpFields v (qpOf s q)) = 0) :=
  ⟨onQp (fun p => { p with st := .disabled }) base, 0x8510440000000000, 7, inv_ok (by decide +kernel), by decide +kernel⟩
theorem test_witness_queue_pairs_are_configured_2 : ∃ (s : State) (v : BitVec 64) (q : Nat), (Inv s) ∧ (winQp s .steward = some q) ∧ (((qpOf s q).st = .disabled ∨ (qpOf s q).st = .refused)) ∧ (fld v 63 63 = 1) ∧ (s.pwr.dev = .ready) ∧ (qpReason s q (qpFields v (qpOf s q)) ≠ 0) :=
  ⟨onQp (fun p => { p with st := .refused }) base, 0x8510B40000000000, 7, inv_ok (by decide +kernel), by decide +kernel⟩
theorem test_witness_queue_pairs_are_configured_3 : ∃ (s : State) (v : BitVec 64) (q : Nat), (Inv s) ∧ (winQp s .steward = some q) ∧ ((qpOf s q).st = .active) ∧ ((fld v 63 63 = 0 ∨ fld v 0 0 = 1)) :=
  ⟨base, 1, 7, inv_ok (by decide +kernel), by decide +kernel⟩
theorem test_witness_queue_pairs_are_configured_4 : ∃ (s : State) (q : Fin 1024), (Inv s) ∧ ((qpOf s q.val).st = .reinit) ∧ ((∀ f ∈ s.attn.flights, f.qp ≠ q.val)) ∧ ((qpOf s q.val).reserved = (qpOf s q.val).consumed) :=
  ⟨onQp (fun p => { p with st := .reinit }) base, 7, inv_ok (by decide +kernel), by decide +kernel⟩
theorem test_witness_interrupts_and_samples_1 : ∃ (s : State) (q : Fin 1024) (c : Nat), (Inv s) ∧ ((qpOf s q.val).irqAt = some c) ∧ ((qpOf s q.val).coalTime ≠ 0) :=
  ⟨onQp (fun p => { p with irqAt := some 0, coalTime := 1 }) base, 7, 0, inv_ok (by decide +kernel), by decide +kernel⟩
theorem test_witness_interrupts_and_samples_3 : ∃ (s : State) (v : BitVec 16), (answering s = true) ∧ (v = 0xFFFF) :=
  ⟨base, 0xFFFF, by decide +kernel⟩
theorem test_witness_interrupts_and_samples_4 : ∃ (s : State) (v : BitVec 16), (answering s = true) ∧ (v.toNat < 1024) :=
  ⟨base, 1023, by decide +kernel⟩
theorem test_witness_interrupts_and_samples_5 : ∃ (s : State) (v : BitVec 16), (answering s = true) ∧ (1024 ≤ v.toNat) ∧ (v ≠ 0xFFFF) :=
  ⟨base, 1024, by decide +kernel⟩
theorem test_witness_descriptors_change_contexts_2 : ∃ (s : State) (d : Nat) (f : Flight), (Inv s) ∧ (dispatchable s d 3 = some f) ∧ (ctxGone s f = none) ∧ (spanMask s (dCtx f.desc) = 0) ∧ (steppedDown s = false) ∧ ((forkEff f.desc (noteDispatch f s)).code = 0) :=
  ⟨flying (flight 3) (setCtx 0 { st := .open, tenant := 5 } base), 1, gone 3, inv_ok (by decide +kernel), by decide +kernel⟩
theorem test_witness_descriptors_change_contexts_3 : ∃ (s : State) (d : Nat) (f : Flight), (Inv s) ∧ (Tbl.Rising (trimEff f.desc (noteDispatch f s)).s.led.qps) ∧ (dispatchable s d 4 = some f) ∧ (ctxGone s f = none) ∧ (spanMask s (dCtx f.desc) = 0) ∧ (steppedDown s = false) ∧ ((trimEff f.desc (noteDispatch f s)).code = 0) ∧ ((flightOf (trimEff f.desc (noteDispatch f s)).s d).map (fun g => { g with passed := true }) = some f) :=
  ⟨flying (flight 4) base, 1, gone 4, inv_ok (by decide +kernel), rises_ok (by decide +kernel), by decide +kernel⟩
theorem test_witness_descriptors_change_contexts_4 : ∃ (s : State) (d : Nat) (f : Flight), (Inv s) ∧ (dispatchable s d 5 = some f) ∧ (ctxGone s f = none) ∧ (spanMask s (dCtx f.desc) = 0) ∧ (steppedDown s = false) ∧ ((summarizeEff f.desc (noteDispatch f s)).code = 0) :=
  ⟨flying (flight 5) base, 1, gone 5, inv_ok (by decide +kernel), by decide +kernel⟩
theorem test_witness_range_descriptors_take_pages_1 : ∃ (s : State) (d : Nat) (f : Flight), (dispatchable s d 6 = some f) ∧ (ctxGone s f = none) ∧ (spanMask s (dCtx f.desc) = 0) :=
  ⟨flying (flight 6) base, 1, gone 6, by decide +kernel⟩
theorem test_witness_range_descriptors_take_pages_2 : ∃ (s : State) (d : Nat) (f : Flight), (dispatchable s d 7 = some f) ∧ (ctxGone s f = none) ∧ (spanMask s (dCtx f.desc) = 0) :=
  ⟨flying (flight 7) base, 1, gone 7, by decide +kernel⟩
theorem test_witness_range_descriptors_take_pages_3 : ∃ (s : State) (d : Nat) (f : Flight), (dispatchable s d 8 = some f) ∧ (ctxGone s f = none) ∧ (spanMask s (dCtx f.desc) = 0) :=
  ⟨flying (flight 8) base, 1, gone 8, by decide +kernel⟩
theorem test_witness_range_descriptors_take_pages_4 : ∃ (s : State) (f : Flight) (g : Flight) (l : Nat) (p : Nat) (v : Page), (pageOf s (dCtx f.desc) l p = some v) ∧ (flightOf s f.id = some g) ∧ (g.codes.contains (0x12, 4) = false) ∧ (v.pinned ≠ rOpt f.desc) ∧ ((rOpt f.desc = true → (tenantOf s f.tenant).pinned < obj s (0x3001 + 16 * f.tenant) 6)) :=
  ⟨setPage 3 0 0 ⟨0, 0, true, 1⟩ (flying (flight 7) base), flight 7, flight 7, 0, 0, ⟨0, 0, true, 1⟩, by decide +kernel⟩
theorem test_witness_interrupts_and_samples_2 : ∃ (s : State), (Inv s) ∧ (Tbl.Rising s.led.samples) :=
  ⟨base, inv_ok (by decide +kernel), rises_ok (by decide +kernel)⟩
theorem test_witness_range_descriptors_take_pages_5 : ∃ (s : State) (f : Flight), (Inv s) ∧ (flightOf s f.id = some f) ∧ (f.qp < 1024) ∧ (f.stage = .running) ∧ (5 ≤ dOpcode f.desc) ∧ (f.members = []) ∧ ((∀ m ∈ s.kv.moves, m.descs.contains f.id = false)) ∧ ((∀ c ∈ f.codes, c.1 = 0)) ∧ (spanMask s (dCtx f.desc) = 0) ∧ (steppedDown s = false) :=
  ⟨flying { flight 7 with stage := .running } base, { flight 7 with stage := .running }, inv_ok (by decide +kernel), by decide +kernel⟩
def apS : State := flying (flight 2) (paged base)
def apF : Fetch × State := fetchBlock (gone 2) (pSrc (descOf 2)) (srcBytes (descOf 2) (ctxOf apS 3)) (setFlight (gone 2) apS)
theorem test_witness_descriptors_change_contexts_1 : ∃ (s : State) (s1 : State) (s2 : State) (d : Nat) (f : Flight) (g : Flight) (bs : List Byte) (ps : List (Nat × Nat)), (Tbl.Rising s1.led.qps) ∧ (s2 = noteDispatch f (setFlight { f with input := bs, t1r := f.t1r + t1Bytes ps } (tenantCount f.tenant 1 (t1Bytes ps) (notePieces 0xFF f.tenant ps s1)))) ∧ (dispatchable s d 2 = some f) ∧ (flightOf s1 d = some g) ∧ (fetchBlock f (pSrc f.desc) (srcBytes f.desc (ctxOf s (dCtx f.desc))) (setFlight f s) = (.got 0 bs ps, s1)) ∧ (ctxGone s1 f = none) ∧ (appendCheck s1 f.desc = none) ∧ (ctxGone s2 f = none) ∧ (spanMask s2 (dCtx f.desc) = 0) ∧ (steppedDown s1 = false) ∧ ((appendEff f.desc bs s2).code = 0) :=
  ⟨apS, apF.2, noteDispatch (gone 2) (setFlight { gone 2 with input := (gotOf apF.1).1, t1r := (gone 2).t1r + t1Bytes (gotOf apF.1).2 } (tenantCount (gone 2).tenant 1 (t1Bytes (gotOf apF.1).2) (notePieces 0xFF (gone 2).tenant (gotOf apF.1).2 apF.2))), 1, gone 2, (flightOf apF.2 1).getD (gone 2), (gotOf apF.1).1, (gotOf apF.1).2, rises_ok (by decide +kernel), rfl, by decide +kernel⟩
/-- A work item of descriptor 1 on context 3, a tile of frame 1, a partial row, and a direct request of a pier. -/
def work : Work :=
  { desc := 1, ctx := 3, layer := 0, compact := false, phase := .stream, tiles := [], toIssue := [], issued := []
    thr := [], kref := [], hist := [], rows := [], round := 0, unread := [], codes := [], bytes := 0, read := 0, tick := 0
    waitAt := none, fresh := none }
def tile : Tile := { page := 0, head := 0, mask := 0, fmt := 0, frame := 1, forced := false, u := [], addr := none }
def row : Row := { m := some {}, l := { m := 1 }, bound := none, o := List.replicate 64 {} }
def req : Req :=
  { id := 1, src := 0, op := 0x10, cls := .rs, agent := none, pasid := 9, tenant := 5, addr := 0, len := 64, tag := 2, arg := 0
    srcDev := 0, data := [], poison := false, waited := false, tolls := [], since := 0, stage := .tolled, pieces := [], gen := 0
    lines := [], dead := false, remote := [] }
def asking (r : Req) (s : State) : State := { s with coh := { s.coh with reqs := [r] } }
def moving (m : Move) (s : State) : State := s.setKv fun k => { k with moves := [m], nextMove := m.id + 1 }
def move : Move :=
  { id := 1, frame := 1, target := 1, up := true, prio := 1, started := true, dest := 1, drop2 := false, descs := [], cores := []
    slot := none, tenant := 5 }

def atD : Desc := descOf 1 + BitVec.ofNat _ (2 ^ 368)
def atF : Flight := { flight 1 with desc := atD }
def atG : Flight := { atF with passed := true }
def atS : State := flying atF base
def atR : Fetch × State := fetchBlock (holdEnd 0 atG) (aIn atD) (inBytes atD (ctxOf atS 3)) (setFlight (holdEnd 0 atG) atS)
theorem test_witness_stripes_get_work_1 : ∃ (s : State) (s1 : State) (s2 : State) (d : Nat) (f : Flight) (bs : List Byte) (ps : List (Nat × Nat)), (s2 = noteDispatch f (tenantCount f.tenant 1 (t1Bytes ps) (notePieces 0xFF f.tenant ps s1))) ∧ (Tbl.Rising s1.attn.cores) ∧ (dispatchable s d 1 = some f) ∧ (placesFree s (stripeCores s (ctxOf s (dCtx f.desc))) = true) ∧ (fetchBlock (holdEnd s.time.cycle f) (aIn f.desc) (inBytes f.desc (ctxOf s (dCtx f.desc))) (setFlight (holdEnd s.time.cycle f) s) = (.got 0 bs ps, s1)) ∧ (ctxGone s1 f = none) ∧ (attendLimits f.desc (ctxOf s (dCtx f.desc)) = true) ∧ (inputCheck { d := f.desc, x := ctxOf s1 (dCtx f.desc), n := (ctxOf s (dCtx f.desc)).length, input := bs } = none) ∧ (revokedPage s1 (dCtx f.desc) (dLayer f.desc) = false) ∧ (spanMask s2 (dCtx f.desc) = 0) ∧ (stripeCores s1 (ctxOf s (dCtx f.desc)) ≠ []) ∧ (ctxOf s1 (dCtx f.desc) = ctxOf s (dCtx f.desc)) ∧ ((flightOf s1 d).isSome) :=
  ⟨atS, atR.2, noteDispatch atG (tenantCount atG.tenant 1 (t1Bytes (gotOf atR.1).2) (notePieces 0xFF atG.tenant (gotOf atR.1).2 atR.2)), 1, atG, (gotOf atR.1).1, (gotOf atR.1).2, rfl, rises_ok (by decide +kernel), by decide +kernel⟩
theorem test_witness_deadlines_and_holds_end_1 : ∃ (s : State) (d : Nat) (f : Flight), (Inv s) ∧ ((∀ c w, (coreOf s c).work = some w → w.fresh = none)) ∧ (flightOf s d = some f) ∧ (f.qp < 1024) ∧ (dOpcode f.desc = 1) ∧ (aDeadline f.desc ≠ 0) ∧ (f.stage ≠ .pushing) ∧ (steppedDown s = false) ∧ (arrivalWins (f.readAt + usCycles (aDeadline f.desc)) (· == .outputFormed d) s = false) :=
  ⟨flying { flight 1 with desc := descOf 1 + BitVec.ofNat _ (2 ^ 400) } base, 1, { flight 1 with desc := descOf 1 + BitVec.ofNat _ (2 ^ 400) }, inv_ok (by decide +kernel), (fun _ _ h => nomatch h), by decide +kernel⟩
theorem test_witness_deadlines_and_holds_end_2 : ∃ (s : State) (d : Nat) (f : Flight), (flightOf s d = some f) ∧ (f.qp < 1024) ∧ (dOpcode f.desc = 1) ∧ (aDeadline f.desc ≠ 0) ∧ (f.stage ≠ .pushing) ∧ (arrivalWins (f.readAt + usCycles (aDeadline f.desc)) (· == .outputFormed d) s = true) :=
  ⟨{ flying { flight 1 with desc := descOf 1 + BitVec.ofNat _ (2 ^ 400) } base with pending := [.outputFormed 1] }, 1, { flight 1 with desc := descOf 1 + BitVec.ofNat _ (2 ^ 400) }, by decide +kernel⟩
theorem test_witness_deadlines_and_holds_end_3 : ∃ (s : State) (d : Nat) (c : Nat) (due : Nat) (f : Flight), (Inv s) ∧ (flightOf s d = some f) ∧ (f.qp < 1024) ∧ (f.heldAt = some c) ∧ (due = c + (holdLimit s f.tenant - f.heldFor)) ∧ (steppedDown s = false) ∧ ((f.forToll = true → arrivalWins due (releasesFrom f.tenant) s = false)) ∧ ((dOpcode f.desc ≠ 1 ∨ aDeadline f.desc = 0 ∨ f.readAt + usCycles (aDeadline f.desc) ≠ due)) :=
  ⟨flying { flight 2 with heldAt := some 0, forToll := true } base, 1, 0, holdLimit base 5, { flight 2 with heldAt := some 0, forToll := true }, inv_ok (by decide +kernel), by decide +kernel⟩
theorem test_witness_deadlines_and_holds_end_4 : ∃ (s : State) (d : Nat) (c : Nat) (due : Nat) (f : Flight), (Inv s) ∧ (flightOf s d = some f) ∧ (f.qp < 1024) ∧ (f.heldAt = some c) ∧ (due = c + (holdLimit s f.tenant - f.heldFor)) ∧ (steppedDown s = false) ∧ ((f.forToll = true → arrivalWins due (releasesFrom f.tenant) s = false)) ∧ (dOpcode f.desc = 1) ∧ (aDeadline f.desc ≠ 0) ∧ (f.readAt + usCycles (aDeadline f.desc) = due) :=
  ⟨flying { flight 1 with desc := descOf 1 + BitVec.ofNat _ (1000 * 2 ^ 400), heldAt := some 0 } base, 1, 0, holdLimit base 5, { flight 1 with desc := descOf 1 + BitVec.ofNat _ (1000 * 2 ^ 400), heldAt := some 0 }, inv_ok (by decide +kernel), by decide +kernel⟩
theorem test_witness_cores_run_work_1 : ∃ (s : State) (c : Fin 20) (w : Work) (l : List Work), (Inv s) ∧ ((coreOf s c.val).work = none) ∧ ((coreOf s c.val).queue = w :: l) ∧ ((coreOf s c.val).st = .inService) ∧ ((w.compact = true ∨ swapWaits s w.ctx = false)) :=
  ⟨onCore (fun k => { k with queue := [work] }) base, 0, work, [], inv_ok (by decide +kernel), by decide +kernel⟩
theorem test_witness_cores_run_work_2 : ∃ (s : State) (c : Fin 20) (w : Work) (i : Nat) (g : Granule), (Inv s) ∧ ((coreOf s c.val).work = some w) ∧ (w.compact = false) ∧ ((outstanding w)[i]? = some g) :=
  ⟨onCore (fun k => { k with work := some { work with stage := [⟨false, 0, 0, 0, 64, false⟩] } }) base, 0, { work with stage := [⟨false, 0, 0, 0, 64, false⟩] }, 0, ⟨false, 0, 0, 0, 64, false⟩, inv_ok (by decide +kernel), by decide +kernel⟩
def gbW : Work := { work with compact := true, phase := .compact, issued := [tile], stage := [⟨false, 0, 0, 0, 64, false⟩, ⟨true, 0, 0, 64, 64, false⟩] }
def gbS : State := onCore (fun k => { k with work := some gbW }) base
def gcW : Work := { gbW with stage := [⟨false, 0, 0, 0, 64, false⟩] }
def gcS : State := onCore (fun k => { k with work := some gcW }) base
theorem test_witness_cores_run_work_3 : ∃ (s : State) (c : Fin 20) (w : Work) (v : Work) (i : Nat) (g : Granule) (f : Finding), (Inv s) ∧ ((coreOf s c.val).work = some w) ∧ (w.compact = true) ∧ ((outstanding w)[i]? = some g) ∧ ((coreOf (granuleBack c.val (coreOf s c.val) w i f s) c.val).work = some v) ∧ (nextIn v = none) ∧ (drained v = false) :=
  ⟨gbS, 0, gbW, (coreOf (granuleBack 0 (coreOf gbS 0) gbW 0 .clean gbS) 0).work.getD gbW, 0, ⟨false, 0, 0, 0, 64, false⟩, .clean, inv_ok (by decide +kernel), by decide +kernel⟩
theorem test_witness_cores_run_work_4 : ∃ (s : State) (c : Fin 20) (w : Work) (v : Work) (x : Tile) (i : Nat) (f : Finding), ((coreOf s c.val).work = some w) ∧ ((coreOf (granuleBack c.val (coreOf s c.val) w i f s) c.val).work = some v) ∧ (v.compact = true) ∧ (v.fresh = none) ∧ (nextIn v = some x) :=
  ⟨gcS, 0, gcW, (coreOf (granuleBack 0 (coreOf gcS 0) gcW 0 .clean gcS) 0).work.getD gcW, tile, 0, .clean, by decide +kernel⟩
theorem test_witness_cores_run_work_5 : ∃ (s : State) (c : Fin 20) (w : Work) (f : Flight), (Inv s) ∧ ((coreOf s c.val).work = some w) ∧ (w.phase = .summary) ∧ (drained w = true) ∧ (w.thrWas = []) ∧ (flightOf s w.desc = some f) :=
  ⟨onCore (fun k => { k with work := some { work with phase := .summary } }) (flying (flight 1) base), 0, { work with phase := .summary }, flight 1, inv_ok (by decide +kernel), by decide +kernel⟩
theorem test_witness_cores_run_work_6 : ∃ (s : State) (c : Fin 20) (w : Work) (f : Flight), (Inv s) ∧ ((coreOf s c.val).work = some w) ∧ (w.phase = .summary) ∧ (drained w = true) ∧ (w.thrWas ≠ []) ∧ (flightOf s w.desc = some f) :=
  ⟨onCore (fun k => { k with work := some { work with phase := .summary, thrWas := [8] } }) (flying (flight 1) base), 0, { work with phase := .summary, thrWas := [8] }, flight 1, inv_ok (by decide +kernel), by decide +kernel⟩
theorem test_witness_partials_become_output_1 : ∃ (s : State) (die : Fin 2) (d : Nat) (f : Flight) (p : Nat × List Row) (rows : List Row), (Tbl.Rising f.merged) ∧ (Tbl.Rising f.due) ∧ (flightOf s d = some f) ∧ (f.parts.find? (fun p => p.1 == die.val) = some p) ∧ (mergeRows (tget [] f.merged die.val) p.2 = (rows, none)) ∧ ((tget 0 f.due die.val ≠ 1 ∨ die.val = (ctxOf s (dCtx f.desc)).home)) ∧ (0 < tget 0 f.due die.val) :=
  ⟨flying { flight 1 with parts := [(0, [row])], due := [(0, 1)] } base, 0, 1, { flight 1 with parts := [(0, [row])], due := [(0, 1)] }, (0, [row]), [row], rises_ok (by decide +kernel), rises_ok (by decide +kernel), by decide +kernel⟩
theorem test_witness_partials_become_output_2 : ∃ (s : State) (die : Fin 2) (d : Nat) (f : Flight) (p : Nat × List Row) (rows : List Row), (flightOf s d = some f) ∧ (f.parts.find? (fun p => p.1 == die.val) = some p) ∧ (tget 0 f.due die.val = 1) ∧ (mergeRows (tget [] f.merged die.val) p.2 = (rows, none)) ∧ (die.val ≠ (ctxOf s (dCtx f.desc)).home) :=
  ⟨flying { flight 1 with parts := [(1, [row])], due := [(1, 1)] } base, 1, 1, { flight 1 with parts := [(1, [row])], due := [(1, 1)] }, (1, [row]), [row], by decide +kernel⟩
def ovf : Row := { row with l := { m := 3, e := 126 } }
def pushD : Desc := atD + BitVec.ofNat _ (2 ^ 255)
def pushF : Flight := { flight 1 with desc := pushD, stage := .running, merged := [(0, [row])] }
theorem test_witness_partials_become_output_3 : ∃ (s : State) (die : Fin 2) (d : Nat) (r : Nat) (f : Flight) (p : Nat × List Row) (rows : List Row), (Inv s) ∧ (flightOf s d = some f) ∧ (f.qp < 1024) ∧ (dOpcode f.desc = 1) ∧ (f.parts.find? (fun p => p.1 == die.val) = some p) ∧ (mergeRows (tget [] f.merged die.val) p.2 = (rows, some r)) ∧ (f.left = []) ∧ (f.members = []) ∧ (f.codes = []) ∧ (steppedDown s = false) :=
  ⟨flying { flight 1 with parts := [(0, [ovf])], merged := [(0, [ovf])] } base, 0, 1, 0, { flight 1 with parts := [(0, [ovf])], merged := [(0, [ovf])] }, (0, [ovf]), (mergeRows [ovf] [ovf]).1, inv_ok (by decide +kernel), by decide +kernel⟩
def outF : Flight := { pushF with desc := atD }
def outS : State := flying outF base
def outW : Bool × State := blockWait 0 9 (aOut atD) (outBytes atD (ctxOf outS 3)) true (setFlight { outF with stage := .output } outS)
def outT : BRes × State := translateBlock 0 9 (aOut atD) (outBytes atD (ctxOf outS 3)) true outW.2
def outP : List (Nat × Nat) := match outT.1 with | .ok ps => ps | _ => []
def outN : Bool × State := cacheWait ((flightOf outT.2 1).getD { outF with stage := .output }) outP outT.2
def outC : State := (cacheReady outP true outN.2).getD outN.2
def outX : Nat × State := writePieces 9 outP (ownBytes outC outP (outBlock atD [row])) outC
theorem test_witness_partials_become_output_4 : ∃ (s : State) (d : Nat) (n : Nat) (f : Flight), (flightOf s d = some f) ∧ (f.stage = .running) ∧ (f.qp < 1024) ∧ (dOpcode f.desc = 1) ∧ (allMerged f = true) ∧ (f.members = []) ∧ (tget [] f.merged (ctxOf s (dCtx f.desc)).home ≠ []) ∧ (aPush f.desc = true) ∧ (linkUp s (qpOf s f.qp).bindPort = true) ∧ (n = (chunksOf 4096 ((outBlock f.desc (tget [] f.merged (ctxOf s (dCtx f.desc)).home)).length + 1) (outBlock f.desc (tget [] f.merged (ctxOf s (dCtx f.desc)).home))).length) ∧ (0 < n) :=
  ⟨flying pushF (linked [0] base), 1, 1, pushF, by decide +kernel⟩
theorem test_witness_partials_become_output_5 : ∃ (s : State) (s1 : State) (s2 : State) (s2' : State) (s3 : State) (s4 : State) (d : Nat) (f : Flight) (ps : List (Nat × Nat)), (Tbl.Rising s4.led.qps) ∧ (flightOf s d = some f) ∧ (f.stage = .running) ∧ (f.qp < 1024) ∧ (dOpcode f.desc = 1) ∧ (allMerged f = true) ∧ (f.members = []) ∧ (tget [] f.merged (ctxOf s (dCtx f.desc)).home ≠ []) ∧ (aPush f.desc = false) ∧ (blockWait (flightDie f) (dPasid f.desc) (aOut f.desc) (outBytes f.desc (ctxOf s (dCtx f.desc))) true (setFlight { f with stage := .output } s) = (false, s1)) ∧ (translateBlock (flightDie f) (dPasid f.desc) (aOut f.desc) (outBytes f.desc (ctxOf s (dCtx f.desc))) true s1 = (.ok ps, s2)) ∧ ((∀ p ∈ ps, p.1 / 2 ^ 52 = ownIndex s2)) ∧ (cacheWait ((flightOf s2 d).getD { f with stage := .output }) ps s2 = (false, s2')) ∧ (cacheReady ps true s2' = some s3) ∧ (writePieces (dPasid f.desc) ps (ownBytes s3 ps (outBlock f.desc (tget [] f.merged (ctxOf s (dCtx f.desc)).home))) s3 = (0, s4)) ∧ (ownIndex (tenantCount f.tenant 2 (t1Bytes ps) s4) = ownIndex s2) ∧ ((flightOf s4 d).isSome) ∧ (steppedDown s4 = false) ∧ (aMode f.desc = 0) :=
  ⟨outS, outW.2, outT.2, outN.2, outC, outX.2, 1, outF, outP, rises_ok (by decide +kernel), by decide +kernel⟩
theorem test_witness_partials_become_output_6 : ∃ (s : State) (d : Nat) (f : Flight), (flightOf s d = some f) ∧ (f.qp ≥ 1024) ∧ (f.stage = .running) ∧ (dOpcode f.desc = 1) ∧ (allMerged f = true) ∧ (tget [] f.merged (ctxOf s (dCtx f.desc)).home ≠ []) :=
  ⟨flying { outF with qp := 1024 } base, 1, { outF with qp := 1024 }, by decide +kernel⟩
theorem test_witness_partials_become_output_7 : ∃ (s : State) (p : Fin 8) (m : KafMsg) (f : Flight), (Inv s) ∧ ((s.attn.flights.find? fun f => f.stage == .pushing && f.id % 2 ^ 15 == m.tag && (qpOf s f.qp).bindPort == p.val) = some f) ∧ (flightOf s f.id = some f) ∧ (f.qp < 1024) ∧ ((m.code = 0 ∨ m.code = 0x10)) ∧ (f.acks ≤ 1) ∧ (steppedDown s = false) :=
  ⟨flying { outF with stage := .pushing, acks := 1 } base, 0, { kafOf 0x20 with tag := 1, code := 0x10 }, { outF with stage := .pushing, acks := 1 }, inv_ok (by decide +kernel), by decide +kernel⟩
theorem test_witness_cores_are_fenced_1 : ∃ (s : State) (c : Fin 20), (Inv s) ∧ ((coreOf s c.val).st = .inService) ∧ ((coreOf s c.val).work = none) ∧ ((coreOf s c.val).checkDue = true) ∧ (s.clk.winOpen = true) :=
  ⟨clocked (fun c => { c with winOpen := true }) (onCore (fun k => { k with checkDue := true }) base), 0, inv_ok (by decide +kernel), by decide +kernel⟩
theorem test_witness_cores_are_fenced_2 : ∃ (s : State) (c : Fin 20), (Inv s) ∧ ((coreOf s c.val).st = .inService) ∧ ((coreOf s c.val).work = none) ∧ ((coreOf s c.val).checkDue = true) ∧ (s.clk.winOpen = true) :=
  ⟨clocked (fun c => { c with winOpen := true }) (onCore (fun k => { k with checkDue := true }) base), 0, inv_ok (by decide +kernel), by decide +kernel⟩
theorem test_witness_cores_are_fenced_3 : ∃ (s : State) (c : Fin 20) (w : Work), (Inv s) ∧ ((coreOf s c.val).st = .inService) ∧ ((coreOf s c.val).work = some w) ∧ (waiting w = false) ∧ (arrivalWins (w.tick + usCycles (obj s 0x9001 6)) (endsTile c) s = false) :=
  ⟨onCore (fun k => { k with work := some work }) base, 0, work, inv_ok (by decide +kernel), by decide +kernel⟩
theorem test_witness_cores_are_fenced_4 : ∃ (s : State) (c : Fin 20) (w : Work), ((coreOf s c.val).st = .inService) ∧ ((coreOf s c.val).work = some w) ∧ (waiting w = true) :=
  ⟨setCore 19 { work := some { work with toIssue := [tile] } } base, 19, { work with toIssue := [tile] }, by decide +kernel⟩
theorem test_witness_cores_are_fenced_5 : ∃ (s : State) (c : Fin 20) (w : Work), ((coreOf s c.val).st = .inService) ∧ ((coreOf s c.val).work = some w) ∧ (waiting w = false) ∧ (arrivalWins (w.tick + usCycles (obj s 0x9001 6)) (endsTile c) s = true) :=
  ⟨{ onCore (fun k => { k with work := some work }) base with pending := [.t1GranuleReady 0 0 .clean] }, 0, work, by decide +kernel⟩
theorem test_witness_cores_are_fenced_6 : ∃ (s : State) (c : Fin 20), (Inv s) ∧ ((coreOf s c.val).st = .inService) :=
  ⟨base, 19, inv_ok (by decide +kernel), by decide +kernel⟩
theorem test_witness_fenced_cores_return_1 : ∃ (s : State) (c : Fin 20), (Inv s) ∧ ((coreOf s c.val).st = .fencing) :=
  ⟨onCore (fun k => { k with st := .fencing }) base, 0, inv_ok (by decide +kernel), by decide +kernel⟩
theorem test_witness_fenced_cores_return_2 : ∃ (s : State) (p : Prin) (v : BitVec 8), (Inv s) ∧ (v.toNat < 20) ∧ ((coreOf s v.toNat).st = .fenced) ∧ ((coreOf s v.toNat).reason ≠ 5) ∧ (mayTouch p 0x9001 2 = true) ∧ (answering s = true) :=
  ⟨setCore 19 { st := .fenced, reason := 6 } base, .s, 19, inv_ok (by decide +kernel), by decide +kernel⟩
theorem test_witness_fenced_cores_return_3 : ∃ (s : State) (c : Fin 20), (Inv s) ∧ ((coreOf s c.val).st = .testing) ∧ ((coreOf s c.val).entering = false) :=
  ⟨onCore (fun k => { k with st := .testing }) base, 0, inv_ok (by decide +kernel), by decide +kernel⟩
theorem test_witness_fenced_cores_return_4 : ∃ (s : State) (c : Fin 20), (Inv s) ∧ ((coreOf s c.val).st = .testing) ∧ ((coreOf s c.val).entering = false) :=
  ⟨onCore (fun k => { k with st := .testing }) base, 0, inv_ok (by decide +kernel), by decide +kernel⟩
theorem test_witness_contexts_open_and_close_1 : ∃ (s : State), (s.win.ctxBusy = false) ∧ (s.span.twin ≠ .lead) ∧ (s.span.twin ≠ .follow) ∧ (openStatus s (ctxOf s s.win.ctxSel) = 0) :=
  ⟨onCtx (fun c => { c with st := .free }) base, by decide +kernel⟩
theorem test_witness_contexts_open_and_close_2 : ∃ (s : State), (s.win.ctxBusy = false) ∧ (s.span.twin ≠ .lead) ∧ (s.span.twin ≠ .follow) ∧ (openStatus s (ctxOf s s.win.ctxSel) ≠ 0) :=
  ⟨base, by decide +kernel⟩
theorem test_witness_contexts_open_and_close_3 : ∃ (s : State), (s.win.ctxBusy = true) :=
  ⟨{ base with win := { base.win with ctxBusy := true } }, by decide +kernel⟩
theorem test_witness_contexts_open_and_close_5 : ∃ (s : State) (c : Nat) (n : Nat), (s.kv.opening = some (c, n)) ∧ ((tenantOf s (ctxOf s c).tenant).st ≠ .active) :=
  ⟨(onCtx (fun c => { c with st := .free, tenant := 6 }) base).setKv fun k => { k with opening := some (3, 0) }, 3, 0, by decide +kernel⟩
theorem test_witness_contexts_open_and_close_6 : ∃ (s : State), (Inv s) ∧ (s.win.ctxBusy = false) ∧ (s.span.twin ≠ .lead) ∧ (s.span.twin ≠ .follow) ∧ ((ctxOf s s.win.ctxSel).st = .open) :=
  ⟨base, inv_ok (by decide +kernel), by decide +kernel⟩
theorem test_witness_contexts_open_and_close_7 : ∃ (s : State) (c : Fin 4096), (Inv s) ∧ ((ctxOf s c.val).st = .closing) ∧ (ctxBusy s c.val = false) :=
  ⟨onCtx (fun c => { c with st := .closing }) base, 3, inv_ok (by decide +kernel), by decide +kernel⟩
theorem test_witness_contexts_open_and_close_8 : ∃ (s : State), (s.win.ctxBusy = false) ∧ (s.span.twin = .lead) ∧ (openStatus s (ctxOf s s.win.ctxSel) = 0) :=
  ⟨twinned .lead (onCtx (fun c => { c with st := .free }) base), by decide +kernel⟩
theorem test_witness_contexts_open_and_close_9 : ∃ (s : State) (w : Win) (v : BitVec 64) (q : Nat), (Inv s) ∧ (winQp s w = some q) ∧ ((ctxOf s (hintCtx v)).st = .open) ∧ ((ctxOf s (hintCtx v)).tenant = (qpOf s q).tenant) ∧ (hintReserved v = false) ∧ (hintKind v ≠ 3) ∧ (hintFirst v + hintPages v ≤ 262143) :=
  ⟨base, .steward, BitVec.ofNat 64 (3 * 2 ^ 16 + 262143 * 2 ^ 28), 7, inv_ok (by decide +kernel), by decide +kernel⟩
theorem test_witness_frames_move_1 : ∃ (s : State) (i : Nat) (d : Drain), (s.kv.drains[i]? = some d) ∧ ((∀ h ∈ d.holders, flightOf s h = none)) :=
  ⟨base.setKv fun k => { k with drains := [⟨1, 0, 4096, [1]⟩] }, 0, ⟨1, 0, 4096, [1]⟩, by decide +kernel⟩
theorem test_witness_frames_move_2 : ∃ (s : State) (c : Fin 20) (w : Work) (x : Tile), ((coreOf s c.val).work = some w) ∧ ((w.toIssue.find? fun t => !isDraft t) = some x) ∧ (w.phase ≠ .summary) ∧ (entryAt s w x = none) :=
  ⟨onCore (fun k => { k with work := some { work with toIssue := [tile] } }) base, 0, { work with toIssue := [tile] }, tile, by decide +kernel⟩
theorem test_witness_frames_move_3 : ∃ (s : State) (x : Tile), (isDraft x = false) ∧ ((frameOf s x.frame).bind (·.t1) = none) :=
  ⟨base, { tile with frame := 2 }, by decide +kernel⟩
def coldV : Frame := { tenant := 5, size := 4096, count := 1, refd := false, t1 := none, t2 := some 0x100000000, t3 := none, lost2 := false, lost3 := false, revoked := false, epoch := 0 }
theorem test_witness_frames_move_4 : ∃ (s : State) (u : State) (id : Nat) (f : Finding) (m : Move) (v : Frame), (u = noteCopy 0x40 v v.size (meet (topCopy v).2 f s)) ∧ (s.kv.moves.find? (fun m => m.id == id && m.started) = some m) ∧ (frameOf s m.frame = some v) ∧ ((if (topCopy v).1 = 1 then readCode u (topCopy v).2 v.size else (copyCode u v v.size).1) = 0) :=
  ⟨moving move (setFrame 1 coldV base), noteCopy 0x40 coldV 4096 (meet (topCopy coldV).2 .clean (moving move (setFrame 1 coldV base))), 1, .clean, move, coldV, rfl, by decide +kernel⟩
theorem test_witness_frames_move_5 : ∃ (s : State) (m : Move) (v : Frame), (m.up = true) ∧ (m.target = 1) ∧ (moveIdle m v s = false) :=
  ⟨base, move, coldV, by decide +kernel⟩
theorem test_witness_frames_move_6 : ∃ (s : State) (t : Fin 64), (kvFree s t.val * 100 < obj s 0x4300 1 * kvBytes s t.val) :=
  ⟨base.setKv fun k => { k with slabs := [(0, ⟨5, 2 ^ 30, [0]⟩)] }, 5, by decide +kernel⟩
theorem test_witness_frames_move_7 : ∃ (s : State) (t : Fin 64), (obj s 0x4300 1 * kvBytes s t.val ≤ kvFree s t.val * 100) :=
  ⟨base, 5, by decide +kernel⟩
theorem test_witness_frames_move_8 : ∃ (s : State) (n : Fin 64) (m : Move) (l : List Move), (((readyMoves s).filter fun m => !m.up && m.target == 3) = m :: l) ∧ (nsBudget s n.val ≠ 0) ∧ ((((frameOf s m.frame).map (·.size)).getD 4096) * 7200000000000 ≤ nsDepth s n.val) ∧ ((tget ({} : Tray) s.kv.nss n.val).tokensAt ≤ s.time.cycle) :=
  ⟨moving { move with up := false, target := 3, started := false } (setObj 0x4211 1 1 base), 0, { move with up := false, target := 3, started := false }, [], by decide +kernel⟩
theorem test_witness_trays_and_blocks_1 : ∃ (s : State) (b : Nat), (blockWaiters b s = []) ∧ (blockFlights b (nvmeDrop (fun c => c.block == some b) s) = []) :=
  ⟨base, 0, by decide +kernel⟩
def cacheS : State := setObj 0x4300 8 1 ((asking { req with stage := .cache, pieces := [(0x8000000000000, 64)] } base).setLed fun l => { l with exts := l.exts ++ [(2, { st := .granted, kind := 8, owner := 0xFE })] })
theorem test_witness_trays_and_blocks_2 : ∃ (s : State) (u : State) (v : State) (b : Nat), (v = nvmeDrop (fun c => c.block == some b) s) ∧ ((blockWaiters b s ≠ [] ∨ blockFlights b v ≠ [])) ∧ (cachePlace v (cacheOf s (b * 65536)) b = none) ∧ (cacheFill (cacheOf s (b * 65536)) b v = some u) :=
  ⟨cacheS, (cacheFill (cacheOf cacheS (0x800000000 * 65536)) 0x800000000 (nvmeDrop (fun c => c.block == some 0x800000000) cacheS)).getD cacheS, nvmeDrop (fun c => c.block == some 0x800000000) cacheS, 0x800000000, rfl, by decide +kernel⟩
theorem test_witness_trays_and_blocks_3 : ∃ (s : State) (p : Prin) (t3 : Bool) (n : Fin 64) (rec : List Byte), (Tbl.Rising (if t3 then s.kv.nss else s.kv.trays)) ∧ (answering s = true) ∧ (mayTouch p (if t3 then 0x4210 else 0x4200) (n.val + 1) = true) ∧ (rec.length = 16) ∧ ((trayRec t3 rec).2 = 1) ∧ ((tget ({} : Tray) (if t3 then s.kv.nss else s.kv.trays) n.val).active = false) ∧ (trayFits s t3 n.val (trayRec t3 rec).1 = true) :=
  ⟨base, .s, false, 0, [1, 0, 0, 0, 1, 0, 0, 0, 0, 0, 0, 0, 0, 0, 0, 0], rises_ok (by decide +kernel), by decide +kernel⟩
theorem test_witness_trays_and_blocks_4 : ∃ (s : State) (t3 : Bool) (n : Fin 64), (Tbl.Rising (if t3 then s.kv.nss else s.kv.trays)) ∧ ((tget ({} : Tray) (if t3 then s.kv.nss else s.kv.trays) n.val).active = true) :=
  ⟨base.setKv (fun k => { k with trays := [(63, { active := true })] }), false, 63, rises_ok (by decide +kernel), by decide +kernel⟩
def coD : Desc := descOf 9 + BitVec.ofNat _ (63 * 2 ^ 160 + 4 * 2 ^ 216)
def coF : Flight := { flight 9 with desc := coD }
theorem test_witness_stripes_get_work_2 : ∃ (s : State) (d : Nat) (f : Flight), (Inv s) ∧ ((∃ lp v, lp ∈ rangePages s f.desc ∧ pageOf s (dCtx f.desc) lp.1 lp.2 = some v ∧ compactTakes s f.desc v = true)) ∧ (dispatchable s d 9 = some f) ∧ (ctxGone s f = none) ∧ (spanMask s (dCtx f.desc) = 0) ∧ (stripeCores s (ctxOf s (dCtx f.desc)) ≠ []) ∧ (placesFree s (stripeCores s (ctxOf s (dCtx f.desc))) = true) :=
  ⟨flying coF (onCtx (fun c => { c with length := 64 }) (setPage 3 0 0 ⟨0, 0, false, 1⟩ base)), 1, { coF with passed := true }, inv_ok (by decide +kernel), ⟨(0, 0), ⟨0, 0, false, 1⟩, by decide +kernel, by decide +kernel, by decide +kernel⟩, by decide +kernel⟩
theorem test_witness_deadlines_and_holds_end_5 : ∃ (s : State) (q : Fin 1024) (c : Nat), (Inv s) ∧ ((qpOf s q.val).starved = true) ∧ ((qpOf s q.val).starvedAt = some c) :=
  ⟨onQp (fun p => { p with starved := true, starvedAt := some 0 }) base, 7, 0, inv_ok (by decide +kernel), by decide +kernel⟩
theorem test_witness_deadlines_and_holds_end_6 : ∃ (s : State) (d : Nat) (r : Req), (flightOf s d = none) ∧ (reqOf s d = some r) ∧ (r.stage = .tolled) ∧ (r.tenant < 64) ∧ ((r.src < 0x10 ∨ 0x14 ≤ r.src)) ∧ (arrivalWins (r.since + holdLimit s r.tenant) (fun i => r.tolls.all fun k => releasesFrom k i) s = false) :=
  ⟨asking req base, 1, req, by decide +kernel⟩
theorem test_witness_cores_run_work_7 : ∃ (s : State) (c : Fin 20) (w : Work) (f : Flight), (Inv s) ∧ ((coreOf s c.val).work = some w) ∧ (w.phase = .stream) ∧ (w.compact = false) ∧ (drained w = true) ∧ (w.fresh = none) ∧ (flightOf s w.desc = some f) :=
  ⟨onCore (fun k => { k with work := some work }) (flying (flight 1) base), 0, work, flight 1, inv_ok (by decide +kernel), by decide +kernel⟩
theorem test_witness_cores_run_work_8 : ∃ (s : State) (c : Fin 20) (w : Work), (Inv s) ∧ ((coreOf s c.val).work = some w) ∧ (w.compact = true) ∧ (drained w = true) ∧ (w.fresh = none) :=
  ⟨onCore (fun k => { k with work := some { work with compact := true, phase := .compact } }) (flying (flight 9) base), 0, { work with compact := true, phase := .compact }, inv_ok (by decide +kernel), by decide +kernel⟩
theorem test_witness_partials_become_output_8 : ∃ (s : State) (p : Fin 8) (m : KafMsg) (f : Flight), (Inv s) ∧ ((s.attn.flights.find? fun f => f.stage == .pushing && f.id % 2 ^ 15 == m.tag && (qpOf s f.qp).bindPort == p.val) = some f) ∧ (flightOf s f.id = some f) ∧ (f.qp < 1024) ∧ (dOpcode f.desc = 1) ∧ (m.code ≠ 0) ∧ (m.code ≠ 0x10) ∧ (steppedDown s = false) :=
  ⟨flying { outF with stage := .pushing, acks := 1 } base, 0, { kafOf 0x20 with tag := 1, code := 0xFF }, { outF with stage := .pushing, acks := 1 }, inv_ok (by decide +kernel), by decide +kernel⟩
theorem test_witness_partials_become_output_9 : ∃ (s : State) (p : Fin 8) (m : KafMsg) (f : Flight), ((s.attn.flights.find? fun f => f.stage == .pushing && f.id % 2 ^ 15 == m.tag && (qpOf s f.qp).bindPort == p.val) = some f) ∧ ((m.code = 0 ∨ m.code = 0x10)) ∧ (1 < f.acks) :=
  ⟨flying { outF with stage := .pushing, acks := 2 } base, 0, { kafOf 0x20 with tag := 1 }, { outF with stage := .pushing, acks := 2 }, by decide +kernel⟩
theorem test_witness_cores_are_fenced_7 : ∃ (s : State), (Inv s) :=
  ⟨base, inv_ok (by decide +kernel)⟩
theorem test_witness_cores_are_fenced_8 : ∃ (s : State) (p : Prin) (v : BitVec 8), (Inv s) ∧ (v.toNat < 20) ∧ ((coreOf s v.toNat).st = .inService) ∧ (mayTouch p 0x9001 1 = true) ∧ (answering s = true) :=
  ⟨base, .s, 19, inv_ok (by decide +kernel), by decide +kernel⟩

theorem drawFrom_some {t size : Nat} {exts : List Nat} {s : State} (h : slabsWith s exts size ≠ []) :
    ∃ p a, p ∈ slabsWith s exts size ∧ drawFrom t exts size s = some (a, freeStep 2 (s.setKv fun k =>
      { k with slabs := tins k.slabs p.1 { tenant := t, size := size, used := a % slabBytes / max 1 size :: p.2.used } })) := by
  unfold drawFrom
  cases hp : slabsWith s exts size with
  | nil => exact absurd hp h
  | cons p ps =>
    dsimp only
    have hl : freeAt s 0 % (ps.length + 1) < (p :: ps).length := Nat.mod_lt _ (Nat.succ_pos _)
    generalize freeAt s 0 % (ps.length + 1) = i at hl
    rw [List.getD_eq_getElem?_getD, List.getElem?_eq_getElem hl, Option.getD_some]
    obtain ⟨q, hq⟩ : ∃ q, q = (p :: ps)[i] := ⟨_, rfl⟩
    have hm : q ∈ slabsWith s exts size := by rw [hp, hq]; exact List.getElem_mem hl
    have hf : slabFree s q.1 size q.2.used ≠ [] := by
      have := (List.mem_filter.mp hm).2
      simp only [Bool.and_eq_true, Bool.not_eq_true', List.isEmpty_eq_false_iff] at this
      exact this.2
    rw [← hq]
    have hl2 : freeAt s 1 % max 1 (slabFree s q.1 size q.2.used).length < (slabFree s q.1 size q.2.used).length := by
      have := List.length_pos_iff.mpr hf
      rw [Nat.max_eq_right this]; exact Nat.mod_lt _ this
    rw [List.getElem?_eq_getElem hl2]
    exact ⟨q, _, hp ▸ hm, rfl⟩

def opS : State :=
  (onCtx (fun c => { c with st := .free }) base).setKv fun k =>
    { k with opening := some (3, 0), slabs := [(0, ⟨5, 4096, []⟩), (1, ⟨5, 4096, []⟩)] }

theorem slabFree_kv (s : State) (k : Kv) (b n : Nat) (u : List Nat) : slabFree { s with kv := k } b n u = slabFree s b n u := rfl

theorem opS_draws : ∃ a b u, openDirs (ctxOf opS 3) (opS.setKv fun k => { k with opening := none }) = some (a, b, u) := by
  obtain ⟨o, ho⟩ : ∃ o, o = opS.setKv fun k => { k with opening := none } := ⟨_, rfl⟩
  have e : tierExts o 5 1 = [0] := by rw [ho]; decide +kernel
  have w : (slabsWith o [0] 4096).map (·.1) = [0, 1] := by rw [ho]; decide +kernel
  have n : slabsWith o [0] 4096 ≠ [] := fun h => by rw [h] at w; cases w
  obtain ⟨p, a, hp, h1⟩ := drawFrom_some (t := 5) n
  have hp1 : p.1 ∈ [0, 1] := w ▸ List.mem_map_of_mem hp
  have h0 : ∀ u : Slab, slabsWith { o with kv := { o.kv with slabs := tins o.kv.slabs 0 u } } [0] 4096 ≠ [] := by
    intro u h
    have : (1, (⟨5, 4096, []⟩ : Slab)) ∈ slabsWith { o with kv := { o.kv with slabs := tins o.kv.slabs 0 u } } [0] 4096 := by
      refine List.mem_filter.mpr ⟨?_, ?_⟩
      · rw [ho]; show _ ∈ [_, _]; exact List.mem_cons_of_mem _ (List.mem_singleton.mpr rfl)
      · rw [slabFree_kv, ho]; decide +kernel
    rw [h] at this; cases this
  have h2 : ∀ u : Slab, slabsWith { o with kv := { o.kv with slabs := tins o.kv.slabs 1 u } } [0] 4096 ≠ [] := by
    intro u h
    have : (0, (⟨5, 4096, []⟩ : Slab)) ∈ slabsWith { o with kv := { o.kv with slabs := tins o.kv.slabs 1 u } } [0] 4096 := by
      refine List.mem_filter.mpr ⟨?_, ?_⟩
      · rw [ho]; show _ ∈ [_, _]; exact List.mem_cons_self
      · rw [slabFree_kv, ho]; decide +kernel
    rw [h] at this; cases this
  obtain ⟨v, hv⟩ : ∃ v, v = freeStep 2 (o.setKv fun k =>
      { k with slabs := tins k.slabs p.1 { tenant := 5, size := 4096, used := a % slabBytes / max 1 4096 :: p.2.used } }) := ⟨_, rfl⟩
  have n2 : slabsWith v [0] 4096 ≠ [] := by
    have : p.1 = 0 ∨ p.1 = 1 := by simpa using hp1
    rw [hv]
    rcases this with h | h <;> rw [h]
    · exact h0 _
    · exact h2 _
  obtain ⟨q, b, -, h3⟩ := drawFrom_some (t := 5) n2
  have ev : tierExts v 5 1 = [0] := by rw [hv, ← e]; rfl
  have d1 : drawT1 5 4096 o = some (a, v) := by unfold drawT1; rw [e, hv]; exact h1
  have d2 := h3
  rw [← ev] at d2
  have ht : (ctxOf opS 3).tenant = 5 := by decide +kernel
  have hr : roundUp (8 * ctxLayers (ctxOf opS 3)) 4096 = 4096 := by decide +kernel
  rw [← ho]
  unfold openDirs
  rw [ht, hr, d1]
  simp only [Option.bind_eq_bind, Option.bind_some]
  unfold drawT1
  rw [d2]
  exact ⟨_, _, _, rfl⟩

theorem test_witness_contexts_open_and_close_4 : ∃ (s u : State) (c n a b : Nat), (Inv s) ∧ (s.kv.opening = some (c, n)) ∧
    ((tenantOf s (ctxOf s c).tenant).st = .active) ∧ (openDirs (ctxOf s c) (s.setKv fun k => { k with opening := none }) = some (a, b, u)) := by
  obtain ⟨a, b, u, h⟩ := opS_draws
  exact ⟨opS, u, 3, 0, a, b, inv_ok (by decide +kernel), by decide +kernel, by decide +kernel, h⟩
/-- What Unheld, Seen and LineFree ask, as Booleans. -/
def unheldB (s : State) (r : Req) : Bool :=
  live s && s.span.twin == .single && decide (r.src < 13 → sends s r.src = true)
    && (match r.agent with | none => true | some a => agentUp s a) && decide (∀ k ∈ reqTolls r, tollField s k 1 = 0)
    && decide (13 ≤ r.src → cxlQueueFull s = false) && (match srcGate r.src with | none => true | some g => gateOpen s g && s.coh.reqs.all fun q => q.stage != .gated)

theorem unheld_ok {s : State} {r : Req} (h : unheldB s r = true) : Unheld s r := by
  unfold unheldB at h
  simp only [Bool.and_eq_true, beq_iff_eq, decide_eq_true_eq] at h
  obtain ⟨⟨⟨⟨⟨⟨a, b⟩, v⟩, c⟩, d⟩, w⟩, e⟩ := h
  refine ⟨a, b, v, ?_, d, ?_, w⟩
  · intro x hx; rw [hx] at c; exact c
  · intro g hg
    rw [hg] at e
    simp only [Bool.and_eq_true, List.all_eq_true, bne_iff_ne] at e
    exact e

def seenB (s : State) (r : Req) (a : Nat) (u : State) : Bool :=
  unheldB s r && !portFails (counted r s) r && decide (placeReq r (counted r s) = (.at_ [(ownIndex u * 2 ^ 52 + a, r.len)], u))
    && decide (checkReq u r [(a, r.len)] = 0) && decide (a < 2 ^ 52) && decide (tierOf a ≠ 3)
    && s.coh.reqs.all fun q => decide (q.id < s.attn.nextId)

theorem seen_ok {s : State} {r : Req} {a : Nat} {u : State} (h : seenB s r a u = true) : Seen s r a u := by
  unfold seenB at h
  simp only [Bool.and_eq_true, Bool.not_eq_true', decide_eq_true_eq, List.all_eq_true] at h
  obtain ⟨⟨⟨⟨⟨⟨a, b⟩, c⟩, d⟩, e⟩, f⟩, g⟩ := h
  exact ⟨unheld_ok a, b, c, d, e, f, g⟩

def freeB (s : State) (line : Nat) : Bool :=
  s.coh.txns.isEmpty && s.coh.reqs.isEmpty && decide ((s.coh.dir.filter fun p => dirSet p.1 == dirSet line).length < 16) && rises s.coh.dir

theorem lineFree_ok {s : State} {line : Nat} (h : freeB s line = true) : LineFree s line := by
  unfold freeB at h
  simp only [Bool.and_eq_true, decide_eq_true_eq, List.isEmpty_iff] at h
  obtain ⟨⟨⟨a, b⟩, c⟩, d⟩ := h
  exact ⟨a, fun q hq => (by rw [b] at hq; cases hq), c, rises_ok d⟩

/-- With agents ACTIVE; with a controller IN_SERVICE; with extent 1 tracked; with a directory; with transactions. -/
def agented (as : List Nat) (s : State) : State := s.setCoh fun c => { c with agents := as.map fun a => (a, 1) }
def serving (c : Nat) (s : State) : State := { s with hbm := { s.hbm with ctl := [(c, { st := .inService })] } }
def extOne (f : Extent → Extent) (s : State) : State := s.setLed fun l => { l with exts := tput {} l.exts 1 (f (extOf s 1)) }
def tracked (s : State) : State := extOne (fun e => { e with mode := 1 }) s
def held (d : Tbl Dir) (s : State) : State := s.setCoh fun c => { c with dir := d }
def open1 (t : Txn) (s : State) : State := s.setCoh fun c => { c with txns := [t] }

/-- A pier's message of PASID 9; the device with two piers, and with a CXL 3 port of PASID 9. -/
def pier (op : Nat) : KafMsg := { kafOf op with pasid := 9, tag := 1 }
def piers : State := agented [0, 1] (linked [0, 1] (tracked base))
def cxled : State := agented [8, 9] (setObj 0x2301 1 9 (setObj 0x5202 1 1 (setObj 0x5200 1 0x21000080 (tracked base))))
def txn : Txn := { newTxn (.req 1) [2 ^ 24] with id := 1, snoops := [⟨2 ^ 24, 0, snpInv, some 0⟩, ⟨2 ^ 24, 1, snpInv, some 0⟩] }

theorem test_witness_controllers_train_1 : ∃ (s : State) (i : Fin 5) (v : BitVec 64) (c : Nat), (Inv s) ∧ (c = tget 0 s.win.hbmSel i.val) ∧ (i ≠ 0) ∧ (c < 24) ∧ (c / 6 + 1 = i.val) ∧ ((ctlOf s c).patBusy = false) ∧ (fld v 63 63 = 1) :=
  ⟨serving 0 { base with win := { base.win with hbmSel := [(1, 5)] } }, 1, 2 ^ 63, 5, inv_ok (by decide +kernel), by decide +kernel⟩
theorem test_witness_controllers_train_2 : ∃ (s : State) (i : Fin 5) (c : Nat), (Inv s) ∧ (c = tget 0 s.win.hbmSel i.val) ∧ (i ≠ 0) ∧ (c < 24) ∧ (c / 6 + 1 = i.val) ∧ ((ctlOf s c).patBusy = true) :=
  ⟨{ base with win := { base.win with hbmSel := [(1, 5)] }, hbm := { base.hbm with ctl := [(5, { patBusy := true })] } }, 1, 5, inv_ok (by decide +kernel), by decide +kernel⟩
theorem test_witness_controllers_train_3 : ∃ (s : State) (c : Fin 24), (Inv s) ∧ ((ctlOf s c.val).patBusy = true) ∧ (bitsOf (ctlOf s c.val).patRun 59 58 ≠ 0) :=
  ⟨{ base with hbm := { base.hbm with ctl := [(23, { patBusy := true, patRun := 2 ^ 58 })] } }, 23, inv_ok (by decide +kernel), by decide +kernel⟩
theorem test_witness_controllers_train_4 : ∃ (s : State), (Inv s) :=
  ⟨base, inv_ok (by decide +kernel)⟩
theorem test_witness_controllers_train_5 : ∃ (s : State) (c : Nat), (Inv s) ∧ (c < 24) ∧ (s.hbm.groups = 0) ∧ (hbmServes (ctlOf s c) = true) ∧ (obj s 0x4010 2 < max (ctlOf s c).temp (ctlOf s c).trainTemp - min (ctlOf s c).temp (ctlOf s c).trainTemp) :=
  ⟨{ base with hbm := { base.hbm with ctl := [(23, { st := .inService, temp := 40, trainTemp := 0 })] } }, 23, inv_ok (by decide +kernel), by decide +kernel⟩
theorem test_witness_controllers_refresh_1 : ∃ (s : State) (c : Fin 24), (Inv s) ∧ (Tbl.Rising (ctlOf s c.val).postponed) ∧ (Tbl.Rising (ctlOf s c.val).swept) ∧ (Tbl.Rising (ctlOf s c.val).rows) ∧ (hbmServes (ctlOf s c.val) = true) :=
  ⟨serving 23 base, 23, inv_ok (by decide +kernel), rises_ok (by decide +kernel), rises_ok (by decide +kernel), rises_ok (by decide +kernel), by decide +kernel⟩
theorem test_witness_controllers_refresh_2 : ∃ (s : State) (c : Fin 24) (pc : Fin 64) (bank : Fin 64), (Inv s) ∧ (Tbl.Rising (ctlOf s c.val).postponed) ∧ (hbmServes (ctlOf s c.val) = true) ∧ (tget 0 (ctlOf s c.val).postponed (pc.val * 64 + bank.val) < 8) :=
  ⟨serving 23 base, 23, 63, 63, inv_ok (by decide +kernel), rises_ok (by decide +kernel), by decide +kernel⟩
theorem test_witness_controllers_refresh_3 : ∃ (s : State) (c : Fin 24) (pc : Fin 64) (bank : Fin 64) (row : Fin 16384) (e : RowCount), (Inv s) ∧ (Tbl.Rising (ctlOf s c.val).rows) ∧ (Tbl.Rising (ctlOf s c.val).credits) ∧ (hbmServes (ctlOf s c.val) = true) ∧ ((tget [] (ctlOf s c.val).rows (pc.val * 64 + bank.val)).find? (fun e => e.row == row.val && decide (obj s 0x4020 1 ≤ e.count)) = some e) :=
  ⟨{ base with hbm := { base.hbm with ctl := [(0, { st := .inService, rows := [(0, [⟨16383, 2 ^ 20, []⟩])] })] } }, 0, 0, 0, 16383, ⟨16383, 2 ^ 20, []⟩, inv_ok (by decide +kernel), rises_ok (by decide +kernel), rises_ok (by decide +kernel), by decide +kernel⟩
theorem test_witness_controllers_refresh_4 : ∃ (s : State), (Inv s) :=
  ⟨base, inv_ok (by decide +kernel)⟩
theorem test_witness_controllers_refresh_5 : ∃ (s : State) (c : Fin 24), (Inv s) ∧ (obj s 0x4030 1 ≠ 0) ∧ (hbmServes (ctlOf s c.val) = true) ∧ ((ctlOf s c.val).retraining = false) :=
  ⟨serving 0 (setObj 0x4030 1 1 base), 0, inv_ok (by decide +kernel), by decide +kernel⟩
theorem test_witness_controllers_refresh_6 : ∃ (s : State) (c : Fin 24), (Inv s) ∧ ((ctlOf s c.val).selfRefresh = true) :=
  ⟨{ base with hbm := { base.hbm with ctl := [(0, { st := .inService, selfRefresh := true })] } }, 0, inv_ok (by decide +kernel), by decide +kernel⟩
theorem test_witness_memory_is_scrubbed_and_retired_1 : ∃ (s : State) (c : Fin 24), (Inv s) ∧ (Tbl.Rising s.mem.patrol) ∧ (scrubs s c.val = true) ∧ (tget [] s.mem.scrubQ c.val = []) ∧ (tget 0 s.mem.patrol c.val + 1 < patrolLines) :=
  ⟨serving 0 { base with mem := { base.mem with patrol := [(0, 1073741822)] } }, 0, inv_ok (by decide +kernel), rises_ok (by decide +kernel), by decide +kernel⟩
theorem test_witness_memory_is_scrubbed_and_retired_2 : ∃ (s : State) (c : Fin 24), (Inv s) ∧ (Tbl.Rising s.mem.lines) ∧ (scrubs s c.val = true) ∧ (tget [] s.mem.scrubQ c.val = []) ∧ (tget 0 s.mem.patrol c.val + 1 < patrolLines) :=
  ⟨serving 0 base, 0, inv_ok (by decide +kernel), rises_ok (by decide +kernel), by decide +kernel⟩
theorem test_witness_memory_is_scrubbed_and_retired_3 : ∃ (s : State) (c : Fin 24) (x : Nat) (l : List Nat), (tget [] s.mem.scrubQ c.val = x :: l) ∧ (scrubs s c.val = true) :=
  ⟨serving 0 { base with mem := { base.mem with scrubQ := [(0, [7])] } }, 0, 7, [], by decide +kernel⟩
theorem test_witness_memory_is_scrubbed_and_retired_4 : ∃ (s : State) (v : BitVec 32), (answering s = true) ∧ ((s.mem.logWr + 2 ^ 32 - v.toNat) % 2 ^ 32 ≤ 4096) ∧ (s.mem.logGap = 0) :=
  ⟨{ base with mem := { base.mem with logWr := 4096 } }, 0, by decide +kernel⟩
theorem test_witness_memory_is_scrubbed_and_retired_5 : ∃ (s : State) (v : BitVec 32), (answering s = true) ∧ (4096 < (s.mem.logWr + 2 ^ 32 - v.toNat) % 2 ^ 32) :=
  ⟨{ base with mem := { base.mem with logWr := 4097 } }, 0, by decide +kernel⟩
theorem test_witness_memory_is_scrubbed_and_retired_6 : ∃ (s : State) (v : BitVec 64), (answering s = true) ∧ (v.toNat < 402653184) ∧ (v.toNat ∉ s.mem.retired) ∧ (s.mem.retired.length < 65536) :=
  ⟨base, 402653183, by decide +kernel⟩
theorem test_witness_memory_is_scrubbed_and_retired_7 : ∃ (s : State) (v : BitVec 32), (answering s = true) ∧ (bankCodeOk v.toNat = true) ∧ (v.toNat ∉ s.mem.retiredBanks) ∧ (s.mem.retiredBanks.length < 64) :=
  ⟨base, 0x2500003F, by decide +kernel⟩
theorem test_witness_memory_is_scrubbed_and_retired_8 : ∃ (s : State) (sub : BitVec 8) (v : Nat) (tier : Nat) (b : Nat) (n : Nat), (answering s = true) ∧ (1 ≤ sub.toNat) ∧ (sub.toNat ≤ 6) ∧ (tier = (sub.toNat + 1) / 2) ∧ (macUsed s tier = []) ∧ ((b, n) = (if sub.toNat % 2 = 1 then (v, (macRegion s tier).2) else ((macRegion s tier).1, v))) ∧ (macFits (macMark tier (macRegion s tier).1 (macRegion s tier).2 false s) tier b n = true) :=
  ⟨base, 1, 100, 1, 100, 0, by decide +kernel⟩
def reqA : Req := kafReq 0 (pier 0x10) .rs 64 piers
theorem test_witness_requests_are_answered_1 : ∃ (s : State) (i : Instr) (r : Req) (line : Nat) (a : Nat) (u : State) (p : Fin 13) (m : KafMsg) (c : Fin 4) (tag : Nat) (ad : BitVec 57) (mv : BitVec 2), (i ∈ [Instr.rdShared p m, .rdOwn p m, .upgrade p m, .cxlMemRd c tag ad mv, .cxlMemRdData c tag ad]) ∧ (Seen s r (line * 64) u) ∧ (LineFree s line) ∧ (askedBy s i = some r) ∧ (r.agent = some a) ∧ (r.cls = .rs ∨ r.cls = .ro ∨ r.cls = .up) ∧ (r.op ≠ 0x102) ∧ (cohMode s (line * 64) = 1) ∧ (dirOf s line = dirI) ∧ (memCode u (line * 64) 64 = 0) :=
  ⟨piers, .rdShared 0 (pier 0x10), reqA, 2 ^ 24, 0, (placeReq reqA (counted reqA piers)).2, 0, pier 0x10, 0, 1, 0, 0, by simp, seen_ok (by decide +kernel), lineFree_ok (by decide +kernel), by decide +kernel⟩
def reqB : Req := cxlReq 0 0x102 1 0 .up cxled
theorem test_witness_requests_are_answered_2 : ∃ (s : State) (i : Instr) (r : Req) (line : Nat) (a : Nat) (u : State) (c : Fin 4) (tag : Nat) (ad : BitVec 57) (mv : BitVec 2), (i ∈ [Instr.cxlMemInv c tag ad mv]) ∧ (Seen s r (line * 64) u) ∧ (LineFree s line) ∧ (askedBy s i = some r) ∧ (r.agent = some a) ∧ (r.cls = .up) ∧ (r.op = 0x102) ∧ (cohMode s (line * 64) = 1) ∧ (dirOf s line = dirI) :=
  ⟨cxled, .cxlMemInv 0 1 0 2, reqB, 2 ^ 24, 8, (placeReq reqB (counted reqB cxled)).2, 0, 1, 0, 2, by simp, seen_ok (by decide +kernel), lineFree_ok (by decide +kernel), by decide +kernel⟩
def reqC : Req := kafReq 0 (pier 0x15) .ec 64 piers
theorem test_witness_requests_are_answered_3 : ∃ (s : State) (i : Instr) (r : Req) (line : Nat) (a : Nat) (u : State) (p : Fin 13) (m : KafMsg) (c : Fin 4) (tag : Nat) (ad : BitVec 57) (mv : BitVec 2), (i ∈ [Instr.evictClean p m, .cxlMemInv c tag ad mv, .cxlMemClnEvct c tag ad]) ∧ (Seen s r (line * 64) u) ∧ (LineFree s line) ∧ (askedBy s i = some r) ∧ (r.agent = some a) ∧ (r.cls = .ec) ∧ (cohMode s (line * 64) = 1) :=
  ⟨piers, .evictClean 0 (pier 0x15), reqC, 2 ^ 24, 0, (placeReq reqC (counted reqC piers)).2, 0, pier 0x15, 0, 1, 0, 0, by simp, seen_ok (by decide +kernel), lineFree_ok (by decide +kernel), by decide +kernel⟩
def plain : State := agented [0, 1] (linked [0, 1] base)
def reqD : Req := kafReq 0 (pier 0x13) .ur 64 plain
theorem test_witness_requests_are_answered_4 : ∃ (s : State) (i : Instr) (r : Req) (x : Nat) (u : State) (p : Fin 13) (m : KafMsg) (c : Fin 4) (tag : Nat) (ad : BitVec 57) (mv : BitVec 2), (i ∈ [Instr.rdUncached p m, .blkRd p m, .cxlMemRd c tag ad mv]) ∧ (Seen s r x u) ∧ (askedBy s i = some r) ∧ (r.cls = .ur) ∧ (r.len ≠ 0) ∧ (cohMode s x = 0) ∧ (memCode u x r.len = 0) :=
  ⟨plain, .rdUncached 0 (pier 0x13), reqD, 2 ^ 30, (placeReq reqD (counted reqD plain)).2, 0, pier 0x13, 0, 1, 0, 0, by simp, seen_ok (by decide +kernel), by decide +kernel⟩
def msgE : KafMsg := { pier 0x14 with data := [1], mask := 1 }
def reqE : Req := kafReq 0 msgE .uw 1 plain
theorem test_witness_requests_are_answered_5 : ∃ (s : State) (i : Instr) (r : Req) (x : Nat) (u : State) (p : Fin 13) (m : KafMsg) (c : Fin 4) (tag : Nat) (ad : BitVec 57) (mask : BitVec 64) (data : List Byte) (poison : Bool), (i ∈ [Instr.wrUncached p m, .blkWr p m, .cxlMemWr c tag ad mask data poison]) ∧ (Seen s r x u) ∧ (askedBy s i = some r) ∧ (r.cls = .uw) ∧ (r.len = r.data.length) ∧ (cohMode s x = 0) ∧ (writeCode u r [(x, r.len)] = 0) :=
  ⟨plain, .wrUncached 0 msgE, reqE, 2 ^ 30, (placeReq reqE (counted reqE plain)).2, 0, msgE, 0, 1, 0, 0, [], false, by simp, seen_ok (by decide +kernel), by decide +kernel⟩
theorem test_witness_snoops_are_answered_1 : ∃ (s : State) (port : Fin 13) (m : KafMsg) (t : Txn) (q : Snoop) (q' : Snoop), (Tbl.Rising s.coh.dir) ∧ (port.val < 8) ∧ (agentUp s port.val = true) ∧ (sunk s = false) ∧ (m.op = 0x27 ∨ m.op = 0x2E) ∧ (s.coh.txns = [t]) ∧ (t.snoops = [q, q']) ∧ (q = { line := rspLine m, agent := port.val, op := snpInv, sent := q.sent }) ∧ (q.sent ≠ none) ∧ (q'.agent ≠ port.val) ∧ (t.why ≠ .recall true) :=
  ⟨open1 txn piers, 0, { kafOf 0x27 with addr := 2 ^ 30 }, txn, ⟨2 ^ 24, 0, snpInv, some 0⟩, ⟨2 ^ 24, 1, snpInv, some 0⟩, rises_ok (by decide +kernel), by decide +kernel⟩
def txnB : Txn := { txn with snoops := [⟨2 ^ 24, 8, snpInv, some 0⟩, ⟨2 ^ 24, 9, snpInv, some 0⟩] }
theorem test_witness_snoops_are_answered_2 : ∃ (s : State) (port : Fin 4) (a : BitVec 52) (t : Txn) (q : Snoop) (q' : Snoop), (Tbl.Rising s.coh.dir) ∧ (agentUp s (8 + port.val) = true) ∧ (s.coh.txns = [t]) ∧ (t.snoops = [q, q']) ∧ (q = { line := a.toNat / 64, agent := 8 + port.val, op := snpInv, sent := q.sent }) ∧ (q.sent ≠ none) ∧ (q'.agent ≠ 8 + port.val) ∧ (t.why ≠ .recall true) :=
  ⟨open1 txnB cxled, 0, 2 ^ 30, txnB, ⟨2 ^ 24, 8, snpInv, some 0⟩, ⟨2 ^ 24, 9, snpInv, some 0⟩, rises_ok (by decide +kernel), by decide +kernel⟩
theorem test_witness_snoops_are_answered_3 : ∃ (s : State) (port : Fin 4), (agentUp s (8 + port.val) = true) :=
  ⟨cxled, 0, by decide +kernel⟩
def txnC : Txn := { txn with snoops := [⟨2 ^ 24, 0, snpCopy, some 0⟩, ⟨2 ^ 24, 1, snpInv, some 0⟩] }
theorem test_witness_snoops_are_answered_4 : ∃ (s : State) (port : Fin 13) (m : KafMsg) (t : Txn) (q : Snoop) (q' : Snoop), (Tbl.Rising s.coh.dir) ∧ (port.val < 8) ∧ (agentUp s port.val = true) ∧ (m.op = 0x31) ∧ (s.coh.txns = [t]) ∧ (t.snoops = [q, q']) ∧ (q = { line := rspLine m, agent := port.val, op := snpCopy, sent := q.sent }) ∧ (q'.agent ≠ port.val) :=
  ⟨open1 txnC piers, 0, { kafOf 0x31 with addr := 2 ^ 30 }, txnC, ⟨2 ^ 24, 0, snpCopy, some 0⟩, ⟨2 ^ 24, 1, snpInv, some 0⟩, rises_ok (by decide +kernel), by decide +kernel⟩
def txnD : Txn := { txn with snoops := [⟨2 ^ 24, 0, snpInv, some 0⟩] }
theorem test_witness_snoops_are_answered_5 : ∃ (s : State) (port : Fin 13) (m : KafMsg) (t : Txn) (q : Snoop), (port.val < 8) ∧ (agentUp s port.val = true) ∧ (m.op = 0x32) ∧ (s.coh.txns = [t]) ∧ (t.snoops = [q]) ∧ (q.line = rspLine m) ∧ (q.agent = port.val) ∧ ((dirOf s (rspLine m)).keeper = port.val) ∧ ((dirOf s (rspLine m)).st = 3) :=
  ⟨open1 txnD (held [(2 ^ 24, ⟨3, 0, 1, 0⟩)] piers), 0, { kafOf 0x32 with addr := 2 ^ 30 }, txnD, ⟨2 ^ 24, 0, snpInv, some 0⟩, by decide +kernel⟩
def reqF : Req := { req with agent := some 1, tag := 1, stage := .opened }
theorem test_witness_snoops_are_answered_6 : ∃ (s : State) (port : Fin 13) (m : KafMsg) (t : Txn) (r : Req) (q : Snoop) (l : List Snoop), (port.val < 8) ∧ (agentUp s port.val = true) ∧ (m.op = 0x33) ∧ (s.coh.txns = [t]) ∧ (t.snoops = q :: l) ∧ (t.fwd = true) ∧ (t.ack = false) ∧ (t.why = .req r.id) ∧ (reqOf s r.id = some r) ∧ (r.agent = some port.val) ∧ (r.tag = m.tag) :=
  ⟨open1 { txnD with fwd := true } (asking reqF piers), 1, { kafOf 0x33 with tag := 1 }, { txnD with fwd := true }, reqF, ⟨2 ^ 24, 0, snpInv, some 0⟩, [], by decide +kernel⟩
theorem test_witness_snoops_are_answered_7 : ∃ (s : State) (port : Fin 13) (m : KafMsg) (t : Txn) (r : Req), (port.val < 8) ∧ (agentUp s port.val = true) ∧ (linkUp s port.val = true) ∧ (0x18 ≤ m.op) ∧ (m.op ≤ 0x1B) ∧ (s.coh.txns = [t]) ∧ (t.fwd = true) ∧ (t.got = false) ∧ (t.why = .req r.id) ∧ (reqOf s r.id = some r) ∧ (r.agent = some m.fwdAgent) ∧ (r.tag = m.fwdTag) ∧ (agentUp s m.fwdAgent = true) ∧ (sends s m.fwdAgent = true) :=
  ⟨open1 { txnD with fwd := true } (asking reqF piers), 0, { kafOf 0x1B with fwdTag := 1, fwdAgent := 1 }, { txnD with fwd := true }, reqF, by decide +kernel⟩
theorem test_witness_snoops_are_answered_8 : ∃ (s : State) (line : Nat) (r : Req), (locked s line = false) ∧ (lineNext line s = some r) ∧ (r.pieces ≠ []) :=
  ⟨asking { req with stage := .locked, lines := [2 ^ 24], pieces := [(2 ^ 30, 64)] } piers, 2 ^ 24, { req with stage := .locked, lines := [2 ^ 24], pieces := [(2 ^ 30, 64)] }, by decide +kernel⟩
def owned : State := held [(2 ^ 24, ⟨3, 0, 1, 0⟩)] piers
def reqG : Req := kafReq 0 (pier 0x16) .wb 64 owned
theorem test_witness_writebacks_and_answers_1 : ∃ (s : State) (port : Fin 13) (m : KafMsg) (r : Req) (line : Nat) (u : State), (Tbl.Rising s.coh.dir) ∧ (r = kafReq port.val m .wb 64 s) ∧ (port.val < 8) ∧ (m.op = 0x16) ∧ (sends s port.val = true) ∧ (agentUp s port.val = true) ∧ (live s = true) ∧ (s.span.twin = .single) ∧ (placeReq r (linkTally false port.val 96 (tookId s)) = (.at_ [(ownIndex u * 2 ^ 52 + line * 64, 64)], u)) ∧ (line * 64 < 2 ^ 52) ∧ (decoded u (line * 64) = true) ∧ (s.coh.txns = []) ∧ ((dirOf s line).keeper = port.val) ∧ ((dirOf s line).st = 3) ∧ ((extOf s (line / 2 ^ 24)).st ≠ .escrow) :=
  ⟨owned, 0, pier 0x16, reqG, 2 ^ 24, (placeReq reqG (linkTally false 0 96 (tookId owned))).2, rises_ok (by decide +kernel), by decide +kernel⟩
def ownedX : State := held [(2 ^ 24, ⟨3, 8, 256, 0⟩)] cxled
def reqH : Req := { cxlReq 0 0x104 1 0 .uw ownedX with cls := .wb, arg := 1, data := [1], poison := false }
theorem test_witness_writebacks_and_answers_2 : ∃ (s : State) (port : Fin 4) (tag : Nat) (a : BitVec 57) (mask : BitVec 64) (data : List Byte) (poison : Bool) (r : Req) (line : Nat) (u : State), (Tbl.Rising s.coh.dir) ∧ (r = { cxlReq port.val 0x104 tag a.toNat .uw s with cls := .wb, arg := mask.toNat, data := data.take 64, poison := poison }) ∧ (cxlOn s port.val = true) ∧ (cxl3 s port.val = true) ∧ (agentUp s (8 + port.val) = true) ∧ (steppedDown s = false) ∧ (placeReq r s = (.at_ [(ownIndex s * 2 ^ 52 + line * 64, 64)], u)) ∧ (line * 64 < 2 ^ 52) ∧ (s.coh.txns = []) ∧ ((dirOf s line).keeper = 8 + port.val) ∧ ((dirOf s line).st = 3) ∧ ((extOf s (line / 2 ^ 24)).st ≠ .escrow) :=
  ⟨ownedX, 0, 1, 0, 1, [1], false, reqH, 2 ^ 24, (placeReq reqH ownedX).2, rises_ok (by decide +kernel), by decide +kernel⟩
def routed : State := { linked [8, 9] base with dict := { base.dict with doms := [(0x8000 * 256 + 3, [0xFF, 0xFF, 0, 0xFF])] } }
theorem test_witness_writebacks_and_answers_3 : ∃ (s : State) (port : Fin 13) (m : KafMsg) (l : Nat), (8 ≤ port.val) ∧ (linkUp s port.val = true) ∧ (m.op = 0x13 ∨ m.op = 0x14 ∨ m.op = 0x40 ∨ m.op = 0x41) ∧ (m.addr / 2 ^ 52 ≠ ownIndex s) ∧ (routesTo s (m.addr / 2 ^ 52) = [l]) ∧ (l ≠ port.val) ∧ (sends s l = true) :=
  ⟨routed, 9, { kafOf 0x13 with addr := 2 ^ 52 }, 8, by decide +kernel⟩
theorem test_witness_writebacks_and_answers_4 : ∃ (s : State) (port : Fin 13) (m : KafMsg) (q : RemoteAsk) (f : Flight), (8 ≤ port.val) ∧ (linkUp s port.val = true) ∧ ((s.coh.asks.find? fun q => q.tag == m.tag && (routesTo s q.index).contains port.val) = some q) ∧ (q.flight = true) ∧ (q.write = false) ∧ (flightOf s q.who = some f) ∧ (m.op = 0x42) :=
  ⟨flying (flight 2) (routed.setCoh fun c => { c with asks := [⟨1, 1, 1, true, 0, 64, false, 0⟩] }), 8, { kafOf 0x42 with tag := 1 }, ⟨1, 1, 1, true, 0, 64, false, 0⟩, flight 2, by decide +kernel⟩
theorem test_witness_writebacks_and_answers_5 : ∃ (s : State) (id : Nat) (r : Req), (reqOf s id = some r) ∧ (r.stage = .remote) ∧ (relays s r = true) ∧ (r.dead = false) :=
  ⟨twinned .lead (asking { req with src := 0x10, stage := .remote } base), 1, { req with src := 0x10, stage := .remote }, by decide +kernel⟩
theorem test_witness_agents_fail_1 : ∃ (s : State) (a : Fin 12) (line : Nat) (c : Nat) (q : Snoop), (Tbl.Rising s.coh.agents) ∧ (((s.coh.txns.flatMap (·.snoops)).find? fun q => q.agent == a.val && q.line == line) = some q) ∧ (q.sent = some c) ∧ (tget 0 s.coh.agents a.val = 1) ∧ (arrivalWins (c + usCycles (obj s 0x2200 1)) (answersSnoop a.val line) s = false) :=
  ⟨open1 txn piers, 0, 2 ^ 24, 0, ⟨2 ^ 24, 0, snpInv, some 0⟩, rises_ok (by decide +kernel), by decide +kernel⟩
theorem test_witness_agents_fail_2 : ∃ (s : State) (a : Fin 12), (Tbl.Rising s.coh.agents) ∧ (tget 0 s.coh.agents a.val = 1) :=
  ⟨piers, 0, rises_ok (by decide +kernel), by decide +kernel⟩
theorem test_witness_agents_fail_3 : ∃ (s : State) (v : BitVec 8), (Tbl.Rising s.coh.agents) ∧ (answering s = true) ∧ (v.toNat < 12) ∧ (tget 0 s.coh.agents v.toNat = 1) :=
  ⟨agented [11] base, 11, rises_ok (by decide +kernel), by decide +kernel⟩
theorem test_witness_agents_fail_4 : ∃ (s : State) (v : BitVec 8), (answering s = true) ∧ (12 ≤ v.toNat) :=
  ⟨base, 12, by decide +kernel⟩
theorem test_witness_agents_fail_5 : ∃ (s : State) (a : Fin 12), (Tbl.Rising s.coh.agents) ∧ ((∀ t ∈ s.coh.txns, t.why ≠ .purge)) ∧ (tget 0 s.coh.agents a.val = 2 ∨ tget 0 s.coh.agents a.val = 4) :=
  ⟨base.setCoh fun c => { c with agents := [(11, 2)] }, 11, rises_ok (by decide +kernel), by decide +kernel⟩
theorem test_witness_agents_fail_6 : ∃ (s : State) (ext : Nat) (l : Nat) (a : Nat), ((extOf s ext).st = .escrow) ∧ ((extOf s ext).step = 3) ∧ (extInflight s ext = 0) ∧ (extLines s ext = [l]) ∧ (s.coh.txns = []) ∧ (holdersAt s l = [a]) ∧ (a < 8) ∧ (agentUp s a = true) :=
  ⟨held [(2 ^ 24, ⟨3, 0, 1, 0⟩)] (extOne (fun e => { e with st := .escrow, step := 3 }) piers), 1, 2 ^ 24, 0, by decide +kernel⟩
theorem test_witness_controllers_train_6 : ∃ (s : State), (Inv s) ∧ (s.hbm.groups ≠ 0) ∧ (s.clk.winOpen = true) :=
  ⟨clocked (fun c => { c with winOpen := true }) { base with hbm := { base.hbm with groups := 1 } }, inv_ok (by decide +kernel), by decide +kernel⟩
theorem test_witness_controllers_train_7 : ∃ (s : State) (p : Prin), (Inv s) ∧ (answering s = true) ∧ (mayTouch p 0x4010 1 = true) :=
  ⟨base, .s, inv_ok (by decide +kernel), by decide +kernel⟩
/-- With PASID 9 bound so and nothing cached; with a record in the fault queue; with an invalidation. -/
def walked (stall : Bool) (s : State) : State :=
  { s with xl := { s.xl with tlb0 := [] }, led := { s.led with binds := [(9, (5, 2 ^ 18, stall))] } }
def faultRec : FaultRec := { kind := 1, source := 20, pasid := 9, addr := 0, desc := 1, output := false, made := 0, due := true }
def queued (r : FaultRec) (s : State) : State := { s with xl := { s.xl with queue := [r] } }
def inval : Inval := { qp := some 7, pasid := 9, page := 0, pages := 1, whole := true, token := 0, unbind := false }

/-- With a Mint so, a responder so on MCTP, a message on a teller channel. -/
def minted (f : Mint → Mint) (s : State) : State := { s with mint := f s.mint }
def spoken (p : Nat) (v : Spdm) (s : State) : State := minted (fun m => { m with spdm := [(p, v)] }) s
def told (c : Nat) (m : TlMsg) (s : State) : State := { s with tel := { s.tel with chan := [(c, { msg := some m })] } }
def tlMsg (verb : Nat) (bs : List Byte) : TlMsg := { seq := 1, verb := verb, dest := 1, bytes := bs, at_ := 0 }

theorem test_witness_long_addresses_fault_1 : ∃ (s : State) (i : Instr) (r : Req), (Unheld s r) ∧ (askedBy s i = some r) ∧ (r.src < 8) ∧ (2 ^ 57 ≤ r.addr) :=
  ⟨plain, .rdUncached 0 { pier 0x13 with addr := 2 ^ 57 }, kafReq 0 { pier 0x13 with addr := 2 ^ 57 } .ur 64 plain, unheld_ok (by decide +kernel), by decide +kernel⟩
theorem test_witness_long_addresses_fault_2 : ∃ (s : State) (port : Fin 13) (m : KafMsg), (port.val < 8) ∧ (m.op = 0x16) ∧ (sends s port.val = true) ∧ (agentUp s port.val = true) ∧ (live s = true) ∧ (s.span.twin = .single) ∧ (2 ^ 57 ≤ m.addr) :=
  ⟨plain, 0, { pier 0x16 with addr := 2 ^ 57 }, by decide +kernel⟩
def pendS : State := (flying (flight 2) (walked true base)).setMem fun m => { m with bytes := [(2 ^ 30, 2)] }
theorem test_witness_pending_pages_stall_1 : ∃ (s : State) (d : Nat) (page : Nat) (va : Nat) (len : Nat) (wr : Bool) (f : Flight) (u : State), (flightOf s d = some f) ∧ (f.stage = .waiting) ∧ (flightBlock s f = (va, len, wr)) ∧ (translateBlock (flightDie f) (dPasid f.desc) va len wr s = (.pending [page], u)) ∧ (u.xl.queue.length < 512) ∧ (u.xl.holding = []) ∧ (pendingOf u f.id = []) :=
  ⟨pendS, 1, 0, 0, (flightBlock pendS (flight 2)).2.1, false, flight 2, (translateBlock 0 9 0 (flightBlock pendS (flight 2)).2.1 false pendS).2, by decide +kernel⟩
theorem test_witness_pending_pages_stall_2 : ∃ (s : State) (r : FaultRec), (s.xl.holding = [r]) ∧ (s.xl.queue.length < 512) :=
  ⟨{ base with xl := { base.xl with holding := [faultRec], queue := List.replicate 511 { faultRec with due := false } } }, faultRec, by decide +kernel⟩
def rewS : State := queued faultRec (flying { flight 2 with stage := .stalled } base)
def rewF : Flight := { flight 2 with stage := .stalled }
def rewT : BRes × State := translateUnits 0 9 false (unitsAt rewS rewF 0) rewS
theorem test_witness_pending_pages_stall_3 : ∃ (s : State) (i : Nat) (r : FaultRec) (f : Flight) (ps : List (Nat × Nat)) (u : State), (s.xl.queue[i]? = some r) ∧ (r.kind = 1) ∧ (r.due = true) ∧ ((∀ q ∈ s.xl.queue.take i, q.due = false)) ∧ (flightOf s r.desc = some f) ∧ (translateUnits (flightDie f) (dPasid f.desc) r.output (unitsAt s f (r.addr / 4096)) s = (.ok ps, u)) :=
  ⟨rewS, 0, faultRec, rewF, (match rewT.1 with | .ok ps => ps | _ => []), rewT.2, by decide +kernel⟩
theorem test_witness_pending_pages_stall_4 : ∃ (s : State) (i : Nat) (r : FaultRec) (f : Flight) (u : State), (Inv s) ∧ (steppedDown s = false) ∧ (s.xl.queue[i]? = some r) ∧ (r.kind = 1) ∧ (r.due = true) ∧ ((∀ q ∈ s.xl.queue.take i, q.due = false)) ∧ (flightOf s r.desc = some f) ∧ (f.qp < 1024) ∧ (translateUnits (flightDie f) (dPasid f.desc) r.output (unitsAt s f (r.addr / 4096)) s = (.fault, u)) :=
  ⟨walked false rewS, 0, faultRec, rewF, (translateUnits 0 9 false (unitsAt (walked false rewS) rewF 0) (walked false rewS)).2, inv_ok (by decide +kernel), by decide +kernel⟩
theorem test_witness_pending_pages_stall_5 : ∃ (s : State) (i : Nat) (r : FaultRec) (f : Flight), (Inv s) ∧ (steppedDown s = false) ∧ ((s.xl.queue ++ s.xl.holding)[i]? = some r) ∧ (r.kind = 1) ∧ (r.due = false) ∧ (flightOf s r.desc = some f) ∧ (f.qp < 1024) ∧ (arrivalWins (r.made + usCycles (obj s 0x2300 1)) (· == .invalidationComplete) s = false) :=
  ⟨queued { faultRec with due := false } (flying rewF base), 0, { faultRec with due := false }, rewF, inv_ok (by decide +kernel), by decide +kernel⟩
theorem test_witness_invalidations_and_bindings_1 : ∃ (s : State) (w : Win) (v : BitVec 64) (q : Nat), (Inv s) ∧ (winQp s w = some q) ∧ ((qpOf s q).invBusy = false) ∧ (pasidHeld s (fld v 51 32) (qpOf s q).tenant = true) ∧ (fld v 63 52 = 0) ∧ (fld v 11 8 = 0) ∧ (fld v 13 12 < 2) ∧ (bitsOf (qpOf s q).invAddr 63 57 = 0) ∧ (bitsOf (qpOf s q).invAddr 11 0 = 0) :=
  ⟨base, .steward, 9 * 2 ^ 32 + 2 ^ 12, 7, inv_ok (by decide +kernel), by decide +kernel⟩
theorem test_witness_invalidations_and_bindings_2 : ∃ (s : State) (w : Win) (v : BitVec 64) (q : Nat), (Inv s) ∧ (winQp s w = some q) ∧ ((qpOf s q).invBusy = false) ∧ (pasidHeld s (fld v 51 32) (qpOf s q).tenant = false) :=
  ⟨base, .steward, 10 * 2 ^ 32, 7, inv_ok (by decide +kernel), by decide +kernel⟩
theorem test_witness_invalidations_and_bindings_3 : ∃ (s : State) (w : Win) (q : Nat), (Inv s) ∧ (winQp s w = some q) ∧ ((qpOf s q).invBusy = true) :=
  ⟨onQp (fun p => { p with invBusy := true }) base, .steward, 7, inv_ok (by decide +kernel), by decide +kernel⟩
theorem test_witness_invalidations_and_bindings_4 : ∃ (s : State) (w : Win) (q : Nat), (Inv s) ∧ (winQp s w = some q) :=
  ⟨base, .steward, 7, inv_ok (by decide +kernel), by decide +kernel⟩
theorem test_witness_invalidations_and_bindings_5 : ∃ (s : State) (i : Inval) (l : List Inval), (s.xl.running = none) ∧ (s.xl.invs = i :: l) :=
  ⟨{ base with xl := { base.xl with invs := [inval] } }, inval, [], by decide +kernel⟩
theorem test_witness_invalidations_and_bindings_6 : ∃ (s : State) (i : Inval) (q : Nat), (Inv s) ∧ (s.xl.running = some i) ∧ (i.qp = some q) ∧ (i.unbind = false) ∧ ((∀ r ∈ s.coh.reqs, r.pieces = [] ∨ s.xl.gen ≤ r.gen)) ∧ ((∀ q ∈ s.coh.asks, s.xl.gen ≤ q.gen)) :=
  ⟨{ base with xl := { base.xl with running := some inval } }, inval, 7, inv_ok (by decide +kernel), by decide +kernel⟩
theorem test_witness_invalidations_and_bindings_7 : ∃ (s : State) (i : Inval), (s.xl.running = some i) ∧ (i.qp = none) ∧ (i.unbind = true) ∧ ((∀ r ∈ s.coh.reqs, r.pieces = [] ∨ s.xl.gen ≤ r.gen)) ∧ ((∀ q ∈ s.coh.asks, s.xl.gen ≤ q.gen)) :=
  ⟨{ base with xl := { base.xl with running := some { inval with qp := none, unbind := true } } }, { inval with qp := none, unbind := true }, by decide +kernel⟩
theorem test_witness_invalidations_and_bindings_8 : ∃ (s : State) (v : BitVec 128), (answering s = true) ∧ (s.span.twin = .single) ∧ (fld v 19 0 ≠ 0) ∧ (pasidOf s (fld v 19 0) = none) ∧ ((tenantOf s (fld v 107 102)).st = .active) ∧ (s.led.binds.length < 4096) :=
  ⟨base, BitVec.ofNat 128 (5 * 2 ^ 102 + 0xFFFFF), by decide +kernel⟩
theorem test_witness_invalidations_and_bindings_9 : ∃ (s : State) (v : BitVec 32) (b : Nat × Nat × Bool), (answering s = true) ∧ (s.span.twin = .single) ∧ (v.toNat ≠ 0) ∧ (pasidOf s v.toNat = some b) ∧ ((tenantOf s b.1).st ≠ .removing) ∧ ((∀ i ∈ s.xl.invs ++ s.xl.running.toList, i.unbind = false ∨ i.pasid ≠ v.toNat)) :=
  ⟨base, 9, (5, 0, false), by decide +kernel⟩
theorem test_witness_invalidations_and_bindings_10 : ∃ (s : State) (v : BitVec 32), (answering s = true) ∧ (s.span.twin = .single) ∧ (0xFFFFF < v.toNat) :=
  ⟨base, 0x100000, by decide +kernel⟩
theorem test_witness_invalidations_and_bindings_11 : ∃ (s : State) (v : BitVec 32) (b : Nat × Nat × Bool), (answering s = true) ∧ (s.span.twin = .single) ∧ (0 < v.toNat) ∧ (v.toNat ≤ 0xFFFFF) ∧ (pasidOf s v.toNat = some b) ∧ ((tenantOf s b.1).confidential = false) :=
  ⟨base, 9, (5, 0, false), by decide +kernel⟩
theorem test_witness_tenants_come_and_go_1 : ∃ (s : State) (v : BitVec 16), (Inv s) ∧ (answering s = true) ∧ (s.span.twin = .single) ∧ (fld v 15 14 = 1) ∧ (fld v 13 9 = 0) ∧ (fld v 7 6 = 0) ∧ ((tenantOf s (fld v 5 0)).st = .free) ∧ (s.mint.healthy = true) ∧ (fld v 8 8 = 0 ∨ s.mint.debug = false) :=
  ⟨base, 0x403F, inv_ok (by decide +kernel), by decide +kernel⟩
theorem test_witness_tenants_come_and_go_2 : ∃ (s : State) (v : BitVec 16), (answering s = true) ∧ (s.span.twin = .single) ∧ (fld v 15 14 = 1) ∧ (fld v 13 9 = 0) ∧ (fld v 7 6 = 0) ∧ ((tenantOf s (fld v 5 0)).st ≠ .free) :=
  ⟨base, 0x4005, by decide +kernel⟩
theorem test_witness_tenants_come_and_go_3 : ∃ (s : State) (v : BitVec 16), (Inv s) ∧ (answering s = true) ∧ (s.span.twin = .single) ∧ (fld v 15 14 = 2) ∧ (fld v 13 9 = 0) ∧ (fld v 7 6 = 0) ∧ ((tenantOf s (fld v 5 0)).st = .active) :=
  ⟨base, 0x8005, inv_ok (by decide +kernel), by decide +kernel⟩
def onlyExt (e : Extent) (s : State) : State := { s with led := { s.led with exts := [(1, e)] } }
theorem test_witness_tenants_come_and_go_4 : ∃ (s : State) (n : Fin 64), (Inv s) ∧ ((tenantOf s n.val).st = .removing) ∧ ((tenantOf s n.val).removeStep = 6) ∧ ((∀ q ∈ s.led.exts, q.2.owner = n.val → q.2.st ≠ .free → q.2.st = .escrow ∧ 5 ≤ q.2.step)) :=
  ⟨onlyExt { st := .escrow, owner := 5, step := 5 } (setTenant 5 { st := .removing, removeStep := 6 } base), 5, inv_ok (by decide +kernel), by decide +kernel⟩
theorem test_witness_tenants_come_and_go_5 : ∃ (s : State) (n : Fin 64), (Inv s) ∧ ((tenantOf s n.val).st = .removing) ∧ ((tenantOf s n.val).removeStep = 8) ∧ ((∀ q ∈ s.led.exts, q.2.owner = n.val → q.2.st = .free)) ∧ ((∀ c ∈ s.kv.ctxs, c.2.tenant = n.val → c.2.st = .free)) :=
  ⟨onlyExt { st := .granted, owner := 6 } (onCtx (fun c => { c with st := .free }) (setTenant 5 { st := .removing, removeStep := 8 } base)), 5, inv_ok (by decide +kernel), by decide +kernel⟩
theorem test_witness_extents_are_granted_1 : ∃ (s : State) (v : BitVec 128), (Inv s) ∧ (answering s = true) ∧ (s.span.twin = .single) ∧ (grantReason s v = 0) :=
  ⟨base, BitVec.ofNat 128 (2 * 2 ^ 64 + 5 * 2 ^ 56 + 3 * 2 ^ 52), inv_ok (by decide +kernel), by decide +kernel⟩
theorem test_witness_extents_are_granted_2 : ∃ (s : State) (v : BitVec 128), (answering s = true) ∧ (s.span.twin = .single) ∧ (grantReason s v ≠ 0) :=
  ⟨base, BitVec.ofNat 128 (2 ^ 64 + 5 * 2 ^ 56 + 3 * 2 ^ 52), by decide +kernel⟩
theorem test_witness_extents_are_granted_3 : ∃ (s : State) (e : Nat), (Inv s) ∧ ((extOf s e).st = .granting) ∧ (¬((extOf s e).owner < 64 ∧ (tenantOf s (extOf s e).owner).st = .removing)) :=
  ⟨extOne (fun e => { e with st := .granting }) base, 1, inv_ok (by decide +kernel), by decide +kernel⟩
theorem test_witness_extents_are_granted_4 : ∃ (s : State) (v : BitVec 32), (Inv s) ∧ (answering s = true) ∧ (s.span.twin = .single) ∧ (extDecoded s v.toNat = true) ∧ ((extOf s v.toNat).st = .granted) ∧ ((extOf s v.toNat).kind ≠ 6) :=
  ⟨base, 1, inv_ok (by decide +kernel), by decide +kernel⟩
theorem test_witness_extents_are_granted_5 : ∃ (s : State) (e : Nat), (Inv s) ∧ ((extOf s e).st = .escrow) ∧ ((extOf s e).step = 1) ∧ ((extOf s e).kind ≠ 2) ∧ (extInflight s e = 0) :=
  ⟨extOne (fun e => { e with st := .escrow, step := 1 }) base, 1, inv_ok (by decide +kernel), by decide +kernel⟩
theorem test_witness_extents_are_granted_6 : ∃ (s : State) (e : Nat), (Inv s) ∧ ((extOf s e).st = .escrow) ∧ ((extOf s e).step = 5) :=
  ⟨extOne (fun e => { e with st := .escrow, step := 5 }) base, 1, inv_ok (by decide +kernel), by decide +kernel⟩
theorem test_witness_extents_are_granted_7 : ∃ (s : State), (answering s = true) ∧ (s.span.twin = .single) :=
  ⟨base, by decide +kernel⟩
theorem test_witness_keys_rotate_1 : ∃ (s : State) (p : Prin) (n : Fin 64), (Inv s) ∧ (answering s = true) ∧ (s.span.twin = .single) ∧ (mayTouch p (0x3006 + 16 * n.val) 3 = true) ∧ ((tenantOf s n.val).st = .active) ∧ (otherSlot (keysOf s n.val) = 0) ∧ (s.mint.healthy = true) ∧ (extsOf s n.val ≠ []) :=
  ⟨base, .t 5, 5, inv_ok (by decide +kernel), by decide +kernel⟩
theorem test_witness_keys_rotate_2 : ∃ (s : State) (p : Prin) (n : Fin 64), (answering s = true) ∧ (s.span.twin = .single) ∧ (mayTouch p (0x3006 + 16 * n.val) 3 = true) ∧ ((tenantOf s n.val).st = .active) ∧ (otherSlot (keysOf s n.val) ≠ 0) :=
  ⟨minted (fun m => { m with keys := [(5, { slot0 := 1, slot1 := 2 })] }) base, .t 5, 5, by decide +kernel⟩
def sweeping : State := minted (fun m => { m with keys := [(5, { gen := 1, slot0 := 2, slot1 := 1, sweep := true })] }) base
theorem test_witness_keys_rotate_3 : ∃ (s : State) (n : Fin 64) (e : Nat) (l : Nat), (Inv s) ∧ ((keysOf s n.val).sweep = true) ∧ ((extOf s e).owner = n.val) ∧ ((extOf s e).st = .granted) ∧ ((extOf s e).kind ≠ 2) ∧ (extTier e ≠ 3) ∧ (firstOld s n.val e = some l) ∧ ((extTier e = 1 → shareTaken s (ctlOfAddr (l * 64)) = false)) ∧ (rewrapTurn s n.val = true) :=
  ⟨sweeping, 5, 1, 2 ^ 24, inv_ok (by decide +kernel), by decide +kernel⟩
def cold : State :=
  (setFrame 1 coldV sweeping).setLed fun l => { l with exts := l.exts ++ [(2 ^ 14, { st := .granted, kind := 2, owner := 5 })] }
theorem test_witness_keys_rotate_4 : ∃ (s : State) (n : Fin 64) (e : Nat) (f : Nat) (v : Frame) (u : State), ((keysOf s n.val).sweep = true) ∧ ((extOf s e).owner = n.val) ∧ ((extOf s e).st = .granted) ∧ ((extOf s e).kind = 2) ∧ (((oldFrames s n.val).find? fun q => copyIn1G e q.2.t2 || copyIn1G e q.2.t3) = some (f, v)) ∧ (rewrapPays n.val ((if v.t2.isSome then v.size else 0) + if v.t3.isSome then v.size else 0) (if v.t3.isSome then v.size else 0) (v.t3.getD 0 * 4096) s = some u) :=
  ⟨cold, 5, 2 ^ 14, 1, coldV, (rewrapPays 5 4096 0 0 cold).getD cold, by decide +kernel⟩
theorem test_witness_keys_rotate_5 : ∃ (s : State) (n : Fin 64), (Inv s) ∧ ((keysOf s n.val).sweep = true) :=
  ⟨sweeping, 5, inv_ok (by decide +kernel), by decide +kernel⟩
theorem test_witness_keys_rotate_6 : ∃ (s : State) (p : Prin) (n : Fin 64), (Inv s) ∧ (answering s = true) ∧ (s.span.twin = .single) ∧ (mayTouch p (0x3006 + 16 * n.val) 4 = true) ∧ (otherSlot (keysOf s n.val) = 2) :=
  ⟨sweeping, .t 5, 5, inv_ok (by decide +kernel), by decide +kernel⟩
theorem test_witness_requesters_are_answered_1 : ∃ (s : State) (bytes : List Byte) (req : List Byte), (Asked s bytes req 0x84) :=
  ⟨base, [5, 0x10, 0x84, 0, 0], [0x10, 0x84, 0, 0], ⟨by decide +kernel, by decide +kernel, by decide +kernel⟩⟩
theorem test_witness_requesters_are_answered_2 : ∃ (s : State) (bytes : List Byte) (req : List Byte), (Asked s bytes req 0xE1) ∧ ((spdmOf s 100).phase = 1) ∧ (byteAt req 0 = 0x12 ∨ byteAt req 0 = 0x13) :=
  ⟨spoken 100 { ver := 0x10, phase := 1 } base, [5, 0x13, 0xE1, 0, 0], [0x13, 0xE1, 0, 0], ⟨by decide +kernel, by decide +kernel, by decide +kernel⟩, by decide +kernel⟩
theorem test_witness_requesters_are_answered_3 : ∃ (s : State) (bytes : List Byte) (req : List Byte), (Asked s bytes req 0xE3) ∧ ((spdmOf s 100).phase = 2) ∧ (byteAt req 0 = (spdmOf s 100).ver) :=
  ⟨spoken 100 { ver := 0x12, phase := 2 } base, [5, 0x12, 0xE3, 0, 0], [0x12, 0xE3, 0, 0], ⟨by decide +kernel, by decide +kernel, by decide +kernel⟩, by decide +kernel⟩
def spdm3 : State := spoken 100 { ver := 0x12, phase := 3 } base
theorem test_witness_requesters_are_answered_4 : ∃ (s : State) (bytes : List Byte) (req : List Byte), (Asked s bytes req 0x81) ∧ ((spdmOf s 100).phase = 3) ∧ (byteAt req 0 = (spdmOf s 100).ver) :=
  ⟨spdm3, [5, 0x12, 0x81, 0, 0], [0x12, 0x81, 0, 0], ⟨by decide +kernel, by decide +kernel, by decide +kernel⟩, by decide +kernel⟩
theorem test_witness_requesters_are_answered_5 : ∃ (s : State) (bytes : List Byte) (req : List Byte), (Asked s bytes req 0x82) ∧ (le16 req 4 ≤ (Config.certChain 0 (byteAt req 2 % 16) (aliasSalt s)).length) ∧ ((spdmOf s 100).phase = 3) ∧ (byteAt req 0 = (spdmOf s 100).ver) ∧ (slotOk (byteAt req 2 % 16) = true) ∧ (le16 req 6 ≤ 4088) :=
  ⟨spdm3, [5, 0x12, 0x82, 1, 0, 0, 0, 0xF8, 0x0F], [0x12, 0x82, 1, 0, 0, 0, 0xF8, 0x0F], ⟨by decide +kernel, by decide +kernel, by decide +kernel⟩, Nat.zero_le _, by decide +kernel⟩
theorem test_witness_requesters_are_answered_6 : ∃ (s : State) (bytes : List Byte) (req : List Byte), (Asked s bytes req 0x83) ∧ ((spdmOf s 100).phase = 3) ∧ (byteAt req 0 = (spdmOf s 100).ver) ∧ (slotOk (byteAt req 2 % 16) = true) :=
  ⟨spdm3, [5, 0x12, 0x83, 1, 0], [0x12, 0x83, 1, 0], ⟨by decide +kernel, by decide +kernel, by decide +kernel⟩, by decide +kernel⟩
theorem test_witness_requesters_are_answered_7 : ∃ (s : State) (bytes : List Byte) (req : List Byte), (Asked s bytes req 0xE0) ∧ ((spdmOf s 100).phase = 3) ∧ (byteAt req 0 = (spdmOf s 100).ver) ∧ (byteAt req 2 % 2 = 0) ∧ (1 ≤ byteAt req 3) ∧ (byteAt req 3 ≤ 8) :=
  ⟨spdm3, [5, 0x12, 0xE0, 0, 8], [0x12, 0xE0, 0, 8], ⟨by decide +kernel, by decide +kernel, by decide +kernel⟩, by decide +kernel⟩
theorem test_witness_requesters_are_answered_8 : ∃ (s : State) (bytes : List Byte) (req : List Byte), (Asked s bytes req 0xE4) ∧ ((spdmOf s 100).phase = 3) ∧ (byteAt req 0 = (spdmOf s 100).ver) ∧ (slotOk (byteAt req 3) = true) ∧ (s.mint.healthy = true) :=
  ⟨spdm3, [5, 0x12, 0xE4, 0, 1], [0x12, 0xE4, 0, 1], ⟨by decide +kernel, by decide +kernel, by decide +kernel⟩, by decide +kernel⟩
theorem test_witness_requesters_are_answered_9 : ∃ (s : State) (bytes : List Byte) (req : List Byte) (bs : List Byte) (i : Nat), (Asked s bytes req 0x86) ∧ ((spdmOf s 100).phase = 3) ∧ (byteAt req 0 = (spdmOf s 100).ver) ∧ ((spdmOf s 100).chunk = some (bs, i)) ∧ (le16 req 4 = i) ∧ (1 ≤ i) :=
  ⟨spoken 100 { ver := 0x12, phase := 3, chunk := some ([1, 2], 1) } base, [5, 0x12, 0x86, 0, 0, 1, 0], [0x12, 0x86, 0, 0, 1, 0], [1, 2], 1, ⟨by decide +kernel, by decide +kernel, by decide +kernel⟩, by decide +kernel⟩
def vend (x n : Byte) : List Byte := [0x12, 0xFE, 0, 0, 0, 0, 0, 0, 0, x, n]
def spdmV : State := setObj 0x1018 1 0 spdm3
theorem test_witness_requesters_are_answered_10 : ∃ (s : State) (bytes : List Byte) (req : List Byte) (n : Nat), (Asked s bytes req 0xFE) ∧ ((spdmOf s 100).phase = 3) ∧ (byteAt req 0 = (spdmOf s 100).ver) ∧ (vendorReq s req = some (1, n)) ∧ (slotOk n = true) :=
  ⟨spdmV, 5 :: vend 1 1, vend 1 1, 1, ⟨by decide +kernel, by decide +kernel, by decide +kernel⟩, by decide +kernel⟩
theorem test_witness_requesters_are_answered_11 : ∃ (s : State) (bytes : List Byte) (req : List Byte) (n : Nat) (m : Nat) (msg : List Byte), (Asked s bytes req 0xFE) ∧ ((spdmOf s 100).phase = 3) ∧ (byteAt req 0 = (spdmOf s 100).ver) ∧ (vendorReq s req = some (2, n)) ∧ ((spdmOf s 100).signed = some (m, msg)) :=
  ⟨spoken 100 { ver := 0x12, phase := 3, signed := some (0, [1]) } spdmV, 5 :: vend 2 1, vend 2 1, 1, 0, [1], ⟨by decide +kernel, by decide +kernel, by decide +kernel⟩, by decide +kernel⟩
theorem test_witness_requesters_are_answered_12 : ∃ (s : State) (bytes : List Byte) (req : List Byte) (n : Nat), (Asked s bytes req 0xFE) ∧ ((spdmOf s 100).phase = 3) ∧ (byteAt req 0 = (spdmOf s 100).ver) ∧ (vendorReq s req = some (4, n)) :=
  ⟨spdmV, 5 :: vend 4 1, vend 4 1, 1, ⟨by decide +kernel, by decide +kernel, by decide +kernel⟩, by decide +kernel⟩
def sess (up : Bool) : SpdmSession := { sid := 2 ^ 32 - 1, up := up, th := [], updates := 0, beat := 0, last := 0 }
def spdmS (p : Nat) (up : Bool) : State := spoken p { ver := 0x12, phase := 3, session := some (sess up) } base
theorem test_witness_sessions_go_on_1 : ∃ (s : State) (bytes : List Byte) (e : SpdmSession), (Sealed s bytes e) ∧ (e.up = false) :=
  ⟨spdmS 100 false, [6, 255, 255, 255, 255], sess false, ⟨by decide +kernel, by decide +kernel, by decide +kernel, by decide +kernel, by decide +kernel⟩, by decide +kernel⟩
theorem test_witness_sessions_go_on_2 : ∃ (s : State) (bytes : List Byte) (e : SpdmSession), (Sealed s bytes e) ∧ (e.up = false) :=
  ⟨spdmS 100 false, [6, 255, 255, 255, 255], sess false, ⟨by decide +kernel, by decide +kernel, by decide +kernel, by decide +kernel, by decide +kernel⟩, by decide +kernel⟩
theorem test_witness_sessions_go_on_3 : ∃ (s : State) (bytes : List Byte) (e : SpdmSession), (Sealed s bytes e) ∧ (e.up = true) :=
  ⟨spdmS 100 true, [6, 255, 255, 255, 255], sess true, ⟨by decide +kernel, by decide +kernel, by decide +kernel, by decide +kernel, by decide +kernel⟩, by decide +kernel⟩
theorem test_witness_sessions_go_on_4 : ∃ (s : State) (bytes : List Byte) (e : SpdmSession), (Sealed s bytes e) ∧ (e.up = true) :=
  ⟨spdmS 100 true, [6, 255, 255, 255, 255], sess true, ⟨by decide +kernel, by decide +kernel, by decide +kernel, by decide +kernel, by decide +kernel⟩, by decide +kernel⟩
theorem test_witness_sessions_go_on_5 : ∃ (s : State) (bytes : List Byte) (e : SpdmSession), (Sealed s bytes e) :=
  ⟨spdmS 100 true, [6, 255, 255, 255, 255], sess true, ⟨by decide +kernel, by decide +kernel, by decide +kernel, by decide +kernel, by decide +kernel⟩⟩
theorem test_witness_sessions_go_on_6 : ∃ (s : State) (c : Fin 72) (k : TlMsg) (e : SpdmSession), (c.val < 64) ∧ (mintMsg s c.val = some k) ∧ (tlQuiet s c.val = true) ∧ (k.verb = 1) ∧ ((spdmOf s c.val).phase = 3) ∧ ((spdmOf s c.val).session = some e) ∧ (e.up = true) ∧ (k.bytes.take 5 = 6 :: leBytes e.sid 4) ∧ (e.sid < 2 ^ 32) ∧ ((chanOf s c.val).replyFull = false) :=
  ⟨told 63 (tlMsg 1 [6, 255, 255, 255, 255]) (spdmS 63 true), 63, tlMsg 1 [6, 255, 255, 255, 255], sess true, by decide +kernel⟩
theorem test_witness_verbs_are_carried_out_1 : ∃ (s : State) (m : TlMsg), (Inv s) ∧ (mintMsg s 64 = some m) ∧ (tlQuiet s 64 = true) ∧ (m.verb = 2) ∧ (m.bytes.length = 48) ∧ (mintBusy s 64 = false) :=
  ⟨told 64 (tlMsg 2 (List.replicate 48 0)) base, tlMsg 2 (List.replicate 48 0), inv_ok (by decide +kernel), by decide +kernel⟩
theorem test_witness_verbs_are_carried_out_2 : ∃ (s : State) (c : Fin 72) (m : TlMsg), (mintMsg s c.val = some m) ∧ (tlQuiet s c.val = true) ∧ (m.verb = 2) ∧ (c.val ≠ 64) :=
  ⟨told 63 (tlMsg 2 []) base, 63, tlMsg 2 [], by decide +kernel⟩
theorem test_witness_verbs_are_carried_out_3 : ∃ (s : State) (c : Fin 72) (m : TlMsg), (mintMsg s c.val = some m) ∧ (m.verb = 4) ∧ (c.val = 64 ∨ c.val = 65) ∧ (mintBusy s c.val = false) :=
  ⟨told 65 (tlMsg 4 []) base, 65, tlMsg 4 [], by decide +kernel⟩
theorem test_witness_verbs_are_carried_out_4 : ∃ (s : State) (c : Fin 72) (m : TlMsg), (mintMsg s c.val = some m) ∧ (tlQuiet s c.val = true) ∧ (m.verb = 4) ∧ (c.val = 64 ∨ c.val = 65) ∧ (mintBusy s c.val = false) ∧ (obj s 0x6020 4 = 0) :=
  ⟨told 64 (tlMsg 4 []) base, 64, tlMsg 4 [], by decide +kernel⟩
theorem test_witness_verbs_are_carried_out_5 : ∃ (s : State) (c : Fin 72) (m : TlMsg), (mintMsg s c.val = some m) ∧ (tlQuiet s c.val = true) ∧ (¬(1 ≤ m.verb ∧ m.verb ≤ 4)) :=
  ⟨told 0 (tlMsg 5 []) base, 0, tlMsg 5 [], by decide +kernel⟩
theorem test_witness_verbs_are_carried_out_6 : ∃ (s : State) (m : TlMsg), (Inv s) ∧ (mintMsg s 64 = some m) ∧ (m.verb = 3) ∧ (m.bytes.length = 32) ∧ (mintBusy s 64 = false) :=
  ⟨told 64 (tlMsg 3 (List.replicate 32 0)) base, tlMsg 3 (List.replicate 32 0), inv_ok (by decide +kernel), by decide +kernel⟩
def imp : Import := { first := 0, count := 1, ident := 1, len := 16, flags := 0, digest := 0, cipher := 2 ^ 30, key := 0, seq := 1 }
theorem test_witness_verbs_are_carried_out_7 : ∃ (s : State) (i : Import), (Inv s) ∧ (s.mint.import_ = some i) :=
  ⟨minted (fun m => { m with import_ := some imp }) base, imp, inv_ok (by decide +kernel), by decide +kernel⟩
theorem test_witness_verbs_are_carried_out_8 : ∃ (s : State) (i : Import) (c : List Byte), (Inv s) ∧ (s.mint.import_ = some i) ∧ (ownRead { s with mint := { s.mint with import_ := none } } i.cipher i.len = some c) :=
  ⟨minted (fun m => { m with import_ := some imp }) (onlyExt { st := .granted, kind := 5, owner := 0xFE } base), imp, List.replicate 16 0, inv_ok (by decide +kernel), by decide +kernel⟩
theorem test_witness_keys_rotate_7 : ∃ (s : State) (n : Fin 64) (v : Bool), (answering s = true) ∧ (v = false ∨ (tenantOf s n.val).confidential = false) :=
  ⟨base, 5, true, by decide +kernel⟩

/-- With link `l` so, and no other; with teller channel `c` so, and no other. -/
def linkIs (l : Nat) (k : Link) (s : State) : State := { s with links := { link := [(l, k)] } }
def chanIs (c : Nat) (k : Teller) (s : State) : State := { s with tel := { s.tel with chan := [(c, k)], inbSel := c } }
def upLink : Link := { st := 6, gen := 2, width := 3 }

theorem test_witness_fence_writes_without_effect_1 : ∃ (s : State) (p : Prin) (v : BitVec 8), (answering s = true) ∧ (mayTouch p 0x9001 1 = true) ∧ (v.toNat < 20) ∧ ((coreOf s v.toNat).st ≠ .inService) :=
  ⟨setCore 19 { st := .held } base, .s, 19, by decide +kernel⟩
theorem test_witness_fence_writes_without_effect_2 : ∃ (s : State) (p : Prin) (v : BitVec 8), (answering s = true) ∧ (mayTouch p 0x9001 2 = true) ∧ (v.toNat < 20) ∧ ((coreOf s v.toNat).st ≠ .fenced) :=
  ⟨base, .s, 19, by decide +kernel⟩
theorem test_witness_fence_writes_without_effect_3 : ∃ (s : State) (p : Prin) (q : Prin) (v : BitVec 8), (answering s = true) ∧ (mayTouch p 0x9001 1 = true) ∧ (mayTouch q 0x9001 2 = true) ∧ (20 ≤ v.toNat) :=
  ⟨base, .s, .s, 20, by decide +kernel⟩
theorem test_witness_links_train_1 : ∃ (s : State) (l : Fin 13), (Inv s) ∧ ((linkOf s l.val).st = 0) :=
  ⟨base, 12, inv_ok (by decide +kernel), by decide +kernel⟩
theorem test_witness_links_train_2 : ∃ (s : State) (l : Fin 13), (Inv s) ∧ ((linkOf s l.val).st = 0) ∧ (obj s 0x5004 6 ≠ 0) :=
  ⟨linkIs 0 { st := 0, reason := 1 } base, 0, inv_ok (by decide +kernel), by decide +kernel⟩
theorem test_witness_links_train_3 : ∃ (s : State) (l : Fin 13), (Inv s) ∧ ((linkOf s l.val).st = 1) :=
  ⟨linkIs 0 { st := 1 } base, 0, inv_ok (by decide +kernel), by decide +kernel⟩
theorem test_witness_links_train_4 : ∃ (s : State) (l : Fin 13), (Inv s) ∧ ((linkOf s l.val).st = 2) :=
  ⟨linkIs 0 { st := 2 } base, 0, inv_ok (by decide +kernel), by decide +kernel⟩
theorem test_witness_links_train_5 : ∃ (s : State) (l : Fin 13), (Inv s) ∧ ((linkOf s l.val).st = 3) ∧ ((linkOf s l.val).second = false) ∧ ((linkOf s l.val).gen = 1 ∨ (linkOf s l.val).gen = 2) ∧ (obj s 0x5002 (l.val + 1) ≤ fullWidth l.val) :=
  ⟨linkIs 0 { st := 3, gen := 2 } base, 0, inv_ok (by decide +kernel), by decide +kernel⟩
theorem test_witness_links_train_6 : ∃ (s : State) (l : Fin 13), (Inv s) ∧ ((linkOf s l.val).st = 3) ∧ (((linkOf s l.val).gen = 1 ∧ (linkOf s l.val).second = false) ∨ ((linkOf s l.val).second = true ∧ (linkOf s l.val).lanes = 0)) :=
  ⟨linkIs 0 { st := 3, gen := 1 } base, 0, inv_ok (by decide +kernel), by decide +kernel⟩
theorem test_witness_links_train_7 : ∃ (s : State) (l : Fin 13) (rtt : Nat), (Inv s) ∧ ((linkOf s l.val).st = 4) ∧ (rtt ≤ 448) :=
  ⟨linkIs 0 { upLink with st := 4 } base, 0, 448, inv_ok (by decide +kernel), by decide +kernel⟩
theorem test_witness_links_train_8 : ∃ (s : State) (l : Fin 13) (rtt : Nat), (Inv s) ∧ ((linkOf s l.val).st = 4) ∧ (448 < rtt) :=
  ⟨linkIs 0 { upLink with st := 4 } base, 0, 449, inv_ok (by decide +kernel), by decide +kernel⟩
theorem test_witness_links_train_9 : ∃ (s : State) (l : Fin 13) (lanes : BitVec 8) (rtt : Nat) (g : Nat) (w : Nat) (f : Nat), (Inv s) ∧ ((linkOf s l.val).st = 7) ∧ ((linkOf s l.val).raise = false) ∧ (rtt ≤ 448) ∧ (equalized s l.val (linkOf s l.val) (linkOf s l.val).gen lanes.toNat (linkOf s l.val).width = some (g, w, f)) ∧ (g ≠ 0) :=
  ⟨linkIs 0 { upLink with st := 7 } base, 0, 0xFF, 448, 2, 3, 0, inv_ok (by decide +kernel), by decide +kernel⟩
theorem test_witness_links_train_10 : ∃ (s : State) (l : Fin 13) (us : Nat), (Inv s) ∧ (stateLimit (linkOf s l.val).st = some us) ∧ (arrivalWins ((linkOf s l.val).since + usCycles us) (endsStage l.val) s = false) :=
  ⟨linkIs 0 { upLink with st := 4 } base, 0, 2000, inv_ok (by decide +kernel), by decide +kernel⟩
theorem test_witness_flits_are_replayed_1 : ∃ (s : State) (l : Fin 13) (n : BitVec 12) (xoff : BitVec 4) (phase : Bool), (Inv s) ∧ (PlainFlit s l.val xoff.toNat phase) ∧ ((linkOf s l.val).st = 6) ∧ ((linkOf s l.val).e = n.toNat) ∧ ((linkOf s l.val).rx = 0 ∨ (linkOf s l.val).rx = 2) ∧ ((linkOf s l.val).held = []) ∧ ((linkOf s l.val).missing = []) :=
  ⟨linkIs 0 { upLink with e := 4095 } base, 0, 4095, 0, false, inv_ok (by decide +kernel), ⟨by decide +kernel, by decide +kernel⟩, by decide +kernel⟩
theorem test_witness_flits_are_replayed_2 : ∃ (s : State) (l : Fin 13), (Inv s) ∧ ((linkOf s l.val).st = 5 ∨ (linkOf s l.val).st = 6) ∧ ((linkOf s l.val).rx = 0) :=
  ⟨linkIs 0 upLink base, 0, inv_ok (by decide +kernel), by decide +kernel⟩
theorem test_witness_flits_are_replayed_3 : ∃ (s : State) (l : Fin 13) (n : BitVec 12), (Inv s) ∧ ((linkOf s l.val).st = 6) ∧ ((linkOf s l.val).encrypted = true) ∧ ((linkOf s l.val).tagBad = some n.toNat) :=
  ⟨linkIs 0 { upLink with encrypted := true, tagBad := some 7 } base, 0, 7, inv_ok (by decide +kernel), by decide +kernel⟩
theorem test_witness_flits_are_replayed_4 : ∃ (s : State) (l : Fin 13) (n : BitVec 12) (xoff : BitVec 4) (phase : Bool), (Inv s) ∧ (PlainFlit s l.val xoff.toNat phase) ∧ ((linkOf s l.val).st = 6) ∧ (2049 ≤ (n.toNat + 4096 - (linkOf s l.val).e) % 4096) :=
  ⟨linkIs 0 { upLink with e := 0 } base, 0, 4095, 0, false, inv_ok (by decide +kernel), ⟨by decide +kernel, by decide +kernel⟩, by decide +kernel⟩
theorem test_witness_flits_are_replayed_5 : ∃ (s : State) (l : Fin 13) (n : BitVec 12) (xoff : BitVec 4) (phase : Bool), (Inv s) ∧ (PlainFlit s l.val xoff.toNat phase) ∧ ((linkOf s l.val).st = 6) ∧ ((n.toNat + 4096 - (linkOf s l.val).e) % 4096 = 2048) ∧ (((linkOf s l.val).retrains.filter fun c => decide (s.time.cycle < c + 2000000000)).length < obj s 0x5004 3) :=
  ⟨linkIs 0 { upLink with e := 0 } base, 0, 2048, 0, false, inv_ok (by decide +kernel), ⟨by decide +kernel, by decide +kernel⟩, by decide +kernel⟩
theorem test_witness_flits_are_replayed_6 : ∃ (s : State) (l : Fin 13) (ack : BitVec 12) (rs : BitVec 12) (xoff : BitVec 4) (phase : Bool), (Inv s) ∧ (PlainFlit s l.val xoff.toNat phase) ∧ ((linkOf s l.val).st = 6) ∧ (linkHeld (linkOf s l.val) ≤ (ack.toNat + 4096 - (linkOf s l.val).oldest) % 4096) ∧ (seqHeld (linkOf s l.val) rs.toNat = true) ∧ ((linkOf s l.val).resent.find? (fun q => q.1 == rs.toNat) = none) :=
  ⟨linkIs 0 { upLink with oldest := 4095, next := 1 } base, 0, 1, 0, 0, false, inv_ok (by decide +kernel), ⟨by decide +kernel, by decide +kernel⟩, by decide +kernel⟩
theorem test_witness_flits_are_replayed_7 : ∃ (s : State) (l : Fin 13), (Inv s) ∧ ((linkOf s l.val).st = 5 ∨ (linkOf s l.val).st = 6) ∧ ((linkOf s l.val).rx = 1) ∧ ((linkOf s l.val).missing ≠ []) :=
  ⟨linkIs 0 { upLink with rx := 1, missing := [5] } base, 0, inv_ok (by decide +kernel), by decide +kernel⟩
theorem test_witness_flits_are_replayed_8 : ∃ (s : State) (l : Fin 13), (Inv s) ∧ ((linkOf s l.val).st = 5 ∨ (linkOf s l.val).st = 6) ∧ ((linkOf s l.val).rx = 2) :=
  ⟨linkIs 0 { upLink with rx := 2 } base, 0, inv_ok (by decide +kernel), by decide +kernel⟩
theorem test_witness_flits_are_replayed_9 : ∃ (s : State) (l : Fin 13), (Inv s) ∧ ((linkOf s l.val).st = 5 ∨ (linkOf s l.val).st = 6) ∧ (linkHeld (linkOf s l.val) ≠ 0) ∧ ((linkOf s l.val).backs < 3) ∧ (arrivalWins ((linkOf s l.val).ackAt + nsCycles (obj s 0x5004 2)) (bringsAck l.val (linkOf s l.val)) s = false) :=
  ⟨linkIs 0 { upLink with next := 1, backs := 2 } base, 0, inv_ok (by decide +kernel), by decide +kernel⟩
theorem test_witness_flits_are_replayed_10 : ∃ (s : State) (l : Fin 13), (Inv s) ∧ ((linkOf s l.val).st = 6) ∧ ((linkOf s l.val).encrypted = true) :=
  ⟨linkIs 0 { upLink with encrypted := true } base, 0, inv_ok (by decide +kernel), by decide +kernel⟩
theorem test_witness_flits_are_replayed_11 : ∃ (s : State) (l : Fin 13), (Inv s) ∧ ((linkOf s l.val).st = 6) ∧ ((linkOf s l.val).encrypted = true) ∧ ((linkOf s l.val).txSince + flitCycles (linkOf s l.val) (2 ^ 20) ≤ s.time.cycle) :=
  ⟨{ linkIs 0 { upLink with encrypted := true } base with time := { base.time with cycle := 2 ^ 40 } }, 0, inv_ok (by decide +kernel), by decide +kernel⟩
theorem test_witness_links_retrain_and_fall_1 : ∃ (s : State) (l : Fin 13), (Inv s) ∧ ((linkOf s l.val).st = 6) ∧ (((linkOf s l.val).retrains.filter fun c => decide (s.time.cycle < c + 2000000000)).length < obj s 0x5004 3) :=
  ⟨linkIs 0 upLink base, 0, inv_ok (by decide +kernel), by decide +kernel⟩
theorem test_witness_links_retrain_and_fall_2 : ∃ (s : State) (l : Fin 13), (Inv s) ∧ ((linkOf s l.val).st = 6) ∧ (obj s 0x5004 3 ≤ ((linkOf s l.val).retrains.filter fun c => decide (s.time.cycle < c + 2000000000)).length) :=
  ⟨linkIs 0 upLink (setObj 0x5004 3 0 base), 0, inv_ok (by decide +kernel), by decide +kernel⟩
theorem test_witness_links_retrain_and_fall_3 : ∃ (s : State) (l : Fin 13), (Inv s) ∧ ((linkOf s l.val).st ≠ 0) :=
  ⟨linkIs 0 upLink base, 0, inv_ok (by decide +kernel), by decide +kernel⟩
theorem test_witness_keys_are_exchanged_1 : ∃ (s : State) (l : Fin 13) (m : KafMsg), (Inv s) ∧ ((linkOf s l.val).st = 5) ∧ ((linkOf s l.val).frag = none) ∧ (m.tag = 0) ∧ (m.data.length = 1248) ∧ (linkOpens s l.val = false) ∧ ((linkOf s l.val).hello = []) :=
  ⟨linkIs 8 { upLink with st := 5 } base, 8, { kafOf 0x72 with data := List.replicate 1248 0 }, inv_ok (by decide +kernel), by decide +kernel⟩
theorem test_witness_keys_are_exchanged_2 : ∃ (s : State) (l : Fin 13) (m : KafMsg), (Inv s) ∧ ((linkOf s l.val).st = 5) ∧ ((linkOf s l.val).frag = none) ∧ (m.tag = 0) ∧ (m.data.length = 1152) ∧ ((linkOf s l.val).hello ≠ []) ∧ ((linkOf s l.val).reply = []) :=
  ⟨linkIs 0 { upLink with st := 5, hello := [1] } base, 0, { kafOf 0x73 with data := List.replicate 1152 0 }, inv_ok (by decide +kernel), by decide +kernel⟩
theorem test_witness_keys_are_exchanged_3 : ∃ (s : State) (l : Fin 13) (m : KafMsg), (Inv s) ∧ ((linkOf s l.val).st = 5) ∧ ((linkOf s l.val).frag = none) ∧ (m.tag = 0) ∧ (m.data.length < 4096) ∧ ((linkOf s l.val).hello ≠ []) ∧ ((linkOf s l.val).reply ≠ []) ∧ ((linkOf s l.val).proofSent = true) :=
  ⟨linkIs 0 { upLink with st := 5, hello := [1], reply := [1], proofSent := true } base, 0, kafOf 0x74, inv_ok (by decide +kernel), by decide +kernel⟩
theorem test_witness_keys_are_exchanged_4 : ∃ (s : State) (l : Fin 13) (m : KafMsg), (Inv s) ∧ ((linkOf s l.val).st = 5) ∧ ((linkOf s l.val).frag = none) ∧ (m.tag = 0) ∧ (m.data.length < 4096) :=
  ⟨linkIs 0 { upLink with st := 5 } base, 0, kafOf 0x72, inv_ok (by decide +kernel), by decide +kernel⟩
def keyst : State := { linkIs 8 upLink base with dict := { base.dict with doms := [(0x8000 * 256 + 1, [0, 1, 0, 0, 3, 0]), (0x8000 * 256 + 3, [0xFF, 0xFF, 0, 0xFF])] } }
theorem test_witness_link_messages_are_taken_1 : ∃ (s : State) (l : Fin 13) (m : KafMsg), (Inv s) ∧ ((linkOf s l.val).st = 6) ∧ (keystonePort s l.val = true) ∧ ((linkOf s l.val).frag = none) ∧ (m.tag = 0) ∧ (m.data.length < 4096) ∧ (m.mask < 2 ^ 48) ∧ (m.mask % 2 ^ 24 = m.data.length) ∧ ((chanOf s 67).msg = none) ∧ ((chanOf s 67).replyFull = false) :=
  ⟨keyst, 8, { kafOf 0x70 with mask := 1, data := [1] }, inv_ok (by decide +kernel), by decide +kernel⟩
theorem test_witness_link_messages_are_taken_2 : ∃ (s : State) (l : Fin 13) (m : KafMsg), (Inv s) ∧ ((linkOf s l.val).st = 6) ∧ (keystonePort s l.val = true) ∧ ((linkOf s l.val).frag = none) ∧ (m.tag = 0) ∧ (m.data.length < 4096) ∧ (m.mask % 2 ^ 13 ≠ m.data.length) :=
  ⟨keyst, 8, { kafOf 0x70 with mask := 2, data := [1] }, inv_ok (by decide +kernel), by decide +kernel⟩
theorem test_witness_link_messages_are_taken_3 : ∃ (s : State) (l : Fin 13), ((linkOf s l.val).st = 6) ∧ (8 ≤ l.val) ∧ (l.val < 12) :=
  ⟨linkIs 8 upLink base, 8, by decide +kernel⟩
theorem test_witness_link_messages_are_taken_4 : ∃ (s : State) (l : Fin 13) (h : BitVec 256) (vc : Fin 8) (len : Nat), (Inv s) ∧ (sends s l.val = true) ∧ (kafMalformed h vc.val len = true) :=
  ⟨linkIs 0 upLink base, 0, 0xFF, 0, 0, inv_ok (by decide +kernel), by decide +kernel⟩
theorem test_witness_link_messages_are_taken_5 : ∃ (s : State) (l : Fin 8) (m : KafMsg) (n : Fin 64), (live s = true) ∧ (s.span.twin = .single) ∧ (sends s l.val = true) ∧ (m.op = 0x48) ∧ (pasidTenant s m.pasid = n.val) ∧ (inView m.addr (m.mask % 16) = true) ∧ (viewShape false m.addr (m.mask % 16) = true) ∧ (tollField s (128 + l.val) 1 = 0) :=
  ⟨linkIs 0 upLink base, 0, { kafOf 0x48 with pasid := 9, mask := 4, addr := 0x41000 }, 5, by decide +kernel⟩
theorem test_witness_link_messages_are_taken_6 : ∃ (s : State) (l : Fin 8) (m : KafMsg) (n : Fin 64), (live s = true) ∧ (s.span.twin = .single) ∧ (sends s l.val = true) ∧ (m.op = 0x49) ∧ (pasidTenant s m.pasid = n.val) ∧ (0x41000 ≤ m.addr) ∧ (m.addr + m.data.length ≤ 0x42000) ∧ (viewShape true m.addr m.data.length = true) ∧ (tollField s (128 + l.val) 1 = 0) :=
  ⟨linkIs 0 upLink base, 0, { kafOf 0x49 with pasid := 9, addr := 0x41FFC, data := [1, 2, 3, 4] }, 5, by decide +kernel⟩
theorem test_witness_link_messages_are_taken_7 : ∃ (s : State) (l : Fin 8) (m : KafMsg), (live s = true) ∧ (s.span.twin = .single) ∧ (sends s l.val = true) ∧ (m.op = 0x48) ∧ (pasidTenant s m.pasid = 0xFF) ∧ (tollField s (128 + l.val) 1 = 0) :=
  ⟨linkIs 0 upLink base, 0, { kafOf 0x48 with pasid := 10 }, by decide +kernel⟩
theorem test_witness_tellers_carry_messages_1 : ∃ (s : State) (c : Fin 72) (v : BitVec 64), (fld v 63 48 = 0) ∧ (fld v 19 13 = 0) ∧ (fld v 12 0 ≤ 4096) ∧ ((chanOf s c.val).msg = none) ∧ ((chanOf s c.val).replyFull = false) ∧ (tlAllowed c.val (fld v 23 20) = true) ∧ ((c.val < 64 → (tenantOf s c.val).st = .active)) :=
  ⟨base, 5, 4096, by decide +kernel⟩
theorem test_witness_tellers_carry_messages_2 : ∃ (s : State) (c : Fin 72) (v : BitVec 64), (fld v 63 48 = 0) ∧ (fld v 19 13 = 0) ∧ (fld v 12 0 ≤ 4096) ∧ ((chanOf s c.val).msg ≠ none ∨ (chanOf s c.val).replyFull = true) :=
  ⟨chanIs 5 { replyFull := true } base, 5, 4096, by decide +kernel⟩
theorem test_witness_tellers_carry_messages_3 : ∃ (s : State) (c : Fin 72) (v : BitVec 64), (fld v 63 48 = 0) ∧ (fld v 19 13 = 0) ∧ (fld v 12 0 ≤ 4096) ∧ ((chanOf s c.val).msg = none) ∧ ((chanOf s c.val).replyFull = false) ∧ (tlAllowed c.val (fld v 23 20) = false) :=
  ⟨base, 5, 0x300000, by decide +kernel⟩
theorem test_witness_tellers_carry_messages_4 : ∃ (s : State) (c : Fin 72) (v : BitVec 32), (Inv s) ∧ ((chanOf s c.val).replyFull = true) ∧ (fld v 0 0 = 1) :=
  ⟨chanIs 5 { replyFull := true } base, 5, 1, inv_ok (by decide +kernel), by decide +kernel⟩
theorem test_witness_tellers_carry_messages_5 : ∃ (s : State) (v : BitVec 64) (m : TlMsg), (fld v 63 36 = 0) ∧ (fld v 15 13 = 0) ∧ (fld v 35 32 < 4) ∧ (fld v 12 0 ≤ 4096) ∧ (inboxMsg s s.tel.inbSel = some m) ∧ ((chanOf s s.tel.inbSel).replyFull = false) ∧ ((fld v 12 0 = 0 → tlQuiet s s.tel.inbSel = true)) :=
  ⟨chanIs 5 { msg := some { tlMsg 1 [] with dest := 2 } } base, 0, { tlMsg 1 [] with dest := 2 }, by decide +kernel⟩
theorem test_witness_tellers_carry_messages_6 : ∃ (s : State) (v : BitVec 64) (w : BitVec 64) (m : TlMsg), (fld v 63 36 = 0) ∧ (fld v 15 13 = 0) ∧ (fld v 35 32 < 4) ∧ (fld v 12 0 = 0) ∧ (inboxMsg s s.tel.inbSel = some m) ∧ (m.seq = fld v 31 16) ∧ ((chanOf s s.tel.inbSel).replyFull = false) ∧ ((chanOf s s.tel.inbSel).turned = some (s.time.cycle, w)) ∧ (fld w 63 48 = 0) ∧ (fld w 19 13 = 0) ∧ (fld w 12 0 ≤ 4096) ∧ (tlAllowed s.tel.inbSel (fld w 23 20) = true) ∧ ((s.tel.inbSel < 64 → (tenantOf s s.tel.inbSel).st = .active)) :=
  ⟨chanIs 5 { msg := some { tlMsg 1 [] with dest := 2 }, turned := some (0, 4096) } base, 0x10000, 4096, { tlMsg 1 [] with dest := 2 }, by decide +kernel⟩
theorem test_witness_tellers_carry_messages_7 : ∃ (s : State) (c : Nat) (m : TlMsg), (answering s = true) ∧ (tlOldest s 0 = some (c, m)) ∧ ((chanOf s c).msg = some m) ∧ (tlQuiet s c = true) ∧ (m.verb ≠ 1) ∧ (c ≠ 67) :=
  ⟨chanIs 5 { msg := some { tlMsg 2 [] with dest := 0 } } base, 5, { tlMsg 2 [] with dest := 0 }, by decide +kernel⟩
def askObj : TlMsg := { tlMsg 1 (leBytes (1 + 256 * 255 + 65536 * 0x1000) 4 ++ leBytes 0 4 ++ leBytes 0 4 ++ leBytes 4 4) with dest := 0 }
theorem test_witness_tellers_carry_messages_8 : ∃ (s : State) (c : Nat) (m : TlMsg) (index : Nat) (sub : Nat) (off : Nat) (len : Nat), (answering s = true) ∧ (tlOldest s 0 = some (c, m)) ∧ ((chanOf s c).msg = some m) ∧ ((chanOf s c).replyFull = false) ∧ (m.verb = 1) ∧ (c ≠ 67) ∧ (m.bytes = leBytes (1 + 256 * sub + 65536 * index) 4 ++ leBytes 0 4 ++ leBytes off 4 ++ leBytes len 4) ∧ (sub < 256) ∧ (index < 65536) ∧ (off < 2 ^ 32) ∧ (len < 2 ^ 32) :=
  ⟨chanIs 5 { msg := some askObj } base, 5, askObj, 0x1000, 255, 0, 4, by decide +kernel⟩
theorem test_witness_tellers_carry_messages_9 : ∃ (s : State) (v : Nat), (live s = true) ∧ (v < 2 ^ 32) :=
  ⟨base, 0, by decide +kernel⟩
theorem test_witness_tellers_carry_messages_10 : ∃ (s : State) (off : Nat) (data : List Byte), (live s = true) ∧ (data.length = 3) ∧ (off + 3 ≤ 0x40000) :=
  ⟨base, 0x3FFFD, [1, 2, 3], by decide +kernel⟩
theorem test_witness_tellers_carry_messages_11 : ∃ (s : State), (live s = true) ∧ (obj s 0x1021 2 ≠ 1) :=
  ⟨base, by decide +kernel⟩

def trussIs (f : Truss → Truss) (s : State) : State := { s with truss := f s.truss }
def powered (f : Power → Power) (s : State) : State := { s with pwr := f s.pwr }
def shaped (f : Shaping → Shaping) (s : State) : State := { s with shape := f s.shape }
def tallied (f : Tally → Tally) (s : State) : State := { s with tal := f s.tal }
def domIs (index sub : Nat) (b : List Byte) (s : State) : State := { s with dict := { s.dict with doms := [(okey index sub, b)] } }

theorem test_witness_truss_carries_on_1 : ∃ (s : State) (bs : List Byte), (live s = true) ∧ (s.truss.draining = false) ∧ (s.truss.next = some bs) ∧ (trussTableOk bs = true) :=
  ⟨trussIs (fun x => { x with next := some trussDefault }) base, trussDefault, by decide +kernel⟩
theorem test_witness_truss_carries_on_2 : ∃ (s : State) (bs : List Byte), (live s = true) ∧ (s.truss.draining = false) ∧ (s.truss.next = some bs) ∧ (trussTableOk bs = false) :=
  ⟨trussIs (fun x => { x with next := some [] }) base, [], by decide +kernel⟩
theorem test_witness_truss_carries_on_3 : ∃ (s : State), (live s = true) ∧ (s.truss.draining = true) :=
  ⟨trussIs (fun x => { x with draining := true }) base, by decide +kernel⟩
theorem test_witness_truss_carries_on_4 : ∃ (s : State) (bs : List Byte), (s.truss.draining = true) ∧ (s.truss.left = 0) ∧ (s.truss.next = some bs) :=
  ⟨trussIs (fun x => { x with draining := true, next := some trussDefault }) base, trussDefault, by decide +kernel⟩
def pkt : Packet := ⟨1, 0, 0, 0, 0, true, 64, [3, 4], true⟩
theorem test_witness_truss_carries_on_5 : ∃ (s : State) (dest : Nat) (p : Packet) (pre : List Packet) (rest : List Packet), (s.truss.packets = pre ++ p :: rest) ∧ ((∀ q ∈ pre, q.desc = p.desc → q.sent = true → dest ∉ q.wait)) ∧ (p.sent = true) ∧ (dest ∈ p.wait) :=
  ⟨trussIs (fun x => { x with packets := [{ pkt with desc := 0 }, pkt] }) base, 4, pkt, [{ pkt with desc := 0 }], [], by decide +kernel⟩
theorem test_witness_truss_carries_on_6 : ∃ (s : State) (link : Fin 22) (dir : Bool) (k : Nat), (live s = true) ∧ (k = 2 * link.val + (if dir then 1 else 0)) ∧ (tget 0 s.truss.crc k < 3) :=
  ⟨trussIs (fun x => { x with crc := [(43, 2)] }) base, 21, true, 43, by decide +kernel⟩
theorem test_witness_truss_carries_on_7 : ∃ (s : State) (link : Fin 22) (dir : Bool) (k : Nat), (live s = true) ∧ (k = 2 * link.val + (if dir then 1 else 0)) ∧ (3 ≤ tget 0 s.truss.crc k) ∧ (tget 0 s.truss.lost k + 1 < trussGroups link.val) :=
  ⟨trussIs (fun x => { x with crc := [(0, 3)], lost := [(0, 6)] }) base, 0, false, 0, by decide +kernel⟩
theorem test_witness_truss_carries_on_8 : ∃ (s : State) (link : Fin 22) (dir : Bool) (k : Nat), (live s = true) ∧ (k = 2 * link.val + (if dir then 1 else 0)) ∧ (3 ≤ tget 0 s.truss.crc k) ∧ (trussGroups link.val ≤ tget 0 s.truss.lost k + 1) ∧ (obj s 0x2020 7 ≠ 1) :=
  ⟨trussIs (fun x => { x with crc := [(0, 3)], lost := [(0, 7)] }) base, 0, false, 0, by decide +kernel⟩
theorem test_witness_truss_carries_on_9 : ∃ (s : State) (c : Nat), (s.pwr.dev = .quiescing) ∧ (s.pwr.resetAt = some c) ∧ (arrivalWins (c + 8 + obj s 0x2500 8) delivers s = false) :=
  ⟨powered (fun p => { p with dev := .quiescing, resetAt := some 0 }) base, 0, by decide +kernel⟩
def gates : List Byte := [0, 1, 0, 0, 0, 0, 0, 0, 255, 0, 0, 0]
def gList : GateList := (gateParse gates).getD {}
theorem test_witness_gates_and_tolls_1 : ∃ (s : State) (p : Prin) (l : GateList), (live s = true) ∧ (mayTouch p 0x2600 5 = true) ∧ (gateParse (objDom s 0x2600 2) = some l) ∧ (gateTimeOk s (obj s 0x2600 3) (obj s 0x2600 4) = true) :=
  ⟨setObj 0x2600 3 1 (setObj 0x2600 4 1 (domIs 0x2600 2 gates base)), .s, gList, by decide +kernel⟩
theorem test_witness_gates_and_tolls_2 : ∃ (s : State) (p : Prin) (l : GateList), (live s = true) ∧ (mayTouch p 0x2600 5 = true) ∧ (gateParse (objDom s 0x2600 2) = some l) ∧ (gateTimeOk s (obj s 0x2600 3) (obj s 0x2600 4) = false) :=
  ⟨setObj 0x2600 3 1 (setObj 0x2600 4 0 (domIs 0x2600 2 gates base)), .s, gList, by decide +kernel⟩
theorem test_witness_gates_and_tolls_3 : ∃ (s : State) (p : Prin), (live s = true) ∧ (mayTouch p 0x2600 5 = true) ∧ (gateParse (objDom s 0x2600 2) = none) :=
  ⟨base, .s, by decide +kernel⟩
theorem test_witness_gates_and_tolls_4 : ∃ (s : State) (p : Prin), (live s = true) ∧ (mayTouch p 0x2600 5 = false) :=
  ⟨base, .t 5, by decide +kernel⟩
theorem test_witness_gates_and_tolls_5 : ∃ (s : State) (l : GateList) (at_ : Nat), (s.shape.change = some (l, 1, at_)) ∧ ((∀ r ∈ s.coh.reqs, r.stage ≠ .gated)) :=
  ⟨shaped (fun x => { x with change := some (gList, 1, 0) }) base, gList, 0, by decide +kernel⟩
theorem test_witness_gates_and_tolls_6 : ∃ (s : State) (l : GateList) (at_ : Nat), (s.shape.change = some (l, 0, at_)) ∧ (s.clk.st = .locked ∨ s.clk.st = .overrun) ∧ (s.clk.last = bitsOf at_ 47 0) ∧ ((∀ r ∈ s.coh.reqs, r.stage ≠ .gated)) :=
  ⟨shaped (fun x => { x with change := some (gList, 0, 7) }) (clocked (fun c => { c with st := .overrun, last := 7 }) base), gList, 7, by decide +kernel⟩
theorem test_witness_gates_and_tolls_7 : ∃ (s : State) (l : GateList) (at_ : Nat), (s.shape.change = some (l, 0, at_)) ∧ (s.clk.st = .unlocked ∨ s.clk.st = .coast ∨ s.clk.last < bitsOf at_ 47 0) :=
  ⟨shaped (fun x => { x with change := some (gList, 0, 7) }) base, gList, 7, by decide +kernel⟩
theorem test_witness_gates_and_tolls_8 : ∃ (s : State) (e : Nat × Nat), (s.shape.active.cyclic = true) ∧ (s.clk.stepDev ≤ 2 ^ 65) ∧ (stepAge s + 2 * (e.1 - gatePos s s.shape.active) < 2 ^ 65) ∧ (s.shape.active.entries.find? (fun e => decide (gatePos s s.shape.active < e.1)) = some e) ∧ (e.1 < s.shape.active.cycleNs) ∧ ((∀ r ∈ s.coh.reqs, r.stage ≠ .gated)) :=
  ⟨shaped (fun x => { x with active := { cyclic := true, cycleNs := 1000, entries := [(0, 255), (999, 0)] } }) base, (999, 0), by decide +kernel⟩
theorem test_witness_gates_and_tolls_9 : ∃ (s : State) (e : Nat × Nat), (s.shape.active.cyclic = false) ∧ (s.shape.active.entries.find? (fun e => decide (phaseOf s < e.1)) = some e) ∧ ((∀ r ∈ s.coh.reqs, r.stage ≠ .gated)) :=
  ⟨shaped (fun x => { x with active := { entries := [(0, 255), (65535, 0)] } }) base, (65535, 0), by decide +kernel⟩
def tollF : Flight := { flight 1 with stage := .tolled }
def tolled (k : Toll) : State := setObj (0x3002 + 16 * 5) 1 1 (setObj (0x3002 + 16 * 5) 2 8 (setObj (0x3002 + 16 * 5) 3 64 (shaped (fun x => { x with tolls := [(5, k)] }) (flying tollF base))))
theorem test_witness_gates_and_tolls_10 : ∃ (s : State) (k : Nat) (id : Nat) (len : Nat) (cin : Nat) (rest : List (Nat × Nat × Nat × Nat)) (f : Flight), (k < 64) ∧ ((tollNow s k).queue = (id, len, 0, cin) :: rest) ∧ (tollField s k 1 ≠ 0) ∧ (flightOf s id = some f) ∧ (f.stage = .tolled) :=
  ⟨tolled { queue := [(1, 64, 0, 1)] }, 5, 1, 64, 1, [], tollF, by decide +kernel⟩
theorem test_witness_gates_and_tolls_11 : ∃ (s : State) (k : Nat) (id : Nat) (len : Nat) (c : Nat) (cin : Nat) (rest : List (Nat × Nat × Nat × Nat)) (f : Flight), (k < 64) ∧ ((tget ({} : Toll) s.shape.tolls k).on = true) ∧ ((tget ({} : Toll) s.shape.tolls k).at_ ≤ s.time.cycle) ∧ ((tget ({} : Toll) s.shape.tolls k).queue = (id, len, 1, cin) :: rest) ∧ (tollField s k 1 ≠ 0) ∧ (tollField s k 9 = 0) ∧ (tollWait (tollNow s k).tc (min len (tollField s k 3) * 2000) (tollField s k 2) = some c) ∧ (flightOf s id = some f) ∧ (f.stage = .tolled) :=
  ⟨tolled { on := true, queue := [(1, 64, 1, 1)] }, 5, 1, 64, (tollWait (tollNow (tolled { on := true, queue := [(1, 64, 1, 1)] }) 5).tc (min 64 (tollField (tolled {}) 5 3) * 2000) (tollField (tolled {}) 5 2)).getD 0, 1, [], tollF, by decide +kernel⟩
theorem test_witness_tallies_reset_and_freeze_1 : ∃ (s : State) (p : Prin) (v : BitVec 8) (g : Nat), (live s = true) ∧ (mayTouch p 0x7004 1 = true) ∧ ((v = 1 ∧ g = 0x7001) ∨ (v = 2 ∧ g = 0x7002) ∨ (v = 3 ∧ g = 0x7003) ∨ (v = 4 ∧ g = 0x7100)) :=
  ⟨base, .s, 4, 0x7100, by decide +kernel⟩
theorem test_witness_tallies_reset_and_freeze_2 : ∃ (s : State) (p : Prin), (live s = true) ∧ (mayTouch p 0x7004 1 = true) :=
  ⟨base, .s, by decide +kernel⟩
theorem test_witness_tallies_reset_and_freeze_3 : ∃ (s : State) (p : Prin) (v : BitVec 8), (live s = true) ∧ (mayTouch p 0x7004 1 = true) ∧ (v.toNat = 0 ∨ (4 < v.toNat ∧ v.toNat < 0xFF)) :=
  ⟨base, .s, 5, by decide +kernel⟩
theorem test_witness_tallies_reset_and_freeze_4 : ∃ (s : State) (p : Prin) (n : Fin 64), (live s = true) ∧ (mayTouch p (0x3008 + 16 * n.val) 0x10 = true) :=
  ⟨base, .s, 63, by decide +kernel⟩
theorem test_witness_tallies_reset_and_freeze_5 : ∃ (s : State) (p : Prin), (live s = true) ∧ (mayTouch p 0x7000 2 = true) ∧ (s.tal.frozen = false) :=
  ⟨base, .s, by decide +kernel⟩
theorem test_witness_tallies_reset_and_freeze_6 : ∃ (s : State) (p : Prin), (live s = true) ∧ (mayTouch p 0x7000 2 = true) ∧ (s.tal.frozen = true) :=
  ⟨tallied (fun t => { t with frozen := true }) base, .s, by decide +kernel⟩
theorem test_witness_tallies_reset_and_freeze_7 : ∃ (s : State), (s.tal.freezeWait = true) ∧ (s.tal.frozen = false) :=
  ⟨tallied (fun t => { t with freezeWait := true }) base, by decide +kernel⟩
theorem test_witness_tallies_reset_and_freeze_8 : ∃ (s : State), (s.tal.freezeWait = false) :=
  ⟨base, by decide +kernel⟩
def rec1 : BitVec 256 := 1
theorem test_witness_traces_record_1 : ∃ (s : State) (die : Fin 2) (a : BitVec 256) (b : BitVec 256) (rest : List (BitVec 256)), ((traceOf s die.val).wait = false) ∧ ((traceOf s die.val).fifo = a :: b :: rest) ∧ ((traceOf s die.val).st = 1) ∧ (s.tal.mode = 2 ∨ s.tal.mode = 3) :=
  ⟨tallied (fun t => { t with mode := 3, io1 := { fifo := [rec1, 2, 3], st := 1 } }) base, 1, rec1, 2, [3], by decide +kernel⟩
theorem test_witness_traces_record_2 : ∃ (s : State) (die : Fin 2), ((traceOf s die.val).wait = false) ∧ ((traceOf s die.val).st = 0 ∨ (traceOf s die.val).st = 3) :=
  ⟨tallied (fun t => { t with io0 := { fifo := [rec1], st := 3 } }) base, 0, by decide +kernel⟩
theorem test_witness_traces_record_3 : ∃ (s : State) (die : Fin 2) (a : BitVec 256), ((traceOf s die.val).wait = false) ∧ ((traceOf s die.val).fifo = [a]) ∧ ((traceOf s die.val).st = 1) ∧ (s.tal.mode = 1) ∧ (65535 ≤ (traceOf s die.val).wr) :=
  ⟨tallied (fun t => { t with mode := 1, io0 := { fifo := [rec1], st := 1, wr := 65535 } }) base, 0, rec1, by decide +kernel⟩
theorem test_witness_traces_record_4 : ∃ (s : State) (die : Fin 2) (a : BitVec 256), ((traceOf s die.val).wait = false) ∧ ((traceOf s die.val).fifo = [a]) ∧ ((traceOf s die.val).st = 2) ∧ (s.tal.mode = 3) :=
  ⟨tallied (fun t => { t with mode := 3, io0 := { fifo := [rec1], st := 2, left := 1 } }) base, 0, rec1, by decide +kernel⟩
theorem test_witness_traces_record_5 : ∃ (s : State) (p : Prin), (live s = true) ∧ (mayTouch p 0x7300 6 = true) :=
  ⟨base, .s, by decide +kernel⟩
theorem test_witness_traces_record_6 : ∃ (s : State) (p : Prin), (live s = true) ∧ (mayTouch p 0x7300 9 = true) ∧ (s.tal.mode = 3) ∧ (traceArmed s = true) :=
  ⟨tallied (fun t => { t with mode := 3, io0 := { st := 1 } }) base, .s, by decide +kernel⟩
theorem test_witness_traces_record_7 : ∃ (s : State) (p : Prin), (live s = true) ∧ (mayTouch p 0x7300 9 = true) ∧ (s.tal.mode ≠ 0) ∧ (s.tal.armedFrom ≤ s.time.cycle) ∧ (s.tal.io0.st ≠ 0) ∧ (s.tal.mode ≠ 3 ∨ traceArmed s = false) :=
  ⟨tallied (fun t => { t with mode := 1, io0 := { st := 1 } }) base, .s, by decide +kernel⟩
theorem test_witness_traces_record_8 : ∃ (s : State) (die : Fin 2), ((traceOf s die.val).wait = true) ∧ ((traceOf s die.val).lost = 0) ∧ ((traceOf s die.val).hidden = 0) :=
  ⟨tallied (fun t => { t with io1 := { st := 1, wait := true } }) base, 1, by decide +kernel⟩
theorem test_witness_power_rises_and_falls_1 : ∃ (s : State) (mv : Nat), (s.pwr.dev = .shutdown) ∧ (40000 ≤ mv) ∧ (mv ≤ 60000) :=
  ⟨powered (fun p => { p with dev := .shutdown }) base, 60000, by decide +kernel⟩
theorem test_witness_power_rises_and_falls_2 : ∃ (s : State) (mv : Nat), (s.pwr.dev ≠ .shutdown ∨ mv < 40000 ∨ 60000 < mv) :=
  ⟨powered (fun p => { p with dev := .shutdown }) base, 60001, by decide +kernel⟩
theorem test_witness_power_rises_and_falls_3 : ∃ (s : State), (s.pwr.dev = .starting) ∧ (s.pwr.step = 1 ∨ s.pwr.step = 2 ∨ s.pwr.step = 3) :=
  ⟨powered (fun p => { p with dev := .starting, step := 3 }) base, by decide +kernel⟩
theorem test_witness_power_rises_and_falls_4 : ∃ (s : State), (s.pwr.dev = .starting) ∧ (s.pwr.step = 4) :=
  ⟨powered (fun p => { p with dev := .starting, step := 4 }) base, by decide +kernel⟩
theorem test_witness_power_rises_and_falls_5 : ∃ (s : State), (s.pwr.dev = .starting) ∧ (s.pwr.step = 5) :=
  ⟨powered (fun p => { p with dev := .starting, step := 5 }) base, by decide +kernel⟩
theorem test_witness_power_rises_and_falls_6 : ∃ (s : State) (images : List Byte), (s.pwr.dev = .starting) ∧ (s.pwr.step = 6) ∧ (s.pwr.ended7 = false) ∧ (byteAt images 0 = 7) :=
  ⟨powered (fun p => { p with dev := .starting, step := 6 }) base, [7], by decide +kernel⟩
theorem test_witness_power_rises_and_falls_7 : ∃ (s : State) (images : List Byte), (Inv s) ∧ (s.pwr.dev = .starting) ∧ (s.pwr.step = 6) ∧ (s.pwr.ended6 = false) ∧ (byteAt images 0 ≠ 7) ∧ ((∀ p ∈ s.hbm.ctl, p.2.st ≠ .initialising)) ∧ ((∀ c, c < 24 → byteAt images (2 * c + 2) ≠ 1)) :=
  ⟨powered (fun p => { p with dev := .starting, step := 6 }) base, [], inv_ok (by decide +kernel), by decide +kernel⟩
theorem test_witness_power_rises_and_falls_8 : ∃ (s : State) (images : List Byte), (Inv s) ∧ ((∃ p ∈ s.hbm.ctl, p.2.st = .initialising)) ∧ (s.pwr.dev = .starting) ∧ (s.pwr.step = 6) ∧ (s.pwr.ended6 = false) ∧ (byteAt images 0 ≠ 7) ∧ (leNat (slice images 5 3) = 0) :=
  ⟨powered (fun p => { p with dev := .starting, step := 6 }) { base with hbm := { base.hbm with ctl := [(23, { st := .initialising })] } }, [], inv_ok (by decide +kernel), ⟨_, List.mem_singleton.mpr rfl, rfl⟩, by decide +kernel⟩
theorem test_witness_power_rises_and_falls_9 : ∃ (s : State), (s.pwr.dev ≠ .shutdown) :=
  ⟨base, by decide +kernel⟩
theorem test_witness_power_rises_and_falls_10 : ∃ (s : State), (live s = true) :=
  ⟨base, by decide +kernel⟩
theorem test_witness_power_rises_and_falls_11 : ∃ (s : State) (v : BitVec 8), (live s = true) ∧ (v ≠ 0xA5) :=
  ⟨base, 0, by decide +kernel⟩
theorem test_witness_power_rises_and_falls_12 : ∃ (s : State) (cause : BitVec 8), (5 ≤ cause.toNat) ∧ (cause.toNat ≤ 7) ∧ (s.pwr.dev ≠ .shutdown) :=
  ⟨base, 7, by decide +kernel⟩
theorem test_witness_power_rises_and_falls_13 : ∃ (s : State), (live s = true) ∧ (obj s 0x2020 7 ≠ 1) :=
  ⟨base, by decide +kernel⟩
theorem test_witness_power_rises_and_falls_14 : ∃ (s : State), (live s = true) ∧ (obj s 0x2020 7 = 1) ∧ (s.pwr.resetAt = none) :=
  ⟨setObj 0x2020 7 1 base, by decide +kernel⟩
theorem test_witness_power_rises_and_falls_15 : ∃ (s : State), (live s = true) ∧ (obj s 0x2020 7 ≠ 1) :=
  ⟨base, by decide +kernel⟩
theorem test_witness_device_resets_1 : ∃ (s : State), (s.pwr.dev = .ready) ∧ (s.pwr.resetAt = none) :=
  ⟨base, by decide +kernel⟩
theorem test_witness_device_resets_2 : ∃ (s : State), (s.pwr.dev = .starting ∨ s.pwr.dev = .quiescing ∨ s.pwr.dev = .reset ∨ s.pwr.dev = .shutdown) :=
  ⟨powered (fun p => { p with dev := .reset }) base, by decide +kernel⟩
theorem test_witness_device_resets_3 : ∃ (s : State) (p : Prin), (s.pwr.dev = .ready ∨ s.pwr.dev = .failed) ∧ (mayTouch p 0x2020 1 = true) ∧ (s.pwr.resetAt = none) :=
  ⟨powered (fun p => { p with dev := .failed }) base, .s, by decide +kernel⟩
theorem test_witness_device_resets_4 : ∃ (s : State) (p : Prin), (answering s = true) ∧ (mayTouch p 0x2020 1 = true) ∧ (s.pwr.resetAt ≠ none) :=
  ⟨powered (fun p => { p with dev := .quiescing, resetAt := some 0 }) base, .s, by decide +kernel⟩
theorem test_witness_device_resets_5 : ∃ (s : State) (p : Prin) (v : BitVec 8), (answering s = true) ∧ (mayTouch p 0x2020 1 = false ∨ v ≠ 0xA5) :=
  ⟨base, .s, 0, by decide +kernel⟩
theorem test_witness_device_resets_6 : ∃ (s : State) (c : Nat), (s.pwr.dev = .quiescing) ∧ (s.pwr.resetAt = some c) :=
  ⟨powered (fun p => { p with dev := .quiescing, resetAt := some 0 }) base, 0, by decide +kernel⟩
theorem test_witness_device_resets_7 : ∃ (s : State) (c : Nat), (s.pwr.dev = .reset) ∧ (s.pwr.resetAt = some c) :=
  ⟨powered (fun p => { p with dev := .reset, resetAt := some 0 }) base, 0, by decide +kernel⟩
theorem test_witness_device_resets_8 : ∃ (s : State) (c : Nat), (live s = true) ∧ (s.pwr.dogStart = some c) :=
  ⟨powered (fun p => { p with dogStart := some 0 }) base, 0, by decide +kernel⟩
theorem test_witness_device_resets_9 : ∃ (s : State) (v : Bool), (live s = true) ∧ (s.pwr.dogStart = none ∨ v = false) :=
  ⟨base, true, by decide +kernel⟩
theorem test_witness_device_resets_10 : ∃ (s : State) (c : Nat), (s.pwr.dogStart = some c) ∧ (obj s 0x2020 3 ≠ 0) ∧ (s.pwr.dev = .ready) ∧ (s.pwr.resetAt = none) ∧ (arrivalWins (c + msCycles (obj s 0x2020 3)) kicks s = false) :=
  ⟨setObj 0x2020 3 1 (powered (fun p => { p with dogStart := some 0 }) base), 0, by decide +kernel⟩
theorem test_witness_device_resets_11 : ∃ (s : State), (s.pwr.dev ≠ .shutdown) :=
  ⟨base, by decide +kernel⟩

def ported (f : Ports → Ports) (s : State) : State := { s with ports := f s.ports }
def canIs (f : Can → Can) (s : State) : State := { s with can := f s.can }
def spanIs (f : Span → Span) (s : State) : State := { s with span := f s.span }
def ethed : State := setObj 0x5500 2 (2 * 2 ^ 28) (setObj 0x2100 6 2 (setObj 0x5502 2 0 base))

theorem test_witness_ports_train_and_fail_1 : ∃ (s : State) (p : Fin 14) (data : List Byte), (live s = true) ∧ (p.val < 4 ∨ 12 ≤ p.val) ∧ (portSupports p.val (leNat (data.take 4) / 2 ^ 24 % 16) (leNat (data.take 4) / 2 ^ 16 % 256) (leNat (data.take 4) / 2 ^ 8 % 256) = true) :=
  ⟨base, 13, [0, 8, 80, 5], by decide +kernel⟩
theorem test_witness_ports_train_and_fail_2 : ∃ (s : State) (p : Fin 14) (data : List Byte), ((∀ n, byteAt (objDom s 0x4210 (n + 1)) 0 ≠ 1)) ∧ (live s = true) ∧ (s.dict.waiting = []) ∧ (8 ≤ p.val) ∧ (p.val < 12) ∧ (portSupports p.val (leNat (data.take 4) / 2 ^ 24 % 16) (leNat (data.take 4) / 2 ^ 16 % 256) (leNat (data.take 4) / 2 ^ 8 % 256) = true) :=
  ⟨base, 8, [0, 16, 64, 4], (fun n => by show byteAt (objDom base 0x4210 (n + 1)) 0 ≠ 1; have : objDom base 0x4210 (n + 1) = [] := rfl; rw [this]; decide), by decide +kernel⟩
theorem test_witness_ports_train_and_fail_3 : ∃ (p : Fin 14) (data : List Byte), (portSupports p.val (leNat (data.take 4) / 2 ^ 24 % 16) (leNat (data.take 4) / 2 ^ 16 % 256) (leNat (data.take 4) / 2 ^ 8 % 256) = false) :=
  ⟨13, [], by decide +kernel⟩
theorem test_witness_ports_train_and_fail_4 : ∃ (s : State) (p : Fin 4) (v : UpErr), (tget ({} : UpErr) s.ports.up p.val = v) :=
  ⟨base, 3, {}, by decide +kernel⟩
theorem test_witness_ports_train_and_fail_5 : ∃ (s : State) (p : Fin 4), (obj s 0x5200 (p.val + 1) / 2 ^ 28 % 16 ≠ 0) :=
  ⟨cxled, 0, by decide +kernel⟩
theorem test_witness_ports_train_and_fail_6 : ∃ (s : State) (p : Fin 4), (obj s 0x5200 (p.val + 1) = 0) :=
  ⟨base, 3, by decide +kernel⟩
theorem test_witness_ports_train_and_fail_7 : ∃ (s : State) (n : Fin 32), ((tget ({} : Tray) s.kv.trays n.val).active = true) ∧ (arrivalWins (s.time.cycle + 2000 * obj s 0x5302 1) bringsMove s = false) :=
  ⟨base.setKv (fun k => { k with trays := [(31, { active := true })] }), 31, by decide +kernel⟩
def nvc : NvmeCmd := { port := 3, cid := 1, ns := 0, opc := 1, move := none, block := none, at_ := 0, aborting := false }
theorem test_witness_ports_train_and_fail_8 : ∃ (s : State) (p : Fin 4) (cid : Nat) (c : NvmeCmd), (s.ports.nvme.find? (fun c => c.port == p.val && c.cid == cid) = some c) ∧ (c.aborting = false) ∧ (arrivalWins (c.at_ + msCycles (obj s 0x5401 1)) (bringsCompletion p.val cid) s = false) :=
  ⟨ported (fun p => { p with nvme := [nvc] }) base, 3, 1, nvc, by decide +kernel⟩
theorem test_witness_ports_train_and_fail_9 : ∃ (s : State) (p : Fin 4) (cid : Nat) (c : NvmeCmd), (s.ports.nvme = [c]) ∧ (c.port = p.val) ∧ (c.cid = cid) ∧ (c.aborting = true) ∧ (c.move = none) ∧ (c.block = none) ∧ (s.ports.resetting = []) ∧ (arrivalWins (c.at_ + msCycles (obj s 0x5401 1)) (bringsCompletion p.val cid) s = false) :=
  ⟨ported (fun p => { p with nvme := [{ nvc with aborting := true }] }) base, 3, 1, { nvc with aborting := true }, by decide +kernel⟩
theorem test_witness_ports_train_and_fail_10 : ∃ (s : State) (p : Fin 4) (cid : Nat) (id : Nat) (c : NvmeCmd), (s.ports.nvme.find? (fun c => c.port == p.val && c.cid == cid) = some c) ∧ (c.move = some id) ∧ ((s.kv.moves.any fun m => m.id == id && m.started) = true) :=
  ⟨ported (fun p => { p with nvme := [{ nvc with move := some 1 }] }) (moving move base), 3, 1, 1, { nvc with move := some 1 }, by decide +kernel⟩
theorem test_witness_ports_train_and_fail_11 : ∃ (s : State) (p : Fin 4) (cid : Nat) (c : NvmeCmd), (s.ports.nvme.find? (fun c => c.port == p.val && c.cid == cid) = some c) ∧ (c.move = none) ∧ (c.block = none) :=
  ⟨ported (fun p => { p with nvme := [nvc] }) base, 3, 1, nvc, by decide +kernel⟩
theorem test_witness_ports_train_and_fail_12 : ∃ (s : State) (p : Fin 4), (p.val ∈ s.ports.resetting) :=
  ⟨ported (fun p => { p with resetting := [3] }) base, 3, by decide +kernel⟩
theorem test_witness_ports_train_and_fail_13 : ∃ (s : State) (p : Fin 4), (p.val ∈ s.ports.resetting) ∧ (tget 0 s.ports.resets p.val + 1 < obj s 0x5401 2) ∧ ((∀ c ∈ s.ports.nvme, c.port ≠ p.val)) :=
  ⟨setObj 0x5401 2 2 (ported (fun p => { p with resetting := [3] }) base), 3, by decide +kernel⟩
theorem test_witness_ports_train_and_fail_14 : ∃ (s : State) (p : Fin 4), (p.val ∈ s.ports.resetting) ∧ (obj s 0x5401 2 ≤ tget 0 s.ports.resets p.val + 1) ∧ ((∀ t ∈ s.kv.nss, t.2.port = p.val → t.2.active = false)) :=
  ⟨setObj 0x5401 2 1 (ported (fun p => { p with resetting := [3] }) base), 3, by decide +kernel⟩
theorem test_witness_ethernet_is_handled_1 : ∃ (s : State) (p : Fin 2) (f : List Byte), (ethUp s p.val = true) ∧ (frameHandled f = false) :=
  ⟨ethed, 1, [], by decide +kernel⟩
theorem test_witness_ethernet_is_handled_2 : ∃ (s : State) (p : Fin 2) (f : List Byte), (ethOpen s p.val = true) ∧ (frameHandled f = true) :=
  ⟨ethed, 1, List.replicate 12 0 ++ [0x08, 0x06], by decide +kernel⟩
def ownRec : List Byte := List.replicate 26 0
def arpF : List Byte := List.replicate 12 0 ++ [8, 6] ++ List.replicate 6 0 ++ [0, 1] ++ List.replicate 20 0
theorem test_witness_ethernet_is_handled_3 : ∃ (s : State) (p : Fin 2) (f : List Byte) (r : List Byte), (ethOpen s p.val = true) ∧ (beAt f 12 2 = 0x0806) ∧ (arpReply (objDom s 0x5503 (p.val + 1)) f = some r) :=
  ⟨domIs 0x5503 2 ownRec ethed, 1, arpF, (arpReply ownRec arpF).getD [], by decide +kernel⟩
def ndF : List Byte := List.replicate 12 0 ++ [0x86, 0xDD] ++ List.replicate 6 0 ++ [58] ++ List.replicate 33 0 ++ [135] ++ List.replicate 23 0
theorem test_witness_ethernet_is_handled_4 : ∃ (s : State) (p : Fin 2) (f : List Byte) (r : List Byte), (ethOpen s p.val = true) ∧ (beAt f 12 2 = 0x86DD) ∧ (beAt f 20 1 = 58) ∧ (ndReply (objDom s 0x5503 (p.val + 1)) f = some r) ∧ (beAt f 54 1 = 135) :=
  ⟨domIs 0x5503 2 ownRec ethed, 1, ndF, (ndReply ownRec ndF).getD [], by decide +kernel⟩
theorem test_witness_ethernet_is_handled_5 : ∃ (s : State) (p : Fin 2), (ethUp s p.val = true) ∧ (s.mint.st = .running) ∧ (objDom s 0x5502 3 ≠ []) :=
  ⟨domIs 0x5502 3 [1] ethed, 1, by decide +kernel⟩
theorem test_witness_ethernet_is_handled_6 : ∃ (s : State) (p : Fin 2) (mask : BitVec 8) (i : Fin 8), (ethOpen s p.val = true) ∧ (mask.toNat &&& obj s 0x5504 (p.val + 1) = 2 ^ i.val) :=
  ⟨setObj 0x5504 2 0x80 ethed, 1, 0x80, 7, by decide +kernel⟩
theorem test_witness_ethernet_is_handled_7 : ∃ (s : State) (p : Fin 2), (ethUp s p.val = true) :=
  ⟨ethed, 1, by decide +kernel⟩
theorem test_witness_ethernet_is_handled_8 : ∃ (s : State) (p : Fin 2) (dom : BitVec 8) (off : Int), (ethOpen s p.val = true) ∧ (dom.toNat = obj s 0x5501 1) ∧ (obj s 0x2100 6 = p.val + 1) ∧ (obj s 0x5501 3 ≠ 1) ∧ (-100 ≤ off) ∧ (off ≤ 100) :=
  ⟨ethed, 1, BitVec.ofNat 8 (obj ethed 0x5501 1), 100, by decide +kernel⟩
theorem test_witness_ethernet_is_handled_9 : ∃ (s : State) (p : Fin 2) (dom : BitVec 8), (ethOpen s p.val = true) ∧ (dom.toNat = obj s 0x5501 1) ∧ (obj s 0x2100 6 = p.val + 1) ∧ (obj s 0x5501 3 = 1) :=
  ⟨setObj 0x5501 3 1 ethed, 1, BitVec.ofNat 8 (obj ethed 0x5501 1), by decide +kernel⟩
theorem test_witness_ethernet_is_handled_10 : ∃ (s : State) (p : Fin 2), (obj s 0x2100 6 = p.val + 1) ∧ (obj s 0x5501 3 = 1) ∧ (arrivalWins (tget s.time.cycle s.ports.syncAt p.val + msCycles (obj s 0x5501 2)) (bringsSync p.val) s = false) :=
  ⟨setObj 0x5501 3 1 ethed, 1, by decide +kernel⟩
def roced : State := domIs 0x5511 255 (List.replicate 43 0 ++ [1]) ethed
theorem test_witness_ethernet_is_handled_11 : ∃ (s : State) (p : Fin 2) (q : Fin 256), (ethOpen s p.val = true) ∧ (roceOn s p.val q.val = true) :=
  ⟨roced, 1, 255, by decide +kernel⟩
theorem test_witness_ethernet_is_handled_12 : ∃ (s : State) (p : Fin 2) (q : Fin 256), (ethOpen s p.val = true) ∧ (roceOn s p.val q.val = true) :=
  ⟨roced, 1, 255, by decide +kernel⟩
theorem test_witness_ethernet_is_handled_13 : ∃ (s : State) (p : Fin 2) (q : Fin 256) (v : Roce), (ethOpen s p.val = true) ∧ (roceOn s p.val q.val = true) ∧ (roceOf s (p.val * 256 + q.val) = v) :=
  ⟨roced, 1, 255, {}, by decide +kernel⟩
theorem test_witness_ethernet_is_handled_14 : ∃ (s : State) (q : Fin 256) (rec : List Byte), (live s = true) ∧ (q.val ≠ 0) ∧ (rec.length = 48) :=
  ⟨base, 255, List.replicate 48 0, by decide +kernel⟩
theorem test_witness_the_dictionary_answers_1 : ∃ (s : State) (u : State) (p : Prin) (path : Fin 80) (i : BitVec 16) (n : BitVec 8) (len : Nat) (r : ObjRow), (accessOn path.val s = u) ∧ (pathOpen s p path.val = true) ∧ (mctpShut s path.val = false) ∧ (u.dict.early = []) ∧ (accessCode p i.toNat n.toNat false u = 0) ∧ (len ≤ 1024) ∧ (objRow? i.toNat n.toNat = some r) :=
  ⟨base, accessOn 64 base, .s, 64, 0x1017, 0, 1024, (objRow? 0x1017 0).getD ⟨0, 0, 0, 0, 0, 0, 0, false⟩, rfl, by decide +kernel⟩
theorem test_witness_the_dictionary_answers_2 : ∃ (s : State) (u : State) (p : Prin) (path : Fin 80) (i : BitVec 16) (n : BitVec 8) (c : Nat), (accessOn path.val s = u) ∧ (pathOpen s p path.val = true) ∧ (mctpShut s path.val = false) ∧ (u.dict.early = []) ∧ (accessCode p i.toNat n.toNat false u = c) ∧ (c ≠ 0) :=
  ⟨base, accessOn 64 base, .s, 64, 0x0001, 0, accessCode .s 1 0 false (accessOn 64 base), rfl, by decide +kernel⟩
def earlyE : EarlyRead := { prin := .s, key := okey 0x1017 0, off := 0, len := 2, code := 0, size := 2, bytes := [0, 0] }
def earlyS : State := { base with dict := { base.dict with accAt := 0, wrote := [(okey 0x1017 0, 3)], early := [earlyE] } }
theorem test_witness_the_dictionary_answers_3 : ∃ (s : State) (u : State) (p : Prin) (path : Fin 80) (i : BitVec 16) (n : BitVec 8) (off : Nat) (len : Nat) (e : EarlyRead), (accessOn path.val s = u) ∧ (pathOpen s p path.val = true) ∧ (mctpShut s path.val = false) ∧ (u.dict.early = [e]) ∧ (e.prin = p) ∧ (e.key = okey i.toNat n.toNat) ∧ (e.off = off) ∧ (e.len = len) ∧ (e.code = 0) :=
  ⟨earlyS, accessOn 64 earlyS, .s, 64, 0x1017, 0, 0, 2, earlyE, rfl, by decide +kernel⟩
theorem test_witness_the_dictionary_answers_4 : ∃ (s : State) (p : Prin) (path : Fin 80), (pathOpen s p path.val = true) ∧ (mctpShut s path.val = true) :=
  ⟨setObj 0x1021 2 0 base, .m, 73, by decide +kernel⟩
def wrS : State := noteReads (accessOn 64 base)
theorem test_witness_the_dictionary_answers_5 : ∃ (s : State) (w : State) (u : State) (p : Prin) (path : Fin 80) (i : BitVec 16) (n : BitVec 8) (data : List Byte), (noteReads (accessOn path.val s) = w) ∧ (pathOpen s p path.val = true) ∧ (mctpShut s path.val = false) ∧ (accessCode p i.toNat n.toNat true w = 0) ∧ (data.length ≤ 1024) ∧ (objApply i.toNat n.toNat data w = (0, u)) ∧ (outranked p i.toNat n.toNat w = false) :=
  ⟨base, wrS, (objApply 0x1017 0 [1, 0] wrS).2, .s, 64, 0x1017, 0, [1, 0], rfl, by decide +kernel⟩
def laterS : State := { base with dict := { base.dict with accAt := 0, wrote := [(okey 0x1017 0, 5)] } }
def wrL : State := noteReads (accessOn 64 laterS)
theorem test_witness_the_dictionary_answers_6 : ∃ (s : State) (w : State) (u : State) (p : Prin) (path : Fin 80) (i : BitVec 16) (n : BitVec 8) (data : List Byte), (noteReads (accessOn path.val s) = w) ∧ (pathOpen s p path.val = true) ∧ (mctpShut s path.val = false) ∧ (accessCode p i.toNat n.toNat true w = 0) ∧ (data.length ≤ 1024) ∧ (objApply i.toNat n.toNat data w = (0, u)) ∧ (outranked p i.toNat n.toNat w = true) :=
  ⟨laterS, wrL, (objApply 0x1017 0 [1, 0] wrL).2, .s, 64, 0x1017, 0, [1, 0], rfl, by decide +kernel⟩
theorem test_witness_the_dictionary_answers_7 : ∃ (s : State) (w : State) (u : State) (p : Prin) (path : Fin 80) (i : BitVec 16) (n : BitVec 8) (data : List Byte) (c : Nat), (noteReads (accessOn path.val s) = w) ∧ (pathOpen s p path.val = true) ∧ (mctpShut s path.val = false) ∧ (accessCode p i.toNat n.toNat true w = 0) ∧ (data.length ≤ 1024) ∧ (objApply i.toNat n.toNat data w = (c, u)) ∧ (c ≠ 0) :=
  ⟨base, wrS, (objApply 0x1017 0 [1] wrS).2, .s, 64, 0x1017, 0, [1], (objApply 0x1017 0 [1] wrS).1, rfl, by decide +kernel⟩
theorem test_witness_the_dictionary_answers_9 : ∃ (s : State) (w : State) (p : Prin) (path : Fin 80) (i : BitVec 16) (n : BitVec 8) (total : Nat) (data : List Byte), (noteReads (accessOn path.val s) = w) ∧ (pathOpen s p path.val = true) ∧ (mctpShut s path.val = false) ∧ (accessCode p i.toNat n.toNat true w = 0) ∧ (data.length ≤ 1024) ∧ (stagedOf s path.val p = none) ∧ (data.length < total) ∧ (total ≤ 2 ^ 24) :=
  ⟨base, wrS, .s, 64, 0x2600, 2, 1025, List.replicate 1024 0, rfl, by decide +kernel⟩
def stg : Staged := { path := 64, prin := .s, key := okey 0x2600 2, total := 2048, bytes := List.replicate 1024 0, last := 0 }
def stgS : State := { base with dict := { base.dict with staged := [stg] } }
theorem test_witness_the_dictionary_answers_10 : ∃ (s : State) (w : State) (p : Prin) (path : Fin 80) (i : BitVec 16) (n : BitVec 8) (off : Nat) (data : List Byte) (g : Staged), (noteReads (accessOn path.val s) = w) ∧ (pathOpen s p path.val = true) ∧ (mctpShut s path.val = false) ∧ (accessCode p i.toNat n.toNat true w = 0) ∧ (data.length ≤ 1024) ∧ (stagedOf s path.val p = some g) ∧ (off ≠ 0) ∧ (off ≠ g.bytes.length) :=
  ⟨stgS, noteReads (accessOn 64 stgS), .s, 64, 0x2600, 2, 1023, [], stg, rfl, by decide +kernel⟩
theorem test_witness_the_dictionary_answers_11 : ∃ (s : State) (p : Prin) (path : Fin 80) (g : Staged), (pathOpen s p path.val = true) ∧ (stagedOf s path.val p = some g) :=
  ⟨stgS, .s, 64, stg, by decide +kernel⟩
theorem test_witness_the_dictionary_answers_12 : ∃ (s : State) (p : Prin) (path : Fin 80) (g : Staged), (stagedOf s path.val p = some g) ∧ (path.val ≠ 72) ∧ (arrivalWins (g.last + msCycles 100) (bringsPart p path.val) s = false) :=
  ⟨stgS, .s, 64, stg, by decide +kernel⟩
theorem test_witness_the_dictionary_answers_13 : ∃ (s : State), (answering s = true) :=
  ⟨base, by decide +kernel⟩
theorem test_witness_the_dictionary_answers_14 : ∃ (s : State), (answering s = true) :=
  ⟨base, by decide +kernel⟩
def canS : State := canIs (fun c => { c with nmt := 5 }) base
theorem test_witness_the_dictionary_answers_15 : ∃ (s : State) (u : State) (i : BitVec 16) (n : BitVec 8) (r : ObjRow), (accessOn 72 s = u) ∧ (canServes s = true) ∧ (s.can.usdo = none) ∧ (u.dict.early = []) ∧ (accessCode .m i.toNat n.toNat false u = 0) ∧ (objRow? i.toNat n.toNat = some r) :=
  ⟨canS, accessOn 72 canS, 0x1017, 0, (objRow? 0x1017 0).getD ⟨0, 0, 0, 0, 0, 0, 0, false⟩, rfl, by decide +kernel⟩
def wrC : State := noteReads (accessOn 72 canS)
theorem test_witness_the_dictionary_answers_16 : ∃ (s : State) (w : State) (u : State) (i : BitVec 16) (n : BitVec 8) (data : List Byte), (noteReads (accessOn 72 s) = w) ∧ (canServes s = true) ∧ (s.can.usdo = none) ∧ (accessCode .m i.toNat n.toNat true w = 0) ∧ (data.length ≤ 1024) ∧ (outranked .m i.toNat n.toNat w = false) ∧ (objApply i.toNat n.toNat data w = (0, u)) ∧ (stagedOf u 72 .m = none) :=
  ⟨canS, wrC, (objApply 0x1017 0 [1, 0] wrC).2, 0x1017, 0, [1, 0], rfl, by decide +kernel⟩
theorem test_witness_the_dictionary_answers_17 : ∃ (s : State), (answering s = true) ∧ (obj s 0x1017 0 ≠ 0) :=
  ⟨setObj 0x1017 0 1 base, by decide +kernel⟩
theorem test_witness_the_dictionary_answers_18 : ∃ (s : State) (e : Emcy) (rest : List Emcy), (canServes s = true) ∧ (s.can.emcy = e :: rest) ∧ (obj s 0x1021 2 = 0) :=
  ⟨setObj 0x1021 2 0 (canIs (fun c => { c with nmt := 127, emcy := [⟨1, 0, 0, 0, 0⟩] }) base), ⟨1, 0, 0, 0, 0⟩, [], by decide +kernel⟩
theorem test_witness_the_dictionary_answers_19 : ∃ (s : State), (answering s = true) :=
  ⟨base, by decide +kernel⟩
def i3cS : State := canIs (fun c => { c with i3c := 1 }) base
theorem test_witness_the_dictionary_answers_20 : ∃ (s : State) (e : BitVec 8), (mctpUp s = true) ∧ (e ≠ 0) ∧ (e ≠ 0xFF) :=
  ⟨i3cS, 0xFE, by decide +kernel⟩
theorem test_witness_the_dictionary_answers_21 : ∃ (s : State) (e : BitVec 8), (mctpUp s = true) ∧ (e = 0 ∨ e = 0xFF) :=
  ⟨i3cS, 0xFF, by decide +kernel⟩
theorem test_witness_the_dictionary_answers_22 : ∃ (s : State), (mctpUp s = true) :=
  ⟨i3cS, by decide +kernel⟩
theorem test_witness_the_dictionary_answers_23 : ∃ (s : State) (ty : BitVec 8), (mctpUp s = true) ∧ (ty = 0xFF ∨ ty = 0 ∨ ty = 5 ∨ ty = 0x7F) :=
  ⟨i3cS, 0x7F, by decide +kernel⟩
theorem test_witness_the_dictionary_answers_24 : ∃ (s : State), (mctpUp s = true) :=
  ⟨i3cS, by decide +kernel⟩
def mapR : List Byte := [0, 0, 0xFF, 0, 1] ++ List.replicate 1547 0 ++ List.replicate 256 0xFF
theorem mapR_pre : ([0, 0, 0xFF, 0, 1] ++ List.replicate 1547 (0 : Byte)).length = 1552 := by
  rw [List.length_append, List.length_replicate]; rfl
theorem mapR_len : mapR.length = 1808 := by
  unfold mapR; rw [List.length_append, mapR_pre, List.length_replicate]
theorem mapR_tree (k : Nat) (h : k < 256) : byteAt mapR (1552 + k) = 0xFF := by
  have e : mapR[1552 + k]? = some 0xFF := by
    unfold mapR
    rw [List.getElem?_append_right (by rw [mapR_pre]; omega), mapR_pre, List.getElem?_replicate, if_pos (by omega)]
  unfold byteAt; rw [List.getD_eq_getElem?_getD, e]; rfl
theorem mapR_zero : ∀ i, i < 16 → byteAt mapR i = ([0, 0, 0xFF, 0, 1].getD i 0) := by decide +kernel
theorem mapR_rest : ∀ r < 16, ∀ i < 16, (i == r || !(decide (i < 16) && bitAt 1 i) || !(decide (r < 16) && bitAt 1 r)) = true := by decide
theorem mapR_ok : mapOk mapR = true := by
  have h1 : leNat (slice mapR 4 2) = 1 := by decide +kernel
  have h2 : leNat (slice mapR 6 2) = 0 := by decide +kernel
  have h3 : leNat (slice mapR 8 8) = 0 := by decide +kernel
  unfold mapOk
  rw [h1, h2, h3, mapR_zero 1 (by decide), mapR_zero 2 (by decide), mapR_zero 3 (by decide)]
  have h4 : ((List.range 16).all fun r => (List.range 16).all fun i =>
      let p := byteAt mapR (1552 + 16 * r + i)
      if p = 0xFF then i == r || !(decide (i < 16) && bitAt 1 i) || !(decide (r < 16) && bitAt 1 r)
      else (decide (p < 16) && bitAt 1 p) && mapClimbs mapR r 17 i) = true := by
    refine List.all_eq_true.mpr fun r hr => List.all_eq_true.mpr fun i hi => ?_
    have hr := List.mem_range.mp hr
    have hi := List.mem_range.mp hi
    have e := mapR_tree (16 * r + i) (by omega)
    rw [← Nat.add_assoc] at e
    dsimp only
    rw [e, if_pos rfl]
    exact mapR_rest r hr i hi
  dsimp only at h4 ⊢
  rw [h4]
  decide
theorem test_witness_spans_and_twins_work_1 : ∃ (s : State) (p : Prin) (rec : List Byte), (mapOk rec = true) ∧ (rec.length = 1808) ∧ (answering s = true) ∧ (mayTouch p 0x8000 1 = true) :=
  ⟨base, .s, mapR, mapR_ok, mapR_len, by decide +kernel⟩
theorem test_witness_spans_and_twins_work_2 : ∃ (s : State) (p : Prin) (rec : List Byte), (mapOk rec = false ∨ rec.length ≠ 1808) ∧ (answering s = true) ∧ (mayTouch p 0x8000 1 = true) :=
  ⟨base, .s, mapR ++ [0], Or.inr (by rw [List.length_append, mapR_len]; decide), by decide +kernel⟩
theorem test_witness_spans_and_twins_work_3 : ∃ (s : State), (objDom s 0x8000 1 ≠ []) ∧ (mapKeystone s = ownIndex s) :=
  ⟨domIs 0x8000 1 mapR base, by decide +kernel⟩
def spanD (s : State) : State := { s with dict := { s.dict with doms := [(okey 0x8000 1, mapR), (okey 0x8000 3, [0xFF, 0xFF, 0, 0xFF]), (okey 0x8010 1, [0, 0, 0, 0, 0, 0, 3, 0])] } }
def spanned : State := spanD (linked [8, 12] base)
def partF (s : State) : Flight := partFlight s 1 7 0 (descOf 4) []
theorem test_witness_spans_and_twins_work_4 : ∃ (s : State) (u : State) (port : Fin 13) (desc : Desc) (home : Fin 16) (d : Nat) (len : Nat) (input : List Byte) (f : Flight), (f = partFlight s home.val d len desc input) ∧ (u = { s with attn := { s.attn with flights := s.attn.flights ++ [f], nextId := s.attn.nextId + 1 } }) ∧ (8 ≤ port.val) ∧ (port.val ≠ 12) ∧ (linkUp s port.val = true) ∧ (sunk s = false) ∧ (home.val ≠ ownIndex s) ∧ (twoPhase desc = true) ∧ (partGone u f = none) ∧ ((memEff desc input u).code = 0) ∧ ((∀ g ∈ s.attn.flights, g.id ≠ s.attn.nextId)) :=
  ⟨spanned, { spanned with attn := { spanned.attn with flights := spanned.attn.flights ++ [partF spanned], nextId := spanned.attn.nextId + 1 } }, 8, descOf 4, 1, 7, 0, [], partF spanned, rfl, rfl, by decide +kernel⟩
def entryF : Flight := { flight 4 with stage := .running, members := [1, 15] }
theorem test_witness_spans_and_twins_work_5 : ∃ (s : State) (d : Nat) (i : Fin 16) (code : BitVec 8) (detail : BitVec 8) (r2 : Nat) (f : Flight) (g : Flight), (g = { f with members := f.members.erase i.val, codes := f.codes ++ [(code.toNat, detail.toNat)], r2 := f.r2 + r2 }) ∧ (flightOf s d = some f) ∧ (f.qp < 1024) ∧ (f.members.contains i.val = true) ∧ (twoPhase f.desc = true) :=
  ⟨flying entryF spanned, 1, 15, 0, 0, 0, entryF, { entryF with members := entryF.members.erase 15, codes := entryF.codes ++ [(0, 0)], r2 := entryF.r2 + 0 }, rfl, by decide +kernel⟩
def memF (op : Nat) : Flight := { flight op with qp := 1025, seq := 7, stage := .running }
theorem test_witness_spans_and_twins_work_6 : ∃ (s : State) (port : Fin 13) (d : Nat) (f : Flight) (e : Eff), (applyPart f s = e) ∧ (partOf s port.val d = some f) ∧ (twoPhase f.desc = true) :=
  ⟨flying (memF 4) spanned, 8, 7, memF 4, applyPart (memF 4) (flying (memF 4) spanned), rfl, by decide +kernel⟩
theorem test_witness_spans_and_twins_work_7 : ∃ (s : State) (port : Fin 13) (d : Nat) (f : Flight), (partOf s port.val d = some f) ∧ (twoPhase f.desc = true) :=
  ⟨flying (memF 2) spanned, 8, 7, memF 2, by decide +kernel⟩
theorem test_witness_spans_and_twins_work_8 : ∃ (s : State) (port : Fin 13) (d : Nat) (f : Flight), (partOf s port.val d = some f) ∧ (twoPhase f.desc = false) :=
  ⟨flying (memF 1) spanned, 8, 7, memF 1, by decide +kernel⟩
def waitF : Flight := { flight 1 with due := [(17, 1)] }
theorem test_witness_spans_and_twins_work_9 : ∃ (s : State) (port : Fin 13) (d : Nat) (rows : List (Option Dy × Dy × Option Dy × List Dy)) (f : Flight) (x : Ctx) (k : Nat) (n : Nat), (flightOf s d = some f) ∧ (ctxOf s (dCtx f.desc) = x) ∧ ((f.due.find? fun p => decide (16 ≤ p.1) && (routesTo s (p.1 - 16)).contains port.val) = some (k, n)) ∧ (rows.length = rowsAll f.desc x) :=
  ⟨flying waitF spanned, 8, 1, List.replicate (rowsAll waitF.desc (ctxOf spanned 3)) (none, {}, none, []), waitF, ctxOf spanned 3, 17, 1, by decide +kernel⟩
theorem test_witness_spans_and_twins_work_10 : ∃ (s : State), (s.clk.st = .coast) ∧ (obj s 0x8000 4 ≤ s.clk.internal) ∧ (stepSource s = 0) ∧ (s.span.twin ≠ .follow) ∧ (objDom s 0x8000 1 ≠ []) ∧ (mapSuccessor s = ownIndex s) :=
  ⟨setObj 0x8000 4 1 (clocked (fun c => { c with st := .coast, internal := 1 }) (domIs 0x8000 1 ([0, 1, 0, 0, 3] ++ List.replicate 1547 0 ++ List.replicate 256 0xFF) base)), by decide +kernel⟩
def pairD (t : TwinState) : State := twinned t (linked [8, 12] base)
theorem test_witness_spans_and_twins_work_11 : ∃ (s : State), (Tbl.Rising s.coh.dir) ∧ (paired s = true ∨ s.span.twin = .syncing) ∧ (homeActive s = false) ∧ (linkUp s 12 = true) :=
  ⟨pairD .syncing, rises_ok (by decide +kernel), by decide +kernel⟩
theorem test_witness_spans_and_twins_work_12 : ∃ (s : State), (twinTalks s = true) ∧ (guardLink s = none) :=
  ⟨setObj 0x8100 5 0xFF (pairD .lead), by decide +kernel⟩
def guarded (t : TwinState) : State := setObj 0x8100 5 0 (setObj 0x8100 4 10 (pairD t))
theorem test_witness_spans_and_twins_work_13 : ∃ (s : State) (n : Nat) (c : Nat), (s.span.twin = .follow) ∧ (guardGone s = false) ∧ (usCycles (obj s 0x8100 4) = n) ∧ (max s.time.cycle (s.span.heardVia + n) = c) ∧ (linkUp s 12 = true) ∧ (arrivalWins (s.span.heardVia + n) (bringsRecord true) s = false) ∧ (c < s.span.heardGuard + n) :=
  ⟨spanIs (fun x => { x with heardGuard := 1 }) (guarded .follow), usCycles 10, usCycles 10, by decide +kernel⟩
theorem test_witness_spans_and_twins_work_14 : ∃ (s : State), (s.span.twin = .follow) ∧ (guardGone s = false) ∧ (linkUp s 12 = false) ∧ (s.time.cycle < s.span.heardGuard + usCycles (obj s 0x8100 4)) :=
  ⟨twinned .follow (linked [8] (setObj 0x8100 5 0 (setObj 0x8100 4 10 base))), by decide +kernel⟩
theorem test_witness_spans_and_twins_work_15 : ∃ (s : State) (n : Nat) (c : Nat), (s.span.twin = .lead) ∧ (guardGone s = false) ∧ (usCycles (obj s 0x8100 4) = n) ∧ (max s.time.cycle (s.span.heardVia + n) = c) ∧ (linkUp s 12 = true) ∧ (arrivalWins (s.span.heardVia + n) (bringsRecord true) s = false) ∧ (c < s.span.heardGuard + n) :=
  ⟨spanIs (fun x => { x with heardGuard := 1 }) (guarded .lead), usCycles 10, usCycles 10, by decide +kernel⟩
theorem test_witness_spans_and_twins_work_16 : ∃ (s : State) (n : Nat) (c : Nat) (l : Nat), (paired s = true) ∧ (viaGone s = false) ∧ (usCycles (obj s 0x8100 4) = n) ∧ (max s.time.cycle (s.span.heardGuard + n) = c) ∧ (guardLink s = some l) ∧ (linkUp s l = true) ∧ (arrivalWins (s.span.heardGuard + n) (bringsRecord false) s = false) ∧ (c < s.span.heardVia + n) :=
  ⟨spanIs (fun x => { x with heardVia := 1 }) (guarded .lead), usCycles 10, usCycles 10, 8, by decide +kernel⟩
theorem test_witness_spans_and_twins_work_17 : ∃ (s : State) (n : Nat) (l : Nat), (s.span.twin = .follow) ∧ (viaGone s = true) ∧ (usCycles (obj s 0x8100 4) = n) ∧ (guardLink s = some l) ∧ (linkUp s l = true) ∧ (arrivalWins (s.span.heardGuard + n) (bringsRecord false) s = false) :=
  ⟨spanIs (fun x => { x with viaSilent := true }) (guarded .follow), usCycles 10, 8, by decide +kernel⟩
theorem test_witness_spans_and_twins_work_18 : ∃ (s : State) (n : Nat) (l : Nat), (s.span.twin = .lead) ∧ (viaGone s = true) ∧ (s.coh.reqs = []) ∧ (usCycles (obj s 0x8100 4) = n) ∧ (guardLink s = some l) ∧ (linkUp s l = true) ∧ (arrivalWins (s.span.heardGuard + n) (bringsRecord false) s = false) :=
  ⟨spanIs (fun x => { x with viaSilent := true }) (guarded .lead), usCycles 10, 8, by decide +kernel⟩
theorem test_witness_spans_and_twins_work_19 : ∃ (s : State), (linkUp s 12 = true) ∧ (s.span.twin = .follow) ∧ (s.span.partner = []) ∧ (s.span.disagree = false) ∧ (s.span.proving = none) :=
  ⟨pairD .follow, by decide +kernel⟩
theorem test_witness_spans_and_twins_work_20 : ∃ (s : State) (step : Nat) (forced : Bool), (linkUp s 12 = true) ∧ (paired s = true) ∧ (s.span.partner = []) ∧ (s.span.proving = some forced) ∧ (step ≠ s.clk.last) :=
  ⟨spanIs (fun x => { x with proving := some true }) (pairD .lead), 1, true, by decide +kernel⟩
theorem test_witness_spans_and_twins_work_21 : ∃ (s : State), (linkUp s 12 = true) ∧ (s.span.twin = .syncing) :=
  ⟨pairD .syncing, by decide +kernel⟩
theorem test_witness_spans_and_twins_work_22 : ∃ (s : State), (s.span.disagree = true) ∧ (s.span.own = none) ∧ (s.clk.winOpen = true) :=
  ⟨clocked (fun c => { c with winOpen := true }) (spanIs (fun x => { x with disagree := true }) base), by decide +kernel⟩
def judged (a b : Bool) (t : TwinState) : State := spanIs (fun x => { x with own := some a, other := some b }) (pairD t)
theorem test_witness_spans_and_twins_work_23 : ∃ (s : State) (own : Bool) (other : Bool), (s.span.own = some own) ∧ (s.span.other = some other) ∧ (s.span.twin = .lead) :=
  ⟨judged false false .lead, false, false, by decide +kernel⟩
theorem test_witness_spans_and_twins_work_24 : ∃ (s : State) (own : Bool) (other : Bool), (s.span.own = some own) ∧ (s.span.other = some other) ∧ (s.span.twin = .follow) ∧ (own || !other) :=
  ⟨judged true true .follow, true, true, by decide +kernel⟩
theorem test_witness_spans_and_twins_work_25 : ∃ (s : State) (own : Bool) (other : Bool), (s.span.own = some own) ∧ (s.span.other = some other) ∧ (s.span.twin = .follow) ∧ (own = false) ∧ (other = true) :=
  ⟨judged false true .follow, false, true, by decide +kernel⟩
def phased (n : Nat) (t : TwinState) : State := setObj 0x8300 1 n (pairD t)
theorem test_witness_spans_and_twins_work_26 : ∃ (s : State), (linkUp s 12 = true) ∧ (obj s 0x8300 1 = 0) ∧ (s.span.twin = .sole) :=
  ⟨phased 0 .sole, by decide +kernel⟩
theorem test_witness_spans_and_twins_work_27 : ∃ (s : State), (linkUp s 12 = true) ∧ (obj s 0x8300 1 = 0) ∧ (paired s = true) ∧ (s.clk.seen = false) :=
  ⟨phased 0 .follow, by decide +kernel⟩
theorem test_witness_spans_and_twins_work_28 : ∃ (s : State), (linkUp s 12 = true) ∧ (obj s 0x8300 1 = 1) :=
  ⟨phased 1 .sole, by decide +kernel⟩
theorem test_witness_spans_and_twins_work_29 : ∃ (s : State), (linkUp s 12 = true) ∧ (obj s 0x8300 1 = 2) :=
  ⟨phased 2 .syncing, by decide +kernel⟩
theorem test_witness_spans_and_twins_work_30 : ∃ (s : State), (linkUp s 12 = true) ∧ (obj s 0x8300 1 = 3) ∧ (s.span.twin ≠ .syncing) :=
  ⟨phased 3 .sole, by decide +kernel⟩
theorem test_witness_spans_and_twins_work_31 : ∃ (s : State), (linkUp s 12 = true) ∧ (obj s 0x8300 1 = 3) ∧ (s.span.twin = .syncing) :=
  ⟨phased 3 .syncing, by decide +kernel⟩
theorem test_witness_spans_and_twins_work_32 : ∃ (s : State), (linkUp s 12 = true) ∧ (obj s 0x8300 1 = 4) :=
  ⟨phased 4 .lead, by decide +kernel⟩
theorem test_witness_spans_and_twins_work_33 : ∃ (s : State), (linkUp s 12 = true) ∧ (obj s 0x8300 1 = 5) ∧ (paired s = true) ∧ (obj s 0x8100 1 ≠ 1) ∧ (s.span.twin = .follow) :=
  ⟨phased 5 .follow, by decide +kernel⟩
theorem test_witness_spans_and_twins_work_34 : ∃ (s : State), (linkUp s 12 = true) ∧ (obj s 0x8300 1 = 5) ∧ (paired s = true) ∧ (obj s 0x8100 1 ≠ 1) ∧ (s.span.twin = .lead) :=
  ⟨phased 5 .lead, by decide +kernel⟩
theorem test_witness_spans_and_twins_work_35 : ∃ (s : State), (linkUp s 12 = true) ∧ (obj s 0x8300 1 = 5) ∧ (paired s = true) ∧ (obj s 0x8100 1 = 1) ∧ (s.span.twin = .lead) :=
  ⟨setObj 0x8100 1 1 (phased 5 .lead), by decide +kernel⟩
theorem test_witness_spans_and_twins_work_36 : ∃ (s : State), (linkUp s 12 = true) ∧ (obj s 0x8300 1 = 5) ∧ (paired s = true) ∧ (obj s 0x8100 1 = 1) ∧ (s.span.twin = .follow) :=
  ⟨setObj 0x8100 1 1 (phased 5 .follow), by decide +kernel⟩
theorem test_witness_spans_and_twins_work_37 : ∃ (s : State), (s.span.twin = .syncing) ∧ (obj s 0x8300 1 = 3) :=
  ⟨phased 3 .syncing, by decide +kernel⟩
theorem test_witness_spans_and_twins_work_38 : ∃ (s : State) (n : Nat), (s.span.handover = some n) ∧ (s.span.twin = .follow ∧ s.span.swapped = true ∨ s.span.twin = .lead ∧ s.span.swapped = false) :=
  ⟨spanIs (fun x => { x with handover := some 9 }) (pairD .lead), 9, by decide +kernel⟩
theorem test_witness_spans_and_twins_work_39 : ∃ (s : State) (n : Nat), (s.span.handover = some n) ∧ (s.span.twin = .lead ∧ s.span.swapped = true ∨ s.span.twin = .follow ∧ s.span.swapped = false) :=
  ⟨spanIs (fun x => { x with handover := some 9 }) (pairD .follow), 9, by decide +kernel⟩

/-! ## Single commands, with results taken from the specification -/

/-- The state that a command leaves. -/
def after (c : Instr) (s : State) : State := match exec c s with | .next t => t | _ => s

-- R92's table: the largest finite values of E4M3, E5M2, binary16 and E2M1.
theorem test_formats_top : [fmtE4m3, fmtE5m2, fmtF16, fmtE2m1].map (fun f => fmtEncMag fmtF32 (fmtMax f)) =
    [0x43E00000, 0x47600000, 0x477FE000, 0x40C00000] := by decide +kernel
-- R57, R60: latent keys have 576 elements and latent values 512.
theorem test_latent_widths : (ctxDk { dkc := 3 }, ctxDv { dkc := 3 }) = (576, 512) := by decide
-- R20: granules go to the 24 controllers in turn.
theorem test_controller_of_granule : (ctlOfAddr 0x17FFF, ctlOfAddr 0x18000) = (23, 0) := by decide
-- R37, R43: an accepted beacon locks the clock to its step.
theorem test_beacon_locks : (after (.stepBeacon 8 0 (beaconOf 0x5B 1 0)) (linked [8] rdy)).clk.st = .locked := by decide +kernel
theorem test_beacon_step : (after (.stepBeacon 8 0 (beaconOf 0x5B 1 0)) (linked [8] rdy)).clk.last = 1 := by decide +kernel
-- R640: STEPMARK is ignored while the step source is not 2.
theorem test_stepmark_off : (after (.stepmark 1) rdy).clk = rdy.clk := by decide +kernel
-- R39, R49: a phase of 65,536 is an overrun, counted.
theorem test_overrun : (after .stepOverrun (clocked (fun c => { c with st := .locked }) rdy)).clk.overruns = 1 := by decide +kernel
-- R646: the tail may leave one slot free; a tail at the size is bad.
theorem test_tail_last : (qpOf (after (.sqtail .steward 15) base) 7).tail = 15 := by decide +kernel
theorem test_tail_size : (qpOf (after (.sqtail .steward 16) base) 7).sqBad = true := by decide +kernel
-- R646: a head past an entry that has not been written is bad.
theorem test_head_unwritten : (qpOf (after (.cqhead .steward 1) base) 7).cqBad = true := by decide +kernel
-- R256, R243: the register fences a core in service, with reason 6.
theorem test_fence_reason : (coreOf (after (.fenceCore .s 19) base) 19).reason = 6 := by decide +kernel
-- R311, R313: the last granule of T1 may be retired, the next number is no granule.
theorem test_retire_last : (after (.retireGranule 402653183) base).mem.retired = [402653183] := by decide +kernel
theorem test_retire_beyond : (after (.retireGranule 402653184) base).mem.retired = [] := by decide +kernel
-- R345: a caching agent above 11 does not exist.
theorem test_no_agent : obj (after (.declareAgentFailed 12) base) 0x1022 1 = 1 := by decide +kernel
-- R508: the fourth failure of a flit in a row takes a lane group out.
theorem test_fourth_failure : tget 0 (after (.trussFlitCrcFail 0 false) (trussIs (fun x => { x with crc := [(0, 3)] }) base)).truss.lost 0 = 1 := by
  decide +kernel
-- R506: an invalid table changes nothing but the status.
theorem test_table_invalid : obj (after (.tableCommit true) (trussIs (fun x => { x with next := some [] }) base)) 0x2500 3 = 2 := by decide +kernel
-- R526: an invalid gate list is told in 2600:06.
theorem test_gates_invalid : (after (.gateChangeCommit .s true) base).shape.status = 2 := by decide +kernel
-- R460: a link leaves DOWN for DETECT.
theorem test_link_detects : (linkOf (after (.linkctlRestart 12) base) 12).st = 1 := by decide +kernel
-- R651: a message to a receiver that the channel may not address is DENIED.
theorem test_send_denied : (chanOf (after (.tlsend 5 0x300000) base) 5).ackCode = 2 := by decide +kernel
-- R375: an invalidation while one runs sets overrun.
theorem test_inv_overrun : (qpOf (after (.xlinvcmd .steward 0) (onQp (fun p => { p with invBusy := true }) base)) 7).invOverrun = true := by
  decide +kernel
-- R355: a PASID is bound to its tenant.
theorem test_bind : pasidOf (after (.bindPasid (BitVec.ofNat 128 (5 * 2 ^ 102 + 0xFFFFF))) base) 0xFFFFF = some (5, 0, false) := by decide +kernel
-- R401: a revoked extent is in escrow at step 1.
theorem test_revoke : ((extOf (after (.revokeExtent 1) base) 1).st, (extOf (after (.revokeExtent 1) base) 1).step) = (.escrow, 1) := by decide +kernel
-- R659: 5 is no tally group.
theorem test_no_group : obj (after (.resetTallyGroup .s 5) base) 0x1022 1 = 1 := by decide +kernel
-- R661: a freeze takes the device time and stops the tallies.
theorem test_freeze : (after (.freeze .s true) base).tal.frozen = true := by decide +kernel
-- R669: an arm in mode 0 leaves the trace idle.
theorem test_arm_idle : (after (.arm .s true) base).tal.io0.st = 0 := by decide +kernel
-- R620: NMT start makes the interface operational, stop stops it.
theorem test_nmt : ((after .nmtStart base).can.nmt, (after .nmtStop base).can.nmt) = (5, 4) := by decide +kernel
-- R625: an endpoint ID of 0xFF is refused.
theorem test_eid : ((after (.setEndpointId 0xFE) i3cS).can.eid, (after (.setEndpointId 0xFF) i3cS).can.eid) = (0xFE, 0) := by decide +kernel
-- R687: 0xA5 powers the device down.
theorem test_power_down : (after (.orderlyPowerDown false 0xA5) base).pwr.dev = .shutdown := by decide +kernel
-- R685: the input is in range from 40 V to 60 V.
theorem test_power_up : (after (.powerUp 60001) (powered (fun p => { p with dev := .shutdown }) base)).pwr.dev = .shutdown := by decide +kernel
-- R553: a read of UPERRSTAT clears valid and count.
theorem test_uperr : tget ({} : UpErr) (after (.uperrstatRead 3) (ported (fun p => { p with up := [(3, { valid := true, code := 1, count := 2 })] }) base)).ports.up 3
    = { valid := false, code := 1, count := 0 } := by decide +kernel
-- Worked case HBM 1: controller 21, offset 0x00C2_2678, pseudo-channel 10.
theorem test_case_hbm : (ctlOfAddr 0x12345678, ctlOffset 0x12345678, pcOf 0x12345678) = (21, 0xC22678, 10) := by decide +kernel
-- Worked case Coherence 1: the IO1 half and set 0x0_8101.
theorem test_case_coherence : dirSet (0x200401040 / 64) = 2 ^ 18 + 0x8101 := by decide +kernel
/-- The 64 bytes of Worked case Descriptors 2. -/
def case2 : Desc := BitVec.ofNat _ (leNat
  [ 0x01, 0x01, 0x07, 0x00, 0x23, 0x01, 0x25, 0x00, 0x21, 0x4A, 0, 0, 0, 0, 0, 0, 0, 0, 0x40, 0x23, 0x01, 0, 0, 0, 0, 0x10, 0, 0x30, 0, 0, 0, 0x80
  , 0xF3, 0x04, 0xB5, 0x3D, 0, 0, 0, 0, 0x0A, 0xD7, 0x23, 0x3C, 0x5C, 0x0F, 0x08, 0x01, 0x00, 0x02, 0xC8 ])
def case2x : Ctx := { headsM1 := 7, layersM1 := 63, dkc := 1, fmt := 2 }
theorem test_case_header : (dOpcode case2, dIrq case2, dTag case2, dCtx case2, dLayer case2, dPasid case2) = (1, true, 7, 0x123, 37, 0x4A21) := by
  decide +kernel
theorem test_case_attend : [aIn case2, aOut case2, aScale case2, aTau case2, aF0 case2] = [0x123400000, 0x30001000, 0x3DB504F3, 0x3C23D70A, 3932] := by
  decide +kernel
theorem test_case_attend_small : (aPush case2, [aGroup case2, aDrafts case2, aMode case2, aDeadline case2]) = (true, [8, 1, 2, 200]) := by decide +kernel
theorem test_case_blocks : (inBytes case2 case2x, outBytes case2 case2x) = (18496, 16384) := by decide +kernel
-- Worked case Descriptors 1: the window admits 995,905 and the sinks end at 3.
theorem test_case_window : [995904, 995905, 3, 4].map (admits ⟨BitVec.ofNat _ (4 * 2 ^ 448 + 4096 * 2 ^ 416), case2x, 1000000, []⟩ 1000000) =
    [false, true, true, false] := by decide +kernel
-- Worked case Descriptors 3: 4 tokens, src_fmt 2, are 524,288 bytes.
theorem test_case_append : srcBytes (BitVec.ofNat _ (2 + 3 * 2 ^ 192 + 2 * 2 ^ 208)) case2x = 524288 := by decide +kernel
-- Worked case Descriptors 4: result2 is 0x1290_0214.
theorem test_case_result : attendResult2 { flight 1 with tilesRead := 725, tilesAll := 10000, rounds := 2, cores := List.range 20 } = 0x12900214 := by
  decide +kernel
-- Worked case Shaping 1: the list written to 2600:02.
theorem test_case_gates : (gateParse [0, 2, 0, 0, 0, 0, 0, 0, 0xFF, 0, 0, 0, 0xBB, 0, 0x18, 0]).map (·.entries) = some [(0, 0xFF), (6144, 0xBB)] := by
  decide +kernel

end Sys2Proof.Machine
end

section
/-! PROOFS. Core fencing: what the objects 9001:01 and 9001:02 answer (R254 to R256), and what a write by way of an object
does for a principal who may access it (R613, R633). -/

namespace Sys2Proof.Machine

/-! ## Writes by way of an object -/

/-- A principal who may access the object gets the object's own answer (R613). -/
theorem objCmd_of_mayTouch {p : Prin} {i j : Nat} {s : State} (f : State → Nat × State)
    (ha : answering s = true) (hp : mayTouch p i j = true) : objCmd p i j f s = written (f s) := by
  simp only [objCmd, commanded, ha, hp, if_true]

/-- A write that is accepted counts nothing. -/
@[simp] theorem written_accepted (s : State) : written (0, s) = s := rfl

/-- A write that is refused is counted in 1022:01 (R633). -/
theorem written_refused {code : Nat} (h : code ≠ 0) (s : State) : written (code, s) = bumpObj 0x1022 1 1 32 s :=
  if_neg h

@[simp] theorem bumpObj_attn (i j n w : Nat) (s : State) : (bumpObj i j n w s).attn = s.attn := rfl

/-! ## The two commands -/

theorem exec_fenceCore (p : Prin) (v : BitVec 8) (s : State) :
    exec (.fenceCore p v) s = .next (objCmd p 0x9001 1 (writeFence v.toNat) s) := rfl

theorem exec_returnCore (p : Prin) (v : BitVec 8) (s : State) :
    exec (.returnCore p v) s = .next (objCmd p 0x9001 2 (writeReturn v.toNat) s) := rfl

/-! ## What each write answers (R255, R256) -/

theorem writeFence_of_no_core {v : Nat} (hv : 20 ≤ v) (s : State) : writeFence v s = (abValue, s) := if_pos hv

theorem writeFence_of_not_inService {v : Nat} {s : State} (hv : v < 20) (hst : (coreOf s v).st ≠ .inService) :
    writeFence v s = (0, s) := by
  simp only [writeFence, hst, Nat.not_le.mpr hv, if_false]

theorem writeReturn_of_no_core {v : Nat} (hv : 20 ≤ v) (s : State) : writeReturn v s = (abValue, s) := if_pos hv

theorem writeReturn_of_held {v : Nat} {s : State} (hv : v < 20) (hst : (coreOf s v).st = .held) :
    writeReturn v s = (abState, s) := by
  simp only [writeReturn, hst, Nat.not_le.mpr hv, true_or, if_false, if_true]

theorem writeReturn_of_not_fenced {v : Nat} {s : State} (hv : v < 20) (hheld : (coreOf s v).st ≠ .held)
    (hfenced : (coreOf s v).st ≠ .fenced) : writeReturn v s = (0, s) := by
  simp only [writeReturn, hheld, hfenced, Nat.not_le.mpr hv, false_and, or_self, if_false]

/-! ## The commands that have no effect on a core -/

section
variable {s : State} {p : Prin} {v : BitVec 8} (ha : answering s = true)
include ha

theorem exec_fenceCore_of_not_inService (hp : mayTouch p 0x9001 1 = true) (hv : v.toNat < 20)
    (hst : (coreOf s v.toNat).st ≠ .inService) : exec (.fenceCore p v) s = .next s := by
  rw [exec_fenceCore, objCmd_of_mayTouch _ ha hp, writeFence_of_not_inService hv hst, written_accepted]

theorem exec_fenceCore_of_no_core (hp : mayTouch p 0x9001 1 = true) (hv : 20 ≤ v.toNat) :
    exec (.fenceCore p v) s = .next (bumpObj 0x1022 1 1 32 s) := by
  rw [exec_fenceCore, objCmd_of_mayTouch _ ha hp, writeFence_of_no_core hv, written_refused (by decide)]

theorem exec_returnCore_of_no_core (hp : mayTouch p 0x9001 2 = true) (hv : 20 ≤ v.toNat) :
    exec (.returnCore p v) s = .next (bumpObj 0x1022 1 1 32 s) := by
  rw [exec_returnCore, objCmd_of_mayTouch _ ha hp, writeReturn_of_no_core hv, written_refused (by decide)]

theorem exec_returnCore_of_held (hp : mayTouch p 0x9001 2 = true) (hv : v.toNat < 20)
    (hst : (coreOf s v.toNat).st = .held) : exec (.returnCore p v) s = .next (bumpObj 0x1022 1 1 32 s) := by
  rw [exec_returnCore, objCmd_of_mayTouch _ ha hp, writeReturn_of_held hv hst, written_refused (by decide)]

theorem exec_returnCore_of_not_fenced (hp : mayTouch p 0x9001 2 = true) (hv : v.toNat < 20)
    (hheld : (coreOf s v.toNat).st ≠ .held) (hfenced : (coreOf s v.toNat).st ≠ .fenced) :
    exec (.returnCore p v) s = .next s := by
  rw [exec_returnCore, objCmd_of_mayTouch _ ha hp, writeReturn_of_not_fenced hv hheld hfenced, written_accepted]

end

/-- Settles O44: the object answers each write from the number and the state of the core alone; a core that is not FENCED is
either HELD, where the return is refused and counted, or in a state in which nothing happens. -/
theorem fenceWritesWithoutEffect : Obligations.FenceWritesWithoutEffect := by
  refine ⟨fun s p v ha hp hv hst => exec_fenceCore_of_not_inService ha hp hv hst, fun s p v ha hp hv hst => ?_,
    fun s p q v ha hp hq hv => ⟨exec_fenceCore_of_no_core ha hp hv, exec_returnCore_of_no_core ha hq hv⟩⟩
  by_cases hheld : (coreOf s v.toNat).st = .held
  · exact ⟨_, exec_returnCore_of_held ha hp hv hheld, bumpObj_attn .., fun h => absurd hheld h, fun _ => rfl⟩
  · exact ⟨s, exec_returnCore_of_not_fenced ha hp hv hheld hst, rfl, fun _ => rfl, fun h => absurd h hheld⟩

end Sys2Proof.Machine
end

section
/-! PROOFS. STEPMARK: a write of STEPMARK without effect, by the step source or by the mark of the same truss cycle (R640). -/

namespace Sys2Proof.Machine

/-! ## A step that begins LOCKED

What follows the clock's write in the boundary leaves the clock and the time alone, so the step of an accepted beacon is still
that of the present cycle when the boundary is done. -/

/-- The device is LOCKED in a step that began in the present truss cycle. -/
def LockedNow (s : State) : Prop := s.clk.st = .locked ∧ s.clk.stepAt = s.time.cycle

/-- An operation that writes neither the time nor the clock. -/
theorem Keeps.lockedNow {P : Nat} {s t : State} (h : Keeps P s t) (hs : LockedNow s) (htime : P.testBit 0 = false := by decide)
    (hclk : P.testBit 4 = false := by decide) : LockedNow t := by
  unfold LockedNow
  rw [h.time htime, h.clk hclk]
  exact hs

/-- To be LOCKED is no state that R49 counts or raises. -/
theorem noteClock_of_locked (was : ClkState) {s : State} (h : s.clk.st = .locked) : noteClock was s = s := by
  simp only [noteClock, h, ite_self]

theorem beginStep_lockedNow (f : StepClk → StepClk) (s : State) (hf : (f s.clk).st = .locked) : LockedNow (beginStep f s) := by
  unfold beginStep
  extract_lets was s1 s2 s3
  have h1 : LockedNow s1 := ⟨hf, rfl⟩
  have h2 : LockedNow s2 := by
    unfold s2
    rw [noteClock_of_locked was h1.1]
    exact (runMirror_keeps s1).lockedNow h1
  have h3 : LockedNow s3 :=
    (roleSwap_keeps _).lockedNow ((tallySnapshot_keeps _).lockedNow
      ((compareBuckets_keeps _).lockedNow ((closeRecord_keeps _).lockedNow h2)))
  exact (releaseGates_keeps _).lockedNow ((runMoves_keeps _).lockedNow ((gatePassed_keeps _).lockedNow h3))

theorem acceptBeacon_lockedNow (port : Nat) (m : Beacon) (s : State) : LockedNow (acceptBeacon port m s) := by
  unfold acceptBeacon
  exact (traceEvent_keeps ..).lockedNow ((stepFreeze_keeps _).lockedNow (beginStep_lockedNow _ s rfl))

theorem keystoneStart_lockedNow (number layers origin : Nat) (fixed : Option Nat) (s : State) :
    LockedNow (keystoneStart number layers origin fixed s) := by
  unfold keystoneStart
  exact acceptBeacon_lockedNow _ _ _

/-! ## Marks without effect -/

/-- Only 2100:01 makes the steward's register the step source: the exceptions of R580 give 0 and 1. -/
theorem stepSource_ne_two {s : State} (h : obj s 0x2100 1 ≠ 2) : stepSource s ≠ 2 := by
  unfold stepSource
  split
  · decide
  · split
    · decide
    · exact h

theorem stewardMark_of_source_ne {s : State} (h : stepSource s ≠ 2) : stewardMark s = s := if_pos (.inl h)

theorem stewardMark_of_lockedNow {s : State} (h : LockedNow s) : stewardMark s = s := if_pos (.inr h)

/-- A second mark of the cycle: the first was ignored for a cause that stands, or has locked the clock in this cycle. -/
theorem stewardMark_stewardMark (s : State) : stewardMark (stewardMark s) = stewardMark s := by
  by_cases hignored : stepSource s ≠ 2 ∨ LockedNow s
  · have hsame : stewardMark s = s := if_pos hignored
    rw [hsame, hsame]
  · have hstarts : stewardMark s = keystoneStart (s.clk.last + 1) (objLast s 0x2100 0x0A) (devNs s) none s := if_neg hignored
    rw [hstarts]
    exact stewardMark_of_lockedNow (keystoneStart_lockedNow ..)

theorem exec_stepmark (v : BitVec 32) (s : State) : exec (.stepmark v) s = .next (stepMark v s) := rfl

theorem stepMark_of_mark {v : BitVec 32} (hv : fld v 0 0 = 1) (s : State) : stepMark v s = stewardMark s := if_pos hv

theorem stepMark_of_stewardMark_eq (v : BitVec 32) {s : State} (h : stewardMark s = s) : stepMark v s = s := by
  unfold stepMark
  split
  · exact h
  · rfl

/-- Settles O10: a write goes no further than `stewardMark`, which a source other than 2 leaves the state to, and which after a
mark leaves the state to the mark. -/
theorem stepmarkWritesOfOneCycle : Obligations.StepmarkWritesOfOneCycle := by
  refine ⟨fun s v hsource => ?_, fun s v w hmark => ⟨stewardMark s, ?_, ?_⟩⟩
  · rw [exec_stepmark, stepMark_of_stewardMark_eq v (stewardMark_of_source_ne (stepSource_ne_two hsource))]
  · rw [exec_stepmark, stepMark_of_mark hmark]
  · rw [exec_stepmark, stepMark_of_stewardMark_eq w (stewardMark_stewardMark s)]

end Sys2Proof.Machine
end

section
/-! PROOFS. The block as a whole: what every command writes, that it completes and keeps the invariant, and the two kinds of
step. -/

namespace Sys2Proof.Machine

/-! ## The frame of every command -/

/-- The bit of a part in the mask of `Keeps`. -/
def Part.bit : Part → Nat
  | .time => 0 | .dict => 1 | .can => 2 | .pwr => 3 | .clk => 4 | .win => 5 | .tel => 6 | .tal => 7 | .mem => 8
  | .hbm => 9 | .led => 10 | .kv => 11 | .attn => 12 | .shape => 13 | .xl => 14 | .coh => 15 | .mint => 16 | .links => 17
  | .truss => 18 | .ports => 19 | .span => 20 | .out => 21 | .freeCtr => 22 | .bytes => 24 | .role => 25

/-- The mask of a list of parts. -/
def partMask (ps : List Part) : Nat := ps.foldr (fun p m => Nat.lor (2 ^ p.bit) m) 0

theorem partMask_testBit {ps : List Part} {p : Part} (h : p ∉ ps) : (partMask ps).testBit p.bit = false := by
  induction ps with
  | nil => exact Nat.zero_testBit _
  | cons q ps ih =>
    obtain ⟨hq, hps⟩ := not_or.mp (mt List.mem_cons.mpr h)
    have hbit : q.bit ≠ p.bit := by
      revert hq; cases p <;> cases q <;> decide
    show Nat.testBit (2 ^ q.bit ||| partMask ps) p.bit = false
    rw [Nat.testBit_or, ih hps, Nat.testBit_two_pow_of_ne hbit, Bool.or_false]

/-- No part has the bit of the queue. -/
theorem partMask_testBit_queue (ps : List Part) : (partMask ps).testBit 23 = false := by
  induction ps with
  | nil => exact Nat.zero_testBit _
  | cons q ps ih =>
    have hbit : q.bit ≠ 23 := by cases q <;> decide
    show Nat.testBit (2 ^ q.bit ||| partMask ps) 23 = false
    rw [Nat.testBit_or, ih, Nat.testBit_two_pow_of_ne hbit, Bool.or_false]

theorem Keeps.same {P : Nat} {s t : State} (h : Keeps P s t) {p : Part} (hp : P.testBit p.bit = false) : p.same s t :=
  match p, hp with
  | .time, b => h.time b | .dict, b => h.dict b | .can, b => h.can b | .pwr, b => h.pwr b | .clk, b => h.clk b
  | .win, b => h.win b | .tel, b => h.tel b | .tal, b => h.tal b | .mem, b => h.mem b | .hbm, b => h.hbm b
  | .led, b => h.led b | .kv, b => h.kv b | .attn, b => h.attn b | .shape, b => h.shape b | .xl, b => h.xl b
  | .coh, b => h.coh b | .mint, b => h.mint b | .links, b => h.links b | .truss, b => h.truss b | .ports, b => h.ports b
  | .span, b => h.span b | .out, b => h.out b | .freeCtr, b => h.freeCtr b | .bytes, b => h.bytes b | .role, b => h.twin b

/-- A meaning's mask lies within the parts that `writes` names for its command. -/
theorem RKeeps.within {c : Instr} {Q : Nat} {s : State} {r : Res} (h : RKeeps Q s r)
    (sub : Nat.lor Q (partMask (writes c)) = partMask (writes c) := by dsimp only [writes]; decide +kernel) :
    RKeeps (partMask (writes c)) s r := h.step (.refl _ s) sub

/-- Every command writes only the parts that `writes` names, and keeps the invariant. -/
theorem exec_keeps (c : Instr) (s : State) : RKeeps (partMask (writes c)) s (exec c s) :=
  match c with
  | .stepMark .. => (execStepMark_keeps ..).within
  | .stepmark .. => (execStepmark_keeps ..).within
  | .selfTimedStep => (execSelfTimedStep_keeps ..).within
  | .stepBeacon .. => (execStepBeacon_keeps ..).within
  | .beaconTimeout => (execBeaconTimeout_keeps ..).within
  | .internalStepBoundary => (execInternalStepBoundary_keeps ..).within
  | .coastedBeacon .. => (execCoastedBeacon_keeps ..).within
  | .stepOverrun => (execStepOverrun_keeps ..).within
  | .stepClockReconfigure .. => (execStepClockReconfigure_keeps ..).within
  | .backgroundWindowOpen => (execBackgroundWindowOpen_keeps ..).within
  | .backgroundWindowClose .. => (execBackgroundWindowClose_keeps ..).within
  | .layerPrefetchEvent => (execLayerPrefetchEvent_keeps ..).within
  | .checkpointCopyDeadline => (execCheckpointCopyDeadline_keeps ..).within
  | .unsupported .. => (execUnsupported_keeps ..).within
  | .sqtail .. => (execSqtail_keeps ..).within
  | .cqhead .. => (execCqhead_keeps ..).within
  | .descriptorRead .. => (execDescriptorRead_keeps ..).within
  | .admissionHoldLimit .. => (execAdmissionHoldLimit_keeps ..).within
  | .attend .. => (execAttend_keeps ..).within
  | .append .. => (execAppend_keeps ..).within
  | .fork .. => (execFork_keeps ..).within
  | .trim .. => (execTrim_keeps ..).within
  | .summarize .. => (execSummarize_keeps ..).within
  | .prefetch .. => (execPrefetch_keeps ..).within
  | .pin .. => (execPin_keeps ..).within
  | .evict .. => (execEvict_keeps ..).within
  | .compact .. => (execCompact_keeps ..).within
  | .attendDeadline .. => (execAttendDeadline_keeps ..).within
  | .workItemStart .. => (execWorkItemStart_keeps ..).within
  | .t1GranuleReady .. => (execT1GranuleReady_keeps ..).within
  | .summaryPassEnd .. => (execSummaryPassEnd_keeps ..).within
  | .certifiedCheck .. => (execCertifiedCheck_keeps ..).within
  | .partialArrival .. => (execPartialArrival_keeps ..).within
  | .outputFormed .. => (execOutputFormed_keeps ..).within
  | .pushAck .. => (execPushAck_keeps ..).within
  | .checkTile .. => (execCheckTile_keeps ..).within
  | .coreWatchdog .. => (execCoreWatchdog_keeps ..).within
  | .coreSramUncorrectable .. => (execCoreSramUncorrectable_keeps ..).within
  | .quadrantAttachmentFail .. => (execQuadrantAttachmentFail_keeps ..).within
  | .fenceCore .. => (execFenceCore_keeps ..).within
  | .fenceReadsDrained .. => (execFenceReadsDrained_keeps ..).within
  | .returnCore .. => (execReturnCore_keeps ..).within
  | .coreTestEnd .. => (execCoreTestEnd_keeps ..).within
  | .ctxOpen => (execCtxOpen_keeps ..).within
  | .openEnd => (execOpenEnd_keeps ..).within
  | .ctxClose => (execCtxClose_keeps ..).within
  | .releaseWalkEnd .. => (execReleaseWalkEnd_keeps ..).within
  | .frameDrainEnd .. => (execFrameDrainEnd_keeps ..).within
  | .tierhint .. => (execTierhint_keeps ..).within
  | .residencyFault .. => (execResidencyFault_keeps ..).within
  | .moveComplete .. => (execMoveComplete_keeps ..).within
  | .automaticDemotion .. => (execAutomaticDemotion_keeps ..).within
  | .t3BudgetRefill .. => (execT3BudgetRefill_keeps ..).within
  | .tierCacheMiss .. => (execTierCacheMiss_keeps ..).within
  | .trayRecordActivate .. => (execTrayRecordActivate_keeps ..).within
  | .trayFail .. => (execTrayFail_keeps ..).within
  | .patctl .. => (execPatctl_keeps ..).within
  | .patternOpDone .. => (execPatternOpDone_keeps ..).within
  | .refreshDue .. => (execRefreshDue_keeps ..).within
  | .stackTemperatureChange .. => (execStackTemperatureChange_keeps ..).within
  | .targetedRefresh .. => (execTargetedRefresh_keeps ..).within
  | .throttleIntervalEnd => (execThrottleIntervalEnd_keeps ..).within
  | .selfRefreshEntry .. => (execSelfRefreshEntry_keeps ..).within
  | .selfRefreshExit .. => (execSelfRefreshExit_keeps ..).within
  | .retrainGroup .. => (execRetrainGroup_keeps ..).within
  | .retrainController .. => (execRetrainController_keeps ..).within
  | .patrolScrubRead .. => (execPatrolScrubRead_keeps ..).within
  | .immediateScrub .. => (execImmediateScrub_keeps ..).within
  | .stewardReadIndex .. => (execStewardReadIndex_keeps ..).within
  | .retireGranule .. => (execRetireGranule_keeps ..).within
  | .retireBank .. => (execRetireBank_keeps ..).within
  | .macRegionPlace .. => (execMacRegionPlace_keeps ..).within
  | .rdShared .. => (execRdShared_keeps ..).within
  | .rdOwn .. => (execRdOwn_keeps ..).within
  | .upgrade .. => (execUpgrade_keeps ..).within
  | .rdUncached .. => (execRdUncached_keeps ..).within
  | .wrUncached .. => (execWrUncached_keeps ..).within
  | .evictClean .. => (execEvictClean_keeps ..).within
  | .wbDirty .. => (execWbDirty_keeps ..).within
  | .snoopResponse .. => (execSnoopResponse_keeps ..).within
  | .rspCopy .. => (execRspCopy_keeps ..).within
  | .rspWbPend .. => (execRspWbPend_keeps ..).within
  | .fwdAck .. => (execFwdAck_keeps ..).within
  | .cxlMemRd .. => (execCxlMemRd_keeps ..).within
  | .cxlMemRdData .. => (execCxlMemRdData_keeps ..).within
  | .cxlMemInv .. => (execCxlMemInv_keeps ..).within
  | .cxlMemClnEvct .. => (execCxlMemClnEvct_keeps ..).within
  | .cxlMemWr .. => (execCxlMemWr_keeps ..).within
  | .biSnoopResponse .. => (execBiSnoopResponse_keeps ..).within
  | .lineLockAcquire .. => (execLineLockAcquire_keeps ..).within
  | .snoopTimeout .. => (execSnoopTimeout_keeps ..).within
  | .agentFailed .. => (execAgentFailed_keeps ..).within
  | .declareAgentFailed .. => (execDeclareAgentFailed_keeps ..).within
  | .escrowRecallWalk .. => (execEscrowRecallWalk_keeps ..).within
  | .pendingFault .. => (execPendingFault_keeps ..).within
  | .faultQueueSlotFree => (execFaultQueueSlotFree_keeps ..).within
  | .pendingRewalk .. => (execPendingRewalk_keeps ..).within
  | .pendingFaultTimeout .. => (execPendingFaultTimeout_keeps ..).within
  | .xlinvcmd .. => (execXlinvcmd_keeps ..).within
  | .invalidationStart => (execInvalidationStart_keeps ..).within
  | .invalidationComplete => (execInvalidationComplete_keeps ..).within
  | .xlinvstatRead .. => (execXlinvstatRead_keeps ..).within
  | .bindPasid .. => (execBindPasid_keeps ..).within
  | .unbindPasid .. => (execUnbindPasid_keeps ..).within
  | .portPasidWrite .. => (execPortPasidWrite_keeps ..).within
  | .spanRemoteForward .. => (execSpanRemoteForward_keeps ..).within
  | .tenantCreate .. => (execTenantCreate_keeps ..).within
  | .tenantRemove .. => (execTenantRemove_keeps ..).within
  | .removalStepEnd .. => (execRemovalStepEnd_keeps ..).within
  | .grantExtent .. => (execGrantExtent_keeps ..).within
  | .zeroizeDone .. => (execZeroizeDone_keeps ..).within
  | .revokeExtent .. => (execRevokeExtent_keeps ..).within
  | .escrowStepEnd .. => (execEscrowStepEnd_keeps ..).within
  | .qpcfgEnable .. => (execQpcfgEnable_keeps ..).within
  | .qpcfgReinit .. => (execQpcfgReinit_keeps ..).within
  | .reinitDone .. => (execReinitDone_keeps ..).within
  | .interruptCoalesceTimer .. => (execInterruptCoalesceTimer_keeps ..).within
  | .readerSetWrite .. => (execReaderSetWrite_keeps ..).within
  | .keyRotate .. => (execKeyRotate_keeps ..).within
  | .rewrapUnit .. => (execRewrapUnit_keeps ..).within
  | .sweepComplete .. => (execSweepComplete_keeps ..).within
  | .retireOldEpoch .. => (execRetireOldEpoch_keeps ..).within
  | .sealKeysWrite .. => (execSealKeysWrite_keeps ..).within
  | .randomSourceHealthFail => (execRandomSourceHealthFail_keeps ..).within
  | .spdm .. => (execSpdm_keeps ..).within
  | .getVersion .. => (execGetVersion_keeps ..).within
  | .getCapabilities .. => (execGetCapabilities_keeps ..).within
  | .negotiateAlgorithms .. => (execNegotiateAlgorithms_keeps ..).within
  | .getDigests .. => (execGetDigests_keeps ..).within
  | .getCertificate .. => (execGetCertificate_keeps ..).within
  | .challenge .. => (execChallenge_keeps ..).within
  | .getMeasurements .. => (execGetMeasurements_keeps ..).within
  | .keyExchange .. => (execKeyExchange_keeps ..).within
  | .finish .. => (execFinish_keeps ..).within
  | .heartbeat .. => (execHeartbeat_keeps ..).within
  | .keyUpdate .. => (execKeyUpdate_keeps ..).within
  | .endSession .. => (execEndSession_keeps ..).within
  | .chunkGet .. => (execChunkGet_keeps ..).within
  | .pqCerts .. => (execPqCerts_keeps ..).within
  | .pqSig .. => (execPqSig_keeps ..).within
  | .tenantReport .. => (execTenantReport_keeps ..).within
  | .bundleKeys .. => (execBundleKeys_keeps ..).within
  | .extend .. => (execExtend_keeps ..).within
  | .bundleImport .. => (execBundleImport_keeps ..).within
  | .bundleImportEnd .. => (execBundleImportEnd_keeps ..).within
  | .debugUnlock .. => (execDebugUnlock_keeps ..).within
  | .unknownVerb .. => (execUnknownVerb_keeps ..).within
  | .linkctlRestart .. => (execLinkctlRestart_keeps ..).within
  | .linkctlRetrain .. => (execLinkctlRetrain_keeps ..).within
  | .linkctlDown .. => (execLinkctlDown_keeps ..).within
  | .linkctlRekey .. => (execLinkctlRekey_keeps ..).within
  | .linkRestartDelay .. => (execLinkRestartDelay_keeps ..).within
  | .linkPartnerDetect .. => (execLinkPartnerDetect_keeps ..).within
  | .linkTrainingStageEnd .. => (execLinkTrainingStageEnd_keeps ..).within
  | .linkStateTimeout .. => (execLinkStateTimeout_keeps ..).within
  | .flitPosition .. => (execFlitPosition_keeps ..).within
  | .holdingTimeout .. => (execHoldingTimeout_keeps ..).within
  | .goBackResendTimeout .. => (execGoBackResendTimeout_keeps ..).within
  | .replayTimeout .. => (execReplayTimeout_keeps ..).within
  | .linkRetrainTrigger .. => (execLinkRetrainTrigger_keeps ..).within
  | .linkDown .. => (execLinkDown_keeps ..).within
  | .rekeyInterval .. => (execRekeyInterval_keeps ..).within
  | .keyHello .. => (execKeyHello_keeps ..).within
  | .keyReply .. => (execKeyReply_keeps ..).within
  | .keyProof .. => (execKeyProof_keeps ..).within
  | .tlmsg .. => (execTlmsg_keeps ..).within
  | .tlans .. => (execTlans_keeps ..).within
  | .malformedMessage .. => (execMalformedMessage_keeps ..).within
  | .blkRd .. => (execBlkRd_keeps ..).within
  | .blkWr .. => (execBlkWr_keeps ..).within
  | .winRd .. => (execWinRd_keeps ..).within
  | .winWr .. => (execWinWr_keeps ..).within
  | .tableCommit .. => (execTableCommit_keeps ..).within
  | .epochRetire => (execEpochRetire_keeps ..).within
  | .trussFlitCrcFail .. => (execTrussFlitCrcFail_keeps ..).within
  | .multicastDeliveryNotice .. => (execMulticastDeliveryNotice_keeps ..).within
  | .resetDrainLimit => (execResetDrainLimit_keeps ..).within
  | .gateEntryBoundary => (execGateEntryBoundary_keeps ..).within
  | .gateChangeCommit .. => (execGateChangeCommit_keeps ..).within
  | .gateListChange => (execGateListChange_keeps ..).within
  | .tollRelease .. => (execTollRelease_keeps ..).within
  | .queueSample => (execQueueSample_keeps ..).within
  | .resetSampleRecord .. => (execResetSampleRecord_keeps ..).within
  | .ucieLinkLoss => (execUcieLinkLoss_keeps ..).within
  | .uperrstatRead .. => (execUperrstatRead_keeps ..).within
  | .cxlLinkDown .. => (execCxlLinkDown_keeps ..).within
  | .trayRequestTimeout .. => (execTrayRequestTimeout_keeps ..).within
  | .nvmeCommandTimeout .. => (execNvmeCommandTimeout_keeps ..).within
  | .nvmeCompletion .. => (execNvmeCompletion_keeps ..).within
  | .rdmaWrite .. => (execRdmaWrite_keeps ..).within
  | .rdmaReadRequest .. => (execRdmaReadRequest_keeps ..).within
  | .roceAcknowledge .. => (execRoceAcknowledge_keeps ..).within
  | .roceInvalidRequest .. => (execRoceInvalidRequest_keeps ..).within
  | .ethernetFrameDiscard .. => (execEthernetFrameDiscard_keeps ..).within
  | .neighborResolution .. => (execNeighborResolution_keeps ..).within
  | .ptpSync .. => (execPtpSync_keeps ..).within
  | .ptpLockLoss .. => (execPtpLockLoss_keeps ..).within
  | .mkaFrame .. => (execMkaFrame_keeps ..).within
  | .roceRecordWrite .. => (execRoceRecordWrite_keeps ..).within
  | .spanMapWrite .. => (execSpanMapWrite_keeps ..).within
  | .spanMapDigest .. => (execSpanMapDigest_keeps ..).within
  | .stripedPart .. => (execStripedPart_keeps ..).within
  | .memberReport .. => (execMemberReport_keeps ..).within
  | .stripeCommit .. => (execStripeCommit_keeps ..).within
  | .stripeAbort .. => (execStripeAbort_keeps ..).within
  | .spanPartial .. => (execSpanPartial_keeps ..).within
  | .successorTakeover => (execSuccessorTakeover_keeps ..).within
  | .twinLogRecord .. => (execTwinLogRecord_keeps ..).within
  | .relayedWriteAck .. => (execRelayedWriteAck_keeps ..).within
  | .twinKeepalive => (execTwinKeepalive_keeps ..).within
  | .pathSilence .. => (execPathSilence_keeps ..).within
  | .stepRecord .. => (execStepRecord_keeps ..).within
  | .twinSelfCheck .. => (execTwinSelfCheck_keeps ..).within
  | .disagreementAction => (execDisagreementAction_keeps ..).within
  | .resyncPhaseEnd => (execResyncPhaseEnd_keeps ..).within
  | .holdBufferOverflow => (execHoldBufferOverflow_keeps ..).within
  | .handoverFail => (execHandoverFail_keeps ..).within
  | .objectRead .. => (execObjectRead_keeps ..).within
  | .objectWrite .. => (execObjectWrite_keeps ..).within
  | .stagedWriteAbort .. => (execStagedWriteAbort_keeps ..).within
  | .stagedWriteTimeout .. => (execStagedWriteTimeout_keeps ..).within
  | .nmtStart => (execNmtStart_keeps ..).within
  | .nmtStop => (execNmtStop_keeps ..).within
  | .nmtEnterPreOperational => (execNmtEnterPreOperational_keeps ..).within
  | .nmtResetCommunication => (execNmtResetCommunication_keeps ..).within
  | .nmtResetNode => (execNmtResetNode_keeps ..).within
  | .usdoTransfer .. => (execUsdoTransfer_keeps ..).within
  | .heartbeatPeriod => (execHeartbeatPeriod_keeps ..).within
  | .emcyInhibitExpiry => (execEmcyInhibitExpiry_keeps ..).within
  | .entdaa .. => (execEntdaa_keeps ..).within
  | .setEndpointId .. => (execSetEndpointId_keeps ..).within
  | .getEndpointId => (execGetEndpointId_keeps ..).within
  | .getMctpVersionSupport .. => (execGetMctpVersionSupport_keeps ..).within
  | .getMessageTypeSupport => (execGetMessageTypeSupport_keeps ..).within
  | .registerWrite .. => (execRegisterWrite_keeps ..).within
  | .tlsend .. => (execTlsend_keeps ..).within
  | .dictionaryService => (execDictionaryService_keeps ..).within
  | .tlrdone .. => (execTlrdone_keeps ..).within
  | .inback .. => (execInback_keeps ..).within
  | .resetTallyGroup .. => (execResetTallyGroup_keeps ..).within
  | .resetTenantTallies .. => (execResetTenantTallies_keeps ..).within
  | .freeze .. => (execFreeze_keeps ..).within
  | .freezeTrigger => (execFreezeTrigger_keeps ..).within
  | .traceRecord .. => (execTraceRecord_keeps ..).within
  | .arm .. => (execArm_keeps ..).within
  | .triggerNow .. => (execTriggerNow_keeps ..).within
  | .traceTrigger .. => (execTraceTrigger_keeps ..).within
  | .powerUp .. => (execPowerUp_keeps ..).within
  | .powerUpStepEnd .. => (execPowerUpStepEnd_keeps ..).within
  | .orderlyPowerDown .. => (execOrderlyPowerDown_keeps ..).within
  | .emergencyPowerDown .. => (execEmergencyPowerDown_keeps ..).within
  | .rstN => (execRstN_keeps ..).within
  | .requestDeviceReset .. => (execRequestDeviceReset_keeps ..).within
  | .dieFailure .. => (execDieFailure_keeps ..).within
  | .deviceReset => (execDeviceReset_keeps ..).within
  | .resetRelease => (execResetRelease_keeps ..).within
  | .watchdogKick .. => (execWatchdogKick_keeps ..).within
  | .watchdogExpiry => (execWatchdogExpiry_keeps ..).within
  | .issueAllowanceUpdate .. => (execIssueAllowanceUpdate_keeps ..).within
  | .forwardedData .. => (execForwardedData_keeps ..).within
  | .blkData .. => (execBlkData_keeps ..).within
  | .agentPurgeEnd .. => (execAgentPurgeEnd_keeps ..).within
  | .portLinkUp .. => (execPortLinkUp_keeps ..).within
  | .ethernetLinkDown .. => (execEthernetLinkDown_keeps ..).within
  | .nvmeControllerResetEnd .. => (execNvmeControllerResetEnd_keeps ..).within
  | .randomSourceHealthy => (execRandomSourceHealthy_keeps ..).within
  | .priorityFlowControlFrame .. => (execPriorityFlowControlFrame_keeps ..).within
/-- Settles O6: a part that is not named has no bit in the command's mask, and the queue has none in any. -/
theorem framesHold : Obligations.FramesHold := fun c s t h =>
  have k : Keeps (partMask (writes c)) s t := (exec_keeps c s).all t h
  ⟨fun _ hp => k.same (partMask_testBit hp), k.pending (partMask_testBit_queue _)⟩

/-- Settles O7: the list of bytes is the same, so every byte reads the same. -/
theorem memoryStays : Obligations.MemoryStays := fun c s t h hp a => by
  have hbytes : t.mem.bytes = s.mem.bytes := (framesHold c s t h).1 .bytes hp
  rw [hbytes]

/-! ## Every command completes

Each branch of a meaning answers a next state; a meaning without a branch does so by definition. -/

/-- A meaning with two branches completes where both do. -/
theorem ite_completes {c : Prop} [Decidable c] {a b : Res} (ha : ∃ t, a = .next t) (hb : ∃ t, b = .next t) :
    ∃ t, (if c then a else b) = .next t := by split <;> assumption

theorem execDescriptorRead_completes (die : Fin 2) (s : State) : ∃ t, execDescriptorRead die s = .next t := by
  unfold execDescriptorRead
  dsimp only
  split <;> exact ⟨_, rfl⟩

theorem execUnsupported_completes (qp : Fin 1024) (s : State) : ∃ t, execUnsupported qp s = .next t := by
  unfold execUnsupported
  dsimp only
  split <;> exact ⟨_, rfl⟩

theorem execInterruptCoalesceTimer_completes (qp : Fin 1024) (s : State) : ∃ t, execInterruptCoalesceTimer qp s = .next t := by
  unfold execInterruptCoalesceTimer
  dsimp only
  (repeat' split) <;> exact ⟨_, rfl⟩

theorem execReinitDone_completes (qp : Fin 1024) (s : State) : ∃ t, execReinitDone qp s = .next t := by
  unfold execReinitDone
  dsimp only
  split <;> exact ⟨_, rfl⟩

theorem execPendingFault_completes (d : Nat) (s : State) : ∃ t, execPendingFault d s = .next t := by
  unfold execPendingFault
  (repeat' split) <;> exact ⟨_, rfl⟩

theorem execFaultQueueSlotFree_completes (s : State) : ∃ t, execFaultQueueSlotFree s = .next t := by
  unfold execFaultQueueSlotFree
  (repeat' split) <;> exact ⟨_, rfl⟩

theorem execPendingRewalk_completes (i : Nat) (s : State) : ∃ t, execPendingRewalk i s = .next t := by
  unfold execPendingRewalk
  dsimp only
  (repeat' split) <;> exact ⟨_, rfl⟩

theorem execPendingFaultTimeout_completes (i : Nat) (s : State) : ∃ t, execPendingFaultTimeout i s = .next t := by
  unfold execPendingFaultTimeout
  dsimp only
  (repeat' split) <;> exact ⟨_, rfl⟩

theorem execInvalidationStart_completes (s : State) : ∃ t, execInvalidationStart s = .next t := by
  unfold execInvalidationStart
  split <;> exact ⟨_, rfl⟩

theorem execInvalidationComplete_completes (s : State) : ∃ t, execInvalidationComplete s = .next t := by
  unfold execInvalidationComplete
  (repeat' split) <;> exact ⟨_, rfl⟩

theorem execXlinvstatRead_completes (w : Win) (s : State) : ∃ t, execXlinvstatRead w s = .next t := by
  unfold execXlinvstatRead
  split
  exact ⟨_, rfl⟩

theorem execFrameDrainEnd_completes (i : Nat) (s : State) : ∃ t, execFrameDrainEnd i s = .next t := by
  unfold execFrameDrainEnd
  (repeat' split) <;> exact ⟨_, rfl⟩

theorem execOpenEnd_completes (s : State) : ∃ t, execOpenEnd s = .next t := by
  unfold execOpenEnd
  dsimp only
  (repeat' split) <;> exact ⟨_, rfl⟩

theorem execReleaseWalkEnd_completes (c : Fin 4096) (s : State) : ∃ t, execReleaseWalkEnd c s = .next t := by
  unfold execReleaseWalkEnd
  split <;> exact ⟨_, rfl⟩

theorem execFork_completes (d : Nat) (s : State) : ∃ t, execFork d s = .next t := by
  unfold execFork
  split <;> exact ⟨_, rfl⟩

theorem execTrim_completes (d : Nat) (s : State) : ∃ t, execTrim d s = .next t := by
  unfold execTrim
  split <;> exact ⟨_, rfl⟩

theorem execSummarize_completes (d : Nat) (s : State) : ∃ t, execSummarize d s = .next t := by
  unfold execSummarize
  split <;> exact ⟨_, rfl⟩

theorem execMoveComplete_completes (id : Nat) (f : Finding) (s : State) : ∃ t, execMoveComplete id f s = .next t := by
  unfold execMoveComplete
  split <;> exact ⟨_, rfl⟩

theorem execAutomaticDemotion_completes (t : Fin 64) (s : State) : ∃ u, execAutomaticDemotion t s = .next u := by
  unfold execAutomaticDemotion
  split <;> exact ⟨_, rfl⟩

theorem execResidencyFault_completes (c : Fin 20) (s : State) : ∃ t, execResidencyFault c s = .next t := by
  unfold execResidencyFault
  (repeat' split) <;> exact ⟨_, rfl⟩

theorem execT3BudgetRefill_completes (ns : Fin 64) (s : State) : ∃ t, execT3BudgetRefill ns s = .next t := by
  unfold execT3BudgetRefill
  dsimp only
  (repeat' split) <;> exact ⟨_, rfl⟩

theorem execPrefetch_completes (d : Nat) (s : State) : ∃ t, execPrefetch d s = .next t := by
  unfold execPrefetch
  split <;> exact ⟨_, rfl⟩

theorem execPin_completes (d : Nat) (s : State) : ∃ t, execPin d s = .next t := by
  unfold execPin
  split <;> exact ⟨_, rfl⟩

theorem execEvict_completes (d : Nat) (s : State) : ∃ t, execEvict d s = .next t := by
  unfold execEvict
  split <;> exact ⟨_, rfl⟩

theorem execTrayFail_completes (t3 : Bool) (n : Fin 64) (s : State) : ∃ t, execTrayFail t3 n s = .next t := by
  unfold execTrayFail
  (repeat' split) <;> exact ⟨_, rfl⟩

theorem execTableCommit_completes (v : Bool) (s : State) : ∃ t, execTableCommit v s = .next t := by
  unfold execTableCommit
  split <;> exact ⟨_, rfl⟩

theorem execEpochRetire_completes (s : State) : ∃ t, execEpochRetire s = .next t := by
  unfold execEpochRetire
  split <;> exact ⟨_, rfl⟩

theorem execMulticastDeliveryNotice_completes (id dest : Nat) (s : State) : ∃ t, execMulticastDeliveryNotice id dest s = .next t := by
  unfold execMulticastDeliveryNotice
  split <;> exact ⟨_, rfl⟩

theorem execAppend_completes (d : Nat) (s : State) : ∃ t, execAppend d s = .next t := by
  unfold execAppend
  dsimp only
  (repeat' split) <;> exact ⟨_, rfl⟩

theorem execAttend_completes (d : Nat) (s : State) : ∃ t, execAttend d s = .next t := by
  unfold execAttend
  dsimp only
  (repeat' split) <;> exact ⟨_, rfl⟩

theorem execWorkItemStart_completes (c : Fin 20) (s : State) : ∃ t, execWorkItemStart c s = .next t := by
  unfold execWorkItemStart
  dsimp only
  (repeat' split) <;> exact ⟨_, rfl⟩

theorem execSummaryPassEnd_completes (c : Fin 20) (s : State) : ∃ t, execSummaryPassEnd c s = .next t := by
  unfold execSummaryPassEnd
  dsimp only
  (repeat' split) <;> exact ⟨_, rfl⟩

theorem execT1GranuleReady_completes (c : Fin 20) (i : Nat) (f : Finding) (s : State) : ∃ t, execT1GranuleReady c i f s = .next t := by
  unfold execT1GranuleReady
  dsimp only
  (repeat' split) <;> exact ⟨_, rfl⟩

theorem execCertifiedCheck_completes (c : Fin 20) (s : State) : ∃ t, execCertifiedCheck c s = .next t := by
  unfold execCertifiedCheck
  dsimp only
  (repeat' split) <;> exact ⟨_, rfl⟩

theorem execCompact_completes (d : Nat) (s : State) : ∃ t, execCompact d s = .next t := by
  unfold execCompact
  dsimp only
  (repeat' split) <;> exact ⟨_, rfl⟩

theorem execPartialArrival_completes (die : Fin 2) (d : Nat) (s : State) : ∃ t, execPartialArrival die d s = .next t := by
  unfold execPartialArrival
  (repeat' split) <;> exact ⟨_, rfl⟩

theorem execOutputFormed_completes (d : Nat) (s : State) : ∃ t, execOutputFormed d s = .next t := by
  unfold execOutputFormed
  dsimp only
  (repeat' split) <;> exact ⟨_, rfl⟩

theorem execPushAck_completes (pier : Fin 8) (m : KafMsg) (s : State) : ∃ t, execPushAck pier m s = .next t := by
  unfold execPushAck
  (repeat' split) <;> exact ⟨_, rfl⟩

theorem execAttendDeadline_completes (d : Nat) (s : State) : ∃ t, execAttendDeadline d s = .next t := by
  unfold execAttendDeadline
  dsimp only
  (repeat' split) <;> exact ⟨_, rfl⟩

theorem execSpanRemoteForward_completes (port : Fin 13) (m : KafMsg) (s : State) : ∃ t, execSpanRemoteForward port m s = .next t := by
  unfold execSpanRemoteForward
  split <;> exact ⟨_, rfl⟩

theorem execWbDirty_completes (port : Fin 13) (m : KafMsg) (s : State) : ∃ t, execWbDirty port m s = .next t := by
  unfold execWbDirty
  dsimp only
  (repeat' split) <;> exact ⟨_, rfl⟩

theorem execSnoopResponse_completes (port : Fin 13) (m : KafMsg) (s : State) : ∃ t, execSnoopResponse port m s = .next t := by
  unfold execSnoopResponse
  split <;> exact ⟨_, rfl⟩

theorem execRspCopy_completes (port : Fin 13) (m : KafMsg) (s : State) : ∃ t, execRspCopy port m s = .next t := by
  unfold execRspCopy
  dsimp only
  (repeat' split) <;> exact ⟨_, rfl⟩

theorem execRspWbPend_completes (port : Fin 13) (m : KafMsg) (s : State) : ∃ t, execRspWbPend port m s = .next t := by
  unfold execRspWbPend
  dsimp only
  (repeat' split) <;> exact ⟨_, rfl⟩

theorem execForwardedData_completes (port : Fin 13) (m : KafMsg) (s : State) : ∃ t, execForwardedData port m s = .next t := by
  unfold execForwardedData
  dsimp only
  (repeat' split) <;> exact ⟨_, rfl⟩

theorem execFwdAck_completes (port : Fin 13) (m : KafMsg) (s : State) : ∃ t, execFwdAck port m s = .next t := by
  unfold execFwdAck
  dsimp only
  (repeat' split) <;> exact ⟨_, rfl⟩

theorem execLineLockAcquire_completes (line : Nat) (s : State) : ∃ t, execLineLockAcquire line s = .next t := by
  unfold execLineLockAcquire
  (repeat' split) <;> exact ⟨_, rfl⟩

theorem execCxlMemWr_completes (port : Fin 4) (tag : Nat) (addr : BitVec 57) (mask : BitVec 64) (data : List Byte)
    (poison : Bool) (s : State) :
    ∃ t, execCxlMemWr port tag addr mask data poison s = .next t := by
  unfold execCxlMemWr
  dsimp only
  (repeat' split) <;> exact ⟨_, rfl⟩

theorem execBiSnoopResponse_completes (port : Fin 4) (kind : BitVec 2) (addr : BitVec 52) (s : State) :
    ∃ t, execBiSnoopResponse port kind addr s = .next t := by
  unfold execBiSnoopResponse
  dsimp only
  (repeat' split) <;> exact ⟨_, rfl⟩

theorem execSnoopTimeout_completes (a : Fin 12) (line : Nat) (s : State) : ∃ t, execSnoopTimeout a line s = .next t := by
  unfold execSnoopTimeout
  (repeat' split) <;> exact ⟨_, rfl⟩

theorem execAgentPurgeEnd_completes (a : Fin 12) (s : State) : ∃ t, execAgentPurgeEnd a s = .next t := by
  unfold execAgentPurgeEnd
  dsimp only
  split <;> exact ⟨_, rfl⟩

theorem execEscrowRecallWalk_completes (ext : Nat) (s : State) : ∃ t, execEscrowRecallWalk ext s = .next t := by
  unfold execEscrowRecallWalk
  split <;> exact ⟨_, rfl⟩

theorem execBlkData_completes (port : Fin 13) (m : KafMsg) (s : State) : ∃ t, execBlkData port m s = .next t := by
  unfold execBlkData
  (repeat' split) <;> exact ⟨_, rfl⟩

theorem execRelayedWriteAck_completes (id : Nat) (s : State) : ∃ t, execRelayedWriteAck id s = .next t := by
  unfold execRelayedWriteAck
  (repeat' split) <;> exact ⟨_, rfl⟩

theorem execCheckTile_completes (c : Fin 20) (ok : Bool) (s : State) : ∃ t, execCheckTile c ok s = .next t := by
  unfold execCheckTile
  dsimp only
  split <;> exact ⟨_, rfl⟩

theorem execCoreWatchdog_completes (c : Fin 20) (s : State) : ∃ t, execCoreWatchdog c s = .next t := by
  unfold execCoreWatchdog
  dsimp only
  (repeat' split) <;> exact ⟨_, rfl⟩

theorem execCoreSramUncorrectable_completes (c : Fin 20) (s : State) : ∃ t, execCoreSramUncorrectable c s = .next t := by
  unfold execCoreSramUncorrectable
  split <;> exact ⟨_, rfl⟩

theorem execFenceReadsDrained_completes (c : Fin 20) (s : State) : ∃ t, execFenceReadsDrained c s = .next t := by
  unfold execFenceReadsDrained
  dsimp only
  split <;> exact ⟨_, rfl⟩

theorem execCoreTestEnd_completes (c : Fin 20) (ok : Bool) (s : State) : ∃ t, execCoreTestEnd c ok s = .next t := by
  unfold execCoreTestEnd
  dsimp only
  (repeat' split) <;> exact ⟨_, rfl⟩

theorem execPatternOpDone_completes (c : Fin 24) (res : BitVec 64) (lanes : BitVec 36) (s : State) :
    ∃ t, execPatternOpDone c res lanes s = .next t := by
  unfold execPatternOpDone
  dsimp only
  (repeat' split) <;> exact ⟨_, rfl⟩

theorem execRefreshDue_completes (c : Fin 24) (pc : Fin 64) (bank : Fin 64) (issue : Bool) (s : State) :
    ∃ t, execRefreshDue c pc bank issue s = .next t := by
  unfold execRefreshDue
  dsimp only
  (repeat' split) <;> exact ⟨_, rfl⟩

theorem execStackTemperatureChange_completes (c : Fin 24) (t : Nat) (s : State) : ∃ u, execStackTemperatureChange c t s = .next u := by
  unfold execStackTemperatureChange
  split <;> exact ⟨_, rfl⟩

theorem execTargetedRefresh_completes (c : Fin 24) (pc : Fin 64) (bank : Fin 64) (row : Fin 16384) (tag source : BitVec 8) (s : State) :
    ∃ t, execTargetedRefresh c pc bank row tag source s = .next t := by
  unfold execTargetedRefresh
  dsimp only
  (repeat' split) <;> exact ⟨_, rfl⟩

theorem execThrottleIntervalEnd_completes (s : State) : ∃ t, execThrottleIntervalEnd s = .next t := by
  unfold execThrottleIntervalEnd
  exact ⟨_, rfl⟩

theorem execSelfRefreshEntry_completes (c : Fin 24) (s : State) : ∃ t, execSelfRefreshEntry c s = .next t := by
  unfold execSelfRefreshEntry
  dsimp only
  split <;> exact ⟨_, rfl⟩

theorem execSelfRefreshExit_completes (c : Fin 24) (s : State) : ∃ t, execSelfRefreshExit c s = .next t := by
  unfold execSelfRefreshExit
  split <;> exact ⟨_, rfl⟩

theorem execRetrainGroup_completes (bad : List (Fin 24 × Nat)) (s : State) : ∃ t, execRetrainGroup bad s = .next t := by
  unfold execRetrainGroup
  dsimp only
  (repeat' split) <;> exact ⟨_, rfl⟩

theorem execPatrolScrubRead_completes (c : Fin 24) (f : Finding) (s : State) : ∃ t, execPatrolScrubRead c f s = .next t := by
  unfold execPatrolScrubRead
  dsimp only
  (repeat' split) <;> exact ⟨_, rfl⟩

theorem execImmediateScrub_completes (c : Fin 24) (f : Finding) (s : State) : ∃ t, execImmediateScrub c f s = .next t := by
  unfold execImmediateScrub
  (repeat' split) <;> exact ⟨_, rfl⟩

theorem execZeroizeDone_completes (ext : Nat) (s : State) : ∃ t, execZeroizeDone ext s = .next t := by
  unfold execZeroizeDone
  dsimp only
  (repeat' split) <;> exact ⟨_, rfl⟩

theorem execEscrowStepEnd_completes (ext : Nat) (s : State) : ∃ t, execEscrowStepEnd ext s = .next t := by
  unfold execEscrowStepEnd
  split <;> exact ⟨_, rfl⟩

theorem execRemovalStepEnd_completes (t : Fin 64) (s : State) : ∃ u, execRemovalStepEnd t s = .next u := by
  unfold execRemovalStepEnd
  split <;> exact ⟨_, rfl⟩

theorem execRewrapUnit_completes (t : Fin 64) (ext : Nat) (s : State) : ∃ u, execRewrapUnit t ext s = .next u := by
  unfold execRewrapUnit
  split <;> exact ⟨_, rfl⟩

theorem execSweepComplete_completes (t : Fin 64) (s : State) : ∃ u, execSweepComplete t s = .next u := by
  unfold execSweepComplete
  split <;> exact ⟨_, rfl⟩

theorem execUnknownVerb_completes (ch : Fin 72) (s : State) : ∃ t, execUnknownVerb ch s = .next t := by
  unfold execUnknownVerb
  (repeat' split) <;> exact ⟨_, rfl⟩

theorem execBundleImportEnd_completes (ok : Bool) (s : State) : ∃ t, execBundleImportEnd ok s = .next t := by
  unfold execBundleImportEnd
  dsimp only
  (repeat' split) <;> exact ⟨_, rfl⟩

theorem execRekeyInterval_completes (l : Fin 13) (s : State) : ∃ t, execRekeyInterval l s = .next t := by
  unfold execRekeyInterval
  dsimp only
  split <;> exact ⟨_, rfl⟩

theorem execLinkRestartDelay_completes (l : Fin 13) (s : State) : ∃ t, execLinkRestartDelay l s = .next t := by
  unfold execLinkRestartDelay
  dsimp only
  split <;> exact ⟨_, rfl⟩

theorem execLinkPartnerDetect_completes (l : Fin 13) (lanes : BitVec 8) (s : State) : ∃ t, execLinkPartnerDetect l lanes s = .next t := by
  unfold execLinkPartnerDetect
  dsimp only
  split <;> exact ⟨_, rfl⟩

theorem execLinkTrainingStageEnd_completes (l : Fin 13) (lanes : BitVec 8) (rtt : Nat) (ok : Bool) (s : State) :
    ∃ t, execLinkTrainingStageEnd l lanes rtt ok s = .next t := by
  unfold execLinkTrainingStageEnd
  dsimp only
  (repeat' split) <;> exact ⟨_, rfl⟩

theorem execLinkStateTimeout_completes (l : Fin 13) (s : State) : ∃ t, execLinkStateTimeout l s = .next t := by
  unfold execLinkStateTimeout
  dsimp only
  (repeat' split) <;> exact ⟨_, rfl⟩

theorem execFlitPosition_completes (l : Fin 13) (good : Bool) (tagOk : Bool) (seq : Option (BitVec 12)) (ack : BitVec 12)
    (xoff : BitVec 4) (req : BitVec 2) (reqSeq : BitVec 12) (phase : Bool) (s : State) :
    ∃ t, execFlitPosition l good tagOk seq ack xoff req reqSeq phase s = .next t := by
  unfold execFlitPosition
  extract_lets n s1 k locked
  refine ite_completes ⟨_, rfl⟩ (ite_completes ⟨_, rfl⟩ (ite_completes ?_ ?_))
  · exact ite_completes ⟨_, rfl⟩ ⟨_, rfl⟩
  · refine ite_completes ⟨_, rfl⟩ ?_
    split <;> exact ⟨_, rfl⟩

theorem execHoldingTimeout_completes (l : Fin 13) (s : State) : ∃ t, execHoldingTimeout l s = .next t := by
  unfold execHoldingTimeout
  dsimp only
  split <;> exact ⟨_, rfl⟩

theorem execGoBackResendTimeout_completes (l : Fin 13) (s : State) : ∃ t, execGoBackResendTimeout l s = .next t := by
  unfold execGoBackResendTimeout
  dsimp only
  split <;> exact ⟨_, rfl⟩

theorem execReplayTimeout_completes (l : Fin 13) (s : State) : ∃ t, execReplayTimeout l s = .next t := by
  unfold execReplayTimeout
  dsimp only
  (repeat' split) <;> exact ⟨_, rfl⟩

theorem execTlmsg_completes (port : Fin 13) (m : KafMsg) (s : State) : ∃ t, execTlmsg port m s = .next t := by
  unfold execTlmsg
  dsimp only
  (repeat' split) <;> exact ⟨_, rfl⟩

theorem execTlans_completes (port : Fin 13) (m : KafMsg) (s : State) : ∃ t, execTlans port m s = .next t := by
  unfold execTlans
  split <;> exact ⟨_, rfl⟩

theorem execMalformedMessage_completes (l : Fin 13) (header : BitVec 256) (vc : Fin 8) (len : Nat) (s : State) :
    ∃ t, execMalformedMessage l header vc len s = .next t := by
  unfold execMalformedMessage
  split <;> exact ⟨_, rfl⟩

theorem execPortLinkUp_completes (port : Fin 14) (data : List Byte) (s : State) : ∃ t, execPortLinkUp port data s = .next t := by
  unfold execPortLinkUp
  dsimp only
  split <;> exact ⟨_, rfl⟩

theorem execUperrstatRead_completes (port : Fin 4) (s : State) : ∃ t, execUperrstatRead port s = .next t := by
  unfold execUperrstatRead
  split
  exact ⟨_, rfl⟩

theorem execCxlLinkDown_completes (port : Fin 4) (s : State) : ∃ t, execCxlLinkDown port s = .next t := by
  unfold execCxlLinkDown
  split <;> exact ⟨_, rfl⟩

theorem execTrayRequestTimeout_completes (tray : Fin 32) (s : State) : ∃ t, execTrayRequestTimeout tray s = .next t := by
  unfold execTrayRequestTimeout
  split <;> exact ⟨_, rfl⟩

theorem execNvmeCompletion_completes (port : Fin 4) (cid : Nat) (status : BitVec 16) (s : State) :
    ∃ t, execNvmeCompletion port cid status s = .next t := by
  unfold execNvmeCompletion
  dsimp only
  (repeat' split) <;> exact ⟨_, rfl⟩

theorem execNvmeCommandTimeout_completes (port : Fin 4) (cid : Nat) (s : State) : ∃ t, execNvmeCommandTimeout port cid s = .next t := by
  unfold execNvmeCommandTimeout
  dsimp only
  (repeat' split) <;> exact ⟨_, rfl⟩

theorem execNvmeControllerResetEnd_completes (port : Fin 4) (ok : Bool) (s : State) :
    ∃ t, execNvmeControllerResetEnd port ok s = .next t := by
  unfold execNvmeControllerResetEnd
  dsimp only
  (repeat' split) <;> exact ⟨_, rfl⟩

theorem execEthernetFrameDiscard_completes (port : Fin 2) (frame : List Byte) (s : State) :
    ∃ t, execEthernetFrameDiscard port frame s = .next t := by
  unfold execEthernetFrameDiscard
  split <;> exact ⟨_, rfl⟩

theorem execNeighborResolution_completes (port : Fin 2) (frame : List Byte) (s : State) :
    ∃ t, execNeighborResolution port frame s = .next t := by
  unfold execNeighborResolution
  dsimp only
  (repeat' split) <;> exact ⟨_, rfl⟩

theorem execMkaFrame_completes (port : Fin 2) (frame : List Byte) (s : State) : ∃ t, execMkaFrame port frame s = .next t := by
  unfold execMkaFrame
  dsimp only
  split <;> exact ⟨_, rfl⟩

theorem execPriorityFlowControlFrame_completes (port : Fin 2) (mask : BitVec 8) (pause : List Nat) (s : State) :
    ∃ t, execPriorityFlowControlFrame port mask pause s = .next t := by
  unfold execPriorityFlowControlFrame
  dsimp only
  split <;> exact ⟨_, rfl⟩

theorem execEthernetLinkDown_completes (port : Fin 2) (s : State) : ∃ t, execEthernetLinkDown port s = .next t := by
  unfold execEthernetLinkDown
  split <;> exact ⟨_, rfl⟩

theorem execPtpSync_completes (port : Fin 2) (domain : BitVec 8) (origin : Nat) (offset : Int) (s : State) :
    ∃ t, execPtpSync port domain origin offset s = .next t := by
  unfold execPtpSync
  dsimp only
  (repeat' split) <;> exact ⟨_, rfl⟩

theorem execPtpLockLoss_completes (port : Fin 2) (s : State) : ∃ t, execPtpLockLoss port s = .next t := by
  unfold execPtpLockLoss
  dsimp only
  split <;> exact ⟨_, rfl⟩

theorem execRoceAcknowledge_completes (port : Fin 2) (qp : Fin 256) (psn : BitVec 24) (nak : Bool) (s : State) :
    ∃ t, execRoceAcknowledge port qp psn nak s = .next t := by
  unfold execRoceAcknowledge
  split <;> exact ⟨_, rfl⟩

theorem execRoceInvalidRequest_completes (port : Fin 2) (qp : Fin 256) (psn : BitVec 24) (opcode : BitVec 8) (s : State) :
    ∃ t, execRoceInvalidRequest port qp psn opcode s = .next t := by
  unfold execRoceInvalidRequest
  split <;> exact ⟨_, rfl⟩

theorem execRdmaWrite_completes (port : Fin 2) (qp : Fin 256) (psn : BitVec 24) (rkey : BitVec 32) (addr : BitVec 64)
    (data : List Byte) (dscp : BitVec 6) (s : State) :
    ∃ t, execRdmaWrite port qp psn rkey addr data dscp s = .next t := by
  unfold execRdmaWrite
  split <;> exact ⟨_, rfl⟩

theorem execRdmaReadRequest_completes (port : Fin 2) (qp : Fin 256) (psn : BitVec 24) (rkey : BitVec 32) (addr : BitVec 64)
    (len : Nat) (dscp : BitVec 6) (s : State) :
    ∃ t, execRdmaReadRequest port qp psn rkey addr len dscp s = .next t := by
  unfold execRdmaReadRequest
  split <;> exact ⟨_, rfl⟩

theorem execAdmissionHoldLimit_completes (qp : Fin 1024) (d : Option Nat) (s : State) : ∃ t, execAdmissionHoldLimit qp d s = .next t := by
  unfold execAdmissionHoldLimit
  (repeat' split) <;> exact ⟨_, rfl⟩

theorem execSpanMapDigest_completes (index : Fin 16) (digest : BitVec 384) (s : State) :
    ∃ t, execSpanMapDigest index digest s = .next t := by
  unfold execSpanMapDigest
  split <;> exact ⟨_, rfl⟩

theorem execStripedPart_completes (port : Fin 13) (desc : Desc) (home : Fin 16) (d : Nat) (len : Nat) (input : List Byte) (s : State) :
    ∃ t, execStripedPart port desc home d len input s = .next t := by
  unfold execStripedPart
  dsimp only
  (repeat' split) <;> exact ⟨_, rfl⟩

theorem execStripeCommit_completes (port : Fin 13) (d : Nat) (s : State) : ∃ t, execStripeCommit port d s = .next t := by
  unfold execStripeCommit
  (repeat' split) <;> exact ⟨_, rfl⟩

theorem execStripeAbort_completes (port : Fin 13) (d : Nat) (s : State) : ∃ t, execStripeAbort port d s = .next t := by
  unfold execStripeAbort
  split <;> exact ⟨_, rfl⟩

theorem execMemberReport_completes (d : Nat) (index : Fin 16) (code : BitVec 8) (detail : BitVec 8) (r1 r2 rounds : Nat) (s : State) :
    ∃ t, execMemberReport d index code detail r1 r2 rounds s = .next t := by
  unfold execMemberReport
  dsimp only
  (repeat' split) <;> exact ⟨_, rfl⟩

theorem execSpanPartial_completes (port : Fin 13) (d : Nat) (rows : List (Option Dy × Dy × Option Dy × List Dy)) (s : State) :
    ∃ t, execSpanPartial port d rows s = .next t := by
  unfold execSpanPartial
  dsimp only
  (repeat' split) <;> exact ⟨_, rfl⟩

theorem execTwinLogRecord_completes (src : Nat) (tag : Nat) (line : Nat) (entry : BitVec 64) (data : List Byte) (s : State) :
    ∃ t, execTwinLogRecord src tag line entry data s = .next t := by
  unfold execTwinLogRecord
  dsimp only
  (repeat' split) <;> exact ⟨_, rfl⟩

theorem execTwinSelfCheck_completes (ok : Bool) (s : State) : ∃ t, execTwinSelfCheck ok s = .next t := by
  unfold execTwinSelfCheck
  split <;> exact ⟨_, rfl⟩

theorem execDisagreementAction_completes (s : State) : ∃ t, execDisagreementAction s = .next t := by
  unfold execDisagreementAction
  dsimp only
  (repeat' split) <;> exact ⟨_, rfl⟩

theorem execStepRecord_completes (step : Nat) (ledger dir : BitVec 384) (buckets : List (Nat × List Nat)) (check : Option Bool)
    (seqs : List (Nat × Nat)) (cmds : List (Nat × Nat × List Byte)) (s : State) :
    ∃ t, execStepRecord step ledger dir buckets check seqs cmds s = .next t := by
  unfold execStepRecord
  dsimp only
  (repeat' split) <;> exact ⟨_, rfl⟩

theorem execTwinKeepalive_completes (s : State) : ∃ t, execTwinKeepalive s = .next t := by
  unfold execTwinKeepalive
  split <;> exact ⟨_, rfl⟩

theorem execPathSilence_completes (viaduct : Bool) (s : State) : ∃ t, execPathSilence viaduct s = .next t := by
  unfold execPathSilence
  dsimp only
  (repeat' split) <;> exact ⟨_, rfl⟩

theorem execResyncPhaseEnd_completes (s : State) : ∃ t, execResyncPhaseEnd s = .next t := by
  unfold execResyncPhaseEnd
  dsimp only
  (repeat' split) <;> exact ⟨_, rfl⟩

theorem execHoldBufferOverflow_completes (s : State) : ∃ t, execHoldBufferOverflow s = .next t := by
  unfold execHoldBufferOverflow
  split <;> exact ⟨_, rfl⟩

theorem execHandoverFail_completes (s : State) : ∃ t, execHandoverFail s = .next t := by
  unfold execHandoverFail
  split <;> exact ⟨_, rfl⟩

theorem execStepMark_completes (port : Fin 13) (delay : Nat) (m : Beacon) (s : State) : ∃ t, execStepMark port delay m s = .next t := by
  unfold execStepMark
  split <;> exact ⟨_, rfl⟩

theorem execSelfTimedStep_completes (s : State) : ∃ t, execSelfTimedStep s = .next t := by
  unfold execSelfTimedStep
  split <;> exact ⟨_, rfl⟩

theorem execStepBeacon_completes (port : Fin 13) (delay : Nat) (m : Beacon) (s : State) : ∃ t, execStepBeacon port delay m s = .next t := by
  unfold execStepBeacon
  split <;> exact ⟨_, rfl⟩

theorem execCoastedBeacon_completes (port : Fin 13) (delay : Nat) (m : Beacon) (s : State) :
    ∃ t, execCoastedBeacon port delay m s = .next t := by
  unfold execCoastedBeacon
  split <;> exact ⟨_, rfl⟩

theorem execBeaconTimeout_completes (s : State) : ∃ t, execBeaconTimeout s = .next t := by
  unfold execBeaconTimeout
  (repeat' split) <;> exact ⟨_, rfl⟩

theorem execInternalStepBoundary_completes (s : State) : ∃ t, execInternalStepBoundary s = .next t := by
  unfold execInternalStepBoundary
  (repeat' split) <;> exact ⟨_, rfl⟩

theorem execStepOverrun_completes (s : State) : ∃ t, execStepOverrun s = .next t := by
  unfold execStepOverrun
  split <;> exact ⟨_, rfl⟩

theorem execStepClockReconfigure_completes (p : Prin) (sub : BitVec 8) (v : Nat) (s : State) :
    ∃ t, execStepClockReconfigure p sub v s = .next t := by
  unfold execStepClockReconfigure
  dsimp only
  split <;> exact ⟨_, rfl⟩

theorem execSuccessorTakeover_completes (s : State) : ∃ t, execSuccessorTakeover s = .next t := by
  unfold execSuccessorTakeover
  split <;> exact ⟨_, rfl⟩

theorem execBackgroundWindowOpen_completes (s : State) : ∃ t, execBackgroundWindowOpen s = .next t := by
  unfold execBackgroundWindowOpen
  split <;> exact ⟨_, rfl⟩

theorem execBackgroundWindowClose_completes (bad : List (Fin 24)) (s : State) : ∃ t, execBackgroundWindowClose bad s = .next t := by
  unfold execBackgroundWindowClose
  split <;> exact ⟨_, rfl⟩

theorem execLayerPrefetchEvent_completes (s : State) : ∃ t, execLayerPrefetchEvent s = .next t := by
  unfold execLayerPrefetchEvent
  split <;> exact ⟨_, rfl⟩

theorem execCheckpointCopyDeadline_completes (s : State) : ∃ t, execCheckpointCopyDeadline s = .next t := by
  unfold execCheckpointCopyDeadline
  split <;> exact ⟨_, rfl⟩

theorem execGateEntryBoundary_completes (s : State) : ∃ t, execGateEntryBoundary s = .next t := by
  unfold execGateEntryBoundary
  dsimp only
  split <;> exact ⟨_, rfl⟩

theorem execGateListChange_completes (s : State) : ∃ t, execGateListChange s = .next t := by
  unfold execGateListChange
  (repeat' split) <;> exact ⟨_, rfl⟩

theorem execDieFailure_completes (die : Fin 9) (s : State) : ∃ t, execDieFailure die s = .next t := by
  unfold execDieFailure
  split <;> exact ⟨_, rfl⟩

theorem execTrussFlitCrcFail_completes (link : Fin 22) (dir : Bool) (s : State) : ∃ t, execTrussFlitCrcFail link dir s = .next t := by
  unfold execTrussFlitCrcFail
  split <;> exact ⟨_, rfl⟩

theorem execUcieLinkLoss_completes (s : State) : ∃ t, execUcieLinkLoss s = .next t := by
  unfold execUcieLinkLoss
  split <;> exact ⟨_, rfl⟩

theorem execPowerUpStepEnd_completes (ok : Bool) (images : List Byte) (s : State) : ∃ t, execPowerUpStepEnd ok images s = .next t := by
  unfold execPowerUpStepEnd
  (repeat' split) <;> exact ⟨_, rfl⟩

theorem execPowerUp_completes (mv : Nat) (s : State) : ∃ t, execPowerUp mv s = .next t := by
  unfold execPowerUp
  split <;> exact ⟨_, rfl⟩

theorem execDeviceReset_completes (s : State) : ∃ t, execDeviceReset s = .next t := by
  unfold execDeviceReset
  split <;> exact ⟨_, rfl⟩

theorem execResetDrainLimit_completes (s : State) : ∃ t, execResetDrainLimit s = .next t := by
  unfold execResetDrainLimit
  split <;> exact ⟨_, rfl⟩

theorem execResetRelease_completes (s : State) : ∃ t, execResetRelease s = .next t := by
  unfold execResetRelease
  split <;> exact ⟨_, rfl⟩

theorem execOrderlyPowerDown_completes (byPin : Bool) (v : BitVec 8) (s : State) : ∃ t, execOrderlyPowerDown byPin v s = .next t := by
  unfold execOrderlyPowerDown
  split <;> exact ⟨_, rfl⟩

theorem execEmergencyPowerDown_completes (cause : BitVec 8) (s : State) : ∃ t, execEmergencyPowerDown cause s = .next t := by
  unfold execEmergencyPowerDown
  split <;> exact ⟨_, rfl⟩

theorem execRstN_completes (s : State) : ∃ t, execRstN s = .next t := by
  unfold execRstN
  split <;> exact ⟨_, rfl⟩

theorem execWatchdogExpiry_completes (s : State) : ∃ t, execWatchdogExpiry s = .next t := by
  unfold execWatchdogExpiry
  dsimp only
  (repeat' split) <;> exact ⟨_, rfl⟩

theorem execIssueAllowanceUpdate_completes (watts hottest : Nat) (s : State) : ∃ t, execIssueAllowanceUpdate watts hottest s = .next t := by
  unfold execIssueAllowanceUpdate
  split <;> exact ⟨_, rfl⟩

theorem execFreezeTrigger_completes (s : State) : ∃ t, execFreezeTrigger s = .next t := by
  unfold execFreezeTrigger
  split <;> exact ⟨_, rfl⟩

theorem execTraceRecord_completes (die : Fin 2) (s : State) : ∃ t, execTraceRecord die s = .next t := by
  unfold execTraceRecord
  dsimp only
  split <;> exact ⟨_, rfl⟩

theorem execTraceTrigger_completes (die : Fin 2) (s : State) : ∃ t, execTraceTrigger die s = .next t := by
  unfold execTraceTrigger
  dsimp only
  split <;> exact ⟨_, rfl⟩

theorem execObjectRead_completes (p : Prin) (path : Fin 80) (index : BitVec 16) (sub : BitVec 8) (offset len : Nat) (s : State) :
    ∃ t, execObjectRead p path index sub offset len s = .next t := by
  unfold execObjectRead
  (repeat' split) <;> exact ⟨_, rfl⟩

theorem execObjectWrite_completes (p : Prin) (path : Fin 80) (index : BitVec 16) (sub : BitVec 8) (offset total : Nat)
    (data : List Byte) (s : State) :
    ∃ t, execObjectWrite p path index sub offset total data s = .next t := by
  unfold execObjectWrite
  (repeat' split) <;> exact ⟨_, rfl⟩

theorem execStagedWriteAbort_completes (p : Prin) (path : Fin 80) (s : State) : ∃ t, execStagedWriteAbort p path s = .next t := by
  unfold execStagedWriteAbort
  split <;> exact ⟨_, rfl⟩

theorem execStagedWriteTimeout_completes (p : Prin) (path : Fin 80) (s : State) : ∃ t, execStagedWriteTimeout p path s = .next t := by
  unfold execStagedWriteTimeout
  dsimp only
  (repeat' split) <;> exact ⟨_, rfl⟩

theorem execDictionaryService_completes (s : State) : ∃ t, execDictionaryService s = .next t := by
  unfold execDictionaryService
  split <;> exact ⟨_, rfl⟩

theorem execNmtStart_completes (s : State) : ∃ t, execNmtStart s = .next t := by
  unfold execNmtStart
  split <;> exact ⟨_, rfl⟩

theorem execNmtStop_completes (s : State) : ∃ t, execNmtStop s = .next t := by
  unfold execNmtStop
  split <;> exact ⟨_, rfl⟩

theorem execNmtEnterPreOperational_completes (s : State) : ∃ t, execNmtEnterPreOperational s = .next t := by
  unfold execNmtEnterPreOperational
  split <;> exact ⟨_, rfl⟩

theorem execNmtResetCommunication_completes (s : State) : ∃ t, execNmtResetCommunication s = .next t := by
  unfold execNmtResetCommunication
  split <;> exact ⟨_, rfl⟩

theorem execNmtResetNode_completes (s : State) : ∃ t, execNmtResetNode s = .next t := by
  unfold execNmtResetNode
  split <;> exact ⟨_, rfl⟩

theorem execUsdoTransfer_completes (upload : Bool) (index : BitVec 16) (sub : BitVec 8) (total : Nat) (data : List Byte)
    (last : Bool) (s : State) :
    ∃ t, execUsdoTransfer upload index sub total data last s = .next t := by
  unfold execUsdoTransfer
  split <;> exact ⟨_, rfl⟩

theorem execHeartbeatPeriod_completes (s : State) : ∃ t, execHeartbeatPeriod s = .next t := by
  unfold execHeartbeatPeriod
  split <;> exact ⟨_, rfl⟩

theorem execEmcyInhibitExpiry_completes (s : State) : ∃ t, execEmcyInhibitExpiry s = .next t := by
  unfold execEmcyInhibitExpiry
  split <;> exact ⟨_, rfl⟩

theorem execEntdaa_completes (addr : BitVec 7) (s : State) : ∃ t, execEntdaa addr s = .next t := by
  unfold execEntdaa
  split <;> exact ⟨_, rfl⟩

theorem execSetEndpointId_completes (eid : BitVec 8) (s : State) : ∃ t, execSetEndpointId eid s = .next t := by
  unfold execSetEndpointId
  (repeat' split) <;> exact ⟨_, rfl⟩

theorem execGetEndpointId_completes (s : State) : ∃ t, execGetEndpointId s = .next t := by
  unfold execGetEndpointId
  split <;> exact ⟨_, rfl⟩

theorem execGetMctpVersionSupport_completes (type : BitVec 8) (s : State) : ∃ t, execGetMctpVersionSupport type s = .next t := by
  unfold execGetMctpVersionSupport
  (repeat' split) <;> exact ⟨_, rfl⟩

theorem execGetMessageTypeSupport_completes (s : State) : ∃ t, execGetMessageTypeSupport s = .next t := by
  unfold execGetMessageTypeSupport
  split <;> exact ⟨_, rfl⟩

theorem execRegisterWrite_completes (w : Door) (off : Nat) (data : List Byte) (s : State) :
    ∃ t, execRegisterWrite w off data s = .next t := by
  unfold execRegisterWrite
  dsimp only
  (repeat' split) <;> exact ⟨_, rfl⟩

/-- A command answers a next state, whatever the state and its operands. -/
theorem exec_completes (c : Instr) (s : State) : ∃ t, exec c s = .next t :=
  match c with
  | .stepMark .. => execStepMark_completes ..
  | .stepmark .. => ⟨_, rfl⟩
  | .selfTimedStep => execSelfTimedStep_completes ..
  | .stepBeacon .. => execStepBeacon_completes ..
  | .beaconTimeout => execBeaconTimeout_completes ..
  | .internalStepBoundary => execInternalStepBoundary_completes ..
  | .coastedBeacon .. => execCoastedBeacon_completes ..
  | .stepOverrun => execStepOverrun_completes ..
  | .stepClockReconfigure .. => execStepClockReconfigure_completes ..
  | .backgroundWindowOpen => execBackgroundWindowOpen_completes ..
  | .backgroundWindowClose .. => execBackgroundWindowClose_completes ..
  | .layerPrefetchEvent => execLayerPrefetchEvent_completes ..
  | .checkpointCopyDeadline => execCheckpointCopyDeadline_completes ..
  | .unsupported .. => execUnsupported_completes ..
  | .sqtail .. => ⟨_, rfl⟩
  | .cqhead .. => ⟨_, rfl⟩
  | .descriptorRead .. => execDescriptorRead_completes ..
  | .admissionHoldLimit .. => execAdmissionHoldLimit_completes ..
  | .attend .. => execAttend_completes ..
  | .append .. => execAppend_completes ..
  | .fork .. => execFork_completes ..
  | .trim .. => execTrim_completes ..
  | .summarize .. => execSummarize_completes ..
  | .prefetch .. => execPrefetch_completes ..
  | .pin .. => execPin_completes ..
  | .evict .. => execEvict_completes ..
  | .compact .. => execCompact_completes ..
  | .attendDeadline .. => execAttendDeadline_completes ..
  | .workItemStart .. => execWorkItemStart_completes ..
  | .t1GranuleReady .. => execT1GranuleReady_completes ..
  | .summaryPassEnd .. => execSummaryPassEnd_completes ..
  | .certifiedCheck .. => execCertifiedCheck_completes ..
  | .partialArrival .. => execPartialArrival_completes ..
  | .outputFormed .. => execOutputFormed_completes ..
  | .pushAck .. => execPushAck_completes ..
  | .checkTile .. => execCheckTile_completes ..
  | .coreWatchdog .. => execCoreWatchdog_completes ..
  | .coreSramUncorrectable .. => execCoreSramUncorrectable_completes ..
  | .quadrantAttachmentFail .. => ⟨_, rfl⟩
  | .fenceCore .. => ⟨_, rfl⟩
  | .fenceReadsDrained .. => execFenceReadsDrained_completes ..
  | .returnCore .. => ⟨_, rfl⟩
  | .coreTestEnd .. => execCoreTestEnd_completes ..
  | .ctxOpen => ⟨_, rfl⟩
  | .openEnd => execOpenEnd_completes ..
  | .ctxClose => ⟨_, rfl⟩
  | .releaseWalkEnd .. => execReleaseWalkEnd_completes ..
  | .frameDrainEnd .. => execFrameDrainEnd_completes ..
  | .tierhint .. => ⟨_, rfl⟩
  | .residencyFault .. => execResidencyFault_completes ..
  | .moveComplete .. => execMoveComplete_completes ..
  | .automaticDemotion .. => execAutomaticDemotion_completes ..
  | .t3BudgetRefill .. => execT3BudgetRefill_completes ..
  | .tierCacheMiss .. => ⟨_, rfl⟩
  | .trayRecordActivate .. => ⟨_, rfl⟩
  | .trayFail .. => execTrayFail_completes ..
  | .patctl .. => ⟨_, rfl⟩
  | .patternOpDone .. => execPatternOpDone_completes ..
  | .refreshDue .. => execRefreshDue_completes ..
  | .stackTemperatureChange .. => execStackTemperatureChange_completes ..
  | .targetedRefresh .. => execTargetedRefresh_completes ..
  | .throttleIntervalEnd => execThrottleIntervalEnd_completes ..
  | .selfRefreshEntry .. => execSelfRefreshEntry_completes ..
  | .selfRefreshExit .. => execSelfRefreshExit_completes ..
  | .retrainGroup .. => execRetrainGroup_completes ..
  | .retrainController .. => ⟨_, rfl⟩
  | .patrolScrubRead .. => execPatrolScrubRead_completes ..
  | .immediateScrub .. => execImmediateScrub_completes ..
  | .stewardReadIndex .. => ⟨_, rfl⟩
  | .retireGranule .. => ⟨_, rfl⟩
  | .retireBank .. => ⟨_, rfl⟩
  | .macRegionPlace .. => ⟨_, rfl⟩
  | .rdShared .. => ⟨_, rfl⟩
  | .rdOwn .. => ⟨_, rfl⟩
  | .upgrade .. => ⟨_, rfl⟩
  | .rdUncached .. => ⟨_, rfl⟩
  | .wrUncached .. => ⟨_, rfl⟩
  | .evictClean .. => ⟨_, rfl⟩
  | .wbDirty .. => execWbDirty_completes ..
  | .snoopResponse .. => execSnoopResponse_completes ..
  | .rspCopy .. => execRspCopy_completes ..
  | .rspWbPend .. => execRspWbPend_completes ..
  | .fwdAck .. => execFwdAck_completes ..
  | .cxlMemRd .. => ⟨_, rfl⟩
  | .cxlMemRdData .. => ⟨_, rfl⟩
  | .cxlMemInv .. => ⟨_, rfl⟩
  | .cxlMemClnEvct .. => ⟨_, rfl⟩
  | .cxlMemWr .. => execCxlMemWr_completes ..
  | .biSnoopResponse .. => execBiSnoopResponse_completes ..
  | .lineLockAcquire .. => execLineLockAcquire_completes ..
  | .snoopTimeout .. => execSnoopTimeout_completes ..
  | .agentFailed .. => ⟨_, rfl⟩
  | .declareAgentFailed .. => ⟨_, rfl⟩
  | .escrowRecallWalk .. => execEscrowRecallWalk_completes ..
  | .pendingFault .. => execPendingFault_completes ..
  | .faultQueueSlotFree => execFaultQueueSlotFree_completes ..
  | .pendingRewalk .. => execPendingRewalk_completes ..
  | .pendingFaultTimeout .. => execPendingFaultTimeout_completes ..
  | .xlinvcmd .. => ⟨_, rfl⟩
  | .invalidationStart => execInvalidationStart_completes ..
  | .invalidationComplete => execInvalidationComplete_completes ..
  | .xlinvstatRead .. => execXlinvstatRead_completes ..
  | .bindPasid .. => ⟨_, rfl⟩
  | .unbindPasid .. => ⟨_, rfl⟩
  | .portPasidWrite .. => ⟨_, rfl⟩
  | .spanRemoteForward .. => execSpanRemoteForward_completes ..
  | .tenantCreate .. => ⟨_, rfl⟩
  | .tenantRemove .. => ⟨_, rfl⟩
  | .removalStepEnd .. => execRemovalStepEnd_completes ..
  | .grantExtent .. => ⟨_, rfl⟩
  | .zeroizeDone .. => execZeroizeDone_completes ..
  | .revokeExtent .. => ⟨_, rfl⟩
  | .escrowStepEnd .. => execEscrowStepEnd_completes ..
  | .qpcfgEnable .. => ⟨_, rfl⟩
  | .qpcfgReinit .. => ⟨_, rfl⟩
  | .reinitDone .. => execReinitDone_completes ..
  | .interruptCoalesceTimer .. => execInterruptCoalesceTimer_completes ..
  | .readerSetWrite .. => ⟨_, rfl⟩
  | .keyRotate .. => ⟨_, rfl⟩
  | .rewrapUnit .. => execRewrapUnit_completes ..
  | .sweepComplete .. => execSweepComplete_completes ..
  | .retireOldEpoch .. => ⟨_, rfl⟩
  | .sealKeysWrite .. => ⟨_, rfl⟩
  | .randomSourceHealthFail => ⟨_, rfl⟩
  | .spdm .. => ⟨_, rfl⟩
  | .getVersion .. => ⟨_, rfl⟩
  | .getCapabilities .. => ⟨_, rfl⟩
  | .negotiateAlgorithms .. => ⟨_, rfl⟩
  | .getDigests .. => ⟨_, rfl⟩
  | .getCertificate .. => ⟨_, rfl⟩
  | .challenge .. => ⟨_, rfl⟩
  | .getMeasurements .. => ⟨_, rfl⟩
  | .keyExchange .. => ⟨_, rfl⟩
  | .finish .. => ⟨_, rfl⟩
  | .heartbeat .. => ⟨_, rfl⟩
  | .keyUpdate .. => ⟨_, rfl⟩
  | .endSession .. => ⟨_, rfl⟩
  | .chunkGet .. => ⟨_, rfl⟩
  | .pqCerts .. => ⟨_, rfl⟩
  | .pqSig .. => ⟨_, rfl⟩
  | .tenantReport .. => ⟨_, rfl⟩
  | .bundleKeys .. => ⟨_, rfl⟩
  | .extend .. => ⟨_, rfl⟩
  | .bundleImport .. => ⟨_, rfl⟩
  | .bundleImportEnd .. => execBundleImportEnd_completes ..
  | .debugUnlock .. => ⟨_, rfl⟩
  | .unknownVerb .. => execUnknownVerb_completes ..
  | .linkctlRestart .. => ⟨_, rfl⟩
  | .linkctlRetrain .. => ⟨_, rfl⟩
  | .linkctlDown .. => ⟨_, rfl⟩
  | .linkctlRekey .. => ⟨_, rfl⟩
  | .linkRestartDelay .. => execLinkRestartDelay_completes ..
  | .linkPartnerDetect .. => execLinkPartnerDetect_completes ..
  | .linkTrainingStageEnd .. => execLinkTrainingStageEnd_completes ..
  | .linkStateTimeout .. => execLinkStateTimeout_completes ..
  | .flitPosition .. => execFlitPosition_completes ..
  | .holdingTimeout .. => execHoldingTimeout_completes ..
  | .goBackResendTimeout .. => execGoBackResendTimeout_completes ..
  | .replayTimeout .. => execReplayTimeout_completes ..
  | .linkRetrainTrigger .. => ⟨_, rfl⟩
  | .linkDown .. => ⟨_, rfl⟩
  | .rekeyInterval .. => execRekeyInterval_completes ..
  | .keyHello .. => ⟨_, rfl⟩
  | .keyReply .. => ⟨_, rfl⟩
  | .keyProof .. => ⟨_, rfl⟩
  | .tlmsg .. => execTlmsg_completes ..
  | .tlans .. => execTlans_completes ..
  | .malformedMessage .. => execMalformedMessage_completes ..
  | .blkRd .. => ⟨_, rfl⟩
  | .blkWr .. => ⟨_, rfl⟩
  | .winRd .. => ⟨_, rfl⟩
  | .winWr .. => ⟨_, rfl⟩
  | .tableCommit .. => execTableCommit_completes ..
  | .epochRetire => execEpochRetire_completes ..
  | .trussFlitCrcFail .. => execTrussFlitCrcFail_completes ..
  | .multicastDeliveryNotice .. => execMulticastDeliveryNotice_completes ..
  | .resetDrainLimit => execResetDrainLimit_completes ..
  | .gateEntryBoundary => execGateEntryBoundary_completes ..
  | .gateChangeCommit .. => ⟨_, rfl⟩
  | .gateListChange => execGateListChange_completes ..
  | .tollRelease .. => ⟨_, rfl⟩
  | .queueSample => ⟨_, rfl⟩
  | .resetSampleRecord .. => ⟨_, rfl⟩
  | .ucieLinkLoss => execUcieLinkLoss_completes ..
  | .uperrstatRead .. => execUperrstatRead_completes ..
  | .cxlLinkDown .. => execCxlLinkDown_completes ..
  | .trayRequestTimeout .. => execTrayRequestTimeout_completes ..
  | .nvmeCommandTimeout .. => execNvmeCommandTimeout_completes ..
  | .nvmeCompletion .. => execNvmeCompletion_completes ..
  | .rdmaWrite .. => execRdmaWrite_completes ..
  | .rdmaReadRequest .. => execRdmaReadRequest_completes ..
  | .roceAcknowledge .. => execRoceAcknowledge_completes ..
  | .roceInvalidRequest .. => execRoceInvalidRequest_completes ..
  | .ethernetFrameDiscard .. => execEthernetFrameDiscard_completes ..
  | .neighborResolution .. => execNeighborResolution_completes ..
  | .ptpSync .. => execPtpSync_completes ..
  | .ptpLockLoss .. => execPtpLockLoss_completes ..
  | .mkaFrame .. => execMkaFrame_completes ..
  | .roceRecordWrite .. => ⟨_, rfl⟩
  | .spanMapWrite .. => ⟨_, rfl⟩
  | .spanMapDigest .. => execSpanMapDigest_completes ..
  | .stripedPart .. => execStripedPart_completes ..
  | .memberReport .. => execMemberReport_completes ..
  | .stripeCommit .. => execStripeCommit_completes ..
  | .stripeAbort .. => execStripeAbort_completes ..
  | .spanPartial .. => execSpanPartial_completes ..
  | .successorTakeover => execSuccessorTakeover_completes ..
  | .twinLogRecord .. => execTwinLogRecord_completes ..
  | .relayedWriteAck .. => execRelayedWriteAck_completes ..
  | .twinKeepalive => execTwinKeepalive_completes ..
  | .pathSilence .. => execPathSilence_completes ..
  | .stepRecord .. => execStepRecord_completes ..
  | .twinSelfCheck .. => execTwinSelfCheck_completes ..
  | .disagreementAction => execDisagreementAction_completes ..
  | .resyncPhaseEnd => execResyncPhaseEnd_completes ..
  | .holdBufferOverflow => execHoldBufferOverflow_completes ..
  | .handoverFail => execHandoverFail_completes ..
  | .objectRead .. => execObjectRead_completes ..
  | .objectWrite .. => execObjectWrite_completes ..
  | .stagedWriteAbort .. => execStagedWriteAbort_completes ..
  | .stagedWriteTimeout .. => execStagedWriteTimeout_completes ..
  | .nmtStart => execNmtStart_completes ..
  | .nmtStop => execNmtStop_completes ..
  | .nmtEnterPreOperational => execNmtEnterPreOperational_completes ..
  | .nmtResetCommunication => execNmtResetCommunication_completes ..
  | .nmtResetNode => execNmtResetNode_completes ..
  | .usdoTransfer .. => execUsdoTransfer_completes ..
  | .heartbeatPeriod => execHeartbeatPeriod_completes ..
  | .emcyInhibitExpiry => execEmcyInhibitExpiry_completes ..
  | .entdaa .. => execEntdaa_completes ..
  | .setEndpointId .. => execSetEndpointId_completes ..
  | .getEndpointId => execGetEndpointId_completes ..
  | .getMctpVersionSupport .. => execGetMctpVersionSupport_completes ..
  | .getMessageTypeSupport => execGetMessageTypeSupport_completes ..
  | .registerWrite .. => execRegisterWrite_completes ..
  | .tlsend .. => ⟨_, rfl⟩
  | .dictionaryService => execDictionaryService_completes ..
  | .tlrdone .. => ⟨_, rfl⟩
  | .inback .. => ⟨_, rfl⟩
  | .resetTallyGroup .. => ⟨_, rfl⟩
  | .resetTenantTallies .. => ⟨_, rfl⟩
  | .freeze .. => ⟨_, rfl⟩
  | .freezeTrigger => execFreezeTrigger_completes ..
  | .traceRecord .. => execTraceRecord_completes ..
  | .arm .. => ⟨_, rfl⟩
  | .triggerNow .. => ⟨_, rfl⟩
  | .traceTrigger .. => execTraceTrigger_completes ..
  | .powerUp .. => execPowerUp_completes ..
  | .powerUpStepEnd .. => execPowerUpStepEnd_completes ..
  | .orderlyPowerDown .. => execOrderlyPowerDown_completes ..
  | .emergencyPowerDown .. => execEmergencyPowerDown_completes ..
  | .rstN => execRstN_completes ..
  | .requestDeviceReset .. => ⟨_, rfl⟩
  | .dieFailure .. => execDieFailure_completes ..
  | .deviceReset => execDeviceReset_completes ..
  | .resetRelease => execResetRelease_completes ..
  | .watchdogKick .. => ⟨_, rfl⟩
  | .watchdogExpiry => execWatchdogExpiry_completes ..
  | .issueAllowanceUpdate .. => execIssueAllowanceUpdate_completes ..
  | .forwardedData .. => execForwardedData_completes ..
  | .blkData .. => execBlkData_completes ..
  | .agentPurgeEnd .. => execAgentPurgeEnd_completes ..
  | .portLinkUp .. => execPortLinkUp_completes ..
  | .ethernetLinkDown .. => execEthernetLinkDown_completes ..
  | .nvmeControllerResetEnd .. => execNvmeControllerResetEnd_completes ..
  | .randomSourceHealthy => ⟨_, rfl⟩
  | .priorityFlowControlFrame .. => execPriorityFlowControlFrame_completes ..

/-- An input above the range of R685 does not start the device. -/
theorem exec_powerUp_of_input_above {mv : Nat} (h : 60000 < mv) (s : State) : exec (.powerUp mv) s = .next s := by
  have hin : inputOk mv = false := by simp only [inputOk, decide_eq_false_iff_not]; omega
  exact if_pos (.inr (by rw [hin]; rfl))

/-- Settles O5. -/
theorem commandsComplete : Obligations.CommandsComplete :=
  ⟨exec_completes, fun _ s h => exec_powerUp_of_input_above h s⟩

/-! ## Steps -/

theorem step_of_pending {c : Instr} {rest : List Instr} {s : State} (h : s.pending = c :: rest) :
    step s = exec c { s with pending := rest } := by
  unfold step
  rw [h]

theorem step_of_idle {s : State} (h : s.pending = []) : step s = .next (elapse 1 s) := by
  unfold step
  rw [h]

/-- Settles O1. -/
theorem stepRunsFront : Obligations.StepRunsFront := fun _ _ _ h => step_of_pending h

/-- Settles O2: `elapse` writes the time bases alone. -/
theorem stepIdles : Obligations.StepIdles := fun s h => ⟨elapse 1 s, step_of_idle h, rfl, h, rfl, rfl⟩

/-- Settles O4: an idle step lets one cycle pass, and a command keeps the invariant as part of its frame. -/
theorem invariantIsKept : Obligations.InvariantIsKept := fun s t hinv hstep => by
  cases hq : s.pending with
  | nil =>
    rw [step_of_idle hq] at hstep
    cases hstep
    exact (elapse_keeps 1 s).inv hinv
  | cons c rest =>
    rw [step_of_pending hq] at hstep
    exact ((exec_keeps c _).all t hstep).inv ((Keeps.pending_mk s rest).inv hinv)

/-- Settles O3: every table is empty at reset, and each bound holds of 0. -/
theorem resetIsInOrder : Obligations.ResetIsInOrder := by
  have hrise : ∀ {α : Type}, Tbl.Rising ([] : Tbl α) := List.Pairwise.nil
  refine ⟨?_, rfl, rfl, rfl, rfl, fun _ => rfl, fun _ => rfl, fun _ => rfl, fun _ => rfl, rfl⟩
  exact
    { mem := ⟨rfl, Nat.zero_le _, Nat.zero_le _, hrise, hrise⟩, led := ⟨hrise, hrise, hrise⟩, kv := ⟨hrise, hrise⟩
      cores := hrise, ctl := hrise, mint := ⟨hrise, hrise⟩, link := hrise, tel := hrise, coh := ⟨hrise, hrise⟩
      xl := Nat.zero_le _, can := Nat.zero_le _, tal := ⟨Nat.zero_le _, Nat.zero_le _⟩
      clk := Nat.two_pow_pos 48, time := Nat.two_pow_pos 65 }

end Sys2Proof.Machine
end

section
/-! PROOFS. Facts that many statements need: what an object holds after a write, what an operation that leaves a part alone leaves of
the look-ups into it, and what passes with the time. -/

namespace Sys2Proof.Machine

/-! ## The object store (R610 to R617) -/

theorem obj_of_dict {s t : State} (h : t.dict = s.dict) (i j : Nat) : obj t i j = obj s i j := by
  simp only [obj, objDefault, h]

theorem objLast_of_dict {s t : State} (h : t.dict = s.dict) (i j : Nat) : objLast t i j = objLast s i j := by
  simp only [objLast, h, obj_of_dict h]

theorem objDom_of_dict {s t : State} (h : t.dict = s.dict) (i j : Nat) : objDom t i j = objDom s i j := by
  simp only [objDom, h]

theorem obj_setObj (i j k l v : Nat) (s : State) :
    obj (setObj i j v s) k l = if okey i j = okey k l then v else obj s k l := by
  by_cases h : okey i j = okey k l
  · simp only [obj, setObj, State.setDict, tins_find, h, if_true]
  · simp only [obj, objDefault, setObj, State.setDict, tins_find, h, if_false]

@[simp] theorem obj_setObj_same (i j v : Nat) (s : State) : obj (setObj i j v s) i j = v := by
  rw [obj_setObj, if_pos rfl]

theorem obj_setObj_ne {i j k l : Nat} (h : okey i j ≠ okey k l) (v : Nat) (s : State) : obj (setObj i j v s) k l = obj s k l := by
  rw [obj_setObj, if_neg h]

@[simp] theorem obj_bumpObj_same (i j n w : Nat) (s : State) : obj (bumpObj i j n w s) i j = (obj s i j + n) % 2 ^ w :=
  obj_setObj_same ..

@[simp] theorem obj_writeObj_same (i j v : Nat) (s : State) : obj (writeObj i j v s) i j = v := obj_setObj_same ..

/-- A write by way of an object that is accepted (R612, R613). -/
theorem objCmd_accepted {p : Prin} {i j : Nat} {s : State} {f : State → Nat × State} {t : State} (ha : answering s = true)
    (hp : mayTouch p i j = true) (hf : f s = (0, t)) : objCmd p i j f s = t := by
  rw [objCmd_of_mayTouch f ha hp, hf, written_accepted]

theorem commanded_accepted {s : State} {f : State → Nat × State} {t : State} (ha : answering s = true) (hf : f s = (0, t)) :
    commanded f s = t := by
  simp only [commanded, ha, if_true, hf, written_accepted]

/-! ## Look-ups into a part that an operation leaves alone -/

theorem qpOf_of_led {s t : State} (h : t.led = s.led) (q : Nat) : qpOf t q = qpOf s q := by simp only [qpOf, h]
theorem tenantOf_of_led {s t : State} (h : t.led = s.led) (n : Nat) : tenantOf t n = tenantOf s n := by simp only [tenantOf, h]
theorem extOf_of_led {s t : State} (h : t.led = s.led) (e : Nat) : extOf t e = extOf s e := by simp only [extOf, h]
theorem ctxOf_of_kv {s t : State} (h : t.kv = s.kv) (c : Nat) : ctxOf t c = ctxOf s c := by simp only [ctxOf, h]
theorem coreOf_of_attn {s t : State} (h : t.attn = s.attn) (c : Nat) : coreOf t c = coreOf s c := by simp only [coreOf, h]
theorem ctlOf_of_hbm {s t : State} (h : t.hbm = s.hbm) (c : Nat) : ctlOf t c = ctlOf s c := by simp only [ctlOf, h]
theorem keysOf_of_mint {s t : State} (h : t.mint = s.mint) (n : Nat) : keysOf t n = keysOf s n := by simp only [keysOf, h]
theorem linkOf_of_links {s t : State} (h : t.links = s.links) (l : Nat) : linkOf t l = linkOf s l := by simp only [linkOf, h]
theorem linkUp_of_links {s t : State} (h : t.links = s.links) (l : Nat) : linkUp t l = linkUp s l := by
  simp only [linkUp, linkOf_of_links h]

/-! ## Entries just written -/

theorem qpOf_setQp {s : State} (h : Tbl.Rising s.led.qps) (q : Nat) (v : Qp) : qpOf (setQp q v s) q = v := tget_tput _ _ _ h _
theorem qpOf_setQp_ne {s : State} (h : Tbl.Rising s.led.qps) {q x : Nat} (hx : x ≠ q) (v : Qp) :
    qpOf (setQp q v s) x = qpOf s x := tget_tput_ne _ _ _ h hx
theorem tenantOf_setTenant {s : State} (h : Tbl.Rising s.led.tens) (n : Nat) (v : Tenant) : tenantOf (setTenant n v s) n = v :=
  tget_tput _ _ _ h _
theorem extOf_setExt {s : State} (h : Tbl.Rising s.led.exts) (e : Nat) (v : Extent) : extOf (setExt e v s) e = v :=
  tget_tput _ _ _ h _
theorem extOf_setExt_ne {s : State} (h : Tbl.Rising s.led.exts) {e x : Nat} (hx : x ≠ e) (v : Extent) :
    extOf (setExt e v s) x = extOf s x := tget_tput_ne _ _ _ h hx
theorem ctxOf_setCtx {s : State} (h : Tbl.Rising s.kv.ctxs) (c : Nat) (v : Ctx) : ctxOf (setCtx c v s) c = v := tget_tput _ _ _ h _
theorem coreOf_setCore {s : State} (h : Tbl.Rising s.attn.cores) (c : Nat) (v : Core) : coreOf (setCore c v s) c = v :=
  tget_tput _ _ _ h _
theorem coreOf_setCore_ne {s : State} (h : Tbl.Rising s.attn.cores) {c x : Nat} (hx : x ≠ c) (v : Core) :
    coreOf (setCore c v s) x = coreOf s x := tget_tput_ne _ _ _ h hx
theorem ctlOf_setCtl {s : State} (h : Tbl.Rising s.hbm.ctl) (c : Nat) (v : Hbm) : ctlOf (setCtl c v s) c = v := tget_tput _ _ _ h _
theorem ctlOf_setCtl_ne {s : State} (h : Tbl.Rising s.hbm.ctl) {c x : Nat} (hx : x ≠ c) (v : Hbm) :
    ctlOf (setCtl c v s) x = ctlOf s x := tget_tput_ne _ _ _ h hx
theorem linkOf_setLink {s : State} (h : Tbl.Rising s.links.link) (l : Nat) (v : Link) : linkOf (setLink l v s) l = v :=
  tget_tput _ _ _ h _
theorem linkOf_setLink_ne {s : State} (h : Tbl.Rising s.links.link) {l x : Nat} (hx : x ≠ l) (v : Link) :
    linkOf (setLink l v s) x = linkOf s x := tget_tput_ne _ _ _ h hx

/-! ## Time (R23, R26) -/

@[simp] theorem elapse_cycle (n : Nat) (s : State) : (elapse n s).time.cycle = s.time.cycle + n := rfl

@[simp] theorem carryTo_cycle (c : Nat) (s : State) : (carryTo c s).time.cycle = max s.time.cycle c := by
  show s.time.cycle + (c - s.time.cycle) = max s.time.cycle c
  omega

theorem le_carryTo_cycle (c : Nat) (s : State) : c ≤ (carryTo c s).time.cycle := by rw [carryTo_cycle]; exact Nat.le_max_right ..

end Sys2Proof.Machine
end

section
/-! PROOFS. The step clock: what the events of a step and of a boundary leave of its fields, and the steps that beacons, marks and
timers begin (R29 to R55). -/

namespace Sys2Proof.Machine

/-! ## What the events of a step leave of the clock -/

theorem openWindow_clk (s : State) : (openWindow s).clk = { s.clk with winOpen := true, winDone := true } := by
  unfold openWindow
  extract_lets s1 s2
  have h2 : s2.clk = s1.clk := by
    unfold s2
    split
    · exact (Keeps.foldl (P := 0x1000) (.refl ..) fun t x h => (setCore_keeps ..).step h).clk rfl
    · rfl
  rw [(retrainOpen_keeps _ _).clk rfl, h2]
  rfl

theorem firePrefetches_clk (k : Nat) (s : State) :
    (firePrefetches k s).clk = { s.clk with slots := (firePrefetches k s).clk.slots } := by
  induction k generalizing s with
  | zero => rfl
  | succ k ih =>
    unfold firePrefetches
    split
    · rfl
    · rw [ih, (firePrefetch_keeps ..).clk rfl]
      rfl

theorem copyDeadline_clk (s : State) : (copyDeadline s).clk = { s.clk with deadlineDone := true } := by
  unfold copyDeadline
  extract_lets s1 s2
  have h2 : s2.clk = s1.clk := by
    unfold s2
    split
    · exact (handoverFails_keeps _).clk rfl
    · rfl
  split
  · exact h2
  · exact h2

/-- The events that a step's end fires mark themselves as past, and leave the clock's other fields (R51). -/
def StepClk.Spent (c d : StepClk) : Prop :=
  d = { c with winOpen := d.winOpen, winDone := d.winDone, slots := d.slots, deadlineDone := d.deadlineDone, early := d.early }

theorem StepClk.Spent.refl (c : StepClk) : c.Spent c := rfl

theorem StepClk.Spent.trans {c d e : StepClk} (h : c.Spent d) (g : d.Spent e) : c.Spent e := by
  unfold StepClk.Spent at *
  rw [g, h]

theorem fireRest_spent (s : State) : s.clk.Spent (fireRest s).clk := by
  unfold fireRest
  extract_lets s1 s2 s3
  have h1 : s1.clk = s.clk := by
    unfold s1
    split
    · exact (gateApply_keeps _).clk rfl
    · rfl
  have h2 : s.clk.Spent s2.clk := by
    unfold s2
    split
    · rw [openWindow_clk, h1]; rfl
    · rw [h1]; exact .refl _
  have h3 : s2.clk.Spent s3.clk := by
    unfold s3
    rw [firePrefetches_clk]
    rfl
  rw [(runMoves_keeps _).clk rfl]
  refine h2.trans (h3.trans ?_)
  split
  · exact .refl _
  · rw [copyDeadline_clk]; rfl

theorem endStep_spent (accepted : Bool) (s : State) : s.clk.Spent (endStep accepted s).clk := by
  unfold endStep
  refine StepClk.Spent.trans ?_ (fireRest_spent _)
  split
  · rfl
  · exact .refl _

theorem boundaryValues_spent (accepted : Bool) (s : State) : s.clk.Spent (boundaryValues (endStep accepted s)).clk := by
  rw [(boundaryValues_keeps _).clk rfl]
  exact endStep_spent accepted s

/-! ## A step begins -/

theorem noteClock_clk (was : ClkState) (s : State) :
    (noteClock was s).clk = { s.clk with overruns := (noteClock was s).clk.overruns, coasts := (noteClock was s).clk.coasts } := by
  unfold noteClock
  split
  · rfl
  · split
    · rw [(telemetry_keeps ..).clk rfl, (emcyRaise_keeps ..).clk rfl]; rfl
    · rw [(telemetry_keeps ..).clk rfl, (emcyRaise_keeps ..).clk rfl]; rfl
    · rfl

theorem noteClock_of_overrun {was : ClkState} {s : State} (hwas : was ≠ .overrun) (h : s.clk.st = .overrun) :
    (noteClock was s).clk = { s.clk with overruns := (s.clk.overruns + 1) % 2 ^ 32 } := by
  unfold noteClock
  rw [h, if_neg hwas.symm, (telemetry_keeps ..).clk rfl, (emcyRaise_keeps ..).clk rfl]
  rfl

theorem noteClock_of_unlocked (was : ClkState) {s : State} (h : s.clk.st = .unlocked) : noteClock was s = s := by
  simp only [noteClock, h, ite_self]

/-- The fields that a step takes at its beginning, with the counts of the states entered. -/
theorem beginStep_clk (f : StepClk → StepClk) (s : State) :
    (beginStep f s).clk = { f s.clk with
      stepAt := s.time.cycle, stepDev := s.time.devHalf, slots := 0, winOpen := false, winDone := false, deadlineDone := false
      overruns := (beginStep f s).clk.overruns, coasts := (beginStep f s).clk.coasts } := by
  have h : (beginStep f s).clk = (noteClock s.clk.st (s.setClk fun c => { f c with
      stepAt := s.time.cycle, stepDev := s.time.devHalf, slots := 0, winOpen := false, winDone := false, deadlineDone := false })).clk := by
    unfold beginStep
    extract_lets was s1 s2 s3
    rw [(releaseGates_keeps _).clk rfl, (runMoves_keeps _).clk rfl, (gatePassed_keeps _).clk rfl]
    unfold s3 s2
    rw [(roleSwap_keeps _).clk rfl, (tallySnapshot_keeps _).clk rfl, (compareBuckets_keeps _).clk rfl, (closeRecord_keeps _).clk rfl,
      (runMirror_keeps _).clk rfl]
  rw [h, noteClock_clk]
  rfl

theorem beginStep_time (f : StepClk → StepClk) (s : State) : (beginStep f s).time = s.time := by
  unfold beginStep
  extract_lets was s1 s2 s3
  rw [(releaseGates_keeps _).time rfl, (runMoves_keeps _).time rfl, (gatePassed_keeps _).time rfl]
  unfold s3 s2
  rw [(roleSwap_keeps _).time rfl, (tallySnapshot_keeps _).time rfl, (compareBuckets_keeps _).time rfl, (closeRecord_keeps _).time rfl,
    (runMirror_keeps _).time rfl, (noteClock_keeps ..).time rfl]
  rfl

end Sys2Proof.Machine
end

section
/-! PROOFS. Beacons and marks: which of them begin a step, and what that step is (R30 to R37, R43 to R49). -/

namespace Sys2Proof.Machine

/-! ## The crossing from IO1 (R40) -/

theorem crossing_clk (port delay : Nat) (s : State) : (crossing port delay s).clk = { s.clk with acc := (crossing port delay s).clk.acc } := by
  have h : (crossing port delay s).clk = (if (4 ≤ port ∧ port < 8) ∨ port = 10 ∨ port = 11 then elapse (max 5 (min 12 delay)) s else s).clk :=
    (linkTally_keeps ..).clk rfl
  rw [h]
  split
  · rfl
  · rfl

theorem crossing_dict (port delay : Nat) (s : State) : (crossing port delay s).dict = s.dict := (crossing_keeps ..).dict rfl
theorem crossing_span (port delay : Nat) (s : State) : (crossing port delay s).span = s.span := (crossing_keeps ..).span rfl

/-- The step source is a matter of the dictionary and the twin's role. -/
theorem stepSource_of_dict_span {s t : State} (hd : t.dict = s.dict) (hs : t.span = s.span) : stepSource t = stepSource s := by
  have hkeystone : mapKeystone t = mapKeystone s := by simp only [mapKeystone, objDom_of_dict hd]
  have hown : ownIndex t = ownIndex s := obj_of_dict hd ..
  unfold stepSource
  rw [hs, hkeystone, hown, obj_of_dict hd, obj_of_dict hd, objDom_of_dict hd]

theorem crossing_stepSource (port delay : Nat) (s : State) : stepSource (crossing port delay s) = stepSource s :=
  stepSource_of_dict_span (crossing_dict ..) (crossing_span ..)

/-! ## The number of a beacon or mark (R33, R37) -/

theorem judgeNumber_taken {s : State} {n : Nat} {first : Bool} (h : first = true ∨ s.clk.last < n) :
    ∃ k, judgeNumber s n first = .taken k := by
  unfold judgeNumber
  split
  · exact ⟨_, rfl⟩
  · next hfirst =>
    have hlt : s.clk.last < n := h.resolve_left hfirst
    rw [if_neg (by omega), if_neg (by omega)]
    exact ⟨_, rfl⟩

theorem judgeNumber_not_taken {s : State} {n : Nat} (h : n ≤ s.clk.last) :
    judgeNumber s n false = if n = s.clk.last then .duplicate else .stale := by
  unfold judgeNumber
  rw [if_neg Bool.false_ne_true]
  split
  · rfl
  · rw [if_pos (by omega)]

/-! ## An accepted beacon (R43, R45) -/

/-- The fields that an accepted beacon gives the clock, its origin `el` ns ago. -/
def StepClk.accepted (m : Beacon) (el cycle : Nat) (c : StepClk) : StepClk :=
  { c with
    st := .locked, last := bStep m, seen := true, heard := true, acc := min 65535 (el * 65536 / bPredicted m) * 2 ^ 32
    predicted := bPredicted m, layers := bLayers m, originTs := bOrigin m, predicting := true
    originAt := (cycle : Int) - 2 * (el : Int), internal := 0, coasted := none }

theorem acceptBeacon_clk (port : Nat) (m : Beacon) (s : State) :
    (acceptBeacon port m s).clk = (beginStep (StepClk.accepted m (beaconElapsed s m) s.time.cycle) s).clk := by
  unfold acceptBeacon
  extract_lets el note
  unfold note
  rw [(traceEvent_keeps ..).clk rfl, (stepFreeze_keeps _).clk rfl]
  rfl

/-- The clock is LOCKED in the step that a beacon names, its phase loaded with fraction 0. -/
structure LockedTo (c : StepClk) (m : Beacon) : Prop where
  st : c.st = .locked
  last : c.last = bStep m
  predicted : c.predicted = bPredicted m
  layers : c.layers = bLayers m
  originTs : c.originTs = bOrigin m
  seen : c.seen = true
  internal : c.internal = 0
  fraction : c.acc % 2 ^ 32 = 0
  acc : c.acc < 2 ^ 48

theorem acceptBeacon_locks (port : Nat) (m : Beacon) (s : State) : LockedTo (acceptBeacon port m s).clk m := by
  rw [acceptBeacon_clk, beginStep_clk]
  exact ⟨rfl, rfl, rfl, rfl, rfl, rfl, rfl, Nat.mul_mod_left .., phase_bound _⟩

/-! ## Beacons judged (R35, R37, R48) -/

/-- A valid beacon that is not coasted and comes from a keystone that the device listens to. -/
structure Heeded (s : State) (port : Nat) (m : Beacon) : Prop where
  crc : bCrcOk m = true
  type : bType m = 0x5B
  span : bSpan m = obj s 0x2100 9
  layers : layersOk (bLayers m) = true
  predicted : predictedOk (bPredicted m) = true
  port : 8 ≤ port
  coast : bCoast m = false
  source : stepSource s = 0
  keystone : s.span.keystone = none ∨ s.span.keystone = some (bKeystone m)

theorem Heeded.crossing {s : State} {port : Nat} {m : Beacon} (h : Heeded s port m) (delay : Nat) : Heeded (crossing port delay s) port m where
  __ := h
  span := by rw [obj_of_dict (crossing_dict ..)]; exact h.span
  source := by rw [crossing_stepSource]; exact h.source
  keystone := by rw [crossing_span]; exact h.keystone

theorem judgeBeacon_of_heeded {s : State} {port : Nat} {m : Beacon} (h : Heeded s port m) :
    judgeBeacon port m s = match judgeNumber s (bStep m) (!s.clk.heard || bRestart m) with
    | .duplicate => s
    | .stale => countStale s
    | .taken k => acceptBeacon port m (boundaryValues (endStep true
        (if bRestart m ∧ !(objDom (relayBeacon port m (countMissed k s)) 0x8000 1).isEmpty ∧
            bKeystone m = mapSuccessor (relayBeacon port m (countMissed k s)) then
          (relayBeacon port m (countMissed k s)).setSpan fun p => { p with keystone := some (bKeystone m) }
        else relayBeacon port m (countMissed k s)))) := by
  have hkeystone : ¬(s.span.keystone.isSome = true ∧ s.span.keystone ≠ some (bKeystone m)) := by
    rcases h.keystone with hk | hk <;> simp [hk]
  unfold judgeBeacon
  exact (if_neg (by simp [h.crc, h.type, h.span, h.layers, h.predicted, h.port])).trans ((if_neg (by simp [h.coast])).trans
    ((if_neg (by simp [h.source])).trans (if_neg hkeystone)))

theorem exec_stepBeacon {s : State} {p : Fin 13} (h : linkUp s p.val = true) (d : Nat) (m : Beacon) :
    exec (.stepBeacon p d m) s = .next (judgeBeacon p.val m (crossing p.val d s)) := if_pos h

theorem exec_coastedBeacon {s : State} {p : Fin 13} (h : linkUp s p.val = true) (d : Nat) (m : Beacon) :
    exec (.coastedBeacon p d m) s = .next (judgeBeacon p.val m (crossing p.val d s)) := if_pos h

theorem judgeBeacon_locks {s : State} {port : Nat} {m : Beacon} (h : Heeded s port m)
    (hnumber : s.clk.heard = false ∨ bRestart m = true ∨ s.clk.last < bStep m) : LockedTo (judgeBeacon port m s).clk m := by
  obtain ⟨k, hk⟩ := judgeNumber_taken (s := s) (n := bStep m) (first := !s.clk.heard || bRestart m)
    (by rcases hnumber with h | h | h <;> simp [h])
  rw [judgeBeacon_of_heeded h, hk]
  exact acceptBeacon_locks ..

theorem judgeBeacon_unheeded_number {s : State} {port : Nat} {m : Beacon} (h : Heeded s port m) (hheard : s.clk.heard = true)
    (hrestart : bRestart m = false) (hle : bStep m ≤ s.clk.last) :
    (judgeBeacon port m s).clk = { s.clk with stale := if bStep m = s.clk.last then s.clk.stale else (s.clk.stale + 1) % 2 ^ 32 } := by
  rw [judgeBeacon_of_heeded h, hheard, hrestart, show (!true || false) = false from rfl, judgeNumber_not_taken hle]
  by_cases heq : bStep m = s.clk.last
  · simp only [heq, if_true]
  · simp only [heq, if_false]
    rfl

/-! ## Coasted beacons (R48) -/

/-- The fields that a coasted beacon gives the clock of a follow. -/
def StepClk.coasting (m : Beacon) (el n : Nat) (c : StepClk) : StepClk :=
  { c with
    st := .coast, internal := bStep m - n, coasted := some (bStep m), predicted := bPredicted m, layers := bLayers m
    acc := min 65535 (el * 65536 / bPredicted m) * 2 ^ 32 }

theorem takeCoasted_of_later {s : State} {m : Beacon} (hlast : s.clk.last < bStep m) (hcoasted : ∀ c, s.clk.coasted = some c → c < bStep m) :
    takeCoasted m s = beginStep (StepClk.coasting m (beaconElapsed (boundaryValues (endStep false s)) m) s.clk.last)
      (boundaryValues (endStep false s)) := by
  have hlater : ¬bStep m ≤ max s.clk.last (s.clk.coasted.getD s.clk.last) := by
    cases hc : s.clk.coasted with
    | none => simpa using hlast
    | some c => simpa using ⟨hlast, hcoasted c hc⟩
  unfold takeCoasted
  exact if_neg hlater

theorem judgeBeacon_of_coast {s : State} {port : Nat} {m : Beacon} (hcoast : bCoast m = true) (htwin : s.span.twin ≠ .follow) :
    judgeBeacon port m s = countDiscarded s := by
  unfold judgeBeacon
  simp only [hcoast, htwin, false_and, if_true, if_false, ite_self]

theorem judgeBeacon_of_viaduct {s : State} {m : Beacon} (hcrc : bCrcOk m = true) (htype : bType m = 0x5B)
    (hspan : bSpan m = obj s 0x2100 9) (hlayers : layersOk (bLayers m) = true) (hpredicted : predictedOk (bPredicted m) = true)
    (hcoast : bCoast m = true) (htwin : s.span.twin = .follow) : judgeBeacon 12 m s = takeCoasted m s := by
  unfold judgeBeacon
  rw [if_neg (by simp [hcrc, htype, hspan, hlayers, hpredicted]), if_pos hcoast, if_pos ⟨htwin, rfl⟩]

/-- Settles O8: what a beacon does is a matter of its number, once `Heeded` has let it past the checks; a coasted one goes to the
follow alone. -/
theorem beaconsAreTaken : Obligations.BeaconsAreTaken := by
  refine ⟨fun s p d m hup hport hcrc htype hspan hlayers hpred hcoast hsource hkey hnumber => ?_,
    fun s p d m hup hport hcrc htype hspan hlayers hpred hcoast hsource hkey hheard hrestart hle => ?_,
    fun s d m hup hcrc htype hspan hlayers hpred hcoast htwin hlast hcoasted => ?_,
    fun s p d m hup hcoast htwin => ?_⟩
  · have hheed : Heeded (crossing p.val d s) p.val m :=
      Heeded.crossing ⟨hcrc, htype, hspan, hlayers, hpred, hport, hcoast, hsource, hkey⟩ d
    obtain ⟨hst, hlast, hpredicted, hlayer, horigin, hseen, hinternal, hfraction, hacc⟩ := judgeBeacon_locks hheed
      (by rw [crossing_clk]; exact hnumber)
    exact ⟨_, exec_stepBeacon hup d m, hst, hlast, hpredicted, hlayer, horigin, hseen, hinternal, hfraction, hacc⟩
  · have hheed : Heeded (crossing p.val d s) p.val m :=
      Heeded.crossing ⟨hcrc, htype, hspan, hlayers, hpred, hport, hcoast, hsource, hkey⟩ d
    refine ⟨_, exec_stepBeacon hup d m, ?_⟩
    rw [judgeBeacon_unheeded_number hheed (by rw [crossing_clk]; exact hheard) hrestart (by rw [crossing_clk]; exact hle), crossing_clk]
  · have hclk : (crossing 12 d s).clk = s.clk := (linkTally_keeps ..).clk rfl
    have hspent := boundaryValues_spent false (crossing 12 d s)
    have htake : judgeBeacon 12 m (crossing 12 d s) = takeCoasted m (crossing 12 d s) :=
      judgeBeacon_of_viaduct hcrc htype (by rw [obj_of_dict (crossing_dict ..)]; exact hspan) hlayers hpred hcoast
        (by rw [crossing_span]; exact htwin)
    have hexec := exec_coastedBeacon (p := 12) hup d m
    rw [show ((12 : Fin 13) : Nat) = 12 from rfl, htake] at hexec
    refine ⟨_, hexec, ?_⟩
    rw [takeCoasted_of_later (by rw [hclk]; exact hlast) (by rw [hclk]; exact hcoasted), beginStep_clk]
    dsimp only [StepClk.coasting]
    refine ⟨rfl, ?_, ?_, rfl, rfl, rfl⟩
    · rw [hspent, hclk]
    · rw [hclk]
  · refine ⟨_, exec_coastedBeacon hup d m, ?_⟩
    rw [judgeBeacon_of_coast hcoast (by rw [crossing_span]; exact htwin)]
    show { (crossing p.val d s).clk with discarded := ((crossing p.val d s).clk.discarded + 1) % 2 ^ 32 } = _
    rw [crossing_clk]
    rfl

end Sys2Proof.Machine
end

section
/-! PROOFS. The steps of a keystone, of COAST, OVERRUN and UNLOCKED, and the events bound to a phase (R30 to R33, R39, R45 to R55,
R715). -/

namespace Sys2Proof.Machine

/-! ## The fields of an own beacon (R34) -/

/-- The fields that a body's bits give, under any crc. -/
theorem withCrc_step (b : Nat) : bStep (withCrc b) = b / 2 ^ 32 % 2 ^ 48 := by
  simp only [bStep, withCrc, fld, bitsOf, BitVec.toNat_ofNat]
  omega

theorem withCrc_layers (b : Nat) : bLayers (withCrc b) = b / 2 ^ 80 % 2 ^ 16 := by
  simp only [bLayers, withCrc, fld, bitsOf, BitVec.toNat_ofNat]
  omega

theorem withCrc_predicted (b : Nat) : bPredicted (withCrc b) = b / 2 ^ 96 % 2 ^ 32 := by
  simp only [bPredicted, withCrc, fld, bitsOf, BitVec.toNat_ofNat]
  omega

/-- A beacon's flags, source and type fit the 32 bits below its step number. -/
theorem beaconWord_low_lt (s : State) (f : BeaconFields) :
    (if timeValid s then 2 ^ 22 else 0) + (if f.coast then 2 ^ 21 else 0) + (if f.restart then 2 ^ 20 else 0) + ownIndex s % 16 * 2 ^ 16
      + obj s 0x2100 9 % 256 * 2 ^ 8 + 0x5B < 2 ^ 32 := by
  have hvalid : (if timeValid s then 2 ^ 22 else 0) ≤ 2 ^ 22 := by split <;> omega
  have hcoast : (if f.coast then 2 ^ 21 else 0) ≤ 2 ^ 21 := by split <;> omega
  have hrestart : (if f.restart then 2 ^ 20 else 0) ≤ 2 ^ 20 := by split <;> omega
  omega

theorem beaconWord_step (s : State) (f : BeaconFields) : bStep (beaconWord s f) = f.step % 2 ^ 48 := by
  have hlow := beaconWord_low_lt s f
  rw [beaconWord, withCrc_step]
  omega

theorem beaconWord_layers (s : State) (f : BeaconFields) : bLayers (beaconWord s f) = f.layers % 2 ^ 16 := by
  have hlow := beaconWord_low_lt s f
  rw [beaconWord, withCrc_layers]
  omega

theorem beaconWord_predicted (s : State) (f : BeaconFields) : bPredicted (beaconWord s f) = f.predicted % 2 ^ 32 := by
  have hlow := beaconWord_low_lt s f
  rw [beaconWord, withCrc_predicted]
  omega

/-! ## The keystone's steps (R30 to R33, R715) -/

/-- The clock of a keystone's step: LOCKED, with the fields of the beacon that it sends. -/
theorem keystoneStart_clk {s : State} (htake : s.clk.takeover = false) (number layers origin : Nat) (fixed : Option Nat) :
    ∃ m, LockedTo (keystoneStart number layers origin fixed s).clk m ∧ bStep m = number % 2 ^ 48 ∧ bLayers m = layers % 2 ^ 16 ∧
      ∀ n, fixed = some n → bPredicted m = n % 2 ^ 32 := by
  have hspent := boundaryValues_spent true s
  unfold keystoneStart
  extract_lets s1 measured prev m s2
  have htake1 : s1.clk.takeover = false := by
    unfold s1
    rw [hspent]
    exact htake
  refine ⟨m, acceptBeacon_locks .., ?_, beaconWord_layers .., fun n hn => ?_⟩
  · unfold m
    rw [beaconWord_step, htake1]
    rfl
  · unfold m
    rw [beaconWord_predicted, hn]
    rfl

theorem keystoneStart_time (number layers origin : Nat) (fixed : Option Nat) (s : State) :
    (keystoneStart number layers origin fixed s).time = s.time := (keystoneStart_keeps ..).time rfl

theorem layersOk_mod {n : Nat} (h : layersOk n = true) : n % 2 ^ 16 = n := by
  simp only [layersOk, decide_eq_true_eq] at h
  omega

theorem judgeMark_of_taken {s : State} {port : Nat} {m : Beacon} (hsource : stepSource s = 1) (hport : port = obj s 0x2100 2)
    (hcrc : bCrcOk m = true) (htype : bType m = 0x5A) (hlayers : layersOk (bLayers m) = true) {k : Nat}
    (hk : judgeNumber s (bStep m) (!s.clk.seen) = .taken k) :
    judgeMark port m s =
      keystoneStart (bStep m) (bLayers m) (if bOrigin m = 0 then devNs s else bOrigin m) none (countMissed k s) := by
  unfold judgeMark
  rw [if_neg (by simp [hsource, hport, hcrc, htype, hlayers]), hk]

theorem exec_stepMark {s : State} {p : Fin 13} (h : linkUp s p.val = true) (d : Nat) (m : Beacon) :
    exec (.stepMark p d m) s = .next (judgeMark p.val m (crossing p.val d s)) := if_pos h

/-- A step mark of the keystone's port starts the step that it names. -/
theorem stepMark_starts {s : State} {p : Fin 13} {m : Beacon} (hsource : stepSource s = 1) (hport : p.val = obj s 0x2100 2)
    (hcrc : bCrcOk m = true) (htype : bType m = 0x5A) (hlayers : layersOk (bLayers m) = true)
    (hnumber : s.clk.seen = false ∨ s.clk.last < bStep m) (htake : s.clk.takeover = false) (d : Nat) :
    ∃ b, LockedTo (judgeMark p.val m (crossing p.val d s)).clk b ∧ bStep b = bStep m ∧ bLayers b = bLayers m := by
  obtain ⟨k, hk⟩ := judgeNumber_taken (s := crossing p.val d s) (n := bStep m) (first := !(crossing p.val d s).clk.seen)
    (by rw [crossing_clk]; simpa using hnumber)
  rw [judgeMark_of_taken (by rw [crossing_stepSource]; exact hsource) (by rw [obj_of_dict (crossing_dict ..)]; exact hport) hcrc htype
    hlayers hk]
  have htake1 : (countMissed k (crossing p.val d s)).clk.takeover = false := by
    show (crossing p.val d s).clk.takeover = false
    rw [crossing_clk]
    exact htake
  obtain ⟨b, hlocked, hstep, hlayer, -⟩ := keystoneStart_clk htake1 (bStep m) (bLayers m)
    (if bOrigin m = 0 then devNs (crossing p.val d s) else bOrigin m) none
  have hlt : bStep m < 2 ^ 48 := Nat.mod_lt _ (by decide)
  exact ⟨b, hlocked, by rw [hstep, Nat.mod_eq_of_lt hlt], by rw [hlayer, layersOk_mod hlayers]⟩

theorem stewardMark_of_mark {s : State} (hsource : stepSource s = 2) (hnow : ¬LockedNow s) :
    stewardMark s = keystoneStart (s.clk.last + 1) (objLast s 0x2100 0x0A) (devNs s) none s :=
  if_neg (by rintro (h | h); exacts [h hsource, hnow h])

/-- The cycle in which the keystone's own time ends its step. -/
def selfTimedAt (s : State) : Nat := s.clk.stepAt + nsCycles (obj s 0x2100 3)

theorem exec_selfTimedStep {s : State} (h : stepSource s = 3) :
    exec .selfTimedStep s = .next (keystoneStart (s.clk.last + 1) (objLast s 0x2100 0x0A) (devNs (carryTo (selfTimedAt s) s))
      (some (objLast s 0x2100 3)) (carryTo (selfTimedAt s) s)) := by
  have hdict : (carryTo (selfTimedAt s) s).dict = s.dict := rfl
  rw [← objLast_of_dict hdict, ← objLast_of_dict hdict]
  exact if_neg (by rw [h]; decide)

/-- Settles O9: each of the three begins a step by `keystoneStart`, whose beacon gives the clock its fields. -/
theorem keystoneStartsSteps : Obligations.KeystoneStartsSteps := by
  refine ⟨fun s p d m hup hsource hport hcrc htype hlayers hnumber htake => ?_,
    fun s v hmark hsource hnow htake hlast hlayers => ?_, fun s hsource htake hlast hlayers hpredicted => ?_⟩
  · obtain ⟨b, hlocked, hstep, hlayer⟩ := stepMark_starts hsource hport hcrc htype hlayers hnumber htake d
    exact ⟨_, exec_stepMark hup d m, hlocked.st, hlocked.last.trans hstep, hlocked.layers.trans hlayer, hlocked.seen, hlocked.internal⟩
  · obtain ⟨b, hlocked, hstep, hlayer, -⟩ := keystoneStart_clk htake (s.clk.last + 1) (objLast s 0x2100 0x0A) (devNs s) none
    rw [exec_stepmark, stepMark_of_mark hmark, stewardMark_of_mark hsource (by rintro ⟨hst, hat⟩; exact hnow.elim (· hst) (· hat))]
    exact ⟨_, rfl, hlocked.st, by rw [hlocked.last, hstep, Nat.mod_eq_of_lt hlast], by rw [hlocked.layers, hlayer, layersOk_mod hlayers],
      hlocked.internal⟩
  · obtain ⟨b, hlocked, hstep, hlayer, hpred⟩ := keystoneStart_clk (s := carryTo (selfTimedAt s) s) htake
      (s.clk.last + 1) (objLast s 0x2100 0x0A) (devNs (carryTo (selfTimedAt s) s)) (some (objLast s 0x2100 3))
    refine ⟨_, exec_selfTimedStep hsource, hlocked.st, ?_, ?_, ?_, ?_⟩
    · exact hlocked.last.trans (hstep.trans (Nat.mod_eq_of_lt hlast))
    · exact hlocked.predicted.trans ((hpred _ rfl).trans (Nat.mod_eq_of_lt hpredicted))
    · exact hlocked.layers.trans (hlayer.trans (layersOk_mod hlayers))
    · rw [keystoneStart_time]
      exact le_carryTo_cycle _ s

end Sys2Proof.Machine
end

section
/-! PROOFS. COAST, OVERRUN and UNLOCKED, and the events bound to a phase (R26, R39, R45 to R50, R54, R55). -/

namespace Sys2Proof.Machine

/-! ## COAST and UNLOCKED -/

theorem sendCoasted_clk (s : State) : (sendCoasted s).clk = s.clk := (sendCoasted_keeps s).clk rfl
theorem sendCoasted_time (s : State) : (sendCoasted s).time = s.time := (sendCoasted_keeps s).time rfl

theorem boundaryValues_endStep_time (accepted : Bool) (s : State) : (boundaryValues (endStep accepted s)).time = s.time := by
  rw [(boundaryValues_keeps _).time rfl, (endStep_keeps ..).time rfl]

/-- The fields that the first internal step of COAST gives the clock (R46). -/
def StepClk.timedOut (c : StepClk) : StepClk := { c with st := .coast, internal := 1, acc := 0 }

theorem exec_beaconTimeout {s : State} (hst : s.clk.st = .locked ∨ s.clk.st = .overrun)
    (hwins : arrivalWins (timeoutAt s) (startsStep (carryTo (timeoutAt s) s)) s = false) :
    exec .beaconTimeout s = .next (sendCoasted (beginStep StepClk.timedOut (boundaryValues (endStep false (carryTo (timeoutAt s) s))))) := by
  show execBeaconTimeout s = _
  unfold execBeaconTimeout
  rw [if_neg (by rcases hst with h | h <;> simp [h]), hwins]
  rfl

theorem exec_beaconTimeout_of_arrival {s : State} (hst : s.clk.st = .locked ∨ s.clk.st = .overrun)
    (hwins : arrivalWins (timeoutAt s) (startsStep (carryTo (timeoutAt s) s)) s = true) :
    exec .beaconTimeout s = .next (carryTo (timeoutAt s) s) := by
  show execBeaconTimeout s = _
  unfold execBeaconTimeout
  rw [if_neg (by rcases hst with h | h <;> simp [h]), if_pos hwins]

/-- The fields that a further internal step of COAST gives the clock (R47). -/
def StepClk.coastOn (c : StepClk) : StepClk := { c with internal := (c.internal + 1) % 2 ^ 32, acc := 0 }

/-- The state in which an internal step has ended. -/
def stepOver (s : State) : State := boundaryValues (endStep false (carryTo (s.clk.stepAt + nsCycles s.clk.predicted) s))

theorem stepOver_spent (s : State) : (carryTo (s.clk.stepAt + nsCycles s.clk.predicted) s).clk.Spent (stepOver s).clk :=
  boundaryValues_spent ..

theorem exec_internalStepBoundary_of_coast {s : State} (hst : s.clk.st = .coast) (htwin : s.span.twin ≠ .follow) :
    exec .internalStepBoundary s = .next (sendCoasted (beginStep StepClk.coastOn (stepOver s))) := by
  show execInternalStepBoundary s = _
  unfold execInternalStepBoundary
  rw [hst]
  exact if_neg fun h => htwin h.1

theorem exec_internalStepBoundary_of_unlocked {s : State} (hst : s.clk.st = .unlocked) (hsource : stepSource s ≠ 3) :
    exec .internalStepBoundary s = .next (unlockedStep ((s.clk.internal + 1) % 2 ^ 32) (stepOver s)) := by
  show execInternalStepBoundary s = _
  unfold execInternalStepBoundary
  rw [hst]
  exact if_neg hsource

/-- The fields that a step of UNLOCKED gives the clock (R45). -/
def StepClk.freeRunning (n predicted : Nat) (c : StepClk) : StepClk :=
  { c with st := .unlocked, last := 0, internal := n, acc := 0, layers := 1, predicted := predicted }

theorem unlockedStep_eq (n : Nat) (s : State) : unlockedStep n s = beginStep (StepClk.freeRunning n (obj s 0x2100 3)) s := rfl

/-- A step of UNLOCKED enters no state that is counted. -/
theorem unlockedStep_clk (n : Nat) (s : State) :
    (unlockedStep n s).clk = { StepClk.freeRunning n (obj s 0x2100 3) s.clk with
      stepAt := s.time.cycle, stepDev := s.time.devHalf, slots := 0, winOpen := false, winDone := false, deadlineDone := false } := by
  rw [unlockedStep_eq]
  unfold beginStep
  extract_lets was s1 s2 s3
  rw [(releaseGates_keeps _).clk rfl, (runMoves_keeps _).clk rfl, (gatePassed_keeps _).clk rfl]
  unfold s3 s2
  rw [(roleSwap_keeps _).clk rfl, (tallySnapshot_keeps _).clk rfl, (compareBuckets_keeps _).clk rfl, (closeRecord_keeps _).clk rfl,
    (runMirror_keeps _).clk rfl, noteClock_of_unlocked was rfl]
  rfl

/-! ## Reconfiguration (R54) -/

/-- The counts of 2101 and what the former source left are gone. -/
def StepClk.renewed (c : StepClk) : StepClk :=
  { c with
    seen := false, predicting := false, coasted := none, takeover := false
    discarded := 0, stale := 0, missed := 0, early := 0, overruns := 0, coasts := 0 }

theorem unlock_clk (s : State) : ∃ c n at_ dev, (unlock s).clk = { StepClk.freeRunning 1 n (StepClk.renewed c) with
    stepAt := at_, stepDev := dev, slots := 0, winOpen := false, winDone := false, deadlineDone := false } :=
  ⟨_, _, _, _, unlockedStep_clk 1 _⟩

theorem ptpAnew_clk (s : State) : (ptpAnew s).clk = s.clk := (ptpAnew_keeps s).clk rfl

theorem exec_stepClockReconfigure {p : Prin} {sub : BitVec 8} {v : Nat} {s t : State} (hsub : sub = 1 ∨ sub = 6 ∨ sub = 9) (hv : v < 256)
    (hmay : mayTouch p 0x2100 sub.toNat = true) (ha : answering s = true) (hw : writeClock sub.toNat v s = (0, t)) :
    exec (.stepClockReconfigure p sub v) s = .next t := by
  show execStepClockReconfigure p sub v s = _
  unfold execStepClockReconfigure
  rw [if_pos (by rcases hsub with h | h | h <;> simp [h]),
    objCmd_accepted ha hmay ((if_pos hv).trans hw)]

theorem writeClock_of_valid {sub v : Nat} {s : State} (h : ¬((sub = 1 ∧ 3 < v) ∨ (sub = 6 ∧ 2 < v))) :
    writeClock sub v s = (0, if sub = 6 ∧ obj s 0x2100 6 ≠ v then ptpAnew (unlock (writeObj 0x2100 sub v s))
      else unlock (writeObj 0x2100 sub v s)) := if_neg h

/-! ## OVERRUN (R39) -/

theorem exec_stepOverrun {s : State} (hst : s.clk.st = .locked) :
    ∃ u, u.clk = { s.clk with acc := u.clk.acc } ∧
      exec .stepOverrun s = .next (noteClock .locked ((fireRest u).setClk fun c => { c with st := .overrun })) := by
  refine ⟨if 2 ^ 48 - s.clk.acc ≤ 1 then s else elapse (ceilDiv (2 ^ 48 - s.clk.acc) (max 1 (clkIncrement s.clk))) s, ?_,
    if_neg (not_not.mpr hst)⟩
  split
  · rfl
  · rfl

/-- Settles O11: each case begins a step with given fields; what the step's end leaves of the others, `Spent` says. -/
theorem clockWithoutBeacons : Obligations.ClockWithoutBeacons := by
  refine ⟨fun s hst hwins => ⟨_, exec_beaconTimeout hst hwins, ?_⟩, fun s hst hwins => exec_beaconTimeout_of_arrival hst hwins,
    fun s hst htwin => ⟨_, exec_internalStepBoundary_of_coast hst htwin, ?_⟩,
    fun s hst hsource => ⟨_, exec_internalStepBoundary_of_unlocked hst hsource, ?_⟩, fun s hst => ?_,
    fun s p sub v hv hmay ha => ?_⟩
  · rw [sendCoasted_clk, sendCoasted_time, beginStep_clk, beginStep_time, boundaryValues_endStep_time, boundaryValues_spent,
      carryTo_cycle]
    exact ⟨rfl, rfl, rfl, rfl, rfl, rfl, rfl⟩
  · rw [sendCoasted_clk, sendCoasted_time, beginStep_clk, beginStep_time, stepOver_spent]
    refine ⟨hst, rfl, rfl, rfl, ?_⟩
    unfold stepOver
    rw [boundaryValues_endStep_time]
    exact le_carryTo_cycle ..
  · rw [unlockedStep_clk]
    exact ⟨rfl, rfl, rfl, rfl⟩
  · obtain ⟨u, hu, hexec⟩ := exec_stepOverrun hst
    refine ⟨_, hexec, ?_⟩
    rw [noteClock_of_overrun (by decide) rfl]
    dsimp only [State.setClk]
    rw [fireRest_spent u, hu]
    exact ⟨rfl, rfl, rfl⟩
  · have hsub : sub = 1 ∨ sub = 6 ∨ sub = 9 := hv.imp And.left (Or.imp And.left And.left)
    have hvalid : ¬((sub.toNat = 1 ∧ 3 < v) ∨ (sub.toNat = 6 ∧ 2 < v)) := by
      rcases hv with ⟨rfl, h⟩ | ⟨rfl, h⟩ | ⟨rfl, h⟩ <;> simp <;> omega
    refine ⟨_, exec_stepClockReconfigure hsub (by omega) hmay ha (writeClock_of_valid hvalid), obj_writeObj_same .., ?_⟩
    obtain ⟨c, n, at_, dev, hclk⟩ := unlock_clk (writeObj 0x2100 sub.toNat v s)
    split
    · next hport =>
      have h6 : sub = 6 := BitVec.eq_of_toNat_eq hport.1
      rw [ptpAnew_clk, hclk]
      exact ⟨.inr ⟨h6, hport.2, by rw [h6]; rfl⟩, rfl, rfl, rfl, rfl, rfl, rfl, rfl, rfl, rfl, rfl⟩
    · rw [hclk]
      exact ⟨.inl rfl, rfl, rfl, rfl, rfl, rfl, rfl, rfl, rfl, rfl, rfl⟩

/-! ## Events bound to a phase (R50) -/

theorem le_ceilDiv_mul {a b : Nat} (hb : 0 < b) : a ≤ ceilDiv a b * b := by
  have h := Nat.div_add_mod (a + b - 1) b
  have hlt := Nat.mod_lt (a + b - 1) hb
  unfold ceilDiv
  rw [Nat.mul_comm]
  omega

/-- The clock is carried to a phase that it can reach. -/
theorem le_phaseOf_carryToPhase {ph : Nat} {s : State} (hph : ph < 65536) (hinc : 0 < clkIncrement s.clk) :
    ph ≤ phaseOf (carryToPhase ph s) := by
  have hreach := le_ceilDiv_mul (a := ph * 2 ^ 32 - s.clk.acc) (b := max 1 (clkIncrement s.clk)) (by omega)
  rw [Nat.max_eq_right (by omega : 1 ≤ clkIncrement s.clk)] at hreach
  have hacc : (carryToPhase ph s).clk.acc = min (2 ^ 48 - 1) (s.clk.acc +
      ceilDiv (ph * 2 ^ 32 - s.clk.acc) (clkIncrement s.clk) * clkIncrement s.clk) := by
    unfold carryToPhase
    rw [Nat.max_eq_right (by omega : 1 ≤ clkIncrement s.clk)]
    rfl
  rw [phaseOf, hacc, Nat.le_div_iff_mul_le (by decide)]
  omega

theorem phaseOf_of_acc {s t : State} (h : t.clk.acc = s.clk.acc) : phaseOf t = phaseOf s := by rw [phaseOf, phaseOf, h]

theorem phaseOf_closeWindow (s : State) : phaseOf (closeWindow s) = phaseOf s := rfl

/-- The prefetch event of a slot marks the slot alone. -/
theorem firedSlot_clk (l n : Nat) (s : State) :
    (runMoves (firePrefetch l (s.setClk fun c => { c with slots := n }))).clk = { s.clk with slots := n } := by
  rw [(runMoves_keeps _).clk rfl, (firePrefetch_keeps ..).clk rfl]
  rfl

theorem slotPhase_lt (s : State) (l : Nat) : slotPhase s l < 65536 := by unfold slotPhase; omega

theorem exec_backgroundWindowOpen_of_done {s : State} (h : s.clk.winDone = true) : exec .backgroundWindowOpen s = .next s := if_pos h

theorem exec_backgroundWindowOpen {s : State} (h : s.clk.winDone = false) :
    exec .backgroundWindowOpen s = .next (openWindow (carryToPhase (obj s 0x2102 3) s)) := if_neg (by rw [h]; decide)

theorem exec_backgroundWindowClose_of_shut {s : State} (h : s.clk.winOpen = false) (bad : List (Fin 24)) :
    exec (.backgroundWindowClose bad) s = .next s := if_pos (by rw [h]; rfl)

theorem exec_backgroundWindowClose {s : State} (hopen : s.clk.winOpen = true) (hshuts : obj s 0x2102 3 ≤ obj s 0x2102 4) :
    exec (.backgroundWindowClose []) s = .next (closeWindow (carryToPhase (obj s 0x2102 4) s)) := by
  show execBackgroundWindowClose [] s = _
  unfold execBackgroundWindowClose
  rw [if_neg (by rw [hopen]; decide)]
  simp only [hshuts, decide_true, if_true, List.foldl_nil, ite_self]

theorem exec_layerPrefetchEvent {s : State} (hst : s.clk.st ≠ .unlocked) (hslots : s.clk.slots < s.clk.layers) :
    exec .layerPrefetchEvent s = .next (runMoves (firePrefetch s.clk.slots
      ((carryToPhase (slotPhase s s.clk.slots) s).setClk fun c => { c with slots := s.clk.slots + 1 }))) :=
  if_neg (by rintro (h | h); exacts [hst h, absurd h (by omega)])

theorem exec_layerPrefetchEvent_of_past {s : State} (h : s.clk.layers ≤ s.clk.slots) : exec .layerPrefetchEvent s = .next s :=
  if_pos (.inr h)

theorem exec_checkpointCopyDeadline_of_done {s : State} (h : s.clk.deadlineDone = true) : exec .checkpointCopyDeadline s = .next s :=
  if_pos h

theorem exec_checkpointCopyDeadline {s : State} (h : s.clk.deadlineDone = false) :
    exec .checkpointCopyDeadline s = .next (copyDeadline (carryToPhase (obj s 0x2102 5) s)) := if_neg (by rw [h]; decide)

/-- Settles O12: the clock is carried to the event's phase, and the mark that the event leaves makes a second one nothing. -/
theorem phaseEventsFire : Obligations.PhaseEventsFire := by
  refine ⟨fun s hdone _ hph hinc => ⟨_, exec_backgroundWindowOpen hdone, ?_⟩,
    fun s hopen hshuts _ hph hinc => ⟨_, exec_backgroundWindowClose hopen hshuts, rfl, ?_, ?_⟩,
    fun s hst hslots _ hinc => ⟨_, exec_layerPrefetchEvent hst hslots, ?_⟩, fun s h => exec_layerPrefetchEvent_of_past h,
    fun s hdone _ hph hinc => ⟨_, exec_checkpointCopyDeadline hdone, ?_⟩⟩
  · have hclk := openWindow_clk (carryToPhase (obj s 0x2102 3) s)
    refine ⟨by rw [hclk], by rw [hclk], ?_, exec_backgroundWindowOpen_of_done (by rw [hclk])⟩
    rw [phaseOf_of_acc (s := carryToPhase (obj s 0x2102 3) s) (by rw [hclk])]
    exact le_phaseOf_carryToPhase hph hinc
  · rw [phaseOf_closeWindow]
    exact le_phaseOf_carryToPhase hph hinc
  · exact exec_backgroundWindowClose_of_shut rfl _
  · have hclk := firedSlot_clk s.clk.slots (s.clk.slots + 1) (carryToPhase (slotPhase s s.clk.slots) s)
    refine ⟨by rw [hclk], ?_⟩
    rw [phaseOf_of_acc (s := carryToPhase (slotPhase s s.clk.slots) s) (by rw [hclk])]
    exact le_phaseOf_carryToPhase (slotPhase_lt ..) hinc
  · have hclk := copyDeadline_clk (carryToPhase (obj s 0x2102 5) s)
    refine ⟨by rw [hclk], ?_, exec_checkpointCopyDeadline_of_done (by rw [hclk])⟩
    rw [phaseOf_of_acc (s := carryToPhase (obj s 0x2102 5) s) (by rw [hclk])]
    exact le_phaseOf_carryToPhase hph hinc

end Sys2Proof.Machine
end

section
/-! PROOFS. Resets of the tallies and the freeze (R659, R661 to R663, R675). -/

namespace Sys2Proof.Machine

theorem answering_of_live {s : State} (h : live s = true) : answering s = true := by
  cases hd : s.pwr.dev <;> simp_all [live, answering]

/-- A write by way of an object that is refused (R633). -/
theorem objCmd_refused {p : Prin} {i j code : Nat} {s : State} {f : State → Nat × State} (ha : answering s = true)
    (hp : mayTouch p i j = true) (hf : f s = (code, s)) (hcode : code ≠ 0) : objCmd p i j f s = bumpObj 0x1022 1 1 32 s := by
  rw [objCmd_of_mayTouch f ha hp, hf, written_refused hcode]

theorem next_objCmd {p : Prin} {i j : Nat} {s : State} {f : State → Nat × State} {t : State} (ha : answering s = true)
    (hp : mayTouch p i j = true) (hf : f s = (0, t)) : (.next (objCmd p i j f s) : Res) = .next t := by
  rw [objCmd_accepted ha hp hf]

/-- A principal who may not access the object is refused (R613). -/
theorem objCmd_denied {p : Prin} {i j : Nat} {s : State} {f : State → Nat × State} (ha : answering s = true)
    (hp : mayTouch p i j = false) : objCmd p i j f s = bumpObj 0x1022 1 1 32 s := by
  simp only [objCmd, commanded, ha, if_true, hp]
  exact written_refused (by decide) s

/-! ## What a trace record and a trigger leave of the tallies -/

/-- The counts, the freeze and the telemetry ring of the tallies are the same. -/
structure Tally.SameCounts (a b : Tally) : Prop where
  counts : b.counts = a.counts
  frozen : b.frozen = a.frozen
  frozenAt : b.frozenAt = a.frozenAt
  events : b.events = a.events
  eventCount : b.eventCount = a.eventCount

theorem Tally.SameCounts.refl (a : Tally) : a.SameCounts a := ⟨rfl, rfl, rfl, rfl, rfl⟩

theorem Tally.SameCounts.trans {a b c : Tally} (h : a.SameCounts b) (h' : b.SameCounts c) : a.SameCounts c :=
  ⟨h'.counts.trans h.counts, h'.frozen.trans h.frozen, h'.frozenAt.trans h.frozenAt, h'.events.trans h.events,
    h'.eventCount.trans h.eventCount⟩

theorem setTrace_sameCounts (die : Nat) (t : Trace) (s : State) : s.tal.SameCounts (setTrace die t s).tal := by
  simp only [setTrace, State.setTal]
  split <;> exact ⟨rfl, rfl, rfl, rfl, rfl⟩

theorem askFreeze_sameCounts (s : State) : s.tal.SameCounts (askFreeze s).tal := by
  simp only [askFreeze, State.setTal]
  split <;> exact ⟨rfl, rfl, rfl, rfl, rfl⟩

theorem traceEvent_sameCounts (die : Nat) (tenant : Option Nat) (addr unit tag source code count kind : Nat) (s : State) :
    s.tal.SameCounts (traceEvent die tenant addr unit tag source code count kind s).tal := by
  unfold traceEvent
  extract_lets t on wanted conf entered
  split
  · split
    · exact setTrace_sameCounts ..
    · split
      · exact setTrace_sameCounts ..
      · exact Tally.SameCounts.trans (b := (s.setTal fun v => { v with recLost := (v.recLost + 1) % 2 ^ 64 }).tal)
          ⟨rfl, rfl, rfl, rfl, rfl⟩ (setTrace_sameCounts ..)
  · exact .refl _

theorem traceTriggerSeen_sameCounts (s : State) : s.tal.SameCounts (traceTriggerSeen s).tal := by
  unfold traceTriggerSeen
  split
  · extract_lets u
    have hu : s.tal.SameCounts u.tal := ⟨rfl, rfl, rfl, rfl, rfl⟩
    split
    · exact hu.trans (askFreeze_sameCounts u)
    · exact hu
  · split
    · exact ⟨rfl, rfl, rfl, rfl, rfl⟩
    · exact .refl _

/-- What a telemetry event leaves of the tallies; it adds one to the events (R660). -/
structure Tally.Told (a b : Tally) : Prop where
  counts : b.counts = a.counts
  frozen : b.frozen = a.frozen
  frozenAt : b.frozenAt = a.frozenAt
  eventCount : b.eventCount = (a.eventCount + 1) % 2 ^ 64

theorem telemetry_told (kind detail : Nat) (s : State) : s.tal.Told (telemetry kind detail s).tal := by
  unfold telemetry
  extract_lets w u v x
  have huv : u.tal.SameCounts v.tal := traceEvent_sameCounts ..
  have hvx : v.tal.SameCounts x.tal := by
    unfold x
    split
    · exact askFreeze_sameCounts v
    · exact .refl _
  have hux := huv.trans hvx
  split
  · have h := hux.trans (traceTriggerSeen_sameCounts x)
    exact ⟨h.counts, h.frozen, h.frozenAt, h.eventCount⟩
  · exact ⟨hux.counts, hux.frozen, hux.frozenAt, hux.eventCount⟩

theorem freezeTallies_of_frozen {s : State} (h : s.tal.frozen = true) : freezeTallies s = s := if_pos h

/-- The tallies freeze with the device time, and keep what they counted (R661). -/
theorem freezeTallies_freezes {s : State} (h : s.tal.frozen = false) :
    (freezeTallies s).tal.frozen = true ∧ (freezeTallies s).tal.frozenAt = devNs s ∧
      (freezeTallies s).tal.counts = s.tal.counts := by
  have heq : freezeTallies s = telemetry 0x0B 0 (freezeNow s) := by simp [freezeTallies, h]
  have ht := telemetry_told 0x0B 0 (freezeNow s)
  rw [heq]
  exact ⟨ht.frozen, ht.frozenAt, ht.counts⟩

/-! ## Resets -/

theorem mem_terase {α : Type} {t : Tbl α} {lo hi : Nat} {q : Nat × α} (h : q ∈ terase t lo hi) : q ∈ t ∧ (q.1 < lo ∨ hi ≤ q.1) := by
  simpa [terase] using h

/-- After a reset of every group no count of one of them is left (R659). -/
theorem counts_of_resetAll {s t : State} (ht : t = tallyZero 0x7001 (tallyZero 0x7002 (tallyZero 0x7003 (tallyZero 0x7100 s))))
    {q : Nat × Nat} (hq : q ∈ t.tal.counts) : q ∈ s.tal.counts ∧
      ∀ g, g = 0x7001 ∨ g = 0x7002 ∨ g = 0x7003 ∨ g = 0x7100 → q.1 < tkey g 0 0 ∨ tkey (g + 1) 0 0 ≤ q.1 := by
  rw [ht] at hq
  obtain ⟨h1, hk1⟩ := mem_terase hq
  obtain ⟨h2, hk2⟩ := mem_terase h1
  obtain ⟨h3, hk3⟩ := mem_terase h2
  obtain ⟨h4, hk4⟩ := mem_terase h3
  refine ⟨h4, fun g hg => ?_⟩
  rcases hg with rfl | rfl | rfl | rfl <;> assumption

theorem writeTallyReset_other {v : Nat} (hv : v = 0 ∨ (4 < v ∧ v < 0xFF)) (s : State) : writeTallyReset v s = (abValue, s) := by
  unfold writeTallyReset
  rw [if_neg (by omega), if_neg (by omega), if_neg (by omega), if_neg (by omega), if_neg (by omega)]

theorem setObj_fold_tal (i : Nat) (l : List Nat) (s : State) : (l.foldl (fun s k => setObj i (k + 1) 0 s) s).tal = s.tal := by
  induction l generalizing s with
  | nil => rfl
  | cons k l ih => exact ih _

/-- Objects set to 0 one after another read 0. -/
theorem obj_setObj_fold {i j : Nat} (l : List Nat) (s : State) (h : j ∈ l ∨ obj s i (j + 1) = 0) :
    obj (l.foldl (fun s k => setObj i (k + 1) 0 s) s) i (j + 1) = 0 := by
  induction l generalizing s with
  | nil => simpa using h
  | cons k l ih =>
    refine ih _ ?_
    by_cases hk : j = k
    · exact .inr (hk ▸ obj_setObj_same ..)
    · rcases h with h | h
      · exact .inl (by simpa [hk] using h)
      · right
        rw [obj_setObj]
        split
        · rfl
        · exact h

theorem exec_resetTallyGroup (p : Prin) (v : BitVec 8) (s : State) :
    exec (.resetTallyGroup p v) s = .next (objCmd p 0x7004 1 (writeTallyReset v.toNat) s) := rfl

/-- Settles O53: by the cases of the value written, and by what a telemetry event leaves of the tallies. -/
theorem talliesResetAndFreeze : Obligations.TalliesResetAndFreeze := by
  unfold Obligations.TalliesResetAndFreeze
  refine ⟨fun s p v g hl hp hv => ?_, fun s p hl hp => ?_, fun s p v hl hp hv => ?_, fun s p n hl hp => ?_,
    fun s p hl hp hf => ?_, fun s p hl hp hf => ?_, fun s hw hf => ?_, fun s hw => ?_⟩
  · refine ⟨tallyZero g s, ?_, rfl, rfl⟩
    rw [exec_resetTallyGroup, objCmd_accepted (answering_of_live hl) hp]
    rcases hv with ⟨rfl, rfl⟩ | ⟨rfl, rfl⟩ | ⟨rfl, rfl⟩ | ⟨rfl, rfl⟩ <;> rfl
  · exact ⟨_, next_objCmd (answering_of_live hl) hp rfl, fun q hq => counts_of_resetAll rfl hq⟩
  · rw [exec_resetTallyGroup, objCmd_refused (answering_of_live hl) hp (writeTallyReset_other hv s) (by decide)]
  · refine ⟨_, next_objCmd (answering_of_live hl) hp rfl, setObj_fold_tal .., fun i h1 h15 => ?_⟩
    obtain ⟨j, rfl⟩ : ∃ j, i = j + 1 := ⟨i - 1, by omega⟩
    exact obj_setObj_fold _ _ (.inl (List.mem_range.2 (by omega)))
  · exact ⟨freezeTallies s, next_objCmd (answering_of_live hl) hp rfl, freezeTallies_freezes hf⟩
  · refine ⟨?_, _, next_objCmd (answering_of_live hl) hp rfl, fun ht => ?_, fun ht => ?_⟩
    · refine next_objCmd (answering_of_live hl) hp ?_
      rw [writeFreeze, if_pos rfl, freezeTallies_of_frozen hf]
    · rw [if_neg Bool.false_ne_true, if_neg fun h => ht h.2]
      rfl
    · rw [if_neg Bool.false_ne_true, if_pos ⟨hf, ht⟩]
      exact freezeTallies_freezes rfl
  · exact ⟨_, if_pos hw, freezeTallies_freezes hf⟩
  · exact if_neg (by simp [hw])

end Sys2Proof.Machine
end

section
/-! PROOFS. The trace writer, arming and triggers (R666 to R670). -/

namespace Sys2Proof.Machine

@[simp] theorem traceOf_setTrace (die : Nat) (t : Trace) (s : State) : traceOf (setTrace die t s) die = t := by
  by_cases h : die = 0 <;> simp [traceOf, setTrace, State.setTal, h]

@[simp] theorem setTrace_recLost (die : Nat) (t : Trace) (s : State) : (setTrace die t s).tal.recLost = s.tal.recLost := by
  by_cases h : die = 0 <;> simp [setTrace, State.setTal, h]

theorem exec_traceRecord {die : Fin 2} {s : State} (hwait : (traceOf s die.val).wait = false) :
    exec (.traceRecord die) s =
      .next (setTrace die.val
        (((traceOf s die.val).fifo.take 2).foldl (fun t w => if t.st = 1 ∨ t.st = 2 then traceTake s s.tal.mode w t else t)
          { traceOf s die.val with fifo := (traceOf s die.val).fifo.drop 2 })
        (s.setTal fun v => { v with recLost := (v.recLost +
          if s.tal.mode = 1 then
            (traceOf s die.val).wr + ((traceOf s die.val).fifo.take 2).length - max 65535 (traceOf s die.val).wr
          else 0) % 2 ^ 64 })) := by
  show execTraceRecord die s = _
  unfold execTraceRecord
  exact if_neg (by simp [hwait])

/-- A record goes into the next slot where the mode is not 1 and the trigger has not been taken (R667). -/
theorem traceTake_of_running {mode : Nat} {t : Trace} (hmode : mode ≠ 1) (hst : t.st ≠ 2) (s : State) (w : BitVec 256) :
    traceTake s mode w t = traceSlot w t := by
  simp only [traceTake, if_neg (fun h : mode = 1 ∧ 65535 ≤ t.wr => hmode h.1)]
  exact if_neg hst

/-- A record after the trigger is counted off (R670). -/
theorem traceTake_of_triggered {mode : Nat} {t : Trace} (hmode : mode ≠ 1) (hst : t.st = 2) (s : State) (w : BitVec 256) :
    traceTake s mode w t = { traceSlot w t with left := t.left - 1, st := if t.left ≤ 1 then 3 else 2 } := by
  simp only [traceTake, if_neg (fun h : mode = 1 ∧ 65535 ≤ t.wr => hmode h.1)]
  exact if_pos hst

/-- The last slot tells what mode 1 loses (R667). -/
theorem traceTake_of_full {t : Trace} (hwr : 65535 ≤ t.wr) (s : State) (w : BitVec 256) :
    traceTake s 1 w t = { t with recs := tins t.recs 65535 (traceWord s 0 3 0 0xFF 0 (t.wr - 65534) 0x10 0), wr := t.wr + 1 } :=
  if_pos ⟨rfl, hwr⟩

theorem foldl_traceTake_of_stopped {t : Trace} (hst : t.st = 0 ∨ t.st = 3) (s : State) (l : List (BitVec 256)) :
    l.foldl (fun t w => if t.st = 1 ∨ t.st = 2 then traceTake s s.tal.mode w t else t) t = t := by
  induction l with
  | nil => rfl
  | cons w l ih => rw [List.foldl_cons, if_neg (by omega), ih]

/-- The state of the tallies once both dies have been told of a trigger (R670). -/
theorem traceTriggerSeen_of_armed {s : State} (hmode : s.tal.mode = 3) (harmed : traceArmed s = true) :
    (traceTriggerSeen s).tal.io0 = { s.tal.io0 with wait := true } ∧
      (traceTriggerSeen s).tal.io1 = { s.tal.io1 with wait := true } ∧
      (traceTriggerSeen s).tal.trigIgnored = s.tal.trigIgnored := by
  unfold traceTriggerSeen
  rw [if_pos ⟨hmode, harmed⟩]
  extract_lets u
  split
  · simp only [askFreeze, State.setTal]
    split <;> exact ⟨rfl, rfl, rfl⟩
  · exact ⟨rfl, rfl, rfl⟩

theorem traceTriggerSeen_of_ignored {s : State} (hmode : s.tal.mode ≠ 0) (harmed : s.tal.armedFrom ≤ s.time.cycle)
    (hst : s.tal.io0.st ≠ 0) (hlate : s.tal.mode ≠ 3 ∨ traceArmed s = false) :
    traceTriggerSeen s = s.setTal fun t => { t with trigIgnored := (t.trigIgnored + 1) % 2 ^ 32 } := by
  unfold traceTriggerSeen
  rw [if_neg fun h => hlate.elim (fun hm => hm h.1) fun ha => by simp [ha] at h, if_pos ⟨hmode, harmed, .inl hst⟩]

theorem exec_traceTrigger {die : Fin 2} {s : State} (hwait : (traceOf s die.val).wait = true)
    (hlost : (traceOf s die.val).lost = 0) (hhidden : (traceOf s die.val).hidden = 0) :
    exec (.traceTrigger die) s =
      .next (telemetry 0x0A die.val (setTrace die.val
        { traceSlot (traceWord s 0 0 0 0xFF 0 0 0x0A 1) { traceOf s die.val with lost := 0, hidden := 0, wait := false } with
          st := 2, trigSlot := (traceOf s die.val).wr % 65536, left := s.tal.post } s)) := by
  show execTraceTrigger die s = _
  unfold execTraceTrigger
  simp only [hwait, hlost, hhidden]
  rfl

/-! ## What a telemetry event leaves of a trace -/

/-- The slots of a trace and what its trigger has set are the same. -/
structure Trace.SameSlots (a b : Trace) : Prop where
  recs : b.recs = a.recs
  wr : b.wr = a.wr
  st : b.st = a.st
  left : b.left = a.left
  trigSlot : b.trigSlot = a.trigSlot

theorem Trace.SameSlots.refl (a : Trace) : a.SameSlots a := ⟨rfl, rfl, rfl, rfl, rfl⟩

theorem Trace.SameSlots.trans {a b c : Trace} (h : a.SameSlots b) (h' : b.SameSlots c) : a.SameSlots c :=
  ⟨h'.recs.trans h.recs, h'.wr.trans h.wr, h'.st.trans h.st, h'.left.trans h.left, h'.trigSlot.trans h.trigSlot⟩

/-- Both traces keep their slots. -/
def TracesStay (s t : State) : Prop := ∀ d, (traceOf s d).SameSlots (traceOf t d)

theorem TracesStay.refl (s : State) : TracesStay s s := fun _ => .refl _

theorem TracesStay.trans {s t u : State} (h : TracesStay s t) (h' : TracesStay t u) : TracesStay s u := fun d => (h d).trans (h' d)

theorem tracesStay_of_io {s t : State} (h0 : s.tal.io0.SameSlots t.tal.io0) (h1 : s.tal.io1.SameSlots t.tal.io1) : TracesStay s t := by
  intro d
  unfold traceOf
  split
  · exact h0
  · exact h1

theorem tracesStay_setTrace {die : Nat} {t : Trace} {s : State} (h : (traceOf s die).SameSlots t) :
    TracesStay s (setTrace die t s) := by
  by_cases hd : die = 0
  · refine tracesStay_of_io ?_ ?_ <;> simp only [setTrace, State.setTal, if_pos hd]
    · simpa [traceOf, hd] using h
    · exact .refl _
  · refine tracesStay_of_io ?_ ?_ <;> simp only [setTrace, State.setTal, if_neg hd]
    · exact .refl _
    · simpa [traceOf, hd] using h

theorem traceEnter_sameSlots (s : State) (t : Trace) (w : BitVec 256) : t.SameSlots (traceEnter s t w) := by
  simp only [traceEnter]
  split <;> exact ⟨rfl, rfl, rfl, rfl, rfl⟩

theorem traceEvent_tracesStay (die : Nat) (tenant : Option Nat) (addr unit tag source code count kind : Nat) (s : State) :
    TracesStay s (traceEvent die tenant addr unit tag source code count kind s) := by
  unfold traceEvent
  extract_lets t on wanted conf entered
  have hent : (traceOf s die).SameSlots entered := traceEnter_sameSlots ..
  split
  · split
    · exact tracesStay_setTrace ⟨rfl, rfl, rfl, rfl, rfl⟩
    · split
      · exact tracesStay_setTrace hent
      · exact TracesStay.trans (t := s.setTal fun v => { v with recLost := (v.recLost + 1) % 2 ^ 64 })
          (tracesStay_of_io (.refl _) (.refl _)) (tracesStay_setTrace hent)
  · exact .refl _

theorem askFreeze_tracesStay (s : State) : TracesStay s (askFreeze s) := by
  refine tracesStay_of_io ?_ ?_ <;> simp only [askFreeze, State.setTal] <;> split <;> exact .refl _

theorem traceTriggerSeen_tracesStay (s : State) : TracesStay s (traceTriggerSeen s) := by
  unfold traceTriggerSeen
  split
  · extract_lets u
    have hu : TracesStay s u := tracesStay_of_io ⟨rfl, rfl, rfl, rfl, rfl⟩ ⟨rfl, rfl, rfl, rfl, rfl⟩
    split
    · exact hu.trans (askFreeze_tracesStay u)
    · exact hu
  · split
    · exact tracesStay_of_io (.refl _) (.refl _)
    · exact .refl _

theorem telemetry_tracesStay (kind detail : Nat) (s : State) : TracesStay s (telemetry kind detail s) := by
  unfold telemetry
  extract_lets w u v x
  have hsv : TracesStay s v :=
    TracesStay.trans (t := u) (tracesStay_of_io (.refl _) (.refl _)) (traceEvent_tracesStay _ _ _ _ _ _ _ _ _ u)
  have hsx : TracesStay s x := by
    unfold x
    split
    · exact hsv.trans (askFreeze_tracesStay v)
    · exact hsv
  split
  · exact hsx.trans (traceTriggerSeen_tracesStay x)
  · exact hsx

/-- Settles O54: by the states of a trace, and by what a telemetry event leaves of it. -/
theorem tracesRecord : Obligations.TracesRecord := by
  unfold Obligations.TracesRecord
  refine ⟨fun s die a b rest hwait hfifo hst hmode => ?_, fun s die hwait hst => ?_, fun s die a hwait hfifo hst hmode hwr => ?_,
    fun s die a hwait hfifo hst hmode => ?_, fun s p hl hp => ?_, fun s p hl hp hmode harmed => ?_,
    fun s p hl hp hmode harmed hst hlate => ?_, fun s die hwait hlost hhidden => ?_⟩
  · have hone : s.tal.mode ≠ 1 := by omega
    refine ⟨_, exec_traceRecord hwait, ?_, ?_⟩
    · rw [setTrace_recLost, if_neg hone]
      rfl
    · rw [traceOf_setTrace, hfifo]
      simp [traceTake_of_running hone, traceSlot, hst]
  · refine ⟨_, exec_traceRecord hwait, ?_⟩
    rw [traceOf_setTrace, foldl_traceTake_of_stopped]
    exact hst
  · refine ⟨_, exec_traceRecord hwait, ?_, ?_⟩
    · rw [setTrace_recLost, if_pos hmode, hfifo]
      show (s.tal.recLost + ((traceOf s die.val).wr + 1 - max 65535 (traceOf s die.val).wr)) % 2 ^ 64 = _
      rw [show (traceOf s die.val).wr + 1 - max 65535 (traceOf s die.val).wr = 1 by omega]
    · rw [traceOf_setTrace, hfifo, hmode]
      show (if _ then _ else _ : Trace).recs = _
      rw [if_pos (.inl hst)]
      exact congrArg Trace.recs (traceTake_of_full (t := { traceOf s die.val with fifo := [] }) hwr s a)
  · have hone : s.tal.mode ≠ 1 := by omega
    refine ⟨_, exec_traceRecord hwait, ?_, ?_⟩ <;> rw [traceOf_setTrace, hfifo] <;>
      simp [traceTake_of_triggered hone, hst]
  · exact ⟨_, next_objCmd (answering_of_live hl) hp rfl, rfl, rfl, rfl, rfl, rfl, rfl, rfl, rfl,
      congrArg (fun t : Time => t.cycle + 1) ((applyWaiting_keeps ..).time rfl)⟩
  · exact ⟨_, next_objCmd (answering_of_live hl) hp rfl, traceTriggerSeen_of_armed hmode harmed⟩
  · refine ⟨_, next_objCmd (answering_of_live hl) hp rfl, ?_⟩
    rw [if_pos rfl, traceTriggerSeen_of_ignored hmode harmed hst hlate]
    rfl
  · refine ⟨_, exec_traceTrigger hwait hlost hhidden, ?_⟩
    have h := telemetry_tracesStay 0x0A die.val (setTrace die.val
      { traceSlot (traceWord s 0 0 0 0xFF 0 0 0x0A 1) { traceOf s die.val with lost := 0, hidden := 0, wait := false } with
        st := 2, trigSlot := (traceOf s die.val).wr % 65536, left := s.tal.post } s) die.val
    rw [traceOf_setTrace] at h
    exact ⟨h.st, h.left, h.trigSlot, h.wr, h.recs⟩

end Sys2Proof.Machine
end

section
/-! PROOFS. Gate lists and tolls (R521 to R528, R534, R536). -/

namespace Sys2Proof.Machine

/-! ## Gates -/

/-- With no request held at a gate, nothing passes when gates open. -/
theorem releaseGates_of_none {s t : State} (hcoh : t.coh = s.coh) (h : ∀ r ∈ s.coh.reqs, r.stage ≠ .gated) :
    releaseGates t = t := by
  have hnil : (t.coh.reqs.filter fun r => r.stage == .gated) = [] := by
    rw [hcoh, List.filter_eq_nil_iff]
    intro r hr
    simpa using h r hr
  unfold releaseGates
  rw [hnil]
  rfl

theorem commitGates_of_parsed {s : State} {l : GateList} (hparse : gateParse (objDom s 0x2600 2) = some l) :
    commitGates s = if gateTimeOk s (obj s 0x2600 3) (obj s 0x2600 4) then
        (0, s.setShape fun h => { h with change := some (l, obj s 0x2600 3, obj s 0x2600 4), status := 1 })
      else (abValue, s.setShape fun h => { h with status := 3 }) := by
  unfold commitGates
  rw [hparse]

theorem commitGates_of_invalid {s : State} (hparse : gateParse (objDom s 0x2600 2) = none) :
    commitGates s = (abValue, s.setShape fun h => { h with status := 2 }) := by
  unfold commitGates
  rw [hparse]

/-- A write that is answered with a code is counted, whatever it has stored (R633). -/
theorem next_objCmd_code {p : Prin} {i j code : Nat} {s t : State} {f : State → Nat × State} (ha : answering s = true)
    (hp : mayTouch p i j = true) (hf : f s = (code, t)) (hcode : code ≠ 0) :
    (.next (objCmd p i j f s) : Res) = .next (bumpObj 0x1022 1 1 32 t) := by
  rw [objCmd_of_mayTouch f ha hp, hf, written_refused hcode]

theorem exec_gateListChange_of_time {s : State} {l : GateList} {at_ : Nat} (hchange : s.shape.change = some (l, 1, at_))
    (hreqs : ∀ r ∈ s.coh.reqs, r.stage ≠ .gated) :
    exec .gateListChange s = .next (gateApply (elapse (2 * at_ - s.time.devHalf) s)) := by
  show execGateListChange s = _
  unfold execGateListChange
  rw [hchange]
  simp only [if_true]
  rw [releaseGates_of_none (((gateApply_keeps _).coh rfl).trans ((elapse_keeps ..).coh rfl)) hreqs]

theorem exec_gateListChange_of_step {s : State} {l : GateList} {at_ : Nat} (hchange : s.shape.change = some (l, 0, at_))
    (hst : s.clk.st = .locked ∨ s.clk.st = .overrun) (hlast : s.clk.last = bitsOf at_ 47 0)
    (hreqs : ∀ r ∈ s.coh.reqs, r.stage ≠ .gated) :
    exec .gateListChange s = .next (gateApply (carryToPhase (bitsOf at_ 63 48) s)) := by
  show execGateListChange s = _
  unfold execGateListChange
  rw [hchange]
  have hnot : ¬ (s.clk.st = .unlocked ∨ s.clk.st = .coast ∨ s.clk.last < bitsOf at_ 47 0) := by
    rcases hst with h | h <;> simp [h, hlast]
  simp only [if_neg Nat.zero_ne_one, if_neg hnot, if_pos hlast]
  rw [releaseGates_of_none (((gateApply_keeps _).coh rfl).trans ((carryToPhase_keeps ..).coh rfl)) hreqs]

theorem exec_gateListChange_of_waiting {s : State} {l : GateList} {at_ : Nat} (hchange : s.shape.change = some (l, 0, at_))
    (hwait : s.clk.st = .unlocked ∨ s.clk.st = .coast ∨ s.clk.last < bitsOf at_ 47 0) : exec .gateListChange s = .next s := by
  show execGateListChange s = _
  unfold execGateListChange
  rw [hchange]
  simp only [if_neg Nat.zero_ne_one, if_pos hwait]

theorem gateApply_shape {s t : State} {l : GateList} {kind at_ : Nat} (hshape : t.shape = s.shape)
    (hchange : s.shape.change = some (l, kind, at_)) :
    (gateApply t).shape = { s.shape with active := l, change := none, status := 4 } := by
  simp only [gateApply, State.setShape, hshape, hchange]

theorem exec_gateEntryBoundary {s : State} {e : Nat × Nat}
    (hfind : s.shape.active.entries.find? (fun e => decide (gatePos s s.shape.active < e.1)) = some e)
    (hreqs : ∀ r ∈ s.coh.reqs, r.stage ≠ .gated) :
    exec .gateEntryBoundary s = .next (if s.shape.active.cyclic then
      elapse (nsCycles (e.1 - gatePos s s.shape.active) - stepAge s % 2) s else carryToPhase e.1 s) := by
  show execGateEntryBoundary s = _
  unfold execGateEntryBoundary
  simp only [hfind]
  rw [releaseGates_of_none (s := s) ?_ hreqs]
  split
  · exact (elapse_keeps ..).coh rfl
  · exact (carryToPhase_keeps ..).coh rfl

/-- The age of a step grows by the cycles that pass, within the period of device time (R524). -/
theorem stepAge_elapse {s : State} {n : Nat} (hstep : s.clk.stepDev ≤ 2 ^ 65) (hage : stepAge s + n < 2 ^ 65) :
    stepAge (elapse n s) = stepAge s + n := by
  simp only [stepAge, elapse] at *
  omega

/-- A cyclic list stands at an entry's start once half as many cycles as it lies ahead have passed (R524). -/
theorem gatePos_elapse {s : State} {l : GateList} {start : Nat} (hcyclic : l.cyclic = true) (hstep : s.clk.stepDev ≤ 2 ^ 65)
    (hage : stepAge s + 2 * (start - gatePos s l) < 2 ^ 65) (hahead : gatePos s l < start) (hwithin : start < l.cycleNs) :
    gatePos (elapse (nsCycles (start - gatePos s l) - stepAge s % 2) s) l = start := by
  have hpos : gatePos s l = stepAge s / 2 % max 1 l.cycleNs := by simp [gatePos, hcyclic]
  have hnew : ∀ u, gatePos u l = stepAge u / 2 % max 1 l.cycleNs := fun u => by simp [gatePos, hcyclic]
  rw [hnew, stepAge_elapse hstep (by simp only [nsCycles]; omega)]
  have hhalf : (stepAge s + (nsCycles (start - gatePos s l) - stepAge s % 2)) / 2 = stepAge s / 2 + (start - gatePos s l) := by
    simp only [nsCycles]
    omega
  rw [hhalf, Nat.add_mod, ← hpos, Nat.mod_eq_of_lt (show start - gatePos s l < max 1 l.cycleNs by omega),
    Nat.add_sub_cancel' hahead.le, Nat.mod_eq_of_lt (by omega)]

/-! ## Tolls -/

theorem tollRates_of_lt {k : Nat} (hk : k < 64) (s : State) :
    tollRates s k = (tollField s k 2, tollField s k 3, tollField s k 4, tollField s k 5) := by
  unfold tollRates
  rw [if_neg (by omega), if_neg (by omega)]

theorem tollField_of_dict {s t : State} (h : t.dict = s.dict) (k i : Nat) : tollField t k i = tollField s k i := obj_of_dict h ..

theorem flightOf_setFlight {s : State} {f g : Flight} {id : Nat} (hf : flightOf s id = some f) (hg : g.id = f.id) :
    flightOf (setFlight g s) id = some g := by
  have hid : f.id = id := by simpa using List.find?_some hf
  simp only [flightOf, setFlight, State.setAttn] at *
  generalize s.attn.flights = fs at hf
  induction fs with
  | nil => simp at hf
  | cons x fs ih =>
    by_cases hx : x.id = id
    · simp [hg, hid, hx]
    · rw [List.map_cons, if_neg (by rw [hg, hid]; exact hx), List.find?_cons_of_neg (by simpa using hx)]
      rw [List.find?_cons_of_neg (by simpa using hx)] at hf
      exact ih hf

theorem holdEnd_id (now : Nat) (f : Flight) : (holdEnd now f).id = f.id := by
  unfold holdEnd
  split <;> rfl

/-- A descriptor that its toll releases may be dispatched (R405). -/
theorem tollPass_of_flight {s : State} {f : Flight} {id : Nat} (k : Nat) (hf : flightOf s id = some f) (hst : f.stage = .tolled) :
    tollPass k id s = setFlight { holdEnd s.time.cycle f with stage := .waiting } s := by
  unfold tollPass
  rw [hf]
  exact if_pos hst

theorem tollDue_of_green {s : State} {k id len cin : Nat} {rest : List (Nat × Nat × Nat × Nat)} (hk : k < 64)
    (hq : (tollNow s k).queue = (id, len, 0, cin) :: rest) (hon : tollField s k 1 ≠ 0) : tollDue s k = some 0 := by
  simp [tollDue, hq, hon, show ¬ 200 ≤ k by omega]

theorem tollPop_of_green {s : State} {k id len cin : Nat} {rest : List (Nat × Nat × Nat × Nat)} (hk : k < 64)
    (hq : (tollNow s k).queue = (id, len, 0, cin) :: rest) (hon : tollField s k 1 ≠ 0) :
    tollPop k s = (some id, setToll k { tollNow s k with queue := rest } s) := by
  simp [tollPop, hq, hon, show ¬ 200 ≤ k by omega]

theorem tollDue_of_yellow {s : State} {k id len cin : Nat} {rest : List (Nat × Nat × Nat × Nat)} (hk : k < 64)
    (hq : (tollNow s k).queue = (id, len, 1, cin) :: rest) (hon : tollField s k 1 ≠ 0) (hwait : tollField s k 9 = 0) :
    tollDue s k = tollWait (tollNow s k).tc (min len (tollField s k 3) * 2000) (tollField s k 2) := by
  simp [tollDue, tollRates_of_lt hk, hq, hon, hwait, show ¬ 200 ≤ k by omega]

theorem tollPop_of_yellow {s : State} {k id len cin : Nat} {rest : List (Nat × Nat × Nat × Nat)} (hk : k < 64)
    (hq : (tollNow s k).queue = (id, len, 1, cin) :: rest) (hon : tollField s k 1 ≠ 0) (hwait : tollField s k 9 = 0)
    (htc : min len (tollField s k 3) * 2000 ≤ (tollNow s k).tc) :
    tollPop k s = (some id, setToll k { tollNow s k with
      tc := (tollNow s k).tc - min len (tollField s k 3) * 2000, queue := rest } s) := by
  simp [tollPop, tollRates_of_lt hk, hq, hon, hwait, show ¬ 200 ≤ k by omega, htc]

/-- The tokens that a wait is for are there at its end (R531). -/
theorem le_of_tollWait {have_ need rate c : Nat} (h : tollWait have_ need rate = some c) : need ≤ have_ + c * rate := by
  unfold tollWait at h
  split at h
  · omega
  · split at h
    · cases h
    · obtain rfl := Option.some.inj h
      have := le_ceilDiv_mul (a := need - have_) (b := rate) (by omega)
      omega

/-- The committed bucket of a toll that is on, up to its depth (R531). -/
theorem tollNow_tc {s : State} {k : Nat} (hk : k < 64) (hon : (tget ({} : Toll) s.shape.tolls k).on = true) :
    (tollNow s k).tc = min (tollField s k 3 * 2000) ((tget ({} : Toll) s.shape.tolls k).tc +
      (s.time.cycle - (tget ({} : Toll) s.shape.tolls k).at_) * tollField s k 2) := by
  simp [tollNow, tollRates_of_lt hk, hon]

theorem tollNow_queue (s : State) (k : Nat) : (tollNow s k).queue = (tget ({} : Toll) s.shape.tolls k).queue := by
  simp only [tollNow]
  split <;> rfl

theorem exec_tollRelease {s : State} {k : Nat} (hk : k < 64) : exec (.tollRelease k) s = .next (tollHead 2 k s) :=
  congrArg Host.Outcome.next (if_neg (by omega))

/-- The head item of a toll leaves it when its tokens cover it. -/
theorem tollHead_of_pop {s u : State} {k c item : Nat} (n : Nat) (hdue : tollDue s k = some c)
    (hpop : tollPop k (elapse c s) = (some item, u)) : tollHead (n + 1) k s = tollPass k item u := by
  unfold tollHead
  rw [hdue]
  simp only [hpop]

/-- Settles O52: by the outcomes of a commitment, by the time at which a change or an entry is due, and by what the tokens of a
toll cover when the wait for its head item ends. -/
theorem gatesAndTolls : Obligations.GatesAndTolls := by
  unfold Obligations.GatesAndTolls
  refine ⟨fun s p l hl hp hparse hok => ?_, fun s p l hl hp hparse hok => ?_, fun s p hl hp hparse => ?_, fun s p v hl hp => ?_,
    fun s l at_ hchange hreqs => ?_, fun s l at_ hchange hst hlast hreqs => ?_, fun s l at_ hchange hwait => ?_,
    fun s e hcyclic hstep hage hfind hwithin hreqs => ?_, fun s e hcyclic hfind hreqs => ?_,
    fun s k id len cin rest f hk hq hon hf hst => ?_,
    fun s k id len c cin rest f hk htoll hat hq hon hnine hwait hf hst => ?_⟩
  · refine ⟨_, next_objCmd (answering_of_live hl) hp (t := s.setShape fun h =>
      { h with change := some (l, obj s 0x2600 3, obj s 0x2600 4), status := 1 }) ?_, rfl, rfl⟩
    rw [if_pos rfl, commitGates_of_parsed hparse, if_pos hok]
  · refine ⟨_, next_objCmd_code (answering_of_live hl) hp (t := s.setShape fun h => { h with status := 3 }) (code := abValue) ?_
      (by decide), rfl⟩
    rw [if_pos rfl, commitGates_of_parsed hparse, if_neg (by simp [hok])]
  · refine ⟨_, next_objCmd_code (answering_of_live hl) hp (t := s.setShape fun h => { h with status := 2 }) (code := abValue) ?_
      (by decide), rfl, obj_bumpObj_same ..⟩
    rw [if_pos rfl, commitGates_of_invalid hparse]
  · exact ⟨_, rfl, objCmd_denied (answering_of_live hl) hp⟩
  · exact ⟨_, exec_gateListChange_of_time hchange hreqs, gateApply_shape ((elapse_keeps ..).shape rfl) hchange,
      congrArg Time.cycle ((gateApply_keeps _).time rfl)⟩
  · exact ⟨_, exec_gateListChange_of_step hchange hst hlast hreqs, gateApply_shape ((carryToPhase_keeps ..).shape rfl) hchange,
      (gateApply_keeps _).time rfl⟩
  · exact exec_gateListChange_of_waiting hchange hwait
  · refine ⟨_, (exec_gateEntryBoundary hfind hreqs).trans (congrArg _ (if_pos hcyclic)), (elapse_keeps ..).shape rfl, ?_, rfl⟩
    rw [(elapse_keeps ..).shape rfl]
    exact gatePos_elapse hcyclic hstep hage (by simpa using List.find?_some hfind) hwithin
  · have hpos : gatePos s s.shape.active = phaseOf s := by simp [gatePos, hcyclic]
    exact ⟨_, (exec_gateEntryBoundary (by rwa [hpos]) hreqs).trans (congrArg _ (if_neg (by simp [hcyclic]))), rfl⟩
  · have hq' : (tollNow (elapse 0 s) k).queue = (id, len, 0, cin) :: rest := hq
    refine ⟨_, (exec_tollRelease hk).trans (congrArg _ ((tollHead_of_pop 1 (tollDue_of_green hk hq hon)
      (tollPop_of_green hk hq' hon)).trans (tollPass_of_flight k (f := f) hf hst))), rfl, ?_, rfl⟩
    exact flightOf_setFlight hf (holdEnd_id ..)
  · have hq0 : (tollNow s k).queue = (id, len, 1, cin) :: rest := (tollNow_queue s k).trans hq
    have hq' : (tollNow (elapse c s) k).queue = (id, len, 1, cin) :: rest := (tollNow_queue (elapse c s) k).trans hq
    have htc : min len (tollField s k 3) * 2000 ≤ (tollNow (elapse c s) k).tc := by
      have hreach := le_of_tollWait hwait
      rw [tollNow_tc hk htoll] at hreach
      rw [tollNow_tc (s := elapse c s) hk htoll]
      simp only [elapse_cycle, tollField_of_dict ((elapse_keeps c s).dict rfl)]
      have hsplit : s.time.cycle + c - (tget ({} : Toll) s.shape.tolls k).at_ =
          s.time.cycle - (tget ({} : Toll) s.shape.tolls k).at_ + c := by omega
      show _ ≤ min _ ((tget ({} : Toll) s.shape.tolls k).tc +
        (s.time.cycle + c - (tget ({} : Toll) s.shape.tolls k).at_) * tollField s k 2)
      rw [hsplit, Nat.add_mul]
      omega
    refine ⟨_, (exec_tollRelease hk).trans (congrArg _ ((tollHead_of_pop 1 ((tollDue_of_yellow hk hq0 hon hnine).trans hwait)
      (tollPop_of_yellow hk hq' hon hnine htc)).trans (tollPass_of_flight k (f := f) hf hst))), rfl, ?_⟩
    exact flightOf_setFlight hf (holdEnd_id ..)

end Sys2Proof.Machine
end

section
/-! PROOFS. Device reset, the watchdog and the issue allowance (R682, R683, R691 to R696, R706). -/

namespace Sys2Proof.Machine

/-! ## Requests of a reset (R691) -/

theorem requestReset_of_idle {s : State} (cause : Nat) (hreset : s.pwr.resetAt = none)
    (hdev : s.pwr.dev = .ready ∨ s.pwr.dev = .failed) :
    requestReset cause s = s.setPwr fun p => { p with dev := .quiescing, resetAt := some s.time.cycle, cause := cause } := by
  unfold requestReset
  rw [if_neg (by simp [hreset]), if_pos (hdev.imp_right .inl)]

theorem requestReset_of_running {s : State} (cause : Nat) (hreset : s.pwr.resetAt ≠ none) :
    requestReset cause s = s.setPwr fun p => { p with ignored := (p.ignored + 1) % 65536 } := by
  unfold requestReset
  rw [if_pos (Option.isSome_iff_ne_none.2 hreset)]

theorem answering_of_ready_or_failed {s : State} (h : s.pwr.dev = .ready ∨ s.pwr.dev = .failed) : answering s = true := by
  rcases h with h | h <;> simp [answering, h]

theorem exec_requestDeviceReset_accepted {p : Prin} {s : State} (ha : answering s = true) (hp : mayTouch p 0x2020 1 = true) :
    exec (.requestDeviceReset p 0xA5) s = .next (requestReset 2 s) :=
  next_objCmd ha hp (if_pos rfl)

theorem exec_requestDeviceReset_refused {p : Prin} {v : BitVec 8} {s : State} (ha : answering s = true)
    (h : mayTouch p 0x2020 1 = false ∨ v ≠ 0xA5) : exec (.requestDeviceReset p v) s = .next (bumpObj 0x1022 1 1 32 s) := by
  cases hp : mayTouch p 0x2020 1 with
  | false => exact congrArg _ (objCmd_denied ha hp)
  | true =>
    have hv : v.toNat ≠ 0xA5 := fun hv => (h.resolve_left (by simp [hp])) (BitVec.eq_of_toNat_eq hv)
    exact next_objCmd_code ha hp (code := abValue) (if_neg hv) (by decide)

/-! ## The reset itself (R515, R690 to R695) -/

theorem exec_deviceReset {s : State} {c : Nat} (hdev : s.pwr.dev = .quiescing) (hreset : s.pwr.resetAt = some c) :
    exec .deviceReset s = .next (inReset (quiesce (carryTo (c + 8) s))) := by
  show execDeviceReset s = _
  unfold execDeviceReset
  rw [hdev, hreset]

theorem exec_resetRelease {s : State} {c : Nat} (hdev : s.pwr.dev = .reset) (hreset : s.pwr.resetAt = some c) :
    exec .resetRelease s = .next { carryTo (c + msCycles 1) s with
      time := {}, clk := {}, pwr := { s.pwr with dev := .starting, step := 4, resetAt := some 0 } } := by
  show execResetRelease s = _
  unfold execResetRelease
  rw [hdev, hreset]
  dsimp only
  rw [(carryTo_keeps (c + msCycles 1) s).pwr rfl]

theorem quiesced_pwr (c : Nat) (s : State) : (quiesce (carryTo c s)).pwr = s.pwr :=
  ((quiesce_keeps _).pwr rfl).trans ((carryTo_keeps ..).pwr rfl)

theorem quiesced_cycle (c : Nat) (s : State) : (quiesce (carryTo c s)).time.cycle = max s.time.cycle c := by
  rw [(quiesce_keeps _).time rfl, carryTo_cycle]

/-- What the reset controller keeps, and what a reset clears (R693, R695). -/
theorem inReset_cleared (s : State) : (inReset s).pwr =
    { dev := .reset, step := 4, rails := s.pwr.rails, millivolt := s.pwr.millivolt, watts := s.pwr.watts, hottest := s.pwr.hottest
      resets := (s.pwr.resets + 1) % 65536, ignored := s.pwr.ignored, cause := s.pwr.cause, resetAt := some s.time.cycle } ∧
    (inReset s).time.cycle = s.time.cycle ∧ (inReset s).attn.flights = [] ∧ (inReset s).led.qps = [] ∧ (inReset s).kv = {} ∧
    (inReset s).links.link = [] ∧ (inReset s).clk = {} := ⟨rfl, rfl, rfl, rfl, rfl, rfl, rfl⟩

/-- What a table lists by number. -/
theorem tget_range_map {α : Type} (d : α) (f : Nat → α) {n c : Nat} (hc : c < n) (k : Nat) :
    tget d ((List.range' k n).map fun c => (c, f c)) (k + c) = f (k + c) := by
  induction n generalizing k c with
  | zero => omega
  | succ n ih =>
    rw [List.range'_succ, List.map_cons, tget]
    by_cases h0 : c = 0
    · simp [h0]
    · rw [if_neg (by omega)]
      have h := ih (c := c - 1) (by omega) (k + 1)
      rw [show k + 1 + (c - 1) = k + c by omega] at h
      rw [if_neg (by omega)]
      exact h

/-- In reset every controller keeps its memory (R282). -/
theorem inReset_retains {c : Nat} (hc : c < 24) (s : State) : (ctlOf (inReset s) c).st = .retained := by
  have h := tget_range_map ({} : Hbm) (fun _ => { st := .retained }) hc 0
  rw [Nat.zero_add, ← List.range_eq_range'] at h
  exact congrArg Hbm.st h

theorem inReset_bytes {s : State} {q : Nat × Byte} (hq : q ∈ (inReset s).mem.bytes) : q.1 < keptTop (inReset s).hbm.retained :=
  of_decide_eq_true (List.mem_filter.1 hq).2

/-! ## The watchdog (R696) -/

theorem exec_watchdogExpiry {s : State} {c : Nat} (hdog : s.pwr.dogStart = some c) (hperiod : obj s 0x2020 3 ≠ 0)
    (hlive : live s = true) (hkick : arrivalWins (c + msCycles (obj s 0x2020 3)) kicks s = false) :
    exec .watchdogExpiry s = .next (requestReset 4 (carryTo (c + msCycles (obj s 0x2020 3)) s)) := by
  show execWatchdogExpiry s = _
  unfold execWatchdogExpiry
  rw [hdog]
  simp only [hkick]
  rw [if_neg (by simp [hperiod, hlive]), if_neg Bool.false_ne_true]

theorem writeKick_of_running {s : State} {c : Nat} (hdog : s.pwr.dogStart = some c) :
    writeKick 1 s = (0, s.setPwr fun p => { p with dogStart := some s.time.cycle }) := by
  simp [writeKick, hdog]

theorem writeKick_of_stopped {s : State} {v : Bool} (h : s.pwr.dogStart = none ∨ v = false) :
    writeKick (if v then 1 else 0) s = (0, s) := by
  rcases h with h | h <;> cases v <;> simp_all [writeKick]

theorem next_commanded {s t : State} {f : State → Nat × State} (ha : answering s = true) (hf : f s = (0, t)) :
    (.next (commanded f s) : Res) = .next t := by
  rw [commanded_accepted ha hf]

/-! ## The issue allowance (R682, R683) -/

theorem exec_issueAllowanceUpdate {s : State} (watts hottest : Nat) (hdev : s.pwr.dev ≠ .shutdown) :
    ∃ t, exec (.issueAllowanceUpdate watts hottest) s = .next t ∧ t.time.cycle = (s.time.cycle / 20000 + 1) * 20000 ∧
      t.pwr.watts = watts ∧ t.pwr.hottest = hottest ∧
      t.pwr.allowance = s.pwr.allowance.map (nextAllowance watts (obj s 0x2010 1) (tooHot s hottest)) ∧
      t.pwr.thermN = t.pwr.allowance.any (· != 16) := by
  refine ⟨_, if_neg hdev, ?_, rfl, rfl, rfl, rfl⟩
  refine (carryTo_cycle ((s.time.cycle / 20000 + 1) * 20000) s).trans ?_
  omega

theorem nextAllowance_over {watts cap : Nat} (h : cap < watts) (hot : Bool) :
    nextAllowance watts cap hot = fun g => max 1 (g - 1) := by
  funext g
  exact if_pos (.inr h)

theorem nextAllowance_under {watts cap : Nat} (h : 100 * watts < 95 * cap) :
    nextAllowance watts cap false = fun g => if g < 16 then g + 1 else g := by
  funext g
  simp only [nextAllowance]
  rw [if_neg (by simp; omega)]
  simp [h]

/-- Settles O56: by the state of the reset controller, by what the quiesce leaves, and by the next allowance of a core. -/
theorem deviceResets : Obligations.DeviceResets := by
  unfold Obligations.DeviceResets
  refine ⟨fun s hdev hreset => ?_, fun s hdev => ?_, fun s p hdev hp hreset => ?_, fun s p ha hp hreset => ?_,
    fun s p v ha h => exec_requestDeviceReset_refused ha h, fun s c hdev hreset => ?_, fun s c hdev hreset => ?_,
    fun s c hl hdog => ?_, fun s v hl hdog => ?_, fun s c hdog hperiod hdev hreset hkick => ?_, fun s watts hottest hdev => ?_⟩
  · exact (if_pos (.inl hdev)).trans (congrArg _ (requestReset_of_idle 1 hreset (.inl hdev)))
  · refine if_neg ?_
    rcases hdev with h | h | h | h <;> simp [h]
  · rw [exec_requestDeviceReset_accepted (answering_of_ready_or_failed hdev) hp, requestReset_of_idle 2 hreset hdev]
  · rw [exec_requestDeviceReset_accepted ha hp, requestReset_of_running 2 hreset]
  · obtain ⟨hpwr, hcycle, hflights, hqps, hkv, hlink, hclk⟩ := inReset_cleared (quiesce (carryTo (c + 8) s))
    refine ⟨_, exec_deviceReset hdev hreset, ?_⟩
    rw [hpwr, hcycle, quiesced_pwr, quiesced_cycle]
    exact ⟨rfl, rfl, rfl, rfl, rfl, rfl, rfl, fun c hc => inReset_retains hc _, hflights, hqps, hkv, hlink, hclk,
      fun q hq => inReset_bytes hq⟩
  · exact ⟨_, exec_resetRelease hdev hreset, rfl, rfl, (carryTo_keeps (c + msCycles 1) s).hbm rfl,
      (carryTo_keeps (c + msCycles 1) s).mem rfl, rfl⟩
  · exact next_commanded (answering_of_live hl) (writeKick_of_running hdog)
  · exact next_commanded (answering_of_live hl) (writeKick_of_stopped hdog)
  · refine ⟨_, exec_watchdogExpiry hdog hperiod (by simp [live, hdev]) hkick, ?_⟩
    have hpwr := (carryTo_keeps (c + msCycles (obj s 0x2020 3)) s).pwr rfl
    rw [requestReset_of_idle 4 (by rw [hpwr, hreset]) (.inl (by rw [hpwr, hdev]))]
    refine ⟨carryTo_cycle .., ?_⟩
    simp only [State.setPwr, hpwr]
  · obtain ⟨t, hexec, hcycle, hwatts, hhot, hallow, htherm⟩ := exec_issueAllowanceUpdate watts hottest hdev
    refine ⟨t, hexec, hcycle, hwatts, hhot, fun hover => ?_, fun hunder hcool => ?_, ?_⟩
    · rw [hallow, nextAllowance_over hover]
    · rw [hallow, hcool, nextAllowance_under hunder]
    · rw [htherm, List.any_eq_true]
      simp

end Sys2Proof.Machine
end

section
/-! PROOFS. Power-up, power-down and the failures that end in FAILED (R14, R548, R685 to R688). -/

namespace Sys2Proof.Machine

/-! ## The Mint's start (R422) -/

theorem mintTo_mint (m : MintState) (s : State) : (mintTo m s).mint = { s.mint with st := m } := by
  unfold mintTo
  split
  · next h => rw [← h]
  · exact ((telemetry_keeps ..).mint rfl).trans ((emcyRaise_keeps ..).mint rfl)

theorem mintTo_pwr (m : MintState) (s : State) : (mintTo m s).pwr = s.pwr := (mintTo_keeps m s).pwr rfl

theorem startFails_mintTo (m : MintState) (s : State) :
    (startFails (mintTo m s)).pwr = { s.pwr with dev := .failed, faultN := true, cause := 8, step := 0, resetAt := none } ∧
      (startFails (mintTo m s)).mint.st = m :=
  ⟨congrArg (fun p : Power => { p with dev := .failed, faultN := true, cause := 8, step := 0, resetAt := none }) (mintTo_pwr m s),
    congrArg Mint.st (mintTo_mint m s)⟩

theorem bootSteward_pwr (images : List Byte) (s : State) :
    (bootSteward images s).pwr = { s.pwr with stewardUp := true, dogStart := some s.time.cycle, ended7 := true } :=
  mintTo_pwr ..

theorem bootSteward_mint (images : List Byte) (s : State) : (bootSteward images s).mint.st = .running :=
  congrArg Mint.st (mintTo_mint ..)

/-! ## Steps 1 to 5 (R685) -/

section
variable {s : State} (images : List Byte) (hdev : s.pwr.dev = .starting)
include hdev

theorem exec_powerUpStepEnd_1 (ok : Bool) (hstep : s.pwr.step = 1) : exec (.powerUpStepEnd ok images) s =
    .next (if ok then toStep 2 (s.setPwr fun p => { p with rails := 1 }) else startFails s) := by
  show execPowerUpStepEnd ok images s = _
  unfold execPowerUpStepEnd
  rw [if_neg (by simp [hdev]), hstep]
  rfl

theorem exec_powerUpStepEnd_2 (ok : Bool) (hstep : s.pwr.step = 2) : exec (.powerUpStepEnd ok images) s =
    .next (if ok then toStep 3 (s.setPwr fun p => { p with rails := 0x3FF }) else startFails s) := by
  show execPowerUpStepEnd ok images s = _
  unfold execPowerUpStepEnd
  rw [if_neg (by simp [hdev]), hstep]
  rfl

theorem exec_powerUpStepEnd_3 (ok : Bool) (hstep : s.pwr.step = 3) : exec (.powerUpStepEnd ok images) s =
    .next (if ok then toStep 4 (s.setPwr fun p => { p with pwrGood := true }) else startFails s) := by
  show execPowerUpStepEnd ok images s = _
  unfold execPowerUpStepEnd
  rw [if_neg (by simp [hdev]), hstep]
  rfl

theorem exec_powerUpStepEnd_4 (ok : Bool) (hstep : s.pwr.step = 4) : exec (.powerUpStepEnd ok images) s =
    .next (if ok then toStep 5 (drawNonce (mExtend 1 Config.romDigest (ucieUp images s)))
      else startFails (mintTo .identityFail s)) := by
  show execPowerUpStepEnd ok images s = _
  unfold execPowerUpStepEnd
  rw [if_neg (by simp [hdev]), hstep]
  rfl

theorem exec_powerUpStepEnd_5_of_boot {u : State} (hstep : s.pwr.step = 5) (hboot : bootImages images s = some u) :
    exec (.powerUpStepEnd true images) s = .next (toStep 6 (startTraining u)) := by
  show execPowerUpStepEnd true images s = _
  unfold execPowerUpStepEnd
  rw [if_neg (by simp [hdev]), hstep]
  simp only [if_true, hboot]

theorem exec_powerUpStepEnd_5_of_fail (hstep : s.pwr.step = 5) (hboot : bootImages images s = none) :
    exec (.powerUpStepEnd true images) s = .next (startFails (mintTo .bootFail s)) := by
  show execPowerUpStepEnd true images s = _
  unfold execPowerUpStepEnd
  rw [if_neg (by simp [hdev]), hstep]
  simp only [if_true, hboot]

theorem exec_powerUpStepEnd_7 (hstep : s.pwr.step = 6) (hended : s.pwr.ended7 = false) (himages : byteAt images 0 = 7) :
    exec (.powerUpStepEnd true images) s = .next (bothEnded (bootSteward images s)) := by
  show execPowerUpStepEnd true images s = _
  unfold execPowerUpStepEnd
  rw [if_neg (by simp [hdev]), hstep]
  simp only [himages, hended, if_true, Bool.false_eq_true, if_false]

theorem exec_powerUpStepEnd_6 (hstep : s.pwr.step = 6) (hended : s.pwr.ended6 = false) (himages : byteAt images 0 ≠ 7) :
    exec (.powerUpStepEnd true images) s =
      if s.hbm.ctl.any (fun c => c.2.st == .initialising) then
        .next (bothEnded ((bootMemory images s).setPwr fun p => { p with ended6 := true }))
      else .next (bootTraining images s) := by
  show execPowerUpStepEnd true images s = _
  unfold execPowerUpStepEnd
  rw [if_neg (by simp [hdev]), hstep]
  simp only [if_neg himages, hended, Bool.not_true, Bool.false_eq_true, if_false]

end

theorem drawNonce_measured (images : List Byte) (s : State) :
    (toStep 5 (drawNonce (mExtend 1 Config.romDigest (ucieUp images s)))).pwr = { s.pwr with step := 5 } ∧
      (toStep 5 (drawNonce (mExtend 1 Config.romDigest (ucieUp images s)))).mint.nonce = freeAt s 0 % 2 ^ 256 := by
  have hpwr : (mExtend 1 Config.romDigest (ucieUp images s)).pwr = s.pwr :=
    ((mExtend_keeps ..).pwr rfl).trans ((ucieUp_keeps ..).pwr rfl)
  have hfree : (mExtend 1 Config.romDigest (ucieUp images s)).freeCtr = s.freeCtr :=
    ((mExtend_keeps ..).freeCtr rfl).trans ((ucieUp_keeps ..).freeCtr rfl)
  constructor
  · show ({ (mExtend 1 Config.romDigest (ucieUp images s)).pwr with step := 5 } : Power) = _
    rw [hpwr]
  · show freeAt (mExtend 1 Config.romDigest (ucieUp images s)) 0 % 2 ^ 256 = _
    simp only [freeAt, hfree]

/-! ## Steps 6 and 7, and READY -/

/-- What comes back at READY changes nothing of power but its state (R685, R629). -/
theorem toReady_from (s : State) :
    Keeps 0x2512502 (s.setPwr fun p => { p with dev := .ready, step := 0, resetAt := none }) (toReady s) := by
  unfold toReady
  dsimp only
  refine (State.setRole_keeps _ _).step ?_
  refine (State.setShape_keeps _ _).step ?_
  refine Keeps.foldl ?_ fun _ _ h => (reGrant_keeps ..).step h
  refine (setDom_keeps ..).step ?_
  refine Keeps.foldl ?_ fun u x h => ?_
  · refine (loadRetired_keeps ..).step ?_
    exact Keeps.foldl (.refl _ _) fun _ _ h => (restoreTenant_keeps ..).step h
  · split
    · exact (macMark_keeps ..).step h
    · exact h

theorem toReady_pwr (s : State) : (toReady s).pwr = { s.pwr with dev := .ready, step := 0, resetAt := none } :=
  (toReady_from s).pwr rfl

theorem bothEnded_of_ended {s : State} (hdev : s.pwr.dev = .starting) (hstep : s.pwr.step = 6) (h6 : s.pwr.ended6 = true)
    (h7 : s.pwr.ended7 = true) : bothEnded s = toReady s := if_pos ⟨hdev, hstep, h6, h7⟩

theorem bothEnded_of_running {s : State} (h : s.pwr.ended6 = false ∨ s.pwr.ended7 = false) : bothEnded s = s := by
  refine if_neg fun ⟨_, _, h6, h7⟩ => ?_
  rcases h with h | h <;> simp [h] at h6 h7

theorem ctlOf_bothEnded (s : State) (c : Nat) : ctlOf (bothEnded s) c = ctlOf s c := ctlOf_of_hbm ((bothEnded_keeps s).hbm rfl) c

theorem ctlOf_setPwr (f : Power → Power) (s : State) (c : Nat) : ctlOf (s.setPwr f) c = ctlOf s c := rfl

/-! ## Step 6 of power-up: the controllers (R268) -/

theorem trainCtl_hbm (temp : Nat) (lanes : Tbl Nat) (s : State) (c : Nat) :
    ∃ h : Hbm, h.st = .initialising ∧ (trainCtl temp lanes s c).hbm = (setCtl c h s).hbm := by
  unfold trainCtl
  extract_lets good bad h
  refine ⟨h, rfl, ?_⟩
  exact (Keeps.foldl (P := 0x200186) (.refl _ (freeStep 16 (setCtl c h s))) fun _ _ k => (logEvent_keeps ..).step k).hbm rfl

theorem trainCtl_pwr (temp : Nat) (lanes : Tbl Nat) (s : State) (c : Nat) : (trainCtl temp lanes s c).pwr = s.pwr :=
  (trainCtl_keeps ..).pwr rfl

/-- One controller of a training that fails nowhere. -/
def trainOne (images : List Byte) (s : State) (c : Nat) : State :=
  trainCtl (byteAt images (2 * c + 1)) (lanesFrom c ((images.length - 49) / 7) (images.drop 49)) s c

theorem foldl_trainOne (images : List Byte) (l : List Nat) (s : State) (h : Inv s) :
    (l.foldl (trainOne images) s).pwr = s.pwr ∧
      ∀ c, c ∈ l ∨ (ctlOf s c).st = .initialising → (ctlOf (l.foldl (trainOne images) s) c).st = .initialising := by
  induction l generalizing s with
  | nil => exact ⟨rfl, fun c hc => by simpa using hc⟩
  | cons x l ih =>
    obtain ⟨hx, hst, hhbm⟩ := trainCtl_hbm (byteAt images (2 * x + 1))
      (lanesFrom x ((images.length - 49) / 7) (images.drop 49)) s x
    obtain ⟨hpwr, hctl⟩ := ih (trainOne images s x) ((trainCtl_keeps ..).inv h)
    refine ⟨hpwr.trans (trainCtl_pwr ..), fun c hc => hctl c ?_⟩
    rw [ctlOf_of_hbm (t := trainOne images s x) (s := setCtl x hx s) hhbm]
    by_cases hcx : c = x
    · exact .inr (by rw [hcx, ctlOf_setCtl h.ctl, hst])
    · rw [ctlOf_setCtl_ne h.ctl hcx]
      exact hc.imp_left fun hmem => (List.mem_cons.1 hmem).resolve_left hcx

theorem bootTraining_eq {images : List Byte} (hfails : ∀ c, c < 24 → byteAt images (2 * c + 2) ≠ 1) (s : State) :
    bootTraining images s = (List.range 24).foldl (trainOne images) s :=
  List.foldl_ext _ _ _ fun _ c hc => if_neg (hfails c (List.mem_range.1 hc))

theorem initCtl_0 (s : State) (c : Nat) : initCtl 0 s c =
    if (ctlOf s c).st ≠ .initialising then s else setCtl c { ctlOf s c with st := .inService, lastUse := s.time.cycle } s := by
  have hbit : bitAt 0 c = false := by simp [bitAt]
  simp [initCtl, hbit]

/-- The controllers that are initialising enter service one after another, and nothing else of the state changes but them. -/
theorem foldl_initCtl (l : List Nat) (s : State) (h : Tbl.Rising s.hbm.ctl) :
    (l.foldl (initCtl 0) s).pwr = s.pwr ∧
      ∀ c, (c ∈ l ∧ (ctlOf s c).st = .initialising) ∨ (ctlOf s c).st = .inService →
        (ctlOf (l.foldl (initCtl 0) s) c).st = .inService := by
  induction l generalizing s with
  | nil => exact ⟨rfl, fun c hc => by simpa using hc⟩
  | cons x l ih =>
    rw [List.foldl_cons, initCtl_0]
    split
    · next hst =>
      obtain ⟨hpwr, hctl⟩ := ih s h
      refine ⟨hpwr, fun c hc => hctl c ?_⟩
      rcases hc with ⟨hmem, hc⟩ | hc
      · rcases List.mem_cons.1 hmem with rfl | hmem
        · exact absurd hc hst
        · exact .inl ⟨hmem, hc⟩
      · exact .inr hc
    · obtain ⟨hpwr, hctl⟩ := ih (setCtl x { ctlOf s x with st := .inService, lastUse := s.time.cycle } s) (tput_rising _ _ h _)
      refine ⟨hpwr, fun c hc => hctl c ?_⟩
      by_cases hcx : c = x
      · exact .inr (by rw [hcx, ctlOf_setCtl h])
      · rw [ctlOf_setCtl_ne h hcx]
        exact hc.imp_left fun ⟨hmem, hc⟩ => ⟨(List.mem_cons.1 hmem).resolve_left hcx, hc⟩

theorem bootMemory_of_pass {images : List Byte} {s : State} (h : Inv s) (hpass : leNat (slice images 5 3) = 0) :
    (bootMemory images s).pwr = s.pwr ∧
      ∀ c, c < 24 → (ctlOf s c).st = .initialising → (ctlOf (bootMemory images s) c).st = .inService := by
  unfold bootMemory
  extract_lets bad u
  have hcores : Keeps 0x201186 s (bad.foldl bootCore s) := Keeps.foldl (.refl _ _) fun _ _ k => (bootCore_keeps ..).step k
  have hu : Keeps 0x201186 s u := (belowRating_keeps ..).step hcores
  rw [hpass]
  obtain ⟨hpwr, hctl⟩ := foldl_initCtl (List.range 24) u (by rw [hu.hbm rfl]; exact h.ctl)
  refine ⟨hpwr.trans (hu.pwr rfl), fun c hc hst => hctl c (.inl ⟨List.mem_range.2 hc, ?_⟩)⟩
  rwa [ctlOf_of_hbm (hu.hbm rfl)]

/-! ## Power-down and failures -/

theorem exec_orderlyPowerDown_write (v : BitVec 8) (s : State) :
    exec (.orderlyPowerDown false v) s = .next (commanded (writePowerDown v.toNat) s) := rfl

theorem powerDown_of_up {s : State} (hdev : s.pwr.dev ≠ .shutdown) :
    powerDown s = powerGone s.pwr.cause false (quiesce (elapse 8 s)) := if_neg hdev

theorem exec_orderlyPowerDown_pin (v : BitVec 8) (s : State) :
    exec (.orderlyPowerDown true v) s = .next ((powerDown s).setPwr fun p => { p with pwrEn := false }) := rfl

/-- What is left once power has gone (R687, R688). -/
theorem powerGone_off (cause : Nat) (emergency : Bool) (s : State) :
    (powerGone cause emergency s).pwr.dev = .shutdown ∧ (powerGone cause emergency s).pwr.pwrGood = false ∧
      (powerGone cause emergency s).pwr.faultN = emergency ∧ (powerGone cause emergency s).pwr.rails = 0 ∧
      (powerGone cause emergency s).mem.bytes = [] ∧ (powerGone cause emergency s).mint.keys = [] :=
  ⟨rfl, rfl, rfl, rfl, rfl, rfl⟩

theorem dieFails_of_live {s : State} (hl : live s = true) :
    dieFails s = if obj s 0x2020 7 ≠ 1 then
        s.setPwr fun p => { p with dev := .failed, faultN := true, cause := 3, step := 0, resetAt := none }
      else if s.pwr.resetAt.isSome then (s.setPwr fun p =>
        { p with dev := .failed, faultN := true, cause := 3, step := 0, resetAt := none }).setPwr fun p =>
          { p with ignored := (p.ignored + 1) % 65536 }
      else requestReset 3 (s.setPwr fun p => { p with dev := .failed, faultN := true, cause := 3, step := 0, resetAt := none }) := by
  unfold dieFails
  rw [if_neg]
  · rfl
  · rintro (h | h | h) <;> simp [live, h] at hl

/-- Settles O55: by the step that ends, by what comes back at READY, and by the state that a power-down leaves. -/
theorem powerRisesAndFalls : Obligations.PowerRisesAndFalls := by
  unfold Obligations.PowerRisesAndFalls
  refine ⟨fun s mv hdev hlow hhigh => ?_, fun s mv h => ?_, fun s images hdev hstep => ?_, fun s images hdev hstep => ?_,
    fun s images hdev hstep => ?_, fun s images hdev hstep h7 himages => ?_, fun s images hinv hdev hstep h6 himages hnone hfails => ?_,
    fun s images hinv hdev hstep h6 himages hsome hpass => ?_, fun s v hdev => ?_, fun s hl => ?_, fun s v hl hv => ?_,
    fun s cause hlow hhigh hdev => ?_, fun s die hl hobj => ?_, fun s die hl hobj hreset => ?_, fun s hl hobj => ?_⟩
  · exact ⟨_, if_neg (by simp [hdev, inputOk, hlow, hhigh]), rfl, rfl, rfl, rfl⟩
  · refine if_pos ?_
    simp only [inputOk, Bool.not_eq_true', decide_eq_false_iff_not]
    rcases h with h | h | h
    · exact .inl h
    · exact .inr (by omega)
    · exact .inr (by omega)
  · rcases hstep with hstep | hstep | hstep
    · exact ⟨_, _, exec_powerUpStepEnd_1 images hdev true hstep, by rw [hstep]; rfl, hdev, by simp [hstep], by simp [hstep],
        exec_powerUpStepEnd_1 images hdev false hstep, rfl⟩
    · exact ⟨_, _, exec_powerUpStepEnd_2 images hdev true hstep, by rw [hstep]; rfl, hdev, by simp [hstep], fun _ => rfl,
        exec_powerUpStepEnd_2 images hdev false hstep, rfl⟩
    · exact ⟨_, _, exec_powerUpStepEnd_3 images hdev true hstep, by rw [hstep]; rfl, hdev, fun _ => rfl, by simp [hstep],
        exec_powerUpStepEnd_3 images hdev false hstep, rfl⟩
  · obtain ⟨hpwr, hnonce⟩ := drawNonce_measured images s
    exact ⟨_, _, exec_powerUpStepEnd_4 images hdev true hstep, hpwr, hnonce, exec_powerUpStepEnd_4 images hdev false hstep, rfl,
      (startFails_mintTo .identityFail s).2⟩
  · cases hboot : bootImages images s with
    | some u =>
      refine ⟨_, exec_powerUpStepEnd_5_of_boot images hdev hstep hboot, fun v hv => ?_, fun hnone => by simp at hnone⟩
      rw [Option.some.inj hv]
    | none =>
      obtain ⟨hpwr, hmint⟩ := startFails_mintTo .bootFail s
      exact ⟨_, exec_powerUpStepEnd_5_of_fail images hdev hstep hboot, fun v hv => by simp at hv,
        fun _ => ⟨congrArg Power.dev hpwr, congrArg Power.faultN hpwr, hmint⟩⟩
  · have hpwr := bootSteward_pwr images s
    refine ⟨_, exec_powerUpStepEnd_7 images hdev hstep h7 himages, ?_⟩
    cases h6 : s.pwr.ended6 with
    | false =>
      rw [bothEnded_of_running (.inl (by rw [hpwr]; exact h6)), hpwr]
      exact ⟨rfl, rfl, fun _ => ⟨hdev, rfl, bootSteward_mint ..⟩, fun h => by simp at h⟩
    | true =>
      rw [bothEnded_of_ended (by rw [hpwr]; exact hdev) (by rw [hpwr]; exact hstep) (by rw [hpwr]; exact h6) (by rw [hpwr]),
        toReady_pwr, hpwr]
      exact ⟨rfl, rfl, fun h => by simp at h, fun _ => ⟨rfl, rfl⟩⟩
  · have hany : s.hbm.ctl.any (fun c => c.2.st == .initialising) = false := by simpa using hnone
    refine ⟨_, (exec_powerUpStepEnd_6 images hdev hstep h6 himages).trans (if_neg (by simp [hany])), ?_⟩
    rw [bootTraining_eq hfails]
    obtain ⟨hpwr, hctl⟩ := foldl_trainOne images (List.range 24) s hinv
    exact ⟨hpwr, fun c hc => hctl c (.inl (List.mem_range.2 hc))⟩
  · have hany : s.hbm.ctl.any (fun c => c.2.st == .initialising) = true := by simpa using hsome
    obtain ⟨hpwr, hctl⟩ := bootMemory_of_pass hinv hpass
    have hended : ((bootMemory images s).setPwr fun p => { p with ended6 := true }).pwr = { s.pwr with ended6 := true } :=
      congrArg (fun p : Power => { p with ended6 := true }) hpwr
    refine ⟨_, (exec_powerUpStepEnd_6 images hdev hstep h6 himages).trans (if_pos hany), fun c hc hst => ?_, fun h7 => ?_, fun h7 => ?_⟩
    · rw [ctlOf_bothEnded, ctlOf_setPwr]
      exact hctl c hc hst
    · rw [bothEnded_of_running (.inr (by rw [hended]; exact h7)), hended]
    · rw [bothEnded_of_ended (by rw [hended]; exact hdev) (by rw [hended]; exact hstep) (by rw [hended]) (by rw [hended]; exact h7),
        toReady_pwr]
      exact ⟨rfl, rfl⟩
  · refine ⟨_, exec_orderlyPowerDown_pin v s, ?_⟩
    rw [powerDown_of_up hdev]
    obtain ⟨hdown, hgood, hfault, hrails, hbytes, hkeys⟩ := powerGone_off s.pwr.cause false (quiesce (elapse 8 s))
    exact ⟨hdown, rfl, hgood, hfault, hrails, hbytes, hkeys⟩
  · refine ⟨powerDown s, (exec_orderlyPowerDown_write 0xA5 s).trans (next_commanded (answering_of_live hl) (if_pos rfl)), ?_⟩
    rw [powerDown_of_up (by rintro h; simp [live, h] at hl)]
    obtain ⟨hdown, hgood, -, -, hbytes, -⟩ := powerGone_off s.pwr.cause false (quiesce (elapse 8 s))
    exact ⟨hdown, hgood, hbytes⟩
  · have hv' : v.toNat ≠ 0xA5 := fun h => hv (BitVec.eq_of_toNat_eq h)
    rw [exec_orderlyPowerDown_write, commanded, if_pos (answering_of_live hl), writePowerDown, if_neg hv', written_refused (by decide)]
  · exact ⟨_, if_neg fun h => h.elim (by omega) fun h => h.elim (by omega) hdev, rfl, rfl, rfl, rfl, rfl, rfl⟩
  · exact ⟨_, if_pos die.isLt, (dieFails_of_live hl).trans (if_pos hobj)⟩
  · refine ⟨_, if_pos die.isLt, ?_⟩
    rw [dieFails_of_live hl, if_neg (by simp [hobj]), if_neg (by simp [hreset]), requestReset_of_idle 3 rfl (.inr rfl)]
    rfl
  · have hother : obj (setObj 0x5600 1 (3 * 2 ^ 28) s) 0x2020 7 = obj s 0x2020 7 := obj_setObj_ne (by decide) ..
    refine ⟨_, if_pos hl, ?_⟩
    rw [dieFails_of_live (s := setObj 0x5600 1 (3 * 2 ^ 28) s) hl, if_pos (by rw [hother]; exact hobj)]
    exact ⟨obj_setObj_same .., rfl⟩

end Sys2Proof.Machine
end

section
/-! PROOFS. The HBM controllers: pattern operations, training, refresh and row disturbance (R265 to R289). -/

namespace Sys2Proof.Machine

/-- An entry changed reads as changed. -/
theorem tget_tmod {α : Type} [DecidableEq α] (d : α) (t : Tbl α) (h : Tbl.Rising t) (k : Nat) (f : α → α) :
    tget d (tmod d t k f) k = f (tget d t k) := tget_tput _ _ _ h _

/-! ## What is done for one controller after another -/

/-- The operation changes no controller but the one it is for. -/
structure OwnCtl (F : State → Nat → State) : Prop where
  rising : ∀ s c, Tbl.Rising s.hbm.ctl → Tbl.Rising (F s c).hbm.ctl
  other : ∀ s c x, Tbl.Rising s.hbm.ctl → x ≠ c → ctlOf (F s c) x = ctlOf s x

/-- Each controller of a list is changed once, as it stands at the start. -/
theorem OwnCtl.foldl {F : State → Nat → State} (hF : OwnCtl F) {l : List Nat} (hl : l.Nodup) {s : State} (hs : Tbl.Rising s.hbm.ctl) :
    Tbl.Rising (l.foldl F s).hbm.ctl ∧ (∀ c, c ∉ l → ctlOf (l.foldl F s) c = ctlOf s c) ∧
      ∀ c ∈ l, ∃ u, Tbl.Rising u.hbm.ctl ∧ ctlOf u c = ctlOf s c ∧ ctlOf (l.foldl F s) c = ctlOf (F u c) c := by
  induction l generalizing s with
  | nil => exact ⟨hs, fun c _ => rfl, fun c hc => by simp at hc⟩
  | cons x l ih =>
    obtain ⟨hx, hl⟩ := List.nodup_cons.1 hl
    obtain ⟨hrise, hout, hin⟩ := ih hl (hF.rising s x hs)
    refine ⟨hrise, fun c hc => ?_, fun c hc => ?_⟩
    · obtain ⟨hcx, hcl⟩ : c ≠ x ∧ c ∉ l := by simpa using hc
      rw [List.foldl_cons, hout c hcl, hF.other s x c hs hcx]
    · by_cases hcx : c = x
      · subst hcx
        exact ⟨s, hs, rfl, hout c hx⟩
      · obtain ⟨u, hu, heq, hend⟩ := hin c ((List.mem_cons.1 hc).resolve_left hcx)
        exact ⟨u, hu, heq.trans (hF.other s x c hs hcx), hend⟩

/-- A change of the controller's record alone. -/
theorem ownCtl_setCtl (g : Hbm → Hbm) : OwnCtl fun s c => setCtl c (g (ctlOf s c)) s :=
  ⟨fun _ _ h => tput_rising _ _ h _, fun _ _ _ h hx => ctlOf_setCtl_ne h hx _⟩

/-- A change of every controller of a list. -/
theorem ctlOf_foldl_setCtl (g : Hbm → Hbm) {l : List Nat} (hl : l.Nodup) {s : State} (hs : Tbl.Rising s.hbm.ctl) (c : Nat) :
    ctlOf (l.foldl (fun s c => setCtl c (g (ctlOf s c)) s) s) c = if c ∈ l then g (ctlOf s c) else ctlOf s c := by
  obtain ⟨-, hout, hin⟩ := (ownCtl_setCtl g).foldl hl hs
  split
  · next hc =>
    obtain ⟨u, hu, heq, hend⟩ := hin c hc
    rw [hend, ctlOf_setCtl hu, heq]
  · next hc => exact hout c hc

/-! ## PATCTL (R265, R266, R271) -/

section
variable {s : State} {i : Fin 5} {v : BitVec 64} {c : Nat} (hc : c = tget 0 s.win.hbmSel i.val) (hi : i ≠ 0) (hlt : c < 24)
  (hdie : c / 6 + 1 = i.val)
include hc hi hlt hdie

theorem exec_patctl_of_selected : exec (.patctl i v) s =
    .next (if fld v 63 63 = 0 ∨ (ctlOf s c).patBusy then setCtl c { ctlOf s c with patctl := v.toNat % 2 ^ 63 / 1024 * 1024 } s
      else if patAllowed s { ctlOf s c with patctl := v.toNat % 2 ^ 63 / 1024 * 1024 } v then
        setCtl c { ctlOf s c with
          patctl := v.toNat % 2 ^ 63 / 1024 * 1024, patBusy := true, patRun := v.toNat % 2 ^ 63 / 1024 * 1024
          cmpRes := (ctlOf s c).cmpRes / 2 * 2 } s
      else setCtl c { ctlOf s c with
        patctl := v.toNat % 2 ^ 63 / 1024 * 1024, cmpRes := 0xFFFF * 2 ^ 12 + 1, cmpLane := 0 } s) := by
  have hival : i.val ≠ 0 := fun h => hi (Fin.ext h)
  show Host.Outcome.next (patWrite i.val v s) = _
  unfold patWrite
  rw [← hc]
  rw [if_neg (by omega)]

end

theorem patAllowed_patctl (s : State) (h : Hbm) (n : Nat) (v : BitVec 64) :
    patAllowed s { h with patctl := n } v = patAllowed s h v := rfl

theorem exec_patternOpDone_of_compare {s : State} {c : Fin 24} (r : BitVec 64) (l : BitVec 36)
    (hbusy : (ctlOf s c.val).patBusy = true) (hrun : bitsOf (ctlOf s c.val).patRun 59 58 ≠ 0) :
    exec (.patternOpDone c r l) s = .next (setCtl c.val { ctlOf s c.val with
      patBusy := false, cmpRes := r.toNat / 4096 * 4096 + 1, cmpLane := l.toNat } s) := by
  show execPatternOpDone c r l s = _
  unfold execPatternOpDone
  rw [if_neg (by simp [hbusy]), if_neg hrun]

/-! ## Retraining (R285 to R287, R289) -/

theorem wantsRetrain_of_drift {s : State} {h : Hbm} (hdrift : obj s 0x4010 2 < max h.temp h.trainTemp - min h.temp h.trainTemp) :
    wantsRetrain s h = true := by
  simp only [wantsRetrain, Bool.or_eq_true, decide_eq_true_eq]
  exact .inr hdrift

/-- A window that opens takes the serving controllers that want it (R286). -/
theorem retrainOpen_of_wanted {s : State} {c : Nat} (hs : Tbl.Rising s.hbm.ctl) (hc : c < 24) (hgroups : s.hbm.groups = 0)
    (hserves : hbmServes (ctlOf s c) = true) (hwants : wantsRetrain s (ctlOf s c) = true) :
    (ctlOf (retrainOpen false s) c).retraining = true ∧ (retrainOpen false s).hbm.groups = 16 := by
  have hmem : c ∈ (List.range 24).filter fun c => hbmServes (ctlOf s c) && (false || wantsRetrain s (ctlOf s c)) := by
    simp [hc, hserves, hwants]
  unfold retrainOpen
  simp only [Bool.false_eq_true, if_false, List.foldl_nil, hgroups, ne_eq, not_true_eq_false]
  rw [if_neg (by simpa using ⟨c, hc, hserves, hwants⟩)]
  refine ⟨?_, rfl⟩
  show (ctlOf (List.foldl _ s _) c).retraining = true
  rw [ctlOf_foldl_setCtl (fun h => { h with retraining := true, askRetrain := false }) (List.nodup_range.filter _) hs, if_pos hmem]

theorem ownCtl_retrainGroup (g : Nat) (bad : List Nat) : OwnCtl (retrainGroup g bad) := by
  refine ⟨fun s c h => ?_, fun s c x h hx => ?_⟩ <;> simp only [retrainGroup] <;> split
  · exact tput_rising _ _ h _
  · exact h
  · exact ctlOf_setCtl_ne h hx _
  · rfl

/-- A group changes neither whether a controller retrains nor its temperature. -/
theorem retrainGroup_own (g : Nat) (bad : List Nat) {s : State} (h : Tbl.Rising s.hbm.ctl) (c : Nat) :
    (ctlOf (retrainGroup g bad s c) c).retraining = (ctlOf s c).retraining ∧
      (ctlOf (retrainGroup g bad s c) c).temp = (ctlOf s c).temp := by
  simp only [retrainGroup]
  split
  · have hset : ctlOf (freeStep 1 (setCtl c { ctlOf s c with delays := tins (ctlOf s c).delays g (freeAt s 0) } s)) c = _ :=
      ctlOf_setCtl h c _
    rw [hset]
    exact ⟨rfl, rfl⟩
  · exact ⟨rfl, rfl⟩

/-- After the last group the controllers that retrained are trained at their temperature (R287). -/
def retrainEndOne (s : State) (c : Nat) : State :=
  if (ctlOf s c).retraining then setCtl c { ctlOf s c with retraining := false, trainTemp := (ctlOf s c).temp } s else s

theorem ownCtl_retrainEndOne : OwnCtl retrainEndOne := by
  refine ⟨fun s c h => ?_, fun s c x h hx => ?_⟩ <;> unfold retrainEndOne <;> split
  · exact tput_rising _ _ h _
  · exact h
  · exact ctlOf_setCtl_ne h hx _
  · rfl

theorem foldl_retrainEndOne_groups (l : List Nat) (s : State) : (l.foldl retrainEndOne s).hbm.groups = s.hbm.groups := by
  induction l generalizing s with
  | nil => rfl
  | cons c l ih =>
    refine (ih _).trans ?_
    unfold retrainEndOne
    split <;> rfl

/-- The state once the lanes without a setting are logged and the group has been done on every controller. -/
def groupDone (bad : List (Fin 24 × Nat)) (s : State) : State :=
  let u := bad.foldl (fun s b => logEvent 0x0F 0 (ctlLoc b.1.val) 0xFF 0xFF (min 7 b.2) 1 s) s
  (List.range 24).foldl (retrainGroup (15 - (u.hbm.groups - 1)) (bad.map (·.1.val))) u

/-- The number of groups that are left. -/
def setGroups (n : Nat) (s : State) : State := s.setHbm fun b => { b with groups := n }

theorem ctlOf_setGroups (n : Nat) (s : State) (c : Nat) : ctlOf (setGroups n s) c = ctlOf s c := rfl
theorem setGroups_groups (n : Nat) (s : State) : (setGroups n s).hbm.groups = n := rfl
theorem setGroups_ctl (n : Nat) (s : State) : (setGroups n s).hbm.ctl = s.hbm.ctl := rfl

theorem exec_retrainGroup {s : State} (bad : List (Fin 24 × Nat)) (hgroups : s.hbm.groups ≠ 0) (hwin : s.clk.winOpen = true) :
    exec (.retrainGroup bad) s = .next (if s.hbm.groups = 1 then
        (List.range 24).foldl retrainEndOne (setGroups (s.hbm.groups - 1) (groupDone bad s))
      else setGroups (s.hbm.groups - 1) (groupDone bad s)) := by
  have hlog : (bad.foldl (fun s b => logEvent 0x0F 0 (ctlLoc b.1.val) 0xFF 0xFF (min 7 b.2) 1 s) s).hbm = s.hbm :=
    (Keeps.foldl (P := 0x200186) (.refl _ _) fun _ _ h => (logEvent_keeps ..).step h).hbm rfl
  show execRetrainGroup bad s = _
  unfold execRetrainGroup groupDone
  rw [if_neg (by simp [hgroups, hwin])]
  simp only [hlog]
  by_cases h1 : s.hbm.groups = 1
  · rw [if_pos (by omega), if_pos h1]
    rfl
  · rw [if_neg (by omega), if_neg h1]
    rfl

theorem groupDone_ctl {s : State} (h : Inv s) (bad : List (Fin 24 × Nat)) {c : Nat} (hc : c < 24) :
    Tbl.Rising (groupDone bad s).hbm.ctl ∧ (ctlOf (groupDone bad s) c).retraining = (ctlOf s c).retraining ∧
      (ctlOf (groupDone bad s) c).temp = (ctlOf s c).temp := by
  unfold groupDone
  extract_lets u
  have hlog : u.hbm = s.hbm := (Keeps.foldl (P := 0x200186) (.refl _ _) fun _ _ h => (logEvent_keeps ..).step h).hbm rfl
  obtain ⟨hrise, -, hin⟩ := (ownCtl_retrainGroup (15 - (u.hbm.groups - 1)) (bad.map (·.1.val))).foldl List.nodup_range
    (s := u) (by rw [hlog]; exact h.ctl)
  obtain ⟨w, hw, heq, hend⟩ := hin c (List.mem_range.2 hc)
  obtain ⟨hre, htemp⟩ := retrainGroup_own (15 - (u.hbm.groups - 1)) (bad.map (·.1.val)) hw c
  refine ⟨hrise, ?_, ?_⟩
  · rw [hend, hre, heq, ctlOf_of_hbm hlog]
  · rw [hend, htemp, heq, ctlOf_of_hbm hlog]

theorem exec_retrainController {p : Prin} {s : State} (v : BitVec 8) (ha : answering s = true) (hp : mayTouch p 0x4010 1 = true) :
    exec (.retrainController p v) s = .next (writeRetrain v.toNat s).2 := by
  refine next_objCmd ha hp ?_
  unfold writeRetrain
  split
  · rfl
  · split <;> rfl

theorem writeRetrain_asks {s : State} (h : Tbl.Rising s.hbm.ctl) (v : Nat) {c : Nat} (hc : c < 24) :
    (ctlOf (writeRetrain v s).2 c).askRetrain = ((ctlOf s c).askRetrain || c == v || v == 255) := by
  unfold writeRetrain
  split
  · next hv =>
    by_cases hcv : c = v
    · subst hcv
      rw [ctlOf_setCtl h]
      simp
    · have h255 : v ≠ 255 := by omega
      rw [ctlOf_setCtl_ne h hcv]
      simp [beq_false_of_ne hcv, h255]
  · split
    · next hv =>
      show (ctlOf (List.foldl _ s _) c).askRetrain = _
      rw [ctlOf_foldl_setCtl (fun h => { h with askRetrain := true }) List.nodup_range h, if_pos (List.mem_range.2 hc)]
      simp [hv]
    · next hlow hne =>
      have hcv : c ≠ v := by omega
      simp [beq_false_of_ne hcv, hne]

/-- Settles O28: by the fields of the controllers that each command sets, controller by controller. -/
theorem controllersTrain : Obligations.ControllersTrain := by
  unfold Obligations.ControllersTrain
  refine ⟨fun s i v c hinv hc hi hlt hdie hbusy hstart => ?_, fun s i v c hinv hc hi hlt hdie hbusy => ?_,
    fun s c r l hinv hbusy hrun => ?_, fun s c n hinv => ?_,
    fun s c hinv hc hgroups hserves hdrift => retrainOpen_of_wanted hinv.ctl hc hgroups hserves (wantsRetrain_of_drift hdrift),
    fun s bad hinv hgroups hwin => ?_, fun s p v hinv ha hp => ?_⟩
  · refine ⟨_, exec_patctl_of_selected hc hi hlt hdie, ?_⟩
    rw [if_neg (by simp [hbusy, hstart]), patAllowed_patctl]
    cases hallowed : patAllowed s (ctlOf s c) v with
    | true =>
      rw [if_pos rfl, ctlOf_setCtl hinv.ctl]
      exact ⟨rfl, fun _ => ⟨rfl, Nat.mul_mod_left ..⟩, fun h => by simp at h⟩
    | false =>
      rw [if_neg Bool.false_ne_true, ctlOf_setCtl hinv.ctl]
      exact ⟨rfl, fun h => by simp at h, fun _ => ⟨hbusy, rfl⟩⟩
  · refine ⟨_, exec_patctl_of_selected hc hi hlt hdie, ?_⟩
    rw [if_pos (.inr hbusy), ctlOf_setCtl hinv.ctl]
  · refine ⟨_, exec_patternOpDone_of_compare r l hbusy hrun, ?_⟩
    rw [ctlOf_setCtl hinv.ctl]
    exact ⟨rfl, rfl, rfl⟩
  · refine ⟨_, rfl, ?_⟩
    rw [ctlOf_setCtl hinv.ctl]
    exact ⟨rfl, rfl⟩
  · refine ⟨_, exec_retrainGroup bad hgroups hwin, ?_⟩
    by_cases h1 : s.hbm.groups = 1
    · rw [if_pos h1]
      refine ⟨?_, fun _ c hc hre => ?_⟩
      · rw [foldl_retrainEndOne_groups, setGroups_groups]
        exact Nat.sub_add_cancel (by omega)
      · obtain ⟨hrise, hretr, htemp⟩ := groupDone_ctl hinv bad hc
        obtain ⟨-, -, hin⟩ := ownCtl_retrainEndOne.foldl List.nodup_range
          (s := setGroups (s.hbm.groups - 1) (groupDone bad s)) (by rw [setGroups_ctl]; exact hrise)
        obtain ⟨w, hw, heq, hend⟩ := hin c (List.mem_range.2 hc)
        rw [ctlOf_setGroups] at heq
        rw [hend, retrainEndOne, heq, if_pos (by rw [hretr, hre]), ctlOf_setCtl hw]
        dsimp only
        exact ⟨rfl, htemp⟩
    · rw [if_neg h1, setGroups_groups]
      exact ⟨Nat.sub_add_cancel (by omega), fun h => absurd h h1⟩
  · exact ⟨_, exec_retrainController v ha hp, fun c hc => writeRetrain_asks hinv.ctl _ hc⟩

end Sys2Proof.Machine
end

section
/-! PROOFS. Refresh, row disturbance, throttling and self-refresh (R272 to R281). -/

namespace Sys2Proof.Machine

/-! ## Refresh (R272 to R274) -/

/-- The state at the end of the bank's interval. -/
def refreshTime (c k : Nat) (s : State) : State :=
  if tget 0 (ctlOf s c).dueAt k = 0 then s else carryTo (tget 0 (ctlOf s c).dueAt k + refreshCycles (ctlOf s c)) s

theorem refreshTime_hbm (c k : Nat) (s : State) : (refreshTime c k s).hbm = s.hbm := by
  unfold refreshTime
  split
  · rfl
  · exact (carryTo_keeps ..).hbm rfl

theorem le_refreshTime {c k : Nat} {s : State} (h : tget 0 (ctlOf s c).dueAt k ≠ 0) :
    tget 0 (ctlOf s c).dueAt k + refreshCycles (ctlOf s c) ≤ (refreshTime c k s).time.cycle := by
  unfold refreshTime
  rw [if_neg h]
  exact le_carryTo_cycle ..

/-- The record of a controller whose bank's interval has ended. -/
def Hbm.dueNow (k cycle : Nat) (h : Hbm) : Hbm := { h with dueAt := tput 0 h.dueAt k cycle }

theorem exec_refreshDue_issued {s : State} {c : Fin 24} {pc bank : Fin 64} (hserves : hbmServes (ctlOf s c.val) = true) :
    exec (.refreshDue c pc bank true) s = .next (setCtl c.val
      (refreshBank (pc.val * 64 + bank.val) (tget 0 (ctlOf s c.val).postponed (pc.val * 64 + bank.val) + 1)
        ((ctlOf s c.val).dueNow (pc.val * 64 + bank.val) (refreshTime c.val (pc.val * 64 + bank.val) s).time.cycle))
      (refreshTime c.val (pc.val * 64 + bank.val) s)) := by
  show execRefreshDue c pc bank true s = _
  unfold execRefreshDue
  rw [if_neg (by simp [hserves])]
  rfl

theorem exec_refreshDue_postponed {s : State} {c : Fin 24} {pc bank : Fin 64} (hserves : hbmServes (ctlOf s c.val) = true)
    (hfew : tget 0 (ctlOf s c.val).postponed (pc.val * 64 + bank.val) < 8) :
    exec (.refreshDue c pc bank false) s = .next (setCtl c.val
      { (ctlOf s c.val).dueNow (pc.val * 64 + bank.val) (refreshTime c.val (pc.val * 64 + bank.val) s).time.cycle with
        postponed := (tput 0 (ctlOf s c.val).postponed (pc.val * 64 + bank.val)
          (tget 0 (ctlOf s c.val).postponed (pc.val * 64 + bank.val) + 1)) }
      (refreshTime c.val (pc.val * 64 + bank.val) s)) := by
  show execRefreshDue c pc bank false s = _
  unfold execRefreshDue
  rw [if_neg (by simp [hserves])]
  simp only [hfew, Bool.not_false, decide_true, Bool.and_self, if_true]
  rfl

/-- The refreshes of a bank have been issued: none is postponed, and a sweep that ends clears the bank's tracker (R273, R274). -/
theorem refreshBank_refreshes {h : Hbm} (k n : Nat) (hpost : Tbl.Rising h.postponed) (hswept : Tbl.Rising h.swept)
    (hrows : Tbl.Rising h.rows) : tget 0 (refreshBank k n h).postponed k = 0 ∧
      tget 0 (refreshBank k n h).swept k = (tget 0 h.swept k + n) % 2048 ∧
      (2048 ≤ tget 0 h.swept k + n → tget [] (refreshBank k n h).rows k = []) := by
  unfold refreshBank
  extract_lets m h'
  split
  · exact ⟨tget_tput _ _ _ hpost _, tget_tput _ _ _ hswept _, fun _ => tget_tput _ _ _ hrows _⟩
  · next hm => exact ⟨tget_tput _ _ _ hpost _, tget_tput _ _ _ hswept _, fun h => absurd h hm⟩

/-! ## Row disturbance (R275 to R277) -/

/-- A controller's record once a row's neighbours have been refreshed. -/
def Hbm.targetedAt (k row req : Nat) (h : Hbm) : Hbm :=
  { h with
    rows := tmod [] h.rows k fun l => l.map fun x => if x.row = row then { x with count := 0 } else x
    credits := if tget 0 h.credits req ≠ 0 ∨ h.credits.length < 8 then tmod 0 h.credits req (· + 1) else h.credits
    targeted := (k, rowsBeside row) }

theorem exec_targetedRefresh {s : State} {c : Fin 24} {pc bank : Fin 64} {row : Fin 16384} {tag source : BitVec 8} {e : RowCount}
    (hserves : hbmServes (ctlOf s c.val) = true)
    (hfind : (tget [] (ctlOf s c.val).rows (pc.val * 64 + bank.val)).find?
      (fun e => e.row == row.val && decide (obj s 0x4020 1 ≤ e.count)) = some e) :
    exec (.targetedRefresh c pc bank row tag source) s = .next (bumpObj 0x4020 5 1 64 (setCtl c.val
      ((ctlOf s c.val).targetedAt (pc.val * 64 + bank.val) row.val (rowBlame e (tag.toNat * 256 + source.toNat))) s)) := by
  show execTargetedRefresh c pc bank row tag source s = _
  unfold execTargetedRefresh
  simp only [hfind]
  rw [if_neg (by simp [hserves])]
  rfl

theorem ctlOf_bumpObj (i j n w : Nat) (s : State) (c : Nat) : ctlOf (bumpObj i j n w s) c = ctlOf s c :=
  ctlOf_of_hbm ((bumpObj_keeps ..).hbm rfl) c

theorem obj_setCtl (i j c : Nat) (h : Hbm) (s : State) : obj (setCtl c h s) i j = obj s i j := rfl

/-! ## Throttling (R277, R278) -/

theorem setCtl_hbm_of {s t : State} (h : t.hbm = s.hbm) (c : Nat) (v : Hbm) : (setCtl c v t).hbm = (setCtl c v s).hbm := by
  simp only [setCtl, State.setHbm, h]

/-- What one throttled requester leaves of the controllers, whatever state `u` its log entry leaves. -/
theorem throttled_hbm {s u : State} (hu : u.hbm = s.hbm) (c r n t : Nat) :
    (tenantCount t 0x0B 1 (setCtl c { ctlOf u c with throttled := tput 0 (ctlOf u c).throttled r n } u)).hbm =
      (setCtl c { ctlOf s c with throttled := tput 0 (ctlOf s c).throttled r n } s).hbm := by
  rw [(tenantCount_keeps ..).hbm rfl, setCtl_hbm_of hu, ctlOf_of_hbm hu]

theorem throttleOne_hbm (c : Nat) (s : State) (r : Nat) :
    ∃ n, (throttleOne c s r).hbm = (setCtl c { ctlOf s c with throttled := tput 0 (ctlOf s c).throttled r n } s).hbm := by
  have hu : (logEvent 0x0D 0 (ctlLoc c) (r / 256) (r % 256) 0 1 (bumpObj 0x4020 6 1 32 s)).hbm = s.hbm :=
    ((logEvent_keeps ..).hbm rfl).trans ((bumpObj_keeps ..).hbm rfl)
  exact ⟨_, throttled_hbm hu c r _ _⟩

theorem foldl_throttleOne (c : Nat) (l : List Nat) (s : State) (h : Tbl.Rising s.hbm.ctl) :
    Tbl.Rising (l.foldl (throttleOne c) s).hbm.ctl ∧
      (∀ x, x ≠ c → ctlOf (l.foldl (throttleOne c) s) x = ctlOf s x) ∧
      (ctlOf (l.foldl (throttleOne c) s) c).credits = (ctlOf s c).credits := by
  induction l generalizing s with
  | nil => exact ⟨h, fun _ _ => rfl, rfl⟩
  | cons r l ih =>
    obtain ⟨n, hhbm⟩ := throttleOne_hbm c s r
    obtain ⟨hrise, hother, hcredits⟩ := ih (throttleOne c s r) (by rw [hhbm]; exact tput_rising _ _ h _)
    refine ⟨hrise, fun x hx => ?_, ?_⟩
    · rw [List.foldl_cons, hother x hx, ctlOf_of_hbm hhbm, ctlOf_setCtl_ne h hx]
    · rw [List.foldl_cons, hcredits, ctlOf_of_hbm hhbm, ctlOf_setCtl h]

theorem ownCtl_throttleCtl : OwnCtl throttleCtl := by
  refine ⟨fun s c h => ?_, fun s c x h hx => ?_⟩ <;> unfold throttleCtl <;> extract_lets k above left
  · exact (foldl_throttleOne c above (setCtl c { k with credits := [], throttled := left } s) (tput_rising _ _ h _)).1
  · rw [(foldl_throttleOne c above (setCtl c { k with credits := [], throttled := left } s) (tput_rising _ _ h _)).2.1 x hx,
      ctlOf_setCtl_ne h hx]

/-- At the end of an interval a controller's credits are gone (R277). -/
theorem throttleCtl_credits {s : State} (h : Tbl.Rising s.hbm.ctl) (c : Nat) : (ctlOf (throttleCtl s c) c).credits = [] := by
  unfold throttleCtl
  extract_lets k above left
  obtain ⟨-, -, hcredits⟩ := foldl_throttleOne c above (setCtl c { k with credits := [], throttled := left } s) (tput_rising _ _ h _)
  rw [hcredits, ctlOf_setCtl h]

theorem exec_throttleIntervalEnd (s : State) : exec .throttleIntervalEnd s =
    .next ((List.range 24).foldl throttleCtl (carryTo ((s.time.cycle / 2000000 + 1) * 2000000) s)) := rfl

/-! ## Self-refresh (R279 to R281) -/

theorem exec_selfRefreshEntry {s : State} {c : Fin 24} (hus : obj s 0x4030 1 ≠ 0) (hserves : hbmServes (ctlOf s c.val) = true)
    (hre : (ctlOf s c.val).retraining = false) : exec (.selfRefreshEntry c) s =
      .next (bumpObj 0x4030 3 1 32 (setCtl c.val { ctlOf s c.val with selfRefresh := true }
        (carryTo ((ctlOf s c.val).lastUse + usCycles (obj s 0x4030 1)) s))) := by
  show execSelfRefreshEntry c s = _
  unfold execSelfRefreshEntry
  rw [if_neg (by simp [hus, hserves, hre])]

theorem exec_selfRefreshExit {s : State} {c : Fin 24} (h : (ctlOf s c.val).selfRefresh = true) :
    exec (.selfRefreshExit c) s = .next (setCtl c.val { ctlOf s c.val with
      lastUse := s.time.cycle, selfRefresh := false, rows := [] } s) := by
  refine (if_pos h).trans (congrArg _ ?_)
  unfold wakeCtl
  extract_lets v w
  have hw : w = { ctlOf s c.val with lastUse := s.time.cycle, selfRefresh := false, rows := [] } := by
    simp only [w]
    rw [if_pos (by exact h)]
    rfl
  rw [hw]
  rfl

/-- Settles O29: by the record of the bank, the row or the controller that each command sets. -/
theorem controllersRefresh : Obligations.ControllersRefresh := by
  unfold Obligations.ControllersRefresh
  refine ⟨fun s c pc bank hinv hserves hpost hswept hrows => ?_, fun s c pc bank hinv hserves hpost hfew => ?_,
    fun s c pc bank row tag source e hinv hserves hrows hcredits hfind => ?_, fun s hinv => ?_,
    fun s c hinv hus hserves hre => ?_, fun s c hinv hself => ?_⟩
  · have hrise : Tbl.Rising (refreshTime c.val (pc.val * 64 + bank.val) s).hbm.ctl := by rw [refreshTime_hbm]; exact hinv.ctl
    refine ⟨_, exec_refreshDue_issued hserves, ?_⟩
    rw [ctlOf_setCtl hrise]
    obtain ⟨hnone, hsweep, hclear⟩ := refreshBank_refreshes (h := (ctlOf s c.val).dueNow (pc.val * 64 + bank.val)
        (refreshTime c.val (pc.val * 64 + bank.val) s).time.cycle)
      (pc.val * 64 + bank.val) (tget 0 (ctlOf s c.val).postponed (pc.val * 64 + bank.val) + 1) hpost hswept hrows
    exact ⟨hnone, fun hdue => le_refreshTime hdue, hclear, hsweep⟩
  · have hrise : Tbl.Rising (refreshTime c.val (pc.val * 64 + bank.val) s).hbm.ctl := by rw [refreshTime_hbm]; exact hinv.ctl
    refine ⟨_, exec_refreshDue_postponed hserves hfew, ?_⟩
    rw [ctlOf_setCtl hrise]
    exact ⟨tget_tput _ _ _ hpost _, rfl⟩
  · refine ⟨_, exec_targetedRefresh hserves hfind, ?_, ?_⟩
    · rw [obj_bumpObj_same, obj_setCtl]
    · rw [ctlOf_bumpObj, ctlOf_setCtl hinv.ctl]
      refine ⟨rfl, fun x hx hrow => ?_, fun hlen => ?_⟩
      · rw [Hbm.targetedAt, tget_tmod _ _ hrows] at hx
        obtain ⟨y, -, rfl⟩ := List.mem_map.1 hx
        by_cases hy : y.row = row.val
        · simp [hy]
        · simp [hy] at hrow
      · show tget 0 (if _ then _ else _) _ = _
        rw [if_pos (.inr hlen), tget_tmod _ _ hcredits]
  · have hctl : Tbl.Rising (carryTo ((s.time.cycle / 2000000 + 1) * 2000000) s).hbm.ctl := by
      rw [(carryTo_keeps ((s.time.cycle / 2000000 + 1) * 2000000) s).hbm rfl]
      exact hinv.ctl
    refine ⟨_, exec_throttleIntervalEnd s, ?_, fun c hc => ?_⟩
    · rw [(Keeps.foldl (P := 0x200386) (.refl _ _) fun _ _ h => (throttleCtl_keeps ..).step h).time rfl, carryTo_cycle]
      omega
    · obtain ⟨-, -, hin⟩ := ownCtl_throttleCtl.foldl List.nodup_range hctl
      obtain ⟨w, hw, -, hend⟩ := hin c (List.mem_range.2 hc)
      rw [hend, throttleCtl_credits hw]
  · have hctl : Tbl.Rising (carryTo ((ctlOf s c.val).lastUse + usCycles (obj s 0x4030 1)) s).hbm.ctl := by
      rw [(carryTo_keeps ((ctlOf s c.val).lastUse + usCycles (obj s 0x4030 1)) s).hbm rfl]
      exact hinv.ctl
    refine ⟨_, exec_selfRefreshEntry hus hserves hre, ?_, ?_, ?_⟩
    · rw [ctlOf_bumpObj, ctlOf_setCtl hctl]
    · rw [obj_bumpObj_same, obj_setCtl, obj_of_dict ((carryTo_keeps ..).dict rfl)]
    · rw [(bumpObj_keeps ..).time rfl]
      exact le_carryTo_cycle ..
  · refine ⟨_, exec_selfRefreshExit hself, ?_⟩
    rw [ctlOf_setCtl hinv.ctl]
    exact ⟨rfl, rfl⟩

end Sys2Proof.Machine
end

section
/-! PROOFS. Scrub, the log's read index, retirement and MAC regions (R295, R296, R301 to R303, R309, R311). -/

namespace Sys2Proof.Machine

/-! ## Lines -/

theorem lineBase_of_led {s t : State} (h : t.led = s.led) (line : Nat) : lineBase t line = lineBase s line := by
  simp only [lineBase, extOf_of_led h]

theorem lineOf_setLine {s : State} (h : Tbl.Rising s.mem.lines) (line : Nat) (v : Line) : lineOf (setLine line v s) line = v :=
  tget_tput _ _ _ h _

theorem curEpoch_of_mint {s t : State} (h : t.mint = s.mint) (tag : Nat) : curEpoch t tag = curEpoch s tag := by
  simp only [curEpoch, keysOf_of_mint h]

/-- What a line holds once it has been poisoned (R303). -/
def poisoned (s : State) (line : Nat) : Line :=
  { tag := (extOf s (line / 2 ^ 24)).owner, epoch := curEpoch s (extOf s (line / 2 ^ 24)).owner
    poison := true, hint := 0, cond := .clean }

theorem poisoned_of_same {s t : State} (hled : t.led = s.led) (hmint : t.mint = s.mint) (line : Nat) :
    poisoned t line = poisoned s line := by
  simp only [poisoned, extOf_of_led hled, curEpoch_of_mint hmint]

/-- A line of the sector no longer fails its MAC (R303). -/
def healMac (line : Nat) (s : State) (i : Nat) : State :=
  if (lineOf s (line / 4 * 4 + i)).cond = .mac then
    setLine (line / 4 * 4 + i) { lineOf s (line / 4 * 4 + i) with cond := .clean } s
  else s

theorem foldl_healMac (line : Nat) (l : List Nat) {s : State} (h : Tbl.Rising s.mem.lines) :
    Tbl.Rising (l.foldl (healMac line) s).mem.lines ∧ (l.foldl (healMac line) s).led = s.led ∧
      (l.foldl (healMac line) s).mint = s.mint := by
  induction l generalizing s with
  | nil => exact ⟨h, rfl, rfl⟩
  | cons i l ih =>
    rw [List.foldl_cons]
    unfold healMac
    split
    · exact ih (tput_rising _ _ h _)
    · exact ih h

/-- The line's bytes are 0. -/
def zeroLine (line : Nat) (s : State) : State :=
  s.setMem fun m => { m with bytes := mzero m.bytes (line * 64) (line * 64 + 64) }

theorem poisonLine_eq (line : Nat) (s : State) : poisonLine line s =
    setLine line { tag := (extOf s (line / 2 ^ 24)).owner
                   epoch := curEpoch ((List.range 4).foldl (healMac line) (zeroLine line s)) (extOf s (line / 2 ^ 24)).owner
                   poison := true, hint := 0, cond := .clean } ((List.range 4).foldl (healMac line) (zeroLine line s)) := rfl

theorem lineOf_poisonLine {s : State} (h : Inv s) (line : Nat) : lineOf (poisonLine line s) line = poisoned s line := by
  obtain ⟨hrise, -, hmint⟩ := foldl_healMac line (List.range 4) (s := zeroLine line s) h.mem.lines
  rw [poisonLine_eq, lineOf_setLine hrise, curEpoch_of_mint (s := s) hmint]
  rfl

/-- An uncorrectable finding stays with the line. -/
def foundLine (line n : Nat) (s : State) : State := setLine line { lineOf s line with cond := .uncorrectable n } s

/-- An uncorrectable line is poisoned (R303). -/
theorem lineOf_scrubLine_uncorrectable {s : State} (h : Inv s) (line n : Nat) :
    lineOf (scrubLine line (.uncorrectable n) s) line = poisoned s line := by
  have hmeet : meet (line * 64) (.uncorrectable n) s = foundLine line n s := by
    unfold meet
    rw [if_neg (by simp), Nat.mul_div_cancel _ (by decide)]
    rfl
  unfold scrubLine
  rw [if_neg (by simp), hmeet]
  extract_lets u v q
  have hv : v.cond = .uncorrectable n := congrArg Line.cond (lineOf_setLine h.mem.lines _ _)
  have hkeep : Keeps 0x200186 s (noteLine 0x41 u line v) :=
    (noteLine_keeps ..).step ((setLine_keeps ..).mono rfl)
  simp only [hv]
  rw [lineOf_poisonLine (hkeep.inv h), poisoned_of_same (hkeep.led rfl) (hkeep.mint rfl)]

/-! ## The pass of a controller (R301) -/

/-- The state in which the next line of a controller's pass is due. -/
def patrolDue (c : Nat) (s : State) : State :=
  if s.clk.winOpen && !sweeps s then s
  else carryTo (passBegan s c + ceilDiv ((tget 0 s.mem.patrol c + 1) * passCycles s) patrolLines) s

theorem patrolDue_keeps (c : Nat) (s : State) : Keeps 0x91 s (patrolDue c s) := by
  unfold patrolDue
  split
  · exact .refl _ _
  · exact carryTo_keeps ..

/-- A controller's place in its pass. -/
def setPatrol (c n : Nat) (s : State) : State := s.setMem fun m => { m with patrol := tput 0 m.patrol c n }

theorem exec_patrolScrubRead {s : State} {c : Fin 24} (f : Finding) (hscrubs : scrubs s c.val = true)
    (hq : tget [] s.mem.scrubQ c.val = []) (hmore : tget 0 s.mem.patrol c.val + 1 < patrolLines) :
    exec (.patrolScrubRead c f) s = .next (setPatrol c.val (tget 0 s.mem.patrol c.val + 1)
      (scrubLine (patrolLine c.val (tget 0 s.mem.patrol c.val)) f (patrolDue c.val s))) := by
  show execPatrolScrubRead c f s = _
  unfold execPatrolScrubRead
  rw [if_pos (by simp [hscrubs, hq])]
  exact if_pos hmore

theorem lineOf_setPatrol (c n : Nat) (s : State) (line : Nat) : lineOf (setPatrol c n s) line = lineOf s line := rfl

theorem setPatrol_patrol {s : State} (h : Tbl.Rising s.mem.patrol) (c n : Nat) : tget 0 (setPatrol c n s).mem.patrol c = n :=
  tget_tput _ _ _ h _

theorem exec_immediateScrub {s : State} {c : Fin 24} (f : Finding) {x : Nat} {l : List Nat} (hq : tget [] s.mem.scrubQ c.val = x :: l)
    (hscrubs : scrubs s c.val = true) :
    exec (.immediateScrub c f) s = .next (scrubLine x f (s.setMem fun m => { m with scrubQ := tput [] m.scrubQ c.val l })) := by
  show execImmediateScrub c f s = _
  unfold execImmediateScrub
  simp only [hq, hscrubs, if_true]

/-! ## The log, retirement and MAC regions -/

theorem writeLogIndex_of_within {s : State} {v : BitVec 32} (h : (s.mem.logWr + 2 ^ 32 - v.toNat) % 2 ^ 32 ≤ 4096)
    (hgap : s.mem.logGap = 0) : writeLogIndex v.toNat s = (0, s.setMem fun m => { m with logRd := v.toNat }) := by
  have hv : v.toNat % 2 ^ 32 = v.toNat := Nat.mod_eq_of_lt v.isLt
  unfold writeLogIndex
  rw [hv, if_neg (by omega)]
  exact if_neg fun h => h.1 hgap

theorem writeLogIndex_of_beyond {s : State} {v : BitVec 32} (h : 4096 < (s.mem.logWr + 2 ^ 32 - v.toNat) % 2 ^ 32) :
    writeLogIndex v.toNat s = (abValue, s) := by
  have hv : v.toNat % 2 ^ 32 = v.toNat := Nat.mod_eq_of_lt v.isLt
  unfold writeLogIndex
  rw [hv, if_pos h]

theorem retireGranule_of_new {s : State} {v : Nat} (hv : v < 402653184) (hnew : v ∉ s.mem.retired) (hroom : s.mem.retired.length < 65536) :
    retireGranule v s = (0, s.setMem fun m => { m with retired := m.retired ++ [v] }) := by
  unfold retireGranule
  rw [if_neg (by omega), if_neg (by simpa using hnew), if_neg (by omega)]

theorem retireBank_of_new {s : State} {v : Nat} (hv : bankCodeOk v = true) (hnew : v ∉ s.mem.retiredBanks)
    (hroom : s.mem.retiredBanks.length < 64) :
    retireBank v s = (0, s.setMem fun m => { m with retiredBanks := m.retiredBanks ++ [v] }) := by
  unfold retireBank
  rw [if_neg (by simp [hv]), if_neg (by simpa using hnew), if_neg (by omega)]

theorem placeMacRegion_of_fits {s : State} {sub v tier b n : Nat} (hlow : 1 ≤ sub) (hhigh : sub ≤ 6) (htier : tier = (sub + 1) / 2)
    (hused : macUsed s tier = []) (hplace : (b, n) = if sub % 2 = 1 then (v, (macRegion s tier).2) else ((macRegion s tier).1, v))
    (hfits : macFits (macMark tier (macRegion s tier).1 (macRegion s tier).2 false s) tier b n = true) :
    placeMacRegion sub v s =
      (0, writeObj 0x4041 sub v (macMark tier b n true (macMark tier (macRegion s tier).1 (macRegion s tier).2 false s))) := by
  subst htier
  unfold placeMacRegion
  rw [if_neg (by omega)]
  simp only [hused, ← hplace, hfits, List.isEmpty_nil, Bool.not_true, Bool.false_eq_true, if_false, if_true]

/-- Settles O30: by what the scrubber makes of a line, and by the checks of the log's index, the retirement lists and the regions. -/
theorem memoryIsScrubbedAndRetired : Obligations.MemoryIsScrubbedAndRetired := by
  unfold Obligations.MemoryIsScrubbedAndRetired
  refine ⟨fun s c f hinv hscrubs hq hmore _ => ?_, fun s c n hinv hscrubs hq hmore _ => ?_,
    fun s c f x l hq hscrubs => exec_immediateScrub f hq hscrubs, fun s v ha h hgap => ?_, fun s v ha h => ?_,
    fun s v ha hv hnew hroom => next_commanded ha (retireGranule_of_new hv hnew hroom),
    fun s v ha hv hnew hroom => next_commanded ha (retireBank_of_new hv hnew hroom),
    fun s sub v tier b n ha hlow hhigh htier hused hplace hfits => ?_⟩
  · have hkeep : Keeps 0x1200197 s (scrubLine (patrolLine c.val (tget 0 s.mem.patrol c.val)) f (patrolDue c.val s)) :=
      (scrubLine_keeps ..).step ((patrolDue_keeps ..).mono (by decide))
    exact ⟨_, exec_patrolScrubRead f hscrubs hq hmore, setPatrol_patrol (hkeep.inv hinv).mem.patrol ..⟩
  · refine ⟨_, exec_patrolScrubRead _ hscrubs hq hmore, ?_⟩
    rw [lineOf_setPatrol, lineOf_scrubLine_uncorrectable ((patrolDue_keeps ..).inv hinv),
      poisoned_of_same ((patrolDue_keeps ..).led rfl) ((patrolDue_keeps ..).mint rfl)]
    rfl
  · exact ⟨_, next_commanded ha (writeLogIndex_of_within h hgap), rfl⟩
  · refine ⟨bumpObj 0x1022 1 1 32 s, congrArg Host.Outcome.next ?_, (bumpObj_keeps ..).mem rfl, obj_bumpObj_same ..⟩
    rw [commanded, if_pos ha, writeLogIndex_of_beyond h, written_refused (by decide)]
  · exact ⟨_, next_commanded ha (placeMacRegion_of_fits hlow hhigh htier hused hplace hfits), obj_writeObj_same ..⟩

end Sys2Proof.Machine
end

section
/-! PROOFS. What the scheduler's look, an interrupt and a completion entry leave of the queue pairs (R162, R163, R390, R403). -/

namespace Sys2Proof.Machine

/-! ## Starvation and interrupts -/

/-- The pair but for what says that it is starved and what counts toward its interrupt. -/
def Qp.Like (a b : Qp) : Prop :=
  b = { a with starved := b.starved, starvedAt := b.starvedAt, irqCount := b.irqCount, irqAt := b.irqAt }

theorem Qp.Like.refl (a : Qp) : a.Like a := rfl

theorem Qp.Like.trans {a b c : Qp} (h : a.Like b) (h' : b.Like c) : a.Like c := by
  unfold Qp.Like at *
  rw [h'] at *
  rw [h]

/-- Every pair is as it was, but for starvation and the counts toward interrupts. -/
def QpsLike (s t : State) : Prop := ∀ q, (qpOf s q).Like (qpOf t q)

theorem QpsLike.refl (s : State) : QpsLike s s := fun _ => rfl

theorem QpsLike.trans {s t u : State} (h : QpsLike s t) (h' : QpsLike t u) : QpsLike s u := fun q => (h q).trans (h' q)

theorem QpsLike.of_qps {s t : State} (h : t.led.qps = s.led.qps) : QpsLike s t := fun q => by
  have hq : qpOf t q = qpOf s q := by simp only [qpOf, h]
  rw [hq]
  exact .refl _

theorem QpsLike.of_led {s t : State} (h : t.led = s.led) : QpsLike s t := .of_qps (congrArg Ledger.qps h)

theorem qpsLike_setQp {s : State} (hs : Tbl.Rising s.led.qps) {q : Nat} {v : Qp} (hv : (qpOf s q).Like v) : QpsLike s (setQp q v s) := by
  intro x
  by_cases hx : x = q
  · rw [hx, qpOf_setQp hs]
    exact hv
  · rw [qpOf_setQp_ne hs hx]
    exact .refl _

theorem setQp_rising {s : State} (hs : Tbl.Rising s.led.qps) (q : Nat) (v : Qp) : Tbl.Rising (setQp q v s).led.qps := tput_rising _ _ hs _

theorem markStarved1_like {s : State} (hs : Tbl.Rising s.led.qps) (q : Nat) :
    QpsLike s (markStarved1 s q) ∧ Tbl.Rising (markStarved1 s q).led.qps := by
  unfold markStarved1
  extract_lets p
  split
  · split
    · exact ⟨.refl s, hs⟩
    · exact ⟨qpsLike_setQp hs rfl, setQp_rising hs ..⟩
  · split
    · exact ⟨qpsLike_setQp hs rfl, setQp_rising hs ..⟩
    · exact ⟨.refl s, hs⟩

theorem foldl_markStarved1_like (l : List Nat) {s : State} (hs : Tbl.Rising s.led.qps) :
    QpsLike s (l.foldl markStarved1 s) ∧ Tbl.Rising (l.foldl markStarved1 s).led.qps := by
  induction l generalizing s with
  | nil => exact ⟨.refl s, hs⟩
  | cons q l ih =>
    obtain ⟨hlike, hrise⟩ := markStarved1_like hs q
    obtain ⟨hlike', hrise'⟩ := ih hrise
    exact ⟨hlike.trans hlike', hrise'⟩

theorem markStarved_like {s : State} (hs : Tbl.Rising s.led.qps) : QpsLike s (markStarved s) := (foldl_markStarved1_like _ hs).1

theorem markStarved_rising {s : State} (hs : Tbl.Rising s.led.qps) : Tbl.Rising (markStarved s).led.qps :=
  (foldl_markStarved1_like _ hs).2

/-- The message with which a pair's interrupt reaches its partner changes no pair. -/
theorem raiseIrq_led (q : Nat) (s : State) :
    (raiseIrq q s).led = (setQp q { qpOf s q with irqCount := 0, irqAt := none } s).led := by
  unfold raiseIrq
  extract_lets p u
  split
  · exact (sendBypass_keeps ..).led rfl
  · split
    · exact (emit_keeps ..).led rfl
    · rfl
  · exact (emit_keeps ..).led rfl
  · rfl

theorem raiseIrq_like {s : State} (hs : Tbl.Rising s.led.qps) (q : Nat) :
    QpsLike s (raiseIrq q s) ∧ Tbl.Rising (raiseIrq q s).led.qps := by
  have hled := raiseIrq_led q s
  exact ⟨(qpsLike_setQp hs (v := { qpOf s q with irqCount := 0, irqAt := none }) rfl).trans (.of_led hled),
    by rw [hled]; exact setQp_rising hs ..⟩

theorem countIrq_like {s : State} (hs : Tbl.Rising s.led.qps) (q : Nat) :
    QpsLike s (countIrq q s) ∧ Tbl.Rising (countIrq q s).led.qps := by
  unfold countIrq
  extract_lets p n
  split
  · exact ⟨.refl s, hs⟩
  · split
    · exact raiseIrq_like hs q
    · exact ⟨qpsLike_setQp hs rfl, setQp_rising hs ..⟩

/-! ## The completion entry (R162, R163) -/

/-- Result fields that an entry of a flight carries: an APPEND that fails reports its context's length (R163). -/
def entryResult (s : State) (f : Flight) (code r1 r2 : Nat) : Nat × Nat :=
  let op := dOpcode f.desc
  let cc := finalCode f code
  let keep := keepResults op cc || (op == 2)
  let r := if op == 2 && !keepResults op cc then lengthSeen s f else r1
  (if keep then r else 0, if keep && (op != 2 || cc == 0 || cc == ccDeferred) then r2 else 0)

/-- The entry that answers a flight. -/
def entryWord (s : State) (f : Flight) (code detail r1 r2 : Nat) : BitVec 128 :=
  cqWord (entryResult s f code r1 r2).1 (entryResult s f code r1 r2).2 (qpOf s f.qp).rd (dTag f.desc) detail (finalCode f code)
    (dOpcode f.desc) (cqPhase f.slot (cqSize (qpOf s f.qp)))

/-- The pair with the entry written into the slot reserved for it (R647). -/
def Qp.entered (f : Flight) (w : BitVec 128) (p : Qp) : Qp :=
  { p with cq := tins p.cq (f.slot % cqSize p) w, done := p.done ++ [f.slot] }

/-- What a flight's end leaves. -/
structure Ended (id : Nat) (s t : State) : Prop where
  cores : t.attn.cores = s.attn.cores
  flights : t.attn.flights = s.attn.flights.filter fun g => g.id != id
  nextId : t.attn.nextId = s.attn.nextId

theorem Ended.of_attn {id : Nat} {s t u : State} (h : Ended id s t) (ht : u.attn = t.attn) : Ended id s u :=
  ⟨by rw [ht, h.cores], by rw [ht, h.flights], by rw [ht, h.nextId]⟩

theorem holdEnd_qp (now : Nat) (f : Flight) : (holdEnd now f).qp = f.qp := by
  unfold holdEnd
  split <;> rfl

theorem holdEnd_desc (now : Nat) (f : Flight) : (holdEnd now f).desc = f.desc := by
  unfold holdEnd
  split <;> rfl

theorem holdEnd_eq (now : Nat) (f : Flight) : holdEnd now f = { f with heldAt := none, heldFor := (holdEnd now f).heldFor } := by
  unfold holdEnd
  split
  · next h => rw [← h]
  · rfl

/-- A hold that ends leaves a flight's entry as it is. -/
theorem entryWord_holdEnd (s : State) (f : Flight) (now code detail r1 r2 : Nat) :
    entryWord s (holdEnd now f) code detail r1 r2 = entryWord s f code detail r1 r2 := by
  rw [holdEnd_eq]
  rfl

theorem entered_holdEnd (p : Qp) (w : BitVec 128) (f : Flight) (now : Nat) : p.entered (holdEnd now f) w = p.entered f w := by
  rw [holdEnd_eq]
  rfl

/-- The state in which a flight's entry is written: what it had drawn ahead has gone back, and its toll holds it no longer. -/
def entryState (id : Nat) (f : Flight) (s : State) : State :=
  if f.stage = .tolled then tollLeave id (givePrep f s) else givePrep f s

theorem entryState_keeps (id : Nat) (f : Flight) (s : State) : Keeps 0x2800 s (entryState id f s) := by
  unfold entryState
  split
  · exact (tollLeave_keeps ..).step ((givePrep_keeps ..).mono rfl)
  · exact (givePrep_keeps ..).mono rfl

/-- Frames that go back change the slabs alone (R177). -/
theorem givePrep_kv (f : Flight) (s : State) : (givePrep f s).kv = { s.kv with slabs := (givePrep f s).kv.slabs } := by
  unfold givePrep
  generalize f.prep = l
  induction l generalizing s with
  | nil => rfl
  | cons q l ih =>
    rw [List.foldl_cons, ih]
    rfl

theorem entryState_kv (id : Nat) (f : Flight) (s : State) :
    (entryState id f s).kv = { s.kv with slabs := (entryState id f s).kv.slabs } := by
  unfold entryState
  split
  · have h : (tollLeave id (givePrep f s)).kv = (givePrep f s).kv := (tollLeave_keeps ..).kv rfl
    rw [h]
    exact givePrep_kv f s
  · exact givePrep_kv f s

theorem entryWord_of_same {s t : State} (hled : t.led = s.led) (hctxs : t.kv.ctxs = s.kv.ctxs) (f : Flight) (code detail r1 r2 : Nat) :
    entryWord t f code detail r1 r2 = entryWord s f code detail r1 r2 := by
  have hctx : ∀ c, ctxOf t c = ctxOf s c := fun c => by simp only [ctxOf, hctxs]
  simp only [entryWord, entryResult, lengthSeen, hctx, qpOf_of_led hled]

/-- What follows the entry changes no pair but for starvation and interrupts, and nothing of the flights. -/
theorem complete_shape {s : State} {id : Nat} {f : Flight} (code detail r1 r2 : Nat) (hf : flightOf s id = some f)
    (hdown : steppedDown s = false) (hqp : f.qp < 1024) :
    ∃ v, complete id code detail r1 r2 s = markStarved (if dIrq f.desc then countIrq f.qp v else v) ∧
      v.led.qps = (setQp f.qp ((qpOf s f.qp).entered f (entryWord s f code detail r1 r2)) s).led.qps ∧
      v.kv = { s.kv with slabs := (entryState id f s).kv.slabs } ∧ Ended id s v := by
  have hprep : steppedDown (givePrep f s) = false := by
    rw [steppedDown, (givePrep_keeps f s).span rfl]
    exact hdown
  unfold complete
  split
  · next hnone => rw [hf] at hnone; cases hnone
  · next g hg =>
    obtain rfl := Option.some.inj (hf.symm.trans hg)
    extract_lets x u h p op cc keep r w e0 e1 e2 e3 e4 e5 e6 e7 e8 msg e9 kv
    rw [if_neg (by simp [x, hprep]), if_neg (by omega)]
    have hu : u = entryState id f s := rfl
    have hled : u.led = s.led := (entryState_keeps id f s).led rfl
    have hattn : u.attn = s.attn := (entryState_keeps id f s).attn rfl
    have hp : p = qpOf s f.qp := by
      rw [← qpOf_of_led hled]
      exact congrArg (qpOf u) (holdEnd_qp ..)
    have hw : w = entryWord s f code detail r1 r2 := by
      rw [← entryWord_of_same hled (congrArg Kv.ctxs (entryState_kv id f s) :), ← entryWord_holdEnd u f u.time.cycle]
      rfl
    have h15 : Keeps 0x100082 e1 e5 := by
      refine (bucketAdd_keeps ..).step ((State.setTal_keeps e3 _ fun h => ⟨h.fifo0, h.fifo1⟩).step ?_)
      unfold e3
      split
      · exact (bumpObj_keeps ..).step ((bumpObj_keeps ..).mono rfl)
      · exact (bumpObj_keeps ..).mono rfl
    have h69 : Keeps 0x220080 e6 e9 := by
      have h68 : Keeps 0x80 e6 e8 := by
        unfold e8
        split
        · exact (traceTriggerSeen_keeps ..).step (traceEvent_keeps ..)
        · exact traceEvent_keeps ..
      unfold e9
      split
      · exact (sendFor_keeps ..).step (h68.mono rfl)
      · exact h68.mono rfl
    have h56 : e6.led.qps = e5.led.qps := rfl
    have he1 : Ended id s e1 :=
      ⟨(congrArg Attn.cores hattn :), (congrArg (fun a : Attn => a.flights.filter fun g => g.id != id) hattn :),
        (congrArg Attn.nextId hattn :)⟩
    have hkv1 : e1.kv = u.kv := rfl
    have hqps1 : e1.led.qps = (setQp f.qp ((qpOf s f.qp).entered f (entryWord s f code detail r1 r2)) s).led.qps := by
      show (setQp h.qp (p.entered h w) u).led.qps = _
      rw [hp, hw, show h.qp = f.qp from holdEnd_qp .., entered_holdEnd]
      exact congrArg (fun l : Ledger => tput ({} : Qp) l.qps f.qp _) hled
    refine ⟨e9, ?_, ?_, ?_, ?_⟩
    · rw [show h.desc = f.desc from holdEnd_desc .., show h.qp = f.qp from holdEnd_qp ..]
    · rw [congrArg Ledger.qps (h69.led rfl), h56, congrArg Ledger.qps (h15.led rfl), hqps1]
    · rw [h69.kv rfl, (sampleDelay_keeps ..).kv rfl, h15.kv rfl, hkv1, hu]
      exact entryState_kv id f s
    · exact he1.of_attn ((h69.attn rfl).trans (((sampleDelay_keeps ..).attn rfl).trans (h15.attn rfl)))

theorem complete_of_none {s : State} {id : Nat} (code detail r1 r2 : Nat) (hf : flightOf s id = none) :
    complete id code detail r1 r2 s = s := by
  unfold complete
  rw [hf]

theorem givePrep_steppedDown (f : Flight) (s : State) : steppedDown (givePrep f s) = steppedDown s := by
  rw [steppedDown, (givePrep_keeps f s).span rfl]
  rfl

/-- A twin that has stepped down drops the flight (R590). -/
theorem complete_of_down {s : State} {id : Nat} {f : Flight} (code detail r1 r2 : Nat) (hf : flightOf s id = some f)
    (hdown : steppedDown s = true) : complete id code detail r1 r2 s =
      (givePrep f s).setAttn fun a => { a with flights := a.flights.filter fun g => g.id != id } := by
  unfold complete
  rw [hf]
  exact if_pos (by rw [givePrep_steppedDown, hdown])

/-- A member's part ends with a report (R584). -/
theorem complete_of_member {s : State} {id : Nat} {f : Flight} (code detail r1 r2 : Nat) (hf : flightOf s id = some f)
    (hdown : steppedDown s = false) (hqp : 1024 ≤ f.qp) : complete id code detail r1 r2 s =
      memberReport f code detail r1 r2
        ((givePrep f s).setAttn fun a => { a with flights := a.flights.filter fun g => g.id != id }) := by
  unfold complete
  rw [hf]
  exact (if_neg (by rw [givePrep_steppedDown, hdown]; decide)).trans (if_pos hqp)

/-- What the end of a flight leaves of the pairs: its own has the entry, and every pair may be starved or have an entry counted. -/
theorem complete_qps {s : State} {id : Nat} {f : Flight} (hs : Tbl.Rising s.led.qps) (code detail r1 r2 : Nat) (hf : flightOf s id = some f)
    (hdown : steppedDown s = false) (hqp : f.qp < 1024) :
    Tbl.Rising (complete id code detail r1 r2 s).led.qps ∧
      ((qpOf s f.qp).entered f (entryWord s f code detail r1 r2)).Like (qpOf (complete id code detail r1 r2 s) f.qp) ∧
      ∀ q, q ≠ f.qp → (qpOf s q).Like (qpOf (complete id code detail r1 r2 s) q) := by
  obtain ⟨v, heq, hqps, -, -⟩ := complete_shape code detail r1 r2 hf hdown hqp
  have hv : Tbl.Rising v.led.qps := by rw [hqps]; exact setQp_rising hs ..
  obtain ⟨hlike, hrise⟩ : QpsLike v (if dIrq f.desc then countIrq f.qp v else v) ∧
      Tbl.Rising (if dIrq f.desc then countIrq f.qp v else v).led.qps := by
    split
    · exact countIrq_like hv _
    · exact ⟨.refl v, hv⟩
  have hall : QpsLike (setQp f.qp ((qpOf s f.qp).entered f (entryWord s f code detail r1 r2)) s) (complete id code detail r1 r2 s) := by
    rw [heq]
    exact (QpsLike.of_qps hqps).trans (hlike.trans (markStarved_like hrise))
  refine ⟨by rw [heq]; exact markStarved_rising hrise, ?_, fun q hq => ?_⟩
  · have h := hall f.qp
    rwa [qpOf_setQp hs] at h
  · have h := hall q
    rwa [qpOf_setQp_ne hs hq] at h

/-- What the end of a flight leaves of the flights, and of the contexts and pages (R162, R177). -/
theorem complete_ended {s : State} {id : Nat} {f : Flight} (code detail r1 r2 : Nat) (hf : flightOf s id = some f)
    (hdown : steppedDown s = false) (hqp : f.qp < 1024) :
    Ended id s (complete id code detail r1 r2 s) ∧
      (complete id code detail r1 r2 s).kv = { s.kv with slabs := (entryState id f s).kv.slabs } := by
  obtain ⟨v, heq, -, hkv, hend⟩ := complete_shape code detail r1 r2 hf hdown hqp
  have hirq : Keeps 0x220480 v (if dIrq f.desc then countIrq f.qp v else v) := by
    split
    · exact countIrq_keeps ..
    · exact .refl _ _
  have hkeep : Keeps 0x220480 v (complete id code detail r1 r2 s) := by
    rw [heq]
    exact (markStarved_keeps ..).step hirq
  exact ⟨hend.of_attn (hkeep.attn rfl), (hkeep.kv rfl).trans hkv⟩

/-! ## Answers -/

theorem flightOf_id {s : State} {id : Nat} {f : Flight} (h : flightOf s id = some f) : f.id = id := by
  simpa using List.find?_some h

/-- The fields of an entry (R162). -/
theorem cqWord_fields (r1 r2 head tag detail code op phase : Nat) :
    fld (cqWord r1 r2 head tag detail code op phase) 15 8 = op % 2 ^ 8 ∧
      fld (cqWord r1 r2 head tag detail code op phase) 23 16 = code % 2 ^ 8 ∧
      fld (cqWord r1 r2 head tag detail code op phase) 31 24 = detail % 2 ^ 8 ∧
      fld (cqWord r1 r2 head tag detail code op phase) 47 32 = tag % 2 ^ 16 ∧
      fld (cqWord r1 r2 head tag detail code op phase) 127 96 = r1 % 2 ^ 32 ∧
      fld (cqWord r1 r2 head tag detail code op phase) 95 64 = r2 % 2 ^ 32 := by
  simp only [cqWord, fld, bitsOf, BitVec.toNat_ofNat]
  omega

theorem dOpcode_lt (d : Desc) : dOpcode d < 2 ^ 8 := Nat.mod_lt _ (by decide)
theorem dTag_lt (d : Desc) : dTag d < 2 ^ 16 := Nat.mod_lt _ (by decide)

/-- A flight that has ended with an entry has been answered with what the entry says. -/
theorem answered_of_entered {t : State} {f : Flight} {p : Qp} {r1 r2 head detail code phase : Nat}
    (hflights : ∀ g ∈ t.attn.flights, g.id ≠ f.id)
    (hlike : (p.entered f (cqWord r1 r2 head (dTag f.desc) detail code (dOpcode f.desc) phase)).Like (qpOf t f.qp))
    (hcode : code < 2 ^ 8) (hdetail : detail < 2 ^ 8) : Answered t f code detail (r1 % 2 ^ 32) (r2 % 2 ^ 32) := by
  obtain ⟨hop, hc, hd, htag, h1, h2⟩ := cqWord_fields r1 r2 head (dTag f.desc) detail code (dOpcode f.desc) phase
  have hsize : cqSize (qpOf t f.qp) = cqSize p := by rw [hlike]; rfl
  have hcq : (qpOf t f.qp).cq = tins p.cq (f.slot % cqSize p)
      (cqWord r1 r2 head (dTag f.desc) detail code (dOpcode f.desc) phase) := by rw [hlike]; rfl
  have hdone : (qpOf t f.qp).done = p.done ++ [f.slot] := by rw [hlike]; rfl
  refine ⟨hflights, by rw [hdone]; simp, cqWord r1 r2 head (dTag f.desc) detail code (dOpcode f.desc) phase, ?_, ?_⟩
  · rw [hcq, hsize, tins_find, if_pos rfl]
  · rw [hop, hc, hd, htag, h1, h2, Nat.mod_eq_of_lt (dOpcode_lt _), Nat.mod_eq_of_lt (dTag_lt _), Nat.mod_eq_of_lt hcode,
      Nat.mod_eq_of_lt hdetail]
    exact ⟨rfl, rfl, rfl, rfl, rfl, rfl⟩

/-- The end of a flight answers it, with the code that a hold turns DONE into and the fields that the code defines (R163, R164). -/
theorem answered_complete {s : State} {id : Nat} {f : Flight} (hs : Tbl.Rising s.led.qps) {code detail : Nat} (r1 r2 : Nat)
    (hf : flightOf s id = some f) (hdown : steppedDown s = false) (hqp : f.qp < 1024) (hcode : finalCode f code < 2 ^ 8)
    (hdetail : detail < 2 ^ 8) :
    Answered (complete id code detail r1 r2 s) f (finalCode f code) detail ((entryResult s f code r1 r2).1 % 2 ^ 32)
      ((entryResult s f code r1 r2).2 % 2 ^ 32) := by
  obtain ⟨hend, -⟩ := complete_ended code detail r1 r2 hf hdown hqp
  obtain ⟨-, hown, -⟩ := complete_qps hs code detail r1 r2 hf hdown hqp
  refine answered_of_entered (fun g hg => ?_) hown hcode hdetail
  rw [hend.flights, List.mem_filter] at hg
  rw [flightOf_id hf]
  simpa using hg.2

end Sys2Proof.Machine
end

section
/-! PROOFS. Doorbells, head descriptors, configurations, interrupts and samples of queue pairs (R121, R387 to R390, R403, R539, R542,
R644 to R647). -/

namespace Sys2Proof.Machine

/-! ## Doorbells (R644 to R647) -/

theorem exec_sqtail {s : State} {w : Win} {q : Nat} (v : BitVec 32) (hq : winQp s w = some q) : exec (.sqtail w v) s =
    .next (if (qpOf s q).st ≠ .active ∨ sqSize (qpOf s q) ≤ fld v 9 0 ∨ sqSize (qpOf s q) - 1 <
        sqCount (qpOf s q) + (fld v 9 0 + sqSize (qpOf s q) - (qpOf s q).tail) % sqSize (qpOf s q) then
      setQp q { qpOf s q with sqBad := true } s
    else markStarved (setQp q { qpOf s q with
      tail := fld v 9 0, sqBad := false
      sqAt := (List.range ((fld v 9 0 + sqSize (qpOf s q) - (qpOf s q).tail) % sqSize (qpOf s q))).foldl
        (fun t i => tins t (((qpOf s q).tail + i) % sqSize (qpOf s q)) s.time.cycle) (qpOf s q).sqAt } s)) := by
  show Host.Outcome.next (sqTail w v s) = _
  unfold sqTail
  rw [hq]

/-- How many entries a head consumes. -/
def headMove (p : Qp) (v : BitVec 32) : Nat := (fld v 11 0 + cqSize p - p.consumed % cqSize p) % cqSize p

theorem exec_cqhead {s : State} {w : Win} {q : Nat} (v : BitVec 32) (hq : winQp s w = some q) : exec (.cqhead w v) s =
    .next (if ((qpOf s q).st ≠ .active ∧ (qpOf s q).st ≠ .reinit) ∨ cqSize (qpOf s q) ≤ fld v 11 0 ∨
        !((List.range (headMove (qpOf s q) v)).all fun i => (qpOf s q).done.contains ((qpOf s q).consumed + i)) then
      setQp q { qpOf s q with cqBad := true } s
    else markStarved (setQp q { qpOf s q with
      consumed := (qpOf s q).consumed + headMove (qpOf s q) v, cqBad := false
      done := (qpOf s q).done.filter fun i => decide ((qpOf s q).consumed + headMove (qpOf s q) v ≤ i) } s)) := by
  show Host.Outcome.next (cqHead w v s) = _
  unfold cqHead
  rw [hq]
  rfl

/-- The pair that a scheduler's look leaves after a write. -/
theorem qpOf_markStarved_setQp {s : State} (hs : Tbl.Rising s.led.qps) (q : Nat) (v : Qp) :
    v.Like (qpOf (markStarved (setQp q v s)) q) := by
  have h := markStarved_like (setQp_rising hs q v) q
  rwa [qpOf_setQp hs] at h

theorem all_done_iff {p : Qp} {n : Nat} : ((List.range n).all fun i => p.done.contains (p.consumed + i)) = true ↔
    ∀ i, i < n → p.consumed + i ∈ p.done := by
  simp

/-- Settles O13: an accepted doorbell is followed by the scheduler's look, which leaves the indices. -/
theorem doorbellsMove : Obligations.DoorbellsMove := by
  unfold Obligations.DoorbellsMove
  refine ⟨fun s w v q hinv hq hst htail hcount => ?_, fun s w v q hinv hq hbad => ?_, fun s w v q n hinv hq hst hhead hn hdone => ?_,
    fun s w v q hinv hq hbad => ?_⟩
  · refine ⟨_, (exec_sqtail v hq).trans (congrArg _ (if_neg ?_)), ?_⟩
    · rintro (h | h | h)
      · exact h hst
      · omega
      · omega
    · rw [qpOf_markStarved_setQp hinv.led.qps q _]
      exact ⟨rfl, rfl, rfl, rfl⟩
  · refine ⟨_, (exec_sqtail v hq).trans (congrArg _ (if_pos hbad)), ?_⟩
    rw [qpOf_setQp hinv.led.qps]
    exact ⟨rfl, rfl⟩
  · refine ⟨_, (exec_cqhead v hq).trans (congrArg _ (if_neg ?_)), ?_⟩
    · have hall : ((List.range (headMove (qpOf s q) v)).all fun i => (qpOf s q).done.contains ((qpOf s q).consumed + i)) = true :=
        all_done_iff.2 fun i hi => hdone i (hn ▸ hi)
      rintro (⟨h, h'⟩ | h | h)
      · exact hst.elim h h'
      · omega
      · rw [hall] at h
        cases h
    · rw [qpOf_markStarved_setQp hinv.led.qps q _]
      exact ⟨congrArg _ hn.symm, rfl, rfl⟩
  · refine ⟨_, (exec_cqhead v hq).trans (congrArg _ (if_pos ?_)), ?_⟩
    · rcases hbad with h | h | ⟨i, hi, hnot⟩
      · exact .inl h
      · exact .inr (.inl h)
      · refine .inr (.inr ?_)
        rw [Bool.not_eq_true', ← Bool.not_eq_true, all_done_iff]
        exact fun h => hnot (h i hi)
    · rw [qpOf_setQp hinv.led.qps]
      exact ⟨rfl, rfl⟩

/-! ## Flights that end leave the other fields of a pair (R162) -/

/-- The pair but for its entries, starvation and interrupt. -/
def Qp.Steady (a b : Qp) : Prop :=
  b = { a with
    cq := b.cq, done := b.done, starved := b.starved, starvedAt := b.starvedAt, irqCount := b.irqCount, irqAt := b.irqAt }

theorem Qp.Steady.refl (a : Qp) : a.Steady a := rfl

theorem Qp.Steady.trans {a b c : Qp} (h : a.Steady b) (h' : b.Steady c) : a.Steady c := by
  unfold Qp.Steady at *
  rw [h'] at *
  rw [h]

theorem Qp.Like.steady {a b : Qp} (h : a.Like b) : a.Steady b := by
  unfold Qp.Like Qp.Steady at *
  rw [h]

theorem entered_steady (f : Flight) (w : BitVec 128) (p : Qp) : p.Steady (p.entered f w) := rfl

/-- A flight's end, whatever the flight is, leaves each pair's indices and configuration. -/
theorem complete_steady {s : State} (hs : Tbl.Rising s.led.qps) (id code detail r1 r2 : Nat) :
    Tbl.Rising (complete id code detail r1 r2 s).led.qps ∧
      ∀ q, (qpOf s q).Steady (qpOf (complete id code detail r1 r2 s) q) := by
  cases hf : flightOf s id with
  | none =>
    rw [complete_of_none code detail r1 r2 hf]
    exact ⟨hs, fun q => .refl _⟩
  | some f =>
    by_cases hdown : steppedDown s = false
    · by_cases hqp : f.qp < 1024
      · obtain ⟨hrise, hown, hother⟩ := complete_qps hs code detail r1 r2 hf hdown hqp
        refine ⟨hrise, fun q => ?_⟩
        by_cases hq : q = f.qp
        · rw [hq]
          exact (entered_steady ..).trans hown.steady
        · exact (hother q hq).steady
      · have hled : (complete id code detail r1 r2 s).led = s.led := by
          rw [complete_of_member code detail r1 r2 hf hdown (by omega)]
          exact ((memberReport_keeps ..).led rfl).trans ((givePrep_keeps f s).led rfl)
        exact ⟨by rw [hled]; exact hs, fun q => by rw [qpOf_of_led hled]; exact .refl _⟩
    · have hled : (complete id code detail r1 r2 s).led = s.led := by
        rw [complete_of_down code detail r1 r2 hf (by simpa using hdown)]
        exact (givePrep_keeps f s).led rfl
      exact ⟨by rw [hled]; exact hs, fun q => by rw [qpOf_of_led hled]; exact .refl _⟩

/-! ## Reading a head descriptor (R121, R125, R403) -/

/-- The pair with its head read: the read index has moved past it and one entry is reserved. -/
def Qp.headRead (p : Qp) : Qp :=
  { p with rd := (p.rd + 1) % sqSize p, reserved := p.reserved + 1, seq := p.seq + 1, starved := false, starvedAt := none }

/-- The state once the head has become a flight, before its checks. -/
def headTaken (q : Nat) (place : Bool) (s : State) : State :=
  let u := carryTo (tget 0 (qpOf s q).sqAt (qpOf s q).rd + 1) s
  traceEvent (qpDie q) (some (qpOf s q).tenant) 0 q (qpOf s q).tenant 0xFF 0 64 1
    ((setQp q (qpOf s q).headRead u).setAttn fun a =>
      { a with flights := a.flights ++ [newFlight u q place], nextId := a.nextId + 1 })

theorem headTaken_led (q : Nat) (place : Bool) (s : State) : (headTaken q place s).led = (setQp q (qpOf s q).headRead s).led := by
  unfold headTaken
  exact (traceEvent_keeps ..).led rfl

theorem headTaken_rising {s : State} (hs : Tbl.Rising s.led.qps) (q : Nat) (place : Bool) :
    Tbl.Rising (headTaken q place s).led.qps := by
  rw [headTaken_led]
  exact setQp_rising hs ..

theorem qpOf_headTaken {s : State} (hs : Tbl.Rising s.led.qps) (q : Nat) (place : Bool) :
    qpOf (headTaken q place s) q = (qpOf s q).headRead := by
  rw [qpOf_of_led (headTaken_led q place s), qpOf_setQp hs]

theorem headTaken_steppedDown (q : Nat) (place : Bool) (s : State) : steppedDown (headTaken q place s) = steppedDown s := by
  have hspan : (headTaken q place s).span = s.span := (traceEvent_keeps ..).span rfl
  rw [steppedDown, hspan]
  rfl

/-- The flights with the one just read. -/
theorem headTaken_attn (q : Nat) (place : Bool) (s : State) : (headTaken q place s).attn =
    { s.attn with flights := s.attn.flights ++ [newFlight (carryTo (tget 0 (qpOf s q).sqAt (qpOf s q).rd + 1) s) q place]
                  nextId := s.attn.nextId + 1 } := by
  unfold headTaken
  exact (traceEvent_keeps ..).attn rfl

/-- What follows the reading of a head leaves the pair's indices, whatever the checks and the toll say (R403). -/
theorem readHead_steady {s : State} (hs : Tbl.Rising s.led.qps) (q : Nat) (place : Bool) :
    (qpOf s q).headRead.Steady (qpOf (readHead q place s) q) := by
  have hrise := headTaken_rising hs q place
  have hcomplete : ∀ id code detail r1 r2, (qpOf s q).headRead.Steady (qpOf (complete id code detail r1 r2 (headTaken q place s)) q) := by
    intro id code detail r1 r2
    have h := (complete_steady hrise id code detail r1 r2).2 q
    rwa [qpOf_headTaken hs] at h
  unfold readHead
  extract_lets p u f u1 u2 u3 len
  have hu3 : u3 = headTaken q place s := rfl
  rw [hu3]
  split
  · exact hcomplete ..
  · split
    · exact hcomplete ..
    · have hmark : ∀ v, v.led = (headTaken q place s).led → (qpOf s q).headRead.Steady (qpOf (markStarved v) q) ∧
          ∀ id code detail r1 r2, (qpOf s q).headRead.Steady (qpOf (complete id code detail r1 r2 v) q) := by
        intro v hv
        have hv' : Tbl.Rising v.led.qps := by rw [hv]; exact hrise
        have hq : qpOf v q = (qpOf s q).headRead := by rw [qpOf_of_led hv, qpOf_headTaken hs]
        refine ⟨?_, fun id code detail r1 r2 => ?_⟩
        · have h := (markStarved_like hv' q).steady
          rwa [hq] at h
        · have h := (complete_steady hv' id code detail r1 r2).2 q
          rwa [hq] at h
      split
      · next v hv => exact (hmark v ((Keeps.snd (tollMark_keeps ..) hv).led rfl)).1
      · next v hv => exact (hmark v ((Keeps.snd (tollMark_keeps ..) hv).led rfl)).2 ..
      · next v hv =>
        refine (hmark _ ?_).1
        exact ((setFlight_keeps ..).led rfl).trans ((Keeps.snd (tollMark_keeps ..) hv).led rfl)

/-- A head whose checks fail is answered at once (R125). -/
theorem readHead_of_failed {s : State} {q : Nat} {place : Bool} {code detail : Nat}
    (h : readChecks (headTaken q place s) q (tget 0 (qpOf s q).sq (qpOf s q).rd) = some (code, detail)) :
    readHead q place s = complete s.attn.nextId code detail 0 0 (headTaken q place s) := by
  unfold readHead
  extract_lets p u f u1 u2 u3 len
  have hu3 : u3 = headTaken q place s := rfl
  have hdesc : f.desc = tget 0 (qpOf s q).sq (qpOf s q).rd := rfl
  rw [hu3, hdesc, h]
  rfl

/-- The new flight is found by its number. -/
theorem flightOf_headTaken {s : State} (q : Nat) (place : Bool) (hnew : ∀ f ∈ s.attn.flights, f.id < s.attn.nextId) :
    flightOf (headTaken q place s) s.attn.nextId =
      some (newFlight (carryTo (tget 0 (qpOf s q).sqAt (qpOf s q).rd + 1) s) q place) := by
  have hnone : s.attn.flights.find? (fun f => f.id == s.attn.nextId) = none := by
    rw [List.find?_eq_none]
    intro f hf
    simpa using (hnew f hf).ne
  rw [flightOf, headTaken_attn]
  simp only [List.find?_append, hnone, Option.none_or]
  exact List.find?_cons_of_pos (by exact beq_self_eq_true _)

/-- With the new flight gone the flights are those of before. -/
theorem headTaken_flights_filter {s : State} (q : Nat) (place : Bool) (hnew : ∀ f ∈ s.attn.flights, f.id < s.attn.nextId) :
    (headTaken q place s).attn.flights.filter (fun g => g.id != s.attn.nextId) = s.attn.flights := by
  rw [headTaken_attn]
  simp only [List.filter_append]
  have hkeep : s.attn.flights.filter (fun g => g.id != s.attn.nextId) = s.attn.flights :=
    List.filter_eq_self.2 fun f hf => by simpa using (hnew f hf).ne
  rw [hkeep, List.filter_cons_of_neg (by simp [newFlight, carryTo, elapse]), List.filter_nil, List.append_nil]

theorem readChecks_of_unknown {s : State} {q : Nat} {d : Desc} (htenant : (tenantOf s (qpOf s q).tenant).st ≠ .removing)
    (hop : opKnown (dOpcode d) = false) : readChecks s q d = some (0x51, 0) := by
  unfold readChecks
  extract_lets p c
  rw [if_neg (by simpa using htenant), if_pos (by simp [hop])]
  rfl

theorem readsQueues_up {s : State} (h : readsQueues s = true) : steppedDown s = false := by
  simp only [readsQueues, Bool.and_eq_true, Bool.not_eq_true'] at h
  exact h.1.2

theorem tenantOf_setQp (q : Nat) (v : Qp) (s : State) (n : Nat) : tenantOf (setQp q v s) n = tenantOf s n := rfl

theorem tookTurn_qps (die q : Nat) (s : State) : (tookTurn die q s).led.qps = s.led.qps := by
  unfold tookTurn
  dsimp only [State.setLed]
  split <;> rfl

theorem exec_descriptorRead {s : State} {die : Fin 2} {q : Nat} (hpick : pickQp (markStarved s) die.val = some q) :
    exec (.descriptorRead die) s = .next (readHead q true (tookTurn die.val q (markStarved s))) := by
  show execDescriptorRead die s = _
  unfold execDescriptorRead
  simp only [hpick]

theorem exec_unsupported {s : State} {q : Fin 1024} (hreads : readsQueues s = true) (hready : headReady (qpOf s q.val) = true)
    (hplace : placeFree s (qpOf s q.val).tenant (qpDie q.val) = true)
    (hop : opKnown (dOpcode (tget 0 (qpOf s q.val).sq (qpOf s q.val).rd)) = false) :
    exec (.unsupported q) s = .next (readHead q.val true s) := by
  show execUnsupported q s = _
  unfold execUnsupported
  exact if_pos (by rw [hreads, hready, hplace, hop]; rfl)

/-- An unknown opcode is not APPEND's, so its entry carries no length. -/
theorem entryResult_of_unknown {f : Flight} (s : State) (code : Nat) (hop : opKnown (dOpcode f.desc) = false) :
    entryResult s f code 0 0 = (0, 0) := by
  have h2 : (dOpcode f.desc == 2) = false := by
    rw [Bool.eq_false_iff]
    intro h
    rw [beq_iff_eq.1 h] at hop
    cases hop
  simp [entryResult, h2]

/-- Settles O14: what a head's reading does to its pair stays through what follows, and an unknown opcode is answered at once. -/
theorem headDescriptorsAreRead : Obligations.HeadDescriptorsAreRead := by
  unfold Obligations.HeadDescriptorsAreRead
  refine ⟨fun s die q hinv hpick => ?_, fun s q hinv hreads hready hplace hop htenant hnew => ?_⟩
  · have hrise : Tbl.Rising (tookTurn die.val q (markStarved s)).led.qps := by
      rw [tookTurn_qps]
      exact markStarved_rising hinv.led.qps
    have hsame : qpOf (tookTurn die.val q (markStarved s)) q = qpOf (markStarved s) q := by simp only [qpOf, tookTurn_qps]
    refine ⟨_, exec_descriptorRead hpick, ?_⟩
    rw [readHead_steady hrise q true, hsame, markStarved_like hinv.led.qps q]
    exact ⟨rfl, rfl, rfl⟩
  · have hchecks : readChecks (headTaken q.val true s) q.val (tget 0 (qpOf s q.val).sq (qpOf s q.val).rd) = some (0x51, 0) := by
      refine readChecks_of_unknown ?_ hop
      rw [qpOf_headTaken hinv.led.qps, tenantOf_of_led (headTaken_led ..), tenantOf_setQp]
      exact htenant
    have hflight := flightOf_headTaken q.val true hnew
    have hdown : steppedDown (headTaken q.val true s) = false := by
      rw [headTaken_steppedDown]
      exact readsQueues_up hreads
    have hrise := headTaken_rising hinv.led.qps q.val true
    obtain ⟨hend, -⟩ := complete_ended 0x51 0 0 0 hflight hdown q.isLt
    obtain ⟨-, hown, -⟩ := complete_qps hrise 0x51 0 0 0 hflight hdown q.isLt
    have hword := entryResult_of_unknown (headTaken q.val true s) 0x51
      (f := newFlight (carryTo (tget 0 (qpOf s q.val).sqAt (qpOf s q.val).rd + 1) s) q.val true) hop
    refine ⟨_, exec_unsupported hreads hready hplace hop, ?_⟩
    rw [readHead_of_failed hchecks]
    refine ⟨by rw [hend.flights, headTaken_flights_filter q.val true hnew], ?_⟩
    rw [entryWord, hword] at hown
    have hqp : qpOf (headTaken q.val true s) (newFlight (carryTo (tget 0 (qpOf s q.val).sqAt (qpOf s q.val).rd + 1) s) q.val true).qp =
        (qpOf s q.val).headRead := qpOf_headTaken hinv.led.qps ..
    rw [hqp] at hown
    have hlike : qpOf (complete s.attn.nextId 0x51 0 0 0 (headTaken q.val true s)) q.val = _ := hown
    rw [hlike]
    refine ⟨rfl, rfl, ?_⟩
    exact (tins_find ..).trans (if_pos rfl)

/-! ## Configurations (R387 to R389) -/

theorem exec_qpcfgEnable_of_off {s : State} {q : Nat} {v : BitVec 64} (hq : winQp s .steward = some q)
    (hst : (qpOf s q).st = .disabled ∨ (qpOf s q).st = .refused) (hen : fld v 63 63 = 1) (hready : s.pwr.dev = .ready) :
    exec (.qpcfgEnable .steward v) s = .next (if qpReason s q (qpFields v (qpOf s q)) = 0 then
        setQp q { qpFields v (qpOf s q) with
          enable := true, st := .active, reason := 0, rd := 0, tail := 0, reserved := 0, consumed := 0, done := [], sq := []
          sqAt := [], cq := [], seq := 0 } s
      else setQp q { qpFields v (qpOf s q) with
        enable := false, st := .refused, reason := qpReason s q (qpFields v (qpOf s q)) } s) := by
  show Host.Outcome.next (qpcfgWrite .steward v s) = _
  unfold qpcfgWrite
  rw [hq]
  rcases hst with h | h <;> simp only [h, hen, hready, and_self, if_true]

/-- The pair with its queue stopped at what has been read (R389). -/
def Qp.stopped (toDisabled : Bool) (p : Qp) : Qp :=
  { p with st := .reinit, tail := p.rd, starved := false, starvedAt := none, toDisabled := toDisabled }

theorem foldl_complete_steady (l : List Flight) {s : State} (hs : Tbl.Rising s.led.qps) (q : Nat) :
    (qpOf s q).Steady (qpOf (l.foldl (fun s f => complete f.id ccAborted 3 0 0 s) s) q) := by
  induction l generalizing s with
  | nil => exact .refl _
  | cons f l ih =>
    obtain ⟨hrise, hsteady⟩ := complete_steady hs f.id ccAborted 3 0 0
    exact (hsteady q).trans (ih hrise)

theorem reinitBegin_steady {s : State} (hs : Tbl.Rising s.led.qps) (q : Nat) (toDisabled : Bool) :
    ((qpOf s q).stopped toDisabled).Steady (qpOf (reinitBegin q toDisabled s) q) := by
  have h := foldl_complete_steady (((setQp q ((qpOf s q).stopped toDisabled) s).attn.flights.filter fun f =>
    f.qp == q && (f.stage == .tolled || f.stage == .waiting || f.stage == .stalled))) (setQp_rising hs q ((qpOf s q).stopped toDisabled)) q
  rw [qpOf_setQp hs] at h
  exact h

theorem exec_qpcfgReinit_of_active {s : State} {q : Nat} (v : BitVec 64) (hq : winQp s .steward = some q) (hst : (qpOf s q).st = .active) :
    exec (.qpcfgReinit .steward v) s = .next (if fld v 63 63 = 0 then reinitBegin q true (setQp q { qpOf s q with enable := false } s)
      else if fld v 0 0 = 1 then reinitBegin q false s else s) := by
  show Host.Outcome.next (qpcfgWrite .steward v s) = _
  unfold qpcfgWrite
  rw [hq]
  simp only [hst]

theorem exec_reinitDone {s : State} {q : Fin 1024} (hst : (qpOf s q.val).st = .reinit) (hnone : ∀ f ∈ s.attn.flights, f.qp ≠ q.val)
    (hconsumed : (qpOf s q.val).reserved = (qpOf s q.val).consumed) : exec (.reinitDone q) s = .next (setQp q.val { qpOf s q.val with
      st := if (qpOf s q.val).toDisabled then .disabled else .active, rd := 0, tail := 0, reserved := 0, consumed := 0, done := []
      cq := [], seq := 0, toDisabled := false } s) := by
  have hany : (s.attn.flights.any fun f => f.qp == q.val) = false := by simpa using hnone
  exact if_pos ⟨hst, by simp [hany], hconsumed⟩

/-- Settles O15: by the state of the pair that the write or the end of REINIT finds. -/
theorem queuePairsAreConfigured : Obligations.QueuePairsAreConfigured := by
  unfold Obligations.QueuePairsAreConfigured
  refine ⟨fun s v q hinv hq hst hen hready hreason => ?_, fun s v q hinv hq hst hen hready hreason => ?_,
    fun s v q hinv hq hst hwrite => ?_, fun s q hinv hst hnone hconsumed => ?_⟩
  · refine ⟨_, (exec_qpcfgEnable_of_off hq hst hen hready).trans (congrArg _ (if_pos hreason)), ?_⟩
    rw [qpOf_setQp hinv.led.qps]
    exact ⟨rfl, rfl, rfl, rfl, rfl, rfl, rfl, rfl, rfl, rfl⟩
  · refine ⟨_, (exec_qpcfgEnable_of_off hq hst hen hready).trans (congrArg _ (if_neg hreason)), ?_⟩
    rw [qpOf_setQp hinv.led.qps]
    exact ⟨rfl, rfl, rfl⟩
  · refine ⟨_, exec_qpcfgReinit_of_active v hq hst, ?_⟩
    by_cases hen : fld v 63 63 = 0
    · rw [if_pos hen, reinitBegin_steady (setQp_rising hinv.led.qps ..) q true, qpOf_setQp hinv.led.qps, hen]
      exact ⟨rfl, rfl, rfl, rfl⟩
    · rw [if_neg hen, if_pos (hwrite.resolve_left hen), reinitBegin_steady hinv.led.qps q false]
      exact ⟨rfl, rfl, rfl, (beq_false_of_ne hen).symm⟩
  · refine ⟨_, exec_reinitDone hst hnone hconsumed, ?_⟩
    rw [qpOf_setQp hinv.led.qps]
    exact ⟨rfl, rfl, rfl, rfl, rfl, rfl⟩

/-! ## Interrupts and samples (R390, R539, R542) -/

theorem exec_interruptCoalesceTimer {s : State} {q : Fin 1024} {c : Nat} (hat : (qpOf s q.val).irqAt = some c)
    (htime : (qpOf s q.val).coalTime ≠ 0) : exec (.interruptCoalesceTimer q) s =
      .next (raiseIrq q.val (carryTo (c + usCycles (qpOf s q.val).coalTime) s)) := by
  show execInterruptCoalesceTimer q s = _
  unfold execInterruptCoalesceTimer
  simp only [hat, if_neg htime]

theorem raiseIrq_time (q : Nat) (s : State) : (raiseIrq q s).time = s.time := (raiseIrq_keeps ..).time rfl

theorem qpOf_raiseIrq {s : State} (hs : Tbl.Rising s.led.qps) (q : Nat) :
    qpOf (raiseIrq q s) q = { qpOf s q with irqCount := 0, irqAt := none } := by
  rw [qpOf_of_led (raiseIrq_led q s), qpOf_setQp hs]

theorem sendBypass_out {l : Nat} {s : State} (h : linkUp s l = true) (m : Beacon) :
    (sendBypass l m s).out = s.out ++ [.bypass l m] := by
  rw [sendBypass, if_pos h, (linkBuild_keeps ..).out rfl, (linkTally_keeps ..).out rfl]
  rfl

theorem raiseIrq_out_of_steward {q : Nat} {s : State} (h : (qpOf s q).bindKind = 4) :
    (raiseIrq q s).out = s.out ++ [.stewardIrq (qpOf s q).irqVec] := by
  unfold raiseIrq
  simp only [h]
  rfl

theorem raiseIrq_out_of_cxl {q : Nat} {s : State} (h : (qpOf s q).bindKind = 2)
    (hup : bitsOf (obj s 0x5200 ((qpOf s q).bindPort + 1)) 31 28 = 2) :
    (raiseIrq q s).out = s.out ++ [.msix (qpOf s q).bindPort (qpOf s q).irqVec] := by
  have hobj : ∀ v, obj (setQp q v s) 0x5200 ((qpOf s q).bindPort + 1) = obj s 0x5200 ((qpOf s q).bindPort + 1) := fun _ => rfl
  unfold raiseIrq
  simp only [h, hobj, hup, if_true]
  rfl

theorem raiseIrq_out_of_kaf {q : Nat} {s : State} (h : (qpOf s q).bindKind = 1) (hup : linkUp s (qpOf s q).bindPort = true) :
    (raiseIrq q s).out = s.out ++ [.bypass (qpOf s q).bindPort (BitVec.ofNat 256 (0x60 + (qpOf s q).irqVec * 2 ^ 8))] := by
  unfold raiseIrq
  simp only [h]
  exact sendBypass_out (by exact hup) _

/-- A pair's record with one sample more (R539, R541). -/
def Sample.taken (depth places : Nat) (r : Sample) : Sample :=
  { r with samples := (r.samples + 1) % 2 ^ 64, depthSum := (r.depthSum + depth) % 2 ^ 64
           depthMax := max r.depthMax depth, placesMax := max r.placesMax places }

/-- One pair is sampled (R539). -/
def sampleOne (s : State) (q : Nat) : State :=
  if (qpOf s q).st == .active then
    s.setLed fun l => { l with samples := (tmod ({} : Sample) l.samples q
      (Sample.taken (sqCount (qpOf s q) + (s.attn.flights.filter fun f => f.qp == q).length) (qpPlaces s q))) }
  else s

theorem sampleAll_eq (s : State) : sampleAll s =
    ((s.led.qps.map (·.1)).foldl sampleOne s).setLed fun l =>
      { l with sampledAt := ((s.led.qps.map (·.1)).foldl sampleOne s).time.cycle } := rfl

theorem sampleOne_same (s : State) (q : Nat) : (sampleOne s q).led.qps = s.led.qps ∧ (sampleOne s q).time = s.time := by
  unfold sampleOne
  split <;> exact ⟨rfl, rfl⟩

/-- How many samples of a pair have been taken. -/
def sampled (s : State) (q : Nat) : Nat := (tget ({} : Sample) s.led.samples q).samples

theorem sampleOne_counts {s : State} (hs : Tbl.Rising s.led.samples) (q : Nat) :
    Tbl.Rising (sampleOne s q).led.samples ∧
      (∀ x, x ≠ q → sampled (sampleOne s q) x = sampled s x) ∧
      sampled (sampleOne s q) q = if (qpOf s q).st = .active then (sampled s q + 1) % 2 ^ 64 else sampled s q := by
  unfold sampleOne
  by_cases h : (qpOf s q).st = .active
  · rw [if_pos (by simp [h]), if_pos h]
    refine ⟨tput_rising _ _ hs _, fun x hx => congrArg Sample.samples (tget_tput_ne _ _ _ hs hx), ?_⟩
    exact congrArg Sample.samples (tget_tmod ({} : Sample) _ hs q
      (Sample.taken (sqCount (qpOf s q) + (s.attn.flights.filter fun f => f.qp == q).length) (qpPlaces s q)))
  · rw [if_neg (by simp [h]), if_neg h]
    exact ⟨hs, fun _ _ => rfl, rfl⟩

/-- Each pair of a list is sampled once. -/
theorem foldl_sampleOne {l : List Nat} (hl : l.Nodup) {s : State} (hs : Tbl.Rising s.led.samples) :
    (l.foldl sampleOne s).led.qps = s.led.qps ∧ (l.foldl sampleOne s).time = s.time ∧
      ∀ q, sampled (l.foldl sampleOne s) q =
        if q ∈ l ∧ (qpOf s q).st = .active then (sampled s q + 1) % 2 ^ 64 else sampled s q := by
  induction l generalizing s with
  | nil => exact ⟨rfl, rfl, fun q => by simp⟩
  | cons x l ih =>
    obtain ⟨hx, hl⟩ := List.nodup_cons.1 hl
    obtain ⟨hqps, htime⟩ := sampleOne_same s x
    obtain ⟨hrise, hother, hown⟩ := sampleOne_counts hs x
    obtain ⟨hqps', htime', hall⟩ := ih hl hrise
    refine ⟨hqps'.trans hqps, htime'.trans htime, fun q => ?_⟩
    have hqp : qpOf (sampleOne s x) q = qpOf s q := by simp only [qpOf, hqps]
    rw [List.foldl_cons, hall q, hqp]
    by_cases hqx : q = x
    · subst hqx
      rw [if_neg (fun h => hx h.1), hown]
      simp
    · rw [hother q hqx]
      simp [hqx]

theorem rising_keys_nodup {α : Type} {t : Tbl α} (h : Tbl.Rising t) : (t.map (·.1)).Nodup := by
  rw [List.Nodup, List.pairwise_map]
  exact h.imp fun h => h.ne

/-- An entry that is not the default is listed. -/
theorem mem_keys_of_tget_ne {α : Type} {d : α} {t : Tbl α} {k : Nat} (h : tget d t k ≠ d) : k ∈ t.map (·.1) := by
  induction t with
  | nil => exact absurd rfl h
  | cons p t ih =>
    rw [tget] at h
    split at h
    · next hk => simp [hk]
    · split at h
      · exact absurd rfl h
      · exact List.mem_cons_of_mem _ (ih h)

/-- Settles O16: by the pair's binding, by a sample of each ACTIVE pair in turn, and by the value written. -/
theorem interruptsAndSamples : Obligations.InterruptsAndSamples := by
  unfold Obligations.InterruptsAndSamples
  refine ⟨fun s q c hinv hat htime => ?_, fun s hinv hsamples => ?_, fun s v ha hv => ?_, fun s v ha hv => ?_,
    fun s v ha hlow hall => ?_⟩
  · have hkeep := carryTo_keeps (c + usCycles (qpOf s q.val).coalTime) s
    have hqp : qpOf (carryTo (c + usCycles (qpOf s q.val).coalTime) s) q.val = qpOf s q.val := qpOf_of_led (hkeep.led rfl) _
    have hout := hkeep.out rfl
    refine ⟨_, exec_interruptCoalesceTimer hat htime, ?_⟩
    rw [qpOf_raiseIrq (by rw [hkeep.led rfl]; exact hinv.led.qps), raiseIrq_time]
    refine ⟨rfl, rfl, le_carryTo_cycle .., fun h => ?_, fun h hup => ?_, fun h hup => ?_⟩
    · rw [raiseIrq_out_of_steward (by rw [hqp]; exact h), hqp, hout]
    · rw [raiseIrq_out_of_cxl (by rw [hqp]; exact h) (by rw [hqp, obj_of_dict (hkeep.dict rfl)]; exact hup), hqp, hout]
    · rw [raiseIrq_out_of_kaf (by rw [hqp]; exact h) (by rw [hqp, linkUp_of_links (hkeep.links rfl)]; exact hup), hqp, hout]
  · have hled := (carryTo_keeps (s.led.sampledAt + nsCycles (obj s 0x7200 1)) s).led rfl
    obtain ⟨hqps, htime, hall⟩ := foldl_sampleOne (l := s.led.qps.map (·.1)) (rising_keys_nodup hinv.led.qps)
      (s := carryTo (s.led.sampledAt + nsCycles (obj s 0x7200 1)) s) (by rw [hled]; exact hsamples)
    refine ⟨_, rfl, ?_⟩
    rw [sampleAll_eq, hled]
    refine ⟨?_, rfl, hqps.trans (congrArg Ledger.qps hled), fun q => ?_⟩
    · exact (le_carryTo_cycle ..).trans (congrArg Time.cycle htime).ge
    · refine (hall q).trans ?_
      rw [qpOf_of_led hled]
      have hsame : sampled (carryTo (s.led.sampledAt + nsCycles (obj s 0x7200 1)) s) q = (tget ({} : Sample) s.led.samples q).samples :=
        congrArg (fun l : Ledger => (tget ({} : Sample) l.samples q).samples) hled
      rw [hsame]
      by_cases hst : (qpOf s q).st = .active
      · have hmem : q ∈ s.led.qps.map (·.1) := mem_keys_of_tget_ne (d := ({} : Qp)) fun h => by
          have : (qpOf s q).st = .disabled := congrArg Qp.st h
          rw [hst] at this
          cases this
        rw [if_pos ⟨hmem, hst⟩, if_pos hst]
      · rw [if_neg (fun h => hst h.2), if_neg hst]
  · subst hv
    exact next_commanded ha rfl
  · refine next_commanded ha ?_
    unfold writeSampleReset
    rw [if_neg (by omega), if_pos hv]
  · have hne : v.toNat ≠ 0xFFFF := fun h => hall (BitVec.eq_of_toNat_eq h)
    refine ⟨bumpObj 0x1022 1 1 32 s, congrArg Host.Outcome.next ?_, (bumpObj_keeps ..).led rfl⟩
    rw [commanded, if_pos ha, writeSampleReset, if_neg hne, if_neg (by omega), written_refused (by decide)]

end Sys2Proof.Machine
end

section
/-! PROOFS. What happens to the cores when a core is fenced and when it returns (R243 to R256). -/

namespace Sys2Proof.Machine

/-! ## Operations that leave the cores alone -/

/-- The cores' records are the same. -/
def CoresSame (s t : State) : Prop := t.attn.cores = s.attn.cores

theorem CoresSame.refl (s : State) : CoresSame s s := rfl
theorem CoresSame.trans {s t u : State} (h : CoresSame s t) (h' : CoresSame t u) : CoresSame s u := Eq.trans h' h
theorem CoresSame.of_attn {s t : State} (h : t.attn = s.attn) : CoresSame s t := congrArg Attn.cores h

theorem CoresSame.foldl {α : Type} {f : State → α → State} (hf : ∀ s x, CoresSame s (f s x)) (l : List α) (s : State) :
    CoresSame s (l.foldl f s) := by
  induction l generalizing s with
  | nil => exact .refl s
  | cons x l ih => exact (hf s x).trans (ih _)

theorem complete_coresSame (id code detail r1 r2 : Nat) (s : State) : CoresSame s (complete id code detail r1 r2 s) := by
  cases hf : flightOf s id with
  | none => rw [complete_of_none code detail r1 r2 hf]; exact .refl s
  | some f =>
    have hprep : CoresSame s (givePrep f s) := .of_attn ((givePrep_keeps f s).attn rfl)
    cases hdown : steppedDown s with
    | true => rw [complete_of_down code detail r1 r2 hf hdown]; exact hprep
    | false =>
      by_cases hqp : f.qp < 1024
      · exact (complete_ended code detail r1 r2 hf hdown hqp).1.cores
      · rw [complete_of_member code detail r1 r2 hf hdown (by omega)]
        exact CoresSame.trans (t := (givePrep f s).setAttn fun a => { a with flights := a.flights.filter fun g => g.id != id })
          hprep (.of_attn ((memberReport_keeps ..).attn rfl))

theorem setFlight_coresSame (f : Flight) (s : State) : CoresSame s (setFlight f s) := rfl

theorem finishRange_coresSame (id : Nat) (s : State) : CoresSame s (finishRange id s) := by
  unfold finishRange
  split
  · exact .refl s
  · extract_lets issued cs c
    split
    · exact complete_coresSame ..
    · exact .refl s

theorem dropMove_coresSame (m : Move) (s : State) : CoresSame s (dropMove m s) := by
  unfold dropMove
  extract_lets u size v
  have hv : CoresSame s v := by
    unfold v
    split
    · exact .of_attn ((giveBack_keeps ..).attn rfl)
    · exact .refl _
  exact hv.trans (.foldl (fun s d => finishRange_coresSame d s) _ v)

theorem freeFrame_coresSame (f : Nat) (s : State) : CoresSame s (freeFrame f s) := by
  unfold freeFrame
  split
  · exact .refl s
  · next v hv =>
    extract_lets u0 u1
    have h0 : CoresSame s u0 := .foldl (fun s m => dropMove_coresSame m s) _ s
    have h1 : CoresSame u0 u1 := .foldl (fun s c => by
      split
      · exact .of_attn ((giveBack_keeps ..).attn rfl)
      · exact .refl _) _ u0
    exact (h0.trans h1).trans rfl

theorem relFrame_coresSame (f : Nat) (s : State) : CoresSame s (relFrame f s) := by
  unfold relFrame
  split
  · exact .refl s
  · next v hv =>
    have hset : CoresSame s (setFrame f { v with count := v.count - 1 } s) := .of_attn ((setFrame_keeps ..).attn rfl)
    extract_lets u
    split
    · split
      · exact hset.trans (freeFrame_coresSame f u)
      · exact hset
    · exact hset

theorem swapEntry_coresSame (fmt fresh : Nat) (s : State) (q : Nat × Page) : CoresSame s (swapEntry fmt fresh s q) := by
  unfold swapEntry
  extract_lets e l p v u
  exact CoresSame.trans (t := relFrame q.2.frame u)
    (CoresSame.trans (.of_attn ((setPage_keeps ..).attn rfl)) (relFrame_coresSame ..)) (.of_attn ((sumRebuild_keeps ..).attn rfl))

theorem spanSend_coresSame (kind arg : Nat) (bs : List Byte) (s : State) (i : Nat) : CoresSame s (spanSend kind arg bs s i) :=
  .of_attn ((spanSend_keeps ..).attn rfl)

theorem workEnded_coresSame (id : Nat) (s : State) : CoresSame s (workEnded id s) := by
  unfold workEnded
  split
  · exact .refl s
  · extract_lets cs c ms
    split
    · exact .refl s
    · split
      · exact complete_coresSame ..
      · split
        · exact CoresSame.trans (.foldl (fun s i => spanSend_coresSame 3 id [] s i) ms s) (complete_coresSame ..)
        · exact .refl s

theorem coreOf_of_coresSame {s t : State} (h : CoresSame s t) (c : Nat) : coreOf t c = coreOf s c :=
  congrArg (fun k => tget ({} : Core) k c) h

/-! ## Operations that leave all but a core's work -/

/-- What goes on with a core's work leaves the rest of its record, and gives an idle core no work. -/
structure Core.Aside (a b : Core) : Prop where
  st : b.st = a.st
  reason : b.reason = a.reason
  count : b.count = a.count
  quad : b.quad = a.quad
  draining : b.draining = a.draining
  work : a.work = none → b.work = none
  queue : a.queue = [] → b.queue = []

theorem Core.Aside.refl (a : Core) : a.Aside a := ⟨rfl, rfl, rfl, rfl, rfl, id, id⟩

theorem Core.Aside.trans {a b c : Core} (h : a.Aside b) (h' : b.Aside c) : a.Aside c :=
  ⟨h'.st.trans h.st, h'.reason.trans h.reason, h'.count.trans h.count, h'.quad.trans h.quad, h'.draining.trans h.draining,
    h'.work ∘ h.work, h'.queue ∘ h.queue⟩

/-- From a state in whose table a number has one core, the numbers stay so and every core's record but its work. -/
def CoresAside (s t : State) : Prop :=
  Tbl.Rising s.attn.cores → Tbl.Rising t.attn.cores ∧ ∀ c, (coreOf s c).Aside (coreOf t c)

theorem CoresSame.aside {s t : State} (h : CoresSame s t) : CoresAside s t := fun hs => by
  refine ⟨Eq.mpr (congrArg Tbl.Rising h) hs, fun c => ?_⟩
  rw [coreOf_of_coresSame h]
  exact .refl _

theorem CoresAside.refl (s : State) : CoresAside s s := (CoresSame.refl s).aside

theorem CoresAside.trans {s t u : State} (h : CoresAside s t) (h' : CoresAside t u) : CoresAside s u := fun hs => by
  obtain ⟨ht, hst⟩ := h hs
  obtain ⟨hu, htu⟩ := h' ht
  exact ⟨hu, fun c => (hst c).trans (htu c)⟩

theorem CoresAside.foldl {α : Type} {f : State → α → State} (hf : ∀ s x, CoresAside s (f s x)) (l : List α) (s : State) :
    CoresAside s (l.foldl f s) := by
  induction l generalizing s with
  | nil => exact .refl s
  | cons x l ih => exact (hf s x).trans (ih _)

/-- A core that has a work item goes on with another state of it. -/
theorem setCore_aside {s : State} {c : Nat} {w v : Work} (hw : (coreOf s c).work = some w) :
    CoresAside s (setCore c { coreOf s c with work := some v } s) := fun hs => by
  refine ⟨tput_rising _ _ hs _, fun x => ?_⟩
  by_cases hx : x = c
  · rw [hx, coreOf_setCore hs]
    exact ⟨rfl, rfl, rfl, rfl, rfl, fun h => by simp [hw] at h, id⟩
  · rw [coreOf_setCore_ne hs hx]
    exact .refl _

theorem noteWait_aside (c : Nat) (s : State) : CoresAside s (noteWait c s) := by
  unfold noteWait
  extract_lets k
  split
  · exact .refl s
  · next w hw =>
    split
    · exact setCore_aside hw
    · next a h1 h2 =>
      extract_lets n
      exact (setCore_aside hw).trans (CoresSame.of_attn (((runCount_keeps ..).attn rfl).trans ((tallyAdd_keeps ..).attn rfl))).aside
    · exact .refl s

theorem issueReads_aside (c : Nat) (s : State) : CoresAside s (issueReads c s) := by
  unfold issueReads
  extract_lets k
  split
  · exact .refl s
  · next w hw => exact (setCore_aside hw).trans (noteWait_aside c _)

theorem swapPage_aside {c : Nat} {w : Work} {s : State} (hw : (coreOf s c).work = some w) (t : Tile) (fresh : Nat) :
    CoresAside s (swapPage c w t fresh s) := by
  unfold swapPage
  split
  · exact .refl s
  · next f hf =>
    extract_lets es k next u
    have hnext : CoresAside s next := (setCore_aside hw).trans (issueReads_aside c _)
    split
    · exact hnext.trans (freeFrame_coresSame ..).aside
    · refine hnext.trans (CoresSame.aside (CoresSame.trans (t := u) ?_ ?_))
      · unfold u
        split
        · exact .of_attn ((setFrame_keeps ..).attn rfl)
        · exact .refl _
      · exact CoresSame.trans (.foldl (swapEntry_coresSame _ _) es u) (setFlight_coresSame ..)

theorem swapAll_aside (s : State) : CoresAside s (swapAll s) := by
  unfold swapAll
  refine .foldl (fun s c => ?_) _ s
  split
  · next w hw =>
    split
    · split
      · exact swapPage_aside hw _ _
      · exact .refl s
    · exact .refl s
  · exact .refl s

theorem tget_map {α : Type} (d : α) (t : Tbl α) (f : α → α) (hf : f d = d) (k : Nat) :
    tget d (t.map fun p => (p.1, f p.2)) k = f (tget d t k) := by
  induction t with
  | nil => exact hf.symm
  | cons p t ih =>
    simp only [List.map_cons, tget, ih]
    split
    · rfl
    · split
      · exact hf.symm
      · rfl

/-- A core without a descriptor's work. -/
def Core.without (id : Nat) (k : Core) : Core :=
  { k with work := k.work.filter fun w => w.desc != id, queue := k.queue.filter fun w => w.desc != id }

theorem coreOf_cancelWork (id : Nat) (s : State) (c : Nat) : coreOf (cancelWork id s) c = (coreOf s c).without id :=
  tget_map ({} : Core) s.attn.cores (Core.without id) rfl c

theorem cancelWork_aside (id : Nat) (s : State) : CoresAside s (cancelWork id s) := fun hs => by
  refine ⟨Tbl.rising_map hs _ fun _ => rfl, fun c => ?_⟩
  rw [coreOf_cancelWork]
  exact ⟨rfl, rfl, rfl, rfl, rfl, fun h => by simp [Core.without, h], fun h => by simp [Core.without, h]⟩

theorem fenceFlight_aside (c : Nat) (s : State) (f : Flight) : CoresAside s (fenceFlight c s f) := by
  unfold fenceFlight
  split
  · extract_lets u
    have hu : CoresAside s u := (cancelWork_aside f.id s).trans (CoresSame.of_attn ((faultDrop_keeps ..).attn rfl)).aside
    split
    · exact hu.trans (complete_coresSame ..).aside
    · exact hu.trans (CoresSame.aside (CoresSame.trans (setFlight_coresSame ..) (.foldl (spanSend_coresSame _ _ _) _ _)))
  · exact (CoresSame.trans (setFlight_coresSame ..) (workEnded_coresSame ..)).aside

/-! ## A core that is fenced (R246, R247) -/

/-- The record of a core that is fenced: its work is abandoned and its reads drain. -/
def Core.fenced (reason : Nat) (k : Core) : Core :=
  { k with st := .fencing, reason := reason, count := min 255 (k.count + 1), work := none, queue := []
           draining := (k.work.map fun w => (outstanding w).map fun g => (g.addr, g.len)).getD []
           entering := false, checkDue := false }

/-- The frames that a core has drawn for a COMPACT's pages go back. -/
def freeFresh (l : List Work) (s : State) : State :=
  l.foldl (fun s w => match w.fresh with
    | some fr => freeFrame fr s
    | none => s) s

theorem freeFresh_coresSame (l : List Work) (s : State) : CoresSame s (freeFresh l s) := by
  refine .foldl (fun s w => ?_) l s
  split
  · exact freeFrame_coresSame ..
  · exact .refl s

theorem sinkCore_coresSame (c : Nat) (s : State) : CoresSame s (sinkCore c s) := .of_attn ((sinkCore_keeps ..).attn rfl)

/-- The descriptors whose work a fenced core had. -/
def fenceOne (c : Nat) (s : State) (d : Nat) : State :=
  match flightOf s d with
  | some f => fenceFlight c s f
  | none => s

/-- The records of what a core met leave the fault queue. -/
def dropCoreFaults (c : Nat) (s : State) : State :=
  s.setXl fun x => { x with queue := x.queue.filter fun r => !(r.kind == 0 && r.source == c)
                            holding := x.holding.filter fun r => !(r.kind == 0 && r.source == c) }

theorem fenceCore_eq (c reason : Nat) (s : State) : fenceCore c reason s =
    swapAll ((((coreOf s c).work.toList ++ (coreOf s c).queue).map (·.desc)).foldl (fenceOne c)
      (logEvent 0x0B 0 (coreLoc c) 0 (0x20 + c) reason 1 (dropCoreFaults c
        (setCore c ((coreOf s c).fenced reason) (sinkCore c (freeFresh ((coreOf s c).work.toList ++ (coreOf s c).queue) s)))))) := rfl

theorem fenceOne_aside (c : Nat) (s : State) (d : Nat) : CoresAside s (fenceOne c s d) := by
  unfold fenceOne
  split
  · exact fenceFlight_aside c s _
  · exact .refl s

/-- What follows the record of a fenced core leaves all but the cores' work. -/
theorem fencedRest_aside (c reason : Nat) (l : List Nat) (s : State) :
    CoresAside s (swapAll (l.foldl (fenceOne c) (logEvent 0x0B 0 (coreLoc c) 0 (0x20 + c) reason 1 (dropCoreFaults c s)))) := by
  have hlog : CoresSame (dropCoreFaults c s) (logEvent 0x0B 0 (coreLoc c) 0 (0x20 + c) reason 1 (dropCoreFaults c s)) :=
    .of_attn ((logEvent_keeps ..).attn rfl)
  have hdrop : CoresSame s (dropCoreFaults c s) := rfl
  exact (hdrop.trans hlog).aside.trans ((CoresAside.foldl (fenceOne_aside c) l _).trans (swapAll_aside _))

/-- A fence writes the one core's record, and leaves all but the work of the others. -/
theorem fenceCore_cores {s : State} (hs : Tbl.Rising s.attn.cores) (c reason : Nat) :
    Tbl.Rising (fenceCore c reason s).attn.cores ∧ ((coreOf s c).fenced reason).Aside (coreOf (fenceCore c reason s) c) ∧
      ∀ x, x ≠ c → (coreOf s x).Aside (coreOf (fenceCore c reason s) x) := by
  rw [fenceCore_eq]
  generalize (coreOf s c).work.toList ++ (coreOf s c).queue = works
  have h0 : CoresSame s (sinkCore c (freeFresh works s)) := (freeFresh_coresSame works s).trans (sinkCore_coresSame ..)
  have hs0 : Tbl.Rising (sinkCore c (freeFresh works s)).attn.cores := (h0.aside hs).1
  obtain ⟨hrise, haside⟩ := fencedRest_aside c reason (works.map (·.desc))
    (setCore c ((coreOf s c).fenced reason) (sinkCore c (freeFresh works s))) (tput_rising _ _ hs0 _)
  refine ⟨hrise, ?_, fun x hx => ?_⟩
  · have h := haside c
    rwa [coreOf_setCore hs0] at h
  · have h := haside x
    rwa [coreOf_setCore_ne hs0 hx, coreOf_of_coresSame h0] at h

theorem belowRating_coresSame (was : Nat) (s : State) : CoresSame s (belowRating was s) := .of_attn ((belowRating_keeps ..).attn rfl)

/-- What a core reads once it has been fenced with a reason, its count of fences having been `n`. -/
structure Core.IsFenced (reason n : Nat) (b : Core) : Prop where
  st : b.st = .fencing
  reason : b.reason = reason
  count : b.count = min 255 (n + 1)
  work : b.work = none
  queue : b.queue = []

theorem Core.isFenced_of_aside {reason : Nat} {a b : Core} (h : (a.fenced reason).Aside b) : Core.IsFenced reason a.count b :=
  ⟨h.st, h.reason, h.count, h.work rfl, h.queue rfl⟩

theorem Core.IsFenced.aside {reason n : Nat} {a b : Core} (h : Core.IsFenced reason n a) (h' : a.Aside b) : Core.IsFenced reason n b :=
  ⟨h'.st.trans h.st, h'.reason.trans h.reason, h'.count.trans h.count, h'.work h.work, h'.queue h.queue⟩

theorem fence_aside {s : State} (hs : Tbl.Rising s.attn.cores) (c reason : Nat) :
    ((coreOf s c).fenced reason).Aside (coreOf (fence c reason s) c) := by
  unfold fence
  rw [coreOf_of_coresSame (belowRating_coresSame ..)]
  exact (fenceCore_cores hs c reason).2.1

/-- One core of a failing quadrant: a core that runs or is tested is fenced, and the others keep all but their work. -/
theorem quadCore_cores {s : State} (hs : Tbl.Rising s.attn.cores) (c : Nat) :
    Tbl.Rising (quadCore s c).attn.cores ∧ (∀ x, x ≠ c → (coreOf s x).Aside (coreOf (quadCore s c) x)) ∧
      ((coreOf s c).st = .inService ∨ (coreOf s c).st = .testing → Core.IsFenced 5 (coreOf s c).count (coreOf (quadCore s c) c)) := by
  obtain ⟨hrise, hown, hother⟩ := fenceCore_cores hs c 5
  have hset : ∀ v, Tbl.Rising (setCore c v s).attn.cores ∧ ∀ x, x ≠ c → (coreOf s x).Aside (coreOf (setCore c v s) x) := fun v =>
    ⟨tput_rising _ _ hs _, fun x hx => by rw [coreOf_setCore_ne hs hx]; exact .refl _⟩
  unfold quadCore
  extract_lets k
  split
  · exact ⟨hrise, hother, fun _ => Core.isFenced_of_aside hown⟩
  · exact ⟨hrise, hother, fun _ => Core.isFenced_of_aside hown⟩
  · next hst => exact ⟨(hset _).1, (hset _).2, fun h => by simp_all [k]⟩
  · next hin htest _ => exact ⟨(hset _).1, (hset _).2, fun h => (h.elim hin htest).elim⟩

theorem foldl_quadCore {l : List Nat} (hl : l.Nodup) {s : State} (hs : Tbl.Rising s.attn.cores) :
    (∀ x, x ∉ l → (coreOf s x).Aside (coreOf (l.foldl quadCore s) x)) ∧
      ∀ x ∈ l, (coreOf s x).st = .inService ∨ (coreOf s x).st = .testing →
        Core.IsFenced 5 (coreOf s x).count (coreOf (l.foldl quadCore s) x) := by
  induction l generalizing s with
  | nil => exact ⟨fun x _ => .refl _, fun x hx => by simp at hx⟩
  | cons c l ih =>
    obtain ⟨hc, hl⟩ := List.nodup_cons.1 hl
    obtain ⟨hrise, hother, hown⟩ := quadCore_cores hs c
    obtain ⟨hout, hin⟩ := ih hl hrise
    refine ⟨fun x hx => ?_, fun x hx hst => ?_⟩
    · obtain ⟨hxc, hxl⟩ : x ≠ c ∧ x ∉ l := by simpa using hx
      exact (hother x hxc).trans (hout x hxl)
    · by_cases hxc : x = c
      · subst hxc
        exact (hown hst).aside (hout x hc)
      · have haside := hother x hxc
        have h := hin x ((List.mem_cons.1 hx).resolve_left hxc) (by rw [haside.st]; exact hst)
        rwa [haside.count] at h

/-! ## The commands -/

theorem exec_checkTile {s : State} {c : Fin 20} (ok : Bool) (hst : (coreOf s c.val).st = .inService) (hwork : (coreOf s c.val).work = none)
    (hdue : (coreOf s c.val).checkDue = true) (hwin : s.clk.winOpen = true) : exec (.checkTile c ok) s =
      .next (if ok then setCore c.val { coreOf s c.val with checkDue := false } s
        else fence c.val 2 (setCore c.val { coreOf s c.val with checkDue := false } s)) :=
  if_pos ⟨hst, by simp [hwork], hdue, hwin⟩

section
variable {s : State} {c : Fin 20} {w : Work} (hst : (coreOf s c.val).st = .inService) (hwork : (coreOf s c.val).work = some w)
include hst hwork

theorem exec_coreWatchdog : exec (.coreWatchdog c) s = if waiting w then .next s
    else if arrivalWins (w.tick + usCycles (obj s 0x9001 6)) (endsTile c) s then .next (carryTo (w.tick + usCycles (obj s 0x9001 6)) s)
    else .next (fence c.val 4 (carryTo (w.tick + usCycles (obj s 0x9001 6)) s)) := by
  show execCoreWatchdog c s = _
  unfold execCoreWatchdog
  simp only [hwork, hst, ne_eq, not_true_eq_false, false_or]

end

theorem exec_fenceCore_of_inService {s : State} {p : Prin} {v : BitVec 8} (ha : answering s = true) (hp : mayTouch p 0x9001 1 = true)
    (hv : v.toNat < 20) (hst : (coreOf s v.toNat).st = .inService) : exec (.fenceCore p v) s = .next (fence v.toNat 6 s) := by
  refine next_objCmd ha hp ?_
  unfold writeFence
  rw [if_neg (by omega), if_pos hst]

theorem fence_time (c reason : Nat) (s : State) : (fence c reason s).time = s.time :=
  ((belowRating_keeps ..).time rfl).trans ((fenceCore_keeps ..).time rfl)

/-- Settles O23: a fence writes the core's record once, and what follows it goes on with the others' work alone. -/
theorem coresAreFenced : Obligations.CoresAreFenced := by
  unfold Obligations.CoresAreFenced
  refine ⟨fun s c hinv hst hwork hdue hwin => exec_checkTile true hst hwork hdue hwin, fun s c hinv hst hwork hdue hwin => ?_,
    fun s c w hinv hst hwork hwait hwins => ?_, fun s c w hst hwork hwait => ?_, fun s c w hst hwork hwait hwins => ?_,
    fun s c hinv hst => ?_, fun s q hinv => ?_, fun s p v hinv hv hst hp ha => ?_⟩
  · have h := Core.isFenced_of_aside (fence_aside (s := setCore c.val { coreOf s c.val with checkDue := false } s)
      (tput_rising _ _ hinv.cores _) c.val 2)
    rw [coreOf_setCore hinv.cores] at h
    exact ⟨_, (exec_checkTile false hst hwork hdue hwin).trans (by rw [if_neg Bool.false_ne_true]), h.st, h.reason, h.count, h.work, h.queue⟩
  · have hattn := (carryTo_keeps (w.tick + usCycles (obj s 0x9001 6)) s).attn rfl
    have haside := fence_aside (s := carryTo (w.tick + usCycles (obj s 0x9001 6)) s) (by rw [hattn]; exact hinv.cores) c.val 4
    rw [coreOf_of_attn hattn] at haside
    have h := Core.isFenced_of_aside haside
    refine ⟨_, (exec_coreWatchdog hst hwork).trans (by rw [hwait, hwins]; rfl), h.st, h.reason, h.count, h.work, h.queue, ?_, ?_⟩
    · rw [haside.draining, Core.fenced, hwork]
      rfl
    · rw [fence_time]
      exact le_carryTo_cycle ..
  · rw [exec_coreWatchdog hst hwork, if_pos hwait]
  · rw [exec_coreWatchdog hst hwork, if_neg (by simp [hwait]), if_pos hwins]
  · have h := Core.isFenced_of_aside (fence_aside hinv.cores c.val 3)
    exact ⟨_, if_pos hst, h.st, h.reason, h.count, h.work, h.queue⟩
  · refine ⟨_, rfl, fun i hi hst => ?_⟩
    rw [coreOf_of_coresSame (belowRating_coresSame ..)]
    have hnodup : ((List.range 5).map fun i => 5 * q.val + i).Nodup :=
      List.nodup_range.map fun a b h => by simpa using h
    have h := (foldl_quadCore hnodup hinv.cores).2 (5 * q.val + i) (List.mem_map.2 ⟨i, List.mem_range.2 hi, rfl⟩) hst
    rw [List.foldl_map] at h
    exact ⟨h.st, h.reason, h.count, h.work, h.queue⟩
  · have h := Core.isFenced_of_aside (fence_aside hinv.cores v.toNat 6)
    exact ⟨_, exec_fenceCore_of_inService ha hp hv hst, h.st, h.reason, h.count, h.work, h.queue⟩

/-! ## The return to service (R247, R254 to R256) -/

theorem exec_returnCore_of_fenced {s : State} {p : Prin} {v : BitVec 8} (ha : answering s = true) (hp : mayTouch p 0x9001 2 = true)
    (hv : v.toNat < 20) (hst : (coreOf s v.toNat).st = .fenced) (hreason : (coreOf s v.toNat).reason ≠ 5) :
    exec (.returnCore p v) s = .next (setCore v.toNat { coreOf s v.toNat with st := .testing } s) := by
  refine next_objCmd ha hp ?_
  unfold writeReturn
  rw [if_neg (by omega), if_neg (by simp [hst, hreason]), if_pos hst]

theorem coreOf_logEvent (a b c d e f g c' : Nat) (s : State) : coreOf (logEvent a b c d e f g s) c' = coreOf s c' :=
  coreOf_of_attn ((logEvent_keeps a b c d e f g s).attn rfl) c'

/-- The record of a core whose test has failed. -/
def Core.testFailed (k : Core) : Core := { k with reason := 1, count := min 255 (k.count + 1) }

/-- The state after a failed test of core `c`. -/
def testFails (c : Nat) (s : State) : State := logEvent 0x0B 0 (coreLoc c) 0 (0x20 + c) 1 1 (setCore c
  { (coreOf s c).testFailed with st := fencedState s (coreOf s c).testFailed } s)

theorem exec_coreTestEnd {s : State} {c : Fin 20} (ok : Bool) (hst : (coreOf s c.val).st = .testing)
    (hentering : (coreOf s c.val).entering = false) : exec (.coreTestEnd c ok) s =
      if ok then .next (setCore c.val { coreOf s c.val with entering := true } s) else .next (testFails c.val s) :=
  if_pos ⟨hst, by simp [hentering]⟩

theorem coreOf_testFails {s : State} (hs : Tbl.Rising s.attn.cores) (c : Nat) : coreOf (testFails c s) c =
    { (coreOf s c).testFailed with st := fencedState s (coreOf s c).testFailed } := by
  rw [testFails, coreOf_logEvent, coreOf_setCore hs]

/-- Settles O24: by the state of the core that each command finds. -/
theorem fencedCoresReturn : Obligations.FencedCoresReturn := by
  unfold Obligations.FencedCoresReturn
  refine ⟨fun s c hinv hst => ?_, fun s p v hinv hv hst hreason hp ha => ?_, fun s c hinv hst hentering => ?_,
    fun s c hinv hst hentering => ?_⟩
  · refine ⟨_, if_pos hst, ?_⟩
    rw [coreOf_setCore hinv.cores]
    exact ⟨rfl, rfl, rfl, rfl, fun e he => coreOf_setCore_ne hinv.cores he _⟩
  · exact ⟨_, exec_returnCore_of_fenced ha hp hv hst hreason, coreOf_setCore hinv.cores .., fun e he =>
      coreOf_setCore_ne hinv.cores he _⟩
  · rw [exec_coreTestEnd true hst hentering, if_pos rfl]
  · refine ⟨testFails c.val s, by rw [exec_coreTestEnd false hst hentering, if_neg Bool.false_ne_true], ?_⟩
    rw [coreOf_testFails hinv.cores]
    exact ⟨rfl, rfl, rfl⟩

end Sys2Proof.Machine
end

section
/-! PROOFS. ATTEND_DEADLINE and ADMISSION_HOLD_LIMIT (R139, R163, R405, R406, R535). -/

namespace Sys2Proof.Machine

theorem steppedDown_of_span {s t : State} (h : t.span = s.span) : steppedDown t = steppedDown s := by
  simp only [steppedDown, h]

theorem flightOf_of_attn {s t : State} (h : t.attn = s.attn) (id : Nat) : flightOf t id = flightOf s id := by
  simp only [flightOf, h]

theorem flightOf_of_flights {s t : State} (h : t.attn.flights = s.attn.flights) (id : Nat) : flightOf t id = flightOf s id := by
  simp only [flightOf, h]

theorem lengthSeen_of_kv {s t : State} (h : t.kv = s.kv) (f : Flight) : lengthSeen t f = lengthSeen s f := by
  simp only [lengthSeen, ctxOf_of_kv h]

theorem Answered.of_qps {s t : State} {f : Flight} {code detail r1 r2 : Nat} (h : Answered s f code detail r1 r2)
    (hflights : t.attn.flights = s.attn.flights) (hled : t.led = s.led) : Answered t f code detail r1 r2 := by
  unfold Answered at *
  rwa [hflights, qpOf_of_led hled]

theorem complete_time (id code detail r1 r2 : Nat) (s : State) : (complete id code detail r1 r2 s).time = s.time :=
  (complete_keeps ..).time rfl

/-- A converted page that waits at core `c` goes in where it may. -/
def swapCore (s : State) (c : Nat) : State :=
  match (coreOf s c).work with
  | some w =>
    match w.fresh, w.issued with
    | some fr, t :: _ => if swapFree s w t then swapPage c w t fr s else s
    | _, _ => s
  | none => s

theorem swapAll_eq (s : State) : swapAll s = (List.range 20).foldl swapCore s := rfl

theorem swapCore_of_none {s : State} (h : ∀ c w, (coreOf s c).work = some w → w.fresh = none) (c : Nat) : swapCore s c = s := by
  unfold swapCore
  split
  · next w hw => rw [h c w hw]
  · rfl

/-- Without a converted page that waits there is nothing to swap. -/
theorem swapAll_of_none {s : State} (h : ∀ c w, (coreOf s c).work = some w → w.fresh = none) : swapAll s = s := by
  rw [swapAll_eq]
  induction List.range 20 with
  | nil => rfl
  | cons c l ih => rw [List.foldl_cons, swapCore_of_none h, ih]

/-- No place at a toll of its tenant is left to a descriptor that ends. -/
def leaveToll (d : Nat) (f : Flight) (s : State) : State := s.setShape fun h => { h with tolls := h.tolls.map fun t =>
  (if t.1 = f.tenant then (t.1, { t.2 with queue := t.2.queue.filter fun i => i.1 != d }) else t) }

theorem leaveToll_keeps (d : Nat) (f : Flight) (s : State) : Keeps 0x2000 s (leaveToll d f s) := State.setShape_keeps ..

/-- An ATTEND is stopped wherever it runs. -/
def stopped (d : Nat) (f : Flight) (s : State) : State :=
  leaveToll d f (faultDrop d (f.members.foldl (spanSend 3 d []) (cancelWork d s)))

theorem stopped_keeps (d : Nat) (f : Flight) (s : State) : Keeps 0x206000 (cancelWork d s) (stopped d f s) :=
  (leaveToll_keeps ..).step ((faultDrop_keeps ..).step
    (Keeps.foldl (P := 0x206000) (.refl _ _) fun _ _ h => (spanSend_keeps ..).step h))

theorem flightOf_stopped (d : Nat) (f : Flight) (s : State) (id : Nat) : flightOf (stopped d f s) id = flightOf s id :=
  flightOf_of_attn (s := cancelWork d s) ((stopped_keeps d f s).attn rfl) id

theorem coreOf_stopped (d : Nat) (f : Flight) (s : State) (c : Nat) : coreOf (stopped d f s) c = (coreOf s c).without d :=
  (coreOf_of_attn ((stopped_keeps d f s).attn rfl) c).trans (coreOf_cancelWork d s c)

section
variable {s : State} {d : Nat} {f : Flight} (hf : flightOf s d = some f) (hqp : f.qp < 1024) (hop : dOpcode f.desc = 1)
  (hdeadline : aDeadline f.desc ≠ 0) (hstage : f.stage ≠ .pushing)
include hf hqp hop hdeadline hstage

theorem exec_attendDeadline : exec (.attendDeadline d) s =
    if arrivalWins (f.readAt + usCycles (aDeadline f.desc)) (· == .outputFormed d) s = true
    then .next (carryTo (f.readAt + usCycles (aDeadline f.desc)) s)
    else .next (swapAll (complete d ccAborted 1 0 0 (stopped d f (carryTo (f.readAt + usCycles (aDeadline f.desc)) s)))) := by
  show execAttendDeadline d s = _
  unfold execAttendDeadline
  simp only [hf]
  rw [if_neg (by simp [hop, hdeadline, hstage, hqp])]
  rfl

end

/-- An aborted descriptor that is no APPEND and no range descriptor carries no result. -/
theorem entryResult_zero {f : Flight} (s : State) (code : Nat) (hop : dOpcode f.desc ≠ 2) : entryResult s f code 0 0 = (0, 0) := by
  simp [entryResult, hop]

/-- The end of a descriptor with a code of its own, with no result but an APPEND's length (R163). -/
theorem answered_failed {s : State} {id : Nat} {f : Flight} (hs : Tbl.Rising s.led.qps) {code detail : Nat}
    (hf : flightOf s id = some f) (hdown : steppedDown s = false) (hqp : f.qp < 1024) (hpos : code ≠ 0) (hkeep : keepResults 2 code = false)
    (hcode : code < 2 ^ 8) (hdetail : detail < 2 ^ 8) :
    Answered (complete id code detail 0 0 s) f code detail (if dOpcode f.desc = 2 then lengthSeen s f % 2 ^ 32 else 0) 0 := by
  have hfinal : finalCode f code = code := by simp [finalCode, hpos]
  have h := answered_complete hs 0 0 (code := code) hf hdown hqp (by rw [hfinal]; exact hcode) hdetail
  rw [hfinal] at h
  by_cases hop : dOpcode f.desc = 2
  · have hres : entryResult s f code 0 0 = (lengthSeen s f, 0) := by simp [entryResult, hop, hfinal, hkeep]
    rw [hres] at h
    rwa [if_pos hop]
  · rw [entryResult_zero s code hop] at h
    rwa [if_neg hop]

theorem exec_admissionHoldLimit_flight {s : State} {d : Nat} {f : Flight} (q : Fin 1024) (hf : flightOf s d = some f) :
    exec (.admissionHoldLimit q (some d)) s = .next (holdFlight f s) := by
  show execAdmissionHoldLimit q (some d) s = _
  unfold execAdmissionHoldLimit
  simp only [hf]

theorem exec_admissionHoldLimit_req {s : State} {d : Nat} {r : Req} (q : Fin 1024) (hf : flightOf s d = none) (hr : reqOf s d = some r) :
    exec (.admissionHoldLimit q (some d)) s = .next (holdRequest r s) := by
  show execAdmissionHoldLimit q (some d) s = _
  unfold execAdmissionHoldLimit
  simp only [hf, hr]

/-- A descriptor held to the limit: whether its ATTEND's deadline is that cycle too. -/
def deadlineIs (f : Flight) (due : Nat) : Bool :=
  dOpcode f.desc == 1 && aDeadline f.desc != 0 && f.readAt + usCycles (aDeadline f.desc) == due

theorem holdFlight_of_held {s : State} {f : Flight} {c due : Nat} (hheld : f.heldAt = some c)
    (hdue : due = c + (holdLimit s f.tenant - f.heldFor)) (hwins : f.forToll = true → arrivalWins due (releasesFrom f.tenant) s = false) :
    holdFlight f s = if deadlineIs f due then complete f.id 0x41 1 0 0 (tollLeave f.id (carryTo due s))
      else complete f.id (if f.forToll then 0x11 else 0x12) 0 0 0 (tollLeave f.id (carryTo due s)) := by
  subst hdue
  unfold holdFlight
  simp only [hheld]
  rw [if_neg (fun h => by simp [hwins h.1] at h)]
  rfl

/-- The end of a descriptor that its toll lets go. -/
theorem answered_leaving {s : State} {d due : Nat} {f : Flight} (hinv : Inv s) {code detail : Nat} (hf : flightOf s d = some f)
    (hdown : steppedDown s = false) (hqp : f.qp < 1024) (hpos : code ≠ 0) (hkeep : keepResults 2 code = false)
    (hcode : code < 2 ^ 8) (hdetail : detail < 2 ^ 8) :
    Answered (complete f.id code detail 0 0 (tollLeave f.id (carryTo due s))) f code detail
      (if dOpcode f.desc = 2 then lengthSeen s f % 2 ^ 32 else 0) 0 ∧
    due ≤ (complete f.id code detail 0 0 (tollLeave f.id (carryTo due s))).time.cycle := by
  have hk : Keeps 0x2091 s (tollLeave f.id (carryTo due s)) := (tollLeave_keeps ..).step (carryTo_keeps ..).mono
  have hid := flightOf_id hf
  have h := answered_failed (s := tollLeave f.id (carryTo due s)) (by rw [hk.led rfl]; exact hinv.led.qps)
    (by rw [flightOf_of_attn (hk.attn rfl) f.id, hid, hf]) (by rw [steppedDown_of_span (hk.span rfl), hdown]) hqp hpos hkeep hcode hdetail
  rw [lengthSeen_of_kv (hk.kv rfl)] at h
  refine ⟨h, ?_⟩
  rw [complete_time, (tollLeave_keeps ..).time rfl]
  exact le_carryTo_cycle ..

theorem holdStarved_of_starved {s : State} {q c : Nat} (hstarved : (qpOf s q).starved = true) (hat : (qpOf s q).starvedAt = some c) :
    holdStarved q s = readHead q false (carryTo (c + holdLimit s (qpOf s q).tenant) s) := by
  unfold holdStarved
  simp only [hat, hstarved, if_true]

theorem headTaken_time (q : Nat) (place : Bool) (s : State) :
    (headTaken q place s).time = (carryTo (tget 0 (qpOf s q).sqAt (qpOf s q).rd + 1) s).time :=
  (traceEvent_keeps ..).time rfl

/-- A head that is read without a place is answered in the cycle in which it is read. -/
theorem readHead_time (q : Nat) (s : State) : (readHead q false s).time = (headTaken q false s).time := by
  unfold readHead
  extract_lets p u f u1 u2 u3 len
  split
  · exact complete_time ..
  · rw [if_pos (by rfl)]
    exact complete_time ..

theorem cycle_le_readHead (q : Nat) (s : State) : s.time.cycle ≤ (readHead q false s).time.cycle := by
  rw [readHead_time, headTaken_time, carryTo_cycle]
  exact Nat.le_max_left ..

theorem reqOf_id {s : State} {id : Nat} {r : Req} (h : reqOf s id = some r) : r.id = id := by
  simpa using List.find?_some h

/-- Settles O20: by what stands at the limit. The timer fires in a state that differs from the present one in its time alone. -/
theorem deadlinesAndHoldsEnd : Obligations.DeadlinesAndHoldsEnd := by
  unfold Obligations.DeadlinesAndHoldsEnd
  refine ⟨fun s d f hinv hf hqp hop hdeadline hstage hdown hwins hfresh => ?_,
    fun s d f hf hqp hop hdeadline hstage hwins => (exec_attendDeadline hf hqp hop hdeadline hstage).trans (if_pos hwins),
    fun s q d c due f hinv hf hqp hheld hdue hdown hwins hlate => ?_,
    fun s q d c due f hinv hf hqp hheld hdue hdown hwins hop hdeadline hlate => ?_, fun s q c hinv hstarved hat => ?_,
    fun s q d r hf hr hstage htenant hsrc hwins => ?_⟩
  · have hk := stopped_keeps d f (carryTo (f.readAt + usCycles (aDeadline f.desc)) s)
    have hcarry := carryTo_keeps (f.readAt + usCycles (aDeadline f.desc)) s
    generalize hu : stopped d f (carryTo (f.readAt + usCycles (aDeadline f.desc)) s) = u at hk
    have hled : u.led = s.led := (hk.led rfl).trans (hcarry.led rfl)
    have hfu : flightOf u d = some f := by rw [← hu, flightOf_stopped, flightOf_of_attn (hcarry.attn rfl), hf]
    have hcore : ∀ c, coreOf (complete d ccAborted 1 0 0 u) c = (coreOf s c).without d := fun c => by
      rw [coreOf_of_coresSame (complete_coresSame ..), ← hu, coreOf_stopped, coreOf_of_attn (hcarry.attn rfl)]
    have hdownu : steppedDown u = false := by rw [steppedDown_of_span ((hk.span rfl).trans (hcarry.span rfl)), hdown]
    have hans := answered_failed (s := u) (code := ccAborted) (detail := 1) (by rw [hled]; exact hinv.led.qps) hfu hdownu hqp
      (by decide) rfl (by decide) (by decide)
    have hnone : ∀ c w, (coreOf (complete d ccAborted 1 0 0 u) c).work = some w → w.fresh = none := fun c w hw => by
      rw [hcore, Core.without] at hw
      exact hfresh c w (Option.filter_eq_some_iff.1 hw).1
    refine ⟨_, (exec_attendDeadline hf hqp hop hdeadline hstage).trans (if_neg (by rw [hwins]; decide)), ?_⟩
    rw [hu, swapAll_of_none hnone, complete_time, hk.time rfl]
    refine ⟨?_, le_carryTo_cycle .., fun c w hw => ?_⟩
    · rwa [if_neg (by rw [hop]; decide)] at hans
    · rw [hcore, Core.without] at hw
      simpa using (Option.filter_eq_some_iff.1 hw).2
  · have hnot : deadlineIs f due = false := by
      rcases hlate with h | h | h <;> simp [deadlineIs, h]
    refine ⟨_, (exec_admissionHoldLimit_flight q hf).trans (by rw [holdFlight_of_held hheld hdue hwins, hnot]), ?_⟩
    cases hforToll : f.forToll
    · exact answered_leaving hinv hf hdown hqp (by decide) rfl (by decide) (by decide)
    · exact answered_leaving hinv hf hdown hqp (by decide) rfl (by decide) (by decide)
  · have hnot : deadlineIs f due = true := by simp [deadlineIs, hop, hdeadline, hlate]
    refine ⟨_, (exec_admissionHoldLimit_flight q hf).trans (by rw [holdFlight_of_held hheld hdue hwins, hnot, if_pos rfl]), ?_⟩
    have h := answered_leaving (due := due) hinv (code := 0x41) (detail := 1) hf hdown hqp (by decide) rfl (by decide) (by decide)
    rwa [if_neg (by rw [hop]; decide)] at h
  · have hcarry := carryTo_keeps (c + holdLimit s (qpOf s q.val).tenant) s
    refine ⟨_, rfl, ?_⟩
    rw [holdStarved_of_starved hstarved hat, readHead_steady (by rw [hcarry.led rfl]; exact hinv.led.qps), qpOf_of_led (hcarry.led rfl)]
    exact ⟨rfl, rfl, (le_carryTo_cycle ..).trans (cycle_le_readHead ..)⟩
  · rw [exec_admissionHoldLimit_req q hf hr]
    unfold holdRequest
    extract_lets due
    rw [if_neg (by simp [hstage]; omega), if_neg (by rw [hwins]; decide), reqOf_id hr]
    rfl

end Sys2Proof.Machine
end

section
/-! PROOFS. APPEND, FORK, TRIM and SUMMARIZE (R140 to R162), PREFETCH, PIN and EVICT (R156 to R160). -/

namespace Sys2Proof.Machine

/-! ## What leaves the contexts, pages and frames alone -/

/-- The tables of contexts, pages and frames are the same: all that changes are slabs and the list of moves. -/
def KvAside (s t : State) : Prop :=
  t.kv = { s.kv with slabs := t.kv.slabs, moves := t.kv.moves, nextMove := t.kv.nextMove }

theorem KvAside.refl (s : State) : KvAside s s := rfl

theorem KvAside.of_kv {s t : State} (h : t.kv = s.kv) : KvAside s t := by
  unfold KvAside
  rw [h]

theorem KvAside.trans {s t u : State} (h : KvAside s t) (h' : KvAside t u) : KvAside s u := by
  unfold KvAside at *
  rw [h'] at *
  rw [h]

theorem KvAside.foldl {α : Type} {f : State → α → State} (hf : ∀ s x, KvAside s (f s x)) (l : List α) (s : State) :
    KvAside s (l.foldl f s) := by
  induction l generalizing s with
  | nil => exact .refl s
  | cons x l ih => exact (hf s x).trans (ih _)

theorem KvAside.pages {s t : State} (h : KvAside s t) : t.kv.pages = s.kv.pages := by rw [h]
theorem KvAside.frames {s t : State} (h : KvAside s t) : t.kv.frames = s.kv.frames := by rw [h]
theorem KvAside.ctxs {s t : State} (h : KvAside s t) : t.kv.ctxs = s.kv.ctxs := by rw [h]

theorem givePrep_kvAside (f : Flight) (s : State) : KvAside s (givePrep f s) := by
  unfold KvAside
  rw [givePrep_kv]

theorem complete_kvAside (id code detail r1 r2 : Nat) (s : State) : KvAside s (complete id code detail r1 r2 s) := by
  cases hf : flightOf s id with
  | none => rw [complete_of_none code detail r1 r2 hf]; exact .refl s
  | some f =>
    cases hdown : steppedDown s with
    | true => rw [complete_of_down code detail r1 r2 hf hdown]; exact givePrep_kvAside f s
    | false =>
      by_cases hqp : f.qp < 1024
      · unfold KvAside
        rw [(complete_ended code detail r1 r2 hf hdown hqp).2]
      · rw [complete_of_member code detail r1 r2 hf hdown (by omega)]
        exact (givePrep_kvAside f s).trans (.of_kv ((memberReport_keeps ..).kv rfl))

theorem finishRange_kvAside (id : Nat) (s : State) : KvAside s (finishRange id s) := by
  unfold finishRange
  split
  · exact .refl s
  · extract_lets issued cs c
    split
    · exact complete_kvAside ..
    · exact .refl s

theorem endMove_kvAside (m : Move) (s : State) : KvAside s (endMove m s) := by
  unfold endMove
  extract_lets u
  have hu : KvAside s u := by
    unfold KvAside
    rw [(nvmeDrop_keeps ..).kv rfl]
    rfl
  exact hu.trans (.foldl (fun s d => finishRange_kvAside d s) _ u)

theorem lateDrop_kvAside (s : State) (m : Move) : KvAside s (lateDrop s m) := by
  have h : Keeps 0x42 s (tenantCount m.tenant 0x0E 1 (bumpObj 0x4300 0x0C 1 32 s)) :=
    (tenantCount_keeps ..).step ((bumpObj_keeps ..).mono rfl)
  exact (KvAside.of_kv (h.kv rfl)).trans (endMove_kvAside ..)

theorem raiseMove_kvAside (frame target : Nat) (up : Bool) (prio : Nat) (drop2 : Bool) (desc core slot : Option Nat) (s : State) :
    KvAside s (raiseMove frame target up prio drop2 desc core slot s) := by
  unfold raiseMove
  extract_lets u ms joins t
  have hu : KvAside s u := .foldl (fun s m => lateDrop_kvAside s m) _ s
  split
  · exact hu.trans rfl
  · split
    · exact hu
    · exact hu.trans rfl

/-! ## A descriptor at its dispatch (R123, R582) -/

/-- A flight with what its entry is made of as another has it. -/
structure Flight.Alike (f g : Flight) : Prop where
  id : g.id = f.id
  qp : g.qp = f.qp
  desc : g.desc = f.desc
  slot : g.slot = f.slot
  held : g.held = f.held

/-- A descriptor at its dispatch is its flight, with the gates passed (R520). -/
theorem dispatchable_some {s : State} {d op : Nat} {f : Flight} (h : dispatchable s d op = some f) :
    (∃ g, flightOf s d = some g ∧ Flight.Alike g f) ∧ f.id = d ∧ f.qp < 1024 ∧ dOpcode f.desc = op := by
  unfold dispatchable at h
  split at h
  · cases h
  · next g hg =>
    split at h
    · next hc =>
      cases h
      exact ⟨⟨g, hg, rfl, rfl, rfl, rfl, rfl⟩, (flightOf_id hg :), hc.1, hc.2.1⟩
    · cases h

theorem ctxGone_of_same {s t : State} (hled : t.led = s.led) (hkv : t.kv = s.kv) (f : Flight) : ctxGone t f = ctxGone s f := by
  simp only [ctxGone, ctxOf_of_kv hkv, tenantOf_of_led hled]

theorem spanMask_of_dict {s t : State} (h : t.dict = s.dict) (c : Nat) : spanMask t c = spanMask s c := by
  simp only [spanMask, objDom_of_dict h]

theorem rangePages_of_kv {s t : State} (h : t.kv = s.kv) (d : Desc) : rangePages t d = rangePages s d := by
  simp only [rangePages, layerPages, liveOf, ctxOf_of_kv h, h]

/-! ## The effects' results -/

theorem appendCheck_ne_zero {s : State} {d : Desc} {code detail : Nat} (h : appendCheck s d = some (code, detail)) : code ≠ 0 := by
  unfold appendCheck at h
  simp only [ccBadDesc] at h
  split_ifs at h <;> simp_all <;> omega

theorem forkCheck_ne_zero {s : State} {d : Desc} {code detail : Nat} (h : forkCheck s d = some (code, detail)) : code ≠ 0 := by
  unfold forkCheck at h
  simp only [ccBadDesc] at h
  split_ifs at h <;> simp_all <;> omega

theorem ccBadDesc_ne_zero : ccBadDesc ≠ 0 := by decide

/-- An APPEND that is carried out answers the new length. -/
theorem appendEff_done (d : Desc) (src : List Byte) (s : State) :
    (appendEff d src s).code = 0 →
      (appendEff d src s).detail = 0 ∧ (appendEff d src s).r1 = (ctxOf s (dCtx d)).length + pTokens d := by
  unfold appendEff
  extract_lets c x src0 work
  split
  · next hc => exact fun h => absurd h (appendCheck_ne_zero hc)
  · split
    · exact fun h => absurd h ccBadDesc_ne_zero
    · rcases appendAll d src work 0 s with ⟨_ | k, detail, n, t⟩
      · cases pRotate d <;> exact fun _ => ⟨rfl, rfl⟩
      · exact fun h => absurd h (Nat.succ_ne_zero k)

/-- A FORK that is carried out answers its prefix. -/
theorem forkEff_done (d : Desc) (s : State) : (forkEff d s).code = 0 → (forkEff d s).detail = 0 ∧ (forkEff d s).r1 = fPrefix d := by
  unfold forkEff
  extract_lets c e n x s0 src s1 src' s2 s3 work
  split
  · next hc => exact fun h => absurd h (forkCheck_ne_zero hc)
  · split
    · next hn => exact fun _ => ⟨rfl, hn.symm⟩
    · rcases forkAll c e n work 0 s3 with ⟨_ | k, detail, m, t⟩
      · exact fun _ => ⟨rfl, rfl⟩
      · exact fun h => absurd h (Nat.succ_ne_zero k)

/-- A TRIM that is carried out answers the length that it leaves. -/
theorem trimEff_done (d : Desc) (s : State) : (trimEff d s).code = 0 → (trimEff d s).detail = 0 ∧ (trimEff d s).r1 = tLen d := by
  unfold trimEff
  extract_lets c x masks s1 s1' gone s2 s3 r
  split
  · exact fun h => absurd h ccBadDesc_ne_zero
  · rcases r with ⟨_ | k, detail, t⟩
    · exact fun _ => ⟨rfl, rfl⟩
    · exact fun h => absurd h (Nat.succ_ne_zero k)

theorem pickCode_eq_none {cs : List (Nat × Nat)} (h : pickCode cs = none) : cs = [] := by
  unfold pickCode at h
  split at h <;> simp_all

theorem mem_of_pickCode {cs : List (Nat × Nat)} {c : Nat × Nat} (h : pickCode cs = some c) : c ∈ cs := by
  unfold pickCode at h
  split at h
  · next h1 => cases h; exact List.mem_of_find?_eq_some h1
  · next h1 => cases h; exact List.mem_of_find?_eq_some h1
  · next h1 => cases h; exact List.mem_of_find?_eq_some h1
  · exact List.mem_of_head? h

/-- The pages that failed are as many as the failures seen, so a SUMMARIZE with code 0 has none. -/
theorem summarizeAll_done (c : Nat) (l : List (Nat × Nat)) (a b : Nat) (cs : List (Nat × Nat)) (s : State) (hcs : ∀ x ∈ cs, x.1 ≠ 0)
    (hb : cs = [] → b = 0) : (summarizeAll c l a b cs s).code = 0 →
      (summarizeAll c l a b cs s).detail = 0 ∧ (summarizeAll c l a b cs s).r2 = 0 := by
  induction l generalizing a b cs s with
  | nil =>
    unfold summarizeAll
    split
    · next hc => exact fun h => absurd h (hcs _ (mem_of_pickCode hc))
    · next hc => exact fun _ => ⟨rfl, hb (pickCode_eq_none hc)⟩
  | cons x l ih =>
    unfold summarizeAll
    split
    · exact ih _ _ _ _ hcs hb
    · next code t hne heq =>
      have hcode : code.1 ≠ 0 := fun h => hne code.2 (by rw [← h])
      refine ih _ _ _ _ (fun x hx => ?_) (fun h => absurd h (by simp))
      rcases List.mem_append.1 hx with hx | hx
      · exact hcs x hx
      · rwa [List.mem_singleton.1 hx]

theorem summarizeEff_done (d : Desc) (s : State) (h : (summarizeEff d s).code = 0) :
    (summarizeEff d s).detail = 0 ∧ (summarizeEff d s).r2 = 0 :=
  summarizeAll_done _ _ _ _ _ _ (fun _ hx => absurd hx (by simp)) (fun _ => rfl) h

/-! ## The answer to an effect -/

theorem Answered.alike {t : State} {f g : Flight} {code detail r1 r2 : Nat} (h : Answered t f code detail r1 r2) (hg : Flight.Alike f g) :
    Answered t g code detail r1 r2 := by
  unfold Answered at *
  rwa [hg.id, hg.qp, hg.desc, hg.slot]

/-- What a descriptor that was carried out answers: 0x10 if it was held. -/
theorem finalCode_done (f : Flight) : finalCode f 0 = if f.held then 0x10 else 0 := by
  cases h : f.held <;> simp [finalCode, h, ccDeferred]

theorem entryResult_done (s : State) (f : Flight) (r1 r2 : Nat) : entryResult s f 0 r1 r2 = (r1, r2) := by
  have h : finalCode f 0 = 0 ∨ finalCode f 0 = 0x10 := by
    rw [finalCode_done]
    cases f.held
    · exact .inl rfl
    · exact .inr rfl
  rcases h with h | h <;> simp [entryResult, h, keepResults, ccDeferred]

theorem answered_done {s : State} {id : Nat} {f : Flight} (hs : Tbl.Rising s.led.qps) (r1 r2 : Nat) (hf : flightOf s id = some f)
    (hdown : steppedDown s = false) (hqp : f.qp < 1024) :
    Answered (complete id 0 0 r1 r2 s) f (if f.held then 0x10 else 0) 0 (r1 % 2 ^ 32) (r2 % 2 ^ 32) := by
  have hlt : finalCode f 0 < 2 ^ 8 := by
    rw [finalCode_done]
    cases f.held <;> decide
  have h := answered_complete hs (code := 0) (detail := 0) r1 r2 hf hdown hqp hlt (by decide)
  rwa [finalCode_done, entryResult_done] at h

/-- An effect without a failure: its tables are those of the state to come, and the descriptor is answered with its results. -/
theorem completeEff_done {e : Eff} {d : Nat} {f g : Flight} (hs : Tbl.Rising e.s.led.qps) (hg : flightOf e.s d = some g)
    (halike : Flight.Alike g f) (hdown : steppedDown e.s = false) (hqp : f.qp < 1024) (hcode : e.code = 0) (hdetail : e.detail = 0) :
    { (completeEff d e).kv with slabs := e.s.kv.slabs } = e.s.kv ∧ (completeEff d e).mem.bytes = e.s.mem.bytes ∧
      Answered (completeEff d e) f (if f.held then 0x10 else 0) 0 (e.r1 % 2 ^ 32) (e.r2 % 2 ^ 32) := by
  have heff : completeEff d e = complete d 0 0 e.r1 e.r2 (setFlight { g with t1r := g.t1r + e.t1r, t1w := g.t1w + e.t1w } e.s) := by
    unfold completeEff
    simp only [hg, hcode, hdetail]
  have hflight := flightOf_setFlight (g := { g with t1r := g.t1r + e.t1r, t1w := g.t1w + e.t1w }) hg rfl
  have hk := setFlight_keeps { g with t1r := g.t1r + e.t1r, t1w := g.t1w + e.t1w } e.s
  rw [heff]
  generalize setFlight { g with t1r := g.t1r + e.t1r, t1w := g.t1w + e.t1w } e.s = u at *
  have hqpg : g.qp < 1024 := by rw [← halike.qp]; exact hqp
  have hdownu : steppedDown u = false := by rw [steppedDown_of_span (hk.span rfl), hdown]
  have hans := answered_done (s := u) (by rw [hk.led rfl]; exact hs) e.r1 e.r2 hflight hdownu hqpg
  refine ⟨?_, ((complete_keeps ..).bytes rfl).trans (hk.bytes rfl), ?_⟩
  · rw [(complete_ended 0 0 e.r1 e.r2 hflight hdownu hqpg).2, hk.kv rfl]
  · rw [halike.held]
    exact hans.alike ⟨halike.id, halike.qp, halike.desc, halike.slot, halike.held⟩

theorem runMem_of_single {s : State} {f : Flight} (hgone : ctxGone s f = none) (hmask : spanMask s (dCtx f.desc) = 0) :
    runMem f s = completeEff f.id (memEff f.desc f.input (noteDispatch f s)) := by
  have hk := noteDispatch_keeps f s
  unfold runMem
  extract_lets u e
  have hnone : ctxGone u f = none := by rw [ctxGone_of_same (hk.led rfl) (hk.kv rfl), hgone]
  rw [hnone]
  exact if_pos (by rw [spanMask_of_dict (hk.dict rfl), hmask])

section
variable {s : State} {d : Nat} {f : Flight} (hgone : ctxGone s f = none) (hmask : spanMask s (dCtx f.desc) = 0)
include hgone hmask

theorem exec_fork (hf : dispatchable s d 3 = some f) :
    exec (.fork d) s = .next (completeEff d (forkEff f.desc (noteDispatch f s))) := by
  obtain ⟨-, hid, -, hop⟩ := dispatchable_some hf
  show execFork d s = _
  unfold execFork
  simp only [hf, runMem_of_single hgone hmask, memEff, hop, hid]
  rfl

theorem exec_trim (hf : dispatchable s d 4 = some f) :
    exec (.trim d) s = .next (completeEff d (trimEff f.desc (noteDispatch f s))) := by
  obtain ⟨-, hid, -, hop⟩ := dispatchable_some hf
  show execTrim d s = _
  unfold execTrim
  simp only [hf, runMem_of_single hgone hmask, memEff, hop, hid]
  rfl

theorem exec_summarize (hf : dispatchable s d 5 = some f) :
    exec (.summarize d) s = .next (completeEff d (summarizeEff f.desc (noteDispatch f s))) := by
  obtain ⟨-, hid, -, hop⟩ := dispatchable_some hf
  show execSummarize d s = _
  unfold execSummarize
  simp only [hf, runMem_of_single hgone hmask, memEff, hop, hid]
  rfl

end

/-- The flight of an APPEND whose source block has been read, and the state with what the read is counted to. -/
def Flight.sourced (f : Flight) (bs : List Byte) (ps : List (Nat × Nat)) : Flight := { f with input := bs, t1r := f.t1r + t1Bytes ps }

def sourceRead (f : Flight) (bs : List Byte) (ps : List (Nat × Nat)) (s : State) : State :=
  setFlight (f.sourced bs ps) (tenantCount f.tenant 1 (t1Bytes ps) (notePieces 0xFF f.tenant ps s))

theorem sourceRead_keeps (f : Flight) (bs : List Byte) (ps : List (Nat × Nat)) (s : State) :
    Keeps 0x201386 s (sourceRead f bs ps s) :=
  (setFlight_keeps ..).step ((tenantCount_keeps ..).step ((notePieces_keeps ..).mono))

theorem flightOf_sourceRead {s : State} {d : Nat} {f g : Flight} (bs : List Byte) (ps : List (Nat × Nat)) (hg : flightOf s d = some g)
    (hid : f.id = d) : flightOf (sourceRead f bs ps s) d = some (f.sourced bs ps) := by
  have hk : Keeps 0x200386 s (tenantCount f.tenant 1 (t1Bytes ps) (notePieces 0xFF f.tenant ps s)) :=
    (tenantCount_keeps ..).step ((notePieces_keeps ..).mono)
  exact flightOf_setFlight ((flightOf_of_attn (hk.attn rfl) d).trans hg) (hid.trans (flightOf_id hg).symm)

/-- An APPEND whose source block has been read. -/
theorem exec_append {s s1 s2 : State} {d : Nat} {f : Flight} {bs : List Byte} {ps : List (Nat × Nat)} (hf : dispatchable s d 2 = some f)
    (hread : fetchBlock f (pSrc f.desc) (srcBytes f.desc (ctxOf s (dCtx f.desc))) (setFlight f s) = (.got 0 bs ps, s1))
    (hgone1 : ctxGone s1 f = none) (hcheck : appendCheck s1 f.desc = none) (hs2 : s2 = noteDispatch f (sourceRead f bs ps s1))
    (hgone : ctxGone s2 f = none) (hmask : spanMask s2 (dCtx f.desc) = 0) :
    exec (.append d) s = .next (completeEff d (appendEff f.desc bs s2)) := by
  obtain ⟨-, hid, -, hop⟩ := dispatchable_some hf
  have hk := noteDispatch_keeps f (sourceRead f bs ps s1)
  rw [← hs2] at hk
  have hgoneF : ctxGone (sourceRead f bs ps s1) (f.sourced bs ps) = none := by
    rw [ctxGone_of_same (hk.led rfl) (hk.kv rfl)] at hgone
    exact hgone
  have hmaskF : spanMask (sourceRead f bs ps s1) (dCtx (f.sourced bs ps).desc) = 0 := by
    rw [spanMask_of_dict (hk.dict rfl)] at hmask
    exact hmask
  have hrun : exec (.append d) s = .next (runMem (f.sourced bs ps) (sourceRead f bs ps s1)) := by
    show execAppend d s = _
    unfold execAppend
    simp only [hf, hread, hgone1, hcheck]
    rfl
  rw [hrun, runMem_of_single hgoneF hmaskF, hs2, ← hid]
  exact congrArg (fun e => Host.Outcome.next (completeEff f.id e)) (if_pos hop)

theorem trimFlight_alike {o : Option Flight} {f : Flight} (h : o.map (fun g => { g with passed := true }) = some f) :
    ∃ g, o = some g ∧ Flight.Alike g f := by
  obtain ⟨g, hg, rfl⟩ := Option.map_eq_some_iff.1 h
  exact ⟨g, hg, rfl, rfl, rfl, rfl, rfl⟩

/-- Settles O17: each descriptor is answered from the state of its effect. -/
theorem descriptorsChangeContexts : Obligations.DescriptorsChangeContexts := by
  unfold Obligations.DescriptorsChangeContexts
  refine ⟨fun s s1 s2 d f g bs ps hf hrise hg hread hs2 hgone1 hcheck hgone hmask hdown hcode => ?_,
    fun s d f hinv hf hgone hmask hdown hcode => ?_, fun s d f hinv hf hgone hmask hdown hcode hflight hrise => ?_,
    fun s d f hinv hf hgone hmask hdown hcode => ?_⟩
  · obtain ⟨-, hid, hqp, -⟩ := dispatchable_some hf
    have hs2' : s2 = noteDispatch f (sourceRead f bs ps s1) := hs2
    have hk : Keeps 0x201386 s1 s2 := by
      rw [hs2']
      exact (noteDispatch_keeps ..).step (sourceRead_keeps ..)
    have hke := appendEff_keeps f.desc bs s2
    obtain ⟨hdetail, hr1⟩ := appendEff_done f.desc bs s2 hcode
    have hflight : flightOf (appendEff f.desc bs s2).s d = some (f.sourced bs ps) := by
      rw [flightOf_of_attn (hke.attn rfl), hs2', flightOf_of_attn ((noteDispatch_keeps ..).attn rfl), flightOf_sourceRead bs ps hg hid]
    have h := completeEff_done (e := appendEff f.desc bs s2) (f := f) (by rw [hke.led rfl, hk.led rfl]; exact hrise) hflight
      ⟨rfl, rfl, rfl, rfl, rfl⟩ (by rw [steppedDown_of_span ((hke.span rfl).trans (hk.span rfl)), hdown]) hqp hcode hdetail
    rw [hr1] at h
    exact ⟨_, exec_append hf hread hgone1 hcheck hs2' hgone hmask, h⟩
  · obtain ⟨⟨g, hg, halike⟩, -, hqp, -⟩ := dispatchable_some hf
    have hk : Keeps 0x1600B86 s (forkEff f.desc (noteDispatch f s)).s := (forkEff_keeps ..).step ((noteDispatch_keeps f s).mono)
    obtain ⟨hdetail, hr1⟩ := forkEff_done f.desc _ hcode
    have h := completeEff_done (e := forkEff f.desc (noteDispatch f s)) (by rw [hk.led rfl]; exact hinv.led.qps)
      (by rw [flightOf_of_attn (hk.attn rfl), hg]) halike (by rw [steppedDown_of_span (hk.span rfl), hdown]) hqp hcode hdetail
    rw [hr1] at h
    exact ⟨_, exec_fork hgone hmask hf, h.1, h.2.2⟩
  · obtain ⟨-, -, hqp, -⟩ := dispatchable_some hf
    obtain ⟨g, hg, halike⟩ := trimFlight_alike hflight
    have hk : Keeps 0x1723F86 s (trimEff f.desc (noteDispatch f s)).s := (trimEff_keeps ..).step ((noteDispatch_keeps f s).mono)
    obtain ⟨hdetail, hr1⟩ := trimEff_done f.desc _ hcode
    have h := completeEff_done hrise hg halike (by rw [steppedDown, hk.twin rfl]; exact hdown) hqp hcode hdetail
    rw [hr1] at h
    exact ⟨_, exec_trim hgone hmask hf, h.1, h.2.2⟩
  · obtain ⟨⟨g, hg, halike⟩, -, hqp, -⟩ := dispatchable_some hf
    have hk : Keeps 0x1200B86 s (summarizeEff f.desc (noteDispatch f s)).s := (summarizeEff_keeps ..).step ((noteDispatch_keeps f s).mono)
    obtain ⟨hdetail, hr2⟩ := summarizeEff_done f.desc _ hcode
    have h := completeEff_done (e := summarizeEff f.desc (noteDispatch f s)) (by rw [hk.led rfl]; exact hinv.led.qps)
      (by rw [flightOf_of_attn (hk.attn rfl), hg]) halike (by rw [steppedDown_of_span (hk.span rfl), hdown]) hqp hcode hdetail
    rw [hr2] at h
    exact ⟨_, exec_summarize hgone hmask hf, h.1, h.2.2⟩

/-! ## Range descriptors (R156 to R160, R165, R229) -/

theorem runRange_of_single {s : State} {f : Flight} (page : Flight → State → Nat × Nat → State) (hgone : ctxGone s f = none)
    (hmask : spanMask s (dCtx f.desc) = 0) :
    runRange f page s = finishRange f.id (runMoves ((rangePages s f.desc).foldl (page f)
      (setFlight { f with stage := .running } (noteDispatch f s)))) := by
  have hk := noteDispatch_keeps f s
  have hpages : rangePages (setFlight { f with stage := .running } (noteDispatch f s)) f.desc = rangePages s f.desc :=
    rangePages_of_kv (hk.kv rfl) f.desc
  unfold runRange
  extract_lets u v w
  have hnone : ctxGone u f = none := by rw [ctxGone_of_same (hk.led rfl) (hk.kv rfl), hgone]
  rw [hnone, ← hpages]
  exact if_pos (by rw [spanMask_of_dict (hk.dict rfl), hmask])

/-- A PIN with opt = 1 asks for the page itself. -/
def bringPage (f : Flight) (v : Page) (s : State) : State :=
  match frameOf s v.frame with
  | some fr => if rOpt f.desc && (!inTier fr (rTier f.desc) || s.kv.moves.any fun m => m.frame == v.frame && !m.up)
      then raiseMove v.frame (rTier f.desc + 1) true 3 false (some f.id) none none s else s
  | none => s

theorem bringPage_kvAside (f : Flight) (v : Page) (s : State) : KvAside s (bringPage f v s) := by
  unfold bringPage
  split
  · split
    · exact raiseMove_kvAside ..
    · exact .refl s
  · exact .refl s

section
variable {s : State} {f g : Flight} {l p : Nat} {v : Page} (hv : pageOf s (dCtx f.desc) l p = some v) (hg : flightOf s f.id = some g)
  (hcodes : g.codes.contains (0x12, 4) = false) (hpin : v.pinned ≠ rOpt f.desc)
  (hlimit : rOpt f.desc = true → (tenantOf s f.tenant).pinned < obj s (0x3001 + 16 * f.tenant) 6)
include hv hg hcodes hpin hlimit

theorem pinPage_of_within : pinPage f s (l, p) = bringPage f v (setFlight { g with r1 := g.r1 + 1 } (setTenant f.tenant
    { tenantOf s f.tenant with
      pinned := if rOpt f.desc then (tenantOf s f.tenant).pinned + 1 else (tenantOf s f.tenant).pinned - 1 }
    (setPage (dCtx f.desc) l p { v with pinned := rOpt f.desc } s))) := by
  unfold pinPage
  simp only [hv, hg]
  exact (if_neg (by rw [show (g.codes.contains (ccFull, 4)) = false from hcodes]; decide)).trans
    ((if_neg hpin).trans (if_neg fun h => absurd (hlimit h.1) (by omega)))

/-- One page of a PIN within the limit: the page's pin is the descriptor's, whatever move is raised for it. -/
theorem pageOf_pinPage : pageOf (pinPage f s (l, p)) (dCtx f.desc) l p = some { v with pinned := rOpt f.desc } := by
  rw [pinPage_of_within hv hg hcodes hpin hlimit, pageOf, (bringPage_kvAside ..).pages]
  show (((tins s.kv.pages _ _).find? _).map _) = _
  rw [tins_find, if_pos rfl]
  rfl

end

/-- A running range descriptor that no move names and that met no failure is answered (R158, R229). -/
theorem finishRange_of_done {s : State} {f : Flight} (hf : flightOf s f.id = some f) (hstage : f.stage = .running)
    (hop : 5 ≤ dOpcode f.desc) (hmembers : f.members = []) (hmoves : ∀ m ∈ s.kv.moves, m.descs.contains f.id = false)
    (hcodes : ∀ c ∈ f.codes, c.1 = 0) (hmask : spanMask s (dCtx f.desc) = 0) :
    finishRange f.id s = complete f.id 0 0 f.r1 f.r2 s := by
  have hnone : ∀ b : Bool, (s.kv.moves.any fun m => m.descs.contains f.id && !(b && m.started)) = false := fun b =>
    List.any_eq_false.2 fun m hm => by simp only [hmoves m hm, Bool.false_and, Bool.false_eq_true, not_false_eq_true]
  have hcs : f.codes.filter (fun c => c.1 != 0) = [] := List.filter_eq_nil_iff.2 fun c hc => by simp [hcodes c hc]
  unfold finishRange
  rw [hf]
  dsimp only
  rw [hnone, if_pos ⟨hstage, hop, by rw [hmembers]; rfl, rfl⟩, if_pos hmask, hcs]
  rfl

/-- Settles O18: the three descriptors differ in what they do to a page alone. -/
theorem rangeDescriptorsTakePages : Obligations.RangeDescriptorsTakePages := by
  unfold Obligations.RangeDescriptorsTakePages
  refine ⟨fun s d f hf hgone hmask => ?_, fun s d f hf hgone hmask => ?_, fun s d f hf hgone hmask => ?_,
    fun s f g l p v hv hg hcodes hpin hlimit => pageOf_pinPage hv hg hcodes hpin hlimit,
    fun s f hinv hf hqp hstage hop hmembers hmoves hcodes hmask hdown => ?_⟩
  · obtain ⟨-, hid, -, -⟩ := dispatchable_some hf
    rw [← hid, ← runRange_of_single prefetchPage hgone hmask, hid]
    show execPrefetch d s = _
    simp only [execPrefetch, hf]
  · obtain ⟨-, hid, -, -⟩ := dispatchable_some hf
    rw [← hid, ← runRange_of_single pinPage hgone hmask, hid]
    show execPin d s = _
    simp only [execPin, hf]
  · obtain ⟨-, hid, -, -⟩ := dispatchable_some hf
    rw [← hid, ← runRange_of_single evictPage hgone hmask, hid]
    show execEvict d s = _
    simp only [execEvict, hf]
  · rw [finishRange_of_done hf hstage hop hmembers hmoves hcodes hmask]
    exact answered_done hinv.led.qps f.r1 f.r2 hf hdown hqp

end Sys2Proof.Machine
end

section
/-! PROOFS. ATTEND and COMPACT at the cores of a stripe (R69, R71, R72, R161, R198). -/

namespace Sys2Proof.Machine

/-- A core with one work item more behind its others. -/
def Core.queued (w : Work) (k : Core) : Core := { k with queue := k.queue ++ [w] }

theorem queueWork_rising {s : State} (hs : Tbl.Rising s.attn.cores) (w : Nat → Work) (ic : Nat × Nat) :
    Tbl.Rising (queueWork w s ic).attn.cores := tput_rising _ _ hs _

theorem flightOf_foldl_queueWork (w : Nat → Work) (l : List (Nat × Nat)) (s : State) (d : Nat) :
    flightOf (l.foldl (queueWork w) s) d = flightOf s d := by
  induction l generalizing s with
  | nil => rfl
  | cons p l ih => exact (ih _).trans (flightOf_of_flights rfl d)

/-- Work items for distinct cores: each core named has its own behind its others, and no other core changes. -/
theorem coreOf_foldl_queueWork (w : Nat → Work) (l : List (Nat × Nat)) (hl : (l.map Prod.snd).Nodup) {s : State}
    (hs : Tbl.Rising s.attn.cores) :
    (∀ p ∈ l, coreOf (l.foldl (queueWork w) s) p.2 = (coreOf s p.2).queued (w p.1)) ∧
      ∀ c, c ∉ l.map Prod.snd → coreOf (l.foldl (queueWork w) s) c = coreOf s c := by
  induction l generalizing s with
  | nil => exact ⟨fun p hp => by simp at hp, fun c _ => rfl⟩
  | cons p l ih =>
    obtain ⟨hp, hl⟩ := List.nodup_cons.1 hl
    obtain ⟨hin, hout⟩ := ih hl (queueWork_rising hs w p)
    have hne : ∀ c, c ≠ p.2 → coreOf (queueWork w s p) c = coreOf s c := fun c hc => coreOf_setCore_ne hs hc _
    refine ⟨fun q hq => ?_, fun c hc => ?_⟩
    · rcases List.mem_cons.1 hq with rfl | hq
      · exact (hout _ hp).trans (coreOf_setCore hs ..)
      · have hneq : q.2 ≠ p.2 := fun h => hp (h ▸ List.mem_map_of_mem hq)
        rw [List.foldl_cons, hin q hq, hne _ hneq]
    · obtain ⟨hcp, hcl⟩ : c ≠ p.2 ∧ c ∉ l.map Prod.snd := by simpa [not_or] using hc
      rw [List.foldl_cons, hout c hcl, hne c hcp]

theorem map_snd_zip_range (cs : List Nat) : ((List.range cs.length).zip cs).map Prod.snd = cs :=
  List.map_snd_zip (by simp)

theorem stripeCores_nodup (s : State) (x : Ctx) : (stripeCores s x).Nodup := (List.nodup_range.filter _).filter _

theorem stripeCores_of_cores {s t : State} (h : t.attn.cores = s.attn.cores) (x : Ctx) : stripeCores t x = stripeCores s x := by
  simp only [stripeCores, coresInService, h]

/-- The work items of a descriptor at the cores of a list. -/
theorem coreOf_shared (w : Nat → Work) {cs : List Nat} (hcs : cs.Nodup) {s : State} (hs : Tbl.Rising s.attn.cores) :
    (∀ c ∈ cs, ∃ i, coreOf (((List.range cs.length).zip cs).foldl (queueWork w) s) c = (coreOf s c).queued (w i)) ∧
      ∀ c, c ∉ cs → coreOf (((List.range cs.length).zip cs).foldl (queueWork w) s) c = coreOf s c := by
  have hmap := map_snd_zip_range cs
  obtain ⟨hin, hout⟩ := coreOf_foldl_queueWork w ((List.range cs.length).zip cs) (by rwa [hmap]) hs
  rw [hmap] at hout
  refine ⟨fun c hc => ?_, hout⟩
  rw [← hmap] at hc
  obtain ⟨p, hp, rfl⟩ := List.mem_map.1 hc
  exact ⟨p.1, hin p hp⟩

/-- The flight of an ATTEND that its cores have. -/
def Flight.attending (f : Flight) (s : State) : Flight :=
  let cs := stripeCores s (ctxOf s (dCtx f.desc))
  { f with
    stage := .running, blocks := none, len := if f.qp < 1024 then (ctxOf s (dCtx f.desc)).length else f.len, cores := cs, left := cs
    due := ([(0, (cs.filter (· < 10)).length), (1, (cs.filter (10 ≤ ·)).length)].filter fun p => p.2 != 0) ++
      (mergeChildren s (dCtx f.desc) (if f.qp < 1024 then ownIndex s else f.qp - 1024)).map fun i => (16 + i, 1) }

/-- The input block on its way to the cores. -/
def inputSent (f : Flight) (s : State) : State :=
  (inputPackets (inBytes f.desc (ctxOf s (dCtx f.desc)))).foldl
    (fun u n => inject f.id (50 + flightDie f) 1 n (stripeCores s (ctxOf s (dCtx f.desc))) u) (setFlight (f.attending s) s)

theorem inputSent_keeps (f : Flight) (s : State) : Keeps 0x40080 (setFlight (f.attending s) s) (inputSent f s) :=
  Keeps.foldl (P := 0x40080) (.refl _ _) fun _ _ h => (inject_keeps ..).step h

theorem startAttend_eq (f : Flight) (s : State) : startAttend f s =
    ((List.range (stripeCores s (ctxOf s (dCtx f.desc))).length).zip (stripeCores s (ctxOf s (dCtx f.desc)))).foldl
      (queueWork fun i => attendWork (inputSent f s) (f.attending s) i (stripeCores s (ctxOf s (dCtx f.desc))).length) (inputSent f s) := rfl

/-- What an ATTEND's start leaves of its flight and of the cores. -/
theorem startAttend_shares {s : State} {d : Nat} {f : Flight} (hs : Tbl.Rising s.attn.cores) (hf : (flightOf s d).isSome) (hid : f.id = d) :
    flightOf (startAttend f s) d = some (f.attending s) ∧
      (∀ c ∈ stripeCores s (ctxOf s (dCtx f.desc)), ∃ w : Work, w.desc = d ∧ w.compact = false ∧
        coreOf (startAttend f s) c = (coreOf s c).queued w) ∧
      ∀ c, c ∉ stripeCores s (ctxOf s (dCtx f.desc)) → coreOf (startAttend f s) c = coreOf s c := by
  have hk := inputSent_keeps f s
  have hcore : ∀ c, coreOf (inputSent f s) c = coreOf s c := fun c =>
    (coreOf_of_attn (hk.attn rfl) c).trans (coreOf_of_coresSame (setFlight_coresSame ..) c)
  have hrise : Tbl.Rising (inputSent f s).attn.cores := by
    rw [hk.attn rfl]
    exact hs
  obtain ⟨hin, hout⟩ := coreOf_shared
    (fun i => attendWork (inputSent f s) (f.attending s) i (stripeCores s (ctxOf s (dCtx f.desc))).length)
    (stripeCores_nodup s (ctxOf s (dCtx f.desc))) hrise
  obtain ⟨g, hg⟩ := Option.isSome_iff_exists.1 hf
  rw [startAttend_eq]
  refine ⟨?_, fun c hc => ?_, fun c hc => by rw [hout c hc, hcore]⟩
  · rw [flightOf_foldl_queueWork, flightOf_of_attn (hk.attn rfl)]
    exact flightOf_setFlight hg (hid.trans (flightOf_id hg).symm)
  · obtain ⟨i, hi⟩ := hin c hc
    rw [hcore] at hi
    exact ⟨_, hid, rfl, hi⟩

/-- A descriptor of a queue pair is no member's part. -/
theorem partReady_of_dispatchable {s : State} {d op : Nat} {f : Flight} (h : dispatchable s d op = some f) (op' : Nat) :
    partReady s d op' = none := by
  obtain ⟨⟨g, hg, halike⟩, -, hqp, -⟩ := dispatchable_some h
  have hgqp : ¬1024 ≤ g.qp := by
    rw [← halike.qp]
    omega
  unfold partReady
  rw [hg]
  exact if_neg fun h => hgqp h.1

theorem holdEnd_alike (now : Nat) (f : Flight) : Flight.Alike f (holdEnd now f) := by
  unfold holdEnd
  split <;> exact ⟨rfl, rfl, rfl, rfl, rfl⟩

theorem holdEnd_tenant (now : Nat) (f : Flight) : (holdEnd now f).tenant = f.tenant := by
  unfold holdEnd
  split <;> rfl

theorem revokedPage_of_same {s t : State} (hled : t.led = s.led) (hkv : t.kv = s.kv) (c l : Nat) : revokedPage t c l = revokedPage s c l := by
  have hframe : frameRevoked t = frameRevoked s := funext fun v => by simp only [frameRevoked, extOf_of_led hled]
  simp only [revokedPage, layerPages, frameOf, hframe, hkv]

/-- The flight of an ATTEND whose input block has been read. -/
def Flight.inputRead (f : Flight) (bs : List Byte) (ps : List (Nat × Nat)) (n : Nat) : Flight :=
  { f with input := bs, t1r := f.t1r + t1Bytes ps, len := n }

/-- What becomes of an ATTEND whose input block has been read without a failure (R125, R401). -/
def attendRest (f : Flight) (x : Ctx) (s : State) : Res :=
  match inputCheck (askOf s f) with
  | some (code, dt) => .next (complete f.id code dt 0 0 s)
  | none =>
    let s := noteDispatch f s
    if revokedPage s (dCtx f.desc) (dLayer f.desc) then .next (complete f.id ccRevoked 3 0 0 s)
    else if (stripeCores s x).isEmpty then .next (complete f.id ccFenced 0 0 0 s)
    else if spanMask s (dCtx f.desc) = 0 then .next (startAttend f s)
    else
      let s := startStriped f (0, 0) s
      match flightOf s f.id with
      | some f => .next (startAttend f s)
      | none => .next s

theorem attendRest_starts {f : Flight} {x : Ctx} {s : State} (hask : inputCheck (askOf s f) = none)
    (hrevoked : revokedPage (noteDispatch f s) (dCtx f.desc) (dLayer f.desc) = false) (hstripe : stripeCores (noteDispatch f s) x ≠ [])
    (hmask : spanMask (noteDispatch f s) (dCtx f.desc) = 0) : attendRest f x s = .next (startAttend f (noteDispatch f s)) := by
  unfold attendRest
  rw [hask]
  exact (if_neg (by rw [hrevoked]; decide)).trans ((if_neg (by simpa using hstripe)).trans (if_pos hmask))

section
variable {s s1 s2 : State} {d : Nat} {f : Flight} {bs : List Byte} {ps : List (Nat × Nat)} (hf : dispatchable s d 1 = some f)
  (hplaces : placesFree s (stripeCores s (ctxOf s (dCtx f.desc))) = true)
  (hread : fetchBlock (holdEnd s.time.cycle f) (aIn f.desc) (inBytes f.desc (ctxOf s (dCtx f.desc)))
    (setFlight (holdEnd s.time.cycle f) s) = (.got 0 bs ps, s1))
  (hgone : ctxGone s1 f = none) (hlimits : attendLimits f.desc (ctxOf s (dCtx f.desc)) = true)
  (hcheck : inputCheck { d := f.desc, x := ctxOf s1 (dCtx f.desc), n := (ctxOf s (dCtx f.desc)).length, input := bs } = none)
  (hrevoked : revokedPage s1 (dCtx f.desc) (dLayer f.desc) = false)
  (hs2 : s2 = noteDispatch f (tenantCount f.tenant 1 (t1Bytes ps) (notePieces 0xFF f.tenant ps s1))) (hmask : spanMask s2 (dCtx f.desc) = 0)
  (hstripe : stripeCores s1 (ctxOf s (dCtx f.desc)) ≠ [])
include hf hplaces hread hgone hlimits hcheck hrevoked hs2 hmask hstripe

theorem exec_attend : exec (.attend d) s =
    .next (startAttend ((holdEnd s.time.cycle f).inputRead bs ps (ctxOf s (dCtx f.desc)).length) s2) := by
  have halike := holdEnd_alike s.time.cycle f
  have htenant := holdEnd_tenant s.time.cycle f
  show execAttend d s = _
  unfold execAttend
  rw [partReady_of_dispatchable hf 1, hf]
  have hgoneg : ctxGone s1 (holdEnd s.time.cycle f) = none := by
    rw [← hgone]
    simp only [ctxGone, halike.desc, htenant]
  have hdesc : (holdEnd s.time.cycle f).desc = f.desc := halike.desc
  have hkr : Keeps 0x200386 s1 (tenantCount f.tenant 1 (t1Bytes ps) (notePieces 0xFF f.tenant ps s1)) :=
    (tenantCount_keeps ..).step ((notePieces_keeps ..).mono)
  have hk : Keeps 0x200386 s1 s2 := by
    rw [hs2]
    exact (noteDispatch_keeps ..).step hkr
  have hread' : fetchBlock (holdEnd s.time.cycle f) (aIn (holdEnd s.time.cycle f).desc)
      (inBytes (holdEnd s.time.cycle f).desc (ctxOf s (dCtx f.desc))) (setFlight (holdEnd s.time.cycle f) s) = (.got 0 bs ps, s1) := by
    rw [hdesc]
    exact hread
  have hnote : noteDispatch ((holdEnd s.time.cycle f).inputRead bs ps (ctxOf s (dCtx f.desc)).length)
      (tenantCount f.tenant 1 (t1Bytes ps) (notePieces 0xFF f.tenant ps s1)) = s2 := by
    rw [hs2]
    simp only [noteDispatch, Flight.inputRead, halike.qp, htenant]
  have hrest := attendRest_starts (x := ctxOf s (dCtx f.desc)) (f := (holdEnd s.time.cycle f).inputRead bs ps (ctxOf s (dCtx f.desc)).length)
    (s := tenantCount f.tenant 1 (t1Bytes ps) (notePieces 0xFF f.tenant ps s1))
    (by rw [← hcheck, askOf, ctxOf_of_kv (hkr.kv rfl)]; simp only [Flight.inputRead, hdesc])
    (by rw [hnote, ← hrevoked]; exact (revokedPage_of_same (hk.led rfl) (hk.kv rfl) _ _).trans (by simp only [Flight.inputRead, hdesc]))
    (by rw [hnote, stripeCores_of_cores (congrArg Attn.cores (hk.attn rfl))]; exact hstripe)
    (by rw [hnote, ← hmask]; simp only [Flight.inputRead, hdesc])
  rw [hnote] at hrest
  refine Eq.trans ?_ hrest
  rw [← htenant]
  dsimp only
  rw [if_neg (by rw [hplaces]; decide)]
  simp only [hread', hgoneg]
  exact (if_neg (by rw [hdesc, hlimits]; decide)).trans (if_neg (by decide))

end

/-! ## COMPACT (R161, R198) -/

/-- The pages that a COMPACT converts. -/
def compactPages (f : Flight) (s : State) : List (Nat × Nat × Page) :=
  (rangePages s f.desc).filterMap fun lp => match pageOf s (dCtx f.desc) lp.1 lp.2 with
    | some v => if compactTakes s f.desc v then some (lp.1, lp.2, v) else none
    | none => none

theorem compactPages_ne_nil {f : Flight} {s : State} {lp : Nat × Nat} {v : Page} (hlp : lp ∈ rangePages s f.desc)
    (hv : pageOf s (dCtx f.desc) lp.1 lp.2 = some v) (htake : compactTakes s f.desc v = true) : compactPages f s ≠ [] := fun h => by
  have hmem : (lp.1, lp.2, v) ∈ compactPages f s := List.mem_filterMap.2 ⟨lp, hlp, by rw [hv]; exact if_pos htake⟩
  rw [h] at hmem
  cases hmem

/-- The flight of a COMPACT that its cores have. -/
def Flight.compacting (f : Flight) (s : State) : Flight :=
  { f with
    stage := .running, cores := stripeCores s (ctxOf s (dCtx f.desc)), r1 := 0
    r2 := (rangePages s f.desc).length - (compactPages f s).length, left := stripeCores s (ctxOf s (dCtx f.desc)) }

theorem startCompact_of_pages {f : Flight} {s : State} (h : compactPages f s ≠ []) : startCompact f s =
    ((List.range (stripeCores s (ctxOf s (dCtx f.desc))).length).zip (stripeCores s (ctxOf s (dCtx f.desc)))).foldl
      (queueWork fun i => compactWork s (f.compacting s) (compactPages f s) i (stripeCores s (ctxOf s (dCtx f.desc))).length)
      (setFlight (f.compacting s) s) := by
  have hempty : (compactPages f s).isEmpty = false := by simpa using h
  unfold startCompact
  extract_lets x cs lps take g
  have htake : take = compactPages f s := rfl
  have hg : g = f.compacting s := by
    unfold g
    rw [htake, hempty]
    rfl
  rw [htake, hempty, hg]
  rfl

/-- What a COMPACT's start leaves of its flight and of the cores. -/
theorem startCompact_shares {s : State} {d : Nat} {f : Flight} (hs : Tbl.Rising s.attn.cores) (hf : (flightOf s d).isSome) (hid : f.id = d)
    (hpages : compactPages f s ≠ []) :
    flightOf (startCompact f s) d = some (f.compacting s) ∧
      (∀ c ∈ stripeCores s (ctxOf s (dCtx f.desc)), ∃ w : Work, w.desc = d ∧ w.compact = true ∧
        coreOf (startCompact f s) c = (coreOf s c).queued w) ∧
      ∀ c, c ∉ stripeCores s (ctxOf s (dCtx f.desc)) → coreOf (startCompact f s) c = coreOf s c := by
  obtain ⟨hin, hout⟩ := coreOf_shared
    (fun i => compactWork s (f.compacting s) (compactPages f s) i (stripeCores s (ctxOf s (dCtx f.desc))).length)
    (stripeCores_nodup s (ctxOf s (dCtx f.desc))) (s := setFlight (f.compacting s) s) hs
  obtain ⟨g, hg⟩ := Option.isSome_iff_exists.1 hf
  rw [startCompact_of_pages hpages]
  refine ⟨?_, fun c hc => ?_, hout⟩
  · rw [flightOf_foldl_queueWork]
    exact flightOf_setFlight hg (hid.trans (flightOf_id hg).symm)
  · obtain ⟨i, hi⟩ := hin c hc
    exact ⟨_, hid, rfl, hi⟩

theorem compactPages_of_same {s t : State} (hkv : t.kv = s.kv) {f g : Flight} (hdesc : g.desc = f.desc) :
    compactPages g t = compactPages f s := by
  have hframe : ∀ i, frameOf t i = frameOf s i := fun i => by simp only [frameOf, hkv]
  have hpage : ∀ c l p, pageOf t c l p = pageOf s c l p := fun c l p => by simp only [pageOf, hkv]
  have htake : ∀ d v, compactTakes t d v = compactTakes s d v := fun d v => by simp only [compactTakes, hframe]
  simp only [compactPages, rangePages_of_kv hkv, hdesc, hpage, htake]

/-- The state in which a COMPACT's hold has ended and its dispatch been noted. -/
def compactReady (f : Flight) (s : State) : State :=
  noteDispatch (holdEnd s.time.cycle f) (setFlight (holdEnd s.time.cycle f) s)

theorem compactReady_keeps (f : Flight) (s : State) : Keeps 0x1080 s (compactReady f s) :=
  (noteDispatch_keeps ..).step ((setFlight_keeps ..).mono)

theorem compactReady_cores (f : Flight) (s : State) : CoresSame s (compactReady f s) :=
  CoresSame.trans (setFlight_coresSame ..) (.of_attn ((noteDispatch_keeps ..).attn rfl))

theorem exec_compact {s : State} {d : Nat} {f : Flight} (hf : dispatchable s d 9 = some f) (hgone : ctxGone s f = none)
    (hmask : spanMask s (dCtx f.desc) = 0) (hstripe : stripeCores s (ctxOf s (dCtx f.desc)) ≠ [])
    (hplaces : placesFree s (stripeCores s (ctxOf s (dCtx f.desc))) = true) :
    exec (.compact d) s = .next (startCompact (holdEnd s.time.cycle f) (compactReady f s)) := by
  show execCompact d s = _
  unfold execCompact
  rw [partReady_of_dispatchable hf 9, hf]
  simp only [hgone]
  refine (if_neg (by simpa using hstripe)).trans ((if_neg (by rw [hplaces]; decide)).trans (if_pos ?_))
  exact (spanMask_of_dict ((compactReady_keeps f s).dict rfl) _).trans (by rw [(holdEnd_alike ..).desc, hmask])

/-- Settles O19: both descriptors share their work out to the stripe's cores alike. -/
theorem stripesGetWork : Obligations.StripesGetWork := by
  unfold Obligations.StripesGetWork
  refine ⟨fun s s1 s2 d f bs ps hf hplaces hread hgone hlimits hcheck hrevoked hs2 hmask hstripe hctx hrise hflight => ?_,
    fun s d f hinv hf hgone hmask hstripe hplaces hpages => ?_⟩
  · have hk : Keeps 0x200386 s1 s2 := by
      rw [hs2]
      exact (noteDispatch_keeps ..).step ((tenantCount_keeps ..).step ((notePieces_keeps ..).mono))
    obtain ⟨-, hid, -, -⟩ := dispatchable_some hf
    have hstart := startAttend_shares (s := s2) (d := d)
      (f := (holdEnd s.time.cycle f).inputRead bs ps (ctxOf s (dCtx f.desc)).length)
      (by rw [hk.attn rfl]; exact hrise) (by rw [flightOf_of_attn (hk.attn rfl)]; exact hflight) ((holdEnd_alike ..).id.trans hid)
    have hdesc : ((holdEnd s.time.cycle f).inputRead bs ps (ctxOf s (dCtx f.desc)).length).desc = f.desc := (holdEnd_alike ..).desc
    have hcores : stripeCores s2 (ctxOf s2 (dCtx f.desc)) = stripeCores s1 (ctxOf s (dCtx f.desc)) := by
      rw [stripeCores_of_cores (congrArg Attn.cores (hk.attn rfl)), ctxOf_of_kv (hk.kv rfl), hctx]
    simp only [hdesc, hcores, coreOf_of_attn (hk.attn rfl)] at hstart
    obtain ⟨hfl, hin, hout⟩ := hstart
    refine ⟨_, exec_attend hf hplaces hread hgone hlimits hcheck hrevoked hs2 hmask hstripe, ⟨_, hfl, rfl, rfl, ?_⟩, hin, hout⟩
    rw [← hcores, ← hdesc]
    rfl
  · obtain ⟨⟨g, hg, -⟩, hid, -, -⟩ := dispatchable_some hf
    obtain ⟨lp, v, hlp, hv, htake⟩ := hpages
    have hk := compactReady_keeps f s
    have hdesc := (holdEnd_alike s.time.cycle f).desc
    have hnone : compactPages (holdEnd s.time.cycle f) (compactReady f s) ≠ [] := by
      rw [compactPages_of_same (hk.kv rfl) hdesc]
      exact compactPages_ne_nil hlp hv htake
    have hsome : (flightOf (compactReady f s) d).isSome := by
      rw [compactReady, flightOf_of_attn ((noteDispatch_keeps ..).attn rfl),
        flightOf_setFlight hg ((holdEnd_alike ..).id.trans (hid.trans (flightOf_id hg).symm))]
      rfl
    have hcoresEq : (compactReady f s).attn.cores = s.attn.cores := compactReady_cores f s
    have hstart := startCompact_shares (s := compactReady f s) (by rw [hcoresEq]; exact hinv.cores) hsome
      ((holdEnd_alike ..).id.trans hid) hnone
    have hcores : stripeCores (compactReady f s) (ctxOf (compactReady f s) (dCtx f.desc)) = stripeCores s (ctxOf s (dCtx f.desc)) := by
      rw [stripeCores_of_cores hcoresEq, ctxOf_of_kv (hk.kv rfl)]
    simp only [hdesc, hcores, coreOf_of_coresSame (compactReady_cores f s)] at hstart
    obtain ⟨hfl, hin, hout⟩ := hstart
    refine ⟨_, exec_compact hf hgone hmask hstripe hplaces, ⟨_, hfl, rfl, ?_⟩, hin, hout⟩
    rw [← hcores, ← hdesc]
    rfl

end Sys2Proof.Machine
end

section
/-! PROOFS. The cores run their work (R64 to R82, R198 to R201). -/

namespace Sys2Proof.Machine

/-! ## A work item goes on -/

/-- All of a work item is as it was but what of it has been asked for and read. -/
def Work.Fetched (a b : Work) : Prop :=
  b = { a with toIssue := b.toIssue, part := b.part, issued := b.issued, stage := b.stage, reading := b.reading, loaded := b.loaded
               tick := b.tick, waitAt := b.waitAt }

theorem Work.Fetched.refl (a : Work) : a.Fetched a := rfl

theorem Work.Fetched.trans {a b c : Work} (h : a.Fetched b) (h' : b.Fetched c) : a.Fetched c := by
  unfold Work.Fetched at *
  rw [h'] at *
  rw [h]

/-- Core `c` goes on with the work item `v`; the rest of its record and every other core stay. -/
structure GoesOn (c : Nat) (v : Work) (s t : State) : Prop where
  rising : Tbl.Rising t.attn.cores
  own : coreOf t c = { coreOf s c with work := some v }
  others : ∀ e, e ≠ c → coreOf t e = coreOf s e
  flights : t.attn.flights = s.attn.flights

theorem GoesOn.work {c : Nat} {v : Work} {s t : State} (h : GoesOn c v s t) : (coreOf t c).work = some v := by rw [h.own]
theorem GoesOn.queue {c : Nat} {v : Work} {s t : State} (h : GoesOn c v s t) : (coreOf t c).queue = (coreOf s c).queue := by rw [h.own]

theorem GoesOn.trans {c : Nat} {v w : Work} {s t u : State} (h : GoesOn c v s t) (h' : GoesOn c w t u) : GoesOn c w s u where
  rising := h'.rising
  own := by rw [h'.own, h.own]
  others e he := (h'.others e he).trans (h.others e he)
  flights := h'.flights.trans h.flights

/-- With the same cores and flights before and after it. -/
theorem GoesOn.between {c : Nat} {v : Work} {s s' t t' : State} (h : GoesOn c v s t) (hs : s.attn = s'.attn) (ht : t'.attn = t.attn) :
    GoesOn c v s' t' where
  rising := by rw [ht]; exact h.rising
  own := by rw [coreOf_of_attn ht, h.own, coreOf_of_attn hs]
  others e he := by rw [coreOf_of_attn ht, h.others e he, coreOf_of_attn hs]
  flights := by rw [ht, h.flights, hs]

theorem setCore_goesOn {s : State} (hs : Tbl.Rising s.attn.cores) (c : Nat) (v : Work) :
    GoesOn c v s (setCore c { coreOf s c with work := some v } s) :=
  ⟨tput_rising _ _ hs _, coreOf_setCore hs .., fun _ he => coreOf_setCore_ne hs he _, rfl⟩

theorem goesOn_same {s : State} (hs : Tbl.Rising s.attn.cores) {c : Nat} {w : Work} (hw : (coreOf s c).work = some w) : GoesOn c w s s where
  rising := hs
  own := by rw [← hw]
  others _ _ := rfl
  flights := rfl

theorem issueOne_fetched {s : State} {w v : Work} (h : issueOne s w = some v) : w.Fetched v ∧ drained v = drained w := by
  unfold issueOne at h
  split at h
  · cases h
  · next t rest ht =>
    split at h
    · cases h
    · split at h
      · cases h
      · split at h
        · cases h
          exact ⟨rfl, by simp [drained, ht]⟩
        · split at h
          · cases h
          · cases h
            exact ⟨rfl, by simp [drained, ht]⟩

theorem issueLoop_fetched (s : State) (n : Nat) (w : Work) : w.Fetched (issueLoop s n w) ∧ drained (issueLoop s n w) = drained w := by
  induction n generalizing w with
  | zero => exact ⟨.refl w, rfl⟩
  | succ n ih =>
    unfold issueLoop
    split
    · exact ⟨.refl w, rfl⟩
    · next v hv =>
      obtain ⟨hf, hd⟩ := issueOne_fetched hv
      obtain ⟨hf', hd'⟩ := ih v
      exact ⟨hf.trans hf', hd'.trans hd⟩

theorem noteWait_goesOn {s : State} (hs : Tbl.Rising s.attn.cores) {c : Nat} {w : Work} (hw : (coreOf s c).work = some w) :
    ∃ v, GoesOn c v s (noteWait c s) ∧ w.Fetched v ∧ drained v = drained w := by
  unfold noteWait
  extract_lets k
  rw [show k.work = some w from hw]
  dsimp only
  split
  · exact ⟨_, setCore_goesOn hs c _, rfl, rfl⟩
  · exact ⟨_, (setCore_goesOn hs c _).between rfl
      (((runCount_keeps ..).attn rfl).trans ((tallyAdd_keeps ..).attn rfl)), rfl, rfl⟩
  · exact ⟨w, goesOn_same hs hw, .refl w, rfl⟩

theorem issueReads_goesOn {s : State} (hs : Tbl.Rising s.attn.cores) {c : Nat} {w : Work} (hw : (coreOf s c).work = some w) :
    ∃ v, GoesOn c v s (issueReads c s) ∧ w.Fetched v ∧ drained v = drained w := by
  unfold issueReads
  extract_lets k
  rw [show k.work = some w from hw]
  dsimp only
  have hset := setCore_goesOn hs c (issueLoop s (w.toIssue.length + 257) w)
  obtain ⟨hf, hd⟩ := issueLoop_fetched s (w.toIssue.length + 257) w
  obtain ⟨v, hgo, hf', hd'⟩ := noteWait_goesOn hset.rising hset.work
  exact ⟨v, hset.trans hgo, hf.trans hf', hd'.trans hd⟩

theorem moveHalf_fetched (w : Work) : w.Fetched (moveHalf w) := by
  unfold moveHalf
  split
  · split
    · exact rfl
    · exact .refl w
  · exact .refl w

theorem takeEntry_fetched (t : Tile) (w : Work) : w.Fetched (takeEntry t w) :=
  Work.Fetched.trans (b := { w with issued := w.issued.drop 1, stage := w.stage.filter fun g => !(g.page == t.page && g.head == t.head) })
    rfl (moveHalf_fetched _)

/-- Of a work item with what the array has taken: what stays is all but the rows, the failures and the tiles read. -/
structure Work.Ahead (a b : Work) : Prop where
  desc : b.desc = a.desc
  phase : b.phase = a.phase
  compact : b.compact = a.compact
  bytes : b.bytes = a.bytes

theorem Work.Ahead.refl (a : Work) : a.Ahead a := ⟨rfl, rfl, rfl, rfl⟩

theorem Work.Ahead.trans {a b c : Work} (h : a.Ahead b) (h' : b.Ahead c) : a.Ahead c :=
  ⟨h'.desc.trans h.desc, h'.phase.trans h.phase, h'.compact.trans h.compact, h'.bytes.trans h.bytes⟩

theorem Work.Fetched.ahead {a b : Work} (h : a.Fetched b) : a.Ahead b := by
  constructor <;> rw [h]

theorem streamTile_ahead (c : Nat) (f : Flight) (s : State) (w : Work) (t : Tile) : w.Ahead (streamTile c f s w t).2 := by
  unfold streamTile
  extract_lets k heads rec_ u
  split <;> exact ⟨rfl, rfl, rfl, rfl⟩

theorem takeReady_ahead (c : Nat) (f : Flight) (n : Nat) (w : Work) (s : State) : w.Ahead (takeReady c f n w s).2 := by
  induction n generalizing w s with
  | zero => exact .refl w
  | succ n ih =>
    unfold takeReady
    split
    · exact .refl w
    · next t ht =>
      extract_lets u r
      have hr : w.Ahead r.2 := by
        unfold r
        split
        · exact streamTile_ahead ..
        · exact .refl w
      have htake : r.2.Fetched (takeEntry t { r.2 with tick := u.time.cycle }) :=
        Work.Fetched.trans (b := { r.2 with tick := u.time.cycle }) rfl (takeEntry_fetched ..)
      exact hr.trans (htake.ahead.trans (ih ..))

/-- The core goes on with what it has; without its descriptor nothing happens. -/
theorem advance_goesOn {s : State} (hs : Tbl.Rising s.attn.cores) {c : Nat} {w : Work} (hw : (coreOf s c).work = some w) :
    ∃ v, GoesOn c v s (advance c s) ∧ w.Ahead v := by
  unfold advance
  rw [hw]
  dsimp only
  split
  · exact ⟨w, goesOn_same hs hw, .refl w⟩
  · next f hf =>
    have h1w := takeReady_ahead c f (w.issued.length + 1) w s
    have h1s := (takeReady_keeps c f (w.issued.length + 1) w s).attn rfl
    generalize takeReady c f (w.issued.length + 1) w s = r1 at *
    have hloop := issueLoop_fetched r1.1 (r1.2.toIssue.length + 257) r1.2
    generalize issueLoop r1.1 (r1.2.toIssue.length + 257) r1.2 = w1 at *
    have h2w := takeReady_ahead c f (w1.issued.length + 1) w1 r1.1
    have h2s := ((takeReady_keeps c f (w1.issued.length + 1) w1 r1.1).attn rfl).trans h1s
    generalize takeReady c f (w1.issued.length + 1) w1 r1.1 = r2 at *
    have hset := setCore_goesOn (s := r2.1) (by rw [h2s]; exact hs) c r2.2
    obtain ⟨v, hgo, hf', -⟩ := issueReads_goesOn hset.rising hset.work
    exact ⟨v, (hset.trans hgo).between h2s rfl, h1w.trans (hloop.1.ahead.trans (h2w.trans hf'.ahead))⟩

/-! ## A read that returns (R65, R67) -/

theorem granuleFault_ahead (w : Work) (g : Granule) (code : Nat) : w.Ahead (granuleFault w g code) := by
  unfold granuleFault
  split_ifs <;> exact ⟨rfl, rfl, rfl, rfl⟩

/-- What a returned read has counted to the device, before the work item takes it. -/
def readCounted (c : Nat) (w : Work) (g : Granule) (f : Finding) (s : State) : State :=
  runCount c 0 g.len (tenantCount (ctxOf (tallyAdd 0x7001 (122 + c) 1 g.len (tallyMem false g.addr g.len
    (noteRead (0x20 + c) g.addr g.len (meet g.addr f s)))) w.ctx).tenant 3 g.len
    (tallyAdd 0x7001 (122 + c) 1 g.len (tallyMem false g.addr g.len (noteRead (0x20 + c) g.addr g.len (meet g.addr f s)))))

theorem readCounted_attn (c : Nat) (w : Work) (g : Granule) (f : Finding) (s : State) : (readCounted c w g f s).attn = s.attn :=
  have hk : Keeps 0x200386 s (readCounted c w g f s) := (runCount_keeps ..).step ((tenantCount_keeps ..).step ((tallyAdd_keeps ..).step
    ((tallyMem_keeps ..).step ((noteRead_keeps ..).step ((meet_keeps ..).mono)))))
  hk.attn rfl

/-- A read that returns is counted to the work item, which otherwise stays, but for what the array may take next and a failure. -/
theorem granuleBack_goesOn {s : State} (hs : Tbl.Rising s.attn.cores) {c : Nat} {w : Work} {i : Nat} {g : Granule} (f : Finding)
    (hg : (outstanding w)[i]? = some g) :
    ∃ v, GoesOn c v s (granuleBack c (coreOf s c) w i f s) ∧ v.desc = w.desc ∧ v.phase = w.phase ∧ v.compact = w.compact ∧
      v.bytes = w.bytes + g.len := by
  have hattn := readCounted_attn c w g f s
  unfold granuleBack
  rw [hg]
  dsimp only
  generalize hcode : readCode _ g.addr g.len = code
  generalize hv : moveHalf _ = v
  have hahead : Work.Ahead { w with
      bytes := w.bytes + g.len, stage := w.stage.map fun h => if h = g then { g with ready := true } else h } v := by
    rw [← hv]
    exact (granuleFault_ahead ..).trans (moveHalf_fetched _).ahead
  have hset := setCore_goesOn (s := readCounted c w g f s) (by rw [hattn]; exact hs) c v
  rw [coreOf_of_attn hattn] at hset
  exact ⟨v, hset.between hattn rfl, hahead.desc, hahead.phase, hahead.compact, hahead.bytes⟩

/-! ## A pass that has been read and taken whole -/

theorem takeReady_of_drained {w : Work} (hd : drained w = true) (c : Nat) (f : Flight) (n : Nat) (s : State) : takeReady c f n w s = (s, w) := by
  have hissued : w.issued = [] := by simp_all [drained]
  cases n with
  | zero => rfl
  | succ n =>
    have hnone : nextIn w = none := by simp only [nextIn, hissued]
    unfold takeReady
    rw [hnone]

theorem issueLoop_of_drained {w : Work} (hd : drained w = true) (s : State) (n : Nat) : issueLoop s n w = w := by
  have htoIssue : w.toIssue = [] := by simp_all [drained]
  cases n with
  | zero => rfl
  | succ n =>
    have hnone : issueOne s w = none := by simp only [issueOne, htoIssue]
    unfold issueLoop
    rw [hnone]

/-- With nothing left of its pass the core only notes that it no longer waits. -/
theorem advance_of_drained {s : State} {c : Nat} {w : Work} {f : Flight} (hw : (coreOf s c).work = some w) (hd : drained w = true)
    (hf : flightOf s w.desc = some f) : advance c s = issueReads c (setCore c { coreOf s c with work := some w } s) := by
  unfold advance
  rw [hw]
  simp only [hf, takeReady_of_drained hd, issueLoop_of_drained hd]

theorem advance_drained_goesOn {s : State} (hs : Tbl.Rising s.attn.cores) {c : Nat} {w : Work} {f : Flight}
    (hw : (coreOf s c).work = some w) (hd : drained w = true) (hf : flightOf s w.desc = some f) :
    ∃ v, GoesOn c v s (advance c s) ∧ w.Fetched v ∧ drained v = true ∧ (advance c s).kv = s.kv := by
  rw [advance_of_drained hw hd hf]
  have hset := setCore_goesOn hs c w
  obtain ⟨v, hgo, hf, hd'⟩ := issueReads_goesOn hset.rising hset.work
  exact ⟨v, hset.trans hgo, hf, hd'.trans hd, (issueReads_keeps ..).kv rfl⟩

/-! ## The end of the summary pass (R75 to R78) -/

/-- The next round's work item, with the round counted. -/
theorem nextRound_goesOn {s u : State} (hs : Tbl.Rising s.attn.cores) (hu : u.attn = s.attn) (c : Nat) (v : Work) :
    GoesOn c v s (runCount c 4 1 (setCore c { coreOf s c with work := some v } u)) := by
  have h := (setCore_goesOn (s := u) (by rw [hu]; exact hs) c v).between hu ((runCount_keeps c 4 1 _).attn rfl)
  rwa [coreOf_of_attn hu] at h

theorem GoesOn.logEvent {c : Nat} {v : Work} {s u : State} (h : GoesOn c v s u) (a1 a2 a3 a4 a5 a6 a7 : Nat) :
    GoesOn c v s (logEvent a1 a2 a3 a4 a5 a6 a7 u) :=
  h.between rfl ((logEvent_keeps a1 a2 a3 a4 a5 a6 a7 u).attn rfl)

section
variable {s : State} (hs : Tbl.Rising s.attn.cores) (c : Nat) (w : Work) (f : Flight)
include hs

/-- A repeated pass finds its round's tiles. -/
theorem summaryEnd_repeated (hthr : w.thrWas ≠ []) :
    ∃ v, GoesOn c v s (summaryEnd c (coreOf s c) w f s) ∧ v.phase = .stream ∧ v.desc = w.desc ∧ v.round = w.round ∧ v.thr = w.thr ∧
      v.rows = w.rows := by
  have hempty : (!w.thrWas.isEmpty) = true := by simpa using hthr
  have hbusy := (busy_keeps c (summaryCycles (askOf s f) w) f s).attn rfl
  unfold summaryEnd
  extract_lets k u
  rw [if_pos hempty]
  generalize hv : ({ w with phase := .stream, toIssue := roundTiles w, issued := [], tiles := _ } : Work) = v
  have hset := nextRound_goesOn (u := u) hs hbusy c v
  obtain ⟨v', hgo, hf, -⟩ := issueReads_goesOn hset.rising hset.work
  exact ⟨v', hset.trans hgo, by rw [hf, ← hv], by rw [hf, ← hv], by rw [hf, ← hv], by rw [hf, ← hv], by rw [hf, ← hv]⟩

/-- The first pass gives each head its threshold. -/
theorem summaryEnd_first (hthr : w.thrWas = []) :
    ∃ v, GoesOn c v s (summaryEnd c (coreOf s c) w f s) ∧ v.phase = .stream ∧ v.desc = w.desc ∧ v.round = 1 ∧
      v.thr.length = ctxHeads (ctxOf s (dCtx f.desc)) ∧ v.rows = w.rows := by
  have hbusy := (busy_keeps c (summaryCycles (askOf s f) w) f s).attn rfl
  unfold summaryEnd
  extract_lets k u w1 sel above tiles first v u1
  rw [if_neg (by simp [hthr])]
  have hlen : v.thr.length = ctxHeads (ctxOf s (dCtx f.desc)) := (List.length_map _).trans ((List.length_map _).trans List.length_range)
  obtain ⟨hphase, hdesc, hround, hrows⟩ : v.phase = .stream ∧ v.desc = w.desc ∧ v.round = 1 ∧ v.rows = w.rows := ⟨rfl, rfl, rfl, rfl⟩
  have hset : GoesOn c v s u1 := nextRound_goesOn hs hbusy c v
  clear_value u1 v above
  split
  · obtain ⟨v', hgo, hf, -⟩ := issueReads_goesOn hset.rising hset.work
    exact ⟨v', hset.trans hgo, by rw [hf, hphase], by rw [hf, hdesc], by rw [hf, hround], by rw [hf, hlen], by rw [hf, hrows]⟩
  · exact ⟨v, hset.logEvent .., hphase, hdesc, hround, hlen, hrows⟩

end

/-! ## The end of a work item (R78 to R82) -/

/-- Core `c` is free and keeps its queue; no other core changes. -/
structure Freed (c : Nat) (s t : State) : Prop where
  rising : Tbl.Rising t.attn.cores
  work : (coreOf t c).work = none
  queue : (coreOf t c).queue = (coreOf s c).queue

theorem workEnd_freed {s : State} (hs : Tbl.Rising s.attn.cores) (c : Nat) (w : Work) (g : Flight → Flight) : Freed c s (workEnd c w g s) := by
  unfold workEnd
  extract_lets k u1 u2 u3
  have h1 : Freed c s u1 := by
    refine ⟨tput_rising _ _ hs _, ?_, ?_⟩ <;> rw [coreOf_setCore hs]
  have h3 : CoresSame u1 u3 := by
    have h2 : CoresSame u1 u2 := .of_attn ((coreTally_keeps ..).attn rfl)
    unfold u3
    split
    · exact h2.trans (setFlight_coresSame ..)
    · exact h2
  have h := h3.trans (workEnded_coresSame w.desc u3)
  exact ⟨Eq.mpr (congrArg Tbl.Rising h) h1.rising, by rw [coreOf_of_coresSame h, h1.work], by rw [coreOf_of_coresSame h, h1.queue]⟩

theorem attendEnd_freed {s : State} (hs : Tbl.Rising s.attn.cores) (c : Nat) (w : Work) (rows : List Row) :
    Freed c s (attendEnd c w rows s) := by
  unfold attendEnd
  exact workEnd_freed hs c w _

/-- After a stream the core is free, or, certified, runs one round more. -/
theorem roundEnd_ends {s : State} (hs : Tbl.Rising s.attn.cores) (c : Nat) (w : Work) (f : Flight) :
    Freed c s (roundEnd c (coreOf s c) w f s) ∨ (aMode f.desc ≠ 0 ∧ aMode f.desc ≠ 1 ∧
      ∃ v, GoesOn c v s (roundEnd c (coreOf s c) w f s) ∧ v.desc = w.desc ∧ v.round = w.round + 1 ∧ v.fresh = w.fresh) := by
  unfold roundEnd
  extract_lets k w1 rows g tau fails hds full lower w2
  split
  · exact .inl (attendEnd_freed hs ..)
  · split
    · exact .inl (attendEnd_freed hs ..)
    · next hmode0 =>
      split
      · exact .inl (attendEnd_freed hs ..)
      · next hmode1 =>
        split
        · exact .inl (attendEnd_freed hs ..)
        · refine .inr ⟨hmode0, hmode1, ?_⟩
          have hnext : ∀ v u, GoesOn c v s u → v.desc = w.desc ∧ v.round = w.round + 1 ∧ v.fresh = w.fresh →
              ∃ v, GoesOn c v s (issueReads c u) ∧ v.desc = w.desc ∧ v.round = w.round + 1 ∧ v.fresh = w.fresh := by
            intro v u hgo hv
            obtain ⟨v', hgo', hf, -⟩ := issueReads_goesOn hgo.rising hgo.work
            exact ⟨v', hgo.trans hgo', by rw [hf]; exact hv.1, by rw [hf]; exact hv.2.1, by rw [hf]; exact hv.2.2⟩
          split
          · exact hnext _ _ (setCore_goesOn hs c _) ⟨rfl, rfl, rfl⟩
          · exact hnext _ _ ((setCore_goesOn hs c _).between rfl ((runCount_keeps c 4 1 _).attn rfl)) ⟨rfl, rfl, rfl⟩

/-! ## The swap of converted pages (R200) -/

theorem swapPage_others {s : State} (hs : Tbl.Rising s.attn.cores) {c : Nat} {w : Work} (t : Tile) (fresh : Nat) :
    Tbl.Rising (swapPage c w t fresh s).attn.cores ∧ ∀ e, e ≠ c → coreOf (swapPage c w t fresh s) e = coreOf s e := by
  unfold swapPage
  split
  · exact ⟨hs, fun _ _ => rfl⟩
  · next f hf =>
    extract_lets es k next u
    obtain ⟨v, hgo⟩ : ∃ v, GoesOn c v s next := by
      have hset := setCore_goesOn hs c (takeEntry t { w with fresh := none, read := w.read + 1, tick := s.time.cycle })
      obtain ⟨v, hgo, -⟩ := issueReads_goesOn hset.rising hset.work
      exact ⟨v, hset.trans hgo⟩
    have hrest : ∀ r, CoresSame next r → Tbl.Rising r.attn.cores ∧ ∀ e, e ≠ c → coreOf r e = coreOf s e := fun r hr =>
      ⟨Eq.mpr (congrArg Tbl.Rising hr) hgo.rising, fun e he => (coreOf_of_coresSame hr e).trans (hgo.others e he)⟩
    split
    · exact hrest _ (freeFrame_coresSame ..)
    · have hu : CoresSame next u := by
        unfold u
        split
        · exact .of_attn ((setFrame_keeps ..).attn rfl)
        · exact .refl _
      exact hrest _ (hu.trans (CoresSame.trans (.foldl (swapEntry_coresSame _ _) es u) (setFlight_coresSame ..)))

/-- A core with no converted page that waits is not touched. -/
theorem swapCore_settled {s : State} (hs : Tbl.Rising s.attn.cores) {c : Nat} (hc : ∀ w, (coreOf s c).work = some w → w.fresh = none)
    (e : Nat) : Tbl.Rising (swapCore s e).attn.cores ∧ coreOf (swapCore s e) c = coreOf s c := by
  unfold swapCore
  split
  · next w hw =>
    split
    · next fr t l hfr hl =>
      have hec : c ≠ e := fun h => by
        rw [← h] at hw
        rw [hc w hw] at hfr
        cases hfr
      split
      · obtain ⟨hrise, hothers⟩ := swapPage_others hs (c := e) (w := w) t fr
        exact ⟨hrise, hothers c hec⟩
      · exact ⟨hs, rfl⟩
    · exact ⟨hs, rfl⟩
  · exact ⟨hs, rfl⟩

theorem coreOf_swapAll {s : State} (hs : Tbl.Rising s.attn.cores) {c : Nat} (hc : ∀ w, (coreOf s c).work = some w → w.fresh = none) :
    coreOf (swapAll s) c = coreOf s c := by
  rw [swapAll_eq]
  generalize List.range 20 = l
  induction l generalizing s with
  | nil => rfl
  | cons e l ih =>
    obtain ⟨hrise, hown⟩ := swapCore_settled hs hc e
    rw [List.foldl_cons, ih hrise (by rw [hown]; exact hc), hown]

/-! ## The commands -/

/-- The work item with which a core begins: the summary pass, the stream in the full mode, or the pages of a COMPACT. -/
def Work.begun (w : Work) (s : State) : Work :=
  let v := { w with tick := s.time.cycle, tiles := if w.compact then w.tiles else w.tiles.map (freshTile s w) }
  if w.compact then { v with phase := .compact, toIssue := v.tiles }
  else if ((flightOf s w.desc).map fun f => aMode f.desc).getD 0 = 0 then { v with phase := .stream, toIssue := v.tiles, round := 1 }
  else { v with phase := .summary, toIssue := summaryPages s v }

theorem Work.begun_desc (w : Work) (s : State) : (w.begun s).desc = w.desc := by
  unfold Work.begun
  extract_lets v
  split
  · rfl
  · split <;> rfl

theorem Work.begun_phase (w : Work) (s : State) : (w.begun s).phase =
    if w.compact then .compact else if ((flightOf s w.desc).map fun f => aMode f.desc).getD 0 = 0 then .stream else .summary := by
  unfold Work.begun
  extract_lets v
  split
  · rfl
  · split <;> rfl

/-- The state in which core `c` has its next work item. -/
def workTaken (c : Nat) (v : Work) (l : List Work) (s : State) : State :=
  let u := setCore c { coreOf s c with work := some v, queue := l } (coreRecordMove c s)
  if v.round = 1 then runCount c 4 1 u else u

theorem workTaken_cores {s : State} (hs : Tbl.Rising s.attn.cores) (c : Nat) (v : Work) (l : List Work) :
    Tbl.Rising (workTaken c v l s).attn.cores ∧ coreOf (workTaken c v l s) c = { coreOf s c with work := some v, queue := l } ∧
      ∀ e, e ≠ c → coreOf (workTaken c v l s) e = coreOf s e := by
  have hmove : (coreRecordMove c s).attn = s.attn := (coreRecordMove_keeps ..).attn rfl
  have hrise : Tbl.Rising (coreRecordMove c s).attn.cores := by rw [hmove]; exact hs
  unfold workTaken
  extract_lets k u
  have hu : Tbl.Rising u.attn.cores ∧ coreOf u c = { coreOf s c with work := some v, queue := l } ∧ ∀ e, e ≠ c → coreOf u e = coreOf s e :=
    ⟨tput_rising _ _ hrise _, coreOf_setCore hrise .., fun e he => (coreOf_setCore_ne hrise he _).trans (coreOf_of_attn hmove e)⟩
  have hrun : (runCount c 4 1 u).attn = u.attn := (runCount_keeps ..).attn rfl
  split
  · simpa only [hrun, coreOf_of_attn hrun] using hu
  · exact hu

theorem exec_workItemStart {s : State} {c : Fin 20} {w : Work} {l : List Work} (hwork : (coreOf s c.val).work = none)
    (hqueue : (coreOf s c.val).queue = w :: l) (hst : (coreOf s c.val).st = .inService)
    (hfree : w.compact = true ∨ swapWaits s w.ctx = false) :
    exec (.workItemStart c) s = .next (issueReads c.val (workTaken c.val (w.begun s) l s)) := by
  show execWorkItemStart c s = _
  unfold execWorkItemStart
  simp only [hwork, hqueue]
  exact if_neg fun h => by rcases hfree with hfree | hfree <;> simp [hst, hfree] at h

section
variable {s : State} {c : Fin 20} {w : Work}

theorem exec_t1GranuleReady (hwork : (coreOf s c.val).work = some w) {v : Work} {i : Nat} {f : Finding}
    (hv : (coreOf (granuleBack c.val (coreOf s c.val) w i f s) c.val).work = some v) : exec (.t1GranuleReady c i f) s =
      .next (if v.compact then compactOn c.val v (granuleBack c.val (coreOf s c.val) w i f s)
        else advance c.val (granuleBack c.val (coreOf s c.val) w i f s)) := by
  show execT1GranuleReady c i f s = _
  unfold execT1GranuleReady
  simp only [hwork, hv]

theorem exec_summaryPassEnd {v : Work} {f : Flight} (hv : (coreOf (advance c.val s) c.val).work = some v) (hphase : v.phase = .summary)
    (hd : drained v = true) (hf : flightOf (advance c.val s) v.desc = some f) : exec (.summaryPassEnd c) s =
      .next (summaryEnd c.val (coreOf (advance c.val s) c.val) v f (advance c.val s)) := by
  show execSummaryPassEnd c s = _
  unfold execSummaryPassEnd
  simp only [hv, hphase, hd, hf, and_self, if_true]

theorem exec_certifiedCheck_compact (hwork : (coreOf s c.val).work = some w) (hcompact : w.compact = true) : exec (.certifiedCheck c) s = .next (compactOn c.val w s) := by
  show execCertifiedCheck c s = _
  unfold execCertifiedCheck
  simp only [hwork, hcompact, if_true]

theorem exec_certifiedCheck (hwork : (coreOf s c.val).work = some w) {v : Work} {f : Flight} (hcompact : w.compact = false)
    (hv : (coreOf (advance c.val s) c.val).work = some v)
    (hphase : v.phase = .stream) (hd : drained v = true) (hf : flightOf (advance c.val s) v.desc = some f) :
    exec (.certifiedCheck c) s =
      .next (swapAll (roundEnd c.val (coreOf (advance c.val s) c.val) v f (advance c.val s))) := by
  show execCertifiedCheck c s = _
  unfold execCertifiedCheck
  simp only [hwork, hcompact, Bool.false_eq_true, if_false, hv, hphase, hd, hf, and_self, if_true]

end

theorem compactOn_of_nothing {c : Nat} {w : Work} (hnext : nextIn w = none) (s : State) : compactOn c w s = compactIdle c (issueReads c s) := by
  unfold compactOn
  rw [hnext]
  cases w.fresh <;> rfl

theorem nextIn_of_drained {w : Work} (hd : drained w = true) : nextIn w = none := by
  have hissued : w.issued = [] := by simp_all [drained]
  simp only [nextIn, hissued]

/-- Settles O21: each clause by what the core goes on with. -/
theorem coresRunWork : Obligations.CoresRunWork := by
  unfold Obligations.CoresRunWork
  refine ⟨fun s c w l hinv hwork hqueue hst hfree => ?_, fun s c w i g f hinv hwork hcompact hg => ?_,
    fun s c w v i g f hinv hwork hcompact hg hv hnext hd => ?_, fun s c w v x i f hwork hv hcompact hfresh hnext => ?_,
    fun s c w f hinv hwork hphase hd hthr hf => ?_, fun s c w f hinv hwork hphase hd hthr hf => ?_,
    fun s c w f hinv hwork hphase hcompact hd hfresh hf => ?_, fun s c w hinv hwork hcompact hd hfresh => ?_⟩
  · obtain ⟨hrise, hown, hothers⟩ := workTaken_cores hinv.cores c.val (w.begun s) l
    obtain ⟨v, hgo, hfetched, -⟩ := issueReads_goesOn hrise (c := c.val) (w := w.begun s) (by rw [hown])
    refine ⟨_, v, exec_workItemStart hwork hqueue hst hfree, ?_, hgo.work, ?_, ?_, fun e he => (hgo.others e he).trans (hothers e he)⟩
    · rw [hgo.queue, hown]
    · rw [hfetched, ← w.begun_desc s]
    · rw [hfetched, ← w.begun_phase s]
  · obtain ⟨v, hback, hdesc, hphase, hcomp, hbytes⟩ := granuleBack_goesOn hinv.cores (c := c.val) f hg
    obtain ⟨v', hgo, hahead⟩ := advance_goesOn hback.rising hback.work
    have hall := hback.trans hgo
    refine ⟨_, v', (exec_t1GranuleReady hwork hback.work).trans (by rw [hcomp, hcompact]; rfl), hall.work, hahead.desc.trans hdesc,
      hahead.phase.trans hphase, hahead.bytes.trans hbytes, hall.others⟩
  · obtain ⟨v0, hback, hdesc, -, hcomp, hbytes⟩ := granuleBack_goesOn hinv.cores (c := c.val) f hg
    obtain rfl : v0 = v := Option.some.inj (hback.work.symm.trans hv)
    obtain ⟨u, hgo, hfetched, hdu⟩ := issueReads_goesOn hback.rising hback.work
    have hall := hback.trans hgo
    have hidle : compactOn c.val v0 (granuleBack c.val (coreOf s c.val) w i f s) =
        issueReads c.val (granuleBack c.val (coreOf s c.val) w i f s) := by
      rw [compactOn_of_nothing hnext, compactIdle, hall.work]
      exact if_neg fun h => by simp [hdu, hd] at h
    refine ⟨_, u, (exec_t1GranuleReady hwork hv).trans (by rw [hcomp, hcompact, if_pos rfl, hidle]), hall.work, ?_, ?_, hall.others⟩
    · rw [hfetched, ← hdesc]
    · rw [hfetched, ← hbytes]
  · rw [exec_t1GranuleReady hwork hv, hcompact, if_pos rfl]
    unfold compactOn
    simp only [hfresh, hnext]
  · obtain ⟨v, hgo, hfetched, hdv, hkv⟩ := advance_drained_goesOn hinv.cores hwork hd hf
    obtain ⟨hvphase, hvdesc, hvthr, hvrows⟩ : v.phase = .summary ∧ v.desc = w.desc ∧ v.thrWas = [] ∧ v.rows = w.rows := by
      rw [hfetched]
      exact ⟨hphase, rfl, hthr, rfl⟩
    have hfv : flightOf (advance c.val s) v.desc = some f := by rw [flightOf_of_flights hgo.flights, hvdesc, hf]
    obtain ⟨v', hend, h1, h2, h3, h4, h5⟩ := summaryEnd_first hgo.rising c.val v f hvthr
    rw [ctxOf_of_kv hkv] at h4
    exact ⟨_, v', exec_summaryPassEnd hgo.work hvphase hdv hfv, hend.work, h1, h2.trans hvdesc, h3, h4, h5.trans hvrows⟩
  · obtain ⟨v, hgo, hfetched, hdv, -⟩ := advance_drained_goesOn hinv.cores hwork hd hf
    obtain ⟨hvphase, hvdesc, hvthr, hvrows, hvround, hvthr'⟩ : v.phase = .summary ∧ v.desc = w.desc ∧ v.thrWas ≠ [] ∧
        v.rows = w.rows ∧ v.round = w.round ∧ v.thr = w.thr := by
      rw [hfetched]
      exact ⟨hphase, rfl, hthr, rfl, rfl, rfl⟩
    have hfv : flightOf (advance c.val s) v.desc = some f := by rw [flightOf_of_flights hgo.flights, hvdesc, hf]
    obtain ⟨v', hend, h1, h2, h3, h4, h5⟩ := summaryEnd_repeated hgo.rising c.val v f hvthr
    exact ⟨_, v', exec_summaryPassEnd hgo.work hvphase hdv hfv, hend.work, h1, h2.trans hvdesc, h3.trans hvround,
      h4.trans hvthr', h5.trans hvrows⟩
  · obtain ⟨v, hgo, hfetched, hdv, -⟩ := advance_drained_goesOn hinv.cores hwork hd hf
    obtain ⟨hvphase, hvdesc, hvround, hvfresh⟩ : v.phase = .stream ∧ v.desc = w.desc ∧ v.round = w.round ∧ v.fresh = none := by
      rw [hfetched]
      exact ⟨hphase, rfl, rfl, hfresh⟩
    have hfv : flightOf (advance c.val s) v.desc = some f := by rw [flightOf_of_flights hgo.flights, hvdesc, hf]
    refine ⟨_, exec_certifiedCheck hwork hcompact hgo.work hvphase hdv hfv, ?_⟩
    rcases roundEnd_ends hgo.rising c.val v f with hfreed | ⟨hmode0, hmode1, v', hround, h1, h2, h3⟩
    · rw [coreOf_swapAll hfreed.rising (fun x hx => by rw [hfreed.work] at hx; cases hx)]
      exact ⟨hfreed.queue.trans hgo.queue, .inl hfreed.work⟩
    · rw [coreOf_swapAll hround.rising (fun x hx => by
        rw [hround.work] at hx
        rw [← Option.some.inj hx, h3, hvfresh])]
      exact ⟨hround.queue.trans hgo.queue, .inr ⟨hmode0, hmode1, v', hround.work, h1.trans hvdesc, by rw [h2, hvround]⟩⟩
  · obtain ⟨v, hgo, hfetched, hdv⟩ := issueReads_goesOn hinv.cores hwork
    have hidle : compactOn c.val w s = workEnd c.val v id (issueReads c.val s) := by
      rw [compactOn_of_nothing (nextIn_of_drained hd), compactIdle, hgo.work]
      refine if_pos ⟨?_, hdv.trans hd, ?_⟩ <;> rw [hfetched]
      · exact hcompact
      · exact Option.isNone_iff_eq_none.2 hfresh
    have hfreed := workEnd_freed hgo.rising c.val v id
    exact ⟨_, (exec_certifiedCheck_compact hwork hcompact).trans (by rw [hidle]), hfreed.work, hfreed.queue.trans hgo.queue⟩

end Sys2Proof.Machine
end

section
/-! PROOFS. Partials, the output and its push writes (R82 to R85, R102, R132, R137, R139). -/

namespace Sys2Proof.Machine

/-! ## The merge (R83) -/

/-- The flight with its oldest partial at `die` merged into `rows`: at the home die, or with more to come, the die has them and
expects one less; elsewhere they go on to the home die. -/
def Flight.mergedAt (f : Flight) (die home : Nat) (p : Nat × List Row) (rows : List Row) : Flight :=
  let left := tget 0 f.due die - 1
  if left = 0 ∧ die ≠ home then
    { f with
      parts := f.parts.erase p ++ [(home, rows)], merged := tput [] f.merged die []
      due := tput 0 (tput 0 f.due die 0) home (tget 0 f.due home + 1) }
  else { f with parts := f.parts.erase p, merged := tput [] f.merged die rows, due := tput 0 f.due die left }

theorem Flight.mergedAt_alike (f : Flight) (die home : Nat) (p : Nat × List Row) (rows : List Row) :
    Flight.Alike f (f.mergedAt die home p rows) := by
  unfold Flight.mergedAt
  extract_lets left
  split <;> exact ⟨rfl, rfl, rfl, rfl, rfl⟩

theorem Flight.mergedAt_rest (f : Flight) (die home : Nat) (p : Nat × List Row) (rows : List Row) :
    (f.mergedAt die home p rows).left = f.left ∧ (f.mergedAt die home p rows).members = f.members ∧
      (f.mergedAt die home p rows).codes = f.codes := by
  unfold Flight.mergedAt
  extract_lets left
  split <;> exact ⟨rfl, rfl, rfl⟩

/-- The counting house's traffic of a merge. -/
def mergeTallied (f : Flight) (die n : Nat) (s : State) : State :=
  let bytes := n * (4 * ctxDv (ctxOf s (dCtx f.desc)) + 16)
  tallyAdd 0x7001 (120 + die) 0 bytes (tallyAdd 0x7001 (120 + die) 1 bytes s)

theorem mergeTallied_keeps (f : Flight) (die n : Nat) (s : State) : Keeps 0x80 s (mergeTallied f die n s) :=
  (tallyAdd_keeps ..).step ((tallyAdd_keeps ..).mono)

/-- The end of an ATTEND in whose merge a row overflows (R102). -/
def mergeOverflows (die d r : Nat) (f : Flight) (s : State) : State :=
  workEnded d (setFlight { f with codes := f.codes ++ [(ccAborted, 2)] } (logEvent 0x0A 0 (4 * 2 ^ 28 + die * 2 ^ 24) f.tenant 0xFF 0 r s))

section
variable {s : State} {die : Fin 2} {d : Nat} {f : Flight} {p : Nat × List Row} {rows : List Row} (hf : flightOf s d = some f)
  (hp : f.parts.find? (fun p => p.1 == die.val) = some p)
include hf hp

theorem exec_partialArrival (hrows : mergeRows (tget [] f.merged die.val) p.2 = (rows, none)) : exec (.partialArrival die d) s =
    .next (setFlight (f.mergedAt die.val (ctxOf s (dCtx f.desc)).home p rows) (mergeTallied f die.val rows.length s)) := by
  show execPartialArrival die d s = _
  unfold execPartialArrival
  simp only [hf, hp, hrows]
  rfl

theorem exec_partialArrival_overflow {r : Nat} (hrows : mergeRows (tget [] f.merged die.val) p.2 = (rows, some r)) :
    exec (.partialArrival die d) s = .next (mergeOverflows die.val d r (f.mergedAt die.val (ctxOf s (dCtx f.desc)).home p rows)
      (mergeTallied f die.val rows.length s)) := by
  show execPartialArrival die d s = _
  unfold execPartialArrival
  simp only [hf, hp, hrows]
  rfl

end

/-- The members that stop with an ATTEND that has failed. -/
def partsStopped (f : Flight) (d : Nat) (s : State) : State :=
  (if f.qp < 1024 then (otherMembers s (dCtx f.desc)).filter (reachable s) else []).foldl (spanSend 3 d []) s

theorem partsStopped_keeps (f : Flight) (d : Nat) (s : State) : Keeps 0x200000 s (partsStopped f d s) :=
  Keeps.foldl (P := 0x200000) (.refl _ _) fun _ _ h => (spanSend_keeps ..).step h

/-- An ATTEND with one failure and nothing left to wait for ends with that failure's code, whichever rule picks it. -/
theorem workEnded_of_aborted {s : State} {d : Nat} {g : Flight} (hg : flightOf s d = some g) (hleft : g.left = []) (hmembers : g.members = [])
    (hcodes : g.codes = [(ccAborted, 2)]) (hop : dOpcode g.desc = 1) :
    workEnded d s = complete d ccAborted 2 0 0 (partsStopped g d s) := by
  have hpick : (if spanMask s (dCtx g.desc) ≠ 0 then spanCode [(ccAborted, 2)]
      else if [(ccAborted, 2)].contains (ccFenced, 0) then (ccFenced, 0) else (pickCode [(ccAborted, 2)]).getD (0, 0)) = (ccAborted, 2) := by
    split <;> rfl
  unfold workEnded
  rw [hg]
  dsimp only
  rw [if_neg (by simp [hleft, hmembers]), hcodes, show [(ccAborted, 2)].filter (fun c => c.1 != 0) = [(ccAborted, 2)] from rfl, hpick]
  exact (if_neg (by rw [hop]; decide)).trans (if_pos (by decide))

theorem mergeOverflows_answered {s : State} (hs : Tbl.Rising s.led.qps) {d : Nat} {f g : Flight} (hf : flightOf s d = some f)
    (halike : Flight.Alike f g) (hqp : f.qp < 1024) (hop : dOpcode f.desc = 1) (hleft : g.left = []) (hmembers : g.members = [])
    (hcodes : g.codes = []) (hdown : steppedDown s = false) (die r : Nat) :
    Answered (mergeOverflows die d r g s) f 0x41 2 0 0 := by
  have hlog := logEvent_keeps 0x0A 0 (4 * 2 ^ 28 + die * 2 ^ 24) g.tenant 0xFF 0 r s
  unfold mergeOverflows
  generalize logEvent 0x0A 0 (4 * 2 ^ 28 + die * 2 ^ 24) g.tenant 0xFF 0 r s = v at *
  have hflight := flightOf_setFlight (s := v) (g := { g with codes := g.codes ++ [(ccAborted, 2)] })
    ((flightOf_of_attn (hlog.attn rfl) d).trans hf) halike.id
  have hdesc : dOpcode g.desc = 1 := by rw [halike.desc, hop]
  rw [workEnded_of_aborted hflight hleft hmembers (by rw [hcodes]; rfl) hdesc]
  have hset := setFlight_keeps { g with codes := g.codes ++ [(ccAborted, 2)] } v
  have hk := partsStopped_keeps { g with codes := g.codes ++ [(ccAborted, 2)] } d (setFlight { g with codes := g.codes ++ [(ccAborted, 2)] } v)
  have hans := answered_failed (detail := 2) (code := ccAborted)
    (by rw [hk.led rfl, hset.led rfl, hlog.led rfl]; exact hs)
    ((flightOf_of_attn (hk.attn rfl) d).trans hflight)
    (by rw [steppedDown_of_span ((hk.span rfl).trans ((hset.span rfl).trans (hlog.span rfl))), hdown])
    (show g.qp < 1024 by rw [halike.qp]; exact hqp) (by decide) rfl (by decide) (by decide)
  rw [if_neg (show dOpcode g.desc ≠ 2 by rw [hdesc]; decide)] at hans
  exact hans.alike ⟨halike.id.symm, halike.qp.symm, halike.desc.symm, halike.slot.symm, halike.held.symm⟩

/-! ## The output (R132, R137) -/

/-- The flight of an ATTEND whose output is being formed: the deadline no longer applies (R139). -/
def Flight.forming (f : Flight) : Flight := { f with stage := .output }

section
variable {s : State} {d : Nat} {f : Flight} (hf : flightOf s d = some f) (hstage : f.stage = .running) (hop : dOpcode f.desc = 1)
  (hmerged : allMerged f = true) (hrows : tget [] f.merged (ctxOf s (dCtx f.desc)).home ≠ [])
include hf hstage hop hmerged hrows

theorem exec_outputFormed (hmembers : f.members = []) (hqp : f.qp < 1024) : exec (.outputFormed d) s =
    .next (writeOutput f.forming (tget [] f.merged (ctxOf s (dCtx f.desc)).home)
      (setFlight f.forming s)) := by
  show execOutputFormed d s = _
  unfold execOutputFormed
  simp only [hf]
  exact (if_neg (by omega)).trans (if_pos ⟨.inl hstage, hop, hmerged, by rw [hmembers]; rfl, hrows, hqp⟩)

theorem exec_outputFormed_of_member (hqp : 1024 ≤ f.qp) :
    exec (.outputFormed d) s = .next (sendPartial f (tget [] f.merged (ctxOf s (dCtx f.desc)).home) s) := by
  show execOutputFormed d s = _
  unfold execOutputFormed
  simp only [hf]
  rw [if_pos ⟨hqp, hstage, hop, hmerged, hrows⟩]

end

/-- The digest of an output is kept for its queue pair (R671). -/
def digestKept (f : Flight) (rows : List Row) (s : State) : State :=
  s.setTal fun t => { t with qpDigest := tput 0 t.qpDigest f.qp (digestOf f.desc rows) }

/-- The largest residual of an output, none in the full mode (R109, R165). -/
def attendResult1 (f : Flight) (rows : List Row) : Nat :=
  if aMode f.desc = 0 then 0 else f32Enc (rows.foldl (fun a r => dyMax a (residual r)) dyZero)

/-- The flight of an ATTEND whose output has been pushed in `n` messages. -/
def Flight.pushing (f : Flight) (n : Nat) (rows : List Row) : Flight :=
  { f with stage := .pushing, r1 := attendResult1 f rows, r2 := attendResult2 f, acks := n }

theorem writeOutput_pushed {s : State} {f : Flight} {rows : List Row} (hpush : aPush f.desc = true)
    (hn : (pushBlock f (outBlock f.desc rows) s).2 ≠ 0) : writeOutput f rows s = digestKept f rows
      (setFlight (f.pushing (pushBlock f (outBlock f.desc rows) s).2 rows)
        (pushBlock f (outBlock f.desc rows) s).1) := by
  unfold writeOutput
  exact (if_pos hpush).trans (if_neg hn)

/-- Pieces that all lie on this device need no answer of another (R372). -/
theorem sendRemote_of_own {s : State} (f : Flight) {ps : List (Nat × Nat)} (h : ∀ p ∈ ps, p.1 / 2 ^ 52 = ownIndex s) (bs : List Byte) :
    sendRemote f ps bs s = some (0, s) := by
  induction ps generalizing bs with
  | nil => rfl
  | cons p ps ih =>
    unfold sendRemote
    rw [if_pos (h p List.mem_cons_self)]
    exact ih (fun q hq => h q (List.mem_cons_of_mem _ hq)) _

/-- The flight of an ATTEND whose output has been written to pool memory. -/
def Flight.written (f : Flight) (n : Nat) (rows : List Row) : Flight :=
  { f with t1w := f.t1w + n, r1 := attendResult1 f rows, r2 := attendResult2 f }

theorem writeOutput_written {s s1 s2 s2' s3 s4 : State} {f : Flight} {rows : List Row} {ps : List (Nat × Nat)} (hpush : aPush f.desc = false)
    (hwait : blockWait (flightDie f) (dPasid f.desc) (aOut f.desc) (outBytes f.desc (ctxOf s (dCtx f.desc))) true s = (false, s1))
    (htranslate : translateBlock (flightDie f) (dPasid f.desc) (aOut f.desc) (outBytes f.desc (ctxOf s (dCtx f.desc))) true s1 = (.ok ps, s2))
    (hown : ∀ p ∈ ps, p.1 / 2 ^ 52 = ownIndex s2) (hcache : cacheWait ((flightOf s2 f.id).getD f) ps s2 = (false, s2'))
    (hready : cacheReady ps true s2' = some s3)
    (hwrite : writePieces (dPasid f.desc) ps (ownBytes s3 ps (outBlock f.desc rows)) s3 = (0, s4))
    (hindex : ownIndex (tenantCount f.tenant 2 (t1Bytes ps) s4) = ownIndex s2) :
    writeOutput f rows s = complete f.id 0 0 (attendResult1 f rows) (attendResult2 f)
      (setFlight (f.written (t1Bytes ps) rows) (digestKept f rows (tenantCount f.tenant 2 (t1Bytes ps) s4))) := by
  have hfilter : (ps.filter fun p => p.1 / 2 ^ 52 == ownIndex s2) = ps := List.filter_eq_self.2 fun p hp => beq_iff_eq.2 (hown p hp)
  have hsend : ∀ (g : Flight) bs, sendRemote g ps bs (tenantCount f.tenant 2 (t1Bytes ps) s4) =
      some (0, tenantCount f.tenant 2 (t1Bytes ps) s4) := fun g bs => sendRemote_of_own g (by rw [hindex]; exact hown) bs
  unfold writeOutput
  extract_lets bs r1 r2 dig len
  refine (if_neg (by rw [hpush]; decide)).trans ?_
  simp only [len, hwait, htranslate, hfilter, hcache, hready, bs, hwrite, hsend]
  rfl

/-- An ATTEND in the full mode whose output stands in pool memory is answered (R137, R165). -/
theorem written_answered {s : State} {d : Nat} {f : Flight} (hs : Tbl.Rising s.led.qps) (hf : (flightOf s d).isSome) (hid : f.id = d)
    (hqp : f.qp < 1024) (hdown : steppedDown s = false) (hmode : aMode f.desc = 0) (ps : List (Nat × Nat)) (rows : List Row) :
    (complete f.id 0 0 (attendResult1 f rows) (attendResult2 f)
        (setFlight (f.written (t1Bytes ps) rows) (digestKept f rows (tenantCount f.tenant 2 (t1Bytes ps) s)))).mem.bytes = s.mem.bytes ∧
      Answered (complete f.id 0 0 (attendResult1 f rows) (attendResult2 f)
        (setFlight (f.written (t1Bytes ps) rows) (digestKept f rows (tenantCount f.tenant 2 (t1Bytes ps) s)))) f
        (if f.held then 0x10 else 0) 0 0 (attendResult2 f % 2 ^ 32) := by
  obtain ⟨g, hg⟩ := Option.isSome_iff_exists.1 hf
  have hcount := tenantCount_keeps f.tenant 2 (t1Bytes ps) s
  have hflight := flightOf_setFlight (s := digestKept f rows (tenantCount f.tenant 2 (t1Bytes ps) s)) (g := f.written (t1Bytes ps) rows)
    ((flightOf_of_attn (hcount.attn rfl) d).trans hg) (hid.trans (flightOf_id hg).symm)
  have hset := setFlight_keeps (f.written (t1Bytes ps) rows) (digestKept f rows (tenantCount f.tenant 2 (t1Bytes ps) s))
  have hzero : attendResult1 f rows = 0 := if_pos hmode
  have hans := answered_done (by rw [hset.led rfl]; exact (hcount.led rfl) ▸ hs) 0 (attendResult2 f) hflight
    (by rw [steppedDown_of_span ((hset.span rfl).trans (hcount.span rfl)), hdown]) hqp
  rw [hzero, hid]
  exact ⟨((complete_keeps ..).bytes rfl).trans ((hset.bytes rfl).trans (hcount.bytes rfl)), hans⟩

/-! ## Acknowledgements (R132, R137) -/

section
variable {s : State} {p : Fin 8} {m : KafMsg} {f : Flight}
  (hf : (s.attn.flights.find? fun f => f.stage == .pushing && f.id % 2 ^ 15 == m.tag && (qpOf s f.qp).bindPort == p.val) = some f)
include hf

theorem exec_pushAck (hcode : m.code = 0 ∨ m.code = 0x10) : exec (.pushAck p m) s =
    if f.acks ≤ 1 then .next (complete f.id 0 0 f.r1 f.r2 s) else .next (setFlight { f with acks := f.acks - 1 } s) := by
  show execPushAck p m s = _
  unfold execPushAck
  rw [hf]
  exact if_neg fun h => hcode.elim h.1 h.2

theorem exec_pushAck_of_failed (h0 : m.code ≠ 0) (h10 : m.code ≠ 0x10) : exec (.pushAck p m) s =
    .next (complete f.id (if blockCodes.contains m.code then m.code else ccXlate) 1 0 0 s) := by
  show execPushAck p m s = _
  unfold execPushAck
  rw [hf]
  exact if_pos ⟨h0, h10⟩

end

/-- The codes of an output block are failures of one byte, none of which leaves an APPEND's result. -/
theorem blockCode_fails {c : Nat} (h : c ∈ blockCodes) : c ≠ 0 ∧ keepResults 2 c = false ∧ c < 2 ^ 8 := by
  have hall : ∀ c ∈ blockCodes, c ≠ 0 ∧ keepResults 2 c = false ∧ c < 2 ^ 8 := by decide
  exact hall c h

/-- Settles O22: what is answered is answered by the same end of a descriptor, with the code of the event. -/
theorem partialsBecomeOutput : Obligations.PartialsBecomeOutput := by
  unfold Obligations.PartialsBecomeOutput
  refine ⟨fun s die d f p rows hf hp hmerged hdue hrows hstay hpos => ?_, fun s die d f p rows hf hp hone hrows hhome => ?_,
    fun s die d r f p rows hinv hf hqp hop hp hrows hleft hmembers hcodes hdown => ?_,
    fun s d n f hf hstage hqp hop hall hmembers hrows hpush hup hn hpos => ?_,
    fun s s1 s2 s2' s3 s4 d f ps hf hstage hqp hop hall hmembers hrows hpush hwait htranslate hown hcache hready hwrite hindex hrise
      hflight hdown hmode => ?_,
    fun s d f hf hqp hstage hop hall hrows => exec_outputFormed_of_member hf hstage hop hall hrows hqp,
    fun s p m f hinv hfind hf hqp hcode hacks hdown => ?_, fun s p m f hinv hfind hf hqp hop h0 h10 hdown => ?_,
    fun s p m f hfind hcode hacks => (exec_pushAck hfind hcode).trans (if_neg (by omega))⟩
  · have hk := mergeTallied_keeps f die.val rows.length s
    have hflight := flightOf_setFlight ((flightOf_of_attn (hk.attn rfl) d).trans hf)
      (f.mergedAt_alike die.val (ctxOf s (dCtx f.desc)).home p rows).id
    have heq : f.mergedAt die.val (ctxOf s (dCtx f.desc)).home p rows = { f with
        parts := f.parts.erase p, merged := tput [] f.merged die.val rows, due := tput 0 f.due die.val (tget 0 f.due die.val - 1) } :=
      if_neg fun h => hstay.elim (fun h1 => h1 (by omega)) h.2
    refine ⟨_, _, exec_partialArrival hf hp hrows, hflight, ?_⟩
    rw [heq]
    refine ⟨rfl, tget_tput _ _ _ hmerged _, ?_⟩
    show tget 0 (tput 0 f.due die.val (tget 0 f.due die.val - 1)) die.val + 1 = _
    rw [tget_tput _ _ _ hdue]
    omega
  · have hk := mergeTallied_keeps f die.val rows.length s
    have hflight := flightOf_setFlight ((flightOf_of_attn (hk.attn rfl) d).trans hf)
      (f.mergedAt_alike die.val (ctxOf s (dCtx f.desc)).home p rows).id
    refine ⟨_, _, exec_partialArrival hf hp hrows, hflight, ?_⟩
    exact congrArg Flight.parts (if_pos ⟨by omega, hhome⟩)
  · have hk := mergeTallied_keeps f die.val rows.length s
    obtain ⟨hl, hm, hc⟩ := f.mergedAt_rest die.val (ctxOf s (dCtx f.desc)).home p rows
    exact ⟨_, exec_partialArrival_overflow hf hp hrows, mergeOverflows_answered (by rw [hk.led rfl]; exact hinv.led.qps)
      ((flightOf_of_attn (hk.attn rfl) d).trans hf) (f.mergedAt_alike ..) hqp hop (hl.trans hleft) (hm.trans hmembers) (hc.trans hcodes)
      (by rw [steppedDown_of_span (hk.span rfl), hdown]) die.val r⟩
  · have hout := flightOf_setFlight (g := f.forming) hf rfl
    have hacks : (pushBlock f.forming (outBlock f.forming.desc (tget [] f.merged (ctxOf s (dCtx f.desc)).home))
        (setFlight f.forming s)).2 = n := by
      rw [hn]
      exact if_pos hup
    have hk := pushBlock_keeps f.forming (outBlock f.forming.desc (tget [] f.merged (ctxOf s (dCtx f.desc)).home))
      (setFlight f.forming s)
    have hwrite := writeOutput_pushed (s := setFlight f.forming s) (f := f.forming)
      (rows := tget [] f.merged (ctxOf s (dCtx f.desc)).home) hpush (by rw [hacks]; omega)
    rw [hacks] at hwrite
    refine ⟨_, f.forming.pushing n (tget [] f.merged (ctxOf s (dCtx f.desc)).home),
      (exec_outputFormed hf hstage hop hall hrows hmembers hqp).trans (by rw [hwrite]), ?_, rfl, rfl, rfl, fun hmode => if_pos hmode⟩
    exact flightOf_setFlight (g := f.forming.pushing n (tget [] f.merged (ctxOf s (dCtx f.desc)).home))
      ((flightOf_of_attn (hk.attn rfl) d).trans hout) rfl
  · have hid := flightOf_id hf
    have hwritten := writeOutput_written (f := f.forming) (s := setFlight f.forming s) (rows := tget [] f.merged (ctxOf s (dCtx f.desc)).home)
      hpush hwait htranslate hown ((congrArg (fun i => cacheWait ((flightOf s2 i).getD f.forming) ps s2) hid).trans hcache) hready hwrite hindex
    obtain ⟨hbytes, hans⟩ := written_answered (f := f.forming) hrise hflight hid hqp hdown hmode ps
      (tget [] f.merged (ctxOf s (dCtx f.desc)).home)
    exact ⟨_, (exec_outputFormed hf hstage hop hall hrows hmembers hqp).trans (by rw [hwritten]), hbytes, hans⟩
  · rw [exec_pushAck hfind hcode, if_pos hacks]
    exact ⟨_, rfl, answered_done hinv.led.qps f.r1 f.r2 hf hdown hqp⟩
  · refine ⟨_, exec_pushAck_of_failed hfind h0 h10, ?_⟩
    have hcode : ∀ c, c ≠ 0 ∧ keepResults 2 c = false ∧ c < 2 ^ 8 → Answered (complete f.id c 1 0 0 s) f c 1 0 0 := fun c h => by
      have hans := answered_failed hinv.led.qps (detail := 1) hf hdown hqp h.1 h.2.1 h.2.2 (by decide)
      rwa [if_neg (by rw [hop]; decide)] at hans
    by_cases hmem : m.code ∈ blockCodes
    · rw [if_pos hmem, if_pos (List.contains_iff_mem.2 hmem)]
      exact hcode _ (blockCode_fails hmem)
    · rw [if_neg hmem, if_neg (by rwa [List.contains_iff_mem])]
      exact hcode _ ⟨by decide, rfl, by decide⟩

end Sys2Proof.Machine
end

section
/-! PROOFS. OPEN and CLOSE of contexts, their release, and hints (R171 to R173, R219, R220, R595, R641, R642). -/

namespace Sys2Proof.Machine

/-! ## Commands that a twin pair mirrors (R595) -/

theorem mirrorGate_alone {s : State} (hlead : s.span.twin ≠ .lead) (hfollow : s.span.twin ≠ .follow) (m : Mirror)
    (f : State → Nat × State) : mirrorGate m f s = f s := by
  unfold mirrorGate
  split
  · next h => exact absurd h hfollow
  · next h => exact absurd h hlead
  · rfl

theorem mirrorGate_lead {s : State} (h : s.span.twin = .lead) (m : Mirror) {f : State → Nat × State} (hf : (f s).1 = 0) :
    mirrorGate m f s =
      (0, { s with span := { s.span with mirror := s.span.mirror ++ [(2, m)], accepted := s.span.accepted ++ [m] } }) := by
  unfold mirrorGate
  rw [h]
  exact if_neg fun hn => hn hf

/-! ## OPEN and CLOSE -/

theorem exec_ctxOpen {s : State} (h : s.win.ctxBusy = false) :
    exec .ctxOpen s = .next (mirrorGate (.ctx false s.win.ctxSel) (openCtx s.win.ctxSel) s).2 :=
  congrArg Host.Outcome.next (if_neg (by rw [h]; decide))

theorem exec_ctxClose {s : State} (h : s.win.ctxBusy = false) :
    exec .ctxClose s = .next (mirrorGate (.ctx true s.win.ctxSel) (closeCtx s.win.ctxSel) s).2 :=
  congrArg Host.Outcome.next (if_neg (by rw [h]; decide))

theorem openCtx_of_good {s : State} {c : Nat} (h : openStatus s (ctxOf s c) = 0) : openCtx c s =
    (0, (s.setWin fun w => { w with ctxLast := c, ctxStatus := 0, ctxBusy := true }).setKv fun k => { k with
      opening := some (c, s.time.cycle) }) := by
  unfold openCtx
  extract_lets st u
  rw [if_pos h]
  simp only [u, show st = 0 from h]
  rfl

theorem openCtx_of_bad {s : State} {c : Nat} (h : openStatus s (ctxOf s c) ≠ 0) : openCtx c s =
    (abState, s.setWin fun w => { w with ctxLast := c, ctxStatus := openStatus s (ctxOf s c), ctxBusy := false }) := by
  have hbusy : (openStatus s (ctxOf s c) == 0) = false := beq_false_of_ne h
  unfold openCtx
  extract_lets st u
  rw [if_neg h]
  simp only [u, st, hbusy]

/-- The entry of a context whose OPEN has ended well. -/
def Ctx.opened (x : Ctx) (c a b span : Nat) : Ctx :=
  { x with
    st := .open, length := 0, family := c, dirAddr := a, liveAddr := b, lanes := popCount x.stripe 20
    rotSet := false, halves := false, rotDims := 0, theta := 0, posScale := 0, hints := []
    span := span }

/-- The context window's command ends with a status. -/
def ctxCmdDone (st : Nat) (s : State) : State := s.setWin fun w => { w with ctxBusy := false, ctxStatus := st }

theorem exec_openEnd {s u : State} {c n a b : Nat} (hopening : s.kv.opening = some (c, n))
    (htenant : (tenantOf s (ctxOf s c).tenant).st = .active)
    (hdirs : openDirs (ctxOf s c) (s.setKv fun k => { k with opening := none }) = some (a, b, u)) :
    exec .openEnd s = .next (ctxCmdDone 0 (setCtx c ((ctxOf s c).opened c a b (spanMask u c)) u)) := by
  show execOpenEnd s = _
  unfold execOpenEnd
  rw [hopening]
  dsimp only
  rw [if_neg (fun h => h htenant), hdirs]
  rfl

theorem exec_openEnd_of_gone {s : State} {c n : Nat} (hopening : s.kv.opening = some (c, n))
    (htenant : (tenantOf s (ctxOf s c).tenant).st ≠ .active) :
    exec .openEnd s = .next (ctxCmdDone 4 (s.setKv fun k => { k with opening := none })) := by
  show execOpenEnd s = _
  unfold execOpenEnd
  rw [hopening]
  dsimp only
  exact if_pos htenant

/-! ## The release walk (R172) -/

/-- A context's pages, structures and directories given back. -/
def ctxEmptied (c : Nat) (s : State) : State :=
  let u := sweepStructs c ((ctxPages (leaveFamily c s) c).foldl (fun s q => remPage c (pkeyLayer q.1) (pkeyPage q.1) s) (leaveFamily c s))
  giveBack ((ctxOf s c).liveAddr * 4096) 4096 (giveBack ((ctxOf s c).dirAddr * 4096) (roundUp (8 * ctxLayers (ctxOf s c)) 4096)
    (u.setKv fun k => { k with live := terase k.live (c * 262144) ((c + 1) * 262144) }))

theorem ctxEmptied_keeps (c : Nat) (s : State) : Keeps 0x323C82 s (ctxEmptied c s) :=
  (giveBack_keeps ..).step ((giveBack_keeps ..).step ((State.setKv_keeps _ _ fun h => h).step ((sweepStructs_keeps ..).step
    (Keeps.foldl (P := 0x323C82) ((leaveFamily_keeps c s).mono) fun _ _ h => (remPage_keeps ..).step h))))

/-- The FREE entry of a released context: the fields that describe it are kept. -/
def Ctx.released (x : Ctx) : Ctx :=
  { ({} : Ctx) with
    tenant := x.tenant, layersM1 := x.layersM1, headsM1 := x.headsM1, dkc := x.dkc, fmt := x.fmt
    home := x.home, stripe := x.stripe, pfEn := x.pfEn, pfForce := x.pfForce }

theorem exec_releaseWalkEnd {s : State} {c : Fin 4096} (hst : (ctxOf s c.val).st = .closing) (hbusy : ctxBusy s c.val = false) :
    exec (.releaseWalkEnd c) s = .next (setCtx c.val (ctxOf s c.val).released (ctxEmptied c.val s)) :=
  if_pos ⟨hst, by rw [hbusy]; rfl⟩

/-! ## Hints (R219, R220) -/

/-- The ranges that a hint does not overlap. -/
def hintsLeft (x : Ctx) (v : BitVec 64) : List (Nat × Nat × Bool) :=
  x.hints.filter fun h => decide (h.2.1 < hintFirst v ∨ hintFirst v + hintPages v < h.1)

/-- A context's ranges after a hint. -/
def hintsAfter (x : Ctx) (v : BitVec 64) : List (Nat × Nat × Bool) :=
  if hintKind v = 0 then hintsLeft x v
  else (if 8 ≤ (hintsLeft x v).length then (hintsLeft x v).drop 1 else hintsLeft x v) ++
    [(hintFirst v, hintFirst v + hintPages v, hintKind v == 1)]

theorem mem_hintsLeft {x : Ctx} {v : BitVec 64} {h : Nat × Nat × Bool} (hh : h ∈ hintsLeft x v) :
    h ∈ x.hints ∧ (h.2.1 < hintFirst v ∨ hintFirst v + hintPages v < h.1) := by
  obtain ⟨hm, hd⟩ := List.mem_filter.1 hh
  exact ⟨hm, of_decide_eq_true hd⟩

theorem mem_hintsAfter {x : Ctx} {v : BitVec 64} {h : Nat × Nat × Bool} (hh : h ∈ hintsAfter x v) :
    (h ∈ x.hints ∧ (h.2.1 < hintFirst v ∨ hintFirst v + hintPages v < h.1)) ∨
      (hintKind v ≠ 0 ∧ h = (hintFirst v, hintFirst v + hintPages v, hintKind v == 1)) := by
  unfold hintsAfter at hh
  split at hh
  · exact .inl (mem_hintsLeft hh)
  · next hkind =>
    rcases List.mem_append.1 hh with hh | hh
    · refine .inl (mem_hintsLeft ?_)
      split at hh
      · exact List.mem_of_mem_drop hh
      · exact hh
    · exact .inr ⟨hkind, List.mem_singleton.1 hh⟩

theorem hint_mem_hintsAfter (x : Ctx) {v : BitVec 64} (hkind : hintKind v ≠ 0) :
    (hintFirst v, hintFirst v + hintPages v, hintKind v == 1) ∈ hintsAfter x v := by
  unfold hintsAfter
  rw [if_neg hkind]
  exact List.mem_append_right _ List.mem_cons_self

theorem exec_tierhint {s : State} {w : Win} {v : BitVec 64} {q : Nat} (hq : winQp s w = some q) (hst : (ctxOf s (hintCtx v)).st = .open)
    (htenant : (ctxOf s (hintCtx v)).tenant = (qpOf s q).tenant) (hreserved : hintReserved v = false) (hkind : hintKind v ≠ 3)
    (hrange : hintFirst v + hintPages v ≤ 262143) :
    exec (.tierhint w v) s = .next (setCtx (hintCtx v) { ctxOf s (hintCtx v) with hints := hintsAfter (ctxOf s (hintCtx v)) v } s) := by
  show Host.Outcome.next (tierHint w v s) = _
  unfold tierHint
  rw [hq]
  exact congrArg Host.Outcome.next (if_neg (by simp [hst, htenant, hreserved, hkind]; omega))

/-- Settles O25: by the gate of a twin pair, which a device alone passes, and by what each command writes to the entry. -/
theorem contextsOpenAndClose : Obligations.ContextsOpenAndClose := by
  unfold Obligations.ContextsOpenAndClose
  refine ⟨fun s hbusy hlead hfollow hst => ?_, fun s hbusy hlead hfollow hst => ?_, fun s hbusy => ⟨?_, ?_⟩,
    fun s u c n a b hinv hopening htenant hdirs => ?_, fun s c n hopening htenant => ?_, fun s hinv hbusy hlead hfollow hst => ?_,
    fun s c hinv hst hbusy => ?_, fun s hbusy hlead hst => ?_, fun s w v q hinv hq hst htenant hreserved hkind hrange => ?_⟩
  · refine ⟨_, exec_ctxOpen hbusy, ?_⟩
    rw [mirrorGate_alone hlead hfollow, openCtx_of_good hst]
    exact ⟨rfl, rfl, rfl, rfl, rfl⟩
  · refine ⟨_, exec_ctxOpen hbusy, ?_⟩
    rw [mirrorGate_alone hlead hfollow, openCtx_of_bad hst]
    exact ⟨rfl, rfl, rfl⟩
  · exact congrArg Host.Outcome.next (if_pos hbusy)
  · exact congrArg Host.Outcome.next (if_pos hbusy)
  · have hu : Inv u := ((openDirs_keeps ..).get2 hdirs).inv ((State.setKv_keeps s _ fun h => h).inv hinv)
    refine ⟨_, exec_openEnd hopening htenant hdirs, ?_⟩
    have hctx : ctxOf (ctxCmdDone 0 (setCtx c ((ctxOf s c).opened c a b (spanMask u c)) u)) c = (ctxOf s c).opened c a b (spanMask u c) :=
      ctxOf_setCtx hu.ctxs ..
    rw [hctx]
    exact ⟨rfl, rfl, rfl, rfl, rfl, rfl, rfl⟩
  · exact ⟨_, exec_openEnd_of_gone hopening htenant, rfl, rfl, rfl⟩
  · refine ⟨_, exec_ctxClose hbusy, ?_⟩
    rw [mirrorGate_alone hlead hfollow]
    unfold closeCtx
    extract_lets x u
    rw [if_pos hst]
    exact ctxOf_setCtx (s := u) hinv.ctxs ..
  · refine ⟨_, exec_releaseWalkEnd hst hbusy, ?_⟩
    rw [ctxOf_setCtx ((ctxEmptied_keeps c.val s).inv hinv).ctxs]
    exact ⟨rfl, rfl, rfl, rfl, rfl, rfl⟩
  · refine ⟨_, exec_ctxOpen hbusy, ?_⟩
    rw [mirrorGate_lead hlead _ (by rw [openCtx_of_good hst])]
    exact ⟨rfl, rfl, rfl⟩
  · refine ⟨_, exec_tierhint hq hst htenant hreserved hkind hrange, ?_⟩
    rw [ctxOf_setCtx hinv.ctxs]
    exact ⟨fun h hh => mem_hintsAfter hh, hint_mem_hintsAfter _⟩

end Sys2Proof.Machine
end

section
/-! PROOFS. Frames move between the tiers (R128, R208 to R216, R222, R223, R231). -/

namespace Sys2Proof.Machine

/-! ## Residency faults (R216, R366) -/

theorem mem_faultPost (r : FaultRec) (s : State) : r ∈ (faultPost r s).xl.queue ++ (faultPost r s).xl.holding := by
  unfold faultPost
  split
  · exact List.mem_append_left _ (List.mem_append_right _ List.mem_cons_self)
  · exact List.mem_append_right _ (List.mem_append_right _ List.mem_cons_self)

/-- A tile that is not resident leaves its core with a record: one that stands, or a new one. -/
theorem faultTile_recorded {s : State} {x : Tile} (hdraft : isDraft x = false) (hframe : (frameOf s x.frame).bind (·.t1) = none)
    (c : Nat) (w : Work) : ∃ r ∈ (faultTile c w s x).xl.queue ++ (faultTile c w s x).xl.holding, r.source = c := by
  unfold faultTile
  extract_lets key there held pasid u1 u2
  split
  · next h =>
    rw [hdraft, hframe] at h
    rcases Bool.or_eq_true_iff.1 (show (there || held) = true by simpa using h) with h | h
    · obtain ⟨r, hr, hp⟩ := List.any_eq_true.1 h
      simp only [Bool.and_eq_true, beq_iff_eq] at hp
      exact ⟨r, hr, hp.1.2⟩
    · obtain ⟨r, hr, hp⟩ := List.any_eq_true.1 h
      exact ⟨r, List.mem_append_right _ hr, beq_iff_eq.1 hp⟩
  · have hxl : (raiseMove x.frame 1 true 1 false none (some c) none u2).xl = u2.xl := (raiseMove_keeps ..).xl rfl
    rw [hxl]
    exact ⟨_, mem_faultPost _ u1, rfl⟩

/-! ## Moves that end (R208 to R211) -/

/-- The copy of a promotion to T1 in its place, and what the read and the write count. -/
def copyInT1 (m : Move) (v : Frame) (s : State) : State :=
  let u := tallyMem true (m.dest * 4096) v.size (tallyMem false (topCopy v).2 v.size
    (activate true m.tenant 0x40 (m.dest * 4096) v.size (activate false m.tenant 0x40 (topCopy v).2 v.size s)))
  traceEvent 0 (some m.tenant) (m.dest * 4096) 0 m.tenant 0x40 0 v.size 7
    (fillLines (m.dest * 4096) v.size v.epoch (frameHint (u.setMem fun x => { x with
        bytes := mwrite x.bytes (m.dest * 4096) (mread x.bytes (topCopy v).2 v.size) }) m.frame * 16 + ((topCopy v).1 - 1) * 4)
      (u.setMem fun x => { x with bytes := mwrite x.bytes (m.dest * 4096) (mread x.bytes (topCopy v).2 v.size) }))

theorem copyInT1_bytes (m : Move) (v : Frame) (s : State) :
    (copyInT1 m v s).mem.bytes = mwrite s.mem.bytes (m.dest * 4096) (mread s.mem.bytes (topCopy v).2 v.size) := by
  unfold copyInT1
  extract_lets u
  have hu : Keeps 0x280 s u := (tallyMem_keeps ..).step ((tallyMem_keeps ..).step ((activate_keeps ..).step ((activate_keeps ..).mono)))
  rw [(traceEvent_keeps ..).bytes rfl, (fillLines_keeps ..).bytes rfl]
  show mwrite u.mem.bytes _ (mread u.mem.bytes _ _) = _
  rw [hu.mem rfl]

/-- A promotion to T1 that is wanted, up to the end of its move. -/
def promoted (m : Move) (v : Frame) (s : State) : State :=
  tenantCount m.tenant 4 v.size (countMoved m (setFrame m.frame { v with t1 := some m.dest } (copyInT1 m v s)))

theorem finishMove_of_promotion {s : State} {m : Move} {v : Frame} (hup : m.up = true) (htarget : m.target = 1)
    (hidle : moveIdle m v s = false) : finishMove m v s = endMove m (promoted m v s) := by
  unfold finishMove
  rw [if_neg (by rw [hidle]; decide)]
  simp only [hup, htarget, if_true, if_false, OfNat.one_ne_ofNat]
  rfl

theorem frameOf_endMove_promoted (m : Move) (v : Frame) (s : State) :
    frameOf (endMove m (promoted m v s)) m.frame = some { v with t1 := some m.dest } := by
  have hk : Keeps 0x1002 (setFrame m.frame { v with t1 := some m.dest } (copyInT1 m v s)) (promoted m v s) :=
    (tenantCount_keeps ..).step ((countMoved_keeps ..).mono)
  rw [frameOf, (endMove_kvAside ..).frames, hk.kv rfl]
  show ((tins _ _ _).find? _).map _ = _
  rw [tins_find, if_pos rfl]
  rfl

theorem endMove_promoted_bytes (m : Move) (v : Frame) (s : State) :
    (endMove m (promoted m v s)).mem.bytes = mwrite s.mem.bytes (m.dest * 4096) (mread s.mem.bytes (topCopy v).2 v.size) := by
  have hk : Keeps 0x1802 (copyInT1 m v s) (promoted m v s) :=
    (tenantCount_keeps ..).step ((countMoved_keeps ..).step ((setFrame_keeps ..).mono))
  rw [(endMove_keeps ..).bytes rfl, hk.bytes rfl, copyInT1_bytes]

theorem exec_moveComplete {s u : State} {id : Nat} {f : Finding} {m : Move} {v : Frame}
    (hm : s.kv.moves.find? (fun m => m.id == id && m.started) = some m) (hv : frameOf s m.frame = some v)
    (hu : u = noteCopy 0x40 v v.size (meet (topCopy v).2 f s))
    (hcode : (if (topCopy v).1 = 1 then readCode u (topCopy v).2 v.size else (copyCode u v v.size).1) = 0) :
    exec (.moveComplete id f) s = .next (runMoves (residencyDone (finishMove m v u))) := by
  have hread : (if (topCopy v).1 = 1 then (readCode u (topCopy v).2 v.size, 3) else copyCode u v v.size).1 = 0 := by
    split at hcode <;> simp_all
  show execMoveComplete id f s = _
  unfold execMoveComplete
  rw [hm]
  dsimp only
  unfold moveDone
  rw [hv]
  dsimp only
  rw [← hu, if_neg (fun h => h hread)]

/-! ## The budget of flash writes (R231) -/

/-- A namespace's bucket covers a write once the time that the rest takes has passed: `at_` is when it stood at `tok`. -/
theorem bucket_covers {size depth tok rate now since : Nat} (hrate : 0 < rate) (hdepth : size ≤ depth) (hsince : since ≤ now) :
    size ≤ min depth (tok + (now + ceilDiv (size - min depth (tok + (now - since) * rate)) rate - since) * rate) := by
  have hwait := le_ceilDiv_mul (a := size - min depth (tok + (now - since) * rate)) hrate
  have hsplit : (now + ceilDiv (size - min depth (tok + (now - since) * rate)) rate - since) * rate =
      (now - since) * rate + ceilDiv (size - min depth (tok + (now - since) * rate)) rate * rate := by
    rw [← Nat.add_mul]
    congr 1
    omega
  rw [hsplit]
  generalize ceilDiv (size - min depth (tok + (now - since) * rate)) rate * rate = w at *
  generalize (now - since) * rate = x at *
  omega

theorem nsNow_tokens (s : State) (n : Nat) : (nsNow s n).tokens = min (nsDepth s n) ((tget ({} : Tray) s.kv.nss n).tokens +
    (s.time.cycle - (tget ({} : Tray) s.kv.nss n).tokensAt) * (nsBudget s n * 1000000000)) := by
  rw [← Nat.mul_assoc]
  rfl

theorem nsNow_elapse_tokens (s : State) (n k : Nat) : (nsNow (elapse k s) n).tokens = min (nsDepth s n) ((tget ({} : Tray) s.kv.nss n).tokens +
    (s.time.cycle + k - (tget ({} : Tray) s.kv.nss n).tokensAt) * (nsBudget s n * 1000000000)) := by
  have hdict : (elapse k s).dict = s.dict := (elapse_keeps ..).dict rfl
  have hkv : (elapse k s).kv = s.kv := (elapse_keeps ..).kv rfl
  rw [nsNow_tokens, elapse_cycle, hkv]
  simp only [nsDepth, nsBudget, obj_of_dict hdict]

/-- The size of the frame that a move carries. -/
def moveSize (s : State) (m : Move) : Nat := ((frameOf s m.frame).map (·.size)).getD 4096

theorem exec_t3BudgetRefill {s : State} {n : Fin 64} {m : Move} {l : List Move}
    (hmoves : ((readyMoves s).filter fun m => !m.up && m.target == 3) = m :: l) (hbudget : nsBudget s n.val ≠ 0)
    (hdepth : moveSize s m * 7200000000000 ≤ nsDepth s n.val) : exec (.t3BudgetRefill n) s =
      .next (runMoves (elapse (ceilDiv (moveSize s m * 7200000000000 - (nsNow s n.val).tokens) (nsBudget s n.val * 1000000000)) s)) := by
  show execT3BudgetRefill n s = _
  unfold execT3BudgetRefill
  rw [hmoves]
  exact if_neg fun h => h.elim hbudget fun h => Nat.not_lt.2 hdepth h

/-- Settles O26: by the command's branches; the bucket's arithmetic is `bucket_covers`. -/
theorem framesMove : Obligations.FramesMove := by
  unfold Obligations.FramesMove
  refine ⟨fun s i d hd hholders => ?_, fun s c w x hwork hx hphase hentry => ?_, fun s c w x hdraft hframe =>
    faultTile_recorded hdraft hframe c w, fun s u id f m v hm hv hu hcode => exec_moveComplete hm hv hu hcode,
    fun s m v hup htarget hidle => ?_, fun s t h => if_pos h, fun s t h => if_neg (by omega),
    fun s n m l hmoves hbudget hdepth hsince => ?_⟩
  · show execFrameDrainEnd i s = _
    unfold execFrameDrainEnd
    rw [hd]
    exact if_neg fun h => by
      obtain ⟨x, hx, hsome⟩ := List.any_eq_true.1 h
      rw [hholders x hx] at hsome
      cases hsome
  · show execResidencyFault c s = _
    unfold execResidencyFault
    rw [hwork]
    dsimp only
    rw [hx]
    exact if_neg fun h => h.elim hphase fun h => by rw [hentry] at h; cases h
  · rw [finishMove_of_promotion hup htarget hidle]
    exact ⟨frameOf_endMove_promoted m v s, endMove_promoted_bytes m v s⟩
  · refine ⟨_, exec_t3BudgetRefill hmoves hbudget hdepth, (elapse_keeps ..).kv rfl, (elapse_keeps ..).mem rfl, elapse_cycle .., ?_⟩
    rw [nsNow_elapse_tokens, nsNow_tokens]
    exact bucket_covers (by omega) hdepth hsince

end Sys2Proof.Machine
end

section
/-! PROOFS. Tier-cache blocks, trays and namespaces (R234, R236, R237, R239). -/

namespace Sys2Proof.Machine

/-- The table of trays, or of namespaces. -/
def trayTbl (t3 : Bool) (k : Kv) : Tbl Tray := if t3 then k.nss else k.trays

/-- The state with one tray's, or namespace's, record written. -/
def putTray (t3 : Bool) (n : Nat) (v : Tray) (s : State) : State :=
  s.setKv fun k => if t3 then { k with nss := tput ({} : Tray) k.nss n v } else { k with trays := tput ({} : Tray) k.trays n v }

theorem trayTbl_putTray (t3 : Bool) (n : Nat) (v : Tray) (s : State) :
    trayTbl t3 (putTray t3 n v s).kv = tput ({} : Tray) (trayTbl t3 s.kv) n v := by
  cases t3 <;> rfl

/-! ## A record that is written (R236, R237) -/

/-- The record of a tray that is taken active, or that is not good. -/
def Tray.judged (r : Tray) (ok : Bool) : Tray := if ok then { r with active := true, present := true } else { r with failed := true }

/-- The state with a record stored, as bytes and as a tray; a namespace that is taken active has its bucket full. -/
def trayStored (t3 : Bool) (n : Nat) (bs : List Byte) (ok : Bool) (s : State) : State :=
  let r := (trayRec t3 bs).1
  let u := writeDom (if t3 then 0x4210 else 0x4200) (n + 1) bs (putTray t3 n (r.judged ok) s)
  if ok && t3 then putTray t3 n { r.judged ok with tokens := nsDepth u n, tokensAt := u.time.cycle } u else u

theorem trayWrite_accepted {s : State} {t3 : Bool} {n : Nat} {bs : List Byte} (ok : Bool) (hlen : bs.length = 16)
    (hst : (trayRec t3 bs).2 = 1) (hactive : (tget ({} : Tray) (trayTbl t3 s.kv) n).active = false)
    (hfits : trayFits s t3 n (trayRec t3 bs).1 = true) : trayWrite t3 n bs ok s = (0, trayStored t3 n bs ok s) := by
  unfold trayWrite
  dsimp only
  refine (if_neg (fun h => h hlen)).trans ((if_pos hst).trans ((if_neg fun h => Bool.false_ne_true (hactive.symm.trans h)).trans
    ((if_neg (by rw [hfits]; decide)).trans ?_)))
  cases ok
  · rfl
  · cases t3 <;> rfl

theorem tray_stored {s : State} {t3 : Bool} (hs : Tbl.Rising (trayTbl t3 s.kv)) (n : Nat) (bs : List Byte) (ok : Bool) :
    ∃ a b, tget ({} : Tray) (trayTbl t3 (trayStored t3 n bs ok s).kv) n =
      { (trayRec t3 bs).1.judged ok with tokens := a, tokensAt := b } := by
  have hput : Tbl.Rising (trayTbl t3 (putTray t3 n ((trayRec t3 bs).1.judged ok) s).kv) := by
    rw [trayTbl_putTray]
    exact tput_rising _ _ hs _
  have hdom : ∀ i j, (writeDom i j bs (putTray t3 n ((trayRec t3 bs).1.judged ok) s)).kv =
      (putTray t3 n ((trayRec t3 bs).1.judged ok) s).kv := fun i j => (writeDom_keeps ..).kv rfl
  unfold trayStored
  extract_lets r u
  have hu : u.kv = (putTray t3 n (r.judged ok) s).kv := hdom ..
  split
  · refine ⟨nsDepth u n, u.time.cycle, ?_⟩
    rw [trayTbl_putTray, hu, tget_tput _ _ _ hput]
  · refine ⟨(r.judged ok).tokens, (r.judged ok).tokensAt, ?_⟩
    rw [hu, trayTbl_putTray, tget_tput _ _ _ hs]

/-! ## A tray that fails (R239) -/

/-- The state with the tray no longer found and what lay on it lost. -/
def copiesLost (t3 : Bool) (n : Nat) (s : State) : State :=
  s.kv.frames.foldl (loseCopy t3 n)
    { s with ports := { s.ports with found := s.ports.found.filter fun k => k != (if t3 then 64 + n else n) } }

/-- The tables of trays and namespaces are the same. -/
def TraysSame (s t : State) : Prop := t.kv.trays = s.kv.trays ∧ t.kv.nss = s.kv.nss

theorem loseCopy_traysSame (t3 : Bool) (n : Nat) (s : State) (q : Nat × Frame) : TraysSame s (loseCopy t3 n s q) := by
  unfold loseCopy
  extract_lets v l2 l3 a top w
  split
  · have hlog : (logEvent 0x0C a 0 v.tenant 0x40 0 1 (setFrame q.1 w s)).kv = (setFrame q.1 w s).kv := (logEvent_keeps ..).kv rfl
    exact ⟨(congrArg Kv.trays hlog :), (congrArg Kv.nss hlog :)⟩
  · exact ⟨rfl, rfl⟩

theorem foldl_loseCopy_traysSame (t3 : Bool) (n : Nat) (l : List (Nat × Frame)) (s : State) : TraysSame s (l.foldl (loseCopy t3 n) s) := by
  induction l generalizing s with
  | nil => exact ⟨rfl, rfl⟩
  | cons q l ih =>
    obtain ⟨h1, h2⟩ := loseCopy_traysSame t3 n s q
    obtain ⟨h1', h2'⟩ := ih (loseCopy t3 n s q)
    exact ⟨h1'.trans h1, h2'.trans h2⟩

theorem trayTbl_copiesLost (t3 : Bool) (n : Nat) (s : State) : trayTbl t3 (copiesLost t3 n s).kv = trayTbl t3 s.kv := by
  obtain ⟨htrays, hnss⟩ := foldl_loseCopy_traysSame t3 n s.kv.frames
    { s with ports := { s.ports with found := s.ports.found.filter fun k => k != (if t3 then 64 + n else n) } }
  cases t3
  · exact htrays
  · exact hnss

theorem copiesLost_found (t3 : Bool) (n : Nat) (s : State) :
    (copiesLost t3 n s).ports.found = s.ports.found.filter fun k => k != (if t3 then 64 + n else n) := by
  have hk : Keeps 0x200986 { s with ports := { s.ports with found := s.ports.found.filter fun k => k != (if t3 then 64 + n else n) } }
      (copiesLost t3 n s) := Keeps.foldl (P := 0x200986) (.refl _ _) fun _ _ h => (loseCopy_keeps ..).step h
  rw [hk.ports rfl]

/-- The state whose moves to and from the tray are still to fail. -/
def trayMarked (t3 : Bool) (n : Nat) (s : State) : State :=
  putTray t3 n { tget ({} : Tray) (trayTbl t3 (copiesLost t3 n s).kv) n with failed := true, present := false } (copiesLost t3 n s)

theorem exec_trayFail {s : State} {t3 : Bool} {n : Fin 64} (hactive : (tget ({} : Tray) (trayTbl t3 s.kv) n.val).active = true) :
    ∃ l : List Move, exec (.trayFail t3 n) s = .next (runMoves (l.foldl (fun s m => failMove m 0x31 4 s) (trayMarked t3 n.val s))) := by
  refine ⟨(trayMarked t3 n.val s).kv.moves.filter fun m => m.started &&
    copyLost (trayMarked t3 n.val s) t3 n.val (((frameOf (trayMarked t3 n.val s) m.frame).map (·.size)).getD 4096) (some m.dest), ?_⟩
  refine (if_pos hactive).trans ?_
  cases t3 <;> rfl

/-- Settles O27: by what stands in the table of trays after each command. -/
theorem traysAndBlocks : Obligations.TraysAndBlocks := by
  unfold Obligations.TraysAndBlocks
  refine ⟨fun s b hrs hfs => ?_, fun s u v b hv hwait hplace hfill => ?_, fun s p t3 n bs ok ha hp hlen hst hactive hfits hs => ?_,
    fun s t3 n hactive hs => ?_⟩
  · show Host.Outcome.next (blockRead b s) = _
    unfold blockRead
    dsimp only
    rw [hrs, hfs]
    exact congrArg Host.Outcome.next (if_pos ⟨rfl, rfl⟩)
  · subst hv
    show Host.Outcome.next (blockRead b s) = _
    unfold blockRead
    dsimp only
    rw [if_neg (by simp only [List.isEmpty_iff]; exact fun h => hwait.elim (fun hn => hn h.1) fun hn => hn h.2), hplace, hfill]
    rfl
  · obtain ⟨a, b, hstored⟩ := tray_stored (t3 := t3) hs n.val bs ok
    refine ⟨trayStored t3 n.val bs ok s, _, next_objCmd ha hp (trayWrite_accepted ok hlen hst hactive hfits), hstored, ?_⟩
    cases ok <;> exact ⟨rfl, rfl, rfl, rfl, rfl, rfl⟩
  · obtain ⟨l, hexec⟩ := exec_trayFail (t3 := t3) hactive
    refine ⟨trayMarked t3 n.val s, l, _, hexec, rfl, ?_⟩
    have htray : tget ({} : Tray) (trayTbl t3 (trayMarked t3 n.val s).kv) n.val =
        { tget ({} : Tray) (trayTbl t3 s.kv) n.val with failed := true, present := false } := by
      rw [trayMarked, trayTbl_putTray, trayTbl_copiesLost]
      exact tget_tput _ _ _ hs _
    refine ⟨congrArg Tray.failed htray, congrArg Tray.present htray, fun f hf => ?_⟩
    rw [show (trayMarked t3 n.val s).ports.found = (copiesLost t3 n.val s).ports.found from rfl, copiesLost_found] at hf
    simpa using (List.mem_filter.1 hf).2

end Sys2Proof.Machine
end

section
/-! PROOFS. Invalidations, bindings and the PASIDs of ports (R353 to R355, R374 to R379). -/

namespace Sys2Proof.Machine

/-! ## A mirrored command on a device that is no twin (R595) -/

theorem mirrorGate_single {s : State} (h : s.span.twin = .single) (m : Mirror) (f : State → Nat × State) : mirrorGate m f s = f s :=
  mirrorGate_alone (by rw [h]; decide) (by rw [h]; decide) m f

theorem next_mirrored {s t : State} {m : Mirror} {f : State → Nat × State} (ha : answering s = true) (hone : s.span.twin = .single)
    (hf : f s = (0, t)) : (.next (commanded (mirrorGate m f) s) : Res) = .next t :=
  next_commanded ha ((mirrorGate_single hone m f).trans hf)

theorem next_mirrored_refused {s t : State} {m : Mirror} {f : State → Nat × State} {code : Nat} (ha : answering s = true)
    (hone : s.span.twin = .single) (hf : f s = (code, t)) (hcode : code ≠ 0) :
    (.next (commanded (mirrorGate m f) s) : Res) = .next (bumpObj 0x1022 1 1 32 t) := by
  simp only [commanded, ha, if_true, mirrorGate_single hone, hf, written_refused hcode]

theorem objLast_waitObj_same (i j v : Nat) (s : State) : objLast (waitObj i j v s) i j = v := by
  simp [objLast, waitObj, putWaiting, State.setDict, tins_find]

/-! ## The command register of invalidations (R374, R375) -/

theorem xlinvCommand_of_busy {s : State} {w : Win} {q : Nat} (hq : winQp s w = some q) (hbusy : (qpOf s q).invBusy = true)
    (v : BitVec 64) : xlinvCommand w v s = setQp q { qpOf s q with invOverrun := true } s := by
  unfold xlinvCommand
  rw [hq]
  exact if_pos hbusy

theorem xlinvCommand_of_foreign {s : State} {w : Win} {q : Nat} {v : BitVec 64} (hq : winQp s w = some q)
    (hbusy : (qpOf s q).invBusy = false) (hheld : pasidHeld s (fld v 51 32) (qpOf s q).tenant = false) :
    xlinvCommand w v s = setQp q { qpOf s q with invRefused := true } s := by
  unfold xlinvCommand
  rw [hq]
  dsimp only
  rw [hbusy, if_neg Bool.false_ne_true, hheld]
  rfl

theorem xlinvCommand_of_good {s : State} {w : Win} {q : Nat} {v : BitVec 64} (hq : winQp s w = some q)
    (hbusy : (qpOf s q).invBusy = false) (hheld : pasidHeld s (fld v 51 32) (qpOf s q).tenant = true) (hhigh : fld v 63 52 = 0)
    (hmid : fld v 11 8 = 0) (hscope : fld v 13 12 < 2) (haddr : bitsOf (qpOf s q).invAddr 63 57 = 0)
    (hoff : bitsOf (qpOf s q).invAddr 11 0 = 0) :
    xlinvCommand w v s = (setQp q { qpOf s q with invBusy := true, invRefused := false } s).setXl fun x => { x with
      invs := x.invs ++ [{ qp := some q, pasid := fld v 51 32, page := bitsOf (qpOf s q).invAddr 56 12, pages := fld v 31 14 + 1
                           whole := fld v 13 12 == 1, token := fld v 7 0, unbind := false }] } := by
  have hbad : (!pasidHeld s (fld v 51 32) (qpOf s q).tenant || decide (fld v 63 52 ≠ 0 ∨ fld v 11 8 ≠ 0) ||
      decide (2 ≤ fld v 13 12) || decide (bitsOf (qpOf s q).invAddr 63 57 ≠ 0 ∨ bitsOf (qpOf s q).invAddr 11 0 ≠ 0)) = false := by
    have hscope : ¬ 2 ≤ fld v 13 12 := by omega
    simp only [hheld, hhigh, hmid, hscope, haddr, hoff]
    rfl
  unfold xlinvCommand
  rw [hq]
  dsimp only
  rw [hbusy, if_neg Bool.false_ne_true, hbad]
  exact if_neg Bool.false_ne_true

theorem readInvStat_of_pair {s : State} {w : Win} {q : Nat} (hq : winQp s w = some q) :
    readInvStat w s = (invStat (qpOf s q), setQp q { qpOf s q with invRefused := false, invOverrun := false } s) := by
  unfold readInvStat
  rw [hq]

/-! ## Invalidations carried out (R376, R379) -/

theorem exec_invalidationStart {s : State} {i : Inval} {l : List Inval} (hidle : s.xl.running = none) (hi : s.xl.invs = i :: l) :
    exec .invalidationStart s = .next (s.setXl fun x => { x with
      running := some i, invs := l, gen := x.gen + 1
      tlb0 := x.tlb0.filter fun l => !leafHit i l, tlb1 := x.tlb1.filter fun l => !leafHit i l
      walk0 := x.walk0.filter fun n => n.pasid != i.pasid, walk1 := x.walk1.filter fun n => n.pasid != i.pasid }) := by
  show execInvalidationStart s = _
  unfold execInvalidationStart
  rw [hidle, hi]

/-- A fault record that an invalidation that has ended has walked anew. -/
def dueAfter (i : Inval) (r : FaultRec) : FaultRec :=
  if r.kind = 1 ∧ r.pasid = i.pasid ∧ (i.whole ∨ (i.page ≤ r.addr / 4096 ∧ r.addr / 4096 < i.page + i.pages)) then
    { r with due := true } else r

/-- The running invalidation has ended, and is counted. -/
def invalEnded (i : Inval) (s : State) : State :=
  bumpObj 0x2300 7 1 64 (s.setXl fun x => { x with
    running := none, queue := x.queue.map (dueAfter i), holding := x.holding.map (dueAfter i) })

theorem invalEnded_led (i : Inval) (s : State) : (invalEnded i s).led = s.led := (bumpObj_keeps ..).led rfl
theorem invalEnded_xl (i : Inval) (s : State) : (invalEnded i s).xl.running = none :=
  congrArg Xlate.running ((bumpObj_keeps ..).xl rfl)

/-- No request or question of an earlier generation remains (R376). -/
def NoneEarlier (s : State) : Prop :=
  (∀ r ∈ s.coh.reqs, r.pieces = [] ∨ s.xl.gen ≤ r.gen) ∧ ∀ q ∈ s.coh.asks, s.xl.gen ≤ q.gen

theorem NoneEarlier.not_any {s : State} (h : NoneEarlier s) :
    ¬((s.coh.reqs.any fun r => !r.pieces.isEmpty && decide (r.gen < s.xl.gen)) ∨
      (s.coh.asks.any fun q => decide (q.gen < s.xl.gen))) := by
  obtain ⟨hreqs, hasks⟩ := h
  rintro (hr | hq)
  · obtain ⟨r, hm, hr⟩ := List.any_eq_true.1 hr
    obtain ⟨hne, hlt⟩ := Bool.and_eq_true_iff.1 hr
    rcases hreqs r hm with h | h
    · simp [h] at hne
    · exact absurd (of_decide_eq_true hlt) (by omega)
  · obtain ⟨q, hm, hq⟩ := List.any_eq_true.1 hq
    exact absurd (of_decide_eq_true hq) (Nat.not_lt.2 (hasks q hm))

theorem exec_invalidationComplete_of_pair {s : State} {i : Inval} {q : Nat} (hrun : s.xl.running = some i) (hq : i.qp = some q)
    (hunbind : i.unbind = false) (hnone : NoneEarlier s) :
    exec .invalidationComplete s =
      .next (setQp q { qpOf (invalEnded i s) q with invDone := i.token, invBusy := false } (invalEnded i s)) := by
  show execInvalidationComplete s = _
  unfold execInvalidationComplete
  rw [hrun]
  dsimp only
  rw [if_neg hnone.not_any, hq, hunbind]
  rfl

theorem exec_invalidationComplete_of_unbind {s : State} {i : Inval} (hrun : s.xl.running = some i) (hq : i.qp = none)
    (hunbind : i.unbind = true) (hnone : NoneEarlier s) :
    exec .invalidationComplete s =
      .next ((invalEnded i s).setLed fun l => { l with binds := l.binds.filter fun b => b.1 != i.pasid }) := by
  show execInvalidationComplete s = _
  unfold execInvalidationComplete
  rw [hrun]
  dsimp only
  rw [if_neg hnone.not_any, hq, hunbind]
  rfl

/-! ## Bindings (R354, R355, R379) -/

theorem bindPasid_of_good {s : State} {v : BitVec 128} (hne : fld v 19 0 ≠ 0) (hnone : pasidOf s (fld v 19 0) = none)
    (hactive : (tenantOf s (fld v 107 102)).st = .active) (hroom : s.led.binds.length < 4096) :
    bindPasid v s = (0, s.setLed fun l => { l with binds := tins l.binds (fld v 19 0) (fld v 107 102, fld v 91 52, fld v 108 108 == 1) }) :=
  if_neg (by
    rintro (h | h | h | h)
    · exact hne h
    · rw [hnone] at h
      exact absurd h (by decide)
    · exact h hactive
    · omega)

theorem pasidOf_tins {s : State} (n : Nat) (b : Nat × Nat × Bool) (p : Nat) :
    pasidOf (s.setLed fun l => { l with binds := tins l.binds n b }) p = if n = p then some b else pasidOf s p := by
  unfold pasidOf
  show ((tins s.led.binds n b).find? _).map _ = _
  rw [tins_find]
  split <;> rfl

theorem unbindPasid_of_good {s : State} {v : BitVec 32} {b : Nat × Nat × Bool} (hne : v.toNat ≠ 0) (hb : pasidOf s v.toNat = some b)
    (hst : (tenantOf s b.1).st ≠ .removing) (hfree : ∀ i ∈ s.xl.invs ++ s.xl.running.toList, i.unbind = false ∨ i.pasid ≠ v.toNat) :
    unbindPasid v s = (0, s.setXl fun x => { x with invs := x.invs ++
      [{ qp := none, pasid := v.toNat, page := 0, pages := 0, whole := true, token := 0, unbind := true }] }) := by
  have hbusy : ((s.xl.invs ++ s.xl.running.toList).any fun i => i.unbind && i.pasid == v.toNat) = false :=
    List.any_eq_false.2 fun i hi => by
      rcases hfree i hi with h | h <;> simp [h]
  unfold unbindPasid
  dsimp only
  rw [if_neg hne, hb]
  exact if_neg (by rw [hbusy]; rintro (h | h); exacts [Bool.false_ne_true h, hst h])

/-! ## The PASIDs of ports (R353) -/

theorem writePortPasid_of_high {v : Nat} (h : 0xFFFFF < v) (port : Nat) (s : State) : writePortPasid port v s = (abValue, s) :=
  if_pos (.inl h)

theorem writePortPasid_of_good {s : State} {v : Nat} {b : Nat × Nat × Bool} (hpos : 0 < v) (hv : v ≤ 0xFFFFF)
    (hb : pasidOf s v = some b) (hconf : (tenantOf s b.1).confidential = false) (port : Nat) :
    writePortPasid port v s = (0, waitObj 0x2301 (port + 1) v s) := by
  unfold writePortPasid
  dsimp only
  rw [hb]
  refine if_neg ?_
  rintro (h | ⟨h, -⟩ | ⟨h, -⟩)
  · omega
  · omega
  · exact Bool.false_ne_true (hconf.symm.trans h)

/-- Settles O37, by what each command of invalidations and of bindings leaves. -/
theorem invalidationsAndBindings : Obligations.InvalidationsAndBindings := by
  unfold Obligations.InvalidationsAndBindings
  refine ⟨fun s w v q hinv hq hbusy hheld hhigh hmid hscope haddr hoff => ?_, fun s w v q hinv hq hbusy hheld => ?_,
    fun s w v q hinv hq hbusy => ?_, fun s w q hinv hq => ?_, fun s i l hidle hi => ?_,
    fun s i q hinv hrun hq hunbind hreqs hasks => ?_, fun s i hrun hq hunbind hreqs hasks => ?_,
    fun s v ha hone hne hnone hactive hroom => ?_, fun s v b ha hone hne hb hst hfree => ?_, fun s port v ha hone hv => ?_,
    fun s port v b ha hone hpos hv hb hconf => ?_⟩
  · refine ⟨_, congrArg Host.Outcome.next (xlinvCommand_of_good hq hbusy hheld hhigh hmid hscope haddr hoff), ?_⟩
    have hqp := qpOf_setQp hinv.led.qps q { qpOf s q with invBusy := true, invRefused := false }
    exact ⟨congrArg Qp.invBusy hqp, congrArg Qp.invRefused hqp, rfl⟩
  · refine ⟨_, congrArg Host.Outcome.next (xlinvCommand_of_foreign hq hbusy hheld), ?_⟩
    rw [qpOf_setQp hinv.led.qps]
    exact ⟨rfl, hbusy, rfl⟩
  · refine ⟨_, congrArg Host.Outcome.next (xlinvCommand_of_busy hq hbusy v), ?_⟩
    rw [qpOf_setQp hinv.led.qps]
    exact ⟨rfl, hbusy, rfl⟩
  · refine ⟨emit (.value (invStat (qpOf s q))) (setQp q { qpOf s q with invRefused := false, invOverrun := false } s), ?_,
      List.mem_append_right _ (List.mem_singleton_self _), qpOf_setQp hinv.led.qps ..⟩
    show execXlinvstatRead w s = _
    unfold execXlinvstatRead
    rw [readInvStat_of_pair hq]
  · refine ⟨_, exec_invalidationStart hidle hi, rfl, rfl, rfl, fun die x => ?_, fun die n => ?_⟩
    · unfold tlbOf
      split <;> simp [State.setXl]
    · unfold walksOf
      split <;> simp [State.setXl]
  · refine ⟨_, exec_invalidationComplete_of_pair hrun hq hunbind ⟨hreqs, hasks⟩, invalEnded_xl i s, ?_⟩
    have hled := invalEnded_led i s
    have hbinds : (invalEnded i s).led.binds = s.led.binds := congrArg Ledger.binds hled
    rw [qpOf_setQp (by rw [hled]; exact hinv.led.qps)]
    exact ⟨rfl, rfl, obj_bumpObj_same .., hbinds⟩
  · refine ⟨_, exec_invalidationComplete_of_unbind hrun hq hunbind ⟨hreqs, hasks⟩, invalEnded_xl i s, ?_⟩
    simp [pasidOf, State.setLed]
  · refine ⟨_, next_mirrored ha hone (bindPasid_of_good hne hnone hactive hroom), ?_, fun p hp => ?_⟩
    · rw [pasidOf_tins, if_pos rfl]
    · rw [pasidOf_tins, if_neg (Ne.symm hp)]
  · exact ⟨_, next_mirrored ha hone (unbindPasid_of_good hne hb hst hfree), rfl, rfl⟩
  · exact ⟨_, next_mirrored_refused ha hone (writePortPasid_of_high hv ..) (by decide), rfl, obj_bumpObj_same ..⟩
  · exact ⟨_, next_mirrored ha hone (writePortPasid_of_good hpos hv hb hconf port.val), objLast_waitObj_same ..⟩

end Sys2Proof.Machine
end

section
/-! PROOFS. Extents: grants, zeroizing, revocation, escrow and reader sets (R392 to R401). -/

namespace Sys2Proof.Machine

@[simp] theorem setStatus_status (n : Nat) (s : State) : (setStatus n s).led.status = n := rfl

/-! ## Grants (R392 to R398) -/

/-- The extent that a good grant makes has a MAC. -/
def grantMac (s : State) (v : BitVec 128) : Bool :=
  fld v 55 52 == 1 || fld v 55 52 == 2 || fld v 48 48 == 1 || (decide (fld v 63 56 < 64) && (tenantOf s (fld v 63 56)).confidential)

/-- The MAC block of a grant, and the state after the draw. -/
def grantDraw (s : State) (v : BitVec 128) : Nat × State :=
  if grantMac s v then (macDraw (extTier (fld v 85 64)) s).getD (0, s) else (0, s)

/-- The extent that a good grant makes. -/
def grantedExt (s : State) (v : BitVec 128) (blk : Nat) : Extent :=
  { ({} : Extent) with
    st := .granting, kind := fld v 55 52, owner := fld v 63 56, mode := fld v 51 50, loss := fld v 49 49 == 1, mac := grantMac s v
    cache := fld v 47 47 == 1, epoch := curEpoch (grantDraw s v).2 (fld v 63 56), readers := fld v 46 43, macBlock := blk }

theorem grantNow_eq (s : State) (v : BitVec 128) : ∃ bs, grantNow v s =
    setDom 0x2401 2 bs (setExt (fld v 85 64) (grantedExt s v (grantDraw s v).1) (grantDraw s v).2) := ⟨_, rfl⟩

theorem grantDraw_led (s : State) (v : BitVec 128) : (grantDraw s v).2.led = s.led := by
  unfold grantDraw
  split
  · cases h : macDraw (extTier (fld v 85 64)) s with
    | none => rfl
    | some x =>
      have hk : Keeps 0x400000 s x.2 := (macDraw_keeps _ s).all _ h
      exact hk.led rfl
  · rfl

theorem extOf_grantNow {s : State} (hs : Tbl.Rising s.led.exts) (v : BitVec 128) (x : Nat) : extOf (grantNow v s) x =
    if x = fld v 85 64 then grantedExt s v (grantDraw s v).1 else extOf s x := by
  obtain ⟨bs, heq⟩ := grantNow_eq s v
  have hled := grantDraw_led s v
  have hrise : Tbl.Rising (grantDraw s v).2.led.exts := by rw [hled]; exact hs
  rw [heq, extOf_of_led ((setDom_keeps ..).led rfl)]
  split
  · next h => rw [h, extOf_setExt hrise]
  · next h => rw [extOf_setExt_ne hrise h, extOf_of_led hled]

theorem grantNow_status (s : State) (v : BitVec 128) : (grantNow v s).led.status = s.led.status := by
  obtain ⟨bs, heq⟩ := grantNow_eq s v
  have hled : (grantDraw s v).2.led.status = s.led.status := congrArg Ledger.status (grantDraw_led s v)
  rw [heq]
  exact hled

theorem writeGrant_of_good {s : State} {v : BitVec 128} (h : grantReason s v = 0) :
    writeGrant v s = (0, grantNow v (setStatus 0 s)) := if_pos h

theorem writeGrant_of_bad {s : State} {v : BitVec 128} (h : grantReason s v ≠ 0) :
    writeGrant v s = (abValue, setStatus (grantReason s v) s) := if_neg h

/-! ## Zeroizing (R398) -/

/-- An extent zeroized and GRANTED. -/
def zeroized (e : Nat) (s : State) : State :=
  setExt e { extOf s e with st := .granted, base := curEpoch s (extOf s e).owner, epoch := curEpoch s (extOf s e).owner }
    ((zeroRange (e * 2 ^ 30) ((e + 1) * 2 ^ 30) s).setMem fun m => { m with written := m.written.filter fun b => b / 16384 != e })

theorem exec_zeroizeDone {s : State} {e : Nat} (hst : (extOf s e).st = .granting)
    (hstay : ¬((extOf s e).owner < 64 ∧ (tenantOf s (extOf s e).owner).st = .removing)) :
    exec (.zeroizeDone e) s = .next (zeroized e s) := by
  show execZeroizeDone e s = _
  unfold execZeroizeDone
  dsimp only
  rw [if_neg (by rw [hst]; decide)]
  exact if_neg hstay

/-! ## Revocation and escrow (R399 to R401) -/

theorem extOf_toEscrow {s : State} (hs : Tbl.Rising s.led.exts) (e x : Nat) : extOf (toEscrow e s) x =
    if x = e then { extOf s e with st := .escrow, step := 1 } else extOf s x := by
  have hled : (toEscrow e s).led = (setExt e { extOf s e with st := .escrow, step := 1 } s).led := rfl
  rw [extOf_of_led hled]
  split
  · next h => rw [h, extOf_setExt hs]
  · next h => rw [extOf_setExt_ne hs h]

theorem writeRevoke_of_granted {s : State} {e : Nat} (hdec : extDecoded s e = true) (hst : (extOf s e).st = .granted)
    (hkind : (extOf s e).kind ≠ 6) : writeRevoke e s = (0, toEscrow e (setStatus 0 s)) := if_pos ⟨hdec, hst, hkind⟩

theorem exec_escrowStepEnd_drained {s : State} {e : Nat} (hst : (extOf s e).st = .escrow) (hstep : (extOf s e).step = 1)
    (hkind : (extOf s e).kind ≠ 2) (hidle : extInflight s e = 0) :
    exec (.escrowStepEnd e) s = .next (setExt e { extOf s e with step := 2 } s) := by
  have hnext : escrowNext e s = setExt e { extOf s e with step := 2 } s := by
    unfold escrowNext
    dsimp only
    rw [if_pos hstep, if_neg (fun h => h hidle), if_neg hkind]
  exact (if_pos hst).trans (congrArg Host.Outcome.next hnext)

/-- An extent zeroized at the end of its escrow, and FREE. -/
def escrowFreed (e : Nat) (s : State) : State :=
  let u := (setExt e {} (zeroRange (e * 2 ^ 30) ((e + 1) * 2 ^ 30) s)).setKv fun k => { k with slabs := terase k.slabs (e * 32) (e * 32 + 32) }
  { u with mint := { u.mint with bundles := tput 0 u.mint.bundles e 0 } }

theorem exec_escrowStepEnd_last {s : State} {e : Nat} (hst : (extOf s e).st = .escrow) (hstep : (extOf s e).step = 5) :
    exec (.escrowStepEnd e) s = .next (escrowFreed e s) := by
  have hnext : escrowNext e s = escrowFreed e s := by
    unfold escrowNext
    dsimp only
    rw [hstep]
    exact if_neg (by decide)
  exact (if_pos hst).trans (congrArg Host.Outcome.next hnext)

/-- Settles O39, by what each command of extents leaves of their table and of the bytes of memory. -/
theorem extentsAreGranted : Obligations.ExtentsAreGranted := by
  unfold Obligations.ExtentsAreGranted
  refine ⟨fun s v hinv ha hone hgood => ?_, fun s v ha hone hbad => ?_, fun s e hinv hst hstay => ?_,
    fun s v hinv ha hone hdec hst hkind => ?_, fun s e hinv hst hstep hkind hidle => ?_, fun s e hinv hst hstep => ?_,
    fun s set v ha hone => ?_⟩
  · have hext := extOf_grantNow (s := setStatus 0 s) hinv.led.exts v
    have hnew := (hext (fld v 85 64)).trans (if_pos rfl)
    exact ⟨_, next_mirrored ha hone (writeGrant_of_good hgood), congrArg Extent.st hnew, congrArg Extent.owner hnew,
      congrArg Extent.kind hnew, congrArg Extent.mode hnew, grantNow_status .., fun x hx => (hext x).trans (if_neg hx)⟩
  · exact ⟨_, next_mirrored_refused ha hone (writeGrant_of_bad hbad) (by decide), rfl, rfl, obj_bumpObj_same ..⟩
  · have hext : extOf (zeroized e s) e = _ := extOf_setExt hinv.led.exts _ _
    refine ⟨_, exec_zeroizeDone hst hstay, congrArg Extent.st hext, congrArg Extent.base hext, fun a => ?_⟩
    exact mget_mzero hinv.mem.bytes ..
  · refine ⟨_, next_mirrored ha hone (writeRevoke_of_granted hdec hst hkind), ?_⟩
    rw [(extOf_toEscrow (s := setStatus 0 s) hinv.led.exts v.toNat v.toNat).trans (if_pos rfl)]
    exact ⟨rfl, rfl, rfl, rfl, rfl⟩
  · exact ⟨_, exec_escrowStepEnd_drained hst hstep hkind hidle, extOf_setExt hinv.led.exts .., rfl⟩
  · exact ⟨_, exec_escrowStepEnd_last hst hstep, extOf_setExt (s := zeroRange _ _ s) hinv.led.exts .., fun a =>
      mget_mzero hinv.mem.bytes ..⟩
  · exact ⟨_, next_mirrored ha hone (f := writeReaders set.val v.toNat) rfl, obj_writeObj_same .., (writeObj_keeps ..).led rfl⟩

end Sys2Proof.Machine
end

section
/-! PROOFS. Tenants: creation, removal and its steps (R411, R414, R429, R443 to R446). -/

namespace Sys2Proof.Machine

/-! ## Entries of a table -/

theorem tget_of_mem {α : Type} (d : α) {t : Tbl α} (h : Tbl.Rising t) {p : Nat × α} (hp : p ∈ t) : tget d t p.1 = p.2 := by
  induction t with
  | nil => exact absurd hp (by simp)
  | cons q t ih =>
    obtain ⟨hlt, hrise⟩ := List.pairwise_cons.1 h
    rw [tget_cons]
    rcases List.mem_cons.1 hp with rfl | hp
    · exact if_pos rfl
    · have := hlt p hp
      rw [if_neg (by omega), if_neg (by omega)]
      exact ih hrise hp

theorem mem_of_tget_ne {α : Type} {d : α} {t : Tbl α} {k : Nat} (h : tget d t k ≠ d) : (k, tget d t k) ∈ t := by
  induction t with
  | nil => exact absurd rfl h
  | cons q t ih =>
    obtain ⟨j, v⟩ := q
    rw [tget_cons] at h ⊢
    split at h
    · next hk => rw [if_pos hk, hk]; exact List.mem_cons_self ..
    · next hk =>
      split at h
      · exact absurd rfl h
      · next hj => rw [if_neg hk, if_neg hj]; exact List.mem_cons_of_mem _ (ih h)

/-! ## The ledger but for its pairs -/

/-- The ledger is the same but for queue pairs and samples. -/
def LedAside (s t : State) : Prop := t.led = { s.led with qps := t.led.qps, samples := t.led.samples }

theorem LedAside.refl (s : State) : LedAside s s := rfl

theorem LedAside.of_led {s t : State} (h : t.led = s.led) : LedAside s t := by
  unfold LedAside
  rw [h]

theorem LedAside.trans {s t u : State} (h : LedAside s t) (h' : LedAside t u) : LedAside s u := by
  unfold LedAside at *
  rw [h'] at *
  rw [h]

theorem LedAside.foldl {α : Type} {f : State → α → State} (hf : ∀ s x, LedAside s (f s x)) (l : List α) (s : State) :
    LedAside s (l.foldl f s) := by
  induction l generalizing s with
  | nil => exact .refl s
  | cons x l ih => exact (hf s x).trans (ih _)

theorem LedAside.exts {s t : State} (h : LedAside s t) : t.led.exts = s.led.exts := by rw [h]
theorem LedAside.tens {s t : State} (h : LedAside s t) : t.led.tens = s.led.tens := by rw [h]

theorem LedAside.extOf {s t : State} (h : LedAside s t) (e : Nat) : extOf t e = extOf s e := by simp only [Machine.extOf, h.exts]
theorem LedAside.tenantOf {s t : State} (h : LedAside s t) (n : Nat) : tenantOf t n = tenantOf s n := by
  simp only [Machine.tenantOf, h.tens]

theorem raiseIrq_ledAside (q : Nat) (s : State) : LedAside s (raiseIrq q s) :=
  LedAside.trans (t := setQp q { qpOf s q with irqCount := 0, irqAt := none } s) rfl (.of_led (raiseIrq_led q s))

theorem countIrq_ledAside (q : Nat) (s : State) : LedAside s (countIrq q s) := by
  unfold countIrq
  extract_lets p n
  split
  · exact .refl s
  · split
    · exact raiseIrq_ledAside q s
    · rfl

theorem markStarved_ledAside (s : State) : LedAside s (markStarved s) :=
  .foldl (fun s q => by
    unfold markStarved1
    extract_lets p
    split
    · split <;> rfl
    · split <;> rfl) _ s

theorem complete_ledAside (id code detail r1 r2 : Nat) (s : State) : LedAside s (complete id code detail r1 r2 s) := by
  unfold complete
  split
  · exact .refl s
  · next f _ =>
    extract_lets x u h p op cc keep r w e0 e1 e2 e3 e4 e5 e6 e7 e8 msg e9
    have hx : LedAside s x := .of_led ((givePrep_keeps f s).led rfl)
    split
    · exact hx
    · split
      · exact hx.trans (.of_led ((memberReport_keeps ..).led rfl))
      · have hu : LedAside x u := by
          unfold u
          split
          · exact .of_led ((tollLeave_keeps ..).led rfl)
          · exact .refl x
        have h35 : Keeps 0x100082 e2 e5 := by
          refine (bucketAdd_keeps ..).step ((State.setTal_keeps e3 _ fun h => ⟨h.fifo0, h.fifo1⟩).step ?_)
          unfold e3
          split
          · exact (bumpObj_keeps ..).mono rfl
          · exact .refl _ _
        have h69 : Keeps 0x220080 e6 e9 := by
          have h68 : Keeps 0x80 e6 e8 := by
            unfold e8
            split
            · exact (traceTriggerSeen_keeps ..).step (traceEvent_keeps ..)
            · exact traceEvent_keeps ..
          unfold e9
          split
          · exact (sendFor_keeps ..).step (h68.mono rfl)
          · exact h68.mono rfl
        have h02 : LedAside u e2 := LedAside.trans (t := e1) rfl (.of_led ((bumpObj_keeps ..).led rfl))
        have h56 : LedAside e5 e6 := rfl
        have h9 : LedAside s e9 :=
          hx.trans (hu.trans (h02.trans ((LedAside.of_led (h35.led rfl)).trans (h56.trans (.of_led (h69.led rfl))))))
        refine h9.trans (LedAside.trans ?_ (markStarved_ledAside _))
        split
        · exact countIrq_ledAside ..
        · exact .refl _

theorem finishRange_ledAside (id : Nat) (s : State) : LedAside s (finishRange id s) := by
  unfold finishRange
  split
  · exact .refl s
  · extract_lets issued cs c
    split
    · exact complete_ledAside ..
    · exact .refl s

theorem dropMove_ledAside (m : Move) (s : State) : LedAside s (dropMove m s) := by
  unfold dropMove
  extract_lets u size v
  have hv : LedAside s v := by
    unfold v
    split
    · exact .of_led ((giveBack_keeps ..).led rfl)
    · rfl
  exact hv.trans (.foldl (fun s d => finishRange_ledAside d s) _ v)

theorem freeFrame_ledAside (f : Nat) (s : State) : LedAside s (freeFrame f s) := by
  unfold freeFrame
  split
  · exact .refl s
  · extract_lets u v
    have hu : LedAside s u := .foldl (fun s m => dropMove_ledAside m s) _ s
    have hv : LedAside u v := .foldl (fun s c => by
      split
      · exact .of_led ((giveBack_keeps ..).led rfl)
      · exact .refl s) _ u
    exact hu.trans (hv.trans rfl)

theorem stopFlights_ledAside (t : Nat) (all : Bool) (s : State) : LedAside s (stopFlights t all s) :=
  .foldl (fun s f => by
    extract_lets fresh u v
    have hu : LedAside s u := .foldl (fun s fr => freeFrame_ledAside fr s) fresh s
    have hv : LedAside u (faultDrop f.id (cancelWork f.id v)) := rfl
    exact hu.trans (hv.trans (complete_ledAside ..))) _ s

/-! ## Creation and removal by command (R411, R414, R429, R443) -/

theorem tenantOf_setTenant_ne {s : State} (h : Tbl.Rising s.led.tens) {n x : Nat} (hx : x ≠ n) (v : Tenant) :
    tenantOf (setTenant n v s) x = tenantOf s x := tget_tput_ne _ _ _ h hx
theorem keysOf_setKeys {s : State} (h : Tbl.Rising s.mint.keys) (n : Nat) (v : Keys) : keysOf (setKeys n v s) n = v :=
  tget_tput _ _ _ h _
theorem keysOf_setKeys_ne {s : State} (h : Tbl.Rising s.mint.keys) {n x : Nat} (hx : x ≠ n) (v : Keys) :
    keysOf (setKeys n v s) x = keysOf s x := tget_tput_ne _ _ _ h hx

/-- The form of 2400:01 that a tenant command must have. -/
structure TenantForm (v : BitVec 16) (op : Nat) : Prop where
  op : fld v 15 14 = op
  high : fld v 13 9 = 0
  low : fld v 7 6 = 0

theorem TenantForm.not_bad {v : BitVec 16} {op : Nat} (h : TenantForm v op) (hop : op = 1 ∨ op = 2) :
    ¬((fld v 15 14 ≠ 1 ∧ fld v 15 14 ≠ 2) ∨ fld v 13 9 ≠ 0 ∨ fld v 7 6 ≠ 0) := by
  obtain ⟨h1, h2, h3⟩ := h
  omega

theorem tenantCommand_create {s : State} {v : BitVec 16} (hv : TenantForm v 1) (hst : (tenantOf s (fld v 5 0)).st = .free)
    (hdebug : fld v 8 8 = 0 ∨ s.mint.debug = false) (hhealthy : s.mint.healthy = true) :
    tenantCommand v s = (0, createTenant (fld v 5 0) (fld v 8 8 == 1) (setStatus 0 s)) := by
  have hst' : (tenantOf s (cmdTenant v)).st = .free := hst
  have hconf : ¬(fld v 15 14 = 1 ∧ (fld v 8 8 == 1) = true ∧ s.mint.debug = true) := by
    rintro ⟨-, h1, h2⟩
    rcases hdebug with h | h
    · rw [h] at h1
      exact absurd h1 (by decide)
    · rw [h] at h2
      exact Bool.false_ne_true h2
  unfold tenantCommand
  dsimp only
  rw [if_neg (hv.not_bad (.inl rfl)), hst', if_neg (by rw [hv.op]; decide), if_neg hconf, if_neg (by rw [hhealthy]; simp), if_pos hv.op]
  rfl

theorem tenantCommand_taken {s : State} {v : BitVec 16} (hv : TenantForm v 1) (hst : (tenantOf s (fld v 5 0)).st ≠ .free) :
    tenantCommand v s = (abState, setStatus 1 s) := by
  unfold tenantCommand
  dsimp only
  rw [if_neg (hv.not_bad (.inl rfl))]
  exact if_pos (.inl ⟨hv.op, hst⟩)

theorem tenantCommand_remove {s : State} {v : BitVec 16} (hv : TenantForm v 2) (hst : (tenantOf s (fld v 5 0)).st = .active) :
    tenantCommand v s = (0, removeTenant (fld v 5 0) (setStatus 0 s)) := by
  have hst' : (tenantOf s (cmdTenant v)).st = .active := hst
  unfold tenantCommand
  dsimp only
  rw [if_neg (hv.not_bad (.inr rfl)), hst', hv.op]
  rfl

/-- A tenant just made ACTIVE, its first key sealed where it is not confidential. -/
theorem createTenant_keeps_led (t : Nat) (conf : Bool) (s : State) :
    (createTenant t conf s).led = (setTenant t { ({} : Tenant) with st := .active, confidential := conf } s).led := by
  unfold createTenant
  cases conf
  · exact (writeSeal_keeps ..).led rfl
  · rfl

theorem keysOf_createTenant {s : State} (hinv : Inv s) (t : Nat) (conf : Bool) :
    keysOf (createTenant t conf s) t = { ({} : Keys) with slot0 := 1 } := by
  have hu : Inv (setTenant t { ({} : Tenant) with st := .active, confidential := conf } s) := (setTenant_keeps ..).inv hinv
  unfold createTenant
  cases conf
  · exact keysOf_setKeys ((writeSeal_keeps ..).inv hu).keys ..
  · exact keysOf_setKeys hu.keys ..

/-! ## Removal (R446) -/

theorem toEscrow_rising {s : State} (hs : Tbl.Rising s.led.exts) (e : Nat) : Tbl.Rising (toEscrow e s).led.exts := tput_rising _ _ hs _

theorem extOf_foldl_toEscrow (l : List Nat) {s : State} (hs : Tbl.Rising s.led.exts) (x : Nat) :
    extOf (l.foldl (fun s e => toEscrow e s) s) x = if x ∈ l then { extOf s x with st := .escrow, step := 1 } else extOf s x := by
  induction l generalizing s with
  | nil => rfl
  | cons e l ih =>
    rw [List.foldl_cons, ih (toEscrow_rising hs e), extOf_toEscrow hs]
    by_cases hx : x = e
    · by_cases hl : x ∈ l <;> simp [hx]
    · simp [hx]

theorem foldl_toEscrow_tens (l : List Nat) (s : State) : (l.foldl (fun s e => toEscrow e s) s).led.tens = s.led.tens := by
  induction l generalizing s with
  | nil => rfl
  | cons e l ih => exact (ih _).trans rfl

/-- The granted extents of a tenant. -/
def grantedTo (s : State) (n : Nat) : List Nat := (s.led.exts.filter fun e => e.2.owner == n && e.2.st == .granted).map (·.1)

theorem mem_grantedTo {s : State} (hs : Tbl.Rising s.led.exts) {n e : Nat} :
    e ∈ grantedTo s n ↔ (extOf s e).owner = n ∧ (extOf s e).st = .granted := by
  unfold grantedTo
  constructor
  · intro h
    obtain ⟨p, hp, rfl⟩ := List.mem_map.1 h
    obtain ⟨hm, hp⟩ := List.mem_filter.1 hp
    obtain ⟨howner, hst⟩ := Bool.and_eq_true_iff.1 hp
    rw [extOf, tget_of_mem _ hs hm]
    exact ⟨beq_iff_eq.1 howner, beq_iff_eq.1 hst⟩
  · rintro ⟨howner, hst⟩
    have hne : extOf s e ≠ {} := fun h => by
      rw [h] at hst
      cases hst
    refine List.mem_map.2 ⟨(e, extOf s e), List.mem_filter.2 ⟨mem_of_tget_ne hne, ?_⟩, rfl⟩
    exact Bool.and_eq_true_iff.2 ⟨beq_iff_eq.2 howner, beq_iff_eq.2 hst⟩

/-- A tenant that is being removed, its extents in escrow. -/
def tenantLeaving (n : Nat) (s : State) : State :=
  (grantedTo s n).foldl (fun s e => toEscrow e s) (setTenant n { tenantOf s n with st := .removing, removeStep := 2 } s)

theorem removeTenant_ledAside (n : Nat) (s : State) : LedAside (tenantLeaving n s) (removeTenant n s) := by
  unfold removeTenant
  extract_lets u0 u own v w x k y
  have hw : LedAside v w := .foldl (fun s i => by
    split
    · rfl
    · exact .refl s) _ v
  exact hw.trans (LedAside.trans (t := y) rfl (stopFlights_ledAside n false y))

theorem tenantOf_removeTenant (n : Nat) (s : State) (x : Nat) :
    tenantOf (removeTenant n s) x = tenantOf (setTenant n { tenantOf s n with st := .removing, removeStep := 2 } s) x := by
  rw [(removeTenant_ledAside n s).tenantOf]
  exact congrArg (tget _ · x) (foldl_toEscrow_tens ..)

theorem extOf_removeTenant {s : State} (hs : Tbl.Rising s.led.exts) (n x : Nat) : extOf (removeTenant n s) x =
    if x ∈ grantedTo s n then { extOf s x with st := .escrow, step := 1 } else extOf s x := by
  rw [(removeTenant_ledAside n s).extOf]
  exact extOf_foldl_toEscrow (s := setTenant n { tenantOf s n with st := .removing, removeStep := 2 } s) _ hs x

/-! ## The steps of a removal (R445 to R448) -/

/-- A removal at a step, the tenant's keys destroyed. -/
def keysDestroyed (n : Nat) (s : State) : State :=
  { s with mint := { s.mint with keys := tput ({} : Keys) s.mint.keys n {}, sealed := s.mint.sealed.filter fun r => r.1 != n } }

theorem removalNext_of_escrowed {s : State} {n : Nat} (hstep : (tenantOf s n).removeStep = 6)
    (hown : ∀ q ∈ s.led.exts, q.2.owner = n → q.2.st ≠ .free → q.2.st = .escrow ∧ 5 ≤ q.2.step) :
    removalNext n s = setTenant n { tenantOf s n with removeStep := 8 } (keysDestroyed n s) := by
  have hnone : ((s.led.exts.filter fun e => e.2.owner == n && e.2.st != .free).any
      fun e => e.2.st != .escrow || decide (e.2.step < 5)) = false := by
    refine List.any_eq_false.2 fun e he => ?_
    obtain ⟨hm, he⟩ := List.mem_filter.1 he
    obtain ⟨howner, hne⟩ := Bool.and_eq_true_iff.1 he
    obtain ⟨hst, h5⟩ := hown e hm (beq_iff_eq.1 howner) (bne_iff_ne.1 hne)
    simp [hst, h5]
  unfold removalNext
  dsimp only
  rw [hstep, hnone]
  rfl

theorem removalNext_of_nothing {s : State} {n : Nat} (hstep : (tenantOf s n).removeStep = 8)
    (hown : ∀ q ∈ s.led.exts, q.2.owner = n → q.2.st = .free) (hctx : ∀ c ∈ s.kv.ctxs, c.2.tenant = n → c.2.st = .free) :
    removalNext n s = freeTenant n s := by
  have hown' : (s.led.exts.filter fun e => e.2.owner == n && e.2.st != .free) = [] :=
    List.filter_eq_nil_iff.2 fun e he h => by
      obtain ⟨howner, hne⟩ := Bool.and_eq_true_iff.1 h
      exact bne_iff_ne.1 hne (hown e he (beq_iff_eq.1 howner))
  have hctx' : (s.kv.ctxs.any fun c => c.2.tenant == n && c.2.st != .free) = false :=
    List.any_eq_false.2 fun c hc h => by
      obtain ⟨howner, hne⟩ := Bool.and_eq_true_iff.1 h
      exact bne_iff_ne.1 hne (hctx c hc (beq_iff_eq.1 howner))
  unfold removalNext
  dsimp only
  rw [hstep, hown', hctx']
  rfl

/-- Settles O38, by what a tenant's creation, its removal and the removal's ends leave of the tables of tenants, extents and keys. -/
theorem tenantsComeAndGo : Obligations.TenantsComeAndGo := by
  unfold Obligations.TenantsComeAndGo
  refine ⟨fun s v hinv ha hone hop hhigh hlow hst hhealthy hdebug => ?_, fun s v ha hone hop hhigh hlow hst => ?_,
    fun s v e hinv ha hone hop hhigh hlow hst => ?_, fun s n hinv hst hstep hown => ?_, fun s n hinv hst hstep hown hctx => ?_⟩
  · refine ⟨_, next_mirrored ha hone (tenantCommand_create ⟨hop, hhigh, hlow⟩ hst hdebug hhealthy), ?_⟩
    have hled := createTenant_keeps_led (fld v 5 0) (fld v 8 8 == 1) (setStatus 0 s)
    have hnew := (tenantOf_of_led hled (fld v 5 0)).trans (tenantOf_setTenant hinv.led.tens ..)
    have hkeys := keysOf_createTenant ((setStatus_keeps 0 s).inv hinv) (fld v 5 0) (fld v 8 8 == 1)
    exact ⟨congrArg Tenant.st hnew, congrArg Tenant.confidential hnew, congrArg Keys.slot0 hkeys, congrArg Ledger.status hled,
      fun x hx => (tenantOf_of_led hled x).trans (tenantOf_setTenant_ne (s := setStatus 0 s) hinv.led.tens hx _)⟩
  · exact ⟨_, next_mirrored_refused ha hone (tenantCommand_taken ⟨hop, hhigh, hlow⟩ hst) (by decide), rfl, rfl, obj_bumpObj_same ..⟩
  · refine ⟨_, next_mirrored ha hone (tenantCommand_remove ⟨hop, hhigh, hlow⟩ hst), ?_⟩
    have htens := tenantOf_removeTenant (fld v 5 0) (setStatus 0 s)
    have hext := extOf_removeTenant (s := setStatus 0 s) hinv.led.exts (fld v 5 0) e
    have hmem := mem_grantedTo (s := setStatus 0 s) hinv.led.exts (n := fld v 5 0) (e := e)
    refine ⟨?_, fun howner hst => ?_, fun howner => ?_, fun x hx => ?_⟩
    · rw [htens, tenantOf_setTenant (s := setStatus 0 s) hinv.led.tens]
    · rw [hext, if_pos (hmem.2 ⟨howner, hst⟩)]
      exact ⟨rfl, rfl⟩
    · rw [hext, if_neg fun h => howner (hmem.1 h).1]
      rfl
    · rw [htens, tenantOf_setTenant_ne (s := setStatus 0 s) hinv.led.tens hx]
      rfl
  · refine ⟨_, (if_pos hst).trans (congrArg Host.Outcome.next (removalNext_of_escrowed hstep hown)), ?_⟩
    have hnew := tenantOf_setTenant (s := keysDestroyed n.val s) hinv.led.tens n.val { tenantOf s n.val with removeStep := 8 }
    refine ⟨tget_tput _ _ _ hinv.keys _, congrArg Tenant.removeStep hnew, ?_⟩
    rw [hnew]
    exact hst
  · refine ⟨_, (if_pos hst).trans (congrArg Host.Outcome.next (removalNext_of_nothing hstep hown hctx)), ?_, rfl⟩
    exact congrArg Tenant.st (tget_tput _ _ _ hinv.led.tens n.val)

end Sys2Proof.Machine
end

section
/-! PROOFS. Rotation of tenant keys, the sweep and the random source (R414, R431, R434 to R438, R676). -/

namespace Sys2Proof.Machine

theorem obj_written_refused {k l : Nat} (h : okey 0x1022 1 ≠ okey k l) (s : State) : obj (bumpObj 0x1022 1 1 32 s) k l = obj s k l :=
  obj_setObj_ne h ..

/-! ## The table of keys -/

theorem writeSeal_keys (t : Nat) (k : Keys) (s : State) : (writeSeal t k s).mint.keys = s.mint.keys := by
  unfold writeSeal
  split
  · extract_lets r
    rw [(writeWhole_keeps ..).mint rfl]
  · rfl

/-- A tenant's keys, set and sealed in either order. -/
theorem keysOf_setKeys_writeSeal {s : State} (h : Tbl.Rising s.mint.keys) (t : Nat) (k : Keys) (x : Nat) :
    keysOf (setKeys t k (writeSeal t k s)) x = if x = t then k else keysOf s x := by
  have hkeys := writeSeal_keys t k s
  have hrise : Tbl.Rising (writeSeal t k s).mint.keys := by rw [hkeys]; exact h
  split
  · next hx => rw [hx, keysOf_setKeys hrise]
  · next hx =>
    rw [keysOf_setKeys_ne hrise hx]
    exact congrArg (tget _ · x) hkeys

theorem keysOf_writeSeal_setKeys {s : State} (h : Tbl.Rising s.mint.keys) (t : Nat) (k : Keys) (x : Nat) :
    keysOf (writeSeal t k (setKeys t k s)) x = if x = t then k else keysOf s x := by
  have hkeys : keysOf (writeSeal t k (setKeys t k s)) x = keysOf (setKeys t k s) x := congrArg (tget _ · x) (writeSeal_keys ..)
  rw [hkeys]
  split
  · next hx => rw [hx, keysOf_setKeys h]
  · next hx => rw [keysOf_setKeys_ne h hx]

/-! ## One extent after another -/

/-- An operation on one extent of a list: it leaves keys and the other extents, and brings its own to `P`. -/
def OwnExt (m : Mint) (P : Extent → Prop) (F : State → Nat → State) : Prop :=
  ∀ s e, Tbl.Rising s.led.exts → s.mint = m → Tbl.Rising (F s e).led.exts ∧ (F s e).mint = m ∧ P (extOf (F s e) e) ∧
    ∀ x, x ≠ e → extOf (F s e) x = extOf s x

theorem OwnExt.foldl {m : Mint} {P : Extent → Prop} {F : State → Nat → State} (hF : OwnExt m P F) (l : List Nat) {s : State}
    (hs : Tbl.Rising s.led.exts) (hm : s.mint = m) :
    (l.foldl F s).mint = m ∧ ∀ x, x ∈ l ∨ P (extOf s x) → P (extOf (l.foldl F s) x) := by
  induction l generalizing s with
  | nil => exact ⟨hm, fun x hx => hx.resolve_left (by simp)⟩
  | cons e l ih =>
    obtain ⟨hrise, hmint, hown, hothers⟩ := hF s e hs hm
    obtain ⟨hm', hall⟩ := ih hrise hmint
    refine ⟨hm', fun x hx => hall x ?_⟩
    by_cases hxe : x = e
    · exact .inr (hxe ▸ hown)
    · rw [hothers x hxe]
      exact hx.imp_left fun h => (List.mem_cons.1 h).resolve_left hxe

theorem extsOf_of_led {s t : State} (h : t.led = s.led) (n : Nat) : extsOf t n = extsOf s n := by simp only [extsOf, h]

/-! ## Rotation (R434) -/

/-- A tenant's keys once a rotation is installed. -/
def Keys.rotated (k : Keys) : Keys := { withSlots { k with gen := (k.gen + 1) % 2 ^ 32 } 1 2 with sweep := true }

theorem Keys.rotated_gen (k : Keys) : k.rotated.gen = (k.gen + 1) % 2 ^ 32 := by
  unfold Keys.rotated withSlots
  split <;> rfl

theorem Keys.rotated_otherSlot (k : Keys) : otherSlot k.rotated = 2 := by
  by_cases h : (k.gen + 1) % 2 ^ 32 % 2 = 0
  · exact (if_pos ((congrArg (· % 2) k.rotated_gen).trans h)).trans (by simp only [Keys.rotated, withSlots, if_pos h])
  · exact (if_neg fun hn => h ((congrArg (· % 2) k.rotated_gen).symm.trans hn)).trans (by simp only [Keys.rotated, withSlots, if_neg h])

/-- One extent of a tenant whose rotation has begun. -/
def rewrapBegun (t : Nat) (s : State) (e : Nat) : State := setExt e { extOf s e with epoch := curEpoch s t, rewrap := true } s

theorem rewrapBegun_own (t : Nat) (s : State) :
    OwnExt s.mint (fun x => x.epoch = curEpoch s t ∧ x.rewrap = true) (rewrapBegun t) := fun u e hrise hmint => by
  refine ⟨tput_rising _ _ hrise _, hmint, ?_, fun x hx => extOf_setExt_ne hrise hx _⟩
  rw [rewrapBegun, extOf_setExt hrise]
  exact ⟨curEpoch_of_mint hmint t, rfl⟩

/-- A tenant's new keys, sealed and installed. -/
def keysRotated (t : Nat) (s : State) : State := setKeys t (keysOf s t).rotated (writeSeal t (keysOf s t).rotated s)

theorem keysRotated_led (t : Nat) (s : State) : (keysRotated t s).led = s.led := (writeSeal_keeps ..).led rfl

theorem mem_extsOf {s : State} (hs : Tbl.Rising s.led.exts) {n e : Nat} :
    e ∈ extsOf s n ↔ (extOf s e).owner = n ∧ (extOf s e).st ≠ .free := by
  unfold extsOf
  constructor
  · intro h
    obtain ⟨p, hp, rfl⟩ := List.mem_map.1 h
    obtain ⟨hm, hp⟩ := List.mem_filter.1 hp
    obtain ⟨howner, hst⟩ := Bool.and_eq_true_iff.1 hp
    rw [extOf, tget_of_mem _ hs hm]
    exact ⟨beq_iff_eq.1 howner, bne_iff_ne.1 hst⟩
  · rintro ⟨howner, hst⟩
    have hne : extOf s e ≠ {} := fun h => hst (congrArg Extent.st h)
    refine List.mem_map.2 ⟨(e, extOf s e), List.mem_filter.2 ⟨mem_of_tget_ne hne, ?_⟩, rfl⟩
    exact Bool.and_eq_true_iff.2 ⟨beq_iff_eq.2 howner, bne_iff_ne.2 hst⟩

/-- The bits of a rotation change no extent's owner or state. -/
theorem foldl_rewrapBegun_owner (t : Nat) (l : List Nat) {s : State} (hs : Tbl.Rising s.led.exts) (x : Nat) :
    Tbl.Rising (l.foldl (rewrapBegun t) s).led.exts ∧ (extOf (l.foldl (rewrapBegun t) s) x).owner = (extOf s x).owner ∧
      (extOf (l.foldl (rewrapBegun t) s) x).st = (extOf s x).st := by
  induction l generalizing s with
  | nil => exact ⟨hs, rfl, rfl⟩
  | cons e l ih =>
    have hrise : Tbl.Rising (rewrapBegun t s e).led.exts := tput_rising _ _ hs _
    obtain ⟨hrise', howner, hst⟩ := ih hrise
    have hstep : (extOf (rewrapBegun t s e) x).owner = (extOf s x).owner ∧ (extOf (rewrapBegun t s e) x).st = (extOf s x).st := by
      by_cases hx : x = e
      · rw [hx, rewrapBegun, extOf_setExt hs]
        exact ⟨rfl, rfl⟩
      · rw [rewrapBegun, extOf_setExt_ne hs hx]
        exact ⟨rfl, rfl⟩
    exact ⟨hrise', howner.trans hstep.1, hst.trans hstep.2⟩

theorem rotateNow_of_extents {s : State} {t : Nat} (hs : Tbl.Rising s.led.exts) (h : extsOf s t ≠ []) :
    rotateNow t s = (extsOf s t).foldl (rewrapBegun t) (keysRotated t s) := by
  have hled := keysRotated_led t s
  have hexts := extsOf_of_led hled t
  have hrise : Tbl.Rising (keysRotated t s).led.exts := by rw [hled]; exact hs
  obtain ⟨e, he⟩ := List.exists_mem_of_ne_nil _ h
  obtain ⟨howner, hst⟩ := (mem_extsOf hs).1 he
  obtain ⟨hrise', howner', hst'⟩ := foldl_rewrapBegun_owner t (extsOf s t) hrise e
  have hmem : e ∈ extsOf ((extsOf s t).foldl (rewrapBegun t) (keysRotated t s)) t :=
    (mem_extsOf hrise').2 ⟨by rw [howner', extOf_of_led hled, howner], by rw [hst', extOf_of_led hled]; exact hst⟩
  have hmem' : e ∈ extsOf ((extsOf (keysRotated t s) t).foldl (rewrapBegun t) (keysRotated t s)) t := by
    rw [hexts]
    exact hmem
  rw [← hexts]
  refine if_neg fun hn => ?_
  have hnil := List.isEmpty_iff.1 hn.1
  exact absurd (hnil ▸ hmem' :) (by simp)

theorem writeRotate_of_good {s : State} {t : Nat} (hst : (tenantOf s t).st = .active) (hslot : otherSlot (keysOf s t) = 0)
    (hhealthy : s.mint.healthy = true) : writeRotate t 1 s = (0, rotateNow t (keyStatus t 0 s)) := by
  unfold writeRotate
  rw [if_neg (by decide), if_neg (by rw [hst]; decide), if_neg (by rw [hslot]; decide), if_neg (by rw [hhealthy]; decide)]

theorem writeRotate_of_old {s : State} {t : Nat} (hst : (tenantOf s t).st = .active) (hslot : otherSlot (keysOf s t) ≠ 0) :
    writeRotate t 1 s = (abState, keyStatus t 1 s) := by
  unfold writeRotate
  rw [if_neg (by decide), if_neg (by rw [hst]; decide), if_pos hslot]

/-! ## Units of a sweep (R435, R436) -/

theorem tget_eq_find {α : Type} (d : α) {t : Tbl α} (h : Tbl.Rising t) (x : Nat) :
    tget d t x = ((t.find? fun p => p.1 == x).map (·.2)).getD d := by
  induction t with
  | nil => rfl
  | cons q t ih =>
    obtain ⟨hlt, hrise⟩ := List.pairwise_cons.1 h
    obtain ⟨j, v⟩ := q
    rw [tget_cons]
    by_cases hx : x = j
    · simp [hx]
    · rw [if_neg hx, List.find?_cons_of_neg (by simpa using Ne.symm hx), ← ih hrise]
      split
      · next hj => exact (tget_low d fun p hp => lt_trans hj (hlt p hp)).symm
      · rfl

theorem find_tput_ne {α : Type} [DecidableEq α] (d v : α) (t : Tbl α) {k x : Nat} (hx : x ≠ k) :
    (tput d t k v).find? (fun p => p.1 == x) = t.find? fun p => p.1 == x := by
  have hk : ((k == x) = true) = False := eq_false (by simpa using Ne.symm hx)
  induction t with
  | nil => simp only [tput]; split <;> simp [hk]
  | cons q t ih =>
    simp only [tput]
    split
    · next hq => split <;> simp [hk, ← hq]
    · split
      · split <;> simp [hk]
      · simp only [List.find?_cons, ih]

theorem lineOf_setLine_ne {s : State} (h : Tbl.Rising s.mem.lines) {line x : Nat} (hx : x ≠ line) (v : Line) :
    lineOf (setLine line v s) x = lineOf s x := by
  have hbase : lineBase (setLine line v s) x = lineBase s x := lineBase_of_led rfl x
  have hrise : Tbl.Rising (setLine line v s).mem.lines := tput_rising _ _ h _
  unfold lineOf
  rw [hbase, tget_eq_find _ hrise, tget_eq_find _ h]
  exact congrArg (fun o : Option (Nat × Line) => (o.map (·.2)).getD _) (find_tput_ne _ _ _ hx)

/-- A line under another epoch, data and condition unchanged. -/
theorem rewrapLines_line {s : State} {t : Nat} (l : List Nat) (hs : Tbl.Rising s.mem.lines) (x : Nat) :
    lineOf (rewrapLines t l s) x = if x ∈ l then { lineOf s x with epoch := curEpoch s t } else lineOf s x := by
  unfold rewrapLines
  induction l generalizing s with
  | nil => rfl
  | cons e l ih =>
    rw [List.foldl_cons, ih (tput_rising _ _ hs _)]
    have hcur : curEpoch (setLine e { lineOf s e with epoch := curEpoch s t } s) t = curEpoch s t := curEpoch_of_mint rfl t
    rw [hcur]
    by_cases hx : x = e
    · subst hx
      rw [lineOf_setLine hs, if_pos (List.mem_cons_self ..)]
      split <;> rfl
    · rw [lineOf_setLine_ne hs hx]
      simp only [List.mem_cons, hx, false_or]

/-- The lines of a unit of T1 or T2: one, or the four of a sector that carries a MAC. -/
def unitLines (mac : Bool) (n : Nat) : List Nat := if mac then (List.range 4).map (n / 4 * 4 + ·) else [n]

theorem mem_unitLines {mac : Bool} {n x : Nat} : x ∈ unitLines mac n ↔ x = n ∨ (mac = true ∧ x / 4 = n / 4) := by
  cases mac
  · simp [unitLines]
  · have h : x ∈ unitLines true n ↔ ∃ i, i < 4 ∧ n / 4 * 4 + i = x := by simp [unitLines]
    rw [h]
    constructor
    · rintro ⟨i, hi, rfl⟩
      exact .inr ⟨rfl, by omega⟩
    · intro h
      have hx : x / 4 = n / 4 := by
        rcases h with rfl | ⟨-, h⟩
        · rfl
        · exact h
      exact ⟨x % 4, by omega, by omega⟩

/-- A unit of lines rewritten in its tenant's turn. -/
def linesRewrapped (t : Nat) (l : List Nat) (s : State) : State :=
  unitDone t 1 (rewrapLines t l (s.setMint fun m => { m with turn := t }))

theorem rewrapOne_of_line {s : State} {t e n : Nat} (hkind : (extOf s e).kind ≠ 2) (htier : extTier e ≠ 3)
    (hold : firstOld s t e = some n) (hshare : extTier e = 1 → shareTaken s (ctlOfAddr (n * 64)) = false)
    (hturn : rewrapTurn s t = true) : rewrapOne t e s = linesRewrapped t (unitLines (extOf s e).mac n) s := by
  have hgo : ¬((extTier e = 1 ∧ shareTaken s (ctlOfAddr (n * 64)) = true) ∨ (!rewrapTurn s t) = true) := by
    rintro (⟨h1, h2⟩ | h)
    · exact Bool.false_ne_true ((hshare h1).symm.trans h2)
    · rw [hturn] at h
      exact Bool.false_ne_true h
  unfold rewrapOne
  dsimp only
  rw [if_neg hkind, if_neg htier, hold]
  exact if_neg hgo

theorem rewrapOne_of_frame {s u : State} {t e f : Nat} {v : Frame} (hkind : (extOf s e).kind = 2)
    (hold : ((oldFrames s t).find? fun q => copyIn1G e q.2.t2 || copyIn1G e q.2.t3) = some (f, v))
    (hpays : rewrapPays t ((if v.t2.isSome then v.size else 0) + if v.t3.isSome then v.size else 0)
      (if v.t3.isSome then v.size else 0) (v.t3.getD 0 * 4096) s = some u) :
    rewrapOne t e s = unitDone t 1 (setFrame f { v with epoch := curEpoch u t } u) := by
  unfold rewrapOne
  dsimp only
  rw [if_pos hkind, hold]
  dsimp only
  rw [hpays]

theorem okey_ne_of_lt {i j k l : Nat} (h : i * 256 + j < k * 256 + l) : okey k l ≠ okey i j := by
  unfold okey
  omega

/-- What a rewrap outside T1 pays is counted in no tenant's object. -/
theorem rewrapPays_obj {s u : State} {t n w a : Nat} (h : rewrapPays t n w a s = some u) {k l : Nat}
    (hk : k * 256 + l < 0x4212 * 256) : obj u k l = obj s k l := by
  have hmigr : ∀ i j s, obj (migrTake i j s) k l = obj s k l := fun i j s => obj_of_dict ((migrTake_keeps i j s).dict rfl) ..
  unfold rewrapPays at h
  extract_lets ns v at h
  split at h
  · obtain rfl := Option.some.inj h
    have hv : obj v k l = obj s k l := (hmigr ..).trans (hmigr ..)
    split
    · exact hv
    · rw [← hv]
      unfold nsTake
      exact obj_setObj_ne (okey_ne_of_lt (by omega)) ..
  · cases h

theorem frameOf_setFrame (f : Nat) (v : Frame) (s : State) : frameOf (setFrame f v s) f = some v := by
  show ((tins s.kv.frames f v).find? _).map _ = _
  rw [tins_find, if_pos rfl]
  rfl

/-! ## The end of a sweep and a retirement (R434 step 4, R437) -/

/-- A tenant's keys without their old slot. -/
def Keys.swept (k : Keys) : Keys := { withSlots k 1 0 with sweep := false }

theorem rewrapAll_own (t : Nat) (s : State) :
    OwnExt s.mint (fun x => x.base = curEpoch s t ∧ x.rewrap = false) (rewrapAll t) := fun u e hrise hmint => by
  have hcur : curEpoch u t = curEpoch s t := curEpoch_of_mint hmint t
  obtain ⟨v, hled, hv⟩ : ∃ v : State, v.led = u.led ∧
      (rewrapAll t u e).led = (setExt e { extOf v e with base := curEpoch u t, rewrap := false } v).led :=
    ⟨unitDone t (unitsLeft u t e) (u.setMem fun m => { m with lines := m.lines.map fun q =>
      if e * 2 ^ 24 ≤ q.1 ∧ q.1 < (e + 1) * 2 ^ 24 then (q.1, { q.2 with epoch := curEpoch u t }) else q }), rfl, rfl⟩
  have hrise' : Tbl.Rising v.led.exts := by rw [hled]; exact hrise
  refine ⟨by rw [hv]; exact tput_rising _ _ hrise' _, ((rewrapAll_keeps t u e).mint rfl).trans hmint, ?_, fun x hx => ?_⟩
  · rw [extOf_of_led hv, extOf_setExt hrise', hcur]
    exact ⟨rfl, rfl⟩
  · rw [extOf_of_led hv, extOf_setExt_ne hrise' hx, extOf_of_led hled]

/-- Every unit of a tenant under its current epoch. -/
def unitsSwept (t : Nat) (s : State) : State :=
  let u := (extsOf s t).foldl (rewrapAll t) s
  (oldFrames u t).foldl (fun s q => unitDone t 1 (setFrame q.1 { q.2 with epoch := curEpoch s t } s)) u

theorem unitsSwept_led (t : Nat) (s : State) : (unitsSwept t s).led = ((extsOf s t).foldl (rewrapAll t) s).led :=
  (Keeps.foldl (P := 0x802) (.refl _ _) fun _ _ h => (unitDone_keeps ..).step ((setFrame_keeps ..).step h) :
    Keeps 0x802 ((extsOf s t).foldl (rewrapAll t) s) (unitsSwept t s)).led rfl

theorem unitsSwept_mint (t : Nat) (s : State) : (unitsSwept t s).mint = s.mint :=
  (Keeps.foldl (P := 0xD02) (Keeps.foldl (P := 0xD02) (.refl _ _) fun _ _ h => (rewrapAll_keeps ..).step h) fun _ _ h =>
    (unitDone_keeps ..).step ((setFrame_keeps ..).step h) : Keeps 0xD02 s (unitsSwept t s)).mint rfl

theorem sweepEnd_eq (t : Nat) (s : State) : sweepEnd t s =
    writeSeal t (keysOf (unitsSwept t s) t).swept (setKeys t (keysOf (unitsSwept t s) t).swept (unitsSwept t s)) := rfl

theorem keysOf_sweepEnd {s : State} (h : Tbl.Rising s.mint.keys) (t x : Nat) :
    keysOf (sweepEnd t s) x = if x = t then (keysOf s t).swept else keysOf s x := by
  have hmint := unitsSwept_mint t s
  rw [sweepEnd_eq, keysOf_writeSeal_setKeys (by rw [hmint]; exact h), keysOf_of_mint hmint, keysOf_of_mint hmint]

theorem writeRetire_of_old {s : State} {t : Nat} (h : otherSlot (keysOf s t) = 2) : ∃ u : State, u.mint = s.mint ∧
    writeRetire t 1 s = (0, writeSeal t (keysOf s t).swept (setKeys t (keysOf s t).swept u)) := by
  unfold writeRetire
  extract_lets k0 k u
  have hu : u.mint = s.mint := (Keeps.foldl (P := 0x400) (.refl _ _) fun _ _ h => (setExt_keeps ..).step h : Keeps 0x400 s u).mint rfl
  rw [if_neg (by decide), if_neg (fun hn => hn h)]
  exact ⟨keyStatus t 0 u, hu, rfl⟩

/-- Settles O40, by what a rotation, a unit, a sweep's end and a retirement leave of the tables of keys, extents, lines and frames. -/
theorem keysRotate : Obligations.KeysRotate := by
  unfold Obligations.KeysRotate
  refine ⟨fun s p n hinv ha hone hp hst hslot hhealthy hexts => ?_, fun s p n ha hone hp hst hslot => ?_,
    fun s n e l hinv hsweep howner hst hkind htier hold hshare hturn => ?_, fun s n e f v u hsweep howner hst hkind hold hpays => ?_,
    fun s n hinv hsweep => ?_, fun s p n hinv ha hone hp hslot => ?_, fun s n v ha hv => ?_, fun s => ⟨_, rfl, rfl, rfl⟩,
    fun s => ⟨_, rfl, rfl, rfl⟩⟩
  · refine ⟨_, next_objCmd ha hp ((mirrorGate_single hone ..).trans (writeRotate_of_good hst hslot hhealthy)), ?_⟩
    generalize hu : keyStatus n.val 0 s = u
    have hled : u.led = s.led := hu ▸ rfl
    have hkeys : u.mint = s.mint := hu ▸ rfl
    have hexts' : extsOf u n.val = extsOf s n.val := extsOf_of_led hled n.val
    have hrise : Tbl.Rising u.led.exts := by rw [hled]; exact hinv.led.exts
    have hrise' : Tbl.Rising (keysRotated n.val u).led.exts := by rw [keysRotated_led]; exact hrise
    rw [rotateNow_of_extents hrise (by rw [hexts']; exact hexts), hexts']
    obtain ⟨hmint, hall⟩ := (rewrapBegun_own n.val (keysRotated n.val u)).foldl (extsOf s n.val) hrise' rfl
    have hkey := fun x => keysOf_setKeys_writeSeal (s := u) (by rw [hkeys]; exact hinv.keys) n.val (keysOf u n.val).rotated x
    have hown := (keysOf_of_mint hmint n.val).trans ((hkey n.val).trans (if_pos rfl))
    rw [hown, keysOf_of_mint hkeys]
    refine ⟨Keys.rotated_gen _, Keys.rotated_otherSlot _, rfl, fun x hx => ?_, fun e he => ?_⟩
    · rw [keysOf_of_mint hmint]
      exact ((hkey x).trans (if_neg hx)).trans (keysOf_of_mint hkeys x)
    · rw [curEpoch_of_mint hmint]
      exact hall e (.inl he)
  · refine ⟨_, next_objCmd_code ha hp ((mirrorGate_single hone ..).trans (writeRotate_of_old hst hslot)) (by decide), ?_, rfl⟩
    rw [obj_written_refused (by unfold okey; omega)]
    exact obj_setObj_same ..
  · refine ⟨_, (if_pos ⟨hsweep, howner, hst⟩).trans (congrArg Host.Outcome.next (rewrapOne_of_line hkind htier hold hshare hturn)),
      ?_, fun x => ?_, ?_⟩
    · have hk : Keeps 0x10102 s (linesRewrapped n.val (unitLines (extOf s e).mac l) s) :=
        (unitDone_keeps ..).step ((rewrapLines_keeps ..).step ((State.setMint_keeps _ _ fun h => h).mono))
      exact hk.bytes rfl
    · have hline : lineOf (linesRewrapped n.val (unitLines (extOf s e).mac l) s) x = _ := rewrapLines_line
        (s := s.setMint fun m => { m with turn := n.val }) (t := n.val) (unitLines (extOf s e).mac l) hinv.mem.lines x
      rw [hline]
      exact if_congr mem_unitLines rfl rfl
    · refine (obj_bumpObj_same ..).trans ?_
      rw [obj_of_dict ((rewrapLines_keeps ..).dict rfl)]
      rfl
  · refine ⟨_, (if_pos ⟨hsweep, howner, hst⟩).trans (congrArg Host.Outcome.next (rewrapOne_of_frame hkind hold hpays)), ?_, ?_⟩
    · rw [curEpoch_of_mint ((rewrapPays_keeps ..).get hpays |>.mint rfl)]
      exact frameOf_setFrame ..
    · refine (obj_bumpObj_same ..).trans ?_
      rw [obj_of_dict (t := setFrame f { v with epoch := curEpoch u n.val } u) (s := u) rfl, rewrapPays_obj hpays (by omega)]
  · have hkey := keysOf_sweepEnd hinv.keys n.val
    refine ⟨_, if_pos hsweep, (hkey n.val).trans (if_pos rfl), fun x hx => (hkey x).trans (if_neg hx), fun e he => ?_⟩
    have hled : (sweepEnd n.val s).led = ((extsOf s n.val).foldl (rewrapAll n.val) s).led :=
      ((writeSeal_keeps ..).led rfl).trans (unitsSwept_led n.val s)
    rw [extOf_of_led hled]
    exact ((rewrapAll_own n.val s).foldl (extsOf s n.val) hinv.led.exts rfl).2 e (.inl he)
  · obtain ⟨u, hmint, hw⟩ := writeRetire_of_old hslot
    have hkey := fun x => keysOf_writeSeal_setKeys (s := u) (by rw [hmint]; exact hinv.keys) n.val (keysOf s n.val).swept x
    exact ⟨_, next_objCmd ha hp ((mirrorGate_single hone ..).trans hw), (hkey n.val).trans (if_pos rfl),
      fun x hx => ((hkey x).trans (if_neg hx)).trans (keysOf_of_mint hmint x)⟩
  · have hgood : writeSealing n.val v s = (0, writeObj (0x3006 + 16 * n.val) 5 (if v then 1 else 0) (keyStatus n.val 0 s)) := by
      refine if_neg fun h => ?_
      obtain ⟨h1, h2⟩ := Bool.and_eq_true_iff.1 h
      rcases hv with hv | hv
      · exact Bool.false_ne_true (hv.symm.trans h1)
      · exact Bool.false_ne_true (hv.symm.trans h2)
    refine ⟨_, next_commanded ha hgood, ?_, (writeObj_keeps ..).mint rfl⟩
    show (obj (writeObj _ _ _ _) _ _ == 1) = v
    rw [obj_writeObj_same]
    cases v <;> rfl

end Sys2Proof.Machine
end

section
/-! PROOFS. Pending pages: records of the fault queue, their re-walks and their end (R163, R363 to R368). -/

namespace Sys2Proof.Machine

theorem mem_setFlight {s : State} {f g : Flight} (hg : g ∈ (setFlight f s).attn.flights) (hid : g.id = f.id) : g = f := by
  obtain ⟨x, -, rfl⟩ := List.mem_map.1 (show g ∈ s.attn.flights.map fun g => if g.id = f.id then f else g from hg)
  by_cases hx : x.id = f.id
  · exact if_pos hx
  · exact absurd (by rwa [if_neg hx] at hid) hx

/-! ## A record for a pending page (R363, R364) -/

/-- The record of a flight's pending page. -/
def pageRecord (f : Flight) (page now : Nat) (out : Bool) : FaultRec :=
  { kind := 1, source := 20 + flightDie f, pasid := dPasid f.desc, addr := page * 4096, desc := f.id, output := out, made := now, due := false }

theorem pendingPost_of_waiting {f : Flight} {page : Nat} {u : State} (hstage : f.stage = .waiting) (hroom : u.xl.queue.length < 512)
    (hhold : u.xl.holding = []) (hnone : pendingOf u f.id = []) : pendingPost f [page] u =
      setFlight { f with stage := .stalled } (u.setXl fun x => { x with
        queue := x.queue ++ [pageRecord f page u.time.cycle false], high := max x.high (u.xl.queue.length + 1) }) := by
  have hout : (f.stage == .output || f.stage == .outStalled) = false := by rw [hstage]; rfl
  have hrec : pendingRecords f [page] u = u.setXl fun x => { x with
      queue := x.queue ++ [pageRecord f page u.time.cycle false], high := max x.high (u.xl.queue.length + 1) } := by
    unfold pendingRecords
    simp only [List.foldl_cons, List.foldl_nil, hnone, List.any_nil, Bool.false_eq_true, if_false, hhold, hout]
    exact if_pos ⟨hroom, by rw [hhold]; rfl⟩
  have hsome : (pendingOf (pendingRecords f [page] u) f.id).isEmpty = false := by
    rw [hrec]
    simp [pendingOf, State.setXl, pageRecord, List.filter_append]
  unfold pendingPost
  extract_lets out v
  have hv : (pendingOf v f.id).isEmpty = false := hsome
  rw [hv, if_neg Bool.false_ne_true, show v = _ from hrec, show out = false from hout]
  rfl

theorem exec_pendingFault {s u : State} {d va len : Nat} {wr : Bool} {f : Flight} {ps : List Nat} (hf : flightOf s d = some f)
    (hstage : f.stage = .waiting) (hblock : flightBlock s f = (va, len, wr))
    (hwalk : translateBlock (flightDie f) (dPasid f.desc) va len wr s = (.pending ps, u)) :
    exec (.pendingFault d) s = .next (pendingPost f ps u) := by
  show execPendingFault d s = _
  unfold execPendingFault
  simp only [hf, hblock, hwalk]
  rw [if_neg (by simp [hstage]), if_neg (by simp [hstage])]

theorem exec_faultQueueSlotFree {s : State} {r : FaultRec} (hhold : s.xl.holding = [r]) (hroom : s.xl.queue.length < 512) :
    exec .faultQueueSlotFree s = .next (bumpObj 0x2300 4 1 64 (s.setXl fun x => { x with
        queue := x.queue ++ [r], holding := x.holding.erase r, high := max x.high (x.queue.length + 1) })) := by
  show execFaultQueueSlotFree s = _
  unfold execFaultQueueSlotFree
  rw [hhold]
  exact if_pos hroom

/-! ## Re-walks (R366, R368) -/

/-- The record that is due, with none before it. -/
structure FirstDue (s : State) (i : Nat) (r : FaultRec) : Prop where
  at_ : s.xl.queue[i]? = some r
  kind : r.kind = 1
  due : r.due = true
  first : ∀ q ∈ s.xl.queue.take i, q.due = false

theorem FirstDue.not_stays {s : State} {i : Nat} {r : FaultRec} (h : FirstDue s i r) :
    ¬(r.kind ≠ 1 ∨ (!r.due) = true ∨ ((s.xl.queue.take i).any fun q => q.due) = true) := by
  obtain ⟨-, hkind, hdue, hfirst⟩ := h
  rintro (h | h | h)
  · exact h hkind
  · rw [hdue] at h
    exact Bool.false_ne_true h
  · obtain ⟨q, hq, hd⟩ := List.any_eq_true.1 h
    exact Bool.false_ne_true ((hfirst q hq).symm.trans hd)

/-- The flight goes on where no record of it is left. -/
def unitsFound (r : FaultRec) (f : Flight) (us : List (Nat × Nat)) (u : State) : State :=
  let v := unitsDrop r.desc us u
  if (pendingOf v r.desc).isEmpty then setFlight { f with stage := if r.output then .output else .waiting } v else v

theorem unitsFound_xl (r : FaultRec) (f : Flight) (us : List (Nat × Nat)) (u : State) :
    (unitsFound r f us u).xl = (unitsDrop r.desc us u).xl := by
  unfold unitsFound
  extract_lets v
  split <;> rfl

theorem exec_pendingRewalk_found {s u : State} {i : Nat} {r : FaultRec} {f : Flight} {ps : List (Nat × Nat)} (h : FirstDue s i r)
    (hf : flightOf s r.desc = some f)
    (hwalk : translateUnits (flightDie f) (dPasid f.desc) r.output (unitsAt s f (r.addr / 4096)) s = (.ok ps, u)) :
    exec (.pendingRewalk i) s = .next (unitsFound r f (unitsAt s f (r.addr / 4096)) u) := by
  show execPendingRewalk i s = _
  unfold execPendingRewalk
  simp only [h.at_, hf, hwalk]
  exact if_neg h.not_stays

theorem exec_pendingRewalk_fault {s u : State} {i : Nat} {r : FaultRec} {f : Flight} (h : FirstDue s i r)
    (hf : flightOf s r.desc = some f)
    (hwalk : translateUnits (flightDie f) (dPasid f.desc) r.output (unitsAt s f (r.addr / 4096)) s = (.fault, u)) :
    exec (.pendingRewalk i) s =
      .next (complete r.desc 0x20 (if r.output then 1 else 0) (rewalkLength u f) 0 (faultDrop r.desc u)) := by
  show execPendingRewalk i s = _
  unfold execPendingRewalk
  simp only [h.at_, hf, hwalk]
  exact if_neg h.not_stays

theorem unitsDrop_covers {desc : Nat} {us : List (Nat × Nat)} {u : State} {q : FaultRec}
    (hq : q ∈ (unitsDrop desc us u).xl.queue ++ (unitsDrop desc us u).xl.holding) (hkind : q.kind = 1) (hdesc : q.desc = desc)
    {w : Nat × Nat} (hw : w ∈ us) : ¬(w.1 / 4096 ≤ q.addr / 4096 ∧ q.addr / 4096 * 4096 < w.1 + w.2) := by
  intro hon
  have hleft : ¬((q.kind == 1 && q.desc == desc && us.any fun u =>
      decide (u.1 / 4096 ≤ q.addr / 4096 ∧ q.addr / 4096 * 4096 < u.1 + u.2)) = true) := by
    rcases List.mem_append.1 hq with hq | hq
    · exact Bool.not_eq_true _ |>.mpr ((Bool.not_eq_true' _).mp (List.mem_filter.1 hq).2)
    · exact Bool.not_eq_true _ |>.mpr ((Bool.not_eq_true' _).mp (List.mem_filter.1 hq).2)
  refine hleft ?_
  rw [beq_iff_eq.2 hkind, beq_iff_eq.2 hdesc, List.any_eq_true.2 ⟨w, hw, decide_eq_true hon⟩]
  rfl

/-! ## The end with a fault (R163, R366) -/

/-- A descriptor that a pending page ends carries no result but an APPEND's length. -/
theorem answered_xlate {s : State} (hs : Tbl.Rising s.led.qps) {f : Flight} {d : Nat} (hf : flightOf s d = some f)
    (hdown : steppedDown s = false) (hqp : f.qp < 1024) (out : Bool) {u : State} :
    Answered (complete d 0x20 (if out then 1 else 0) (rewalkLength u f) 0 s) f 0x20 (if out then 1 else 0)
      (if dOpcode f.desc = 2 then lengthSeen s f % 2 ^ 32 else 0) 0 := by
  have hdetail : (if out then 1 else 0) < 2 ^ 8 := by cases out <;> decide
  by_cases hop : dOpcode f.desc = 2
  · have hfinal : finalCode f 0x20 = 0x20 := rfl
    have h := answered_complete hs (rewalkLength u f) 0 (code := 0x20) hf hdown hqp (by rw [hfinal]; decide) hdetail
    have hres : entryResult s f 0x20 (rewalkLength u f) 0 = (lengthSeen s f, 0) := by simp [entryResult, hop, keepResults, hfinal, ccDeferred]
    rw [hres, hfinal] at h
    rwa [if_pos hop]
  · have hzero : rewalkLength u f = 0 := if_neg hop
    rw [hzero]
    exact answered_failed hs hf hdown hqp (by decide) rfl (by decide) hdetail

theorem exec_pendingFaultTimeout {s : State} {i : Nat} {r : FaultRec} {f : Flight} (hr : (s.xl.queue ++ s.xl.holding)[i]? = some r)
    (hkind : r.kind = 1) (hdue : r.due = false) (hf : flightOf s r.desc = some f)
    (hwins : arrivalWins (r.made + usCycles (obj s 0x2300 1)) (· == .invalidationComplete) s = false) :
    exec (.pendingFaultTimeout i) s = .next (complete r.desc 0x20 (if r.output then 1 else 0)
      (rewalkLength (countFault r.pasid (carryTo (r.made + usCycles (obj s 0x2300 1)) s)) f) 0
      (faultDrop r.desc (countFault r.pasid (carryTo (r.made + usCycles (obj s 0x2300 1)) s)))) := by
  show execPendingFaultTimeout i s = _
  unfold execPendingFaultTimeout
  simp only [hr]
  rw [if_neg (by simp [hkind, hdue]), hwins, if_neg Bool.false_ne_true]
  have hf' : flightOf (countFault r.pasid (carryTo (r.made + usCycles (obj s 0x2300 1)) s)) r.desc = some f :=
    (flightOf_of_attn (((countFault_keeps ..).step ((carryTo_keeps ..).mono) : Keeps 0x93 s _).attn rfl) _).trans hf
  rw [hf']
  rfl

/-- Settles O36, by what a record, a re-walk and a time-out leave of the queue and of the flight. -/
theorem pendingPagesStall : Obligations.PendingPagesStall := by
  unfold Obligations.PendingPagesStall
  refine ⟨fun s d page va len wr f u hf hstage hblock hwalk hroom hhold hnone => ?_, fun s r hhold hroom => ?_,
    fun s i r f ps u hr hkind hdue hfirst hf hwalk => ?_, fun s i r f u hinv hdown hr hkind hdue hfirst hf hqp hwalk => ?_,
    fun s i r f hinv hdown hr hkind hdue hf hqp hwins => ?_⟩
  · have htime : u.time = s.time := by
      have h := (translateBlock_keeps (flightDie f) (dPasid f.desc) va len wr s).time rfl
      rwa [hwalk] at h
    refine ⟨_, exec_pendingFault hf hstage hblock hwalk, ?_⟩
    rw [pendingPost_of_waiting hstage hroom hhold hnone]
    refine ⟨hhold, ?_, rfl, fun g hg hid => congrArg Flight.stage (mem_setFlight hg hid)⟩
    rw [← htime]
    rfl
  · refine ⟨_, exec_faultQueueSlotFree hhold hroom, rfl, ?_, obj_bumpObj_same ..⟩
    show s.xl.holding.erase r = []
    rw [hhold, List.erase_cons_head]
  · refine ⟨_, exec_pendingRewalk_found ⟨hr, hkind, hdue, hfirst⟩ hf hwalk, fun q hq hk hd w hw => ?_, fun hgone g hg hid => ?_⟩
    · rw [unitsFound_xl] at hq
      exact unitsDrop_covers hq hk hd hw
    · have hgone' : (pendingOf (unitsDrop r.desc (unitsAt s f (r.addr / 4096)) u) r.desc).isEmpty = true := by
        rw [pendingOf, ← unitsFound_xl r f]
        exact List.isEmpty_iff.2 hgone
      have hstate : unitsFound r f (unitsAt s f (r.addr / 4096)) u = setFlight _ _ := if_pos hgone'
      rw [hstate] at hg
      exact congrArg Flight.stage (mem_setFlight hg hid)
  · have hk : Keeps 0x604386 s (faultDrop r.desc u) := by
      have h := translateUnits_keeps (flightDie f) (dPasid f.desc) r.output (unitsAt s f (r.addr / 4096)) s
      rw [hwalk] at h
      exact (faultDrop_keeps ..).step h
    refine ⟨_, exec_pendingRewalk_fault ⟨hr, hkind, hdue, hfirst⟩ hf hwalk, ?_⟩
    have h := answered_xlate (u := u) (hk.inv hinv).led.qps ((flightOf_of_attn (hk.attn rfl) _).trans hf)
      ((steppedDown_of_span (hk.span rfl)).trans hdown) hqp r.output
    rwa [lengthSeen_of_kv (hk.kv rfl)] at h
  · generalize hdueAt : r.made + usCycles (obj s 0x2300 1) = due at hwins ⊢
    have hk : Keeps 0x4093 s (faultDrop r.desc (countFault r.pasid (carryTo due s))) :=
      (faultDrop_keeps ..).step ((countFault_keeps ..).step ((carryTo_keeps ..).mono))
    refine ⟨_, exec_pendingFaultTimeout hr hkind hdue hf (hdueAt ▸ hwins), ?_, ?_⟩
    · rw [hdueAt]
      have h := answered_xlate (u := countFault r.pasid (carryTo due s)) (hk.inv hinv).led.qps
        ((flightOf_of_attn (hk.attn rfl) _).trans hf) ((steppedDown_of_span (hk.span rfl)).trans hdown) hqp r.output
      rwa [lengthSeen_of_kv (hk.kv rfl)] at h
    · rw [complete_time, hdueAt, (faultDrop_keeps ..).time rfl, (countFault_keeps ..).time rfl]
      exact le_carryTo_cycle ..

end Sys2Proof.Machine
end

section
/-! PROOFS. Direct requests on their way: from the port past tolls and gate, the translation that fails, and the answers (R328, R352,
R447, R469, R519 to R536). -/

namespace Sys2Proof.Machine

/-! ## What a command asks -/

theorem askedBy_kaf {s : State} {p : Fin 13} {op : Nat} {m : KafMsg} {cls : RClass} {len : Nat} {r : Req}
    (h : askedBy.kaf s p op m cls len = some r) : r = kafReq p.val m cls len s ∧ m.op = op ∧
      kafArrive p.val op m cls len s = arrive r 0 s := by
  unfold askedBy.kaf at h
  split at h
  · next hc =>
    obtain ⟨hop, hup, hown⟩ := hc
    obtain rfl := Option.some.inj h
    have htransit : transit p.val m s = none := if_neg fun hn => hn.2 (hown hn.1)
    refine ⟨rfl, hop, ?_⟩
    unfold kafArrive
    rw [if_neg (by simp [hop, hup]), htransit]
  · cases h

theorem askedBy_cxl {s : State} {p : Fin 4} {op tag : Nat} {a : BitVec 57} {cls : RClass} {r : Req}
    (h : askedBy.cxl s p op tag a cls = some r) : r = cxlReq p.val op tag a.toNat cls s ∧ cxlOn s p.val = true := by
  unfold askedBy.cxl at h
  split at h
  · next hon => exact ⟨(Option.some.inj h).symm, hon⟩
  · cases h

/-- A request as it comes from its port. -/
structure Fresh (s : State) (r : Req) : Prop where
  id : r.id = s.attn.nextId
  dead : r.dead = false
  waited : r.waited = false
  remote : r.remote = []
  src : r.src < 13 ∨ 0x10 ≤ r.src ∧ r.src < 0x14
  kaf : r.src < 13 → ∀ a, r.agent = some a → a < 8
  cxl : 0x10 ≤ r.src → (∀ a, r.agent = some a → 8 ≤ a ∧ a < 12) ∧ 0x100 ≤ r.op ∧ r.op ≤ 0x104

theorem kafReq_fresh (p : Fin 13) (m : KafMsg) (cls : RClass) (len : Nat) (s : State) : Fresh s (kafReq p.val m cls len s) where
  id := rfl
  dead := rfl
  waited := rfl
  remote := rfl
  src := .inl p.isLt
  kaf := fun _ a ha => by
    have ha : (if p.val < 8 then some p.val else none) = some a := ha
    split at ha
    · next hp => obtain rfl := Option.some.inj ha; exact hp
    · cases ha
  cxl := fun h => by
    have h : 0x10 ≤ p.val := h
    have := p.isLt
    omega

theorem cxlReq_fresh (p : Fin 4) (op tag a : Nat) (cls : RClass) (s : State) (hop : 0x100 ≤ op ∧ op ≤ 0x104) :
    Fresh s (cxlReq p.val op tag a cls s) where
  id := rfl
  dead := rfl
  waited := rfl
  remote := rfl
  src := .inr ⟨Nat.le_add_right .., Nat.add_lt_add_left p.isLt _⟩
  kaf := fun h => by
    have h : 0x10 + p.val < 13 := h
    omega
  cxl := fun _ => by
    refine ⟨fun a ha => ?_, hop⟩
    have ha : (if cxl3 s p.val then some (8 + p.val) else none) = some a := ha
    split at ha
    · obtain rfl := Option.some.inj ha
      exact ⟨Nat.le_add_right .., Nat.add_lt_add_left p.isLt _⟩
    · cases ha

/-- A CXL message reaches the request's tolls where the queue of held requests has room. -/
theorem cxlArrive_of_on {s : State} {p op tag a : Nat} {cls : RClass} (hon : cxlOn s p = true) (hroom : cxlQueueFull s = false)
    (hcls : cxl3 s p = true ∨ cls ≠ .up ∧ cls ≠ .ec) : cxlArrive p op tag a cls s = arrive (cxlReq p op tag a cls s) 0 s := by
  unfold cxlArrive
  rw [if_neg (by simp [hon, hroom])]
  refine if_neg ?_
  rintro ⟨h3, hc⟩
  rcases hcls with h | ⟨hup, hec⟩
  · simp [h] at h3
  · exact hc.elim hup hec

theorem exec_cxlMemWr_plain {s : State} {p : Fin 4} (hon : cxlOn s p.val = true) (h3 : cxl3 s p.val = false) (tag : Nat) (a : BitVec 57)
    (mask : BitVec 64) (data : List Byte) (poison : Bool) : exec (.cxlMemWr p tag a mask data poison) s =
      .next (arrive { cxlReq p.val 0x104 tag a.toNat .uw s with arg := mask.toNat, data := data.take 64, poison := poison } 0 s) := by
  show execCxlMemWr p tag a mask data poison s = _
  unfold execCxlMemWr
  extract_lets q r
  rw [if_neg (by simp [q, hon])]
  split
  · next pa n u _ =>
    extract_lets line d
    exact if_neg (by simp [q, h3])
  · rfl

/-- A command that brings a request, where its port takes it: the request is new, and it arrives. -/
theorem exec_asked {s : State} {i : Instr} {r : Req} (h : askedBy s i = some r) (hroom : 13 ≤ r.src → cxlQueueFull s = false) :
    Fresh s r ∧ exec i s = .next (arrive r 0 s) := by
  have hkaf : ∀ {p : Fin 13} {op : Nat} {m : KafMsg} {cls : RClass} {len : Nat}, askedBy.kaf s p op m cls len = some r →
      Fresh s r ∧ (.next (kafArrive p.val op m cls len s) : Res) = .next (arrive r 0 s) := fun h => by
    obtain ⟨hr, -, harrive⟩ := askedBy_kaf h
    exact ⟨hr ▸ kafReq_fresh .., congrArg _ harrive⟩
  have hcxl : ∀ {p : Fin 4} {op tag : Nat} {a : BitVec 57} {cls : RClass}, askedBy.cxl s p op tag a cls = some r →
      (0x100 ≤ op ∧ op ≤ 0x104) → cxl3 s p.val = true ∨ cls ≠ .up ∧ cls ≠ .ec →
      Fresh s r ∧ (.next (cxlArrive p.val op tag a.toNat cls s) : Res) = .next (arrive r 0 s) := fun {p op tag a cls} h hop hcls => by
    obtain ⟨hr, hon⟩ := askedBy_cxl h
    have hsrc : 13 ≤ r.src := by
      rw [hr]
      exact le_trans (by decide) (Nat.le_add_right 0x10 p.val)
    exact ⟨hr ▸ cxlReq_fresh p op tag _ cls s hop, congrArg _ (hr ▸ cxlArrive_of_on hon (hroom hsrc) hcls)⟩
  unfold askedBy at h
  split at h
  · exact hkaf h
  · exact hkaf h
  · exact hkaf h
  · exact hkaf h
  · exact hkaf h
  · exact hkaf h
  · exact hkaf h
  · exact hkaf h
  · refine hcxl h (by decide) (.inr ?_)
    split
    · exact ⟨by decide, by decide⟩
    · split <;> exact ⟨by decide, by decide⟩
  · exact hcxl h (by decide) (.inr ⟨by decide, by decide⟩)
  · split at h
    · next h3 => exact hcxl h (by decide) (.inl h3)
    · cases h
  · split at h
    · next h3 => exact hcxl h (by decide) (.inl h3)
    · cases h
  · split at h
    · cases h
    · next p tag a mask data poison h3 =>
      obtain ⟨x, hx, hr⟩ := Option.map_eq_some_iff.1 h
      obtain ⟨rfl, hon⟩ := askedBy_cxl hx
      subst hr
      have hf := cxlReq_fresh p 0x104 tag a.toNat .uw s (by decide)
      exact ⟨⟨hf.id, hf.dead, hf.waited, hf.remote, hf.src, hf.kaf, hf.cxl⟩,
        exec_cxlMemWr_plain hon (Bool.eq_false_iff.2 h3) tag a mask data poison⟩
  · cases h

/-! ## Tolls and gate that let a request pass (R519, R533) -/

theorem counted_keeps (r : Req) (s : State) : Keeps 0x1082 s (counted r s) :=
  (tenantCount_keeps ..).step ((linkTally_keeps ..).step ((tookId_keeps s).mono))

/-- The counts of an arrival change no toll's fields. -/
theorem tollField_counted (r : Req) (s : State) (k : Nat) : tollField (counted r s) k 1 = tollField s k 1 := by
  have hd : (linkTally false (srcUnit r.src) (if r.src < 13 then kafSlots r.data.length else r.data.length) (tookId s)).dict = s.dict :=
    ((linkTally_keeps ..).step ((tookId_keeps s).mono) : Keeps 0x1080 s _).dict rfl
  unfold counted tenantCount
  split
  · next ht =>
    refine (obj_setObj_ne ?_ ..).trans (obj_of_dict hd ..)
    unfold tollObj okey
    split
    · dsimp only
      omega
    · split <;> (dsimp only; omega)
  · exact obj_of_dict hd ..

theorem reqColours_of_off (r : Req) {s : State} : ∀ (ks : List Nat) (cin : Nat), (∀ k ∈ ks, tollField s k 1 = 0) →
    reqColours s r ks cin = []
  | [], _, _ => rfl
  | k :: ks, _, h => (if_pos (h k (List.mem_cons_self ..))).trans
      (reqColours_of_off r ks 0 fun k' hk => h k' (List.mem_cons_of_mem _ hk))

theorem markReq_of_off {r : Req} {s : State} (h : ∀ k ∈ reqTolls r, tollField s k 1 = 0) (cin : Nat) :
    markReq r cin s = (false, [], s) := by
  unfold markReq
  rw [reqColours_of_off r _ cin h]
  rfl

theorem gateOpen_of_same {s t : State} (hshape : t.shape = s.shape) (htime : t.time = s.time) (hclk : t.clk = s.clk) (g : Nat) :
    gateOpen t g = gateOpen s g := by
  unfold gateOpen gatesOpen gatePos stepAge phaseOf
  rw [hshape, htime, hclk]

theorem gateReq_of_open {r : Req} {s : State}
    (h : ∀ g, srcGate r.src = some g → gateOpen s g = true ∧ ∀ q ∈ s.coh.reqs, q.stage ≠ .gated) : gateReq r s = serveReq r s := by
  unfold gateReq
  split
  · next g hg =>
    obtain ⟨hopen, hnone⟩ := h g hg
    have hany : (s.coh.reqs.any fun q => q.stage == .gated && srcGate q.src == some g && q.id != r.id) = false :=
      List.any_eq_false.2 fun q hq => by simp [hnone q hq]
    rw [hopen, hany]
    rfl
  · rfl

theorem sunk_of_single {s : State} (hlive : live s = true) (hone : s.span.twin = .single) : sunk s = false := by
  simp [sunk, hlive, hone]

/-- A request that nothing holds is served at once. -/
theorem arrive_unheld {s : State} {r : Req} (h : Unheld s r) : arrive r 0 s = serveReq r (counted r s) := by
  have hk := counted_keeps r s
  have hspan := hk.span rfl
  have hcoh := hk.coh rfl
  have hone : (counted r s).span.twin = .single := by rw [hspan]; exact h.single
  have hlive : live (counted r s) = true := by
    rw [live, hk.pwr rfl]
    exact h.live
  have hgone : (match r.agent with | some a => !agentUp (counted r s) a | none => false) = false := by
    split
    · next a ha =>
      rw [agentUp, hcoh]
      simp only [show (tget 0 s.coh.agents a == 1) = true from h.agent a ha, Bool.not_true]
    · rfl
  have hgate : gateReq r (counted r s) = serveReq r (counted r s) := gateReq_of_open fun g hg => by
    obtain ⟨hopen, hnone⟩ := h.gate g hg
    rw [gateOpen_of_same (hk.shape rfl) (hk.time rfl) (hk.clk rfl), hcoh]
    exact ⟨hopen, hnone⟩
  have hmark : markReq r 0 (counted r s) = (false, [], counted r s) :=
    markReq_of_off (fun k hk => (tollField_counted r s k).trans (h.tolls k hk)) 0
  unfold arrive
  extract_lets u v sp w gone served
  have hw : w = counted r s := if_neg fun hn => by
    have hp : paired (counted r s) = true := hn.1
    simp [paired, hone] at hp
  have hpass : (gone || sunk w) = false := by
    rw [show gone = (match r.agent with | some a => !agentUp w a | none => false) from rfl, hw, hgone, sunk_of_single hlive hone]
    rfl
  clear_value w gone
  subst hw
  rw [hpass, if_neg Bool.false_ne_true, if_neg (by rw [hone]; decide), hmark]
  exact hgate

/-- A command that brings a request which nothing holds: it is served. -/
theorem exec_unheld {s : State} {i : Instr} {r : Req} (hi : askedBy s i = some r) (h : Unheld s r) :
    Fresh s r ∧ exec i s = .next (serveReq r (counted r s)) := by
  obtain ⟨hf, he⟩ := exec_asked hi h.room
  exact ⟨hf, he.trans (congrArg _ (arrive_unheld h))⟩

/-! ## Answers (R469) -/

theorem sends_of_links {s t : State} (h : t.links = s.links) (l : Nat) : sends t l = sends s l := by
  simp only [sends, linkUp_of_links h, linkOf_of_links h]

theorem mem_emit (o : Out) (s : State) : o ∈ (emit o s).out := List.mem_append_right _ (List.mem_singleton_self o)

/-- A message on a link that carries messages goes out at once. -/
theorem sendFor_out {s : State} {l : Nat} (h : sends s l = true) (tenant : Nat) (m : KafMsg) : .kaf l m ∈ (sendFor l tenant m s).out := by
  obtain ⟨hup, hoff⟩ := Bool.and_eq_true_iff.1 h
  have hvc : vcOff (linkOf s l) m = false := by
    unfold vcOff
    split
    · simp [bitAt, beq_iff_eq.1 hoff]
    · rfl
  unfold sendFor
  rw [hup, hvc]
  show _ ∈ (sendNow l tenant m s).out
  have hout : (sendNow l tenant m s).out = (emit (.kaf l m) s).out := by
    unfold sendNow
    extract_lets u
    have hu : u.out = (emit (.kaf l m) s).out :=
      (show Keeps 0x20080 (emit (.kaf l m) s) u from (setLink_keeps ..).step ((linkTally_keeps ..).mono)).out rfl
    split
    · exact hu
    · exact hu
  rw [hout]
  exact mem_emit ..

theorem kafAnswer_out {s : State} {r : Req} (h : sends s r.src = true) (op code delay : Nat) (data : List Byte) :
    .kaf r.src { kafOf op with tag := r.tag, code := code, delay := delay, srcDev := r.srcDev, data := data } ∈
      (kafAnswer r op code delay data s).out := by
  unfold kafAnswer
  extract_lets u
  have hu := sendFor_out h r.tenant { kafOf op with tag := r.tag, code := code, delay := delay, srcDev := r.srcDev, data := data }
  split
  · rw [(bucketAdd_keeps ..).out rfl]
    exact hu
  · exact hu

/-- What the end of a request changes once it is dropped. -/
theorem answerFail_dropped (r : Req) (code : Nat) (s : State) : Keeps 0x3A0082 (dropReq r.id s) (answerFail r code s) := by
  unfold answerFail
  extract_lets u v w
  have hv : Keeps 0x3A0082 (dropReq r.id s) v := by
    unfold v
    split
    · exact (bumpObj_keeps ..).step ((noteAnswer_keeps ..).mono)
    · exact (noteAnswer_keeps ..).mono
  split
  · exact hv
  · split
    · exact (kafAnswer_keeps ..).step hv
    · split
      · have hw : Keeps 0x3A0082 (dropReq r.id s) w := (upError_keeps ..).step hv
        split
        · exact (emit_keeps ..).step hw
        · exact (emit_keeps ..).step hw
      · exact (roceNak_keeps ..).step hv

theorem answerDone_dropped (r : Req) (grant : Nat) (data : List Byte) (s : State) :
    Keeps 0x320082 (dropReq r.id s) (answerDone r grant data s) := by
  unfold answerDone
  extract_lets u cc p st q
  have hu : Keeps 0x320082 (dropReq r.id s) u := (noteAnswer_keeps ..).mono
  split
  · exact hu
  · split
    · split
      · exact (kafAnswer_keeps ..).step hu
      · split
        · exact (kafAnswer_keeps ..).step hu
        · split
          · exact (kafAnswer_keeps ..).step hu
          · split
            · exact (kafAnswer_keeps ..).step hu
            · exact (kafAnswer_keeps ..).step hu
    · split
      · refine (linkTally_keeps ..).step ?_
        split
        · exact (emit_keeps ..).step hu
        · exact (emit_keeps ..).step hu
      · exact (linkTally_keeps ..).step ((emit_keeps ..).step hu)

theorem dropReq_coh (id : Nat) (s : State) : (dropReq id s).coh = { s.coh with reqs := s.coh.reqs.filter fun q => q.id != id } :=
  (tollLeave_keeps ..).coh rfl

theorem reqOf_dropReq {id : Nat} {s t : State} (h : t.coh = (dropReq id s).coh) : reqOf t id = none := by
  unfold reqOf
  rw [h, dropReq_coh]
  exact List.find?_eq_none.2 fun q hq => by simpa using (List.mem_filter.1 hq).2

theorem steppedDown_of_single {s : State} (h : s.span.twin = .single) : steppedDown s = false := by simp [steppedDown, h]

/-- A request of a pier that fails is told so (R469). -/
theorem answerFail_out {s : State} {r : Req} (hdead : r.dead = false) (hdown : steppedDown s = false) (hsrc : r.src < 13)
    (hsends : sends s r.src = true) (code : Nat) :
    .kaf r.src { kafOf 0x20 with tag := r.tag, srcDev := r.srcDev, code := code } ∈ (answerFail r code s).out := by
  unfold answerFail
  extract_lets u v w
  have hv : Keeps 0xA082 s v := by
    unfold v
    split
    · exact (bumpObj_keeps ..).step ((noteAnswer_keeps ..).step ((dropReq_keeps ..).mono))
    · exact (noteAnswer_keeps ..).step ((dropReq_keeps ..).mono)
  rw [hdead, steppedDown_of_span (hv.span rfl), hdown, if_neg (by decide), if_pos hsrc]
  exact kafAnswer_out ((sends_of_links (hv.links rfl) _).trans hsends) 0x20 code 0 []

/-! ## Addresses beyond 57 bits (R352, R447) -/

theorem placeReq_of_long {r : Req} (hsrc : r.src < 8) (haddr : 2 ^ 57 ≤ r.addr) (s : State) : placeReq r s = (.fail, s) := by
  unfold placeReq
  rw [if_neg (by omega), if_pos (.inr haddr)]

theorem serveReq_of_long {r : Req} (hsrc : r.src < 8) (haddr : 2 ^ 57 ≤ r.addr) (s : State) :
    serveReq r s = answerFail r (xlateCode s r.tenant) s := by
  have hport : portFails s r = false := if_neg (by omega)
  unfold serveReq
  rw [hport, if_neg Bool.false_ne_true, placeReq_of_long hsrc haddr]
  rfl

theorem serveWb_of_long {r : Req} (hsrc : r.src < 8) (haddr : 2 ^ 57 ≤ r.addr) (s : State) :
    serveWb r s = answerFail r (xlateCode s r.tenant) s := by
  unfold serveWb
  rw [placeReq_of_long hsrc haddr]
  rfl

theorem xlateCode_of_led {s t : State} (h : t.led = s.led) (n : Nat) : xlateCode t n = xlateCode s n := by
  simp only [xlateCode, tenantOf_of_led h]

/-- A WbDirty at a device that answers and is no twin. -/
theorem exec_wbDirty {s : State} {port : Fin 13} {m : KafMsg} (hport : port.val < 8) (hop : m.op = 0x16) (hup : linkUp s port.val = true)
    (hagent : agentUp s port.val = true) (hlive : live s = true) (hone : s.span.twin = .single) : exec (.wbDirty port m) s =
      .next (serveWb (kafReq port.val m .wb 64 s) (linkTally false port.val 96 (tookId s))) := by
  have hspan : (linkTally false port.val 96 (tookId s)).span = s.span :=
    ((linkTally_keeps ..).step ((tookId_keeps s).mono) : Keeps 0x1080 s _).span rfl
  have hhome : homeActive (linkTally false port.val 96 (tookId s)) = true := by
    rw [homeActive, hspan, hone]
  show execWbDirty port m s = _
  unfold execWbDirty
  dsimp only
  rw [if_neg (by simp [hop, hup, hagent, sunk_of_single hlive hone, hone, hport]), hhome]
  rfl

/-- Settles O35: the translation of such an address fails, and the failure's answer goes out with the code. -/
theorem longAddressesFault : Obligations.LongAddressesFault := by
  unfold Obligations.LongAddressesFault
  refine ⟨fun s i r hi hu hsrc haddr => ?_, fun s port m hport hop hsends hagent hlive hone haddr => ?_⟩
  · obtain ⟨hf, he⟩ := exec_unheld hi hu
    have hk := counted_keeps r s
    refine ⟨_, he, ?_⟩
    rw [serveReq_of_long hsrc haddr, xlateCode_of_led (hk.led rfl)]
    refine ⟨reqOf_dropReq ((answerFail_dropped ..).coh rfl), ((answerFail_keeps ..).mem rfl).trans (hk.mem rfl), ?_⟩
    exact answerFail_out hf.dead (steppedDown_of_single (by rw [hk.span rfl]; exact hu.single)) (by omega)
      ((sends_of_links (hk.links rfl) _).trans (hu.sends (by omega))) _
  · have hk : Keeps 0x1080 s (linkTally false port.val 96 (tookId s)) := (linkTally_keeps ..).step ((tookId_keeps s).mono)
    refine ⟨_, exec_wbDirty hport hop (Bool.and_eq_true_iff.1 hsends).1 hagent hlive hone, ?_⟩
    rw [serveWb_of_long hport haddr, xlateCode_of_led (hk.led rfl)]
    refine ⟨((answerFail_keeps ..).mem rfl).trans (hk.mem rfl), ?_⟩
    exact answerFail_out (r := kafReq port.val m .wb 64 s) rfl (steppedDown_of_single (by rw [hk.span rfl]; exact hone))
      (lt_trans hport (by decide)) ((sends_of_links (hk.links rfl) _).trans hsends) _

end Sys2Proof.Machine
end

section
/-! PROOFS. Requests that pass their checks: the access, the lock of a line that is free, and the answer (R329 to R341, R469). -/

namespace Sys2Proof.Machine

/-! ## What the checks read -/

theorem memCode_of_same {s t : State} (hmem : t.mem = s.mem) (hled : t.led = s.led) (hmint : t.mint = s.mint) (hhbm : t.hbm = s.hbm)
    (a n : Nat) : memCode t a n = memCode s a n := by
  unfold memCode readCode plainCode mediaCode outerCode sectorCode lineCode macOn slotState pcBad linesIn extOf keysOf
  rw [hmem, hled, hmint, hhbm]

theorem partCode_of_same {s t : State} (hmem : t.mem = s.mem) (hled : t.led = s.led) (hmint : t.mint = s.mint) (hhbm : t.hbm = s.hbm)
    (a n mask : Nat) : partCode t a n mask = partCode s a n mask := by
  unfold partCode writesBlind plainCode mediaCode outerCode sectorCode lineCode macOn slotState pcBad linesIn extOf keysOf
  rw [hmem, hled, hmint, hhbm]

theorem cohMode_of_led {s t : State} (h : t.led = s.led) (a : Nat) : cohMode t a = cohMode s a := by
  simp only [cohMode, extOf_of_led h]

theorem ownIndex_of_dict {s t : State} (h : t.dict = s.dict) : ownIndex t = ownIndex s := obj_of_dict h ..

/-! ## One piece on this device -/

theorem ownPieces_one {s : State} {a : Nat} (ha : a < 2 ^ 52) (n : Nat) : ownPieces s [(ownIndex s * 2 ^ 52 + a, n)] = [(a, n)] := by
  have hdiv : (ownIndex s * 2 ^ 52 + a) / 2 ^ 52 = ownIndex s := by omega
  have hmod : (ownIndex s * 2 ^ 52 + a) % 2 ^ 52 = a := by omega
  unfold ownPieces
  rw [List.filter_cons_of_pos (by rw [hdiv]; exact beq_self_eq_true _), List.filter_nil, List.map_cons, hmod]
  rfl

theorem linesOf_line (line : Nat) : linesOf (line * 64) 64 = [line] := by
  have h1 : line * 64 / 64 = line := by omega
  have h2 : (line * 64 + 64 + 63) / 64 - line * 64 / 64 = 1 := by omega
  unfold linesOf
  rw [h2, h1]
  simp

theorem trackedLines_line {s : State} {line : Nat} (ha : line * 64 < 2 ^ 52) (hmode : cohMode s (line * 64) = 1) :
    trackedLines s [(ownIndex s * 2 ^ 52 + line * 64, 64)] = [line] := by
  have hdiv : (ownIndex s * 2 ^ 52 + line * 64) / 2 ^ 52 = ownIndex s := by omega
  have hmod : (ownIndex s * 2 ^ 52 + line * 64) % 2 ^ 52 = line * 64 := by omega
  unfold trackedLines
  rw [List.flatMap_cons, hmod, if_pos ⟨hdiv, hmode⟩, linesOf_line]
  rfl

theorem cacheMissing_near {s : State} {a : Nat} (ha : a < 2 ^ 52) (hnear : tierOf a ≠ 3) (n : Nat) : cacheMissing s [(a, n)] = [] := by
  unfold cacheMissing
  rw [List.flatMap_cons, Nat.mod_eq_of_lt ha, if_neg hnear]
  rfl

theorem cacheReady_near {s : State} {p : Nat × Nat} (hnear : tierOf (p.1 % 2 ^ 52) ≠ 3) (write : Bool) :
    cacheReady [p] write s = some s := by
  unfold cacheReady
  rw [List.flatMap_cons]
  dsimp only
  rw [if_neg hnear]
  rfl

/-! ## The state in which a request is served -/

/-- The request with its pieces. -/
def Req.placedAt (r : Req) (u : State) (ps : List (Nat × Nat)) : Req := { r with pieces := ps, gen := u.xl.gen, lines := [] }

/-- The request with its one piece on this device. -/
def Req.placed (r : Req) (u : State) (a : Nat) : Req := r.placedAt u [(ownIndex u * 2 ^ 52 + a, r.len)]

/-- No line counts as read ahead any more. -/
def freshless (u : State) : State := u.setCoh fun c => { c with fresh := [] }

theorem serveReq_of_own {r : Req} {s u : State} {ps : List (Nat × Nat)} (hport : portFails s r = false) (hplace : placeReq r s = (.at_ ps, u))
    (hcheck : checkReq (freshless u) (r.placedAt u ps) (ownPieces (freshless u) ps) = 0)
    (hall : (ps.all fun p => p.1 / 2 ^ 52 == ownIndex (noteCheck (r.placedAt u ps) 0 (freshless u))) = true) :
    serveReq r s = serveLocal (r.placedAt u ps) (noteCheck (r.placedAt u ps) 0 (freshless u)) := by
  unfold serveReq
  rw [hport, if_neg Bool.false_ne_true, hplace]
  show (if checkReq (freshless u) (r.placedAt u ps) (ownPieces (freshless u) ps) ≠ 0 then _ else _) = _
  rw [if_neg (fun hn => hn hcheck)]
  show (if (ps.all fun p => p.1 / 2 ^ 52 == ownIndex (noteCheck (r.placedAt u ps)
    (checkReq (freshless u) (r.placedAt u ps) (ownPieces (freshless u) ps)) (freshless u))) = true then
      serveLocal (r.placedAt u ps) (noteCheck (r.placedAt u ps) (checkReq (freshless u) (r.placedAt u ps) (ownPieces (freshless u) ps)) (freshless u))
      else _) = _
  rw [hcheck]
  exact if_pos hall

/-- The state in which a request that has passed its checks is served. -/
def passed (r : Req) (a : Nat) (u : State) : State := noteCheck (r.placed u a) 0 (freshless u)

theorem passed_tal (r : Req) (a : Nat) (u : State) : Keeps 0x80 (freshless u) (passed r a u) :=
  noteCheck_keeps ..

/-- What a translation that ends well leaves. -/
theorem Seen.keeps {s u : State} {r : Req} {a : Nat} (h : Seen s r a u) : Keeps 0x605386 s u := by
  have hp := placeReq_keeps r (counted r s)
  rw [h.place] at hp
  exact hp.step ((counted_keeps r s).mono)

theorem Seen.coh {s u : State} {r : Req} {a : Nat} (h : Seen s r a u) : (passed r a u).coh = { s.coh with fresh := [] } := by
  rw [(passed_tal r a u).coh rfl, ← h.keeps.coh rfl]
  rfl

/-- The parts that a request's way to its access leaves. -/
structure OnTheWay (s v : State) : Prop where
  led : v.led = s.led
  links : v.links = s.links
  span : v.span = s.span
  mint : v.mint = s.mint
  time : v.time = s.time
  bytes : v.mem.bytes = s.mem.bytes

theorem Seen.onTheWay {s u : State} {r : Req} {a : Nat} (h : Seen s r a u) : OnTheWay s (passed r a u) where
  led := ((passed_tal r a u).led rfl).trans (h.keeps.led rfl)
  links := ((passed_tal r a u).links rfl).trans (h.keeps.links rfl)
  span := ((passed_tal r a u).span rfl).trans (h.keeps.span rfl)
  mint := ((passed_tal r a u).mint rfl).trans (h.keeps.mint rfl)
  time := ((passed_tal r a u).time rfl).trans (h.keeps.time rfl)
  bytes := ((passed_tal r a u).bytes rfl).trans (h.keeps.bytes rfl)

theorem checkReq_placed (r : Req) (u : State) (a : Nat) (ps : List (Nat × Nat)) :
    checkReq (freshless u) (r.placed u a) ps = checkReq u r ps := rfl

theorem serveReq_of_seen {s u : State} {r : Req} {a : Nat} (h : Seen s r a u) :
    serveReq r (counted r s) = serveLocal (r.placed u a) (passed r a u) := by
  refine serveReq_of_own h.port h.place ?_ ?_
  · have hown : ownPieces (freshless u) [(ownIndex u * 2 ^ 52 + a, r.len)] = [(a, r.len)] := ownPieces_one h.low _
    rw [hown]
    exact (checkReq_placed r u a _).trans h.check
  · have hidx : ownIndex (passed r a u) = ownIndex u := ownIndex_of_dict ((passed_tal r a u).dict rfl)
    have hlow := h.low
    have hdiv : (ownIndex u * 2 ^ 52 + a) / 2 ^ 52 = ownIndex u := by omega
    exact List.all_eq_true.2 fun p hp => by
      rw [List.mem_singleton.1 hp, hdiv]
      exact beq_iff_eq.2 hidx.symm

/-- Past the check, near memory: the lines, or the access. -/
theorem serveLocal_near {u v : State} {r : Req} {a : Nat} (hidx : ownIndex v = ownIndex u) (ha : a < 2 ^ 52) (hnear : tierOf a ≠ 3) :
    serveLocal (r.placed u a) v =
      if cohMode v a = 1 then tryLock { r.placed u a with lines := trackedLines v (r.placed u a).pieces } v
      else if r.cls = .ec then answerDone (r.placed u a) 0 [] v
      else if cohMode v a = 2 ∧ isWrite r = true then tryLock { r.placed u a with lines := [(a, r.len)].flatMap fun p => linesOf p.1 p.2 } v
      else (performReq (r.placed u a) (if cohMode v a = 2 ∧ r.cls = .rs then 1 else 0) v).2 := by
  have hmod : (ownIndex u * 2 ^ 52 + a) % 2 ^ 52 = a := by omega
  have hdiv : (ownIndex u * 2 ^ 52 + a) / 2 ^ 52 = ownIndex u := by omega
  have hown : ownPieces v (r.placed u a).pieces = [(a, r.len)] := by
    show ownPieces v [(ownIndex u * 2 ^ 52 + a, r.len)] = _
    rw [← hidx]
    exact ownPieces_one ha _
  have hready : (cacheReady ((r.placed u a).pieces.filter fun p => p.1 / 2 ^ 52 == ownIndex v) (isWrite (r.placed u a)) v).getD v = v := by
    have hfilter : ((r.placed u a).pieces.filter fun p => p.1 / 2 ^ 52 == ownIndex v) = [(ownIndex u * 2 ^ 52 + a, r.len)] :=
      List.filter_cons_of_pos (by rw [hdiv, hidx]; exact beq_self_eq_true _)
    rw [hfilter, cacheReady_near (by rw [hmod]; exact hnear)]
    rfl
  unfold serveLocal
  dsimp only
  rw [hown, cacheMissing_near ha hnear, hready]
  rfl

/-! ## The answer of a request that ends well -/

/-- The message that ends a request well. -/
def doneMsg (r : Req) (grant : Nat) (data : List Byte) : Out :=
  if r.src < 13 then
    if r.op = 0x40 then .kaf r.src { kafOf 0x42 with tag := r.tag, srcDev := r.srcDev, data := data }
    else if r.op = 0x48 then .kaf r.src { kafOf 0x4A with tag := r.tag, srcDev := r.srcDev, data := data }
    else if r.op = 0x49 ∨ r.op = 0x41 ∨ r.op = 0x14 ∨ r.op = 0x15 ∨ r.op = 0x16 then .kaf r.src { kafOf 0x1E with tag := r.tag, srcDev := r.srcDev }
    else .kaf r.src { kafOf (if grant = 0 then 0x1C else 0x17 + grant) with tag := r.tag, srcDev := r.srcDev, data := data }
  else .cxl (r.src - 0x10) (if data.isEmpty then 0 else 1) r.tag (if grant = 0 then 0 else if grant ≤ 2 then 1 else 2) data

/-- What a new request's sender needs to hear of its end. -/
structure Heard (s : State) (r : Req) : Prop where
  dead : r.dead = false
  waited : r.waited = false
  src : r.src < 0x14
  sends : r.src < 13 → sends s r.src = true
  single : s.span.twin = .single

theorem answerDone_out {s : State} {r : Req} (h : Heard s r) {grant : Nat} (hgrant : grant ≠ 5) (data : List Byte) :
    doneMsg r grant data ∈ (answerDone r grant data s).out := by
  unfold answerDone
  extract_lets u cc p st q
  have hu : Keeps 0xA082 s u := (noteAnswer_keeps ..).step ((dropReq_keeps ..).mono)
  have hcc : cc = 0 := if_neg (by rw [h.waited]; decide)
  have hsends : r.src < 13 → sends u r.src = true := fun hs => (sends_of_links (hu.links rfl) _).trans (h.sends hs)
  rw [h.dead, steppedDown_of_single (by rw [hu.span rfl]; exact h.single), if_neg (by decide), hcc]
  unfold doneMsg
  by_cases hsrc : r.src < 13
  · rw [if_pos hsrc, if_pos hsrc]
    by_cases h40 : r.op = 0x40
    · rw [if_pos h40, if_pos h40]
      exact kafAnswer_out (hsends hsrc) ..
    rw [if_neg h40, if_neg h40]
    by_cases h48 : r.op = 0x48
    · rw [if_pos h48, if_pos h48]
      exact kafAnswer_out (hsends hsrc) ..
    rw [if_neg h48, if_neg h48]
    by_cases hw : r.op = 0x49 ∨ r.op = 0x41 ∨ r.op = 0x14 ∨ r.op = 0x15 ∨ r.op = 0x16
    · rw [if_pos hw, if_pos hw]
      exact kafAnswer_out (hsends hsrc) ..
    rw [if_neg hw, if_neg hw, if_neg hgrant]
    exact kafAnswer_out (hsends hsrc) ..
  · rw [if_neg hsrc, if_neg hsrc, if_pos h.src, (linkTally_keeps ..).out rfl]
    by_cases hd : data.isEmpty = true
    · rw [if_pos hd, if_pos hd, List.isEmpty_iff.1 hd]
      exact mem_emit ..
    · rw [if_neg hd, if_neg hd]
      exact mem_emit ..

/-- The message that ends a read or an acquisition. -/
theorem dataOut_eq {r : Req} (hop : r.src < 13 → 0x10 ≤ r.op ∧ r.op ≤ 0x13 ∨ r.op = 0x40) {data : List Byte} (hdata : data ≠ [])
    (grant : Nat) : dataOut r grant data = doneMsg r grant data := by
  unfold dataOut doneMsg
  by_cases hsrc : r.src < 13
  · rw [if_pos hsrc, if_pos hsrc]
    by_cases h40 : r.op = 0x40
    · rw [if_pos h40, if_pos h40]
    · have h := hop hsrc
      have h48 : ¬r.op = 0x48 := by omega
      have hw : ¬(r.op = 0x49 ∨ r.op = 0x41 ∨ r.op = 0x14 ∨ r.op = 0x15 ∨ r.op = 0x16) := by omega
      rw [if_neg h40, if_neg h40, if_neg h48, if_neg hw]
  · have hd : data.isEmpty = false := Bool.eq_false_iff.2 fun h => hdata (List.isEmpty_iff.1 h)
    rw [if_neg hsrc, if_neg hsrc, hd]
    rfl

/-- The message that ends a write, an eviction or an invalidation. -/
theorem doneOut_eq {r : Req} (hop : r.src < 13 → r.op = 0x41 ∨ r.op = 0x14 ∨ r.op = 0x15 ∨ r.op = 0x16) {grant : Nat}
    (hgrant : grant = 0 ∨ 2 < grant) : doneOut r grant = doneMsg r grant [] := by
  unfold doneOut doneMsg
  by_cases hsrc : r.src < 13
  · have h := hop hsrc
    have h40 : ¬r.op = 0x40 := by omega
    have h48 : ¬r.op = 0x48 := by omega
    have hw : r.op = 0x49 ∨ r.op = 0x41 ∨ r.op = 0x14 ∨ r.op = 0x15 ∨ r.op = 0x16 := by omega
    rw [if_pos hsrc, if_pos hsrc, if_neg h40, if_neg h48, if_pos hw]
  · rw [if_neg hsrc, if_neg hsrc]
    rcases hgrant with h | h
    · rw [h]
      rfl
    · have h2 : ¬grant ≤ 2 := by omega
      rw [if_neg h2]
      rfl

end Sys2Proof.Machine
end

section
/-! PROOFS. The access of a request whose lines are its own (R294, R301 to R304, R341, R594). -/

namespace Sys2Proof.Machine

/-! ## Bytes stored (R301) -/

theorem mread_ne_nil (m : List Host.Cell) (a : Nat) {n : Nat} (hn : n ≠ 0) : mread m a n ≠ [] := by
  cases n with
  | zero => exact absurd rfl hn
  | succ n => exact List.cons_ne_nil _ _

theorem memStore_bytes (a mask : Nat) (bs : List Byte) (poison : Bool) (s : State) :
    (memStore a mask bs poison s).mem.bytes = mwriteMask s.mem.bytes a mask bs := by
  unfold memStore
  extract_lets n u
  have hu : u.mem.bytes = s.mem.bytes :=
    (Keeps.foldl (P := 0x100) (.refl _ _) fun t i h => by
      extract_lets l lo hi m
      split
      · exact h
      · exact (writeMeta_keeps ..).step h : Keeps 0x100 s u).bytes rfl
  have htally : (tallyMem true a n (u.setMem fun k => { k with bytes := mwriteMask k.bytes a mask bs })).mem =
    (u.setMem fun k => { k with bytes := mwriteMask k.bytes a mask bs }).mem := (tallyMem_keeps ..).mem rfl
  rw [htally]
  exact congrArg (mwriteMask · a mask bs) hu

theorem storeReq_one {r : Req} {s : State} {pa n : Nat} (hpieces : r.pieces = [(pa, n)]) (hown : pa / 2 ^ 52 = ownIndex s)
    (hlen : n = r.data.length) : (storeReq r s).mem.bytes =
      mwriteMask s.mem.bytes (pa % 2 ^ 52) (writeMask r r.data.length % 2 ^ n) r.data := by
  unfold storeReq
  rw [(tenantCount_keeps ..).mem rfl, hpieces]
  dsimp only [List.foldl_cons, List.foldl_nil]
  rw [if_pos hown, hlen, List.take_length]
  exact memStore_bytes ..

/-! ## The access -/

/-- What follows a read or a write of this device's memory leaves the parts that the request's end looks at. -/
theorem OnTheWay.keeps {s v w : State} (h : OnTheWay s v) (hw : Keeps 0x208386 v w) : OnTheWay s w where
  led := (hw.led rfl).trans h.led
  links := (hw.links rfl).trans h.links
  span := (hw.span rfl).trans h.span
  mint := (hw.mint rfl).trans h.mint
  time := (hw.time rfl).trans h.time
  bytes := (hw.bytes rfl).trans h.bytes

theorem readReq_one {r : Req} {v : State} {pa n : Nat} (hown : pa / 2 ^ 52 = ownIndex v) (hcode : memCode v (pa % 2 ^ 52) n = 0) :
    readReq v r [(pa, n)] = (0, mread v.mem.bytes (pa % 2 ^ 52) n) := by
  unfold readReq
  dsimp only
  rw [if_pos hown, hcode]
  dsimp only [readReq]
  rw [if_pos rfl, List.append_nil]

/-- An access that reads well is answered with its bytes. -/
theorem performReq_read {r : Req} {v : State} {pa n grant : Nat} (hpieces : r.pieces = [(pa, n)]) (hown : pa / 2 ^ 52 = ownIndex v)
    (hread : isWrite r = false) (hcode : memCode v (pa % 2 ^ 52) n = 0) : performReq r grant v =
      (0, answerDone r grant (mread v.mem.bytes (pa % 2 ^ 52) n) (noteReq r (ownPieces v r.pieces) v)) := by
  unfold performReq
  rw [hread, if_neg Bool.false_ne_true, hpieces, readReq_one hown hcode]
  rfl

/-- An access that writes well is answered. -/
theorem performReq_write {r : Req} {v : State} {grant : Nat} (hwrite : isWrite r = true) (hcode : writeCode v r (ownPieces v r.pieces) = 0)
    (hone : v.span.twin = .single) : performReq r grant v =
      (0, answerDone r 0 [] (storeReq r (noteWrites r (ownPieces v r.pieces) v))) := by
  have hrelay : relays (storeReq r (noteWrites r (ownPieces v r.pieces) v)) r = false := by
    have hspan : (storeReq r (noteWrites r (ownPieces v r.pieces) v)).span = v.span :=
      ((storeReq_keeps ..).step ((noteWrites_keeps ..).mono) : Keeps 0x1200386 v _).span rfl
    simp [relays, paired, hspan, hone]
  unfold performReq
  dsimp only
  rw [if_pos hwrite, hcode, if_neg (by decide), hrelay, if_neg Bool.false_ne_true]

end Sys2Proof.Machine
end

section
/-! PROOFS. The lock of a line that is free, the transaction that needs no snoop, and its end (R330, R331, R336, R341). -/

namespace Sys2Proof.Machine

theorem isWrite_of {r : Req} (h : r.cls = .rs ∨ r.cls = .ro ∨ r.cls = .up) : isWrite r = false := by
  rcases h with h | h | h <;> simp [isWrite, h]

/-! ## No transaction is open -/

theorem locked_of_none {s : State} (h : s.coh.txns = []) (l : Nat) : locked s l = false := by simp [locked, h]

theorem waysTaken_of_none {s : State} (h : s.coh.txns = []) (set : Nat) :
    waysTaken s set = (s.coh.dir.filter fun p => dirSet p.1 == set).length := by simp [waysTaken, h]

section
variable {q : Req} {v : State} {line : Nat} (hlines : q.lines = [line]) (hone : v.span.twin = .single) (htxns : v.coh.txns = [])
  (hreqs : ∀ x ∈ v.coh.reqs, x.stage ≠ .locked)
include hlines hone htxns hreqs

/-- A line that no transaction and no waiting request holds: its lock can be taken. -/
theorem tryLock_free : ¬(!homeActive v) = true ∧
    (q.lines.any (locked v) || v.coh.reqs.any fun x => x.id < q.id && x.stage == .locked && x.lines.any q.lines.contains) = false := by
  have hnone : (v.coh.reqs.any fun x => x.id < q.id && x.stage == .locked && x.lines.any q.lines.contains) = false :=
    List.any_eq_false.2 fun x hx => by simp [hreqs x hx]
  refine ⟨by simp [homeActive, hone], ?_⟩
  rw [hnone, hlines, List.any_cons, locked_of_none htxns]
  rfl

/-- EC removes its requester from the line at once. -/
theorem tryLock_evict {a : Nat} (hcls : q.cls = .ec) (ha : q.agent = some a) :
    tryLock q v = answerDone q 0 [] (setDir line (dropAgent a (dirOf v line)) v) := by
  obtain ⟨hhome, hlock⟩ := tryLock_free hlines hone htxns hreqs
  have hpaired : paired (answerDone q 0 [] (setDir line (dropAgent a (dirOf v line)) v)) = false := by
    have hspan : (answerDone q 0 [] (setDir line (dropAgent a (dirOf v line)) v)).span.twin = v.span.twin :=
      ((answerDone_keeps ..).step ((setDir_keeps ..).mono) : Keeps 0x32A082 v _).twin rfl
    simp [paired, hspan, hone]
  unfold tryLock
  extract_lets l
  have hl : l = line := by
    show q.lines.headD 0 = line
    rw [hlines]
    rfl
  rw [if_neg hhome, hlock, if_neg Bool.false_ne_true, if_pos hcls, ha, hl]
  dsimp only
  unfold twinLog
  rw [hpaired]
  rfl

/-- A class that needs the line's entry takes the lock where a way is free. -/
theorem tryLock_start (hcls : q.cls ≠ .ec) (hways : (v.coh.dir.filter fun p => dirSet p.1 == dirSet line).length < 16) :
    tryLock q v = startTxn q v := by
  obtain ⟨hhome, hlock⟩ := tryLock_free hlines hone htxns hreqs
  unfold tryLock
  extract_lets l
  have hl : l = line := by
    show q.lines.headD 0 = line
    rw [hlines]
    rfl
  have hroom : ¬(2048 ≤ slotsUsed v (bitsOf (l * 64) 12 12) ∨ (paired v = true ∧ 1048576 < v.span.logBytes + 83)) := by
    simp [slotsUsed, htxns, paired, hone]
  have hway : ¬(needsWay q = true ∧ (dirOf v l).st = 0 ∧ 16 ≤ waysTaken v (dirSet l)) := by
    rintro ⟨-, -, h⟩
    rw [waysTaken_of_none htxns, hl] at h
    omega
  rw [if_neg hhome, hlock, if_neg Bool.false_ne_true, if_neg hcls, if_neg hroom, if_neg hway]

end

/-! ## A transaction without snoops -/

/-- The transaction of a request on a line in state I. -/
def plainTxn (id n line : Nat) : Txn := { newTxn (.req id) [line] with id := n }

/-- The state in which that transaction ends. -/
def txnClosed (line : Nat) (w : State) : State := w.setCoh fun c => { c with
  txns := [], nextTxn := c.nextTxn + 1, freed := tins (c.freed.filter fun p => p.2 == w.time.cycle) line w.time.cycle }

theorem settle_plain {w : State} (h : w.coh.txns = []) (id line fwdAgent fwdTag : Nat) :
    settle (openTxn (newTxn (.req id) [line]) [] fwdAgent fwdTag w) =
      finishReq (plainTxn id w.coh.nextTxn line) id (txnClosed line w) := by
  have hopen : openTxn (newTxn (.req id) [line]) [] fwdAgent fwdTag w =
      w.setCoh fun c => { c with txns := [plainTxn id c.nextTxn line], nextTxn := c.nextTxn + 1 } := by
    exact congrArg (fun l => w.setCoh fun c => { c with txns := l ++ [plainTxn id c.nextTxn line], nextTxn := c.nextTxn + 1 }) h
  have hgone : ([plainTxn id w.coh.nextTxn line].filter fun q => q.id != (plainTxn id w.coh.nextTxn line).id) = [] :=
    List.filter_cons_of_neg (by simp)
  rw [hopen]
  show finishTxn (plainTxn id w.coh.nextTxn line)
    (w.setCoh fun c => { c with txns := [plainTxn id c.nextTxn line], nextTxn := c.nextTxn + 1 }) = _
  unfold finishTxn
  extract_lets x
  have hx : x = txnClosed line w := congrArg (fun l => w.setCoh fun c => { c with
    txns := l, nextTxn := c.nextTxn + 1, freed := tins (c.freed.filter fun p => p.2 == w.time.cycle) line w.time.cycle }) hgone
  rw [hx]
  rfl

theorem setReq_txns (q : Req) (v : State) : (setReq q v).coh.txns = v.coh.txns ∧ (setReq q v).coh.nextTxn = v.coh.nextTxn ∧
    (setReq q v).coh.dir = v.coh.dir := by
  unfold setReq State.setCoh
  dsimp only
  split <;> exact ⟨rfl, rfl, rfl⟩

/-- A new request, kept. -/
theorem reqOf_setReq_new {q : Req} {v : State} (h : ∀ x ∈ v.coh.reqs, x.id ≠ q.id) : reqOf (setReq q v) q.id = some q := by
  have hany : (v.coh.reqs.any fun x => x.id == q.id) = false := List.any_eq_false.2 fun x hx => by simp [h x hx]
  have hfind : (v.coh.reqs.find? fun x => x.id == q.id) = none := List.find?_eq_none.2 fun x hx => by simp [h x hx]
  unfold reqOf setReq State.setCoh
  dsimp only
  rw [hany, if_neg Bool.false_ne_true, List.find?_append, hfind]
  simp

theorem freshKeeper_of_I {q : Req} {v : State} {line a : Nat} (ha : q.agent = some a) (ha15 : a ≠ 15) (hdir : dirOf v line = dirI) :
    freshKeeper q line v = v := by
  unfold freshKeeper
  rw [ha]
  dsimp only
  rw [hdir]
  exact if_neg fun h => ha15 h.1.symm

theorem planLine_of_I {q : Req} {v : State} {line : Nat} (hcls : q.cls = .rs ∨ q.cls = .ro ∨ q.cls = .up) (hdir : dirOf v line = dirI) :
    planLine v q line = ([], false) := by
  unfold planLine
  rw [hdir]
  rcases hcls with h | h | h
  · rw [h]
    rfl
  · rw [h]
    rfl
  · rw [h]
    have hbit : bitAt dirI.holders (q.agent.getD 15) = false := by simp [dirI, bitAt]
    dsimp only
    rw [hbit]
    rfl

theorem startTxn_of_I {q : Req} {v : State} {line a : Nat} (hlines : q.lines = [line]) (htxns : v.coh.txns = [])
    (hcls : q.cls = .rs ∨ q.cls = .ro ∨ q.cls = .up) (ha : q.agent = some a) (ha15 : a ≠ 15) (hdir : dirOf v line = dirI)
    (hmode : cohMode v (line * 64) = 1) :
    startTxn q v = finishReq (plainTxn q.id v.coh.nextTxn line) q.id (txnClosed line (setReq { q with stage := .opened } v)) := by
  obtain ⟨htx, hnext, -⟩ := setReq_txns { q with stage := .opened } v
  have hsettle := settle_plain (htx.trans htxns) q.id line (q.agent.getD 15) q.tag
  rw [hnext] at hsettle
  unfold startTxn
  extract_lets w l steward plans d fwd t0 t
  have hw : w = v := by
    show q.lines.foldl (fun s l => freshKeeper q l s) v = v
    rw [hlines]
    exact freshKeeper_of_I ha ha15 hdir
  have hl : l = line := by
    show q.lines.headD 0 = line
    rw [hlines]
    rfl
  have hsteward : steward = false := by
    show (cohMode w (l * 64) == 2) = false
    rw [hw, hl, hmode]
    rfl
  have hplans : plans = [([], false)] := by
    show (if steward = true then _ else q.lines.map fun l => planLine w q l) = _
    rw [hsteward, if_neg Bool.false_ne_true, hlines, hw, List.map_cons, planLine_of_I hcls hdir]
    rfl
  have hd : d = dirI := by
    show dirOf w l = dirI
    rw [hw, hl, hdir]
  have ht : t = newTxn (.req q.id) [line] := by
    show { newTxn (.req q.id) q.lines with fwd := plans.any (·.2), holder := bitAt d.holders (q.agent.getD 15)
                                           cxlX := d.st == 3 && decide (8 ≤ d.keeper) } = _
    have hbit : bitAt dirI.holders (q.agent.getD 15) = false := by simp [dirI, bitAt]
    rw [hplans, hd, hlines, hbit]
    rfl
  clear_value w plans t
  subst hw
  rw [hplans, ht]
  exact hsettle

end Sys2Proof.Machine
end

section
/-! PROOFS. The device's own index stands while a read or a write is logged (R306, R309, R372). -/

namespace Sys2Proof.Machine

theorem ownIndex_bumpObj {i j : Nat} (h : okey i j ≠ okey 0x8000 2) (n w : Nat) (s : State) : ownIndex (bumpObj i j n w s) = ownIndex s := by
  unfold ownIndex bumpObj
  exact obj_setObj_ne h _ _

/-- The counts of the error log are none of the span's objects. -/
theorem ownIndex_bumpLog {j : Nat} (h : j < 256) (n w : Nat) (s : State) : ownIndex (bumpObj 0x4040 j n w s) = ownIndex s :=
  ownIndex_bumpObj (by unfold okey; omega) ..

theorem ownIndex_setCan (f : Can → Can) (s : State) : ownIndex (s.setCan f) = ownIndex s := ownIndex_of_dict rfl

theorem ownIndex_setMem (f : Mem → Mem) (s : State) : ownIndex (s.setMem f) = ownIndex s := ownIndex_of_dict rfl

theorem ownIndex_ite (p : Prop) [Decidable p] (s t : State) : ownIndex (if p then s else t) = if p then ownIndex s else ownIndex t :=
  apply_ite ..

/-- A fold whose steps leave the index leaves it. -/
theorem ownIndex_foldl {α : Type} {f : State → α → State} (hf : ∀ s a, ownIndex (f s a) = ownIndex s) (l : List α) (s : State) :
    ownIndex (l.foldl f s) = ownIndex s := by
  induction l generalizing s with
  | nil => rfl
  | cons a l ih => exact (ih (f s a)).trans (hf s a)

theorem ownIndex_emcySend (e : Emcy) (s : State) : ownIndex (emcySend e s) = ownIndex s :=
  ownIndex_of_dict ((emcySend_keeps ..).dict rfl)

theorem ownIndex_emcyRaise (cls index sub value : Nat) (s : State) : ownIndex (emcyRaise cls index sub value s) = ownIndex s := by
  have hcount : ∀ t, ownIndex (bumpObj 0x1022 3 1 32 t) = ownIndex t := ownIndex_bumpObj (by unfold okey; omega) 1 32
  unfold emcyRaise
  simp only [ownIndex_ite, ownIndex_emcySend, ownIndex_setCan, hcount, ite_self]

theorem ownIndex_logPut (e : LogEntry) (s : State) : ownIndex (logPut e s) = ownIndex s := ownIndex_of_dict ((logPut_keeps ..).dict rfl)

theorem ownIndex_telemetry (kind detail : Nat) (s : State) : ownIndex (telemetry kind detail s) = ownIndex s :=
  ownIndex_of_dict ((telemetry_keeps ..).dict rfl)

theorem ownIndex_logEvent (kind addr loc tag source symbols count : Nat) (s : State) :
    ownIndex (logEvent kind addr loc tag source symbols count s) = ownIndex s := by
  unfold logEvent
  simp only [ownIndex_ite, ownIndex_telemetry, ownIndex_emcyRaise, ownIndex_setMem, ownIndex_logPut, ite_self]

theorem ownIndex_noteLine (source : Nat) (s : State) (line : Nat) (v : Line) : ownIndex (noteLine source s line v) = ownIndex s := by
  have hlog := ownIndex_logEvent
  unfold noteLine
  dsimp only
  split
  · simp only [ownIndex_ite, ownIndex_setMem, hlog, ownIndex_bumpLog, Nat.reduceLT, ite_self]
  · exact (hlog ..).trans (ownIndex_bumpLog (by omega) ..)
  · exact hlog ..
  · exact hlog ..
  · split
    · exact hlog ..
    · rfl
  · split
    · exact hlog ..
    · rfl

theorem ownIndex_notePoison (source : Nat) (s : State) (line : Nat) (v : Line) : ownIndex (notePoison source s line v) = ownIndex s := by
  unfold notePoison
  split
  · exact ownIndex_logEvent ..
  · rfl

theorem ownIndex_noteSector (source : Nat) (asks : Nat → Bool) (s : State) (sector : Nat) :
    ownIndex (noteSector source asks s sector) = ownIndex s := by
  have hlines := fun ls : List (Nat × Line) => ownIndex_foldl (f := fun t p => noteLine source t p.1 p.2) (fun _ _ => ownIndex_noteLine ..) ls
  unfold noteSector
  extract_lets ls t
  have ht : ownIndex t = ownIndex s := hlines ls s
  clear_value t
  split
  · exact (ownIndex_foldl (fun _ _ => ownIndex_notePoison ..) _ _).trans ht
  · exact ((ownIndex_logEvent ..).trans (ownIndex_bumpLog (by omega) ..)).trans ht
  · exact ht

theorem ownIndex_noteMedia (source a n : Nat) (asks : Nat → Bool) (s : State) : ownIndex (noteMedia source a n asks s) = ownIndex s := by
  unfold noteMedia
  split
  · exact ownIndex_foldl (fun _ _ => ownIndex_noteSector ..) ..
  · refine ownIndex_foldl (fun s p => ?_) ..
    dsimp only
    split
    · exact (ownIndex_notePoison ..).trans (ownIndex_noteLine ..)
    · exact ownIndex_noteLine ..

theorem ownIndex_noteWriteBy (tag source a n mask : Nat) (s : State) : ownIndex (noteWriteBy tag source a n mask s) = ownIndex s := by
  have hact : ownIndex (activate true tag source a n s) = ownIndex s := ownIndex_of_dict ((activate_keeps ..).dict rfl)
  unfold noteWriteBy
  dsimp only
  split
  · exact hact
  · split
    · exact (ownIndex_noteMedia ..).trans hact
    · refine (ownIndex_foldl (fun s l => ?_) ..).trans hact
      split
      · exact ownIndex_noteMedia ..
      · rfl

theorem ownIndex_noteWrites (r : Req) (ps : List (Nat × Nat)) (s : State) : ownIndex (noteWrites r ps s) = ownIndex s := by
  refine ownIndex_foldl (fun s p => ?_) ..
  split
  · exact ownIndex_noteWriteBy ..
  · rfl

end Sys2Proof.Machine
end

section
/-! PROOFS. Requests of piers and of CXL ports, answered (R329, R331, R341, R469). -/

namespace Sys2Proof.Machine

/-! ## The directory -/

theorem dirOf_setDir {s : State} (h : Tbl.Rising s.coh.dir) (line : Nat) (v : Dir) :
    dirOf (setDir line v s) line = if v.st = 0 then dirI else v := tget_tput _ _ _ h _
theorem dirOf_setDir_ne {s : State} (h : Tbl.Rising s.coh.dir) {line x : Nat} (hx : x ≠ line) (v : Dir) :
    dirOf (setDir line v s) x = dirOf s x := tget_tput_ne _ _ _ h hx
theorem dirOf_of_coh {s t : State} (h : t.coh.dir = s.coh.dir) (line : Nat) : dirOf t line = dirOf s line := by simp only [dirOf, h]

theorem reqOf_of_reqs {s t : State} (h : t.coh.reqs = s.coh.reqs) (id : Nat) : reqOf t id = reqOf s id := by simp only [reqOf, h]

/-- A request that has ended well is kept no more, and changes no entry. -/
theorem answerDone_coh (r : Req) (grant : Nat) (data : List Byte) (s : State) :
    (answerDone r grant data s).coh = { s.coh with reqs := s.coh.reqs.filter fun q => q.id != r.id } :=
  ((answerDone_dropped r grant data s).coh rfl).trans (dropReq_coh ..)

theorem reqOf_answerDone (r : Req) (grant : Nat) (data : List Byte) (s : State) : reqOf (answerDone r grant data s) r.id = none :=
  reqOf_dropReq ((answerDone_dropped r grant data s).coh rfl)

theorem bitAt_bitSet_false (v i : Nat) : bitAt (bitSet v i false) i = false := by
  unfold bitSet
  by_cases h : bitAt v i = true
  · rw [if_neg (by rw [h]; decide), if_neg (by decide)]
    unfold bitAt at h ⊢
    have h1 : v / 2 ^ i % 2 = 1 := beq_iff_eq.1 h
    have hle : 2 ^ i ≤ v := by
      by_contra hn
      rw [Nat.div_eq_of_lt (by omega)] at h1
      exact absurd h1 (by decide)
    have hdiv : (v - 2 ^ i) / 2 ^ i = v / 2 ^ i - 1 := by
      rw [← Nat.sub_mul_div v (2 ^ i) 1, Nat.mul_one]
    rw [hdiv]
    exact beq_false_of_ne (by omega)
  · have h : bitAt v i = false := Bool.eq_false_iff.2 h
    rw [if_pos (by rw [h]; rfl), h]

/-- An entry does not name an agent that was taken from it. -/
theorem dropAgent_holders (a : Nat) (d : Dir) : bitAt (dropAgent a d).holders a = false := by
  unfold dropAgent
  extract_lets h
  split
  · simp [dirI, bitAt]
  · split
    · exact bitAt_bitSet_false ..
    · exact bitAt_bitSet_false ..

/-- An entry that does not name an agent stays. -/
theorem dropAgent_of_absent {a : Nat} {d : Dir} (hbit : bitAt d.holders a = false) (hkeeper : d.keeper ≠ a)
    (hd : d = dirI ∨ d.holders ≠ 0 ∧ d.st ≠ 0) : dropAgent a d = d := by
  have hset : bitSet d.holders a false = d.holders := if_pos (by rw [hbit]; rfl)
  unfold dropAgent
  dsimp only
  rw [hset]
  rcases hd with rfl | ⟨hh, -⟩
  · exact if_pos (.inl rfl)
  · rw [if_neg (fun hn => hn.elim hh fun h => hkeeper h.1), if_neg hkeeper]

/-! ## The end of a transaction that needed no snoop (R331) -/

/-- Such a transaction grants a CXL reader S. -/
def grantsShared (q : Req) (a : Nat) : Prop := q.cls = .rs ∧ 8 ≤ a ∧ q.op ≠ 0x101

@[simp] theorem plainTxn_rsp (id n line : Nat) : (plainTxn id n line).rsp = 0 := rfl
@[simp] theorem plainTxn_cxlX (id n line : Nat) : (plainTxn id n line).cxlX = false := rfl

theorem grantOf_shared {q : Req} {a : Nat} (h : grantsShared q a) (w : State) (n line : Nat) :
    grantOf w (plainTxn q.id n line) q a dirI = (1, { st := 1, keeper := 15, holders := 2 ^ a, used := w.time.cycle }) := by
  obtain ⟨hcls, ha, hop⟩ := h
  have hkaf : isKaf a = false := decide_eq_false (by omega)
  have hset : bitSet 0 a true = 2 ^ a := by simp [bitSet, bitAt]
  unfold grantOf
  rw [hcls]
  dsimp only
  rw [plainTxn_rsp, if_neg (by decide), hkaf, if_neg Bool.false_ne_true, if_pos (show dirI.st = 0 from rfl), if_neg (fun hn => hop hn.1)]
  unfold dirAdd
  rw [show dirI.holders = 0 from rfl, hset]

theorem grantOf_owned {q : Req} {a : Nat} (hcls : q.cls = .rs ∨ q.cls = .ro ∨ q.cls = .up) (h : ¬grantsShared q a) (w : State) (n line : Nat) :
    grantOf w (plainTxn q.id n line) q a dirI = (3, dirX w a) := by
  unfold grantOf
  rcases hcls with hc | hc | hc
  · rw [hc]
    dsimp only
    rw [plainTxn_rsp, if_neg (by decide)]
    by_cases ha : a < 8
    · rw [show isKaf a = true from decide_eq_true ha]
      rfl
    · have hop : q.op = 0x101 := by
        by_contra hn
        exact h ⟨hc, by omega, hn⟩
      rw [show isKaf a = false from decide_eq_false ha, if_neg Bool.false_ne_true, if_pos (show dirI.st = 0 from rfl), if_pos ⟨hop, rfl⟩]
  · rw [hc]
  · rw [hc]
    rfl

section
variable {q : Req} {w : State} {n line a g : Nat} {e : Dir} (hreq : reqOf w q.id = some q) (hdead : q.dead = false)
  (hcls : q.cls = .rs ∨ q.cls = .ro ∨ q.cls = .up) (ha : q.agent = some a) (hdir : dirOf w line = dirI)
  (hgrant : grantOf w (plainTxn q.id n line) q a dirI = (g, e)) (hg : g ≠ 5)
include hreq hdead hcls ha hdir hgrant hg

theorem finishReq_plain : ∃ log : State → State, (∀ s, s.span.twin = .single → log s = noteTxn q line s) ∧
    finishReq (plainTxn q.id n line) q.id w =
      if q.op = 0x102 then log (answerDone q g [] (setDir line e w))
      else log (if (performReq q g w).1 = 0 then setDir line e (performReq q g w).2 else (performReq q g w).2) := by
  refine ⟨fun s => [line].foldl (fun s l => noteTxn q l (twinLog q.src q.tag l false s)) s, fun s hs => ?_, ?_⟩
  · have hpaired : paired s = false := by simp [paired, hs]
    show noteTxn q line (twinLog q.src q.tag line false s) = _
    unfold twinLog
    rw [hpaired]
    rfl
  · unfold finishReq
    rw [hreq]
    have hgrant' : grantOf w (plainTxn q.id n line) q (q.agent.getD 15) (dirOf w ((plainTxn q.id n line).lines.headD 0)) = (g, e) := by
      rw [ha, show (plainTxn q.id n line).lines.headD 0 = line from rfl, hdir]
      exact hgrant
    dsimp only
    rw [hdead, if_neg Bool.false_ne_true]
    rcases hcls with hc | hc | hc
    all_goals
      rw [hc]
      dsimp only
      rw [hgrant']
      dsimp only
      rw [plainTxn_rsp, if_neg (by decide), if_neg hg]
      rfl

end

theorem Heard.of_same {s t : State} {r : Req} (h : Heard s r) (hlinks : t.links = s.links) (hspan : t.span = s.span) : Heard t r where
  dead := h.dead
  waited := h.waited
  src := h.src
  sends := fun hs => (sends_of_links hlinks _).trans (h.sends hs)
  single := by rw [hspan]; exact h.single

section
variable {q : Req} {w : State} {n line a g pa : Nat} {e : Dir} (hreq : reqOf w q.id = some q) (hheard : Heard w q)
  (hcls : q.cls = .rs ∨ q.cls = .ro ∨ q.cls = .up) (ha : q.agent = some a) (hrise : Tbl.Rising w.coh.dir) (hdir : dirOf w line = dirI)
  (hgrant : grantOf w (plainTxn q.id n line) q a dirI = (g, e)) (hg : g ≠ 5) (he : e.st ≠ 0)

/-- What the grant of a line leaves, once the request is answered. -/
theorem dirOf_granted {x : State} (hrise : Tbl.Rising x.coh.dir) (he : e.st ≠ 0) : dirOf (noteTxn q line (setDir line e x)) line = e := by
  have hnote : Keeps 0x80 (setDir line e x) (noteTxn q line (setDir line e x)) := noteTxn_keeps ..
  exact (dirOf_of_coh (congrArg Coh.dir (hnote.coh rfl)) line).trans ((dirOf_setDir hrise line e).trans (if_neg he))

theorem setDir_reqs (line : Nat) (d : Dir) (s : State) : (setDir line d s).coh.reqs = s.coh.reqs := rfl

/-- The answer of a read goes out, and its line is granted, in the state `x` in which its access is logged. -/
theorem answered_granted {x : State} {data : List Byte} (hkeeps : Keeps 0x200386 w x) (hheard : Heard w q) (hrise : Tbl.Rising w.coh.dir)
    (hg : g ≠ 5) (he : e.st ≠ 0) : ∃ t, noteTxn q line (setDir line e (answerDone q g data x)) = t ∧ reqOf t q.id = none ∧
      t.mem.bytes = w.mem.bytes ∧ dirOf t line = e ∧ doneMsg q g data ∈ t.out := by
  have hout := answerDone_out (hheard.of_same (hkeeps.links rfl) (hkeeps.span rfl)) hg data
  have hnone := reqOf_answerDone q g data x
  have hbytes : (answerDone q g data x).mem.bytes = w.mem.bytes := ((answerDone_keeps ..).bytes rfl).trans (hkeeps.bytes rfl)
  have hrise' : Tbl.Rising (answerDone q g data x).coh.dir := by
    rw [answerDone_coh, hkeeps.coh rfl]
    exact hrise
  generalize answerDone q g data x = y at hout hnone hbytes hrise' ⊢
  have hset : Keeps 0x8000 y (setDir line e y) := setDir_keeps ..
  have hnote : Keeps 0x80 (setDir line e y) (noteTxn q line (setDir line e y)) := noteTxn_keeps ..
  refine ⟨_, rfl, ?_, ?_, dirOf_granted hrise' he, ?_⟩
  · rw [reqOf_of_reqs (congrArg Coh.reqs (hnote.coh rfl)), reqOf_of_reqs (setDir_reqs ..)]
    exact hnone
  · rw [hnote.bytes rfl, hset.bytes rfl]
    exact hbytes
  · rw [hnote.out rfl, hset.out rfl]
    exact hout

include hreq hheard hcls ha hrise hdir

include hgrant hg he in
theorem finishReq_reads (hop : q.op ≠ 0x102) (hpieces : q.pieces = [(pa, 64)]) (hown : pa / 2 ^ 52 = ownIndex w)
    (hcode : memCode w (pa % 2 ^ 52) 64 = 0) : ∃ t, finishReq (plainTxn q.id n line) q.id w = t ∧ reqOf t q.id = none ∧
      t.mem.bytes = w.mem.bytes ∧ dirOf t line = e ∧ doneMsg q g (mread w.mem.bytes (pa % 2 ^ 52) 64) ∈ t.out := by
  obtain ⟨log, hlog, hfin⟩ := finishReq_plain (n := n) hreq hheard.dead hcls ha hdir hgrant hg
  have hperf := performReq_read (grant := g) hpieces hown (isWrite_of hcls) hcode
  rw [if_neg hop, hperf, if_pos rfl] at hfin
  have hx := noteReq_keeps q (ownPieces w q.pieces) w
  generalize noteReq q (ownPieces w q.pieces) w = x at hfin hx
  generalize mread w.mem.bytes (pa % 2 ^ 52) 64 = data at hfin ⊢
  obtain ⟨t, ht, hend⟩ := answered_granted (line := line) (data := data) hx hheard hrise hg he
  have hone : (setDir line e (answerDone q g data x)).span.twin = .single := by
    rw [(setDir_keeps ..).twin rfl, (answerDone_keeps ..).twin rfl, hx.twin rfl]
    exact hheard.single
  exact ⟨t, hfin.trans ((hlog _ hone).trans ht), hend⟩

theorem finishReq_acquires (hshared : ¬grantsShared q a) (hop : q.op = 0x102) :
    ∃ t, finishReq (plainTxn q.id n line) q.id w = t ∧ reqOf t q.id = none ∧ t.mem.bytes = w.mem.bytes ∧
      dirOf t line = dirX w a ∧ doneMsg q 3 [] ∈ t.out := by
  obtain ⟨log, hlog, hfin⟩ := finishReq_plain (n := n) hreq hheard.dead hcls ha hdir (grantOf_owned hcls hshared w n line) (by decide)
  rw [if_pos hop] at hfin
  have hset : Keeps 0x8000 w (setDir line (dirX w a) w) := setDir_keeps ..
  have hentry : dirOf (setDir line (dirX w a) w) line = dirX w a := (dirOf_setDir hrise line _).trans (if_neg (Nat.succ_ne_zero 2))
  generalize setDir line (dirX w a) w = x at hfin hset hentry
  have hone : (answerDone q 3 [] x).span.twin = .single := by
    rw [(answerDone_keeps ..).twin rfl, hset.twin rfl]
    exact hheard.single
  have hout := answerDone_out (grant := 3) (hheard.of_same (hset.links rfl) (hset.span rfl)) (by decide) []
  have hnone := reqOf_answerDone q 3 [] x
  have hdir : dirOf (answerDone q 3 [] x) line = dirX w a := (dirOf_of_coh (by rw [answerDone_coh]) line).trans hentry
  have hbytes : (answerDone q 3 [] x).mem.bytes = w.mem.bytes := ((answerDone_keeps ..).bytes rfl).trans (hset.bytes rfl)
  generalize answerDone q 3 [] x = y at hfin hone hout hnone hdir hbytes
  have hnote : Keeps 0x80 y (noteTxn q line y) := noteTxn_keeps ..
  refine ⟨_, hfin.trans (hlog _ hone), ?_, (hnote.bytes rfl).trans hbytes, ?_, ?_⟩
  · rw [reqOf_of_reqs (congrArg Coh.reqs (hnote.coh rfl))]
    exact hnone
  · rw [dirOf_of_coh (congrArg Coh.dir (hnote.coh rfl))]
    exact hdir
  · rw [hnote.out rfl]
    exact hout

end

/-! ## A coherent request on a line in state I -/

/-- The request with its one line. -/
def Req.tracked (r : Req) (u : State) (line : Nat) : Req := { r.placed u (line * 64) with lines := [line] }

/-- The request as its transaction ends. -/
def Req.locking (r : Req) (u : State) (line : Nat) : Req := { r.tracked u line with stage := .opened }

theorem Fresh.agent_ne {s : State} {r : Req} (hf : Fresh s r) {a : Nat} (ha : r.agent = some a) : a ≠ 15 := by
  rcases hf.src with h | h
  · have := hf.kaf h a ha
    omega
  · have := ((hf.cxl h.1).1 a ha).2
    omega

/-- The agents below 8 are the piers'. -/
theorem Fresh.agent_kaf {s : State} {r : Req} (hf : Fresh s r) {a : Nat} (ha : r.agent = some a) : 8 ≤ a ↔ 13 ≤ r.src := by
  rcases hf.src with h | h
  · have := hf.kaf h a ha
    omega
  · have := ((hf.cxl h.1).1 a ha).1
    omega

/-- The state in which a coherent request on a line in state I ends. -/
structure Locking (s : State) (r : Req) (line : Nat) (u w : State) : Prop where
  way : OnTheWay s w
  dict : w.dict = u.dict
  mem : w.mem = u.mem
  hbm : w.hbm = u.hbm
  dir : w.coh.dir = s.coh.dir
  req : reqOf w r.id = some (r.locking u line)

theorem txnClosed_dir (line : Nat) (w : State) : (txnClosed line w).coh.dir = w.coh.dir := rfl
theorem txnClosed_reqs (line : Nat) (w : State) : (txnClosed line w).coh.reqs = w.coh.reqs := rfl

theorem Seen.idx {s u : State} {r : Req} {x : Nat} (_ : Seen s r x u) : ownIndex (passed r x u) = ownIndex u :=
  ownIndex_of_dict ((passed_tal r x u).dict rfl)

theorem Seen.tracked {s u : State} {r : Req} {line : Nat} (h : Seen s r (line * 64) u) (hmode : cohMode s (line * 64) = 1) (hlen : r.len = 64) :
    trackedLines (passed r (line * 64) u) (r.placed u (line * 64)).pieces = [line] := by
  have hp : (r.placed u (line * 64)).pieces = [(ownIndex (passed r (line * 64) u) * 2 ^ 52 + line * 64, 64)] := by
    rw [h.idx]
    exact congrArg (fun n => [(ownIndex u * 2 ^ 52 + line * 64, n)]) hlen
  rw [hp]
  exact trackedLines_line h.low ((cohMode_of_led h.onTheWay.led _).trans hmode)

theorem serveReq_coherent {s u : State} {r : Req} {line a : Nat} (h : Seen s r (line * 64) u) (hf : Fresh s r) (ha : r.agent = some a)
    (hcls : r.cls = .rs ∨ r.cls = .ro ∨ r.cls = .up) (hmode : cohMode s (line * 64) = 1) (hfree : LineFree s line)
    (hdir : dirOf s line = dirI) (hlen : r.len = 64) : ∃ w n, Locking s r line u w ∧
      serveReq r (counted r s) = finishReq (plainTxn r.id n line) r.id w := by
  have hway := h.onTheWay
  have hcohdir : (passed r (line * 64) u).coh.dir = s.coh.dir := by rw [h.coh]
  have hmode' : cohMode (passed r (line * 64) u) (line * 64) = 1 := (cohMode_of_led hway.led _).trans hmode
  have hdir' : dirOf (passed r (line * 64) u) line = dirI := (dirOf_of_coh hcohdir line).trans hdir
  have htxns : (passed r (line * 64) u).coh.txns = [] := by rw [h.coh]; exact hfree.txns
  have hreqs : (passed r (line * 64) u).coh.reqs = s.coh.reqs := by rw [h.coh]
  have hone : (passed r (line * 64) u).span.twin = .single := by rw [hway.span]; exact h.unheld.single
  have hnew : ∀ x ∈ (passed r (line * 64) u).coh.reqs, x.id ≠ (r.locking u line).id := fun x hx => by
    rw [hreqs] at hx
    have := h.new x hx
    have hid : (r.locking u line).id = s.attn.nextId := hf.id
    omega
  refine ⟨txnClosed line (setReq (r.locking u line) (passed r (line * 64) u)), (passed r (line * 64) u).coh.nextTxn, ?_, ?_⟩
  · have hset : Keeps 0x8000 (passed r (line * 64) u) (txnClosed line (setReq (r.locking u line) (passed r (line * 64) u))) :=
      (State.setCoh_keeps _ _ fun h => h).step (setReq_keeps ..)
    have hdir := (txnClosed_dir line _).trans (setReq_txns (r.locking u line) (passed r (line * 64) u)).2.2
    have hreq := (reqOf_of_reqs (txnClosed_reqs line _) r.id).trans (reqOf_setReq_new (q := r.locking u line) hnew)
    exact ⟨hway.keeps hset.mono, (hset.dict rfl).trans ((passed_tal r _ u).dict rfl), (hset.mem rfl).trans ((passed_tal r _ u).mem rfl),
      (hset.hbm rfl).trans ((passed_tal r _ u).hbm rfl), hdir.trans hcohdir, hreq⟩
  · rw [serveReq_of_seen h, serveLocal_near h.idx h.low h.near, if_pos hmode', h.tracked hmode hlen]
    show tryLock (r.tracked u line) (passed r (line * 64) u) = _
    rw [tryLock_start (q := r.tracked u line) (line := line) rfl hone htxns (fun x hx => hfree.reqs x (hreqs ▸ hx)) (by rcases hcls with hc | hc | hc <;> (show r.cls ≠ _; rw [hc]; decide))
      (by rw [hcohdir]; exact hfree.ways)]
    exact startTxn_of_I (q := r.tracked u line) rfl htxns hcls ha (hf.agent_ne ha) hdir' hmode'

/-- The sender of a request that is served hears of its end. -/
theorem Seen.heard {s u v : State} {r q : Req} {a : Nat} (h : Seen s r a u) (hf : Fresh s r) (hv : OnTheWay s v) (hdead : q.dead = r.dead)
    (hwaited : q.waited = r.waited) (hsrc : q.src = r.src) : Heard v q where
  dead := hdead.trans hf.dead
  waited := hwaited.trans hf.waited
  src := by
    rw [hsrc]
    exact hf.src.elim (fun h => lt_trans h (by decide)) (·.2)
  sends := fun hs => by
    rw [hsrc] at hs ⊢
    exact (sends_of_links hv.links _).trans (h.unheld.sends hs)
  single := by rw [hv.span]; exact h.unheld.single

/-! ## What each command's request is -/

theorem askedBy_kaf_fields {s : State} {p : Fin 13} {op : Nat} {m : KafMsg} {cls : RClass} {len : Nat} {r : Req}
    (h : askedBy.kaf s p op m cls len = some r) : r.op = op ∧ r.src < 13 ∧ r.len = len := by
  obtain ⟨rfl, hop, -⟩ := askedBy_kaf h
  exact ⟨hop, p.isLt, rfl⟩

theorem askedBy_cxl_fields {s : State} {p : Fin 4} {op tag : Nat} {a : BitVec 57} {cls : RClass} {r : Req}
    (h : askedBy.cxl s p op tag a cls = some r) : r.op = op ∧ ¬r.src < 13 ∧ r.len = 64 := by
  obtain ⟨rfl, -⟩ := askedBy_cxl h
  exact ⟨rfl, Nat.not_lt.2 (le_trans (by decide) (Nat.le_add_right 0x10 p.val)), rfl⟩

theorem askedBy_cxl3_fields {s : State} {c : Bool} {p : Fin 4} {op tag : Nat} {a : BitVec 57} {cls : RClass} {r : Req}
    (h : (if c = true then askedBy.cxl s p op tag a cls else none) = some r) : r.op = op ∧ ¬r.src < 13 ∧ r.len = 64 := by
  split at h
  · exact askedBy_cxl_fields h
  · cases h

theorem askedBy_cxlMemWr_src {s : State} {p : Fin 4} {tag : Nat} {a : BitVec 57} {mask : BitVec 64} {data : List Byte} {poison : Bool} {r : Req}
    (h : askedBy s (.cxlMemWr p tag a mask data poison) = some r) : ¬r.src < 13 := by
  unfold askedBy at h
  dsimp only at h
  split at h
  · cases h
  · obtain ⟨x, hx, rfl⟩ := Option.map_eq_some_iff.1 h
    exact (askedBy_cxl_fields hx).2.1

/-- An uncached request on near memory, or an EC of an untracked line. -/
theorem serveReq_uncached {s u : State} {r : Req} {x : Nat} (h : Seen s r x u) (hcls : r.cls = .ur ∨ r.cls = .uw) (hmode : cohMode s x = 0) :
    serveReq r (counted r s) = (performReq (r.placed u x) 0 (passed r x u)).2 := by
  have hmode' : cohMode (passed r x u) x = 0 := (cohMode_of_led h.onTheWay.led _).trans hmode
  have hec : r.cls ≠ .ec := by
    rcases hcls with hc | hc
    all_goals
      rw [hc]
      decide
  rw [serveReq_of_seen h, serveLocal_near h.idx h.low h.near, hmode', if_neg (by decide), if_neg hec,
    if_neg (fun hn => absurd hn.1 (by decide)), if_neg (fun hn => absurd hn.1 (by decide))]

/-- Where a placed request's one piece lies. -/
theorem Seen.piece {s u v : State} {r : Req} {x : Nat} (h : Seen s r x u) (hv : v.dict = u.dict) :
    (ownIndex u * 2 ^ 52 + x) / 2 ^ 52 = ownIndex v ∧ (ownIndex u * 2 ^ 52 + x) % 2 ^ 52 = x := by
  have hlow := h.low
  rw [ownIndex_of_dict hv]
  omega

theorem memCode_passed {u : State} {r : Req} {x : Nat} (a n : Nat) : memCode (passed r x u) a n = memCode u a n :=
  memCode_of_same ((passed_tal r x u).mem rfl) ((passed_tal r x u).led rfl) ((passed_tal r x u).mint rfl) ((passed_tal r x u).hbm rfl) a n

theorem maskPieces_one (mask a n : Nat) : maskPieces mask [(a, n)] = [(a, n, mask % 2 ^ n)] := rfl

theorem writeMask_placed (r : Req) (u : State) (x n : Nat) : writeMask (r.placed u x) n = writeMask r n := rfl

theorem writeCode_passed {u : State} {r : Req} (x n : Nat) : writeCode (passed r x u) (r.placed u x) [(x, n)] = writeCode u r [(x, n)] := by
  have hpart : ∀ mask, partCode (passed r x u) x n mask = partCode u x n mask := fun mask =>
    partCode_of_same ((passed_tal r x u).mem rfl) ((passed_tal r x u).led rfl) ((passed_tal r x u).mint rfl) ((passed_tal r x u).hbm rfl) x n mask
  have hdata : (r.placed u x).data = r.data := rfl
  unfold writeCode
  rw [hdata, writeMask_placed, maskPieces_one, List.foldl_cons, List.foldl_cons, List.foldl_nil, List.foldl_nil, hpart]

/-- The message of a request is that of the request on its way. -/
theorem doneMsg_locking (r : Req) (u : State) (line grant : Nat) (data : List Byte) : doneMsg (r.locking u line) grant data = doneMsg r grant data := rfl

theorem Locking.rising {s u w : State} {r : Req} {line : Nat} (h : Locking s r line u w) (hrise : Tbl.Rising s.coh.dir) : Tbl.Rising w.coh.dir := by
  rw [h.dir]
  exact hrise

theorem Locking.pieces (r : Req) (u : State) (line : Nat) (hlen : r.len = 64) : (r.locking u line).pieces = [(ownIndex u * 2 ^ 52 + line * 64, 64)] :=
  congrArg (fun n => [(ownIndex u * 2 ^ 52 + line * 64, n)]) hlen

section
variable {s u w : State} {r : Req} {line : Nat} (h : Seen s r (line * 64) u) (hw : Locking s r line u w)
include h hw

theorem Locking.heard (hf : Fresh s r) : Heard w (r.locking u line) := h.heard hf hw.way rfl rfl rfl

theorem Locking.code (hcode : memCode u (line * 64) 64 = 0) : memCode w (line * 64) 64 = 0 :=
  (memCode_of_same hw.mem (hw.way.led.trans (h.keeps.led rfl).symm) (hw.way.mint.trans (h.keeps.mint rfl).symm) hw.hbm _ _).trans hcode

end

/-- A read or an acquisition of a line in state I: granted, with the line's bytes (R331). -/
theorem coherent_answered {s u : State} {r : Req} {line a : Nat} (h : Seen s r (line * 64) u) (hf : Fresh s r) (ha : r.agent = some a)
    (hcls : r.cls = .rs ∨ r.cls = .ro ∨ r.cls = .up) (hop : r.op ≠ 0x102) (hmode : cohMode s (line * 64) = 1) (hfree : LineFree s line)
    (hdir : dirOf s line = dirI) (hcode : memCode u (line * 64) 64 = 0) (hlen : r.len = 64)
    (hkaf : r.src < 13 → 0x10 ≤ r.op ∧ r.op ≤ 0x13 ∨ r.op = 0x40) {g : Nat} {e : Dir} (hg : g ≠ 5) (he : e.st ≠ 0)
    (hgrant : ∀ w n, w.time = s.time → grantOf w (plainTxn r.id n line) (r.locking u line) a dirI = (g, e)) :
    ∃ t, serveReq r (counted r s) = t ∧ reqOf t r.id = none ∧ t.mem.bytes = s.mem.bytes ∧ dirOf t line = e ∧
      dataOut r g (mread s.mem.bytes (line * 64) 64) ∈ t.out := by
  obtain ⟨w, n, hw, hserve⟩ := serveReq_coherent h hf ha hcls hmode hfree hdir hlen
  obtain ⟨hown, hmod⟩ := h.piece hw.dict
  have hpieces := Locking.pieces r u line hlen
  have hmsg := doneMsg_locking r u line
  have hheard := hw.heard h hf
  have hcode := hw.code h hcode
  have hgrant := hgrant w n hw.way.time
  have hreq := hw.req
  have hbytes := hw.way.bytes
  have hrise := hw.rising hfree.dir
  have hdir := (dirOf_of_coh hw.dir line).trans hdir
  have hfields : (r.locking u line).id = r.id ∧ (r.locking u line).cls = r.cls ∧ (r.locking u line).agent = r.agent ∧ (r.locking u line).op = r.op :=
    ⟨rfl, rfl, rfl, rfl⟩
  clear hw h
  generalize r.locking u line = q at *
  generalize ownIndex u * 2 ^ 52 + line * 64 = pa at *
  obtain ⟨hid, hc, hag, ho⟩ := hfields
  rw [← hid] at hreq hserve hgrant ⊢
  rw [← hc] at hcls
  rw [← hag] at ha
  rw [← ho] at hop
  obtain ⟨t, ht, hnone, hb, hd, hout⟩ := finishReq_reads hreq hheard hcls ha hrise hdir hgrant hg he hop hpieces hown (by rw [hmod]; exact hcode)
  refine ⟨t, hserve.trans ht, hnone, hb.trans hbytes, hd, ?_⟩
  rw [dataOut_eq hkaf (mread_ne_nil _ _ (by decide)), ← hmsg, ← hbytes, ← hmod]
  exact hout

/-- An acquisition without data of a line in state I (R329, R331). -/
theorem acquired_answered {s u : State} {r : Req} {line a : Nat} (h : Seen s r (line * 64) u) (hf : Fresh s r) (ha : r.agent = some a)
    (hcls : r.cls = .up) (hop : r.op = 0x102) (hmode : cohMode s (line * 64) = 1) (hfree : LineFree s line)
    (hdir : dirOf s line = dirI) (hlen : r.len = 64) (hsrc : ¬r.src < 13) :
    ∃ t, serveReq r (counted r s) = t ∧ reqOf t r.id = none ∧ t.mem.bytes = s.mem.bytes ∧
      dirOf t line = { st := 3, keeper := a, holders := 2 ^ a, used := s.time.cycle } ∧ doneOut r 3 ∈ t.out := by
  have hcls' : r.cls = .rs ∨ r.cls = .ro ∨ r.cls = .up := .inr (.inr hcls)
  obtain ⟨w, n, hw, hserve⟩ := serveReq_coherent h hf ha hcls' hmode hfree hdir hlen
  have hshared : ¬grantsShared (r.locking u line) a := fun hn => absurd (hcls.symm.trans hn.1) (by decide)
  obtain ⟨t, ht, hnone, hb, hd, hout⟩ := finishReq_acquires (q := r.locking u line) (n := n) hw.req (hw.heard h hf) hcls' ha (hw.rising hfree.dir)
    ((dirOf_of_coh hw.dir line).trans hdir) hshared hop
  refine ⟨t, hserve.trans ht, hnone, hb.trans hw.way.bytes, ?_, ?_⟩
  · rw [hd, dirX, hw.way.time]
  · rw [doneOut_eq (fun h => absurd h hsrc) (.inr (by decide))]
    exact hout

/-- An EC of a tracked line: its requester leaves the line (R341). -/
theorem evict_answered {s u : State} {r : Req} {line a : Nat} (h : Seen s r (line * 64) u) (hf : Fresh s r) (ha : r.agent = some a)
    (hcls : r.cls = .ec) (hmode : cohMode s (line * 64) = 1) (hfree : LineFree s line) (hlen : r.len = 64)
    (hop : r.src < 13 → r.op = 0x41 ∨ r.op = 0x14 ∨ r.op = 0x15 ∨ r.op = 0x16) :
    ∃ t, serveReq r (counted r s) = t ∧ reqOf t r.id = none ∧ t.mem.bytes = s.mem.bytes ∧ doneOut r 0 ∈ t.out ∧
      (∀ l, l ≠ line → dirOf t l = dirOf s l) ∧
      dirOf t line = (if (dropAgent a (dirOf s line)).st = 0 then dirI else dropAgent a (dirOf s line)) := by
  have hway := h.onTheWay
  have hcohdir : (passed r (line * 64) u).coh.dir = s.coh.dir := by rw [h.coh]
  have hrise : Tbl.Rising (passed r (line * 64) u).coh.dir := by rw [hcohdir]; exact hfree.dir
  have hreqs : (passed r (line * 64) u).coh.reqs = s.coh.reqs := by rw [h.coh]
  have hserve : serveReq r (counted r s) = answerDone (r.tracked u line) 0 []
      (setDir line (dropAgent a (dirOf (passed r (line * 64) u) line)) (passed r (line * 64) u)) := by
    rw [serveReq_of_seen h, serveLocal_near h.idx h.low h.near, if_pos ((cohMode_of_led hway.led _).trans hmode), h.tracked hmode hlen]
    exact tryLock_evict (q := r.tracked u line) rfl (by rw [hway.span]; exact h.unheld.single) (by rw [h.coh]; exact hfree.txns)
      (fun x hx => hfree.reqs x (hreqs ▸ hx)) hcls ha
  rw [dirOf_of_coh hcohdir] at hserve
  have hset : Keeps 0x8000 (passed r (line * 64) u) (setDir line (dropAgent a (dirOf s line)) (passed r (line * 64) u)) := setDir_keeps ..
  have hentry := dirOf_setDir hrise line (dropAgent a (dirOf s line))
  have hothers := fun l (hl : l ≠ line) => dirOf_setDir_ne hrise hl (dropAgent a (dirOf s line))
  generalize setDir line (dropAgent a (dirOf s line)) (passed r (line * 64) u) = x at hserve hset hentry hothers
  have hend := answerDone_coh (r.tracked u line) 0 [] x
  have hdir : ∀ l, dirOf (answerDone (r.tracked u line) 0 [] x) l = dirOf x l := fun l => dirOf_of_coh (by rw [hend]) l
  refine ⟨_, hserve, reqOf_answerDone (r.tracked u line) 0 [] x, ?_, ?_, fun l hl => ?_, ?_⟩
  · rw [(answerDone_keeps ..).bytes rfl, hset.bytes rfl]
    exact hway.bytes
  · rw [doneOut_eq hop (.inl rfl)]
    exact answerDone_out (r := r.tracked u line) (grant := 0) (h.heard hf (hway.keeps hset.mono) rfl rfl rfl) (by decide) []
  · rw [hdir, hothers l hl]
    exact dirOf_of_coh hcohdir l
  · rw [hdir, hentry]

/-- An uncached read: its bytes (R331). -/
theorem read_answered {s u : State} {r : Req} {x : Nat} (h : Seen s r x u) (hf : Fresh s r) (hcls : r.cls = .ur) (hlen : r.len ≠ 0)
    (hmode : cohMode s x = 0) (hcode : memCode u x r.len = 0) (hkaf : r.src < 13 → 0x10 ≤ r.op ∧ r.op ≤ 0x13 ∨ r.op = 0x40) :
    ∃ t, serveReq r (counted r s) = t ∧ reqOf t r.id = none ∧ t.mem.bytes = s.mem.bytes ∧ t.coh.dir = s.coh.dir ∧
      dataOut r 0 (mread s.mem.bytes x r.len) ∈ t.out := by
  obtain ⟨hown, hmod⟩ := h.piece ((passed_tal r x u).dict rfl)
  have hread : isWrite (r.placed u x) = false := by
    show isWrite r = false
    rw [isWrite, hcls]
    rfl
  have hperf := performReq_read (r := r.placed u x) (v := passed r x u) (grant := 0) (n := r.len) rfl hown hread
    (by rw [hmod, memCode_passed]; exact hcode)
  rw [hmod, h.onTheWay.bytes] at hperf
  have hx := noteReq_keeps (r.placed u x) (ownPieces (passed r x u) (r.placed u x).pieces) (passed r x u)
  generalize noteReq (r.placed u x) (ownPieces (passed r x u) (r.placed u x).pieces) (passed r x u) = y at hperf hx
  refine ⟨_, (serveReq_uncached h (.inl hcls) hmode).trans (congrArg Prod.snd hperf), reqOf_answerDone (r.placed u x) _ _ _, ?_, ?_, ?_⟩
  · rw [(answerDone_keeps ..).bytes rfl, hx.bytes rfl]
    exact h.onTheWay.bytes
  · rw [answerDone_coh, hx.coh rfl, h.coh]
  · rw [dataOut_eq hkaf (mread_ne_nil _ _ hlen)]
    exact answerDone_out (r := r.placed u x) (grant := 0) (h.heard hf (h.onTheWay.keeps hx.mono) rfl rfl rfl) (by decide) _

/-- An uncached write: its bytes stored (R301, R331). -/
theorem write_answered {s u : State} {r : Req} {x : Nat} (h : Seen s r x u) (hf : Fresh s r) (hcls : r.cls = .uw) (hlen : r.len = r.data.length)
    (hmode : cohMode s x = 0) (hcode : writeCode u r [(x, r.len)] = 0)
    (hop : r.src < 13 → r.op = 0x41 ∨ r.op = 0x14 ∨ r.op = 0x15 ∨ r.op = 0x16) :
    ∃ t, serveReq r (counted r s) = t ∧ reqOf t r.id = none ∧ t.coh.dir = s.coh.dir ∧ doneOut r 0 ∈ t.out ∧
      t.mem.bytes = mwriteMask s.mem.bytes x (writeMask r r.data.length % 2 ^ r.len) r.data := by
  obtain ⟨hown, hmod⟩ := h.piece ((passed_tal r x u).dict rfl)
  have hwrite : isWrite (r.placed u x) = true := by
    show isWrite r = true
    rw [isWrite, hcls]
    rfl
  have hpieces : ownPieces (passed r x u) (r.placed u x).pieces = [(x, r.len)] := by
    show ownPieces (passed r x u) [(ownIndex u * 2 ^ 52 + x, r.len)] = _
    rw [← h.idx]
    exact ownPieces_one h.low _
  have hperf := performReq_write (r := r.placed u x) (v := passed r x u) (grant := 0) hwrite
    (by rw [hpieces, writeCode_passed]; exact hcode) (by rw [h.onTheWay.span]; exact h.unheld.single)
  rw [hpieces] at hperf
  have hnote : Keeps 0x200386 (passed r x u) (noteWrites (r.placed u x) [(x, r.len)] (passed r x u)) ∧ _ :=
    ⟨noteWrites_keeps .., ownIndex_noteWrites (r.placed u x) [(x, r.len)] (passed r x u)⟩
  generalize noteWrites (r.placed u x) [(x, r.len)] (passed r x u) = y at hperf hnote
  have hidx : (ownIndex u * 2 ^ 52 + x) / 2 ^ 52 = ownIndex y := by
    rw [hnote.2]
    exact hown
  have hstore := storeReq_one (r := r.placed u x) (s := y) rfl hidx hlen
  rw [hmod, hnote.1.bytes rfl, h.onTheWay.bytes] at hstore
  have hz : Keeps 0x1000382 y (storeReq (r.placed u x) y) := storeReq_keeps ..
  generalize storeReq (r.placed u x) y = z at hperf hstore hz
  have hheard : Heard z (r.placed u x) := Heard.of_same (h.heard hf h.onTheWay rfl rfl rfl) ((hz.links rfl).trans (hnote.1.links rfl)) ((hz.span rfl).trans (hnote.1.span rfl))
  refine ⟨_, (serveReq_uncached h (.inr hcls) hmode).trans (congrArg Prod.snd hperf), reqOf_answerDone (r.placed u x) _ _ _, ?_, ?_, ?_⟩
  · rw [answerDone_coh, hz.coh rfl, hnote.1.coh rfl, h.coh]
  · rw [doneOut_eq hop (.inl rfl)]
    exact answerDone_out (r := r.placed u x) (grant := 0) hheard (by decide) []
  · exact ((answerDone_keeps ..).bytes rfl).trans hstore

/-- Settles O31: what nothing holds is served at once; the check, the lock and the access pass; and the answer goes out. -/
theorem requestsAreAnswered : Obligations.RequestsAreAnswered := by
  unfold Obligations.RequestsAreAnswered
  refine ⟨fun s i r line a u p m c tag ad mv hi hask h ha hcls hop hmode hfree hdir hcode => ?_,
    fun s i r line a u c tag ad mv hi hask h ha hcls hop hmode hfree hdir => ?_,
    fun s i r line a u p m c tag ad mv hi hask h ha hcls hmode hfree => ?_,
    fun s i r x u p m c tag ad mv hi hask h hcls hlen hmode hcode => ?_,
    fun s i r x u p m c tag ad mask data poison hi hask h hcls hlen hmode hcode => ?_⟩
  · obtain ⟨hf, hexec⟩ := exec_unheld hask h.unheld
    have hfields : r.len = 64 ∧ (r.src < 13 → 0x10 ≤ r.op ∧ r.op ≤ 0x13) ∧ (¬r.src < 13 → r.op = 0x100 ∨ r.op = 0x101) := by
      simp only [List.mem_cons, List.not_mem_nil, or_false] at hi
      rcases hi with rfl | rfl | rfl | rfl | rfl
      · obtain ⟨h1, h2, h3⟩ := askedBy_kaf_fields hask
        exact ⟨h3, fun _ => by omega, fun h => absurd h2 h⟩
      · obtain ⟨h1, h2, h3⟩ := askedBy_kaf_fields hask
        exact ⟨h3, fun _ => by omega, fun h => absurd h2 h⟩
      · obtain ⟨h1, h2, h3⟩ := askedBy_kaf_fields hask
        exact ⟨h3, fun _ => by omega, fun h => absurd h2 h⟩
      · obtain ⟨h1, h2, h3⟩ := askedBy_cxl_fields hask
        exact ⟨h3, fun h => absurd h h2, fun _ => .inl h1⟩
      · obtain ⟨h1, h2, h3⟩ := askedBy_cxl_fields hask
        exact ⟨h3, fun h => absurd h h2, fun _ => .inr h1⟩
    obtain ⟨hlen, hkaf, hcxl⟩ := hfields
    have hagent := hf.agent_kaf ha
    by_cases hshared : 13 ≤ r.src ∧ r.op = 0x100 ∧ r.cls = .rs
    · have hgs : grantsShared (r.locking u line) a := by
        refine ⟨hshared.2.2, hagent.2 hshared.1, ?_⟩
        show r.op ≠ 0x101
        omega
      rw [if_pos hshared, if_pos hshared]
      obtain ⟨t, ht, hend⟩ := coherent_answered h hf ha hcls hop hmode hfree hdir hcode hlen (fun h => .inl (hkaf h)) (g := 1)
        (e := { st := 1, keeper := 15, holders := 2 ^ a, used := s.time.cycle }) (by decide) (Nat.succ_ne_zero 0) fun w n hw => by
          rw [← hw]
          exact grantOf_shared hgs w n line
      exact ⟨t, hexec.trans (congrArg _ ht), hend⟩
    · have hgs : ¬grantsShared (r.locking u line) a := fun ⟨hc, h8, hne⟩ => by
        have hsrc := hagent.1 h8
        have hne : r.op ≠ 0x101 := hne
        exact hshared ⟨hsrc, (hcxl (by omega)).resolve_right hne, hc⟩
      rw [if_neg hshared, if_neg hshared]
      obtain ⟨t, ht, hend⟩ := coherent_answered h hf ha hcls hop hmode hfree hdir hcode hlen (fun h => .inl (hkaf h)) (g := 3)
        (e := { st := 3, keeper := a, holders := 2 ^ a, used := s.time.cycle }) (by decide) (Nat.succ_ne_zero 2) fun w n hw => by
          rw [← hw]
          exact grantOf_owned hcls hgs w n line
      exact ⟨t, hexec.trans (congrArg _ ht), hend⟩
  · obtain ⟨hf, hexec⟩ := exec_unheld hask h.unheld
    rw [List.mem_singleton.1 hi] at hask
    obtain ⟨-, hsrc, hlen⟩ := askedBy_cxl3_fields hask
    obtain ⟨t, ht, hend⟩ := acquired_answered h hf ha hcls hop hmode hfree hdir hlen hsrc
    exact ⟨t, hexec.trans (congrArg _ ht), hend⟩
  · obtain ⟨hf, hexec⟩ := exec_unheld hask h.unheld
    have hfields : r.len = 64 ∧ (r.src < 13 → r.op = 0x15) := by
      simp only [List.mem_cons, List.not_mem_nil, or_false] at hi
      rcases hi with rfl | rfl | rfl
      · obtain ⟨h1, -, h3⟩ := askedBy_kaf_fields hask
        exact ⟨h3, fun _ => h1⟩
      · obtain ⟨-, h2, h3⟩ := askedBy_cxl3_fields hask
        exact ⟨h3, fun h => absurd h h2⟩
      · obtain ⟨-, h2, h3⟩ := askedBy_cxl3_fields hask
        exact ⟨h3, fun h => absurd h h2⟩
    obtain ⟨hlen, hop⟩ := hfields
    obtain ⟨t, ht, hreq, hbytes, hout, hothers, hdir⟩ := evict_answered h hf ha hcls hmode hfree hlen fun h => .inr (.inr (.inl (hop h)))
    refine ⟨t, hexec.trans (congrArg _ ht), hreq, hbytes, hout, hothers, ?_, fun hbit hkeeper hd => ?_⟩
    · rw [hdir]
      split
      · simp [dirI, bitAt]
      · exact dropAgent_holders ..
    · rw [hdir, dropAgent_of_absent hbit hkeeper hd]
      rcases hd with hd | hd
      · rw [hd]
        rfl
      · exact if_neg hd.2
  · obtain ⟨hf, hexec⟩ := exec_unheld hask h.unheld
    have hkaf : r.src < 13 → 0x10 ≤ r.op ∧ r.op ≤ 0x13 ∨ r.op = 0x40 := by
      simp only [List.mem_cons, List.not_mem_nil, or_false] at hi
      rcases hi with rfl | rfl | rfl
      · obtain ⟨h1, -, -⟩ := askedBy_kaf_fields hask
        omega
      · obtain ⟨h1, -, -⟩ := askedBy_kaf_fields hask
        omega
      · obtain ⟨-, h2, -⟩ := askedBy_cxl_fields hask
        exact fun h => absurd h h2
    obtain ⟨t, ht, hend⟩ := read_answered h hf hcls hlen hmode hcode hkaf
    exact ⟨t, hexec.trans (congrArg _ ht), hend⟩
  · obtain ⟨hf, hexec⟩ := exec_unheld hask h.unheld
    have hop : r.src < 13 → r.op = 0x41 ∨ r.op = 0x14 := by
      simp only [List.mem_cons, List.not_mem_nil, or_false] at hi
      rcases hi with rfl | rfl | rfl
      · obtain ⟨h1, -, -⟩ := askedBy_kaf_fields hask
        exact fun _ => .inr h1
      · obtain ⟨h1, -, -⟩ := askedBy_kaf_fields hask
        exact fun _ => .inl h1
      · exact fun hs => absurd hs (askedBy_cxlMemWr_src hask)
    obtain ⟨t, ht, hend⟩ := write_answered h hf hcls hlen hmode hcode fun h => (hop h).imp_right .inl
    exact ⟨t, hexec.trans (congrArg _ ht), hend⟩

end Sys2Proof.Machine
end

section
/-! PROOFS. Agents that fail, and the recall of an extent in escrow (R343 to R348). -/

namespace Sys2Proof.Machine

/-! ## What a purge and the end of transactions leave of the agents -/

/-- The states of the agents. -/
def agentsOf (s : State) : Tbl Nat := s.coh.agents

theorem agentsOf_of_coh {s t : State} (h : t.coh = s.coh) : agentsOf t = agentsOf s := congrArg Coh.agents h

theorem agentsOf_ite (p : Prop) [Decidable p] (s t : State) : agentsOf (if p then s else t) = if p then agentsOf s else agentsOf t := apply_ite ..

/-- A fold whose steps leave the agents leaves them. -/
theorem agentsOf_foldl {α : Type} {f : State → α → State} (hf : ∀ s a, agentsOf (f s a) = agentsOf s) (l : List α) (s : State) :
    agentsOf (l.foldl f s) = agentsOf s := by
  induction l generalizing s with
  | nil => rfl
  | cons a l ih => exact (ih (f s a)).trans (hf s a)

theorem agentsOf_setDir (line : Nat) (d : Dir) (s : State) : agentsOf (setDir line d s) = agentsOf s := rfl
theorem agentsOf_setTxn (t : Txn) (s : State) : agentsOf (setTxn t s) = agentsOf s := rfl
theorem agentsOf_emit (o : Out) (s : State) : agentsOf (emit o s) = agentsOf s := rfl
theorem agentsOf_bumpObj (i j n w : Nat) (s : State) : agentsOf (bumpObj i j n w s) = agentsOf s := agentsOf_of_coh ((bumpObj_keeps ..).coh rfl)
theorem agentsOf_memStore (a mask : Nat) (bs : List Byte) (poison : Bool) (s : State) : agentsOf (memStore a mask bs poison s) = agentsOf s :=
  agentsOf_of_coh ((memStore_keeps ..).coh rfl)
theorem agentsOf_dropReq (id : Nat) (s : State) : agentsOf (dropReq id s) = agentsOf s := by rw [agentsOf, dropReq_coh]; rfl
theorem agentsOf_answerDone (r : Req) (grant : Nat) (data : List Byte) (s : State) : agentsOf (answerDone r grant data s) = agentsOf s := by
  rw [agentsOf, answerDone_coh]
  rfl
theorem agentsOf_answerFail (r : Req) (code : Nat) (s : State) : agentsOf (answerFail r code s) = agentsOf s :=
  (agentsOf_of_coh ((answerFail_dropped ..).coh rfl)).trans (agentsOf_dropReq ..)
theorem agentsOf_noteTxn (r : Req) (line : Nat) (s : State) : agentsOf (noteTxn r line s) = agentsOf s := agentsOf_of_coh ((noteTxn_keeps ..).coh rfl)
theorem agentsOf_twinLog (src tag line : Nat) (changed : Bool) (s : State) : agentsOf (twinLog src tag line changed s) = agentsOf s :=
  agentsOf_of_coh ((twinLog_keeps ..).coh rfl)

theorem agentsOf_setReq (r : Req) (s : State) : agentsOf (setReq r s) = agentsOf s := by
  show (if s.coh.reqs.any (fun q => q.id == r.id) then ({ s.coh with reqs := s.coh.reqs.map fun q => if q.id = r.id then r else q } : Coh)
    else { s.coh with reqs := s.coh.reqs ++ [r] }).agents = _
  split
  · rfl
  · rfl

theorem agentsOf_performReq (r : Req) (grant : Nat) (s : State) : agentsOf (performReq r grant s).2 = agentsOf s := by
  have hw : ∀ ps, agentsOf (noteWrites r ps s) = agentsOf s := fun _ => agentsOf_of_coh ((noteWrites_keeps ..).coh rfl)
  have hr : ∀ ps, agentsOf (noteReq r ps s) = agentsOf s := fun _ => agentsOf_of_coh ((noteReq_keeps ..).coh rfl)
  have hs : ∀ t, agentsOf (storeReq r t) = agentsOf t := fun _ => agentsOf_of_coh ((storeReq_keeps ..).coh rfl)
  unfold performReq
  simp only [apply_ite Prod.snd, agentsOf_ite, agentsOf_answerFail, agentsOf_answerDone, agentsOf_setReq, agentsOf_emit, hw, hr, hs, ite_self]

/-- The records of a closed transaction leave the agents. -/
theorem agentsOf_logs (r : Req) (changed : Bool) (ls : List Nat) (s : State) :
    agentsOf (ls.foldl (fun s l => noteTxn r l (twinLog r.src r.tag l changed s)) s) = agentsOf s :=
  agentsOf_foldl (fun _ _ => (agentsOf_noteTxn ..).trans (agentsOf_twinLog ..)) ..

theorem agentsOf_clearLines (ls : List Nat) (s : State) : agentsOf (ls.foldl (fun s l => setDir l dirI s) s) = agentsOf s :=
  agentsOf_foldl (fun _ _ => agentsOf_setDir ..) ..

theorem agentsOf_finishReq (t : Txn) (id : Nat) (s : State) : agentsOf (finishReq t id s) = agentsOf s := by
  have hn : ∀ r code n s, agentsOf (noteAnswer r code n s) = agentsOf s := fun _ _ _ _ => agentsOf_of_coh ((noteAnswer_keeps ..).coh rfl)
  unfold finishReq
  split
  · rfl
  · dsimp only
    split
    · exact (agentsOf_logs ..).trans (agentsOf_dropReq ..)
    · split
      · rw [agentsOf_logs, agentsOf_performReq, agentsOf_ite, agentsOf_clearLines, ite_self]
      · exact (agentsOf_logs ..).trans (agentsOf_performReq ..)
      · exact (agentsOf_logs ..).trans (agentsOf_performReq ..)
      · exact (agentsOf_logs ..).trans (agentsOf_performReq ..)
      · simp only [agentsOf_ite, agentsOf_logs, agentsOf_setDir, hn, agentsOf_dropReq, agentsOf_answerDone, agentsOf_performReq, ite_self]

theorem agentsOf_finishTxn (t : Txn) (s : State) : agentsOf (finishTxn t s) = agentsOf s := by
  unfold finishTxn
  extract_lets u
  have hu : agentsOf u = agentsOf s := rfl
  clear_value u
  split
  · exact (agentsOf_finishReq ..).trans hu
  · exact (agentsOf_clearLines ..).trans hu
  · exact hu
  · exact (agentsOf_clearLines ..).trans hu
  · exact (agentsOf_clearLines ..).trans hu
  · exact hu

theorem agentsOf_settle (s : State) : agentsOf (settle s) = agentsOf s := agentsOf_foldl (fun _ _ => agentsOf_finishTxn ..) ..

theorem agentsOf_lineLost (line : Nat) (s : State) : agentsOf (lineLost line s) = agentsOf s := by
  unfold lineLost
  simp only [agentsOf_ite, agentsOf_bumpObj, agentsOf_memStore, agentsOf_setDir, ite_self]

theorem agentsOf_nextCopy (t : Txn) (line : Nat) (s : State) : agentsOf (nextCopy t line s) = agentsOf s := by
  unfold nextCopy
  split
  · exact agentsOf_lineLost ..
  · rfl

theorem agentsOf_applyRsp (t : Txn) (line a rsp : Nat) (data : List Byte) (s : State) : agentsOf (applyRsp t line a rsp data s) = agentsOf s := by
  unfold applyRsp
  simp only [agentsOf_ite, agentsOf_memStore, agentsOf_setDir, ite_self]

theorem agentsOf_unwaitTxn (a : Nat) (s : State) (t : Txn) : agentsOf (unwaitTxn a s t) = agentsOf s := by
  unfold unwaitTxn
  dsimp only
  split
  · rfl
  · rw [agentsOf_ite, agentsOf_applyRsp, agentsOf_setTxn, agentsOf_setTxn, ite_self]

theorem agentsOf_purgeLine (a : Nat) (s : State) (line : Nat) : agentsOf (purgeLine a s line) = agentsOf s := by
  have hset := agentsOf_setDir line
  unfold purgeLine
  dsimp only
  split
  · rfl
  · split
    · exact agentsOf_lineLost ..
    · split
      · split
        · exact (agentsOf_nextCopy ..).trans (hset ..)
        · split
          · exact (agentsOf_nextCopy ..).trans rfl
          · rfl
      · exact hset ..

/-- An agent that takes part and fails is purging (R346). -/
theorem failAgent_agents {s : State} {a : Nat} (h : tget 0 s.coh.agents a = 1) : (failAgent a s).coh.agents = tput 0 s.coh.agents a 2 := by
  unfold failAgent
  rw [if_neg (by rw [h]; decide), if_neg (fun hn => hn h)]
  extract_lets u v w
  have hu : agentsOf u = agentsOf s := agentsOf_foldl (fun _ _ => agentsOf_of_coh ((tollLeave_keeps ..).coh rfl)) ..
  have hv : agentsOf v = tput 0 s.coh.agents a 2 := congrArg (tput 0 · a 2) hu
  have hw : agentsOf w = agentsOf v := agentsOf_foldl (fun _ _ => agentsOf_unwaitTxn ..) ..
  exact (agentsOf_settle _).trans ((agentsOf_foldl (fun _ _ => agentsOf_purgeLine ..) _ _).trans (hw.trans hv))

theorem failAgent_purging {s : State} {a : Nat} (h : tget 0 s.coh.agents a = 1) (hrise : Tbl.Rising s.coh.agents) :
    tget 0 (failAgent a s).coh.agents a = 2 := by
  rw [failAgent_agents h, tget_tput _ _ _ hrise]

/-! ## The recall of an extent in escrow (R344) -/

/-- A transaction that waits for a snoop goes on waiting. -/
theorem settle_waiting {s : State} {t : Txn} (h : s.coh.txns = [t]) (hopen : txnDone t = false) : settle s = s := by
  unfold settle
  rw [h, List.filter_cons_of_neg (by rw [hopen]; decide)]
  rfl

/-- The snoop that a recall sends at once. -/
def snoopAt (c line a : Nat) : Snoop := { line := line, agent := a, op := snpInv, sent := some c }

theorem sendSnoop_kaf {q : Snoop} (h : q.agent < 8) (c fwdAgent fwdTag : Nat) (r : List Snoop × State) :
    sendSnoop c fwdAgent fwdTag r q = (r.1 ++ [{ q with sent := some c }], emit (snoopOut r.2 q fwdAgent fwdTag) r.2) :=
  if_neg fun hn => absurd hn.1 (Nat.not_le.2 h)

/-- A transaction opens with a snoop of an active pier agent. -/
theorem openTxn_one {s : State} {a line : Nat} (ha : a < 8) (hup : agentUp s a = true) (t : Txn) (fwdAgent fwdTag : Nat) :
    openTxn t [(line, a, snpInv)] fwdAgent fwdTag s =
      (emit (snoopOut s (snoopAt (lockCycle t.lines s) line a) fwdAgent fwdTag) s).setCoh fun c =>
        { c with txns := c.txns ++ [{ t with id := c.nextTxn, snoops := [snoopAt (lockCycle t.lines s) line a] }], nextTxn := c.nextTxn + 1 } := by
  have hfilter : [(line, a, snpInv)].filter (fun q => agentUp s q.2.1) = [(line, a, snpInv)] := List.filter_cons_of_pos hup
  unfold openTxn
  rw [hfilter]
  dsimp only [List.map_singleton]
  rw [List.foldl_cons, List.foldl_nil, sendSnoop_kaf ha]
  rfl

theorem exec_escrowRecallWalk {s : State} {ext l a : Nat} (hst : (extOf s ext).st = .escrow) (hstep : (extOf s ext).step = 3)
    (hflight : extInflight s ext = 0) (hlines : extLines s ext = [l]) (htxns : s.coh.txns = []) (hholders : holdersAt s l = [a]) :
    exec (.escrowRecallWalk ext) s = .next (settle (openTxn (newTxn (.recall true) [l]) [(l, a, snpInv)] 15 0 s)) := by
  have hgo : (extLines s ext).filter (fun l => !locked s l) = [l] := by
    rw [hlines, List.filter_cons_of_pos (by rw [locked_of_none htxns]; rfl)]
    rfl
  show execEscrowRecallWalk ext s = _
  unfold execEscrowRecallWalk
  rw [if_neg (fun hn => hn.elim (fun h => h hst) fun hn => hn.elim (fun h => h hstep) fun h => h hflight), hgo]
  dsimp only [List.foldl_cons, List.foldl_nil]
  rw [writeSnoops, hholders]
  rfl

/-- Settles O34: what follows a purge and the end of transactions leaves the agents as the failure set them. -/
theorem agentsFail : Obligations.AgentsFail := by
  unfold Obligations.AgentsFail
  refine ⟨fun s a line c q hq hsent hact hrise harr => ?_, fun s a hact hrise => ?_, fun s v hans hv hact hrise => ?_, fun s v hans hv => ?_,
    fun s a hpurge hst hrise => ?_, fun s ext l a hst hstep hflight hlines htxns hholders ha hup => ?_⟩
  · have hcoh : (carryTo (c + usCycles (obj s 0x2200 1)) s).coh = s.coh := (carryTo_keeps ..).coh rfl
    refine ⟨failAgent a.val (carryTo (c + usCycles (obj s 0x2200 1)) s), ?_, ?_, ?_⟩
    · show execSnoopTimeout a line s = _
      unfold execSnoopTimeout
      rw [hq]
      dsimp only
      rw [hsent]
      dsimp only
      rw [harr, if_neg Bool.false_ne_true]
    · exact failAgent_purging (by rw [hcoh]; exact hact) (by rw [hcoh]; exact hrise)
    · rw [(failAgent_keeps ..).time rfl]
      exact le_carryTo_cycle ..
  · refine ⟨_, rfl, failAgent_purging hact hrise, fun b hb => ?_⟩
    rw [failAgent_agents hact]
    exact tget_tput_ne _ _ _ hrise hb
  · exact ⟨_, next_commanded (f := declareFailed v.toNat) hans (if_pos hv), failAgent_purging hact hrise⟩
  · have href : declareFailed v.toNat s = (abValue, s) := if_neg (Nat.not_lt.2 hv)
    refine congrArg Host.Outcome.next ((if_pos hans).trans ?_)
    rw [href]
    exact written_refused (by decide) s
  · have hnone : s.coh.txns.any (fun t => t.why == .purge) = false := List.any_eq_false.2 fun t ht => by
      rw [beq_iff_eq]
      exact hpurge t ht
    refine ⟨_, if_pos ⟨hst, by rw [hnone]; rfl⟩, ?_, rfl⟩
    refine (tget_tput _ _ _ hrise _).trans ?_
    by_cases h4 : tget 0 s.coh.agents a.val = 4
    · rw [if_pos h4]
    · rw [if_neg h4]
  · have hsettled := settle_waiting (s := openTxn (newTxn (.recall true) [l]) [(l, a, snpInv)] 15 0 s)
      (t := { newTxn (.recall true) [l] with id := s.coh.nextTxn, snoops := [snoopAt (lockCycle [l] s) l a] })
      (by
        rw [openTxn_one ha hup]
        exact congrArg (· ++ _) htxns) rfl
    refine ⟨_, snoopAt (lockCycle [l] s) l a, (exec_escrowRecallWalk hst hstep hflight hlines htxns hholders).trans (congrArg Host.Outcome.next hsettled), ?_⟩
    rw [openTxn_one ha hup]
    refine ⟨rfl, congrArg (· ++ _) htxns, rfl, rfl, rfl, ?_⟩
    have hout : snoopOut s (snoopAt (lockCycle [l] s) l a) 15 0 =
        .kaf a { kafOf snpInv with addr := ownIndex s * 2 ^ 52 + l * 64, fwdAgent := 15, fwdTag := 0 } := if_pos ha
    rw [← hout]
    exact mem_emit ..

end Sys2Proof.Machine
end

section
/-! PROOFS. Responses to snoops, forwarded data, and the lock that comes free (R330, R333 to R336, R340, R342, R346). -/

namespace Sys2Proof.Machine

theorem setTxn_txns {s : State} {t : Txn} (v : Txn) (h : s.coh.txns = [t]) (hid : t.id = v.id) : (setTxn v s).coh.txns = [v] := by
  show s.coh.txns.map _ = _
  rw [h, List.map_singleton, if_pos hid]

/-- Snoops that wait at a CXL agent are sent as earlier ones end; where none waits, nothing changes (R554). -/
theorem sendHeld_none {s : State} {a : Nat} {t : Txn} (h : s.coh.txns = [t]) (hnone : ∀ q ∈ t.snoops, q.agent ≠ a) : sendHeld a s = s := by
  have hany : (t.snoops.any fun q => q.agent == a && q.sent.isNone) = false := List.any_eq_false.2 fun q hq hn =>
    hnone q hq (beq_iff_eq.1 (Bool.and_eq_true_iff.1 hn).1)
  unfold sendHeld
  split
  · rfl
  · rw [h, List.find?_cons_of_neg (by rw [hany]; decide), List.find?_nil]

theorem sendHeld_kaf {a : Nat} (h : a < 8) (s : State) : sendHeld a s = s := if_pos (.inl h)

/-! ## The response to a snoop -/

theorem applyRsp_txns (t : Txn) (line a rsp : Nat) (data : List Byte) (s : State) : (applyRsp t line a rsp data s).coh.txns = s.coh.txns := by
  unfold applyRsp
  show (if _ then memStore (line * 64) (2 ^ 64 - 1) data false s else s).coh.txns = _
  split
  · rw [(memStore_keeps ..).coh rfl]
  · rfl

/-- A response that gives the line up: its agent leaves the entry, and the dirty data that it brings are written. -/
theorem applyRsp_left (t : Txn) (line a : Nat) {rsp : Nat} (data : List Byte) (s : State) (hrise : Tbl.Rising s.coh.dir)
    (hrsp : rsp = 0x27 ∨ rsp = 0x2E) :
    bitAt (dirOf (applyRsp t line a rsp data s) line).holders a = false ∧ (applyRsp t line a rsp data s).mem.bytes =
      (if rsp = 0x2E ∧ t.why ≠ .recall true then mwriteMask s.mem.bytes (line * 64) (2 ^ 64 - 1) data else s.mem.bytes) := by
  unfold applyRsp
  extract_lets d u d'
  have hd' : d' = dropAgent a d := if_pos (by omega)
  have hu : u.coh = s.coh ∧ u.mem.bytes =
      (if rsp = 0x2E ∧ t.why ≠ .recall true then mwriteMask s.mem.bytes (line * 64) (2 ^ 64 - 1) data else s.mem.bytes) := by
    by_cases h : rsp = 0x2E ∧ t.why ≠ .recall true
    · have hu : u = memStore (line * 64) (2 ^ 64 - 1) data false s := if_pos ⟨by omega, by omega, h.2⟩
      rw [hu, if_pos h]
      exact ⟨(memStore_keeps ..).coh rfl, memStore_bytes ..⟩
    · have hu : u = s := if_neg fun hn => h ⟨by omega, hn.2.2⟩
      rw [hu, if_neg h]
      exact ⟨rfl, rfl⟩
  rw [hd']
  clear_value u
  refine ⟨?_, ((setDir_keeps ..).bytes rfl).trans hu.2⟩
  rw [dirOf_setDir (by rw [hu.1]; exact hrise)]
  split
  · simp [dirI, bitAt]
  · exact dropAgent_holders ..

/-- The first of a transaction's two snoops is answered; the other is kept. -/
theorem snoops_rest {q q' : Snoop} {line a : Nat} (hline : q.line = line) (ha : q.agent = a) (hother : q'.agent ≠ a) :
    [q, q'].filter (fun p => !(p.line == line && p.agent == a)) = [q'] := by
  rw [List.filter_cons_of_neg (by simp [hline, ha]), List.filter_cons_of_pos (by simp [hother])]
  rfl

/-- What a response to an invalidation leaves, while another snoop of its transaction is out. -/
theorem snoopAnswer_inv {s : State} {t : Txn} {q q' : Snoop} {line a rsp : Nat} (htxns : s.coh.txns = [t]) (hsnoops : t.snoops = [q, q'])
    (hline : q.line = line) (ha : q.agent = a) (hop : q.op = snpInv) (hsent : q.sent ≠ none) (hother : q'.agent ≠ a) (data : List Byte) :
    snoopAnswer line a rsp data s = setTxn { t with snoops := [q'] } (applyRsp { t with snoops := [q'] } line a rsp data
      (setTxn { t with snoops := [q'] } s)) := by
  have hsome : q.sent.isSome = true := Option.isSome_iff_ne_none.2 hsent
  have hfind : s.coh.txns.find? (fun t => t.snoops.any fun q => q.line == line && q.agent == a && q.sent.isSome) = some t := by
    rw [htxns]
    exact List.find?_cons_of_pos (by rw [hsnoops]; simp [hline, ha, hsome])
  have hq : (t.snoops.find? fun q => q.line == line && q.agent == a) = some q := by
    rw [hsnoops]
    exact List.find?_cons_of_pos (by simp [hline, ha])
  have htxn := setTxn_txns { t with snoops := [q'] } htxns rfl
  have hfwd : (snpInv == snpShrFwd || snpInv == snpOwnFwd) = false := rfl
  unfold snoopAnswer
  rw [hfind]
  dsimp only
  rw [hq, hsnoops, snoops_rest hline ha hother, Option.map_some, Option.getD_some, hop, if_neg (by decide), hfwd, Bool.false_and, Bool.false_and,
    if_neg Bool.false_ne_true, if_neg Bool.false_ne_true]
  have hv := (applyRsp_txns { t with snoops := [q'] } line a rsp data (setTxn { t with snoops := [q'] } s)).trans htxn
  generalize applyRsp { t with snoops := [q'] } line a rsp data (setTxn { t with snoops := [q'] } s) = v at hv ⊢
  have hset := setTxn_txns { t with snoops := [q'] } hv rfl
  rw [sendHeld_none hset fun p hp => by rw [List.mem_singleton.1 hp]; exact hother, settle_waiting hset rfl]

theorem sends_setTxn (t : Txn) (s : State) (l : Nat) : sends (setTxn t s) l = sends s l := rfl

theorem sendKaf_out {s : State} {l : Nat} (h : sends s l = true) (m : KafMsg) : .kaf l m ∈ (sendKaf l m s).out := sendFor_out h ..

/-! ## The obligation -/

theorem setTxn_dir (t : Txn) (s : State) : (setTxn t s).coh.dir = s.coh.dir := rfl
theorem setTxn_bytes (t : Txn) (s : State) : (setTxn t s).mem.bytes = s.mem.bytes := rfl

/-- The response that gives a line up leaves the entry without its agent. -/
theorem snoopAnswer_gives_up {s : State} {t : Txn} {q q' : Snoop} {line a rsp : Nat} (htxns : s.coh.txns = [t]) (hsnoops : t.snoops = [q, q'])
    (hline : q.line = line) (ha : q.agent = a) (hop : q.op = snpInv) (hsent : q.sent ≠ none) (hother : q'.agent ≠ a) (data : List Byte)
    (hrise : Tbl.Rising s.coh.dir) (hrsp : rsp = 0x27 ∨ rsp = 0x2E) (hwhy : t.why ≠ .recall true) :
    (snoopAnswer line a rsp data s).coh.txns = [{ t with snoops := [q'] }] ∧ bitAt (dirOf (snoopAnswer line a rsp data s) line).holders a = false ∧
      (snoopAnswer line a rsp data s).mem.bytes =
        (if rsp = 0x2E then mwriteMask s.mem.bytes (line * 64) (2 ^ 64 - 1) data else s.mem.bytes) := by
  rw [snoopAnswer_inv htxns hsnoops hline ha hop hsent hother]
  have htxn := setTxn_txns { t with snoops := [q'] } htxns rfl
  have hdir := setTxn_dir { t with snoops := [q'] } s
  have hbytes := setTxn_bytes { t with snoops := [q'] } s
  have hv := applyRsp_txns { t with snoops := [q'] } line a rsp data (setTxn { t with snoops := [q'] } s)
  have happly := applyRsp_left { t with snoops := [q'] } line a data (setTxn { t with snoops := [q'] } s) (by rw [hdir]; exact hrise) hrsp
  generalize setTxn { t with snoops := [q'] } s = w at *
  obtain ⟨hholders, hmem⟩ := happly
  generalize applyRsp { t with snoops := [q'] } line a rsp data w = v at *
  refine ⟨setTxn_txns _ (hv.trans htxn) rfl, ?_, ?_⟩
  · rw [dirOf_of_coh (setTxn_dir ..)]
    exact hholders
  · rw [setTxn_bytes, hmem, hbytes]
    by_cases h : rsp = 0x2E
    · rw [if_pos h, if_pos ⟨h, hwhy⟩]
    · rw [if_neg h, if_neg fun hn => h hn.1]

/-- A surviving holder's copy is written, and the entry is S (R346). -/
theorem exec_rspCopy {s : State} {port : Fin 13} {m : KafMsg} {t : Txn} {q q' : Snoop} (hport : port.val < 8) (hup : agentUp s port.val = true)
    (hop : m.op = 0x31) (htxns : s.coh.txns = [t]) (hsnoops : t.snoops = [q, q']) (hline : q.line = rspLine m) (ha : q.agent = port.val)
    (hcopy : q.op = snpCopy) (hother : q'.agent ≠ port.val) : ∃ u : State, exec (.rspCopy port m) s =
      .next (setDir (rspLine m) { dirOf s (rspLine m) with st := 1, keeper := 15 } u) ∧ u.coh.txns = [{ t with snoops := [q'] }] ∧
        u.coh.dir = s.coh.dir ∧ u.mem.bytes = mwriteMask s.mem.bytes (rspLine m * 64) (2 ^ 64 - 1) m.data := by
  have hfind : s.coh.txns.find? (fun t => t.snoops.any fun q => q.line == rspLine m && q.agent == port.val && q.op == snpCopy) = some t := by
    rw [htxns]
    exact List.find?_cons_of_pos (by rw [hsnoops]; simp [hline, ha, hcopy])
  have hcoh := (memStore_keeps (rspLine m * 64) (2 ^ 64 - 1) m.data false s).coh rfl
  have hbytes := memStore_bytes (rspLine m * 64) (2 ^ 64 - 1) m.data false s
  have hexec : exec (.rspCopy port m) s = .next (settle (setDir (rspLine m)
      { dirOf (setTxn { t with snoops := [q'] } (memStore (rspLine m * 64) (2 ^ 64 - 1) m.data false s)) (rspLine m) with st := 1, keeper := 15 }
      (setTxn { t with snoops := [q'] } (memStore (rspLine m * 64) (2 ^ 64 - 1) m.data false s)))) := by
    show execRspCopy port m s = _
    unfold execRspCopy
    dsimp only
    rw [hup, if_neg (by rw [hop]; simp only [Bool.not_true, Bool.false_eq_true, ne_eq, not_true_eq_false, or_false]; omega), hfind]
    dsimp only
    rw [hsnoops, snoops_rest hline ha hother]
  generalize memStore (rspLine m * 64) (2 ^ 64 - 1) m.data false s = w at *
  have htxn := setTxn_txns (s := w) (t := t) { t with snoops := [q'] } (by rw [hcoh]; exact htxns) rfl
  have hdir : dirOf (setTxn { t with snoops := [q'] } w) (rspLine m) = dirOf s (rspLine m) :=
    dirOf_of_coh ((setTxn_dir ..).trans (by rw [hcoh])) _
  rw [hdir] at hexec
  exact ⟨_, hexec.trans (congrArg _ (settle_waiting (t := { t with snoops := [q'] }) htxn rfl)), htxn, (setTxn_dir ..).trans (by rw [hcoh]), (setTxn_bytes ..).trans hbytes⟩

/-- A pending writeback is waited for (R340). -/
theorem exec_rspWbPend {s : State} {port : Fin 13} {m : KafMsg} {t : Txn} {q : Snoop} (hport : port.val < 8) (hup : agentUp s port.val = true)
    (hop : m.op = 0x32) (htxns : s.coh.txns = [t]) (hsnoops : t.snoops = [q]) (hline : q.line = rspLine m) (ha : q.agent = port.val)
    (hkeeper : (dirOf s (rspLine m)).keeper = port.val) (hst : (dirOf s (rspLine m)).st = 3) :
    exec (.rspWbPend port m) s = .next (setTxn { t with snoops := [], wb := t.wb ++ [(rspLine m, port.val)], fwd := false } s) := by
  have hfind : s.coh.txns.find? (fun t => t.snoops.any fun q => q.line == rspLine m && q.agent == port.val) = some t := by
    rw [htxns]
    exact List.find?_cons_of_pos (by rw [hsnoops]; simp [hline, ha])
  have hnone : [q].filter (fun p => !(p.line == rspLine m && p.agent == port.val)) = [] := List.filter_cons_of_neg (by simp [hline, ha])
  have hopen : txnDone { t with snoops := [], wb := t.wb ++ [(rspLine m, port.val)], fwd := false } = false := by
    simp [txnDone]
  show execRspWbPend port m s = _
  unfold execRspWbPend
  dsimp only
  rw [hup, if_neg (by rw [hop]; simp only [Bool.not_true, Bool.false_eq_true, ne_eq, not_true_eq_false, or_false]; omega), hfind]
  dsimp only
  rw [hsnoops, hnone, hkeeper, hst, beq_self_eq_true, Bool.true_and]
  have htxn := setTxn_txns { t with snoops := [], wb := t.wb ++ [(rspLine m, port.val)], fwd := false } htxns rfl
  exact congrArg Host.Outcome.next ((congrArg settle (sendHeld_kaf hport _)).trans (settle_waiting htxn hopen))

/-- The requester's acknowledgement ends the wait for it (R330, R335). -/
theorem exec_fwdAck {s : State} {port : Fin 13} {m : KafMsg} {t : Txn} {r : Req} {q : Snoop} {l : List Snoop} (hport : port.val < 8)
    (hup : agentUp s port.val = true) (hop : m.op = 0x33) (htxns : s.coh.txns = [t]) (hsnoops : t.snoops = q :: l) (hfwd : t.fwd = true)
    (hack : t.ack = false) (hwhy : t.why = .req r.id) (hreq : reqOf s r.id = some r) (ha : r.agent = some port.val) (htag : r.tag = m.tag) :
    exec (.fwdAck port m) s = .next (setTxn { t with ack := true } s) := by
  show execFwdAck port m s = _
  unfold execFwdAck
  rw [hup, if_neg (by rw [hop]; simp only [Bool.not_true, Bool.false_eq_true, ne_eq, not_true_eq_false, or_false]; omega)]
  dsimp only
  rw [htxns, List.find?_cons_of_pos (by rw [hfwd, hack, hwhy]; dsimp only; rw [hreq]; simp [ha, htag])]
  dsimp only
  have htxn := setTxn_txns { t with ack := true } htxns rfl
  rw [settle_waiting (t := { t with ack := true }) htxn (by simp [txnDone, hsnoops])]

/-- Forwarded data go on to the requester (R334). -/
theorem exec_forwardedData {s : State} {port : Fin 13} {m : KafMsg} {t : Txn} {r : Req} (hport : port.val < 8) (hup : agentUp s port.val = true)
    (hlink : linkUp s port.val = true) (hlo : 0x18 ≤ m.op) (hhi : m.op ≤ 0x1B) (htxns : s.coh.txns = [t]) (hfwd : t.fwd = true)
    (hgot : t.got = false) (hwhy : t.why = .req r.id) (hreq : reqOf s r.id = some r) (ha : r.agent = some m.fwdAgent) (htag : r.tag = m.fwdTag)
    (hto : agentUp s m.fwdAgent = true) : exec (.forwardedData port m) s =
      .next (sendKaf m.fwdAgent { m with tag := m.fwdTag, addr := 0 }
        (setTxn { t with got := true, fwdOp := m.op } (linkTally false port.val (kafSlots 64) s))) := by
  have hcoh : (setTxn { t with got := true, fwdOp := m.op } (linkTally false port.val (kafSlots 64) s)).coh.agents = s.coh.agents :=
    (agentsOf_setTxn ..).trans (agentsOf_of_coh ((linkTally_keeps ..).coh rfl))
  have hto' : agentUp (setTxn { t with got := true, fwdOp := m.op } (linkTally false port.val (kafSlots 64) s)) m.fwdAgent = true := by
    rw [agentUp, hcoh]
    exact hto
  show execForwardedData port m s = _
  unfold execForwardedData
  rw [hup, hlink, if_neg (by simp only [Bool.not_true, Bool.false_eq_true, false_or]; omega)]
  dsimp only
  rw [htxns, List.find?_cons_of_pos (by rw [hfwd, hgot, hwhy]; dsimp only; rw [hreq]; simp [ha, htag])]
  dsimp only
  rw [if_pos hto']

/-- Settles O32: each response finds its one snoop, and the transaction waits for what is left of it. -/
theorem snoopsAreAnswered : Obligations.SnoopsAreAnswered := by
  unfold Obligations.SnoopsAreAnswered
  refine ⟨fun s port m t q q' hport hup hsunk hop htxns hsnoops hq hsent hother hwhy hrise => ?_,
    fun s port a t q q' hup htxns hsnoops hq hsent hother hwhy hrise => ?_, fun s port a hup => ?_,
    fun s port m t q q' hport hup hop htxns hsnoops hq hother hrise => ?_,
    fun s port m t q hport hup hop htxns hsnoops hline ha hkeeper hst => ?_,
    fun s port m t r q l hport hup hop htxns hsnoops hfwd hack hwhy hreq ha htag => ?_,
    fun s port m t r hport hup hlink hlo hhi htxns hfwd hgot hwhy hreq ha htag hto hsends => ?_, fun s line r hlock hnext hpieces => ?_⟩
  · obtain ⟨htxn, hholders, hmem⟩ := snoopAnswer_gives_up (rsp := m.op) htxns hsnoops (congrArg Snoop.line hq) (congrArg Snoop.agent hq)
      (congrArg Snoop.op hq) hsent hother m.data hrise hop hwhy
    exact ⟨_, if_neg (by rw [hup, hsunk]; simp only [Bool.not_true, Bool.false_eq_true, false_or, or_false]; omega), htxn, hholders, hmem⟩
  · obtain ⟨htxn, hholders, hmem⟩ := snoopAnswer_gives_up (rsp := 0x27) htxns hsnoops (congrArg Snoop.line hq) (congrArg Snoop.agent hq)
      (congrArg Snoop.op hq) hsent hother [] hrise (.inl rfl) hwhy
    refine ⟨_, ?_, htxn, hholders, hmem⟩
    show execBiSnoopResponse port 0 a s = _
    unfold execBiSnoopResponse
    dsimp only
    rw [hup, if_neg (by decide), if_neg (by decide), if_pos rfl]
  · show execBiSnoopResponse port 3 a s = _
    unfold execBiSnoopResponse
    dsimp only
    rw [hup, if_neg (by decide), if_pos rfl]
  · obtain ⟨u, hexec, htxn, hdir, hmem⟩ := exec_rspCopy hport hup hop htxns hsnoops (congrArg Snoop.line hq) (congrArg Snoop.agent hq)
      (congrArg Snoop.op hq) hother
    have hentry := dirOf_setDir (s := u) (by rw [hdir]; exact hrise) (rspLine m) { dirOf s (rspLine m) with st := 1, keeper := 15 }
    rw [if_neg (Nat.succ_ne_zero 0)] at hentry
    refine ⟨_, hexec, htxn, ?_, ?_, ((setDir_keeps ..).bytes rfl).trans hmem⟩
    · rw [hentry]
    · rw [hentry]
  · exact ⟨_, exec_rspWbPend hport hup hop htxns hsnoops hline ha hkeeper hst, setTxn_txns _ htxns rfl, rfl⟩
  · exact ⟨_, exec_fwdAck hport hup hop htxns hsnoops hfwd hack hwhy hreq ha htag, setTxn_txns _ htxns rfl⟩
  · refine ⟨_, exec_forwardedData hport hup hlink hlo hhi htxns hfwd hgot hwhy hreq ha htag hto, ?_, ?_⟩
    · rw [(sendKaf_keeps ..).coh rfl]
      exact setTxn_txns (t := t) _ (by rw [(linkTally_keeps ..).coh rfl]; exact htxns) rfl
    · exact sendKaf_out ((sends_setTxn ..).trans ((sends_of_links ((linkTally_keeps ..).links rfl) _).trans hsends)) _
  · show execLineLockAcquire line s = _
    unfold execLineLockAcquire
    rw [hlock, if_neg (by decide), hnext]
    dsimp only
    rw [if_neg fun hn => hpieces (List.isEmpty_iff.1 hn)]

end Sys2Proof.Machine
end

section
/-! PROOFS. Writebacks, and the answers of other members (R331, R339, R340, R342, R372, R578, R594). -/

namespace Sys2Proof.Machine

/-! ## The keeper's data -/

theorem settle_idle {s : State} (h : s.coh.txns = []) : settle s = s := by
  unfold settle
  rw [h]
  rfl

theorem twinLog_single {s : State} (h : s.span.twin = .single) (src tag line : Nat) (changed : Bool) : twinLog src tag line changed s = s := by
  have hpaired : paired s = false := by simp [paired, h]
  unfold twinLog
  rw [hpaired]
  rfl

/-- The keeper of an X entry leaves it in state I, and its data are written. -/
theorem writeBack_keeper {s : State} {a line : Nat} (hkeeper : (dirOf s line).keeper = a) (hst : (dirOf s line).st = 3)
    (hext : (extOf s (line / 2 ^ 24)).st ≠ .escrow) (hrise : Tbl.Rising s.coh.dir) (htxns : s.coh.txns = []) (mask : Nat) (data : List Byte)
    (poison : Bool) : dirOf (writeBack a line mask data poison s) line = dirI ∧ (writeBack a line mask data poison s).coh.txns = [] ∧
      (writeBack a line mask data poison s).mem.bytes = mwriteMask s.mem.bytes (line * 64) mask data := by
  have hcoh := (memStore_keeps (line * 64) mask data poison s).coh rfl
  have hbytes := memStore_bytes (line * 64) mask data poison s
  have hdrop : dropAgent a (dirOf s line) = dirI := if_pos (.inr ⟨hkeeper, hst⟩)
  have hne : ((extOf s (line / 2 ^ 24)).st != .escrow) = true := bne_iff_ne.2 hext
  unfold writeBack
  dsimp only
  rw [hkeeper, hst, beq_self_eq_true, hne, hdrop]
  rw [if_pos (show (true && ((3 : Nat) == 3 || (3 : Nat) == 4)) = true from rfl),
    if_pos (show (true && ((3 : Nat) == 3 || (3 : Nat) == 4) && true) = true from rfl)]
  generalize memStore (line * 64) mask data poison s = u at hcoh hbytes
  refine ⟨?_, ?_, hbytes⟩
  · refine (tget_tput _ _ _ (by rw [hcoh]; exact hrise) _).trans ?_
    split
    · rfl
    · rfl
  · show u.coh.txns.map _ = []
    rw [hcoh, htxns]
    rfl

/-- The writeback of a pier's line, served. -/
theorem serveWb_keeper {s u : State} {r : Req} {pa n : Nat} (hplace : placeReq r s = (.at_ [(pa, n)], u)) (hown : pa / 2 ^ 52 = ownIndex u)
    (hdec : decoded u (pa % 2 ^ 52) = true) : serveWb r s =
      settle (twinLog r.src r.src (pa % 2 ^ 52 / 64) true (answerDone r 0 [] (writeBack r.src (pa % 2 ^ 52 / 64) (2 ^ 64 - 1) r.data false u))) := by
  unfold serveWb
  rw [hplace]
  dsimp only
  rw [if_neg (fun hn => hn hown), hdec]
  rfl

/-- What a keeper's writeback leaves, once it is answered. -/
theorem answered_writeBack {s : State} {r : Req} {a line : Nat} (hheard : Heard s r) (hkeeper : (dirOf s line).keeper = a)
    (hst : (dirOf s line).st = 3) (hext : (extOf s (line / 2 ^ 24)).st ≠ .escrow) (hrise : Tbl.Rising s.coh.dir) (htxns : s.coh.txns = [])
    (mask : Nat) (data : List Byte) (poison : Bool) : ∃ t, answerDone r 0 [] (writeBack a line mask data poison s) = t ∧ t.coh.txns = [] ∧
      t.span.twin = s.span.twin ∧ dirOf t line = dirI ∧ doneMsg r 0 [] ∈ t.out ∧ t.mem.bytes = mwriteMask s.mem.bytes (line * 64) mask data := by
  obtain ⟨hdir, htxns', hbytes⟩ := writeBack_keeper hkeeper hst hext hrise htxns mask data poison
  have hk := writeBack_keeps a line mask data poison s
  generalize writeBack a line mask data poison s = v at *
  have hcoh := answerDone_coh r 0 [] v
  refine ⟨_, rfl, ?_, ?_, ?_, answerDone_out (grant := 0) (hheard.of_same (hk.links rfl) (hk.span rfl)) (by decide) [],
    ((answerDone_keeps ..).bytes rfl).trans hbytes⟩
  · rw [hcoh]
    exact htxns'
  · exact ((answerDone_keeps ..).twin rfl).trans (hk.twin rfl)
  · exact (dirOf_of_coh (by rw [hcoh]) line).trans hdir

/-- A write of a CXL processor that the line names as its keeper is a writeback, taken at once (R340, R342). -/
theorem exec_cxlMemWr_keeper {s u : State} {port : Fin 4} {tag : Nat} {addr : BitVec 57} {mask : BitVec 64} {data : List Byte} {poison : Bool}
    {pa n : Nat} {r : Req}
    (hr : r = { cxlReq port.val 0x104 tag addr.toNat .uw s with cls := .wb, arg := mask.toNat, data := data.take 64, poison := poison })
    (hon : cxlOn s port.val = true) (hcxl3 : cxl3 s port.val = true) (hup : agentUp s (8 + port.val) = true)
    (hplace : placeReq r s = (.at_ [(pa, n)], u)) (hown : pa / 2 ^ 52 = ownIndex s)
    (hkeeper : (dirOf s (pa % 2 ^ 52 / 64)).keeper = 8 + port.val) (hst : (dirOf s (pa % 2 ^ 52 / 64)).st = 3) :
    exec (.cxlMemWr port tag addr mask data poison) s =
      .next (settle (answerDone r 0 [] (writeBack (8 + port.val) (pa % 2 ^ 52 / 64) mask.toNat data poison (tookId u)))) := by
  show execCxlMemWr port tag addr mask data poison s = _
  unfold execCxlMemWr
  dsimp only
  rw [hon, if_neg (by decide)]
  subst hr
  rw [hplace]
  dsimp only
  rw [hcxl3, hup, hown, hkeeper, hst, beq_self_eq_true, beq_self_eq_true, beq_self_eq_true]
  exact if_pos rfl

/-! ## The answers of other members -/

/-- A message of a span port for another member is one of a request's rows, and goes on (R578). -/
theorem exec_spanRemoteForward {s : State} {port : Fin 13} {m : KafMsg} {l : Nat} (hport : 8 ≤ port.val) (hup : linkUp s port.val = true)
    (hop : m.op = 0x13 ∨ m.op = 0x14 ∨ m.op = 0x40 ∨ m.op = 0x41) (hother : m.addr / 2 ^ 52 ≠ ownIndex s)
    (hroute : routesTo s (m.addr / 2 ^ 52) = [l]) (hl : l ≠ port.val) : exec (.spanRemoteForward port m) s = .next (sendKaf l m s) := by
  have htransit : transit port.val m s = some (sendKaf l m s) := by
    unfold transit
    rw [if_pos ⟨hport, hother⟩, hroute, List.foldl_cons, List.foldl_nil, if_neg hl]
  have harrive : ∀ cls len, kafArrive port.val m.op m cls len s = sendKaf l m s := fun cls len => by
    unfold kafArrive
    rw [if_neg (by simp [hup]), htransit]
  refine congrArg Host.Outcome.next ?_
  rcases hop with h | h | h | h
  all_goals
    rw [h] at harrive ⊢
    exact harrive ..

/-- A member's answer ends what was asked of it (R372). -/
theorem exec_blkData {s : State} {port : Fin 13} {m : KafMsg} {q : RemoteAsk} (hport : 8 ≤ port.val) (hup : linkUp s port.val = true)
    (hfind : (s.coh.asks.find? fun q => q.tag == m.tag && (routesTo s q.index).contains port.val) = some q) (hflight : q.flight = true)
    (hop : m.op = 0x42) : exec (.blkData port m) s = .next (remoteFlight q 0 m.data
      (linkTally false port.val (kafSlots m.data.length) (s.setCoh fun c => { c with asks := c.asks.filter fun p => p ≠ q }))) := by
  show execBlkData port m s = _
  unfold execBlkData
  rw [hup, if_neg (by simp only [Bool.not_true, Bool.false_eq_true, or_false]; omega), hfind]
  dsimp only
  rw [hflight, if_pos rfl, if_pos (.inl hop)]

/-- The piece of a descriptor's block that an answer brings. -/
theorem remoteFlight_read {s : State} {q : RemoteAsk} {f : Flight} (hf : flightOf s q.who = some f) (hwrite : q.write = false) (code : Nat)
    (data : List Byte) : remoteFlight q code data s =
      setFlight { f with remote := f.remote.map fun r => if r.1 = q.pa then (r.1, some (code, data)) else r } s := by
  unfold remoteFlight
  rw [hf]
  dsimp only
  rw [hwrite]
  rfl

/-- Settles O33: the keeper's data go to memory and the line to state I; the rest goes through the one message, ask or request. -/
theorem writebacksAndAnswers : Obligations.WritebacksAndAnswers := by
  unfold Obligations.WritebacksAndAnswers
  refine ⟨fun s port m r line u hr hport hop hsends hup hlive hone hplace hlow hdec htxns hrise hkeeper hst hext => ?_,
    fun s port tag a mask data poison r line u hr hon hcxl3 hup hdown hplace hlow htxns hrise hkeeper hst hext => ?_,
    fun s port m l hport hup hop hother hroute hl hsends => ?_, fun s port m q f hport hup hfind hflight hwrite hf hop => ?_,
    fun s id r hr hstage hrelay hdead => ?_⟩
  · have hk : Keeps 0x605386 s u := by
      have hp := placeReq_keeps r (linkTally false port.val 96 (tookId s))
      rw [hplace] at hp
      exact hp.step ((linkTally_keeps ..).step ((tookId_keeps s).mono))
    have hown : (ownIndex u * 2 ^ 52 + line * 64) / 2 ^ 52 = ownIndex u := by omega
    have hmod : (ownIndex u * 2 ^ 52 + line * 64) % 2 ^ 52 = line * 64 := by omega
    have hline : line * 64 / 64 = line := Nat.mul_div_cancel _ (by decide)
    have hfields : r.src = port.val ∧ r.op = m.op ∧ r.data = m.data ∧ r.dead = false ∧ r.waited = false := by
      rw [hr]
      exact ⟨rfl, rfl, rfl, rfl, rfl⟩
    obtain ⟨hsrc, hro, hdata, hdead, hwaited⟩ := hfields
    have hheard : Heard s r := ⟨hdead, hwaited, by omega, fun _ => by rw [hsrc]; exact hsends, hone⟩
    have hexec := exec_wbDirty hport hop (Bool.and_eq_true_iff.1 hsends).1 hup hlive hone
    rw [← hr, serveWb_keeper hplace hown (by rw [hmod]; exact hdec), hmod, hline, hsrc, hdata] at hexec
    have hcoh := hk.coh rfl
    obtain ⟨t, ht, htxns', htwin, hdir, hout, hbytes⟩ := answered_writeBack (a := port.val) (line := line)
      (hheard.of_same (hk.links rfl) (hk.span rfl)) (by rw [dirOf_of_coh (congrArg Coh.dir hcoh)]; exact hkeeper)
      (by rw [dirOf_of_coh (congrArg Coh.dir hcoh)]; exact hst) (by rw [extOf_of_led (hk.led rfl)]; exact hext) (by rw [hcoh]; exact hrise)
      (by rw [hcoh]; exact htxns) (2 ^ 64 - 1) m.data false
    rw [ht, twinLog_single (by rw [htwin, hk.span rfl]; exact hone), settle_idle htxns'] at hexec
    refine ⟨t, hexec, hdir, ?_, by rw [hbytes, hk.bytes rfl]⟩
    rw [doneOut_eq (fun _ => .inr (.inr (.inr (hro.trans hop)))) (.inl rfl)]
    exact hout
  · have hk : Keeps 0x605386 s (tookId u) := by
      have hp := placeReq_keeps r s
      rw [hplace] at hp
      exact (tookId_keeps u).step hp.mono
    have hown : (ownIndex s * 2 ^ 52 + line * 64) / 2 ^ 52 = ownIndex s := by omega
    have hmod : (ownIndex s * 2 ^ 52 + line * 64) % 2 ^ 52 / 64 = line := by omega
    have hfields : r.src = 0x10 + port.val ∧ r.tag = tag ∧ r.dead = false ∧ r.waited = false := by
      rw [hr]
      exact ⟨rfl, rfl, rfl, rfl⟩
    obtain ⟨hsrc, htag, hdead, hwaited⟩ := hfields
    have hone : s.span.twin = .single := beq_iff_eq.1 (Bool.and_eq_true_iff.1 hcxl3).2
    have hport := port.isLt
    have hheard : Heard s r := ⟨hdead, hwaited, by omega, fun h => by omega, hone⟩
    have hexec := exec_cxlMemWr_keeper hr hon hcxl3 hup hplace hown (by rw [hmod]; exact hkeeper) (by rw [hmod]; exact hst)
    rw [hmod] at hexec
    have hcoh := hk.coh rfl
    obtain ⟨t, ht, htxns', -, hdir, hout, hbytes⟩ := answered_writeBack (a := 8 + port.val) (line := line)
      (hheard.of_same (hk.links rfl) (hk.span rfl)) (by rw [dirOf_of_coh (congrArg Coh.dir hcoh)]; exact hkeeper)
      (by rw [dirOf_of_coh (congrArg Coh.dir hcoh)]; exact hst) (by rw [extOf_of_led (hk.led rfl)]; exact hext) (by rw [hcoh]; exact hrise)
      (by rw [hcoh]; exact htxns) mask.toNat data poison
    rw [ht, settle_idle htxns'] at hexec
    refine ⟨t, hexec, hdir, ?_, by rw [hbytes, hk.bytes rfl]⟩
    have hmsg : doneMsg r 0 [] = Out.cxl port.val 0 tag 0 [] := by
      rw [← doneOut_eq (fun h => by omega) (.inl rfl), doneOut, if_neg (by omega), hsrc, htag, Nat.add_sub_cancel_left]
      rfl
    rw [← hmsg]
    exact hout
  · rw [exec_spanRemoteForward hport hup hop hother hroute hl]
    exact ⟨_, rfl, (sendKaf_keeps ..).coh rfl, (sendKaf_keeps ..).mem rfl, sendKaf_out hsends m⟩
  · have hk := linkTally_keeps false port.val (kafSlots m.data.length) (s.setCoh fun c => { c with asks := c.asks.filter fun p => p ≠ q })
    refine ⟨_, (exec_blkData hport hup hfind hflight hop).trans (congrArg _ (remoteFlight_read
      ((flightOf_of_attn (hk.attn rfl) _).trans hf) hwrite 0 m.data)), fun hmem => ?_, fun g hg hid => ?_⟩
    · have hmem : q ∈ (linkTally false port.val (kafSlots m.data.length) (s.setCoh fun c => { c with asks := c.asks.filter fun p => p ≠ q })).coh.asks := hmem
      rw [hk.coh rfl] at hmem
      have hne : decide (q ≠ q) = true := (List.mem_filter.1 hmem).2
      exact of_decide_eq_true hne rfl
    · obtain ⟨x, -, hx⟩ := List.mem_map.1 hg
      by_cases hxf : x.id = f.id
      · rw [if_pos hxf] at hx
        rw [← hx]
      · rw [if_neg hxf] at hx
        exact absurd (hx ▸ hid) hxf
  · have hcoh := answerDone_coh r 0 [] s
    refine ⟨answerDone r 0 [] s, ?_, ((answerDone_dropped ..).mem rfl).trans ((dropReq_keeps ..).mem rfl), by rw [hcoh], fun x hx => ?_⟩
    · show execRelayedWriteAck id s = _
      unfold execRelayedWriteAck
      rw [hr]
      exact if_pos ⟨hstage, hrelay⟩
    · rw [hcoh] at hx
      exact bne_iff_ne.1 (List.mem_filter.1 hx).2

end Sys2Proof.Machine
end

section
/-! PROOFS. The record of one KAF link, while the others stand: what each operation on a link leaves of it (R460, R480, R481, R489). -/

namespace Sys2Proof.Machine

/-! ## One link's record -/

/-- In `t` link `l` has the record `k`, and every other link that of `s`. -/
structure LinkIs (l : Nat) (k : Link) (s t : State) : Prop where
  rec_ : linkOf t l = k
  others : OtherLinks l s t
  rising : Tbl.Rising t.links.link

section
variable {s t u : State} {l : Nat} {k : Link}

theorem LinkIs.refl (h : Tbl.Rising s.links.link) (l : Nat) : LinkIs l (linkOf s l) s s := ⟨rfl, fun _ _ => rfl, h⟩

theorem LinkIs.of_links (h : LinkIs l k s t) (hl : u.links = t.links) : LinkIs l k s u where
  rec_ := (linkOf_of_links hl l).trans h.rec_
  others := fun x hx => (linkOf_of_links hl x).trans (h.others x hx)
  rising := by rw [hl]; exact h.rising

theorem LinkIs.set (h : LinkIs l k s t) (v : Link) : LinkIs l v s (setLink l v t) where
  rec_ := linkOf_setLink h.rising ..
  others := fun x hx => (linkOf_setLink_ne h.rising hx v).trans (h.others x hx)
  rising := tput_rising _ _ h.rising _

theorem LinkIs.count (h : LinkIs l k s t) (i : Nat) : LinkIs l (k.counted i) s (linkCount l i t) := by
  unfold linkCount
  rw [h.rec_]
  exact h.set _

theorem LinkIs.enter (h : LinkIs l k s t) (st : Nat) : LinkIs l { k with st := st, since := t.time.cycle } s (linkTo l st t) := by
  unfold linkTo
  rw [h.rec_]
  exact h.set _

/-- The link's record in another form. -/
theorem LinkIs.congr (h : LinkIs l k s t) {k' : Link} (hk : k = k') : LinkIs l k' s t := hk ▸ h

/-- A link that goes down loses its record but for what R481 keeps. -/
theorem LinkIs.falls (h : LinkIs l k s t) (hst : k.st ≠ 0) (htime : t.time.cycle = s.time.cycle) (reason : Nat) :
    Fell l reason k s (linkDown l reason t) := by
  unfold linkDown
  rw [h.rec_, if_neg hst]
  dsimp only
  have hset := h.set { ({} : Link) with reason := reason, since := t.time.cycle, counts := k.counts, retrains := k.retrains, rtt := k.rtt }
  have ht : (setLink l { ({} : Link) with reason := reason, since := t.time.cycle, counts := k.counts, retrains := k.retrains, rtt := k.rtt } t).time = t.time :=
    (setLink_keeps ..).time rfl
  generalize setLink l { ({} : Link) with reason := reason, since := t.time.cycle, counts := k.counts, retrains := k.retrains, rtt := k.rtt } t = v at *
  have hu : Keeps 0x200086 v (telemetry 6 l (emcyRaise 6 0x5000 (l + 1) (linkStat (linkOf v l)) v)) :=
    (telemetry_keeps ..).step ((emcyRaise_keeps ..).mono)
  generalize telemetry 6 l (emcyRaise 6 0x5000 (l + 1) (linkStat (linkOf v l)) v) = u at *
  have hrec := hset.of_links (hu.links rfl)
  have htu : u.time.cycle = t.time.cycle := by rw [hu.time rfl, ht]
  exact ⟨u, by rw [hrec.rec_, htu], htu.trans htime, hrec.others, rfl⟩

end

/-! ## The opening end, and the keys -/

/-- Which end opens the exchange rests on the dictionary and on which links are up. -/
theorem linkOpens_of {s t : State} (hdict : t.dict = s.dict) (hup : ∀ x, linkUp t x = linkUp s x) (l : Nat) : linkOpens t l = linkOpens s l := by
  have hroutes : ∀ i, routesTo t i = routesTo s i := fun i => by simp only [routesTo, objDom_of_dict hdict, hup]
  simp only [linkOpens, obj_of_dict hdict, objDom_of_dict hdict, ownIndex_of_dict hdict, memberOf, hroutes]

/-- A link whose state stands leaves which links are up. -/
theorem LinkIs.up {s t : State} {l : Nat} {k : Link} (h : LinkIs l k s t) (hst : k.st = (linkOf s l).st) (x : Nat) : linkUp t x = linkUp s x := by
  unfold linkUp
  by_cases hx : x = l
  · rw [hx, h.rec_, hst]
  · rw [h.others x hx]

theorem LinkIs.opens {s t : State} {l : Nat} {k : Link} (h : LinkIs l k s t) (hst : k.st = (linkOf s l).st) (hdict : t.dict = s.dict) (x : Nat) :
    linkOpens t x = linkOpens s x := linkOpens_of hdict (h.up hst) x

theorem linkKeys_of_opens {s t : State} {l : Nat} (h : linkOpens t l = linkOpens s l) (k : Link) : linkKeys t l k = linkKeys s l k := by
  simp only [linkKeys, h]

/-- Giving a link its keys changes nothing else of its record. -/
theorem linkKeys_counted (s : State) (l i : Nat) (k : Link) : (linkKeys s l k).counted i = linkKeys s l (k.counted i) := by
  unfold linkKeys
  split
  · rename_i h
    exact (if_pos (show (k.counted i).encrypted = true from h)).symm
  · rename_i h
    exact (if_neg (show ¬(k.counted i).encrypted = true from h)).symm

end Sys2Proof.Machine
end

section
/-! PROOFS. KAF links train, come back from RETRAIN, and run out of a state (R460 to R463, R480, R488). -/

namespace Sys2Proof.Machine

theorem LinkIs.detect {s t : State} {l : Nat} {k : Link} (h : LinkIs l k s t) : LinkIs l { k with st := 1, since := t.time.cycle } s (linkDetect l t) := by
  have hset : Keeps 0x2 t (linkSettings l t) := linkSettings_keeps ..
  have hnew := (h.of_links (hset.links rfl)).enter 1
  rw [hset.time rfl] at hnew
  exact hnew

/-! ## The lanes that pass (R461) -/

theorem linkWidth_all {l : Nat} (hl : l < 13) : linkWidth l 0xFF (fullWidth l) = (fullWidth l, 0) := by
  by_cases h : l = 12
  · rw [h]
    rfl
  · have hfull : fullWidth l = 3 := if_neg h
    rw [hfull]
    exact if_pos ⟨by omega, by decide, by decide⟩

theorem linkWidth_none (l top : Nat) : linkWidth l 0 top = (0, 0) := by
  simp [linkWidth]

/-- Every lane passes: the full width, in the generation that was tried. -/
theorem equalized_all {s : State} {l : Nat} {k : Link} (hl : l < 13) (hsecond : k.second = false) (hgen : k.gen = 1 ∨ k.gen = 2)
    (hlow : obj s 0x5002 (l + 1) ≤ fullWidth l) : equalized s l k k.gen 0xFF (fullWidth l) = some (k.gen, fullWidth l, 0) := by
  have hmin : (if l = 12 then 1 else 2) ≤ fullWidth l ∧ fullWidth l ≠ 0 := by
    unfold fullWidth
    split
    · decide
    · decide
  unfold equalized
  rw [linkWidth_all hl, hsecond]
  dsimp only
  rcases hgen with h | h
  · rw [h, if_neg (by decide), if_pos (show (!false) = true from rfl), if_pos ⟨hlow, hmin.2⟩]
  · rw [h, if_pos ⟨rfl, rfl⟩, if_pos ⟨hmin.1, hlow⟩]

/-- No lane passes, in the last generation that is tried. -/
theorem equalized_none {s : State} {l : Nat} {k : Link}
    (h : (k.gen = 1 ∧ k.second = false) ∨ (k.second = true ∧ k.lanes = 0)) (top : Nat) : equalized s l k k.gen 0 top = some (0, 0, 0) := by
  have hbad : ∀ g : Nat, (if obj s 0x5002 (l + 1) ≤ 0 ∧ 0 ≠ 0 then (g, 0, 0) else (0, 0, 0)) = (0, 0, 0) := fun g => if_neg fun h => h.2 rfl
  have hboth : ∀ a b : Nat × Nat × Nat, a = (0, 0, 0) → b = (0, 0, 0) → (if linkRate b.1 b.2.1 ≤ linkRate a.1 a.2.1 then a else b) = (0, 0, 0) := by
    rintro a b rfl rfl
    rfl
  unfold equalized
  rw [linkWidth_none]
  dsimp only
  rcases h with ⟨hgen, hsecond⟩ | ⟨hsecond, hlanes⟩
  · rw [hgen, hsecond, if_neg (by decide), if_pos (show (!false) = true from rfl), hbad]
  · rw [hsecond, hlanes, linkWidth_none, if_neg (fun h => Bool.false_ne_true h.2), if_neg (by decide)]
    exact congrArg some (hboth _ _ (hbad 2) (hbad 1))

/-! ## The end of LANE (R463, R482) -/

theorem LinkIs.built {s t : State} {l : Nat} {k : Link} (h : LinkIs l k s t) (n : Nat) : LinkIs l (linkFill t.time.cycle
    { k with queued := k.queued + ceilDiv n 224, built := k.built + ceilDiv n 224 }) s (linkBuild l n t) := by
  unfold linkBuild
  rw [h.rec_]
  exact h.set _

/-- A message leaves in SECURE. -/
theorem LinkIs.sendLink {s t : State} {l : Nat} {k : Link} (h : LinkIs l k s t) (hst : k.st = 5) (m : KafMsg) :
    LinkIs l (linkFill t.time.cycle { k with queued := k.queued + ceilDiv (kafSlots m.data.length) 224,
                                             built := k.built + ceilDiv (kafSlots m.data.length) 224 }) s (Machine.sendLink l m t) ∧
      Out.kaf l m ∈ (Machine.sendLink l m t).out := by
  have hk : Keeps 0x200080 t (linkTally true l (kafSlots m.data.length) (emit (.kaf l m) t)) := (linkTally_keeps ..).step ((emit_keeps ..).mono)
  have hlink := (h.of_links (hk.links rfl)).built (kafSlots m.data.length)
  have hout : Out.kaf l m ∈ (linkTally true l (kafSlots m.data.length) (emit (.kaf l m) t)).out := by
    rw [(linkTally_keeps ..).out rfl]
    exact mem_emit ..
  have htime := hk.time rfl
  unfold Machine.sendLink
  rw [if_pos (.inl (h.rec_ ▸ hst))]
  generalize linkTally true l (kafSlots m.data.length) (emit (.kaf l m) t) = v at *
  rw [htime] at hlink
  refine ⟨hlink, ?_⟩
  rw [(linkBuild_keeps ..).out rfl]
  exact hout

/-- SECURE is entered. -/
theorem LinkIs.secure {s t : State} {l : Nat} {k : Link} (h : LinkIs l k s t) : ∃ k', LinkIs l k' s (linkSecure l t) ∧
    k'.st = 5 ∧ k'.encrypted = true ∧ k'.rtt = k.rtt := by
  unfold linkSecure
  rw [h.rec_]
  have hsec := (h.set { k with encrypted := true }).enter 5
  generalize linkTo l 5 (setLink l { k with encrypted := true } t) = u at *
  dsimp only
  split
  · have hnew := hsec.set { linkOf u l with hello := leBytes (freeAt u 0) 1248 }
    rw [hsec.rec_] at hnew ⊢
    exact ⟨_, (hnew.sendLink rfl { kafOf 0x70 with data := leBytes (freeAt u 0) 1248 }).1.of_links rfl, rfl, rfl, rfl⟩
  · exact ⟨_, hsec, rfl, rfl, rfl⟩

theorem sendDigest_links (s : State) : (sendDigest s).links = s.links := (sendDigest_keeps ..).links rfl

/-- A link becomes ACTIVE. -/
theorem LinkIs.active {s t : State} {l : Nat} {k : Link} (h : LinkIs l k s t) :
    LinkIs l { k with st := 6, since := t.time.cycle, txSince := t.time.cycle } s (linkActive l t) := by
  unfold linkActive
  rw [h.rec_]
  have hnew := h.set { k with st := 6, since := t.time.cycle, txSince := t.time.cycle }
  generalize setLink l { k with st := 6, since := t.time.cycle, txSince := t.time.cycle } t = u at *
  dsimp only
  split
  · exact hnew.of_links rfl
  · split
    · refine hnew.of_links ((sendDigest_links _).trans ?_)
      split
      · rfl
      · rfl
    · exact hnew.of_links rfl

/-- The round trip is short enough: SECURE where the link is encrypted, ACTIVE elsewhere. -/
theorem LinkIs.laneEnd {s : State} {l rtt : Nat} (h : Tbl.Rising s.links.link) (hrtt : rtt ≤ 448) : ∃ k, LinkIs l k s (Machine.laneEnd l rtt s) ∧
    k.rtt = rtt ∧ k.encrypted = linkSeals s l ∧ k.st = if linkSeals s l then 5 else 6 := by
  have hnew := (LinkIs.refl h l).set { linkOf s l with rtt := rtt }
  have hseals : linkSeals (setLink l { linkOf s l with rtt := rtt } s) l = linkSeals s l := rfl
  unfold Machine.laneEnd
  rw [if_neg (Nat.not_lt.2 hrtt)]
  dsimp only
  rw [hseals]
  generalize setLink l { linkOf s l with rtt := rtt } s = u at *
  by_cases hs : linkSeals s l = true
  · rw [hs, if_pos rfl, if_pos rfl]
    obtain ⟨k, hk, hst, henc, hr⟩ := hnew.secure
    exact ⟨k, hk, hr, henc, hst⟩
  · rw [Bool.eq_false_iff.2 hs, if_neg Bool.false_ne_true, if_neg Bool.false_ne_true, hnew.rec_]
    exact ⟨_, (hnew.set { linkOf s l with rtt := rtt, encrypted := false }).active, rfl, rfl, rfl⟩

/-- RETRAIN ends in GO_BACK (R480). -/
theorem retrainEnd_is {s : State} {l rtt : Nat} (h : Tbl.Rising s.links.link) (hraise : (linkOf s l).raise = false) (hrtt : rtt ≤ 448) (g w f : Nat) :
    (retrainEnd l rtt g w f s).out = s.out ++ [.replayAsk l 2 (linkOf s l).e] ∧
      LinkIs l { linkOf s l with st := 6, since := s.time.cycle, txSince := s.time.cycle, gen := g, width := w, firstLane := f, rtt := rtt,
                                 second := false, lanes := 0, rx := 2, held := [], missing := [], waited := 0 } s (retrainEnd l rtt g w f s) := by
  unfold retrainEnd
  rw [if_neg (Nat.not_lt.2 hrtt)]
  have hnew := (LinkIs.refl h l).set { linkOf s l with
    st := 6, since := s.time.cycle, txSince := s.time.cycle, gen := g, width := w, firstLane := f, rtt := rtt, second := false, lanes := 0
    raise := false, rx := 2, held := [], missing := [], waited := 0 }
  refine ⟨rfl, (hnew.of_links (u := emit (.replayAsk l 2 (linkOf s l).e) _) rfl).congr ?_⟩
  rcases hk : linkOf s l
  rw [hk] at hraise
  cases hraise
  rfl

/-! ## The obligation -/

section
variable {s : State} {l : Fin 13} {lanes : BitVec 8} {rtt : Nat} {ok : Bool}

theorem exec_speedEnd (h : (linkOf s l.val).st = 2) : exec (.linkTrainingStageEnd l lanes rtt ok) s = .next (linkTo l.val 3 (setLink l.val
    { linkOf s l.val with gen := if ok ∧ obj s 0x5001 (l.val + 1) = 2 then 2 else 1, second := false } s)) := if_pos h

theorem exec_equalized (h : (linkOf s l.val).st = 3) {g w f : Nat} (hg : g ≠ 0)
    (heq : equalized s l.val (linkOf s l.val) (linkOf s l.val).gen lanes.toNat (fullWidth l.val) = some (g, w, f)) :
    exec (.linkTrainingStageEnd l lanes rtt ok) s = .next (linkTo l.val 4 (setLink l.val
      { linkOf s l.val with gen := g, width := w, firstLane := f, second := false, lanes := 0 } s)) := by
  show execLinkTrainingStageEnd l lanes rtt ok s = _
  unfold execLinkTrainingStageEnd
  dsimp only
  rw [h, if_neg (by decide), if_pos rfl, heq]
  obtain ⟨n, rfl⟩ := Nat.exists_eq_succ_of_ne_zero hg
  rfl

theorem exec_unequalized (h : (linkOf s l.val).st = 3) {w f : Nat}
    (heq : equalized s l.val (linkOf s l.val) (linkOf s l.val).gen lanes.toNat (fullWidth l.val) = some (0, w, f)) :
    exec (.linkTrainingStageEnd l lanes rtt ok) s = .next (linkDown l.val 2 s) := by
  show execLinkTrainingStageEnd l lanes rtt ok s = _
  unfold execLinkTrainingStageEnd
  dsimp only
  rw [h, if_neg (by decide), if_pos rfl, heq]
  rfl

theorem exec_laneEnd (h : (linkOf s l.val).st = 4) : exec (.linkTrainingStageEnd l lanes rtt ok) s = .next (laneEnd l.val rtt s) := by
  show execLinkTrainingStageEnd l lanes rtt ok s = _
  unfold execLinkTrainingStageEnd
  dsimp only
  rw [h, if_neg (by decide), if_neg (by decide), if_pos rfl]

theorem exec_retrained (h : (linkOf s l.val).st = 7) (hraise : (linkOf s l.val).raise = false) {g w f : Nat} (hg : g ≠ 0)
    (heq : equalized s l.val (linkOf s l.val) (linkOf s l.val).gen lanes.toNat (linkOf s l.val).width = some (g, w, f)) :
    exec (.linkTrainingStageEnd l lanes rtt true) s = .next (retrainEnd l.val rtt g w f s) := by
  show execLinkTrainingStageEnd l lanes rtt true s = _
  unfold execLinkTrainingStageEnd
  dsimp only
  rw [h, if_neg (by decide), if_neg (by decide), if_neg (by decide), if_pos rfl, hraise, if_neg (by decide), if_neg (by decide), if_neg (by decide), heq]
  obtain ⟨n, rfl⟩ := Nat.exists_eq_succ_of_ne_zero hg
  rfl

end

/-- A state that runs out takes the link down, with the reason that R481 names for it. -/
theorem exec_linkStateTimeout {s : State} {l : Fin 13} {us : Nat} (hlimit : stateLimit (linkOf s l.val).st = some us)
    (harr : arrivalWins ((linkOf s l.val).since + usCycles us) (endsStage l.val) s = false) :
    ∃ r, (exec (.linkStateTimeout l) s = .next (linkDown l.val r (carryTo ((linkOf s l.val).since + usCycles us) s)) ∨
        exec (.linkStateTimeout l) s = .next (freeStep 1 (linkDown l.val r (carryTo ((linkOf s l.val).since + usCycles us) s)))) ∧
      ((linkOf s l.val).st = 3 → r = 2) ∧ ((linkOf s l.val).st = 5 → r = 4) ∧ ((linkOf s l.val).st = 7 → r = 6) := by
  show ∃ r, (execLinkStateTimeout l s = _ ∨ execLinkStateTimeout l s = _) ∧ _
  unfold execLinkStateTimeout
  dsimp only
  rw [hlimit]
  dsimp only
  rw [harr, if_neg Bool.false_ne_true]
  by_cases h3 : (linkOf s l.val).st = 3
  · rw [if_pos h3]
    exact ⟨2, .inl rfl, fun _ => rfl, fun h => by omega, fun h => by omega⟩
  · rw [if_neg h3]
    by_cases h5 : (linkOf s l.val).st = 5
    · rw [if_pos h5]
      exact ⟨4, .inl rfl, fun h => by omega, fun _ => rfl, fun h => by omega⟩
    · rw [if_neg h5]
      by_cases h7 : (linkOf s l.val).st = 7
      · rw [if_pos h7]
        exact ⟨6, .inl rfl, fun h => by omega, fun h => by omega, fun _ => rfl⟩
      · rw [if_neg h7]
        exact ⟨_, .inr rfl, fun h => by omega, fun h => by omega, fun h => by omega⟩

theorem stateLimit_live {st us : Nat} (h : stateLimit st = some us) : st ≠ 0 := fun h0 => by
  rw [h0] at h
  cases h

/-- Settles O45: each stage of a training rewrites the one link's record, or takes the link down. -/
theorem linksTrain : Obligations.LinksTrain := by
  unfold Obligations.LinksTrain
  refine ⟨fun s l hinv hst => ?_, fun s l hinv hst hobj => ?_, fun s l lanes hinv hst => ?_, fun s l lanes rtt ok hinv hst => ?_,
    fun s l rtt ok hinv hst hsecond hgen hlow => ?_, fun s l rtt ok hinv hst hnone => ?_, fun s l lanes rtt ok hinv hst hrtt => ?_,
    fun s l lanes rtt ok hinv hst hrtt => ?_, fun s l lanes rtt g w f hinv hst hraise hrtt heq hg => ?_, fun s l us hinv hlimit harr => ?_⟩
  · have h := (LinkIs.refl hinv.link l.val).detect
    exact ⟨_, congrArg Host.Outcome.next (if_pos hst), h.rec_, h.others⟩
  · have hcarry := carryTo_keeps ((linkOf s l.val).since + msCycles (obj s 0x5004 6)) s
    have htime := carryTo_cycle ((linkOf s l.val).since + msCycles (obj s 0x5004 6)) s
    have h := ((LinkIs.refl hinv.link l.val).of_links (hcarry.links rfl)).detect
    have hend : (linkDetect l.val (carryTo ((linkOf s l.val).since + msCycles (obj s 0x5004 6)) s)).time =
        (carryTo ((linkOf s l.val).since + msCycles (obj s 0x5004 6)) s).time :=
      (linkDetect_keeps ..).time rfl
    refine ⟨_, if_pos ⟨hst, hobj⟩, ?_, ?_, h.others⟩
    · rw [hend, htime]
    · rw [hend]
      exact h.rec_
  · by_cases hmin : 2 ^ obj s 0x5002 (l.val + 1) ≤ popCount lanes.toNat 8
    · have h := (LinkIs.refl hinv.link l.val).enter 2
      exact ⟨_, if_pos ⟨hst, hmin⟩, h.others, by rw [h.rec_, if_pos hmin]⟩
    · exact ⟨s, if_neg fun hn => hmin hn.2, fun _ _ => rfl, (if_neg hmin).symm⟩
  · have h := ((LinkIs.refl hinv.link l.val).set
      { linkOf s l.val with gen := if ok ∧ obj s 0x5001 (l.val + 1) = 2 then 2 else 1, second := false }).enter 3
    exact ⟨_, exec_speedEnd hst, h.others, h.rec_⟩
  · have h := ((LinkIs.refl hinv.link l.val).set
      { linkOf s l.val with gen := (linkOf s l.val).gen, width := fullWidth l.val, firstLane := 0, second := false, lanes := 0 }).enter 4
    refine ⟨_, exec_equalized hst (by omega) (equalized_all l.isLt hsecond hgen hlow), h.others, h.rec_.trans ?_⟩
    rw [← hsecond]
    rfl
  · exact ⟨_, exec_unequalized hst (equalized_none hnone _), (LinkIs.refl hinv.link l.val).falls (by omega) rfl 2⟩
  · obtain ⟨k, h, hr, henc, hk⟩ := LinkIs.laneEnd (l := l.val) hinv.link hrtt
    exact ⟨_, exec_laneEnd hst, h.others, by rw [h.rec_, hr], by rw [h.rec_, henc], by rw [h.rec_, hk]⟩
  · exact ⟨_, (exec_laneEnd hst).trans (congrArg _ (if_pos hrtt)), (LinkIs.refl hinv.link l.val).falls (by omega) rfl 3⟩
  · obtain ⟨hout, h⟩ := retrainEnd_is hinv.link hraise hrtt g w f
    exact ⟨_, exec_retrained hst hraise hg heq, h.others, hout, h.rec_⟩
  · obtain ⟨r, hexec, hreason⟩ := exec_linkStateTimeout hlimit harr
    have hlinks := (carryTo_keeps ((linkOf s l.val).since + usCycles us) s).links rfl
    have htime := carryTo_cycle ((linkOf s l.val).since + usCycles us) s
    generalize carryTo ((linkOf s l.val).since + usCycles us) s = u at *
    have hsame : linkOf u l.val = linkOf s l.val := linkOf_of_links hlinks _
    have hfell := (LinkIs.refl (s := u) (by rw [hlinks]; exact hinv.link) l.val).falls (by rw [hsame]; exact stateLimit_live hlimit) rfl r
    rw [hsame] at hfell
    rcases hexec with hexec | hexec
    · exact ⟨_, u, r, hexec, htime, fun x => linkOf_of_links hlinks x, ⟨_, hfell, .inl rfl⟩, hreason⟩
    · exact ⟨_, u, r, hexec, htime, fun x => linkOf_of_links hlinks x, ⟨_, hfell, .inr rfl⟩, hreason⟩

end Sys2Proof.Machine
end

section
/-! PROOFS. KAF links retrain and go down (R480, R481, R487, R488). -/

namespace Sys2Proof.Machine

/-- The retrains of a link within the last second. -/
def recentRetrains (now : Nat) (k : Link) : List Nat := k.retrains.filter fun c => decide (now < c + 2000000000)

/-- The record of a link whose retrain is noted, and counted. -/
def retrainNoted (now : Nat) (k : Link) : Link := { k with retrains := recentRetrains now k ++ [now] }

/-- A link enters RETRAIN, but for its keys. -/
def retraining (now : Nat) (raise : Bool) (k : Link) : Link :=
  { k with st := 7, since := now, txGen := k.txGen + 1, rxGen := k.rxGen + 1, raise := raise, second := false, lanes := 0, tagBad := none, rxCtr := 0 }

/-- The state in which a retrain is counted. -/
def retrainCounted (l : Nat) (s : State) : State := linkCount l 5 (setLink l (retrainNoted s.time.cycle (linkOf s l)) s)

theorem retrainCounted_keeps (l : Nat) (s : State) : Keeps 0x20000 s (retrainCounted l s) := (linkCount_keeps ..).step (setLink_keeps ..)

theorem linkRetrain_of_active {s : State} {l : Nat} (h : (linkOf s l).st = 6) (raise : Bool) : linkRetrain l raise s =
    if obj (retrainCounted l s) 0x5004 3 < (recentRetrains s.time.cycle (linkOf s l) ++ [s.time.cycle]).length then linkDown l 6 (retrainCounted l s)
    else setLink l (linkKeys (retrainCounted l s) l
        (retraining (retrainCounted l s).time.cycle raise (linkOf (linkSettings l (retrainCounted l s)) l)))
      (linkSettings l (retrainCounted l s)) := if_neg fun hn => hn h

section
variable {s t : State} {l : Nat} {k : Link} (h : LinkIs l k s t)
include h

theorem LinkIs.retrainCounted : LinkIs l ((retrainNoted t.time.cycle k).counted 5) s (Machine.retrainCounted l t) := by
  unfold Machine.retrainCounted
  rw [h.rec_]
  exact (h.set _).count 5

/-- Few retrains within a second: RETRAIN is entered. -/
theorem LinkIs.retrain_few (hst : k.st = 6) (hfew : (recentRetrains t.time.cycle k).length < obj t 0x5004 3) (raise : Bool) :
    LinkIs l (linkKeys (Machine.retrainCounted l t) l (retraining t.time.cycle raise ((retrainNoted t.time.cycle k).counted 5))) s
      (linkRetrain l raise t) := by
  have hk := retrainCounted_keeps l t
  have hcount := h.retrainCounted
  rw [linkRetrain_of_active (by rw [h.rec_]; exact hst), h.rec_, obj_of_dict (hk.dict rfl), List.length_append, List.length_singleton,
    if_neg (Nat.not_lt.2 hfew), hk.time rfl]
  generalize Machine.retrainCounted l t = u at *
  have hset : Keeps 0x2 u (linkSettings l u) := linkSettings_keeps ..
  rw [linkOf_of_links (hset.links rfl), hcount.rec_]
  exact (hcount.of_links (hset.links rfl)).set _

/-- One retrain too many takes the link down (R480). -/
theorem LinkIs.retrain_many (hst : k.st = 6) (htime : t.time.cycle = s.time.cycle) (hmany : obj t 0x5004 3 ≤ (recentRetrains t.time.cycle k).length)
    (raise : Bool) : Fell l 6 ((retrainNoted t.time.cycle k).counted 5) s (linkRetrain l raise t) := by
  have hk := retrainCounted_keeps l t
  rw [linkRetrain_of_active (by rw [h.rec_]; exact hst), h.rec_, obj_of_dict (hk.dict rfl), List.length_append, List.length_singleton, if_pos (Nat.lt_add_one_of_le hmany)]
  exact h.retrainCounted.falls (show k.st ≠ 0 by omega) ((congrArg Time.cycle (hk.time rfl)).trans htime) 6

end

/-- The keys of a retraining link do not rest on whether it may raise its rate. -/
theorem linkKeys_raise (s : State) (l now : Nat) (raise : Bool) (k : Link) :
    linkKeys s l (retraining now raise k) = { linkKeys s l (retraining now true k) with raise := raise } := by
  unfold linkKeys
  by_cases h : k.encrypted = true
  · rw [if_pos (show (retraining now raise k).encrypted = true from h), if_pos (show (retraining now true k).encrypted = true from h)]
    rfl
  · rw [if_neg (show ¬(retraining now raise k).encrypted = true from h), if_neg (show ¬(retraining now true k).encrypted = true from h)]
    rfl

/-- Giving a link its keys leaves its retrains. -/
theorem linkKeys_retrains (s : State) (l : Nat) (k : Link) : (linkKeys s l k).retrains = k.retrains := by
  unfold linkKeys
  split
  · rfl
  · rfl

/-- Settles O47: a retrain is counted, and either rewrites the one link's record or takes the link down. -/
theorem linksRetrainAndFall : Obligations.LinksRetrainAndFall := by
  unfold Obligations.LinksRetrainAndFall
  refine ⟨fun s l hinv hst hfew => ?_, fun s l hinv hst hmany => ?_, fun s l reason hinv hst => ?_⟩
  · have hl := LinkIs.refl hinv.link l.val
    have hopens : linkOpens (retrainCounted l.val s) l.val = linkOpens s l.val :=
      hl.retrainCounted.opens rfl ((retrainCounted_keeps l.val s).dict rfl) _
    have ht := hl.retrain_few hst hfew true
    have hu := hl.retrain_few hst hfew false
    rw [linkKeys_of_opens hopens] at ht hu
    have hretrains : (linkOf (linkRetrain l.val true s) l.val).retrains = recentRetrains s.time.cycle (linkOf s l.val) ++ [s.time.cycle] := by
      rw [ht.rec_, linkKeys_retrains]
      rfl
    refine ⟨_, _, rfl, rfl, ht.others, hu.others, ?_, ?_, hretrains⟩
    · rw [hretrains, ht.rec_]
      rfl
    · rw [ht.rec_, hu.rec_]
      exact linkKeys_raise ..
  · exact ⟨_, _, rfl, (LinkIs.refl hinv.link l.val).retrain_many hst rfl hmany false, rfl⟩
  · exact ⟨_, _, rfl, (LinkIs.refl hinv.link l.val).falls hst rfl 9, rfl, (LinkIs.refl hinv.link l.val).falls hst rfl _⟩

end Sys2Proof.Machine
end

section
/-! PROOFS. Link keys are exchanged (R481, R483 to R485, R487). -/

namespace Sys2Proof.Machine

/-! ## A message of the exchange, taken whole -/

/-- The state in which a message of the exchange has been received. -/
def keyTaken (l : Nat) (m : KafMsg) (s : State) : State :=
  setLink l { linkOf (linkTally false l (kafSlots m.data.length) s) l with frag := none } (linkTally false l (kafSlots m.data.length) s)

theorem joinFrag_whole {s : State} {l op : Nat} {m : KafMsg} (hfrag : (linkOf s l).frag = none) (htag : m.tag = 0) (hlen : m.data.length < 4096) :
    joinFrag l op m s = (.whole m.data, setLink l { linkOf s l with frag := none } s) := by
  unfold joinFrag
  dsimp only
  rw [hfrag]
  dsimp only
  have hlast : m.code % 2 = 1 ∨ 0 = 0 ∧ m.data.length < 4096 := .inr ⟨rfl, hlen⟩
  have hgood : ¬(16 ≤ 0 ∨ 0 ≠ 0 ∨ 4096 < m.data.length ∨ (!decide (m.code % 2 = 1 ∨ 0 = 0 ∧ m.data.length < 4096)) = true ∧ m.data.length ≠ 4096) := by
    rw [decide_eq_true hlast]
    simp only [Bool.not_true, Bool.false_eq_true, false_and, or_false]
    omega
  rw [htag, if_neg hgood, if_pos hlast, List.nil_append]

section
variable {s : State} {l op : Nat} {m : KafMsg} (hrise : Tbl.Rising s.links.link) (hst : (linkOf s l).st = 5) (hfrag : (linkOf s l).frag = none)
  (htag : m.tag = 0) (hlen : m.data.length < 4096)

include hst hfrag htag hlen in
theorem keyMsg_whole (ok : Nat → Bool) (take : List Byte → State → State) : keyMsg l op m ok take s =
    if ok m.data.length then take m.data (keyTaken l m s) else linkDown l 4 (keyTaken l m s) := by
  have hlinks : linkOf (linkTally false l (kafSlots m.data.length) s) l = linkOf s l := linkOf_of_links ((linkTally_keeps ..).links rfl) l
  unfold keyMsg
  rw [if_neg (fun hn => hn hst)]
  dsimp only
  rw [joinFrag_whole (by rw [hlinks]; exact hfrag) htag hlen]
  rfl

theorem keyTaken_keeps (l : Nat) (m : KafMsg) (s : State) : Keeps 0x20080 s (keyTaken l m s) :=
  (setLink_keeps ..).step ((linkTally_keeps ..).mono)

include hrise hfrag in
theorem keyTaken_is : LinkIs l (linkOf s l) s (keyTaken l m s) := by
  have h := (LinkIs.refl hrise l).of_links ((linkTally_keeps false l (kafSlots m.data.length) s).links rfl)
  unfold keyTaken
  rw [h.rec_]
  refine (h.set _).congr ?_
  rw [← hfrag]

end

/-! ## Messages of the exchange leave -/

/-- What a message that leaves keeps of a link's exchange. -/
structure SameExchange (k k' : Link) : Prop where
  st : k'.st = k.st
  hello : k'.hello = k.hello
  reply : k'.reply = k.reply
  prk : k'.prk = k.prk

theorem SameExchange.trans {a b c : Link} (h : SameExchange a b) (g : SameExchange b c) : SameExchange a c :=
  ⟨g.st.trans h.st, g.hello.trans h.hello, g.reply.trans h.reply, g.prk.trans h.prk⟩

theorem sendLink_out (l : Nat) (m : KafMsg) (s : State) : ∀ o ∈ s.out, o ∈ (sendLink l m s).out := fun o ho => by
  unfold sendLink
  split
  · rw [(linkBuild_keeps ..).out rfl, (linkTally_keeps ..).out rfl]
    exact List.mem_append_left _ ho
  · exact ho

theorem LinkIs.sends {s t : State} {l : Nat} {k : Link} (h : LinkIs l k s t) (hst : k.st = 5) (m : KafMsg) :
    ∃ k', LinkIs l k' s (Machine.sendLink l m t) ∧ SameExchange k k' := ⟨_, (h.sendLink hst m).1, rfl, rfl, rfl, rfl⟩

theorem LinkIs.sendFrags {s t : State} {l op : Nat} {k : Link} (h : LinkIs l k s t) (hst : k.st = 5) (n i : Nat) (bs : List Byte) :
    ∃ k', LinkIs l k' s (Machine.sendFrags l op n i bs t) ∧ SameExchange k k' ∧ ∀ o ∈ t.out, o ∈ (Machine.sendFrags l op n i bs t).out := by
  induction n generalizing t k i bs with
  | zero => exact ⟨k, h, ⟨rfl, rfl, rfl, rfl⟩, fun _ ho => ho⟩
  | succ n ih =>
    unfold Machine.sendFrags
    split
    · obtain ⟨k', hk, hsame⟩ := h.sends hst { kafOf op with tag := i, code := 1, data := bs }
      exact ⟨k', hk, hsame, sendLink_out _ _ _⟩
    · obtain ⟨k', hk, hsame⟩ := h.sends hst { kafOf op with tag := i, data := bs.take 4096 }
      obtain ⟨k2, hk2, hsame2, hout⟩ := ih hk (hsame.st.trans hst) (i + 1) (bs.drop 4096)
      exact ⟨k2, hk2, hsame.trans hsame2, fun o ho => hout o (sendLink_out _ _ _ o ho)⟩

theorem linkPrk_of {k k' : Link} (hhello : k'.hello = k.hello) (hreply : k'.reply = k.reply) : linkPrk k' = linkPrk k := by
  simp only [linkPrk, hhello, hreply]

/-- Both halves are held: the proof leaves. -/
theorem LinkIs.sendProof {s t : State} {l : Nat} {k : Link} (h : LinkIs l k s t) (hst : k.st = 5) : ∃ k', LinkIs l k' s (Machine.sendProof l t) ∧
    k'.st = 5 ∧ k'.hello = k.hello ∧ k'.reply = k.reply ∧ k'.proofSent = true ∧ k'.prk = linkPrk k' ∧ ∀ o ∈ t.out, o ∈ (Machine.sendProof l t).out := by
  have hprk := h.set { k with prk := linkPrk k }
  obtain ⟨k', hk, hsame, hout⟩ := hprk.sendFrags (op := 0x72) hst 17 0
    (ownProof (setLink l { k with prk := linkPrk k } t) (linkT (linkOf (setLink l { k with prk := linkPrk k } t) l)))
  unfold Machine.sendProof
  rw [h.rec_]
  dsimp only
  rw [hk.rec_]
  refine ⟨_, hk.set { k' with proofSent := true }, hsame.st.trans hst, hsame.hello, hsame.reply, rfl, ?_, fun o ho => ?_⟩
  · exact hsame.prk.trans (linkPrk_of hsame.hello hsame.reply).symm
  · rw [(setLink_keeps ..).out rfl]
    exact hout o ho

/-! ## The end of the exchange -/

/-- Numbers at 0 and generation 0, as the exchange leaves them (R481). -/
def exchanged (k : Link) : Link := { k with
  e := 0, next := 0, oldest := 0, queued := 0, rx := 0, missing := [], held := [], waited := 0, resent := [], backs := 0
  txGen := 0, rxGen := 0, rxCtr := 0, built := 0, acked := 0, owed := [], parked := [] }

theorem LinkIs.proofsDone {s t : State} {l : Nat} {k : Link} (h : LinkIs l k s t) (hsent : k.proofSent = true) (hok : k.proofOk = true) :
    LinkIs l { linkKeys t l (exchanged k) with st := 6, since := t.time.cycle, txSince := t.time.cycle } s (Machine.proofsDone l t) := by
  unfold Machine.proofsDone
  rw [h.rec_, if_pos ⟨hsent, hok⟩]
  have hset : Keeps 0x20000 t (setLink l (linkKeys t l (exchanged k)) t) := setLink_keeps ..
  have hactive := (h.set (linkKeys t l (exchanged k))).active
  rw [hset.time rfl] at hactive
  exact hactive

theorem linkTrusted_of {s t : State} {l : Nat} (hdict : t.dict = s.dict) (hrec : linkOf t l = linkOf s l) (bs : List Byte) :
    linkTrusted t l bs = linkTrusted s l bs := by
  have hmap : mapDevIds t l = mapDevIds s l := by simp only [mapDevIds, objDom_of_dict hdict, obj_of_dict hdict, ownIndex_of_dict hdict]
  simp only [linkTrusted, hrec, hmap, objDom_of_dict hdict]

/-- The keys of a link that has ended its exchange. -/
theorem linkKeys_exchanged (t : State) (l : Nat) {k : Link} (henc : k.encrypted = true) :
    (linkKeys t l (exchanged k)).txKey = linkKey k (linkOpens t l) 0 ∧ (linkKeys t l (exchanged k)).rxKey = linkKey k (!linkOpens t l) 0 := by
  unfold linkKeys
  rw [if_pos (show (exchanged k).encrypted = true from henc)]
  exact ⟨rfl, rfl⟩

/-- What the keys leave of a link that has ended its exchange. -/
theorem linkKeys_fields (t : State) (l : Nat) (k : Link) :
    (linkKeys t l k).proofOk = k.proofOk ∧ (linkKeys t l k).e = k.e ∧ (linkKeys t l k).next = k.next ∧ (linkKeys t l k).oldest = k.oldest ∧
      (linkKeys t l k).rx = k.rx ∧ (linkKeys t l k).txGen = k.txGen ∧ (linkKeys t l k).rxGen = k.rxGen ∧
      (linkKeys t l k).prk = k.prk ∧ (linkKeys t l k).hello = k.hello ∧ (linkKeys t l k).reply = k.reply := by
  unfold linkKeys
  split
  · exact ⟨rfl, rfl, rfl, rfl, rfl, rfl, rfl, rfl, rfl, rfl⟩
  · exact ⟨rfl, rfl, rfl, rfl, rfl, rfl, rfl, rfl, rfl, rfl⟩

theorem linkKey_of {k k' : Link} (hprk : k'.prk = k.prk) (hhello : k'.hello = k.hello) (hreply : k'.reply = k.reply) (i2r : Bool) (g : Nat) :
    linkKey k' i2r g = linkKey k i2r g := by
  simp only [linkKey, linkT, hprk, hhello, hreply]

theorem leBytes_length (v n : Nat) : (leBytes v n).length = n := by
  induction n generalizing v with
  | zero => rfl
  | succ n ih => exact congrArg (· + 1) (ih _)

/-- Settles O48: the message is taken whole, each half of the exchange is written into the link's record, and the proof decides. -/
theorem keysAreExchanged : Obligations.KeysAreExchanged := by
  unfold Obligations.KeysAreExchanged
  refine ⟨fun s l m hinv hst hfrag htag hlen hopens hhello => ?_, fun s l m hinv hst hfrag htag hlen hhello hreply => ?_,
    fun s l m hinv hst hfrag htag hlen hhello hreply hsent => ?_, fun s l m hinv hst hfrag htag hlen => ?_⟩
  · have h := keyTaken_is (m := m) hinv.link hfrag
    have hopens' : linkOpens (keyTaken l.val m s) l.val = false := (h.opens rfl ((keyTaken_keeps ..).dict rfl) _).trans hopens
    have hexec : exec (.keyHello l m) s = .next (Machine.sendProof l.val (freeStep 1 (sendLink l.val
        { kafOf 0x71 with data := leBytes (freeAt (keyTaken l.val m s) 0) 1152 } (setLink l.val
          { linkOf s l.val with hello := m.data, reply := leBytes (freeAt (keyTaken l.val m s) 0) 1152 } (keyTaken l.val m s))))) := by
      refine congrArg Host.Outcome.next ((keyMsg_whole hst hfrag htag (by omega) ..).trans ?_)
      rw [hlen, if_pos (by decide), hopens', h.rec_]
      exact if_neg fun hn => hn.elim Bool.false_ne_true fun hn => by
        rw [hhello] at hn
        exact absurd hn (by decide)
    generalize keyTaken l.val m s = u at *
    have hr : (leBytes (freeAt u 0) 1152).length = 1152 := leBytes_length ..
    generalize leBytes (freeAt u 0) 1152 = r at *
    have hset := h.set { linkOf s l.val with hello := m.data, reply := r }
    have hmsg := (hset.sendLink (k := { linkOf s l.val with hello := m.data, reply := r }) hst { kafOf 0x71 with data := r }).2
    obtain ⟨k, hk, hsame⟩ := hset.sends hst { kafOf 0x71 with data := r }
    obtain ⟨k', hk', hst', hhello', hreply', hsent, hprk, hout⟩ := (hk.of_links (u := freeStep 1 _) rfl).sendProof (hsame.st.trans hst)
    have hfinal : k'.reply = r := hreply'.trans hsame.reply
    refine ⟨_, hexec, hk'.others, ?_⟩
    rw [hk'.rec_, hfinal]
    exact ⟨hst', hhello'.trans hsame.hello, hr, hsent, hprk, hout _ hmsg⟩
  · have h := keyTaken_is (m := m) hinv.link hfrag
    have hexec : exec (.keyReply l m) s = .next (Machine.sendProof l.val (setLink l.val { linkOf s l.val with reply := m.data } (keyTaken l.val m s))) := by
      refine congrArg Host.Outcome.next ((keyMsg_whole hst hfrag htag (by omega) ..).trans ?_)
      rw [hlen, if_pos (by decide), h.rec_]
      exact if_neg fun hn => hn.elim (fun hn => hhello (List.isEmpty_iff.1 hn)) fun hn => by
        rw [hreply] at hn
        exact absurd hn (by decide)
    obtain ⟨k', hk', hst', -, hreply', hsent, hprk, -⟩ := (h.set { linkOf s l.val with reply := m.data }).sendProof hst
    refine ⟨_, hexec, hk'.others, ?_⟩
    rw [hk'.rec_]
    exact ⟨hst', hreply', hsent, hprk⟩
  · have h := keyTaken_is (m := m) hinv.link hfrag
    have hk := keyTaken_keeps l.val m s
    have htrust := linkTrusted_of (hk.dict rfl) h.rec_ m.data
    have hopens := h.opens rfl (hk.dict rfl) l.val
    have hexec : exec (.keyProof l m) s = .next (if !linkTrusted s l.val m.data then linkDown l.val 5 (keyTaken l.val m s)
        else Machine.proofsDone l.val (setLink l.val { linkOf s l.val with proofOk := true } (keyTaken l.val m s))) := by
      refine congrArg Host.Outcome.next ((keyMsg_whole hst hfrag htag hlen ..).trans ?_)
      rw [if_pos (decide_eq_true (by omega)), h.rec_, if_neg (fun hn => hn.elim (fun hn => hhello (List.isEmpty_iff.1 hn))
        fun hn => hreply (List.isEmpty_iff.1 hn)), htrust]
    have htime := congrArg Time.cycle (hk.time rfl)
    generalize keyTaken l.val m s = u at *
    refine ⟨_, hexec, fun htr => ?_, fun htr => ?_⟩
    · rw [htr, if_pos (show (!false) = true from rfl)]
      exact h.falls (by omega) htime 5
    · rw [htr, if_neg (by decide)]
      have hset := h.set { linkOf s l.val with proofOk := true }
      have hopens' : linkOpens (setLink l.val { linkOf s l.val with proofOk := true } u) l.val = linkOpens s l.val :=
        hset.opens rfl (((setLink_keeps ..).dict rfl).trans (hk.dict rfl)) _
      have hdone := hset.proofsDone hsent rfl
      rw [linkKeys_of_opens hopens'] at hdone
      obtain ⟨hok, he, hnext, holdest, hrx, htx, hrxg, hprk, hh, hr⟩ := linkKeys_fields s l.val (exchanged { linkOf s l.val with proofOk := true })
      refine ⟨hdone.others, ?_⟩
      rw [hdone.rec_]
      refine ⟨rfl, hok, he, hnext, holdest, hrx, htx, hrxg, fun henc => ?_⟩
      obtain ⟨htk, hrk⟩ := linkKeys_exchanged s l.val (k := { linkOf s l.val with proofOk := true }) henc
      exact ⟨htk.trans (linkKey_of hprk hh hr ..).symm, hrk.trans (linkKey_of hprk hh hr ..).symm⟩
  · have h := keyTaken_is (m := m) hinv.link hfrag
    have htime := congrArg Time.cycle ((keyTaken_keeps l.val m s).time rfl)
    have hfell := h.falls (by omega) htime 4
    refine ⟨_, _, congrArg Host.Outcome.next (keyMsg_whole hst hfrag htag hlen ..), fun hne => ?_,
      congrArg Host.Outcome.next (keyMsg_whole hst hfrag htag hlen ..), fun hne => ?_⟩
    · rw [if_neg (fun hn => hne (beq_iff_eq.1 hn))]
      exact hfell
    · rw [if_neg (fun hn => hne (beq_iff_eq.1 hn))]
      exact hfell

end Sys2Proof.Machine
end

section
/-! PROOFS. Flits are taken, asked for again and replayed (R26, R475 to R479, R481, R487). -/

namespace Sys2Proof.Machine

/-! ## What a good position brings: its ack and its off bits -/

/-- The receiver's counter moves with each position. -/
def nextPosition (k : Link) : Link := { k with rxCtr := (k.rxCtr + 1) % 2 ^ 64 }

/-- The record once a position's ack and off bits are taken. -/
def heardFlit (now ack xoff : Nat) (k : Link) : Link := takeOff now xoff (takeAck now ack (nextPosition k))

/-- What an ack leaves of a link's record: the receiver's side, and what is counted. -/
structure SameReceiver (k k' : Link) : Prop where
  st : k'.st = k.st
  e : k'.e = k.e
  rx : k'.rx = k.rx
  held : k'.held = k.held
  missing : k'.missing = k.missing
  tagBad : k'.tagBad = k.tagBad
  parked : k'.parked = k.parked
  resent : k'.resent = k.resent
  retrains : k'.retrains = k.retrains

theorem takeAck_same (now a : Nat) (k : Link) : SameReceiver k (takeAck now a k) ∧ (takeAck now a k).counts = k.counts ∧
    (takeAck now a k).xoff = k.xoff ∧ (takeAck now a k).offAt = k.offAt ∧
    (takeAck now a k).oldest = if (a + 4096 - k.oldest) % 4096 < linkHeld k then (a + 1) % 4096 else k.oldest := by
  unfold takeAck
  dsimp only
  split
  · exact ⟨⟨rfl, rfl, rfl, rfl, rfl, rfl, rfl, rfl, rfl⟩, rfl, rfl, rfl, rfl⟩
  · exact ⟨⟨rfl, rfl, rfl, rfl, rfl, rfl, rfl, rfl, rfl⟩, rfl, rfl, rfl, rfl⟩

theorem heardFlit_same (now a x : Nat) (k : Link) : SameReceiver k (heardFlit now a x k) := by
  obtain ⟨h, -⟩ := takeAck_same now a (nextPosition k)
  exact ⟨h.st, h.e, h.rx, h.held, h.missing, h.tagBad, h.parked, h.resent, h.retrains⟩

theorem heardFlit_oldest (now a x : Nat) (k : Link) : (heardFlit now a x k).oldest =
    if (a + 4096 - k.oldest) % 4096 < linkHeld k then (a + 1) % 4096 else k.oldest := (takeAck_same now a (nextPosition k)).2.2.2.2

/-- An ack that does not advance leaves what the sender holds. -/
theorem heardFlit_idle {now a : Nat} {k : Link} (h : linkHeld k ≤ (a + 4096 - k.oldest) % 4096) (x n : Nat) :
    seqHeld (heardFlit now a x k) n = seqHeld k n := by
  have hidle : takeAck now a (nextPosition k) = nextPosition k := if_neg (Nat.not_lt.2 h)
  unfold heardFlit
  rw [hidle]
  rfl

/-- The off time of each VC adds up as if no ack had come. -/
theorem heardFlit_counts (now a x : Nat) (k : Link) : (heardFlit now a x k).counts = (takeOff now x k).counts := by
  obtain ⟨-, hcounts, hxoff, hoff, -⟩ := takeAck_same now a (nextPosition k)
  unfold heardFlit
  generalize takeAck now a (nextPosition k) = k' at *
  unfold takeOff
  rw [hcounts, hxoff, hoff]
  rfl

theorem vcOff_of_xoff {k k' : Link} (h : k'.xoff = k.xoff) (m : KafMsg) : vcOff k' m = vcOff k m := by simp only [vcOff, h]

/-- Nothing leaves while every waiting message's VC is off. -/
theorem LinkIs.parkedStay {s t : State} {l : Nat} {k : Link} (h : LinkIs l k s t) (hoff : ∀ p ∈ k.parked, vcOff k p.2 = true) :
    LinkIs l k s (sendParked l t) ∧ sendParked l t = setLink l k t := by
  have hall : (k.parked.filter fun p => vcOff k p.2) = k.parked := List.filter_eq_self.2 hoff
  have hnone : (k.parked.filter fun p => !vcOff k p.2) = [] := List.filter_eq_nil_iff.2 fun p hp => by
    rw [hoff p hp]
    decide
  have heq : sendParked l t = setLink l k t := by
    unfold sendParked
    dsimp only
    rw [h.rec_, hnone, hall]
    rfl
  exact ⟨heq ▸ h.set k, heq⟩

/-! ## A position that is taken as it stands -/

/-- The state that a good position leaves, before its request and its number. -/
def positionHeard (l ack xoff : Nat) (s : State) : State :=
  sendParked l (setLink l (heardFlit s.time.cycle ack xoff (linkOf s l)) (setLink l (nextPosition (linkOf s l)) s))

theorem positionHeard_keeps (l ack xoff : Nat) (s : State) : Keeps 0x220080 s (positionHeard l ack xoff s) :=
  (sendParked_keeps ..).step ((setLink_keeps ..).step ((setLink_keeps ..).mono))

section
variable {s : State} {l : Fin 13} {xoff : Nat} (ack : Nat) {phase : Bool} (hrise : Tbl.Rising s.links.link) (hplain : PlainFlit s l.val xoff phase)
include hrise hplain

theorem positionHeard_is : LinkIs l.val (heardFlit s.time.cycle ack xoff (linkOf s l.val)) s (positionHeard l.val ack xoff s) ∧
    (positionHeard l.val ack xoff s).out = s.out := by
  have h := ((LinkIs.refl hrise l.val).set (nextPosition (linkOf s l.val))).set (heardFlit s.time.cycle ack xoff (linkOf s l.val))
  have hoff : ∀ p ∈ (heardFlit s.time.cycle ack xoff (linkOf s l.val)).parked, vcOff (heardFlit s.time.cycle ack xoff (linkOf s l.val)) p.2 = true := by
    intro p hp
    rw [(heardFlit_same ..).parked] at hp
    exact (vcOff_of_xoff rfl _).trans (hplain.waits p hp)
  obtain ⟨hp, heq⟩ := h.parkedStay hoff
  refine ⟨hp, ?_⟩
  rw [positionHeard, heq]
  rfl

end

/-- The sequence number of a position, taken last. -/
def numberTaken (l : Nat) (v : State) : Option (BitVec 12) → State
  | none => setLink l { linkOf v l with waited := (linkOf v l).waited + 1 } v
  | some n => seqFlit l n.toNat v

theorem numberTaken_none (l : Nat) (v : State) :
    numberTaken l v none = setLink l { linkOf v l with waited := (linkOf v l).waited + 1 } v := rfl

theorem numberTaken_some (l : Nat) (v : State) (n : BitVec 12) : numberTaken l v (some n) = seqFlit l n.toNat v := rfl

/-- A good position of an ACTIVE link in the present key generation. -/
theorem exec_flitPosition {s v : State} {l : Fin 13} {xoff : BitVec 4} {ack rs : BitVec 12} {req : BitVec 2} {phase : Bool} {seq : Option (BitVec 12)}
    (hrise : Tbl.Rising s.links.link) (hplain : PlainFlit s l.val xoff.toNat phase) (hst : (linkOf s l.val).st = 6)
    (hv : serveReplay l.val req.toNat rs.toNat (positionHeard l.val ack.toNat xoff.toNat s) = v) (hv6 : (linkOf v l.val).st = 6) :
    exec (.flitPosition l true true seq ack xoff req rs phase) s = .next (numberTaken l.val v seq) := by
  have hnext := (LinkIs.refl hrise l.val).set (nextPosition (linkOf s l.val))
  have hphase : ((nextPosition (linkOf s l.val)).encrypted && (nextPosition (linkOf s l.val)).st == 6 &&
      phase != ((nextPosition (linkOf s l.val)).rxGen % 2 == 1)) = false := by
    by_cases henc : (linkOf s l.val).encrypted = true
    · rw [hplain.phase henc]
      simp [nextPosition]
    · simp [nextPosition, henc]
  have htime : (setLink l.val (nextPosition (linkOf s l.val)) s).time = s.time := rfl
  show execFlitPosition l true true seq ack xoff req rs phase s = _
  unfold execFlitPosition
  extract_lets l' src w k sealed bad n tagged src1 k' heard v' src2
  have hw : w = setLink l.val (nextPosition (linkOf s l.val)) s := if_pos (.inr hst)
  have hk : k = nextPosition (linkOf s l.val) := (congrArg (linkOf · l.val) hw).trans hnext.rec_
  have hk6 : k.st = 6 := (congrArg Link.st hk).trans hst
  have hk' : k' = nextPosition (linkOf s l.val) := (if_neg (by
    show ¬(k.encrypted && k.st == 6 && phase != (k.rxGen % 2 == 1)) = true
    rw [hk, hphase]
    exact Bool.false_ne_true)).trans hk
  have hheard : heard = heardFlit s.time.cycle ack.toNat xoff.toNat (linkOf s l.val) := by
    show takeOff w.time.cycle xoff.toNat (takeAck w.time.cycle ack.toNat k') = _
    rw [hk', hw]
    rfl
  have hv' : v' = v := by
    rw [← hv]
    show serveReplay l.val req.toNat rs.toNat (sendParked l.val (setLink l.val heard w)) = _
    rw [hheard, hw]
    rfl
  have h6 : heard.st = 6 := by
    rw [hheard, (heardFlit_same ..).st]
    exact hst
  rw [if_neg (fun hn => hn.2 hk6), if_neg (show ¬(!true) = true by decide), if_neg (by simp), h6, if_neg (by rw [hv']; exact fun hn => hn hv6)]
  cases seq with
  | none => exact congrArg (fun v => Host.Outcome.next (numberTaken l.val v none)) hv'
  | some m => exact congrArg (fun v => Host.Outcome.next (seqFlit l.val m.toNat v)) hv'

/-! ## The number of a position -/

theorem serveReplay_none (l n : Nat) (s : State) : serveReplay l 0 n s = s := by
  unfold serveReplay
  dsimp only
  split
  · rfl
  · rw [if_neg (fun h => absurd h.1 (by decide)), if_neg (fun h => absurd h.1 (by decide))]

/-- The record as its position's number is judged. -/
def numbered (seq : Nat) (k : Link) : Link := { k with waited := k.waited + 1, tagBad := if k.tagBad = some seq then none else k.tagBad }

section
variable {s t : State} {l seq : Nat} {k : Link} (h : LinkIs l k s t)
include h

/-- The expected number is accepted. -/
theorem LinkIs.seq_expected (he : k.e = seq) : LinkIs l (acceptFlit (numbered seq k)) s (seqFlit l seq t) ∧
    (seqFlit l seq t).out = t.out := by
  have heq : seqFlit l seq t = setLink l (acceptFlit (numbered seq k)) t := by
    unfold seqFlit
    rw [h.rec_]
    exact if_pos (by omega)
  rw [heq]
  exact ⟨h.set _, rfl⟩

/-- A number behind the expected one is a duplicate. -/
theorem LinkIs.seq_behind (hd : 2049 ≤ (seq + 4096 - k.e) % 4096) : LinkIs l ((numbered seq k).counted 4) s (seqFlit l seq t) ∧
    (seqFlit l seq t).out = t.out := by
  have heq : seqFlit l seq t = linkCount l 4 (setLink l (numbered seq k) t) := by
    unfold seqFlit
    dsimp only
    rw [h.rec_, if_neg (by omega), if_neg (by omega)]
    exact if_pos (.inl hd)
  rw [heq]
  exact ⟨(h.set _).count 4, rfl⟩

theorem LinkIs.seq_halfway (hd : (seq + 4096 - k.e) % 4096 = 2048) : seqFlit l seq t = linkRetrain l false t := by
  unfold seqFlit
  dsimp only
  rw [h.rec_, if_neg (by omega), if_pos hd]

end

theorem releaseHeld_none {k : Link} (h : k.held = []) (n : Nat) : releaseHeld n k = k := by
  cases n with
  | zero => rfl
  | succ n =>
    unfold releaseHeld
    rw [h]
    rfl

/-- The expected flit moves the receiver on, in order. -/
theorem acceptFlit_inOrder {k : Link} (hheld : k.held = []) (hrx : k.rx = 0 ∨ k.rx = 2) :
    (acceptFlit k).e = (k.e + 1) % 4096 ∧ (acceptFlit k).rx = 0 ∧ (acceptFlit k).xoff = k.xoff ∧ (acceptFlit k).oldest = k.oldest := by
  have hstep : ∀ k2 : Link, k2.e = (k.e + 1) % 4096 ∧ k2.rx = 0 ∧ k2.xoff = k.xoff ∧ k2.oldest = k.oldest → acceptFlit k = (if k2.rx = rxHolding ∧ k2.missing.isEmpty then { k2 with rx := rxInOrder, waited := 0 } else k2) →
      (acceptFlit k).e = (k.e + 1) % 4096 ∧ (acceptFlit k).rx = 0 ∧ (acceptFlit k).xoff = k.xoff ∧ (acceptFlit k).oldest = k.oldest := by
    intro k2 hk2 heq
    rw [heq, if_neg (fun hn => absurd (hk2.2.1.symm.trans hn.1) (by decide))]
    exact hk2
  rcases hrx with h | h
  · refine hstep { k with missing := k.missing.erase k.e, e := (k.e + 1) % 4096 } ⟨rfl, h, rfl, rfl⟩ ?_
    unfold acceptFlit
    extract_lets k1 k2
    have hk2 : k2 = { k with missing := k.missing.erase k.e, e := (k.e + 1) % 4096 } :=
      (if_neg (show ¬k.rx = rxGoBack by rw [h]; decide)).trans (releaseHeld_none (k := k1) hheld _)
    rw [hk2]
  · refine hstep { k with missing := k.missing.erase k.e, e := (k.e + 1) % 4096, rx := rxInOrder } ⟨rfl, rfl, rfl, rfl⟩ ?_
    unfold acceptFlit
    extract_lets k1 k2
    have hk2 : k2 = { k with missing := k.missing.erase k.e, e := (k.e + 1) % 4096, rx := rxInOrder } := if_pos h
    rw [hk2]

/-! ## A request for one flit (R479) -/

/-- A flit that is held and was not sent again lately is sent again. -/
theorem LinkIs.resends {s t : State} {l n : Nat} {k : Link} (h : LinkIs l k s t) (hheld : seqHeld k n = true)
    (hfree : k.resent.find? (fun q => q.1 == n) = none) :
    LinkIs l ({ k with resent := tins k.resent n t.time.cycle }.counted 2) s (serveReplay l 1 n t) ∧
      (serveReplay l 1 n t).out = t.out ++ [.resend l n 1] := by
  have hfree' : resendFree t k n = true := by
    unfold resendFree
    rw [hfree]
  have heq : serveReplay l 1 n t = emit (.resend l n 1) (linkCount l 2 (setLink l { k with resent := tins k.resent n t.time.cycle } t)) := by
    unfold serveReplay
    dsimp only
    rw [h.rec_, hheld, if_neg (by decide), if_pos ⟨rfl, hfree'⟩]
  rw [heq]
  exact ⟨((h.set _).count 2).of_links rfl, rfl⟩

/-! ## A bad position (R478, R481) -/

theorem LinkIs.goesBack {s t : State} {l : Nat} {k : Link} (h : LinkIs l k s t) (v : Link) :
    LinkIs l { v with rx := 2, held := [], missing := [], waited := 0 } s (toGoBack l v t) ∧
      (toGoBack l v t).out = t.out ++ [.replayAsk l 2 v.e] :=
  ⟨(h.set { v with rx := 2, held := [], missing := [], waited := 0 }).of_links (u := toGoBack l v t) rfl, rfl⟩

/-- A bad position of a receiver in order. -/
theorem LinkIs.badInOrder {s t : State} {l : Nat} {k : Link} (h : LinkIs l k s t) (hrx : k.rx = 0) :
    (badFlit l k t).out = t.out ++ [.replayAsk l (if obj t 0x5004 4 = 0 then 2 else 1) k.e] ∧
      LinkIs l (if obj t 0x5004 4 = 0 then { k with rx := 2, held := [], missing := [], waited := 0 }
        else { k with rx := 1, missing := [k.e], waited := 0 }) s (badFlit l k t) := by
  unfold badFlit
  rw [if_pos (show k.rx = rxInOrder from hrx)]
  by_cases hsel : obj t 0x5004 4 = 0
  · rw [if_pos hsel, if_pos hsel, if_pos hsel]
    obtain ⟨hlink, hout⟩ := h.goesBack k
    exact ⟨hout, hlink⟩
  · rw [if_neg hsel, if_neg hsel, if_neg hsel]
    exact ⟨rfl, (h.set { k with rx := 1, missing := [k.e], waited := 0 }).of_links
      (u := emit (.replayAsk l 1 k.e) (setLink l { k with rx := rxHolding, missing := [k.e], waited := 0 } t)) rfl⟩

/-- A position whose block lock is lost. -/
theorem exec_flitPosition_bad {s : State} {l : Fin 13} (hst : (linkOf s l.val).st = 5 ∨ (linkOf s l.val).st = 6)
    (hrise : Tbl.Rising s.links.link) (tagOk : Bool) (seq : Option (BitVec 12)) (ack rs : BitVec 12) (xoff : BitVec 4) (req : BitVec 2)
    (phase : Bool) : exec (.flitPosition l false tagOk seq ack xoff req rs phase) s =
      .next (badFlit l.val ((nextPosition (linkOf s l.val)).counted 0) (linkCount l.val 0 (setLink l.val (nextPosition (linkOf s l.val)) s))) := by
  have hnext := (LinkIs.refl hrise l.val).set (nextPosition (linkOf s l.val))
  have hcount := hnext.count 0
  show execFlitPosition l false tagOk seq ack xoff req rs phase s = _
  unfold execFlitPosition
  extract_lets l' src w k sealed bad n tagged src1 k' heard v' src2
  have hw : w = setLink l.val (nextPosition (linkOf s l.val)) s := if_pos hst
  have hk : k = nextPosition (linkOf s l.val) := (congrArg (linkOf · l.val) hw).trans hnext.rec_
  have hlive : ¬(k.st ≠ 5 ∧ k.st ≠ 6) := by
    rw [hk]
    exact fun hn => hst.elim hn.1 hn.2
  rw [if_neg hlive, if_pos (show (!false) = true from rfl)]
  show Host.Outcome.next (badFlit l.val (linkOf (linkCount l.val 0 w) l.val) (linkCount l.val 0 w)) = _
  rw [hw, hcount.rec_]

/-- The second failure of one flit's tag. -/
theorem exec_flitPosition_tag {s : State} {l : Fin 13} {n : BitVec 12} (hst : (linkOf s l.val).st = 6) (henc : (linkOf s l.val).encrypted = true)
    (hbad : (linkOf s l.val).tagBad = some n.toNat) (hrise : Tbl.Rising s.links.link) (ack rs : BitVec 12) (xoff : BitVec 4) (req : BitVec 2)
    (phase : Bool) : exec (.flitPosition l true false (some n) ack xoff req rs phase) s =
      .next (linkDown l.val 7 (linkCount l.val 1 (linkCount l.val 0 (setLink l.val (nextPosition (linkOf s l.val)) s)))) := by
  have hnext := (LinkIs.refl hrise l.val).set (nextPosition (linkOf s l.val))
  show execFlitPosition l true false (some n) ack xoff req rs phase s = _
  unfold execFlitPosition
  extract_lets l' src w k sealed bad n' tagged src1 k' heard v' src2
  have hw : w = setLink l.val (nextPosition (linkOf s l.val)) s := if_pos (.inr hst)
  have hk : k = nextPosition (linkOf s l.val) := (congrArg (linkOf · l.val) hw).trans hnext.rec_
  have hsealed : sealed = true := by
    show (k.encrypted && k.st == 6) = true
    rw [hk]
    exact Bool.and_eq_true_iff.2 ⟨henc, beq_iff_eq.2 hst⟩
  have hk6 : k.st = 6 := (congrArg Link.st hk).trans hst
  have hsame : n'.isSome = true ∧ k.tagBad = n' := ⟨rfl, by rw [hk]; exact hbad⟩
  rw [if_neg (fun hn => hn.2 hk6), if_neg (show ¬(!true) = true by decide), hsealed, if_pos (by decide), if_pos hsame]
  exact congrArg (fun w => Host.Outcome.next (linkDown l.val 7 (linkCount l.val 1 (linkCount l.val 0 w)))) hw

/-! ## Time-outs and key generations -/

theorem linkKeys_st (s : State) (l : Nat) (k : Link) : (linkKeys s l k).st = k.st := by
  unfold linkKeys
  split
  · rfl
  · rfl


/-- Going back from the oldest flit, while fewer than three times before. -/
theorem LinkIs.goesBackFrom {s t : State} {l : Nat} {k : Link} (h : LinkIs l k s t) (hbacks : k.backs < 3) :
    LinkIs l ({ k with resent := tins k.resent (4096 + k.oldest) t.time.cycle, backs := k.backs + 1, ackAt := t.time.cycle }.counted 3) s
        (goBackFrom l k.oldest t) ∧
      (goBackFrom l k.oldest t).out = t.out ++ [.resend l k.oldest (linkHeld k)] := by
  have hzero : (k.oldest + 4096 - k.oldest) % 4096 = 0 := by
    rw [Nat.add_sub_cancel_left]
  unfold goBackFrom
  dsimp only
  rw [h.rec_, if_pos rfl, if_neg (by omega), hzero, Nat.sub_zero]
  exact ⟨((h.set _).count 3).of_links rfl, rfl⟩

theorem LinkIs.rekeys {s t : State} {l : Nat} {k : Link} (h : LinkIs l k s t) :
    LinkIs l (linkKeys t l ({ k with txGen := k.txGen + 1, txSince := t.time.cycle }.counted 6)) s (linkRekey l t) := by
  unfold linkRekey
  rw [h.rec_, ← linkKeys_counted]
  exact (h.set _).count 6

/-- The keys are those that the next state gives. -/
theorem LinkIs.rekeyed {s t : State} {l : Nat} (h : LinkIs l (linkOf s l) s t) : linkOf (linkRekey l t) l =
    linkKeys (linkRekey l t) l { (linkOf s l).counted 6 with txGen := (linkOf s l).txGen + 1, txSince := t.time.cycle } := by
  have hrec := h.rekeys
  have hself : LinkIs l (linkKeys t l ({ linkOf s l with txGen := (linkOf s l).txGen + 1, txSince := t.time.cycle }.counted 6)) t (linkRekey l t) :=
    ⟨hrec.rec_, fun x hx => (hrec.others x hx).trans (h.others x hx).symm, hrec.rising⟩
  have hopens : linkOpens (linkRekey l t) l = linkOpens t l :=
    hself.opens ((linkKeys_st ..).trans (congrArg Link.st h.rec_).symm) ((linkRekey_keeps ..).dict rfl) l
  rw [hrec.rec_]
  exact (linkKeys_of_opens hopens _).symm

/-! ## The obligation -/

/-- Settles O46: a position's ack and off bits are taken first, its request next, its number last; each leaves the one link's record. -/
theorem flitsAreReplayed : Obligations.FlitsAreReplayed := by
  unfold Obligations.FlitsAreReplayed
  refine ⟨fun s l n ack xoff phase hinv hst hplain he hrx hheld hmissing => ?_,
    fun s l tagOk seq ack rs xoff req phase hinv hst hrx => ?_, fun s l n ack rs xoff req phase hinv hst henc hbad => ?_,
    fun s l n ack xoff phase hinv hst hplain hd => ?_, fun s l n ack xoff phase hinv hst hplain hd hfew => ?_,
    fun s l ack rs xoff phase hinv hst hplain hack hseq hfree => ?_, fun s l hinv hst hrx hmissing => ?_, fun s l hinv hst hrx => ?_,
    fun s l hinv hst hheld hbacks harr => ?_, fun s l hinv hst henc => ?_, fun s l hinv hst henc htime => ?_⟩
  · obtain ⟨hu, hout⟩ := positionHeard_is ack.toNat hinv.link hplain
    have hsame := heardFlit_same s.time.cycle ack.toNat xoff.toNat (linkOf s l.val)
    have hold := heardFlit_oldest s.time.cycle ack.toNat xoff.toNat (linkOf s l.val)
    have hoff : (heardFlit s.time.cycle ack.toNat xoff.toNat (linkOf s l.val)).xoff = xoff.toNat := rfl
    have hexec := exec_flitPosition (req := 0) (rs := 0) (seq := some n) hinv.link hplain hst (serveReplay_none ..)
      (by rw [hu.rec_, hsame.st]; exact hst)
    rw [numberTaken_some] at hexec
    generalize heardFlit s.time.cycle ack.toNat xoff.toNat (linkOf s l.val) = k at *
    obtain ⟨hv, hvout⟩ := hu.seq_expected (seq := n.toNat) (hsame.e.trans he)
    obtain ⟨hae, harx, hax, hao⟩ := acceptFlit_inOrder (k := numbered n.toNat k) (hsame.held.trans hheld) (by
      show k.rx = 0 ∨ k.rx = 2
      rw [hsame.rx]
      exact hrx)
    refine ⟨_, hexec, hv.others, hvout.trans hout, ?_⟩
    rw [hv.rec_]
    exact ⟨hae.trans (by rw [show (numbered n.toNat k).e = k.e from rfl, hsame.e, he]), harx, hax.trans hoff, hao.trans hold⟩
  · have hcount := ((LinkIs.refl hinv.link l.val).set (nextPosition (linkOf s l.val))).count 0
    have hk : Keeps 0x20000 s (linkCount l.val 0 (setLink l.val (nextPosition (linkOf s l.val)) s)) := (linkCount_keeps ..).step (setLink_keeps ..)
    have hexec := exec_flitPosition_bad hst hinv.link tagOk seq ack rs xoff req phase
    have hout : (linkCount l.val 0 (setLink l.val (nextPosition (linkOf s l.val)) s)).out = s.out := hk.out rfl
    have hobj := obj_of_dict (hk.dict rfl) 0x5004 4
    generalize linkCount l.val 0 (setLink l.val (nextPosition (linkOf s l.val)) s) = u at *
    obtain ⟨hbout, hbad⟩ := hcount.badInOrder hrx
    rw [hobj, hout] at hbout
    rw [hobj] at hbad
    refine ⟨_, hexec, hbad.others, hbout, ?_⟩
    rw [hbad.rec_]
    rfl
  · have hcount := (((LinkIs.refl hinv.link l.val).set (nextPosition (linkOf s l.val))).count 0).count 1
    have hk : Keeps 0x20000 s (linkCount l.val 1 (linkCount l.val 0 (setLink l.val (nextPosition (linkOf s l.val)) s))) :=
      (linkCount_keeps ..).step ((linkCount_keeps ..).step (setLink_keeps ..))
    exact ⟨_, _, exec_flitPosition_tag hst henc hbad hinv.link ack rs xoff req phase,
      hcount.falls (show (linkOf s l.val).st ≠ 0 by omega) (congrArg Time.cycle (hk.time rfl)) 7, rfl⟩
  · obtain ⟨hu, hout⟩ := positionHeard_is ack.toNat hinv.link hplain
    have hsame := heardFlit_same s.time.cycle ack.toNat xoff.toNat (linkOf s l.val)
    have hcounts := heardFlit_counts s.time.cycle ack.toNat xoff.toNat (linkOf s l.val)
    have hexec := exec_flitPosition (req := 0) (rs := 0) (seq := some n) hinv.link hplain hst (serveReplay_none ..)
      (by rw [hu.rec_, hsame.st]; exact hst)
    rw [numberTaken_some] at hexec
    generalize heardFlit s.time.cycle ack.toNat xoff.toNat (linkOf s l.val) = k at *
    obtain ⟨hv, hvout⟩ := hu.seq_behind (seq := n.toNat) (by rw [hsame.e]; exact hd)
    refine ⟨_, hexec, hv.others, hvout.trans hout, ?_⟩
    rw [hv.rec_]
    exact ⟨hsame.e, congrArg (fun c => tmod 0 c 4 fun n => (n + 1) % 2 ^ 64) hcounts⟩
  · obtain ⟨hu, hout⟩ := positionHeard_is ack.toNat hinv.link hplain
    have hsame := heardFlit_same s.time.cycle ack.toNat xoff.toNat (linkOf s l.val)
    have hexec := exec_flitPosition (req := 0) (rs := 0) (seq := some n) hinv.link hplain hst (serveReplay_none ..)
      (by rw [hu.rec_, hsame.st]; exact hst)
    rw [numberTaken_some] at hexec
    have hk := positionHeard_keeps l.val ack.toNat xoff.toNat s
    generalize heardFlit s.time.cycle ack.toNat xoff.toNat (linkOf s l.val) = k at *
    generalize positionHeard l.val ack.toNat xoff.toNat s = u at *
    have hv := hu.retrain_few (hsame.st.trans hst) (by
      rw [recentRetrains, hk.time rfl, obj_of_dict (hk.dict rfl), hsame.retrains]
      exact hfew) false
    rw [← hu.seq_halfway (seq := n.toNat) (by rw [hsame.e]; exact hd)] at hv
    refine ⟨_, hexec, hv.others, ?_⟩
    rw [hv.rec_]
    obtain ⟨-, he, -⟩ := linkKeys_fields (retrainCounted l.val u) l.val (retraining u.time.cycle false ((retrainNoted u.time.cycle k).counted 5))
    exact ⟨linkKeys_st .., he.trans hsame.e⟩
  · obtain ⟨hu, hout⟩ := positionHeard_is ack.toNat hinv.link hplain
    have hsame := heardFlit_same s.time.cycle ack.toNat xoff.toNat (linkOf s l.val)
    have hcounts := heardFlit_counts s.time.cycle ack.toNat xoff.toNat (linkOf s l.val)
    have hidle := heardFlit_idle (now := s.time.cycle) hack xoff.toNat rs.toNat
    have hexec := exec_flitPosition (req := 1) (rs := rs) (seq := none) (v := serveReplay l.val 1 rs.toNat (positionHeard l.val ack.toNat xoff.toNat s))
      (ack := ack) hinv.link hplain hst rfl
    rw [numberTaken_none] at hexec
    generalize heardFlit s.time.cycle ack.toNat xoff.toNat (linkOf s l.val) = k at *
    generalize positionHeard l.val ack.toNat xoff.toNat s = u at *
    obtain ⟨hv, hvout⟩ := hu.resends (hidle.trans hseq) (by rw [hsame.resent]; exact hfree)
    generalize serveReplay l.val 1 rs.toNat u = v at *
    have hend := hv.set { linkOf v l.val with waited := (linkOf v l.val).waited + 1 }
    refine ⟨_, hexec (by rw [hv.rec_]; exact hsame.st.trans hst), hend.others, ?_, ?_⟩
    · exact hvout.trans (by rw [hout])
    · rw [hend.rec_]
      show (linkOf v l.val).counts = _
      rw [hv.rec_]
      exact congrArg (fun c => tmod 0 c 2 fun n => (n + 1) % 2 ^ 64) hcounts
  · have hk := elapse_keeps (flitCycles (linkOf s l.val) (rxLimit (linkOf s l.val) - (linkOf s l.val).waited)) s
    have htime := elapse_cycle (flitCycles (linkOf s l.val) (rxLimit (linkOf s l.val) - (linkOf s l.val).waited)) s
    have hexec : exec (.holdingTimeout l) s = .next (toGoBack l.val (linkOf s l.val)
        (elapse (flitCycles (linkOf s l.val) (rxLimit (linkOf s l.val) - (linkOf s l.val).waited)) s)) :=
      if_pos ⟨hst, hrx, by rw [List.isEmpty_eq_false_iff.2 hmissing]; rfl⟩
    have h := (LinkIs.refl hinv.link l.val).of_links (hk.links rfl)
    have hout := hk.out rfl
    generalize elapse (flitCycles (linkOf s l.val) (rxLimit (linkOf s l.val) - (linkOf s l.val).waited)) s = u at *
    obtain ⟨hv, hvout⟩ := h.goesBack (linkOf s l.val)
    exact ⟨_, hexec, hv.others, hvout.trans (by rw [hout]), (congrArg Time.cycle ((toGoBack_keeps ..).time rfl)).trans htime, hv.rec_⟩
  · have hk := elapse_keeps (flitCycles (linkOf s l.val) (rxLimit (linkOf s l.val) - (linkOf s l.val).waited)) s
    have hexec : exec (.goBackResendTimeout l) s = .next (emit (.replayAsk l.val 2 (linkOf s l.val).e) (setLink l.val { linkOf s l.val with waited := 0 }
        (elapse (flitCycles (linkOf s l.val) (rxLimit (linkOf s l.val) - (linkOf s l.val).waited)) s))) := if_pos ⟨hst, hrx⟩
    have h := (LinkIs.refl hinv.link l.val).of_links (hk.links rfl)
    have hout := hk.out rfl
    generalize elapse (flitCycles (linkOf s l.val) (rxLimit (linkOf s l.val) - (linkOf s l.val).waited)) s = u at *
    have hset := h.set { linkOf s l.val with waited := 0 }
    exact ⟨_, hexec, hset.others, congrArg (· ++ _) hout, hset.rec_⟩
  · have hk := carryTo_keeps ((linkOf s l.val).ackAt + nsCycles (obj s 0x5004 2)) s
    have htime := carryTo_cycle ((linkOf s l.val).ackAt + nsCycles (obj s 0x5004 2)) s
    have hexec : exec (.replayTimeout l) s =
        .next (goBackFrom l.val (linkOf s l.val).oldest (carryTo ((linkOf s l.val).ackAt + nsCycles (obj s 0x5004 2)) s)) := by
      refine (if_pos ⟨hst, hheld⟩).trans ?_
      rw [harr]
      rfl
    have h := (LinkIs.refl hinv.link l.val).of_links (hk.links rfl)
    have hout := hk.out rfl
    generalize carryTo ((linkOf s l.val).ackAt + nsCycles (obj s 0x5004 2)) s = u at *
    obtain ⟨hv, hvout⟩ := h.goesBackFrom hbacks
    have hend : (goBackFrom l.val (linkOf s l.val).oldest u).time = u.time := (goBackFrom_keeps ..).time rfl
    refine ⟨_, hexec, hv.others, hvout.trans (by rw [hout]), by rw [hend, htime], ?_⟩
    rw [hv.rec_, hend]
    exact ⟨rfl, rfl, rfl⟩
  · have hk := carryTo_keeps ((linkOf s l.val).txSince + flitCycles (linkOf s l.val) (2 ^ obj s 0x5004 1)) s
    have htime := carryTo_cycle ((linkOf s l.val).txSince + flitCycles (linkOf s l.val) (2 ^ obj s 0x5004 1)) s
    have hexec : exec (.rekeyInterval l) s =
      .next (linkRekey l.val (carryTo ((linkOf s l.val).txSince + flitCycles (linkOf s l.val) (2 ^ obj s 0x5004 1)) s)) := if_pos ⟨hst, henc⟩
    have h := (LinkIs.refl hinv.link l.val).of_links (hk.links rfl)
    generalize carryTo ((linkOf s l.val).txSince + flitCycles (linkOf s l.val) (2 ^ obj s 0x5004 1)) s = u at *
    have hend : (linkRekey l.val u).time = u.time := (linkRekey_keeps ..).time rfl
    refine ⟨_, hexec, h.rekeys.others, by rw [hend, htime], ?_⟩
    rw [hend]
    exact h.rekeyed
  · have h := LinkIs.refl hinv.link l.val
    exact ⟨_, congrArg Host.Outcome.next (if_pos ⟨hst, henc, htime⟩), h.rekeys.others, h.rekeyed⟩

end Sys2Proof.Machine
end

section
/-! PROOFS. The truss: table epochs, deliveries, lanes lost, and the drain of a reset (R499, R502, R504 to R509, R515). -/

namespace Sys2Proof.Machine

/-! ## Tables (R504, R506, R507) -/

theorem live_serving {s : State} (h : live s = true) : ¬(s.pwr.dev = .quiescing ∨ s.pwr.dev = .reset) := by
  intro hn
  unfold live at h
  rcases hn with hn | hn
  all_goals
    rw [hn] at h
    exact absurd h (by decide)

section
variable {s : State} (hlive : live s = true)
include hlive

theorem commitTable_valid {bs : List Byte} (hdrain : s.truss.draining = false) (hnext : s.truss.next = some bs) (hok : trussTableOk bs = true) :
    commitTable s = (0, tableStatus 1 (s.setTruss fun t => { t with
      epoch := 1 - s.truss.epoch, draining := true, left := trussLeft s s.truss.epoch
      table0 := if s.truss.epoch = 1 then bs else t.table0, table1 := if s.truss.epoch = 0 then bs else t.table1 })) := by
  unfold commitTable
  rw [if_neg (live_serving hlive), hdrain, if_neg Bool.false_ne_true, hnext]
  dsimp only
  rw [hok]
  rfl

theorem commitTable_invalid {bs : List Byte} (hdrain : s.truss.draining = false) (hnext : s.truss.next = some bs) (hok : trussTableOk bs = false) :
    commitTable s = (abValue, tableStatus 2 s) := by
  unfold commitTable
  rw [if_neg (live_serving hlive), hdrain, if_neg Bool.false_ne_true, hnext]
  dsimp only
  rw [hok]
  rfl

theorem commitTable_draining (hdrain : s.truss.draining = true) : commitTable s = (abState, tableStatus 3 s) := by
  unfold commitTable
  rw [if_neg (live_serving hlive), hdrain, if_pos rfl]

theorem exec_tableCommit_refused {t : State} {c : Nat} (h : commitTable s = (c, t)) (hc : c ≠ 0) :
    exec (.tableCommit true) s = .next (bumpObj 0x1022 1 1 32 t) := by
  refine congrArg Host.Outcome.next ((if_pos (answering_of_live hlive)).trans ?_)
  rw [h]
  exact written_refused hc t

end

/-! ## Deliveries (R499, R515) -/

/-- The oldest packet that an endpoint waits for is delivered, past those that it does not wait for. -/
theorem trussDeliver_found {p : Packet} {dest : Nat} (hsent : p.sent = true) (hwait : dest ∈ p.wait) (pre rest : List Packet)
    (hpre : ∀ q ∈ pre, q.desc = p.desc → q.sent = true → dest ∉ q.wait) : trussDeliver p.desc dest (pre ++ p :: rest) =
      some (p, if p.wait.erase dest = [] then pre ++ rest else pre ++ { p with wait := p.wait.erase dest } :: rest) := by
  induction pre with
  | nil =>
    refine (if_pos ⟨rfl, hsent, List.contains_iff_mem.2 hwait⟩).trans (congrArg (fun l => some (p, l)) ?_)
    by_cases h : p.wait.erase dest = []
    · rw [if_pos h]
      exact if_pos (List.isEmpty_iff.2 h)
    · rw [if_neg h]
      exact if_neg fun hn => h (List.isEmpty_iff.1 hn)
  | cons q pre ih =>
    have hq : ¬(q.desc = p.desc ∧ q.sent = true ∧ q.wait.contains dest = true) := fun ⟨h1, h2, h3⟩ =>
      hpre q List.mem_cons_self h1 h2 (List.contains_iff_mem.1 h3)
    refine (if_neg hq).trans ((congrArg (Option.map fun r => (r.1, q :: r.2)) (ih fun x hx => hpre x (List.mem_cons_of_mem _ hx))).trans ?_)
    refine congrArg (fun l => some (p, l)) ?_
    split
    · rfl
    · rfl

/-! ## Lanes (R509) -/

theorem trussCrc_few {s : State} {link d : Nat} (h : tget 0 s.truss.crc (2 * link + d) < 3) : trussCrc link d s =
    (false, s.setTruss fun t => { t with crc := tput 0 t.crc (2 * link + d) (tget 0 s.truss.crc (2 * link + d) + 1) }) :=
  if_pos (by omega)

theorem trussCrc_fourth {s : State} {link d : Nat} (h : 3 ≤ tget 0 s.truss.crc (2 * link + d)) : trussCrc link d s =
    (decide (min (trussGroups link) (tget 0 s.truss.lost (2 * link + d) + 1) = trussGroups link),
      telemetry 4 link (s.setTruss fun t => { t with
        crc := tput 0 t.crc (2 * link + d) 0
        lost := tput 0 t.lost (2 * link + d) (min (trussGroups link) (tget 0 s.truss.lost (2 * link + d) + 1)) })) :=
  if_neg (by omega)

theorem exec_trussFlitCrcFail {s t : State} {link : Fin 22} {dir lost : Bool} (hlive : live s = true)
    (h : trussCrc link.val (if dir then 1 else 0) s = (lost, t)) :
    exec (.trussFlitCrcFail link dir) s = .next (if lost then dieFails t else t) := by
  show execTrussFlitCrcFail link dir s = _
  unfold execTrussFlitCrcFail
  rw [hlive, h]
  rfl

theorem objDom_setDom_same (i j : Nat) (bs : List Byte) (s : State) : objDom (setDom i j bs s) i j = bs := by
  simp only [objDom, setDom, State.setDict, tins_find, if_true]

theorem quiesced_truss (c : Nat) (s : State) : (quiesce (carryTo c s)).truss = s.truss :=
  ((quiesce_keeps _).truss rfl).trans ((carryTo_keeps ..).truss rfl)

/-- Settles O51: the table's epoch, the packet's endpoints and the direction's lane groups are each changed in one place. -/
theorem trussCarriesOn : Obligations.TrussCarriesOn := by
  unfold Obligations.TrussCarriesOn
  refine ⟨fun s bs hlive hdrain hnext hok => ?_, fun s bs hlive hdrain hnext hok => ?_, fun s hlive hdrain => ?_,
    fun s bs hdrain hleft hnext => ?_, fun s dest p pre rest hps hpre hsent hwait => ?_, fun s link dir k hlive hk hfew => ?_,
    fun s link dir k hlive hk hmany hgroups => ?_, fun s link dir k hlive hk hmany hgroups hobj => ?_, fun s c hdev hreset harr => ?_⟩
  · exact ⟨_, next_commanded (answering_of_live hlive) (commitTable_valid hlive hdrain hnext hok), obj_setObj_same .., rfl⟩
  · refine ⟨_, exec_tableCommit_refused hlive (commitTable_invalid hlive hdrain hnext hok) (by decide), ?_, rfl, ?_⟩
    · exact (obj_written_refused (by decide) _).trans (obj_setObj_same ..)
    · exact (obj_bumpObj_same ..).trans (congrArg (fun n => (n + 1) % 2 ^ 32) (obj_setObj_ne (by decide) ..))
  · exact ⟨_, exec_tableCommit_refused hlive (commitTable_draining hlive hdrain) (by decide),
      (obj_written_refused (by decide) _).trans (obj_setObj_same ..), rfl⟩
  · refine ⟨_, if_pos ⟨hdrain, hleft⟩, obj_setObj_same .., ?_, rfl, rfl, rfl, rfl, fun h => if_pos h, fun h => if_pos h⟩
    rw [hnext]
    exact objDom_setDom_same ..
  · refine ⟨_, _, ?_, rfl, rfl⟩
    show execMulticastDeliveryNotice p.desc dest s = _
    unfold execMulticastDeliveryNotice
    rw [hps, trussDeliver_found hsent hwait pre rest hpre]
    rfl
  · subst hk
    exact ⟨_, exec_trussFlitCrcFail hlive (trussCrc_few hfew), rfl⟩
  · subst hk
    have hmin : min (trussGroups link.val) (tget 0 s.truss.lost (2 * link.val + if dir then 1 else 0) + 1) =
        tget 0 s.truss.lost (2 * link.val + if dir then 1 else 0) + 1 := by omega
    have hcrc := trussCrc_fourth hmany
    rw [hmin, decide_eq_false (by omega)] at hcrc
    refine ⟨_, exec_trussFlitCrcFail hlive hcrc, ?_, ?_, ?_⟩
    · exact (telemetry_keeps ..).pwr rfl
    · exact (telemetry_told ..).eventCount
    · exact (telemetry_keeps ..).truss rfl
  · subst hk
    have hmin : min (trussGroups link.val) (tget 0 s.truss.lost (2 * link.val + if dir then 1 else 0) + 1) = trussGroups link.val := by omega
    have hcrc := trussCrc_fourth hmany
    rw [hmin, decide_eq_true rfl] at hcrc
    have hexec := exec_trussFlitCrcFail hlive hcrc
    generalize hu : s.setTruss _ = u at hexec
    have hk : Keeps 0x80 u (telemetry 4 link.val u) := telemetry_keeps ..
    have hlive' : live (telemetry 4 link.val u) = true := by
      rw [live, hk.pwr rfl, ← hu]
      exact hlive
    have hobj' : obj (telemetry 4 link.val u) 0x2020 7 ≠ 1 := by
      rw [obj_of_dict (hk.dict rfl), ← hu]
      exact hobj
    rw [if_pos rfl, dieFails_of_live hlive', if_pos hobj'] at hexec
    refine ⟨_, hexec, (hk.truss rfl).trans (by rw [← hu]; rfl), ?_⟩
    show ({ (telemetry 4 link.val u).pwr with dev := .failed, faultN := true, cause := 3, step := 0, resetAt := none } : Power) = _
    rw [hk.pwr rfl, ← hu]
    rfl
  · have htruss := quiesced_truss (c + 8 + obj s 0x2500 8) s
    have h := quiesced_pwr (c + 8 + obj s 0x2500 8) s
    have hcycle := quiesced_cycle (c + 8 + obj s 0x2500 8) s
    have hexec : exec .resetDrainLimit s =
        .next ((quiesce (carryTo (c + 8 + obj s 0x2500 8) s)).setTruss fun x => { x with packets := [], left := 0 }) := by
      show execResetDrainLimit s = _
      unfold execResetDrainLimit
      rw [hdev, hreset]
      dsimp only
      rw [harr]
      rfl
    generalize quiesce (carryTo (c + 8 + obj s 0x2500 8) s) = r at *
    exact ⟨_, hexec, hcycle, congrArg (fun x : Truss => { x with packets := [], left := 0 }) htruss, h⟩

end Sys2Proof.Machine
end

section
/-! PROOFS. Foreign ports train, time out and fail (R236, R239, R545, R546, R553, R556, R558, R559, R562). -/

namespace Sys2Proof.Machine

/-! ## Training (R545, R546, R558) -/

/-- The state record of a port that has trained. -/
def trainedWord (data : List Byte) : Nat := 2 * 2 ^ 28 + bitsOf (leNat (data.take 4)) 27 7 * 2 ^ 7

/-- The port takes the mode, the rate and the width that its training found. -/
def supported (p : Nat) (data : List Byte) : Bool :=
  portSupports p (bitsOf (leNat (data.take 4)) 27 24) (bitsOf (leNat (data.take 4)) 23 16) (bitsOf (leNat (data.take 4)) 15 8)

/-- The state in which a port that trains shows its record. -/
def portShown (p : Nat) (data : List Byte) (s : State) : State :=
  setObj (portState p).1 (portState p).2 (trainedWord data) (applyWaiting .training (portWaits p) s)

theorem portShown_keeps (p : Nat) (data : List Byte) (s : State) : Keeps 0x2 s (portShown p data s) := (setObj_keeps ..).step (applyWaiting_keeps ..)

theorem applyWaiting_none {s : State} (h : s.dict.waiting = []) (e : Effect) (p : Nat → Bool) : applyWaiting e p s = s := by
  unfold applyWaiting
  rw [h]
  rfl

section
variable {s : State} {p : Fin 14} {data : List Byte}

theorem exec_portLinkUp_unsupported (h : supported p.val data = false) : exec (.portLinkUp p data) s = .next s :=
  if_pos (.inr (by
    show (!supported p.val data) = true
    rw [h]
    rfl))

/-- A port with no trays behind it. -/
theorem exec_portLinkUp_plain (hlive : live s = true) (hp : p.val < 4 ∨ 12 ≤ p.val) (h : supported p.val data = true) :
    exec (.portLinkUp p data) s = .next (if p.val < 4 ∧ cxl3 (portShown p.val data s) p.val then agentTrained (8 + p.val) (portShown p.val data s)
      else portShown p.val data s) := by
  have hgo : ¬((!live s) = true ∨ (!supported p.val data) = true) := by
    rw [hlive, h]
    decide
  refine (if_neg hgo).trans ?_
  dsimp only
  rw [if_neg (show ¬(4 ≤ p.val ∧ p.val < 8) by omega), if_neg (show ¬(4 ≤ p.val ∧ p.val < 12) by omega)]
  rfl

/-- The trays or namespaces that a PCIe port finds. -/
def portFound (data : List Byte) : List Nat := (portFinds 64 (data.drop 4)).map (64 + ·)

theorem exec_portLinkUp_pcie (hlive : live s = true) (h8 : 8 ≤ p.val) (h12 : p.val < 12) (h : supported p.val data = true) :
    exec (.portLinkUp p data) s = .next (bootTrays p.val (portFinds 64 (data.drop 4)) ((portShown p.val data s).setPorts fun q =>
      { q with found := (q.found.filter fun k => !(portFound data).contains k) ++ portFound data })) := by
  have hgo : ¬((!live s) = true ∨ (!supported p.val data) = true) := by
    rw [hlive, h]
    decide
  have hkeys : (portFinds 64 (data.drop 4)).map (fun n => if 8 ≤ p.val then 64 + n else n) = portFound data :=
    List.map_congr_left fun n _ => if_pos h8
  refine (if_neg hgo).trans ?_
  dsimp only
  rw [if_neg (show ¬(4 ≤ p.val ∧ p.val < 8) by omega), if_pos (show 4 ≤ p.val ∧ p.val < 12 from ⟨by omega, h12⟩), hkeys, if_neg (fun hn => absurd hn.1 (by omega))]
  rfl

/-- No kept record is active: nothing comes into force as a port trains. -/
theorem bootTrays_none {s : State} {p : Nat} (h8 : 8 ≤ p) (h : ∀ n, byteAt (objDom s 0x4210 (n + 1)) 0 ≠ 1) (found : List Nat) :
    bootTrays p found s = s := by
  refine List.foldl_fixed' (fun n => ?_) _
  dsimp only
  rw [decide_eq_true h8, if_pos rfl]
  exact if_neg fun hn => h n hn.1

end

/-! ## NVMe commands (R562) -/

theorem nvmeFail_plain {c : NvmeCmd} (hmove : c.move = none) (hblock : c.block = none) (s : State) :
    nvmeFail c s = nvmeDrop (fun d => d.port == c.port && d.cid == c.cid) s := by
  unfold nvmeFail
  rw [hmove, hblock]

theorem supported_eq (p : Nat) (data : List Byte) : supported p data =
    portSupports p (leNat (data.take 4) / 2 ^ 24 % 16) (leNat (data.take 4) / 2 ^ 16 % 256) (leNat (data.take 4) / 2 ^ 8 % 256) := by
  unfold supported bitsOf
  rfl

theorem trainedWord_eq (data : List Byte) : trainedWord data = 2 * 2 ^ 28 + leNat (data.take 4) / 2 ^ 7 % 2 ^ 21 * 2 ^ 7 := by
  unfold trainedWord bitsOf
  rfl

theorem portUp_eq (v : Nat) : bitsOf v 31 28 = v / 2 ^ 28 % 16 := by
  unfold bitsOf
  rfl

/-- The commands of one identifier at one controller are done with. -/
theorem nvmeDrop_ports {s : State} {c : NvmeCmd} {p cid : Nat} (h : s.ports.nvme.find? (fun c => c.port == p && c.cid == cid) = some c) :
    (nvmeDrop (fun d => d.port == c.port && d.cid == c.cid) s).ports =
      { s.ports with nvme := s.ports.nvme.filter fun d => !(d.port == p && d.cid == cid) } := by
  obtain ⟨hp, hc⟩ := Bool.and_eq_true_iff.1 (List.find?_some (p := fun c : NvmeCmd => c.port == p && c.cid == cid) h)
  unfold nvmeDrop
  rw [beq_iff_eq.1 hp, beq_iff_eq.1 hc]

theorem nvmeReset_eq (p : Nat) (s : State) : nvmeReset p s = (s.ports.nvme.filter fun c => c.port == p).foldl (fun s c => nvmeFail c s)
    (emit (.tray p 0x200 0 0 0) (s.setPorts fun q =>
      { q with resetting := if s.ports.resetting.contains p then s.ports.resetting else s.ports.resetting ++ [p] })) := rfl

/-- A controller without outstanding commands is reset: nothing fails. -/
theorem nvmeReset_idle {s : State} {p : Nat} (hin : p ∈ s.ports.resetting) (hnone : ∀ c ∈ s.ports.nvme, c.port ≠ p) :
    nvmeReset p s = emit (.tray p 0x200 0 0 0) s := by
  have hfilter : (s.ports.nvme.filter fun c => c.port == p) = [] := List.filter_eq_nil_iff.2 fun c hc h => hnone c hc (beq_iff_eq.1 h)
  rw [nvmeReset_eq, hfilter, if_pos (List.contains_iff_mem.2 hin)]
  rfl

/-- A controller whose one command was aborted is reset: the command fails. -/
theorem nvmeReset_one {s : State} {p : Nat} {c : NvmeCmd} (hin : s.ports.resetting = []) (hone : s.ports.nvme = [c]) (hport : c.port = p)
    (hmove : c.move = none) (hblock : c.block = none) : nvmeReset p s =
      nvmeDrop (fun d => d.port == c.port && d.cid == c.cid) (emit (.tray p 0x200 0 0 0) (s.setPorts fun q => { q with resetting := [p] })) := by
  have hfilter : (s.ports.nvme.filter fun c => c.port == p) = [c] := by
    rw [hone]
    exact List.filter_cons_of_pos (beq_iff_eq.2 hport)
  rw [nvmeReset_eq, hfilter, hin, if_neg (by simp)]
  exact nvmeFail_plain hmove hblock _

/-! ## The obligation -/

/-- Settles O57: each event changes the port's record, the one command or the agent's requests, and goes on as its row says. -/
theorem portsTrainAndFail : Obligations.PortsTrainAndFail := by
  unfold Obligations.PortsTrainAndFail
  refine ⟨fun s p data hlive hp hsup => ?_, fun s p data hlive hwait h8 h12 hrec hsup => ?_, fun s p data hsup => ?_, fun s p v hv => ?_,
    fun s p hup => ?_, fun s p hdown => ?_, fun s n hact harr => ?_, fun s p cid c hfind hab harr => ?_,
    fun s p cid c hone hport hcid hab hmove hblock hres harr => ?_, fun s p cid id c hfind hmove hany => ?_,
    fun s p cid c status hfind hmove hblock => ?_, fun s p hin => ?_, fun s p hin hfew hnone => ?_, fun s p hin hmany hnone => ?_⟩
  · rw [← supported_eq] at hsup
    have hk := portShown_keeps p.val data s
    have hobj : obj (portShown p.val data s) (portState p.val).1 (portState p.val).2 = trainedWord data := obj_setObj_same ..
    refine ⟨_, exec_portLinkUp_plain hlive hp hsup, ?_, ?_⟩
    · split
      · exact hk.ports rfl
      · exact hk.ports rfl
    · rw [← trainedWord_eq]
      split
      · exact hobj
      · exact hobj
  · rw [← supported_eq] at hsup
    have hexec := exec_portLinkUp_pcie hlive h8 h12 hsup
    have hdoms : ∀ k, objDom (portShown p.val data s) 0x4210 k = objDom s 0x4210 k := fun k => by
      unfold portShown
      rw [applyWaiting_none hwait]
      rfl
    rw [bootTrays_none h8 fun n => by
      show byteAt (objDom (portShown p.val data s) 0x4210 (n + 1)) 0 ≠ 1
      rw [hdoms]
      exact hrec n] at hexec
    have hports := (portShown_keeps p.val data s).ports rfl
    refine ⟨_, hexec, ?_, fun n hn => ?_, fun k hk => ?_⟩
    · rw [← trainedWord_eq]
      exact obj_setObj_same ..
    · exact List.mem_append_right _ (List.mem_map_of_mem hn)
    · by_cases h : k ∈ portFound data
      · exact List.mem_append_right _ h
      · refine List.mem_append_left _ (List.mem_filter.2 ⟨?_, by simpa using h⟩)
        rw [hports]
        exact hk
  · rw [← supported_eq] at hsup
    exact exec_portLinkUp_unsupported hsup
  · subst hv
    exact ⟨_, rfl, rfl, rfl⟩
  · refine ⟨_, if_neg (by rw [portUp_eq]; exact hup), obj_setObj_same .., rfl, fun r hr => ?_, List.length_map ..⟩
    obtain ⟨q, -, hq⟩ := List.mem_map.1 hr
    by_cases hsrc : q.src = 0x10 + p.val
    · rw [if_pos hsrc] at hq
      exact fun _ => by rw [← hq]
    · rw [if_neg hsrc] at hq
      exact fun h => absurd (hq ▸ h) hsrc
  · exact if_pos (by rw [hdown]; rfl)
  · have hk := elapse_keeps (usCycles (obj s 0x5302 1)) s
    refine ⟨elapse (usCycles (obj s 0x5302 1)) s, rfl, hk.kv rfl, hk.attn rfl, (if_pos hact).trans ?_⟩
    rw [if_neg (by
      show ¬arrivalWins (s.time.cycle + 2000 * obj s 0x5302 1) bringsMove s = true
      rw [harr]
      exact Bool.false_ne_true)]
    refine (if_pos ?_).symm
    show (tget ({} : Tray) (elapse (usCycles (obj s 0x5302 1)) s).kv.trays n.val).active = true
    rw [hk.kv rfl]
    exact hact
  · have hk := carryTo_keeps (c.at_ + msCycles (obj s 0x5401 1)) s
    have htime := carryTo_cycle (c.at_ + msCycles (obj s 0x5401 1)) s
    have hexec : exec (.nvmeCommandTimeout p cid) s = .next (emit (.tray p.val 0x108 cid 0 0)
        ((carryTo (c.at_ + msCycles (obj s 0x5401 1)) s).setPorts fun q => { q with nvme := q.nvme.map fun d =>
          if d = c then { d with aborting := true, at_ := (carryTo (c.at_ + msCycles (obj s 0x5401 1)) s).time.cycle } else d })) := by
      show execNvmeCommandTimeout p cid s = _
      unfold execNvmeCommandTimeout
      rw [hfind]
      dsimp only
      rw [harr, if_neg Bool.false_ne_true, hab, if_neg Bool.false_ne_true]
    have hout := hk.out rfl
    have hports := hk.ports rfl
    generalize carryTo (c.at_ + msCycles (obj s 0x5401 1)) s = u at *
    exact ⟨_, hexec, congrArg (· ++ _) hout, htime, congrArg (fun q : Ports => { q with nvme := q.nvme.map fun d =>
      if d = c then { d with aborting := true, at_ := u.time.cycle } else d }) hports⟩
  · have hk := carryTo_keeps (c.at_ + msCycles (obj s 0x5401 1)) s
    have hfind : s.ports.nvme.find? (fun c => c.port == p.val && c.cid == cid) = some c := by
      rw [hone]
      exact List.find?_cons_of_pos (by rw [hport, hcid]; simp)
    have hexec : exec (.nvmeCommandTimeout p cid) s = .next (nvmeReset p.val (carryTo (c.at_ + msCycles (obj s 0x5401 1)) s)) := by
      show execNvmeCommandTimeout p cid s = _
      unfold execNvmeCommandTimeout
      rw [hfind]
      dsimp only
      rw [harr, if_neg Bool.false_ne_true, hab, if_pos rfl]
    have hout := hk.out rfl
    have hports := hk.ports rfl
    generalize carryTo (c.at_ + msCycles (obj s 0x5401 1)) s = u at *
    rw [nvmeReset_one (by rw [hports]; exact hres) (by rw [hports]; exact hone) hport hmove hblock] at hexec
    refine ⟨_, hexec, congrArg (· ++ _) hout, ?_⟩
    show ({ u.ports with nvme := u.ports.nvme.filter _, resetting := [p.val] } : Ports) = _
    rw [hports, hone, List.filter_cons_of_neg (by simp)]
    rfl
  · obtain ⟨m, hm⟩ := List.find?_isSome.2 (List.any_eq_true.1 hany) |> Option.isSome_iff_exists.1
    refine ⟨nvmeDrop (fun d => d.port == c.port && d.cid == c.cid) s, nvmeDrop_ports hfind, rfl, rfl, ?_⟩
    show execNvmeCompletion p cid 0 s = execMoveComplete id .clean _
    unfold execNvmeCompletion execMoveComplete
    rw [hfind]
    dsimp only
    rw [if_neg (fun hn => hn rfl), hmove]
    dsimp only
    have hm' : (nvmeDrop (fun d => d.port == c.port && d.cid == c.cid) s).kv.moves.find? (fun m => m.id == id && m.started) = some m := hm
    rw [hm']
  · refine ⟨nvmeDrop (fun d => d.port == c.port && d.cid == c.cid) s, ?_, nvmeDrop_ports hfind⟩
    show execNvmeCompletion p cid status s = _
    unfold execNvmeCompletion
    rw [hfind]
    dsimp only
    rw [hmove, hblock]
    dsimp only
    rw [nvmeFail_plain hmove hblock, ite_self]
  · refine ⟨_, (if_neg (by rw [List.contains_iff_mem.2 hin]; decide)).trans (if_pos rfl), rfl⟩
  · have hexec : exec (.nvmeControllerResetEnd p false) s =
        .next (nvmeReset p.val (s.setPorts fun q => { q with resets := tput 0 q.resets p.val (tget 0 s.ports.resets p.val + 1) })) :=
      (if_neg (by rw [List.contains_iff_mem.2 hin]; decide)).trans ((if_neg Bool.false_ne_true).trans (if_pos hfew))
    exact ⟨_, hexec.trans (congrArg _ (nvmeReset_idle hin hnone)), rfl, rfl⟩
  · have hexec : exec (.nvmeControllerResetEnd p false) s = .next ((s.kv.nss.filter fun t => t.2.active && t.2.port == p.val).foldl
        (fun s t => trayFails true t.1 s) (s.setPorts fun q => { q with resetting := q.resetting.erase p.val, resets := tput 0 q.resets p.val 0 })) :=
      (if_neg (by rw [List.contains_iff_mem.2 hin]; decide)).trans ((if_neg Bool.false_ne_true).trans (if_neg (Nat.not_lt.2 hmany)))
    have hfilter : (s.kv.nss.filter fun t => t.2.active && t.2.port == p.val) = [] := List.filter_eq_nil_iff.2 fun t ht hn => by
      obtain ⟨h1, h2⟩ := Bool.and_eq_true_iff.1 hn
      rw [hnone t ht (beq_iff_eq.1 h2)] at h1
      exact Bool.false_ne_true h1
    rw [hfilter] at hexec
    exact ⟨_, hexec, rfl⟩

end Sys2Proof.Machine
end

section
/-! PROOFS. Little-endian numbers and their bytes (R3): each is read back from the other, and a byte 1 above a string of bytes
marks its length. -/

namespace Sys2Proof.Machine

theorem leNat_lt (bs : List Byte) : leNat bs < 256 ^ bs.length := by
  induction bs with
  | nil => exact Nat.one_pos
  | cons b t ih =>
    have hb : b.toNat < 256 := b.isLt
    show b.toNat + 256 * leNat t < 256 ^ (t.length + 1)
    rw [Nat.pow_succ]
    omega

theorem leNat_append (as bs : List Byte) : leNat (as ++ bs) = leNat as + 256 ^ as.length * leNat bs := by
  induction as with
  | nil => simp [leNat]
  | cons a t ih =>
    show a.toNat + 256 * leNat (t ++ bs) = a.toNat + 256 * leNat t + 256 ^ (t.length + 1) * leNat bs
    rw [ih, Nat.pow_succ]
    ring

theorem leBytes_cons (b : Byte) (v n : Nat) : leBytes (b.toNat + 256 * v) (n + 1) = b :: leBytes v n := by
  have hb : b.toNat < 256 := b.isLt
  show BitVec.ofNat 8 (b.toNat + 256 * v) :: leBytes ((b.toNat + 256 * v) / 256) n = _
  rw [show (b.toNat + 256 * v) / 256 = v by omega,
    show BitVec.ofNat 8 (b.toNat + 256 * v) = b from BitVec.eq_of_toNat_eq (by rw [BitVec.toNat_ofNat]; omega)]

theorem leBytes_leNat (as bs : List Byte) : leBytes (leNat (as ++ bs)) as.length = as := by
  induction as with
  | nil => rfl
  | cons a t ih => exact (leBytes_cons a _ _).trans (congrArg (a :: ·) ih)

theorem leNat_leBytes (n v : Nat) : leNat (leBytes v n) = v % 256 ^ n := by
  induction n generalizing v with
  | zero => exact (Nat.mod_one v).symm
  | succ n ih =>
    have hb : (BitVec.ofNat 8 v).toNat = v % 256 := BitVec.toNat_ofNat ..
    show (BitVec.ofNat 8 v).toNat + 256 * leNat (leBytes (v / 256) n) = _
    rw [ih, hb, Nat.pow_succ']
    exact Nat.mod_mul.symm

/-- The bytes of a value that takes effect later are read back from the number that stands for them. -/
theorem waitBytes_leNat (bs : List Byte) : waitBytes (leNat (bs ++ [1])) = bs := by
  have hlog : Nat.log2 (leNat (bs ++ [1])) / 8 = bs.length := by
    have hlt := leNat_lt bs
    have hsum : leNat (bs ++ [1]) = leNat bs + 256 ^ bs.length := by rw [leNat_append]; simp [leNat]
    have hpow : 256 ^ bs.length = 2 ^ (8 * bs.length) := (Nat.pow_mul 2 8 _).symm
    have hpos : 0 < leNat bs + 256 ^ bs.length := by positivity
    rw [hsum]
    have hlow := (Nat.le_log2 hpos.ne' (k := 8 * bs.length)).2 (by rw [← hpow]; exact Nat.le_add_left ..)
    have hhigh := (Nat.log2_lt hpos.ne' (k := 8 * bs.length + 1)).2 (by rw [Nat.pow_succ, ← hpow]; omega)
    omega
  rw [waitBytes, hlog]
  exact leBytes_leNat bs [1]

theorem objDomLast_waitDom_same (i j : Nat) (bs : List Byte) (s : State) : objDomLast (waitDom i j bs s) i j = bs := by
  simpa [objDomLast, waitDom, putWaiting, State.setDict, tins_find] using waitBytes_leNat bs

end Sys2Proof.Machine
end

section
/-! PROOFS. Ethernet ports (R563 to R572): frames, pauses, Syncs and RoCE requests change the port's record or are answered. -/

namespace Sys2Proof.Machine

/-! ## Frames -/

theorem arpReply_none {own f : List Byte} (h : beAt f 12 2 ≠ 0x0806) : arpReply own f = none := if_neg fun hn => h hn.1

/-- The sender's addresses are kept: an older entry of the same network address gives way. -/
def neighKept (p : Nat) (ip mac : List Byte) (s : State) : State :=
  s.setPorts fun q => { q with neigh := (q.neigh.filter fun n => !(n.1 == p && n.2.1 == ip)) ++ [(p, ip, mac)] }

theorem exec_arp {s : State} {p : Fin 2} {f r : List Byte} (hopen : ethOpen s p.val = true) (htype : beAt f 12 2 = 0x0806)
    (hr : arpReply (objDom s 0x5503 (p.val + 1)) f = some r) :
    exec (.neighborResolution p f) s = .next (emit (.frame p.val r) (neighKept p.val (slice f 28 4) (slice f 22 6) s)) := by
  show execNeighborResolution p f s = _
  unfold execNeighborResolution
  simp [hopen, htype, hr, neighKept]

theorem exec_solicitation {s : State} {p : Fin 2} {f r : List Byte} (hopen : ethOpen s p.val = true) (htype : beAt f 12 2 = 0x86DD)
    (hproto : beAt f 20 1 = 58) (hkind : beAt f 54 1 = 135) (hr : ndReply (objDom s 0x5503 (p.val + 1)) f = some r) :
    exec (.neighborResolution p f) s = .next (emit (.frame p.val r) (neighKept p.val (slice f 22 16) (slice f 6 6) s)) := by
  have harp : arpReply (objDom s 0x5503 (p.val + 1)) f = none := arpReply_none (by rw [htype]; decide)
  show execNeighborResolution p f s = _
  unfold execNeighborResolution
  simp [hopen, htype, hproto, hkind, hr, harp, neighKept]

/-! ## Pauses -/

/-- Of the eight priorities only the one whose bit is set is acted on. -/
theorem foldl_oneBit {α : Type} (i : Fin 8) (f : α → Nat → α) (a : α) :
    (List.range 8).foldl (fun a k => if bitAt (2 ^ i.val) k then f a k else a) a = f a i.val := by
  fin_cases i <;> rfl

/-! ## IEEE 1588 -/

/-- A Sync of the port's domain is noted: its offset, the run of near ones, and when it came. -/
def syncNoted (p n : Nat) (off : Int) (s : State) : State :=
  (setObj 0x5501 4 (max (-2147483648) (min 2147483647 off) % 4294967296 : Int).toNat s).setPorts fun q =>
    { q with syncs := tput 0 q.syncs p n, syncAt := tins q.syncAt p s.time.cycle }

/-- The run of Syncs within 100 ns, this one counted. -/
def syncRun (p : Nat) (off : Int) (s : State) : Nat :=
  if decide (-100 ≤ off ∧ off ≤ 100) then min 16 (tget 0 s.ports.syncs p + 1) else 0

theorem syncNoted_lock (p n : Nat) (off : Int) (s : State) : obj (syncNoted p n off s) 0x5501 3 = obj s 0x5501 3 :=
  obj_setObj_ne (by decide) ..

theorem syncNoted_ports (p n : Nat) (off : Int) (s : State) : (syncNoted p n off s).ports =
    { s.ports with syncs := tput 0 s.ports.syncs p n, syncAt := tins s.ports.syncAt p s.time.cycle } := rfl

theorem gained_ports (d : Int) (s : State) : (setObj 0x5501 3 1 (shiftTime d s)).ports = s.ports := rfl
theorem gained_cycle (d : Int) (s : State) : (setObj 0x5501 3 1 (shiftTime d s)).time.cycle = s.time.cycle := rfl

theorem syncRun_near {p : Nat} {off : Int} {s : State} (hlow : -100 ≤ off) (hhigh : off ≤ 100) :
    syncRun p off s = min 16 (tget 0 s.ports.syncs p + 1) := if_pos (by simp [hlow, hhigh])

theorem exec_ptpSync_locked {s : State} {p : Fin 2} {dom : BitVec 8} {origin : Nat} {off : Int} (hopen : ethOpen s p.val = true)
    (hdom : dom.toNat = obj s 0x5501 1) (hport : obj s 0x2100 6 = p.val + 1) (hlock : obj s 0x5501 3 = 1) :
    exec (.ptpSync p dom origin off) s = .next (if off < -1000 ∨ 1000 < off then
        setObj 0x5501 3 0 (syncNoted p.val (syncRun p.val off s) off s)
      else ptpSlew origin (tget s.time.cycle s.ports.syncAt p.val) (syncNoted p.val (syncRun p.val off s) off s)) := by
  refine (if_neg (by simp [hopen, hdom, ptpNamed, hport])).trans (if_pos ?_)
  exact beq_iff_eq.2 ((syncNoted_lock ..).trans hlock)

theorem exec_ptpSync_unlocked {s : State} {p : Fin 2} {dom : BitVec 8} {origin : Nat} {off : Int} (hopen : ethOpen s p.val = true)
    (hdom : dom.toNat = obj s 0x5501 1) (hport : obj s 0x2100 6 = p.val + 1) (hlock : obj s 0x5501 3 ≠ 1) :
    exec (.ptpSync p dom origin off) s = if syncRun p.val off s = 16 then
        .next (setObj 0x5501 3 1 (shiftTime (halfDiff (2 * origin) s.time.devHalf) (syncNoted p.val (syncRun p.val off s) off s)))
      else .next (syncNoted p.val (syncRun p.val off s) off s) := by
  refine (if_neg (by simp [hopen, hdom, ptpNamed, hport])).trans (if_neg ?_)
  exact fun hn => hlock ((syncNoted_lock ..).symm.trans (beq_iff_eq.1 hn))

theorem exec_ptpLockLoss {s : State} {p : Fin 2} (hport : obj s 0x2100 6 = p.val + 1) (hlock : obj s 0x5501 3 = 1)
    (harr : arrivalWins (tget s.time.cycle s.ports.syncAt p.val + msCycles (obj s 0x5501 2)) (bringsSync p.val) s = false) :
    exec (.ptpLockLoss p) s = .next (setObj 0x5501 3 0
      ((carryTo (tget s.time.cycle s.ports.syncAt p.val + msCycles (obj s 0x5501 2)) s).setPorts fun q =>
        { q with syncs := tput 0 q.syncs p.val 0 })) := by
  refine (if_neg (by simp [ptpNamed, hport, ptpLocked, hlock])).trans (congrArg Host.Outcome.next (if_neg ?_))
  rw [harr]
  exact Bool.false_ne_true

/-- A slew moves device time by no more than 100 ppm of the time since the last Sync. -/
theorem ptpSlew_devHalf (origin since : Nat) (s : State) : ∃ d : Int, d.natAbs ≤ (s.time.cycle - since) / 10000 ∧
    ((ptpSlew origin since s).time.devHalf : Int) = ((s.time.devHalf : Int) + d) % 2 ^ 65 := by
  let lim : Int := ((s.time.cycle - since) / 10000 : Nat)
  refine ⟨max (-lim) (min lim (halfDiff (2 * origin) s.time.devHalf)), ?_, Int.toNat_of_nonneg (Int.emod_nonneg _ (by decide))⟩
  omega

/-! ## RoCE -/

theorem roceNak_out (p q psn code kind : Nat) (s : State) :
    (roceNak p q psn code kind s).out = s.out ++ [.roce p q psn 2 kind []] := by
  unfold roceNak
  exact (linkTally_keeps ..).out rfl

theorem roceNak_ports (p q psn code kind : Nat) (s : State) : (roceNak p q psn code kind s).ports =
    { s.ports with roce := tput ({} : Roce) s.ports.roce (p * 256 + q) { roceOf s (p * 256 + q) with
      naks := min (2 ^ 32 - 1) ((roceOf s (p * 256 + q)).naks + 1), nakPsn := psn, code := code } } := by
  unfold roceNak
  exact (linkTally_keeps ..).ports rfl

theorem exec_rdmaWrite {s : State} {p : Fin 2} {q : Fin 256} (hopen : ethOpen s p.val = true) (hon : roceOn s p.val q.val = true)
    (psn : BitVec 24) (rkey : BitVec 32) (a : BitVec 64) (data : List Byte) (dscp : BitVec 6) :
    exec (.rdmaWrite p q psn rkey a data dscp) s = .next (rdmaWriteAs (psnClass (roceOf s (p.val * 256 + q.val)) psn.toNat)
      p.val q.val psn.toNat rkey.toNat a.toNat data dscp.toNat s) := if_neg (by simp [hopen, hon])

theorem exec_rdmaReadRequest {s : State} {p : Fin 2} {q : Fin 256} (hopen : ethOpen s p.val = true)
    (hon : roceOn s p.val q.val = true) (psn : BitVec 24) (rkey : BitVec 32) (a : BitVec 64) (len : Nat) (dscp : BitVec 6) :
    exec (.rdmaReadRequest p q psn rkey a len dscp) s = .next (rdmaReadAs (psnClass (roceOf s (p.val * 256 + q.val)) psn.toNat)
      p.val q.val psn.toNat rkey.toNat a.toNat len dscp.toNat s) := if_neg (by simp [hopen, hon])

theorem rdmaWriteAs_pool {p q psn addr dscp : Nat} {data : List Byte} (s : State) (h : addr < 2 ^ 57) :
    rdmaWriteAs .next p q psn 0x100 addr data dscp s = arrive (roceReq p q 0x200 psn addr data.length data
      (roceTake p q data.length s)) (dscpColour dscp) (roceTake p q data.length s) := if_neg (Nat.not_le.2 h)

theorem rdmaWriteAs_long {p q psn addr dscp : Nat} {data : List Byte} (s : State) (h : 2 ^ 57 ≤ addr) :
    rdmaWriteAs .next p q psn 0x100 addr data dscp s = roceNak p q psn ccBadDesc 1 (roceTake p q data.length s) := if_pos h

theorem rdmaReadAs_pool {p q psn addr len dscp : Nat} (s : State) (h : addr < 2 ^ 57) :
    rdmaReadAs .next p q psn 0x100 addr len dscp s = arrive (roceReq p q 0x201 psn addr len [] (roceTake p q len s))
      (dscpColour dscp) (roceTake p q len s) := if_neg (Nat.not_le.2 h)

theorem rdmaReadAs_repeated {p q psn addr len dscp : Nat} (s : State) :
    rdmaReadAs .again p q psn 0x300 addr len dscp s = statusRead p q psn addr len s := rfl

theorem rdmaReadAs_foreign {p q psn rkey addr len dscp : Nat} (s : State) (h : rkey < 0x100) :
    rdmaReadAs .next p q psn rkey addr len dscp s = roceNak p q psn ccXlate 2 (roceTake p q len s) :=
  (if_neg (by unfold rkPool; omega)).trans ((if_neg (by unfold rkWindow; omega)).trans (if_neg (by unfold rkStatus; omega)))

theorem statusRead_within {p q psn addr len : Nat} (s : State) (h : addr + len ≤ 64) : statusRead p q psn addr len s =
    linkTally true (25 + p) len (emit (.roce p q psn 1 0 (slice (roceStatus (roceOf s (p * 256 + q))) addr len)) s) :=
  if_neg (Nat.not_lt.2 h)

theorem writeRoce_of_check {p : Nat} {q : Fin 256} {rec : List Byte} (s : State) (hq : q.val ≠ 0) (hlen : rec.length = 48) :
    writeRoce p q.val rec s = if roceCheck s p q.val rec then (0, waitDom (0x5510 + p) q.val rec s) else (abValue, s) := by
  have hq' := q.isLt
  refine (if_neg (by omega)).trans ((if_neg (not_not.2 hlen)).trans ?_)
  cases roceCheck s p q.val rec
  · rfl
  · rfl

/-! ## The obligation -/

/-- Settles O58: each event changes the port's record, device time or one queue pair's record, and answers what it names. -/
theorem ethernetIsHandled : Obligations.EthernetIsHandled := by
  unfold Obligations.EthernetIsHandled
  refine ⟨fun s p f hup hf => ?_, fun s p f hopen hf => ?_, fun s p f r hopen htype hr => ?_,
    fun s p f r hopen htype hproto hr hkind => ?_, fun s p f hup hrun hcak => ?_, fun s p mask pause i hopen hbit => ?_,
    fun s p hup => ?_, fun s p dom origin off hopen hdom hport hlock hlow hhigh => ?_,
    fun s p dom origin off hopen hdom hport hlock => ?_, fun s p hport hlock harr => ?_,
    fun s p q psn rkey a data dscp hopen hon => ?_, fun s p q psn rkey a len dscp hopen hon => ?_,
    fun s p q psn v op hopen hon hv => ?_, fun s p q rec hlive hq hlen => ?_⟩
  · exact ⟨_, if_pos (by simp [hup, hf]), rfl⟩
  · exact if_neg (by simp [hopen, hf])
  · exact ⟨_, exec_arp hopen htype hr, rfl, List.mem_append_right _ (List.mem_singleton_self _)⟩
  · exact ⟨_, exec_solicitation hopen htype hproto hkind hr, rfl, List.mem_append_right _ (List.mem_singleton_self _)⟩
  · cases hf : Config.mkaFrame (objDom s 0x5502 3) f
    · exact ⟨s, if_pos (by simp [hf]), fun _ => rfl, fun hn => absurd hn Bool.false_ne_true⟩
    · exact ⟨_, if_neg (by simp [hf, hup, hrun, hcak]), fun hn => absurd hn.symm Bool.false_ne_true, fun _ => ⟨rfl, obj_setObj_same ..⟩⟩
  · have hexec : exec (.priorityFlowControlFrame p mask pause) s = _ := if_neg (by simp [hopen])
    rw [hbit, foldl_oneBit] at hexec
    exact ⟨_, hexec, rfl⟩
  · exact ⟨_, if_pos hup, obj_setObj_same .., rfl⟩
  · rw [exec_ptpSync_unlocked hopen hdom hport hlock, syncRun_near hlow hhigh]
    by_cases h15 : 15 ≤ tget 0 s.ports.syncs p.val
    · exact ⟨_, if_pos (by omega), (gained_ports ..).trans (syncNoted_ports ..), fun hn => absurd h15 (Nat.not_le.2 hn),
        fun _ => ⟨obj_setObj_same .., (gained_cycle ..).trans rfl⟩⟩
    · exact ⟨_, if_neg (by omega), syncNoted_ports .., fun _ => ⟨rfl, syncNoted_lock ..⟩, fun hn => absurd hn h15⟩
  · rw [exec_ptpSync_locked hopen hdom hport hlock]
    refine ⟨_, rfl, fun hfar => ?_, fun hlow hhigh => ?_⟩
    · rw [if_pos hfar]
      exact ⟨obj_setObj_same .., rfl⟩
    · rw [if_neg (by omega)]
      exact ⟨(obj_of_dict ((ptpSlew_keeps ..).dict rfl) ..).trans ((syncNoted_lock ..).trans hlock), ptpSlew_devHalf ..⟩
  · have hk := carryTo_keeps (tget s.time.cycle s.ports.syncAt p.val + msCycles (obj s 0x5501 2)) s
    have hports := hk.ports rfl
    have hcycle := carryTo_cycle (tget s.time.cycle s.ports.syncAt p.val + msCycles (obj s 0x5501 2)) s
    have hexec := exec_ptpLockLoss hport hlock harr
    generalize carryTo (tget s.time.cycle s.ports.syncAt p.val + msCycles (obj s 0x5501 2)) s = u at *
    exact ⟨_, hexec, obj_setObj_same .., hcycle, congrArg (fun q : Ports => { q with syncs := tput 0 q.syncs p.val 0 }) hports⟩
  · rw [exec_rdmaWrite hopen hon]
    refine ⟨_, rfl, fun h => ?_, fun h => ?_, fun h hkey hlow => ?_, fun h hkey hlong => ?_⟩
    · rw [h]
      exact ⟨rfl, rfl⟩
    · rw [h]
      exact ⟨rfl, rfl⟩
    · rw [h, hkey]
      exact rdmaWriteAs_pool s hlow
    · rw [h, hkey]
      exact (congrArg State.out (rdmaWriteAs_long s hlong)).trans (roceNak_out ..)
  · rw [exec_rdmaReadRequest hopen hon]
    refine ⟨_, rfl, fun h => ?_, fun h hkey hin => ?_, fun h hkey hlow => ?_, fun h hkey => ?_⟩
    · rw [h]
      exact ⟨rfl, rfl⟩
    · have hread := (rdmaReadAs_repeated (dscp := dscp.toNat) s).trans (statusRead_within (p := p.val) (q := q.val) (psn := psn.toNat) s hin)
      have ht := linkTally_keeps true (25 + p.val) len (emit (.roce p.val q.val psn.toNat 1 0
        (slice (roceStatus (roceOf s (p.val * 256 + q.val))) a.toNat len)) s)
      rw [h, hkey]
      exact ⟨(congrArg State.ports hread).trans (ht.ports rfl), (congrArg State.out hread).trans (ht.out rfl)⟩
    · rw [h, hkey]
      exact rdmaReadAs_pool s hlow
    · rw [h, rdmaReadAs_foreign s hkey]
      exact roceNak_out ..
  · subst hv
    have hack : exec (.roceAcknowledge p q psn false) s = _ := if_neg (by simp [hopen, hon])
    by_cases hl : roceListed op.toNat = true
    · refine ⟨_, s, hack, rfl, if_pos (Or.inr (Or.inr hl)), fun hn => ?_⟩
      rw [hl] at hn
      cases hn
    · refine ⟨_, _, hack, rfl, if_neg (by simp [hopen, hon, hl]), fun _ => ⟨roceNak_out .., roceNak_ports ..⟩⟩
  · have ha := answering_of_live hlive
    have hexec : exec (.roceRecordWrite p q rec) s = .next (written (writeRoce p.val q.val rec s)) := congrArg Host.Outcome.next (if_pos ha)
    rw [writeRoce_of_check s hq hlen] at hexec
    refine ⟨_, hexec, ?_⟩
    cases roceCheck s p.val q.val rec
    · exact ⟨rfl, fun hn => absurd hn Bool.false_ne_true, fun _ => written_refused (by decide) s⟩
    · refine ⟨?_, fun _ => objDomLast_waitDom_same .., fun hn => absurd hn.symm Bool.false_ne_true⟩
      exact (waitDom_keeps ..).ports rfl

end Sys2Proof.Machine
end

section
/-! PROOFS. The object dictionary (R610 to R634): an access notes itself and leaves what is stored; reads, writes, staged writes and
the interfaces that carry them. -/

namespace Sys2Proof.Machine

/-! ## What an access notes (R615, R616) -/

/-- The two states differ in the dictionary at most in what the accesses of a cycle have noted. -/
def SameStore (s t : State) : Prop :=
  ∃ at_ on early wrote, t.dict = { s.dict with accAt := at_, accOn := on, early := early, wrote := wrote }

theorem SameStore.trans {s t u : State} : SameStore s t → SameStore t u → SameStore s u := by
  rintro ⟨_, _, _, _, h⟩ ⟨_, _, _, _, h'⟩
  exact ⟨_, _, _, _, h'.trans (by rw [h])⟩

theorem SameStore.force {s t : State} : SameStore s t → t.dict.force = s.dict.force := by
  rintro ⟨_, _, _, _, h⟩
  rw [h]

theorem SameStore.doms {s t : State} : SameStore s t → t.dict.doms = s.dict.doms := by
  rintro ⟨_, _, _, _, h⟩
  rw [h]

theorem SameStore.staged {s t : State} : SameStore s t → t.dict.staged = s.dict.staged := by
  rintro ⟨_, _, _, _, h⟩
  rw [h]

theorem SameStore.obj {s t : State} : SameStore s t → ∀ i j, obj t i j = obj s i j := by
  rintro ⟨_, _, _, _, h⟩ i j
  simp only [Machine.obj, objDefault, h]

theorem SameStore.stagedOf {s t : State} (h : SameStore s t) (path : Nat) (p : Prin) : stagedOf t path p = stagedOf s path p := by
  simp only [Machine.stagedOf, h.staged]

theorem accessOn_store (path : Nat) (s : State) : SameStore s (accessOn path s) := by
  unfold accessOn
  dsimp only [State.setDict]
  split
  · split
    · exact ⟨_, _, _, _, rfl⟩
    · exact ⟨_, _, _, _, rfl⟩
  · split
    · exact ⟨_, _, _, _, rfl⟩
    · exact ⟨_, _, _, _, rfl⟩

theorem noteReads_store (s : State) : SameStore s (noteReads s) := by
  unfold noteReads
  split
  · exact ⟨_, _, _, _, rfl⟩
  · exact ⟨_, _, _, _, rfl⟩

theorem noteWrote_store (p : Prin) (i j : Nat) (s : State) : SameStore s (noteWrote p i j s) := ⟨_, _, _, _, rfl⟩

/-- After an access of a path, the cycle of the accesses is the present one. -/
theorem accessOn_cycle (path : Nat) (s : State) : (accessOn path s).dict.accAt = (accessOn path s).time.cycle := by
  unfold accessOn
  dsimp only [State.setDict]
  split
  · split
    · assumption
    · rfl
  · split
    · assumption
    · rfl

theorem opened {s w : State} {path : Nat} (h : noteReads (accessOn path s) = w) : SameStore s w :=
  h ▸ (accessOn_store path s).trans (noteReads_store _)

/-! ## Reads -/

theorem objRead_of_code {p : Prin} {i j off len c : Nat} {s : State} (h : accessCode p i j false s = c) (hc : c ≠ 0) :
    objRead p i j off len s = (c, 0, []) := by
  subst h
  exact if_pos hc

theorem objRead_of_open {p : Prin} {i j off len : Nat} {s : State} {r : ObjRow} (h : accessCode p i j false s = 0) (hlen : len ≤ 1024)
    (hrow : objRow? i j = some r) : objRead p i j off len s =
      (0, (view s r i j).1, (List.range (min len ((view s r i j).1 - off))).map fun k => (view s r i j).2 (off + k)) := by
  refine (if_neg (not_not.2 h)).trans ((if_neg (Nat.not_lt.2 hlen)).trans ?_)
  rw [hrow]

theorem readNow_of_first {s : State} (h : s.dict.early = []) (p : Prin) (i j off len : Nat) :
    readNow p i j off len s = objRead p i j off len s := by
  unfold readNow
  rw [h]
  rfl

theorem readNow_of_noted {s : State} {e : EarlyRead} {i j : Nat} (h : s.dict.early = [e]) (hcycle : s.dict.accAt = s.time.cycle)
    (hkey : e.key = okey i j) : readNow e.prin i j e.off e.len s = (e.code, e.size, e.bytes) := by
  unfold readNow
  rw [h, List.find?_cons_of_pos (by simp [hcycle, hkey])]

theorem exec_objectRead {s u : State} {p : Prin} {path : Fin 80} {i : BitVec 16} {n : BitVec 8} {off len : Nat}
    {r : Nat × Nat × List Byte} (hopen : pathOpen s p path.val = true) (hshut : mctpShut s path.val = false)
    (hu : accessOn path.val s = u) (hr : readNow p i.toNat n.toNat off len u = r) :
    exec (.objectRead p path i n off len) s =
      .next (emit (.dict path.val r.1 r.2.1 r.2.2) (if r.1 = 0 then u else bumpObj 0x1022 1 1 32 u)) := by
  subst hu hr
  exact (if_neg (by simp [hopen])).trans (if_neg (by simp [hshut]))

theorem exec_objectRead_shut {s : State} {p : Prin} {path : Fin 80} (hopen : pathOpen s p path.val = true)
    (hshut : mctpShut s path.val = true) (i : BitVec 16) (n : BitVec 8) (off len : Nat) :
    exec (.objectRead p path i n off len) s = .next (emit (.dict path.val abPrin 0 []) (bumpObj 0x1022 1 1 32 s)) :=
  (if_neg (by simp [hopen])).trans (if_pos hshut)

/-! ## Writes -/

theorem exec_objectWrite_shut {s : State} {p : Prin} {path : Fin 80} (hopen : pathOpen s p path.val = true)
    (hshut : mctpShut s path.val = true) (i : BitVec 16) (n : BitVec 8) (off len : Nat) (data : List Byte) :
    exec (.objectWrite p path i n off len data) s = .next (emit (.dict path.val abPrin 0 []) (bumpObj 0x1022 1 1 32 s)) :=
  (if_neg (by simp [hopen])).trans (if_pos hshut)

theorem exec_objectWrite {s : State} {p : Prin} {path : Fin 80} (hopen : pathOpen s p path.val = true)
    (hshut : mctpShut s path.val = false) (i : BitVec 16) (n : BitVec 8) (off total : Nat) (data : List Byte) :
    exec (.objectWrite p path i n off total data) s =
      .next (emit (.dict path.val (objWrite p path.val i.toNat n.toNat off total data (accessOn path.val s)).1
        (objSize p i.toNat n.toNat (objWrite p path.val i.toNat n.toNat off total data (accessOn path.val s)).2) [])
        (objWrite p path.val i.toNat n.toNat off total data (accessOn path.val s)).2) :=
  (if_neg (by simp [hopen])).trans (if_neg (by simp [hshut]))

theorem objWrite_of_raw {p : Prin} {path i j off total c : Nat} {data : List Byte} {s w u : State} (hw : noteReads s = w)
    (h : objWriteRaw p path i j off total data w = (c, u)) : objWrite p path i j off total data s =
      if c = 0 then (0, if off = 0 ∧ total = 0 ∧ outranked p i j w then w else noteWrote p i j u) else (c, written (c, u)) := by
  subst hw
  unfold objWrite
  dsimp only
  rw [h]

/-- A write that the checks of access let through. -/
theorem objWriteRaw_whole {p : Prin} {path i j : Nat} {data : List Byte} {w : State} (hcode : accessCode p i j true w = 0)
    (hlen : data.length ≤ 1024) : objWriteRaw p path i j 0 0 data w = objApply i j data w :=
  (if_neg (not_not.2 hcode)).trans ((if_neg (Nat.not_lt.2 hlen)).trans (if_pos ⟨rfl, rfl⟩))

/-- The heartbeat period takes any number of its size, at once (R622). -/
theorem objApply_heartbeat (v : BitVec 16) (s : State) : objApply 0x1017 0 (leBytes v.toNat 2) s = (0, writeObj 0x1017 0 v.toNat s) := by
  have hrow : (objRow? 0x1017 0).map (·.type) = some 6 := rfl
  have hval : leNat (leBytes v.toNat 2) = v.toNat := (leNat_leBytes ..).trans (Nat.mod_eq_of_lt v.isLt)
  have hown : ruleOwn 0x1017 0 v.toNat = true := by simp [ruleOwn, ruleOwn2, hrow, objNorm]
  unfold objApply
  rw [hrow]
  show (if (leBytes v.toNat 2).length = 2 then applyNum 0x1017 0 (leNat (leBytes v.toNat 2)) s else _) = _
  rw [if_pos (leBytes_length ..), hval]
  unfold applyNum
  rw [hown]
  rfl

/-! ## Staged writes (R618) -/

theorem stagedOf_dropStaged (path : Nat) (p : Prin) (s : State) : stagedOf (dropStaged path p s) path p = none := by
  refine List.find?_eq_none.2 fun g hg => ?_
  have h := (List.mem_filter.1 hg).2
  simpa [imp_iff_not_or] using h

theorem dropStaged_staged {path : Nat} {p : Prin} {s : State} (h : stagedOf s path p = none) :
    (dropStaged path p s).dict.staged = s.dict.staged := by
  refine List.filter_eq_self.2 fun g hg => ?_
  have hn := List.find?_eq_none.1 h g hg
  simpa [imp_iff_not_or] using hn

theorem stagedLost_of_none {path : Nat} {p : Prin} {s : State} (h : stagedOf s path p = none) : stagedLost path p s = s := by
  unfold stagedLost
  rw [h]
  rfl

theorem stagedLost_of_some {path : Nat} {p : Prin} {s : State} {g : Staged} (h : stagedOf s path p = some g) :
    stagedLost path p s = bumpObj 0x1022 2 1 32 (dropStaged path p s) := by
  unfold stagedLost
  rw [h]
  rfl

theorem stagedOf_lost {path : Nat} {p : Prin} {s : State} {g : Staged} (h : stagedOf s path p = some g) :
    stagedOf (stagedLost path p s) path p = none := by
  rw [stagedLost_of_some h]
  exact stagedOf_dropStaged path p s

/-- A staged write that is lost is counted. -/
theorem stagedLost_counted {path : Nat} {p : Prin} {s : State} {g : Staged} (h : stagedOf s path p = some g) :
    obj (stagedLost path p s) 0x1022 2 = (obj s 0x1022 2 + 1) % 2 ^ 32 := by
  rw [stagedLost_of_some h]
  exact obj_bumpObj_same ..

/-- The first part of a staged write, `w` the state when it comes. -/
def firstPart (p : Prin) (path i j total : Nat) (data : List Byte) (w : State) : Staged :=
  { path := path, prin := p, key := okey i j, total := total, bytes := data, last := w.time.cycle }

theorem objWriteRaw_first {p : Prin} {path i j total : Nat} {data : List Byte} {w : State} (hcode : accessCode p i j true w = 0)
    (hlen : data.length ≤ 1024) (hnone : stagedOf w path p = none) (hless : data.length < total) (htotal : total ≤ 2 ^ 24) :
    objWriteRaw p path i j 0 total data w = (0, (dropStaged path p w).setDict fun d =>
      { d with staged := d.staged ++ [firstPart p path i j total data w] }) := by
  refine (if_neg (not_not.2 hcode)).trans ((if_neg (Nat.not_lt.2 hlen)).trans ((if_neg (by omega)).trans ((if_pos rfl).trans ?_)))
  dsimp only
  rw [stagedLost_of_none hnone, if_neg (show ¬16777216 < total by omega)]
  exact (if_neg (Nat.not_lt.2 hless.le)).trans (if_neg hless.ne)

/-- A part that does not continue its staged write ends it. -/
theorem objWriteRaw_gap {p : Prin} {path i j off total : Nat} {data : List Byte} {w : State} {g : Staged}
    (hcode : accessCode p i j true w = 0) (hlen : data.length ≤ 1024) (hsome : stagedOf w path p = some g) (hoff : off ≠ 0)
    (hgap : off ≠ g.bytes.length) : objWriteRaw p path i j off total data w = (abTimeout, stagedLost path p w) := by
  refine (if_neg (not_not.2 hcode)).trans ((if_neg (Nat.not_lt.2 hlen)).trans ((if_neg (fun h => hoff h.1)).trans ((if_neg hoff).trans ?_)))
  rw [hsome]
  exact if_pos (Or.inr (Or.inl hgap))

theorem exec_stagedWriteTimeout {s : State} {p : Prin} {path : Fin 80} {g : Staged} (h : stagedOf s path.val p = some g)
    (hpath : path.val ≠ 72) (harr : arrivalWins (g.last + msCycles 100) (bringsPart p path.val) s = false) :
    exec (.stagedWriteTimeout p path) s = .next (stagedLost path.val p (carryTo (g.last + msCycles 100) s)) := by
  show execStagedWriteTimeout p path s = _
  unfold execStagedWriteTimeout
  rw [h]
  dsimp only
  rw [harr, if_neg Bool.false_ne_true, if_neg (fun hn => hpath hn.1)]

theorem carryTo_dict (n : Nat) (s : State) : (carryTo n s).dict = s.dict := (carryTo_keeps n s).dict rfl

/-! ## CANopen FD and MCTP (R620 to R625) -/

theorem usdoAbort_of_none {s : State} (h : s.can.usdo = none) : usdoAbort s = s := by
  unfold usdoAbort
  rw [h]
  rfl

theorem usdoAbort_usdo (s : State) : (usdoAbort s).can.usdo = none := by
  unfold usdoAbort
  split
  · rw [bumpObj, setObj, State.setDict]
    exact congrArg Can.usdo ((stagedLost_keeps 72 .m _).can rfl)
  · next h => exact Option.not_isSome_iff_eq_none.1 h

theorem exec_usdoUpload {s u : State} {i : BitVec 16} {n : BitVec 8} {total : Nat} {data : List Byte} {last : Bool} {size : Nat}
    {bs : List Byte} (hserves : canServes s = true) (hidle : s.can.usdo = none) (hu : accessOn 72 s = u)
    (hread : readNow .m i.toNat n.toNat 0 1024 u = (0, size, bs)) :
    exec (.usdoTransfer true i n total data last) s = .next (emit (.usdo 0 bs) (u.setCan fun c => { c with
      usdo := if size ≤ bs.length then none else some (okey i.toNat n.toNat, true, bs) })) := by
  have hmoved : usdoMoved s (okey i.toNat n.toNat) true = none := by rw [usdoMoved, hidle]
  subst hu
  refine (if_neg (by simp [hserves])).trans (congrArg Host.Outcome.next ?_)
  rw [hmoved, if_pos rfl, usdoAbort_of_none hidle]
  unfold usdoUpload objReadNoted
  dsimp only [List.length_nil]
  rw [hread]
  rfl

theorem exec_usdoDownload {s u : State} {i : BitVec 16} {n : BitVec 8} {total : Nat} {data : List Byte}
    (hserves : canServes s = true) (hidle : s.can.usdo = none)
    (hwrite : objWrite .m 72 i.toNat n.toNat 0 0 data (accessOn 72 s) = (0, u)) (hnone : stagedOf u 72 .m = none) :
    exec (.usdoTransfer false i n total data true) s = .next (emit (.usdo 0 []) (u.setCan fun c => { c with usdo := none })) := by
  have hmoved : usdoMoved s (okey i.toNat n.toNat) false = none := by rw [usdoMoved, hidle]
  refine (if_neg (by simp [hserves])).trans (congrArg Host.Outcome.next ?_)
  rw [hmoved, if_neg Bool.false_ne_true, usdoAbort_of_none hidle]
  unfold usdoDownload
  dsimp only [List.length_nil, List.isEmpty_nil, Bool.and_true]
  rw [if_pos (show (true && true) = true from rfl), hwrite]
  dsimp only
  rw [hnone]
  rfl

theorem emcySend_plain {s : State} (h : obj s 0x1021 2 = 0) (e : Emcy) :
    emcySend e s = emit (.emcy (emcyWord e)) (s.setCan fun c => { c with lastEmcy := some s.time.cycle }) := by
  refine if_neg fun hn => ?_
  have h1 : obj s 0x1021 2 = 1 := hn.1
  omega

/-- The clock at which a waiting EMCY leaves: the end of the inhibit time after the one before it. -/
def inhibitEnd (s : State) : State :=
  match s.can.lastEmcy with
  | some c => carryTo (c + 200000 * obj s 0x1015 0) s
  | none => s

theorem inhibitEnd_keeps (s : State) : Keeps 0x91 s (inhibitEnd s) := by
  unfold inhibitEnd
  split
  · exact carryTo_keeps ..
  · exact Keeps.refl ..

theorem inhibitEnd_cycle {s : State} {c : Nat} (h : s.can.lastEmcy = some c) :
    (inhibitEnd s).time.cycle = max s.time.cycle (c + 200000 * obj s 0x1015 0) := by
  unfold inhibitEnd
  rw [h]
  exact carryTo_cycle ..

theorem exec_emcyInhibitExpiry {s : State} {e : Emcy} {rest : List Emcy} (hserves : canServes s = true) (hemcy : s.can.emcy = e :: rest) :
    exec .emcyInhibitExpiry s = .next (emcySend e ((inhibitEnd s).setCan fun c => { c with emcy := rest })) := by
  show execEmcyInhibitExpiry s = _
  unfold execEmcyInhibitExpiry
  rw [hserves, hemcy]
  rfl

/-! ## The obligation -/

/-- Settles O59: the access notes itself and leaves what is stored, the read, write or part then does what its row says, and the
interfaces act on their own state. -/
theorem theDictionaryAnswers : Obligations.TheDictionaryAnswers := by
  unfold Obligations.TheDictionaryAnswers
  refine ⟨fun s u p path i n off len r hopen hshut hu hfirst hcode hlen hrow => ?_,
    fun s u p path i n off len c hopen hshut hu hfirst hcode hc => ?_,
    fun s u p path i n off len e hopen hshut hu hearly hprin hkey hoff hlen hcode => ?_,
    fun s p path i n off len data hopen hshut =>
      ⟨exec_objectRead_shut hopen hshut i n off len, exec_objectWrite_shut hopen hshut i n off len data⟩,
    fun s w u p path i n data hopen hshut hw hcode hlen happly => ?_,
    fun s w u p path i n data c hopen hshut hw hcode hlen happly hc => ?_,
    fun s v => ⟨_, objApply_heartbeat v s, obj_writeObj_same .., (writeObj_keeps ..).can rfl⟩,
    fun s w p path i n total data hopen hshut hw hcode hlen hnone hless htotal => ?_,
    fun s w p path i n off data g hopen hshut hw hcode hlen hsome hoff hgap => ?_,
    fun s p path g hopen hsome => ?_, fun s p path g hsome hpath harr => ?_,
    fun s ha => ⟨if_pos ha, if_pos ha, if_pos ha⟩, fun s ha => ?_,
    fun s u i n total data last r hserves hidle hu hfirst hcode hrow => ?_,
    fun s w u i n total data hserves hidle hw hcode hlen hrank happly hnone => ?_,
    fun s ha hperiod => ?_, fun s e rest hserves hemcy hplain => ?_, fun s a ha => if_pos ha,
    fun s e hup h0 hff => ?_, fun s e hup he => ?_, fun s hup => ⟨_, if_pos hup, rfl, rfl⟩,
    fun s ty hup hty => ?_, fun s hup => ⟨_, if_pos hup, rfl, rfl⟩⟩
  · have hexec := exec_objectRead (off := off) hopen hshut hu ((readNow_of_first hfirst ..).trans (objRead_of_open hcode hlen hrow))
    refine ⟨_, hexec.trans (congrArg _ (congrArg _ (if_pos rfl))), by simp, fun k hk => ?_⟩
    rw [List.getD_eq_getElem _ _ hk, List.getElem_map, List.getElem_range]
  · exact (exec_objectRead hopen hshut hu ((readNow_of_first hfirst ..).trans (objRead_of_code hcode hc))).trans
      (congrArg _ (congrArg _ (if_neg hc)))
  · subst hprin hoff hlen
    have hread := readNow_of_noted hearly (hu ▸ accessOn_cycle path.val s) hkey
    rw [hcode] at hread
    exact (exec_objectRead hopen hshut hu hread).trans (congrArg _ (congrArg _ (if_pos rfl)))
  · have hwrite := (objWrite_of_raw hw ((objWriteRaw_whole (path := path.val) hcode hlen).trans happly)).trans (if_pos rfl)
    have hexec := exec_objectWrite hopen hshut i n 0 0 data
    rw [hwrite] at hexec
    refine ⟨fun hrank => ?_, fun hrank => ?_⟩
    · rwa [if_neg (by simp [hrank])] at hexec
    · rwa [if_pos ⟨rfl, rfl, hrank⟩] at hexec
  · have hwrite := (objWrite_of_raw hw ((objWriteRaw_whole (path := path.val) hcode hlen).trans happly)).trans (if_neg hc)
    have hexec := exec_objectWrite hopen hshut i n 0 0 data
    rwa [hwrite, written_refused hc] at hexec
  · have hstore := opened hw
    have hraw := objWriteRaw_first (p := p) hcode hlen ((hstore.stagedOf ..).trans hnone) hless htotal
    have hwrite := (objWrite_of_raw hw hraw).trans ((if_pos rfl).trans (congrArg _ (if_neg fun h => by have := h.2.1; omega)))
    have hexec := exec_objectWrite hopen hshut i n 0 total data
    rw [hwrite] at hexec
    refine ⟨_, firstPart p path.val i.toNat n.toNat total data w, hexec, hstore.force, hstore.doms, ?_, rfl, rfl, rfl, rfl, rfl⟩
    rw [← hstore.staged, ← dropStaged_staged ((hstore.stagedOf ..).trans hnone)]
    rfl
  · have hstore := opened hw
    have hsome' := (hstore.stagedOf path.val p).trans hsome
    have hraw := objWriteRaw_gap (total := 0) hcode hlen hsome' hoff hgap
    have hwrite := (objWrite_of_raw hw hraw).trans (if_neg (by decide))
    have hexec := exec_objectWrite hopen hshut i n off 0 data
    rw [hwrite, written_refused (by decide)] at hexec
    refine ⟨_, hexec, stagedOf_lost hsome', ?_⟩
    exact (obj_setObj_ne (by decide) ..).trans ((stagedLost_counted hsome').trans (by rw [hstore.obj]))
  · exact ⟨_, if_neg (by simp [hopen]), congrArg (· ++ _) ((stagedLost_keeps ..).out rfl), stagedOf_lost hsome, stagedLost_counted hsome⟩
  · have hd := carryTo_dict (g.last + msCycles 100) s
    have hsome' : stagedOf (carryTo (g.last + msCycles 100) s) path.val p = some g := by rw [stagedOf, hd]; exact hsome
    refine ⟨_, exec_stagedWriteTimeout hsome hpath harr, ?_, stagedOf_lost hsome', ?_⟩
    · rw [(stagedLost_keeps ..).time rfl]
      exact carryTo_cycle ..
    · exact (stagedLost_counted hsome').trans (by rw [obj_of_dict hd])
  · have hk : Keeps 0x6 s _ := (applyWaiting_keeps .restart (fun _ => true) (usdoAbort s)).step (usdoAbort_keeps s)
    have husdo := (congrArg Can.usdo ((applyWaiting_keeps .restart (fun _ => true) (usdoAbort s)).can rfl)).trans (usdoAbort_usdo s)
    have hexec : exec .nmtResetCommunication s = .next (canRestart s) := if_pos ha
    have hexec' : exec .nmtResetNode s = .next (canRestart s) := if_pos ha
    unfold canRestart at hexec hexec'
    generalize applyWaiting .restart (fun _ => true) (usdoAbort s) = u at *
    exact ⟨_, hexec, hexec', rfl, rfl, rfl, rfl, husdo, hk.pwr rfl, hk.mem rfl, hk.led rfl, hk.kv rfl⟩
  · have hexec := exec_usdoUpload (total := total) (data := data) (last := last) hserves hidle hu
      ((readNow_of_first hfirst ..).trans (objRead_of_open hcode (le_refl 1024) hrow))
    have hk := accessOn_keeps 72 s
    rw [hu] at hk
    refine ⟨_, _, hexec, congrArg (· ++ _) (hk.out rfl), rfl, ?_, ?_⟩
    · simp
    · show ({ u.can with usdo := _ } : Can) = _
      rw [hk.can rfl]
  · have hwrite := (objWrite_of_raw hw ((objWriteRaw_whole (path := 72) hcode hlen).trans happly)).trans (if_pos rfl)
    rw [if_neg (by simp [hrank])] at hwrite
    exact exec_usdoDownload hserves hidle hwrite (((noteWrote_store ..).stagedOf ..).trans hnone)
  · have hk := carryTo_keeps (s.can.lastBeat + msCycles (obj s 0x1017 0)) s
    have htime := carryTo_cycle (s.can.lastBeat + msCycles (obj s 0x1017 0)) s
    have hexec : exec .heartbeatPeriod s = .next _ := if_neg (by simp [ha, hperiod])
    generalize carryTo (s.can.lastBeat + msCycles (obj s 0x1017 0)) s = u at *
    refine ⟨_, hexec, ?_, htime, ?_⟩
    · show u.out ++ [.beat u.can.nmt] = _
      rw [hk.out rfl, hk.can rfl]
    · exact congrArg (fun c : Can => { c with lastBeat := u.time.cycle }) (hk.can rfl)
  · have hk := inhibitEnd_keeps s
    have hobj := obj_of_dict (hk.dict rfl) 0x1021 2
    have htime := @inhibitEnd_cycle s
    have hexec := exec_emcyInhibitExpiry hserves hemcy
    generalize inhibitEnd s = u at *
    rw [emcySend_plain (s := u.setCan _) (hobj.trans hplain)] at hexec
    refine ⟨_, hexec, congrArg (· ++ _) (hk.out rfl), ?_, fun c hc => htime hc⟩
    show ({ u.can with emcy := rest, lastEmcy := some u.time.cycle } : Can) = _
    rw [hk.can rfl]
    rfl
  · exact ⟨_, (if_neg (by simp [hup])).trans (if_neg (not_or.2 ⟨h0, hff⟩)), rfl, rfl⟩
  · exact ⟨_, (if_neg (by simp [hup])).trans (if_pos he), rfl⟩
  · exact ⟨_, leBytes (freeAt s ty.toNat) 4, (if_neg (by simp [hup])).trans (if_pos hty), rfl, leBytes_length .., rfl⟩

end Sys2Proof.Machine
end

section
/-! PROOFS. The teller channels (R648 to R655): what a channel reads after an acknowledgement, a reply or another channel's change. -/

namespace Sys2Proof.Machine

theorem chanOf_setChan_of_ne {v : Teller} (hv : v ≠ {}) (c : Nat) (s : State) : chanOf (setChan c v s) c = v :=
  tget_tput_ne_default hv ..

theorem chanOf_setChan {s : State} (hs : Tbl.Rising s.tel.chan) (c : Nat) (v : Teller) : chanOf (setChan c v s) c = v :=
  tget_tput _ _ _ hs _

theorem chanOf_of_tel {s t : State} (h : t.tel = s.tel) (c : Nat) : chanOf t c = chanOf s c := by simp only [chanOf, h]

/-- A channel whose message has been acknowledged with a code. -/
def clearedChan (v : Teller) (code seq : Nat) : Teller := { v with msg := none, ackValid := true, ackCode := code, ackSeq := seq }

theorem clearedChan_ne (v : Teller) (code seq : Nat) : clearedChan v code seq ≠ {} := fun h =>
  Bool.false_ne_true (congrArg Teller.ackValid h).symm

theorem tlClear_of_msg {s : State} {c : Nat} {m : TlMsg} (h : (chanOf s c).msg = some m) (code : Nat) :
    tlClear c code s = setChan c (clearedChan (chanOf s c) code m.seq) s := by
  unfold tlClear
  rw [h]
  rfl

theorem chanOf_tlClear {s : State} {c : Nat} {m : TlMsg} (h : (chanOf s c).msg = some m) (code : Nat) :
    chanOf (tlClear c code s) c = clearedChan (chanOf s c) code m.seq := by
  rw [tlClear_of_msg h]
  exact chanOf_setChan_of_ne (clearedChan_ne _ _ _) ..

theorem tlAck_of_quiet {s : State} {c : Nat} (h : tlQuiet s c = true) (code : Nat) : tlAck c code s = tlClear c code s := by
  unfold tlAck
  unfold tlQuiet at h
  cases hturned : (chanOf s c).turned with
  | none => rfl
  | some p =>
    rw [hturned] at h
    exact if_neg (by simpa using h)

theorem chanOf_tlAck {s : State} {c : Nat} {m : TlMsg} (hq : tlQuiet s c = true) (h : (chanOf s c).msg = some m) (code : Nat) :
    chanOf (tlAck c code s) c = clearedChan (chanOf s c) code m.seq := by
  rw [tlAck_of_quiet hq]
  exact chanOf_tlClear h code

theorem Acked.of_chan {t : State} {c code : Nat} {m : TlMsg} {v : Teller} (h : chanOf t c = clearedChan v code m.seq) : Acked t c code m where
  valid := by rw [h]; rfl
  code := by rw [h]; rfl
  seq := by rw [h]; rfl
  gone := by rw [h]; rfl

theorem acked_tlAck {s : State} {c : Nat} {m : TlMsg} (hq : tlQuiet s c = true) (h : (chanOf s c).msg = some m) (code : Nat) :
    Acked (tlAck c code s) c code m := Acked.of_chan (chanOf_tlAck hq h code)

/-- A reply lands in a free buffer. -/
theorem tlReply_of_free {s : State} {c : Nat} (h : (chanOf s c).replyFull = false) (r : TlReply) :
    tlReply c r s = setChan c { chanOf s c with rply := some r, replyFull := true } s := if_neg (by rw [h]; exact Bool.false_ne_true)

theorem chanOf_tlReply {s : State} {c : Nat} (h : (chanOf s c).replyFull = false) (r : TlReply) :
    chanOf (tlReply c r s) c = { chanOf s c with rply := some r, replyFull := true } := by
  rw [tlReply_of_free h]
  exact chanOf_setChan_of_ne (fun hn => Bool.false_ne_true (congrArg Teller.replyFull hn).symm) ..

/-! ## The Mint's messages (R454) -/

theorem mintMsg_found {s : State} {c : Nat} {m : TlMsg} (h : mintMsg s c = some m) :
    s.mint.st = .running ∧ (chanOf s c).msg = some m ∧ m.dest = 1 := by
  unfold mintMsg at h
  split at h
  · next hrun =>
    obtain ⟨hm, hdest⟩ := Option.filter_eq_some_iff.1 h
    exact ⟨hrun, hm, beq_iff_eq.1 hdest⟩
  · cases h

theorem mintMsg_chan {s : State} {c : Nat} {m : TlMsg} (h : mintMsg s c = some m) : (chanOf s c).msg = some m :=
  (mintMsg_found h).2.1

theorem verbTake_of_run {s : State} {c verb : Nat} {sender : Nat → Bool} {m : TlMsg} (hm : mintMsg s c = some m) (hverb : m.verb = verb)
    (hsender : sender c = true) (hidle : mintBusy s c = false) (run : TlMsg → State → State) :
    verbTake c verb sender run s = run m s := by
  unfold verbTake
  rw [hm]
  simp [hverb, hsender, hidle]

theorem verbTake_of_foreign {s : State} {c verb : Nat} {sender : Nat → Bool} {m : TlMsg} (hm : mintMsg s c = some m)
    (hverb : m.verb = verb) (hsender : sender c = false) (run : TlMsg → State → State) :
    verbTake c verb sender run s = tlAck c tlDenied s := by
  unfold verbTake
  rw [hm]
  simp [hverb, hsender]

end Sys2Proof.Machine
end

section
/-! PROOFS. The verbs of the Mint (R423, R442, R449 to R454). -/

namespace Sys2Proof.Machine

/-! ## Measurements -/

theorem measure_mExtend {s : State} (hs : Tbl.Rising s.mint.regs) (i : Nat) (d : BitVec 384) :
    measure (mExtend i d s) i = Config.sha384 (digestBytes (measure s i) ++ digestBytes d) := tget_tput _ _ _ hs _

/-! ## Debug (R442) -/

/-- The checks of R442 that a token passes before its nonce is judged. -/
def debugChecked (s : State) : Prop :=
  obj s 0x6020 4 ≠ 0 ∧ (∀ n ∈ s.led.tens, n.2.confidential = true → n.2.st = .free) ∧
    Config.tokenDevId (objDom s 0x6020 3) = Config.devId ∧ Config.tokenSigned (objDom s 0x6020 3) = true

/-- What a debug token does when the Mint carries it out. -/
def debugRun (c : Nat) (s : State) : State :=
  let tok := objDom s 0x6020 3
  if obj s 0x6020 4 = 0 ∨ (s.led.tens.any fun t => t.2.confidential && t.2.st != .free) ∨ Config.tokenDevId tok ≠ Config.devId
      ∨ !Config.tokenSigned tok then tlAck c tlDenied s
  else if Config.tokenNonce tok ≠ s.mint.nonce then tlAck c tlStale s
  else
    let s := tlAck c tlAccept s
    mExtend 7 (Config.sha384 [1]) (freeStep 1 (s.setMint fun m => { m with debug := true, nonce := freeAt s 0 % 2 ^ 256 }))

theorem exec_debugUnlock {s : State} {c : Fin 72} {m : TlMsg} (hm : mintMsg s c.val = some m) (hverb : m.verb = 4)
    (hc : c.val = 64 ∨ c.val = 65) (hidle : mintBusy s c.val = false) : exec (.debugUnlock c) s = .next (debugRun c.val s) :=
  congrArg Host.Outcome.next (verbTake_of_run hm hverb (by simpa using hc) hidle _)

theorem debugChecked_iff (s : State) : debugChecked s ↔ ¬(obj s 0x6020 4 = 0 ∨ (s.led.tens.any fun t => t.2.confidential && t.2.st != .free) ∨
    Config.tokenDevId (objDom s 0x6020 3) ≠ Config.devId ∨ !Config.tokenSigned (objDom s 0x6020 3)) := by
  simp [debugChecked]

theorem debugRun_unchecked {c : Nat} {s : State} (h : ¬debugChecked s) : debugRun c s = tlAck c tlDenied s :=
  if_pos (not_not.1 (mt (debugChecked_iff s).2 h))

theorem debugRun_stale {c : Nat} {s : State} (h : debugChecked s) (hn : Config.tokenNonce (objDom s 0x6020 3) ≠ s.mint.nonce) :
    debugRun c s = tlAck c tlStale s := (if_neg ((debugChecked_iff s).1 h)).trans (if_pos hn)

theorem debugRun_good {c : Nat} {s : State} (h : debugChecked s) (hn : Config.tokenNonce (objDom s 0x6020 3) = s.mint.nonce) :
    (debugRun c s).mint.debug = true := by
  unfold debugRun
  rw [if_neg ((debugChecked_iff s).1 h), if_neg (not_not.2 hn)]
  rfl

theorem debugRun_iff (c : Nat) (s : State) : (debugRun c s).mint.debug = true ↔
    s.mint.debug = true ∨ debugChecked s ∧ Config.tokenNonce (objDom s 0x6020 3) = s.mint.nonce := by
  by_cases h : debugChecked s
  · by_cases hn : Config.tokenNonce (objDom s 0x6020 3) = s.mint.nonce
    · exact iff_of_true (debugRun_good h hn) (Or.inr ⟨h, hn⟩)
    · rw [debugRun_stale h hn, (tlAck_keeps ..).mint rfl]
      simp [hn]
  · rw [debugRun_unchecked h, (tlAck_keeps ..).mint rfl]
    simp [h]

/-! ## Weight bundles (R449 to R453) -/

/-- The destination extents of an import are sealed. -/
def importSealed (i : Import) (s : State) : State :=
  (importExts i).foldl (fun s e => setExt e { extOf s e with sealed := true, sealConf := i.flags % 2 == 1 } s) s

/-- What a bundle import does with the code and the import that its checks give. -/
def importStarted (m : TlMsg) (code : Nat) (imp : Option Import) (s : State) : State :=
  match imp with
  | none => tlReply 64 { dest := 1, seq := m.seq, verb := 3, bytes := leBytes code 1 } (setObj 0x6030 2 code s)
  | some i => (importSealed i (setObj 0x6030 2 code s)).setMint fun k => { k with
      import_ := some { i with seq := m.seq }, bundles := (importExts i).foldl (fun t e => tput 0 t e (i.ident + 1)) k.bundles }

/-- The checks of R452 on the operands of a message. -/
def importChecked (m : TlMsg) (s : State) : Nat × Option Import :=
  importCheck s (leNat (slice m.bytes 0 8)) (leNat (slice m.bytes 8 8)) (leNat (slice m.bytes 16 8)) (leNat (slice m.bytes 24 8))

theorem exec_bundleImport {s : State} {m : TlMsg} (hm : mintMsg s 64 = some m) (hverb : m.verb = 3) (hlen : m.bytes.length = 32)
    (hidle : mintBusy s 64 = false) : exec (.bundleImport 64) s =
      .next (importStarted m (importChecked m (tlAck 64 tlAccept s)).1 (importChecked m (tlAck 64 tlAccept s)).2 (tlAck 64 tlAccept s)) := by
  refine congrArg Host.Outcome.next ((verbTake_of_run hm hverb rfl hidle _).trans ?_)
  have h64 : ((64 : Fin 72) : Nat) = 64 := rfl
  dsimp only
  rw [if_neg (not_not.2 hlen), h64]
  unfold importChecked
  generalize tlAck _ tlAccept s = u
  generalize importCheck _ _ _ _ _ = r
  obtain ⟨code, _ | i⟩ := r
  · rfl
  · rfl

theorem foldl_setExt_sealed (v : Extent → Extent) (hv : ∀ x, (v x).sealed = true) (l : List Nat) {s : State}
    (hs : Tbl.Rising s.led.exts) (e : Nat) :
    (extOf (l.foldl (fun s e => setExt e (v (extOf s e)) s) s) e).sealed = (decide (e ∈ l) || (extOf s e).sealed) := by
  induction l generalizing s with
  | nil => simp
  | cons a l ih =>
    refine (ih (s := setExt a (v (extOf s a)) s) (tput_rising _ _ hs _)).trans ?_
    by_cases h : e = a
    · subst h
      rw [extOf_setExt hs, hv]
      simp
    · rw [extOf_setExt_ne hs h]
      simp [h]

theorem importSealed_sealed {i : Import} {s : State} (hs : Tbl.Rising s.led.exts) {e : Nat} (he : e ∈ importExts i) :
    (extOf (importSealed i s) e).sealed = true := by
  have h := foldl_setExt_sealed (fun x => { x with sealed := true, sealConf := i.flags % 2 == 1 }) (fun _ => rfl) (importExts i) hs e
  exact h.trans (by simp [he])

theorem importSealed_keeps (i : Import) (s : State) : Keeps 0x400 s (importSealed i s) :=
  Keeps.foldl (.refl _ _) fun _ _ h => (setExt_keeps ..).step h

theorem importStarted_effect (m : TlMsg) (code : Nat) (imp : Option Import) {u : State} (hnone : u.mint.import_ = none)
    (hs : Tbl.Rising u.led.exts) : obj (importStarted m code imp u) 0x6030 2 = code ∧
      (importStarted m code imp u).mint.import_ = imp.map (fun i => { i with seq := m.seq }) ∧ (importStarted m code imp u).mem = u.mem ∧
      ∀ i, imp = some i → ∀ e ∈ importExts i, (extOf (importStarted m code imp u) e).sealed = true := by
  cases imp with
  | none =>
    have hk := tlReply_keeps 64 { dest := 1, seq := m.seq, verb := 3, bytes := leBytes code 1 } (setObj 0x6030 2 code u)
    refine ⟨(obj_of_dict (hk.dict rfl) ..).trans (obj_setObj_same ..), ?_, hk.mem rfl, fun i hi => by cases hi⟩
    exact (congrArg Mint.import_ (hk.mint rfl)).trans hnone
  | some i =>
    have hk := importSealed_keeps i (setObj 0x6030 2 code u)
    refine ⟨(obj_of_dict (hk.dict rfl) ..).trans (obj_setObj_same ..), rfl, hk.mem rfl, fun j hj e he => ?_⟩
    obtain rfl := Option.some.inj hj
    exact importSealed_sealed (s := setObj 0x6030 2 code u) hs he

/-- The end of an import in a state from which it has been taken: its code, and the reply to the steward. -/
def importDone (i : Import) (code : Nat) (s : State) : State :=
  tlReply 64 { dest := 1, seq := i.seq, verb := 3, bytes := leBytes code 1 } (setObj 0x6030 2 code s)

theorem importDone_keeps (i : Import) (code : Nat) (s : State) : Keeps 0x42 s (importDone i code s) :=
  (tlReply_keeps ..).step ((setObj_keeps ..).mono)

theorem importDone_code (i : Import) (code : Nat) (s : State) : obj (importDone i code s) 0x6030 2 = code := by
  rw [importDone, obj_of_dict ((tlReply_keeps ..).dict rfl)]
  exact obj_setObj_same ..

/-- The import has been taken from the Mint's state. -/
def importTaken (s : State) : State := { s with mint := { s.mint with import_ := none } }

/-- The destination range of an import is zeroized. -/
def importZeroed (i : Import) (s : State) : State := zeroRange (i.first * 2 ^ 30) ((i.first + i.count) * 2 ^ 30) (importTaken s)

theorem exec_bundleImportEnd_failed {s : State} {i : Import} (h : s.mint.import_ = some i) :
    exec (.bundleImportEnd false) s = .next (importDone i 7 (importZeroed i s)) := by
  show execBundleImportEnd false s = _
  unfold execBundleImportEnd
  rw [h]
  rfl

/-- The plaintext is written over the zeroized range. -/
def importWritten (i : Import) (c : List Byte) (s : State) : State :=
  (importZeroed i s).setMem fun m => { m with
    bytes := mwrite m.bytes (i.first * 2 ^ 30) (slice (Config.bundlePlain i.key i.ident c) 0 (plainLen i.len)) }

theorem exec_bundleImportEnd_good {s : State} {i : Import} {c : List Byte} (h : s.mint.import_ = some i)
    (hread : ownRead (importTaken s) i.cipher i.len = some c) :
    exec (.bundleImportEnd true) s = .next (mExtend 8 i.digest (importDone i 0 (importWritten i c s))) := by
  show execBundleImportEnd true s = _
  unfold execBundleImportEnd
  rw [h]
  dsimp only
  rw [if_pos rfl, show ownRead (s.setMint fun k => { k with import_ := none }) i.cipher i.len = some c from hread]
  rfl

theorem slice_getD {bs : List Byte} {n k : Nat} (h : k < n) (i : Nat) : (slice bs i n).getD k 0 = bs.getD (i + k) 0 := by
  rw [slice, List.getD_eq_getElem _ _ (by simpa using h), List.getElem_map, List.getElem_range]

theorem slice_length (bs : List Byte) (i n : Nat) : (slice bs i n).length = n := by simp [slice]

theorem importWritten_bytes {i : Import} {c : List Byte} {s : State} (hinv : Inv s) {k : Nat} (hk : k < plainLen i.len) :
    mget (importWritten i c s).mem.bytes (i.first * 2 ^ 30 + k) = (Config.bundlePlain i.key i.ident c).getD k 0 := by
  refine (mget_mwrite (mzero_wf hinv.mem.bytes _ _) ..).trans ?_
  rw [if_pos (by rw [slice_length]; omega), Nat.add_sub_cancel_left, slice_getD hk, Nat.zero_add]

/-! ## The obligation -/

/-- Settles O43: the verb is acknowledged with its code, and does what R423, R442 or R452 say where its checks pass. -/
theorem verbsAreCarriedOut : Obligations.VerbsAreCarriedOut := by
  unfold Obligations.VerbsAreCarriedOut
  refine ⟨fun s m hm hq hverb hlen hidle hinv => ?_, fun s c m hm hq hverb hc => ?_, fun s c m hm hverb hc hidle => ?_,
    fun s c m hm hq hverb hc hidle hoff => ?_, fun s c m hm hq hverb => ?_, fun s m hinv hm hverb hlen hidle => ?_,
    fun s i hinv hi => ?_, fun s i c hinv hi hread => ?_⟩
  · have hmint := (tlAck_keeps 64 tlAccept s).mint rfl
    have hexec : exec (.extend 64) s = .next (mExtend 6 (BitVec.ofNat 384 (leNat m.bytes)) (tlAck 64 tlAccept s)) :=
      congrArg Host.Outcome.next ((verbTake_of_run hm hverb rfl hidle _).trans (if_pos hlen))
    have hregs : Tbl.Rising (tlAck 64 tlAccept s).mint.regs := hmint ▸ hinv.regs
    refine ⟨_, hexec, Acked.of_chan (chanOf_tlAck hq (mintMsg_chan hm) _), ?_, congrArg (fun x : Mint => x.log ++ _) hmint⟩
    rw [measure_mExtend hregs, show measure (tlAck 64 tlAccept s) 6 = measure s 6 by rw [measure, hmint]; rfl]
  · refine ⟨_, congrArg Host.Outcome.next (verbTake_of_foreign hm hverb (by simpa using hc) _), acked_tlAck hq (mintMsg_chan hm) _, ?_⟩
    exact (tlAck_keeps ..).mint rfl
  · refine ⟨_, exec_debugUnlock hm hverb hc hidle, (debugRun_iff ..).trans ?_⟩
    simp only [debugChecked, and_assoc]
  · have hdenied := debugRun_unchecked (c := c.val) (s := s) fun h => h.1 hoff
    refine ⟨_, (exec_debugUnlock hm hverb hc hidle).trans (congrArg _ hdenied), acked_tlAck hq (mintMsg_chan hm) _, ?_⟩
    exact (tlAck_keeps ..).mint rfl
  · refine ⟨tlAck c.val tlUnknown s, ?_, acked_tlAck hq (mintMsg_chan hm) _, (tlAck_keeps ..).mint rfl⟩
    show execUnknownVerb c s = _
    unfold execUnknownVerb
    rw [hm]
    exact if_neg hverb
  · have hk := tlAck_keeps 64 tlAccept s
    have hnone : s.mint.import_ = none := Option.not_isSome_iff_eq_none.1 (by simpa [mintBusy] using hidle)
    have hexec := exec_bundleImport hm hverb hlen hidle
    have hcheck : ∀ u, importChecked m u = importCheck u (leNat (slice m.bytes 0 8)) (leNat (slice m.bytes 8 8))
      (leNat (slice m.bytes 16 8)) (leNat (slice m.bytes 24 8)) := fun _ => rfl
    rw [← hcheck]
    generalize tlAck 64 tlAccept s = u at *
    generalize importChecked m u = r at *
    obtain ⟨code, imp⟩ := r
    obtain ⟨hcode, himport, hmem, hsealed⟩ := importStarted_effect m code imp (u := u) (by rw [hk.mint rfl]; exact hnone)
      (by rw [hk.led rfl]; exact hinv.led.exts)
    exact ⟨_, code, imp, hexec, hcode, rfl, himport, hmem.trans (hk.mem rfl), hsealed⟩
  · refine ⟨_, exec_bundleImportEnd_failed hi, ?_, importDone_code .., ?_, fun a => ?_⟩
    · rw [(importDone_keeps ..).mint rfl]
      rfl
    · rw [(importDone_keeps ..).mint rfl]
      rfl
    · rw [(importDone_keeps ..).mem rfl]
      exact mget_mzero hinv.mem.bytes ..
  · have hk := importDone_keeps i 0 (importWritten i c s)
    have hmint : (importWritten i c s).mint = (importTaken s).mint := rfl
    have hbytes := fun k => importWritten_bytes (i := i) (c := c) hinv (k := k)
    have hexec := exec_bundleImportEnd_good hi hread
    have hcode := importDone_code i 0 (importWritten i c s)
    generalize importWritten i c s = w at *
    generalize importDone i 0 w = u at *
    have hmint' := (hk.mint rfl).trans hmint
    have hregs : u.mint.regs = s.mint.regs := (congrArg Mint.regs hmint').trans rfl
    refine ⟨_, hexec, (congrArg Mint.import_ hmint').trans rfl, hcode, ?_, fun k hlt => ?_⟩
    · rw [measure_mExtend (by rw [hregs]; exact hinv.regs), measure, measure, hregs]
    · show mget u.mem.bytes _ = _
      rw [hk.mem rfl]
      exact hbytes k hlt

end Sys2Proof.Machine
end

section
/-! PROOFS. The SPDM responder on plain requests (R425 to R427, R653): what each request code is answered with, where it stands in
its order, and what goes out. -/

namespace Sys2Proof.Machine

/-! ## The responder's state -/

theorem spdmOf_setSpdm_of_ne {v : Spdm} (hv : v ≠ {}) (p : Nat) (s : State) : spdmOf (setSpdm p v s) p = v :=
  tget_tput_ne_default hv ..

/-- A responder that has begun is written as it is. -/
theorem spdmOf_setSpdm_begun {v : Spdm} {n : Nat} (h : v.phase = n + 1) (p : Nat) (s : State) : spdmOf (setSpdm p v s) p = v :=
  spdmOf_setSpdm_of_ne (fun hv => Nat.succ_ne_zero n (h.symm.trans (congrArg Spdm.phase hv))) p s

/-! ## Messages by I3C -/

theorem spdmCode_plain {s : State} {p : Nat} {req : List Byte} (h : byteAt req 1 ≠ 0xFE) : spdmCode s p (5 :: req) = byteAt req 1 :=
  if_neg h

theorem spdmCode_vendor {s : State} {p n v : Nat} {req : List Byte} (h : byteAt req 1 = 0xFE) (hv : vendorReq s req = some (v, n)) :
    spdmCode s p (5 :: req) = 0xFE + 256 * v := by
  refine (if_pos h).trans ?_
  rw [hv]
  rfl

/-- What goes out for an answer of the responder, and the state after it. -/
def answered (r : List Byte × State) : State := emit (.mctp (5 :: (spdmBound 100 r).1)) (spdmBound 100 r).2

theorem spdmTake_asked {s : State} {bytes req : List Byte} {code : Nat} (h : Asked s bytes req code) {want : Nat → Bool}
    (hwant : want (spdmCode s 100 (5 :: req)) = true) : spdmTake none bytes want s = answered (spdmAnswer 100 false req s) := by
  obtain ⟨hrun, rfl, -⟩ := h
  unfold spdmTake
  dsimp only [spdmPath]
  rw [if_neg (not_or.2 ⟨not_not.2 hrun, by rw [hwant]; decide⟩)]
  rfl

theorem spdmBound_short {r : List Byte × State} (h : r.1.length ≤ 4096) (p : Nat) : spdmBound p r = r := if_pos h

theorem answered_short {r : List Byte × State} (h : r.1.length ≤ 4096) : answered r = emit (.mctp (5 :: r.1)) r.2 := by
  rw [answered, spdmBound_short h]

/-- An answer that fits a transfer goes out as it is, and the responder's state is that of the answer. -/
theorem answered_whole {s t : State} {r : List Byte} (hlen : r.length ≤ 4096) (hout : t.out = s.out) :
    Said s (answered (r, t)) r ∧ ∀ p, spdmOf (answered (r, t)) p = spdmOf t p := by
  rw [answered_short hlen]
  exact ⟨congrArg (· ++ _) hout, fun _ => rfl⟩

theorem spdmTake_code {s : State} {bytes req : List Byte} {code : Nat} (h : Asked s bytes req code) (hne : code ≠ 0xFE) :
    spdmTake none bytes (· == code) s = answered (spdmAnswer 100 false req s) :=
  spdmTake_asked h (by rw [spdmCode_plain (by rw [h.code]; exact hne), h.code]; exact beq_self_eq_true code)

theorem spdmTake_vendor {s : State} {bytes req : List Byte} {v n : Nat} (h : Asked s bytes req 0xFE) (hv : vendorReq s req = some (v, n)) :
    spdmTake none bytes (· == 0xFE + 256 * v) s = answered (spdmAnswer 100 false req s) :=
  spdmTake_asked h (by rw [spdmCode_vendor h.code hv]; exact beq_self_eq_true _)

/-- A response that may be longer than a transfer goes out, or the error that names a large response. -/
theorem said_bounded (s : State) (r : List Byte) : Said s (answered (r, s)) (bounded s r) := by
  by_cases h : r.length ≤ 4096
  · rw [bounded, if_pos h]
    exact (answered_whole h rfl).1
  · rw [bounded, if_neg h, answered, spdmBound]
    dsimp only
    rw [if_neg h]
    rfl

/-! ## The answers, by request code -/

section
variable {s : State} {p : Nat} {sec : Bool} {req : List Byte}

theorem spdmAnswer_version (hc : byteAt req 1 = 0x84) : spdmAnswer p sec req s =
    (spdmHead 0x10 0x04 0 0 ++ [0, 2] ++ leBytes 0x1200 2 ++ leBytes 0x1300 2,
      setSpdm p { ({} : Spdm) with phase := 1, trA := req ++ (spdmHead 0x10 0x04 0 0 ++ [0, 2] ++ leBytes 0x1200 2 ++ leBytes 0x1300 2) } s) :=
  if_pos hc

/-- The answer to GET_CAPABILITIES. -/
def capsAnswer (s : State) (req : List Byte) : List Byte :=
  spdmHead (byteAt req 0) 0x61 0 0 ++ [0] ++ leBytes (freeAt s 0) 1 ++ [0, 0] ++ leBytes spdmCaps 4 ++ leBytes 4096 4 ++ leBytes (freeAt s 1) 4

theorem spdmAnswer_capabilities (hc : byteAt req 1 = 0xE1) (hp : (spdmOf s p).phase = 1)
    (hv : byteAt req 0 = 0x12 ∨ byteAt req 0 = 0x13) : spdmAnswer p sec req s = (capsAnswer s req,
      freeStep 2 (setSpdm p { spdmOf s p with ver := byteAt req 0, phase := 2, trA := (spdmOf s p).trA ++ req ++ capsAnswer s req } s)) := by
  refine (if_neg (by rw [hc]; decide)).trans ((if_pos hc).trans ((if_neg (by rw [hp]; decide)).trans (if_neg ?_)))
  tauto

theorem spdmAnswer_algorithms (hc : byteAt req 1 = 0xE3) (hp : (spdmOf s p).phase = 2) (hv : byteAt req 0 = (spdmOf s p).ver) :
    spdmAnswer p sec req s = (spdmHead (spdmOf s p).ver 0x63 3 0 ++ spdmAlgs,
      setSpdm p { spdmOf s p with phase := 3, trA := (spdmOf s p).trA ++ req ++ (spdmHead (spdmOf s p).ver 0x63 3 0 ++ spdmAlgs) } s) :=
  (if_neg (by rw [hc]; decide)).trans ((if_neg (by rw [hc]; decide)).trans ((if_neg (not_not.2 hv)).trans
    ((if_pos hc).trans (if_neg (not_not.2 hp)))))

/-- The answer to GET_DIGESTS. -/
def digestsAnswer (s : State) (v : Nat) : List Byte :=
  spdmHead v 0x01 3 3 ++ ([0, 1].flatMap fun n => digestBytes (Config.sha384 (Config.certChain 0 n (aliasSalt s))))

variable (hp : (spdmOf s p).phase = 3) (hv : byteAt req 0 = (spdmOf s p).ver)
include hp hv

theorem spdmAnswer_digests (hc : byteAt req 1 = 0x81) : spdmAnswer p sec req s = (digestsAnswer s (spdmOf s p).ver,
      setSpdm p { spdmOf s p with trB := (spdmOf s p).trB ++ req ++ digestsAnswer s (spdmOf s p).ver } s) := by
  unfold spdmAnswer
  simp [hc, hp, hv, digestsAnswer]

/-- The part of a certificate chain that GET_CERTIFICATE asks for, and its answer. -/
def certPart (s : State) (req : List Byte) : Nat :=
  min (le16 req 6) ((Config.certChain 0 (byteAt req 2 % 16) (aliasSalt s)).length - le16 req 4)

def certAnswer (s : State) (v : Nat) (req : List Byte) : List Byte :=
  spdmHead v 0x02 (byteAt req 2 % 16) 0 ++ leBytes (certPart s req) 2
    ++ leBytes ((Config.certChain 0 (byteAt req 2 % 16) (aliasSalt s)).length - le16 req 4 - certPart s req) 2
    ++ slice (Config.certChain 0 (byteAt req 2 % 16) (aliasSalt s)) (le16 req 4) (certPart s req)

theorem spdmAnswer_certificate (hc : byteAt req 1 = 0x82) (hslot : slotOk (byteAt req 2 % 16) = true)
    (hoff : le16 req 4 ≤ (Config.certChain 0 (byteAt req 2 % 16) (aliasSalt s)).length) : spdmAnswer p sec req s =
      (certAnswer s (spdmOf s p).ver req,
        setSpdm p { spdmOf s p with trB := (spdmOf s p).trB ++ req ++ certAnswer s (spdmOf s p).ver req } s) := by
  unfold spdmAnswer
  simp [hc, hp, hv, hslot, Nat.not_lt.2 hoff, certAnswer, certPart]

/-- The answer to CHALLENGE, before its signature. -/
def challengeAnswer (s : State) (v : Nat) (req : List Byte) : List Byte :=
  spdmHead v 0x03 (byteAt req 2 % 16) (2 ^ (byteAt req 2 % 16))
    ++ digestBytes (Config.sha384 (Config.certChain 0 (byteAt req 2 % 16) (aliasSalt s))) ++ leBytes (freeAt s 0) 32
    ++ measHash s (byteAt req 3) ++ [0, 0] ++ (if v = 0x13 then slice req 36 8 else [])

theorem spdmAnswer_challenge (hc : byteAt req 1 = 0x83) (hslot : slotOk (byteAt req 2 % 16) = true) {k : Spdm} (hk : spdmOf s p = k) :
    spdmAnswer p sec req s = (challengeAnswer s k.ver req ++ edSign s (byteAt req 2 % 16)
        (k.trA ++ k.trB ++ req ++ challengeAnswer s k.ver req),
      freeStep 1 (setSpdm p { k with trB := [], signed := some (byteAt req 2 % 16,
        k.trA ++ k.trB ++ req ++ challengeAnswer s k.ver req) } s)) := by
  subst hk
  unfold spdmAnswer
  simp [hc, hp, hv, hslot, challengeAnswer]

/-- The answer to GET_MEASUREMENTS for one index without a signature: what stands before the measurement, and after it. -/
def measPre (s : State) (v i : Nat) : List Byte :=
  spdmHead v 0x60 0 0 ++ leBytes 1 1 ++ leBytes 55 3 ++ (leBytes i 1 ++ [1] ++ leBytes 51 2 ++ leBytes (freeAt s i) 1 ++ leBytes 48 2)
def measPost (s : State) (v : Nat) (req : List Byte) : List Byte :=
  leBytes (freeAt s 0) 32 ++ [0, 0] ++ (if v = 0x13 then slice req 4 8 else [])

omit hp hv in
theorem measBlock_length (s : State) (i : Nat) : (measBlock s i).length = 55 := by
  simp [measBlock, leBytes_length, digestBytes]

theorem spdmAnswer_measurements (hc : byteAt req 1 = 0xE0) (hplain : byteAt req 2 % 2 = 0) (hlow : 1 ≤ byteAt req 3)
    (hhigh : byteAt req 3 ≤ 8) : (spdmAnswer p sec req s).1 =
      measPre s (spdmOf s p).ver (byteAt req 3) ++ digestBytes (measure s (byteAt req 3)) ++ measPost s (spdmOf s p).ver req ∧
    (spdmAnswer p sec req s).2.out = s.out := by
  have h0 : byteAt req 3 ≠ 0 := by omega
  have hff : byteAt req 3 ≠ 255 := by omega
  unfold spdmAnswer
  simp [hc, hp, hv, hplain, h0, hff, Nat.not_lt.2 hhigh, slotOk]
  refine ⟨?_, rfl⟩
  rw [measBlock_length]
  simp [measBlock, measPre, measPost]

/-- The session identifier and the answer of KEY_EXCHANGE, before its signature. -/
def kexSid (s : State) (req : List Byte) : Nat := le16 req 4 + freeAt s 1 % 65536 * 65536
def kexAnswer (s : State) (v : Nat) (req : List Byte) : List Byte :=
  spdmHead v 0x64 (freeAt s 2 % 256) 0 ++ leBytes (kexSid s req / 65536) 2 ++ [0, 0] ++ leBytes (freeAt s 0) 32
    ++ slice (Config.kexShare (req ++ leBytes (freeAt s 0) 32)) 0 96 ++ measHash s (byteAt req 2) ++ [0, 0]

/-- The transcript that the answer to KEY_EXCHANGE signs, and its signature. -/
def kexTranscript (s : State) (k : Spdm) (req : List Byte) : List Byte :=
  k.trA ++ digestBytes (Config.sha384 (Config.certChain 0 (byteAt req 3) (aliasSalt s))) ++ req ++ kexAnswer s k.ver req
def kexSign (s : State) (k : Spdm) (req : List Byte) : List Byte := edSign s (byteAt req 3) (kexTranscript s k req)

/-- The session that KEY_EXCHANGE begins. -/
def kexSession (s : State) (k : Spdm) (req : List Byte) : SpdmSession :=
  { sid := kexSid s req, up := false, th := kexTranscript s k req ++ kexSign s k req, updates := 0, beat := freeAt s 2 % 256
    last := s.time.cycle }

theorem spdmAnswer_keyExchange (hc : byteAt req 1 = 0xE4) (hslot : slotOk (byteAt req 3) = true) (hhealthy : s.mint.healthy = true)
    {k : Spdm} (hk : spdmOf s p = k) : spdmAnswer p false req s =
      (kexAnswer s k.ver req ++ kexSign s k req ++ slice (Config.sessionMac (kexTranscript s k req ++ kexSign s k req) []) 0 48,
        freeStep 3 (setSpdm p { k with signed := some (byteAt req 3, kexTranscript s k req), session := some (kexSession s k req) } s)) := by
  subst hk
  unfold spdmAnswer
  simp [hc, hp, hv, hslot, hhealthy, kexAnswer, kexSign, kexTranscript, kexSession, kexSid]

/-- The answer to CHUNK_GET after the first part. -/
def chunkAnswer (v i : Nat) (req bs : List Byte) : List Byte :=
  spdmHead v 0x06 (if bs.length ≤ 4084 then 1 else 0) (byteAt req 3) ++ leBytes i 2 ++ [0, 0] ++ leBytes (min bs.length 4084) 4 ++ bs.take 4084

theorem spdmAnswer_chunk (hc : byteAt req 1 = 0x86) {bs : List Byte} {i : Nat} (hchunk : (spdmOf s p).chunk = some (bs, i))
    (hi : le16 req 4 = i) (hpos : 1 ≤ i) : spdmAnswer p sec req s = (chunkAnswer (spdmOf s p).ver i req bs,
      setSpdm p { spdmOf s p with chunk := if bs.length ≤ 4084 then none else some (bs.drop 4084, i + 1) } s) := by
  have h0 : i ≠ 0 := by omega
  have htake : bs.take (min bs.length 4084) = bs.take 4084 := List.take_eq_take_iff.2 (by omega)
  have hdrop : (if bs.length ≤ 4084 then none else some (bs.drop (min bs.length 4084), i + 1)) =
      if bs.length ≤ 4084 then none else some (bs.drop 4084, i + 1) := by
    split
    · rfl
    · next h => rw [min_eq_right (Nat.le_of_not_le h)]
  unfold spdmAnswer
  simp [hc, hp, hv, hchunk, hi, h0, htake, hdrop, chunkAnswer]

theorem spdmAnswer_pqCerts (hc : byteAt req 1 = 0xFE) {n : Nat} (hn : vendorReq s req = some (1, n)) (hslot : slotOk n = true) :
    spdmAnswer p sec req s = (vendorRsp s (spdmOf s p).ver req 1 (Config.certChain 1 n (aliasSalt s)), s) := by
  unfold spdmAnswer
  simp [hc, hp, hv, hn, hslot]

theorem spdmAnswer_pqSig (hc : byteAt req 1 = 0xFE) {n m : Nat} {msg : List Byte} (hn : vendorReq s req = some (2, n))
    (hsigned : (spdmOf s p).signed = some (m, msg)) : spdmAnswer p sec req s =
      (vendorRsp s (spdmOf s p).ver req 2 (slice (Config.sign 1 m (aliasSalt s) msg) 0 3309), s) := by
  unfold spdmAnswer
  simp [hc, hp, hv, hn, hsigned]

theorem spdmAnswer_bundleKeys (hc : byteAt req 1 = 0xFE) {n : Nat} (hn : vendorReq s req = some (4, n)) :
    spdmAnswer p sec req s = (vendorRsp s (spdmOf s p).ver req 4 (Config.bundleKeys ++ slice (Config.sign 0 0 [] Config.bundleKeys) 0 64
      ++ slice (Config.sign 1 0 [] Config.bundleKeys) 0 3309), s) := by
  unfold spdmAnswer
  simp [hc, hp, hv, hn]

end

/-! ## The lengths of the answers -/

theorem spdmHead_length (v c a b : Nat) : (spdmHead v c a b).length = 4 := rfl
theorem digestBytes_length (d : BitVec 384) : (digestBytes d).length = 48 := leBytes_length ..
theorem edSign_length (s : State) (n : Nat) (m : List Byte) : (edSign s n m).length = 64 := slice_length ..

theorem measHash_length (s : State) (k : Nat) : (measHash s k).length ≤ 48 := by
  unfold measHash
  split
  · exact Nat.zero_le _
  · exact (digestBytes_length _).le

theorem capsAnswer_length (s : State) (req : List Byte) : (capsAnswer s req).length = 20 := rfl

theorem digestsAnswer_length (s : State) (v : Nat) : (digestsAnswer s v).length = 100 := by
  simp [digestsAnswer, spdmHead_length, digestBytes_length]

theorem certAnswer_length (s : State) (v : Nat) (req : List Byte) : (certAnswer s v req).length = 8 + certPart s req := by
  simp [certAnswer, spdmHead_length, leBytes_length, slice_length]
  omega

theorem challengeAnswer_length (s : State) (v : Nat) (req : List Byte) : (challengeAnswer s v req).length ≤ 142 := by
  have h := measHash_length s (byteAt req 3)
  unfold challengeAnswer
  split <;> simp [spdmHead_length, digestBytes_length, leBytes_length, slice_length] <;> omega

theorem kexAnswer_length (s : State) (v : Nat) (req : List Byte) : (kexAnswer s v req).length ≤ 186 := by
  have h := measHash_length s (byteAt req 2)
  simp [kexAnswer, spdmHead_length, leBytes_length, slice_length]
  omega

theorem chunkAnswer_length (v i : Nat) (req bs : List Byte) : (chunkAnswer v i req bs).length ≤ 4096 := by
  simp [chunkAnswer, spdmHead_length, leBytes_length]
  omega

theorem measAnswer_length (s : State) (v i : Nat) (req : List Byte) :
    (measPre s v i ++ digestBytes (measure s i) ++ measPost s v req).length ≤ 4096 := by
  unfold measPre measPost
  split <;> simp [spdmHead_length, digestBytes_length, leBytes_length, slice_length]

theorem vendorRsp_length (s : State) (v : Nat) (req : List Byte) (code : Nat) (body : List Byte) :
    (vendorRsp s v req code body).length = 14 + body.length := by
  simp [vendorRsp, spdmHead_length, leBytes_length, slice_length]
  omega

/-! ## The obligation -/

/-- Settles O41: the message's code lets the request through, the responder's answer to it fits a transfer or is kept, and its state
goes on as the answer says. -/
theorem requestersAreAnswered : Obligations.RequestersAreAnswered := by
  unfold Obligations.RequestersAreAnswered
  refine ⟨fun s bytes req h => ?_, fun s bytes req h hp hv => ?_, fun s bytes req h hp hv => ?_, fun s bytes req h hp hv => ?_,
    fun s bytes req h hp hv hslot hoff hlen => ?_, fun s bytes req h hp hv hslot => ?_, fun s bytes req h hp hv hplain hlow hhigh => ?_,
    fun s bytes req h hp hv hslot hhealthy => ?_, fun s bytes req bs i h hp hv hchunk hi hpos => ?_,
    fun s bytes req n h hp hv hn hslot => ?_, fun s bytes req n m msg h hp hv hn hsigned => ?_, fun s bytes req n h hp hv hn => ?_⟩
  · obtain ⟨hsaid, hst⟩ := answered_whole (s := s) (r := spdmHead 0x10 0x04 0 0 ++ [0, 2] ++ leBytes 0x1200 2 ++ leBytes 0x1300 2)
      (t := (spdmAnswer 100 false req s).2) (by decide) (by rw [spdmAnswer_version h.code]; rfl)
    have hexec : exec (.getVersion none bytes) s = .next (answered (spdmAnswer 100 false req s)) := congrArg _ (spdmTake_code h (by decide))
    have hspdm : exec (.spdm none bytes) s = .next (answered (spdmAnswer 100 false req s)) := congrArg _ (spdmTake_asked h rfl)
    rw [spdmAnswer_version h.code] at hexec hspdm hsaid hst
    refine ⟨_, hexec, hspdm, hsaid, ?_, ?_⟩
    · rw [hst]
      exact congrArg Spdm.phase (spdmOf_setSpdm_begun rfl ..)
    · rw [hst]
      exact congrArg Spdm.session (spdmOf_setSpdm_begun rfl ..)
  · have hexec : exec (.getCapabilities none bytes) s = .next (answered _) := congrArg _ ((spdmTake_code h (by decide)).trans
      (congrArg _ (spdmAnswer_capabilities h.code hp hv)))
    obtain ⟨hsaid, hst⟩ := answered_whole (s := s) (r := capsAnswer s req) (t := freeStep 2 (setSpdm 100 _ s))
      (by rw [capsAnswer_length]; decide) rfl
    refine ⟨_, _, hexec, hsaid, rfl, rfl, ?_, ?_⟩
    · rw [hst]
      exact congrArg Spdm.ver (spdmOf_setSpdm_begun rfl ..)
    · rw [hst]
      exact congrArg Spdm.phase (spdmOf_setSpdm_begun rfl ..)
  · have hexec : exec (.negotiateAlgorithms none bytes) s = .next (answered _) := congrArg _ ((spdmTake_code h (by decide)).trans
      (congrArg _ (spdmAnswer_algorithms h.code hp hv)))
    obtain ⟨hsaid, hst⟩ := answered_whole (s := s) (r := spdmHead (spdmOf s 100).ver 0x63 3 0 ++ spdmAlgs) (t := setSpdm 100 _ s)
      (by rw [List.length_append, spdmHead_length]; decide) rfl
    refine ⟨_, hexec, ?_, ?_, ?_⟩
    · rw [hv]
      exact hsaid
    · rw [hst]
      exact (congrArg Spdm.ver (spdmOf_setSpdm_begun rfl ..)).trans rfl
    · rw [hst]
      exact congrArg Spdm.phase (spdmOf_setSpdm_begun rfl ..)
  · have hexec : exec (.getDigests none bytes) s = .next (answered _) := congrArg _ ((spdmTake_code h (by decide)).trans
      (congrArg _ (spdmAnswer_digests hp hv h.code)))
    obtain ⟨hsaid, -⟩ := answered_whole (s := s) (r := digestsAnswer s (spdmOf s 100).ver) (t := setSpdm 100 _ s)
      (by rw [digestsAnswer_length]; decide) rfl
    refine ⟨_, hexec, ?_⟩
    rw [hv]
    convert hsaid using 1
    simp [digestsAnswer]
  · have hexec : exec (.getCertificate none bytes) s = .next (answered _) := congrArg _ ((spdmTake_code h (by decide)).trans
      (congrArg _ (spdmAnswer_certificate hp hv h.code hslot hoff)))
    obtain ⟨hsaid, -⟩ := answered_whole (s := s) (r := certAnswer s (spdmOf s 100).ver req) (t := setSpdm 100 _ s)
      (by rw [certAnswer_length, certPart]; omega) rfl
    exact ⟨_, _, hexec, hsaid, rfl, rfl⟩
  · have hexec : exec (.challenge none bytes) s = .next (answered _) := congrArg _ ((spdmTake_code h (by decide)).trans
      (congrArg _ (spdmAnswer_challenge hp hv h.code hslot rfl)))
    have hlen := challengeAnswer_length s (spdmOf s 100).ver req
    obtain ⟨hsaid, hst⟩ := answered_whole (s := s) (r := challengeAnswer s (spdmOf s 100).ver req ++ edSign s (byteAt req 2 % 16)
      ((spdmOf s 100).trA ++ (spdmOf s 100).trB ++ req ++ challengeAnswer s (spdmOf s 100).ver req)) (t := freeStep 1 (setSpdm 100 _ s))
      (by rw [List.length_append, edSign_length]; omega) rfl
    refine ⟨_, challengeAnswer s (spdmOf s 100).ver req, hexec, rfl, ?_, hsaid, ?_⟩
    · rw [hst]
      exact congrArg Spdm.trB (spdmOf_setSpdm_begun (by exact hp) ..)
    · rw [hst]
      exact congrArg Spdm.signed (spdmOf_setSpdm_begun (by exact hp) ..)
  · obtain ⟨hr, hout⟩ := spdmAnswer_measurements (sec := false) hp hv h.code hplain hlow hhigh
    obtain ⟨hsaid, -⟩ := answered_whole (s := s) (measAnswer_length s (spdmOf s 100).ver (byteAt req 3) req) hout
    rw [← hr] at hsaid
    refine ⟨_, measPre s (spdmOf s 100).ver (byteAt req 3), measPost s (spdmOf s 100).ver req,
      congrArg Host.Outcome.next (spdmTake_code h (by decide)), rfl, rfl, ?_⟩
    rw [← hr]
    exact hsaid
  · have hexec : exec (.keyExchange none bytes) s = .next (answered _) := congrArg _ ((spdmTake_code h (by decide)).trans
      (congrArg _ (spdmAnswer_keyExchange hp hv h.code hslot hhealthy rfl)))
    have hlen := kexAnswer_length s (spdmOf s 100).ver req
    obtain ⟨hsaid, hst⟩ := answered_whole (s := s) (r := kexAnswer s (spdmOf s 100).ver req ++ kexSign s (spdmOf s 100) req ++
      slice (Config.sessionMac (kexTranscript s (spdmOf s 100) req ++ kexSign s (spdmOf s 100) req) []) 0 48) (t := freeStep 3 (setSpdm 100 _ s))
      (by rw [List.length_append, List.length_append, kexSign, edSign_length, slice_length]; omega) rfl
    refine ⟨_, _, kexSession s (spdmOf s 100) req, hexec, hsaid, rfl, ?_, rfl, ?_⟩
    · rw [hst]
      exact congrArg Spdm.session (spdmOf_setSpdm_begun (by exact hp) ..)
    · have hlt : le16 req 4 < 65536 := (leNat_lt _).trans_eq (by rw [slice_length]; rfl)
      show (le16 req 4 + freeAt s 1 % 65536 * 65536) % 65536 = _
      omega
  · have hexec : exec (.chunkGet none bytes) s = .next (answered _) := congrArg _ ((spdmTake_code h (by decide)).trans
      (congrArg _ (spdmAnswer_chunk hp hv h.code hchunk hi hpos)))
    obtain ⟨hsaid, hst⟩ := answered_whole (s := s) (t := setSpdm 100 _ s) (chunkAnswer_length (spdmOf s 100).ver i req bs) rfl
    refine ⟨_, _, hexec, hsaid, rfl, rfl, ?_⟩
    rw [hst]
    exact congrArg Spdm.chunk (spdmOf_setSpdm_begun (by exact hp) ..)
  · exact ⟨_, congrArg Host.Outcome.next ((spdmTake_vendor h hn).trans (congrArg _ (spdmAnswer_pqCerts hp hv h.code hn hslot))), said_bounded ..⟩
  · refine ⟨_, congrArg Host.Outcome.next ((spdmTake_vendor h hn).trans (congrArg _ (spdmAnswer_pqSig hp hv h.code hn hsigned))), ?_⟩
    exact (answered_whole (by rw [vendorRsp_length, slice_length]; decide) rfl).1
  · exact ⟨_, congrArg Host.Outcome.next ((spdmTake_vendor h hn).trans (congrArg _ (spdmAnswer_bundleKeys hp hv h.code hn))), said_bounded ..⟩

end Sys2Proof.Machine
end

section
/-! PROOFS. SPDM sessions (R425, R426, R428): a message of the path's session opens to its request, and the session goes on as it
says. -/

namespace Sys2Proof.Machine

/-! ## Opening a message -/

theorem slice_of_take {bs xs : List Byte} {n : Nat} (h : bs.take n = xs) (hlen : xs.length = n) : slice bs 0 n = xs := by
  subst h
  have hn : n ≤ bs.length := by simpa using hlen
  refine List.ext_getElem ((slice_length ..).trans hlen.symm) fun k hk _ => ?_
  have hlt : k < n := by rwa [slice_length] at hk
  rw [← List.getD_eq_getElem _ 0 hk, slice_getD hlt, Nat.zero_add, List.getD_eq_getElem _ _ (by omega), List.getElem_take]

/-- A message that carries the identifier of the path's session is opened with the session's keys. -/
theorem spdmPlain_session {s : State} {p : Nat} {bs : List Byte} {e : SpdmSession} (hsession : (spdmOf s p).session = some e)
    (hhead : bs.take 5 = 6 :: leBytes e.sid 4) (hsid : e.sid < 2 ^ 32) :
    spdmPlain s p bs = (Config.sessionOpen e.th e.updates (bs.drop 5)).map fun m => (true, m.drop 1) := by
  obtain _ | ⟨t, rest⟩ := bs
  · cases hhead
  obtain ⟨rfl, hrest⟩ : t = 6 ∧ rest.take 4 = leBytes e.sid 4 := by simpa using hhead
  have hid : leNat (slice rest 0 4) = e.sid := by
    rw [slice_of_take hrest (leBytes_length ..), leNat_leBytes]
    exact Nat.mod_eq_of_lt hsid
  unfold spdmPlain
  dsimp only
  rw [if_neg (show ¬(6 : Byte) = 5 by decide), if_pos rfl, hsession]
  exact if_neg (not_not.2 hid)

theorem spdmPlain_opens {s : State} {bytes m : List Byte} {e : SpdmSession} {code : Nat} (h : Sealed s bytes e)
    (ho : Opens s bytes e code m) : spdmPlain s 100 bytes = some (true, m) := by
  obtain ⟨x, hx⟩ := ho.opens
  rw [spdmPlain_session h.session h.head h.sid, hx]
  rfl

/-- What the message's session answers with, sealed under the session's keys. -/
def sealedAnswer (e : SpdmSession) (r : List Byte) : List Byte :=
  [6] ++ leBytes e.sid 4 ++ Config.sessionWrap e.th e.updates ([5] ++ r)

theorem spdmMsg_session {s : State} {p : Nat} {bs m : List Byte} {e : SpdmSession} (hplain : spdmPlain s p bs = some (true, m))
    (hsession : (spdmOf s p).session = some e) : spdmMsg p bs s =
      (some (sealedAnswer e (spdmBound p (spdmAnswer p true m s)).1), (spdmBound p (spdmAnswer p true m s)).2) := by
  unfold spdmMsg
  rw [hplain]
  dsimp only
  rw [if_pos rfl, hsession]
  rfl

theorem spdmTake_session {s : State} {bytes m : List Byte} {e : SpdmSession} {code : Nat} (h : Sealed s bytes e)
    (ho : Opens s bytes e code m) (hne : code ≠ 0xFE) : spdmTake none bytes (· == code) s =
      emit (.mctp (sealedAnswer e (spdmBound 100 (spdmAnswer 100 true m s)).1)) (spdmBound 100 (spdmAnswer 100 true m s)).2 := by
  have hcode : spdmCode s 100 bytes = code := by
    unfold spdmCode
    rw [spdmPlain_opens h ho]
    exact (if_neg (by rw [ho.code]; exact hne)).trans ho.code
  unfold spdmTake
  dsimp only [spdmPath]
  rw [if_neg (not_or.2 ⟨not_not.2 h.run, by rw [hcode]; simp⟩), spdmMsg_session (spdmPlain_opens h ho) h.session]

/-- The session after a message that the responder answers with a new state of its own. -/
theorem session_after {s : State} {bytes m r : List Byte} {e : SpdmSession} {code n : Nat} {v : Spdm} (h : Sealed s bytes e)
    (ho : Opens s bytes e code m) (hne : code ≠ 0xFE) (ha : spdmAnswer 100 true m s = (r, setSpdm 100 v s)) (hlen : r.length ≤ 4096)
    (hphase : v.phase = n + 1) : (spdmOf (spdmTake none bytes (· == code) s) 100).session = v.session := by
  rw [spdmTake_session h ho hne, ha, spdmBound_short (r := (r, setSpdm 100 v s)) hlen]
  exact congrArg Spdm.session (spdmOf_setSpdm_begun hphase 100 s)

theorem spdmHead_short (v c a b : Nat) : (spdmHead v c a b).length ≤ 4096 := by
  rw [spdmHead_length]
  decide

theorem spdmErr_short (v c : Nat) : (spdmErr v c).length ≤ 4096 := by
  simp [spdmErr, leBytes_length]

/-! ## The requests of a session -/

section
variable {s : State} {p : Nat} {req : List Byte} {e : SpdmSession} (hp : (spdmOf s p).phase = 3)
  (hv : byteAt req 0 = (spdmOf s p).ver) (hs : (spdmOf s p).session = some e)
include hp hv hs

theorem spdmAnswer_finish (hc : byteAt req 1 = 0xE5) (hup : e.up = false)
    (hmac : slice req 4 48 = slice (Config.sessionMac e.th req) 0 48) : spdmAnswer p true req s = (spdmHead (spdmOf s p).ver 0x65 0 0,
      setSpdm p { spdmOf s p with session := some { e with up := true, th := e.th ++ req, last := s.time.cycle } } s) := by
  unfold spdmAnswer
  simp [hc, hp, hv, hs, hup, hmac]

theorem spdmAnswer_finish_wrong (hc : byteAt req 1 = 0xE5) (hup : e.up = false)
    (hmac : slice req 4 48 ≠ slice (Config.sessionMac e.th req) 0 48) : spdmAnswer p true req s = (spdmErr (spdmOf s p).ver 0x06,
      setSpdm p { spdmOf s p with session := none } s) := by
  unfold spdmAnswer
  simp [hc, hp, hv, hs, hup, hmac]

theorem spdmAnswer_heartbeat (hc : byteAt req 1 = 0xE8) (hup : e.up = true) : spdmAnswer p true req s =
    (spdmHead (spdmOf s p).ver 0x68 0 0, setSpdm p { spdmOf s p with session := some { e with last := s.time.cycle } } s) := by
  unfold spdmAnswer
  simp [hc, hp, hv, hs, hup]

theorem spdmAnswer_keyUpdate (hc : byteAt req 1 = 0xE9) (hup : e.up = true) (hlow : 1 ≤ byteAt req 2) (hhigh : byteAt req 2 < 3) :
    spdmAnswer p true req s = (spdmHead (spdmOf s p).ver 0x69 (byteAt req 2) (byteAt req 3),
      setSpdm p { spdmOf s p with session := some { e with updates := e.updates + 1 } } s) := by
  have h0 : byteAt req 2 ≠ 0 := by omega
  have h3 : ¬3 < byteAt req 2 := by omega
  unfold spdmAnswer
  simp [hc, hp, hv, hs, hup, h0, h3, hhigh]

omit hs in
theorem spdmAnswer_endSession (hc : byteAt req 1 = 0xEC) : spdmAnswer p true req s =
    (spdmHead (spdmOf s p).ver 0x6C 0 0, setSpdm p { spdmOf s p with session := none } s) := by
  unfold spdmAnswer
  simp [hc, hp, hv]

theorem spdmAnswer_tenantReport (hc : byteAt req 1 = 0xFE) {n : Nat} (hn : vendorReq s req = some (3, n)) (htenant : p < 64)
    (hup : e.up = true) : spdmAnswer p true req s = (vendorRsp s (spdmOf s p).ver req 3 (tenantReport s p), s) := by
  unfold spdmAnswer
  simp [hc, hp, hv, hs, hn, htenant, hup]

end

/-! ## A report on a tenant's channel (R428) -/

theorem vendorReq_of_dict {s t : State} (h : t.dict = s.dict) (req : List Byte) : vendorReq t req = vendorReq s req := by
  simp only [vendorReq, obj_of_dict h]

theorem vendorRsp_of_dict {s t : State} (h : t.dict = s.dict) (v : Nat) (req : List Byte) (code : Nat) (body : List Byte) :
    vendorRsp t v req code body = vendorRsp s v req code body := by simp only [vendorRsp, obj_of_dict h]

theorem tenantReport_of {s t : State} (hdict : t.dict = s.dict) (hled : t.led = s.led) (hmint : t.mint = s.mint) (n : Nat) : tenantReport t n = tenantReport s n := by
  cases s
  cases t
  subst hdict hled hmint
  rfl

theorem spdmOf_of_mint {s t : State} (h : t.mint = s.mint) (p : Nat) : spdmOf t p = spdmOf s p := by simp only [spdmOf, h]

theorem spdmPlain_of_mint {s t : State} (h : t.mint = s.mint) (p : Nat) (bs : List Byte) : spdmPlain t p bs = spdmPlain s p bs := by
  simp only [spdmPlain, spdmOf_of_mint h]

/-- A session's message on a tenant's channel is acknowledged and answered in the reply buffer. -/
theorem spdmTake_channel {s : State} {c : Fin 72} {bytes m : List Byte} {k : TlMsg} {e : SpdmSession} {want : Nat → Bool}
    (hc : c.val < 64) (hk : mintMsg s c.val = some k) (hverb : k.verb = 1) (hwant : want (spdmCode s c.val k.bytes) = true)
    (hplain : spdmPlain s c.val k.bytes = some (true, m)) (hsession : (spdmOf s c.val).session = some e) {r : List Byte}
    (ha : spdmAnswer c.val true m (tlAck c.val tlAccept s) = (r, tlAck c.val tlAccept s)) (hlen : r.length ≤ 4096) :
    spdmTake (some c) bytes want s =
      tlReply c.val { dest := 1, seq := k.seq, verb := k.verb, bytes := sealedAnswer e r } (tlAck c.val tlAccept s) := by
  have hmint := (tlAck_keeps c.val tlAccept s).mint rfl
  have hbusy : mintBusy s c.val = false := by
    have : (c.val == 64) = false := beq_eq_false_iff_ne.2 (by omega)
    rw [mintBusy, this]
    rfl
  unfold spdmTake
  dsimp only [spdmPath]
  rw [hk]
  dsimp only
  rw [if_neg (not_or.2 ⟨not_not.2 hverb, by rw [hwant]; decide⟩), if_neg (by omega), hbusy, if_neg Bool.false_ne_true,
    spdmMsg_session ((spdmPlain_of_mint hmint ..).trans hplain) ((congrArg Spdm.session (spdmOf_of_mint hmint _)).trans hsession), ha,
    spdmBound_short (r := (r, tlAck c.val tlAccept s)) hlen]

/-! ## The obligation -/

/-- Settles O42: the message opens under the session's keys, and its request changes the session, ends it, or is answered with the
tenant's report. -/
theorem sessionsGoOn : Obligations.SessionsGoOn := by
  unfold Obligations.SessionsGoOn
  refine ⟨fun s bytes e h hup => ⟨_, rfl, fun m ho hmac => ?_⟩, fun s bytes e h hup => ⟨_, rfl, fun m ho hmac => ?_⟩,
    fun s bytes e h hup => ⟨_, rfl, fun m ho => ?_⟩, fun s bytes e h hup => ⟨_, rfl, fun m ho hlow hhigh => ?_⟩,
    fun s bytes e h => ⟨_, rfl, fun m ho => ?_⟩,
    fun s c bytes k e hc hk hq hverb hp hs hup hhead hsid hfree => ⟨_, rfl, fun x n hx hv hcode hn hlen => ?_⟩⟩
  · exact session_after h ho (by decide) (spdmAnswer_finish h.order ho.ver h.session ho.code hup hmac) (spdmHead_short ..) h.order
  · exact session_after h ho (by decide) (spdmAnswer_finish_wrong h.order ho.ver h.session ho.code hup hmac) (spdmErr_short ..) h.order
  · exact session_after h ho (by decide) (spdmAnswer_heartbeat h.order ho.ver h.session ho.code hup) (spdmHead_short ..) h.order
  · exact session_after h ho (by decide) (spdmAnswer_keyUpdate h.order ho.ver h.session ho.code hup hlow hhigh) (spdmHead_short ..) h.order
  · exact session_after h ho (by decide) (spdmAnswer_endSession h.order ho.ver ho.code) (spdmHead_short ..) h.order
  · have hack := tlAck_keeps c.val tlAccept s
    have hmint := hack.mint rfl
    have hdict := hack.dict rfl
    have hchan := chanOf_tlAck hq (mintMsg_chan hk) tlAccept
    have hspdm := spdmOf_of_mint hmint c.val
    have hplain : spdmPlain s c.val k.bytes = some (true, x.drop 1) := by rw [spdmPlain_session hs hhead hsid, hx]; rfl
    have hwant : spdmCode s c.val k.bytes = 0x3FE := by
      unfold spdmCode
      rw [hplain]
      refine (if_pos hcode).trans ?_
      rw [hn]
      rfl
    have ha := spdmAnswer_tenantReport (s := tlAck c.val tlAccept s) (p := c.val) (by rw [hspdm]; exact hp) (by rw [hspdm]; exact hv)
      (by rw [hspdm]; exact hs) hcode ((vendorReq_of_dict hdict _).trans hn) hc hup
    rw [vendorRsp_of_dict hdict, tenantReport_of hdict (hack.led rfl) hmint, hspdm] at ha
    have htake := spdmTake_channel (bytes := bytes) (want := (· == 0x3FE)) hc hk hverb (by rw [hwant]; rfl) hplain hs ha hlen
    have hreply := chanOf_tlReply (s := tlAck c.val tlAccept s) (c := c.val) (by rw [hchan]; exact hfree)
      { dest := 1, seq := k.seq, verb := k.verb, bytes := sealedAnswer e (vendorRsp s (spdmOf s c.val).ver (x.drop 1) 3 (tenantReport s c.val)) }
    rw [← htake, hchan] at hreply
    refine ⟨congrArg Teller.msg hreply, _, congrArg Teller.rply hreply, rfl, rfl, hverb, rfl⟩

end Sys2Proof.Machine
end

section
/-! PROOFS. Messages of the link channel and of the windows on KAF links (R469, R471, R484, R636, R637, R649 to R651). -/

namespace Sys2Proof.Machine

/-! ## A send of a channel (R651) -/

/-- The message that a send puts to its receiver. -/
def tlMsgOf (s : State) (c : Nat) (v : BitVec 64) : TlMsg :=
  { seq := fld v 47 32, verb := fld v 31 24, dest := fld v 23 20, at_ := s.time.cycle
    bytes := (List.range (fld v 12 0)).map fun i => tget 0 (chanOf s c).send i }

/-- A send is well formed: its reserved fields are 0 and its length is within the buffer. -/
structure SendFormed (v : BitVec 64) : Prop where
  high : fld v 63 48 = 0
  low : fld v 19 13 = 0
  len : fld v 12 0 ≤ 4096

theorem SendFormed.not_bad {v : BitVec 64} (h : SendFormed v) : ¬(fld v 63 48 ≠ 0 ∨ fld v 19 13 ≠ 0 ∨ 4096 < fld v 12 0) := by
  rintro (hn | hn | hn)
  · exact hn h.high
  · exact hn h.low
  · exact Nat.not_lt.2 h.len hn

theorem tlSend_taken {s : State} {c : Nat} {v : BitVec 64} (h : SendFormed v) (hmsg : (chanOf s c).msg = none)
    (hfree : (chanOf s c).replyFull = false) (hallowed : tlAllowed c (fld v 23 20) = true)
    (hactive : c < 64 → (tenantOf s c).st = .active) : tlSend c v s =
      if fld v 23 20 = 2 then inboxRises (setChan c { chanOf s c with msg := some (tlMsgOf s c v) } s)
      else setChan c { chanOf s c with msg := some (tlMsgOf s c v) } s := by
  refine (if_neg h.not_bad).trans ((if_neg (by rw [hmsg, hfree]; simp)).trans (if_neg ?_))
  rw [hallowed]
  rintro (hn | ⟨hc, hn⟩)
  · cases hn
  · exact hn (hactive hc)

/-- A table that takes the bytes of a list at their places. -/
theorem tget_foldl_tput {α : Type} [DecidableEq α] (d : α) (f : Nat → α) (n : Nat) {t : Tbl α} (ht : Tbl.Rising t) :
    Tbl.Rising ((List.range n).foldl (fun t i => tput d t i (f i)) t) ∧
      ∀ k < n, tget d ((List.range n).foldl (fun t i => tput d t i (f i)) t) k = f k := by
  induction n with
  | zero => exact ⟨ht, fun k hk => absurd hk (Nat.not_lt_zero k)⟩
  | succ n ih =>
    obtain ⟨hr, hval⟩ := ih
    rw [List.range_succ, List.foldl_append]
    refine ⟨tput_rising _ _ hr _, fun k hk => ?_⟩
    by_cases h : k = n
    · subst h
      exact tget_tput _ _ _ hr _
    · exact (tget_tput_ne _ _ _ hr h).trans (hval k (by omega))

/-- The send buffer into which a keystone's message is put. -/
def sendBuffer (bs : List Byte) : Tbl Byte := (List.range bs.length).foldl (fun t i => tput 0 t i (bs.getD i 0)) []

theorem sendBuffer_bytes (bs : List Byte) : ((List.range bs.length).map fun i => tget 0 (sendBuffer bs) i) = bs := by
  have h := (tget_foldl_tput (0 : Byte) (fun i => bs.getD i 0) bs.length (t := []) List.Pairwise.nil).2
  refine List.ext_getElem (by simp) fun k hk _ => ?_
  rw [List.getElem_map, List.getElem_range]
  have hlt : k < bs.length := by simpa using hk
  exact (h k hlt).trans (List.getD_eq_getElem _ _ hlt)

/-! ## A keystone's message (R484) -/

/-- The state in which a message on a link has been received whole. -/
theorem exec_tlmsg_whole {s : State} {l : Fin 13} {m : KafMsg} (hst : (linkOf s l.val).st = 6) (hkey : keystonePort s l.val = true)
    (hfrag : (linkOf s l.val).frag = none) (htag : m.tag = 0) (hlen : m.data.length < 4096) : exec (.tlmsg l m) s =
      let v := BitVec.ofNat 64 m.mask
      let u := keyTaken l.val m s
      if fld v 63 48 ≠ 0 ∨ fld v 19 13 ≠ 0 ∨ fld v 12 0 ≠ m.data.length then .next (sendDenied l.val m.mask (linkCount l.val 7 u))
      else
        let w := tlSend 67 v (setChan 67 { chanOf u 67 with send := sendBuffer m.data } u)
        .next (if (chanOf w 67).msg.isSome then w else sendTlans l.val w) := by
  have hlinks : linkOf (linkTally false l.val (kafSlots m.data.length) s) l.val = linkOf s l.val :=
    linkOf_of_links ((linkTally_keeps ..).links rfl) l.val
  refine (if_neg (by simp [hst, hkey])).trans ?_
  dsimp only
  rw [joinFrag_whole (by rw [hlinks]; exact hfrag) htag hlen]
  rfl

theorem fld_ofNat {n : Nat} (hn : n < 2 ^ 64) (hi lo : Nat) : fld (BitVec.ofNat 64 n) hi lo = bitsOf n hi lo := by
  rw [fld, BitVec.toNat_ofNat, Nat.mod_eq_of_lt hn]

/-- The fields of a keystone's message that hold: a sequence number, a verb, the dictionary as its receiver, and its length. -/
theorem tlmsg_fields {mask n : Nat} (hmask : mask < 2 ^ 48) (hdata : mask % 2 ^ 24 = n) (hlen : n < 4096) :
    SendFormed (BitVec.ofNat 64 mask) ∧ fld (BitVec.ofNat 64 mask) 12 0 = n ∧ fld (BitVec.ofNat 64 mask) 47 32 = mask / 2 ^ 32 ∧
      fld (BitVec.ofNat 64 mask) 31 24 = mask / 2 ^ 24 % 256 ∧ fld (BitVec.ofNat 64 mask) 23 20 = 0 := by
  have hfld : ∀ hi lo, fld (BitVec.ofNat 64 mask) hi lo = mask / 2 ^ lo % 2 ^ (hi + 1 - lo) := fld_ofNat (by omega)
  have hlength : fld (BitVec.ofNat 64 mask) 12 0 = n := (hfld ..).trans (by omega)
  exact ⟨⟨(hfld ..).trans (by omega), (hfld ..).trans (by omega), hlength ▸ hlen.le⟩, hlength, (hfld ..).trans (by omega), hfld ..,
    (hfld ..).trans (by omega)⟩

/-! ## Messages that leave at once -/

theorem sendNow_out (l tenant : Nat) (m : KafMsg) (s : State) : (sendNow l tenant m s).out = s.out ++ [.kaf l m] := by
  have h : Keeps 0x20080 (emit (.kaf l m) s) (sendNow l tenant m s) := by
    unfold sendNow
    extract_lets u
    have hu : Keeps 0x20080 (emit (.kaf l m) s) u := (linkBuild_keeps ..).step ((linkTally_keeps ..).mono)
    split
    · exact (setLink_keeps ..).step hu
    · exact hu
  exact h.out rfl

theorem sendFor_sent {s : State} {l : Nat} (h : sends s l = true) (tenant : Nat) (m : KafMsg) : sendFor l tenant m s = sendNow l tenant m s := by
  obtain ⟨hup, hoff⟩ := Bool.and_eq_true_iff.1 h
  have hvc : vcOff (linkOf s l) m = false := by
    unfold vcOff
    split
    · simp [bitAt, beq_iff_eq.1 hoff]
    · rfl
  unfold sendFor
  rw [hup, hvc]
  rfl

theorem kafAnswer_sent {s : State} {r : Req} (h : sends s r.src = true) (op code delay : Nat) (data : List Byte) :
    (kafAnswer r op code delay data s).out =
      s.out ++ [.kaf r.src { kafOf op with tag := r.tag, code := code, delay := delay, srcDev := r.srcDev, data := data }] := by
  have hout := sendNow_out r.src r.tenant { kafOf op with tag := r.tag, code := code, delay := delay, srcDev := r.srcDev, data := data } s
  unfold kafAnswer
  dsimp only
  rw [sendFor_sent h]
  split
  · exact ((bucketAdd_keeps ..).out rfl).trans hout
  · exact hout

/-- The link's record once a message of `n` bytes of slots has been built into flits. -/
def builtLink (now n : Nat) (k : Link) : Link :=
  linkFill now { k with queued := k.queued + ceilDiv n 224, built := k.built + ceilDiv n 224 }

theorem emitted_keeps (l n : Nat) (o : Out) (t : State) : Keeps 0x200080 t (linkTally true l n (emit o t)) :=
  (linkTally_keeps ..).step ((emit_keeps ..).mono)

theorem LinkIs.sendNow {s t : State} {l : Nat} {k : Link} (h : LinkIs l k s t) (tenant : Nat) (htenant : ¬tenant < 64) (m : KafMsg) :
    LinkIs l (builtLink t.time.cycle (kafSlots m.data.length) k) s (Machine.sendNow l tenant m t) ∧
      (Machine.sendNow l tenant m t).out = t.out ++ [.kaf l m] := by
  refine ⟨?_, sendNow_out ..⟩
  have hk := emitted_keeps l (kafSlots m.data.length) (.kaf l m) t
  have hlink := (h.of_links (hk.links rfl)).built (kafSlots m.data.length)
  unfold Machine.sendNow
  dsimp only
  rw [if_neg htenant, builtLink, ← hk.time rfl]
  exact hlink

theorem LinkIs.sendUp {s t : State} {l : Nat} {k : Link} (h : LinkIs l k s t) (hst : k.st = 6) (m : KafMsg) :
    LinkIs l (builtLink t.time.cycle (kafSlots m.data.length) k) s (Machine.sendLink l m t) ∧
      (Machine.sendLink l m t).out = t.out ++ [.kaf l m] := by
  have hk := emitted_keeps l (kafSlots m.data.length) (.kaf l m) t
  have hlink := (h.of_links (hk.links rfl)).built (kafSlots m.data.length)
  have hup : linkUp t l = true := by rw [linkUp, h.rec_, hst]; rfl
  unfold Machine.sendLink
  rw [if_pos (.inr hup), builtLink, ← hk.time rfl]
  exact ⟨hlink, ((linkBuild_keeps ..).out rfl).trans ((linkTally_keeps ..).out rfl)⟩

/-! ## Window accesses by KAF (R469, R636, R637) -/

/-- A window access on a pier of a device that stands alone, which its port's toll lets pass. -/
structure Opened (s : State) (r : Req) : Prop where
  live : live s = true
  single : s.span.twin = .single
  src : r.src < 8
  sends : sends s r.src = true
  op : r.op = 0x48 ∨ r.op = 0x49
  dead : r.dead = false
  waited : r.waited = false
  toll : tollField s (128 + r.src) 1 = 0

theorem reqTolls_window {r : Req} (hop : r.op = 0x48 ∨ r.op = 0x49) (hsrc : r.src < 8) : reqTolls r = [128 + r.src] := by
  have hwin : isWin r = true := by
    rcases hop with h | h
    · simp [isWin, h]
    · simp [isWin, h]
  have hport : portToll r.src = some (128 + r.src) := if_pos hsrc
  unfold reqTolls
  rw [hport, hwin]
  simp

theorem winArrive_opened {s : State} {r : Req} (h : Opened s r) : winArrive r 0 s = winServe r (counted r s) := by
  have hk := counted_keeps r s
  have hone : (counted r s).span.twin = .single := by rw [hk.span rfl]; exact h.single
  have hlive : live (counted r s) = true := by
    rw [live, hk.pwr rfl]
    exact h.live
  have hmark : markReq r 0 (counted r s) = (false, [], counted r s) := markReq_of_off (fun k hk' => by
    rw [reqTolls_window h.op h.src, List.mem_singleton] at hk'
    rw [hk']
    exact (tollField_counted r s _).trans h.toll) 0
  unfold winArrive
  extract_lets u v sp w served
  have hw : w = counted r s := if_neg fun hn => by
    have hp : paired (counted r s) = true := hn.1
    simp [paired, hone] at hp
  clear_value served w
  subst hw
  rw [sunk_of_single hlive hone, if_neg Bool.false_ne_true, if_neg (by rw [hone]; decide), hmark]

/-- What the end of a window access has noted before its answer leaves. -/
theorem Opened.noted {s t : State} {r : Req} (h : Opened s r) (hlinks : t.links = s.links) (hspan : t.span = s.span) :
    steppedDown t = false ∧ Machine.sends t r.src = true :=
  ⟨steppedDown_of_single (by rw [hspan]; exact h.single), (sends_of_links hlinks _).trans h.sends⟩

theorem answerDone_window {s : State} {r : Req} (h : Opened s r) (data : List Byte) {t : State} (hlinks : t.links = s.links)
    (hspan : t.span = s.span) : (answerDone r 0 data t).out = t.out ++ [.kaf r.src
      (if r.op = 0x48 then { kafOf 0x4A with tag := r.tag, srcDev := r.srcDev, data := data }
        else { kafOf 0x1E with tag := r.tag, srcDev := r.srcDev })] := by
  have hop := h.op
  have h40 : r.op ≠ 0x40 := by omega
  have hu : Keeps 0xA082 t (noteAnswer r 0 data.length (dropReq r.id t)) := (noteAnswer_keeps ..).step ((dropReq_keeps ..).mono)
  obtain ⟨hdown, hsends⟩ := h.noted ((hu.links rfl).trans hlinks) ((hu.span rfl).trans hspan)
  have hsrc : r.src < 13 := by have := h.src; omega
  unfold answerDone
  dsimp only
  rw [h.dead, hdown, h.waited, if_neg (by decide), if_pos hsrc, if_neg h40]
  by_cases h48 : r.op = 0x48
  · rw [if_pos h48, if_pos h48, kafAnswer_sent hsends, hu.out rfl]
    rfl
  · rw [if_neg h48, if_neg h48, if_pos (Or.inl (hop.resolve_left h48)), kafAnswer_sent hsends, hu.out rfl]
    rfl

theorem answerFail_window {s : State} {r : Req} (h : Opened s r) {code : Nat} (hcode : code ≠ ccStale) {t : State}
    (hlinks : t.links = s.links) (hspan : t.span = s.span) : (answerFail r code t).out =
      t.out ++ [.kaf r.src { kafOf 0x20 with tag := r.tag, code := code, srcDev := r.srcDev }] := by
  have hu : Keeps 0xA082 t (noteAnswer r code 0 (dropReq r.id t)) := (noteAnswer_keeps ..).step ((dropReq_keeps ..).mono)
  obtain ⟨hdown, hsends⟩ := h.noted ((hu.links rfl).trans hlinks) ((hu.span rfl).trans hspan)
  have hsrc : r.src < 13 := by have := h.src; omega
  unfold answerFail
  dsimp only
  rw [if_neg (show ¬(code = ccStale ∧ r.tenant < 64) from fun hn => hcode hn.1), h.dead, hdown, if_neg (by decide), if_pos hsrc, kafAnswer_sent hsends, hu.out rfl]
  rfl

/-! ## What a read of the view depends on -/

section
variable {s t : State} (hwin : t.win = s.win) (hled : t.led = s.led) (hflights : t.attn.flights = s.attn.flights)
include hled

include hwin in
theorem winQp_of (w : Win) : winQp t w = winQp s w := by simp only [winQp, tenantQps, hwin, hled]

include hwin hflights in
theorem qwReg_of (w : Win) (q off : Nat) : qwReg t w q off = qwReg s w q off := by
  have hinv : (readInvStat w t).1 = (readInvStat w s).1 := by
    unfold readInvStat
    rw [winQp_of hwin hled]
    cases winQp s w with
    | none => rfl
    | some k => exact congrArg invStat (qpOf_of_led hled k)
  simp only [qwReg, qpPlaces, qpOf_of_led hled, hflights, hinv]

include hwin hflights in
theorem qwRead_of (w : Win) (off n : Nat) : (qwRead w off n t).1 = (qwRead w off n s).1 := by
  have hhidden : ∀ p, queuesHidden t w p = queuesHidden s w p := fun p => by simp only [queuesHidden, tenantOf, hled]
  have hq := winQp_of hwin hled w
  unfold qwRead
  by_cases hsel : off / 8 = 0
  · rw [if_pos hsel, if_pos hsel, hwin]
  rw [if_neg hsel, if_neg hsel, hq]
  cases winQp s w with
  | none => rfl
  | some q =>
    dsimp only
    rw [qpOf_of_led hled, hhidden, qwReg_of hwin hled hflights]
    by_cases hpage : off < 0x10000
    · rw [if_pos hpage, if_pos hpage]
    rw [if_neg hpage, if_neg hpage]
    by_cases hsq : off < 0x20000
    · rw [if_pos hsq, if_pos hsq]
    rw [if_neg hsq, if_neg hsq]
    by_cases hcq : off < 0x30000
    · rw [if_pos hcq, if_pos hcq]
    · rw [if_neg hcq, if_neg hcq]

include hwin hflights in
theorem viewRead_of (htel : t.tel = s.tel) (n : Fin 64) (off len : Nat) : (viewRead n off len t).1 = (viewRead n off len s).1 := by
  unfold viewRead
  by_cases hlow : off < 0x40000
  · rw [if_pos hlow, if_pos hlow]
    exact qwRead_of hwin hled hflights ..
  · rw [if_neg hlow, if_neg hlow]
    simp only [chRead, chanOf_of_tel htel]

end

theorem viewRead_counted (r : Req) (s : State) (n : Fin 64) (off len : Nat) :
    (viewRead n off len (counted r s)).1 = (viewRead n off len s).1 := by
  have hk := counted_keeps r s
  have hattn : (counted r s).attn = (tookId s).attn :=
    ((tenantCount_keeps ..).step ((linkTally_keeps ..).mono) : Keeps 0x82 (tookId s) (counted r s)).attn rfl
  exact viewRead_of (hk.win rfl) (hk.led rfl) ((congrArg Attn.flights hattn).trans rfl) (hk.tel rfl) n off len

/-! ## The accesses -/

/-- The request of a window access on a KAF link. -/
def winReq (l : Nat) (m : KafMsg) (cls : RClass) (len : Nat) (s : State) : Req := { kafReq l m cls len s with agent := none }

theorem isWrite_winReq (l : Fin 8) (m : KafMsg) (cls : RClass) (len : Nat) (s : State) :
    isWrite (winReq l.val m cls len s) = (cls == .uw || cls == .wb) := by
  have hcls : (winReq l.val m cls len s).cls = cls := if_pos l.isLt
  rw [isWrite, hcls]

theorem exec_winRd {s : State} {l : Fin 8} {m : KafMsg} (hsends : sends s l.val = true) (hop : m.op = 0x48) :
    exec (.winRd ⟨l.val, by omega⟩ m) s = .next (winArrive (winReq l.val m .ur (m.mask % 16) s) 0 s) := by
  have hup := (Bool.and_eq_true_iff.1 hsends).1
  have hpass : transit l.val m s = none := if_neg fun hn => absurd l.isLt (Nat.not_lt.2 hn.1)
  refine congrArg Host.Outcome.next ((if_neg (by simp [hop, hup])).trans ?_)
  dsimp only
  rw [hpass]
  rfl

theorem exec_winWr {s : State} {l : Fin 8} {m : KafMsg} (hsends : sends s l.val = true) (hop : m.op = 0x49) :
    exec (.winWr ⟨l.val, by omega⟩ m) s = .next (winArrive (winReq l.val m .uw m.data.length s) 0 s) := by
  have hup := (Bool.and_eq_true_iff.1 hsends).1
  have hpass : transit l.val m s = none := if_neg fun hn => absurd l.isLt (Nat.not_lt.2 hn.1)
  refine congrArg Host.Outcome.next ((if_neg (by simp [hop, hup])).trans ?_)
  dsimp only
  rw [hpass]
  rfl

theorem kafReq_opened {s : State} {l : Fin 8} {m : KafMsg} (hlive : live s = true) (hone : s.span.twin = .single)
    (hsends : sends s l.val = true) (hop : m.op = 0x48 ∨ m.op = 0x49) (htoll : tollField s (128 + l.val) 1 = 0) (cls : RClass) (len : Nat) :
    Opened s (winReq l.val m cls len s) where
  live := hlive
  single := hone
  src := l.isLt
  sends := hsends
  op := hop
  dead := rfl
  waited := rfl
  toll := htoll

theorem winServe_read {s : State} {r : Req} (n : Fin 64) (htenant : r.tenant = n.val) (hsrc : r.src < 8) (hin : inView r.addr r.len = true)
    (hshape : viewShape false r.addr r.len = true) (hread : isWrite r = false) : winServe r s =
      answerDone r 0 (viewRead n r.addr r.len s).1 (viewRead n r.addr r.len s).2 := by
  have hopen : r.tenant < 64 ∧ !(decide (8 ≤ r.src ∧ r.src < 13)) ∧ inView r.addr r.len :=
    ⟨htenant ▸ n.isLt, by simp; omega, hin⟩
  have hn : (⟨r.tenant, hopen.1⟩ : Fin 64) = n := Fin.ext htenant
  refine (dif_pos hopen).trans ?_
  rw [hread, hshape, hn]
  rfl

theorem winServe_write {s : State} {r : Req} (n : Fin 64) (htenant : r.tenant = n.val) (hsrc : r.src < 8) (hin : inView r.addr r.len = true)
    (hshape : viewShape true r.addr r.len = true) (hwrite : isWrite r = true) : winServe r s =
      answerDone r 0 [] (viewWrite n r.addr r.data s) := by
  have hopen : r.tenant < 64 ∧ !(decide (8 ≤ r.src ∧ r.src < 13)) ∧ inView r.addr r.len :=
    ⟨htenant ▸ n.isLt, by simp; omega, hin⟩
  have hn : (⟨r.tenant, hopen.1⟩ : Fin 64) = n := Fin.ext htenant
  have hrelays : relays (viewWrite n r.addr r.data s) r = false := by
    have : ¬0x10 ≤ r.src := by omega
    simp [relays, this]
  refine (dif_pos hopen).trans ?_
  rw [hwrite, hshape, hn]
  dsimp only
  rw [hrelays]
  rfl

theorem winServe_unbound {s : State} {r : Req} (htenant : r.tenant = 0xFF) (hsrc : r.src < 8) : winServe r s = answerFail r ccXlate s :=
  (dif_neg fun hn => by have := hn.1; omega).trans (if_pos (by omega))

theorem viewWrite_send (n : Fin 64) {off : Nat} (hlow : 0x41000 ≤ off) (hhigh : off < 0x42000) (data : List Byte) (s : State) :
    viewWrite n off data s =
      setChan n.val { chanOf s n.val with send := putBytes (chanOf s n.val).send (off - 0x41000) data } s := by
  have hoff : off - 0x40000 - 0x1000 = off - 0x41000 := by omega
  refine (if_neg (by omega)).trans ((if_pos (by omega)).trans ?_)
  rw [hoff]

/-! ## The obligation -/

/-- Settles O49: the message is counted at its link, and is put to channel 67, denied, answered or carried out as its fields say. -/
theorem linkMessagesAreTaken : Obligations.LinkMessagesAreTaken := by
  unfold Obligations.LinkMessagesAreTaken
  refine ⟨fun s l m hinv hst hkey hfrag htag hlen hmask hdata hmsg hfree => ?_, fun s l m hinv hst hkey hfrag htag hlen hbad => ?_,
    fun s l m hst hlow hhigh => ⟨_, if_pos ⟨hst, hlow, hhigh⟩, rfl⟩, fun s l h vc len hinv hsends hmal => ?_,
    fun s l m n hlive hone hsends hop htenant hin hshape htoll => ?_, fun s l m n hlive hone hsends hop htenant hlow hhigh hshape htoll => ?_,
    fun s l m hlive hone hsends hop htenant htoll => ?_⟩
  · have hk := keyTaken_keeps l.val m s
    have hexec := exec_tlmsg_whole hst hkey hfrag htag hlen
    obtain ⟨hformed, hlength, hseq, hverb, hdest⟩ := tlmsg_fields hmask hdata hlen
    have hrise : Tbl.Rising (keyTaken l.val m s).tel.chan := by rw [hk.tel rfl]; exact hinv.tel
    have hchan := chanOf_of_tel (hk.tel rfl) 67
    have htime := hk.time rfl
    have hout := hk.out rfl
    generalize keyTaken l.val m s = u at *
    have hbuf := chanOf_setChan hrise 67 { chanOf u 67 with send := sendBuffer m.data }
    have htaken := tlSend_taken (s := setChan 67 { chanOf u 67 with send := sendBuffer m.data } u) (c := 67) hformed
      (by rw [hbuf, hchan]; exact hmsg) (by rw [hbuf, hchan]; exact hfree) (by rw [hdest]; rfl) (fun hc => absurd hc (by decide))
    rw [if_neg (by rw [hdest]; decide)] at htaken
    have hmsg' : tlMsgOf (setChan 67 { chanOf u 67 with send := sendBuffer m.data } u) 67 (BitVec.ofNat 64 m.mask) =
        { seq := m.mask / 2 ^ 32, verb := m.mask / 2 ^ 24 % 256, dest := 0, bytes := m.data, at_ := s.time.cycle } := by
      unfold tlMsgOf
      rw [hbuf, hseq, hverb, hdest, hlength, sendBuffer_bytes, ← htime]
      rfl
    have hsome : (chanOf (tlSend 67 (BitVec.ofNat 64 m.mask) (setChan 67 { chanOf u 67 with send := sendBuffer m.data } u)) 67).msg =
        some { seq := m.mask / 2 ^ 32, verb := m.mask / 2 ^ 24 % 256, dest := 0, bytes := m.data, at_ := s.time.cycle } := by
      rw [htaken, ← hmsg']
      exact congrArg Teller.msg (chanOf_setChan_of_ne (fun hn => by cases congrArg Teller.msg hn) ..)
    dsimp only at hexec
    rw [if_neg (by rw [hlength, hformed.high, hformed.low]; simp), if_pos (by rw [hsome]; rfl)] at hexec
    refine ⟨_, hexec, ?_, hsome⟩
    rw [htaken]
    exact hout
  · have hk := keyTaken_keeps l.val m s
    have hexec := exec_tlmsg_whole hst hkey hfrag htag hlen
    have hlink := (keyTaken_is (m := m) hinv.link hfrag).count 7
    have hfld : fld (BitVec.ofNat 64 m.mask) 12 0 = m.mask % 2 ^ 13 := by
      rw [fld, BitVec.toNat_ofNat, bitsOf]
      omega
    have hword : m.mask / 2 ^ 32 % 65536 = m.mask % 2 ^ 64 / 2 ^ 32 % 65536 := by omega
    dsimp only at hexec
    rw [if_pos (Or.inr (Or.inr (by rw [hfld]; exact hbad)))] at hexec
    generalize keyTaken l.val m s = u at *
    obtain ⟨hsent, hout⟩ := hlink.sendUp hst { kafOf 0x74 with mask := 2 ^ 31 + tlDenied * 2 ^ 16 + m.mask / 2 ^ 32 % 65536, code := 1 }
    refine ⟨_, hexec, ?_, (congrArg Link.counts hsent.rec_).trans rfl, ?_⟩
    · exact ((sendLink_keeps ..).tel rfl).trans (hk.tel rfl)
    · refine hout.trans ?_
      rw [hword]
      exact congrArg (· ++ _) (hk.out rfl)
  · have hup := (Bool.and_eq_true_iff.1 hsends).1
    have hlink := (LinkIs.refl hinv.link l.val).count 7
    have hexec : exec (.malformedMessage l h vc len) s = .next _ := if_neg (by simp [hup, hmal])
    dsimp only at hexec
    by_cases hasks : vc.val < 4 ∧ kafAsks (fld h 7 0) = true
    · have hsends' : sends (linkCount l.val 7 s) l.val = true := by
        rw [sends, linkUp, hlink.rec_]
        exact hsends
      obtain ⟨hsent, hout⟩ := hlink.sendNow 0xFF (by decide) { kafOf 0x20 with tag := fld h 114 99, code := ccBadDesc }
      rw [if_pos hasks] at hexec ⊢
      rw [sendKaf, sendFor_sent hsends'] at hexec
      exact ⟨_, hexec, hsent.others, (congrArg Link.counts hsent.rec_).trans rfl, (congrArg Link.st hsent.rec_).trans rfl, hout⟩
    · rw [if_neg hasks] at hexec ⊢
      exact ⟨_, hexec, hlink.others, (congrArg Link.counts hlink.rec_).trans rfl, (congrArg Link.st hlink.rec_).trans rfl, (List.append_nil _).symm⟩
  · have ho := kafReq_opened hlive hone hsends (.inl hop) htoll .ur (m.mask % 16)
    have hk := counted_keeps (winReq l.val m .ur (m.mask % 16) s) s
    have hv := viewRead_counted (winReq l.val m .ur (m.mask % 16) s) s n m.addr (m.mask % 16)
    have hr := viewRead_keeps n m.addr (m.mask % 16) (counted (winReq l.val m .ur (m.mask % 16) s) s)
    have hserve := (winArrive_opened ho).trans (winServe_read n htenant l.isLt hin hshape (isWrite_winReq ..))
    refine ⟨_, (exec_winRd hsends hop).trans (congrArg _ hserve), ?_⟩
    refine (answerDone_window ho _ ((hr.links rfl).trans (hk.links rfl)) ((hr.span rfl).trans (hk.span rfl))).trans ?_
    rw [(hr.out rfl).trans (hk.out rfl), if_pos (show (winReq l.val m .ur (m.mask % 16) s).op = 0x48 from hop), ← hv]
    rfl
  · have ho := kafReq_opened hlive hone hsends (.inr hop) htoll .uw m.data.length
    have hk := counted_keeps (winReq l.val m .uw m.data.length s) s
    have hpos : 0 < m.data.length := by
      rcases Nat.eq_zero_or_pos m.data.length with h | h
      · rw [h] at hshape
        simp [viewShape, regAccess, burstAccess] at hshape
      · exact h
    have hin : inView m.addr m.data.length = true := decide_eq_true (by omega)
    have hserve := (winArrive_opened ho).trans (winServe_write n htenant l.isLt hin hshape (isWrite_winReq ..))
    have hsend := viewWrite_send n hlow (show m.addr < 0x42000 by omega) m.data (counted (winReq l.val m .uw m.data.length s) s)
    have hw := setChan_keeps n.val { chanOf (counted (winReq l.val m .uw m.data.length s) s) n.val with
      send := putBytes (chanOf (counted (winReq l.val m .uw m.data.length s) s) n.val).send (m.addr - 0x41000) m.data }
      (counted (winReq l.val m .uw m.data.length s) s)
    rw [← hsend] at hw
    refine ⟨_, (exec_winWr hsends hop).trans (congrArg _ hserve), ?_, ?_⟩
    · refine (answerDone_window ho _ ((hw.links rfl).trans (hk.links rfl)) ((hw.span rfl).trans (hk.span rfl))).trans ?_
      rw [(hw.out rfl).trans (hk.out rfl), if_neg (show (winReq l.val m .uw m.data.length s).op ≠ 0x48 from fun h => by
        have h' : m.op = 0x48 := h
        omega)]
      rfl
    · rw [(answerDone_keeps ..).tel rfl]
      refine (congrArg State.tel hsend).trans ?_
      simp only [setChan, State.setTel, chanOf, hk.tel rfl]
  · have ho := kafReq_opened hlive hone hsends (.inl hop) htoll .ur (m.mask % 16)
    have hk := counted_keeps (winReq l.val m .ur (m.mask % 16) s) s
    have hserve := (winArrive_opened ho).trans (winServe_unbound htenant l.isLt)
    refine ⟨_, (exec_winRd hsends hop).trans (congrArg _ hserve), ?_⟩
    rw [answerFail_window ho (by decide) (hk.links rfl) (hk.span rfl), hk.out rfl]
    rfl

end Sys2Proof.Machine
end

section
/-! PROOFS. The tellers carry messages to the dictionary, the Mint and the pool manager and back (R648 to R655), and registers take
writes of their size (R635 to R637). -/

namespace Sys2Proof.Machine

/-! ## Sends (R651) -/

theorem chanOf_tlRecord (c code seq : Nat) (s : State) : chanOf (tlRecord c code seq s) c =
    { chanOf s c with ackValid := true, ackCode := code, ackSeq := seq } :=
  chanOf_setChan_of_ne (fun hn => Bool.false_ne_true (congrArg Teller.ackValid hn).symm) ..

theorem tlSend_busy {s : State} {c : Nat} {v : BitVec 64} (h : SendFormed v)
    (hbusy : (chanOf s c).msg ≠ none ∨ (chanOf s c).replyFull = true) : tlSend c v s = tlRecord c tlBusy (fld v 47 32)
      (setChan c { chanOf s c with turned := if (chanOf s c).replyFull then none else some (s.time.cycle, v) } s) := by
  refine (if_neg h.not_bad).trans (if_pos ?_)
  exact hbusy.imp_left Option.isSome_iff_ne_none.2

theorem tlSend_denied {s : State} {c : Nat} {v : BitVec 64} (h : SendFormed v) (hmsg : (chanOf s c).msg = none)
    (hfree : (chanOf s c).replyFull = false) (hdenied : tlAllowed c (fld v 23 20) = false) :
    tlSend c v s = tlRecord c tlDenied (fld v 47 32) s :=
  (if_neg h.not_bad).trans ((if_neg (by rw [hmsg, hfree]; simp)).trans (if_pos (by rw [hdenied]; exact .inl rfl)))

/-- The channel whose busy send has been noted is not as at reset. -/
theorem chanOf_turned {s : State} {c : Nat} (hbusy : (chanOf s c).msg ≠ none ∨ (chanOf s c).replyFull = true)
    (x : Option (Nat × BitVec 64)) : chanOf (setChan c { chanOf s c with turned := x } s) c = { chanOf s c with turned := x } := by
  refine chanOf_setChan_of_ne (fun hn => ?_) ..
  rcases hbusy with h | h
  · exact h (congrArg Teller.msg hn)
  · exact Bool.false_ne_true ((congrArg Teller.replyFull hn).symm.trans h)

theorem inboxRises_out (s : State) : (inboxRises s).out = s.out ++ if s.win.inbIrq then [.stewardIrq s.win.inbVec] else [] := by
  unfold inboxRises
  split
  · rfl
  · exact (List.append_nil _).symm

theorem inboxRises_tel (s : State) : (inboxRises s).tel = s.tel := by
  unfold inboxRises
  split
  · rfl
  · rfl

theorem chanOf_taken {s : State} {c : Nat} (m : TlMsg) : chanOf (setChan c { chanOf s c with msg := some m } s) c =
    { chanOf s c with msg := some m } := chanOf_setChan_of_ne (fun hn => by cases congrArg Teller.msg hn) ..

theorem chanOf_tlSend_taken {s : State} {c : Nat} {v : BitVec 64} (h : SendFormed v) (hmsg : (chanOf s c).msg = none)
    (hfree : (chanOf s c).replyFull = false) (hallowed : tlAllowed c (fld v 23 20) = true)
    (hactive : c < 64 → (tenantOf s c).st = .active) : chanOf (tlSend c v s) c = { chanOf s c with msg := some (tlMsgOf s c v) } ∧
      (tlSend c v s).out = s.out ++ if fld v 23 20 = 2 ∧ s.win.inbIrq then [.stewardIrq s.win.inbVec] else [] := by
  rw [tlSend_taken h hmsg hfree hallowed hactive]
  by_cases hdest : fld v 23 20 = 2
  · rw [if_pos hdest]
    refine ⟨(chanOf_of_tel (inboxRises_tel _) c).trans (chanOf_taken _), (inboxRises_out _).trans ?_⟩
    simp only [hdest, true_and]
    rfl
  · rw [if_neg hdest]
    refine ⟨chanOf_taken _, ?_⟩
    simp only [hdest, false_and, if_false, List.append_nil]
    rfl

/-! ## Releases (R653) -/

theorem tlDone_free {s : State} {c : Nat} {v : BitVec 32} (hfull : (chanOf s c).replyFull = true) (hv : fld v 0 0 = 1)
    (hwait : (chanOf s c).wait = []) : tlDone c v s = setChan c { chanOf s c with replyFull := false } s := by
  refine (if_neg (by rw [hfull, hv]; simp)).trans ?_
  generalize chanOf s c = k at *
  cases k
  subst hwait
  rfl

theorem tlDone_next {s : State} {c : Nat} {v : BitVec 32} (hfull : (chanOf s c).replyFull = true) (hv : fld v 0 0 = 1)
    {r : TlReply} {rest : List TlReply} (hwait : (chanOf s c).wait = r :: rest) :
    tlDone c v s = setChan c { chanOf s c with rply := some r, wait := rest } s := by
  refine (if_neg (by rw [hfull, hv]; simp)).trans ?_
  rw [hwait]

/-! ## The inbox (R654, R655) -/

/-- The inbox flags of INBACK. -/
def inbFlags (refused stale : Bool) (s : State) : State := s.setTel fun t => { t with refused := refused, stale := stale }

/-- The fields of INBACK that hold. -/
structure AckFormed (v : BitVec 64) : Prop where
  high : fld v 63 36 = 0
  low : fld v 15 13 = 0
  code : fld v 35 32 < 4
  len : fld v 12 0 ≤ 4096

theorem AckFormed.not_bad {v : BitVec 64} (h : AckFormed v) :
    ¬(fld v 63 36 ≠ 0 ∨ fld v 15 13 ≠ 0 ∨ 4 ≤ fld v 35 32 ∨ 4096 < fld v 12 0) := by
  rintro (hn | hn | hn | hn)
  · exact hn h.high
  · exact hn h.low
  · exact Nat.not_le.2 h.code hn
  · exact Nat.not_lt.2 h.len hn

theorem inbAck_stale {s : State} {v : BitVec 64} {m : TlMsg} (h : AckFormed v) (hm : inboxMsg s s.tel.inbSel = some m)
    (hseq : m.seq ≠ fld v 31 16) : inbAck v s = inbFlags false true s := by
  refine (if_neg h.not_bad).trans ?_
  rw [hm]
  exact if_pos hseq

theorem inbAck_plain {s : State} {v : BitVec 64} {m : TlMsg} (h : AckFormed v) (hm : inboxMsg s s.tel.inbSel = some m)
    (hseq : m.seq = fld v 31 16) (hlen : fld v 12 0 = 0) :
    inbAck v s = tlAck s.tel.inbSel (fld v 35 32) (inbFlags false false s) := by
  refine (if_neg h.not_bad).trans ?_
  rw [hm]
  exact (if_neg (not_not.2 hseq)).trans (if_pos hlen)

/-- The reply of INBACK. -/
def inbReplyOf (s : State) (m : TlMsg) (n : Nat) : TlReply :=
  { dest := 2, seq := m.seq, verb := m.verb, bytes := (List.range n).map fun i => tget 0 s.tel.inbReply i }

theorem inbAck_reply {s : State} {v : BitVec 64} {m : TlMsg} (h : AckFormed v) (hm : inboxMsg s s.tel.inbSel = some m)
    (hseq : m.seq = fld v 31 16) (hlen : fld v 12 0 ≠ 0) : inbAck v s =
      tlReply s.tel.inbSel (inbReplyOf s m (fld v 12 0)) (tlClear s.tel.inbSel (fld v 35 32) (inbFlags false false s)) := by
  refine (if_neg h.not_bad).trans ?_
  rw [hm]
  exact (if_neg (not_not.2 hseq)).trans (if_neg hlen)

theorem inboxMsg_chan {s : State} {c : Nat} {m : TlMsg} (h : inboxMsg s c = some m) : (chanOf s c).msg = some m :=
  (Option.filter_eq_some_iff.1 h).1

/-- The acknowledgement of a channel whose send was turned away in the same cycle: the send is taken. -/
theorem tlAck_of_turned {s : State} {c : Nat} {w : BitVec 64} (hturned : (chanOf s c).turned = some (s.time.cycle, w)) (code : Nat) :
    tlAck c code s = tlSend c w (setChan c { chanOf (tlClear c code s) c with turned := none } (tlClear c code s)) := by
  unfold tlAck
  dsimp only
  rw [hturned]
  exact if_pos rfl

theorem tlClear_flags {s : State} {c : Nat} {m : TlMsg} (h : (chanOf s c).msg = some m) (code : Nat) :
    (tlClear c code s).tel.stale = s.tel.stale ∧ (tlClear c code s).tel.refused = s.tel.refused := by
  rw [tlClear_of_msg h]
  exact ⟨rfl, rfl⟩

/-- A message acknowledged without a reply, where no send of the cycle was turned away. -/
theorem tlAck_plain {s : State} {c : Nat} {m : TlMsg} (hq : tlQuiet s c = true) (hm : (chanOf s c).msg = some m) (code : Nat) :
    Acked (tlAck c code s) c code m ∧ (tlAck c code s).tel.stale = s.tel.stale ∧ (tlAck c code s).tel.refused = s.tel.refused := by
  refine ⟨acked_tlAck hq hm code, ?_⟩
  rw [tlAck_of_quiet hq]
  exact tlClear_flags hm code

/-- A message acknowledged where a send of the cycle was turned away: that send is taken. -/
theorem tlAck_taken {s : State} {c : Nat} {m : TlMsg} {w : BitVec 64} (hm : (chanOf s c).msg = some m) (hfree : (chanOf s c).replyFull = false)
    (hturned : (chanOf s c).turned = some (s.time.cycle, w)) (hw : SendFormed w) (hallowed : tlAllowed c (fld w 23 20) = true)
    (hactive : c < 64 → (tenantOf s c).st = .active) (code : Nat) : chanOf (tlAck c code s) c =
      { clearedChan (chanOf s c) code m.seq with turned := none, msg := some (tlMsgOf s c w) } := by
  have hclear := chanOf_tlClear hm code
  have hled := (tlClear_keeps c code s).led rfl
  have htime := (tlClear_keeps c code s).time rfl
  rw [tlAck_of_turned hturned]
  generalize tlClear c code s = u at *
  have hset : chanOf (setChan c { chanOf u c with turned := none } u) c = { clearedChan (chanOf s c) code m.seq with turned := none } := by
    rw [hclear]
    exact chanOf_setChan_of_ne (fun hn => Bool.false_ne_true (congrArg Teller.ackValid hn).symm) ..
  have hactive' : c < 64 → (tenantOf (setChan c { chanOf u c with turned := none } u) c).st = .active := fun hc => by
    rw [tenantOf_of_led (s := s) (t := setChan c _ u) hled]
    exact hactive hc
  have htaken := (chanOf_tlSend_taken hw (by rw [hset]; rfl) (by rw [hset]; exact hfree) hallowed hactive').1
  have hmsg : tlMsgOf (setChan c { chanOf u c with turned := none } u) c w = tlMsgOf s c w := by
    unfold tlMsgOf
    rw [hset, ← htime]
    rfl
  rw [htaken, hset, hmsg]

/-- A message acknowledged with a reply: the channel's buffer holds it. -/
theorem tlReply_cleared {s : State} {c : Nat} {m : TlMsg} (hm : (chanOf s c).msg = some m) (hfree : (chanOf s c).replyFull = false)
    (code : Nat) (r : TlReply) : Acked (tlReply c r (tlClear c code s)) c code m ∧
      (tlReply c r (tlClear c code s)).tel.stale = s.tel.stale ∧ (tlReply c r (tlClear c code s)).tel.refused = s.tel.refused ∧
      (chanOf (tlReply c r (tlClear c code s)) c).replyFull = true ∧ (chanOf (tlReply c r (tlClear c code s)) c).rply = some r := by
  have hclear := chanOf_tlClear hm code
  obtain ⟨hstale, hrefused⟩ := tlClear_flags hm code
  generalize tlClear c code s = u at *
  have hfree' : (chanOf u c).replyFull = false := by
    rw [hclear]
    exact hfree
  have hreply := chanOf_tlReply hfree' r
  rw [hclear] at hreply
  rw [tlReply_of_free hfree'] at hreply ⊢
  exact ⟨⟨by rw [hreply]; rfl, by rw [hreply]; rfl, by rw [hreply]; rfl, by rw [hreply]; rfl⟩, hstale, hrefused, by rw [hreply], by rw [hreply]⟩

/-- A message answered first and acknowledged then. -/
theorem tlClear_replied {s : State} {c : Nat} {m : TlMsg} (hm : (chanOf s c).msg = some m) (hfree : (chanOf s c).replyFull = false)
    (code : Nat) (r : TlReply) : Acked (tlClear c code (tlReply c r s)) c code m ∧ (chanOf (tlClear c code (tlReply c r s)) c).rply = some r := by
  have hreply := chanOf_tlReply hfree r
  have hclear := chanOf_tlClear (s := tlReply c r s) (c := c) (m := m) (by rw [hreply]; exact hm) code
  refine ⟨Acked.of_chan hclear, ?_⟩
  rw [hclear, hreply]
  rfl

/-! ## The dictionary service (R653) -/

/-- The reply of the dictionary to a message. -/
def dictReply (m : TlMsg) (bs : List Byte) : TlReply := { dest := 0, seq := m.seq, verb := m.verb, bytes := bs }

theorem exec_dictionaryService {s : State} {c : Nat} {m : TlMsg} (ha : answering s = true) (hold : tlOldest s 0 = some (c, m))
    (hc : c ≠ 67) : exec .dictionaryService s = .next (if m.verb ≠ 1 then tlAck c tlUnknown s else
      tlClear c tlAccept (tlReply c (dictReply m (serveRequest (chanPrin c) c m.bytes (accessOn c s)).1)
        (serveRequest (chanPrin c) c m.bytes (accessOn c s)).2)) := by
  show execDictionaryService s = _
  unfold execDictionaryService
  rw [ha, hold]
  dsimp only
  rw [if_neg hc]
  rfl

/-- A read request of R619, by its bytes. -/
def readRequest (index sub off len : Nat) : List Byte :=
  leBytes (1 + 256 * sub + 65536 * index) 4 ++ leBytes 0 4 ++ leBytes off 4 ++ leBytes len 4

theorem slice_append_right {as bs : List Byte} {i n : Nat} (h : as.length ≤ i) : slice (as ++ bs) i n = slice bs (i - as.length) n := by
  unfold slice
  refine List.map_congr_left fun j _ => ?_
  rw [List.getD_append_right _ _ _ _ (by omega)]
  congr 1
  omega

theorem slice_append_left {as bs : List Byte} {n : Nat} (h : as.length = n) : slice (as ++ bs) 0 n = as :=
  slice_of_take (by rw [← h, List.take_left]) h

theorem readRequest_field (a b c d : List Byte) (ha : a.length = 4) (hb : b.length = 4) (hc : c.length = 4) (hd : d.length = 4) :
    slice (a ++ b ++ c ++ d) 8 4 = c ∧ slice (a ++ b ++ c ++ d) 12 4 = d := by
  constructor
  · rw [List.append_assoc, slice_append_right (by simp [ha, hb]), List.length_append, ha, hb]
    exact slice_append_left hc
  · rw [slice_append_right (by simp [ha, hb, hc]), List.length_append, List.length_append, ha, hb, hc]
    exact (congrArg (slice · 0 4) (List.append_nil d).symm).trans (slice_append_left hd)

theorem serveRequest_read {index sub off len : Nat} (hsub : sub < 256) (hindex : index < 65536) (hoff : off < 2 ^ 32) (hlen : len < 2 ^ 32)
    (p : Prin) (c : Nat) (s : State) : serveRequest p c (readRequest index sub off len) s =
      (dictResponse (1 + 256 * sub + 65536 * index) (readNow p index sub off len s).1 (readNow p index sub off len s).2.1
        (readNow p index sub off len s).2.2, (objReadNoted p index sub off len s).2) := by
  have htake : (readRequest index sub off len).take 4 = leBytes (1 + 256 * sub + 65536 * index) 4 := rfl
  have hhead : leNat ((readRequest index sub off len).take 4) = 1 + 256 * sub + 65536 * index := by
    rw [htake, leNat_leBytes]
    exact Nat.mod_eq_of_lt (by omega)
  obtain ⟨h8, h12⟩ := readRequest_field (leBytes (1 + 256 * sub + 65536 * index) 4) (leBytes 0 4) (leBytes off 4) (leBytes len 4)
    rfl rfl rfl rfl
  have hoff' : leNat (slice (readRequest index sub off len) 8 4) = off := by
    rw [readRequest, h8, leNat_leBytes]
    exact Nat.mod_eq_of_lt hoff
  have hlen' : leNat (slice (readRequest index sub off len) 12 4) = len := by
    rw [readRequest, h12, leNat_leBytes]
    exact Nat.mod_eq_of_lt hlen
  have hop : (1 + 256 * sub + 65536 * index) % 16 = 1 := by omega
  have hres : (1 + 256 * sub + 65536 * index) / 16 % 16 = 0 := by omega
  have hsub' : (1 + 256 * sub + 65536 * index) / 256 % 256 = sub := by omega
  have hindex' : (1 + 256 * sub + 65536 * index) / 65536 = index := by omega
  unfold serveRequest
  dsimp only
  rw [hhead, hoff', hlen', hop, hres, hsub', hindex', if_neg (show ¬((readRequest index sub off len).length ≠ 16 + if 1 = 2 then len else 0) from not_not.2 rfl),
    if_neg (not_not.2 rfl), if_pos rfl]
  rfl

/-! ## Register writes (R637) -/

theorem exec_registerWrite_word {s : State} {off v : Nat} (hlive : live s = true) (hv : v < 2 ^ 32) (hmap : inMap off 4 = true)
    (hreg : regAccess off 4 = true) (hoff : off % 8 = 0) (hplace : off = 0x10000 ∨ off = 0x20000 ∨ off = 0x40000) :
    exec (.registerWrite .steward off (leBytes v 4)) s = .next (stewardReg off v (linkTally false 27 4 s)) := by
  have hval : leNat ((leBytes v 4).take 4) = v := by
    rw [List.take_of_length_le (le_of_eq (leBytes_length ..)), leNat_leBytes]
    exact Nat.mod_eq_of_lt hv
  have hshape : stewardShape true off 4 = true := by rw [stewardShape, hreg]; rfl
  have hwrite : stewardWrite off (leBytes v 4) (linkTally false 27 4 s) = stewardReg off v (linkTally false 27 4 s) := by
    refine (if_neg (by omega)).trans ((if_neg (by omega)).trans ((if_neg (by omega)).trans ((if_neg (by omega)).trans ((if_neg (by omega)).trans ?_))))
    rw [regValue, if_neg (by simp [hoff]), if_neg Bool.false_ne_true, hval]
  refine (if_neg (by simp [hlive])).trans ?_
  rw [leBytes_length, hmap, if_neg (by decide), if_pos hshape, hwrite]

theorem exec_registerWrite_three {s : State} {off : Nat} {data : List Byte} (hlive : live s = true) (hlen : data.length = 3)
    (hoff : off + 3 ≤ 0x40000) (w : Door) : exec (.registerWrite w off data) s = .next (if w = .steward then linkTally false 27 3 s else s) := by
  have hshape : ∀ b, stewardShape b off 3 = false := fun b => by simp [stewardShape, regAccess, burstAccess]
  have hview : ∀ b, viewShape b off 3 = false := fun b => by simp [viewShape, regAccess, burstAccess]
  have hreg : regAccess off 3 = false := rfl
  have hburst : burstAccess off 3 = false := rfl
  have hmap : inMap off 3 = true := decide_eq_true (.inl (by omega))
  refine (if_neg (by simp [hlive])).trans ?_
  rw [hlen]
  cases w with
  | steward => exact (if_neg (by rw [hmap]; decide)).trans (if_neg (by rw [hshape]; decide))
  | tenant t => exact if_neg (by rw [hview]; simp)
  | sequencer i => exact if_neg (by rw [hreg]; decide)
  | rack => exact if_neg (by rw [hreg, hburst]; simp)

/-! ## The obligation -/

/-- Settles O50: the channel takes, refuses, acknowledges or answers the message, and the register takes the write of its size. -/
theorem tellersCarryMessages : Obligations.TellersCarryMessages := by
  unfold Obligations.TellersCarryMessages
  refine ⟨fun s c v h63 h19 hlen hmsg hfree hallowed hactive => ?_, fun s c v h63 h19 hlen hbusy => ?_,
    fun s c v h63 h19 hlen hmsg hfree hdenied => ?_, fun s c v hinv hfull hv => ?_, fun s v m h63 h15 hcode hlen hm hfree hq => ?_,
    fun s v w m h63 h15 hcode hlen hm hseq hfree hturned hw63 hw19 hwlen hallowed hactive => ?_,
    fun s c m ha hold hmsg hq hverb hc => ?_, fun s c m index sub off len ha hold hmsg hfree hverb hc hbytes hsub hindex hoff hlen => ?_,
    fun s v hlive hv => ?_, fun s w off data hlive hlen hoff => ?_, fun s off data hlive hshut => ?_⟩
  · obtain ⟨hchan, hout⟩ := chanOf_tlSend_taken ⟨h63, h19, hlen⟩ hmsg hfree hallowed hactive
    exact ⟨_, rfl, hchan, hout⟩
  · refine ⟨_, congrArg Host.Outcome.next (tlSend_busy ⟨h63, h19, hlen⟩ hbusy), rfl, ?_⟩
    rw [chanOf_tlRecord, chanOf_turned hbusy]
    rfl
  · exact ⟨_, congrArg Host.Outcome.next (tlSend_denied ⟨h63, h19, hlen⟩ hmsg hfree hdenied), rfl, chanOf_tlRecord ..⟩
  · cases hwait : (chanOf s c.val).wait with
    | nil => exact ⟨_, congrArg Host.Outcome.next (tlDone_free hfull hv hwait), chanOf_setChan hinv.tel ..⟩
    | cons r rest => exact ⟨_, congrArg Host.Outcome.next (tlDone_next hfull hv hwait), chanOf_setChan hinv.tel ..⟩
  · have hf : AckFormed v := ⟨h63, h15, hcode, hlen⟩
    by_cases hseq : m.seq = fld v 31 16
    · by_cases h0 : fld v 12 0 = 0
      · obtain ⟨hack, hstale, hrefused⟩ := tlAck_plain (s := inbFlags false false s) (c := s.tel.inbSel) (hq h0) (inboxMsg_chan hm) (fld v 35 32)
        have hexec : exec (.inback v) s = .next _ := congrArg Host.Outcome.next (inbAck_plain hf hm hseq h0)
        generalize tlAck s.tel.inbSel (fld v 35 32) (inbFlags false false s) = u at *
        exact ⟨_, hexec, fun hn => absurd hseq hn, fun _ => ⟨hack, hstale, hrefused, fun hn => absurd h0 hn⟩⟩
      · have hexec : exec (.inback v) s = .next _ := congrArg Host.Outcome.next (inbAck_reply hf hm hseq h0)
        obtain ⟨hack, hstale, hrefused, hfull, hrply⟩ := tlReply_cleared (s := inbFlags false false s) (c := s.tel.inbSel)
          (inboxMsg_chan hm) hfree (fld v 35 32) (inbReplyOf s m (fld v 12 0))
        generalize tlReply s.tel.inbSel _ (tlClear s.tel.inbSel (fld v 35 32) (inbFlags false false s)) = u at *
        exact ⟨_, hexec, fun hn => absurd hseq hn, fun _ => ⟨hack, hstale, hrefused, fun _ => ⟨hfull, hrply⟩⟩⟩
    · exact ⟨_, congrArg Host.Outcome.next (inbAck_stale hf hm hseq), fun _ => rfl, fun hn => absurd hn hseq⟩
  · have hexec : exec (.inback v) s = .next _ :=
      congrArg Host.Outcome.next (inbAck_plain ⟨h63, h15, hcode, by rw [hlen]; exact Nat.zero_le _⟩ hm hseq hlen)
    have hchan := tlAck_taken (s := inbFlags false false s) (c := s.tel.inbSel) (inboxMsg_chan hm) hfree hturned ⟨hw63, hw19, hwlen⟩ hallowed
      hactive (fld v 35 32)
    generalize tlAck s.tel.inbSel (fld v 35 32) (inbFlags false false s) = u at *
    exact ⟨_, hexec, by rw [hchan]; rfl, by rw [hchan]; rfl, by rw [hchan]; rfl⟩
  · refine ⟨_, (exec_dictionaryService ha hold hc).trans (congrArg _ (if_pos hverb)), acked_tlAck hq hmsg _, (tlAck_keeps ..).dict rfl⟩
  · have hreq := serveRequest_read hsub hindex hoff hlen (chanPrin c) c (accessOn c s)
    have hexec := (exec_dictionaryService ha hold hc).trans (congrArg Host.Outcome.next (if_neg (not_not.2 hverb)))
    rw [hbytes, show leBytes _ 4 ++ leBytes 0 4 ++ leBytes off 4 ++ leBytes len 4 = readRequest index sub off len from rfl, hreq] at hexec
    have htel : (objReadNoted (chanPrin c) index sub off len (accessOn c s)).2.tel = s.tel :=
      ((objReadNoted_keeps (chanPrin c) index sub off len (accessOn c s)).tel rfl).trans ((accessOn_keeps c s).tel rfl)
    have hchan := chanOf_of_tel htel c
    dsimp only at hexec
    generalize (objReadNoted (chanPrin c) index sub off len (accessOn c s)).2 = u at *
    obtain ⟨hack, hrply⟩ := tlClear_replied (s := u) (c := c) (m := m) (by rw [hchan]; exact hmsg) (by rw [hchan]; exact hfree) tlAccept
      (dictReply m (dictResponse (1 + 256 * sub + 65536 * index) (readNow (chanPrin c) index sub off len (accessOn c s)).1
        (readNow (chanPrin c) index sub off len (accessOn c s)).2.1 (readNow (chanPrin c) index sub off len (accessOn c s)).2.2))
    refine ⟨_, hexec, hack, hrply.trans ?_⟩
    rw [dictReply, hverb]
  · have hwin := (linkTally_keeps false 27 4 s).win rfl
    exact ⟨_, _, _, exec_registerWrite_word hlive hv rfl rfl rfl (.inr (.inl rfl)),
      congrArg (fun x : Windows => { x with coreSel := v % 32 }) hwin,
      exec_registerWrite_word hlive hv rfl rfl rfl (.inr (.inr rfl)), congrArg (fun x : Windows => { x with pierSel := v % 16 }) hwin,
      exec_registerWrite_word hlive hv rfl rfl rfl (.inl rfl), congrArg (fun x : Windows => { x with ctxSel := v % 4096 }) hwin⟩
  · exact exec_registerWrite_three hlive hlen hoff w
  · exact (if_neg (by simp [hlive])).trans (if_neg fun h => hshut h.1)

end Sys2Proof.Machine
end

section
/-! PROOFS. The span map, the parts of a striped descriptor at a member and at the entry device, and the successor's takeover
(R576 to R588). -/

namespace Sys2Proof.Machine

/-! ## The span map (R576, R577) -/

theorem objDom_keptCount (k l i j : Nat) (b : Bool) (s : State) : objDom (keptCount k l b s) i j = objDom s i j := by
  unfold keptCount
  split <;> rfl

/-- Bytes that wait are not in force yet (R617). -/
theorem objDom_waitDom (i j k l : Nat) (bs : List Byte) (s : State) : objDom (waitDom i j bs s) k l = objDom s k l :=
  objDom_keptCount ..

theorem writeMap_accepted {rec : List Byte} (hok : mapOk rec = true) (hlen : rec.length = 1808) (s : State) :
    writeMap rec s = (0, waitDom 0x8000 1 rec s) := by
  simp [writeMap, hok, hlen]

theorem writeMap_refused {rec : List Byte} (h : mapOk rec = false ∨ rec.length ≠ 1808) (s : State) :
    ∃ code, code ≠ 0 ∧ writeMap rec s = (code, s) := by
  by_cases hlen : rec.length = 1808
  · exact ⟨abValue, by decide, by simp [writeMap, hlen, h.resolve_right (absurd hlen)]⟩
  · exact ⟨abLength, by decide, if_pos hlen⟩

/-! ## A member's part (R584, R585) -/

theorem takeFrame_kv {s t : State} (h : t.kv = s.kv) (n : Nat) (q : Nat × Nat) : (takeFrame n t q).kv = (takeFrame n s q).kv := by
  cases s
  cases t
  subst h
  unfold takeFrame
  dsimp only
  split <;> rfl

theorem foldl_takeFrame_kv {s t : State} (h : t.kv = s.kv) (n : Nat) (qs : List (Nat × Nat)) :
    (qs.foldl (takeFrame n) t).kv = (qs.foldl (takeFrame n) s).kv := by
  induction qs generalizing s t with
  | nil => exact h
  | cons q qs ih => exact ih (takeFrame_kv h n q)

theorem giveBack_kv_of_kv {s t : State} (h : t.kv = s.kv) (a n : Nat) : (giveBack a n t).kv = (giveBack a n s).kv := by
  unfold giveBack State.setKv
  dsimp only
  rw [h]

theorem givePrep_kv_of_kv {s t : State} (h : t.kv = s.kv) (f : Flight) : (givePrep f t).kv = (givePrep f s).kv := by
  unfold givePrep
  induction f.prep generalizing s t with
  | nil => exact h
  | cons q qs ih => exact ih (giveBack_kv_of_kv h ..)

/-- A report goes out on every link toward the entry device. -/
theorem memberReport_out (f : Flight) (code detail r1 r2 : Nat) (s : State) :
    (memberReport f code detail r1 r2 s).out = s.out ++ (routesTo s (f.qp - 1024)).map fun l => Out.span l 4 f.seq
      (leBytes code 1 ++ leBytes detail 1 ++ leBytes r1 4 ++ leBytes r2 4 ++ leBytes f.rounds 1) := by
  unfold memberReport
  generalize leBytes code 1 ++ leBytes detail 1 ++ leBytes r1 4 ++ leBytes r2 4 ++ leBytes f.rounds 1 = bs
  generalize routesTo s (f.qp - 1024) = ls
  induction ls generalizing s with
  | nil => exact (List.append_nil _).symm
  | cons l ls ih => exact (ih _).trans (List.append_assoc ..)

theorem runPart_twoPhase {f : Flight} (h : twoPhase f.desc = true) {u : State} (hcode : (memEff f.desc f.input u).code = 0) :
    runPart f u = memberReport { f with prep := slabGrown u (memEff f.desc f.input u).s } 0 0 (memEff f.desc f.input u).r1
      (memEff f.desc f.input u).r2 (setFlight { f with prep := slabGrown u (memEff f.desc f.input u).s }
        ((slabGrown u (memEff f.desc f.input u).s).foldl (takeFrame f.tenant) u)) := by
  have hop : dOpcode f.desc = 2 ∨ dOpcode f.desc = 3 ∨ dOpcode f.desc = 4 := by
    simpa [twoPhase, or_assoc] using h
  unfold runPart
  have hprep : preparePart f (memEff f.desc f.input u) u = ({ f with prep := slabGrown u (memEff f.desc f.input u).s },
      (slabGrown u (memEff f.desc f.input u).s).foldl (takeFrame f.tenant) u) := if_neg (not_not_intro hcode)
  rcases hop with hop | hop | hop <;> simp only [hop, hcode, if_true, hprep]

/-- The part of an entry device stands among the flights of the member. -/
def partTaken (f : Flight) (s : State) : State :=
  { s with attn := { s.attn with flights := s.attn.flights ++ [f], nextId := s.attn.nextId + 1 } }

theorem exec_stripedPart {s : State} {port : Fin 13} {desc : Desc} {home : Fin 16} {d len : Nat} {input : List Byte} {f : Flight}
    (hspan : 8 ≤ port.val) (hvia : port.val ≠ 12) (hup : linkUp s port.val = true) (hsunk : sunk s = false)
    (hhome : home.val ≠ ownIndex s) (htwo : twoPhase desc = true) (hf : f = partFlight s home.val d len desc input)
    (hgone : partGone (partTaken f s) f = none) :
    exec (.stripedPart port desc home d len input) s = .next (runPart f (partTaken f s)) := by
  have hop : opKnown (dOpcode desc) = true := by
    have : dOpcode desc = 2 ∨ dOpcode desc = 3 ∨ dOpcode desc = 4 := by simpa [twoPhase, or_assoc] using htwo
    rcases this with h | h | h <;> rw [h] <;> rfl
  subst hf
  refine (if_neg ?_).trans ?_
  · simp only [hup, hsunk, hop, Bool.not_true, Bool.false_eq_true, false_or, or_false, not_or]
    exact ⟨Nat.not_lt.2 hspan, hvia, hhome⟩
  · change (match partGone (partTaken _ s) _ with | some (c, dt) => _ | none => _) = _
    rw [hgone]
    rfl

/-- A flight that is replaced, where no other has its number, changes no other. -/
theorem map_replaced_append {l : List Flight} {f g : Flight} (hid : g.id = f.id) (h : ∀ x ∈ l, x.id ≠ f.id) :
    ((l ++ [f]).map fun x => if x.id = g.id then g else x) = l ++ [g] := by
  rw [List.map_append, hid]
  congr 1
  · exact List.map_congr_left (fun x hx => if_neg (h x hx)) |>.trans (List.map_id' l)
  · simp

/-- The two-phase kind is prepared and reports; memory stays (R585). -/
theorem stripedPart_prepares {s u : State} {home d len : Nat} {desc : Desc} {input : List Byte} {f : Flight}
    (htwo : twoPhase desc = true) (hf : f = partFlight s home d len desc input) (hu : u = partTaken f s)
    (hcode : (memEff desc input u).code = 0) (hfresh : ∀ g ∈ s.attn.flights, g.id ≠ s.attn.nextId) {t : State} (ht : t = runPart f u) :
    t.mem = s.mem ∧ t.attn.flights = s.attn.flights ++ [{ f with prep := slabGrown u (memEff desc input u).s }] ∧
      t.kv = ((slabGrown u (memEff desc input u).s).foldl (takeFrame f.tenant) s).kv ∧
      t.out = s.out ++ (routesTo s home).map fun l => Out.span l 4 d
        (leBytes 0 1 ++ leBytes 0 1 ++ leBytes (memEff desc input u).r1 4 ++ leBytes (memEff desc input u).r2 4 ++ leBytes 0 1) := by
  have hdesc : f.desc = desc := by rw [hf]; rfl
  have hinput : f.input = input := by rw [hf]; rfl
  have hqp : f.qp - 1024 = home := by rw [hf]; exact Nat.add_sub_cancel_left ..
  have hseq : f.seq = d := by rw [hf]; rfl
  have hrounds : f.rounds = 0 := by rw [hf]; rfl
  have hid : f.id = s.attn.nextId := by rw [hf]; rfl
  have heff : memEff desc input u = memEff f.desc f.input u := by rw [hdesc, hinput]
  rw [heff] at hcode ⊢
  have hrun := runPart_twoPhase (f := f) (u := u) (by rw [hdesc]; exact htwo) hcode
  clear heff
  generalize memEff f.desc f.input u = e at *
  generalize slabGrown u e.s = qs at *
  have hfold : Keeps 0x800 u (qs.foldl (takeFrame f.tenant) u) :=
    Keeps.foldl (.refl _ _) fun _ _ h => (takeFrame_keeps ..).step h
  have hset := setFlight_keeps { f with prep := qs } (qs.foldl (takeFrame f.tenant) u)
  have hrep := memberReport_keeps { f with prep := qs } 0 0 e.r1 e.r2 (setFlight { f with prep := qs } (qs.foldl (takeFrame f.tenant) u))
  have hout := memberReport_out { f with prep := qs } 0 0 e.r1 e.r2 (setFlight { f with prep := qs } (qs.foldl (takeFrame f.tenant) u))
  rw [← hrun, ← ht] at hrep hout
  refine ⟨?_, ?_, ?_, ?_⟩
  · rw [hrep.mem rfl, hset.mem rfl, hfold.mem rfl, hu]
    rfl
  · rw [hrep.attn rfl]
    refine (congrArg (List.map _) (congrArg Attn.flights (hfold.attn rfl))).trans ?_
    rw [hu]
    exact map_replaced_append rfl fun x hx => by rw [hid]; exact hfresh x hx
  · rw [hrep.kv rfl, hset.kv rfl]
    exact foldl_takeFrame_kv (by rw [hu]; rfl) ..
  · have hroutes : routesTo (setFlight { f with prep := qs } (qs.foldl (takeFrame f.tenant) u)) home = routesTo s home := by
      have hdict : (setFlight { f with prep := qs } (qs.foldl (takeFrame f.tenant) u)).dict = s.dict := by
        rw [hset.dict rfl, hfold.dict rfl, hu]; rfl
      have hlinks : (setFlight { f with prep := qs } (qs.foldl (takeFrame f.tenant) u)).links = s.links := by
        rw [hset.links rfl, hfold.links rfl, hu]; rfl
      simp only [routesTo, objDom_of_dict hdict, linkUp_of_links hlinks]
    rw [hout, hset.out rfl, hfold.out rfl, hqp, hroutes, hseq, hrounds, hu]
    rfl

end Sys2Proof.Machine
end

section
/-! PROOFS. The reports of a striped descriptor's members, its commit and its abort, the partials of a span and the successor's
takeover (R581 to R588). -/

namespace Sys2Proof.Machine

/-! ## Reports at the entry device (R586) -/

/-- A member of the two-phase kind has reported its code and its second result. -/
def Flight.reported (f : Flight) (i : Nat) (code detail r2 : Nat) : Flight :=
  { f with members := f.members.erase i, codes := f.codes ++ [(code, detail)], r2 := f.r2 + r2 }

theorem twoPhase_opcode {d : Desc} (h : twoPhase d = true) : dOpcode d = 2 ∨ dOpcode d = 3 ∨ dOpcode d = 4 := by
  simpa [twoPhase, or_assoc] using h

theorem exec_memberReport {s : State} {d : Nat} {i : Fin 16} {code detail : BitVec 8} {r1 r2 rounds : Nat} {f : Flight}
    (hf : flightOf s d = some f) (hqp : f.qp < 1024) (hi : f.members.contains i.val = true) (htwo : twoPhase f.desc = true) :
    exec (.memberReport d i code detail r1 r2 rounds) s =
      .next (finishStriped d (setFlight (f.reported i.val code.toNat detail.toNat r2) s)) := by
  have h1 : dOpcode f.desc ≠ 1 := by rcases twoPhase_opcode htwo with h | h | h <;> rw [h] <;> decide
  have h9 : dOpcode f.desc ≠ 9 := by rcases twoPhase_opcode htwo with h | h | h <;> rw [h] <;> decide
  show execMemberReport d i code detail r1 r2 rounds s = _
  unfold execMemberReport
  rw [hf]
  have hstay : ¬ (1024 ≤ f.qp ∨ (!f.members.contains i.val) = true) := by
    rw [hi]
    simpa using hqp
  dsimp only
  rw [if_neg hstay]
  simp only [h1, h9, htwo, if_true, if_false, or_self]
  rfl

/-- Nothing more happens while another member's report is due. -/
theorem finishStriped_waits {s : State} {d : Nat} {f : Flight} (hf : flightOf s d = some f) (h : f.members ≠ []) :
    finishStriped d s = s := by
  unfold finishStriped
  rw [hf]
  exact if_pos (by simpa using h)

/-! ## Commit and abort at a member (R585) -/

theorem exec_stripeCommit {s : State} {port : Fin 13} {d : Nat} {f : Flight} (hf : partOf s port.val d = some f)
    (htwo : twoPhase f.desc = true) {u : State} (hu : u = if (applyPart f s).code = 0 then (applyPart f s).s else givePrep f s) :
    exec (.stripeCommit port d) s =
      .next (u.setAttn fun a => { a with flights := a.flights.filter fun g => g.id != f.id }) := by
  show execStripeCommit port d s = _
  unfold execStripeCommit
  rw [hf, hu]
  exact if_neg (by rw [htwo]; exact Bool.false_ne_true)

theorem flight_left {s : State} {id : Nat} {g : Flight}
    (hg : g ∈ (s.setAttn fun a => { a with flights := a.flights.filter fun h => h.id != id }).attn.flights) : g.id ≠ id := by
  simpa using (List.mem_filter.1 hg).2

/-- What a part has prepared is released, its work stops, and its fault records leave. -/
def partStopped (f : Flight) (s : State) : State := givePrep f (faultDrop f.id (cancelWork f.id s))

theorem partStopped_kv (f : Flight) (s : State) : (partStopped f s).kv = (givePrep f s).kv :=
  givePrep_kv_of_kv (((faultDrop_keeps ..).kv rfl).trans ((cancelWork_keeps ..).kv rfl)) f

theorem partStopped_mem (f : Flight) (s : State) : (partStopped f s).mem = s.mem :=
  ((givePrep_keeps ..).mem rfl).trans (((faultDrop_keeps ..).mem rfl).trans ((cancelWork_keeps ..).mem rfl))

theorem partStopped_queue {f : Flight} {s : State} {c : Nat × Core} (hc : c ∈ (partStopped f s).attn.cores) {w : Work}
    (hw : w ∈ c.2.queue) : w.desc ≠ f.id := by
  have hattn : (partStopped f s).attn = (cancelWork f.id s).attn := ((givePrep_keeps ..).attn rfl).trans ((faultDrop_keeps ..).attn rfl)
  rw [hattn] at hc
  obtain ⟨x, -, rfl⟩ := List.mem_map.1 hc
  simpa using (List.mem_filter.1 hw).2

theorem exec_stripeAbort {s : State} {port : Fin 13} {d : Nat} {f : Flight} (hf : partOf s port.val d = some f) :
    exec (.stripeAbort port d) s = .next (swapAll (if twoPhase f.desc
      then (partStopped f s).setAttn fun a => { a with flights := a.flights.filter fun g => g.id != f.id }
      else complete f.id 0 0 0 0 (partStopped f s))) := by
  show execStripeAbort port d s = _
  unfold execStripeAbort
  rw [hf]
  rfl

/-! ## Partials and the successor (R581, R588) -/

theorem exec_spanPartial {s : State} {port : Fin 13} {d : Nat} {rows : List (Option Dy × Dy × Option Dy × List Dy)} {f : Flight}
    {k n : Nat} (hf : flightOf s d = some f)
    (hdue : (f.due.find? fun p => decide (16 ≤ p.1) && (routesTo s (p.1 - 16)).contains port.val) = some (k, n))
    (hrows : rows.length = rowsAll f.desc (ctxOf s (dCtx f.desc))) :
    exec (.spanPartial port d rows) s = .next (setFlight { f with
      parts := f.parts ++ [((ctxOf s (dCtx f.desc)).home, rows.map landedRow)]
      due := tput 0 (tput 0 f.due k 0) (ctxOf s (dCtx f.desc)).home (tget 0 f.due (ctxOf s (dCtx f.desc)).home + 1) } s) := by
  show execSpanPartial port d rows s = _
  unfold execSpanPartial
  rw [hf]
  dsimp only
  rw [hdue]
  exact if_neg (not_not_intro hrows)

theorem exec_successorTakeover {s : State} (hst : s.clk.st = .coast) (hint : obj s 0x8000 4 ≤ s.clk.internal)
    (hsrc : stepSource s = 0) (htwin : s.span.twin ≠ .follow) (hmap : objDom s 0x8000 1 ≠ []) (hown : mapSuccessor s = ownIndex s) :
    exec .successorTakeover s =
      .next (setObj 0x2100 1 1 { s with clk := { s.clk with takeover := true, predicting := false } }) :=
  if_pos ⟨hst, hint, hsrc, htwin, by simpa using hmap, hown⟩

end Sys2Proof.Machine
end

section
/-! PROOFS. A twin pair's log, keepalives and silence (R593, R602, R603). -/

namespace Sys2Proof.Machine

/-! ## Alarms (R601) -/

theorem obj_emcyRaise_ne {i j : Nat} (h : okey 0x1022 3 ≠ okey i j) (cls index sub value : Nat) (s : State) :
    obj (emcyRaise cls index sub value s) i j = obj s i j := by
  unfold emcyRaise
  extract_lets e
  split
  · have hdict : (emcySend e s).dict = s.dict := by
      unfold emcySend
      extract_lets u
      split <;> rfl
    exact obj_of_dict hdict ..
  · split
    · rfl
    · exact obj_setObj_ne h ..

theorem obj_alarm_ne {i j : Nat} (h : okey 0x1022 3 ≠ okey i j) (h' : okey 0x8200 0x0A ≠ okey i j) (n : Nat) (s : State) :
    obj (alarm n s) i j = obj s i j := by
  have htel : (alarm n s).dict = (emcyRaise 1 0x8200 0x0A n (setObj 0x8200 0x0A n s)).dict := (telemetry_keeps ..).dict rfl
  rw [obj_of_dict htel, obj_emcyRaise_ne h, obj_setObj_ne h']

theorem alarmed (n : Nat) (s : State) : Alarmed n s (alarm n s) := by
  have htel : (alarm n s).dict = (emcyRaise 1 0x8200 0x0A n (setObj 0x8200 0x0A n s)).dict := (telemetry_keeps ..).dict rfl
  have htal : (emcyRaise 1 0x8200 0x0A n (setObj 0x8200 0x0A n s)).tal = s.tal := (emcyRaise_keeps ..).tal rfl
  constructor
  · rw [obj_of_dict htel, obj_emcyRaise_ne (by decide), obj_setObj_same]
  · refine (telemetry_told ..).eventCount.trans ?_
    rw [htal]

/-- An alarm is told of a state that has counted the same events. -/
theorem alarmed_of_tal {s u : State} (h : u.tal.eventCount = s.tal.eventCount) (n : Nat) : Alarmed n s (alarm n u) := by
  obtain ⟨hobj, hcount⟩ := alarmed n u
  exact ⟨hobj, by rw [hcount, h]⟩

theorem alarm_span (n : Nat) (s : State) : (alarm n s).span = s.span := (alarm_keeps ..).span rfl

/-! ## The log (R593) -/

/-- A record of the log stands in the pair's digest, and the viaduct is heard. -/
def logHeard (rec : List Byte) (s : State) : State :=
  { s with span := { s.span with
      logged := s.span.logged + 1, logDigest := Config.sha384 (leBytes s.span.logDigest.toNat 48 ++ rec), heardVia := s.time.cycle
      viaSilent := false } }

/-- The line of a log record is stored, and its directory entry taken. -/
def logApplied (line : Nat) (entry : BitVec 64) (data : List Byte) (s : State) : State :=
  let u := if data.length = 64 then memStore (line * 64) (2 ^ 64 - 1) data false s else s
  setDir line (logEntryDir u entry) u

/-- The held request that a log record shows as served. -/
def logServed (src tag line : Nat) (s : State) : Option Req :=
  s.coh.reqs.find? fun r => r.stage == .held && r.src == src && (r.tag == tag || (r.cls == .wb && (heldLines s r).contains line))

/-- The request that a log record shows as served is discarded. -/
def dropServed (o : Option Req) (u : State) : State :=
  match o with
  | some r => dropReq r.id u
  | none => u

theorem exec_twinLogRecord {s : State} {src tag line : Nat} {entry : BitVec 64} {data : List Byte}
    (hpair : paired s = true ∨ s.span.twin = .syncing) (hhome : homeActive s = false) (hup : linkUp s 12 = true) {u : State}
    (hu : u = logApplied line entry data (logHeard (leBytes src 1 ++ leBytes tag 2 ++ leBytes line 8 ++ leBytes entry.toNat 8 ++ data) s)) :
    exec (.twinLogRecord src tag line entry data) s = .next (dropServed (logServed src tag line u) u) := by
  have hgo : ¬ ((!(paired s || s.span.twin == .syncing)) = true ∨ homeActive s = true ∨ (!linkUp s 12) = true) := by
    rw [hhome, hup]
    rcases hpair with h | h <;> rw [h] <;> simp
  refine (if_neg hgo).trans ?_
  have hmatch : ∀ o : Option Req, (match o with | some r => .next (dropReq r.id u) | none => .next u : Res) = .next (dropServed o u)
    | some _ => rfl
    | none => rfl
  rw [← hmatch, hu]
  rfl

theorem logApplied_keeps (line : Nat) (entry : BitVec 64) (data : List Byte) (s : State) :
    Keeps 0x1008380 s (logApplied line entry data s) :=
  (setDir_keeps ..).step (Keeps.ite (memStore_keeps ..).mono (.refl ..))

theorem logApplied_reqs (line : Nat) (entry : BitVec 64) (data : List Byte) (s : State) :
    (logApplied line entry data s).coh.reqs = s.coh.reqs := by
  unfold logApplied
  extract_lets u
  have hu : u.coh = s.coh := by
    unfold u
    split
    · exact (memStore_keeps ..).coh rfl
    · rfl
  exact hu ▸ rfl

/-- The directory has the entry of the record at its line, and the others as they were. -/
theorem dirOf_logApplied {s : State} (hs : Tbl.Rising s.coh.dir) (line : Nat) (entry : BitVec 64) (data : List Byte) (l : Nat) :
    dirOf (logApplied line entry data s) l =
      if l = line then (if fld entry 28 26 = 0 then dirI else logEntryDir s entry) else dirOf s l := by
  unfold logApplied
  extract_lets u
  have hu : Keeps 0x1000380 s u := Keeps.ite (memStore_keeps ..) (.refl ..)
  have hcoh : u.coh = s.coh := hu.coh rfl
  have hrising : Tbl.Rising u.coh.dir := by rw [hcoh]; exact hs
  have hentry : logEntryDir u entry = logEntryDir s entry := by simp only [logEntryDir, hu.time rfl]
  rw [hentry]
  split
  · next hl =>
    rw [hl, dirOf_setDir hrising]
    rfl
  · next hl => rw [dirOf_setDir_ne hrising hl, dirOf_of_coh (congrArg Coh.dir hcoh)]

theorem logApplied_mem (line : Nat) (entry : BitVec 64) {data : List Byte} (h : data.length ≠ 64) (s : State) :
    (logApplied line entry data s).mem = s.mem := by
  unfold logApplied
  rw [if_neg h]
  exact (setDir_keeps ..).mem rfl

theorem logApplied_bytes (line : Nat) (entry : BitVec 64) {data : List Byte} (h : data.length = 64) (s : State) :
    (logApplied line entry data s).mem.bytes = mwriteMask s.mem.bytes (line * 64) (2 ^ 64 - 1) data := by
  unfold logApplied
  rw [if_pos h]
  exact (congrArg Mem.bytes ((setDir_keeps ..).mem rfl)).trans (memStore_bytes ..)

theorem logServed_none {s : State} (h : ∀ r ∈ s.coh.reqs, r.stage ≠ .held) (src tag line : Nat) : logServed src tag line s = none :=
  List.find?_eq_none.2 fun r hr hc => h r hr (by
    simp only [Bool.and_eq_true, beq_iff_eq] at hc
    exact hc.1.1)

theorem logServed_one {s : State} {r : Req} (h : s.coh.reqs = [r]) (hheld : r.stage = .held) (line : Nat) :
    logServed r.src r.tag line s = some r := by
  unfold logServed
  rw [h]
  exact List.find?_cons_of_pos (by simp [hheld])

/-- What a log record leaves, but for the request that it shows as served. -/
theorem dropServed_keeps (o : Option Req) (u : State) : Keeps 0xA000 u (dropServed o u) := by
  cases o with
  | none => exact .refl ..
  | some r => exact dropReq_keeps ..

theorem dropServed_dir (o : Option Req) (u : State) : (dropServed o u).coh.dir = u.coh.dir := by
  cases o with
  | none => rfl
  | some r =>
    have hcoh := dropReq_coh r.id u
    exact (congrArg Coh.dir hcoh).trans rfl

end Sys2Proof.Machine
end

section
/-! PROOFS. Keepalives and the silence of the paths between two twins (R602, R603). -/

namespace Sys2Proof.Machine

/-! ## Keepalives -/

/-- A keepalive goes out on the viaduct while it is up. -/
def keptAlive (u : State) : State := if linkUp u 12 then emit (.span 12 0 0 []) u else u

theorem exec_twinKeepalive {s u : State} (htalk : twinTalks s = true) (hguard : guardLink s = none)
    (hu : u = carryTo (s.span.sentAt + usCycles (obj s 0x8100 3)) s) :
    exec .twinKeepalive s = .next (keptAlive (u.setSpan fun p => { p with sentAt := u.time.cycle })) := by
  have hkeep : Keeps 0x91 s u := by rw [hu]; exact carryTo_keeps ..
  have hdict : (keptAlive (u.setSpan fun p => { p with sentAt := u.time.cycle })).dict = s.dict := by
    have : (keptAlive (u.setSpan fun p => { p with sentAt := u.time.cycle })).dict = u.dict := by
      unfold keptAlive
      split <;> rfl
    rw [this, hkeep.dict rfl]
  have hnone : guardLink (keptAlive (u.setSpan fun p => { p with sentAt := u.time.cycle })) = none := by
    rw [← hguard]
    simp only [guardLink, obj_of_dict hdict]
  refine (if_neg (by rw [htalk]; exact Bool.false_ne_true)).trans ?_
  change Host.Outcome.next (match guardLink (keptAlive _) with | some l => _ | none => keptAlive _) = _
  rw [← hu, hnone]

/-! ## Silence -/

/-- The paths on which nothing has been heard for 8100:04 are marked silent in `u`, where `v` is `s` at a later time. -/
theorem noteSilence_span {s v : State} (hdict : v.dict = s.dict) (hspan : v.span = s.span) {n : Nat} (hn : usCycles (obj s 0x8100 4) = n) :
    (noteSilence v).span = { s.span with
      viaSilent := s.span.viaSilent || decide (s.span.heardVia + n ≤ v.time.cycle)
      guardSilent := s.span.guardSilent || decide (s.span.heardGuard + n ≤ v.time.cycle) } := by
  rw [← hn, ← hspan, ← obj_of_dict hdict]
  rfl

theorem guardLink_of_dict {s t : State} (h : t.dict = s.dict) : guardLink t = guardLink s := by
  simp only [guardLink, obj_of_dict h]

theorem guardGone_noteSilence {s v : State} (hdict : v.dict = s.dict) (hspan : v.span = s.span) (hlinks : v.links = s.links) {n : Nat}
    (hn : usCycles (obj s 0x8100 4) = n) :
    guardGone (noteSilence v) = (guardGone s || decide (s.span.heardGuard + n ≤ v.time.cycle)) := by
  unfold guardGone
  rw [noteSilence_span hdict hspan hn, guardLink_of_dict (t := noteSilence v) hdict]
  have hup : ∀ l, linkUp (noteSilence v) l = linkUp s l := fun l => linkUp_of_links hlinks l
  simp only [hup, Bool.or_assoc, Bool.or_comm (decide _)]

theorem viaGone_noteSilence {s v : State} (hdict : v.dict = s.dict) (hspan : v.span = s.span) (hlinks : v.links = s.links) {n : Nat}
    (hn : usCycles (obj s 0x8100 4) = n) :
    viaGone (noteSilence v) = (viaGone s || decide (s.span.heardVia + n ≤ v.time.cycle)) := by
  unfold viaGone
  rw [noteSilence_span hdict hspan hn, linkUp_of_links (t := noteSilence v) hlinks]
  simp only [Bool.or_assoc, Bool.or_comm (decide _)]

/-- When the silence of a path is due. -/
def silenceAt (viaduct : Bool) (s : State) : Nat :=
  (if viaduct then s.span.heardVia else s.span.heardGuard) + usCycles (obj s 0x8100 4)

/-- The path has not gone down. -/
def pathUp (viaduct : Bool) (s : State) : Bool := if viaduct then linkUp s 12 else (guardLink s).any (linkUp s)

theorem exec_pathSilence {s u : State} {viaduct : Bool} (hpair : paired s = true)
    (hquiet : ¬ (pathUp viaduct s = true ∧ arrivalWins (silenceAt viaduct s) (bringsRecord viaduct) s = true))
    (hu : u = noteSilence (if pathUp viaduct s then carryTo (silenceAt viaduct s) s else s)) :
    exec (.pathSilence viaduct) s =
      if viaGone u ∧ guardGone u then .next (goSole (if u.span.twin = .follow then 3 else 4) u)
      else if viaduct then .next (if u.span.twin = .follow then stopTwin .detached 5 u else alarm 5 u)
      else .next u := by
  subst hu
  exact (if_neg (by rw [hpair]; exact Bool.false_ne_true)).trans (if_neg hquiet)

/-! ## The partner is lost (R603) -/

theorem relaysDone_of_none {s : State} (h : s.coh.reqs = []) : relaysDone s = s := by
  unfold relaysDone
  rw [h]
  rfl

/-- A lead that answers no request goes on alone. -/
theorem goSole_lead {s : State} (htwin : s.span.twin = .lead) (hreqs : s.coh.reqs = []) (why : Nat) :
    goSole why s = alarm why { s with span := { s.span with
      twin := .sole, swapped := false, handover := none, proving := none, logBytes := 0, disagree := false, own := none, other := none
      mirror := [], accepted := [] } } := by
  unfold goSole
  extract_lets follow u v w
  have hfollow : follow = false := by unfold follow; rw [htwin]; rfl
  have hw : w = v := if_neg (by rw [hfollow]; exact Bool.false_ne_true)
  rw [hw]
  unfold v u
  rw [relaysDone_of_none hreqs]
  rfl

end Sys2Proof.Machine
end

section
/-! PROOFS. Step records, self-checks and the action on a disagreement (R595 to R601). -/

namespace Sys2Proof.Machine

/-! ## Step records (R595 to R599) -/

/-- A step record has arrived on the viaduct. -/
def recordHeard (s : State) : State :=
  s.setSpan fun p => { p with heardVia := s.time.cycle, viaSilent := false, recordIn := true }

/-- What a step record without buckets brings: a self-check's result, and the lead's commands. -/
def recordTaken (check : Option Bool) (cmds : List (Nat × Nat × List Byte)) (s : State) : State :=
  (recordHeard s).setSpan fun p => { p with
    other := if check.isSome then check else p.other
    mirror := if p.twin = .follow then p.mirror ++ cmds.map fun c => (1, mirrorOf c) else p.mirror }

theorem compareBuckets_of_none {s : State} (h : s.span.partner = []) : compareBuckets s = s := by
  have hks : (s.span.closed.filter fun p => s.span.partner.any fun q => q.1 == p.1) = [] := by
    rw [h]
    exact List.filter_eq_nil_iff.2 fun _ _ => Bool.false_ne_true
  unfold compareBuckets
  rw [hks]
  rfl

theorem handoverJudged_of_none {s : State} (h : s.span.proving = none) (was : Nat) : handoverJudged was s = s := by
  unfold handoverJudged
  rw [h]

/-- A handover whose step brought no disagreement has passed. -/
theorem handoverJudged_passed {s : State} {forced : Bool} (h : s.span.proving = some forced) :
    handoverJudged (obj s 0x8200 5) s = bumpObj 0x8200 7 1 32 (s.setSpan fun p => { p with proving := none }) := by
  unfold handoverJudged
  rw [h]
  exact if_pos rfl

theorem exec_stepRecord_syncing {s : State} (hup : linkUp s 12 = true) (htwin : s.span.twin = .syncing) (step : Nat) (led dir : BitVec 384)
    (bs : List (Nat × List Nat)) (check : Option Bool) (cmds : List (Nat × Nat × List Byte)) (seqs : List (Nat × Nat)) :
    exec (.stepRecord step led dir bs check seqs cmds) s =
      .next ((recordHeard s).setSpan fun p => { p with cut := seqs.foldl (fun m q => tins m q.1 q.2) [] }) :=
  (if_neg (by rw [hup]; exact Bool.false_ne_true)).trans (if_pos htwin)

theorem paired_cases {s : State} (h : paired s = true) : s.span.twin = .lead ∨ s.span.twin = .follow := by
  simpa [paired] using h

/-- The digests of the step that this twin has closed are compared with the partner's (R598). -/
def digestsCompared (step : Nat) (led dir : BitVec 384) (v : State) : State :=
  if step = v.clk.last ∧ (led ≠ v.span.cutLedger ∨ dir ≠ v.span.cutDir) then disagree v.span.cutLog v else v

/-- A record without buckets is compared by its digests alone. -/
theorem exec_stepRecord {s v : State} (hup : linkUp s 12 = true) (hpair : paired s = true) (hpartner : s.span.partner = []) (step : Nat)
    (led dir : BitVec 384) (check : Option Bool) (cmds : List (Nat × Nat × List Byte)) (seqs : List (Nat × Nat))
    (hv : v = handoverJudged (obj (recordTaken check cmds s) 0x8200 5) (recordTaken check cmds s)) :
    exec (.stepRecord step led dir [] check seqs cmds) s = .next (digestsCompared step led dir v) := by
  have hsync : s.span.twin ≠ .syncing := by rcases paired_cases hpair with h | h <;> rw [h] <;> decide
  have hgo : (!paired (recordHeard s)) ≠ true := by rw [show paired (recordHeard s) = true from hpair]; exact Bool.false_ne_true
  have hexec : exec (.stepRecord step led dir [] check seqs cmds) s = .next (digestsCompared step led dir
      (handoverJudged (obj (recordTaken check cmds s) 0x8200 5) (compareBuckets (recordTaken check cmds s)))) :=
    (if_neg (by rw [hup]; exact Bool.false_ne_true)).trans ((if_neg hsync).trans (if_neg hgo))
  rw [hexec, compareBuckets_of_none (s := recordTaken check cmds s) hpartner, hv]

/-- A disagreement is counted, and a self-check is due (R600). -/
theorem disagree_span {s : State} (h : s.span.disagree = false) (since : Nat) :
    (disagree since s).span = { s.span with disagree := true, own := none, other := none, logAt := since } := by
  refine Eq.trans (b := { s.span with disagree := true, own := none, other := none
                                      logAt := if s.span.disagree then min s.span.logAt since else since }) rfl ?_
  rw [h]
  rfl

theorem obj_disagree (since : Nat) (s : State) : obj (disagree since s) 0x8200 5 = (obj s 0x8200 5 + 1) % 2 ^ 32 :=
  obj_bumpObj_same ..

theorem exec_stepRecord_follow {s : State} (hup : linkUp s 12 = true) (htwin : s.span.twin = .follow) (hpartner : s.span.partner = [])
    (hproving : s.span.proving = none) (step : Nat) (led dir : BitVec 384) (check : Option Bool) (cmds : List (Nat × Nat × List Byte))
    (seqs : List (Nat × Nat)) : exec (.stepRecord step led dir [] check seqs cmds) s =
      .next (digestsCompared step led dir (recordTaken check cmds s)) :=
  exec_stepRecord hup (by simp [paired, htwin]) hpartner _ _ _ _ _ _ (handoverJudged_of_none (s := recordTaken check cmds s) hproving _).symm

/-! ## Self-checks and the table of R601 -/

theorem exec_twinSelfCheck {s : State} (hdis : s.span.disagree = true) (hown : s.span.own = none) (hwin : s.clk.winOpen = true) (ok : Bool) :
    exec (.twinSelfCheck ok) s = .next { s with span := { s.span with own := some (!ok || logFault s) } } :=
  if_pos ⟨hdis, by rw [hown]; rfl, hwin⟩

/-- The results of a disagreement are taken. -/
def verdictTaken (s : State) : State := s.setSpan fun p => { p with disagree := false, own := none, other := none }

theorem exec_disagreementAction_lead {s : State} {own other : Bool} (hown : s.span.own = some own) (hother : s.span.other = some other)
    (htwin : s.span.twin = .lead) : exec .disagreementAction s =
      .next (if own && !other then stopTwin .fenced 2 (verdictTaken s) else alarm (if other then 2 else 1) (verdictTaken s)) := by
  show execDisagreementAction s = _
  unfold execDisagreementAction
  rw [hown, hother, htwin]
  exact (if_neg (by simp [paired, State.setSpan, htwin])).trans (if_pos rfl)

theorem exec_disagreementAction_follow {s : State} {own other : Bool} (hown : s.span.own = some own) (hother : s.span.other = some other)
    (htwin : s.span.twin = .follow) : exec .disagreementAction s =
      if !other && !own then .next (stopTwin .detached 1 (verdictTaken s))
      else if own then .next (stopTwin .fenced 2 (verdictTaken s)) else .next (goSole 2 (verdictTaken s)) := by
  show execDisagreementAction s = _
  unfold execDisagreementAction
  rw [hown, hother, htwin]
  exact (if_neg (by simp [paired, State.setSpan, htwin])).trans (if_neg Bool.false_ne_true)

theorem stopTwin_span (t : TwinState) (why : Nat) (s : State) : (stopTwin t why s).span = { s.span with twin := t } := alarm_span ..

theorem alarmed_stopTwin {s u : State} (h : u.tal.eventCount = s.tal.eventCount) (t : TwinState) (why : Nat) :
    Alarmed why s (stopTwin t why u) := alarmed_of_tal (u := setTwin t u) h why

end Sys2Proof.Machine
end

section
/-! PROOFS. The phases of a resynchronisation, the roles that return after it, and a handover that fails (R604 to R607). -/

namespace Sys2Proof.Machine

/-! ## Phases 0 to 4 (R604) -/

section
variable {s : State} (hup : linkUp s 12 = true)
include hup

theorem exec_resyncPhaseEnd_sole (hphase : obj s 0x8300 1 = 0) (htwin : s.span.twin = .sole) :
    exec .resyncPhaseEnd s = .next (setObj 0x8300 1 1 (setObj 0x8300 2 (resyncUnits s) s)) :=
  (if_neg (by rw [hup]; exact Bool.false_ne_true)).trans ((if_pos hphase).trans (if_pos htwin))

theorem exec_resyncPhaseEnd_reset (hphase : obj s 0x8300 1 = 0) (hpair : paired s = true) (hseen : s.clk.seen = false) :
    exec .resyncPhaseEnd s = .next (setObj 0x8300 1 1 (setTwin .syncing s)) := by
  have hsole : s.span.twin ≠ .sole := by rcases paired_cases hpair with h | h <;> rw [h] <;> decide
  exact (if_neg (by rw [hup]; exact Bool.false_ne_true)).trans ((if_pos hphase).trans ((if_neg hsole).trans
    (if_pos ⟨hpair, by rw [hseen]; rfl⟩)))

/-- From phase 1 on, the phase's own row. -/
theorem exec_resyncPhaseEnd {n : Nat} (hphase : obj s 0x8300 1 = n) (hn : n ≠ 0) : exec .resyncPhaseEnd s =
    if n = 1 then .next (setObj 0x8300 1 2 (setObj 0x8300 2 0 s))
    else if n = 2 then .next (setObj 0x8300 1 3 (if s.span.twin == .syncing then s else s.setSpan fun p => { p with cut := seqDelta s }))
    else if n = 3 then .next (setObj 0x8300 1 4 (if s.span.twin == .syncing then joinPair s else setTwin .lead (sendCut s)))
    else if n = 4 then .next (setObj 0x8300 1 5 s)
    else .next (setObj 0x8300 1 0 (rolesReturn s)) := by
  subst hphase
  exact (if_neg (by rw [hup]; exact Bool.false_ne_true)).trans (if_neg hn)

end

/-! ## The roles return (R604, R606) -/

theorem rolesReturn_of_same {s : State} (h : s.span.twin = if obj s 0x8100 1 = 1 then .lead else .follow) : rolesReturn s = s :=
  if_pos h

/-- The role changes, and the tracked home goes to the twin that is to have it. -/
theorem rolesReturn_of_changed {s : State} {role : TwinState} (hrole : role = if obj s 0x8100 1 = 1 then .lead else .follow)
    (h : s.span.twin ≠ role) : rolesReturn s = passHome false (setTwin role (s.setSpan fun p => { p with handover := some s.clk.last })) := by
  subst hrole
  exact if_neg h

theorem passHome_leaves {s : State} {across : Bool} (h : homeActive (s.setSpan fun p => { p with swapped := across }) = false) :
    passHome across s = s.setSpan fun p => { p with swapped := across } :=
  if_neg (by rw [h]; exact Bool.false_ne_true)

theorem passHome_takes {s : State} {across : Bool} (h : homeActive (s.setSpan fun p => { p with swapped := across }) = true) :
    passHome across s = takeHome (s.setSpan fun p => { p with swapped := across }) :=
  if_pos h

/-! ## Overflow and failure -/

theorem exec_holdBufferOverflow {s : State} (htwin : s.span.twin = .syncing) (hphase : obj s 0x8300 1 = 3) :
    exec .holdBufferOverflow s = .next (bumpObj 0x8300 3 1 32 (setObj 0x8300 1 2
      (s.setCoh fun c => { c with reqs := c.reqs.filter fun r => r.stage != .held }))) :=
  if_pos ⟨htwin, hphase⟩

/-- The handover is over, and the home is to be where it was. -/
def handoverUndone (s : State) : State := s.setSpan fun p => { p with handover := none, swapped := !p.swapped }

theorem exec_handoverFail {s : State} {n : Nat} (h : s.span.handover = some n) : exec .handoverFail s =
    .next (alarm 6 (bumpObj 0x8200 8 1 32 (if homeActive (handoverUndone s) then takeHome (handoverUndone s) else handoverUndone s))) :=
  if_neg (by rw [h]; exact Bool.false_ne_true)

end Sys2Proof.Machine
end

section
/-! PROOFS. A span's members and a twin pair work together (R576 to R607). -/

namespace Sys2Proof.Machine

/-! ## Spans -/

theorem spanMapWrite_answered {s : State} {p : Prin} (rec : List Byte) (ha : answering s = true) (hp : mayTouch p 0x8000 1 = true) :
    (mapOk rec = true → rec.length = 1808 → ∃ t, exec (.spanMapWrite p rec) s = .next t ∧ objDomLast t 0x8000 1 = rec ∧
      objDom t 0x8000 1 = objDom s 0x8000 1) ∧
    (mapOk rec = false ∨ rec.length ≠ 1808 → exec (.spanMapWrite p rec) s = .next (bumpObj 0x1022 1 1 32 s)) := by
  refine ⟨fun hok hlen => ⟨_, next_objCmd ha hp (writeMap_accepted hok hlen s), objDomLast_waitDom_same .., objDom_waitDom ..⟩, fun h => ?_⟩
  obtain ⟨code, hcode, hw⟩ := writeMap_refused h s
  exact next_objCmd_code ha hp hw hcode

theorem stripedPart_prepared {s u : State} {port : Fin 13} {desc : Desc} {home : Fin 16} {d len : Nat} {input : List Byte} {f : Flight}
    (hspan : 8 ≤ port.val) (hvia : port.val ≠ 12) (hup : linkUp s port.val = true) (hsunk : sunk s = false)
    (hhome : home.val ≠ ownIndex s) (htwo : twoPhase desc = true) (hf : f = partFlight s home.val d len desc input)
    (hu : u = partTaken f s) (hgone : partGone u f = none) (hcode : (memEff desc input u).code = 0)
    (hfresh : ∀ g ∈ s.attn.flights, g.id ≠ s.attn.nextId) :
    ∃ t, exec (.stripedPart port desc home d len input) s = .next t ∧ t.mem = s.mem ∧ f.qp = 1024 + home.val ∧ f.seq = d ∧ f.desc = desc ∧
      t.attn.flights = s.attn.flights ++ [{ f with prep := slabGrown u (memEff desc input u).s }] ∧
      t.kv = ((slabGrown u (memEff desc input u).s).foldl (takeFrame f.tenant) s).kv ∧
      t.out = s.out ++ (routesTo s home.val).map fun l => .span l 4 d
        (leBytes 0 1 ++ leBytes 0 1 ++ leBytes (memEff desc input u).r1 4 ++ leBytes (memEff desc input u).r2 4 ++ leBytes 0 1) := by
  have hexec : exec (.stripedPart port desc home d len input) s = .next (runPart f u) := by
    rw [hu] at hgone ⊢
    exact exec_stripedPart hspan hvia hup hsunk hhome htwo hf hgone
  obtain ⟨hmem, hflights, hkv, hout⟩ := stripedPart_prepares htwo hf hu hcode hfresh rfl
  exact ⟨_, hexec, hmem, by rw [hf]; rfl, by rw [hf]; rfl, by rw [hf]; rfl, hflights, hkv, hout⟩

theorem memberReport_taken {s : State} {d : Nat} {i : Fin 16} {code detail : BitVec 8} {r1 r2 rounds : Nat} {f g : Flight}
    (hf : flightOf s d = some f) (hqp : f.qp < 1024) (hi : f.members.contains i.val = true) (htwo : twoPhase f.desc = true)
    (hg : g = { f with members := f.members.erase i.val, codes := f.codes ++ [(code.toNat, detail.toNat)], r2 := f.r2 + r2 }) :
    exec (.memberReport d i code detail r1 r2 rounds) s = .next (finishStriped d (setFlight g s)) ∧
    (f.members.erase i.val ≠ [] → exec (.memberReport d i code detail r1 r2 rounds) s =
      .next { s with attn := { s.attn with flights := s.attn.flights.map fun h => if h.id = f.id then g else h } }) := by
  have hexec : exec (.memberReport d i code detail r1 r2 rounds) s = .next (finishStriped d (setFlight g s)) := by
    rw [hg]
    exact exec_memberReport hf hqp hi htwo
  have hid : g.id = f.id := by rw [hg]
  have hmembers : g.members = f.members.erase i.val := by rw [hg]
  refine ⟨hexec, fun hmore => hexec.trans ?_⟩
  have hg' : flightOf (setFlight g s) d = some g := flightOf_setFlight hf hid
  rw [finishStriped_waits hg' (by rw [hmembers]; exact hmore), ← hid]
  rfl

theorem stripeCommit_applies {s : State} {port : Fin 13} {d : Nat} {f : Flight} {e : Eff} (hf : partOf s port.val d = some f)
    (htwo : twoPhase f.desc = true) (he : applyPart f s = e) :
    ∃ t, exec (.stripeCommit port d) s = .next t ∧ (∀ g ∈ t.attn.flights, g.id ≠ f.id) ∧
      (e.code = 0 → t.kv = e.s.kv ∧ t.mem = e.s.mem ∧ t.hbm = e.s.hbm) ∧
      (e.code ≠ 0 → t.kv = (givePrep f s).kv ∧ t.mem = s.mem ∧ t.hbm = s.hbm) := by
  refine ⟨_, exec_stripeCommit hf htwo rfl, fun g hg => flight_left hg, fun hc => ?_, fun hc => ?_⟩
  · rw [he, if_pos hc]
    exact ⟨rfl, rfl, rfl⟩
  · rw [he, if_neg hc]
    exact ⟨rfl, (givePrep_keeps ..).mem rfl, (givePrep_keeps ..).hbm rfl⟩

theorem stripeAbort_releases {s : State} {port : Fin 13} {d : Nat} {f : Flight} (hf : partOf s port.val d = some f) :
    (twoPhase f.desc = true → ∃ u, exec (.stripeAbort port d) s = .next (swapAll u) ∧ (∀ g ∈ u.attn.flights, g.id ≠ f.id) ∧
      u.kv = (givePrep f s).kv ∧ u.mem = s.mem) ∧
    (twoPhase f.desc = false → ∃ u, exec (.stripeAbort port d) s = .next (swapAll (complete f.id 0 0 0 0 u)) ∧ u.mem = s.mem ∧
      ∀ c, c ∈ u.attn.cores → ∀ w ∈ c.2.queue, w.desc ≠ f.id) := by
  refine ⟨fun htwo => ⟨_, (exec_stripeAbort hf).trans ?_, fun g hg => flight_left hg, partStopped_kv f s, partStopped_mem f s⟩,
    fun hone => ⟨partStopped f s, (exec_stripeAbort hf).trans ?_, partStopped_mem f s, fun c hc w hw => partStopped_queue hc hw⟩⟩
  · rw [if_pos htwo]
  · rw [hone]
    rfl

/-! ## The pair's log and its paths -/

theorem twinLogRecord_applied {s : State} (src tag line : Nat) (entry : BitVec 64) (data : List Byte)
    (hpair : paired s = true ∨ s.span.twin = .syncing) (hhome : homeActive s = false) (hup : linkUp s 12 = true)
    (hdir : Tbl.Rising s.coh.dir) :
    ∃ t, exec (.twinLogRecord src tag line entry data) s = .next t ∧ t.span.logged = s.span.logged + 1 ∧
      t.span.heardVia = s.time.cycle ∧ t.span.viaSilent = false ∧ (∀ l, dirOf t l = if l = line then (if fld entry 28 26 = 0 then dirI else logEntryDir s entry) else dirOf s l) ∧
      (data.length ≠ 64 → t.mem = s.mem) ∧
      (data.length = 64 → t.mem.bytes = mwriteMask s.mem.bytes (line * 64) (2 ^ 64 - 1) data) ∧
      ((∀ r ∈ s.coh.reqs, r.stage ≠ .held) → t.coh.reqs = s.coh.reqs) ∧
      (∀ r, s.coh.reqs = [r] → r.stage = .held → r.src = src → r.tag = tag → t.coh.reqs = []) := by
  have hexec := exec_twinLogRecord (src := src) (tag := tag) (line := line) (entry := entry) (data := data) hpair hhome hup rfl
  generalize hheard : logHeard (leBytes src 1 ++ leBytes tag 2 ++ leBytes line 8 ++ leBytes entry.toNat 8 ++ data) s = v at hexec
  have hspan : (logApplied line entry data v).span = v.span := (logApplied_keeps ..).span rfl
  have hreqs : (logApplied line entry data v).coh.reqs = s.coh.reqs := by rw [logApplied_reqs, ← hheard]; rfl
  have hentry : logEntryDir v entry = logEntryDir s entry := by rw [← hheard]; rfl
  have hdirs : ∀ l, dirOf (logApplied line entry data v) l =
      if l = line then (if fld entry 28 26 = 0 then dirI else logEntryDir s entry) else dirOf s l := fun l => by
    rw [dirOf_logApplied (by rw [← hheard]; exact hdir), hentry, ← hheard]
    rfl
  have hmem : data.length ≠ 64 → (logApplied line entry data v).mem = s.mem := fun h => by
    rw [logApplied_mem line entry h, ← hheard]
    rfl
  have hbytes : data.length = 64 → (logApplied line entry data v).mem.bytes = mwriteMask s.mem.bytes (line * 64) (2 ^ 64 - 1) data :=
    fun h => by
      rw [logApplied_bytes line entry h, ← hheard]
      rfl
  generalize logApplied line entry data v = u at *
  have hkeep := dropServed_keeps (logServed src tag line u) u
  have htspan : (dropServed (logServed src tag line u) u).span = v.span := (hkeep.span rfl).trans hspan
  refine ⟨_, hexec, ?_, ?_, ?_, fun l => ?_, fun h => (hkeep.mem rfl).trans (hmem h), fun h => ?_, fun h => ?_, fun r hr hheld hsrc htag => ?_⟩
  · rw [htspan, ← hheard]; rfl
  · rw [htspan, ← hheard]; rfl
  · rw [htspan, ← hheard]; rfl
  · rw [dirOf_of_coh (dropServed_dir ..), hdirs]
  · rw [hkeep.mem rfl, hbytes h]
  · rw [logServed_none (by rw [hreqs]; exact h)]
    exact hreqs
  · subst hsrc htag
    rw [logServed_one (hreqs.trans hr) hheld]
    have hcoh := dropReq_coh r.id u
    refine (congrArg Coh.reqs hcoh).trans ?_
    change u.coh.reqs.filter _ = []
    rw [hreqs, hr]
    simp

theorem twinKeepalive_sent {s : State} (htalk : twinTalks s = true) (hguard : guardLink s = none) :
    ∃ t, exec .twinKeepalive s = .next t ∧ t.time.cycle = max s.time.cycle (s.span.sentAt + usCycles (obj s 0x8100 3)) ∧
      t.span = { s.span with sentAt := t.time.cycle } ∧
      t.out = if linkUp s 12 then s.out ++ [.span 12 0 0 []] else s.out := by
  have hexec := exec_twinKeepalive htalk hguard rfl
  have hkeep := carryTo_keeps (s.span.sentAt + usCycles (obj s 0x8100 3)) s
  have hcycle := carryTo_cycle (s.span.sentAt + usCycles (obj s 0x8100 3)) s
  generalize carryTo (s.span.sentAt + usCycles (obj s 0x8100 3)) s = u at *
  have hup : linkUp (u.setSpan fun p => { p with sentAt := u.time.cycle }) 12 = linkUp s 12 := linkUp_of_links (hkeep.links rfl) 12
  have hspan := hkeep.span rfl
  have hout := hkeep.out rfl
  refine ⟨_, hexec, ?_, ?_, ?_⟩
  · rw [← hcycle]
    unfold keptAlive
    split <;> rfl
  · rw [← hspan]
    unfold keptAlive
    split <;> rfl
  · rw [← hup, ← hout]
    unfold keptAlive
    split <;> rfl

end Sys2Proof.Machine
end

section
/-! PROOFS. The silence of the paths between two twins (R602, R603). -/

namespace Sys2Proof.Machine

/-! ## What a row of PATH_SILENCE does -/

/-- Time that passes is no event. -/
theorem carryTo_eventCount (c : Nat) (s : State) : (carryTo c s).tal.eventCount = s.tal.eventCount := by
  unfold carryTo elapse
  dsimp only
  split <;> rfl

/-- The silence of the viaduct is due, and the guard link is still heard. -/
theorem viaSilence_noted {s : State} {n c : Nat} (hguard : guardGone s = false) (hn : usCycles (obj s 0x8100 4) = n)
    (hc : max s.time.cycle (s.span.heardVia + n) = c) (hlate : c < s.span.heardGuard + n) {u : State}
    (hu : u = noteSilence (carryTo (s.span.heardVia + n) s)) :
    u.span = { s.span with viaSilent := true } ∧ viaGone u = true ∧ guardGone u = false ∧ u.time.cycle = c ∧
      u.tal.eventCount = s.tal.eventCount := by
  have hkeep := carryTo_keeps (s.span.heardVia + n) s
  have hcycle : (carryTo (s.span.heardVia + n) s).time.cycle = c := (carryTo_cycle ..).trans hc
  have hcount : (carryTo (s.span.heardVia + n) s).tal.eventCount = s.tal.eventCount := carryTo_eventCount ..
  generalize carryTo (s.span.heardVia + n) s = v at *
  have hspan := noteSilence_span (hkeep.dict rfl) (hkeep.span rfl) hn
  have hvia := viaGone_noteSilence (hkeep.dict rfl) (hkeep.span rfl) (hkeep.links rfl) hn
  have hgone := guardGone_noteSilence (hkeep.dict rfl) (hkeep.span rfl) (hkeep.links rfl) hn
  have hdue : decide (s.span.heardVia + n ≤ v.time.cycle) = true := decide_eq_true (by omega)
  have hnot : decide (s.span.heardGuard + n ≤ v.time.cycle) = false := decide_eq_false (by omega)
  rw [hdue, hnot, Bool.or_true, Bool.or_false] at hspan
  subst hu
  exact ⟨hspan, by rw [hvia, hdue, Bool.or_true], by rw [hgone, hnot, hguard]; rfl, hcycle, hcount⟩

/-- What a twin does that has lost the viaduct alone. -/
theorem exec_pathSilence_via {s : State} {n c : Nat} (hpair : paired s = true) (hguard : guardGone s = false)
    (hn : usCycles (obj s 0x8100 4) = n) (hc : max s.time.cycle (s.span.heardVia + n) = c) (hup : linkUp s 12 = true)
    (hquiet : arrivalWins (s.span.heardVia + n) (bringsRecord true) s = false) (hlate : c < s.span.heardGuard + n) :
    ∃ u, exec (.pathSilence true) s = .next (if s.span.twin = .follow then stopTwin .detached 5 u else alarm 5 u) ∧
      u.span = { s.span with viaSilent := true } ∧ u.time.cycle = c ∧ u.tal.eventCount = s.tal.eventCount := by
  have hdue : silenceAt true s = s.span.heardVia + n := congrArg (s.span.heardVia + ·) hn
  have hexec := exec_pathSilence (u := noteSilence (carryTo (s.span.heardVia + n) s)) (viaduct := true) hpair
    (fun h => Bool.false_ne_true (hquiet.symm.trans (hdue ▸ h.2))) (by rw [show pathUp true s = true from hup, hdue]; rfl)
  obtain ⟨hspan, -, hgone, hcycle, hcount⟩ := viaSilence_noted hguard hn hc hlate rfl
  generalize noteSilence (carryTo (s.span.heardVia + n) s) = u at *
  refine ⟨u, ?_, hspan, hcycle, hcount⟩
  rw [hexec, hgone, hspan]
  exact (if_neg fun h => Bool.false_ne_true h.2).trans (if_pos rfl)

/-- The viaduct is down, and the guard link is still heard. -/
theorem exec_pathSilence_down {s : State} (htwin : s.span.twin = .follow) (hguard : guardGone s = false) (hdown : linkUp s 12 = false)
    (hlate : s.time.cycle < s.span.heardGuard + usCycles (obj s 0x8100 4)) :
    exec (.pathSilence true) s = .next (stopTwin .detached 5 (noteSilence s)) := by
  have hexec := exec_pathSilence (s := s) (u := noteSilence s) (viaduct := true) (by simp [paired, htwin])
    (fun h => Bool.false_ne_true (hdown.symm.trans h.1)) (by rw [show pathUp true s = false from hdown]; rfl)
  have hgone := guardGone_noteSilence (s := s) (v := s) rfl rfl rfl rfl
  rw [hguard, decide_eq_false (Nat.not_le.2 hlate)] at hgone
  rw [hexec, hgone, show (noteSilence s).span.twin = .follow from htwin]
  exact (if_neg fun h => Bool.false_ne_true h.2).trans (if_pos rfl)

/-- The silence of the guard link is due. -/
theorem exec_pathSilence_guard {s u : State} {n l : Nat} (hpair : paired s = true) (hn : usCycles (obj s 0x8100 4) = n)
    (hlink : guardLink s = some l) (hup : linkUp s l = true)
    (hquiet : arrivalWins (s.span.heardGuard + n) (bringsRecord false) s = false)
    (hu : u = noteSilence (carryTo (s.span.heardGuard + n) s)) :
    exec (.pathSilence false) s =
      (if viaGone u then .next (goSole (if s.span.twin = .follow then 3 else 4) u) else .next u) ∧
    viaGone u = (viaGone s || decide (s.span.heardVia + n ≤ u.time.cycle)) ∧
    u.span = { s.span with viaSilent := s.span.viaSilent || decide (s.span.heardVia + n ≤ u.time.cycle), guardSilent := true } ∧
    u.time.cycle = max s.time.cycle (s.span.heardGuard + n) ∧ u.tal.eventCount = s.tal.eventCount ∧ Keeps 0x100091 s u := by
  have hdue : silenceAt false s = s.span.heardGuard + n := congrArg (s.span.heardGuard + ·) hn
  have hpath : pathUp false s = true := by
    unfold pathUp
    rw [hlink]
    exact hup
  have hexec := exec_pathSilence (u := noteSilence (carryTo (s.span.heardGuard + n) s)) (viaduct := false) hpair
    (fun h => Bool.false_ne_true (hquiet.symm.trans (hdue ▸ h.2))) (by rw [hpath, hdue]; rfl)
  have hkeep := carryTo_keeps (s.span.heardGuard + n) s
  have hcycle := carryTo_cycle (s.span.heardGuard + n) s
  have hcount := carryTo_eventCount (s.span.heardGuard + n) s
  generalize carryTo (s.span.heardGuard + n) s = v at *
  have hspan := noteSilence_span (hkeep.dict rfl) (hkeep.span rfl) hn
  have hvia := viaGone_noteSilence (hkeep.dict rfl) (hkeep.span rfl) (hkeep.links rfl) hn
  have hgone := guardGone_noteSilence (hkeep.dict rfl) (hkeep.span rfl) (hkeep.links rfl) hn
  rw [decide_eq_true (p := s.span.heardGuard + n ≤ v.time.cycle) (by omega), Bool.or_true] at hspan hgone
  have hall : Keeps 0x100091 s (noteSilence v) := (noteSilence_keeps ..).step hkeep.mono
  have htime : (noteSilence v).time.cycle = v.time.cycle := rfl
  subst hu
  refine ⟨?_, by rw [hvia, htime], by rw [hspan, htime], htime.trans hcycle, hcount, hall⟩
  rw [hexec, hgone, hspan]
  simp only [and_true, Bool.false_eq_true, if_false]

/-! ## The viaduct alone: a follow steps down, a lead raises the alarm -/

theorem pathSilence_detaches {s : State} {n c : Nat} (htwin : s.span.twin = .follow) (hguard : guardGone s = false)
    (hn : usCycles (obj s 0x8100 4) = n) (hc : max s.time.cycle (s.span.heardVia + n) = c) (hup : linkUp s 12 = true)
    (hquiet : arrivalWins (s.span.heardVia + n) (bringsRecord true) s = false) (hlate : c < s.span.heardGuard + n) :
    ∃ t, exec (.pathSilence true) s = .next t ∧ t.span = { s.span with viaSilent := true, twin := .detached } ∧ Alarmed 5 s t ∧
      t.time.cycle = c := by
  obtain ⟨u, hexec, hspan, hcycle, hcount⟩ := exec_pathSilence_via (by simp [paired, htwin]) hguard hn hc hup hquiet hlate
  rw [if_pos htwin] at hexec
  refine ⟨_, hexec, ?_, alarmed_stopTwin hcount .., ?_⟩
  · rw [stopTwin_span, hspan]
  · rw [(stopTwin_keeps ..).time rfl, hcycle]

theorem pathSilence_alarms {s : State} {n c : Nat} (htwin : s.span.twin = .lead) (hguard : guardGone s = false)
    (hn : usCycles (obj s 0x8100 4) = n) (hc : max s.time.cycle (s.span.heardVia + n) = c) (hup : linkUp s 12 = true)
    (hquiet : arrivalWins (s.span.heardVia + n) (bringsRecord true) s = false) (hlate : c < s.span.heardGuard + n) :
    ∃ t, exec (.pathSilence true) s = .next t ∧ t.span = { s.span with viaSilent := true } ∧ Alarmed 5 s t ∧ t.time.cycle = c := by
  obtain ⟨u, hexec, hspan, hcycle, hcount⟩ := exec_pathSilence_via (by simp [paired, htwin]) hguard hn hc hup hquiet hlate
  rw [if_neg (by rw [htwin]; decide)] at hexec
  exact ⟨_, hexec, (alarm_span ..).trans hspan, alarmed_of_tal hcount 5, by rw [(alarm_keeps ..).time rfl, hcycle]⟩

theorem pathSilence_down {s : State} (htwin : s.span.twin = .follow) (hguard : guardGone s = false) (hdown : linkUp s 12 = false)
    (hlate : s.time.cycle < s.span.heardGuard + usCycles (obj s 0x8100 4)) :
    ∃ t, exec (.pathSilence true) s = .next t ∧ t.span.twin = .detached ∧ Alarmed 5 s t ∧ t.time = s.time := by
  refine ⟨_, exec_pathSilence_down htwin hguard hdown hlate, ?_, alarmed_stopTwin (u := noteSilence s) rfl .., ?_⟩
  · rw [stopTwin_span]
  · rw [(stopTwin_keeps ..).time rfl]
    rfl

/-! ## The guard link alone, and both paths -/

theorem pathSilence_guard {s : State} {n c l : Nat} (hpair : paired s = true) (hvia : viaGone s = false)
    (hn : usCycles (obj s 0x8100 4) = n) (hc : max s.time.cycle (s.span.heardGuard + n) = c) (hlink : guardLink s = some l)
    (hup : linkUp s l = true) (hquiet : arrivalWins (s.span.heardGuard + n) (bringsRecord false) s = false)
    (hlate : c < s.span.heardVia + n) :
    ∃ t, exec (.pathSilence false) s = .next t ∧ t.span = { s.span with guardSilent := true } ∧ t.dict = s.dict ∧ t.time.cycle = c := by
  obtain ⟨hexec, hgone, hspan, hcycle, -, hkeep⟩ := exec_pathSilence_guard hpair hn hlink hup hquiet rfl
  generalize noteSilence (carryTo (s.span.heardGuard + n) s) = u at *
  rw [decide_eq_false (p := s.span.heardVia + n ≤ u.time.cycle) (by omega)] at hgone hspan
  rw [hgone, hvia] at hexec
  exact ⟨u, hexec, by rw [hspan, Bool.or_false], hkeep.dict rfl, hcycle.trans hc⟩

theorem pathSilence_takesOver {s : State} {n l : Nat} (htwin : s.span.twin = .follow) (hvia : viaGone s = true)
    (hn : usCycles (obj s 0x8100 4) = n) (hlink : guardLink s = some l) (hup : linkUp s l = true)
    (hquiet : arrivalWins (s.span.heardGuard + n) (bringsRecord false) s = false) :
    ∃ u, exec (.pathSilence false) s = .next (goSole 3 u) ∧ u.span = { s.span with viaSilent := u.span.viaSilent, guardSilent := true } ∧
      u.coh = s.coh ∧ u.mem = s.mem ∧ u.time.cycle = max s.time.cycle (s.span.heardGuard + n) := by
  obtain ⟨hexec, hgone, hspan, hcycle, -, hkeep⟩ := exec_pathSilence_guard (by simp [paired, htwin]) hn hlink hup hquiet rfl
  generalize noteSilence (carryTo (s.span.heardGuard + n) s) = u at *
  rw [hgone, hvia, Bool.true_or, if_pos rfl, if_pos htwin] at hexec
  exact ⟨u, hexec, by rw [hspan], hkeep.coh rfl, hkeep.mem rfl, hcycle⟩

theorem pathSilence_goesAlone {s : State} {n l : Nat} (htwin : s.span.twin = .lead) (hvia : viaGone s = true) (hreqs : s.coh.reqs = [])
    (hn : usCycles (obj s 0x8100 4) = n) (hlink : guardLink s = some l) (hup : linkUp s l = true)
    (hquiet : arrivalWins (s.span.heardGuard + n) (bringsRecord false) s = false) :
    ∃ t, exec (.pathSilence false) s = .next t ∧ t.span.twin = .sole ∧ t.span.mirror = [] ∧ t.span.accepted = [] ∧ Alarmed 4 s t := by
  obtain ⟨hexec, hgone, hspan, -, hcount, hkeep⟩ := exec_pathSilence_guard (by simp [paired, htwin]) hn hlink hup hquiet rfl
  generalize noteSilence (carryTo (s.span.heardGuard + n) s) = u at *
  rw [hgone, hvia, Bool.true_or, if_pos rfl, if_neg (by rw [htwin]; decide), goSole_lead (by rw [hspan, htwin]) (by rw [hkeep.coh rfl, hreqs])]
    at hexec
  refine ⟨_, hexec, ?_⟩
  rw [alarm_span]
  exact ⟨rfl, rfl, rfl, alarmed_of_tal (by exact hcount) 4⟩

end Sys2Proof.Machine
end

section
/-! PROOFS. Spans and twin pairs work together (R576 to R607). -/

namespace Sys2Proof.Machine

/-! ## Records and disagreements (R595 to R601) -/

theorem stepRecord_follows {s : State} (step : Nat) (led dir : BitVec 384) (check : Option Bool) (cmds : List (Nat × Nat × List Byte))
    (seqs : List (Nat × Nat)) (hup : linkUp s 12 = true) (htwin : s.span.twin = .follow) (hpartner : s.span.partner = [])
    (hdis : s.span.disagree = false) (hproving : s.span.proving = none) :
    ∃ t, exec (.stepRecord step led dir [] check seqs cmds) s = .next t ∧ t.span.recordIn = true ∧ t.span.heardVia = s.time.cycle ∧
      t.span.mirror = s.span.mirror ++ cmds.map (fun c => (1, mirrorOf c)) ∧
      (step ≠ s.clk.last ∨ led = s.span.cutLedger ∧ dir = s.span.cutDir → t.span.disagree = false ∧ t.dict = s.dict) ∧
      (step = s.clk.last → led ≠ s.span.cutLedger ∨ dir ≠ s.span.cutDir →
        t.span.disagree = true ∧ t.span.own = none ∧ t.span.other = none ∧ t.span.logAt = s.span.cutLog ∧
          obj t 0x8200 5 = (obj s 0x8200 5 + 1) % 2 ^ 32) := by
  refine ⟨_, exec_stepRecord_follow hup htwin hpartner hproving _ _ _ _ _ _, ?_⟩
  have hmirror : (recordTaken check cmds s).span.mirror = s.span.mirror ++ cmds.map (fun c => (1, mirrorOf c)) := if_pos htwin
  by_cases hdiff : step = s.clk.last ∧ (led ≠ s.span.cutLedger ∨ dir ≠ s.span.cutDir)
  · have ht : digestsCompared step led dir (recordTaken check cmds s) = disagree s.span.cutLog (recordTaken check cmds s) := if_pos hdiff
    rw [ht, disagree_span (s := recordTaken check cmds s) hdis]
    refine ⟨rfl, rfl, hmirror, fun h => ?_, fun _ _ => ⟨rfl, rfl, rfl, rfl, obj_disagree ..⟩⟩
    rcases h with h | ⟨hled, hdir⟩
    · exact absurd hdiff.1 h
    · exact absurd hdiff.2 (by simp [hled, hdir])
  · have ht : digestsCompared step led dir (recordTaken check cmds s) = recordTaken check cmds s := if_neg hdiff
    rw [ht]
    exact ⟨rfl, rfl, hmirror, fun _ => ⟨hdis, rfl⟩, fun h h' => absurd ⟨h, h'⟩ hdiff⟩

theorem digestsCompared_of_ne {step : Nat} {led dir : BitVec 384} {v : State} (h : step ≠ v.clk.last) : digestsCompared step led dir v = v :=
  if_neg fun hd => h hd.1

theorem stepRecord_passes {s : State} (step : Nat) (led dir : BitVec 384) (check : Option Bool) (cmds : List (Nat × Nat × List Byte))
    (seqs : List (Nat × Nat)) {forced : Bool} (hup : linkUp s 12 = true) (hpair : paired s = true) (hpartner : s.span.partner = [])
    (hproving : s.span.proving = some forced) (hstep : step ≠ s.clk.last) :
    ∃ t, exec (.stepRecord step led dir [] check seqs cmds) s = .next t ∧ t.span.proving = none ∧
      obj t 0x8200 7 = (obj s 0x8200 7 + 1) % 2 ^ 32 := by
  have hexec := exec_stepRecord hup hpair hpartner step led dir check cmds seqs
    (handoverJudged_passed (s := recordTaken check cmds s) hproving).symm
  rw [digestsCompared_of_ne (by exact hstep)] at hexec
  exact ⟨_, hexec, rfl, obj_bumpObj_same ..⟩

theorem disagreementAction_decides {s : State} {own other : Bool} (hown : s.span.own = some own) (hother : s.span.other = some other) :
    (s.span.twin = .lead → ∃ t, exec .disagreementAction s = .next t ∧ t.span.disagree = false ∧
      t.span.twin = (if own && !other then .fenced else .lead) ∧ Alarmed (if own || other then 2 else 1) s t) ∧
    (s.span.twin = .follow → own || !other → ∃ t, exec .disagreementAction s = .next t ∧ t.span.disagree = false ∧
      t.span.twin = (if own then .fenced else .detached) ∧ Alarmed (if own then 2 else 1) s t) ∧
    (s.span.twin = .follow → own = false → other = true →
      ∃ u, exec .disagreementAction s = .next (goSole 2 u) ∧ u.span.twin = .follow ∧ u.span.disagree = false ∧ u.coh = s.coh ∧ u.mem = s.mem) := by
  have hstop : ∀ t why, (stopTwin t why (verdictTaken s)).span.disagree = false ∧ (stopTwin t why (verdictTaken s)).span.twin = t ∧
      Alarmed why s (stopTwin t why (verdictTaken s)) := fun t why =>
    have hspan := stopTwin_span t why (verdictTaken s)
    ⟨(congrArg Span.disagree hspan).trans rfl, congrArg Span.twin hspan, alarmed_stopTwin (u := verdictTaken s) rfl t why⟩
  have halarm : ∀ why, (alarm why (verdictTaken s)).span.disagree = false ∧ (alarm why (verdictTaken s)).span.twin = s.span.twin ∧
      Alarmed why s (alarm why (verdictTaken s)) := fun why =>
    have hspan := alarm_span why (verdictTaken s)
    ⟨(congrArg Span.disagree hspan).trans rfl, (congrArg Span.twin hspan).trans rfl, alarmed_of_tal (u := verdictTaken s) rfl why⟩
  refine ⟨fun htwin => ⟨_, exec_disagreementAction_lead hown hother htwin, ?_⟩, fun htwin hcase => ?_, fun htwin ho ht => ?_⟩
  · rw [htwin] at halarm
    cases own <;> cases other
    · exact halarm 1
    · exact halarm 2
    · exact hstop .fenced 2
    · exact halarm 2
  · have hexec := exec_disagreementAction_follow hown hother htwin
    cases own with
    | true => exact ⟨_, hexec.trans ((if_neg (by simp)).trans (if_pos rfl)), hstop .fenced 2⟩
    | false =>
      have hnone : other = false := by simpa using hcase
      subst hnone
      exact ⟨_, hexec.trans (if_pos rfl), hstop .detached 1⟩
  · subst ho ht
    exact ⟨verdictTaken s, exec_disagreementAction_follow hown hother htwin, htwin, rfl, rfl, rfl⟩

/-! ## Resynchronisation and handover (R604 to R607) -/

theorem resyncPhaseEnd_phases {s : State} (hup : linkUp s 12 = true) :
    (obj s 0x8300 1 = 0 → s.span.twin = .sole → ∃ t, exec .resyncPhaseEnd s = .next t ∧ obj t 0x8300 1 = 1 ∧ obj t 0x8300 2 = resyncUnits s ∧ t.span = s.span) ∧
    (obj s 0x8300 1 = 0 → paired s = true → s.clk.seen = false → ∃ t, exec .resyncPhaseEnd s = .next t ∧ obj t 0x8300 1 = 1 ∧ t.span = { s.span with twin := .syncing }) ∧
    (obj s 0x8300 1 = 1 → ∃ t, exec .resyncPhaseEnd s = .next t ∧ obj t 0x8300 1 = 2 ∧ obj t 0x8300 2 = 0 ∧ t.span = s.span) ∧
    (obj s 0x8300 1 = 2 → ∃ t, exec .resyncPhaseEnd s = .next t ∧ obj t 0x8300 1 = 3 ∧
      t.span = if s.span.twin = .syncing then s.span else { s.span with cut := seqDelta s }) ∧
    (obj s 0x8300 1 = 3 → s.span.twin ≠ .syncing → ∃ t, exec .resyncPhaseEnd s = .next t ∧ obj t 0x8300 1 = 4 ∧ t.span = { s.span with twin := .lead } ∧
      t.out = s.out ++ [.span 12 10 s.clk.last (s.span.cut.flatMap fun q => leBytes q.1 2 ++ leBytes q.2 4)]) ∧
    (obj s 0x8300 1 = 3 → s.span.twin = .syncing → exec .resyncPhaseEnd s = .next (setObj 0x8300 1 4 (joinPair s))) ∧
    (obj s 0x8300 1 = 4 → exec .resyncPhaseEnd s = .next (setObj 0x8300 1 5 s)) := by
  have hexec := fun n => exec_resyncPhaseEnd hup (n := n)
  refine ⟨fun hp htwin => ⟨_, exec_resyncPhaseEnd_sole hup hp htwin, obj_setObj_same .., ?_, rfl⟩,
    fun hp hpair hseen => ⟨_, exec_resyncPhaseEnd_reset hup hp hpair hseen, obj_setObj_same .., rfl⟩,
    fun hp => ⟨_, hexec 1 hp (by decide), obj_setObj_same .., ?_, rfl⟩,
    fun hp => ⟨_, hexec 2 hp (by decide), obj_setObj_same .., ?_⟩, fun hp htwin => ?_, fun hp htwin => ?_,
    fun hp => hexec 4 hp (by decide)⟩
  · exact (obj_setObj_ne (by decide) ..).trans (obj_setObj_same ..)
  · exact (obj_setObj_ne (by decide) ..).trans (obj_setObj_same ..)
  · by_cases htwin : s.span.twin = .syncing
    · exact (congrArg State.span (if_pos (by rw [htwin]; rfl))).trans (if_pos htwin).symm
    · exact (congrArg State.span (if_neg (by simpa using htwin))).trans (if_neg htwin).symm
  · have hne : (s.span.twin == .syncing) = false := by simpa using htwin
    refine ⟨_, (hexec 3 hp (by decide)).trans (congrArg Host.Outcome.next (congrArg (setObj 0x8300 1 4) (if_neg ?_))), obj_setObj_same .., rfl, rfl⟩
    rw [hne]
    exact Bool.false_ne_true
  · exact (hexec 3 hp (by decide)).trans (congrArg Host.Outcome.next (congrArg (setObj 0x8300 1 4) (if_pos (by rw [htwin]; rfl))))

theorem resyncPhaseEnd_roles {s : State} (hup : linkUp s 12 = true) (hphase : obj s 0x8300 1 = 5) :
    (obj s 0x8100 1 ≠ 1 → s.span.twin = .follow → exec .resyncPhaseEnd s = .next (setObj 0x8300 1 0 s)) ∧
    (obj s 0x8100 1 ≠ 1 → s.span.twin = .lead → ∃ t, exec .resyncPhaseEnd s = .next t ∧ obj t 0x8300 1 = 0 ∧
      t.span = { s.span with handover := some s.clk.last, twin := .follow, swapped := false }) ∧
    (obj s 0x8100 1 = 1 → s.span.twin = .lead → exec .resyncPhaseEnd s = .next (setObj 0x8300 1 0 s)) ∧
    (obj s 0x8100 1 = 1 → s.span.twin = .follow → ∃ u, exec .resyncPhaseEnd s = .next (setObj 0x8300 1 0 (takeHome u)) ∧
      u.span = { s.span with handover := some s.clk.last, twin := .lead, swapped := false } ∧ u.coh = s.coh) := by
  have hexec : exec .resyncPhaseEnd s = .next (setObj 0x8300 1 0 (rolesReturn s)) := exec_resyncPhaseEnd hup hphase (by decide)
  refine ⟨fun hrole htwin => ?_, fun hrole htwin => ?_, fun hrole htwin => ?_, fun hrole htwin => ?_⟩
  · rw [hexec, rolesReturn_of_same (by rw [if_neg hrole, htwin])]
  · rw [rolesReturn_of_changed (if_neg hrole).symm (by rw [htwin]; decide), passHome_leaves rfl] at hexec
    exact ⟨_, hexec, obj_setObj_same .., rfl⟩
  · rw [hexec, rolesReturn_of_same (by rw [if_pos hrole, htwin])]
  · rw [rolesReturn_of_changed (if_pos hrole).symm (by rw [htwin]; decide), passHome_takes rfl] at hexec
    exact ⟨_, hexec, rfl, rfl⟩

theorem handoverFail_leaves {s : State} {n : Nat} (h : s.span.handover = some n)
    (hhome : s.span.twin = .follow ∧ s.span.swapped = true ∨ s.span.twin = .lead ∧ s.span.swapped = false) :
    ∃ t, exec .handoverFail s = .next t ∧ t.span = { s.span with handover := none, swapped := !s.span.swapped } ∧
      obj t 0x8200 8 = (obj s 0x8200 8 + 1) % 2 ^ 32 ∧ Alarmed 6 s t := by
  have hactive : homeActive (handoverUndone s) = false := by
    rcases hhome with ⟨ht, hw⟩ | ⟨ht, hw⟩ <;> simp [homeActive, handoverUndone, State.setSpan, ht, hw]
  have hexec := exec_handoverFail h
  rw [hactive] at hexec
  refine ⟨_, hexec, alarm_span .., ?_, alarmed_of_tal rfl 6⟩
  rw [obj_alarm_ne (by decide) (by decide)]
  exact obj_bumpObj_same ..

theorem handoverFail_takes {s : State} {n : Nat} (h : s.span.handover = some n)
    (hhome : s.span.twin = .lead ∧ s.span.swapped = true ∨ s.span.twin = .follow ∧ s.span.swapped = false) :
    ∃ u, exec .handoverFail s = .next (alarm 6 (bumpObj 0x8200 8 1 32 (takeHome u))) ∧
      u.span = { s.span with handover := none, swapped := !s.span.swapped } ∧ u.coh = s.coh := by
  have hactive : homeActive (handoverUndone s) = true := by
    rcases hhome with ⟨ht, hw⟩ | ⟨ht, hw⟩ <;> simp [homeActive, handoverUndone, State.setSpan, ht, hw]
  have hexec := exec_handoverFail h
  rw [hactive] at hexec
  exact ⟨handoverUndone s, hexec, rfl, rfl⟩

/-! ## The obligation -/

/-- Settles O60: each row's own equation, and then what its next state reads. -/
theorem spansAndTwinsWork : Obligations.SpansAndTwinsWork := by
  unfold Obligations.SpansAndTwinsWork
  refine ⟨fun s p rec ha hp => spanMapWrite_answered rec ha hp, fun s i d hmap hown => if_neg (by simp [hmap, hown]),
    fun s u port desc home d len input f hspan hvia hup hsunk hhome htwo hf hu hgone hcode hfresh =>
      stripedPart_prepared hspan hvia hup hsunk hhome htwo hf hu hgone hcode hfresh,
    fun s d i code detail r1 r2 rounds f g hf hqp hi htwo hg => memberReport_taken hf hqp hi htwo hg,
    fun s port d f e hf htwo he => stripeCommit_applies hf htwo he, fun s port d f hf => stripeAbort_releases hf,
    fun s port d rows f x k n hf hx hdue hrows => ?_,
    fun s hst hint hsrc htwin hmap hown => ⟨_, exec_successorTakeover hst hint hsrc htwin hmap hown, obj_setObj_same .., rfl⟩,
    fun s src tag line entry data hpair hhome hup hdir => twinLogRecord_applied src tag line entry data hpair hhome hup hdir,
    fun s htalk hguard => twinKeepalive_sent htalk hguard,
    fun s n c htwin hguard hn hc hup hquiet hlate => pathSilence_detaches htwin hguard hn hc hup hquiet hlate,
    fun s htwin hguard hdown hlate => pathSilence_down htwin hguard hdown hlate,
    fun s n c htwin hguard hn hc hup hquiet hlate => pathSilence_alarms htwin hguard hn hc hup hquiet hlate,
    fun s n c l hpair hvia hn hc hlink hup hquiet hlate => pathSilence_guard hpair hvia hn hc hlink hup hquiet hlate,
    fun s n l htwin hvia hn hlink hup hquiet => pathSilence_takesOver htwin hvia hn hlink hup hquiet,
    fun s n l htwin hvia hreqs hn hlink hup hquiet => pathSilence_goesAlone htwin hvia hreqs hn hlink hup hquiet,
    fun s step led dir check cmds seqs => stepRecord_follows step led dir check cmds seqs,
    fun s step led dir check cmds seqs forced => stepRecord_passes step led dir check cmds seqs,
    fun s step led dir bs check cmds seqs hup htwin => ⟨_, exec_stepRecord_syncing hup htwin .., rfl⟩,
    fun s ok hdis hown hwin => exec_twinSelfCheck hdis hown hwin ok, fun s own other hown hother => disagreementAction_decides hown hother,
    fun s hup => resyncPhaseEnd_phases hup, fun s hup hphase _ => resyncPhaseEnd_roles hup hphase,
    fun s htwin hphase => ⟨_, exec_holdBufferOverflow htwin hphase, ?_, ?_, rfl⟩,
    fun s n h hhome => handoverFail_leaves h hhome, fun s n h hhome => handoverFail_takes h hhome⟩
  · subst hx
    exact exec_spanPartial hf hdue hrows
  · exact (obj_setObj_ne (by decide) ..).trans (obj_setObj_same ..)
  · refine (obj_bumpObj_same ..).trans ?_
    rw [obj_setObj_ne (by decide)]
    rfl

end Sys2Proof.Machine
end
